-- ==== Sys2Proof/Word.lean ====
section
/-!
DEFINITION. Word.lean: the byte, the byte string and the 64-bit word, the units in which the spec
states what is stored and what travels (R2, R29).
-/

namespace Sys2Proof

/-- One byte. -/
abbrev Byte := BitVec 8

/-- A byte string, lowest address (or first byte on the wire) first. -/
abbrev Bytes := List Byte

/-- A 64-bit word: a stream entry word, a gallery path, a foot descriptor. -/
abbrev Word64 := BitVec 64

end Sys2Proof
end

