-- ==== Sys2Proof/Syntax.lean ====
section
/-!
DEFINITION. Syntax.lean: the commands and events of spec/opcode_table.json, one constructor a row, and
the records that their operands are. A command's operands are what its sender supplies: the bytes of an
access, a frame, a datagram, a reading of a sensor, a choice that the spec leaves to the Planner.
-/

namespace Sys2Proof

/-- The path an access took to the dictionary; it fixes the role (R33). -/
inductive Via where
  | mailbox   -- CXL mailbox: Host role
  | eop       -- EOP: Field role
  | arcade    -- Arcade OD request: Manager role
  | newel     -- Newel's own firmware: Newel role
  deriving DecidableEq, Repr

/-- A mailbox request as the doorbell finds it: its opcode and its payload, which begins with the 16-byte header of R51 (R50). -/
structure MbReq where
  opcode  : Nat
  payload : Bytes
  deriving DecidableEq, Repr

/-- A dictionary write that reached its entry: the path it took, its gallery path, its value bytes in
little-endian order (R29). -/
structure OdW where
  via   : Via
  path  : Word64
  value : Bytes
  deriving DecidableEq, Repr

/-- A UDP datagram received at a field port: port (0, 1 optical; 2 management), the sender's address as
an IPv6 or IPv4-mapped address, its UDP port, the destination UDP port, whether it is a fragment, the
payload, and whether the Ed448 signature it ends with verifies under the key its KEY_ID names (R58). -/
structure Datagram where
  port     : Nat
  srcAddr  : BitVec 128
  srcPort  : Nat
  dstPort  : Nat
  fragment : Bool
  payload  : Bytes
  sigOk    : Bool
  deriving DecidableEq, Repr

/-- An Arcade frame as it reached this module on an arch and a virtual channel (R408). -/
structure Frame where
  arch     : Nat
  vc       : Nat
  dest     : Word64
  src      : Word64
  ftype    : Nat
  flags    : Nat
  destUnit : Nat
  hops     : Nat
  job      : Nat
  tag      : Nat
  index    : Nat
  payload  : Bytes
  deriving DecidableEq, Repr

/-- A flit as received (R403); `crcOk` says that its FEC codewords and its CRC are good. -/
structure Flit where
  kind      : Nat
  first     : Bool
  last      : Bool
  vc        : Nat
  seq       : Nat
  ack       : Nat
  credVc    : Nat
  credCount : Nat
  body      : Bytes
  crcOk     : Bool
  deriving DecidableEq, Repr

/-- A message across the Balustrade (R470): TYPE, LENGTH, SEQ, body, CRC. -/
structure BalMsg where
  typ  : Nat
  len  : Nat
  seq  : Nat
  body : Bytes
  crc  : Nat
  deriving DecidableEq, Repr

/-- A flight: hall 0 to 3, and 0 to 11 for a P-flight, 12 to 19 for a G-flight (R223). -/
structure FlightId where
  hall : Nat
  idx  : Nat
  deriving DecidableEq, Repr

/-- Bit errors that a memory read meets: word address (a multiple of 8) and the flipped bits of its
80-bit codeword (R257). -/
structure BitErr where
  word : Nat
  bits : List Nat
  deriving DecidableEq, Repr

/-- An error that the hardware makes in a tile while an operation works in it (R119 to R122): `delta` is added to the
narrow sum that promotion number `promo` of the operation brings to a lane, or to the stored sum of a row and lane before the
operation reads it. With `rerun` it happens in the rerun of R121 and not in the operation itself. -/
inductive Upset where
  | narrow (tile promo lane : Nat) (delta : Int) (rerun : Bool)
  | stored (tile row lane : Nat) (delta : Int) (rerun : Bool)
  deriving DecidableEq, Repr

/-- An error that a landing's code finds as an operation reads a word (R203): the landing (a flight's key, or 80 + hall), the
word's number, and whether two bits are wrong and not one. -/
structure LandErr where
  landing : Nat
  word    : Nat
  double  : Bool
  deriving DecidableEq, Repr

/-- What the hardware does to an operation of the foot: its upsets, and the errors of its landing reads. -/
structure FootHw where
  upsets : List Upset
  land   : List LandErr
  deriving DecidableEq, Repr

/-- What the hardware does to a pass: as to an operation of the foot, and besides the blocks of its tensor whose first fetch fails
although their stored bytes are good (R192), and the bit errors that its weight reads meet (R260). -/
structure PassHw where
  foot       : FootHw
  fetchFails : List Nat
  errs       : List BitErr
  deriving DecidableEq, Repr

/-- A weight tensor slice that a load places: hall; where its T5 bytes lie in the window; where its data
area, index table and check table go; its shadow's place, if any; its length in T5 bytes (R181, R382); the member
of the tray that holds it, and where its T5 bytes land there (R390). -/
structure Slice where
  tensor   : Nat
  hall     : Nat
  srcAddr  : Nat
  t5Bytes  : Nat
  dataAddr : Nat
  idxAddr  : Nat
  chkAddr  : Nat
  shadow   : Nat
  member   : Nat
  stage    : Nat
  deriving DecidableEq, Repr

/-- A predicted layer of a package (R161, R163): its default mode, its input channels and output tiles, whether it runs on G-flights, the
sketch list, its predictor planes, the bound table, THETA (mantissa and exponent), and of the layer's drain the lane scales (SAS16) and the 257 words of
its table. -/
structure LayerDef where
  layer  : Nat
  mode   : Nat
  inputs : Nat
  tiles  : Nat
  g      : Bool
  sketch : List Nat
  planes : Nat
  bounds : List Nat
  thetaM : Int
  thetaE : Int
  scales : List Nat
  table  : List Nat
  deriving DecidableEq, Repr

/-- R382: a copy of blocks of a stored slice in a flight's landing: the slice by its place in the package, the flight's key, the blocks in order, and the
byte offsets (multiples of 64) at which their data, index entries and check values lie there. -/
structure LandCopy where
  slice  : Nat
  flight : Nat
  blocks : List Nat
  data   : Nat
  idx    : Nat
  chk    : Nat
  deriving DecidableEq, Repr

/-- R368, R382: an expert of a layer as the placement holds it: member, hall, and the device address and length of its weights. -/
structure ExpertAt where
  layer  : Nat
  expert : Nat
  member : Nat
  hall   : Nat
  addr   : Nat
  len    : Nat
  deriving DecidableEq, Repr

/-- What a class 0 template runs on a flight (R336): the flight's key; its words in the order in which they run, the bodies of REPEAT written out;
the SCOPE of each entry of its barrier table; and for each SPARSE_PASS, in order, the steps that the placed density of the stored weights
gives it with every input and output block active. -/
structure FlightCost where
  flight : Nat
  ops    : List Nat
  scopes : List Nat
  placed : List Nat
  deriving DecidableEq, Repr

/-- What the Planner reads in a model package and decides under R382: everything that the spec leaves to
Xomen's package and to the Planner's choice. -/
structure Package where
  outliers   : List (Nat × Bytes)   -- the outlier list of each group of 256 channels: the group's channels, the list's bytes (R73)
  expt       : List Nat    -- the weight table EXPT, 4,096 entries; empty where the package supplies none (R145)
  partOk     : Bool        -- offset and length agree with the package header (R389)
  planCode   : Nat         -- 0, or the code with which step 2 of R388 refuses
  slices     : List Slice
  copies     : List LandCopy   -- copies in flight landings (R382)
  layers     : List LayerDef
  templates  : Nat
  customs    : Nat
  vocab      : Nat         -- 0: the model generates no tokens
  vocabId    : Nat
  inputLimit : Nat
  resultSize : Nat
  heads      : Nat         -- proposal heads (R349)
  endToken   : Nat
  maskExp    : Nat         -- MASK_EXP (R353)
  layersN    : Nat         -- layers, for the cache (R340)
  cacheHeads : Nat
  rowUnits   : Nat         -- cache block bytes ÷ 4096
  class0     : List FlightCost   -- the class 0 template on each flight (R336)
  pool       : List (Nat × Nat)   -- hall, cache blocks of its pool (R382)
  samplers   : List Nat    -- halls that hold the sampling program (R384)
  experts    : List ExpertAt
  deriving DecidableEq, Repr

/-- A sensor reading: kind (0 thermal in m°C, 1 voltage in mV, 2 current in mA, 3 rate monitor in
k steps/s, 4 a mezzanine package's own temperature report in m°C, R273), its number within the kind (hall × 5 + package for 4), its value, and whether its converter is in range (R480, R482). -/
structure Reading where
  kind  : Nat
  index : Nat
  value : Int
  inRange : Bool
  deriving DecidableEq, Repr

/-- R267: a lane's eye as Training measures it: stack, lane, width in 1/1000 UI, height in mV. -/
structure LaneEye where
  stack  : Nat
  lane   : Nat
  width  : Nat
  height : Nat
  deriving DecidableEq, Repr

/-- The outcome of Training for the parts that can fail it (R537, R538). -/
structure TrainOutcome where
  flightsFailed  : List FlightId
  landingsFailed : List Nat      -- halls whose hall landing fails
  hallPllFailed  : List Nat
  stackPllFailed : List Nat
  mezzPllFailed  : List Nat
  archPllFailed  : List Nat
  cxlPllFailed   : Bool
  plannerFailed  : Bool
  eyes           : List LaneEye      -- measured eyes (R267); `eye` is that of every bonded lane not listed, width in 1/1000 UI and height in mV
  eye            : Nat × Nat
  mezzFailed     : List Nat          -- halls with a mezzanine channel that fails training
  rowsUnrepaired : List (Nat × Nat)  -- listed mezzanine rows that the package cannot repair (R266)
  deriving DecidableEq, Repr

/-- One margined lane: lane or DQ record number, passing timing offsets, passing voltage offsets,
errors at the centre (R550). -/
structure LaneMargin where
  lane   : Nat
  timing : List Int
  volts  : List Int
  errors : Nat
  deriving DecidableEq, Repr

/-- A flight and what the hardware does to its operation of the foot. -/
structure FootCmd where
  flight : FlightId
  hw     : FootHw
  deriving DecidableEq, Repr

/-- A flight and the errors of the landing reads of its COPY (R203). -/
structure CopyCmd where
  flight : FlightId
  land   : List LandErr
  deriving DecidableEq, Repr

/-- What the environment adds to a Mover access: the 64-byte parts of host data that came poisoned, the bit errors of its memory
words and the errors of its landing words (R260, R203, R290). -/
structure MoverErrs where
  bad   : List Nat
  words : List BitErr
  land  : List LandErr
  deriving DecidableEq, Repr

/-- A MOVE_DATA frame and the bit errors of the memory words that its partial writes read (R261). -/
structure MoveFrame where
  frame : Frame
  errs  : List BitErr
  deriving DecidableEq, Repr

/-- A flit, and the bit errors of the memory words that the frame it ends reads (R261). -/
structure RxFlit where
  flit : Flit
  errs : List BitErr
  deriving DecidableEq, Repr

/-- How packing ended: whether the data did not fit, and the members that have ended their shares, each with its refusal or 0 (R390). -/
structure PackEnd where
  noRoom  : Bool
  members : List (Nat × Nat)
  deriving DecidableEq, Repr

/-- A use of a barrier, and with SCOPE 1 the hall whose barrier unit holds it (R238). -/
structure BarrierUse where
  num  : Nat
  hall : Option Nat
  deriving DecidableEq, Repr

/-- What the host orders for a job: its slices, and its streams' places as (stream, hall, pool) (R394). -/
structure RePlan where
  slices : List Slice
  pools  : List (Nat × Nat × Nat)
  deriving DecidableEq, Repr

/-- Whether the written block verified, and the T5 bytes read from the host's home copy (R195). -/
structure WeightCheck where
  ok   : Bool
  home : Bytes
  deriving DecidableEq, Repr

/-- The episode of a program image and the bytes of the image in its package (R247). -/
structure ImageRepair where
  episode : Nat
  image   : Bytes
  deriving DecidableEq, Repr

/-- The commands and events of spec/opcode_table.json, in the table's order. -/
inductive Instr where
  -- dictionary through the mailbox
  | odRead (q : MbReq)
  | odWrite (q : MbReq)
  | odDomainReadStart (q : MbReq)
  | odDomainWriteStart (q : MbReq)
  | odDomainSegment (q : MbReq)
  | odDomainAbort (q : MbReq)
  | odStateWait (q : MbReq)
  | stateWaitTimeout
  | domainAborted (via : Via) (index sub : Nat)
  | proxyTimeout (id : Nat)
  | odRequest (f : Frame) (opcode : Nat) (q : Bytes)
  | odResponse (f : Frame) (id status : Nat) (value : Bytes) (seq : Nat)
  -- EOP
  | eopDatagram (d : Datagram)
  | eopRead (d : Datagram)
  | eopWrite (d : Datagram)
  | eopDomainReadStart (d : Datagram)
  | eopDomainWriteStart (d : Datagram)
  | eopDomainSegment (d : Datagram)
  | eopDomainAbort (d : Datagram)
  -- entries with behaviour of their own
  | stateRequest (w : OdW)
  | stateTransitionEnd
  | store (w : OdW)
  | restore (w : OdW)
  | tenantRootWrite (w : OdW) (tenant : Nat)
  | xlateInvalidate (w : OdW)
  | pageResponse (w : OdW)
  | prlConsumerWrite (w : OdW)
  | clogConsumerWrite (w : OdW)
  | tableBaseWrite (w : OdW) (fieldBase : Bool)
  | hostWindowWrite (w : OdW) (size : Bool)
  | layerModeWrite (w : OdW)
  | loadRequest (w : OdW) (pkg : Package)
  | packingDone (model : Nat) (out : PackEnd)
  | partTimeout (model : Nat)
  | unload (w : OdW)
  | fieldMapWrite (w : OdW)
  | fieldCellSet (w : OdW)
  | errorAck (w : OdW)
  | persistentClear (w : OdW)
  | attestReport (via : Via) (path : Word64)
  | fwImage (w : OdW) (sigOk digestOk : Bool)
  | fwProgramDone (ok : Bool)
  | fwActivate (w : OdW)
  | trainRequest (w : OdW)
  | testStart (w : OdW) (arch : Nat)
  | testAbort (w : OdW)
  | testEnd (bits errors corrected : Nat)
  | marginStart (w : OdW)
  | marginEnd (lanes : List LaneMargin)
  | bistStart (w : OdW)
  | bistEnd (failed : Nat) (rows : List Nat)
  | measStart (w : OdW)
  | measDone (count : Nat)
  -- CXL mailbox commands
  | identify
  | backgroundOperationStatus
  | requestAbortBackgroundOperation
  | getEventRecords (log : Nat)
  | clearEventRecords (log : Nat) (all : Bool) (handles : List Nat)
  | getEventInterruptPolicy
  | setEventInterruptPolicy (policy : Bytes)
  | getTimestamp
  | setTimestamp (t : Nat)
  | getSupportedLogs
  | getLog (log : Nat) (offset length : Nat)
  | identifyMemoryDevice
  -- CXL.mem, CXL.cache, link
  | hdmRead (dpa : Nat) (cached : Bool) (errs : List BitErr)
  | hdmWrite (dpa : Nat) (mask : BitVec 64) (data : Bytes) (poison : Bool) (errs : List BitErr)
  | birsp (line : Nat)
  | birspTimeout (line : Nat)
  | h2dSnoop (hpa : Nat)
  | hdmDecoderCommit (base size ways : Nat)
  | cxlLinkUp (flit256 : Bool) (rate width : Nat)
  | cxlLinkDown
  | perst (high : Bool)
  | flr
  | cxlReset (clear : Bool)
  | d3hotEntry
  | d0Entry
  -- programs
  | programLoad (f : FlightId) (addr len : Nat)
  | programStart (f : FlightId) (slot : Nat)
  | flightOffer (f : FlightId)
  | nop (f : FlightId)
  | endOp (f : FlightId)
  | repeatOp (f : FlightId)
  | waitOp (f : FlightId)
  | barrier (f : FlightId)
  | stepOp (f : FlightId)
  | barrierTimeout (job bid : Nat) (use : BarrierUse)
  | passOp (f : FlightId) (hw : PassHw)
  | sparsePass (f : FlightId) (hw : PassHw)
  | serialPass (f : FlightId) (hw : PassHw)
  | outlierPass (f : FlightId) (hw : PassHw)
  | countPass (f : FlightId) (hw : PassHw)
  | predict (f : FlightId)
  | drain (f : FootCmd)
  | retag (f : FlightId)
  | release (f : FlightId)
  | inject (f : FlightId) (hw : FootHw)
  | statscale (f : FlightId)
  | reduce (f : FlightId)
  | fetch (f : FlightId) (errs : List BitErr)
  | storeOperation (f : FlightId)
  | copy (f : CopyCmd)
  | fillTokens (f : FlightId)
  | fillOutlier (f : FlightId)
  | fillTable (f : FlightId)
  | handleSet (f : FlightId)
  | send (f : FlightId)
  | recv (f : FlightId)
  | broadcast (f : FlightId)
  | allGather (f : FlightId)
  | reduceScatter (f : FlightId)
  | allReduce (f : FlightId)
  | allToAll (f : FlightId)
  | route (f : FlightId)
  | outboundDispatch (f : FlightId)
  | returnDispatch (f : FlightId)
  | combine (f : FootCmd)
  | sample (f : FlightId)
  | mask (f : FlightId)
  | operationEnd (f : FlightId) (op : Nat)
  | preemptionPoint (f : FlightId)
  | programResume (f : FlightId) (slot : Nat)
  | blockRefetchDone (f : FlightId) (block : Nat) (ok : Bool)
  -- Movers
  | moverTake (hall : Nat)
  | moverAccessDone (id : Nat) (data : Bytes) (errs : MoverErrs)
  | pageTimeout (tenant page : Nat)
  | coalesceExpiry (vector : Nat)
  -- serving
  | batchWaitExpiry (hall model cls : Nat)
  | promptShareWindow (hall : Nat)
  | ttlCheck
  | parkDone (stream mezzAddr : Nat)
  | restoreDone (stream : Nat)
  | expertProgramStart (f : FlightId) (slot layer lslot : Nat)
  | exchangeTimeout (job layer : Nat)
  | rebalancePeriod (model : Nat) (loads : List (Nat × Nat × Nat × Nat))
  | replacement (job : Nat) (slices : RePlan)
  -- Arcade
  | hello (f : Frame) (endorsed signed : Bool)
  | helloInterval
  | election (f : Frame)
  | electionSettle
  | barrierArrive (f : Frame)
  | barrierRelease (f : Frame)
  | jobStop (f : Frame)
  | syncEpoch (f : Frame)
  | sendData (f : Frame)
  | collData (f : Frame)
  | manifest (f : Frame)
  | exchRows (f : Frame)
  | returnManifest (f : Frame)
  | returnRows (f : Frame)
  | moveData (f : MoveFrame)
  | moveConfirm (f : Frame)
  | dataFlit (arch : Nat) (fl : RxFlit)
  | nak (arch expected : Nat)
  | ackTimeout (arch : Nat)
  | timeReq (arch t1 t2 t3 : Nat)
  | timeResp (arch t1 t2 t3 t4 : Nat)
  | timeExchangeTick
  | loopReq (arch : Nat) (path : Word64) (key : Bytes)
  | loopAck (arch : Nat)
  | archTraining (arch : Nat) (signal : Bool) (lanesPass : List Nat) (fecLock : Bool) (roundTrip : Nat) (helloOk : Bool)
  | archRetry
  | laneFecWindow (arch : Nat) (corrected : List Nat) (uncorrected : Nat)
  | archDown (arch cause : Nat)
  | rackSyncPulse
  | rackRefLost
  | timeUnaligned
  -- Foyer
  | telemetryDatagram (d : Datagram) (arrival : Nat)
  | telemetry (m : BalMsg)
  | recommend (m : BalMsg)
  | eopReq (m : BalMsg) (sigOk : Bool)
  | eopResp (m : BalMsg)
  | timeReport (m : BalMsg)
  | foyerEvent (m : BalMsg)
  | mapUpdate (m : BalMsg)
  | config (m : BalMsg)
  | timeSet (m : BalMsg)
  | firmware (m : BalMsg)
  | heartbeat (m : BalMsg)
  | heartbeatTimeout
  | portLinkChange (port : Nat) (up : Bool)
  | sfpInserted (port : Nat) (is25gSr : Bool) (milliwatts : Nat)
  | ptpMessage (port transport domain msgType : Nat) (offset : Int)
  | ptpLost
  | esmcPdu (port ql : Nat)
  | esmcTimeout (port : Nat)
  | ppsEdge (time : Nat)
  | ppsWindowEnd (time : Nat)
  | ref10Measure (ppb : Int) (missing : Bool)
  | ppsOutPulse
  -- Newel
  | newelRestart (cause : Nat) (tableOk : Bool)
  | sensorSample (rs : List Reading)
  | logIntervalEnd (code subject : Nat)
  | persistRecord
  | serviceReq (asserted : Bool) (stable : Bool)
  | serviceChatterEnd (asserted : Bool)
  | serviceStandbyTimer
  | thermtrip (sensor : Nat) (milliC : Int)
  | smbusReadModuleState (pecOk : Bool)
  | smbusReadAlertCauses (pecOk : Bool)
  | smbusReadHallTemp (pecOk : Bool)
  | smbusReadStackTemp (pecOk : Bool)
  | smbusReadCoolantInlet (pecOk : Bool)
  | smbusReadCoolantOutlet (pecOk : Bool)
  | smbusReadInputVoltage (pecOk : Bool)
  | smbusReadInputCurrent (pecOk : Bool)
  | smbusReadInputPower (pecOk : Bool)
  | smbusReadIdentity (pecOk : Bool)
  | smbusReadFwVersion (pecOk : Bool)
  | alertResponseAddress (pecOk : Bool)
  -- power and clocks
  | governorTick (avgW : Nat)
  | rateBelowFloor (hall : Nat)
  | powerFastLimit (overWatts : Nat)
  | fastLimitHoldEnd
  | inputVoltageEvent (mv : Nat)
  | freqQualify (source : Nat) (usable : Bool) (qualified : Bool)
  | timebaseLockCheck (present : Bool) (offset : Int)
  | tcxoStart (ok : Bool)
  | pllLock (unit : Nat) (locked : Bool)
  -- memory upkeep
  | scrubRead (addr : Nat) (errs : List BitErr) (late : Bool)
  | rowCountClear (addr : Nat)
  | laneCeWindow (stack : Nat)
  | recentre (hall : Nat)
  | episodeCloseTimer (episode : Nat)
  | weightRepairDone (episode : Nat) (clean : Bool) (verified : WeightCheck)
  -- start-up
  | hotswapClose (mv : Nat)
  | mateDetOpen
  | powerGood (slotOk : Bool) (tcxoOk : Bool)
  | training (o : TrainOutcome)
  | memoryTrainingDone (ms : Nat)
  | ready (ms : Nat)
  -- JTAG
  | extest
  | idcode
  | samplePreload (bits : Bytes)
  | extestPulse
  | extestTrain
  | clamp
  | highz
  | bypass
  -- the last rows of the table
  | corridorDown (corridor : Nat)
  | newelRestartDone
  | fecLockLost (arch : Nat)
  | flitSlot (arch : Nat)
  | echo (arch : Nat) (body : Bytes)
  | msixVectorUnmask (vector : Nat) (function : Bool)
  | icmpEcho (port : Nat) (payload : Bytes)
  | programImageRepaired (episode : ImageRepair)
  deriving DecidableEq, Repr

end Sys2Proof
end

