-- ==== Sys2Proof/Machine/Map.lean ====
section
/-!
DEFINITION. Map.lean: sparse data by key. A map is a list of (key, value) pairs whose keys rise strictly,
so that equal maps are equal data. `kput` and `kdel` keep that form; `kupd` is a map in which every key has
a value, a default that is never listed.
-/

namespace Sys2Proof.Machine

/-- Sparse data by a numeric key. -/
abbrev KMap (α : Type) := List (Nat × α)

/-- The value listed at a key. -/
def kfind {α : Type} (k : Nat) : KMap α → Option α
  | [] => none
  | (k', v) :: t => if k' = k then some v else kfind k t

/-- List a value at a key, in place of what was listed there. -/
def kput {α : Type} (k : Nat) (v : α) : KMap α → KMap α
  | [] => [(k, v)]
  | (k', v') :: t =>
    if k < k' then (k, v) :: (k', v') :: t
    else if k = k' then (k, v) :: t
    else (k', v') :: kput k v t

/-- List nothing at a key. -/
def kdel {α : Type} (k : Nat) : KMap α → KMap α
  | [] => []
  | (k', v') :: t => if k' = k then kdel k t else (k', v') :: kdel k t

/-- The value at a key of a map in which an unlisted key has the value `d`. -/
def kget {α : Type} (d : α) (k : Nat) (m : KMap α) : α := (kfind k m).getD d

/-- Set a key of a map in which an unlisted key has the value `d`: `d` itself is never listed. -/
def kset {α : Type} [DecidableEq α] (d : α) (k : Nat) (v : α) (m : KMap α) : KMap α :=
  if v = d then kdel k m else kput k v m

/-- The keys rise strictly from above `lo`. -/
def kSortedFrom {α : Type} : Nat → KMap α → Bool
  | _, [] => true
  | lo, (k, _) :: t => decide (lo ≤ k) && kSortedFrom (k + 1) t

/-- The canonical form of a map without a default: keys strictly rising. -/
def kSorted {α : Type} (m : KMap α) : Bool := kSortedFrom 0 m

/-- The canonical form of a map with the default `d`: keys strictly rising, `d` nowhere listed. -/
def kwf {α : Type} [DecidableEq α] (d : α) (m : KMap α) : Bool :=
  kSorted m && m.all (fun e => decide (e.2 ≠ d))

/-- Map every listed value. -/
def kmap {α β : Type} (f : Nat → α → β) (m : KMap α) : KMap β := m.map (fun e => (e.1, f e.1 e.2))

/-- Keep the entries that a test accepts. -/
def kfilter {α : Type} (p : Nat → α → Bool) (m : KMap α) : KMap α := m.filter (fun e => p e.1 e.2)

/-- Change the first element that a test accepts; the list is unchanged where there is none. -/
def modFirst {α : Type} (p : α → Bool) (f : α → α) : List α → List α
  | [] => []
  | a :: t => if p a then f a :: t else a :: modFirst p f t

/-- Remove the first element that a test accepts. -/
def dropFirst {α : Type} (p : α → Bool) : List α → List α
  | [] => []
  | a :: t => if p a then t else a :: dropFirst p t

/-- Change every element that a test accepts. -/
def modAll {α : Type} (p : α → Bool) (f : α → α) (l : List α) : List α :=
  l.map (fun a => if p a then f a else a)

/-- Keep the last `n` elements of a list. -/
def keepLast {α : Type} (n : Nat) (l : List α) : List α := l.drop (l.length - n)

end Sys2Proof.Machine
end

