-- ==== Sys2Proof/Machine/Formats.lean ====
section
/-!
DEFINITION. Formats.lean: the number formats of chapters 3 and 5 as functions of their bits: T5, activation
blocks, outlier records, SAS16 scales, requantisation, accumulator values, tables, random bit generators and
token sampling. Values are exact: a mantissa and a power of two.
-/

namespace Sys2Proof.Machine

/-- An exact value m × 2^e. -/
structure Dy where
  m : Int
  e : Int
  deriving DecidableEq, Repr

/-- The zero value. -/
def Dy.zero : Dy := ⟨0, 0⟩

/-- The mantissa of a value at a lower or equal exponent; a higher exponent drops bits toward minus infinity. -/
def Dy.mantAt (x : Dy) (e : Int) : Int :=
  if e ≤ x.e then x.m * (2 : Int) ^ (x.e - e).toNat else x.m / (2 : Int) ^ (e - x.e).toNat

/-- The exact sum. -/
def Dy.add (x y : Dy) : Dy :=
  if x.m = 0 then y else if y.m = 0 then x else
  let e := min x.e y.e
  ⟨x.mantAt e + y.mantAt e, e⟩

/-- The negated value. -/
def Dy.neg (x : Dy) : Dy := ⟨-x.m, x.e⟩

/-- The magnitude. -/
def Dy.abs (x : Dy) : Dy := ⟨x.m.natAbs, x.e⟩

/-- Exact comparison x < y. -/
def Dy.lt (x y : Dy) : Bool :=
  let e := min x.e y.e
  decide (x.mantAt e < y.mantAt e)

/-- Exact comparison x ≤ y. -/
def Dy.le (x y : Dy) : Bool := !(y.lt x)

/-- The larger value. -/
def Dy.max (x y : Dy) : Dy := if x.lt y then y else x

/-- The value times 2^k. -/
def Dy.shift (x : Dy) (k : Int) : Dy := ⟨x.m, x.e + k⟩

/-- ⌊x⌋. -/
def Dy.floor (x : Dy) : Int := x.mantAt 0

/-! ### T5 packing (R65 to R67) -/

/-- R66: byte values 243 to 255 are invalid. -/
def t5Valid (b : Byte) : Bool := decide (b.toNat ≤ 242)

/-- R65: the five weights of a byte, lowest index first. -/
def t5Decode (b : Byte) : List Int :=
  (List.range 5).map (fun i => ((b.toNat / 3 ^ i % 3 : Nat) : Int) - 1)

/-- R65: the byte of five weights. -/
def t5Encode (t : List Int) : Byte :=
  BitVec.ofNat 8 (((t.zip (List.range 5)).map (fun p => (p.1 + 1).toNat * 3 ^ p.2)).sum)

/-- R67: the weight that a site code stands for; 0b10 acts as 0b00. -/
def siteWeight (c : Nat) : Int := if c = 1 then 1 else if c = 3 then -1 else 0

/-- R67: the site code of a weight. -/
def siteCode (w : Int) : Nat := if 0 < w then 1 else if w < 0 then 3 else 0

/-! ### Activation blocks (R68 to R72) -/

/-- R68, R70: a block: shared exponent, CLAMP, ZERO and 32 mantissas. -/
structure Blk where
  e8    : Nat
  clamp : Bool
  zero  : Bool
  mant  : List Int
  deriving DecidableEq, Repr

/-- R70: the 16-bit header of a block. -/
def Blk.header (b : Blk) : Nat :=
  b.e8 + (if b.zero then 256 else 0) + (if b.clamp then 512 else 0)

/-- R69: a mantissa code as an operand port reads it, and whether it was the minimum code. -/
def readMant (n4 : Bool) (code : Nat) : Int × Bool :=
  let w := if n4 then 4 else 8
  let i := toInt w code
  if i = -(2 ^ (w - 1) : Nat) then (i + 1, true) else (i, false)

/-- R70, R72: the block that a header and its 32 mantissa codes spell, and how many minimum codes were read. A
block with ZERO set reads as 32 zeros. -/
def readBlk (n4 : Bool) (header : Nat) (codes : List Nat) : Blk × Nat :=
  let zero := bit header 8
  let ms := codes.map (readMant n4)
  ( ⟨header % 256, bit header 9, zero, if zero then codes.map (fun _ => 0) else ms.map (·.1)⟩,
    if zero then 0 else (ms.filter (·.2)).length )

/-- R68: the largest mantissa that the module writes. -/
def mantMax (n4 : Bool) : Nat := if n4 then 7 else 127

/-- R71: bytes of a row's value area. -/
def valueBytes (n4 : Bool) (channels : Nat) : Nat := if n4 then channels / 2 else channels

/-- The next 64-byte boundary. -/
def up64 (n : Nat) : Nat := cdiv n 64 * 64

/-- R71: offset of the header area within a row. -/
def headerOff (n4 : Bool) (channels : Nat) : Nat := up64 (valueBytes n4 channels)

/-- R71: offset of the outlier area within a row. -/
def outlierOff (n4 : Bool) (channels : Nat) : Nat := headerOff n4 channels + up64 (channels / 32 * 2)

/-- R71: length of a row in bytes. -/
def rowBytes (n4 outl : Bool) (channels : Nat) : Nat :=
  if outl then outlierOff n4 channels + up64 (cdiv channels 256 * 18) else outlierOff n4 channels

/-- R71: the code of channel c in a value area. -/
def valueCode (n4 : Bool) (area : Bytes) (c : Nat) : Nat :=
  if n4 then
    let b := (area.getD (c / 2) 0#8).toNat
    if c % 2 = 0 then b % 16 else b / 16
  else (area.getD c 0#8).toNat

/-- R71: the value area of a list of mantissas. -/
def valueArea (n4 : Bool) (ms : List Int) : Bytes :=
  if n4 then
    (List.range (ms.length / 2)).map (fun i =>
      BitVec.ofNat 8 (ofInt 4 (ms.getD (2 * i) 0) + 16 * ofInt 4 (ms.getD (2 * i + 1) 0)))
  else ms.map (fun m => BitVec.ofNat 8 (ofInt 8 m))

/-- R74: an outlier record: shared exponent and eight W16 values. -/
structure OutRec where
  eo   : Nat
  vals : List Int
  deriving DecidableEq, Repr

/-- R74, R69: the record that 18 bytes spell; the minimum code reads as −32,767. -/
def readOutRec (b : Bytes) : OutRec :=
  let ws := (List.range 8).map (fun i => leField b (2 + 2 * i) 2)
  ⟨leField b 0 1, ws.map (fun w => if w = 0x8000 then -32767 else toInt 16 w)⟩

/-- R74, R69: place i of a record's bytes holds the minimum code. -/
def outMin (b : Bytes) (i : Nat) : Bool := decide (leField b (2 + 2 * i) 2 = 0x8000)

/-- R74: the 18 bytes of a record. -/
def OutRec.bytes (r : OutRec) : Bytes :=
  leBytes 1 r.eo ++ [0#8] ++ ((List.range 8).map (fun i => leBytes 2 (ofInt 16 (r.vals.getD i 0)))).flatten

/-- R73: the listed channels of a group's 16-byte list. -/
def outlierList (b : Bytes) : List Nat := (List.range (min 8 (leField b 0 1))).map (fun i => leField b (1 + i) 1)

/-- R73: a 16-byte list obeys its rules for a group of `channels` channels. -/
def outlierListOk (b : Bytes) (channels : Nat) : Bool :=
  let n := leField b 0 1
  let l := (List.range n).map (fun i => leField b (1 + i) 1)
  decide (n ≤ 8) && decide (b.length = 16) &&
  ((l.zip (l.drop 1)).all (fun p => decide (p.1 < p.2))) && l.all (fun c => decide (c < channels)) &&
  ((b.drop (1 + n)).all (· == 0#8))

/-! ### Shift-add scales (R84 to R86, R573) -/

/-- R84: step of a term code; none where it is absent or invalid. -/
def sasTerm (c : Nat) : Option (Nat × Int) :=
  match c with
  | 1 => some (1, 1) | 2 => some (2, 1) | 3 => some (3, 1)
  | 5 => some (1, -1) | 6 => some (2, -1) | 7 => some (3, -1)
  | _ => none

/-- R84: the three term codes. -/
def sasCodes (c : Nat) : List Nat := [bits c 8 6, bits c 5 3, bits c 2 0]

/-- R85: no term code 0b100, no present term after an absent one, not 0x8000. -/
def sasValid (c : Nat) : Bool :=
  let t1 := bits c 8 6
  let t2 := bits c 5 3
  let t3 := bits c 2 0
  decide (t1 ≠ 4) && decide (t2 ≠ 4) && decide (t3 ≠ 4) && !(t1 == 0 && t2 != 0) && !(t2 == 0 && t3 != 0) &&
  decide (c ≠ 0x8000) && decide (c < 65536)

/-- R84: the present terms as positions a and signs. -/
def sasTerms : Nat → List Nat → List (Nat × Int)
  | _, [] => []
  | a, c :: t =>
    match sasTerm c with
    | some (d, s) => (a + d, s) :: sasTerms (a + d) t
    | none => []

/-- R86: the exact product of a value and a scale. -/
def sasApply (c : Nat) (x : Dy) : Dy :=
  if c = 0 then Dy.zero else
  let ts := sasTerms 0 (sasCodes c)
  let am := (ts.getLast?.map (·.1)).getD 0
  let m := x.m * (2 : Int) ^ am + (ts.map (fun t => t.2 * x.m * (2 : Int) ^ (am - t.1))).sum
  ⟨if bit c 15 then -m else m, x.e + (bits c 14 9 : Nat) - 32 - am⟩

/-- R84: the value of a scale. -/
def sasValue (c : Nat) : Dy := sasApply c ⟨1, 0⟩

/-- The term fields of every valid scale: no terms, one, two, three. -/
def sasTermSets : List Nat :=
  let p := [1, 2, 3, 5, 6, 7]
  0 :: (p.map (· * 64) ++ p.flatMap (fun a => p.map (fun b => a * 64 + b * 8)) ++
    p.flatMap (fun a => p.flatMap (fun b => p.map (fun c => a * 64 + b * 8 + c))))

/-- Every valid non-zero positive scale code. -/
def sasAll : List Nat :=
  ((List.range 64).flatMap (fun e => sasTermSets.map (fun t => e * 512 + t))).filter (· ≠ 0)

/-- R573: present terms, negative terms and the code itself, in the order in which they are minimised. -/
def sasRank (c : Nat) : Nat :=
  let ts := sasTerms 0 (sasCodes c)
  ts.length * 16777216 + (ts.filter (fun t => decide (t.2 < 0))).length * 1048576 + c

/-- R117: a is a better code for the magnitude x than b: nearer; at equal distance the smaller magnitude; for
equal values the canonical code (R573). -/
def sasBetter (x : Dy) (a b : Nat) : Bool :=
  let da := (x.add (sasValue a).neg).abs
  let db := (x.add (sasValue b).neg).abs
  if da.lt db then true else if db.lt da then false
  else if (sasValue a).lt (sasValue b) then true else if (sasValue b).lt (sasValue a) then false
  else decide (sasRank a < sasRank b)

/-- R117, R573: the canonical code of the scale nearest to a value, ties to the smaller magnitude; a zero
value gives 0x0000, and a non-zero value never does. -/
def sasNearest (x : Dy) : Nat :=
  if x.m = 0 then 0 else
  let best := sasAll.foldl (fun b c => match b with
    | none => some c
    | some b => some (if sasBetter x.abs c b then c else b)) (none : Option Nat)
  best.getD 0 + (if x.m < 0 then 32768 else 0)

/-- The largest magnitude of a scale: EXP 63 and three terms +1/2, +1/4, +1/8. -/
def sasMax : Dy := sasValue (63 * 512 + 64 + 8 + 1)

/-- The smallest non-zero magnitude of a scale: EXP 0 and three terms -1/2, -1/4, -1/8. -/
def sasMin : Dy := sasValue (5 * 64 + 5 * 8 + 5)

/-- R117: a non-zero value beyond the scales' magnitudes. -/
def sasOutside (x : Dy) : Bool := decide (x.m ≠ 0) && (sasMax.lt x.abs || x.abs.lt sasMin)

/-! ### Requantisation (R87 to R91) -/

/-- R87: the smallest e from 0 to 255 with max |x| ≤ M × 2^(e − 128); none where there is none (R88). -/
def requantExp (M : Nat) (mx : Dy) : Option Nat :=
  (List.range 256).find? (fun e => mx.le ⟨M, (e : Int) - 128⟩)

/-- R89, nearest mode: to the nearest integer, ties to even. -/
def roundNearest (y : Dy) : Int :=
  let f := y.floor
  let r2 := y.add ⟨-(2 * f + 1), -1⟩
  if r2.m < 0 then f else if 0 < r2.m then f + 1 else if f % 2 = 0 then f else f + 1

/-- R89, stochastic mode: ⌊y⌋ + 1 when r < F, F = ⌊(y − ⌊y⌋) × 65,536⌋. -/
def roundStochastic (y : Dy) (r : Nat) : Int :=
  let f := y.floor
  let frac := (y.add ⟨-f, 0⟩).shift 16
  if (r : Int) < frac.floor then f + 1 else f

/-- R89: rounding with a draw, or nearest where there is none. -/
def roundBy (y : Dy) : Option Nat → Int
  | none => roundNearest y
  | some r => roundStochastic y r

/-- R87 to R91: mantissas and exponent of values against a largest mantissa M; `clampedAt255` says that R88
acted. -/
def requantVals (M : Nat) (xs : List (Dy × Option Nat)) : List Int × Nat × Bool :=
  let mx := xs.foldl (fun a x => a.max x.1.abs) Dy.zero
  match requantExp M mx with
  | some e => (xs.map (fun x => roundBy (x.1.shift (128 - (e : Int))) x.2), e, false)
  | none =>
    (xs.map (fun x => max (-(M : Int)) (min (M : Int) (roundBy (x.1.shift (-127)) x.2))), 255, true)

/-- R87 to R91, R72: one block of 32 values. `sat` is the tile's SAT. The second component says whether R88
clamped. -/
def requantBlk (n4 sat : Bool) (xs : List (Dy × Option Nat)) : Blk × Bool :=
  let (ms, e, cl) := requantVals (mantMax n4) xs
  if ms.all (· == 0) then (⟨0, sat || cl, true, ms⟩, cl) else (⟨e, sat || cl, false, ms⟩, cl)

/-! ### S48 words (R78) and stat records (R115) -/

/-- The bounds of S48. -/
def s48Max : Int := 140737488355327
def s48Min : Int := -140737488355328

/-- R77: a result outside the S48 range is set to the nearest bound; whether it was. -/
def s48Clamp (x : Int) : Int × Bool :=
  if s48Max < x then (s48Max, true) else if x < s48Min then (s48Min, true) else (x, false)

/-- R78: the word of a sum. -/
def s48Word (x : Int) : Bytes := leBytes 8 (ofInt 64 x)

/-- R78: a word taken in; an overlong word is the bound of bit 63's sign, and says so. -/
def s48Read (b : Bytes) : Int × Bool := s48Clamp (toInt 64 (leNat b))

/-- R115: a stored value; the empty maximum is none. -/
structure StatRec where
  max : Option Dy
  sum : Dy
  deriving DecidableEq, Repr

/-- R115: the smallest exponent raise that makes a mantissa fit 48 bits, rounding toward minus infinity, within n halvings, and
whether it rounded. A raise that drops only zero bits rounds nothing (DESIGN CHOICE, log entry 75). -/
def fit48In : Nat → Dy → Dy × Bool
  | 0, x => (x, false)
  | n + 1, x =>
    if x.m ≤ s48Max ∧ s48Min ≤ x.m then (x, false)
    else
      let (y, r) := fit48In n ⟨x.m / 2, x.e + 1⟩
      (y, r || decide (x.m % 2 ≠ 0))

/-- R115: a value as a stat record stores it, and whether it was rounded: no mantissa needs more halvings than it has bits. -/
def fit48 (x : Dy) : Dy × Bool := fit48In (Nat.log2 x.m.natAbs + 1) x

/-- R115: the record that 16 bytes spell. -/
def readStat (b : Bytes) : StatRec :=
  let mm := leField b 0 6
  let me := leField b 6 2
  let sm := toInt 48 (leField b 8 6)
  ⟨if mm = 0x800000000000 ∧ me = 0x7FFF then none else some ⟨toInt 48 mm, toInt 16 me⟩,
   if sm = 0 then Dy.zero else ⟨sm, toInt 16 (leField b 14 2)⟩⟩

/-- R115: the eight bytes of a value, and whether it was rounded (1) or not (0). -/
def statField (x : Dy) : Bytes × Nat :=
  let (y, r) := fit48 x
  (leBytes 6 (ofInt 48 y.m) ++ leBytes 2 (ofInt 16 y.e), if r then 1 else 0)

/-- R115: the eight bytes of MAX; none is the empty maximum. -/
def maxField : Option Dy → Bytes × Nat
  | none => (leBytes 6 0x800000000000 ++ leBytes 2 0x7FFF, 0)
  | some x => statField x

/-- R115: the 16 bytes of a record, and how many of its values were rounded. -/
def StatRec.bytes (r : StatRec) : Bytes × Nat := ((maxField r.max).1 ++ (statField r.sum).1, (maxField r.max).2 + (statField r.sum).2)

/-! ### Nonlinearity tables (R116) -/

/-- R116: the value of a table (word k at `w k`) for an input, and whether the input was clamped. -/
def tableEval (w : Nat → Nat) (x : Dy) : Dy × Bool :=
  let inE := toInt 8 (bits (w 0) 7 0)
  let outE := toInt 8 (bits (w 0) 15 8)
  let q := (x.shift (-inE)).floor
  let qc := max (-32768) (min 32767 q)
  let u := (qc + 32768).toNat
  let seg := w (1 + u / 256)
  let base : Dy := ⟨toInt 32 (bits seg 31 0), outE⟩
  (base.add ((sasApply (bits seg 47 32) ⟨((u % 256 : Nat) : Int), 0⟩).shift inE), decide (qc ≠ q))

/-! ### Exponent windows (R76, R126) -/

/-- R76: the lowest exponents of the windows over a list of block exponents, ascending. -/
def windows (spread : Nat) : Nat → List Nat → List Nat
  | 0, _ => []
  | fuel + 1, es =>
    match es.min? with
    | none => []
    | some e => e :: windows spread fuel (es.filter (fun x => decide (e + spread < x)))

/-- R76: the window that admits an exponent. -/
def inWindow (spread e x : Nat) : Bool := decide (e ≤ x) && decide (x ≤ e + spread)

/-! ### Random bit generators (R136 to R139) -/

/-- R136: a lane's two words. -/
structure Lane where
  x : BitVec 64
  y : BitVec 64
  deriving DecidableEq, Repr

/-- R136: one step of a lane: its output and its next words. -/
def Lane.step (l : Lane) : BitVec 64 × Lane :=
  let t := l.x ^^^ (l.x <<< 23)
  (l.x + l.y, ⟨l.y, t ^^^ l.y ^^^ (t >>> 18) ^^^ (l.y >>> 5)⟩)

/-- Step a lane n times and discard its output. -/
def Lane.skip : Nat → Lane → Lane
  | 0, l => l
  | n + 1, l => Lane.skip n l.step.2

/-- R137: lane l of the generator bound to slot g, from seed s. -/
def Lane.seed (s : BitVec 64) (g l : Nat) : Lane :=
  let x := s ^^^ 0x5DEECE66D1B43A97#64 ^^^ (BitVec.ofNat 64 g <<< 56) ^^^ (BitVec.ofNat 64 l <<< 48)
  let y := s.rotateLeft 29 ^^^ 0x2F7A9C13B85064E1#64
  Lane.skip 32 ⟨x, if x = 0 ∧ y = 0 then 1 else y⟩

/-- R136: one block of a generator: bit 64l + k is bit k of lane l's output. -/
def genBlock (ls : List Lane) : Nat × List Lane :=
  ((ls.zip (List.range ls.length)).foldl (fun a p => a + (p.1.step.1).toNat * 2 ^ (64 * p.2)) 0,
   ls.map (fun l => l.step.2))

/-- R138: the blocks that `n` draws of `w` bits take. -/
def drawBlocks (w n : Nat) : Nat := cdiv n (4096 / w)

/-- R136: `n` blocks of a generator. -/
def genBlocks : Nat → List Lane → List Nat × List Lane
  | 0, ls => ([], ls)
  | n + 1, ls =>
    let (b, ls') := genBlock ls
    let (bs, ls'') := genBlocks n ls'
    (b :: bs, ls'')

/-- R138: draw k of width w of a request whose blocks are `bs`. -/
def drawAt (w k : Nat) (bs : List Nat) : Nat :=
  let per := 4096 / w
  bits (bs.getD (k / per) 0) (w * (k % per) + w - 1) (w * (k % per))

/-- R146: the seeded lane's draw for a stream's seed and a position. -/
def seededDraw (s : BitVec 64) (n : Nat) : Nat :=
  let l : Lane := Lane.skip 32
    ⟨s ^^^ 0x5DEECE66D1B43A97#64, s.rotateLeft 29 ^^^ 0x2F7A9C13B85064E1#64 ^^^ BitVec.ofNat 64 n⟩
  l.step.1.toNat % 2 ^ 32

/-! ### Token sampling (R144, R145) -/

/-- R145: the default table: EXPT[d] = round(65,535 × e^(-d/256)); the constant is e^(-1/256) with 160 fraction bits, rounded down. -/
def exptDefaultAt (d : Nat) : Nat :=
  let one := 2 ^ (160 * d)
  (2 * 65535 * 1455803782428131384293556668415935389334225380388 ^ d + one) / (2 * one)

/-- R145: candidate order: larger logit first, equal logits by token. -/
def candBefore (a b : Int × Nat) : Bool := decide (b.1 < a.1) || (decide (a.1 = b.1) && decide (a.2 ≤ b.2))

/-- R145: the k first candidates. -/
def topCands (k : Nat) (z : List Int) : List (Int × Nat) :=
  ((z.zip (List.range z.length)).mergeSort candBefore).take k

/-- R145: the weight index d of a candidate, exact under R86. -/
def candD (L : Int) (inv : Nat) (zmax z : Int) : Nat :=
  (min 4095 (((sasApply inv ⟨zmax - z, L⟩).shift 8).floor)).toNat

/-- R145: the shortest prefix that reaches the kept share. -/
def keptPrefix (topP total : Nat) : Nat → List (Nat × Nat) → List (Nat × Nat)
  | _, [] => []
  | acc, (w, t) :: rest =>
    if topP * total ≤ 65536 * (acc + w) then [(w, t)] else (w, t) :: keptPrefix topP total (acc + w) rest

/-- R145: the first candidate whose running sum exceeds t. -/
def pickToken (t : Nat) : Nat → List (Nat × Nat) → Option Nat
  | _, [] => none
  | acc, (w, v) :: rest => if t < acc + w then some v else pickToken t (acc + w) rest

/-- R145: the token drawn from a row with the 32-bit draw r. -/
def sampleToken (expt : Nat → Nat) (z : List Int) (L : Int) (topK topP inv r : Nat) : Nat :=
  let cand := topCands topK z
  let zmax := (cand.head?.map (·.1)).getD 0
  let ws := cand.map (fun c => (expt (candD L inv zmax c.1), c.2))
  let total := (ws.map (·.1)).sum
  let kept := if topP = 0 then ws else keptPrefix topP total 0 ws
  let ksum := (kept.map (·.1)).sum
  (pickToken (r * ksum / 2 ^ 32) 0 kept).getD ((kept.head?.map (·.2)).getD 0)

end Sys2Proof.Machine
end

