-- ==== Sys2Proof/Machine/Compress.lean ====
section
/-!
DEFINITION. Compress.lean: the stored forms of weight blocks (R173 to R185), CRC-32C (R182), the packing of one
block, and Z-rows (R196 to R198).
-/

namespace Sys2Proof.Machine

/-- R182: one bit of the reflected polynomial 0x82F6_3B78. -/
def crcBit (c : BitVec 32) : BitVec 32 := if c.getLsbD 0 then (c >>> 1) ^^^ 0x82F63B78#32 else c >>> 1

/-- R182: one byte. -/
def crcByte (c : BitVec 32) (b : Byte) : BitVec 32 :=
  let c := c ^^^ (b.setWidth 32)
  crcBit (crcBit (crcBit (crcBit (crcBit (crcBit (crcBit (crcBit c)))))))

/-- R182: CRC-32C: initial value and final exclusive-or 0xFFFF_FFFF. -/
def crc32c (b : Bytes) : Nat := ((b.foldl crcByte 0xFFFFFFFF#32) ^^^ 0xFFFFFFFF#32).toNat

/-- R173: weights in a block and in a segment. -/
abbrev blockWeights : Nat := 20480
abbrev segWeights : Nat := 4096

/-- The bits of bytes, least significant first. -/
def bitsOf (b : Bytes) : List Bool := b.flatMap (fun x => (List.range 8).map (fun i => x.getLsbD i))

/-- The number that bits spell, least significant first. -/
def natOfBits : List Bool → Nat
  | [] => 0
  | b :: t => (if b then 1 else 0) + 2 * natOfBits t

/-- The bytes of bits, the last byte filled with 0. -/
def bytesOfBits (l : List Bool) : Bytes :=
  (List.range (cdiv l.length 8)).map (fun i => BitVec.ofNat 8 (natOfBits ((l.drop (8 * i)).take 8)))

/-- R178: the leading ones of a codeword, at most fifteen, and the bits after the field. -/
def runPrefix : Nat → List Bool → Nat × List Bool
  | n, true :: t => if n = 14 then (15, t) else runPrefix (n + 1) t
  | n, false :: t => (n, t)
  | n, [] => (n, [])

/-- R178: one codeword: the run, the weight, the bits used, and the bits that follow; none where the bits end. -/
def readCodeword (K : Nat) (bs : List Bool) : Option (Nat × Int × Nat × List Bool) :=
  let (q, rest) := runPrefix 0 bs
  let w := if q = 15 then 12 else K
  let used := (if q = 15 then 15 else q + 1) + w + 1
  match rest.drop w with
  | [] => none
  | sgn :: t =>
    if rest.length < w then none else
    let low := natOfBits (rest.take w)
    some (if q = 15 then low else q * 2 ^ K + low, if sgn then -1 else 1, used, t)

/-- R178: the codewords of a segment: its weights so far in reverse, the bits used; none where they break R179. -/
def readSegment (K : Nat) : Nat → List Bool → List Int → Nat → Nat → Option (List Int × Nat)
  | 0, _, acc, n, used => some (acc.reverse ++ List.replicate (segWeights - n) 0, used)
  | nz + 1, bs, acc, n, used =>
    match readCodeword K bs with
    | none => none
    | some (r, w, u, t) =>
      if segWeights < n + r + 1 then none
      else readSegment K nz t (w :: (List.replicate r 0 ++ acc)) (n + r + 1) (used + u)

/-- R176, R177: the segment records of a coded block. -/
def segRecord (b : Bytes) (i : Nat) : Nat := leField b (4 + 4 * i) 4

/-- R179: the weights of a coded block; none where it is not well formed. -/
def decodeCoded (b : Bytes) : Option (List Int) :=
  let units := leField b 0 1
  let payload := bitsOf (b.drop 24)
  let recs := (List.range 5).map (segRecord b)
  let offs := recs.map (fun r => bits r 15 0)
  if units = 0 ∨ 63 < units ∨ b.length ≠ units * 64 ∨ leField b 1 3 ≠ 0 then none
  else if recs.any (fun r => bit r 31 || decide (4096 < bits r 28 16)) then none
  else if offs.getD 0 0 ≠ 0 then none
  else if (offs.zip (offs.drop 1)).any (fun p => decide (p.2 < p.1)) then none
  else
    let segs := (recs.zip offs).map (fun p => readSegment (bits p.1 30 29) (bits p.1 28 16) (payload.drop p.2) [] 0 0)
    if segs.any Option.isNone then none
    else
      let ends := (segs.zip offs).map (fun p => p.2 + (p.1.map (·.2)).getD 0)
      let limits := (offs.drop 1) ++ [payload.length]
      if (ends.zip limits).any (fun p => decide (p.2 < p.1)) then none
      else if (payload.drop (ends.getD 4 0)).any id then none
      else some ((segs.map (fun g => (g.map (·.1)).getD [])).flatten)

/-- R175: the weights of a raw block; none where a byte is an invalid T5 code. -/
def decodeRaw (b : Bytes) : Option (List Int) :=
  if b.length = 4096 ∧ b.all t5Valid then some (b.flatMap t5Decode) else none

/-- R180: an index entry is valid. -/
def indexValid (e : Nat) : Bool := !(bit e 31 && bit e 30) && !(bit e 30 && decide (bits e 29 0 ≠ 0))

/-- R180: start of the block from the data base, in bytes. -/
def indexOffset (e : Nat) : Nat := bits e 29 0 * 64

/-- R180, R181, R193: where the stored bytes of block b lie in a data area, and how many they are. `ent` gives the offset and RAW of a block that is stored under a
readable index entry, `units` the UNITS byte at an offset, `n` the blocks of the tensor, `len` the bytes of its data area. Blocks follow one another in
block order, so the neighbours' entries bound a block whose own entry or UNITS cannot be trusted. -/
def storedExtent (ent : Nat → Option (Nat × Bool)) (units : Nat → Nat) (n len b : Nat) : Nat × Nat :=
  let size := fun (o : Nat × Bool) => if o.2 then 4096 else units o.1 * 64
  let start := match ent b with
    | some o => o.1
    | none => (((List.range b).reverse.findSome? ent).map (fun o => o.1 + size o)).getD 0
  let own := ((ent b).map size).getD 4096
  let stop := match (List.range (n - (b + 1))).findSome? (fun k => ent (b + 1 + k)) with
    | some o => if start < o.1 then o.1 else start + own
    | none => min len (start + own)
  (start, stop - start)

/-! ### The packing pass (R184, R185) -/

/-- R178: the runs of a segment's non-zero weights and their signs. -/
def runsOf : Nat → List Int → List (Nat × Bool)
  | _, [] => []
  | r, w :: t => if w = 0 then runsOf (r + 1) t else (r, decide (w < 0)) :: runsOf 0 t

/-- The n low bits of a number, least significant first. -/
def lowBits (n v : Nat) : List Bool := (List.range n).map (fun i => bit v i)

/-- R178: a codeword; the zero-run form whenever q ≤ 14 (R185). -/
def codeword (K : Nat) (p : Nat × Bool) : List Bool :=
  let q := p.1 / 2 ^ K
  (if q ≤ 14 then List.replicate q true ++ [false] ++ lowBits K p.1
   else List.replicate 15 true ++ lowBits 12 p.1) ++ [p.2]

/-- The codewords of a segment under a run parameter. -/
def segBits (K : Nat) (runs : List (Nat × Bool)) : List Bool := runs.flatMap (codeword K)

/-- R185: the K from 0 to 3 that gives the fewest bits, the smaller on a tie. -/
def bestK (runs : List (Nat × Bool)) : Nat :=
  (List.range 4).foldl (fun k j => if (segBits j runs).length < (segBits k runs).length then j else k) 0

/-- R176, R177: segment records in order, with each segment's payload. -/
def packSegs : Nat → List (List Int) → List Nat × List Bool
  | _, [] => ([], [])
  | off, ws :: t =>
    let runs := runsOf 0 ws
    let K := bestK runs
    let bs := segBits K runs
    let (rs, tl) := packSegs (off + bs.length) t
    ((off % 65536 + runs.length * 65536 + K * 2 ^ 29) :: rs, bs ++ tl)

/-- The form in which a block is stored, with its stored bytes (R175). -/
inductive StoredBlock where
  | zero
  | raw (data : Bytes)
  | rawSize (data : Bytes)
  | coded (data : Bytes)
  deriving DecidableEq, Repr

/-- Cut a list into pieces of n. -/
def pieces {α : Type} (n : Nat) : Nat → List α → List (List α)
  | 0, _ => []
  | k + 1, l => l.take n :: pieces n k (l.drop n)

/-- R184: the form of a block of 20,480 weights whose T5 bytes are `t5`. -/
def packBlock (t5 : Bytes) : StoredBlock :=
  let ws := t5.flatMap t5Decode
  let nz := (ws.filter (· ≠ 0)).length
  if nz = 0 then .zero
  else if 10240 < nz then .raw t5
  else
    let (recs, pay) := packSegs 0 (pieces segWeights 5 ws)
    let len := 24 + cdiv pay.length 8
    let units := cdiv len 64
    if 64 ≤ units then .rawSize t5
    else .coded (padTo (units * 64) (leBytes 1 units ++ zeros 3 ++ recs.flatMap (leBytes 4) ++ bytesOfBits pay))

/-- R180, R182: index entry, stored bytes and check value of a block at data offset `off` (in 64-byte units). -/
def StoredBlock.entry (b : StoredBlock) (off : Nat) : Nat × Bytes × Nat :=
  match b with
  | .zero => (2 ^ 30, [], 0)
  | .raw d => (2 ^ 31 + off, d, crc32c d)
  | .rawSize d => (2 ^ 31 + off, d, crc32c d)
  | .coded d => (off, d, crc32c d)

/-- R173: the T5 bytes of the blocks of a tensor; the last block is completed with zero weights. -/
def t5Blocks (b : Bytes) : List Bytes :=
  (List.range (cdiv b.length 4096)).map (fun i =>
    let p := (b.drop (4096 * i)).take 4096
    p ++ List.replicate (4096 - p.length) 0x79#8)

/-- R181: the three arrays of a tensor, and the form of each block. -/
def packTensor : Nat → List Bytes → List (Nat × Bytes × Nat × StoredBlock)
  | _, [] => []
  | off, b :: t =>
    let f := packBlock b
    let (e, d, c) := f.entry off
    (e, d, c, f) :: packTensor (off + d.length / 64) t

/-! ### Z-rows (R196 to R198) -/

/-- R196: a block of a row is present in a Z-row: ZERO clear or CLAMP set. -/
def zPresent (header : Nat) : Bool := !(bit header 8) || bit header 9

/-- R196: the Z-row of a row of C channels. -/
def zRow (n4 outl : Bool) (C : Nat) (row : Bytes) : Bytes :=
  let nb := C / 32
  let hdr := fun m => leField row (headerOff n4 C + 2 * m) 2
  let vb := if n4 then 16 else 32
  let map := (List.range (cdiv C 256)).map (fun i =>
    BitVec.ofNat 8 (natOfBits ((List.range 8).map (fun k => decide (8 * i + k < nb) && zPresent (hdr (8 * i + k))))))
  map ++ (List.range nb).flatMap (fun m =>
    if zPresent (hdr m) then leBytes 2 (hdr m) ++ (row.drop (vb * m)).take vb else []) ++
  (if outl then (row.drop (outlierOff n4 C)).take (18 * cdiv C 256) else [])

/-- R198: the present blocks of a Z-row: values and headers in block order, and the bytes that follow; none where
the payload ends too early. -/
def zBlocks (vb : Nat) : List Bool → Bytes → Option (Bytes × Bytes × Bytes)
  | [], rest => some ([], [], rest)
  | p :: t, rest =>
    if p then
      if rest.length < 2 + vb then none
      else (zBlocks vb t (rest.drop (2 + vb))).map (fun r => ((rest.drop 2).take vb ++ r.1, rest.take 2 ++ r.2.1, r.2.2))
    else (zBlocks vb t rest).map (fun r => (zeros vb ++ r.1, leBytes 2 0x100 ++ r.2.1, r.2.2))

/-- R198: the row of R71 that a Z-row expands to, and the bytes after it; none where it is malformed. -/
def zExpand (n4 outl : Bool) (C : Nat) (z : Bytes) : Option (Bytes × Bytes) :=
  let mb := cdiv C 256
  let vb := if n4 then 16 else 32
  if z.length < mb then none else
  let present := (bitsOf (z.take mb)).take (C / 32)
  match zBlocks vb present (z.drop mb) with
  | none => none
  | some (vals, hdrs, rest) =>
    let ob := if outl then 18 * cdiv C 256 else 0
    if rest.length < ob then none
    else
      let body := padTo (headerOff n4 C) vals ++ padTo (outlierOff n4 C - headerOff n4 C) hdrs
      some (if outl then padTo (rowBytes n4 true C) (body ++ rest.take ob) else body, rest.drop ob)

end Sys2Proof.Machine
end

