-- ==== Sys2Proof/Config.lean ====
section
/-!
DEFINITION. Config.lean: what a module or an implementation fixes, and the free values. Every constant here is
opaque: nothing can be proved of its value. A free value is applied to the counter `State.free`, which advances with
every command that takes one, and to what the value depends on (assumption log entries 3, 4, 6 and 9).
-/

namespace Sys2Proof.Config

/-- SERIAL (OD 0x1000.03): per module. -/
opaque serial : Nat → Byte
/-- HW_ISSUE (OD 0x1000.04): per module. -/
opaque hwIssue : BitVec 16
/-- DEVICE_KEY (OD 0x1000.07): the 57 bytes of the module's Ed448 public key. -/
opaque deviceKey : Nat → Byte
/-- PRODUCTION_RECORD (OD 0x7000.50), R555: byte i. -/
opaque productionRecord : Nat → Byte
/-- FW_VERSION (OD 0x1000.05) of the image that a factory-new module runs: per image. -/
opaque fwVersion : BitVec 32
/-- A SHAKE256 digest of 64 bytes (R489): of the byte string `b`, byte i. -/
opaque shake256 : Bytes → Nat → Byte
/-- The digest of the boot ROM (R489, index 0), byte i. -/
opaque romDigest : Nat → Byte
/-- The digest of a firmware image, named by the model's key for it (R489, indices 1 and 3), byte i. -/
opaque imageDigest : Nat → Nat → Byte
/-- An Ed448 signature by the device key under a context string (0 Celmer-EOP, 1 Celmer-Arcade-Hello, 2 Celmer-Attest,
3 Celmer-Recovery) over a byte string, byte i (R58, R488). -/
opaque sign : Nat → Bytes → Nat → Byte
/-- ENDORSEMENT of HELLO (R413): the 114 bytes of Dreuwald's manufacturing signature over DEVICE_KEY, byte i. -/
opaque endorsement : Nat → Byte
/-- A free byte: what a landing byte, a token store byte or another byte reads whose contents the spec leaves
undefined. Arguments: the counter, a part of the module, an offset in it. -/
opaque freeByte : Nat → Nat → Nat → Byte
/-- A free bit: whether an undefined word arrives poisoned (R217). -/
opaque freeBit : Nat → Nat → Nat → Bool
/-- A free number below a bound that the user of the value applies by remainder. -/
opaque freeNat : Nat → Nat → Nat
/-- R14, R418: M_L, the members that the galleries of a level from 4 up have in this installation; its user keeps it within the bounds of R14. -/
opaque galleryMembers : Nat → Nat
/-- Entropy (R137, R413): 64 bits of the hall's entropy source, or a NONCE. -/
opaque entropy : Nat → Nat → BitVec 64

end Sys2Proof.Config
end

