-- ==== Sys2Proof/Machine/StArcade.lean ====
section
/-!
DEFINITION. StArcade.lean: the state of the arches, of routing, discovery and election, and of time alignment (chapter 17).
-/

namespace Sys2Proof.Machine

/-- R405, R420, R430: a data flit of a frame, with the frame's job and, for a frame that this module forwards, the class whose buffer it occupies (0 for a
frame of this module's own). -/
structure TxFlit where
  fl  : Flit
  job : Nat
  cls : Nat
  deriving DecidableEq, Repr

/-- R398 to R415: an arch: its state as in OD 0x5000.01, active lanes, the spare in use, its partner, the counters of OD
0x5000.15 to 0x1D, failed training attempts, the retry buffer (oldest first), the SEQs, the last acknowledgement and the
moment it advanced, the receiver's discarding, the replay queue and how often its first flit was replayed in succession, a
pending NAK, pending time control and other control flits, the flits queued by channel, flits sent and
CRED_COUNT received by channel, flits freed by channel, flits of the frame being received that are not freed yet by channel (R420), the channel whose counter goes next, the frame being received
by channel, slots without a control flit, own NONCEs
(newest first), the partner's last NONCE, HELLO intervals missed, the weighted turn of VC 1 to 3, whether a retrain runs (and whether it follows a
test), whether the partner tests the arch, whether this end has sent LOOP_REQ, and when the arch went down. -/
structure ArchSt where
  state     : Nat
  lanes     : Nat
  spare     : Bool
  partner   : Word64
  pArch     : Nat
  pMode     : Nat
  pKey      : Bytes
  roundTrip : Nat
  fecCorr   : Nat
  fecUncorr : Nat
  crcFails  : Nat
  replays   : Nat
  retrains  : Nat
  flitsTx   : Nat
  flitsRx   : Nat
  stalls    : Nat
  attempts  : Nat
  retry     : List TxFlit
  txSeq     : Nat
  rxSeq     : Nat
  ackAt     : Nat
  discard   : Bool
  resend    : List TxFlit
  streak    : Nat
  nak       : Bool
  timeCtl   : List Flit
  ctl       : List Flit
  queues    : KMap (List TxFlit)
  sent      : KMap Nat
  credit    : KMap Nat
  freed     : KMap Nat
  owed      : KMap Nat
  credVc    : Nat
  partial_  : KMap Bytes
  slots     : Nat
  nonces    : List Nat
  pNonce    : Nat
  missed    : Nat
  turn      : Nat
  retraining : Bool
  afterTest : Bool
  partnerTest : Bool
  loopSent  : Bool
  downAt    : Nat
  deriving DecidableEq, Repr

/-- An arch of an unpowered hall, and before its first training. -/
def ArchSt.reset : ArchSt :=
  { state := 0, lanes := 0, spare := false, partner := 0xFFFFFFFFFFFFFFFF#64, pArch := 0xFF, pMode := 0xFF, pKey := [],
    roundTrip := 0, fecCorr := 0, fecUncorr := 0, crcFails := 0, replays := 0, retrains := 0, flitsTx := 0, flitsRx := 0,
    stalls := 0, attempts := 0, retry := [], txSeq := 0, rxSeq := 0, ackAt := 0, discard := false, resend := [], streak := 0,
    nak := false, timeCtl := [], ctl := [], queues := [], sent := [], credit := [], freed := [], owed := [], credVc := 0,
    partial_ := [], slots := 0, nonces := [], pNonce := 0, missed := 0, turn := 0, retraining := false, afterTest := false,
    partnerTest := false, loopSent := false, downAt := 0 }

/-- R238, R411: arrivals of a gallery barrier that this module gathers as a manager: job, index, use, the gallery's level,
the members that arrived. -/
structure GalBarrier where
  job   : Nat
  bid   : Nat
  use   : Nat
  level : Nat
  from_ : List Word64
  deriving DecidableEq, Repr

/-- Chapter 17: arches by number; the ELECTION frames of the running election (path, mode), its
intervals so far; manager and deputy as settled; the members known (path) of the level-3 gallery and above; barrier
arrivals gathered; MOVE_DATA bytes sent to and confirmed by a module (R412, by its path), and those taken from one; time: exchanges in succession
within 2 ns, the value of the next rack pulse, the last pulse, the moment the offset left its bound, the halves of a tick still to be
slewed, the exchange awaited (T1); the level of the gallery whose election runs, the managers settled for the galleries of levels 4 and up, and the
last candidate heard (path, mode) of each member of those galleries, by level × 64 + index (R16, R416); the frames that wait in receive buffers for
room in a forwarding buffer, with the flits of each that are not freed yet (R420). -/
structure ArcadeSt where
  arches    : KMap ArchSt
  election  : List (Word64 × Nat)
  electIntervals : Nat
  electing  : Bool
  manager   : Option Word64
  deputy    : Option Word64
  members   : List Word64
  barriers  : List GalBarrier
  moved     : KMap Nat
  inBound   : Nat
  announced : Option Nat
  pulseAt   : Option Nat
  outSince  : Option Nat
  slew      : Int
  askedAt   : Option Nat
  rackLost  : Bool
  taken     : KMap Nat
  electLevel : Nat
  managers  : KMap Word64
  heads     : KMap (Word64 × Nat)
  held      : List (Frame × Nat)
  deriving DecidableEq, Repr

/-- The Arcade before the first training. -/
def ArcadeSt.reset : ArcadeSt :=
  ⟨[], [], 0, false, none, none, [], [], [], 0, none, none, none, 0, none, false, [], 3, [], [], []⟩

end Sys2Proof.Machine
end

