-- ==== Sys2Proof/Machine/OdTable.lean ====
section
/-!
DEFINITION. OdTable.lean: the entry tables of the spec's chapters (OD index.subindex, type, access, default, range,
"(stored)"), R27 to R32 and R39, and the name of every entry. The rows are the spec's own tables; the value rule of a
row is the range that the row's Meaning column states (R30).
-/

namespace Sys2Proof.Machine

/-- R29: the types of dictionary entries. -/
inductive OdType where
  | bool | u8 | u16 | u32 | u64 | i32 | i64 | f32 | str | domain | time
  deriving DecidableEq, Repr

/-- R29: the size of a fixed-size type in bytes; none for STR and DOMAIN. -/
def OdType.size : OdType → Option Nat
  | .bool => some 1 | .u8 => some 1 | .u16 => some 2 | .u32 => some 4 | .u64 => some 8
  | .i32 => some 4 | .i64 => some 8 | .f32 => some 4 | .time => some 8 | .str => none | .domain => none

/-- R31: the access codes. -/
inductive OdAcc where
  | ro | rw | wo | rws | cnst
  deriving DecidableEq, Repr

/-- R30: the range that an entry's meaning states for a written value. -/
inductive VRule where
  | any                      -- every value of the type
  | range (lo hi : Nat)
  | oneOf (codes : List Nat)
  | irange (m : Nat)         -- a signed value from -m to m
  | ptpPort | prlBase | clogBase | freqPriority | measSource | measGate | testTarget | testPattern
  | marginTarget | bistSelect
  | galleryPath             -- a gallery path (R14, R20)
  deriving DecidableEq, Repr

/-- One row of an entry table. -/
structure OdRow where
  sub    : Nat
  ty     : OdType
  acc    : OdAcc
  dflt   : Nat
  stored : Bool
  rule   : VRule
  deriving DecidableEq, Repr

/-- The entries of index 0x1000. -/
def odRows1000 : List OdRow :=
  [ ⟨0x01, .u32, .cnst, 0xD7E, false, .any⟩,
    ⟨0x02, .str, .cnst, 0, false, .any⟩,
    ⟨0x03, .str, .cnst, 0, false, .any⟩,
    ⟨0x04, .u16, .cnst, 0, false, .any⟩,
    ⟨0x05, .u32, .ro, 0, false, .any⟩,
    ⟨0x06, .domain, .ro, 0, false, .any⟩,
    ⟨0x07, .domain, .ro, 0, false, .any⟩,
    ⟨0x08, .u8, .ro, 1, false, .any⟩,
    ⟨0x09, .time, .ro, 0, false, .any⟩,
    ⟨0x0A, .u8, .wo, 0, false, .oneOf [0x01, 0x04, 0x05]⟩,
    ⟨0x22, .u32, .ro, 0, false, .any⟩,
    ⟨0x23, .u8, .ro, 0, false, .any⟩,
    ⟨0x24, .u32, .ro, 0, false, .any⟩,
    ⟨0x28, .u8, .rw, 1, true, .range 0 2⟩,
    ⟨0x29, .u8, .ro, 0, false, .any⟩,
    ⟨0x2A, .u32, .ro, 0, false, .any⟩,
    ⟨0x2B, .u8, .rw, 2, true, .range 1 3⟩,
    ⟨0x2C, .bool, .ro, 0, false, .range 0 1⟩,
    ⟨0x2D, .bool, .ro, 0, false, .range 0 1⟩,
    ⟨0x2E, .u8, .ro, 0, false, .any⟩,
    ⟨0x30, .u8, .rw, 1, true, .range 0 2⟩,
    ⟨0x31, .bool, .wo, 0, false, .range 0 1⟩,
    ⟨0x32, .bool, .rw, 0, true, .range 0 1⟩,
    ⟨0x33, .u16, .ro, 0, false, .any⟩ ]

/-- The entries of index 0x1100. -/
def odRows1100 : List OdRow :=
  [ ⟨0x01, .u64, .ro, 0, false, .any⟩,
    ⟨0x02, .u32, .wo, 0, false, .oneOf [0x65766173]⟩,
    ⟨0x03, .u32, .wo, 0, false, .oneOf [0x64616F6C]⟩,
    ⟨0x04, .bool, .rws, 0, true, .range 0 1⟩,
    ⟨0x05, .u16, .rws, 0x1271, true, .range 1024 65535⟩,
    ⟨0x06, .bool, .rws, 0, true, .range 0 1⟩,
    ⟨0x07, .bool, .rws, 1, true, .range 0 1⟩,
    ⟨0x08, .u32, .rws, 0x1388, true, .range 100 60000⟩,
    ⟨0x10, .domain, .rws, 0, true, .any⟩,
    ⟨0x11, .domain, .rws, 0, true, .any⟩,
    ⟨0x12, .domain, .rws, 0, true, .any⟩,
    ⟨0x13, .domain, .rws, 0, true, .any⟩,
    ⟨0x14, .domain, .rws, 0, true, .any⟩,
    ⟨0x15, .domain, .rws, 0, true, .any⟩,
    ⟨0x16, .domain, .rws, 0, true, .any⟩,
    ⟨0x17, .domain, .rws, 0, true, .any⟩,
    ⟨0x20, .u32, .ro, 0, false, .any⟩,
    ⟨0x21, .u32, .ro, 0, false, .any⟩,
    ⟨0x22, .u32, .ro, 0, false, .any⟩,
    ⟨0x23, .u32, .ro, 0, false, .any⟩,
    ⟨0x24, .u32, .ro, 0, false, .any⟩,
    ⟨0x25, .u32, .ro, 0, false, .any⟩,
    ⟨0x30, .domain, .rw, 0, false, .any⟩,
    ⟨0x31, .domain, .ro, 0, false, .any⟩ ]

/-- The entries of index 0x1200. -/
def odRows1200 : List OdRow :=
  [ ⟨0x01, .u32, .ro, 0, false, .any⟩,
    ⟨0x02, .u32, .ro, 0, false, .any⟩,
    ⟨0x03, .u32, .rw, 1, false, .any⟩,
    ⟨0x04, .domain, .ro, 0, false, .any⟩,
    ⟨0x05, .domain, .ro, 0, false, .any⟩,
    ⟨0x06, .u32, .wo, 0, false, .oneOf [0x7261656C]⟩ ]

/-- The entries of index 0x1300. -/
def odRows1300 : List OdRow :=
  [ ⟨0x01, .u8, .ro, 0, false, .any⟩,
    ⟨0x02, .u16, .ro, 0, false, .any⟩,
    ⟨0x03, .time, .ro, 0, false, .any⟩,
    ⟨0x04, .u8, .ro, 0, false, .any⟩,
    ⟨0x05, .u32, .ro, 0, false, .any⟩,
    ⟨0x06, .domain, .ro, 0, false, .any⟩,
    ⟨0x07, .u32, .wo, 0, false, .any⟩,
    ⟨0x10, .domain, .ro, 0, false, .any⟩,
    ⟨0x11, .u32, .ro, 0, false, .any⟩,
    ⟨0x12, .u16, .ro, 0, false, .any⟩,
    ⟨0x13, .u64, .ro, 0, false, .any⟩,
    ⟨0x14, .u32, .ro, 0, false, .any⟩,
    ⟨0x15, .u32, .ro, 0, false, .any⟩ ]

/-- The entries of index 0x2000. -/
def odRows2000 : List OdRow :=
  [ ⟨0x01, .u32, .ro, 0, false, .any⟩,
    ⟨0x02, .u16, .ro, 0, false, .any⟩,
    ⟨0x03, .u16, .ro, 0, false, .any⟩,
    ⟨0x04, .u64, .ro, 0, false, .any⟩,
    ⟨0x10, .u8, .rw, 0, true, .range 0 1⟩,
    ⟨0x11, .u32, .rw, 0x1B7740, true, .range 1200000 2400000⟩,
    ⟨0x14, .u16, .ro, 0, false, .any⟩,
    ⟨0x15, .u16, .ro, 0, false, .any⟩,
    ⟨0x16, .u16, .ro, 0, false, .any⟩,
    ⟨0x17, .u16, .ro, 0, false, .any⟩,
    ⟨0x20, .u16, .rw, 0x41A, true, .range 700 1050⟩,
    ⟨0x21, .u32, .ro, 0, false, .any⟩,
    ⟨0x22, .u64, .ro, 0, false, .any⟩,
    ⟨0x23, .u32, .ro, 0, false, .any⟩,
    ⟨0x30, .bool, .rws, 1, true, .range 0 1⟩,
    ⟨0x31, .u16, .ro, 0, false, .any⟩,
    ⟨0x80, .domain, .ro, 0, false, .any⟩,
    ⟨0x81, .u16, .ro, 0, false, .any⟩ ]

/-- The entries of index 0x2100. -/
def odRows2100 : List OdRow :=
  [ ⟨0x01, .u8, .ro, 0, false, .any⟩,
    ⟨0x02, .u8, .ro, 0, false, .any⟩,
    ⟨0x03, .i32, .ro, 0, false, .any⟩,
    ⟨0x04, .i64, .ro, 0, false, .any⟩,
    ⟨0x10, .u32, .rws, 0x54213, true, .freqPriority⟩,
    ⟨0x11, .u8, .rws, 0, true, .range 0 2⟩,
    ⟨0x12, .u16, .rw, 0xA, true, .range 1 600⟩,
    ⟨0x13, .u32, .ro, 0, false, .any⟩,
    ⟨0x14, .u32, .ro, 0, false, .any⟩,
    ⟨0x20, .u8, .rw, 1, false, .measSource⟩,
    ⟨0x21, .u8, .rw, 0, false, .measGate⟩,
    ⟨0x22, .u32, .rw, 0x3B9ACA00, false, .range 1000 4294967295⟩,
    ⟨0x23, .bool, .wo, 0, false, .range 0 1⟩,
    ⟨0x24, .u8, .ro, 0, false, .any⟩,
    ⟨0x25, .u64, .ro, 0, false, .any⟩ ]

/-- The entries of index 0x2200, part 1. -/
def odRows2200P1 : List OdRow :=
  [ ⟨0x01, .u32, .ro, 0xFFFFFF, false, .any⟩,
    ⟨0x02, .u8, .ro, 0xF, false, .any⟩,
    ⟨0x03, .u8, .ro, 0, false, .any⟩,
    ⟨0x04, .u16, .ro, 0, false, .any⟩,
    ⟨0x10, .u64, .ro, 0, false, .any⟩,
    ⟨0x11, .u64, .ro, 0, false, .any⟩,
    ⟨0x12, .u32, .ro, 0, false, .any⟩,
    ⟨0x13, .u32, .ro, 0, false, .any⟩,
    ⟨0x14, .u64, .ro, 0, false, .any⟩,
    ⟨0x15, .u32, .ro, 0, false, .any⟩,
    ⟨0x16, .u64, .ro, 0, false, .any⟩,
    ⟨0x20, .u16, .rw, 8, true, .range 1 168⟩,
    ⟨0x21, .u16, .rw, 0x18, true, .range 1 168⟩,
    ⟨0x22, .u32, .ro, 0, false, .any⟩,
    ⟨0x24, .u16, .rw, 0x10, true, .range 2 1024⟩,
    ⟨0x25, .u32, .ro, 0, false, .any⟩,
    ⟨0x26, .u32, .ro, 0x18000, false, .any⟩,
    ⟨0x27, .u16, .ro, 0, false, .any⟩,
    ⟨0x30, .u16, .rw, 0x20, true, .range 4 4096⟩,
    ⟨0x31, .u16, .ro, 0, false, .any⟩,
    ⟨0x32, .u16, .ro, 0, false, .any⟩,
    ⟨0x33, .u8, .rw, 0, false, .range 0 23⟩,
    ⟨0x34, .domain, .ro, 0, false, .any⟩,
    ⟨0x40, .f32, .ro, 0, false, .any⟩,
    ⟨0x41, .f32, .ro, 0, false, .any⟩,
    ⟨0x42, .f32, .ro, 0, false, .any⟩,
    ⟨0x43, .f32, .ro, 0, false, .any⟩,
    ⟨0x44, .f32, .ro, 0, false, .any⟩,
    ⟨0x45, .f32, .ro, 0, false, .any⟩,
    ⟨0x46, .f32, .ro, 0, false, .any⟩,
    ⟨0x47, .f32, .ro, 0, false, .any⟩,
    ⟨0x48, .f32, .ro, 0, false, .any⟩,
    ⟨0x49, .f32, .ro, 0, false, .any⟩,
    ⟨0x4A, .f32, .ro, 0, false, .any⟩,
    ⟨0x4B, .f32, .ro, 0, false, .any⟩,
    ⟨0x4C, .f32, .ro, 0, false, .any⟩,
    ⟨0x4D, .f32, .ro, 0, false, .any⟩,
    ⟨0x4E, .f32, .ro, 0, false, .any⟩,
    ⟨0x4F, .f32, .ro, 0, false, .any⟩,
    ⟨0x50, .f32, .ro, 0, false, .any⟩ ]

/-- The entries of index 0x2200, part 2. -/
def odRows2200P2 : List OdRow :=
  [ ⟨0x51, .f32, .ro, 0, false, .any⟩,
    ⟨0x52, .f32, .ro, 0, false, .any⟩,
    ⟨0x53, .f32, .ro, 0, false, .any⟩,
    ⟨0x54, .f32, .ro, 0, false, .any⟩,
    ⟨0x55, .f32, .ro, 0, false, .any⟩,
    ⟨0x56, .f32, .ro, 0, false, .any⟩,
    ⟨0x57, .f32, .ro, 0, false, .any⟩,
    ⟨0x58, .f32, .ro, 0, false, .any⟩,
    ⟨0x59, .f32, .ro, 0, false, .any⟩,
    ⟨0x5A, .f32, .ro, 0, false, .any⟩,
    ⟨0x5B, .f32, .ro, 0, false, .any⟩,
    ⟨0x60, .u64, .ro, 0, false, .any⟩,
    ⟨0x61, .u32, .ro, 0, false, .any⟩ ]

/-- The entries of index 0x2200. -/
def odRows2200 : List OdRow := odRows2200P1 ++ odRows2200P2

/-- The entries of index 0x2300, part 1. -/
def odRows2300P1 : List OdRow :=
  [ ⟨0x01, .u64, .ro, 0, false, .any⟩,
    ⟨0x02, .u64, .wo, 0, false, .any⟩,
    ⟨0x03, .u64, .ro, 0, false, .any⟩,
    ⟨0x04, .u64, .ro, 0, false, .any⟩,
    ⟨0x05, .u32, .ro, 0, false, .any⟩,
    ⟨0x10, .u64, .ro, 0, false, .any⟩,
    ⟨0x11, .u64, .ro, 0, false, .any⟩,
    ⟨0x12, .u64, .ro, 0, false, .any⟩,
    ⟨0x13, .u32, .ro, 0, false, .any⟩,
    ⟨0x14, .u64, .ro, 0, false, .any⟩,
    ⟨0x20, .u64, .rws, 0x3FE010000, true, .prlBase⟩,
    ⟨0x21, .u16, .ro, 0, false, .any⟩,
    ⟨0x22, .u16, .rw, 0, false, .any⟩,
    ⟨0x23, .u32, .wo, 0, false, .any⟩,
    ⟨0x24, .u16, .rw, 0x3E8, true, .range 10 60000⟩,
    ⟨0x25, .u64, .ro, 0, false, .any⟩,
    ⟨0x26, .u32, .ro, 0, false, .any⟩,
    ⟨0x27, .u32, .ro, 0, false, .any⟩,
    ⟨0x28, .u16, .ro, 0, false, .any⟩,
    ⟨0x29, .u32, .ro, 0, false, .any⟩,
    ⟨0x2A, .u8, .rws, 2, true, .range 0 63⟩,
    ⟨0x2B, .u32, .ro, 0, false, .any⟩,
    ⟨0x40, .u64, .rw, 0, false, .any⟩,
    ⟨0x41, .u64, .rw, 0, false, .any⟩,
    ⟨0x42, .u64, .rw, 0, false, .any⟩,
    ⟨0x43, .u64, .rw, 0, false, .any⟩,
    ⟨0x44, .u64, .rw, 0, false, .any⟩,
    ⟨0x45, .u64, .rw, 0, false, .any⟩,
    ⟨0x46, .u64, .rw, 0, false, .any⟩,
    ⟨0x47, .u64, .rw, 0, false, .any⟩,
    ⟨0x48, .u64, .rw, 0, false, .any⟩,
    ⟨0x49, .u64, .rw, 0, false, .any⟩,
    ⟨0x4A, .u64, .rw, 0, false, .any⟩,
    ⟨0x4B, .u64, .rw, 0, false, .any⟩,
    ⟨0x4C, .u64, .rw, 0, false, .any⟩,
    ⟨0x4D, .u64, .rw, 0, false, .any⟩,
    ⟨0x4E, .u64, .rw, 0, false, .any⟩,
    ⟨0x4F, .u64, .rw, 0, false, .any⟩,
    ⟨0x50, .u64, .rw, 0, false, .any⟩,
    ⟨0x51, .u64, .rw, 0, false, .any⟩ ]

/-- The entries of index 0x2300, part 2. -/
def odRows2300P2 : List OdRow :=
  [ ⟨0x52, .u64, .rw, 0, false, .any⟩,
    ⟨0x53, .u64, .rw, 0, false, .any⟩,
    ⟨0x54, .u64, .rw, 0, false, .any⟩,
    ⟨0x55, .u64, .rw, 0, false, .any⟩,
    ⟨0x56, .u64, .rw, 0, false, .any⟩,
    ⟨0x57, .u64, .rw, 0, false, .any⟩,
    ⟨0x58, .u64, .rw, 0, false, .any⟩,
    ⟨0x59, .u64, .rw, 0, false, .any⟩,
    ⟨0x5A, .u64, .rw, 0, false, .any⟩,
    ⟨0x5B, .u64, .rw, 0, false, .any⟩,
    ⟨0x5C, .u64, .rw, 0, false, .any⟩,
    ⟨0x5D, .u64, .rw, 0, false, .any⟩,
    ⟨0x5E, .u64, .rw, 0, false, .any⟩,
    ⟨0x5F, .u64, .rw, 0, false, .any⟩,
    ⟨0x60, .u64, .rw, 0, false, .any⟩,
    ⟨0x61, .u64, .rw, 0, false, .any⟩,
    ⟨0x62, .u64, .rw, 0, false, .any⟩,
    ⟨0x63, .u64, .rw, 0, false, .any⟩,
    ⟨0x64, .u64, .rw, 0, false, .any⟩,
    ⟨0x65, .u64, .rw, 0, false, .any⟩,
    ⟨0x66, .u64, .rw, 0, false, .any⟩,
    ⟨0x67, .u64, .rw, 0, false, .any⟩,
    ⟨0x68, .u64, .rw, 0, false, .any⟩,
    ⟨0x69, .u64, .rw, 0, false, .any⟩,
    ⟨0x6A, .u64, .rw, 0, false, .any⟩,
    ⟨0x6B, .u64, .rw, 0, false, .any⟩,
    ⟨0x6C, .u64, .rw, 0, false, .any⟩,
    ⟨0x6D, .u64, .rw, 0, false, .any⟩,
    ⟨0x6E, .u64, .rw, 0, false, .any⟩,
    ⟨0x6F, .u64, .rw, 0, false, .any⟩,
    ⟨0x70, .u64, .rw, 0, false, .any⟩,
    ⟨0x71, .u64, .rw, 0, false, .any⟩,
    ⟨0x72, .u64, .rw, 0, false, .any⟩,
    ⟨0x73, .u64, .rw, 0, false, .any⟩,
    ⟨0x74, .u64, .rw, 0, false, .any⟩,
    ⟨0x75, .u64, .rw, 0, false, .any⟩,
    ⟨0x76, .u64, .rw, 0, false, .any⟩,
    ⟨0x77, .u64, .rw, 0, false, .any⟩,
    ⟨0x78, .u64, .rw, 0, false, .any⟩,
    ⟨0x79, .u64, .rw, 0, false, .any⟩ ]

/-- The entries of index 0x2300, part 3. -/
def odRows2300P3 : List OdRow :=
  [ ⟨0x7A, .u64, .rw, 0, false, .any⟩,
    ⟨0x7B, .u64, .rw, 0, false, .any⟩,
    ⟨0x7C, .u64, .rw, 0, false, .any⟩,
    ⟨0x7D, .u64, .rw, 0, false, .any⟩,
    ⟨0x7E, .u64, .rw, 0, false, .any⟩,
    ⟨0x7F, .u64, .rw, 0, false, .any⟩ ]

/-- The entries of index 0x2300. -/
def odRows2300 : List OdRow := odRows2300P1 ++ odRows2300P2 ++ odRows2300P3

/-- The entries of index 0x3000. -/
def odRows3000 : List OdRow :=
  [ ⟨0x01, .u8, .ro, 0xF, false, .any⟩,
    ⟨0x02, .u16, .ro, 0x50, false, .any⟩,
    ⟨0x03, .u8, .ro, 0x30, false, .any⟩,
    ⟨0x04, .u8, .ro, 0x20, false, .any⟩,
    ⟨0x05, .u8, .ro, 0xF, false, .any⟩,
    ⟨0x10, .u32, .ro, 0, false, .any⟩,
    ⟨0x11, .u32, .ro, 0, false, .any⟩,
    ⟨0x12, .u32, .ro, 0, false, .any⟩,
    ⟨0x13, .u32, .ro, 0, false, .any⟩,
    ⟨0x20, .u64, .ro, 0, false, .any⟩,
    ⟨0x21, .u8, .rw, 4, true, .range 2 64⟩,
    ⟨0x22, .u64, .ro, 0, false, .any⟩,
    ⟨0x23, .u32, .ro, 0, false, .any⟩,
    ⟨0x24, .u64, .ro, 0, false, .any⟩,
    ⟨0x25, .u64, .ro, 0, false, .any⟩,
    ⟨0x26, .u64, .ro, 0, false, .any⟩,
    ⟨0x27, .u64, .ro, 0, false, .any⟩,
    ⟨0x28, .u32, .ro, 0, false, .any⟩,
    ⟨0x30, .u64, .ro, 0, false, .any⟩,
    ⟨0x31, .u64, .ro, 0, false, .any⟩,
    ⟨0x32, .u64, .ro, 0, false, .any⟩,
    ⟨0x33, .u64, .ro, 0, false, .any⟩,
    ⟨0x40, .u16, .ro, 0, false, .any⟩,
    ⟨0x41, .u32, .ro, 0, false, .any⟩,
    ⟨0x42, .u32, .ro, 0, false, .any⟩,
    ⟨0x43, .u16, .ro, 0, false, .any⟩,
    ⟨0x44, .u32, .ro, 0, false, .any⟩,
    ⟨0x45, .u32, .ro, 0, false, .any⟩,
    ⟨0x46, .u16, .ro, 0, false, .any⟩,
    ⟨0x47, .u64, .ro, 0, false, .any⟩,
    ⟨0x48, .u32, .ro, 0, false, .any⟩,
    ⟨0x49, .u16, .rw, 0x64, true, .range 1 10000⟩,
    ⟨0x4A, .u64, .ro, 0, false, .any⟩,
    ⟨0x4B, .bool, .rws, 1, true, .range 0 1⟩,
    ⟨0x4C, .u64, .ro, 0, false, .any⟩,
    ⟨0x4D, .u32, .ro, 0, false, .any⟩,
    ⟨0x50, .u8, .ro, 0, false, .any⟩ ]

/-- The entries of index 0x3100. -/
def odRows3100 : List OdRow :=
  [ ⟨0x01, .u64, .ro, 0, false, .any⟩,
    ⟨0x02, .u64, .ro, 0, false, .any⟩,
    ⟨0x03, .u64, .ro, 0, false, .any⟩,
    ⟨0x04, .u64, .ro, 0, false, .any⟩,
    ⟨0x05, .u64, .ro, 0, false, .any⟩,
    ⟨0x06, .u64, .ro, 0, false, .any⟩,
    ⟨0x07, .u32, .ro, 0, false, .any⟩,
    ⟨0x08, .u32, .ro, 0, false, .any⟩,
    ⟨0x09, .u8, .rws, 0, true, .range 0 1⟩,
    ⟨0x0A, .u64, .ro, 0, false, .any⟩,
    ⟨0x10, .u64, .ro, 0, false, .any⟩,
    ⟨0x11, .u32, .ro, 0, false, .any⟩,
    ⟨0x12, .u32, .ro, 0, false, .any⟩,
    ⟨0x13, .u64, .ro, 0, false, .any⟩,
    ⟨0x14, .u64, .ro, 0, false, .any⟩,
    ⟨0x15, .u64, .ro, 0, false, .any⟩,
    ⟨0x16, .u64, .ro, 0, false, .any⟩,
    ⟨0x17, .u64, .ro, 0, false, .any⟩,
    ⟨0x18, .u32, .ro, 0, false, .any⟩,
    ⟨0x19, .u64, .ro, 0, false, .any⟩,
    ⟨0x1A, .domain, .cnst, 0, false, .any⟩,
    ⟨0x20, .u64, .ro, 0, false, .any⟩,
    ⟨0x21, .u64, .ro, 0, false, .any⟩,
    ⟨0x22, .u64, .ro, 0, false, .any⟩,
    ⟨0x23, .u64, .ro, 0, false, .any⟩ ]

/-- The entries of index 0x3200. -/
def odRows3200 : List OdRow :=
  [ ⟨0x01, .u64, .ro, 0, false, .any⟩,
    ⟨0x02, .u64, .ro, 0, false, .any⟩,
    ⟨0x03, .u64, .ro, 0, false, .any⟩,
    ⟨0x04, .u64, .ro, 0, false, .any⟩,
    ⟨0x05, .u64, .ro, 0, false, .any⟩,
    ⟨0x06, .u64, .ro, 0, false, .any⟩,
    ⟨0x07, .u64, .ro, 0, false, .any⟩,
    ⟨0x08, .u64, .ro, 0, false, .any⟩,
    ⟨0x09, .u64, .ro, 0, false, .any⟩,
    ⟨0x0A, .u64, .ro, 0, false, .any⟩,
    ⟨0x0B, .u64, .ro, 0, false, .any⟩,
    ⟨0x0C, .u64, .ro, 0, false, .any⟩,
    ⟨0x0D, .u64, .ro, 0, false, .any⟩,
    ⟨0x0E, .u32, .ro, 0, false, .any⟩,
    ⟨0x0F, .u32, .ro, 0, false, .any⟩,
    ⟨0x10, .u8, .rw, 2, true, .range 0 2⟩,
    ⟨0x11, .u8, .rw, 2, true, .any⟩,
    ⟨0x12, .u8, .rw, 6, true, .range 0 10⟩,
    ⟨0x13, .u64, .ro, 0, false, .any⟩,
    ⟨0x20, .u32, .rw, 0, false, .any⟩,
    ⟨0x21, .u8, .rw, 0, false, .range 0 2⟩,
    ⟨0x22, .u8, .ro, 0, false, .any⟩,
    ⟨0x23, .u64, .ro, 0, false, .any⟩,
    ⟨0x24, .u64, .ro, 0, false, .any⟩,
    ⟨0x25, .u32, .ro, 0, false, .any⟩,
    ⟨0x26, .u32, .ro, 0, false, .any⟩,
    ⟨0x27, .u64, .ro, 0, false, .any⟩,
    ⟨0x28, .u32, .ro, 0, false, .any⟩ ]

/-- The entries of index 0x3300. -/
def odRows3300 : List OdRow :=
  [ ⟨0x01, .u64, .ro, 0, false, .any⟩,
    ⟨0x02, .u64, .ro, 0, false, .any⟩,
    ⟨0x03, .u64, .ro, 0, false, .any⟩,
    ⟨0x04, .u64, .ro, 0, false, .any⟩,
    ⟨0x05, .u64, .ro, 0, false, .any⟩,
    ⟨0x06, .u64, .ro, 0, false, .any⟩,
    ⟨0x07, .u32, .ro, 0, false, .any⟩,
    ⟨0x08, .u32, .ro, 0, false, .any⟩,
    ⟨0x09, .u32, .ro, 0, false, .any⟩,
    ⟨0x0A, .u64, .ro, 0, false, .any⟩,
    ⟨0x10, .u64, .ro, 0, false, .any⟩,
    ⟨0x11, .u64, .ro, 0, false, .any⟩,
    ⟨0x12, .u64, .ro, 0, false, .any⟩,
    ⟨0x20, .u8, .rw, 2, true, .range 0 2⟩,
    ⟨0x21, .u32, .rw, 0x40000, true, .range 4096 16777216⟩,
    ⟨0x22, .u64, .ro, 0, false, .any⟩,
    ⟨0x23, .u64, .ro, 0, false, .any⟩,
    ⟨0x24, .u32, .ro, 0, false, .any⟩ ]

/-- The entries of index 0x3400. -/
def odRows3400 : List OdRow :=
  [ ⟨0x01, .bool, .rws, 1, true, .range 0 1⟩,
    ⟨0x02, .u32, .ro, 0, false, .any⟩,
    ⟨0x03, .u32, .ro, 0, false, .any⟩,
    ⟨0x04, .u32, .ro, 0, false, .any⟩,
    ⟨0x05, .u32, .ro, 0, false, .any⟩,
    ⟨0x10, .u64, .ro, 0, false, .any⟩,
    ⟨0x11, .u64, .ro, 0, false, .any⟩,
    ⟨0x12, .u64, .ro, 0, false, .any⟩,
    ⟨0x13, .u64, .ro, 0, false, .any⟩,
    ⟨0x14, .u64, .ro, 0, false, .any⟩,
    ⟨0x20, .u64, .ro, 0, false, .any⟩,
    ⟨0x21, .u32, .ro, 0, false, .any⟩,
    ⟨0x22, .u32, .ro, 0, false, .any⟩,
    ⟨0x23, .u32, .ro, 0, false, .any⟩,
    ⟨0x24, .u32, .ro, 0, false, .any⟩ ]

/-- The entries of index 0x4000, part 1. -/
def odRows4000P1 : List OdRow :=
  [ ⟨0x01, .u64, .rws, 0x3FF000000, true, .any⟩,
    ⟨0x02, .u32, .ro, 0, false, .any⟩,
    ⟨0x03, .u32, .rws, 0x10000, true, .range 0 65536⟩,
    ⟨0x04, .u64, .ro, 0, false, .any⟩,
    ⟨0x05, .u32, .ro, 0, false, .any⟩,
    ⟨0x06, .u32, .ro, 0, false, .any⟩,
    ⟨0x07, .u64, .ro, 0, false, .any⟩,
    ⟨0x08, .u32, .ro, 0, false, .any⟩,
    ⟨0x09, .u32, .ro, 0, false, .any⟩,
    ⟨0x0A, .u32, .ro, 0, false, .any⟩,
    ⟨0x0B, .u64, .ro, 0, false, .any⟩,
    ⟨0x0C, .u32, .ro, 0, false, .any⟩,
    ⟨0x0D, .u32, .ro, 0, false, .any⟩,
    ⟨0x0E, .u64, .ro, 0, false, .any⟩,
    ⟨0x0F, .u64, .ro, 0, false, .any⟩,
    ⟨0x10, .u64, .rws, 0x3FE000000, true, .clogBase⟩,
    ⟨0x11, .u16, .ro, 0, false, .any⟩,
    ⟨0x12, .u16, .rw, 0, false, .any⟩,
    ⟨0x13, .u32, .ro, 0, false, .any⟩,
    ⟨0x14, .u16, .rw, 0, true, .range 0 1000⟩,
    ⟨0x15, .u32, .ro, 0, false, .any⟩,
    ⟨0x16, .u16, .rw, 0, false, .any⟩,
    ⟨0x17, .domain, .ro, 0, false, .any⟩,
    ⟨0x20, .u16, .rw, 0x384, true, .range 100 1000⟩,
    ⟨0x21, .u16, .rw, 0x96, true, .range 0 1000⟩,
    ⟨0x22, .u32, .ro, 0, false, .any⟩,
    ⟨0x23, .u32, .ro, 0, false, .any⟩,
    ⟨0x24, .u16, .ro, 0, false, .any⟩,
    ⟨0x25, .u64, .ro, 0, false, .any⟩,
    ⟨0x26, .u64, .ro, 0, false, .any⟩,
    ⟨0x27, .u8, .rw, 0x20, true, .range 1 32⟩,
    ⟨0x28, .u16, .rw, 0x32, true, .range 0 10000⟩,
    ⟨0x29, .u64, .ro, 0, false, .any⟩,
    ⟨0x2A, .u64, .ro, 0, false, .any⟩,
    ⟨0x2B, .u16, .rw, 0, true, .range 0 500⟩,
    ⟨0x2C, .u64, .ro, 0, false, .any⟩,
    ⟨0x30, .u32, .ro, 0, false, .any⟩,
    ⟨0x31, .u32, .ro, 0, false, .any⟩,
    ⟨0x33, .u16, .rw, 0x64, true, .range 0 500⟩,
    ⟨0x34, .u64, .ro, 0, false, .any⟩ ]

/-- The entries of index 0x4000, part 2. -/
def odRows4000P2 : List OdRow :=
  [ ⟨0x35, .u64, .ro, 0, false, .any⟩,
    ⟨0x36, .u64, .ro, 0, false, .any⟩,
    ⟨0x37, .u32, .ro, 0, false, .any⟩,
    ⟨0x38, .u32, .ro, 0, false, .any⟩,
    ⟨0x39, .u32, .ro, 0, false, .any⟩,
    ⟨0x3A, .u32, .ro, 0, false, .any⟩,
    ⟨0x40, .u8, .rw, 1, true, .range 0 63⟩,
    ⟨0x41, .u8, .rw, 1, true, .range 0 63⟩,
    ⟨0x42, .u8, .rw, 1, true, .range 0 63⟩,
    ⟨0x43, .u8, .rw, 1, true, .range 0 63⟩,
    ⟨0x44, .u8, .rw, 1, true, .range 0 63⟩,
    ⟨0x45, .u8, .rw, 1, true, .range 0 63⟩,
    ⟨0x46, .u8, .rw, 1, true, .range 0 63⟩,
    ⟨0x47, .u8, .rw, 1, true, .range 0 63⟩,
    ⟨0x48, .u8, .rw, 1, true, .range 0 63⟩,
    ⟨0x49, .u8, .rw, 1, true, .range 0 63⟩,
    ⟨0x4A, .u8, .rw, 1, true, .range 0 63⟩,
    ⟨0x4B, .u8, .rw, 1, true, .range 0 63⟩,
    ⟨0x4C, .u8, .rw, 1, true, .range 0 63⟩,
    ⟨0x4D, .u8, .rw, 1, true, .range 0 63⟩,
    ⟨0x4E, .u8, .rw, 1, true, .range 0 63⟩,
    ⟨0x4F, .u8, .rw, 1, true, .range 0 63⟩,
    ⟨0x50, .u8, .rw, 1, true, .range 0 63⟩,
    ⟨0x51, .u8, .rw, 1, true, .range 0 63⟩,
    ⟨0x52, .u8, .rw, 1, true, .range 0 63⟩,
    ⟨0x53, .u8, .rw, 1, true, .range 0 63⟩,
    ⟨0x54, .u8, .rw, 1, true, .range 0 63⟩,
    ⟨0x55, .u8, .rw, 1, true, .range 0 63⟩,
    ⟨0x56, .u8, .rw, 1, true, .range 0 63⟩,
    ⟨0x57, .u8, .rw, 1, true, .range 0 63⟩,
    ⟨0x58, .u8, .rw, 1, true, .range 0 63⟩,
    ⟨0x59, .u8, .rw, 1, true, .range 0 63⟩,
    ⟨0x5A, .u8, .rw, 1, true, .range 0 63⟩,
    ⟨0x5B, .u8, .rw, 1, true, .range 0 63⟩,
    ⟨0x5C, .u8, .rw, 1, true, .range 0 63⟩,
    ⟨0x5D, .u8, .rw, 1, true, .range 0 63⟩,
    ⟨0x5E, .u8, .rw, 1, true, .range 0 63⟩,
    ⟨0x5F, .u8, .rw, 1, true, .range 0 63⟩,
    ⟨0x60, .u8, .rw, 1, true, .range 0 63⟩,
    ⟨0x61, .u8, .rw, 1, true, .range 0 63⟩ ]

/-- The entries of index 0x4000, part 3. -/
def odRows4000P3 : List OdRow :=
  [ ⟨0x62, .u8, .rw, 1, true, .range 0 63⟩,
    ⟨0x63, .u8, .rw, 1, true, .range 0 63⟩,
    ⟨0x64, .u8, .rw, 1, true, .range 0 63⟩,
    ⟨0x65, .u8, .rw, 1, true, .range 0 63⟩,
    ⟨0x66, .u8, .rw, 1, true, .range 0 63⟩,
    ⟨0x67, .u8, .rw, 1, true, .range 0 63⟩,
    ⟨0x68, .u8, .rw, 1, true, .range 0 63⟩,
    ⟨0x69, .u8, .rw, 1, true, .range 0 63⟩,
    ⟨0x6A, .u8, .rw, 1, true, .range 0 63⟩,
    ⟨0x6B, .u8, .rw, 1, true, .range 0 63⟩,
    ⟨0x6C, .u8, .rw, 1, true, .range 0 63⟩,
    ⟨0x6D, .u8, .rw, 1, true, .range 0 63⟩,
    ⟨0x6E, .u8, .rw, 1, true, .range 0 63⟩,
    ⟨0x6F, .u8, .rw, 1, true, .range 0 63⟩,
    ⟨0x70, .u8, .rw, 1, true, .range 0 63⟩,
    ⟨0x71, .u8, .rw, 1, true, .range 0 63⟩,
    ⟨0x72, .u8, .rw, 1, true, .range 0 63⟩,
    ⟨0x73, .u8, .rw, 1, true, .range 0 63⟩,
    ⟨0x74, .u8, .rw, 1, true, .range 0 63⟩,
    ⟨0x75, .u8, .rw, 1, true, .range 0 63⟩,
    ⟨0x76, .u8, .rw, 1, true, .range 0 63⟩,
    ⟨0x77, .u8, .rw, 1, true, .range 0 63⟩,
    ⟨0x78, .u8, .rw, 1, true, .range 0 63⟩,
    ⟨0x79, .u8, .rw, 1, true, .range 0 63⟩,
    ⟨0x7A, .u8, .rw, 1, true, .range 0 63⟩,
    ⟨0x7B, .u8, .rw, 1, true, .range 0 63⟩,
    ⟨0x7C, .u8, .rw, 1, true, .range 0 63⟩,
    ⟨0x7D, .u8, .rw, 1, true, .range 0 63⟩,
    ⟨0x7E, .u8, .rw, 1, true, .range 0 63⟩,
    ⟨0x7F, .u8, .rw, 1, true, .range 0 63⟩ ]

/-- The entries of index 0x4000. -/
def odRows4000 : List OdRow := odRows4000P1 ++ odRows4000P2 ++ odRows4000P3

/-- The entries of index 0x4100. -/
def odRows4100 : List OdRow :=
  [ ⟨0x01, .bool, .rw, 1, true, .range 0 1⟩,
    ⟨0x02, .u64, .ro, 0, false, .any⟩,
    ⟨0x03, .u64, .ro, 0, false, .any⟩,
    ⟨0x04, .u64, .ro, 0, false, .any⟩,
    ⟨0x05, .u64, .ro, 0, false, .any⟩,
    ⟨0x06, .u32, .ro, 0, false, .any⟩,
    ⟨0x07, .u32, .ro, 0, false, .any⟩,
    ⟨0x08, .u64, .ro, 0, false, .any⟩ ]

/-- The entries of index 0x4200. -/
def odRows4200 : List OdRow :=
  [ ⟨0x01, .u64, .ro, 0, false, .any⟩,
    ⟨0x02, .u64, .ro, 0, false, .any⟩,
    ⟨0x03, .u64, .ro, 0, false, .any⟩,
    ⟨0x04, .u64, .ro, 0, false, .any⟩,
    ⟨0x05, .u64, .ro, 0, false, .any⟩,
    ⟨0x06, .u64, .ro, 0, false, .any⟩,
    ⟨0x07, .u32, .ro, 0, false, .any⟩,
    ⟨0x08, .u64, .ro, 0, false, .any⟩,
    ⟨0x09, .u64, .ro, 0, false, .any⟩,
    ⟨0x0A, .u32, .ro, 0, false, .any⟩,
    ⟨0x0B, .u64, .ro, 0, false, .any⟩,
    ⟨0x10, .u32, .rw, 0, false, .any⟩,
    ⟨0x11, .domain, .ro, 0, false, .any⟩ ]

/-- The entries of index 0x4300. -/
def odRows4300 : List OdRow :=
  [ ⟨0x01, .u64, .rws, 0x3C0000000, true, .any⟩,
    ⟨0x02, .u64, .rws, 0x40000000, true, .any⟩,
    ⟨0x03, .u32, .ro, 0, false, .any⟩,
    ⟨0x04, .u32, .ro, 0, false, .any⟩,
    ⟨0x05, .u32, .ro, 0, false, .any⟩,
    ⟨0x06, .u8, .rw, 3, true, .range 0 16⟩,
    ⟨0x08, .u16, .rw, 0x3C, true, .range 10 3600⟩,
    ⟨0x09, .u16, .rw, 0x5DC, true, .range 1000 8000⟩,
    ⟨0x0F, .u16, .rw, 0, false, .any⟩,
    ⟨0x10, .domain, .ro, 0, false, .any⟩ ]

/-- The entries of index 0x5000. -/
def odRows5000 : List OdRow :=
  [ ⟨0x01, .u64, .ro, 0, false, .any⟩,
    ⟨0x02, .u16, .rws, 0xFFF, true, .any⟩,
    ⟨0x03, .u32, .ro, 0, false, .any⟩,
    ⟨0x04, .u32, .ro, 0, false, .any⟩,
    ⟨0x05, .u32, .ro, 0, false, .any⟩,
    ⟨0x06, .u32, .ro, 0, false, .any⟩,
    ⟨0x07, .u64, .ro, 0, false, .any⟩,
    ⟨0x10, .u8, .rw, 0, false, .range 0 11⟩,
    ⟨0x11, .u8, .ro, 0, false, .any⟩,
    ⟨0x12, .bool, .ro, 0, false, .range 0 1⟩,
    ⟨0x13, .u64, .ro, 0xFFFFFFFFFFFFFFFF, false, .any⟩,
    ⟨0x14, .u8, .ro, 0xFF, false, .any⟩,
    ⟨0x15, .u16, .ro, 0, false, .any⟩,
    ⟨0x16, .u64, .ro, 0, false, .any⟩,
    ⟨0x17, .u32, .ro, 0, false, .any⟩,
    ⟨0x18, .u32, .ro, 0, false, .any⟩,
    ⟨0x19, .u64, .ro, 0, false, .any⟩,
    ⟨0x1A, .u32, .ro, 0, false, .any⟩,
    ⟨0x1B, .u64, .ro, 0, false, .any⟩,
    ⟨0x1C, .u64, .ro, 0, false, .any⟩,
    ⟨0x1D, .u64, .ro, 0, false, .any⟩,
    ⟨0x20, .u32, .rw, 0x186A0, true, .range 1000 10000000⟩ ]

/-- The entries of index 0x5100. -/
def odRows5100 : List OdRow :=
  [ ⟨0x01, .u8, .ro, 2, false, .any⟩,
    ⟨0x02, .u8, .ro, 0, false, .any⟩,
    ⟨0x03, .u64, .ro, 0xFFFFFFFFFFFFFFFF, false, .any⟩,
    ⟨0x04, .u8, .rws, 2, true, .range 2 8⟩,
    ⟨0x05, .u8, .rws, 0, true, .range 0 2⟩,
    ⟨0x06, .u32, .ro, 0, false, .any⟩,
    ⟨0x07, .u64, .rws, 0xFFFFFFFFFFFFFFFF, true, .galleryPath⟩,
    ⟨0x08, .domain, .rws, 0, true, .any⟩,
    ⟨0x09, .u16, .rw, 0x64, true, .range 20 1000⟩,
    ⟨0x0A, .u64, .ro, 0xFFFFFFFFFFFFFFFF, false, .any⟩,
    ⟨0x0B, .bool, .ro, 0, false, .range 0 1⟩,
    ⟨0x0C, .u32, .ro, 0, false, .any⟩,
    ⟨0x0D, .u32, .ro, 0, false, .any⟩,
    ⟨0x0E, .domain, .rws, 0, true, .any⟩,
    ⟨0x0F, .bool, .rws, 0, true, .range 0 1⟩,
    ⟨0x10, .u32, .ro, 0x50, false, .any⟩,
    ⟨0x11, .u32, .ro, 0x180, false, .any⟩,
    ⟨0x12, .u32, .ro, 0x200, false, .any⟩,
    ⟨0x13, .u16, .ro, 0, false, .any⟩,
    ⟨0x14, .u32, .ro, 0, false, .any⟩,
    ⟨0x15, .u32, .ro, 0, false, .any⟩,
    ⟨0x16, .u32, .ro, 0, false, .any⟩ ]

/-- The entries of index 0x5200. -/
def odRows5200 : List OdRow :=
  [ ⟨0x01, .u8, .rws, 0, true, .range 0 1⟩,
    ⟨0x02, .u8, .ro, 0, false, .any⟩,
    ⟨0x03, .i32, .ro, 0, false, .any⟩,
    ⟨0x04, .u8, .ro, 0xFF, false, .any⟩,
    ⟨0x05, .u8, .ro, 0, false, .any⟩,
    ⟨0x06, .u64, .ro, 0, false, .any⟩,
    ⟨0x07, .u64, .ro, 0, false, .any⟩,
    ⟨0x08, .u32, .ro, 0, false, .any⟩,
    ⟨0x09, .u16, .ro, 0x14, false, .any⟩ ]

/-- The entries of index 0x6000, part 1. -/
def odRows6000P1 : List OdRow :=
  [ ⟨0x01, .u8, .ro, 0, false, .any⟩,
    ⟨0x03, .u8, .ro, 0, false, .any⟩,
    ⟨0x08, .domain, .rw, 0, true, .any⟩,
    ⟨0x09, .domain, .rw, 0, true, .any⟩,
    ⟨0x0A, .domain, .rw, 0, true, .any⟩,
    ⟨0x0B, .u16, .rw, 0, true, .range 0 4094⟩,
    ⟨0x0C, .u16, .rw, 0, true, .range 0 4094⟩,
    ⟨0x0D, .u16, .rw, 0, true, .range 0 4094⟩,
    ⟨0x11, .u16, .rw, 0x1272, true, .range 1024 65535⟩,
    ⟨0x12, .domain, .rw, 0, true, .any⟩,
    ⟨0x13, .u32, .rw, 0, true, .any⟩,
    ⟨0x14, .u16, .rw, 0x40, true, .range 1 4096⟩,
    ⟨0x20, .domain, .rw, 0, true, .any⟩,
    ⟨0x21, .domain, .wo, 0, false, .any⟩,
    ⟨0x22, .u32, .ro, 0, false, .any⟩,
    ⟨0x24, .u32, .ro, 0, false, .any⟩,
    ⟨0x25, .u64, .rw, 0, false, .any⟩,
    ⟨0x26, .domain, .ro, 0, false, .any⟩,
    ⟨0x30, .u64, .ro, 0, false, .any⟩,
    ⟨0x31, .u64, .ro, 0, false, .any⟩,
    ⟨0x32, .u64, .ro, 0, false, .any⟩,
    ⟨0x33, .u64, .ro, 0, false, .any⟩,
    ⟨0x34, .u64, .ro, 0, false, .any⟩,
    ⟨0x35, .u64, .ro, 0, false, .any⟩,
    ⟨0x36, .u64, .ro, 0, false, .any⟩,
    ⟨0x37, .u64, .ro, 0, false, .any⟩,
    ⟨0x38, .u64, .ro, 0, false, .any⟩,
    ⟨0x39, .u64, .ro, 0, false, .any⟩,
    ⟨0x40, .u32, .ro, 0, false, .any⟩,
    ⟨0x41, .u32, .ro, 0, false, .any⟩,
    ⟨0x42, .u64, .ro, 0, false, .any⟩,
    ⟨0x50, .bool, .rw, 0, true, .range 0 1⟩,
    ⟨0x51, .u8, .rw, 0, true, .ptpPort⟩,
    ⟨0x52, .u8, .rw, 0, true, .range 0 127⟩,
    ⟨0x53, .u8, .ro, 0, false, .any⟩,
    ⟨0x54, .i32, .ro, 0, false, .any⟩,
    ⟨0x55, .u16, .ro, 0, false, .any⟩,
    ⟨0x60, .u8, .ro, 0, false, .any⟩,
    ⟨0x61, .u64, .ro, 0, false, .any⟩,
    ⟨0x62, .i32, .ro, 0, false, .any⟩ ]

/-- The entries of index 0x6000, part 2. -/
def odRows6000P2 : List OdRow :=
  [ ⟨0x63, .bool, .rw, 0, true, .range 0 1⟩,
    ⟨0x64, .i32, .rw, 0, true, .irange 100000⟩,
    ⟨0x68, .u8, .ro, 0, false, .any⟩ ]

/-- The entries of index 0x6000. -/
def odRows6000 : List OdRow := odRows6000P1 ++ odRows6000P2

/-- The entries of index 0x6100. -/
def odRows6100 : List OdRow :=
  [ ⟨0x01, .u8, .ro, 0, false, .any⟩,
    ⟨0x02, .u8, .ro, 0, false, .any⟩,
    ⟨0x03, .u8, .ro, 0, false, .any⟩,
    ⟨0x04, .bool, .ro, 0, false, .range 0 1⟩,
    ⟨0x05, .u64, .ro, 0, false, .any⟩,
    ⟨0x06, .u64, .ro, 0, false, .any⟩,
    ⟨0x07, .bool, .ro, 0, false, .range 0 1⟩,
    ⟨0x08, .u32, .ro, 0, false, .any⟩,
    ⟨0x09, .u64, .ro, 0, false, .any⟩,
    ⟨0x0A, .u32, .ro, 0, false, .any⟩,
    ⟨0x0B, .u32, .ro, 0, false, .any⟩,
    ⟨0x0D, .u32, .ro, 0, false, .any⟩,
    ⟨0x11, .u8, .rw, 3, true, .range 0 63⟩,
    ⟨0x12, .bool, .rws, 1, true, .range 0 1⟩,
    ⟨0x13, .u32, .ro, 0, false, .any⟩,
    ⟨0x14, .u32, .ro, 0, false, .any⟩,
    ⟨0x15, .u64, .ro, 0, false, .any⟩ ]

/-- The entries of index 0x7000. -/
def odRows7000 : List OdRow :=
  [ ⟨0x01, .u16, .rw, 0, false, .testTarget⟩,
    ⟨0x02, .u8, .rw, 1, false, .range 1 5⟩,
    ⟨0x03, .u8, .rw, 2, false, .testPattern⟩,
    ⟨0x04, .u32, .rw, 0x3E8, false, .range 1 3600000⟩,
    ⟨0x05, .u64, .rw, 0, false, .any⟩,
    ⟨0x06, .bool, .wo, 0, false, .range 0 1⟩,
    ⟨0x07, .bool, .wo, 0, false, .range 0 1⟩,
    ⟨0x08, .u8, .ro, 0, false, .any⟩,
    ⟨0x09, .u64, .ro, 0, false, .any⟩,
    ⟨0x0A, .u64, .ro, 0, false, .any⟩,
    ⟨0x0B, .u64, .ro, 0, false, .any⟩,
    ⟨0x0C, .domain, .rw, 0, true, .any⟩,
    ⟨0x0D, .bool, .rw, 0, true, .range 0 1⟩,
    ⟨0x20, .u8, .rw, 0, false, .marginTarget⟩,
    ⟨0x21, .u32, .rw, 0x100000, false, .range 65536 67108864⟩,
    ⟨0x22, .bool, .wo, 0, false, .range 0 1⟩,
    ⟨0x23, .u8, .ro, 0, false, .any⟩,
    ⟨0x24, .domain, .ro, 0, false, .any⟩,
    ⟨0x30, .u32, .rw, 0, false, .bistSelect⟩,
    ⟨0x31, .bool, .wo, 0, false, .range 0 1⟩,
    ⟨0x32, .u8, .ro, 0, false, .any⟩,
    ⟨0x33, .u32, .ro, 0, false, .any⟩,
    ⟨0x40, .bool, .rws, 0, true, .range 0 1⟩,
    ⟨0x41, .bool, .ro, 0, false, .range 0 1⟩,
    ⟨0x50, .domain, .cnst, 0, false, .any⟩ ]

/-- The entries of index 0x7100. -/
def odRows7100 : List OdRow :=
  [ ⟨0x01, .u8, .ro, 0, false, .any⟩,
    ⟨0x02, .domain, .wo, 0, false, .any⟩,
    ⟨0x03, .u32, .wo, 0, false, .oneOf [0x746F6F62]⟩,
    ⟨0x04, .u16, .ro, 0, false, .any⟩,
    ⟨0x05, .u32, .ro, 0, false, .any⟩,
    ⟨0x06, .u32, .ro, 0, false, .any⟩ ]

/-- The entries of index 0xA000. -/
def odRowsA000 : List OdRow :=
  [ ⟨0x01, .u8, .ro, 0, false, .any⟩,
    ⟨0x02, .u32, .ro, 0, false, .any⟩,
    ⟨0x03, .u32, .ro, 0, false, .any⟩,
    ⟨0x10, .domain, .wo, 0, false, .any⟩,
    ⟨0x11, .u16, .wo, 0, false, .any⟩,
    ⟨0x12, .u16, .rw, 0, false, .any⟩,
    ⟨0x13, .u8, .ro, 0, false, .any⟩,
    ⟨0x14, .u16, .ro, 0, false, .any⟩,
    ⟨0x15, .u32, .ro, 0, false, .any⟩,
    ⟨0x16, .u16, .rw, 0x3C, true, .range 1 3600⟩ ]

/-- R28: every index that the module implements, with its entries. -/
def odIndexes : List (Nat × List OdRow) :=
  [ (0x1000, odRows1000),
    (0x1100, odRows1100),
    (0x1200, odRows1200),
    (0x1300, odRows1300),
    (0x2000, odRows2000),
    (0x2100, odRows2100),
    (0x2200, odRows2200),
    (0x2300, odRows2300),
    (0x3000, odRows3000),
    (0x3100, odRows3100),
    (0x3200, odRows3200),
    (0x3300, odRows3300),
    (0x3400, odRows3400),
    (0x4000, odRows4000),
    (0x4100, odRows4100),
    (0x4200, odRows4200),
    (0x4300, odRows4300),
    (0x5000, odRows5000),
    (0x5100, odRows5100),
    (0x5200, odRows5200),
    (0x6000, odRows6000),
    (0x6100, odRows6100),
    (0x7000, odRows7000),
    (0x7100, odRows7100),
    (0xA000, odRowsA000) ]

namespace Od

/-- OD 0x3000.01 HALLS_PRESENT (01): bit *n* set when hall H*n* is powered and not failed -/
abbrev hallsPresent : Nat := 0x300001
/-- OD 0x3000.02 FLIGHTS_AVAILABLE (01): flights not fenced -/
abbrev flightsAvailable : Nat := 0x300002
/-- OD 0x3000.03 P_FLIGHTS_AVAILABLE (01): P-flights not fenced -/
abbrev pFlightsAvailable : Nat := 0x300003
/-- OD 0x3000.04 G_FLIGHTS_AVAILABLE (01): G-flights not fenced -/
abbrev gFlightsAvailable : Nat := 0x300004
/-- OD 0x3000.05 CORRIDORS_UP (01): bit 0 H0–H1, bit 1 H2–H3, bit 2 H0–H2, bit 3 H1–H3 -/
abbrev corridorsUp : Nat := 0x300005
/-- OD 0x3000.10–13 STEP_RATE_H0 … H3 (01): achieved step rate of the hall over the last 10 ms, in k steps/s -/
abbrev stepRateH0 : Nat := 0x300010
/-- OD 0x5100.01 GALLERY_LEVEL (01): level of the highest gallery this module manages; 2 when it manages none -/
abbrev galleryLevel : Nat := 0x510001
/-- OD 0x5100.02 ROLE (01): 0 standalone, 1 worker, 2 manager -/
abbrev role : Nat := 0x510002
/-- OD 0x5100.03 OWN_PATH (01): this module's gallery path from the top gallery -/
abbrev ownPath : Nat := 0x510003
/-- OD 0x5100.04 DEPTH_CONFIG (01): configured level of the top gallery, 2 to 8 -/
abbrev depthConfig : Nat := 0x510004
/-- OD 0x5100.05 MANAGER_MODE (01): 0 take part in election, 1 always manager, 2 never manager -/
abbrev managerMode : Nat := 0x510005
/-- OD 0x5100.06 WORKER_SUBMIT_IGNORED (01): submission writes ignored while a worker (R18) -/
abbrev workerSubmitIgnored : Nat := 0x510006
/-- OD 0x5100.10 CAP_FLIGHTS (01): unfenced flights in this gallery -/
abbrev capFlights : Nat := 0x510010
/-- OD 0x5100.11 CAP_BONDED_GIB (01): bonded capacity in this gallery, GiB -/
abbrev capBondedGib : Nat := 0x510011
/-- OD 0x5100.12 CAP_MEZZ_GIB (01): usable mezzanine capacity in this gallery, GiB -/
abbrev capMezzGib : Nat := 0x510012
/-- OD 0x5100.13 CAP_ARCHES (01): on a module, bit *n* set when arch A*n* is trained -/
abbrev capArches : Nat := 0x510013
/-- OD 0x5100.14 CAP_LINK_GBPS (01): trained arch payload per direction, summed over the gallery, GB/s -/
abbrev capLinkGbps : Nat := 0x510014
/-- OD 0x1000.01 VENDOR_ID (02): Dreuwald vendor identifier -/
abbrev vendorId : Nat := 0x100001
/-- OD 0x1000.02 ORDERING_CODE (02): ordering code -/
abbrev orderingCode : Nat := 0x100002
/-- OD 0x1000.03 SERIAL (02): serial number from the label -/
abbrev serial : Nat := 0x100003
/-- OD 0x1000.04 HW_ISSUE (02): hardware issue, major in [15:8], minor in [7:0] -/
abbrev hwIssue : Nat := 0x100004
/-- OD 0x1000.05 FW_VERSION (02): running firmware version -/
abbrev fwVersion : Nat := 0x100005
/-- OD 0x1000.06 FW_DIGEST (02): 64-byte SHAKE256 digest of the running image -/
abbrev fwDigest : Nat := 0x100006
/-- OD 0x1000.07 DEVICE_KEY (02): 57-byte Ed448 public key of the module -/
abbrev deviceKey : Nat := 0x100007
/-- OD 0x1000.08 MODULE_STATE (02): module state (R62) -/
abbrev moduleState : Nat := 0x100008
/-- OD 0x1000.09 STATE_SINCE (02): Epoch Counter value at the last state change -/
abbrev stateSince : Nat := 0x100009
/-- OD 0x1000.0A STATE_REQUEST (02): requested transition (R63) -/
abbrev stateRequest : Nat := 0x10000A
/-- OD 0x1100.01 OD_WRITE_SEQ (02): committed dictionary writes since entry into Standby (R36) -/
abbrev odWriteSeq : Nat := 0x110001
/-- OD 0x1100.02 STORE (02): 0x6576_6173 stores the stored values (R40) -/
abbrev store : Nat := 0x110002
/-- OD 0x1100.03 RESTORE (02): 0x6461_6F6C erases the parameter store (R40) -/
abbrev restore : Nat := 0x110003
/-- OD 0x1100.04 EOP_ENABLE (02): EOP served when true -/
abbrev eopEnable : Nat := 0x110004
/-- OD 0x1100.05 EOP_UDP_PORT (02): UDP port for EOP, 1024 to 65535 -/
abbrev eopUdpPort : Nat := 0x110005
/-- OD 0x1100.06 EOP_ON_OPTICAL (02): EOP also accepted on the 25GBASE-SR ports -/
abbrev eopOnOptical : Nat := 0x110006
/-- OD 0x1100.07 EOP_SIGNED_READS (02): reads require a signature -/
abbrev eopSignedReads : Nat := 0x110007
/-- OD 0x1100.08 EOP_SKEW_MS (02): permitted timestamp skew, 100 to 60,000 ms -/
abbrev eopSkewMs : Nat := 0x110008
/-- OD 0x1100.10–17 EOP_PEER_KEY_0 … 7 (02): 57-byte Ed448 public key of each peer; empty disables the slot -/
abbrev eopPeerKey0 : Nat := 0x110010
/-- OD 0x1100.20 EOP_ACCEPTED (02): EOP requests executed -/
abbrev eopAccepted : Nat := 0x110020
/-- OD 0x1100.21 EOP_AUTH_DROPS (02): requests discarded for signature -/
abbrev eopAuthDrops : Nat := 0x110021
/-- OD 0x1100.22 EOP_REPLAY_DROPS (02): requests discarded as replays -/
abbrev eopReplayDrops : Nat := 0x110022
/-- OD 0x1100.23 EOP_FORMAT_DROPS (02): requests discarded as malformed -/
abbrev eopFormatDrops : Nat := 0x110023
/-- OD 0x1100.24 EOP_STALE_DROPS (02): requests discarded for timestamp -/
abbrev eopStaleDrops : Nat := 0x110024
/-- OD 0x1100.25 EOP_QUEUE_DROPS (02): requests discarded with the queue full -/
abbrev eopQueueDrops : Nat := 0x110025
/-- OD 0x1300.01 OPEN_EPISODES (02): error episodes in progress, 0 to 4 -/
abbrev openEpisodes : Nat := 0x130001
/-- OD 0x1300.02 LAST_ERROR (02): code of the most recent error record -/
abbrev lastError : Nat := 0x130002
/-- OD 0x1300.03 LAST_ERROR_TIME (02): Epoch Counter value of that record -/
abbrev lastErrorTime : Nat := 0x130003
/-- OD 0x1300.04 RECORDS_PENDING (02): error records not yet read, 0 to 64 -/
abbrev recordsPending : Nat := 0x130004
/-- OD 0x1300.05 RECORD_OVERFLOW (02): error records lost with the buffer full -/
abbrev recordOverflow : Nat := 0x130005
/-- OD 0x3100.01 ZERO_BLOCKS_WRITTEN (03): zero blocks written by requantisers (R72) -/
abbrev zeroBlocksWritten : Nat := 0x310001
/-- OD 0x3100.02 ZERO_BLOCKS_SKIPPED (03): zero blocks skipped by passes (R72) -/
abbrev zeroBlocksSkipped : Nat := 0x310002
/-- OD 0x3100.03 CLAMP_ORIGIN (03): blocks clamped at the maximum exponent (R88) -/
abbrev clampOrigin : Nat := 0x310003
/-- OD 0x3100.04 CLAMP_INHERITED (03): blocks written with CLAMP from a saturated tile (R91) -/
abbrev clampInherited : Nat := 0x310004
/-- OD 0x3100.05 WIDE_SATURATIONS (03): wide sums set to the S48 bound (R77, R78) -/
abbrev wideSaturations : Nat := 0x310005
/-- OD 0x3100.06 EXP_WINDOW_SPLITS (03): narrow sums beyond the first window of a pass (R76) -/
abbrev expWindowSplits : Nat := 0x310006
/-- OD 0x3100.07 T5_INVALID_SEEN (03): invalid T5 codes met by expanders (R66) -/
abbrev t5InvalidSeen : Nat := 0x310007
/-- OD 0x3100.08 FMT_MISMATCHES (03): accumulates refused for format (R82) -/
abbrev fmtMismatches : Nat := 0x310008
/-- OD 0x3100.09 ROUND_OVERRIDE (03): 0 rounding as each operation names; 1 nearest mode everywhere (R89) -/
abbrev roundOverride : Nat := 0x310009
/-- OD 0x3100.0A MIN_CODES_READ (03): minimum mantissa codes read at operand ports (R69, R74) -/
abbrev minCodesRead : Nat := 0x31000A
/-- OD 0x3000.20 RESIDUE_MISMATCHES (04): residue mismatches since entry into Standby (R121) -/
abbrev residueMismatches : Nat := 0x300020
/-- OD 0x3000.21 RESIDUE_FENCE_LIMIT (04): recovered mismatches of one flight within 60 s that fence it, 2 to 64 (stored) -/
abbrev residueFenceLimit : Nat := 0x300021
/-- OD 0x3000.22 FENCED_P_FLIGHTS (04): bit 12h + i set when P-flight i of hall Hh is fenced -/
abbrev fencedPFlights : Nat := 0x300022
/-- OD 0x3000.23 FENCED_G_FLIGHTS (04): bit 8h + i set when G-flight i of hall Hh is fenced -/
abbrev fencedGFlights : Nat := 0x300023
/-- OD 0x3000.24 PLANE_WAIT_STEPS (04): steps tread 0 waited for a staged plane (R99) -/
abbrev planeWaitSteps : Nat := 0x300024
/-- OD 0x3000.25 TILE_RESCALES (04): tile rescales (R106) -/
abbrev tileRescales : Nat := 0x300025
/-- OD 0x3000.26 TABLE_INPUT_CLAMPS (04): table inputs clamped (R116) -/
abbrev tableInputClamps : Nat := 0x300026
/-- OD 0x3000.27 STAT_SCALE_ROUNDINGS (04): stat values rounded and row scales clamped (R115, R117) -/
abbrev statScaleRoundings : Nat := 0x300027
/-- OD 0x3000.28 FOOT_REFUSALS (04): descriptors and targets refused at run time (R112) -/
abbrev footRefusals : Nat := 0x300028
/-- OD 0x3000.30–33 ITEMS_H0 … H3 (04): items entered at tread 0 over all flights of the hall -/
abbrev itemsH0 : Nat := 0x300030
/-- OD 0x3100.10 GEN_BLOCKS (05): generator blocks served (R138) -/
abbrev genBlocks : Nat := 0x310010
/-- OD 0x3100.11 GEN_CONFLICTS (05): refusals with 0x3030 (R142, R143) -/
abbrev genConflicts : Nat := 0x310011
/-- OD 0x3100.12 GEN_BINDING_REFUSALS (05): refusals with 0x3031 (R142, R143) -/
abbrev genBindingRefusals : Nat := 0x310012
/-- OD 0x3100.13 GEN_WAIT_STEPS (05): steps feet waited for blocks (R140) -/
abbrev genWaitSteps : Nat := 0x310013
/-- OD 0x3100.14 SERIAL_PASSES (05): single-bit passes (R129) -/
abbrev serialPasses : Nat := 0x310014
/-- OD 0x3100.15 COUNT_PASSES (05): count passes (R135) -/
abbrev countPasses : Nat := 0x310015
/-- OD 0x3100.16 OUTLIER_PASSES (05): outlier passes (R131) -/
abbrev outlierPasses : Nat := 0x310016
/-- OD 0x3100.17 TOKENS_SAMPLED (05): tokens sampled (R147) -/
abbrev tokensSampled : Nat := 0x310017
/-- OD 0x3100.18 SAMPLER_REFUSALS (05): tokens refused with 0x3033 (R147) -/
abbrev samplerRefusals : Nat := 0x310018
/-- OD 0x3100.19 MASK_BITS (05): mask bits generated (R148) -/
abbrev maskBits : Nat := 0x310019
/-- OD 0x3100.1A EXPT_DEFAULT (05): default sampler weight table, 4,096 U16 entries (R145) -/
abbrev exptDefault : Nat := 0x31001A
/-- OD 0x3100.20–23 GEN_BOUND_H0 … H3 (05): bit *g* set when generator *g* of the hall is bound by a loaded program (R142) -/
abbrev genBoundH0 : Nat := 0x310020
/-- OD 0x3200.01 LOGICAL_PLANES (06): logical planes of sparse spans (R156) -/
abbrev logicalPlanes : Nat := 0x320001
/-- OD 0x3200.02 PHYSICAL_PLANES (06): physical planes run for sparse spans (R156) -/
abbrev physicalPlanes : Nat := 0x320002
/-- OD 0x3200.03 ENTRIES (06): entries placed (R155) -/
abbrev entries : Nat := 0x320003
/-- OD 0x3200.04 LANE_QUEUE_STALLS (06): steps the expander stalled on a full lane queue (R153) -/
abbrev laneQueueStalls : Nat := 0x320004
/-- OD 0x3200.05 CONFLICT_STALLS (06): steps flights stalled on conflict queues (R160) -/
abbrev conflictStalls : Nat := 0x320005
/-- OD 0x3200.06 CONFLICT_QUEUED (06): block writes that passed through a conflict queue (R160) -/
abbrev conflictQueued : Nat := 0x320006
/-- OD 0x3200.07 INPUT_BLOCKS (06): input blocks of sparse spans (R157) -/
abbrev inputBlocks : Nat := 0x320007
/-- OD 0x3200.08 INPUT_BLOCKS_ACTIVE (06): active input blocks (R152) -/
abbrev inputBlocksActive : Nat := 0x320008
/-- OD 0x3200.09 OUTPUT_BLOCKS (06): output blocks of sparse spans (R157) -/
abbrev outputBlocks : Nat := 0x320009
/-- OD 0x3200.0A OUTPUT_BLOCKS_ACTIVE (06): active output blocks (R152) -/
abbrev outputBlocksActive : Nat := 0x32000A
/-- OD 0x3200.0B BOUND_PROVEN (06): blocks coded PROVEN (R166) -/
abbrev boundProven : Nat := 0x32000B
/-- OD 0x3200.0C AUDITS (06): blocks audited (R169) -/
abbrev audits : Nat := 0x32000C
/-- OD 0x3200.0D AUDIT_MISSES (06): audits that found a miss (R169) -/
abbrev auditMisses : Nat := 0x32000D
/-- OD 0x3200.0E FALLBACKS (06): layers set to bounded mode by R170 -/
abbrev fallbacks : Nat := 0x32000E
/-- OD 0x3200.0F VECTOR_POISON (06): poisoned prediction vectors (R165) -/
abbrev vectorPoison : Nat := 0x32000F
/-- OD 0x3200.10 PRED_MODE_CAP (06): highest active mode: 0 off, 1 bounded, 2 predicted (stored) -/
abbrev predModeCap : Nat := 0x320010
/-- OD 0x3200.11 MISS_LIMIT (06): window misses allowed, 0 to 255 (stored) -/
abbrev missLimit : Nat := 0x320011
/-- OD 0x3200.12 AUDIT_SHIFT (06): A of R168, 0 to 10 (stored) -/
abbrev auditShift : Nat := 0x320012
/-- OD 0x3200.13 PREDICT_WAIT_STEPS (06): steps sparse passes waited for vectors (R167) -/
abbrev predictWaitSteps : Nat := 0x320013
/-- OD 0x3200.20 LAYER_SELECT (06): per role: model handle in [31:16], predicted layer in [15:0] (R172) -/
abbrev layerSelect : Nat := 0x320020
/-- OD 0x3200.21 LAYER_MODE (06): configured mode of the selected layer, 0 to 2; a write clears its window (R170) -/
abbrev layerMode : Nat := 0x320021
/-- OD 0x3200.22 LAYER_ACTIVE_MODE (06): mode in effect after cap and fallback (R163, R170) -/
abbrev layerActiveMode : Nat := 0x320022
/-- OD 0x3200.23 LAYER_AUDITS (06): audits of the selected layer since load -/
abbrev layerAudits : Nat := 0x320023
/-- OD 0x3200.24 LAYER_MISSES (06): misses of the selected layer since load -/
abbrev layerMisses : Nat := 0x320024
/-- OD 0x3200.25 LAYER_WINDOW (06): audits in window in [31:16], misses in window in [15:0] -/
abbrev layerWindow : Nat := 0x320025
/-- OD 0x3200.26 LAYER_MISS_RATE (06): window misses × 65,536 / window audits; 0 with no audits -/
abbrev layerMissRate : Nat := 0x320026
/-- OD 0x3200.27 LAYER_SKIPPED (06): blocks of the selected layer coded SKIP or PROVEN -/
abbrev layerSkipped : Nat := 0x320027
/-- OD 0x3200.28 LAYER_PLACED_DENSITY (06): physical × 65,536 / logical planes of the selected layer since load -/
abbrev layerPlacedDensity : Nat := 0x320028
/-- OD 0x3300.01 BLOCKS_CODED (07): blocks stored coded (R184) -/
abbrev blocksCoded : Nat := 0x330001
/-- OD 0x3300.02 BLOCKS_RAW_RATE (07): blocks stored raw by the rate rule (R184) -/
abbrev blocksRawRate : Nat := 0x330002
/-- OD 0x3300.03 BLOCKS_RAW_SIZE (07): blocks stored raw by size (R184) -/
abbrev blocksRawSize : Nat := 0x330003
/-- OD 0x3300.04 BLOCKS_ZERO (07): zero blocks (R184) -/
abbrev blocksZero : Nat := 0x330004
/-- OD 0x3300.05 PACK_BYTES_IN (07): T5 bytes read by table builders -/
abbrev packBytesIn : Nat := 0x330005
/-- OD 0x3300.06 PACK_BYTES_OUT (07): block bytes written by table builders -/
abbrev packBytesOut : Nat := 0x330006
/-- OD 0x3300.07 CHECK_FAILS (07): first check failures (R192) -/
abbrev checkFails : Nat := 0x330007
/-- OD 0x3300.08 CHECK_RECOVERED (07): blocks delivered after a second fetch (R192) -/
abbrev checkRecovered : Nat := 0x330008
/-- OD 0x3300.09 BLOCKS_POISONED (07): blocks poisoned with 0x3040 (R193) -/
abbrev blocksPoisoned : Nat := 0x330009
/-- OD 0x3300.0A POISONED_FETCHES (07): fetches of blocks already marked poisoned (R194) -/
abbrev poisonedFetches : Nat := 0x33000A
/-- OD 0x3300.10 DECODE_WAIT_STEPS (07): front waits while decoding at capacity (R189) -/
abbrev decodeWaitSteps : Nat := 0x330010
/-- OD 0x3300.11 FETCH_WAIT_STEPS (07): front waits for block data (R189) -/
abbrev fetchWaitSteps : Nat := 0x330011
/-- OD 0x3300.12 SEGMENTS_SKIPPED (07): segments skipped in sparse passes (R190) -/
abbrev segmentsSkipped : Nat := 0x330012
/-- OD 0x3300.20 LINK_COMPRESS (07): Z-row mode: 0 never, 1 always, 2 under backlog (stored) -/
abbrev linkCompress : Nat := 0x330020
/-- OD 0x3300.21 LINK_BACKLOG (07): transmit backlog in bytes that enables mode 2, 4,096 to 16,777,216 (stored) -/
abbrev linkBacklog : Nat := 0x330021
/-- OD 0x3300.22 LINK_FRAMES_Z (07): frames sent with Z-rows (R197) -/
abbrev linkFramesZ : Nat := 0x330022
/-- OD 0x3300.23 LINK_BYTES_SAVED (07): payload bytes saved by Z-rows -/
abbrev linkBytesSaved : Nat := 0x330023
/-- OD 0x3300.24 LINK_Z_ERRORS (07): malformed Z-row payloads received (R198) -/
abbrev linkZErrors : Nat := 0x330024
/-- OD 0x3400.01 FIXLAT_ALLOW (08): fixed-latency programs may load (R208) -/
abbrev fixlatAllow : Nat := 0x340001
/-- OD 0x3400.02–05 FIXLAT_H0 … H3 (08): bits 0–11: P-flight landing *i* in fixed-latency mode; bits 12–19: G-flight landing *i* − 12 -/
abbrev fixlatH0 : Nat := 0x340002
/-- OD 0x3400.10 NARROW_WAIT_STEPS (08): steps narrow requests waited (R205) -/
abbrev narrowWaitSteps : Nat := 0x340010
/-- OD 0x3400.11 WIDE_WAIT_STEPS (08): steps wide requests waited (R205) -/
abbrev wideWaitSteps : Nat := 0x340011
/-- OD 0x3400.12 AGED_GRANTS (08): narrow requests granted as aged (R204) -/
abbrev agedGrants : Nat := 0x340012
/-- OD 0x3400.13 FIXLAT_HOLD_STEPS (08): steps sequencers were held in fixed-latency mode (R210) -/
abbrev fixlatHoldSteps : Nat := 0x340013
/-- OD 0x3400.14 QUEUE_FULL_STALLS (08): steps requesters stalled on full bank queues (R205) -/
abbrev queueFullStalls : Nat := 0x340014
/-- OD 0x3400.20 CORRECTED_WORDS (08): single-bit errors corrected (R203) -/
abbrev correctedWords : Nat := 0x340020
/-- OD 0x3400.21 UNCORRECTABLE_WORDS (08): words poisoned by double-bit errors (R203) -/
abbrev uncorrectableWords : Nat := 0x340021
/-- OD 0x3400.22 TENANT_OVERWRITES (08): landing overwrites between tenants (R218) -/
abbrev tenantOverwrites : Nat := 0x340022
/-- OD 0x3400.23 HANDLE_REFUSALS (08): handle entries or uses refused with 0x3060 (R213, R214) -/
abbrev handleRefusals : Nat := 0x340023
/-- OD 0x3400.24 RANGE_REFUSALS (08): accesses refused with 0x3061 (R214) -/
abbrev rangeRefusals : Nat := 0x340024
/-- OD 0x3000.40 PROGRAMS_RESIDENT (09): programs resident over all flights -/
abbrev programsResident : Nat := 0x300040
/-- OD 0x3000.41 LOADS (09): programs loaded (R249) -/
abbrev loads : Nat := 0x300041
/-- OD 0x3000.42 LOAD_REFUSALS (09): programs refused (R249) -/
abbrev loadRefusals : Nat := 0x300042
/-- OD 0x3000.43 LAST_REFUSAL (09): code of the last refusal (R249) -/
abbrev lastRefusal : Nat := 0x300043
/-- OD 0x3000.44 LAST_REFUSAL_WORD (09): failing word index, 0xFFFF_FFFF for header or tables (R249) -/
abbrev lastRefusalWord : Nat := 0x300044
/-- OD 0x3000.45 PROGRAM_STOPS (09): program stops (R246) -/
abbrev programStops : Nat := 0x300045
/-- OD 0x3000.46 LAST_STOP (09): code of the last stop (R246) -/
abbrev lastStop : Nat := 0x300046
/-- OD 0x3000.47 SUSPENSIONS (09): programs suspended at pre-emption points (R242) -/
abbrev suspensions : Nat := 0x300047
/-- OD 0x3000.48 REISSUES (09): programs resumed on another flight (R248) -/
abbrev reissues : Nat := 0x300048
/-- OD 0x3000.49 BARRIER_TIMEOUT_MS (09): barrier timeout, 1 to 10,000 ms (stored) -/
abbrev barrierTimeoutMs : Nat := 0x300049
/-- OD 0x3000.4A BARRIER_WAIT_STEPS (09): steps flights waited at barriers (R238) -/
abbrev barrierWaitSteps : Nat := 0x30004A
/-- OD 0x3000.4B CUSTOM_ALLOW (09): custom operators may load (R249) -/
abbrev customAllow : Nat := 0x30004B
/-- OD 0x3000.4C OPS_ISSUED (09): operation words issued -/
abbrev opsIssued : Nat := 0x30004C
/-- OD 0x3000.4D MAX_PP_SPAN (09): largest pre-emption span of resident programs, steps (R244) -/
abbrev maxPpSpan : Nat := 0x30004D
/-- OD 0xA000.01 PACKAGES_LOADED (09): model packages loaded -/
abbrev packagesLoaded : Nat := 0xA00001
/-- OD 0xA000.02 TEMPLATES (09): program templates in loaded packages -/
abbrev templates : Nat := 0xA00002
/-- OD 0xA000.03 CUSTOM_TEMPLATES (09): of those, custom operators (R250) -/
abbrev customTemplates : Nat := 0xA00003
/-- OD 0x2200.01 STACKS_PRESENT (10): bit n set when stack n is in service (R270) -/
abbrev stacksPresent : Nat := 0x220001
/-- OD 0x2200.02 MEZZ_PRESENT (10): bit h set when hall Hh's mezzanine is in service (R270) -/
abbrev mezzPresent : Nat := 0x220002
/-- OD 0x2200.03 TRAINING_STATE (10): 0 not trained, 1 training, 2 trained and filled (R254, R267) -/
abbrev trainingState : Nat := 0x220003
/-- OD 0x2200.04 TRAINING_TIME_MS (10): duration of the last training -/
abbrev trainingTimeMs : Nat := 0x220004
/-- OD 0x2200.10 CE_BONDED (10): corrected bonded reads (R260) -/
abbrev ceBonded : Nat := 0x220010
/-- OD 0x2200.11 CE_MEZZ (10): corrected mezzanine reads (R260) -/
abbrev ceMezz : Nat := 0x220011
/-- OD 0x2200.12 UE_BONDED (10): uncorrectable bonded words (R260) -/
abbrev ueBonded : Nat := 0x220012
/-- OD 0x2200.13 UE_MEZZ (10): uncorrectable mezzanine words (R260) -/
abbrev ueMezz : Nat := 0x220013
/-- OD 0x2200.14 POISON_READS (10): reads of words with POISON set (R260) -/
abbrev poisonReads : Nat := 0x220014
/-- OD 0x2200.15 PARTIAL_WRITE_POISON (10): partial writes that poisoned a word (R261) -/
abbrev partialWritePoison : Nat := 0x220015
/-- OD 0x2200.16 WITHDRAWN_WRITES (10): writes discarded in withdrawn ranges (R270) -/
abbrev withdrawnWrites : Nat := 0x220016
/-- OD 0x2200.20 SCRUB_PERIOD_BONDED (10): bonded scrub period, 1 to 168 hours (stored) -/
abbrev scrubPeriodBonded : Nat := 0x220020
/-- OD 0x2200.21 SCRUB_PERIOD_MEZZ (10): mezzanine scrub period, 1 to 168 hours (stored) -/
abbrev scrubPeriodMezz : Nat := 0x220021
/-- OD 0x2200.22 SCRUB_PASSES (10): completed scrub passes over all channels (R263) -/
abbrev scrubPasses : Nat := 0x220022
/-- OD 0x2200.24 ROW_CE_LIMIT (10): corrected reads of a row in 24 h that retire it, 2 to 1,024 (stored) -/
abbrev rowCeLimit : Nat := 0x220024
/-- OD 0x2200.25 ROWS_RETIRED (10): bonded rows retired (R265) -/
abbrev rowsRetired : Nat := 0x220025
/-- OD 0x2200.26 SPARE_ROWS_LEFT (10): free bonded spare rows: 8 per bank, 24 stacks × 32 channels × 16 banks × 8 = 98,304 (R265) -/
abbrev spareRowsLeft : Nat := 0x220026
/-- OD 0x2200.27 MEZZ_ROWS_PENDING (10): mezzanine rows listed for repair at the next training (R266) -/
abbrev mezzRowsPending : Nat := 0x220027
/-- OD 0x2200.30 LANE_CE_LIMIT (10): corrected bits of a lane in 1 s that spare it, 4 to 4,096 (stored) -/
abbrev laneCeLimit : Nat := 0x220030
/-- OD 0x2200.31 LANES_SPARED (10): lanes on spares, from training and Run (R267, R268) -/
abbrev lanesSpared : Nat := 0x220031
/-- OD 0x2200.32 SPARE_GROUPS_EXHAUSTED (10): spare groups with no free spare (R268) -/
abbrev spareGroupsExhausted : Nat := 0x220032
/-- OD 0x2200.33 LANE_STACK_SELECT (10): per role: stack 0 to 23 for LANE_REPORT (R271) -/
abbrev laneStackSelect : Nat := 0x220033
/-- OD 0x2200.34 LANE_REPORT (10): lane records of the selected stack (R271) -/
abbrev laneReport : Nat := 0x220034
/-- OD 0x2200.40–57 STACK_TEMP_0 … 23 (10): stack temperature, °C (R272) -/
abbrev stackTemp0 : Nat := 0x220040
/-- OD 0x2200.58–5B MEZZ_TEMP_H0 … H3 (10): highest package temperature of the hall, °C (R273) -/
abbrev mezzTempH0 : Nat := 0x220058
/-- OD 0x2200.60 THERMAL_ROWS (10): 2 bits per stack n at [2n+1:2n]: derating row 0 to 3 of R272 -/
abbrev thermalRows : Nat := 0x220060
/-- OD 0x2200.61 DERATE_EVENTS (10): moves into a row admitting below 100 %, from a cooler or a warmer row (R272, R273, R274) -/
abbrev derateEvents : Nat := 0x220061
/-- OD 0x2300.01 TENANTS_ENABLED (11): bit n set when TENANT_ROOT_n has ENABLED set (R277) -/
abbrev tenantsEnabled : Nat := 0x230001
/-- OD 0x2300.02 XLATE_INVALIDATE (11): removes cached translations (R282) -/
abbrev xlateInvalidate : Nat := 0x230002
/-- OD 0x2300.03 XLATE_HITS (11): translations found in the caches (R281) -/
abbrev xlateHits : Nat := 0x230003
/-- OD 0x2300.04 XLATE_WALKS (11): table walks (R280) -/
abbrev xlateWalks : Nat := 0x230004
/-- OD 0x2300.05 XLATE_FAULTS (11): walks ending in 0x2030 or 0x2031 (R280) -/
abbrev xlateFaults : Nat := 0x230005
/-- OD 0x2300.10 MOVER_BYTES (11): bytes confirmed by Movers (R288) -/
abbrev moverBytes : Nat := 0x230010
/-- OD 0x2300.11 MOVER_DESCRIPTORS (11): descriptors ended DONE -/
abbrev moverDescriptors : Nat := 0x230011
/-- OD 0x2300.12 MOVER_YIELDS (11): yields to higher classes (R285) -/
abbrev moverYields : Nat := 0x230012
/-- OD 0x2300.13 MOVER_ABANDONED (11): descriptors ended ABANDONED (R291) -/
abbrev moverAbandoned : Nat := 0x230013
/-- OD 0x2300.14 MOVER_POISON_BYTES (11): poisoned bytes copied (R290) -/
abbrev moverPoisonBytes : Nat := 0x230014
/-- OD 0x2300.20 PRL_BASE (11): device physical address of the page request log, 4 KiB aligned, within the host window (R293, R385) -/
abbrev prlBase : Nat := 0x230020
/-- OD 0x2300.21 PRL_PRODUCER (11): records written (R293) -/
abbrev prlProducer : Nat := 0x230021
/-- OD 0x2300.22 PRL_CONSUMER (11): records consumed by the host (R293) -/
abbrev prlConsumer : Nat := 0x230022
/-- OD 0x2300.23 PAGE_RESPONSE (11): answer to a page request (R295) -/
abbrev pageResponse : Nat := 0x230023
/-- OD 0x2300.24 PAGE_TIMEOUT_MS (11): page request timeout, 10 to 60,000 ms (stored) -/
abbrev pageTimeoutMs : Nat := 0x230024
/-- OD 0x2300.25 PAGE_REQUESTS (11): page requests opened (R292) -/
abbrev pageRequests : Nat := 0x230025
/-- OD 0x2300.26 PAGE_REFUSALS (11): requests refused (R295) -/
abbrev pageRefusals : Nat := 0x230026
/-- OD 0x2300.27 PAGE_TIMEOUTS (11): requests expired (R296) -/
abbrev pageTimeouts : Nat := 0x230027
/-- OD 0x2300.28 PAGES_WAITING (11): page requests outstanding -/
abbrev pagesWaiting : Nat := 0x230028
/-- OD 0x2300.29 PRL_FULL_WAITS (11): requests that waited for a free record (R293) -/
abbrev prlFullWaits : Nat := 0x230029
/-- OD 0x2300.2A PAGE_VECTOR (11): MSI-X vector for page requests, 0 to 63 -/
abbrev pageVector : Nat := 0x23002A
/-- OD 0x2300.2B PAGE_REFAULTS (11): retries that faulted again (R295) -/
abbrev pageRefaults : Nat := 0x23002B
/-- OD 0x2300.40–7F TENANT_ROOT_0 … 63 (11): root table and ENABLED of each tenant (R277) -/
abbrev tenantRoot0 : Nat := 0x230040
/-- OD 0x4000.01 TABLE_BASE (12): device physical address of the stream table (R300) -/
abbrev tableBase : Nat := 0x400001
/-- OD 0x4000.02 ENTRIES_LIVE (12): entries in states other than FREE, COMPLETED, CANCELLED and FAULTED -/
abbrev entriesLive : Nat := 0x400002
/-- OD 0x4000.03 FIELD_BASE (12): first entry reserved for field streams, 0 to 65,536; written under the conditions of R300 (R301) -/
abbrev fieldBase : Nat := 0x400003
/-- OD 0x4000.04 SUBMISSIONS (12): submissions accepted (R315) -/
abbrev submissions : Nat := 0x400004
/-- OD 0x4000.05 SUBMIT_REFUSALS (12): submissions refused (R315) -/
abbrev submitRefusals : Nat := 0x400005
/-- OD 0x4000.06 STALE_WRITES (12): control writes with a stale GEN (R316) -/
abbrev staleWrites : Nat := 0x400006
/-- OD 0x4000.07 OWNED_FIELD_WRITES (12): host writes that carried module-owned bytes (R313) -/
abbrev ownedFieldWrites : Nat := 0x400007
/-- OD 0x4000.08 FIELD_SUBMITS_IGNORED (12): submission attempts into the field range (R301) -/
abbrev fieldSubmitsIgnored : Nat := 0x400008
/-- OD 0x4000.09 CANCELS (12): cancels taken (R321) -/
abbrev cancels : Nat := 0x400009
/-- OD 0x4000.0A CANCEL_SEEN_ENDS (12): streams ended COMPLETED with CANCEL_SEEN (R320) -/
abbrev cancelSeenEnds : Nat := 0x40000A
/-- OD 0x4000.0B COMPLETIONS (12): streams ended COMPLETED or paused (R317) -/
abbrev completions : Nat := 0x40000B
/-- OD 0x4000.0C FAULTS_FINAL (12): streams ended FAULTED (R319) -/
abbrev faultsFinal : Nat := 0x40000C
/-- OD 0x4000.0D FAULTS_RECOVERED (12): faults recorded with FINAL clear (R319) -/
abbrev faultsRecovered : Nat := 0x40000D
/-- OD 0x4000.0E CACHE_MISSES (12): stream table cache misses (R302) -/
abbrev cacheMisses : Nat := 0x40000E
/-- OD 0x4000.0F CACHE_EVICTIONS (12): entries evicted from the caches (R302) -/
abbrev cacheEvictions : Nat := 0x40000F
/-- OD 0x4000.10 CLOG_BASE (12): device physical address of the completion log, 4 KiB aligned, in bonded memory (R323) -/
abbrev clogBase : Nat := 0x400010
/-- OD 0x4000.11 CLOG_PRODUCER (12): records written (R323) -/
abbrev clogProducer : Nat := 0x400011
/-- OD 0x4000.12 CLOG_CONSUMER (12): records consumed by the host (R323) -/
abbrev clogConsumer : Nat := 0x400012
/-- OD 0x4000.13 CLOG_FULL_WAITS (12): records that waited for space (R325) -/
abbrev clogFullWaits : Nat := 0x400013
/-- OD 0x4000.14 COALESCE_US (12): least interval between signals of one vector, 0 to 1,000 µs (stored) (R325) -/
abbrev coalesceUs : Nat := 0x400014
/-- OD 0x4000.15 FIELD_CANCELS_IGNORED (12): cancels written to field streams (R322) -/
abbrev fieldCancelsIgnored : Nat := 0x400015
/-- OD 0x4000.16 STREAM_SELECT (12): per role: entry index for STREAM_ENTRY -/
abbrev streamSelect : Nat := 0x400016
/-- OD 0x4000.17 STREAM_ENTRY (12): current contents of the selected entry, cached values included (R312) -/
abbrev streamEntry : Nat := 0x400017
/-- OD 0x4000.40–7F TENANT_VECTOR_0 … 63 (12): MSI-X vector for each tenant's completion records, 0 to 63 (stored) (R323) -/
abbrev tenantVector0 : Nat := 0x400040
/-- OD 0x4000.20 CLASS0_SHARE (13): per mille of a flight's floor-rate steps that class 0 may take, 100 to 1,000 (stored) (R337) -/
abbrev class0Share : Nat := 0x400020
/-- OD 0x4000.21 CLASS0_MARGIN (13): stall margin added to K, per mille, 0 to 1,000 (stored) (R336) -/
abbrev class0Margin : Nat := 0x400021
/-- OD 0x4000.22 CLASS0_ADMITTED (13): class 0 streams admitted and not ended or unbound (R338) -/
abbrev class0Admitted : Nat := 0x400022
/-- OD 0x4000.23 CLASS0_DEMOTIONS (13): requests run as class 1 (R338) -/
abbrev class0Demotions : Nat := 0x400023
/-- OD 0x4000.24 CLASS0_LOAD (13): largest admitted share of any flight, per mille (R337) -/
abbrev class0Load : Nat := 0x400024
/-- OD 0x4000.25 LATE_RESULTS (13): results whose STEP released after W1 (R339) -/
abbrev lateResults : Nat := 0x400025
/-- OD 0x4000.26 LATE_RESULTS_DROPPED (13): late results not delivered (R339) -/
abbrev lateResultsDropped : Nat := 0x400026
/-- OD 0x4000.27 BATCH_TARGET (13): token slots per generation step, 1 to 32 (stored) (R335) -/
abbrev batchTarget : Nat := 0x400027
/-- OD 0x4000.28 BATCH_WAIT_US (13): longest wait to fill a batch, 0 to 10,000 µs (stored) (R335) -/
abbrev batchWaitUs : Nat := 0x400028
/-- OD 0x4000.29 BATCH_SLOTS_FILLED (13): token slots filled in generation steps (R335) -/
abbrev batchSlotsFilled : Nat := 0x400029
/-- OD 0x4000.2A GEN_STEPS (13): generation steps committed (R335) -/
abbrev genSteps : Nat := 0x40002A
/-- OD 0x4000.2B PROMPT_SHARE (13): per mille of P-flight steps guaranteed to queued prompts, 0 to 500 (stored) (R332) -/
abbrev promptShare : Nat := 0x40002B
/-- OD 0x4000.2C PROMPT_WAIT_US (13): µs spent by streams in SUBMITTED (R332) -/
abbrev promptWaitUs : Nat := 0x40002C
/-- OD 0x4000.30 CACHE_BLOCKS (13): cache blocks in the pools of all halls (R341) -/
abbrev cacheBlocks : Nat := 0x400030
/-- OD 0x4000.31 CACHE_BLOCKS_FREE (13): free cache blocks (R341) -/
abbrev cacheBlocksFree : Nat := 0x400031
/-- OD 0x4000.33 PARK_LOW_WATER (13): free pool level that parks TIER 0b01 caches, per mille, 0 to 500 (stored) (R345) -/
abbrev parkLowWater : Nat := 0x400033
/-- OD 0x4000.34 PARKS (13): caches parked (R346) -/
abbrev parks : Nat := 0x400034
/-- OD 0x4000.35 RESTORES (13): caches restored (R347) -/
abbrev restores : Nat := 0x400035
/-- OD 0x4000.36 PARKED_BYTES (13): bytes copied to the mezzanine by parking (R346) -/
abbrev parkedBytes : Nat := 0x400036
/-- OD 0x4000.37 TTL_EXPIRIES (13): kept caches released at TTL (R348) -/
abbrev ttlExpiries : Nat := 0x400037
/-- OD 0x4000.38 CACHE_REBUILDS (13): cache blocks rebuilt (R344) -/
abbrev cacheRebuilds : Nat := 0x400038
/-- OD 0x4000.39 CACHES_PARKED (13): caches now held in the mezzanine (R346) -/
abbrev cachesParked : Nat := 0x400039
/-- OD 0x4000.3A CACHE_TOO_LARGE_ENDS (13): entries ended with 0x4032 (R342) -/
abbrev cacheTooLargeEnds : Nat := 0x40003A
/-- OD 0x4100.01 SPEC_ALLOW (14): speculation runs; false sets d = 0 for every stream (stored) (R350) -/
abbrev specAllow : Nat := 0x410001
/-- OD 0x4100.02 SPEC_STEPS (14): steps committed with d ≥ 1 (R355) -/
abbrev specSteps : Nat := 0x410002
/-- OD 0x4100.03 CANDIDATES_CHECKED (14): candidates in committed steps (R356) -/
abbrev candidatesChecked : Nat := 0x410003
/-- OD 0x4100.04 CANDIDATES_ACCEPTED (14): candidates accepted (R356) -/
abbrev candidatesAccepted : Nat := 0x410004
/-- OD 0x4100.05 DRAFT_LEVELS (14): draft levels run (R358) -/
abbrev draftLevels : Nat := 0x410005
/-- OD 0x4100.06 CANDIDATES_DROPPED (14): poisoned candidates dropped (R352) -/
abbrev candidatesDropped : Nat := 0x410006
/-- OD 0x4100.07 DRAFT_LOSSES (14): streams continued without their draft model (R360) -/
abbrev draftLosses : Nat := 0x410007
/-- OD 0x4100.08 SCRATCH_COPIES (14): rank-1-and-above rows copied into the cache (R356) -/
abbrev scratchCopies : Nat := 0x410008
/-- OD 0x4200.01 ROUTED_ROWS (15): token rows routed (R367) -/
abbrev routedRows : Nat := 0x420001
/-- OD 0x4200.02 EXPERTS_SELECTED (15): (token, expert) pairs selected (R367) -/
abbrev expertsSelected : Nat := 0x420002
/-- OD 0x4200.03 ROWS_SENT (15): token rows sent by outbound dispatches, own module included (R373) -/
abbrev rowsSent : Nat := 0x420003
/-- OD 0x4200.04 MARKERS_SENT (15): zero-length marker frames sent, both directions (R372, R378) -/
abbrev markersSent : Nat := 0x420004
/-- OD 0x4200.05 DEDUP_ROWS_SAVED (15): selected pairs minus rows sent (R373) -/
abbrev dedupRowsSaved : Nat := 0x420005
/-- OD 0x4200.06 SCORE_CLAMPS (15): gate scores clamped to 32 bits (R362) -/
abbrev scoreClamps : Nat := 0x420006
/-- OD 0x4200.07 POISONED_ROUTES (15): gate rows routed under R366 -/
abbrev poisonedRoutes : Nat := 0x420007
/-- OD 0x4200.08 EXPERTS_IDLE (15): expert programs not started for lack of rows (R376) -/
abbrev expertsIdle : Nat := 0x420008
/-- OD 0x4200.09 ROWS_RETURNED (15): expert output rows received (R379) -/
abbrev rowsReturned : Nat := 0x420009
/-- OD 0x4200.0A EXCHANGE_ERRORS (15): exchanges ended with 0x4202, 0x4203 or 0x4204 -/
abbrev exchangeErrors : Nat := 0x42000A
/-- OD 0x4200.0B SECTION_WAIT_STEPS (15): steps operations waited for complete sections (R375) -/
abbrev sectionWaitSteps : Nat := 0x42000B
/-- OD 0x4200.10 LOAD_SELECT (15): per role: model handle in [31:16], expert layer in [15:0] -/
abbrev loadSelect : Nat := 0x420010
/-- OD 0x4200.11 EXPERT_LOAD (15): for the selected layer, U32 rows received by each of 256 expert indices on this module since load; 0 for experts held elsewhere -/
abbrev expertLoad : Nat := 0x420011
/-- OD 0x4300.01 HOST_WINDOW_BASE (16): start of the host window (R385) -/
abbrev hostWindowBase : Nat := 0x430001
/-- OD 0x4300.02 HOST_WINDOW_SIZE (16): size of the host window, bytes (R385) -/
abbrev hostWindowSize : Nat := 0x430002
/-- OD 0x4300.03 PLAN_EPOCH (16): placements taken effect (R393, R395) -/
abbrev planEpoch : Nat := 0x430003
/-- OD 0x4300.04 REPLACEMENTS (16): re-placements (R395) -/
abbrev replacements : Nat := 0x430004
/-- OD 0x4300.05 JOB_RESTARTS (16): jobs loaded again (R397) -/
abbrev jobRestarts : Nat := 0x430005
/-- OD 0x4300.06 RESTART_LIMIT (16): restarts of one job within 60 s, 0 to 16 (stored) (R397) -/
abbrev restartLimit : Nat := 0x430006
/-- OD 0x4300.08 REBALANCE_PERIOD_S (16): expert rebalance period, 10 to 3,600 s (stored) (R396) -/
abbrev rebalancePeriodS : Nat := 0x430008
/-- OD 0x4300.09 REBALANCE_RATIO (16): busiest-member load that triggers an exchange, per mille of mean, 1,000 to 8,000 (stored) (R396) -/
abbrev rebalanceRatio : Nat := 0x430009
/-- OD 0x4300.0F REPORT_SELECT (16): per role: model handle for the report (R393) -/
abbrev reportSelect : Nat := 0x43000F
/-- OD 0x4300.10 PLACEMENT_REPORT (16): placement of the selected model (R393) -/
abbrev placementReport : Nat := 0x430010
/-- OD 0xA000.10 LOAD_REQUEST (16): 64-byte load descriptor (R387) -/
abbrev loadRequest : Nat := 0xA00010
/-- OD 0xA000.11 UNLOAD (16): withdraws a model (R391) -/
abbrev unload : Nat := 0xA00011
/-- OD 0xA000.12 MODEL_SELECT (16): per role: model handle for MODEL_STATE and MODEL_CODE -/
abbrev modelSelect : Nat := 0xA00012
/-- OD 0xA000.13 MODEL_STATE (16): 0 absent, 1 placing, 2 packing, 3 loaded, 4 awaiting part, 5 refused (R388, R389) -/
abbrev modelState : Nat := 0xA00013
/-- OD 0xA000.14 MODEL_CODE (16): code of the selected model's refusal (R388) -/
abbrev modelCode : Nat := 0xA00014
/-- OD 0xA000.15 MODELS_REFUSED (16): loads refused (R388) -/
abbrev modelsRefused : Nat := 0xA00015
/-- OD 0xA000.16 PART_TIMEOUT_S (16): time a load in parts waits for its next part, 1 to 3,600 s (stored) (R389) -/
abbrev partTimeoutS : Nat := 0xA00016
/-- OD 0x5000.01 ARCH_STATES (17): 4 bits per arch n at [4n+3:4n]: 0 disabled, 1 training, 2 quarantined, 3 trained, 4 narrowed, 5 down -/
abbrev archStates : Nat := 0x500001
/-- OD 0x5000.02 ARCH_ENABLE (17): bit n enables arch A*n* (R399) -/
abbrev archEnable : Nat := 0x500002
/-- OD 0x5000.03 UNROUTABLE_DROPS (17): frames without a route (R420) -/
abbrev unroutableDrops : Nat := 0x500003
/-- OD 0x5000.04 HOP_LIMIT_DROPS (17): frames discarded at 16 hops (R420) -/
abbrev hopLimitDrops : Nat := 0x500004
/-- OD 0x5000.05 FOREIGN_OD_DROPS (17): OD requests from modules other than the manager (R54) -/
abbrev foreignOdDrops : Nat := 0x500005
/-- OD 0x5000.06 BAD_FRAMES (17): frames of unknown type or wrong channel (R409) -/
abbrev badFrames : Nat := 0x500006
/-- OD 0x5000.07 FORWARDED_FRAMES (17): frames forwarded (R420) -/
abbrev forwardedFrames : Nat := 0x500007
/-- OD 0x5000.10 ARCH_SELECT (17): per role: arch 0 to 11 for entries 0x11 to 0x1D -/
abbrev archSelect : Nat := 0x500010
/-- OD 0x5000.11 SEL_LANES (17): active lanes: 0, 2 or 4 (R400) -/
abbrev selLanes : Nat := 0x500011
/-- OD 0x5000.12 SEL_SPARE_IN_USE (17): spare lane carries data (R400, R401) -/
abbrev selSpareInUse : Nat := 0x500012
/-- OD 0x5000.13 SEL_PARTNER_PATH (17): partner's path (R414) -/
abbrev selPartnerPath : Nat := 0x500013
/-- OD 0x5000.14 SEL_PARTNER_ARCH (17): partner's arch -/
abbrev selPartnerArch : Nat := 0x500014
/-- OD 0x5000.15 SEL_ROUND_TRIP_NS (17): round trip measured in training (R399) -/
abbrev selRoundTripNs : Nat := 0x500015
/-- OD 0x5000.16 SEL_FEC_CORRECTED (17): symbols corrected (R402) -/
abbrev selFecCorrected : Nat := 0x500016
/-- OD 0x5000.17 SEL_FEC_UNCORRECTED (17): codewords not corrected (R402) -/
abbrev selFecUncorrected : Nat := 0x500017
/-- OD 0x5000.18 SEL_CRC_FAILS (17): flits failing CRC (R405) -/
abbrev selCrcFails : Nat := 0x500018
/-- OD 0x5000.19 SEL_REPLAYS (17): flits replayed (R405) -/
abbrev selReplays : Nat := 0x500019
/-- OD 0x5000.1A SEL_RETRAINS (17): retrains in Run (R401) -/
abbrev selRetrains : Nat := 0x50001A
/-- OD 0x5000.1B SEL_FLITS_TX (17): data flits sent -/
abbrev selFlitsTx : Nat := 0x50001B
/-- OD 0x5000.1C SEL_FLITS_RX (17): data flits received in order -/
abbrev selFlitsRx : Nat := 0x50001C
/-- OD 0x5000.1D SEL_CREDIT_STALLS (17): flit slots a data flit waited for credit (R406) -/
abbrev selCreditStalls : Nat := 0x50001D
/-- OD 0x5000.20 LANE_SYMBOL_LIMIT (17): corrected symbols of a lane in 1 s that retrain the arch, 1,000 to 10,000,000 (stored) (R401) -/
abbrev laneSymbolLimit : Nat := 0x500020
/-- OD 0x5100.07 PATH_CONFIG (17): this module's path from the top gallery (R413) -/
abbrev pathConfig : Nat := 0x510007
/-- OD 0x5100.08 FABRIC_ID (17): fabric identifier matched in HELLO (R414) -/
abbrev fabricId : Nat := 0x510008
/-- OD 0x5100.09 HELLO_INTERVAL_MS (17): HELLO interval, 20 to 1,000 ms (stored) (R415) -/
abbrev helloIntervalMs : Nat := 0x510009
/-- OD 0x5100.0A MANAGER_PATH (17): path of the manager of this module's level-3 gallery (R416) -/
abbrev managerPath : Nat := 0x51000A
/-- OD 0x5100.0B DEPUTY (17): this module holds a stream table mirror (R417) -/
abbrev deputy : Nat := 0x51000B
/-- OD 0x5100.0C ELECTIONS (17): elections settled (R416) -/
abbrev elections : Nat := 0x51000C
/-- OD 0x5100.0D HELLO_REJECTS (17): HELLO frames rejected (R414) -/
abbrev helloRejects : Nat := 0x51000D
/-- OD 0x5100.0E ROUTE_TABLE (17): route table (R419) -/
abbrev routeTable : Nat := 0x51000E
/-- OD 0x5100.0F ROUTE_CUSTOM (17): route table kept as written (R419) -/
abbrev routeCustom : Nat := 0x51000F
/-- OD 0x5100.15 MEMBERS_LOST (17): members declared lost (R415) -/
abbrev membersLost : Nat := 0x510015
/-- OD 0x5100.16 JOB_STOPS_SENT (17): JOB_STOP frames sent with 0x5020 (R431) -/
abbrev jobStopsSent : Nat := 0x510016
/-- OD 0x5200.01 TIME_MODE (17): 0 Arcade; 1 rack reference (R427, R428) -/
abbrev timeMode : Nat := 0x520001
/-- OD 0x5200.02 TIME_STATE (17): 0 reference, 1 locking, 2 locked, 3 holdover, 4 unaligned (R426, R429) -/
abbrev timeState : Nat := 0x520002
/-- OD 0x5200.03 OFFSET_NS (17): last offset from the parent, ns (R426) -/
abbrev offsetNs : Nat := 0x520003
/-- OD 0x5200.04 PARENT_ARCH (17): arch toward the reference (R425) -/
abbrev parentArch : Nat := 0x520004
/-- OD 0x5200.05 HOPS_TO_REFERENCE (17): arches on the parent chain (R427) -/
abbrev hopsToReference : Nat := 0x520005
/-- OD 0x5200.06 TIME_EXCHANGES (17): exchanges completed (R426) -/
abbrev timeExchanges : Nat := 0x520006
/-- OD 0x5200.07 SYNC_PULSES (17): rack sync pulses taken (R428) -/
abbrev syncPulses : Nat := 0x520007
/-- OD 0x5200.08 ALIGN_LOSSES (17): entries into unaligned (R429) -/
abbrev alignLosses : Nat := 0x520008
/-- OD 0x5200.09 ALIGN_BOUND_NS (17): bound in effect: 20 in Arcade mode, 25 in rack mode (R427, R428) -/
abbrev alignBoundNs : Nat := 0x520009
/-- OD 0x6100.01 LINK_STATE (18): 0 down, 1 training, 2 CXL up, 3 PCIe only -/
abbrev linkState : Nat := 0x610001
/-- OD 0x6100.02 LINK_RATE_GTS (18): 32 or 64 -/
abbrev linkRateGts : Nat := 0x610002
/-- OD 0x6100.03 LINK_WIDTH (18): 8 or 16 -/
abbrev linkWidth : Nat := 0x610003
/-- OD 0x6100.04 HDM_COMMITTED (18): decoder 0 committed (R434) -/
abbrev hdmCommitted : Nat := 0x610004
/-- OD 0x6100.05 HDM_HPA_BASE (18): host physical base of decoder 0 -/
abbrev hdmHpaBase : Nat := 0x610005
/-- OD 0x6100.06 HDM_SIZE (18): bytes exposed (R434) -/
abbrev hdmSize : Nat := 0x610006
/-- OD 0x6100.07 MEMORY_ACTIVE (18): Memory_Active set (R435) -/
abbrev memoryActive : Nat := 0x610007
/-- OD 0x6100.08 FILTER_LINES (18): lines now held in the snoop filter (R437) -/
abbrev filterLines : Nat := 0x610008
/-- OD 0x6100.09 BACK_INVALIDATES (18): BISnpInv sent (R437) -/
abbrev backInvalidates : Nat := 0x610009
/-- OD 0x6100.0A EARLY_HDM_ACCESSES (18): requests before Memory_Active (R436) -/
abbrev earlyHdmAccesses : Nat := 0x61000A
/-- OD 0x6100.0B LINK_LOSSES (18): link losses (R446) -/
abbrev linkLosses : Nat := 0x61000B
/-- OD 0x6100.0D CXL_RESETS (18): CXL Resets (R448) -/
abbrev cxlResets : Nat := 0x61000D
/-- OD 0x6100.11 ERROR_VECTOR (18): MSI-X vector for Newel error records, 0 to 63 (stored) (R443) -/
abbrev errorVector : Nat := 0x610011
/-- OD 0x6100.12 VIRAL_ON_SAFE_STOP (18): Viral signalled at Safe Stop (R445) -/
abbrev viralOnSafeStop : Nat := 0x610012
/-- OD 0x6100.13 CXL_CORRECTABLE (18): correctable CXL.cachemem errors (R444) -/
abbrev cxlCorrectable : Nat := 0x610013
/-- OD 0x6100.14 CXL_UNCORRECTABLE (18): uncorrectable CXL.cachemem errors (R444) -/
abbrev cxlUncorrectable : Nat := 0x610014
/-- OD 0x6100.15 POISON_TO_HOST (18): lines returned to the host poisoned (R439) -/
abbrev poisonToHost : Nat := 0x610015
/-- OD 0x6000.01 FOYER_STATE (19): 0 off, 1 loading, 2 running, 3 restarting (R450, R452) -/
abbrev foyerState : Nat := 0x600001
/-- OD 0x6000.03 PORT_LINKS (19): bit 0 optical 0, bit 1 optical 1, bit 2 management -/
abbrev portLinks : Nat := 0x600003
/-- OD 0x6000.08–0A PORT_IP_0 … 2 (19): IPv6 address (16), prefix (1), IPv4 address (4), prefix (1), IPv6 gateway (16), IPv4 gateway (4), reserved (6) (stored) -/
abbrev portIp0 : Nat := 0x600008
/-- OD 0x6000.0B–0D PORT_VLAN_0 … 2 (19): VID 1 to 4,094, or 0 untagged (stored) (R454) -/
abbrev portVlan0 : Nat := 0x60000B
/-- OD 0x6000.11 TELEMETRY_PORT (19): UDP port for telemetry, 1,024 to 65,535 (stored) (R455) -/
abbrev telemetryPort : Nat := 0x600011
/-- OD 0x6000.12 TELEMETRY_SOURCES (19): up to 16 prefixes of 17 bytes; empty accepts any (stored) (R455) -/
abbrev telemetrySources : Nat := 0x600012
/-- OD 0x6000.13 SENDER_ID (19): SENDER_ID of recommendations (stored) (R456) -/
abbrev senderId : Nat := 0x600013
/-- OD 0x6000.14 AGG_BURST (19): aggregate bucket depth, 1 to 4,096 (stored) (R464) -/
abbrev aggBurst : Nat := 0x600014
/-- OD 0x6000.20 FIELD_MAP (19): cell records (stored) (R459) -/
abbrev fieldMap : Nat := 0x600020
/-- OD 0x6000.21 FIELD_CELL_SET (19): one 48-byte cell record as an edit (R459) -/
abbrev fieldCellSet : Nat := 0x600021
/-- OD 0x6000.22 CELLS_BOUND (19): cells bound (R461) -/
abbrev cellsBound : Nat := 0x600022
/-- OD 0x6000.24 CELLS_REFUSED (19): cells refused admission (R461) -/
abbrev cellsRefused : Nat := 0x600024
/-- OD 0x6000.25 CELL_SELECT (19): per role: CELL_ID for CELL_STATUS -/
abbrev cellSelect : Nat := 0x600025
/-- OD 0x6000.26 CELL_STATUS (19): state (0 unmapped, 1 bound, 2 refused, 3 waiting), last CELL_SEQ, records passed, policed and stale, U64 each after 8 bytes of state -/
abbrev cellStatus : Nat := 0x600026
/-- OD 0x6000.30 RECORDS_IN (19): records passed to the field gate -/
abbrev recordsIn : Nat := 0x600030
/-- OD 0x6000.31 RECORDS_POLICED (19): (R464) -/
abbrev recordsPoliced : Nat := 0x600031
/-- OD 0x6000.32 RECORDS_UNKNOWN (19): (R458) -/
abbrev recordsUnknown : Nat := 0x600032
/-- OD 0x6000.33 RECORDS_FORMAT (19): records in dropped datagrams, and dropped records (R458) -/
abbrev recordsFormat : Nat := 0x600033
/-- OD 0x6000.34 RECORDS_STALE (19): (R465) -/
abbrev recordsStale : Nat := 0x600034
/-- OD 0x6000.35 RECORDS_REPLACED (19): (R466) -/
abbrev recordsReplaced : Nat := 0x600035
/-- OD 0x6000.36 RECORDS_NOT_BOUND (19): records of unbound or refused cells, or outside Run (R461, R462) -/
abbrev recordsNotBound : Nat := 0x600036
/-- OD 0x6000.37 RECOMMENDS_OUT (19): recommendations sent (R468) -/
abbrev recommendsOut : Nat := 0x600037
/-- OD 0x6000.38 RECOMMEND_DROPS (19): recommendations with no port up (R468) -/
abbrev recommendDrops : Nat := 0x600038
/-- OD 0x6000.39 SOURCE_DROPS (19): telemetry from unlisted sources (R455) -/
abbrev sourceDrops : Nat := 0x600039
/-- OD 0x6000.40 BAL_CHECK_FAILS (19): (R471) -/
abbrev balCheckFails : Nat := 0x600040
/-- OD 0x6000.41 BAL_REFUSALS (19): (R471) -/
abbrev balRefusals : Nat := 0x600041
/-- OD 0x6000.42 BAL_QUEUE_DROPS (19): TELEMETRY dropped with the queue full (R471) -/
abbrev balQueueDrops : Nat := 0x600042
/-- OD 0x6000.50 PTP_ENABLE (19): (stored) (R472) -/
abbrev ptpEnable : Nat := 0x600050
/-- OD 0x6000.51 PTP_PORT (19): 0 optical 0, 1 optical 1, 2 management; transport in [7:4]: 0 Ethernet, 1 IPv4, 2 IPv6 (stored) -/
abbrev ptpPort : Nat := 0x600051
/-- OD 0x6000.52 PTP_DOMAIN (19): 0 to 127 (stored) -/
abbrev ptpDomain : Nat := 0x600052
/-- OD 0x6000.53 PTP_STATE (19): 0 disabled, 1 listening, 2 uncalibrated, 3 slave, 4 lost -/
abbrev ptpState : Nat := 0x600053
/-- OD 0x6000.54 PTP_OFFSET_NS (19): last offset from the grandmaster -/
abbrev ptpOffsetNs : Nat := 0x600054
/-- OD 0x6000.55 SYNCE_USABLE (19): bit 0 port 0 usable, bit 1 port 1; QL codes in [11:8] and [15:12] (R473) -/
abbrev synceUsable : Nat := 0x600055
/-- OD 0x6000.60 PPS_IN_STATE (19): 0 absent, 1 acquiring, 2 valid, 3 lost (R474) -/
abbrev ppsInState : Nat := 0x600060
/-- OD 0x6000.61 PPS_EDGES_IGNORED (19): (R474) -/
abbrev ppsEdgesIgnored : Nat := 0x600061
/-- OD 0x6000.62 PPS_IN_OFFSET_NS (19): last valid edge against the timebase's second -/
abbrev ppsInOffsetNs : Nat := 0x600062
/-- OD 0x6000.63 PPS_OUT_ENABLE (19): (stored) (R476) -/
abbrev ppsOutEnable : Nat := 0x600063
/-- OD 0x6000.64 PPS_IN_DELAY_NS (19): cable delay compensation, −100,000 to 100,000 (stored) (R474) -/
abbrev ppsInDelayNs : Nat := 0x600064
/-- OD 0x6000.68 REF10_STATE (19): 0 absent, 1 valid, 2 lost (R475) -/
abbrev ref10State : Nat := 0x600068
/-- OD 0x1000.22 BOOT_COUNT (20): power-ons since manufacture -/
abbrev bootCount : Nat := 0x100022
/-- OD 0x1000.23 SECURITY_VERSION (20): fused security version (R494) -/
abbrev securityVersion : Nat := 0x100023
/-- OD 0x1000.24 NEWEL_RESTARTS (20): restarts since power-on (R479) -/
abbrev newelRestarts : Nat := 0x100024
/-- OD 0x1000.28 SERVICE_ACTION (20): 0 report; 1 Stop; 2 Stop then Standby (stored) (R497) -/
abbrev serviceAction : Nat := 0x100028
/-- OD 0x1000.29 SERVICE_STATE (20): 0 released; 1 asserted; 2 chattering (R496) -/
abbrev serviceState : Nat := 0x100029
/-- OD 0x1000.2A SERVICE_EVENTS (20): service requests counted (R496) -/
abbrev serviceEvents : Nat := 0x10002A
/-- OD 0x1000.2B ALERT_SEVERITY (20): least severity that asserts ALERT_N, 1 to 3 (stored) (R499) -/
abbrev alertSeverity : Nat := 0x10002B
/-- OD 0x1000.2C ALERT_STATE (20): ALERT_N asserted (R499) -/
abbrev alertState : Nat := 0x10002C
/-- OD 0x1000.2D THERMTRIP_STATE (20): THERMTRIP_N asserted (R498) -/
abbrev thermtripState : Nat := 0x10002D
/-- OD 0x1000.2E SMBUS_ADDRESS (20): 7-bit SMBus address (R500) -/
abbrev smbusAddress : Nat := 0x10002E
/-- OD 0x1100.30 ATTEST_NONCE (20): per role: nonce for reports (R490) -/
abbrev attestNonce : Nat := 0x110030
/-- OD 0x1100.31 ATTEST_REPORT (20): signed attestation report (R490) -/
abbrev attestReport : Nat := 0x110031
/-- OD 0x1200.01 LOG_NEWEST (20): newest SEQ (R485) -/
abbrev logNewest : Nat := 0x120001
/-- OD 0x1200.02 LOG_OLDEST (20): oldest SEQ held (R485) -/
abbrev logOldest : Nat := 0x120002
/-- OD 0x1200.03 LOG_READ_FROM (20): per role: first SEQ for LOG_RECORDS (R485) -/
abbrev logReadFrom : Nat := 0x120003
/-- OD 0x1200.04 LOG_RECORDS (20): up to 256 records (R485) -/
abbrev logRecords : Nat := 0x120004
/-- OD 0x1200.05 PERSISTENT_LOG (20): persistent ring, oldest first (R487) -/
abbrev persistentLog : Nat := 0x120005
/-- OD 0x1200.06 PERSISTENT_CLEAR (20): 0x7261_656C erases the persistent ring (R487) -/
abbrev persistentClear : Nat := 0x120006
/-- OD 0x1300.06 ERROR_RECORD (20): oldest buffered error record, 64 bytes; empty when the buffer is empty (R486) -/
abbrev errorRecord : Nat := 0x130006
/-- OD 0x1300.07 ERROR_ACK (20): removes buffered records up to a SEQ (R486) -/
abbrev errorAck : Nat := 0x130007
/-- OD 0x2000.80 SENSOR_REPORT (20): all sensor records (R483) -/
abbrev sensorReport : Nat := 0x200080
/-- OD 0x2000.81 SENSORS_FAILED (20): sensors marked failed (R482) -/
abbrev sensorsFailed : Nat := 0x200081
/-- OD 0x7100.01 FW_STATE (20): 0 idle; 1 receiving; 2 verifying; 3 programming; 4 programmed; 5 refused; 6 recovery -/
abbrev fwState : Nat := 0x710001
/-- OD 0x7100.02 FW_IMAGE (20): firmware image (R492) -/
abbrev fwImage : Nat := 0x710002
/-- OD 0x7100.03 FW_ACTIVATE (20): 0x746F_6F62 activates the programmed image (R494) -/
abbrev fwActivate : Nat := 0x710003
/-- OD 0x7100.04 FW_LAST_CODE (20): code of the last refusal (R492) -/
abbrev fwLastCode : Nat := 0x710004
/-- OD 0x7100.05 FW_STAGED_VERSION (20): FW_VERSION of the programmed image (R492) -/
abbrev fwStagedVersion : Nat := 0x710005
/-- OD 0x7100.06 FW_PROGRESS (20): bytes programmed (R492) -/
abbrev fwProgress : Nat := 0x710006
/-- OD 0x2000.01 INPUT_MV (21): input voltage, mV -/
abbrev inputMv : Nat := 0x200001
/-- OD 0x2000.02 INPUT_POWER_W (21): input power, 1 ms mean -/
abbrev inputPowerW : Nat := 0x200002
/-- OD 0x2000.03 INPUT_POWER_AVG_W (21): input power, 1 s mean (R515) -/
abbrev inputPowerAvgW : Nat := 0x200003
/-- OD 0x2000.04 ENERGY_J (21): input energy since entry into Standby -/
abbrev energyJ : Nat := 0x200004
/-- OD 0x2000.10 GOV_MODE (21): 0 rate target; 1 power cap only (stored) (R512) -/
abbrev govMode : Nat := 0x200010
/-- OD 0x2000.11 RATE_TARGET (21): k steps/s, 1,200,000 to 2,400,000 (stored) (R512) -/
abbrev rateTarget : Nat := 0x200011
/-- OD 0x2000.14–17 FABRIC_MV_H0 … H3 (21): fabric rail of each hall, mV (R511) -/
abbrev fabricMvH0 : Nat := 0x200014
/-- OD 0x2000.20 POWER_CAP_W (21): 700 to 1,050 W (stored) (R515) -/
abbrev powerCapW : Nat := 0x200020
/-- OD 0x2000.21 FAST_LIMITS (21): fast limits (R516) -/
abbrev fastLimits : Nat := 0x200021
/-- OD 0x2000.22 CAP_HELD_MS (21): ms in which classes 1 or 2 were held back (R515) -/
abbrev capHeldMs : Nat := 0x200022
/-- OD 0x2000.23 RATE_FLOOR_EVENTS (21): (R514) -/
abbrev rateFloorEvents : Nat := 0x200023
/-- OD 0x2000.30 GATING_ENABLE (21): clock gating (R509) -/
abbrev gatingEnable : Nat := 0x200030
/-- OD 0x2000.31 GATED_SHARE (21): per mille of clocked-unit cycles gated over the last 1 s (R509) -/
abbrev gatedShare : Nat := 0x200031
/-- OD 0x2100.01 TB_STATE (21): timebase state (R502, R504) -/
abbrev tbState : Nat := 0x210001
/-- OD 0x2100.02 FREQ_SOURCE (21): selected source code, 0 for the TCXO (R503) -/
abbrev freqSource : Nat := 0x210002
/-- OD 0x2100.03 FREQ_ERROR_PPB (21): TCXO against the selected source, ppb -/
abbrev freqErrorPpb : Nat := 0x210003
/-- OD 0x2100.04 TIME_OFFSET_NS (21): counter minus time source (R505) -/
abbrev timeOffsetNs : Nat := 0x210004
/-- OD 0x2100.10 FREQ_PRIORITY (21): source codes by slot (R503) -/
abbrev freqPriority : Nat := 0x210010
/-- OD 0x2100.11 TIME_SOURCE (21): 0 none; 1 PTP; 2 PTP with 1PPS (R504) -/
abbrev timeSource : Nat := 0x210011
/-- OD 0x2100.12 QUALIFY_S (21): 1 to 600 s (stored) (R503) -/
abbrev qualifyS : Nat := 0x210012
/-- OD 0x2100.13 FREQ_SWITCHES (21): (R503) -/
abbrev freqSwitches : Nat := 0x210013
/-- OD 0x2100.14 HOLDOVER_ENTRIES (21): (R504) -/
abbrev holdoverEntries : Nat := 0x210014
/-- OD 0x2100.20 MEAS_SOURCE (21): measured source (R510) -/
abbrev measSource : Nat := 0x210020
/-- OD 0x2100.21 MEAS_GATE_SOURCE (21): gate source (R510) -/
abbrev measGateSource : Nat := 0x210021
/-- OD 0x2100.22 MEAS_GATE_CYCLES (21): G, 1,000 to 4,294,967,295 (R510) -/
abbrev measGateCycles : Nat := 0x210022
/-- OD 0x2100.23 MEAS_START (21): starts a measurement (R510) -/
abbrev measStart : Nat := 0x210023
/-- OD 0x2100.24 MEAS_STATE (21): 0 idle; 1 running; 2 done -/
abbrev measState : Nat := 0x210024
/-- OD 0x2100.25 MEAS_COUNT (21): cycles of the measured source in the last gate (R510) -/
abbrev measCount : Nat := 0x210025
/-- OD 0x1300.10 EPISODE_TABLE (22): open episodes (R523) -/
abbrev episodeTable : Nat := 0x130010
/-- OD 0x1300.11 EPISODES_OPENED (22): episodes opened since entry into Standby (R521) -/
abbrev episodesOpened : Nat := 0x130011
/-- OD 0x1300.12 SAFE_STOP_CAUSE (22): code that caused the last Safe Stop (R530) -/
abbrev safeStopCause : Nat := 0x130012
/-- OD 0x1300.13 STEPS_POISONED (22): steps abandoned for poison (R525) -/
abbrev stepsPoisoned : Nat := 0x130013
/-- OD 0x1300.14 WEIGHT_REPAIRS (22): weight blocks repaired (R528) -/
abbrev weightRepairs : Nat := 0x130014
/-- OD 0x1300.15 MODELS_LOST (22): models withdrawn (R529) -/
abbrev modelsLost : Nat := 0x130015
/-- OD 0x1000.30 START_MODE (23): 0 on request; 1 automatic after power-on; 2 automatic always (stored) (R535) -/
abbrev startMode : Nat := 0x100030
/-- OD 0x1000.31 TRAIN_REQUEST (23): 1 starts Training from Standby (R535) -/
abbrev trainRequest : Nat := 0x100031
/-- OD 0x1000.32 AUTO_RUN (23): Newel requests Run on reaching Ready (stored) (R541) -/
abbrev autoRun : Nat := 0x100032
/-- OD 0x1000.33 TRAINING_TIME_MS (23): duration of the last Training (R539) -/
abbrev trainingTimeMs1000 : Nat := 0x100033
/-- OD 0x3000.50 SELFTEST_FAILS (23): flights fenced by the last self-test (R537) -/
abbrev selftestFails : Nat := 0x300050
/-- OD 0x7000.01 TEST_TARGET (24): interface in [15:8], unit in [7:0] (R545) -/
abbrev testTarget : Nat := 0x700001
/-- OD 0x7000.02 TEST_DEPTH (24): depth 1 to 5 (R545) -/
abbrev testDepth : Nat := 0x700002
/-- OD 0x7000.03 TEST_PATTERN (24): pattern code (R548) -/
abbrev testPattern : Nat := 0x700003
/-- OD 0x7000.04 TEST_DURATION_MS (24): 1 to 3,600,000, capped under R547 -/
abbrev testDurationMs : Nat := 0x700004
/-- OD 0x7000.05 TEST_ERROR_LIMIT (24): errors allowed for a pass (R548) -/
abbrev testErrorLimit : Nat := 0x700005
/-- OD 0x7000.06 TEST_START (24): starts a loop-back (R543) -/
abbrev testStart : Nat := 0x700006
/-- OD 0x7000.07 TEST_ABORT (24): aborts the running test (R544) -/
abbrev testAbort : Nat := 0x700007
/-- OD 0x7000.08 TEST_STATE (24): 0 idle, 1 running, 2 passed, 3 failed, 4 no partner, 5 aborted -/
abbrev testState : Nat := 0x700008
/-- OD 0x7000.09 TEST_BITS (24): (R548) -/
abbrev testBits : Nat := 0x700009
/-- OD 0x7000.0A TEST_ERRORS (24): (R548) -/
abbrev testErrors : Nat := 0x70000A
/-- OD 0x7000.0B TEST_CORRECTED (24): (R548) -/
abbrev testCorrected : Nat := 0x70000B
/-- OD 0x7000.0C ECHO_PEER (24): IPv6 or IPv4-mapped address (16), UDP port (2) (stored) -/
abbrev echoPeer : Nat := 0x70000C
/-- OD 0x7000.0D PARTNER_LOOP_ALLOW (24): answer partners' LOOP_REQ (stored) (R546) -/
abbrev partnerLoopAllow : Nat := 0x70000D
/-- OD 0x7000.20 MARGIN_TARGET (24): stack 0 to 23, or 0x80 + hall (R549) -/
abbrev marginTarget : Nat := 0x700020
/-- OD 0x7000.21 MARGIN_BITS (24): bits per point, 65,536 to 67,108,864 (R550) -/
abbrev marginBits : Nat := 0x700021
/-- OD 0x7000.22 MARGIN_START (24): (R549) -/
abbrev marginStart : Nat := 0x700022
/-- OD 0x7000.23 MARGIN_STATE (24): (R551) -/
abbrev marginState : Nat := 0x700023
/-- OD 0x7000.24 MEZZ_MARGIN_REPORT (24): last mezzanine margins (R550) -/
abbrev mezzMarginReport : Nat := 0x700024
/-- OD 0x7000.30 BIST_SELECT (24): (R552) -/
abbrev bistSelect : Nat := 0x700030
/-- OD 0x7000.31 BIST_START (24): (R552) -/
abbrev bistStart : Nat := 0x700031
/-- OD 0x7000.32 BIST_STATE (24): (R552) -/
abbrev bistState : Nat := 0x700032
/-- OD 0x7000.33 BIST_FAILED (24): flights failed in the last KIND 1 test (R552) -/
abbrev bistFailed : Nat := 0x700033
/-- OD 0x7000.40 JTAG_ENABLE (24): halls joined to the scan chain (R553) -/
abbrev jtagEnable : Nat := 0x700040
/-- OD 0x7000.41 EXTEST_SINCE_STANDBY (24): an EXTEST-class instruction acted (R554) -/
abbrev extestSinceStandby : Nat := 0x700041
/-- OD 0x7000.50 PRODUCTION_RECORD (24): (R555) -/
abbrev productionRecord : Nat := 0x700050

end Od

end Sys2Proof.Machine
end

