-- ==== Sys2Proof/Machine/StBase.lean ====
section
/-!
DEFINITION. StBase.lean: the parts of the state that Newel keeps: module state, dictionary, EOP, log, error
episodes, firmware; the CXL port; and the messages that leave the block.
-/

namespace Sys2Proof.Machine

/-- R62: the module states; `off` has no code. -/
inductive ModState where
  | off | standby | training | ready | run | stopped | safeStop
  deriving DecidableEq, Repr

/-- R33: the four roles. -/
inductive Role where
  | host | field | manager | newel
  deriving DecidableEq, Repr

/-- Who waits for the response of a dictionary access: the mailbox; the sender of an EOP request (its address,
UDP port, OPCODE, SEQUENCE and PATH); the originator of an Arcade OD request (its path, the tag of its frame and the opcode); for an
entry's own row, which says what reached the entry, the path alone. -/
inductive Origin where
  | mailbox
  | eop (addr : BitVec 128) (udp opcode seq : Nat) (path : Word64)
  | arcade (src : Word64) (tag opcode : Nat)
  | via (v : Via)
  deriving DecidableEq, Repr

/-- R42 to R45: an open DOMAIN transfer. `data` holds the bytes received, or the snapshot of a read;
`delivered` counts the bytes that a read has delivered. -/
structure Transfer where
  via       : Via
  key       : Nat
  isWrite   : Bool
  total     : Nat
  data      : Bytes
  delivered : Nat
  last      : Nat
  deriving DecidableEq, Repr

/-- R53: a running OD_STATE_WAIT. -/
structure StateWait where
  origin   : Origin
  target   : Nat
  deadline : Nat
  deriving DecidableEq, Repr

/-- R46, R48: a forwarded access of an entry that waits at the manager for the response of a module; `ends` is the moment at which
the manager stops waiting. -/
structure Proxy where
  id     : Nat
  origin : Origin
  dest   : Word64
  opcode : Nat
  key    : Nat
  ends   : Nat
  deriving DecidableEq, Repr

/-- The dictionary: scalar values that differ from their defaults, values of DOMAIN entries (the default where
none is listed), the roles' own copies of "per role" entries (keyed role × 2^24 + entry), the parameter store
(R40), and what runs on it; answers to writes of XLATE_INVALIDATE that are due: who asked, the opcode, the entry, OD_WRITE_SEQ (R282). -/
structure OdSt where
  vals      : KMap Nat
  doms      : KMap Bytes
  roleVals  : KMap Nat
  roleDoms  : KMap Bytes
  stored    : KMap Nat
  storedDom : KMap Bytes
  transfers : List Transfer
  stateWait : Option StateWait
  proxies   : List Proxy
  nextProxy : Nat
  ready     : List (Origin × Nat × Nat × Nat)
  deriving DecidableEq, Repr

/-- An EOP request that passed the checks of R59 and waits for execution. -/
structure EopReq where
  port    : Nat
  addr    : BitVec 128
  udp     : Nat
  payload : Bytes
  deriving DecidableEq, Repr

/-- R59 to R61: per peer key the highest accepted sequence H, the record of the sequences H - 63 to H (bit
i: H - i accepted) and the stored H; the requests queued. -/
structure EopSt where
  high   : KMap Nat
  seen   : KMap Nat
  stored : KMap Nat
  queue  : List EopReq
  deriving DecidableEq, Repr

/-- R484: a log record, field by field. -/
structure LogRec where
  seq        : Nat
  code       : Nat
  severity   : Nat
  flags      : Nat
  time       : Nat
  episode    : Nat
  episodeSeq : Nat
  hall       : Nat
  unit       : Nat
  stream     : Nat
  address    : Nat
  count      : Nat
  model      : Nat
  boot       : Nat
  job        : Nat
  detail     : Bytes
  deriving DecidableEq, Repr

/-- What raises a record: a code and the fields that its rule gives. -/
structure LogEv where
  code    : Nat
  hall    : Nat := 0xFF
  unit    : Nat := 0xFF
  stream  : Nat := 0xFFFF
  address : Nat := 0
  model   : Nat := 0
  job     : Nat := 0
  detail  : Bytes := []
  scrub   : Bool := false
  deriving DecidableEq, Repr

/-- R521: the subject of a Fault: its kind; the device physical address for kinds 1, 2 and 4, hall × 256 + unit
otherwise; and the number that tells subjects of a kind apart: model, tensor and block for kind 1, the row for kind 2, the
image's address for kind 9, `at_` for the others. -/
structure Subject where
  kind : Nat
  at_  : Nat
  key  : Nat
  deriving DecidableEq, Repr

/-- A Fault as it stands in the event queue: the record and its subject. -/
structure FaultEv where
  ev    : LogEv
  subj  : Option Subject
  model : Nat
  time  : Nat
  deriving DecidableEq, Repr

/-- R485: an open rate-limit interval of a code and subject. -/
structure LogInterval where
  code    : Nat
  subject : Nat
  opened  : Nat
  length  : Nat
  count   : Nat
  first   : Nat
  ev      : LogEv
  deriving DecidableEq, Repr

/-- R484 to R487: the log. -/
structure LogSt where
  ring      : List LogRec
  next      : Nat
  intervals : List LogInterval
  buffer    : List LogRec
  persist   : List LogRec
  toFlash   : List LogRec
  deriving DecidableEq, Repr

/-- R521, R523: an open error episode. `lastAt` is the time of its last record. -/
structure Episode where
  num     : Nat
  phase   : Nat
  first   : Nat
  last    : Nat
  opened  : Nat
  subj    : Subject
  records : Nat
  streams : Nat
  model   : Nat
  joins   : Nat
  lastAt  : Nat
  deriving DecidableEq, Repr

/-- R491: the firmware image held in the slot, or staged (with its length). -/
structure FwImage where
  version  : Nat
  security : Nat
  digest   : Nat
  deriving DecidableEq, Repr

/-- R480 to R483: a sensor record. -/
structure Sensor where
  kind   : Nat
  index  : Nat
  value  : Int
  valid  : Bool
  failed : Bool
  prev   : Option Int
  deriving DecidableEq, Repr

/-- Newel: its processor pair (R479), firmware slot (R491 to R495), sensors (R480), lines (R496 to R499), fuses
(R477) and boot counter (R478); readings of rate monitors of the last 10 ms: monitor, moment, value (R24, R481). -/
structure NewelSt where
  restarting    : Bool
  eventQueue    : List FaultEv
  nextEpisode   : Nat
  episodes      : List Episode
  bootCount     : Nat
  security      : Nat
  slot          : Option FwImage
  staged        : Option (FwImage × Nat)
  running       : FwImage
  recovery      : Bool
  fwActivated   : Bool
  sensors       : List Sensor
  svcCounted    : Bool
  svcEdges      : List Nat
  svcChatter    : Bool
  svcHeldStop   : Bool
  svcTimerFrom  : Option Nat
  tripped       : Bool
  tripSensors   : List Nat
  straps        : Nat
  rates         : List (Nat × Nat × Int)
  deriving DecidableEq, Repr

/-- A write of the module to a line that the host's caches may hold waits for the host's BIRsp (R437). What
leaves after it (a completion record, a message) waits in the same queue, in order: so do a line that waits for room in the snoop filter (R437), the confirmation of a descriptor's bytes (R289) and the answer to a write
of XLATE_INVALIDATE (R282). -/
inductive HostAct where
  | write (addr : Nat) (data : Bytes) (poison : Bool)
  | signal (vector : Nat)
  | enter (line : Nat)
  | moved (id n : Nat)
  | answer (o : Origin) (op key seq : Nat)
  deriving DecidableEq, Repr

/-- R442: the background command of the mailbox is `OdSt.stateWait`. R432 to R449: the CXL port. -/
structure CxlSt where
  linkUp     : Bool
  pcieOnly   : Bool
  infoValid  : Bool
  d3hot      : Bool
  viral      : Bool
  perstHigh  : Bool
  filter     : List Nat
  waiting    : List HostAct
  snooped    : Option Nat
  masked     : List Nat
  funcMask   : Bool
  pendBits   : List Nat
  evInfo     : List LogRec
  evWarn     : List LogRec
  evFail     : List LogRec
  evFatal    : List LogRec
  overflow   : List Nat
  policy     : Bytes
  hostTime   : Nat
  rate       : Nat
  width      : Nat
  deriving DecidableEq, Repr

end Sys2Proof.Machine
end

