-- ==== Sys2Proof/Machine/StCompute.lean ====
section
/-!
DEFINITION. StCompute.lean: the state of the halls: flights with their planes, tiles and stores, landings and
handle tables, generators, resident programs and the barriers they meet at, and predicted layers.
-/

namespace Sys2Proof.Machine

/-- R103: an accumulator word: the wide sum, and RES, its residue mod 7. -/
structure AccWord where
  sum : Int
  res : Nat
  deriving DecidableEq, Repr

/-- The accumulator word of a zero sum. -/
def AccWord.zero : AccWord := ⟨0, 0⟩

/-- R121: an operation that has entered a tile, as a rerun repeats it: its word as it was issued, the word of the PASS that it matches
(an OUTLIER_PASS, R229), and, for a PASS that reuses the active plane, that plane and whether it is poisoned. -/
structure Redo where
  word  : Nat
  main  : Nat
  plane : KMap Nat
  bad   : Bool
  deriving DecidableEq, Repr

/-- R79, R103, R104, R121, R164, R169: an accumulator tile: its tag (`lsb` none is LSB_EXP 0x7FFF), POISON, the accumulator words of
its rows (key row × lanes + lane; an unlisted word is zero), its SKIP bits, the output blocks coded AUDIT and the predicted
layer they belong to; `satLogged` says that 0x3022 was logged for the tile, `drained` that a drain has read the tile, `missed` which
AUDIT blocks left a drain as non-zero, and `work` what has entered the tile since its initialising accumulate. -/
structure Tile where
  valid     : Bool
  sat       : Bool
  fmt       : Nat
  lsb       : Option Int
  poison    : Bool
  satLogged : Bool
  sums      : KMap AccWord
  skip      : List Nat
  audit     : List Nat
  layer     : Option Nat
  drained   : Bool
  missed    : List Nat
  work      : List Redo
  deriving DecidableEq, Repr

/-- R104: a tile at task start and after RELEASE. -/
def Tile.reset : Tile := ⟨false, false, 0, none, false, false, [], [], [], none, false, [], []⟩

/-- R187: a block that a block buffer of the expander holds: where its tensor's data area lies (0 and the address of its first byte, or 1 plus the
landing and the first byte there), its number, its stored form (raw, or coded) and bytes, and whether it is poisoned. -/
structure HeldBlock where
  src   : Nat × Nat
  block : Nat
  raw   : Bool
  data  : Bytes
  bad   : Bool
  deriving DecidableEq, Repr

/-- R223: an area of a program. -/
structure Area where
  base   : Nat
  length : Nat
  flags  : Nat
  deriving DecidableEq, Repr

/-- R223: a tensor table entry. -/
structure TensorE where
  flags   : Nat
  area    : Nat
  data    : Nat
  index   : Nat
  check   : Nat
  wOffset : Nat
  dataOff : Nat
  idxOff  : Nat
  chkOff  : Nat
  deriving DecidableEq, Repr

/-- R223: a handle list entry. -/
structure HandleE where
  handle : Nat
  table  : Nat
  atLoad : Nat
  entry  : Nat
  deriving DecidableEq, Repr

/-- R223: a peer table entry. -/
structure PeerE where
  path   : Word64
  hall   : Nat
  flight : Nat
  deriving DecidableEq, Repr

/-- R223: a barrier table entry. -/
structure BarrierE where
  scope : Nat
  parts : Nat
  deriving DecidableEq, Repr

/-- R223: a group table entry. -/
structure GroupE where
  gallery : Word64
  members : Nat
  deriving DecidableEq, Repr

/-- R221, R222: a program image as the loader read it; `ops` are the 128-bit operation words. -/
structure Image where
  flags    : Nat
  tenant   : Nat
  model    : Nat
  job      : Nat
  binds    : List Nat
  areas    : List Area
  tensors  : List TensorE
  handles  : List HandleE
  peers    : List PeerE
  barriers : List BarrierE
  groups   : List GroupE
  ops      : List Nat
  opsAt    : Nat
  deriving DecidableEq, Repr

/-- R235, R236: an issued operation that has not ended: its number, its opcode and the counter it signals. -/
structure Issued where
  id   : Nat
  op   : Nat
  sig  : Option Nat
  word : Nat
  deriving DecidableEq, Repr

/-- R233: a running REPEAT: the word after it, the iteration, and its word. -/
structure RepFrame where
  first : Nat
  iter  : Nat
  word  : Nat
  deriving DecidableEq, Repr

/-- R242: a resume record. -/
structure Resume where
  pc   : Nat
  rep  : Option RepFrame
  bars : KMap Nat
  deriving DecidableEq, Repr

/-- R220: where a resident program stands. `atBarrier`: it waits for the release of a BARRIER or STEP;
`offered`: at a pre-emption point it waits for the step scheduler; `suspended` (R242); `stopped`: it has stopped, and its job ends (R246). -/
inductive ProgMode where
  | idle | running | atBarrier | offered | suspended | stopped
  deriving DecidableEq, Repr

/-- A resident program (R220): its slot, its image and where it lies, its completion counters, its issued
operations, its barrier use counts, its resume record, whether the pre-emption point of the next word has been
offered, the last PASS of each target (R229), the number of its task (R217), and its place in the order of R330 when it last ran in a step. -/
structure Prog where
  slot     : Nat
  addr     : Nat
  img      : Image
  mode     : ProgMode
  cls      : Nat
  pc       : Nat
  rep      : Option RepFrame
  counters : List Nat
  issued   : List Issued
  nextOp   : Nat
  bars     : KMap Nat
  resume   : Option Resume
  ppDone   : Bool
  lastPass : KMap Nat
  since    : Nat
  key      : Nat := 3 * 2 ^ 96
  deriving DecidableEq, Repr

/-- A flight (R93, R101, R104, R116, R122, R132): its active and staged planes (key tread × lanes + lane, an
unlisted site holds 0b00), its tiles, its token store (key (slot × 256 + tread) × 128 + byte) with the headers,
format and poison of each slot and group, its outlier store, its foot tables, the times of its recovered
mismatches of the last 60 s, its resident programs and the slot that runs; the blocks of the waiting pass whose
second fetch is on its way, and those whose second fetch has ended, with whether it passed (R192, R193). `planeBad` says that weights of the
active plane arrived poisoned, `planeFree` that the sites hold undefined codes (R243). A site code of a sparse plane stands as code + 4 × FOLD (R151). `buffers` are the expander's four block buffers
(R187), `map0` and `map1` the two span maps (R154, key channel × lanes + lane, an unlisted code is 0b00), of which `mapTurn` says which the next round
fills. A store entry that is not listed is undefined. -/
structure FlightSt where
  active     : KMap Nat
  staged     : KMap Nat
  tiles      : KMap Tile
  tokens     : KMap Byte
  tokHeads   : KMap Nat
  outliers   : KMap Bytes
  tables     : KMap Nat
  mismatches : List Nat
  progs      : List Prog
  current    : Option Nat
  refetch    : List Nat
  resolved   : List (Nat × Bool)
  planeBad   : Bool
  planeFree  : Bool
  buffers    : List HeldBlock
  map0       : KMap Nat
  map1       : KMap Nat
  mapTurn    : Bool
  deriving DecidableEq, Repr

/-- A flight after the halls are powered. -/
def FlightSt.reset : FlightSt :=
  { active := [], staged := [], tiles := [], tokens := [], tokHeads := [], outliers := [], tables := [], mismatches := [],
    progs := [], current := none, refetch := [], resolved := [], planeBad := false, planeFree := false, buffers := [],
    map0 := [], map1 := [], mapTurn := false }

/-- A landing (R201, R203, R211, R217, R218): its written bytes, the words with the poison bit, for each written 64-byte
unit the tenant whose task last wrote it (`owner`) and the number of task starts in the module up to that write
(`stamp`), and the handle table (an unlisted entry is not VALID). A unit that was not written since a task's start is
undefined for that task. -/
structure Landing where
  bytes   : KMap Byte
  poison  : KMap Bool
  owner   : KMap Nat
  stamp   : KMap Nat
  handles : KMap Nat
  deriving DecidableEq, Repr

/-- A landing that nothing has written. -/
def Landing.reset : Landing := ⟨[], [], [], [], []⟩

/-- R238: a barrier that has not released: its key, with the hall whose barrier unit carries it (SCOPE 1) or none (the module's units), the programs that
have arrived here (flight key × 4 + slot), the moment of its first arrival, and whether it is a STEP. -/
structure BarrierSt where
  job     : Nat
  bid     : Nat
  use     : Nat
  hall    : Option Nat
  scope   : Nat
  parts   : Nat
  arrived : List Nat
  first   : Nat
  isStep  : Bool
  deriving DecidableEq, Repr

/-- R163, R168 to R172: a predicted layer of a loaded model. `window` holds the last 256 audits, newest first. -/
structure PredLayer where
  mode     : Nat
  fallback : Bool
  window   : List Bool
  audits   : Nat
  misses   : Nat
  skipped  : Nat
  count    : Nat
  logical  : Nat
  physical : Nat
  deriving DecidableEq, Repr

end Sys2Proof.Machine
end

