-- ==== Sys2Proof/Machine/StFoyer.lean ====
section
/-!
DEFINITION. StFoyer.lean: the state of the Foyer, the Balustrade and the field gate (chapter 19).
-/

namespace Sys2Proof.Machine

/-- R459: a cell record of the field map. -/
structure CellRec where
  cellId : Nat
  entry  : Nat
  model  : Nat
  rate   : Nat
  burst  : Nat
  dropLate : Bool
  budget : Nat
  reply  : BitVec 128
  replyPort : Nat
  deriving DecidableEq, Repr

/-- R460 to R468: a cell: its record, its state (1 bound, 2 refused, 3 waiting), the last accepted CELL_SEQ since the binding,
the counters of its status, its bucket (records × 10^12, filled at `filled`), the record held with its arrival and
port, the records written to the ring since the binding, the answered record (CELL_SEQ, MEAS_TIME, port, GAP), whether it
unbinds at the end of the open step, and the records that are added then. -/
structure CellSt where
  rec_    : CellRec
  state   : Nat
  last    : Option Nat
  passed  : Nat
  policed : Nat
  stale   : Nat
  bucket  : Nat
  filled  : Nat
  held    : Option (Bytes × Nat × Nat)
  steps   : Nat
  missing : List Nat
  answer  : Option (Nat × Nat × Nat × Bool)
  leaving : Bool
  next    : List CellRec
  ring    : Nat
  gateSeq : Option Nat
  deriving DecidableEq, Repr

/-- Chapter 19: the controller's state is OD 0x6000.01; cells of the map in ascending ENTRY, as Newel and the field gate hold them, and as the Foyer knows
them from MAP_UPDATE (record and state); the aggregate bucket; the next SEQ sent by channel and direction (data in, data out, management in, management out)
and one more than the last SEQ taken (0: none yet); messages that cross, towards the field gate, Newel and the Foyer; messages taken in the running second by
type (second, number); the moment of the last heartbeat; the enabled SFP28 modules; the entries applied by CONFIG; firmware bytes taken; the quality levels
and times of ESMC PDUs by port; the moment of the last Announce and of the last Delay_Req; 1PPS: edges in the open window, its centre, the last valid edge,
the edge that opened an acquisition; valid 10 MHz measurements in succession; echo replies in the running second by port; the last TIME_SET. -/
structure FoyerSt where
  cells     : List CellSt
  view      : List (CellRec × Nat)
  agg       : Nat
  aggAt     : Nat
  txSeq     : KMap Nat
  rxSeq     : KMap Nat
  dataIn    : List BalMsg
  mgmtIn    : List BalMsg
  toFoyer   : List BalMsg
  received  : KMap (Nat × Nat)
  heartbeat : Nat
  sfp       : List Nat
  applied   : KMap Bytes
  fwTaken   : Nat
  ql        : KMap Nat
  esmcAt    : KMap Nat
  announceAt : Nat
  askedAt   : Nat
  ppsEdges  : List Nat
  ppsWindow : Option Nat
  ppsValidAt : Nat
  ppsEdge   : Nat
  ref10Good : Nat
  icmp      : KMap (Nat × Nat)
  timeSet   : Option (Nat × Nat)
  deriving DecidableEq, Repr

/-- The Foyer before its firmware is loaded. -/
def FoyerSt.reset : FoyerSt :=
  { cells := [], view := [], agg := 0, aggAt := 0, txSeq := [], rxSeq := [], dataIn := [], mgmtIn := [], toFoyer := [],
    received := [], heartbeat := 0, sfp := [], applied := [], fwTaken := 0, ql := [], esmcAt := [], announceAt := 0,
    askedAt := 0, ppsEdges := [], ppsWindow := none, ppsValidAt := 0, ppsEdge := 0, ref10Good := 0, icmp := [], timeSet := none }

end Sys2Proof.Machine
end

