-- ==== Sys2Proof/Machine/StMem.lean ====
section
/-!
DEFINITION. StMem.lean: the halls as one part, device memory, and the messages that leave the block.
-/

namespace Sys2Proof.Machine

/-- The clockless fabric: flights (key hall × 20 + index), landings (0 to 79 the flights' landings, 80 to 83 the
hall landings), generators (key hall × 64 + number), predicted layers (key model × 65,536 + layer), barriers, and the number
of tasks started. -/
structure HallsSt where
  flights  : KMap FlightSt
  landings : KMap Landing
  gens     : KMap (List Lane)
  layers   : KMap PredLayer
  vectors  : KMap (Nat × Nat)
  barriers : List BarrierSt
  tasks    : Nat
  deriving DecidableEq, Repr

/-- Device memory (R13, R254 to R274): its bytes in canonical form (an unlisted byte reads 0, R254), the POISON bit of
each 8-byte word (R257), corrected reads per row since the last clear (R264), retired rows and their spare, spare rows
used per bank (R265), mezzanine rows listed for repair (R266), banks whose spares are exhausted; lanes with the spare that
replaces them, corrected bits of the current second and in total by the lane that carried them, lanes that failed Training, groups reported (R267, R268); the times of
a mezzanine's uncorrectable words of the last second (R270); patrol scrub position per controller (R263); thermal row per mezzanine
package (R273); eyes: width in 1/64 UI and height in 4 mV units as last measured of a lane, and of every lane not listed (R267, R271, R550). -/
structure MemSt where
  cells     : List Host.Cell
  poison    : KMap Bool
  rowCe     : KMap Nat
  retired   : KMap Nat
  spares    : KMap Nat
  repairs   : List Nat
  exhausted : List Nat
  laneCe    : KMap Nat
  laneTotal : KMap Nat
  laneSpare : KMap Nat
  laneFail  : List Nat
  groupsOut : List Nat
  mezzUe    : KMap (List Nat)
  scrubAt   : KMap Nat
  mezzRows  : KMap Nat
  margins   : KMap (Nat × Nat)
  margin    : Nat × Nat
  deriving DecidableEq, Repr

/-- A message that leaves the block. The state keeps them in the order in which they leave. -/
inductive OutMsg where
  /-- the mailbox completes with a CXL return code and no response payload of R52 (R50, R53, R479) -/
  | mbReturn (code : Nat)
  /-- the response of a dictionary access: STATUS, OD_WRITE_SEQ, value (R52, R57) -/
  | od (o : Origin) (status seq : Nat) (value : Bytes)
  /-- the response payload of a CXL mailbox command (R441) -/
  | cxl (opcode : Nat) (payload : Bytes)
  /-- the data of a MemRd, and whether it is marked poisoned (R436, R439) -/
  | memData (dpa : Nat) (data : Bytes) (poison : Bool)
  /-- the completion of a MemWr (R438) -/
  | memDone (dpa : Nat)
  /-- BISnpInv for a line (R437) -/
  | bisnp (line : Nat)
  /-- RspIHitI for a snooped host line (R440) -/
  | snoopRsp (hpa : Nat)
  /-- the outcome of a decoder commit (R434) -/
  | decoder (committed : Bool)
  /-- an MSI-X message (R443) -/
  | msix (vector : Nat)
  /-- Viral signalled (R445) -/
  | viral
  /-- a CXL.cache read or write of host memory (R440) -/
  | hostRead (hpa len : Nat)
  | hostWrite (hpa : Nat) (data : Bytes) (poison : Bool)
  /-- an Arcade frame queued on an arch (R408) -/
  | frame (arch : Nat) (f : Frame)
  /-- a flit sent on an arch (R403), and an arch control message -/
  | flit (arch : Nat) (fl : Flit)
  /-- a message across the Balustrade, by channel: 0 inner to Foyer, 1 Foyer to inner (R470) -/
  | bal (toFoyer : Bool) (typ seq : Nat) (body : Bytes)
  /-- a UDP datagram sent by a field port: port, address, UDP port, payload (R57, R468, R545) -/
  | datagram (port : Nat) (addr : BitVec 128) (udp : Nat) (payload : Bytes)
  /-- an ICMP echo reply (R454) -/
  | icmp (port : Nat) (payload : Bytes)
  /-- a PTP message sent by the slave clock (R472) -/
  | ptp (port : Nat) (msgType : Nat)
  /-- the pulse of the 1PPS output (R476) -/
  | pps
  /-- an SMBus read's data; none where the transaction is discarded or NACKed (R500) -/
  | smbus (data : Option Bytes)
  /-- what a JTAG capture shifts out (R553) -/
  | jtag (device : Nat) (data : Bytes)
  deriving DecidableEq, Repr

end Sys2Proof.Machine
end

