-- ==== Sys2Proof/Machine/StPower.lean ====
section
/-!
DEFINITION. StPower.lean: the state of power and clocks (chapter 21), start-up (chapter 23), tests and boundary scan (chapter 24).
-/

namespace Sys2Proof.Machine

/-- R503: a frequency source: its code, usable, qualified, and the moment since which it has been so. -/
structure FreqSrc where
  code      : Nat
  usable    : Bool
  qualified : Bool
  since     : Nat
  deriving DecidableEq, Repr

/-- Chapter 21: rails are OD 0x2000.14 to 0x17. Hot periods by hall with the moment since which every die sensor has read
below 105 °C; the fast-limit hold; the low-input period; whether the rails are held; work held
back by the cap (0 none, 1 class 2, 2 classes 1 and 2) and since when the cap is unmet; frequency sources; successive
offsets within 100 ns; whether the source has locked since Standby; the large-offset record written; TCXO (0 starting, 1 started,
2 failed); PLL units by number (0 locked, n restarts, 3 failed); the measurement running with its side and count source; 0x2004
owed at the next power-on; the input energy in mJ since entry into Standby. -/
structure PowerSt where
  hot        : KMap (Option Nat)
  fastHold   : Option Nat
  lowInput   : Bool
  railsHeld  : Bool
  capUnmet   : Option Nat
  heldBack   : Nat
  freq       : List FreqSrc
  inLock     : Nat
  everLocked : Bool
  largeLogged : Bool
  tcxo       : Nat
  plls       : KMap Nat
  highOwed   : Bool
  lastSwitch : Nat
  hallPower  : List Nat
  energyMj   : Nat
  deriving DecidableEq, Repr

/-- Power and clocks at entry into Standby from Off. -/
def PowerSt.reset : PowerSt :=
  ⟨[], none, false, false, none, 0, [], 0, false, false, 1, [], false, 0, [], 0⟩

/-- Chapter 23: the switch, MATE_DET, the moment of entry into Training and the rows of R536 that have ended (1 self-test and
arches, 2 memory), whether Training waits for TRAIN_REQUEST, and whether the image has been handed over since power good. -/
structure StartSt where
  closed     : Bool
  mated      : Bool
  trainedAt  : Nat
  selfTested : Bool
  memoryDone : Bool
  waitTrain  : Bool
  running    : Bool
  deriving DecidableEq, Repr

/-- Chapter 24: the running test: its kind (1 loop-back, 2 margin, 3 self-test), the interface and unit or the target, the depth,
and when it started. -/
structure TestRun where
  kind  : Nat
  iface : Nat
  unit_ : Nat
  depth : Nat
  start : Nat
  deriving DecidableEq, Repr

/-- Chapter 24: the running test, the JTAG instruction register, the boundary registers by device (0 management die, 1 to 4
halls): captured, and preloaded. -/
structure TestSt where
  run     : Option TestRun
  ir      : Nat
  preload : KMap Bytes
  driven  : Bool
  floated : Bool
  deriving DecidableEq, Repr

end Sys2Proof.Machine
end

