-- ==== Sys2Proof/Machine/StServe.lean ====
section
/-!
DEFINITION. StServe.lean: the state of serving: stream table records, key/value caches, open steps, jobs, models and loads
(chapters 12 to 16), collectives, row transfers and expert exchanges (chapters 15 and 17).
-/

namespace Sys2Proof.Machine

/-- R340, R341, R346, R359: the cache held for a stream: its tenant, model and draft model, its reserved blocks and those of the draft model's own
cache (each the number of its first 4 KiB in its hall's pool), the token
log (token of each cached position, oldest first), the commit that ended the turn (R345), a park (0) or restore (1) in
progress, and the mezzanine address of a parked copy. -/
structure CacheSt where
  tenant : Nat
  model  : Nat
  draft  : Option Nat
  blocks : List Nat
  dblocks : List Nat
  tokens : List Nat
  paused : Nat
  moving : Option Nat
  parked : Option Nat
  deriving DecidableEq, Repr

/-- What the module keeps of a stream: the current values of its words (R302, R303): W0, the accepted W1 to W7, W10 and W11, and
W8, W9 and W12 to W19 (an unlisted word is 0; of an idle entry, the host's words as they stand in memory); the reserved bits that the host
set in W7, W10 and W11, which memory shows as 0 (R3) and a submission is checked for (R315); the state that it left for WAITING_PAGE (R317); the input positions committed; its ready time (R330); the admitted rate
(results per 1,000 s) and budget (ticks) of a class 0 stream, and whether it runs as class 1 (R338); its cache; the
loss of its draft model (R360); successive poison abandonments without an episode (R526); its input descriptor; the
tokens sampled in the open step by slot (R355) with the slots that drew none, and the candidates (level, rank, token) of
its tree (R351), with the effective depth of that step (R350). -/
structure StreamRec where
  words     : KMap Nat
  raw       : KMap Nat
  was       : Nat
  fed       : Nat
  ready     : Nat
  admitted  : Option (Nat × Nat)
  demoted   : Bool
  cache     : Option CacheSt
  draftLost : Bool
  aborts    : Nat
  input     : Option Nat
  sampled   : List (Nat × Nat)
  tree      : List (Nat × Nat × Nat)
  depth     : Nat
  deriving DecidableEq, Repr

/-- A stream that has never been submitted. -/
def StreamRec.reset : StreamRec := ⟨[], [], 0, 0, 0, none, false, none, false, 0, none, [], [], 0⟩

/-- R335: a batch that waits for its step: hall, model, class, streams, the moment at which its oldest stream was ready. -/
structure Batch where
  hall    : Nat
  model   : Nat
  cls     : Nat
  streams : List Nat
  since   : Nat
  deriving DecidableEq, Repr

/-- An open step of a job (R240): the stream of each slot of its commit map, the streams removed from it (R298, R339), poison
(R525) and whether a poisoned weight block was read, the (stream, block) of each cache block read poisoned (R344), the output descriptors that its release waits for, the bytes that
the deputy must confirm first (R417), and, once every program has arrived, the barrier (bid, use, hall). -/
structure StepSt where
  job     : Nat
  hall    : Nat
  model   : Nat
  slots   : List Nat
  removed : List Nat
  poison  : Bool
  weight  : Bool
  badCache : List (Nat × Nat)
  waits   : List Nat
  mirror  : Option Nat
  closing : Option (Nat × Nat × Option Nat)
  deriving DecidableEq, Repr

/-- R395, R396: a re-placement that waits for the release of a STEP: the slices at their new places, and the pairs of experts (layer, expert,
expert) that change places, and the blocks that go from the cache pool of one hall to that of another (R394). -/
structure Replace where
  slices : List Slice
  swaps  : List (Nat × Nat × Nat)
  pools  : List (Nat × Nat × Nat)
  deriving DecidableEq, Repr

/-- R397, R526: a job that the Planner knows: its model, the times of its restarts, the code of its last stop, the episodes
whose closing it waits for, whether it is abandoned, and the re-placement that waits. -/
structure JobSt where
  job       : Nat
  model     : Nat
  restarts  : List Nat
  code      : Nat
  waiting   : List Nat
  abandoned : Bool
  replacing : Option Replace
  deriving DecidableEq, Repr

/-- R387 to R393: a load or a loaded model: MODEL_STATE and MODEL_CODE, the descriptor's fields, the package, the parts taken,
the T5 bytes taken, the moment of state 4, the epoch and time of its placement, the package, and for each slice by its place in the package the blocks
packed, the 64-byte units that they take, and the bytes kept of a block that the next part completes; whether the table builders have packed the part
in progress, the members that hold a share of the model, each with the bytes sent to it (0x30 frames of R412) once it has one, and those that have
completed step 5 (R390); and, once it is loaded, the cost bound K of its class 0 template on each flight (R336). -/
structure ModelSt where
  state    : Nat
  code     : Nat
  tenant   : Nat
  flags    : Nat
  permille : Nat
  hallMask : Nat
  share    : Nat
  members  : Nat
  home     : Nat
  parts    : Nat
  part     : Nat
  offset   : Nat
  pkgAddr  : Nat
  pkgLen   : Nat
  since    : Nat
  epoch    : Nat
  time     : Nat
  pkg      : Option Package
  work     : KMap (Nat × Nat × Bytes)
  packed   : Bool
  shares   : KMap Nat
  done     : List Nat
  kBounds  : List (Nat × Nat) := []
  deriving DecidableEq, Repr

/-- R411: a SEND or RECV that has not met its partner: the program, its operation, the peer, the tag, the rows and those that
have arrived (as byte ranges: row, offset, length). -/
structure RowMove where
  flight : Nat
  slot   : Nat
  opId   : Nat
  job    : Nat
  tag    : Nat
  peer   : Word64
  unit_  : Nat
  handle : Nat
  row0   : Nat
  rows   : Nat
  got    : List (Nat × Nat × Nat)
  isSend : Bool
  deriving DecidableEq, Repr

/-- R410: a row of a transfer, or a fragment of one, as a frame brought it: its number, the prefix that an exchange row carries (R373, R378), the
offset in the row, the bytes, whether they are a whole row, poison, and the bytes of a whole row as its descriptor has them (0 where it does not say). -/
structure Piece where
  row    : Nat
  pre    : Bytes
  off    : Nat
  data   : Bytes
  whole  : Bool
  poison : Bool
  len    : Nat
  deriving DecidableEq, Repr

/-- R421: a participant of a collective in this module: its rank, its flight, slot and operation, its DST handle, its rows with their poison, and the
LSB_EXP of its SRC. -/
structure CollPart where
  rank   : Nat
  flight : Nat
  slot   : Nat
  opId   : Nat
  handle : Nat
  rows   : List (Bytes × Bool)
  lsb    : Int
  deriving DecidableEq, Repr

/-- R421 to R424: a collective of a job in this module: gallery, instance, kind, members, rows of each SRC and their form (FMT, channels, outlier records,
bytes); the participants of this module; by module the exponent that it announced and the pieces of rows that it sent; and how far it is: 0 gathers its
own participants, 1 has sent their rows, 2 has sent the sums of an ALL_REDUCE. -/
structure CollSt where
  job      : Nat
  gallery  : Word64
  count    : Nat
  kind     : Nat
  members  : Nat
  rows     : Nat
  fmt      : Nat
  channels : Nat
  outl     : Bool
  len      : Nat
  parts    : List CollPart
  exps     : List (Word64 × Int)
  pieces   : List (Word64 × Piece)
  stage    : Nat
  deriving DecidableEq, Repr

/-- R370 to R379: an exchange of a layer of a job in this module: the program that issued its outbound dispatch and the handle of the record, once it
has; the manifests by source (ROWS, then 16 counts) and the rows that arrived (by source); the pairs
(member, slot, token row) that this module sent, in return order; the members whose return manifest arrived, the rows that they returned, and those
that are placed; whether the sections are complete, the slots whose expert programs have started on them, and whether the return dispatch has run. -/
structure ExchSt where
  job      : Nat
  layer    : Nat
  fk       : Nat
  slot     : Nat
  record   : Option Nat
  manifest : KMap (List Nat)
  rows     : List (Nat × Piece)
  sent     : List (Nat × Nat × Nat)
  retMan   : List Nat
  ret      : List (Nat × Piece)
  placed   : List Nat
  written  : Bool
  started  : List Nat
  returned : Bool
  deriving DecidableEq, Repr

/-- Chapters 12 to 16 and the operations of the Arcade in flight. `pools`: blocks and free blocks by hall;
`clog`: completion records that wait for space (tenant, record without
PHASE); `coalesce`: open intervals by vector, with whether a record was written during it (R325); `shareSteps`: P-flight steps of
class 2 work by hall in the current window (R332); `early`: frames that wait for their RECV, collective or dispatch; `collCount`: collectives that a
program (flight key × 4 + slot) × 16 + group has issued (R421); `expertLoad`: rows received by (model × 65,536 + layer) × 256 + expert;
`expertProgs`: programs registered for an expert (flight key × 4 + slot) as layer × 16 + slot of the member; `skipped`: those of them that do not
start in their job's open step (R376). -/
structure ServeSt where
  streams     : KMap StreamRec
  caches      : KMap (List Nat)
  clog        : List (Nat × Bytes)
  coalesce    : KMap (Nat × Bool)
  pools       : KMap (Nat × Nat)
  batches     : List Batch
  steps       : List StepSt
  jobs        : List JobSt
  models      : KMap ModelSt
  shareSteps  : KMap Nat
  moves       : List RowMove
  early       : List Frame
  colls       : List CollSt
  collCount   : KMap Nat
  exchanges   : List ExchSt
  expertLoad  : KMap Nat
  expertProgs : KMap Nat
  skipped     : List Nat
  deriving DecidableEq, Repr

/-- Nothing served. -/
def ServeSt.reset : ServeSt :=
  { streams := [], caches := [], clog := [], coalesce := [], pools := [], batches := [], steps := [], jobs := [], models := [],
    shareSteps := [], moves := [], early := [], colls := [], collCount := [], exchanges := [], expertLoad := [],
    expertProgs := [], skipped := [] }

end Sys2Proof.Machine
end

