-- ==== Sys2Proof/Machine/StXlate.lean ====
section
/-!
DEFINITION. StXlate.lean: the state of translation, page requests and Movers (chapter 11).
-/

namespace Sys2Proof.Machine

/-- R281: a cached translation: hall, tenant, first virtual address, size of the page, leaf entry. -/
structure XEntry where
  hall   : Nat
  tenant : Nat
  base   : Nat
  size   : Nat
  pte    : Nat
  deriving DecidableEq, Repr

/-- R386: a mapping that the Planner keeps in a tenant's address space for a model's region. -/
structure ModelMap where
  model  : Nat
  tenant : Nat
  base   : Nat
  size   : Nat
  device : Nat
  deriving DecidableEq, Repr

/-- R292, R293: an outstanding page request: its record index once logged, the descriptors that wait, the time of the fault,
whether the access was a write, its first stream, its number since entry into Standby (R294). -/
structure PageReq where
  tenant  : Nat
  page    : Nat
  rec_    : Option Nat
  waiters : List Nat
  time    : Nat
  write   : Bool
  stream  : Nat
  num     : Nat
  deriving DecidableEq, Repr

/-- R286, R287: the states of a descriptor. -/
inductive DescState where
  | queued | running | yielded | waitingPage | done | faulted | abandoned
  deriving DecidableEq, Repr

/-- What a descriptor's end means for the rest of the module. -/
inductive DescUse where
  | input | output | plan | repair | prog
  deriving DecidableEq, Repr

/-- R286: a Mover descriptor, the hall whose Movers take it, its place in the order of queueing, and its use; the bytes whose accesses have been made (R288). Of a
FETCH or STORE also its program (flight key × 4 + slot), its operation, the task whose units a landing read defines (R217), whether its area carries SHARED
(R283). -/
structure Desc where
  id        : Nat
  hall      : Nat
  src       : Nat
  dst       : Nat
  len       : Nat
  srcSpace  : Nat
  dstSpace  : Nat
  tenant    : Nat
  cls       : Nat
  stream    : Nat
  origin    : Nat
  confirmed : Nat
  faultAddr : Nat
  status    : Nat
  state     : DescState
  job       : Nat
  use       : DescUse
  sent      : Nat := 0
  prog      : Nat := 0
  op        : Nat := 0
  since     : Nat := 0
  shared    : Bool := false
  deriving DecidableEq, Repr

/-- Chapter 11: cached translations (R281), the Planner's mappings (R386), page requests and their number since entry into Standby (R292, R294), descriptors, and
descriptors' bytes that have just been written and are not yet confirmed (R289). -/
structure XlateSt where
  cache    : List XEntry
  maps     : List ModelMap
  requests : List PageReq
  nextReq  : Nat
  descs    : List Desc
  nextDesc : Nat
  landed   : List (Nat × Nat)
  deriving DecidableEq, Repr

end Sys2Proof.Machine
end

