-- ==== Sys2Proof/Machine/State.lean ====
section
/-!
DEFINITION. State.lean: the whole state of the block as plain data, the reasons for which a command can stop,
and the state after reset.
-/

namespace Sys2Proof.Machine

/-- Why a command stops the machine with a fault. -/
inductive Fault where
  /-- Raised by no command today: kept so that the interface has a fault to name. Safe: it never occurs. -/
  | internal
  deriving DecidableEq, Repr

/-- Why a command has no meaning. -/
inductive Refusal where
  /-- Raised by an arm of exec whose command is not modelled yet. Safe: the machine stops. -/
  | notModelled (mnemonic : String)
  /-- Raised by a command that names a part the module does not have (hall 4, arch 12, field port 3, a flight
  beyond the 80): the command cannot exist, and the spec gives it no effect. Safe: the machine stops. -/
  | noSuchUnit
  deriving DecidableEq, Repr

/-- The state of the block. `pending` is the queue of waiting commands, first in, first out. `epoch` is Newel's Epoch
Counter (R5). `mode` is the module state, and `trans` the state to which an accepted transition leads (R62, R63). `free` is
the model's own counter for free values (DESIGN CHOICE, log entry 6), and `out` the messages that have left, oldest first (DESIGN CHOICE, log entry 7). -/
structure State where
  pending : List Instr
  epoch   : Nat
  mode    : ModState
  trans   : Option ModState
  free    : Nat
  out     : List OutMsg
  od      : OdSt
  eop     : EopSt
  log     : LogSt
  newel   : NewelSt
  cxl     : CxlSt
  halls   : HallsSt
  mem     : MemSt
  xlate   : XlateSt
  serve   : ServeSt
  arcade  : ArcadeSt
  foyer   : FoyerSt
  power   : PowerSt
  start   : StartSt
  test    : TestSt
  deriving DecidableEq, Repr

/-- Chapter 2 at entry into Standby: every entry at its default (R39), nothing stored, nothing open. -/
def OdSt.reset : OdSt :=
  { vals := [], doms := [], roleVals := [], roleDoms := [], stored := [], storedDom := [], transfers := [], stateWait := none,
    proxies := [], nextProxy := 0, ready := [] }

/-- R61: no key has accepted a sequence above its stored H plus 4,096. An unlisted H is 4,096, an unlisted stored H 0. -/
def EopSt.reset : EopSt := ⟨[], [], [], []⟩

/-- R484: nothing logged; the first record takes SEQ 1 (DESIGN CHOICE, log entry 10). -/
def LogSt.reset : LogSt := ⟨[], 1, [], [], [], []⟩

/-- Newel after the first power-on of a factory-new module (log entries 2 and 10): one verified image in the slot, running. -/
def NewelSt.reset : NewelSt :=
  { restarting := false, eventQueue := [], nextEpisode := 1, episodes := [], bootCount := 1, security := 0,
    slot := some ⟨Config.fwVersion.toNat, 0, 0⟩, staged := none, running := ⟨Config.fwVersion.toNat, 0, 0⟩, recovery := false,
    fwActivated := false, sensors := [], svcCounted := false, svcEdges := [], svcChatter := false, svcHeldStop := false,
    svcTimerFrom := none, tripped := false, tripSensors := [], straps := 0, rates := [] }

/-- Chapter 18 in Standby: no link, every MSI-X vector masked (PRESUMED, log entry 12), empty event logs. -/
def CxlSt.reset : CxlSt :=
  { linkUp := false, pcieOnly := false, infoValid := false, d3hot := false, viral := false, perstHigh := false, filter := [],
    waiting := [], snooped := none, masked := List.range 64, funcMask := false, pendBits := [], evInfo := [], evWarn := [],
    evFail := [], evFatal := [], overflow := [], policy := zeros 4, hostTime := 0, rate := 0, width := 0 }

/-- The halls before they are powered: nothing loaded, nothing written (DESIGN CHOICE, log entry 4). -/
def HallsSt.reset : HallsSt :=
  { flights := [], landings := [], gens := [], layers := [], vectors := [], barriers := [], tasks := 0 }

/-- R254: memory lists nothing. -/
def MemSt.reset : MemSt :=
  { cells := [], poison := [], rowCe := [], retired := [], spares := [], repairs := [], exhausted := [], laneCe := [],
    laneTotal := [], laneSpare := [], laneFail := [], groupsOut := [], mezzUe := [], scrubAt := [], mezzRows := [],
    margins := [], margin := (0, 0) }

/-- No translation, no descriptor, no page request. -/
def XlateSt.reset : XlateSt := ⟨[], [], [], 0, [], 0, []⟩

/-- Chapter 23: the switch is closed and the connector mated; START_MODE may train at once after this power-on (R535). -/
def StartSt.reset : StartSt :=
  { closed := true, mated := true, trainedAt := 0, selfTested := false, memoryDone := false, waitTrain := false, running := true }

/-- Chapter 24: no test, IDCODE loaded (R553), nothing preloaded. -/
def TestSt.reset : TestSt := ⟨none, 1, [], false, false⟩

/-- The machine right after reset: Standby after the first power-on of a factory-new module (R534, log entry 2). -/
def State.reset : State :=
  { pending := [], epoch := 0, mode := .standby, trans := none, free := 0, out := [], od := OdSt.reset, eop := EopSt.reset,
    log := LogSt.reset, newel := NewelSt.reset, cxl := CxlSt.reset, halls := HallsSt.reset, mem := MemSt.reset,
    xlate := XlateSt.reset, serve := ServeSt.reset, arcade := ArcadeSt.reset, foyer := FoyerSt.reset, power := PowerSt.reset,
    start := StartSt.reset, test := TestSt.reset }

end Sys2Proof.Machine
end

