-- ==== Sys2Proof/Machine/Ops.lean ====
section
/-!
DEFINITION. Ops.lean: the operations that every family shares: dictionary values and counters, messages that leave,
MSI-X (R443), log records (R484 to R487).
-/

namespace Sys2Proof.Machine

/-- Every meaning ends in a next state, but for the refusals its docstring names. -/
abbrev Result := Host.Outcome State Fault Refusal

/-! ### Dictionary values (R27, R39) -/

/-- The row of an entry (index × 256 + subindex). -/
def odRow (k : Nat) : Option OdRow :=
  ((odIndexes.find? (fun p => p.1 == k / 256)).map (·.2)).bind (fun rows => rows.find? (fun r => r.sub == k % 256))

/-- The default of a scalar entry. -/
def odDefault (k : Nat) : Nat := ((odRow k).map (·.dflt)).getD 0

/-- The modulus of an entry's type. -/
def odModulus (k : Nat) : Nat := 2 ^ (8 * (((odRow k).bind (fun r => r.ty.size)).getD 8))

/-- The value held for a scalar entry. -/
def State.odGet (s : State) (k : Nat) : Nat := kget (odDefault k) k s.od.vals

/-- Set the value held for a scalar entry. -/
def State.odPut (s : State) (k v : Nat) : State :=
  { s with od := { s.od with vals := kset (odDefault k) k v s.od.vals } }

/-- Count: a counter wraps at the width of its type. -/
def State.count (s : State) (k n : Nat) : State := s.odPut k ((s.odGet k + n) % odModulus k)

/-- Count on a list of counters. -/
def State.counts (s : State) (l : List (Nat × Nat)) : State := l.foldl (fun s p => s.count p.1 p.2) s

/-- The value held for a DOMAIN entry, with its default. -/
def State.domGet (s : State) (k : Nat) (d : Bytes) : Bytes := (kfind k s.od.doms).getD d

/-- Set a DOMAIN entry. -/
def State.domPut (s : State) (k : Nat) (v : Bytes) : State :=
  { s with od := { s.od with doms := kput k v s.od.doms } }

/-- R33: a role's number in the keys of its own copies. -/
def Role.num : Role → Nat
  | .host => 0 | .field => 1 | .manager => 2 | .newel => 3

/-- The role's own copy of a "per role" entry. -/
def State.roleGet (s : State) (r : Role) (k : Nat) : Nat := kget (odDefault k) (r.num * 16777216 + k) s.od.roleVals

/-- Set the role's own copy. -/
def State.rolePut (s : State) (r : Role) (k v : Nat) : State :=
  { s with od := { s.od with roleVals := kset (odDefault k) (r.num * 16777216 + k) v s.od.roleVals } }

/-! ### What leaves the block -/

/-- A message leaves. -/
def State.emit (s : State) (m : OutMsg) : State := { s with out := s.out ++ [m] }

/-- Messages leave in order. -/
def State.emits (s : State) (ms : List OutMsg) : State := { s with out := s.out ++ ms }

/-- A command that took free values advances the counter. -/
def State.tick (s : State) : State := { s with free := s.free + 1 }

/-- R530: the causes of a Safe Stop that takes the power of H0's periphery too: THERMTRIP_N and R516. -/
def darkCause (cause : Nat) : Bool := cause == 0x2008 || cause == 0x2003

/-- R545, R547: a loop-back test runs on a unit of an interface, which carries nothing else for its duration. -/
def State.testing (s : State) (iface u : Nat) : Bool := s.test.run.any (fun r => r.kind == 1 && r.iface == iface && r.unit_ == u)

/-- R530, R533, R542, R562: the CXL port is powered and out of reset. -/
def State.portLive (s : State) : Bool :=
  s.cxl.perstHigh && kget 0 44 s.power.plls != 3 &&
  (match s.mode with | .off => false | .standby => s.newel.recovery | .safeStop => !darkCause (s.odGet Od.safeStopCause) | _ => true)

/-- R446: the port without a link: the snoop filter is clear, and nothing waits for a BIRsp. -/
def CxlSt.unlinked (c : CxlSt) : CxlSt :=
  { c with linkUp := false, pcieOnly := false, infoValid := false, d3hot := false, filter := [], snooped := none, rate := 0, width := 0,
           masked := List.range 64, funcMask := false, pendBits := [] }

/-- R434: decoder 0 is uncommitted. -/
def State.uncommit (s : State) : State := ((s.odPut Od.hdmCommitted 0).odPut Od.hdmHpaBase 0).odPut Od.hdmSize 0

/-- R443: a source signals a vector. A masked vector, the function mask or D3hot sets its pending bit instead; with the
link down no message leaves. -/
def State.signal (s : State) (v : Nat) : State :=
  if s.cxl.linkUp = false then s
  else if s.cxl.d3hot || s.cxl.funcMask || s.cxl.masked.contains v then
    { s with cxl := { s.cxl with pendBits := if s.cxl.pendBits.contains v then s.cxl.pendBits else s.cxl.pendBits ++ [v] } }
  else s.emit (.msix v)

/-! ### Codes and classes (R519, R520) -/

/-- R520: the Notices. -/
def noticeCodes : List Nat := [0x1210, 0x1212, 0x2011, 0x2013, 0x2022, 0x2111, 0x4310, 0x5002]

/-- R520: the Faults. -/
def faultCodes : List Nat :=
  [0x1220, 0x2010, 0x2015, 0x2016, 0x2021, 0x3005, 0x3010, 0x3011, 0x3040, 0x3063, 0x3075, 0x4030, 0x4031, 0x4040,
   0x5010, 0x5012, 0x5020, 0x6111, 0x7105]

/-- R520: the Fatal codes. -/
def fatalCodes : List Nat := [0x1301, 0x1302, 0x2003, 0x2004, 0x2008, 0x2018]

/-- R484, R520: the severity of a logged code: 0 Informational, 1 Warning, 2 Failure, 3 Fatal. -/
def severityOf (c : Nat) : Nat :=
  if noticeCodes.contains c then 0 else if faultCodes.contains c then 2 else if fatalCodes.contains c then 3 else 1

/-! ### The log (R484 to R487) -/

/-- Which log of the CXL event logs a record of a severity enters (R444), with room for 64. -/
def CxlSt.addEvent (c : CxlSt) (r : LogRec) : CxlSt :=
  let full := fun (l : List LogRec) => decide (64 ≤ l.length)
  let ovf := fun (n : Nat) (l : List LogRec) => if full l && !(c.overflow.contains n) then c.overflow ++ [n] else c.overflow
  match r.severity with
  | 0 => { c with evInfo := keepLast 64 (c.evInfo ++ [r]), overflow := ovf 0 c.evInfo }
  | 1 => { c with evWarn := keepLast 64 (c.evWarn ++ [r]), overflow := ovf 1 c.evWarn }
  | 2 => { c with evFail := keepLast 64 (c.evFail ++ [r]), overflow := ovf 2 c.evFail }
  | _ => { c with evFatal := keepLast 64 (c.evFatal ++ [r]), overflow := ovf 3 c.evFatal }

/-- R441, R443, R444: a record enters its event log; where the interrupt policy of that log asks for it, the first record of an empty log signals vector 0
(PRESUMED, log entry 30). -/
def State.addEvent (s : State) (r : LogRec) : State :=
  let n := min 3 r.severity
  let empty := (match n with | 0 => s.cxl.evInfo | 1 => s.cxl.evWarn | 2 => s.cxl.evFail | _ => s.cxl.evFatal).isEmpty
  let s : State := { s with cxl := s.cxl.addEvent r }
  if empty && decide ((s.cxl.policy.getD n 0#8).toNat % 4 = 1) then s.signal 0 else s

/-- R484, R487: a record enters the ring, takes the next sequence number, and at Failure and above waits for the flash. -/
def State.ringPut (s : State) (r : LogRec) : State :=
  { s with log := { s.log with
      ring := keepLast 4096 (s.log.ring ++ [r]), next := (s.log.next + 1) % 2 ^ 32,
      toFlash := if 2 ≤ r.severity then s.log.toFlash ++ [r] else s.log.toFlash } }

/-- R486, R441, R444: a record enters the error record buffer, which signals its vector, and the CXL event logs; when the buffer is full, it is counted
in OD 0x1300.05. -/
def State.bufferPut (s : State) (r : LogRec) : State :=
  if s.log.buffer.length < 64 then
    (({ s with log := { s.log with buffer := s.log.buffer ++ [r] } } : State).signal (s.odGet Od.errorVector)).addEvent r
  else s.count Od.recordOverflow 1

/-- R484 to R487, R444: write one record: into the ring; at Warning and above into OD 0x1300.02 and 0x1300.03 and the error record buffer. `extra` adds FLAGS bits. -/
def State.record (s : State) (ev : LogEv) (extra count time episode episodeSeq : Nat) : State :=
  let sev := severityOf ev.code
  let r : LogRec :=
    { seq := s.log.next, code := ev.code, severity := sev, flags := extra + (if 1 ≤ sev then 1 else 0) + (if ev.scrub then 2 else 0), time := time,
      episode := episode, episodeSeq := episodeSeq, hall := ev.hall, unit := ev.unit, stream := ev.stream,
      address := ev.address, count := count, model := ev.model, boot := s.newel.bootCount % 65536, job := ev.job,
      detail := padTo 20 ev.detail }
  let s := s.ringPut r
  if sev = 0 then s else ((s.odPut Od.lastError ev.code).odPut Od.lastErrorTime time).bufferPut r

/-- An event as it reaches Newel's log. While the processor pair restarts (R479), it waits in the 64-entry queue, and any
excess is counted in OD 0x1300.05. -/
def State.logEv (s : State) (ev : LogEv) (extra : Nat := 0) : State :=
  if s.newel.restarting then
    if s.newel.eventQueue.length < 64 then
      { s with newel := { s.newel with eventQueue := s.newel.eventQueue ++ [⟨ev, none, 0, s.epoch⟩] } }
    else s.count Od.recordOverflow 1
  else s.record ev extra 1 s.epoch 0 0

/-- One second, one millisecond and one microsecond in Epoch Counter ticks (R5). -/
abbrev oneSec : Nat := 1000000000
abbrev oneMs : Nat := 1000000
abbrev oneUs : Nat := 1000

/-- R485: a code logged at most once per interval for each subject: the first event writes a record and opens an interval;
later events within it are counted. -/
def State.logLimited (s : State) (ev : LogEv) (subject interval : Nat) : State :=
  match s.log.intervals.find? (fun i => i.code == ev.code && i.subject == subject) with
  | some _ =>
    let l := modFirst (fun i => i.code == ev.code && i.subject == subject)
      (fun i => { i with count := i.count + 1, first := if i.count = 0 then s.epoch else i.first,
                         ev := if i.count = 0 then ev else i.ev }) s.log.intervals
    { s with log := { s.log with intervals := l } }
  | none =>
    let s := s.logEv ev
    { s with log := { s.log with intervals := s.log.intervals ++ [⟨ev.code, subject, s.epoch, interval, 0, s.epoch, ev⟩] } }

/-- R485: the end of an interval of a code and subject. -/
def State.logIntervalOver (s : State) (code subject : Nat) : State :=
  match s.log.intervals.find? (fun i => i.code == code && i.subject == subject) with
  | none => s
  | some i =>
    let rest := dropFirst (fun i => i.code == code && i.subject == subject) s.log.intervals
    if i.count = 0 then { s with log := { s.log with intervals := rest } }
    else
      let s := { s with log := { s.log with intervals := rest ++ [{ i with opened := s.epoch, count := 0 }] } }
      s.record i.ev 4 i.count i.first 0 0

/-- R484: the 64 bytes of a record. -/
def LogRec.bytes (r : LogRec) : Bytes :=
  leBytes 4 r.seq ++ leBytes 2 r.code ++ leBytes 1 r.severity ++ leBytes 1 r.flags ++ leBytes 8 r.time ++
  leBytes 2 r.episode ++ leBytes 2 r.episodeSeq ++ leBytes 1 r.hall ++ leBytes 1 r.unit ++ leBytes 2 r.stream ++
  leBytes 8 r.address ++ leBytes 4 r.count ++ leBytes 2 r.model ++ leBytes 2 r.boot ++ leBytes 4 r.job ++ padTo 20 r.detail

end Sys2Proof.Machine
end

