-- ==== Sys2Proof/Machine/ArcadeOps.lean ====
section
/-!
DEFINITION. ArcadeOps.lean: gallery paths (R20, R21), routing (R418 to R420), frames and the flits they travel in (R403, R408).
-/

namespace Sys2Proof.Machine

/-- R20: a path of all 0xFF. -/
abbrev noPath : Word64 := 0xFFFFFFFFFFFFFFFF#64

/-- R20: hop j of a path. -/
def hop (p : Word64) (j : Nat) : Nat := bits p.toNat (8 * j + 7) (8 * j)

/-- R20: a path with hop j replaced. -/
def setHop (p : Word64) (j v : Nat) : Word64 := BitVec.ofNat 64 (setBits p.toNat (8 * j + 7) (8 * j) v)

/-- R46: the path shifted down by one hop. -/
def pathDown (p : Word64) : Word64 := BitVec.ofNat 64 (p.toNat / 256 + 0xFF * 2 ^ 56)

/-- R416: paths compared hop by hop from HOP0. -/
def pathLt (a b : Word64) : Bool := decide (beNat (leBytes 8 a.toNat) < beNat (leBytes 8 b.toNat))

/-- The level of the top gallery; 2 for a standalone module (OD 0x5100.04). -/
def State.depth (s : State) : Nat := s.odGet Od.depthConfig

/-- OD 0x5100.03: this module's path from the top gallery. -/
def State.ownPath (s : State) : Word64 := if s.depth ≤ 2 then noPath else BitVec.ofNat 64 (s.odGet Od.pathConfig)

/-- The index of a path at a gallery level. -/
def State.levelIndex (s : State) (p : Word64) (l : Nat) : Nat := hop p (s.depth - l)

/-- Two paths lie in one gallery of a level. -/
def State.sameGallery (s : State) (l : Nat) (a b : Word64) : Bool :=
  (List.range (s.depth - l)).all (fun j => hop a j == hop b j)

/-- The known members of this module's gallery at a level, itself included: one path for each index of that level. -/
def State.galleryPaths (s : State) (l : Nat) : List Word64 :=
  (s.ownPath :: s.arcade.members).filter (fun p => s.sameGallery l p s.ownPath)

/-- R418: the members that a gallery may have: 8 under standard wiring, 64 with a table as written. -/
def State.galleryMax (s : State) : Nat := if s.odGet Od.routeCustom ≠ 0 then 64 else 8

/-- R14: the members of this module's gallery at a level, and the modules in it. The tray has the members that discovery shows, up to the largest index
known; a gallery above it those of the installation. A gallery has at least 2 members, and the whole hierarchy at most 32,768 modules. -/
def State.galleryShape (s : State) : Nat → Nat × Nat
  | 0 => (1, 1)
  | l + 1 =>
    if l < 2 then (1, 1)
    else
      let n := (s.galleryShape l).2
      let known := ((s.galleryPaths (l + 1)).map (fun p => s.levelIndex p (l + 1))).foldl max 0 + 1
      let want := if l = 2 then known else max known (Config.galleryMembers (l + 1))
      let m := max 2 (min (min s.galleryMax want) (32768 / (n * 2 ^ (s.depth - (l + 1)))))
      (m, n * m)

/-- R14, R418: M_L, the members of this module's gallery at a level. -/
def State.gallerySize (s : State) (l : Nat) : Nat := (s.galleryShape l).1

/-- R14, R20: a value is the path of a module of this hierarchy: a member index at each level from the top to 3, and 0xFF below. -/
def State.isModulePath (s : State) (p : Word64) : Bool :=
  (List.range 8).all (fun j => if j < s.depth - 2 then decide (hop p j < (if j + 3 = s.depth then 64 else s.gallerySize (s.depth - j))) else hop p j == 0xFF)

/-- R14, R21: a value spells a gallery path: member indices below 64, the first 0xFF ends it, and every hop above is 0xFF. -/
def isGalleryPath (p : Word64) : Bool :=
  (List.range 8).all (fun j => hop p j == 0xFF || (decide (hop p j < 64) && (List.range j).all (fun i => hop p i != 0xFF)))

/-- An arch by number. -/
def State.arch (s : State) (n : Nat) : ArchSt := kget ArchSt.reset n s.arcade.arches

/-- Set an arch. -/
def State.setArch (s : State) (n : Nat) (a : ArchSt) : State :=
  { s with arcade := { s.arcade with arches := kset ArchSt.reset n a s.arcade.arches } }

/-- OD 0x5000.01: the arch carries frames: trained or narrowed. -/
def ArchSt.up (a : ArchSt) : Bool := a.state == 3 || a.state == 4

/-- R401: a retrain keeps the frames queued on an arch; the arch is not down. -/
def ArchSt.carries (a : ArchSt) : Bool := a.up || (a.state == 1 && a.retraining)

/-- R419: the standard wiring of level 3: the arch to tray member j. -/
def trayArch (i j : Nat) : Nat := (j + 8 - i - 1) % 8

/-- R419: PRIMARY and ALTERNATE for a level and member index. -/
def State.route (s : State) (l d : Nat) : Nat × Nat :=
  if s.odGet Od.routeCustom ≠ 0 then
    let t := s.domGet Od.routeTable (List.replicate 768 0xFF#8)
    (leField t (128 * (l - 3) + 2 * d) 1, leField t (128 * (l - 3) + 2 * d + 1) 1)
  else
    let i := s.levelIndex s.ownPath 3
    if l = 3 then
      let a := if (d + 1) % 8 = i then (d + 2) % 8 else (d + 1) % 8
      (trayArch i d, trayArch i a)
    else
      let m := s.gallerySize l
      let x := s.levelIndex s.ownPath l
      let o := (d + m - x) % m
      if o = 0 then (0xFF, 0xFF)
      else
        let q := 7 * (l - 4) + o - 1
        if q % 8 = i then (7 + q / 8, 0xFF) else (trayArch i (q % 8), 0xFF)

/-- The first level at which two paths differ. -/
def State.splitLevel (s : State) (p : Word64) : Option Nat :=
  ((List.range (s.depth - 2)).find? (fun j => hop p j ≠ hop s.ownPath j)).map (fun j => s.depth - j)

/-- R420: the arch on which a frame for a path leaves: the first hop that differs sets the level. -/
def State.routeArch (s : State) (dest : Word64) : Option Nat :=
  match (List.range (s.depth - 2)).find? (fun j => hop dest j ≠ hop s.ownPath j) with
  | none => none
  | some j =>
    let (p, a) := s.route (s.depth - j) (hop dest j)
    if p < 12 && (s.arch p).carries then some p
    else if a < 12 && (s.arch a).carries then some a else none

/-- R21: a path lies in the gallery that a gallery path names. -/
def inGallery (g p : Word64) : Bool := (List.range 8).all (fun j => hop g j == 0xFF || hop g j == hop p j)

/-- The indices in this module's gallery at a level: in the tray those that discovery shows, above it all. -/
def State.levelIndices (s : State) (l : Nat) : List Nat :=
  if l ≤ 3 then ((s.galleryPaths l).map (fun p => s.levelIndex p l)).dedup else List.range (s.gallerySize l)

/-- R14, R418: the modules of the hierarchy that lie in the gallery a path names, below a path of which k levels are still open, from the lowest path. Another
tray is full (R418) or, with a table as written, takes every index. -/
def State.modulesUnder (s : State) (g : Word64) : Nat → Word64 → List Word64
  | 0, p => [p]
  | k + 1, p =>
    let l := k + 3
    let j := s.depth - l
    let own := s.sameGallery l p s.ownPath
    let is := if own then s.levelIndices l else List.range (if l = 3 then s.galleryMax else s.gallerySize l)
    (is.filter (fun x => hop g j == 0xFF || hop g j == x)).flatMap (fun x => s.modulesUnder g k (setHop p j x))

/-- R421: the modules of a gallery, ordered hop by hop. -/
def State.galleryModules (s : State) (g : Word64) : List Word64 :=
  if s.depth ≤ 2 then [s.ownPath]
  else ((s.ownPath :: s.modulesUnder g (s.depth - 2) noPath).dedup).mergeSort (fun a b => !pathLt b a)

/-- R368, R371: the members of this module's tray; a standalone module is its own only member. -/
def State.memberCount (s : State) : Nat := if s.depth ≤ 2 then 1 else s.gallerySize 3

/-- R368: this module's member index. -/
def State.ownMember (s : State) : Nat := if s.depth ≤ 2 then 0 else s.levelIndex s.ownPath 3

/-- R368, R390: this module holds a slice: in a tray, the member that the plan names. -/
def State.holds (s : State) (sl : Slice) : Bool := decide (s.depth ≤ 2) || sl.member == s.ownMember

/-- R368: the path of a member. -/
def State.memberPath (s : State) (m : Nat) : Word64 := if s.depth ≤ 2 then s.ownPath else setHop s.ownPath (s.depth - 3) m

/-- The member that a path is. -/
def State.memberOf (s : State) (p : Word64) : Nat := if s.depth ≤ 2 then 0 else s.levelIndex p 3

/-- R409: the channel of a frame type; none for an unknown type. -/
def frameVc (t : Nat) : Option Nat :=
  if (1 ≤ t ∧ t ≤ 8) ∨ t = 0x31 then some 0
  else if t = 0x10 ∨ t = 0x11 then some 1
  else if 0x20 ≤ t ∧ t ≤ 0x23 then some 2
  else if t = 0x30 then some 3 else none

/-- R408: a frame's bytes. -/
def frameBytes (f : Frame) : Bytes :=
  leBytes 8 f.dest.toNat ++ leBytes 8 f.src.toNat ++ leBytes 1 f.ftype ++ leBytes 1 f.flags ++ leBytes 1 f.destUnit ++
  leBytes 1 f.hops ++ leBytes 4 f.job ++ leBytes 2 f.tag ++ leBytes 2 f.payload.length ++ leBytes 4 f.index ++ f.payload

/-- R408: the frame that bytes spell, received on an arch and channel; none where they are too short or LENGTH differs. -/
def frameOf (arch vc : Nat) (b : Bytes) : Option Frame :=
  if b.length < 32 ∨ leField b 26 2 + 32 ≠ b.length then none
  else some
    { arch := arch, vc := vc, dest := BitVec.ofNat 64 (leField b 0 8), src := BitVec.ofNat 64 (leField b 8 8),
      ftype := leField b 16 1, flags := leField b 17 1, destUnit := leField b 18 1, hops := leField b 19 1,
      job := leField b 20 4, tag := leField b 24 2, index := leField b 28 4, payload := b.drop 32 }

/-- R403: the flits of a frame's bytes, before SEQ, ACK and credits are filled in. -/
def flitsOf : Nat → Nat → Bool → Bytes → List Flit
  | 0, _, _, _ => []
  | fuel + 1, vc, first, b =>
    let rest := b.drop 240
    ⟨1, first, rest.isEmpty, vc, 0, 0, 0, 0, b.take 240, true⟩ :: (if rest.isEmpty then [] else flitsOf fuel vc false rest)

/-- R420, R408: queue a frame on an arch; one of another module occupies the buffers of its class. -/
def State.queueFrame (s : State) (n : Nat) (f : Frame) : State :=
  match frameVc f.ftype with
  | none => s
  | some vc =>
    let b := frameBytes f
    let a := s.arch n
    let cls := if f.src = s.ownPath then 0 else (s.splitLevel f.dest).getD 0
    let q := kget [] vc a.queues ++ (flitsOf (b.length / 240 + 1) vc true b).map (fun fl => ⟨fl, f.job, cls⟩)
    (s.setArch n { a with queues := kset [] vc q a.queues }).emit (.frame n { f with arch := n, vc := vc })

/-- R420: send a frame to another module: on the arch of its route, or discarded and logged. -/
def State.sendFrame (s : State) (f : Frame) : State :=
  match s.routeArch f.dest with
  | some n => s.queueFrame n f
  | none => (s.count Od.unroutableDrops 1).logEv { code := 0x5011, job := f.job }

/-- A frame from this module. -/
def State.mkFrame (s : State) (dest : Word64) (ftype flags destUnit job tag index : Nat) (payload : Bytes) : Frame :=
  ⟨0, (frameVc ftype).getD 0, dest, s.ownPath, ftype, flags, destUnit, 0, job, tag, index, payload⟩

/-- R420: the frame's destination is this module. -/
def State.mine (s : State) (dest : Word64) : Bool := dest == s.ownPath

/-- R416: this module manages its level-3 gallery. -/
def State.isManager (s : State) : Bool := decide (2 < s.depth) && s.arcade.manager == some s.ownPath

/-- OD 0x5100.02, R396: this module is a worker of its tray. -/
def State.trayWorker (s : State) : Bool := decide (2 < s.depth) && s.arcade.manager.isSome && !s.isManager

/-- R16, R416: the highest gallery level up to which this module manages every gallery on its path; 2 for none. -/
def State.managedLevel (s : State) : Nat :=
  if !s.isManager then 2
  else (List.range (s.depth - 3)).foldl (fun m k => if m = k + 3 && kfind (k + 4) s.arcade.managers == some s.ownPath then k + 4 else m) 3

/-- R16, R416: the least path of a list. -/
def firstPath (l : List Word64) : Option Word64 :=
  l.foldl (fun b p => match b with | none => some p | some q => some (if pathLt p q then p else q)) none

/-- R416: the lowest path of the member that has an index in this module's gallery at a level. -/
def State.lowestPath (s : State) (l x : Nat) : Word64 :=
  (List.range (l - 3)).foldl (fun p k => setHop p (s.depth - (l - 1) + k) 0) (setHop s.ownPath (s.depth - l) x)

/-- R16: the manager of this module's gallery at a level. Above the tray it is the one settled here; a module that takes no part in that election ranks the
lowest path (DESIGN CHOICE, log entry 86). -/
def State.levelManager (s : State) (l : Nat) : Option Word64 :=
  if l ≤ 3 then s.arcade.manager
  else match kfind l s.arcade.managers with
    | some p => some p
    | none => s.arcade.manager.map (fun _ => s.lowestPath l 0)

/-- The manager of the member gallery that has an index in this module's gallery at a level: the last candidate heard from it, or its lowest path; at level 3
the member itself. -/
def State.memberManager (s : State) (l x : Nat) : Option Word64 :=
  if l ≤ 3 then firstPath ((s.galleryPaths l).filter (fun p => s.levelIndex p l == x))
  else some (((kfind (l * 64 + x) s.arcade.heads).map (·.1)).getD (s.lowestPath l x))

/-- R18, R54: the manager of the lowest gallery that this module does not manage itself (DEDUCED, log entry 43). -/
def State.odManager (s : State) : Option Word64 := if s.managedLevel < s.depth then s.levelManager (s.managedLevel + 1) else none

/-- R18: this module is a worker in a gallery that has a manager. -/
def State.isWorker (s : State) : Bool := decide (2 < s.depth) && s.odManager.any (fun p => !s.mine p)

/-- R425, R502: this module's counter is the reference: a standalone module's, or the top manager's. -/
def State.timeRef (s : State) : Bool := decide (s.depth ≤ 2) || s.levelManager s.depth == some s.ownPath

/-- R502, R504: OD 0x2100.01: the timebase's state; on a module that takes time from its parent it follows OD 0x5200.02. -/
def State.timebase (s : State) : Nat :=
  let t := s.odGet Od.timeState
  if s.timeRef then s.odGet Od.tbState else if t = 2 then 2 else if t = 3 ∨ t = 4 then 3 else s.odGet Od.tbState

/-- R52: a response payload. -/
def odPayload (status seq : Nat) (b : Bytes) : Bytes := leBytes 2 status ++ zeros 2 ++ leBytes 4 b.length ++ leBytes 8 seq ++ b

/-- R54: an OD response frame; INDEX holds the opcode and TAG the request's (DESIGN CHOICE, log entry 40). -/
def State.sendOdResponse (s : State) (dest : Word64) (tag opcode status seq : Nat) (b : Bytes) : State :=
  s.sendFrame (s.mkFrame dest 0x03 0 0 0 tag opcode (odPayload status seq b))

/-- R431, R246: JOB_STOP frames with the original code of a stop for a list of modules. -/
def State.sendJobStop (s : State) (job code : Nat) (dests : List Word64) : State :=
  dests.foldl (fun s p => if s.mine p then s
    else
      let s := s.sendFrame (s.mkFrame p 0x06 0 0 job 0 0 (leBytes 2 code))
      if code = 0x5020 then s.count Od.jobStopsSent 1 else s) s

end Sys2Proof.Machine
end

