-- ==== Sys2Proof/Machine/Memory.lean ====
section
/-!
DEFINITION. Memory.lean: device memory (R13, R254 to R261): the address map, reads and writes with POISON, the decoding of an
address into rows and lanes, and the module's writes to lines that host caches may hold (R437).
-/

namespace Sys2Proof.Machine

/-- R254 (address map): from here upward there is no memory. -/
abbrev memTop : Nat := 0xE000000000
/-- R13: the mezzanine starts here. -/
abbrev mezzBase : Nat := 0x6000000000

/-- R255: the bonded stack of an address. -/
def stackOf (a : Nat) : Nat := a / 2 ^ 34
/-- The hall whose mezzanine holds an address. -/
def mezzHallOf (a : Nat) : Nat := (a - mezzBase) / 2 ^ 37
/-- R13: the hall whose controllers serve an address. -/
def memHall (a : Nat) : Nat := if a < mezzBase then stackOf a / 6 else mezzHallOf a

/-- R270: the address lies in a withdrawn range. -/
def State.withdrawn (s : State) (a : Nat) : Bool :=
  if a < mezzBase then !bit (s.odGet Od.stacksPresent) (stackOf a) else !bit (s.odGet Od.mezzPresent) (mezzHallOf a)

/-- R254: what a byte that nothing has written reads as. -/
abbrev memDefault : Byte := 0#8

/-- The canonical form of memory: addresses strictly rising, and no byte listed that equals what an unlisted address reads as. -/
def Memory.wf (cells : List Host.Cell) : Bool := kwf memDefault cells

/-- The stored byte at an address. -/
def MemSt.byte (m : MemSt) (a : Nat) : Byte := kget memDefault a m.cells

/-- A byte of device memory. -/
def State.memByte (s : State) (a : Nat) : Byte := s.mem.byte a

/-- Bytes of device memory. -/
def State.memBytes (s : State) (a n : Nat) : Bytes := (List.range n).map (fun i => s.memByte (a + i))

/-- The words that bytes [a, a + n) touch. -/
def wordsOf (a n : Nat) : List Nat := if n = 0 then [] else (List.range ((a + n - 1) / 8 + 1 - a / 8)).map (· + a / 8)

/-- R260, R270: the word delivers poison. -/
def State.wordPoisoned (s : State) (w : Nat) : Bool := kget false w s.mem.poison || s.withdrawn (8 * w)

/-- A read of bytes meets a poisoned word. -/
def State.memPoisoned (s : State) (a n : Nat) : Bool := (wordsOf a n).any s.wordPoisoned

/-- List bytes at rising addresses; the default byte is not listed. -/
def putCells (m : List Host.Cell) : Nat → Bytes → List Host.Cell
  | _, [] => m
  | a, b :: t => putCells (kset memDefault a b m) (a + 1) t

/-- R261: the POISON bits after a write: a word written whole takes the writer's poison; a part of a word keeps POISON, and a
poisoned writer sets it. -/
def putPoison (m : KMap Bool) (a n : Nat) (poison : Bool) : KMap Bool :=
  (wordsOf a n).foldl (fun p w =>
    if poison then kset false w true p
    else if a ≤ 8 * w ∧ 8 * w + 8 ≤ a + n then kset false w false p else p) m

/-- A write as the controller performs it. -/
def MemSt.write (m : MemSt) (a : Nat) (data : Bytes) (poison : Bool) : MemSt :=
  { m with cells := putCells m.cells a data, poison := putPoison m.poison a data.length poison }

/-- R261, R270: a write; in a withdrawn range it is discarded and counted. -/
def State.memWrite (s : State) (a : Nat) (data : Bytes) (poison : Bool) : State :=
  if data = [] then s
  else if s.withdrawn a then s.count Od.withdrawnWrites 1
  else { s with mem := s.mem.write a data poison }

/-- R193, R527: mark every word of a range poisoned. -/
def State.memMark (s : State) (a n : Nat) (poison : Bool) : State :=
  let p := (wordsOf a n).foldl (fun p w => kset false w poison p) s.mem.poison
  { s with mem := { s.mem with poison := p } }

/-- R254: contents lost, then every word written as zero with POISON clear. -/
def MemSt.blank (m : MemSt) : MemSt := { m with cells := [], poison := [] }

/-- A 64-bit word of device memory, little-endian. -/
def State.memWord (s : State) (a : Nat) : Nat := leNat (s.memBytes a 8)

/-! ### Rows and lanes (R255, R256, R258, R264) -/

/-- R264: the row of an address: for bonded memory its row of a bank of a channel of a stack, for the mezzanine the row of a bank of
a package channel; as one number. -/
def rowOf (a : Nat) : Nat :=
  if a < mezzBase then
    let o := a % 2 ^ 34
    ((stackOf a * 32 + bits o 12 8) * 16 + bits o 16 15 * 4 + bits o 18 17) * 32768 + bits o 33 19
  else
    let h := mezzHallOf a
    let o := (a - mezzBase) % 2 ^ 37
    let u := o / 256
    let x := 320 * (u / 20) + o % 256
    0x100000000 + ((h * 20 + u % 20) * 16 + x / 2 ^ 11 % 16) * 2 ^ 20 + x / 2 ^ 15

/-- R265: the bank of a row number. -/
def bankOfRow (r : Nat) : Nat := if r < 0x100000000 then r / 32768 else 0x100000000 + (r - 0x100000000) / 2 ^ 20

/-- R258, R271: the data or check lane (stack × 5,200 + record index) of bit b of the codeword of a bonded word. -/
def laneOf (a b : Nat) : Nat :=
  let o := a % 2 ^ 34
  let c := bits o 12 8
  let w := bits o 3 3
  stackOf a * 5200 + (if b < 64 then 128 * c + 64 * w + b else 4096 + 32 * c + 16 * w + (b - 64))

/-- R253: the spare group of a lane (stack × 16 + group). -/
def laneGroup (l : Nat) : Nat :=
  let r := l % 5200
  let c := if r < 4096 then r / 128 else if r < 5120 then (r - 4096) / 32 else 2 * ((r - 5120) / 5)
  l / 5200 * 16 + c / 2

/-- R271: spare k of a spare group, as a lane. -/
def spareLaneOf (g k : Nat) : Nat := g / 16 * 5200 + 5120 + 5 * (g % 16) + k

/-- R268: the lane that carries the bits of lane l: the last of the spares that have replaced it. A group has five. -/
def MemSt.carrier (m : MemSt) : Nat → Nat → Nat
  | 0, l => l
  | n + 1, l => match kfind l m.laneSpare with | some k => m.carrier n (spareLaneOf (laneGroup l) k) | none => l

/-- R268: the first spare of a group that replaces no lane and has not failed in Training. -/
def MemSt.freeSpare (m : MemSt) (g : Nat) : Option Nat :=
  (List.range 5).find? (fun k => !m.laneSpare.any (fun e => laneGroup e.1 == g && e.2 == k) && !m.laneFail.contains (spareLaneOf g k))

/-! ### The host window as the module writes it (R434, R437) -/

/-- R434: the address lies in the exposed window, and its line. -/
def State.hdmLine (s : State) (a : Nat) : Option Nat :=
  let base := s.odGet Od.hostWindowBase
  let size := s.odGet Od.hostWindowSize / 268435456 * 268435456
  if base ≤ a ∧ a < base + size then some ((a - base) / 64) else none

/-- R437: lines that the snoop filter holds at most. -/
abbrev filterMax : Nat := 1048576

/-- R437: BISnpInv for a line, unless one is under way. -/
def State.backInvalidate (s : State) (l : Nat) : State :=
  if s.cxl.snooped.isSome then s
  else (({ s with cxl := { s.cxl with snooped := some l } } : State).emit (.bisnp l)).count Od.backInvalidates 1

/-- R437: perform the module's waiting writes and signals in order, up to a write whose line the filter holds, or a line that a full filter cannot take: for that
write's line, or for the line that entered the filter first, BISnpInv is sent, and the rest waits for the host's BIRsp. -/
def drainHost : Nat → State → State
  | 0, s => s
  | fuel + 1, s =>
    match s.cxl.waiting with
    | [] => s
    | .signal v :: t => drainHost fuel (({ s with cxl := { s.cxl with waiting := t } } : State).signal v)
    | .enter l :: t =>
      if s.cxl.filter.contains l then drainHost fuel { s with cxl := { s.cxl with waiting := t } }
      else if s.cxl.filter.length < filterMax then drainHost fuel { s with cxl := { s.cxl with waiting := t, filter := s.cxl.filter ++ [l] } }
      else
        match s.cxl.filter with
        | [] => s
        | old :: _ => s.backInvalidate old
    | .moved id n :: t =>
      drainHost fuel { s with cxl := { s.cxl with waiting := t }, xlate := { s.xlate with landed := s.xlate.landed ++ [(id, n)] } }
    | .answer o op k seq :: t =>
      drainHost fuel { s with cxl := { s.cxl with waiting := t }, od := { s.od with ready := s.od.ready ++ [(o, op, k, seq)] } }
    | .write a d p :: t =>
      match s.hdmLine a with
      | some l =>
        if s.cxl.filter.contains l then
          s.backInvalidate l
        else drainHost fuel (({ s with cxl := { s.cxl with waiting := t } } : State).memWrite a d p)
      | none => drainHost fuel (({ s with cxl := { s.cxl with waiting := t } } : State).memWrite a d p)

/-- Cut a write at 64-byte lines. -/
def splitLines : Nat → Nat → Bytes → List (Nat × Bytes)
  | 0, _, _ => []
  | fuel + 1, a, d =>
    if d = [] then []
    else
      let n := 64 - a % 64
      (a, d.take n) :: splitLines fuel (a + n) (d.drop n)

/-- R437: the module's writes and messages join the queue in order. -/
def State.hostActs (s : State) (acts : List HostAct) : State :=
  let s := { s with cxl := { s.cxl with waiting := s.cxl.waiting ++ acts } }
  drainHost (s.cxl.waiting.length + 1) s

/-- R437: a write of device memory, line by line. -/
def writeActs (a : Nat) (d : Bytes) (poison : Bool) : List HostAct :=
  (splitLines (d.length / 64 + 2) a d).map (fun p => .write p.1 p.2 poison)

/-- R437: the module writes device memory. -/
def State.devWrite (s : State) (a : Nat) (d : Bytes) (poison : Bool := false) : State := s.hostActs (writeActs a d poison)

end Sys2Proof.Machine
end

