-- ==== Sys2Proof/Machine/Xlate.lean ====
section
/-!
DEFINITION. Xlate.lean: tenants' address spaces (R275 to R284): page table walks, translation caches, the reads and writes
of programs through them, and the page request log (R292 to R296).
-/

namespace Sys2Proof.Machine

/-- How a walk ends (R280). -/
inductive WalkEnd where
  | ok (base size pte : Nat)
  | fault (code : Nat)
  | page
  deriving DecidableEq, Repr

/-- R279: reserved bits of an entry. -/
def pteReserved (e : Nat) : Bool := decide (bits e 63 52 ≠ 0) || decide (bits e 11 8 ≠ 0) || bit e 6

/-- R278: size of the page that a leaf at a level maps. -/
def levelSize (lv : Nat) : Nat := 2 ^ (12 + 9 * (lv - 1))

/-- R280: what one entry at a level says: an outcome, or the next table. -/
def pteStep (lv va e : Nat) (poisoned : Bool) : WalkEnd ⊕ Nat :=
  if poisoned then .inl (.fault 0x2031)
  else if !(bit e 0) then .inl (if bit e 7 then .page else .fault 0x2030)
  else
    let leaf := bit e 1
    let addr := bits e 51 12 * 4096
    let sz := levelSize lv
    if pteReserved e || (leaf && lv == 4) || (!leaf && lv == 1) ||
       (!leaf && (bit e 5 || bit e 4 || bit e 3 || bit e 2)) || (leaf && decide (addr % sz ≠ 0)) ||
       (bit e 4 && (bit e 3 || bit e 5)) || (!(bit e 5) && decide (memTop ≤ addr)) then .inl (.fault 0x2031)
    else if leaf then .inl (.ok (va / sz * sz) sz e)
    else .inr addr

/-- R278, R280: the walk from the table at `tab` down the levels that are left. -/
def walkFrom (s : State) (va : Nat) : List Nat → Nat → WalkEnd
  | [], _ => .fault 0x2031
  | lv :: rest, tab =>
    let a := tab + va / levelSize lv % 512 * 8
    match pteStep lv va (s.memWord a) (s.memPoisoned a 8) with
    | .inl r => r
    | .inr next => walkFrom s va rest next

/-- R277: the root of a tenant. -/
def State.tenantRoot (s : State) (t : Nat) : Nat := s.odGet (Od.tenantRoot0 + t)

/-- R277: the tenant is enabled. -/
def State.tenantEnabled (s : State) (t : Nat) : Bool := decide (t < 64) && bit (s.tenantRoot t) 0

/-! ### The model region (R386) -/

/-- R340: where the 4 KiB of number b of a hall's pool lie: the Planner's choice of place (DESIGN CHOICE, log entry 21). -/
def blockPlace (h b : Nat) : Nat := (h * 6 + 4) * 2 ^ 34 + b * 4096

/-- R340: the 4 KiB units of a cache block of a model; none is empty. -/
def State.modelUnits (s : State) (m : Nat) : Nat := max 1 ((((kfind m s.serve.models).bind (·.pkg)).map (·.rowUnits)).getD 0)

/-- R340: the blocks of a cache's own model, each with its 4 KiB units. -/
def State.ownSpans (s : State) (c : CacheSt) : List (Nat × Nat) := c.blocks.map (fun b => (b, s.modelUnits c.model))

/-- R359: the blocks of a cache's draft model, each with its 4 KiB units. -/
def State.draftSpans (s : State) (c : CacheSt) : List (Nat × Nat) := c.dblocks.map (fun b => (b, s.modelUnits (c.draft.getD 0)))

/-- R340, R359: the blocks that a cache holds, the draft model's among them. -/
def State.cacheSpans (s : State) (c : CacheSt) : List (Nat × Nat) := s.ownSpans c ++ s.draftSpans c

/-- R297: where the step scheduler's Mover puts the input of a stream (DESIGN CHOICE, log entry 21). -/
def inPlace (hall i : Nat) : Nat := (hall * 6 + 3) * 2 ^ 34 + 2 ^ 33 + i * 131072

/-- R353: where the step scheduler writes the bias rows of a stream's tree (DESIGN CHOICE, log entry 21). -/
def maskPlace (hall i : Nat) : Nat := (hall * 6 + 5) * 2 ^ 34 + 2 ^ 32 + i * 65536

/-- R461: where the Planner puts the ring and the result area of an entry (DESIGN CHOICE, log entry 21). -/
def fieldRing (hall entry : Nat) : Nat := (hall * 6 + 5) * 2 ^ 34 + entry * 16384

/-- Word k of a record. -/
def StreamRec.word (r : StreamRec) (k : Nat) : Nat := kget 0 k r.words

/-- R386: a virtual address lies in the model region. -/
def inRegion (va : Nat) : Bool := decide (2 ^ 47 ≤ va)

/-- R386: a place that the Planner maps without SHARED for the jobs of a tenant, at virtual address 2^47 + its device address (DESIGN CHOICE, log entry 21): a cache block
of a stream of the tenant, the places of a stream's input and of its tree's bias rows, the ring of a field stream. -/
def State.jobPlace (s : State) (t a : Nat) : Bool :=
  s.serve.streams.any (fun e =>
    let h := bits (e.2.word 16) 41 40
    let st := bits (e.2.word 0) 7 0
    let inside := fun (lo n : Nat) => decide (lo ≤ a) && decide (a < lo + n)
    (match e.2.cache with
     | none => false
     | some c =>
       c.tenant == t && (s.cacheSpans c).any (fun b => inside (blockPlace h b.1) (b.2 * 4096))) ||
    (bits (e.2.word 0) 29 24 == t &&
      ((e.2.input.isSome && inside (inPlace h e.1) 131072) || (decide (0 < e.2.depth) && inside (maskPlace h e.1) 65536) || (st == 9 && inside (fieldRing h e.1) 16384))))

/-- R386: the Planner's mapping that covers an address: for a model's region a read-only SHARED leaf of 4 KiB, for the places of the tenant's jobs a
leaf without SHARED. -/
def State.modelLeaf (s : State) (t va : Nat) : WalkEnd :=
  let page := va / 4096 * 4096
  match s.xlate.maps.find? (fun m => m.tenant == t && decide (m.base ≤ va) && decide (va < m.base + m.size)) with
  | some m => .ok page 4096 (m.device + (page - m.base) + 0x17)
  | none => if s.jobPlace t (va - 2 ^ 47) then .ok page 4096 (page - 2 ^ 47 + 0x0F) else .fault 0x2030

/-- R278, R386: an uncached walk. -/
def State.walk (s : State) (t va : Nat) : WalkEnd :=
  if !(s.tenantEnabled t) then .fault 0x2030
  else if inRegion va then s.modelLeaf t va
  else walkFrom s va [4, 3, 2, 1] (bits (s.tenantRoot t) 51 12 * 4096)

/-- R280, R281: the translation of one access in a hall: the outcome, and the state with the cache and its counters. -/
def State.translate (s : State) (hall t va : Nat) (write : Bool) : WalkEnd × State :=
  if 2 ^ 48 ≤ va then (.fault 0x2030, s.count Od.xlateFaults 1)
  else if !(s.tenantEnabled t) then (.fault 0x2030, s.count Od.xlateFaults 1)
  else
    let perm := fun (r : WalkEnd) (s : State) =>
      match r with
      | .ok _ _ e => if (if write then bit e 3 && !bit e 4 else bit e 2) then (r, s) else (.fault 0x2030, s.count Od.xlateFaults 1)
      | .fault c => (WalkEnd.fault c, s.count Od.xlateFaults 1)
      | .page => (WalkEnd.page, s)
    let keep := fun (b z e : Nat) (s : State) =>
      let mine := (s.xlate.cache.filter (fun x => x.hall == hall)).length
      let old := if mine < 4096 then s.xlate.cache else dropFirst (fun x => x.hall == hall) s.xlate.cache
      ({ s with xlate := { s.xlate with cache := old ++ [⟨hall, t, b, z, e⟩] } } : State)
    match s.xlate.cache.find? (fun x => x.hall == hall && x.tenant == t && decide (x.base ≤ va) && decide (va < x.base + x.size)) with
    | some x => perm (if inRegion va then s.modelLeaf t va else .ok x.base x.size x.pte) (s.count Od.xlateHits 1)
    | none =>
      let s := s.count Od.xlateWalks 1
      let r := s.walk t va
      match r, perm r s with
      | .ok b z e, (.ok b' z' e', s) => (.ok b' z' e', keep b z e s)
      | _, x => x

/-- The physical address that a translation gives, and whether it is a host address. -/
def WalkEnd.phys (r : WalkEnd) (va : Nat) : Option (Nat × Bool) :=
  match r with
  | .ok b _ e => some (bits e 51 12 * 4096 + (va - b), bit e 5)
  | _ => none

/-- R281, R277: remove the cached translations of a tenant that a test accepts. -/
def State.dropXlate (s : State) (t : Nat) (p : XEntry → Bool) : State :=
  { s with xlate := { s.xlate with cache := s.xlate.cache.filter (fun x => !(x.tenant == t && p x)) } }

/-- A 64-byte unit as a Mover carries it: its bytes, and which of its eight words are poisoned (R290). -/
structure Unit64 where
  data   : Bytes
  poison : List Bool
  at_    : Nat
  deriving DecidableEq, Repr

/-- Some word of the unit is poisoned. -/
def Unit64.bad (u : Unit64) : Bool := u.poison.any id

/-- Bytes of a tenant's space as an expander reads them (R187): a part that does not translate arrives poisoned. -/
def State.vaBytes (s : State) (hall t va n : Nat) : Bytes × Bool :=
  let at_ := fun (v : Nat) => ((s.translate hall t v false).1.phys v)
  let bs := (List.range n).map (fun i => match at_ (va + i) with
    | some (a, false) => (s.memByte a, s.wordPoisoned (a / 8))
    | _ => (0#8, true))
  (bs.map (·.1), bs.any (·.2))

/-- The device address of a tenant's virtual address, where it has one. -/
def State.vaDevice (s : State) (hall t va : Nat) : Option Nat :=
  match (s.translate hall t va false).1.phys va with
  | some (a, false) => some a
  | _ => none

/-! ### Mover descriptors (R285 to R291) -/

/-- A descriptor by number. -/
def State.desc (s : State) (id : Nat) : Option Desc := s.xlate.descs.find? (fun d => d.id == id)

/-- Change a descriptor. -/
def State.modDesc (s : State) (id : Nat) (f : Desc → Desc) : State :=
  { s with xlate := { s.xlate with descs := modFirst (fun d => d.id == id) f s.xlate.descs } }

/-- R286: queue a descriptor for a hall's Movers. -/
def State.addDesc (s : State) (d : Desc) : State :=
  let d := { d with id := s.xlate.nextDesc }
  { s with xlate := { s.xlate with descs := s.xlate.descs ++ [d], nextDesc := s.xlate.nextDesc + 1 } }

/-- R287: states that are final. -/
def DescState.final : DescState → Bool
  | .done => true | .faulted => true | .abandoned => true | _ => false

/-- R286: the code of a descriptor's STATE. -/
def DescState.code : DescState → Nat
  | .queued => 0 | .running => 1 | .yielded => 2 | .waitingPage => 3 | .done => 4 | .faulted => 5 | .abandoned => 6

/-- R286: the 64 bytes of a descriptor. -/
def Desc.bytes (d : Desc) : Bytes :=
  leBytes 8 d.src ++ leBytes 8 d.dst ++ leBytes 8 d.len ++ leBytes 1 d.srcSpace ++ leBytes 1 d.dstSpace ++ leBytes 1 d.tenant ++
  leBytes 1 d.cls ++ leBytes 2 d.stream ++ leBytes 1 d.origin ++ zeros 1 ++ leBytes 8 d.confirmed ++ leBytes 8 d.faultAddr ++
  leBytes 2 d.status ++ leBytes 1 d.state.code ++ zeros 1 ++ leBytes 4 d.job ++ zeros 8

/-- R286: the reserved bytes of a descriptor are clear, and its length, spaces, tenant, class and origin lie in their ranges. -/
def descOk (b : Bytes) : Bool :=
  let f := fun o n => leField b o n
  f 31 1 == 0 && f 51 1 == 0 && f 56 8 == 0 && decide (1 ≤ f 16 8) && decide (f 16 8 ≤ 2 ^ 40) && decide (f 24 1 ≤ 2) &&
  decide (f 25 1 ≤ 2) && decide (f 26 1 < 64) && decide (f 27 1 ≤ 3) && decide (f 30 1 ≤ 3)

/-- R291: abandon the descriptors that a test accepts and that have not ended. -/
def State.abandonDescs (s : State) (p : Desc → Bool) : State :=
  let n := (s.xlate.descs.filter (fun d => p d && !d.state.final)).length
  let l := s.xlate.descs.map (fun d => if p d && !d.state.final then { d with state := .abandoned } else d)
  (({ s with xlate := { s.xlate with descs := l } } : State)).count Od.moverAbandoned n

/-- Descriptors that use a Mover of a hall. -/
def State.runningMovers (s : State) (h : Nat) : List Desc :=
  s.xlate.descs.filter (fun d => d.hall == h && (d.state == .running || d.state == .waitingPage))

/-- R285: the queued or yielded descriptor that the next free Mover of a hall takes: highest class, oldest within it. -/
def State.nextDescFor (s : State) (h : Nat) : Option Desc :=
  (s.xlate.descs.filter (fun d => d.hall == h && (d.state == .queued || d.state == .yielded))).foldl
    (fun b d => match b with
      | none => some d
      | some b => some (if d.cls < b.cls then d else b)) none

/-! ### Page requests (R292 to R296) -/

/-- The transfers that wait for a request. -/
def State.waitersOf (s : State) (r : PageReq) : List Desc := (r.waiters.filterMap s.desc).filter (fun d => d.state == .waitingPage)

/-- R294: the 32 bytes of a record. -/
def pageRecord (r : PageReq) (producer waiters : Nat) : Bytes :=
  leBytes 8 r.page ++ leBytes 1 r.tenant ++
  leBytes 1 ((if r.write then 1 else 0) + (if producer / 256 % 2 = 0 then 128 else 0)) ++ zeros 2 ++
  leBytes 2 r.stream ++ leBytes 2 waiters ++ leBytes 8 r.time ++ leBytes 4 r.num ++ zeros 4

/-- R293: a record is free: the log is not full, and the record at the producer holds no outstanding request. -/
def State.prlFree (s : State) : Bool :=
  let p := s.odGet Od.prlProducer
  let c := s.odGet Od.prlConsumer
  decide ((p + 65536 - c) % 65536 < 256) && !(s.xlate.requests.any (fun r => r.rec_ == some (p % 256)))

/-- R293: log the oldest unlogged request where a record is free. -/
def State.logRequest (s : State) : State :=
  if !s.prlFree then s
  else
    match s.xlate.requests.find? (fun r => r.rec_.isNone) with
    | none => s
    | some r =>
      let p := s.odGet Od.prlProducer
      let l := modFirst (fun (x : PageReq) => x.rec_.isNone) (fun x => { x with rec_ := some (p % 256) }) s.xlate.requests
      let s := { s with xlate := { s.xlate with requests := l } }
      let s := s.odPut Od.prlProducer ((p + 1) % 65536)
      s.hostActs [.write (s.odGet Od.prlBase + 32 * (p % 256)) (pageRecord r p (s.waitersOf r).length) false, .signal (s.odGet Od.pageVector)]

/-- Log every request that finds a free record. -/
def logRequests : Nat → State → State
  | 0, s => s
  | n + 1, s => logRequests n s.logRequest

/-- R292, R293: a transfer meets an absent page: it joins the outstanding request of the tenant and page, or opens one, which is logged after those that wait and
counted where it waits itself. -/
def State.openRequest (s : State) (t page : Nat) (write : Bool) (stream id : Nat) : State :=
  if s.xlate.requests.any (fun r => r.tenant == t && r.page == page) then
    let l := modFirst (fun (r : PageReq) => r.tenant == t && r.page == page)
      (fun r => { r with waiters := r.waiters ++ [id] }) s.xlate.requests
    { s with xlate := { s.xlate with requests := l } }
  else
    let s := s.count Od.pageRequests 1
    let n := s.xlate.nextReq + 1
    let r : PageReq := ⟨t, page, none, [id], s.epoch, write, stream, n % 2 ^ 32⟩
    let s : State := { s with xlate := { s.xlate with requests := s.xlate.requests ++ [r], nextReq := n } }
    let s := logRequests s.xlate.requests.length s
    if s.xlate.requests.any (fun x => x.num == r.num && x.rec_.isNone) then s.count Od.prlFullWaits 1 else s

end Sys2Proof.Machine
end

