-- ==== Sys2Proof/Machine/Streams.lean ====
section
/-!
DEFINITION. Streams.lean: the stream table (chapter 12) as the module acts on it: an entry's words, completion records,
fault records, the end of a stream, its cache (R340 to R343), the class 0 ledger (R337).
-/

namespace Sys2Proof.Machine

/-! ### Codes of STATE (R317) -/

abbrev stFree : Nat := 0x00
abbrev stSubmitted : Nat := 0x01
abbrev stPrompt : Nat := 0x02
abbrev stGenerating : Nat := 0x03
abbrev stPaused : Nat := 0x04
abbrev stParked : Nat := 0x05
abbrev stCompleted : Nat := 0x06
abbrev stCancelled : Nat := 0x07
abbrev stFaulted : Nat := 0x08
abbrev stField : Nat := 0x09
abbrev stWaitingPage : Nat := 0x0A

/-- R317: the ended states. -/
def endedState (st : Nat) : Bool := st == stFree || st == stCompleted || st == stCancelled || st == stFaulted

/-- R314: the states in which a write of W0 can be a submission attempt. -/
def idleState (st : Nat) : Bool := endedState st || st == stPaused || st == stParked

/-- States in which a step may serve the stream. -/
def runningState (st : Nat) : Bool := st == stPrompt || st == stGenerating || st == stWaitingPage

/-! ### An entry's words -/

/-- A stream's record. -/
def State.stream (s : State) (i : Nat) : StreamRec := kget StreamRec.reset i s.serve.streams

/-- Set a stream's record. -/
def State.setStream (s : State) (i : Nat) (r : StreamRec) : State :=
  { s with serve := { s.serve with streams := kset StreamRec.reset i r s.serve.streams } }

/-- Change a stream's record. -/
def State.modStream (s : State) (i : Nat) (f : StreamRec → StreamRec) : State := s.setStream i (f (s.stream i))

/-- Set word k of a record. -/
def StreamRec.put (r : StreamRec) (k v : Nat) : StreamRec := { r with words := kset 0 k (v % 2 ^ 64) r.words }

/-- The current word k of an entry. -/
def State.sw (s : State) (i k : Nat) : Nat := (s.stream i).word k

/-- Set the current word k of an entry. -/
def State.putSw (s : State) (i k v : Nat) : State := s.modStream i (·.put k v)

/-- R300: where an entry lies. -/
def State.entryAddr (s : State) (i : Nat) : Nat := s.odGet Od.tableBase + 256 * i

/-- The bytes of words k to k + n - 1 of an entry. -/
def State.wordBytes (s : State) (i k n : Nat) : Bytes := (List.range n).flatMap (fun j => leBytes 8 (s.sw i (k + j)))

/-- R300: the entries of the stream table of which memory lists a byte of W0 to W19. -/
def State.tableEntries (s : State) : List Nat :=
  let base := s.odGet Od.tableBase
  ((s.mem.cells.filter (fun e => decide (base ≤ e.1) && decide (e.1 < base + 256 * 65536) && decide ((e.1 - base) % 256 < 160))).map
    (fun e => (e.1 - base) / 256)).dedup

/-- R303: a record with the words of an entry as they stand in memory. -/
def State.entryRecord (s : State) (i : Nat) : StreamRec :=
  { StreamRec.reset with words := (List.range 20).foldl (fun m k => kset 0 k (s.memWord (s.entryAddr i + 8 * k)) m) [] }

/-- R300: the entries of a table at a new place are as memory holds them there; one whose STATE no ended stream has is FREE (DESIGN CHOICE, log entry 100). -/
def State.readTable (s : State) : State :=
  s.tableEntries.foldl (fun s i =>
    let r := s.entryRecord i
    let st := bits (r.word 0) 7 0
    s.setStream i (r.put 0 (setBits (r.word 0) 7 0 (if endedState st then st else stFree)))) { s with serve := { s.serve with streams := [], caches := [] } }

/-- R412: send bytes to another module in MOVE_DATA frames; the count of bytes sent to it rises. -/
def State.moveTo (s : State) (dest : Word64) (addr : Nat) (d : Bytes) : State :=
  let k := dest.toNat
  let sent := kget 0 k s.arcade.moved + d.length
  let s : State := { s with arcade := { s.arcade with moved := kset 0 k sent s.arcade.moved } }
  s.sendFrame (s.mkFrame dest 0x30 0 31 0 0 0 (leBytes 8 addr ++ d))

/-- R417: the deputy to which a manager mirrors its stream table. -/
def State.mirrorTo (s : State) : Option Word64 :=
  if s.isManager then s.arcade.deputy.bind (fun d => if d = s.ownPath then none else some d) else none

/-- R318: write words of an entry to memory, each run of words in one write. -/
def State.flushLocal (s : State) (i k n : Nat) : State := s.devWrite (s.entryAddr i + 8 * k) (s.wordBytes i k n)

/-- R318, R417: write words of an entry to memory, and mirror them into the deputy's table (at the same TABLE_BASE, log entry 23). -/
def State.flushWords (s : State) (i k n : Nat) : State :=
  let s := s.flushLocal i k n
  match s.mirrorTo with
  | some d => s.moveTo d (s.entryAddr i + 8 * k) (s.wordBytes i k n)
  | none => s

/-- R304: fields of W0. -/
def State.sState (s : State) (i : Nat) : Nat := bits (s.sw i 0) 7 0
def State.sClass (s : State) (i : Nat) : Nat := bits (s.sw i 0) 10 8
def State.sNotify (s : State) (i : Nat) : Nat := bits (s.sw i 0) 12 11
def State.sTenant (s : State) (i : Nat) : Nat := bits (s.sw i 0) 29 24
def State.sModel (s : State) (i : Nat) : Nat := bits (s.sw i 0) 47 32
/-- R312: ACCEPTED_GEN and HALL. -/
def State.sGen (s : State) (i : Nat) : Nat := bits (s.sw i 16) 63 48
def State.sHall (s : State) (i : Nat) : Nat := bits (s.sw i 16) 41 40
/-- R308: COMMITTED_TOKENS and CACHE_LEN. -/
def State.sCommitted (s : State) (i : Nat) : Nat := bits (s.sw i 8) 31 0
def State.sCacheLen (s : State) (i : Nat) : Nat := bits (s.sw i 8) 63 32
/-- R306: TOKEN_LIMIT. -/
def State.sLimit (s : State) (i : Nat) : Nat := bits (s.sw i 6) 23 0

/-- Every stream whose record is listed. -/
def State.streamList (s : State) : List Nat := s.serve.streams.map (·.1)

/-- R300, R385: any entry is in a state other than an ended one. -/
def State.entriesLive (s : State) : Nat := (s.streamList.filter (fun i => !endedState (s.sState i))).length

/-- R304: the class of the work that a stream runs now: a class 1 stream's prompt is class 2 (R329), also while it waits on a page; a demoted class 0 stream is
class 1 (R338). -/
def State.workClass (s : State) (i : Nat) : Nat :=
  let c := s.sClass i
  if c = 0 then (if (s.stream i).demoted then 1 else 0)
  else if c = 1 then (if s.sState i = stSubmitted ∨ s.sState i = stPrompt ∨ (s.sState i = stWaitingPage ∧ (s.stream i).was = stPrompt) then 2 else 1)
  else 2

/-! ### Completion signalling (R323 to R325) -/

/-- R325: signal a vector, at most once in an interval of COALESCE_US. -/
def State.coalesced (s : State) (v : Nat) : State × List HostAct :=
  match kfind v s.serve.coalesce with
  | some (t, _) => ({ s with serve := { s.serve with coalesce := kput v (t, true) s.serve.coalesce } }, [])
  | none =>
    if s.odGet Od.coalesceUs = 0 then (s, [.signal v])
    else ({ s with serve := { s.serve with coalesce := kput v (s.epoch, false) s.serve.coalesce } }, [.signal v])

/-- R325: the log is full. -/
def State.clogFull (s : State) : Bool :=
  decide ((s.odGet Od.clogProducer + 65536 - s.odGet Od.clogConsumer) % 65536 = 4096)

/-- R323, R324: write a completion record of a tenant, setting PHASE. -/
def State.clogWrite (s : State) (tenant : Nat) (rec_ : Bytes) : State :=
  let p := s.odGet Od.clogProducer
  let flags := leField rec_ 3 1 + (if p / 4096 % 2 = 0 then 128 else 0)
  let b := putBytes rec_ 3 (leBytes 1 flags)
  let s := s.odPut Od.clogProducer ((p + 1) % 65536)
  let (s, sig) := s.coalesced (s.odGet (Od.tenantVector0 + tenant))
  s.hostActs (.write (s.odGet Od.clogBase + 16 * (p % 4096)) b false :: sig)

/-- R325: a record is written, or waits for space and is counted. -/
def State.clogAdd (s : State) (tenant : Nat) (rec_ : Bytes) : State :=
  if s.clogFull || !s.serve.clog.isEmpty then
    (({ s with serve := { s.serve with clog := s.serve.clog ++ [(tenant, rec_)] } } : State)).count Od.clogFullWaits 1
  else s.clogWrite tenant rec_

/-- R325: waiting records are written as space frees. -/
def clogDrain : Nat → State → State
  | 0, s => s
  | n + 1, s =>
    match s.serve.clog with
    | [] => s
    | (t, r) :: rest =>
      if s.clogFull then s
      else clogDrain n ((({ s with serve := { s.serve with clog := rest } } : State)).clogWrite t r)

/-- R324: the record of an event of a stream. -/
def State.clogRecord (s : State) (i : Nat) (commit : Bool) : Bytes :=
  let w0 := s.sw i 0
  leBytes 2 i ++ leBytes 1 (bits w0 7 0) ++
  leBytes 1 ((if commit then 1 else 0) + (if bit w0 17 then 2 else 0) + (if bit w0 19 then 4 else 0)) ++
  leBytes 2 (s.sGen i) ++ leBytes 1 (s.sTenant i) ++ zeros 1 ++ leBytes 4 (s.sCommitted i) ++
  leBytes 2 (if bits w0 7 0 = stFaulted ∨ !bit (s.sw i 12) 24 then bits (s.sw i 12) 15 0 else 0) ++ zeros 2

/-- R323: report an event of a stream that NOTIFY selects. -/
def State.notify (s : State) (i : Nat) (commit : Bool) : State :=
  let n := s.sNotify i
  if (n = 1 ∧ commit = false) ∨ n = 2 then s.clogAdd (s.sTenant i) (s.clogRecord i commit) else s

/-! ### Progress, faults, states (R311, R318, R319) -/

/-- R311, R319: a fault record of a stream; the code, FINAL, ORIGIN, the address and the confirmed bytes of a transfer, and the log
record's sequence number. It is written to memory with W8 to W15. -/
def State.faultRec (s : State) (i code : Nat) (final : Bool) (origin addr confirmed logSeq : Nat) : State :=
  let n := min 127 (bits (s.sw i 12) 31 25 + 1)
  let s := s.putSw i 12 (logSeq * 2 ^ 32 + n * 2 ^ 25 + (if final then 2 ^ 24 else 0) + origin * 2 ^ 16 + code)
  let s := ((s.putSw i 13 addr).putSw i 14 confirmed).putSw i 15 s.epoch
  let s := s.count (if final then Od.faultsFinal else Od.faultsRecovered) 1
  (s.flushWords i 8 2).flushWords i 12 4

/-- R318: a change of STATE: W8, W9 and W12 to W15 first, W16 to W19 at an end, W0 last. -/
def State.setState (s : State) (i st : Nat) : State :=
  let s := s.putSw i 0 (setBits (s.sw i 0) 7 0 st)
  let s := (s.flushWords i 8 2).flushWords i 12 4
  let s := if endedState st then s.flushWords i 16 4 else s
  s.flushWords i 0 1

/-- R340, R341: cache blocks for n positions of a model's package. -/
def blocksFor (p : Package) (n : Nat) : Nat := p.layersN * p.cacheHeads * cdiv n 256

/-- A loaded model's package. -/
def State.pkgOf (s : State) (m : Nat) : Option Package :=
  (kfind m s.serve.models).bind (fun x => if x.state = 3 then x.pkg else none)

/-- R354: the draft model that a submission names; none where its draft was lost (R360). -/
def State.draftOf (s : State) (i : Nat) : Option Nat :=
  if bits (s.sw i 0) 21 20 = 2 ∧ !(s.stream i).draftLost then some (bits (s.sw i 11) 47 32) else none

/-- R341: the positions that a submission can fill. -/
def State.positionsNeeded (s : State) (i : Nat) : Nat := s.sCacheLen i + s.sw i 3 / 4 + s.sLimit i

/-- R341, R354: the blocks of the stream's own model: its cache at the end, and one scratch block for each layer and cache head. -/
def State.ownNeeded (s : State) (i : Nat) : Nat :=
  match s.pkgOf (s.sModel i) with
  | none => 0
  | some p =>
    (if p.vocab = 0 then 0 else blocksFor p (s.positionsNeeded i)) + (if bits (s.sw i 0) 21 20 = 0 then 0 else p.layersN * p.cacheHeads)

/-- R354, R359: the blocks of the draft model's own cache. -/
def State.draftNeeded (s : State) (i : Nat) : Nat :=
  match s.pkgOf (s.sModel i), (s.draftOf i).bind s.pkgOf with
  | some _, some d => blocksFor d (s.positionsNeeded i)
  | _, _ => 0

/-- R341, R354: the blocks that a submission can fill: its cache at the end, and the speculation allowance. -/
def State.blocksNeeded (s : State) (i : Nat) : Nat := s.ownNeeded i + s.draftNeeded i

/-- A hall's pool: blocks and free blocks. -/
def State.pool (s : State) (h : Nat) : Nat × Nat := kget (0, 0) h s.serve.pools

/-- Change the free blocks of a hall's pool. -/
def State.poolFree (s : State) (h : Nat) (free : Nat) : State :=
  { s with serve := { s.serve with pools := kset (0, 0) h ((s.pool h).1, free) s.serve.pools } }

/-- R341: the caches that lie in a hall. -/
def State.hallCaches (s : State) (h : Nat) : List CacheSt :=
  s.serve.streams.filterMap (fun e => if bits (e.2.word 16) 41 40 = h then e.2.cache else none)

/-- R341: the block numbers of a hall's pool that caches hold. -/
def State.blocksHeld (s : State) (h : Nat) : List Nat := ((s.hallCaches h).flatMap s.cacheSpans).map (·.1)

/-- The n lowest places of `units` 4 KiB from `at_` on that meet no held span (DESIGN CHOICE, log entry 21). -/
def fitBlocks (units : Nat) (held : List (Nat × Nat)) : Nat → Nat → Nat → List Nat
  | 0, _, _ => []
  | _, 0, _ => []
  | fuel + 1, n + 1, at_ =>
    match held.find? (fun e => decide (at_ < e.1 + e.2) && decide (e.1 < at_ + units)) with
    | some e => fitBlocks units held fuel (n + 1) (e.1 + e.2)
    | none => at_ :: fitBlocks units held fuel n (at_ + units)

/-- R341, R359: reserve n blocks of a model and m of a draft model in a hall; none where they are not free. -/
def State.reserve (s : State) (h model n : Nat) (draft : Option Nat) (m : Nat) : Option (List Nat × List Nat × State) :=
  if n + m ≤ (s.pool h).2 then
    let held := (s.hallCaches h).flatMap s.cacheSpans
    let u := s.modelUnits model
    let bs := fitBlocks u held (n + held.length) n 0
    let all := held ++ bs.map (fun b => (b, u))
    some (bs, fitBlocks (s.modelUnits (draft.getD 0)) all (m + all.length) m 0, s.poolFree h ((s.pool h).2 - (n + m)))
  else none

/-- R341: where copy c (0, 1) of the token log of a stream holds a position: on two stacks of the hall (DESIGN CHOICE, log entry 21). -/
def tokenPlace (h c i pos : Nat) : Nat := (h * 6 + 4 + c) * 2 ^ 34 + 2 ^ 33 + i * 2 ^ 17 + 4 * pos

/-- R343, R348: release a stream's cache: blocks, block list, token log, a park in progress and a parked copy. -/
def State.releaseCache (s : State) (i : Nat) : State :=
  match (s.stream i).cache with
  | none => s
  | some c =>
    let s := if c.moving.isSome then s.count Od.moverAbandoned 1 else s
    let s := s.poolFree (s.sHall i) ((s.pool (s.sHall i)).2 + (c.blocks.length + c.dblocks.length))
    s.modStream i (fun r => { r with cache := none })

/-- R343, R359, R360: the draft model's cache of a stream is released. -/
def State.releaseDraft (s : State) (i : Nat) : State :=
  match (s.stream i).cache with
  | none => s
  | some c =>
    let s := s.poolFree (s.sHall i) ((s.pool (s.sHall i)).2 + c.dblocks.length)
    s.modStream i (fun r => { r with cache := some { c with draft := none, dblocks := [] } })

/-- R337: the rate a stream takes from the ledger ends. -/
def State.releaseShare (s : State) (i : Nat) : State := s.modStream i (fun r => { r with admitted := none })

/-- R320, R321: the stream leaves every later commit map, its transfers are abandoned, its cache and its share are released. -/
def State.leaveSteps (s : State) (i : Nat) : State :=
  let own := (s.xlate.descs.filter (fun d => d.stream == i && d.use == .output)).map (·.id)
  let l := s.serve.steps.map (fun x =>
    if x.slots.contains i then { x with removed := (x.removed ++ [i]).dedup, waits := x.waits.filter (fun d => !own.contains d) } else x)
  let b := s.serve.batches.map (fun x => { x with streams := x.streams.filter (· ≠ i) })
  let s : State := { s with serve := { s.serve with steps := l, batches := b.filter (fun x => !x.streams.isEmpty) } }
  s.abandonDescs (fun d => d.stream == i && (d.use == .input || d.use == .output))

/-- R332: a stream leaves SUBMITTED: the time that it spent there is counted. -/
def State.countWait (s : State) (i : Nat) : State :=
  if s.sState i = stSubmitted then s.count Od.promptWaitUs ((s.epoch - s.sw i 17) / oneUs) else s

/-- R317, R318, R323: a stream ends in `st`; PAUSED keeps its cache. -/
def State.endStream (s : State) (i st : Nat) : State :=
  let s := (s.leaveSteps i).countWait i
  let s := if st = stPaused then s else s.releaseCache i
  let s := s.releaseShare i
  let s := s.modStream i (fun r => { r with was := 0, input := none, sampled := [], tree := [] })
  let s := if st = stCompleted ∨ st = stPaused then s.count Od.completions 1 else s
  (s.setState i st).notify i false

/-- R315, R319: a fault ends a stream; in Safe Stop no stream is served any more (R531). -/
def State.faultStream (s : State) (i code origin addr confirmed logSeq : Nat) : State :=
  if s.mode = .safeStop then s
  else ((s.leaveSteps i).faultRec i code true origin addr confirmed logSeq).endStream i stFaulted

/-! ### The entry cache (R302) -/

/-- R302: an entry that leaves the cache is written back whole: its words, and the undefined words of the module's working state (R312). -/
def State.writeBack (s : State) (j : Nat) : State :=
  let s := ((s.flushWords j 1 19).devWrite (s.entryAddr j + 160) ((List.range 96).map (fun k => Config.freeByte s.free (s.entryAddr j + 160) k))).tick
  s.flushWords j 0 1

/-- R302: the entry is in a hall's cache. -/
def State.cached (s : State) (h i : Nat) : Bool := (kget [] h s.serve.caches).contains i

/-- R302: the entry is loaded into a hall's cache, the least recently used one outside open steps evicted when it is full. Where every entry of a full cache is in
an open step, the entry is not loaded. -/
def State.cacheEntry (s : State) (h i : Nat) : State :=
  let l := kget [] h s.serve.caches
  let put := fun (s : State) (l : List Nat) => { s with serve := { s.serve with caches := kset [] h (l ++ [i]) s.serve.caches } }
  if l.contains i then put s (l.filter (· ≠ i))
  else
    let s := s.count Od.cacheMisses 1
    if l.length < 1024 then put s l
    else
      match l.find? (fun j => !(s.serve.steps.any (fun x => x.slots.contains j))) with
      | none => s
      | some j =>
        put ((s.writeBack j).count Od.cacheEvictions 1) (l.filter (· ≠ j))

/-! ### Admission (R336 to R338) -/

/-- R336: the cost bound K of a loaded model's class 0 template on each flight. -/
def State.kBounds (s : State) (m : Nat) : List (Nat × Nat) :=
  match kfind m s.serve.models with
  | some x => if x.state = 3 then x.kBounds else []
  | none => []

/-- R337: every admitted stream with its rate (results per 1,000 s) and budget (ticks). -/
def State.admittedList (s : State) : List (Nat × Nat × Nat) :=
  s.serve.streams.filterMap (fun e => e.2.admitted.map (fun a => (e.1, a.1, a.2)))

/-- R337: the tests for a list of admitted (model, rate, budget, is a request) on one flight. F = 1.2 steps a tick; rates are per
1,000 s = 10^12 ticks. Share: Σ K R ≤ 1.2 × 10^12 × share / 1,000. Latency for D: S + Σ K (β + R D) ≤ 1.2 D. -/
def ledgerTests (share span burst : Nat) (k : Nat → Nat) (l : List (Nat × Nat × Nat × Bool)) : Bool :=
  let used := l.filter (fun e => decide (0 < k e.1))
  let reqs := (used.filter (fun e => e.2.2.2)).length
  let load := (used.map (fun e => k e.1 * e.2.1)).sum
  let models := (used.map (·.1)).dedup
  decide (load ≤ 1200000000 * share) &&
  used.all (fun e =>
    let D := e.2.2.1
    decide ((span + (models.map (fun m => k m * (burst + reqs))).sum) * 10 ^ 12 + load * D ≤ 1200000000000 * D))

/-- R337: the flights that a list of models use. -/
def State.ledgerFlights (s : State) (ms : List Nat) : List Nat := (ms.flatMap (fun m => (s.kBounds m).map (·.1))).dedup

/-- R337: admission of one more class 0 stream of a model with a rate and a budget. -/
def State.admits (s : State) (m rate budget : Nat) (request : Bool) : Bool :=
  let l := s.admittedList.map (fun e => (s.sModel e.1, e.2.1, e.2.2, s.sState e.1 != stField)) ++ [(m, rate, budget, request)]
  (s.ledgerFlights (l.map (·.1))).all (fun f =>
    ledgerTests (s.odGet Od.class0Share) (s.odGet Od.maxPpSpan) (s.odGet Od.aggBurst)
      (fun m => ((s.kBounds m).find? (fun e => e.1 == f)).elim 0 (·.2)) l)

/-- R338: the largest admitted share of any flight, per mille. -/
def State.class0Load (s : State) : Nat :=
  let l := s.admittedList
  (s.ledgerFlights (l.map (fun e => s.sModel e.1))).foldl (fun m f =>
    max m ((l.map (fun e => (((s.kBounds (s.sModel e.1)).find? (fun x => x.1 == f)).elim 0 (·.2)) * e.2.1)).sum / 1200000000)) 0

end Sys2Proof.Machine
end

