-- ==== Sys2Proof/Machine/FieldOps.lean ====
section
/-!
DEFINITION. FieldOps.lean: messages across the Balustrade (R470), cells of the field map as the Foyer and the field gate hold them
(R459 to R467): binding, unbinding, buckets, held records, the end of a field stream's step.
-/

namespace Sys2Proof.Machine

/-- R470: channel and direction of a message type: 0 data in, 1 data out, 2 management in, 3 management out. -/
def balKey (typ : Nat) : Option Nat :=
  if typ = 0x01 then some 0 else if typ = 0x81 then some 1
  else if 2 ≤ typ ∧ typ ≤ 5 then some 2 else if 0x82 ≤ typ ∧ typ ≤ 0x86 then some 3 else none

/-- R470: the body lengths of a message type. -/
def balLengthOk (typ n : Nat) : Bool :=
  match typ with
  | 0x01 => n == 144 | 0x81 => n == 136 | 0x02 => decide (64 ≤ n) && decide (n ≤ 1210) | 0x82 => decide (72 ≤ n) && decide (n ≤ 1210)
  | 0x03 => n == 64 | 0x04 => n == 16 | 0x83 => decide (16 ≤ n) && decide (n ≤ 3088) | 0x84 => decide (16 ≤ n) && decide (n ≤ 1040)
  | 0x85 => n == 32 | 0x86 => decide (16 ≤ n) && decide (n ≤ 4112) | 0x05 => n == 8 | _ => false

/-- R471: messages of a type that a receiver takes in one second; none without a limit. -/
def balLimit (typ : Nat) : Option Nat :=
  match typ with
  | 0x01 => some 2000000 | 0x81 => some 2000000 | 0x03 => some 1000 | 0x04 => some 1000 | 0x85 => some 1 | 0x05 => some 100 | _ => none

/-- R470: the message with its header's CRC. -/
def balMsg (typ seq : Nat) (body : Bytes) : BalMsg :=
  let b := leBytes 1 typ ++ zeros 1 ++ leBytes 2 body.length ++ leBytes 4 seq ++ body
  ⟨typ, body.length, seq, body, crc32c b⟩

/-- R470: send a message across the Balustrade. A full queue drops TELEMETRY and counts it (R471). -/
def State.balSend (s : State) (typ : Nat) (body : Bytes) : State :=
  match balKey typ with
  | none => s
  | some k =>
    let seq := kget 0 k s.foyer.txSeq
    let m := balMsg typ seq body
    if k = 0 ∧ 1024 ≤ s.foyer.dataIn.length then s.count Od.balQueueDrops 1
    else
      let tx := kset 0 k ((seq + 1) % 2 ^ 32) s.foyer.txSeq
      let f := s.foyer
      let f : FoyerSt :=
        if k = 0 then { f with txSeq := tx, dataIn := f.dataIn ++ [m] }
        else if k = 2 then { f with txSeq := tx, mgmtIn := f.mgmtIn ++ [m] }
        else { f with txSeq := tx, toFoyer := f.toFoyer ++ [m] }
      let s : State := { s with foyer := f }
      s.emit (.bal (k % 2 == 1) typ seq body)

/-- R453: an entry of range 0x6000 as the Foyer holds it: from CONFIG, or its default. -/
def State.fval (s : State) (k : Nat) : Nat := ((kfind k s.foyer.applied).map leNat).getD (odDefault k)

/-- R453: a DOMAIN entry as the Foyer holds it. -/
def State.fdom (s : State) (k : Nat) : Bytes := (kfind k s.foyer.applied).getD []

/-- R459: the cell record that 48 bytes spell. -/
def cellRecOf (b : Bytes) : CellRec :=
  ⟨leField b 0 8, leField b 8 2, leField b 10 2, leField b 12 4, leField b 16 1, bit (leField b 17 1) 0, leField b 20 4,
   BitVec.ofNat 128 (beField b 24 16), leField b 40 2⟩

/-- The cell bound to an entry, or that will be. -/
def State.cellAt (s : State) (entry : Nat) : Option CellSt := s.foyer.cells.find? (fun c => c.rec_.entry == entry)

/-- The cell of an operator's identifier. -/
def State.cellNamed (s : State) (id : Nat) : Option CellSt := s.foyer.cells.find? (fun c => c.rec_.cellId == id)

/-- Change the cell of an entry. -/
def State.modCell (s : State) (entry : Nat) (f : CellSt → CellSt) : State :=
  { s with foyer := { s.foyer with cells := modFirst (fun c => c.rec_.entry == entry) f s.foyer.cells } }

/-- R464: buckets count records × 10^12; a bucket of rate RATE_MILLI gains RATE_MILLI for each tick. -/
abbrev bucketUnit : Nat := 1000000000000

/-- R464: the level of a bucket at a moment. -/
def bucketNow (level filled rate depth now : Nat) : Nat := min (depth * bucketUnit) (level + rate * (now - filled))

/-- A cell that has not been bound. -/
def cellNew (r : CellRec) : CellSt := ⟨r, 3, none, 0, 0, 0, 0, 0, none, 0, [], none, false, [], 0, none⟩

/-- Insert a cell in ascending ENTRY. -/
def insertCell (c : CellSt) : List CellSt → List CellSt
  | [] => [c]
  | d :: t => if c.rec_.entry < d.rec_.entry then c :: d :: t else d :: insertCell c t

/-- R464: the aggregate bucket as it stands now; it is full while no cell is bound. -/
def State.aggRefill (s : State) : State :=
  let b := s.foyer.cells.filter (fun c => c.state == 1)
  let depth := s.fval Od.aggBurst
  let v := if b.isEmpty then depth * bucketUnit else bucketNow s.foyer.agg s.foyer.aggAt ((b.map (·.rec_.rate)).sum) depth s.epoch
  { s with foyer := { s.foyer with agg := v, aggAt := s.epoch } }

/-- R384, R461: the hall that serves a field stream of a model: a hall that holds the model (DESIGN CHOICE, log entry 21). -/
def State.fieldHall (s : State) (m : Nat) : Nat :=
  match s.pkgOf m with
  | none => 1
  | some p => ((((p.slices.filter s.holds).map (·.hall)).find? (fun h => bit (s.odGet Od.hallsPresent) h))).getD 1

/-- R461: MAP_UPDATE: the Foyer learns a cell record with its binding state (DESIGN CHOICE, log entry 22 gives the layout: a count, then records with
their state). -/
def State.mapUpdate (s : State) (c : CellSt) : State :=
  let r := c.rec_
  s.balSend 0x83 (leBytes 2 1 ++ zeros 14 ++ leBytes 8 r.cellId ++ leBytes 2 r.entry ++ leBytes 2 r.model ++ leBytes 4 r.rate ++ leBytes 1 r.burst ++
    leBytes 1 (if r.dropLate then 1 else 0) ++ leBytes 1 c.state ++ zeros 1 ++ leBytes 4 r.budget ++
    beBytes 16 r.reply.toNat ++ leBytes 2 r.replyPort ++ zeros 6)

/-- R461, R462: bind a cell, or refuse it; a cell whose model is not loaded waits for it. -/
def State.bindCell (s : State) (entry : Nat) : State :=
  match s.cellAt entry with
  | none => s
  | some c =>
    let r := c.rec_
    let s :=
      if s.odGet Od.fieldBase ≤ r.entry ∧ (s.pkgOf r.model).isNone then
        s.modCell entry (fun c => { c with state := 3, held := none, leaving := false })
      else if s.odGet Od.fieldBase ≤ r.entry ∧ !(s.kBounds r.model).isEmpty ∧ s.admits r.model r.rate (r.budget * 1000) false then
        let h := s.fieldHall r.model
        let owner := ((kfind r.model s.serve.models).map (·.tenant)).getD 0
        let w0 := r.model * 2 ^ 32 + owner * 2 ^ 24 + (if r.dropLate then 2 ^ 18 else 0) + stField
        let ring := fieldRing h entry
        let w16 := h * 2 ^ 40
        let words := kset 0 16 w16 (kset 0 4 (ring + 8192) (kset 0 2 ring (kset 0 0 w0 [])))
        let s := s.aggRefill
        let s := s.setStream entry { StreamRec.reset with words := words, admitted := some (r.rate, r.budget * 1000) }
        let f := fun (c : CellSt) =>
          { c with
            state := 1, last := none, bucket := r.burst * bucketUnit, filled := s.epoch, held := none, steps := 0,
            missing := [], answer := none, leaving := false, ring := ring, gateSeq := none }
        let s := s.modCell entry f
        ((s.flushWords entry 1 11).flushWords entry 12 8).flushWords entry 0 1
      else
        let s := s.modCell entry (fun c => { c with state := 2, held := none, leaving := false })
        (s.count Od.cellsRefused 1).logLimited { code := 0x6013, stream := entry, model := r.model } 0 oneSec
    match s.cellAt entry with
    | some c => s.mapUpdate c
    | none => s

/-- R461: after the ledger released a field stream's share: retry refused cells in ascending ENTRY up to the first refused again. -/
def retryRefused : List Nat → State → State
  | [], s => s
  | e :: rest, s =>
    let s := s.bindCell e
    match s.cellAt e with
    | some c => if c.state = 1 then retryRefused rest s else s
    | none => s

/-- The refused cells in ascending ENTRY. -/
def State.refusedCells (s : State) : List Nat := (s.foyer.cells.filter (fun c => c.state == 2)).map (·.rec_.entry)

/-- R463: the entry becomes FREE, and the ledger releases its share. -/
def State.freeEntry (s : State) (entry : Nat) : State :=
  let s := (s.leaveSteps entry).releaseShare entry
  let s := s.putSw entry 16 (setBits (s.sw entry 16) 32 32 0)
  s.setState entry stFree

/-- Remove the cell of an entry from the map. -/
def State.dropCell (s : State) (entry : Nat) : State :=
  { s with foyer := { s.foyer with cells := s.foyer.cells.filter (fun c => c.rec_.entry != entry) } }

/-- R460, R462: add a cell: it is bound at once in Run and in Stopped, from which no entry into Run binds it (DESIGN CHOICE, log entry 41). -/
def State.addCell (s : State) (r : CellRec) : State :=
  let s : State := { s with foyer := { s.foyer with cells := insertCell (cellNew r) s.foyer.cells } }
  if s.mode = .run ∨ s.mode = .stopped then s.bindCell r.entry else s.mapUpdate (cellNew r)

/-- R461, R463: a cell unbinds; the records that wait for its place are added, and refused cells are tried again. -/
def State.cellLeaves (s : State) (c : CellSt) : State :=
  let e := c.rec_.entry
  let s := s.aggRefill
  let s := if s.sState e = stField then s.freeEntry e else s
  let s := (s.dropCell e).mapUpdate { c with state := 0 }
  let s := c.next.foldl State.addCell s
  if c.state = 1 then retryRefused s.refusedCells s else s

/-- A step that serves the stream is open. -/
def State.stepOpen (s : State) (i : Nat) : Bool := s.serve.steps.any (fun x => x.slots.contains i && !x.removed.contains i)

/-- R466: the held record crosses. -/
def State.releaseHeld (s : State) (entry : Nat) : State :=
  match s.cellAt entry with
  | some c =>
    match c.held with
    | some (r, arr, port) =>
      let s := s.modCell entry (fun c => { c with held := none })
      s.balSend 0x01 (leBytes 2 entry ++ leBytes 1 port ++ zeros 5 ++ leBytes 8 arr ++ r)
    | none => s
  | none => s

/-- R463, R466: a field stream's step has committed or been abandoned: READY clears, a leaving cell unbinds, a held record
crosses. -/
def State.fieldStepEnd (s : State) (i : Nat) : State :=
  let s := s.putSw i 16 (setBits (s.sw i 16) 32 32 0)
  match s.cellAt i with
  | some c => if c.leaving then s.cellLeaves c else s.releaseHeld i
  | none => s

/-- R463: a cell unbinds: at once, or at the end of its open step. -/
def State.unbindCell (s : State) (c : CellSt) : State :=
  if c.leaving ∨ (c.state = 1 ∧ s.stepOpen c.rec_.entry) then
    s.modCell c.rec_.entry (fun c => { c with leaving := true, next := [], held := none })
  else s.cellLeaves { c with next := [] }

end Sys2Proof.Machine
end

