-- ==== Sys2Proof/Machine/Answers.lean ====
section
/-!
DEFINITION. Answers.lean: the answer of a dictionary access goes to whoever made it (R52, R54, R57, R58).
-/

namespace Sys2Proof.Machine

/-- R488: an Ed448 signature of the device key. -/
def signed (context : Nat) (b : Bytes) : Bytes := b ++ (List.range 114).map (Config.sign context b)

/-- R441: a mailbox command completes: its output leaves, and the completion interrupt uses vector 0 (enabled where the vector is unmasked, log
entry 30). -/
def State.mbDone (s : State) (m : OutMsg) : State := (s.emit m).signal 0

/-- R57: response bytes in network byte order. -/
def netBytes (op k : Nat) (b : Bytes) : Bytes :=
  if op = 2 then b.reverse
  else if op = 0 ∧ ((odRow k).map (fun r => r.ty.size.isSome)).getD true then b.reverse else b

/-- R56 to R58: a signed EOP response. -/
def eopFrame (now : Nat) (opcode seq : Nat) (path : Word64) (status odSeq : Nat) (b : Bytes) : Bytes :=
  let pay := beBytes 2 status ++ zeros 2 ++ beBytes 8 odSeq ++ b
  signed 0 (beBytes 2 0x454F ++ beBytes 1 1 ++ beBytes 1 opcode ++ beBytes 1 3 ++ zeros 1 ++ beBytes 2 pay.length ++ beBytes 1 0xFF ++ zeros 3 ++
    beBytes 8 seq ++ beBytes 8 now ++ beBytes 8 path.toNat ++ pay)

/-- The response of an access goes to whoever made it. -/
def State.respond (s : State) (o : Origin) (op k status seq : Nat) (b : Bytes) : State :=
  match o with
  | .mailbox => s.mbDone (.od o status seq b)
  | .eop addr udp opcode n path =>
    let s := s.emit (.od o status seq b)
    s.balSend 0x82 (beBytes 16 addr.toNat ++ leBytes 2 udp ++ zeros 6 ++ eopFrame s.epoch opcode n path status seq (netBytes op k b))
  | .arcade src tag opcode => s.sendOdResponse src tag opcode status seq b
  | .via _ => s.emit (.od o status seq b)

/-- R282: writes of XLATE_INVALIDATE whose accesses have completed are answered. -/
def State.answerReady (s : State) : State :=
  s.od.ready.foldl (fun s e => s.respond e.1 e.2.1 e.2.2.1 0 e.2.2.2 []) { s with od := { s.od with ready := [] } }

end Sys2Proof.Machine
end

