-- ==== Sys2Proof/Machine/Errors.lean ====
section
/-!
DEFINITION. Errors.lean: module states as they change (R62, R63), Safe Stop (R530, R531), and Faults in error episodes (R521 to
R523).
-/

namespace Sys2Proof.Machine

/-! ### Module states -/

/-- R62: the code of a state; Off has none and reads 0. -/
def ModState.code : ModState → Nat
  | .off => 0 | .standby => 1 | .training => 2 | .ready => 3 | .run => 4 | .stopped => 5 | .safeStop => 6

/-- R53: an OD_STATE_WAIT completes with the state reached. -/
def State.endStateWait (s : State) : State :=
  match s.od.stateWait with
  | none => s
  | some w =>
    ({ s with od := { s.od with stateWait := none } } : State).respond w.origin 6 0 0 (s.odGet Od.odWriteSeq) (leBytes 1 s.mode.code)

/-- R62, R53: MODULE_STATE changes; STATE_SINCE is written, and an OD_STATE_WAIT for this state completes. -/
def State.setMode (s : State) (m : ModState) : State :=
  let s := ({ s with mode := m, trans := none } : State).odPut Od.stateSince s.epoch
  match s.od.stateWait with
  | some w => if w.target = m.code then s.endStateWait else s
  | none => s

/-! ### Safe Stop (R530, R531, R445) -/

/-- R530: every arch that is not disabled goes down. -/
def ArcadeSt.allDown (a : ArcadeSt) (now : Nat) : ArcadeSt :=
  { a with arches := a.arches.map (fun e => (e.1,
      if e.2.state = 0 then e.2
      else { e.2 with state := 5, lanes := 0, retry := [], resend := [], queues := [], ctl := [], timeCtl := [], nak := false,
                      discard := false, partial_ := [], owed := [], downAt := now })), held := [] }

/-- R291: a park under way is abandoned: the entry keeps its bonded copy. A restore under way is abandoned too, and is made again from its copy. -/
def State.abandonParks (s : State) : State :=
  let n := (s.serve.streams.filter (fun e => e.2.cache.any (fun c => c.moving.isSome))).length
  let f := fun (r : StreamRec) => { r with cache := r.cache.map (fun c => if c.moving = some 0 then { c with moving := none } else c) }
  ({ s with serve := { s.serve with streams := s.serve.streams.map (fun e => (e.1, f e.2)) } } : State).count Od.moverAbandoned n

/-- R291, R530: the module leaves Run into Safe Stop: every descriptor that has not ended is abandoned, and no page request is left. -/
def State.allAbandoned (s : State) : State :=
  let s := (s.abandonDescs (fun _ => true)).abandonParks
  { s with xlate := { s.xlate with requests := [] } }

/-- R530: what serves work ends without a write to any stream entry (R531). -/
def ServeSt.dropped (v : ServeSt) : ServeSt :=
  { v with steps := [], batches := [], moves := [], early := [], colls := [], exchanges := [], skipped := [] }

/-- R446, R530: the port loses its power, and the link goes down. -/
def State.portDark (s : State) : State :=
  if !(s.cxl.linkUp || s.cxl.pcieOnly) then s
  else
    let s := ((({ s with cxl := s.cxl.unlinked } : State).uncommit).count Od.linkLosses 1).logEv { code := 0x6110 }
    (drainHost (s.cxl.waiting.length + 1) s).answerReady

/-- R530: entry into Safe Stop with its cause: 0x1301 and OD 0x1300.12, the open steps abandoned, every program stopped without
commit, the arches down, the running test aborted, Viral where OD 0x6100.12 allows it and the host has enabled it (free,
log entry 27), hall power removed, for some causes with the power of the CXL port, whose link goes down. In Safe Stop and Off nothing is entered again. -/
def State.enterSafeStop (s : State) (cause : Nat) : State :=
  if s.mode = .safeStop ∨ s.mode = .off then s
  else
    let s := s.logEv { code := 0x1301, detail := leBytes 2 cause }
    let s := s.odPut Od.safeStopCause cause
    let s := if s.test.run.isSome then
        let s := match s.test.run with
          | some r => if r.kind = 1 then s.odPut Od.testState 5 else if r.kind = 2 then s.odPut Od.marginState 5 else s.odPut Od.bistState 5
          | none => s
        { s with test := { s.test with run := none } }
      else s
    let s := s.allAbandoned
    let s : State :=
      { s with halls := { HallsSt.reset with layers := s.halls.layers, tasks := s.halls.tasks }, serve := s.serve.dropped,
               arcade := s.arcade.allDown s.epoch,
               power := { s.power with hallPower := [] } }
    let s := if s.odGet Od.viralOnSafeStop ≠ 0 && s.cxl.linkUp && Config.freeBit s.free 0x6100 12 then
        ({ s with cxl := { s.cxl with viral := true } } : State).emit .viral
      else s
    ((if darkCause cause then s.portDark else s).tick).setMode .safeStop

/-! ### Subjects (R521) -/

/-- R521: a subject of hall and unit. -/
def unitSubject (kind hall unit : Nat) : Subject := ⟨kind, hall * 256 + unit, hall * 256 + unit⟩

/-- The blocks of a slice. -/
def sliceBlocks (sl : Slice) : Nat := cdiv sl.t5Bytes 4096

/-- R181: bytes of the data area that the packing pass wrote for a slice. -/
def State.sliceData (s : State) (sl : Slice) : Nat :=
  (s.serve.models.findSome? (fun e =>
    let l := (e.2.pkg.map (·.slices)).getD []
    if l.contains sl then some ((kget (0, 0, []) (l.idxOf sl) e.2.work).2.1 * 64) else none)).getD 0

/-- R180: the offset and RAW of block b of a slice that is stored under a readable index entry. -/
def State.sliceEntry (s : State) (sl : Slice) (b : Nat) : Option (Nat × Bool) :=
  let e := leNat (s.memBytes (sl.idxAddr + 4 * b) 4)
  if s.memPoisoned (sl.idxAddr + 4 * b) 4 || !indexValid e || bit e 30 then none else some (indexOffset e, bit e 31)

/-- R180, R181, R193: block b of a stored slice: the device address and length of its stored bytes; length 0 for a zero block. -/
def State.blockAt (s : State) (sl : Slice) (b : Nat) : Nat × Nat :=
  let e := leNat (s.memBytes (sl.idxAddr + 4 * b) 4)
  if e = 2 ^ 30 then (sl.dataAddr, 0)
  else
    let (o, n) := storedExtent (s.sliceEntry sl) (fun o => (s.memByte (sl.dataAddr + o)).toNat) (sliceBlocks sl) (s.sliceData sl) b
    (sl.dataAddr + o, n)

/-- R521: an address lies in the stored bytes, the index entry or the check value of a block of a slice. -/
def State.inBlock (s : State) (sl : Slice) (b a : Nat) : Bool :=
  let (d, n) := s.blockAt sl b
  (decide (d ≤ a) && decide (a < d + n)) || (decide (sl.idxAddr + 4 * b ≤ a) && decide (a < sl.idxAddr + 4 * b + 4)) ||
  (decide (sl.chkAddr + 4 * b ≤ a) && decide (a < sl.chkAddr + 4 * b + 4))

/-- Every slice of every loaded model that this module holds. -/
def State.slices (s : State) : List (Nat × Slice) :=
  s.serve.models.flatMap (fun e => if e.2.state = 3 then (((e.2.pkg.map (·.slices)).getD []).filter s.holds).map (fun x => (e.1, x)) else [])

/-- R521: the weight block of a loaded model that holds an address: model, slice, block. -/
def State.weightBlock (s : State) (a : Nat) : Option (Nat × Slice × Nat) :=
  s.slices.findSome? (fun e => ((List.range (sliceBlocks e.2)).find? (fun b => s.inBlock e.2 b a)).map (fun b => (e.1, e.2, b)))

/-- R521: the subject of kind 1. -/
def State.blockSubject (s : State) (m : Nat) (sl : Slice) (b : Nat) : Subject :=
  ⟨1, (s.blockAt sl b).1, (m * 2 ^ 16 + sl.tensor) * 2 ^ 32 + b⟩

/-- R521: the subject of an uncorrectable word and the model it belongs to: its weight block, or its row. -/
def State.memSubject (s : State) (a : Nat) : Subject × Nat :=
  match s.weightBlock a with
  | some (m, sl, b) => (s.blockSubject m sl b, m)
  | none => (⟨2, a, rowOf a⟩, 0)

/-- R521: an open episode's subject is the subject, or contains it: a withdrawn stack or mezzanine contains the rows in its
range. -/
def Subject.covers (x y : Subject) : Bool :=
  (x.kind == y.kind && x.key == y.key) ||
  (x.kind == 7 && y.kind == 2 && x.at_ ==
    (if y.at_ < mezzBase then stackOf y.at_ / 6 * 256 + stackOf y.at_ else mezzHallOf y.at_ * 256 + 0xFF))

/-! ### Episodes (R521 to R523) -/

/-- An open episode that a subject joins. -/
def State.episodeOf (s : State) (x : Subject) : Option Episode := s.newel.episodes.find? (fun e => e.subj.covers x)

/-- Change an episode. -/
def State.modEpisode (s : State) (n : Nat) (f : Episode → Episode) : State :=
  { s with newel := { s.newel with episodes := modFirst (fun e => e.num == n) f s.newel.episodes } }

/-- An episode closes. -/
def State.closeEpisode (s : State) (n : Nat) : State :=
  { s with newel := { s.newel with episodes := s.newel.episodes.filter (fun e => e.num != n) } }

/-- R13, R521: the withdrawn range of a subject of kind 7 holds an address. -/
def Subject.inRange (x : Subject) (a : Nat) : Bool :=
  if x.at_ % 256 = 0xFF then decide (mezzBase ≤ a) && mezzHallOf a == x.at_ / 256 else decide (a < mezzBase) && stackOf a == x.at_ % 256

/-- R521: an item of a model lies in a withdrawn range. -/
def State.itemsIn (s : State) (x : Subject) : Bool :=
  s.slices.any (fun e => [e.2.dataAddr, e.2.idxAddr, e.2.chkAddr].any x.inRange || (e.2.shadow != 0 && x.inRange e.2.shadow))

/-- R521: an open episode has met its closing rule: of an arch or member, every stopped job is loaded again or abandoned; of a withdrawn range, it holds
no item; of a program image, it is repaired (phase 5) and its job loaded again. -/
def State.settled (s : State) (e : Episode) : Bool :=
  let stopped := fun code => s.serve.jobs.any (fun j => j.code == code && !j.abandoned)
  match e.subj.kind with
  | 6 => !stopped 0x5020
  | 7 => !s.itemsIn e.subj
  | 9 => e.phase == 5 && !stopped 0x3075
  | _ => false

/-- R521: the episodes that have met their closing rule close. -/
def State.closeSettled (s : State) : State :=
  { s with newel := { s.newel with episodes := s.newel.episodes.filter (fun e => !s.settled e) } }

/-- R521: a Fault joins an episode; a second corridor, and a second restart of Newel, escalate to Safe Stop. -/
def State.joinEpisode (s : State) (e : Episode) (ev : LogEv) (time : Nat) : State :=
  let s := s.record ev 0 1 time e.num (e.records + 1)
  let up := ev.code == 0x3005 || ev.code == 0x1220
  let f := fun (x : Episode) =>
    { x with records := x.records + 1, joins := x.joins + 1, last := ev.code, lastAt := time, phase := if up then 4 else x.phase }
  let s := s.modEpisode e.num f
  if up then s.enterSafeStop ev.code else s

/-- R521, R522: Newel takes a Fault: it joins the episode of its subject, or opens one, or, as the fifth, is logged with EPISODE 0,
after which 0x1302 leads to Safe Stop. -/
def State.takeFault (s : State) (ev : LogEv) (x : Subject) (model time : Nat) : State :=
  match s.episodeOf x with
  | some e => s.joinEpisode e ev time
  | none =>
    if 4 ≤ s.newel.episodes.length then
      let s := s.record ev 0 1 time 0 0
      (s.record { code := 0x1302 } 0 1 s.epoch 0 0).enterSafeStop 0x1302
    else
      let n := s.newel.nextEpisode
      let s := s.record ev 0 1 time n 1
      let e : Episode := ⟨n, 1, ev.code, ev.code, s.epoch, x, 1, 0, model, 0, time⟩
      let s : State := { s with newel := { s.newel with episodes := s.newel.episodes ++ [e],
                                                        nextEpisode := if n = 65535 then 1 else n + 1 } }
      s.count Od.episodesOpened 1

/-- R520, R521: a Fault reaches Newel. While the pair restarts it waits in the event queue (R479). -/
def State.raiseFault (s : State) (ev : LogEv) (x : Subject) (model : Nat := 0) : State :=
  if s.newel.restarting then
    if s.newel.eventQueue.length < 64 then
      { s with newel := { s.newel with eventQueue := s.newel.eventQueue ++ [⟨ev, some x, model, s.epoch⟩] } }
    else s.count Od.recordOverflow 1
  else s.takeFault ev x model s.epoch

/-- R521: the subject of a Fault that stops a program: its image, its flight, the arch or member of the open episode, or its
model. -/
def State.stopSubject (s : State) (code fk addr : Nat) : Subject :=
  if code = 0x3075 then ⟨9, fk / 20 * 256 + fk % 20, addr⟩
  else if code = 0x5020 then
    ((s.newel.episodes.find? (fun e => e.subj.kind == 6)).map (·.subj)).getD (unitSubject 6 0xFF 0xFF)
  else if code = 0x4040 then
    ((s.newel.episodes.find? (fun e => e.subj.kind == 1)).map (·.subj)).getD (unitSubject 1 0xFF 0xFF)
  else unitSubject 3 (fk / 20) (fk % 20)

/-- R246, R520: the record of a stopped program. -/
def State.logStop (s : State) (ev : LogEv) (fk addr : Nat) : State :=
  if faultCodes.contains ev.code then s.raiseFault ev (s.stopSubject ev.code fk addr) ev.model else s.logEv ev

/-- A Fatal code: logged, and Safe Stop with it as the cause (R520, R530). -/
def State.fatal (s : State) (ev : LogEv) : State := (s.logEv ev).enterSafeStop ev.code

/-! ### Uncorrectable words (R260, R264 to R266) -/

/-- R265: the spare row that the next retirement of a bonded address's bank takes; none in the mezzanine, and where the bank has no spare left. -/
def State.nextSpare (s : State) (a : Nat) : Option Nat :=
  let used := kget 0 (bankOfRow (rowOf a)) s.mem.spares
  if a < mezzBase ∧ used < 8 then some used else none

/-- R264 to R266: a row is remapped to a spare, whose count starts at 0 (DEDUCED, log entry 90), or a mezzanine row is listed for repair. A remapped row that
meets R264 again takes another spare. -/
def State.retireRow (s : State) (a : Nat) : State :=
  let r := rowOf a
  let h := memHall a
  if a < mezzBase then
    let b := bankOfRow r
    match s.nextSpare a with
    | some used =>
      let m := { s.mem with retired := kput r used s.mem.retired, spares := kset 0 b (used + 1) s.mem.spares, rowCe := kset 0 r 0 s.mem.rowCe }
      let s := ({ s with mem := m } : State).count Od.rowsRetired 1
      let s := s.odPut Od.spareRowsLeft (s.odGet Od.spareRowsLeft - 1)
      s.logEv { code := 0x2011, hall := h, unit := stackOf a, address := a }
    | none =>
      if s.mem.exhausted.contains b then s
      else
        ({ s with mem := { s.mem with exhausted := s.mem.exhausted ++ [b] } } : State).logEv
          { code := 0x2012, hall := h, unit := stackOf a, address := a }
  else if s.mem.repairs.contains r ∨ 64 ≤ (s.mem.repairs.filter (fun x => (x - 0x100000000) / 2 ^ 24 / 20 == h)).length then s
  else
    ({ s with mem := { s.mem with repairs := s.mem.repairs ++ [r] } } : State).logEv { code := 0x2011, hall := h, address := a }

end Sys2Proof.Machine
end

