-- ==== Sys2Proof/WellFormed.lean ====
section
/-!
DEFINITION. WellFormed.lean: the parts that a command may name: 4 halls, 20 flights a hall (R93, R223), 12 arches (R398), 3 field
ports (R453), 24 bonded stacks (R13), 64 tenants (R275), 64 MSI-X vectors (R443).
-/

namespace Sys2Proof

/-- The hall exists. -/
def hallOk (h : Nat) : Bool := decide (h < 4)
/-- The flight exists. -/
def flightOk (f : FlightId) : Bool := hallOk f.hall && decide (f.idx < 20)
/-- The arch exists. -/
def archOk (n : Nat) : Bool := decide (n < 12)
/-- The field port exists: 0 and 1 optical, 2 management. -/
def portOk (p : Nat) : Bool := decide (p < 3)
/-- The optical port exists. -/
def opticalOk (p : Nat) : Bool := decide (p < 2)
/-- The bonded stack exists. -/
def stackOk (n : Nat) : Bool := decide (n < 24)
/-- The tenant exists. -/
def tenantOk (t : Nat) : Bool := decide (t < 64)
/-- The MSI-X vector exists. -/
def vectorOk (v : Nat) : Bool := decide (v < 64)

/-- Every part that a command names exists. A command that names a part the module does not have has no meaning. -/
def wellFormed (i : Instr) : Bool :=
  match i with
  | .odRead _ => true
  | .odWrite _ => true
  | .odDomainReadStart _ => true
  | .odDomainWriteStart _ => true
  | .odDomainSegment _ => true
  | .odDomainAbort _ => true
  | .odStateWait _ => true
  | .stateWaitTimeout => true
  | .domainAborted _ _ _ => true
  | .proxyTimeout _ => true
  | .odRequest f _ _ => archOk f.arch
  | .odResponse f _ _ _ _ => archOk f.arch
  | .eopDatagram d => portOk d.port
  | .eopRead d => portOk d.port
  | .eopWrite d => portOk d.port
  | .eopDomainReadStart d => portOk d.port
  | .eopDomainWriteStart d => portOk d.port
  | .eopDomainSegment d => portOk d.port
  | .eopDomainAbort d => portOk d.port
  | .stateRequest _ => true
  | .stateTransitionEnd => true
  | .store _ => true
  | .restore _ => true
  | .tenantRootWrite _ tenant => tenantOk tenant
  | .xlateInvalidate _ => true
  | .pageResponse _ => true
  | .prlConsumerWrite _ => true
  | .clogConsumerWrite _ => true
  | .tableBaseWrite _ _ => true
  | .hostWindowWrite _ _ => true
  | .layerModeWrite _ => true
  | .loadRequest _ _ => true
  | .packingDone _ _ => true
  | .partTimeout _ => true
  | .unload _ => true
  | .fieldMapWrite _ => true
  | .fieldCellSet _ => true
  | .errorAck _ => true
  | .persistentClear _ => true
  | .attestReport _ _ => true
  | .fwImage _ _ _ => true
  | .fwProgramDone _ => true
  | .fwActivate _ => true
  | .trainRequest _ => true
  | .testStart _ _ => true
  | .testAbort _ => true
  | .testEnd _ _ _ => true
  | .marginStart _ => true
  | .marginEnd _ => true
  | .bistStart _ => true
  | .bistEnd _ _ => true
  | .measStart _ => true
  | .measDone _ => true
  | .identify => true
  | .backgroundOperationStatus => true
  | .requestAbortBackgroundOperation => true
  | .getEventRecords _ => true
  | .clearEventRecords _ _ _ => true
  | .getEventInterruptPolicy => true
  | .setEventInterruptPolicy _ => true
  | .getTimestamp => true
  | .setTimestamp _ => true
  | .getSupportedLogs => true
  | .getLog _ _ _ => true
  | .identifyMemoryDevice => true
  | .hdmRead _ _ _ => true
  | .hdmWrite _ _ _ _ _ => true
  | .birsp _ => true
  | .birspTimeout _ => true
  | .h2dSnoop _ => true
  | .hdmDecoderCommit _ _ _ => true
  | .cxlLinkUp _ _ _ => true
  | .cxlLinkDown => true
  | .perst _ => true
  | .flr => true
  | .cxlReset _ => true
  | .d3hotEntry => true
  | .d0Entry => true
  | .programLoad f _ _ => flightOk f
  | .programStart f _ => flightOk f
  | .flightOffer f => flightOk f
  | .nop f => flightOk f
  | .endOp f => flightOk f
  | .repeatOp f => flightOk f
  | .waitOp f => flightOk f
  | .barrier f => flightOk f
  | .stepOp f => flightOk f
  | .barrierTimeout _ _ _ => true
  | .passOp f _ => flightOk f
  | .sparsePass f _ => flightOk f
  | .serialPass f _ => flightOk f
  | .outlierPass f _ => flightOk f
  | .countPass f _ => flightOk f
  | .predict f => flightOk f
  | .drain f => flightOk f.flight
  | .retag f => flightOk f
  | .release f => flightOk f
  | .inject f _ => flightOk f
  | .statscale f => flightOk f
  | .reduce f => flightOk f
  | .fetch f _ => flightOk f
  | .storeOperation f => flightOk f
  | .copy f => flightOk f.flight
  | .fillTokens f => flightOk f
  | .fillOutlier f => flightOk f
  | .fillTable f => flightOk f
  | .handleSet f => flightOk f
  | .send f => flightOk f
  | .recv f => flightOk f
  | .broadcast f => flightOk f
  | .allGather f => flightOk f
  | .reduceScatter f => flightOk f
  | .allReduce f => flightOk f
  | .allToAll f => flightOk f
  | .route f => flightOk f
  | .outboundDispatch f => flightOk f
  | .returnDispatch f => flightOk f
  | .combine f => flightOk f.flight
  | .sample f => flightOk f
  | .mask f => flightOk f
  | .operationEnd f _ => flightOk f
  | .preemptionPoint f => flightOk f
  | .programResume f _ => flightOk f
  | .blockRefetchDone f _ _ => flightOk f
  | .moverTake hall => hallOk hall
  | .moverAccessDone _ _ _ => true
  | .pageTimeout tenant _ => tenantOk tenant
  | .coalesceExpiry vector => vectorOk vector
  | .batchWaitExpiry hall _ _ => hallOk hall
  | .promptShareWindow hall => hallOk hall
  | .ttlCheck => true
  | .parkDone _ _ => true
  | .restoreDone _ => true
  | .expertProgramStart f _ _ _ => flightOk f
  | .exchangeTimeout _ _ => true
  | .rebalancePeriod _ _ => true
  | .replacement _ _ => true
  | .hello f _ _ => archOk f.arch
  | .helloInterval => true
  | .election f => archOk f.arch
  | .electionSettle => true
  | .barrierArrive f => archOk f.arch
  | .barrierRelease f => archOk f.arch
  | .jobStop f => archOk f.arch
  | .syncEpoch f => archOk f.arch
  | .sendData f => archOk f.arch
  | .collData f => archOk f.arch
  | .manifest f => archOk f.arch
  | .exchRows f => archOk f.arch
  | .returnManifest f => archOk f.arch
  | .returnRows f => archOk f.arch
  | .moveData f => archOk f.frame.arch
  | .moveConfirm f => archOk f.arch
  | .dataFlit arch _ => archOk arch
  | .nak arch _ => archOk arch
  | .ackTimeout arch => archOk arch
  | .timeReq arch _ _ _ => archOk arch
  | .timeResp arch _ _ _ _ => archOk arch
  | .timeExchangeTick => true
  | .loopReq arch _ _ => archOk arch
  | .loopAck arch => archOk arch
  | .archTraining arch _ _ _ _ _ => archOk arch
  | .archRetry => true
  | .laneFecWindow arch _ _ => archOk arch
  | .archDown arch cause => archOk arch && decide (cause < 4)
  | .rackSyncPulse => true
  | .rackRefLost => true
  | .timeUnaligned => true
  | .telemetryDatagram d _ => portOk d.port
  | .telemetry _ => true
  | .recommend _ => true
  | .eopReq _ _ => true
  | .eopResp _ => true
  | .timeReport _ => true
  | .foyerEvent _ => true
  | .mapUpdate _ => true
  | .config _ => true
  | .timeSet _ => true
  | .firmware _ => true
  | .heartbeat _ => true
  | .heartbeatTimeout => true
  | .portLinkChange port _ => portOk port
  | .sfpInserted port _ _ => opticalOk port
  | .ptpMessage _ _ _ _ _ => true
  | .ptpLost => true
  | .esmcPdu port _ => opticalOk port
  | .esmcTimeout port => opticalOk port
  | .ppsEdge _ => true
  | .ppsWindowEnd _ => true
  | .ref10Measure _ _ => true
  | .ppsOutPulse => true
  | .newelRestart _ _ => true
  | .sensorSample _ => true
  | .logIntervalEnd _ _ => true
  | .persistRecord => true
  | .serviceReq _ _ => true
  | .serviceChatterEnd _ => true
  | .serviceStandbyTimer => true
  | .thermtrip _ _ => true
  | .smbusReadModuleState _ => true
  | .smbusReadAlertCauses _ => true
  | .smbusReadHallTemp _ => true
  | .smbusReadStackTemp _ => true
  | .smbusReadCoolantInlet _ => true
  | .smbusReadCoolantOutlet _ => true
  | .smbusReadInputVoltage _ => true
  | .smbusReadInputCurrent _ => true
  | .smbusReadInputPower _ => true
  | .smbusReadIdentity _ => true
  | .smbusReadFwVersion _ => true
  | .alertResponseAddress _ => true
  | .governorTick _ => true
  | .rateBelowFloor hall => hallOk hall
  | .powerFastLimit _ => true
  | .fastLimitHoldEnd => true
  | .inputVoltageEvent _ => true
  | .freqQualify _ _ _ => true
  | .timebaseLockCheck _ _ => true
  | .tcxoStart _ => true
  | .pllLock _ _ => true
  | .scrubRead _ _ _ => true
  | .rowCountClear _ => true
  | .laneCeWindow stack => stackOk stack
  | .recentre hall => hallOk hall
  | .episodeCloseTimer _ => true
  | .weightRepairDone _ _ _ => true
  | .hotswapClose _ => true
  | .mateDetOpen => true
  | .powerGood _ _ => true
  | .training _ => true
  | .memoryTrainingDone _ => true
  | .ready _ => true
  | .extest => true
  | .idcode => true
  | .samplePreload _ => true
  | .extestPulse => true
  | .extestTrain => true
  | .clamp => true
  | .highz => true
  | .bypass => true
  | .corridorDown corridor => decide (corridor < 4)
  | .newelRestartDone => true
  | .fecLockLost arch => archOk arch
  | .flitSlot arch => archOk arch
  | .echo arch _ => archOk arch
  | .msixVectorUnmask vector function => (function || vectorOk vector)
  | .icmpEcho port _ => portOk port
  | .programImageRepaired _ => true

end Sys2Proof
end

