-- ==== Sys2Proof/Machine/Landing.lean ====
section
/-!
DEFINITION. Landing.lean: landings, handle tables and views (chapter 8): reads and writes of landing bytes with their
poison, resolving a handle, the rows and elements that a view presents, the overwrite between tenants.
-/

namespace Sys2Proof.Machine

/-- A flight's key: hall × 20 + index (0 to 11 P, 12 to 19 G). -/
def flightKey (f : FlightId) : Nat := f.hall * 20 + f.idx

/-- A G-flight. -/
def flightIsG (f : FlightId) : Bool := decide (12 ≤ f.idx)

/-- The flight of a key. -/
def flightOf (k : Nat) : FlightId := ⟨k / 20, k % 20⟩

/-- The hall landing of a hall. -/
def hallLanding (h : Nat) : Nat := 80 + h

/-- R201: the capacity of a landing in bytes. -/
def landingSize (l : Nat) : Nat := if 80 ≤ l then 67108864 else if 12 ≤ l % 20 then 2097152 else 8388608

/-- R201: the banks N of a landing. -/
def landingBanks (l : Nat) : Nat := if 80 ≤ l then 256 else if 12 ≤ l % 20 then 32 else 64

/-- R201: the bytes of a bank. -/
def bankSize (l : Nat) : Nat := if 80 ≤ l then 262144 else if 12 ≤ l % 20 then 65536 else 131072

/-- R201: the bank in which the 64-byte unit u of a landing lies. -/
def landingBank (l u : Nat) : Nat := u % landingBanks l

/-- R201, R202: the group of eight banks that a wide access to the 512 bytes from unit u covers. -/
def bankGroup (l u : Nat) : Nat := landingBank l u / 8

/-- A landing. -/
def State.landing (s : State) (l : Nat) : Landing := kget Landing.reset l s.halls.landings

/-- Set a landing. -/
def State.setLanding (s : State) (l : Nat) (x : Landing) : State :=
  { s with halls := { s.halls with landings := kset Landing.reset l x s.halls.landings } }

/-- R217: a 64-byte unit holds a defined value for the task number `since`: an access has written it since that task
started. -/
def State.landDefined (s : State) (since l u : Nat) : Bool :=
  match kfind u (s.landing l).stamp with
  | some n => decide (since ≤ n)
  | none => false

/-- R217: a byte of a landing as a task reads it; one that nothing has written since the task's start is undefined. -/
def State.landByte (s : State) (since l off : Nat) : Byte :=
  if s.landDefined since l (off / 64) then (kfind off (s.landing l).bytes).getD (Config.freeByte s.free l off)
  else Config.freeByte s.free l off

/-- Bytes of a landing. -/
def State.landBytes (s : State) (since l off n : Nat) : Bytes := (List.range n).map (fun i => s.landByte since l (off + i))

/-- R203, R217: the 8-byte word at an offset delivers poison: its poison bit; for a word of an undefined unit, or with an
unwritten byte, an undefined one. -/
def State.landWordPoison (s : State) (since l w : Nat) : Bool :=
  if s.landDefined since l (w / 8) then
    (kget false w (s.landing l).poison) ||
    ((List.range 8).any (fun i => (kfind (8 * w + i) (s.landing l).bytes).isNone) && Config.freeBit s.free l w)
  else Config.freeBit s.free l w

/-- A read of bytes meets a poisoned word. -/
def State.landPoison (s : State) (since l off n : Nat) : Bool :=
  decide (0 < n) &&
  ((List.range ((off + n - 1) / 8 + 1 - off / 8)).any (fun i => s.landWordPoison since l (off / 8 + i)))

/-- List bytes at rising keys. -/
def kputBytes (m : KMap Byte) : Nat → Bytes → KMap Byte
  | _, [] => m
  | off, b :: t => kputBytes (kput off b m) (off + 1) t

/-- R203, R218: a write of bytes with or without poison by a task of a tenant. A word is poisoned when a writer supplies
poisoned data, and clear when the write covers it whole with clean data. -/
def Landing.write (x : Landing) (off : Nat) (data : Bytes) (poison : Bool) (tenant task : Nat) : Landing :=
  let words := (List.range ((off + data.length - 1) / 8 + 1 - off / 8)).map (· + off / 8)
  let units := (List.range ((off + data.length - 1) / 64 + 1 - off / 64)).map (· + off / 64)
  if data = [] then x
  else
    { x with
      bytes := kputBytes x.bytes off data
      poison := words.foldl (fun p w =>
        if poison then kset false w true p
        else if off ≤ 8 * w ∧ 8 * w + 8 ≤ off + data.length then kset false w false p else p) x.poison
      owner := units.foldl (fun o u => kput u tenant o) x.owner
      stamp := units.foldl (fun o u => kput u task o) x.stamp }

/-- A write into a landing. -/
def State.landWrite (s : State) (l off : Nat) (data : Bytes) (poison : Bool) (tenant : Nat) : State :=
  s.setLanding l ((s.landing l).write off data poison tenant s.halls.tasks)

/-! ### Handles (R211 to R216) -/

/-- R212: a handle table entry by its fields, with the table and number it stands at, and the task that uses
it (R217). -/
structure Buf where
  table    : Nat
  handle   : Nat
  landing  : Nat
  view     : Nat
  fmt      : Nat
  ro       : Bool
  outl     : Bool
  olist    : Nat
  lsb      : Int
  channels : Nat
  rows     : Nat
  pitch    : Nat
  stride   : Nat
  base     : Nat
  since    : Nat
  deriving DecidableEq, Repr

/-- R212: the fields of an entry of the table of landing `l`. -/
def bufOf (since l h e : Nat) : Buf :=
  { table := l, handle := h, since := since,
    landing := if bit e 126 then hallLanding (if 80 ≤ l then l - 80 else l / 20) else l,
    view := bits e 125 124, fmt := bits e 123 120, ro := bit e 119, outl := bit e 118, olist := bits e 117 110,
    lsb := toInt 16 (bits e 95 80), channels := bits e 79 64 * 32, rows := bits e 63 48, pitch := bits e 47 32,
    stride := bits e 31 24, base := bits e 19 0 }

/-- R213: the least pitch of a row format in units; 0 for formats without rows. -/
def rowUnitsMin (b : Buf) : Nat :=
  match b.fmt with
  | 1 => rowBytes false b.outl b.channels / 64
  | 2 => rowBytes true b.outl b.channels / 64
  | 3 => cdiv (b.channels * 8) 64
  | 4 => cdiv (cdiv b.channels 8) 64
  | _ => 0

/-- R213: an entry is acceptable in the table of landing `l`; `olistOk` says that the entry its OLIST names is valid with
FMT 0xD. -/
def entryOk (l e : Nat) (olistOk : Nat → Bool) : Bool :=
  let b := bufOf 0 l 0 e
  decide (b.view ≠ 3) && decide (b.fmt < 14) && decide (bits e 109 96 = 0) && decide (bits e 23 20 = 0) &&
  !(bit e 126 && decide (80 ≤ l)) && decide (1 ≤ b.rows) &&
  decide (b.base + b.rows * b.pitch ≤ landingSize b.landing / 64) &&
  decide (rowUnitsMin b ≤ b.pitch) &&
  (!b.outl || ((b.fmt == 1 || b.fmt == 2) && olistOk b.olist)) &&
  (decide (b.view ≠ 2) || ((b.fmt == 1 || b.fmt == 2) && !b.outl && decide (b.rows % 32 = 0) && decide (1 ≤ b.channels))) &&
  (if b.view = 1 then decide (1 ≤ b.stride) else decide (b.stride = 1))

/-- The handle table of a landing. -/
def State.handleEntry (s : State) (l h : Nat) : Nat := kget 0 h (s.landing l).handles

/-- R214: the buffer that a handle names; none where the entry is not VALID. -/
def State.resolve (s : State) (since l h : Nat) : Option Buf :=
  let e := s.handleEntry l h
  if bit e 127 then some (bufOf since l h e) else none

/-- Write a handle table entry. -/
def State.setHandle (s : State) (l h e : Nat) : State :=
  let x := s.landing l
  s.setLanding l { x with handles := kset 0 h e x.handles }

/-- R113, R423: write LSB_EXP of the entry through which a buffer was resolved. -/
def State.setLsb (s : State) (b : Buf) (e : Int) : State :=
  s.setHandle b.table b.handle (setBits (s.handleEntry b.table b.handle) 95 80 (ofInt 16 e))

/-- R215: the buffer row that view row k is, counted from the row that the operation names. -/
def Buf.row (b : Buf) (row0 k : Nat) : Nat := if b.view = 1 then row0 + k * b.stride else row0 + k

/-- R215, R230: the buffer row that tile row r is for an operation of the foot: ROW0 counts for a strided view, and no other. -/
def Buf.footRow (b : Buf) (row0 r : Nat) : Nat := if b.view = 1 then row0 + r * b.stride else r

/-- R216: rows and channels that the view presents. -/
def Buf.viewRows (b : Buf) : Nat := if b.view = 2 then b.channels else b.rows
def Buf.viewChannels (b : Buf) : Nat := if b.view = 2 then b.rows else b.channels

/-- Byte offset of a buffer row in its landing. -/
def Buf.rowOff (b : Buf) (r : Nat) : Nat := (b.base + r * b.pitch) * 64

/-- Byte length of a buffer's region. -/
def Buf.bytesLen (b : Buf) : Nat := b.rows * b.pitch * 64

/-- R214: view row k lies within the view. -/
def Buf.rowOk (b : Buf) (row0 k : Nat) : Bool :=
  if b.view = 2 then decide (row0 + k < b.channels) else decide (b.row row0 k < b.rows)

/-- R214, R230: tile row r lies within the view of an operation of the foot. -/
def Buf.footOk (b : Buf) (row0 r : Nat) : Bool :=
  if b.view = 2 then decide (r < b.channels) else decide (b.footRow row0 r < b.rows)

/-- One value as an operand port meets it: it is read (`met`: it lies within the tensor) and presented to its tread (`act`: no mask takes it out,
R149), its mantissa and exponent, ZERO and CLAMP of its block, the block's number in its buffer, whether the minimum code was read (R69),
and poison. -/
structure Elem where
  met    : Bool
  act    : Bool
  m      : Int
  e8     : Nat
  zero   : Bool
  clamp  : Bool
  blk    : Nat
  min    : Bool
  poison : Bool
  deriving DecidableEq, Repr

/-- A tread that no channel reaches. -/
def Elem.none : Elem := ⟨false, false, 0, 0, true, false, 0, false, false⟩

/-- The value at buffer row r and channel c of an N8 or N4 buffer (R68 to R72). -/
def State.elemAt (s : State) (b : Buf) (r c : Nat) : Elem :=
  if c < b.channels ∧ r < b.rows then
    let n4 := b.fmt == 2
    let o := b.rowOff r
    let ho := o + headerOff n4 b.channels + c / 32 * 2
    let vo := o + (if n4 then c / 2 else c)
    let hdr := leNat (s.landBytes b.since b.landing ho 2)
    let byte := (s.landByte b.since b.landing vo).toNat
    let code := if n4 then (if c % 2 = 0 then byte % 16 else byte / 16) else byte
    let (m, mn) := readMant n4 code
    let z := bit hdr 8
    ⟨true, true, if z then 0 else m, hdr % 256, z, bit hdr 9, r * 4096 + c / 32, mn && !z,
     s.landPoison b.since b.landing ho 2 || s.landPoison b.since b.landing vo 1⟩
  else Elem.none

/-- R215, R216: the value that a view presents at row k (from `row0`), channel c. -/
def State.viewElem (s : State) (b : Buf) (row0 k c : Nat) : Elem :=
  if b.view = 2 then s.elemAt b c (row0 + k) else s.elemAt b (b.row row0 k) c

/-- R216: the value at channel c of a row of the view: buffer row r, or column r of a transposed view. -/
def State.rowElem (s : State) (b : Buf) (r c : Nat) : Elem := if b.view = 2 then s.elemAt b c r else s.elemAt b r c

/-- R71, R74: the 18 bytes of the outlier record of group g of a buffer row, and their poison. -/
def State.outRecAt (s : State) (b : Buf) (r g : Nat) : Bytes × Bool :=
  let o := b.rowOff r + outlierOff (b.fmt == 2) b.channels + 18 * g
  (s.landBytes b.since b.landing o 18, s.landPoison b.since b.landing o 18)

/-- R73: the listed channels of every group of a buffer's outlier list, in list order, with their group. -/
def State.listedChannels (s : State) (b : Buf) : List (Nat × Nat × Nat) :=
  match s.resolve b.since b.table b.olist with
  | none => []
  | some ol =>
    (List.range (cdiv b.channels 256)).flatMap (fun g =>
      let l := outlierList (s.landBytes ol.since ol.landing (ol.base * 64 + 16 * g) 16)
      (l.zip (List.range l.length)).map (fun p => (g, p.2, 256 * g + p.1)))

/-- R78: the S48 word at channel c of buffer row r: its sum, whether it was overlong, and poison. -/
def State.s48At (s : State) (b : Buf) (r c : Nat) : Int × Bool × Bool :=
  let o := b.rowOff r + 8 * c
  let (x, ov) := s48Read (s.landBytes b.since b.landing o 8)
  (x, ov, s.landPoison b.since b.landing o 8)

/-- R133: the bit at channel c of buffer row r of a B1 buffer, and poison. -/
def State.b1At (s : State) (b : Buf) (r c : Nat) : Bool × Bool :=
  let o := b.rowOff r + c / 8
  ((s.landByte b.since b.landing o).getLsbD (c % 8), s.landPoison b.since b.landing o 1)

/-- Entry k of an SAS16 vector (FMT 0x6). -/
def State.sasAt (s : State) (b : Buf) (k : Nat) : Nat × Bool :=
  let o := b.base * 64 + 2 * k
  (leNat (s.landBytes b.since b.landing o 2), s.landPoison b.since b.landing o 2)

/-- R115: stat record k of a vector. -/
def State.statAt (s : State) (b : Buf) (k : Nat) : StatRec × Bool :=
  let o := b.base * 64 + 16 * k
  (readStat (s.landBytes b.since b.landing o 16), s.landPoison b.since b.landing o 16)

/-- R214: a write through a handle is refused with RO set or VIEW transposed. -/
def Buf.writable (b : Buf) : Bool := !b.ro && decide (b.view ≠ 2)

/-- R71: the bytes of a row of blocks and outlier records at channel window ch0: the values and headers are laid over the
row as it stands; `recs` are parts of its outlier area. Result: (offset in the row, bytes) of each part. -/
def rowParts (n4 : Bool) (channels ch0 : Nat) (bs : List Blk) (recs : List (Nat × Bytes)) : List (Nat × Bytes) :=
  [ (if n4 then ch0 / 2 else ch0, valueArea n4 (bs.flatMap (·.mant))),
    (headerOff n4 channels + ch0 / 32 * 2, bs.flatMap (fun b => leBytes 2 b.header)) ] ++
  recs.map (fun p => (outlierOff n4 channels + p.1, p.2))

/-- Write parts of a buffer row. -/
def State.writeRow (s : State) (b : Buf) (r : Nat) (parts : List (Nat × Bytes)) (poison : Bool) (tenant : Nat) : State :=
  parts.foldl (fun s p => s.landWrite b.landing (b.rowOff r + p.1) p.2 poison tenant) s

/-! ### Task start (R217, R218) -/

/-- R218: units of a landing within [lo, hi) that a task of another tenant wrote. -/
def Landing.foreign (x : Landing) (tenant lo hi : Nat) : List Nat :=
  (x.owner.filter (fun e => decide (lo ≤ e.1) && decide (e.1 < hi) && decide (e.2 ≠ tenant))).map (·.1)

/-- R218: the overwrite of units: their contents are values of the landing's choosing, which no rule states: they are
listed no more, and belong to nobody. -/
def Landing.overwrite (x : Landing) (us : List Nat) : Landing :=
  { x with bytes := x.bytes.filter (fun e => !us.contains (e.1 / 64)), poison := x.poison.filter (fun e => !us.contains (e.1 / 8)),
           owner := x.owner.filter (fun e => !us.contains e.1), stamp := x.stamp.filter (fun e => !us.contains e.1) }

end Sys2Proof.Machine
end

