-- ==== Sys2Proof/Machine/Foot.lean ====
section
/-!
DEFINITION. Foot.lean: accumulator tiles and the foot (chapters 3 to 5): promotion, rescale, the format check, the
operands of a pass and its narrow sums, the drain pipeline, STATSCALE, INJECT, stat records, generator draws.
-/

namespace Sys2Proof.Machine

/-! ### Flights -/

/-- A flight. -/
def State.flight (s : State) (k : Nat) : FlightSt := kget FlightSt.reset k s.halls.flights

/-- Set a flight. -/
def State.setFlight (s : State) (k : Nat) (x : FlightSt) : State :=
  { s with halls := { s.halls with flights := kset FlightSt.reset k x s.halls.flights } }

/-- Treads, lanes, tiles and rows of a flight (R94, R104). -/
def treadsOf (g : Bool) : Nat := if g then 64 else 256
def lanesOf (g : Bool) : Nat := if g then 1024 else 256
def tilesOf (g : Bool) : Nat := if g then 2 else 12
def rowsOf (g : Bool) : Nat := if g then 32 else 64

/-- A tile of a flight. -/
def FlightSt.tile (x : FlightSt) (i : Nat) : Tile := kget Tile.reset i x.tiles

/-- Set a tile of a flight. -/
def State.setTile (s : State) (k i : Nat) (t : Tile) : State :=
  let x := s.flight k
  s.setFlight k { x with tiles := kset Tile.reset i t x.tiles }

/-- R123: no tile of the flight is VALID. -/
def FlightSt.atBoundary (x : FlightSt) : Bool := x.tiles.all (fun e => !e.2.valid)

/-! ### Residues (R103, R119, R120) -/

/-- R119: the residue mod 7 of a value, from 0 to 6. -/
def res7 (x : Int) : Nat := (x % 7).toNat

/-- R120: 2^k mod 7, which cycles through 1, 2 and 4. -/
def pow7 (k : Nat) : Nat := if k % 3 = 0 then 1 else if k % 3 = 1 then 2 else 4

/-- R103: the accumulator word of a sum. -/
def AccWord.of (x : Int) : AccWord := ⟨x, res7 x⟩

/-- R120: RES agrees with SUM. -/
def AccWord.good (w : AccWord) : Bool := res7 w.sum == w.res

/-- The accumulator word at a key of a tile. -/
def Tile.word (t : Tile) (k : Nat) : AccWord := kget AccWord.zero k t.sums

/-- R103: every accumulator word of a tile agrees with its residue. -/
def Tile.sound (t : Tile) : Bool := t.sums.all (fun p => p.2.good)

/-! ### Promotion (R77, R81, R106, R120) -/

/-- What a promotion counts: saturations, rescales, and whether a residue check failed. -/
structure Promo where
  sats : Nat
  resc : Nat
  bad  : Bool
  deriving DecidableEq, Repr

/-- Nothing counted. -/
def Promo.none : Promo := ⟨0, 0, false⟩

/-- Both counts. -/
def Promo.add (x y : Promo) : Promo := ⟨x.sats + y.sats, x.resc + y.resc, x.bad || y.bad⟩

/-- R77, R120: add n × 2^k to an accumulator word: the result before it is set to a bound, and whether the lane's residue r and the word's RES
agree with it. -/
def AccWord.plus (w : AccWord) (n : Int) (r k : Nat) : Int × Bool :=
  let x := w.sum + n * (2 : Int) ^ k
  (x, res7 n == r && res7 x == (w.res + r * pow7 k) % 7)

/-- R77, R120: promote a narrow sum (key, n, residue) at 2^k; a sum outside S48 is set to the nearest bound, with the bound's own residue. A zero sum
changes nothing. -/
def addSum (k : Nat) (acc : KMap AccWord × Promo) (p : Nat × Int × Nat) : KMap AccWord × Promo :=
  let (key, n, r) := p
  let w := kget AccWord.zero key acc.1
  let (x, ok) := w.plus n r k
  let (v, c) := s48Clamp x
  (if n = 0 then acc.1 else kset AccWord.zero key (AccWord.of v) acc.1, acc.2.add ⟨if c then 1 else 0, 0, !ok⟩)

/-- R77, R106, R120: bring the tile to a lower exponent; every sum that is rescaled is checked against its RES. -/
def Tile.lower (t : Tile) (e : Int) : Tile × Promo :=
  match t.lsb with
  | none => ({ t with lsb := some e }, Promo.none)
  | some L =>
    if L ≤ e then (t, Promo.none)
    else
      let f : Int := (2 : Int) ^ (L - e).toNat
      let sat := (t.sums.filter (fun p => (s48Clamp (p.2.sum * f)).2)).length
      ({ t with sums := t.sums.map (fun p => (p.1, AccWord.of (s48Clamp (p.2.sum * f)).1)), lsb := some e,
                sat := t.sat || decide (0 < sat) }, ⟨sat, 1, !t.sound⟩)

/-- R77, R120: promote narrow sums (key, n, residue) with exponent Eₙ. -/
def Tile.promote (t : Tile) (e : Int) (ns : List (Nat × Int × Nat)) : Tile × Promo :=
  let (t, p) := t.lower e
  let (sums, q) := ns.foldl (addSum (e - t.lsb.getD e).toNat) (t.sums, Promo.none)
  ({ t with sums := sums, sat := t.sat || decide (0 < q.sats) }, p.add q)

/-- One row of sums that a pass, INJECT or COMBINE brings to the foot: exponent Eₙ, tile row, first lane, sums, and each lane's residue (R119). -/
structure Contrib where
  e    : Int
  row  : Nat
  lane : Nat
  sums : List Int
  res  : List Nat
  deriving DecidableEq, Repr

/-- The keys of a row's sums. -/
def Contrib.keyed (c : Contrib) (W : Nat) : List (Nat × Int × Nat) :=
  ((c.sums.zip c.res).zip (List.range c.sums.length)).map (fun p => (c.row * W + c.lane + p.2, p.1.1, p.1.2))

/-- R77: promote rows in order. -/
def Tile.promoteAll (W : Nat) : List Contrib → Tile → Tile × Promo
  | [], t => (t, Promo.none)
  | c :: cs, t =>
    let (t, p) := t.promote c.e (c.keyed W)
    let (t, q) := Tile.promoteAll W cs t
    (t, p.add q)

/-- What the initialising accumulate records beside the tag (R164, R169). -/
structure SkipInfo where
  skip  : List Nat
  audit : List Nat
  layer : Option Nat
  deriving DecidableEq, Repr

/-- A tile that no prediction vector speaks of. -/
def SkipInfo.none : SkipInfo := ⟨[], [], Option.none⟩

/-- R81, R164: the initialising accumulate of a released tile; a VALID tile is as it was. -/
def Tile.init (t : Tile) (fmt : Nat) (k : SkipInfo) : Tile :=
  if t.valid then t
  else { Tile.reset with valid := true, fmt := fmt, skip := k.skip, audit := k.audit, layer := k.layer }

/-- What an operation brings to one tile: the tile, the operand format, whether a clamped block (R91) and whether poison (R109) was among its operands, what
its vector says (R164), and its rows of sums. -/
structure Accum where
  tile   : Nat
  fmt    : Nat
  clamp  : Bool
  poison : Bool
  info   : SkipInfo
  rows   : List Contrib
  deriving DecidableEq, Repr

/-- R81, R77, R91, R109: the tile after rows have entered it. -/
def Tile.accum (t : Tile) (W fmt : Nat) (clamp poison : Bool) (k : SkipInfo) (cs : List Contrib) : Tile × Promo :=
  let t := t.init fmt k
  Tile.promoteAll W cs { t with sat := t.sat || clamp, poison := t.poison || poison }

/-! ### Upsets (R119 to R122) -/

/-- An upset happens in the rerun. -/
def Upset.again : Upset → Bool
  | .narrow _ _ _ _ r => r
  | .stored _ _ _ _ r => r

/-- The upset that strikes a tile's stored sums as an operation reads them; a sum stays within 48 bits, and its RES as it was. -/
def Upset.strike (W i : Nat) (t : Tile) : Upset → Tile
  | .narrow _ _ _ _ _ => t
  | .stored tile row lane d _ =>
    if tile ≠ i then t
    else
      let w := t.word (row * W + lane)
      { t with sums := kset AccWord.zero (row * W + lane) { w with sum := toInt 48 (ofInt 48 (w.sum + d)) } t.sums }

/-- The narrow sums of promotion `n` of tile i as an upset leaves them; a lane's residue stays as it was. -/
def Upset.bend (i n : Nat) (c : Contrib) : Upset → Contrib
  | .stored _ _ _ _ _ => c
  | .narrow tile promo lane d _ =>
    if tile ≠ i ∨ promo ≠ n then c
    else { c with sums := (c.sums.zip (List.range c.sums.length)).map (fun p => if c.lane + p.2 = lane then p.1 + d else p.1) }

/-- The rows of an operation as upsets leave them. -/
def bendRows (us : List Upset) (i : Nat) (cs : List Contrib) : List Contrib :=
  (cs.zip (List.range cs.length)).map (fun p => us.foldl (fun c u => Upset.bend i p.2 c u) p.1)

/-- R82, R108, R81, R77, R91, R109, R120: an operation enters a tile, under its upsets; the second component says that a residue check failed. None: the
format differs, and nothing enters the tile. -/
def State.accumulate (s : State) (f : FlightId) (us : List Upset) (x : Accum) : Option (State × Bool) :=
  let t := (s.flight (flightKey f)).tile x.tile
  let W := lanesOf (flightIsG f)
  if t.valid && decide (t.fmt ≠ x.fmt) then none
  else
    let t := us.foldl (fun t u => Upset.strike W x.tile t u) t
    let (t, p) := t.accum W x.fmt x.clamp x.poison x.info (bendRows us x.tile x.rows)
    let first := decide (0 < p.sats) && !t.satLogged
    let s := s.setTile (flightKey f) x.tile { t with satLogged := t.satLogged || first }
    let s := s.counts [(Od.wideSaturations, p.sats), (Od.tileRescales, p.resc)]
    some (if first then s.logEv { code := 0x3022, hall := f.hall, unit := f.idx } else s, p.bad)

/-! ### Operands and narrow sums (R76, R95, R96, R119) -/

/-- The elements of item q of a P-flight pass: channels ch0 onward of a view row. -/
def State.actItem (s : State) (b : Buf) (row0 q ch0 T : Nat) : List Elem :=
  (List.range T).map (fun i => s.viewElem b row0 q (ch0 + i))

/-- R101: the headers (bits 31:0), format and poison (bits 32 and 33) of slot t, group g of a G-flight's token store; a slot and
group never written is undefined. -/
def State.tokHead (s : State) (fk slot g : Nat) : Nat :=
  (kfind (slot * 256 + g) (s.flight fk).tokHeads).getD
    (leNat ((List.range 5).map (fun j => Config.freeByte s.free (100 + fk) (slot * 2048 + g * 5 + j))))

/-- R101: the format of a token store group, as its last fill recorded it. -/
def State.tokN4 (s : State) (fk slot g : Nat) : Bool := bit (s.tokHead fk slot g) 32

/-- R101: the element of slot t, group g at tread i. -/
def State.tokElem (s : State) (fk slot g i : Nat) : Elem :=
  let x := s.flight fk
  let h := s.tokHead fk slot g
  let n4 := bit h 32
  let off := if n4 then g / 2 else g
  let key := (slot * 256 + i) * 128 + off
  let byte := ((kfind key x.tokens).getD (Config.freeByte s.free (200 + fk) key)).toNat
  let code := if n4 then (if g % 2 = 0 then byte % 16 else byte / 16) else byte
  let hdr := if i < 32 then bits h 15 0 else bits h 31 16
  let (m, mn) := readMant n4 code
  let z := bit hdr 8
  ⟨true, true, if z then 0 else m, hdr % 256, z, bit hdr 9, g * 2 + i / 32, mn && !z, bit h 33⟩

/-- R101: the elements of slot q. -/
def State.tokItem (s : State) (fk slot g : Nat) : List Elem := (List.range 64).map (fun i => s.tokElem fk slot g i)

/-- Exponents of the non-zero blocks of items (R76). A value that a mask takes out (R149) is presented as no activation: it takes no part in the windows, the
zero blocks and the minimum codes of its pass (DESIGN CHOICE, log entry 74). -/
def liveExps (items : List (List Elem)) : List Nat :=
  (items.flatMap (fun es => (es.filter (fun e => e.act && !e.zero)).map (·.e8))).dedup

/-- R76: the aligned value that a tread presents in the window of exponent E; a masked tread (R149) presents none. -/
def Elem.value (e : Elem) (spread E : Nat) : Int :=
  if e.act && !e.zero && inWindow spread E e.e8 then e.m * (2 : Int) ^ (e.e8 - E) else 0

/-- R69: minimum codes among the values that an item presents. -/
def minCodes (es : List Elem) : Nat := (es.filter (fun e => e.act && e.min)).length

/-- R72: zero blocks that an item's operands meet. -/
def zeroBlocks (es : List Elem) : Nat := ((es.filter (fun e => e.act && e.zero)).map (·.blk)).dedup.length

/-- R94: lane sums Σᵢ tᵢⱼ · aᵢ of one item, from the plane's rows. -/
def laneSums (W : Nat) (rows : List (List Int)) (vals : List Int) : List Int :=
  (rows.zip vals).foldl (fun acc p =>
    if p.2 = 0 then acc else List.zipWith (fun a w => a + w * p.2) acc p.1) (List.replicate W 0)

/-- R119: the residues of the lane sums, which each site forms with its own residue adder from the residue of the value its tread presents. -/
def laneResidues (W : Nat) (rows : List (List Int)) (vals : List Int) : List Nat :=
  (rows.zip vals).foldl (fun acc p =>
    if p.2 = 0 then acc else List.zipWith (fun a w => (a + res7 w * res7 p.2) % 7) acc p.1) (List.replicate W 0)

/-- R94, R119: what the lanes bring to the foot for one item: exponent, tile row, sums and residues. -/
def laneRow (W : Nat) (rows : List (List Int)) (e : Int) (row : Nat) (vals : List Int) : Contrib :=
  ⟨e, row, 0, laneSums W rows vals, laneResidues W rows vals⟩

/-- What a pass's operands come to besides their sums. -/
structure Operands where
  items  : List (List Elem)
  spread : Nat
  wins   : List Nat
  deriving DecidableEq, Repr

/-- R76, R96: the windows of a pass over its items. -/
def Operands.of (spread : Nat) (items : List (List Elem)) : Operands :=
  let es := liveExps items
  ⟨items, spread, windows spread (es.length + 1) es⟩

/-- R72, R69, R76: counters of a pass's operands. -/
def Operands.counters (o : Operands) (h : Nat) : List (Nat × Nat) :=
  [ (Od.zeroBlocksSkipped, (o.items.map zeroBlocks).sum),
    (Od.minCodesRead, (o.items.map minCodes).sum),
    (Od.expWindowSplits, o.wins.length - 1),
    (Od.itemsH0 + h, max 1 o.wins.length * o.items.length) ]

/-- R91: a block with CLAMP among the operands that the port met, masked ones (R149) among them. -/
def Operands.clamp (o : Operands) : Bool := o.items.any (fun es => es.any (fun e => e.met && e.clamp))

/-- R109: a poisoned operand: a value that the port met, or the mask bit over it. -/
def Operands.poison (o : Operands) : Bool := o.items.any (fun es => es.any (fun e => e.met && e.poison))

/-- R95, R96, R106: the rows that a ternary pass brings to the foot, window by window, item by item. -/
def Operands.contribs (o : Operands) (W : Nat) (rows : List (List Int)) (rowBase : Nat) : List Contrib :=
  o.wins.flatMap (fun (E : Nat) =>
    (o.items.zip (List.range o.items.length)).map (fun p =>
      laneRow W rows (((E : Nat) : Int) - 128) (rowBase + p.2) (p.1.map (fun e => e.value o.spread E))))

/-! ### Planes (R93, R94) -/

/-- The plane of 65,536 weights in tread and lane order, as listed codes. -/
def planeOf (ws : List Int) : KMap Nat :=
  ((ws.zip (List.range ws.length)).filter (fun p => p.1 ≠ 0)).map (fun p => (p.2, siteCode p.1))

/-- One row of a plane's listed codes, and the entries after it. -/
def planeRow : Nat → Nat → KMap Nat → List Int × KMap Nat
  | 0, _, m => ([], m)
  | n + 1, k, (k', c) :: t =>
    if k' = k then let (r, m) := planeRow n (k + 1) t; (siteWeight (c % 4) :: r, m)
    else let (r, m) := planeRow n (k + 1) ((k', c) :: t); (0 :: r, m)
  | n + 1, k, [] => let (r, m) := planeRow n (k + 1) []; (0 :: r, m)

/-- The rows of a plane from its listed codes. -/
def planeRows (W : Nat) : Nat → Nat → KMap Nat → List (List Int)
  | 0, _, _ => []
  | n + 1, k, m => let (r, m') := planeRow W k m; r :: planeRows W n (k + W) m'

/-! ### Generator draws (R138, R139) -/

/-- The lanes of a generator. -/
def State.genLanes (s : State) (h g : Nat) : List Lane :=
  (kfind (h * 64 + g) s.halls.gens).getD (List.replicate 64 ⟨0, 0⟩)

/-- R138: a request of n draws of w bits: the blocks served, counted, and the generator stepped. -/
def State.drawRequest (s : State) (h g w n : Nat) : State × List Nat :=
  let nb := drawBlocks w n
  let (bs, ls) := genBlocks nb (s.genLanes h g)
  let s := { s with halls := { s.halls with gens := kput (h * 64 + g) ls s.halls.gens } }
  (s.count Od.genBlocks nb, bs)

/-! ### The drain pipeline (R113 to R116) -/

/-- R110: the fields of a drain descriptor. -/
structure DrainD where
  tile     : Nat
  rowBase  : Nat
  rows     : Nat
  scaleSrc : Nat
  tableEn  : Bool
  table    : Nat
  stat     : Nat
  offset   : Bool
  out      : Nat
  nearest  : Bool
  gslot    : Nat
  keep     : Bool
  dst      : Nat
  aux      : Nat
  statH    : Nat
  statInit : Bool
  deriving DecidableEq, Repr

/-- R110. -/
def drainD (d : Nat) : DrainD :=
  ⟨bits d 59 56, bits d 55 50, bits d 49 44 + 1, bits d 43 42, bit d 41, bits d 40 38, bits d 37 36, bit d 35, bits d 34 33,
   bit d 32, bits d 31 28, bit d 27, bits d 26 19, bits d 18 11, bits d 10 3, bit d 2⟩

/-- The value of lane j of row r of a tile. -/
def Tile.value (t : Tile) (W r j : Nat) : Dy := ⟨(t.word (r * W + j)).sum, t.lsb.getD 0⟩

/-- R164: lane j lies in a block whose SKIP bit is 1. -/
def Tile.skipped (t : Tile) (j : Nat) : Bool := t.skip.contains (j / 32)

/-- R116: word k of foot table `tb` of a flight; a word never filled is undefined. -/
def State.tableWord (s : State) (fk tb k : Nat) : Nat :=
  (kfind (tb * 257 + k) (s.flight fk).tables).getD
    (leNat ((List.range 8).map (fun j => Config.freeByte s.free (300 + fk) ((tb * 257 + k) * 8 + j))))

/-- R113, stages 1 to 4 for one row: the scaled values, the values that leave stage 4, and clamps of the table's input. `lane` and `row` are the
scales, absent where the drain has none. A tile with VALID clear drains as zeros: every value of it is zero at every stage. -/
def drainRow (t : Tile) (W : Nat) (d : DrainD) (word : Nat → Nat) (lane : Option (Nat → Nat)) (row : Option Nat)
    (offMax : Option Dy) (r : Nat) : List Dy × List Dy × Nat :=
  if !t.valid then (List.replicate W Dy.zero, List.replicate W Dy.zero, 0)
  else
    let scaled := (List.range W).map (fun j =>
      let x := t.value W r j
      let x := match lane with | some l => sasApply (l j) x | none => x
      match row with | some c => sasApply c x | none => x)
    let res := (scaled.zip (List.range W)).map (fun p =>
      if t.skipped p.2 then (Dy.zero, false)
      else
        let x := match offMax with | some m => p.1.add m.neg | none => p.1
        if d.tableEn then tableEval word x else (x, false))
    (scaled, res.map (·.1), (res.filter (·.2)).length)

/-- R113, stage 2: the row's largest value over the lanes that a SKIP bit does not leave out; a skipped output counts as a
zero (R164). -/
def rowMax (t : Tile) (scaled : List Dy) : Option Dy :=
  ((scaled.zip (List.range scaled.length)).map (fun p => if t.skipped p.2 then Dy.zero else p.1)).foldl
    (fun a x => match a with | none => some x | some m => some (m.max x)) none

/-- R115: the larger of two maxima, of which one may be empty. -/
def maxOf : Option Dy → Option Dy → Option Dy
  | none, m => m
  | some a, none => some a
  | some a, some b => some (a.max b)

/-- R115, R230: the record that combines two. -/
def StatRec.combine (a b : StatRec) : StatRec := ⟨maxOf a.max b.max, a.sum.add b.sum⟩

/-- R115: what a drain writes of a stat record, as (offset in the record, bytes), and how many of its values were rounded: with STAT_INIT both fields; without it
the fields that `stat` includes, and a field that it does not include stays as it is stored. -/
def statParts (init : Bool) (stat : Nat) (old : StatRec) (mx : Option Dy) (sum : Dy) : List (Nat × Bytes) × Nat :=
  let hasMax := stat % 2 == 1
  let hasSum := decide (2 ≤ stat)
  let m := maxField (if hasMax then (if init then mx else maxOf old.max mx) else none)
  let x := statField (if hasSum then (if init then sum else old.sum.add sum) else Dy.zero)
  ((if init || hasMax then [(0, m.1)] else []) ++ (if init || hasSum then [(8, x.1)] else []),
   (if init || hasMax then m.2 else 0) + (if init || hasSum then x.2 else 0))

/-- R114, R88: a group's listed values as W16: the record's exponent and values, and for each value whether it was set to a bound at EO 0xFF. -/
def outlierRec (xs : List (Dy × Option Nat)) : OutRec × List Bool :=
  let (ms, e, cl) := requantVals 32767 xs
  (⟨e, ms⟩, xs.map (fun x => cl && decide (32767 < (roundBy (x.1.shift (-127)) x.2).natAbs)))

/-- R74, R114: what a drain writes of the record of group g: the whole record where the window holds every listed channel of the group, and otherwise EO and
the values of the window's channels (DESIGN CHOICE, log entry 76). `places` are the listed channels of the window by place. -/
def recordParts (g count : Nat) (places : List Nat) (r : OutRec) : List (Nat × Bytes) :=
  if places.length = count then [(18 * g, r.bytes)]
  else (18 * g, leBytes 1 r.eo) :: (places.zip r.vals).map (fun p => (18 * g + 2 + 2 * p.1, leBytes 2 (ofInt 16 p.2)))

/-- One output row of a drain to N8 or N4 (R113 stage 6, R114): blocks, parts of the outlier area, and the blocks that R88 clamps, a listed channel's W16
value among them (R70). `listed` gives the listed channels of the row as (group, place, channel); ch0 is the channel of lane 0. -/
def requantRow (n4 sat : Bool) (t : Tile) (ch0 : Nat) (listed : List (Nat × Nat × Nat)) (vals : List (Dy × Option Nat)) :
    List Blk × List (Nat × Bytes) × Nat :=
  let W := vals.length
  let inside := listed.filter (fun p => decide (ch0 ≤ p.2.2) && decide (p.2.2 < ch0 + W))
  let recs := (inside.map (·.1)).dedup.map (fun g =>
    let l := inside.filter (fun p => p.1 == g)
    (g, l, outlierRec (l.map (fun p => vals.getD (p.2.2 - ch0) (Dy.zero, none)))))
  let clamped := recs.flatMap (fun x => ((x.2.1.zip x.2.2.2).filter (·.2)).map (fun p => (p.1.2.2 - ch0) / 32))
  let blks := (List.range (W / 32)).map (fun b =>
    let xs := (List.range 32).map (fun i =>
      let j := 32 * b + i
      if inside.any (fun p => p.2.2 == ch0 + j) || t.skipped j then (Dy.zero, (none : Option Nat)) else vals.getD j (Dy.zero, none))
    let (k, cl) := requantBlk n4 sat xs
    let c := cl || clamped.contains b
    ({ k with clamp := k.clamp || c }, c))
  (blks.map (·.1),
   recs.flatMap (fun x => recordParts x.1 (listed.filter (fun p => p.1 == x.1)).length (x.2.1.map (·.2.1)) x.2.2.1),
   (blks.filter (·.2)).length)

end Sys2Proof.Machine
end

