-- ==== Sys2Proof/Machine/SeqWords.lean ====
section
/-!
DEFINITION. SeqWords.lean: program images and operation words (R220 to R234) as the loader reads them, and the checks of
R249 that need nothing but the image: tables, words, descriptors, widths, spans, REPEAT form, pre-emption points, spans.
-/

namespace Sys2Proof.Machine

/-! ### Fields of an operation word (R224) -/

/-- R224, R225: a word's opcode. The routing opcodes 0x40 to 0x47 do not fit the six bits of OPCODE: the field carries them as 0x38
to 0x3F, which R225 leaves unused (DESIGN CHOICE, log entry 45). -/
def opOf (w : Nat) : Nat := if bits w 127 122 < 0x38 then bits w 127 122 else bits w 127 122 + 8
def opPP (w : Nat) : Bool := bit w 121
def opInc (w : Nat) : Bool := bit w 120
def opSig (w : Nat) : Option Nat := if bit w 119 then some (bits w 118 116) else none
def opWait (w : Nat) : Option Nat := if bit w 115 then some (bits w 114 112) else none

/-- R225: the opcodes. -/
def opKnown (o : Nat) : Bool :=
  [0x00, 0x01, 0x02, 0x03, 0x08, 0x09, 0x10, 0x11, 0x12, 0x13, 0x14, 0x15, 0x20, 0x21, 0x30, 0x31, 0x32, 0x33, 0x34, 0x35,
   0x36, 0x40, 0x41, 0x42, 0x43, 0x44, 0x45, 0x46, 0x47].contains o

/-- R225: the bits of [111:0] that an opcode's row names, as (high, low) fields; every other bit is reserved. -/
def opFields (o : Nat) : List (Nat × Nat) :=
  match o with
  | 0x02 => [(111, 96), (95, 90), (89, 74), (73, 58), (57, 50), (49, 46), (45, 30)]
  | 0x03 => [(111, 104)]
  | 0x08 => [(111, 108)]
  | 0x09 => [(111, 100)]
  | 0x10 => [(111, 3)]
  | 0x11 => [(111, 3)]
  | 0x12 => [(111, 0)]
  | 0x13 => [(111, 21)]
  | 0x14 => [(111, 10)]
  | 0x15 => [(111, 34)]
  | 0x20 => [(111, 80), (63, 0)]
  | 0x21 => [(111, 70)]
  | 0x30 => [(111, 16)]
  | 0x31 => [(111, 16)]
  | 0x32 => [(111, 36)]
  | 0x33 => [(111, 62)]
  | 0x34 => [(111, 66)]
  | 0x35 => [(111, 101)]
  | 0x36 => [(111, 90)]
  | 0x40 => [(111, 49)]
  | 0x41 => [(111, 50)]
  | 0x42 => [(111, 56)]
  | 0x43 => [(111, 45)]
  | 0x44 => [(111, 68)]
  | 0x45 => [(111, 56)]
  | 0x46 => [(111, 66)]
  | 0x47 => [(111, 47)]
  | _ => []

/-- R225: every reserved bit of the word is 0. -/
def reservedZero (w : Nat) : Bool :=
  (opFields (opOf w)).foldl (fun v f => setBits v f.1 f.2 0) (bits w 111 0) == 0

/-- R233: what a REPEAT's increment adds to. -/
inductive IncKind where
  | seg | row | group | tile | ch
  deriving DecidableEq, Repr

/-- R233: the incremented fields of an opcode: kind, high bit, low bit. -/
def incFields (o : Nat) : List (IncKind × Nat × Nat) :=
  match o with
  | 0x10 => [(.seg, 106, 83), (.row, 73, 58), (.group, 57, 50), (.tile, 31, 28)]
  | 0x11 => [(.seg, 106, 83), (.row, 57, 42), (.group, 41, 34), (.tile, 15, 12)]
  | 0x12 => [(.row, 103, 88), (.row, 58, 43), (.tile, 3, 0), (.ch, 87, 72), (.ch, 42, 27)]
  | 0x13 => [(.seg, 106, 83), (.row, 63, 48), (.tile, 24, 21)]
  | 0x14 => [(.row, 103, 88), (.row, 63, 48), (.tile, 13, 10), (.ch, 87, 72), (.ch, 47, 32)]
  | 0x15 => [(.row, 79, 64)]
  | 0x20 => [(.row, 111, 96), (.tile, 59, 56), (.ch, 95, 80)]
  | 0x33 => [(.row, 103, 88), (.group, 77, 70)]
  | 0x34 => [(.row, 103, 88)]
  | 0x40 => [(.row, 103, 88)]
  | 0x41 => [(.row, 103, 88)]
  | 0x42 => [(.row, 87, 72)]
  | 0x43 => [(.row, 103, 88)]
  | 0x45 => [(.tile, 59, 56)]
  | 0x46 => [(.row, 103, 88)]
  | 0x47 => [(.row, 103, 88)]
  | _ => []

/-- R233: the increment of a REPEAT word for a kind. -/
def repInc (rep : Nat) : IncKind → Int
  | .seg => toInt 16 (bits rep 89 74)
  | .row => toInt 16 (bits rep 73 58)
  | .group => toInt 8 (bits rep 57 50)
  | .tile => toInt 4 (bits rep 49 46)
  | .ch => toInt 16 (bits rep 45 30)

/-- R233, R234: the word of iteration i, or the code with which a field out of range is refused. -/
def applyInc (rep i w : Nat) : Except Nat Nat :=
  if !(opInc w) then .ok w
  else
    (incFields (opOf w)).foldl (fun r f =>
      match r with
      | .error c => .error c
      | .ok v =>
        let (k, hi, lo) := f
        let x : Int := (bits w hi lo : Nat) + (i : Nat) * repInc rep k
        if x < 0 ∨ (2 ^ (hi + 1 - lo) : Nat) ≤ x then
          .error (match k with | .tile => 0x3012 | .row => 0x3012 | _ => 0x3070)
        else .ok (setBits v hi lo x.toNat)) (.ok w)

/-- R105: TILE and ROW_BASE of an accumulate target. -/
def tgtTile (t : Nat) : Nat := bits t 3 0
def tgtRow (t : Nat) : Nat := bits t 9 4

/-- R105: a target for `items` rows of a flight kind. -/
def targetCheck (g : Bool) (t items : Nat) : Option Nat :=
  if bits t 15 10 ≠ 0 then some 0x3070
  else if tilesOf g ≤ tgtTile t ∨ rowsOf g < tgtRow t + items then some 0x3012 else none

/-- R112: the bits of a descriptor that its function reads. -/
def footReads (fn : Nat) : List (Nat × Nat) :=
  match fn with
  | 1 => [(63, 2)]
  | 2 => [(63, 44)]
  | 3 => [(63, 56)]
  | 4 => [(63, 44), (26, 11)]
  | 5 => [(63, 60), (55, 44), (41, 38), (26, 19), (10, 3)]
  | _ => []

/-- R112: a foot descriptor is refused with 0x3013 or 0x3012. -/
def footCheck (g : Bool) (d : Nat) : Option Nat :=
  let fn := bits d 63 60
  let k := toInt 8 (bits d 51 44)
  let bad13 := !(decide (1 ≤ fn) && decide (fn ≤ 5)) ||
    ((footReads fn).foldl (fun v f => setBits v f.1 f.2 0) d != 0) ||
    (fn == 2 && (decide (k < -64) || decide (64 < k))) ||
    (fn == 5 && !bit d 41) ||
    (fn == 1 && bit d 35 && bit d 2) ||
    (fn == 1 && bits d 34 33 == 0 && bits d 37 36 == 0 && bit d 27)
  let rows := bits d 55 50 + bits d 49 44 + 1
  let bad12 := (decide (fn ≠ 5) && decide (tilesOf g ≤ bits d 59 56)) ||
    ((fn == 1 || fn == 4 || fn == 5) && decide (rowsOf g < rows))
  if bad13 then some 0x3013 else if bad12 then some 0x3012 else none

/-! ### Handles that a word names (R211, R225) -/

/-- Handles that the flight's units resolve through the flight landing's table. -/
def flightHandles (g : Bool) (w : Nat) : List Nat :=
  match opOf w with
  | 0x10 => (if g then [] else [bits w 81 74]) ++ (if bit w 27 then [bits w 26 19] else [])
  | 0x11 => (if g then [] else [bits w 65 58]) ++ (if bit w 11 then [bits w 10 3] else [])
  | 0x12 => [bits w 111 104] ++ (if g then [] else [bits w 66 59])
  | 0x13 => if g then [] else [bits w 71 64]
  | 0x14 => [bits w 111 104] ++ (if g then [] else [bits w 71 64])
  | 0x20 =>
    let d := bits w 63 0
    match bits d 63 60 with
    | 1 => (if bits d 34 33 = 0 then [] else [bits d 26 19]) ++
           (match bits d 43 42 with | 0 => [] | 3 => [bits d 18 11, bits d 18 11 + 1] | _ => [bits d 18 11]) ++
           (if bits d 37 36 = 0 ∧ bit d 35 = false then [] else [bits d 10 3])
    | 4 => [bits d 18 11]
    | 5 => [bits d 26 19, bits d 10 3]
    | _ => []
  | 0x21 => [bits w 111 104, bits w 103 96]
  | 0x32 => [bits w 111 104, bits w 83 76]
  | 0x33 => [bits w 111 104]
  | 0x34 => [bits w 111 104]
  | 0x35 => [bits w 111 104]
  | 0x47 => [bits w 111 104]
  | _ => []

/-- Handles that the router, the sampler, the predictor unit, the Movers and the Arcade resolve through the hall landing's
table. -/
def hallHandles (g : Bool) (w : Nat) : List Nat :=
  match opOf w with
  | 0x15 => [bits w 95 88, bits w 49 42, bits w 41 34] ++ (if g then [] else [bits w 87 80])
  | 0x09 => [bits w 107 100]
  | 0x30 => [bits w 43 36]
  | 0x31 => [bits w 43 36]
  | 0x40 => [bits w 111 104]
  | 0x41 => [bits w 111 104]
  | 0x42 => [bits w 103 96, bits w 95 88]
  | 0x43 => [bits w 111 104, bits w 60 53, bits w 52 45]
  | 0x44 => [bits w 111 104, bits w 103 96, bits w 95 88]
  | 0x45 => [bits w 111 104, bits w 103 96, bits w 95 88]
  | 0x46 => [bits w 111 104, bits w 81 74, bits w 73 66]
  | _ => []

/-- R249 check 11: every handle a word names stands in the handle list for its table. -/
def handlesListed (img : Image) (g : Bool) (w : Nat) : Bool :=
  (flightHandles g w).all (fun h => img.handles.any (fun e => e.handle == h && e.table == 0)) &&
  (hallHandles g w).all (fun h => img.handles.any (fun e => e.handle == h && e.table == 1))

/-! ### Images (R221 to R223) -/

/-- Read n entries of a fixed size. -/
def entriesOf {α : Type} (size : Nat) (f : Bytes → α) (b : Bytes) : Nat → List α
  | 0 => []
  | n + 1 => f (b.take size) :: entriesOf size f (b.drop size) n

/-- Reserved bytes [lo, hi) of an entry are 0. -/
def zeroAt (b : Bytes) (lo hi : Nat) : Bool := ((b.drop lo).take (hi - lo)).all (· == 0#8)

/-- R221, R222: the image that bytes spell, or none where check 1 of R249 fails. `at_` is where the image lies. -/
def parseImage (b : Bytes) (at_ : Nat) (g : Bool) : Option Image :=
  let nOps := leField b 16 4
  let nH := leField b 20 2
  let nT := leField b 22 1
  let nA := leField b 23 1
  let nP := leField b 24 1
  let nB := leField b 25 1
  let nG := leField b 26 1
  let o1 := 64 + 128
  let o2 := o1 + 16 * nA
  let o3 := o2 + 32 * nT
  let o4 := o3 + 24 * nH
  let o5 := o4 + 16 * nP
  let o6 := o5 + 8 * nB
  let o7 := o6 + 16 * nG
  let o8 := cdiv o7 16 * 16
  let flags := leField b 6 2
  let areas := entriesOf 16 id (b.drop o1) nA
  let tens := entriesOf 32 id (b.drop o2) nT
  let hs := entriesOf 24 id (b.drop o3) nH
  let ps := entriesOf 16 id (b.drop o4) nP
  let bs := entriesOf 8 id (b.drop o5) nB
  let gs := entriesOf 16 id (b.drop o6) nG
  if b.length ≠ o8 + 16 * nOps then none
  else if leField b 0 4 ≠ 0x33515343 ∨ leField b 4 2 ≠ 1 ∨ 16 ≤ flags ∨ bit flags 1 ≠ g then none
  else if 64 ≤ leField b 8 1 ∨ leField b 9 1 ≠ 0 ∨ !(zeroAt b 27 64) then none
  else if nOps = 0 ∨ 1048576 < nOps ∨ 512 < nH ∨ 32 < nT ∨ 16 < nA ∨ 64 < nP ∨ 16 < nB ∨ 16 < nG then none
  else if !(zeroAt b o7 o8) then none
  else if areas.any (fun e => !(zeroAt e 15 16) || decide (4 ≤ leField e 14 1) || decide (leField e 0 8 % 64 ≠ 0)) then none
  else if tens.any (fun e => !(zeroAt e 5 8) || decide (2 ≤ leField e 0 1)) then none
  else if hs.any (fun e => !(zeroAt e 3 8) || decide (2 ≤ leField e 1 1) || decide (2 ≤ leField e 2 1)) then none
  else if ps.any (fun e => !(zeroAt e 10 16) || decide (4 ≤ leField e 8 1) || decide (20 ≤ leField e 9 1)) then none
  else if bs.any (fun e => !(zeroAt e 1 4) || decide (leField e 0 1 = 0) || decide (8 < leField e 0 1) ||
      decide (leField e 4 4 < 2) || decide (2621440 < leField e 4 4)) then none
  else if gs.any (fun e => !(zeroAt e 12 16) || decide (leField e 8 4 < 2) || decide (2621440 < leField e 8 4)) then none
  else some
    { flags := flags, tenant := leField b 8 1, model := leField b 10 2, job := leField b 12 4,
      binds := entriesOf 8 leNat (b.drop 64) 16,
      areas := areas.map (fun e => ⟨leField e 0 8, leField e 8 6, leField e 14 1⟩),
      tensors := tens.map (fun e => ⟨leField e 0 1, leField e 1 1, leField e 2 1, leField e 3 1, leField e 4 1,
        leField e 8 8, leField e 16 6, leField e 22 5, leField e 27 5⟩),
      handles := hs.map (fun e => ⟨leField e 0 1, leField e 1 1, leField e 2 1, leField e 8 16⟩),
      peers := ps.map (fun e => ⟨BitVec.ofNat 64 (leField e 0 8), leField e 8 1, leField e 9 1⟩),
      barriers := bs.map (fun e => ⟨leField e 0 1, leField e 4 4⟩),
      groups := gs.map (fun e => ⟨BitVec.ofNat 64 (leField e 0 8), leField e 8 4⟩),
      ops := entriesOf 16 leNat (b.drop o8) nOps, opsAt := at_ + o8 }

/-- R221: the image's flags. -/
def Image.fixedLat (i : Image) : Bool := bit i.flags 0
def Image.gFlight (i : Image) : Bool := bit i.flags 1
def Image.custom (i : Image) : Bool := bit i.flags 2
def Image.resident (i : Image) : Bool := bit i.flags 3

/-! ### Binding table (R141, R142) -/

/-- R141: a binding entry by fields. -/
structure Bind where
  gen   : Nat
  round : Bool
  samp  : Bool
  mask  : Bool
  share : Nat
  src   : Nat
  seed  : Nat
  deriving DecidableEq, Repr

def bindOf (e : Nat) : Bind := ⟨bits e 63 58, bit e 57, bit e 56, bit e 55, bits e 53 46, bits e 45 44, bits e 31 0⟩

/-- R141: a slot with a kind bit is used. -/
def Bind.used (b : Bind) : Bool := b.round || b.samp || b.mask

/-- The slot of an image. -/
def Image.bind (i : Image) (g : Nat) : Bind := bindOf (i.binds.getD g 0)

/-- R142, first row: malformed entries, and operations whose slot lacks the kind. `override` is OD 0x3100.09 (it changes no
check). -/
def bindMalformed (i : Image) : Bool :=
  i.binds.any (fun e => let b := bindOf e
    (!b.used && decide (e ≠ 0)) || bit e 54 || decide (bits e 43 32 ≠ 0) || decide (2 ≤ b.src)) ||
  i.ops.any (fun w =>
    match opOf w with
    | 0x20 => let d := bits w 63 0
      bits d 63 60 == 1 && (bits d 34 33 == 1 || bits d 34 33 == 2) && !bit d 32 && !(i.bind (bits d 31 28)).round
    | 0x47 => !(i.bind (bits w 50 47)).mask
    | _ => false)

/-- R142, second and third rows: undeclared sharing inside the program. -/
def bindShared (i : Image) : Bool :=
  let us := (i.binds.map bindOf).filter Bind.used
  us.any (fun b => decide (1 < (if b.round then 1 else 0) + (if b.samp then 1 else 0) + (if b.mask then 1 else 0)) && b.share == 0) ||
  !((us.map (fun b => (b.gen, b.share))).Pairwise (fun a b => a.1 ≠ b.1 ∨ (a.2 = b.2 ∧ a.2 ≠ 0)))

/-! ### Checks of words (R249, checks 11 to 16) -/

/-- The accumulate targets of a word with their rows. -/
def wordTargets (w : Nat) : List (Nat × Nat) :=
  match opOf w with
  | 0x10 => [(bits w 43 28, bits w 49 44 + 1)]
  | 0x11 => (List.range (bits w 80 78 + 1)).map (fun t =>
      let tg := bits w 27 12
      (setBits tg 3 0 ((tgtTile tg + t) % 16), bits w 33 28 + 1)) ++
      (if 16 ≤ tgtTile (bits w 27 12) + bits w 80 78 then [(15, 64)] else [])
  | 0x12 => [(bits w 15 0, bits w 21 16 + 1)]
  | 0x13 => [(bits w 36 21, bits w 42 37 + 1)]
  | 0x14 => [(bits w 25 10, bits w 31 26 + 1)]
  | 0x45 => [(bits w 71 56, bits w 87 72 + 1)]
  | _ => []

/-- R225, R226 to R233, R363: the ranges of a word's fields. -/
def rangesOk (img : Image) (g : Bool) (w : Nat) : Bool :=
  let itemsMax := if g then 32 else 64
  let tens := decide (bits w 111 107 < img.tensors.length)
  match opOf w with
  | 0x02 => decide (1 ≤ bits w 111 96) && decide (1 ≤ bits w 95 90) && decide (bits w 45 30 % 32 = 0)
  | 0x10 => tens && decide (bits w 49 44 < itemsMax) && (!g || (bits w 81 74 == 0 && bits w 73 58 == 0))
  | 0x11 => tens && decide (bits w 33 28 < itemsMax) && (!g || (bits w 65 58 == 0 && bits w 57 42 == 0))
  | 0x12 => decide (bits w 21 16 < itemsMax) && (!g || (bits w 58 43 == 0 && bits w 42 27 == 0))
  | 0x13 => tens && decide (bits w 42 37 < itemsMax)
  | 0x14 => decide (bits w 31 26 < itemsMax)
  | 0x15 => decide (bits w 63 58 < itemsMax) && (!g || (bits w 87 80 == 0 && bits w 79 64 == 0))
  | 0x20 => decide (bits w 95 80 % 32 = 0)
  | 0x21 => decide (bits w 91 86 < 64)
  | 0x30 => decide (bits w 111 108 < img.areas.length) && decide (bits w 107 68 % 64 = 0) && decide (1 ≤ bits w 67 44)
  | 0x31 => decide (bits w 111 108 < img.areas.length) && decide (bits w 107 68 % 64 = 0) && decide (1 ≤ bits w 67 44) &&
      bit ((img.areas.getD (bits w 111 108) ⟨0, 0, 0⟩).flags) 0
  | 0x33 => decide (bits w 87 83 + bits w 82 78 < 32)
  | 0x34 => decide (bits w 87 83 + bits w 82 78 < 32) && decide (bits w 77 72 + bits w 71 66 < 64)
  | 0x36 => decide (bits w 101 90 < img.handles.length)
  | 0x42 => decide (bits w 111 108 ≤ 4)
  | 0x43 => decide (bits w 63 61 ≤ bits w 71 64)
  | 0x47 => decide (bits w 58 51 < 2 ^ (2 ^ (bits w 60 59)))
  | _ => true

/-- R229, R160: the targets whose main pass a word is: that of a PASS, and those of the tiles of a SPARSE_PASS (log entry 78). -/
def mainTargets (w : Nat) : List Nat :=
  match opOf w with
  | 0x10 => [bits w 43 28]
  | 0x11 => (List.range (bits w 80 78 + 1)).map (· + bits w 27 12)
  | _ => []

/-- R229: an OUTLIER_PASS among the words that the program runs, in order, for which no main pass with the same TARGET stands before it. -/
def outlierAlone : List Nat → List (Nat × Nat) → Option Nat
  | _, [] => none
  | seen, (k, w) :: t =>
    if opOf w = 0x13 ∧ !(seen.contains (bits w 36 21)) then some k else outlierAlone (mainTargets w ++ seen) t

/-- R249 check 11 for a word. -/
def check11 (img : Image) (g : Bool) (w : Nat) : Option Nat :=
  if opKnown (opOf w) && reservedZero w && rangesOk img g w && handlesListed img g w then none else some 0x3070

/-- R252, R249 check 5: a word that a fixed-latency program may not hold: a header field other than OPCODE, or a BARRIER, STEP, REPEAT or routing
operation. -/
def fixedWordBad (w : Nat) : Bool := bits w 121 112 != 0 || [0x02, 0x08, 0x09].contains (opOf w) || decide (0x40 ≤ opOf w)

/-- R249 check 12 for a word. -/
def check12 (g : Bool) (w : Nat) : Option Nat :=
  if opOf w = 0x20 then footCheck g (bits w 63 0)
  else (wordTargets w).findSome? (fun p => targetCheck g p.1 p.2)

/-- R249 check 13 for a word: working widths (R125) and spans (R150). `fmtN4 h` says that flight handle h is N4. -/
def check13 (img : Image) (g : Bool) (w : Nat) : Option Nat :=
  let n4 := fun (h : Nat) => img.handles.any (fun e => e.handle == h && e.table == 0 && bits e.entry 123 120 == 2)
  match opOf w with
  | 0x12 =>
    let a := bits w 71 67
    let b := bits w 26 22
    let sa := if n4 (bits w 111 104) then 4 else 8
    let sb := if g ∨ n4 (bits w 66 59) then 4 else 8
    if sa ≤ a ∧ a ≤ 16 ∧ sb ≤ b ∧ b ≤ 16 then none else some 0x3032
  | 0x13 => if 16 ≤ bits w 47 43 ∧ bits w 47 43 ≤ 24 then none else some 0x3032
  | 0x11 =>
    let fi := 2 ^ bits w 82 81
    let fo := bits w 80 78 + 1
    if fi * fo ≤ 8 ∧ (!g ∨ fo ≤ 2) then none else some 0x3051
  | _ => none

/-- R125, R249 check 13: a SERIAL_PASS of a G-flight, among the words that the program runs, whose width b lies below the format of its token store group: that of the
buffer from which the last FILL_TOKENS before it filled the group. `n4 h` says that flight handle h is N4. -/
def tokenWidthBad (n4 : Nat → Bool) : KMap Bool → List (Nat × Nat) → Option Nat
  | _, [] => none
  | m, (k, w) :: t =>
    if opOf w = 0x33 then
      tokenWidthBad n4 ((List.range (bits w 69 62 + 1)).foldl (fun m g => kput (bits w 77 70 + g) (n4 (bits w 111 104)) m) m) t
    else if opOf w = 0x12 ∧ kfind (bits w 66 59) m = some false ∧ bits w 26 22 < 8 then some k
    else tokenWidthBad n4 m t

/-- The word indices and words that the program runs, REPEAT iterations included, in order; none where an increment leaves its
range, with the word and code. -/
def expandFrom (ops : List Nat) : Nat → Nat → List (Nat × Nat) → Except (Nat × Nat) (List (Nat × Nat))
  | 0, _, acc => .ok acc.reverse
  | fuel + 1, k, acc =>
    match ops[k]? with
    | none => .ok acc.reverse
    | some w =>
      if opOf w = 0x02 then
        let body := (List.range (bits w 95 90)).map (· + k + 1)
        let runs := (List.range (bits w 111 96)).flatMap (fun i => body.map (fun j => (i, j)))
        let r := runs.foldl (fun (r : Except (Nat × Nat) (List (Nat × Nat))) p =>
          match r with
          | .error c => .error c
          | .ok l => match applyInc w p.1 (ops.getD p.2 0) with
            | .error c => .error (p.2, c)
            | .ok v => .ok ((p.2, v) :: l)) (.ok ((k, w) :: acc))
        match r with
        | .error c => .error c
        | .ok l => expandFrom ops fuel (k + 1 + bits w 95 90) l
      else if opOf w = 0x01 then .ok ((k, w) :: acc).reverse
      else expandFrom ops fuel (k + 1) ((k, w) :: acc)

/-- R234, R249 check 14: the form of every REPEAT. -/
def repeatFormBad (ops : List Nat) : Option Nat :=
  ((List.range ops.length).find? (fun k =>
    let w := ops.getD k 0
    opOf w == 0x02 && (decide (ops.length ≤ k + bits w 95 90) ||
      ((ops.drop (k + 1)).take (bits w 95 90)).any (fun v => [0x01, 0x02, 0x09].contains (opOf v)))))

/-- R241, R243: what the loader knows of the flight at a point of the program. -/
structure Walk where
  valid  : List Nat
  mustPP : Bool
  after  : Bool
  plane  : Bool
  groups : List Nat
  recs   : Bool
  tables : List Nat
  steps  : Nat
  span   : Nat
  deriving DecidableEq, Repr

/-- The tiles that a word makes VALID, and those it empties. -/
def wordOpens (w : Nat) : List Nat :=
  (wordTargets w).map (fun p => tgtTile p.1) ++
  (if opOf w = 0x20 ∧ bits w 63 60 = 4 then [bits w 59 56] else [])
def wordCloses (w : Nat) : List Nat :=
  if opOf w = 0x20 ∧ (bits w 63 60 = 3 ∨ (bits w 63 60 = 1 ∧ bit w 27 = false)) then [bits w 59 56] else []

/-- R243: a word uses state that a pre-emption point left undefined and nothing has written since. -/
def usesLost (g : Bool) (x : Walk) (w : Nat) : Bool :=
  x.after &&
  (match opOf w with
   | 0x10 => (bit w 82 && !x.plane) || (g && !x.groups.contains (bits w 57 50))
   | 0x11 => g && (List.range (2 ^ bits w 82 81)).any (fun k => !x.groups.contains (bits w 41 34 + k))
   | 0x12 => g && !x.groups.contains (bits w 66 59)
   | 0x13 => g && !x.recs
   | 0x14 => g && !x.groups.contains (bits w 71 64)
   | 0x20 => let d := bits w 63 0
     (bits d 63 60 == 1 && bit d 41 || bits d 63 60 == 5) && !x.tables.contains (bits d 40 38)
   | _ => false)

/-- R244: the steps for which a word holds its flight. -/
def wordSteps (g : Bool) (w : Nat) : Nat :=
  let q := treadsOf g / 4
  match opOf w with
  | 0x10 => max (bits w 49 44 + 1) q
  | 0x11 => 2 ^ bits w 82 81 * (bits w 80 78 + 1) * max (bits w 33 28 + 1) q
  | 0x12 => bits w 71 67 * max (bits w 26 22 * (bits w 21 16 + 1)) q
  | 0x13 => max (bits w 47 43 * (bits w 42 37 + 1)) q
  | 0x14 => max (bits w 31 26 + 1) q
  | 0x20 => if bits w 63 60 = 2 ∨ bits w 63 60 = 3 then 1 else bits w 49 44 + 1
  | 0x21 => bits w 91 86 + 1
  | _ => 0

/-- R238: the bound of a barrier of a SCOPE, in ns. -/
def barrierBound (scope : Nat) : Nat := if scope = 1 then 40 else 120 + 2000 * (scope - 2)

/-- R336: the steps that a template's words hold a flight, up to the last STEP: a sparse span takes the steps that its placed density gives it, a barrier its
bound at the floor rate of 1.2 steps a ns, every other word its dense hold time or its foot rows. -/
def templateSteps (g : Bool) (scopes : List Nat) : List Nat → List Nat → Nat
  | [], _ => 0
  | w :: ws, placed =>
    if !((w :: ws).any (fun v => opOf v == 0x09)) then 0
    else
      match opOf w with
      | 0x11 => placed.headD (wordSteps g w) + templateSteps g scopes ws placed.tail
      | 0x08 | 0x09 => cdiv (12 * barrierBound (scopes.getD (bits w 111 108) 2)) 10 + templateSteps g scopes ws placed
      | _ => wordSteps g w + templateSteps g scopes ws placed

/-- R336: the cost bound K of a template on a flight, with the stall margin (per mille). -/
def FlightCost.bound (margin : Nat) (c : FlightCost) : Nat × Nat :=
  (c.flight, cdiv (templateSteps (decide (12 ≤ c.flight % 20)) c.scopes c.ops c.placed * (1000 + margin)) 1000)

/-- One word of the walk; none where R241 or R243 is broken. -/
def Walk.step (g : Bool) (x : Walk) (w : Nat) : Option Walk :=
  let o := opOf w
  let isStep := o == 0x09
  if x.mustPP && !(opPP w || isStep || o == 0x01) then none
  else if opPP w && !x.valid.isEmpty then none
  else
    let pp := opPP w || isStep
    let x := if pp then { x with after := true, plane := false, groups := [], recs := false, tables := [], steps := 0 } else x
    if usesLost g x w then none
    else
      let opened := (x.valid ++ wordOpens w).dedup
      let left := opened.filter (fun t => !(wordCloses w).contains t)
      let steps := x.steps + wordSteps g w
      some { x with
        valid := left, mustPP := decide (opened ≠ []) && left.isEmpty && decide ((wordCloses w) ≠ []),
        plane := x.plane || [0x10, 0x11, 0x12, 0x13, 0x14].contains o,
        groups := if o = 0x33 then x.groups ++ (List.range (bits w 69 62 + 1)).map (· + bits w 77 70) else x.groups,
        recs := x.recs || o == 0x34,
        tables := if o = 0x35 then x.tables ++ [bits w 103 101] else x.tables,
        steps := steps, span := max x.span steps }

/-- R241, R243, R244: the walk over a program: the word that breaks a rule, or the pre-emption span. -/
def walkAll (g : Bool) : List (Nat × Nat) → Walk → Except Nat Nat
  | [], x => .ok x.span
  | (k, w) :: t, x =>
    match x.step g w with
    | none => .error k
    | some y => walkAll g t y

/-- 64-byte units that n channels of a row take in a format, with their headers and outlier records. -/
def unitsIn (e n : Nat) : Nat :=
  (match bits e 123 120 with | 1 => cdiv n 64 + 1 | 2 => cdiv n 128 + 1 | 3 => cdiv n 8 | _ => cdiv n 512) + (if bit e 118 then cdiv n 256 else 0)

/-- R209, R244: the landing accesses of a word, one for each 64-byte unit: those of its rows, masks, vectors, scales and records, and those of the blocks of a tensor
that lies in the landing, at their largest (4 raw blocks and their entries for each plane; DESIGN CHOICE, log entry 84). -/
def wordAccesses (i : Image) (g : Bool) (w : Nat) : Nat :=
  let T := treadsOf g
  let W := lanesOf g
  let en := fun (h : Nat) => ((i.handles.find? (fun e => e.table == 0 && e.handle == h)).map (·.entry)).getD 0
  let act := fun (h n : Nat) => if g then 0 else n * unitsIn (en h) T
  let plane := if (i.tensors[bits w 111 107]?).any (fun t => bit t.flags 0) then 4 * 64 + 2 else 0
  let d := bits w 63 0
  let rows := bits d 49 44 + 1
  match opOf w with
  | 0x10 => act (bits w 81 74) (bits w 49 44 + 1) + (if bit w 27 then (bits w 49 44 + 1) * cdiv T 512 else 0) + (if bit w 82 then 0 else plane)
  | 0x11 => 2 ^ bits w 82 81 * (act (bits w 65 58) (bits w 33 28 + 1) + (bits w 80 78 + 1) * plane) + (if bit w 11 then 1 else 0)
  | 0x12 => W * unitsIn (en (bits w 111 104)) T + act (bits w 66 59) (bits w 21 16 + 1)
  | 0x13 => (if g then 0 else (bits w 42 37 + 1) * cdiv T 8) + plane
  | 0x14 => W * cdiv T 512 + act (bits w 71 64) (bits w 31 26 + 1)
  | 0x20 =>
    match bits d 63 60 with
    | 1 => (if bits d 34 33 = 0 then 0 else rows * unitsIn (en (bits d 26 19)) W) +
        (if bit d 42 then cdiv (2 * W) 64 else 0) + (if bit d 43 then rows else 0) + (if bits d 37 36 = 0 ∧ bit d 35 = false then 0 else 2 * rows)
    | 4 => rows * unitsIn (en (bits d 18 11)) W
    | 5 => 2 * rows
    | _ => 0
  | 0x21 => (bits w 95 92 + 2) * (bits w 91 86 + 1)
  | 0x32 => 2 * bits w 55 36
  | 0x33 => (bits w 82 78 + 1) * (bits w 69 62 + 1) * 2
  | 0x34 => (bits w 82 78 + 1) * (bits w 71 66 + 1)
  | 0x35 => 33
  | 0x47 => (bits w 87 72 + 1) * cdiv ((bits w 71 61 + 1) * 32) 512
  | _ => 0

/-- R244: the span of a fixed-latency program, from its start to its END: one step for each word, its passes and foot operations in place of that step, 4
steps for each landing access, and 16. -/
def fixedSpan (i : Image) (g : Bool) : Nat :=
  let ops := i.ops.takeWhile (fun w => opOf w != 0x01)
  (ops.map (fun w => (if wordSteps g w = 0 then 1 else wordSteps g w) + 4 * wordAccesses i g w)).sum + 1 + 16

/-- R249 check 16: indices within their tables, and END reachable. -/
def check16 (img : Image) : Option Nat :=
  ((List.range img.ops.length).find? (fun k =>
    let w := img.ops.getD k 0
    match opOf w with
    | 0x08 => decide (img.barriers.length ≤ bits w 111 108)
    | 0x09 => decide (img.barriers.length ≤ bits w 111 108)
    | 0x40 => decide (img.peers.length ≤ bits w 71 66)
    | 0x41 => decide (img.peers.length ≤ bits w 71 66)
    | 0x42 => decide (img.groups.length ≤ bits w 107 104)
    | 0x44 => decide (img.groups.length ≤ bits w 87 84)
    | _ => false)) <|>
  (if img.ops.any (fun w => opOf w == 0x01) then none else some (img.ops.length - 1))

end Sys2Proof.Machine
end

