-- ==== Sys2Proof/Machine/Jobs.lean ====
section
/-!
DEFINITION. Jobs.lean: resident programs as jobs: unloading, program stops (R246), speculation trees (R350 to R355), what a step commits.
-/

namespace Sys2Proof.Machine

/-! ### Resident programs -/

/-- Every resident program with its flight. -/
def State.progs (s : State) : List (Nat × Prog) := s.halls.flights.flatMap (fun e => e.2.progs.map (fun p => (e.1, p)))

/-- The program in a slot of a flight. -/
def State.progAt (s : State) (fk slot : Nat) : Option Prog := (s.flight fk).progs.find? (fun p => p.slot == slot)

/-- Change the program in a slot. -/
def State.modProg (s : State) (fk slot : Nat) (f : Prog → Prog) : State :=
  let x := s.flight fk
  s.setFlight fk { x with progs := modFirst (fun p => p.slot == slot) f x.progs }

/-! ### Fenced flights (R122) -/

/-- R122: a flight's fence bit: its entry and its bit. -/
def fenceBit (k : Nat) : Nat × Nat :=
  if k % 20 < 12 then (Od.fencedPFlights, k / 20 * 12 + k % 20) else (Od.fencedGFlights, k / 20 * 8 + (k % 20 - 12))

/-- The flight is fenced. -/
def State.fenced (s : State) (k : Nat) : Bool := bit (s.odGet (fenceBit k).1) (fenceBit k).2

/-! ### Spans (R244) -/

/-- The walk at the start of a program. -/
def Walk.start : Walk := ⟨[], false, false, false, [], false, [], 0, 0⟩

/-- R244: a program's pre-emption span. -/
def Image.span (i : Image) : Nat :=
  if i.fixedLat then fixedSpan i i.gFlight
  else match expandFrom i.ops (i.ops.length + 1) 0 [] with
    | .error _ => 0
    | .ok l => match walkAll i.gFlight l Walk.start with
      | .error _ => 0
      | .ok n => n

/-- R244: OD 0x3000.4D: the largest span among resident programs. -/
def State.updateSpan (s : State) : State :=
  s.odPut Od.maxPpSpan ((s.progs.map (fun e => e.2.img.span)).foldl max 0)

/-- The landing whose handle table a handle list entry names (R211, R223). -/
def tableLanding (fk table : Nat) : Nat := if table = 0 then fk else hallLanding (fk / 20)

/-- R220: a program is unloaded: its generators and its handle table entries are freed. -/
def State.unloadProg (s : State) (fk slot : Nat) : State :=
  match s.progAt fk slot with
  | none => s
  | some p =>
    let s := p.img.handles.foldl (fun s e => s.setHandle (tableLanding fk e.table) e.handle 0) s
    let x := s.flight fk
    let cur := if x.current = some slot then none else x.current
    let v := { s.serve with expertProgs := kdel (fk * 4 + slot) s.serve.expertProgs, skipped := s.serve.skipped.filter (· != fk * 4 + slot) }
    let s : State := { s with serve := v }
    (s.setFlight fk { x with progs := x.progs.filter (fun q => q.slot != slot), current := cur }).updateSpan

/-- R246: the foot releases every VALID tile without commit; blocks on their way are dropped. -/
def State.releaseTiles (s : State) (fk : Nat) : State :=
  let x := s.flight fk
  s.setFlight fk { x with tiles := [], refetch := [], resolved := [] }

/-- The programs of a job in this module. -/
def State.jobProgs (s : State) (job : Nat) : List (Nat × Prog) := s.progs.filter (fun e => e.2.img.job == job)

/-- A job as the Planner knows it. -/
def State.jobOf (s : State) (job : Nat) : JobSt :=
  (s.serve.jobs.find? (fun j => j.job == job)).getD ⟨job, 0, [], 0, [], false, none⟩

/-- Set a job. -/
def State.setJob (s : State) (j : JobSt) : State :=
  { s with serve := { s.serve with jobs := s.serve.jobs.filter (fun x => x.job != j.job) ++ [j] } }

/-- The open step of a job. -/
def State.openStepOf (s : State) (job : Nat) : Option StepSt := s.serve.steps.find? (fun x => x.job == job)

/-- Change the open step of a job. -/
def State.modStep (s : State) (job : Nat) (f : StepSt → StepSt) : State :=
  { s with serve := { s.serve with steps := modFirst (fun x => x.job == job) f s.serve.steps } }

/-- The step of a job ends. -/
def State.dropStep (s : State) (job : Nat) : State :=
  let own := (s.jobProgs job).map (fun e => e.1 * 4 + e.2.slot)
  { s with serve := { s.serve with steps := s.serve.steps.filter (fun x => x.job != job),
                                   skipped := s.serve.skipped.filter (fun k => !own.contains k) } }

/-- The streams that a step still commits for. -/
def StepSt.live (x : StepSt) : List Nat := x.slots.dedup.filter (fun i => !x.removed.contains i)

/-- R246: programs of a job run on other modules. -/
def Image.acrossModules (i : Image) : Bool :=
  i.barriers.any (fun b => decide (3 ≤ b.scope)) || i.peers.any (fun p => p.path != noPath) || !i.groups.isEmpty

/-- R320, R321: streams with a cancel that no open step of a job serves or waits for take it. -/
def State.takeIdleCancels (s : State) : State :=
  (s.streamList.filter (fun i =>
    runningState (s.sState i) && bit (s.sw i 0) 16 &&
    !s.serve.steps.any (fun x => (x.slots.contains i && !x.removed.contains i) ||
      (x.model == s.sModel i && x.hall == s.sHall i && s.sState i == stWaitingPage)))).foldl (fun s i => s.endStream i stCancelled) s

/-! ### Program stops (R246, R319, R397) -/

/-- R397: the codes after which the Planner loads a job again. -/
def restartable (code : Nat) : Bool := [0x3011, 0x3073, 0x3075, 0x4204, 0x5020].contains code

/-- R397: the flights of this module that are not fenced can hold the job's programs beside those of other jobs; a job that runs on other modules too may find
room there. -/
def State.canHold (s : State) (job : Nat) : Bool :=
  let mine := s.jobProgs job
  let room := fun (g : Bool) => (((List.range 80).filter (fun k => decide (12 ≤ k % 20) == g && !s.fenced k)).map (fun k =>
    4 - ((s.flight k).progs.filter (fun p => p.img.job != job)).length)).sum
  let need := fun (g : Bool) => (mine.filter (fun e => decide (12 ≤ e.1 % 20) == g)).length
  mine.any (fun e => e.2.img.acrossModules) || (decide (need false ≤ room false) && decide (need true ≤ room true))

/-- R397: the Planner's decision after a job stop: whether the job's streams end, and the state with the restart counted, or 0x4311
logged. `room` says that flights can hold the job. -/
def State.planRestart (s : State) (job code : Nat) (room : Bool) : Bool × State :=
  let j := s.jobOf job
  let recent := j.restarts.filter (fun t => decide (s.epoch < t + 60 * oneSec))
  if !restartable code then (true, s.setJob { j with code := code, abandoned := true })
  else if !room ∨ s.odGet Od.restartLimit ≤ recent.length then
    (true, (s.setJob { j with code := code, abandoned := true }).logEv { code := 0x4311, job := job, model := j.model })
  else
    (false, (s.setJob { j with code := code, restarts := recent ++ [s.epoch] }).count Od.jobRestarts 1)

/-- R311: the sequence number of the newest log record of a code that the ring still holds, or 0. -/
def State.logSeqOf (s : State) (code : Nat) : Nat := ((s.log.ring.reverse.find? (fun r => r.code == code)).map (·.seq)).getD 0

/-- R246, R327: the fault records of an abandoned step's streams. -/
def State.recordAbandon (s : State) (ss : List Nat) (code : Nat) (final : Bool) (origin : Nat) : State :=
  let seq := s.logSeqOf code
  ss.foldl (fun s i =>
    let s := s.modStream i (fun r => { r with sampled := [], tree := [], ready := s.epoch })
    if s.sState i = stField then
      if code = 0x4040 then s.faultStream i code origin 0 0 seq
      else (s.faultRec i code false origin 0 0 seq).fieldStepEnd i
    else if !runningState (s.sState i) then s
    else if final then s.faultStream i code origin 0 0 seq
    else s.faultRec i code false origin 0 0 seq) s

/-- R311: the ORIGIN of a fault that a code brings through a job. -/
def originOf (code : Nat) : Nat :=
  if code = 0x3033 ∨ code = 0x3030 ∨ code = 0x3031 then 4 else if code = 0x5020 then 6
  else if code = 0x4040 ∨ code = 0x2020 ∨ code = 0x2021 then 5 else 3

/-- R246, steps 1 to 3: one program stops with a code at a word, once. -/
def State.stopProg (s : State) (fk slot code word : Nat) : State :=
  match s.progAt fk slot with
  | none => s
  | some p =>
    if p.mode = .stopped then s else
    let s := s.modProg fk slot (fun p => { p with mode := .stopped })
    let s := if (s.flight fk).current = some slot then s.releaseTiles fk else s
    let s := (s.count Od.programStops 1).odPut Od.lastStop code
    s.logStop { code := code, hall := fk / 20, unit := fk % 20, model := p.img.model, job := p.img.job, detail := leBytes 4 word } fk p.addr

/-- R246: what a job holds in this module ends: programs unloaded, barriers, transfers, collectives and exchanges dropped. -/
def State.clearJob (s : State) (job : Nat) : State :=
  let s := (s.jobProgs job).foldl (fun s e => (if (s.flight e.1).current = some e.2.slot then s.releaseTiles e.1 else s).unloadProg e.1 e.2.slot) s
  let h : HallsSt := { s.halls with barriers := s.halls.barriers.filter (fun b => b.job != job) }
  let v : ServeSt := { s.serve with
    moves := s.serve.moves.filter (fun m => m.job != job), colls := s.serve.colls.filter (fun c => c.job != job),
    exchanges := s.serve.exchanges.filter (fun e => e.job != job), early := s.serve.early.filter (fun f => f.job != job) }
  let s : State := { s with halls := h, serve := v }
  let s := if s.serve.jobs.any (fun j => j.job == job) then s.setJob { (s.jobOf job) with replacing := none } else s
  let outs := ((s.openStepOf job).map (·.waits)).getD []
  s.abandonDescs (fun d => (d.use == .prog && d.job == job) || outs.contains d.id)

/-- R319: the streams under way that a job alone can serve: of its model, in its halls, with no other job of the model that is resident there or is loaded again. -/
def State.jobStreams (s : State) (job : Nat) : List Nat :=
  let ps := s.jobProgs job
  let ms := ps.map (fun e => e.2.img.model)
  let hs := ps.map (fun e => e.1 / 20)
  let wide := ps.any (fun e => e.2.img.acrossModules)
  let others := fun (i : Nat) => s.progs.any (fun e => e.2.img.job != job && e.2.img.model == s.sModel i &&
      (e.2.img.acrossModules || e.1 / 20 == s.sHall i)) ||
    s.serve.jobs.any (fun j => j.job != job && j.model == s.sModel i && j.code != 0 && !j.abandoned)
  s.streamList.filter (fun i => runningState (s.sState i) && ms.contains (s.sModel i) && (wide || hs.contains (s.sHall i)) && !others i)

/-- R246, R319, steps 4 and 5: the job's programs, which have stopped, are unloaded; its open step is abandoned; where the
Planner does not load it again, every stream that only it serves ends. Safe Stop has ended every job already (R530). -/
def State.endJob (s : State) (job code : Nat) : State :=
  if s.mode = .safeStop then s
  else
  let live := ((s.openStepOf job).map StepSt.live).getD []
  let own := s.jobStreams job
  let room := s.canHold job
  let s := (s.clearJob job).dropStep job
  let (final, s) := s.planRestart job code room
  let ss := if final then (live ++ own).dedup else live
  ((s.recordAbandon ss code final (originOf code)).takeIdleCancels).closeSettled

/-- R246, R411: the modules that a stop of a job goes to from here, by the tree of managers: the manager above, and below it the manager of each member
of the galleries that this module manages, but for the module that the stop came from. -/
def State.stopPaths (s : State) (src : Option Word64) : List Word64 :=
  let up := if s.managedLevel < s.depth then (s.levelManager (s.managedLevel + 1)).toList else []
  let down := ((List.range 9).filter (fun l => decide (3 ≤ l) && decide (l ≤ s.managedLevel))).flatMap (fun l =>
    (s.levelIndices l).filterMap (fun x => s.memberManager l x))
  (up ++ down).dedup.filter (fun p => some p != src && !s.mine p)

/-- R246, steps 4 and 5: every program of a job that has not stopped yet stops with 0x3074, here and, with the original code, on the other modules. -/
def State.stopRest (s : State) (job code : Nat) : State :=
  let wide := (s.jobProgs job).any (fun e => e.2.img.acrossModules)
  let s := (s.jobProgs job).foldl (fun s e => s.stopProg e.1 e.2.slot 0x3074 e.2.pc) s
  let s := if wide && decide (2 < s.depth) then s.sendJobStop job code (s.stopPaths none) else s
  s.endJob job code

/-- R246: a program stops with a code at a word, and every other program of its job with 0x3074. -/
def State.programStop (s : State) (fk slot code word : Nat) : State :=
  match s.progAt fk slot with
  | none => s
  | some p =>
    (s.stopProg fk slot code word).stopRest p.img.job code

/-- R431, R529: every program of a job stops with one code. -/
def State.jobStopAll (s : State) (job code : Nat) : State :=
  let s := (s.jobProgs job).foldl (fun s e => s.stopProg e.1 e.2.slot code e.2.pc) s
  s.endJob job code

/-! ### Speculation: the tree (R350 to R355) -/

/-- R350: the effective depth of a stream's next step. -/
def State.specDepth (s : State) (i : Nat) : Nat :=
  let w := s.sw i 11
  let width := bits w 55 48
  if bits (s.sw i 0) 21 20 = 0 ∨ s.odGet Od.specAllow = 0 ∨ (s.stream i).draftLost ∨ width = 0 ∨ s.sState i ≠ stGenerating then 0
  else min (bits w 63 56) (min (s.sLimit i - s.sCommitted i - 1) ((s.odGet Od.batchTarget - 1) / width))

/-- R350: the slots that a stream takes. -/
def State.slotsOf (s : State) (i : Nat) : Nat := 1 + bits (s.sw i 11) 55 48 * s.specDepth i

/-- R353: the slots that a slot of a tree attends to: the root, the spine of the levels above, itself. -/
def slotMask (width slot : Nat) : List Nat :=
  if slot = 0 then [0] else 0 :: ((List.range ((slot - 1) / width)).map (fun j => 1 + j * width) ++ [slot])

/-- R353, R71: the bias row of a slot: mantissa 0 for a slot that it attends to and -127 for every other; the row fills its last block with masked channels
(DESIGN CHOICE, log entry 24). -/
def biasRow (maskExp width slots slot : Nat) : Bytes :=
  let n := cdiv slots 32 * 32
  let area := valueArea false ((List.range n).map (fun c => if (slotMask width slot).contains c then 0 else -127))
  padTo (rowBytes false false n) (padTo (headerOff false n) area ++ (List.range (n / 32)).flatMap (fun _ => leBytes 2 (Blk.header ⟨maskExp, false, false, []⟩)))

/-- R353: the bias rows of a stream's tree, one for each slot. -/
def State.writeMasks (s : State) (i width d : Nat) : State :=
  let slots := 1 + width * d
  let e := ((s.pkgOf (s.sModel i)).map (·.maskExp)).getD 0
  s.devWrite (maskPlace (s.sHall i) i) ((List.range slots).flatMap (biasRow e width slots))

/-- R352: a candidate (level, rank) is no child of a spine candidate that is dropped. -/
def hasSpine (bad : Nat → Nat → Bool) (level : Nat) : Bool := (List.range (level - 1)).all (fun l => !bad (l + 1) 0)

/-- R351, R352: a step's candidates: the proposer's ranking is not the spec's to state, so the token of each candidate is free
(DESIGN CHOICE, log entry 24), as is whether it arrives poisoned: such a candidate is dropped with its children, and counted (log entry 97). -/
def State.growTree (s : State) (i : Nat) : State :=
  let d := s.specDepth i
  let width := bits (s.sw i 11) 55 48
  let vocab := ((s.pkgOf (s.sModel i)).map (·.vocab)).getD 1
  let bad := fun (l k : Nat) => Config.freeBit s.free (0x4100 + i) (l * 256 + k)
  let t := (List.range d).flatMap (fun l => (List.range width).map (fun k =>
    (l + 1, k, Config.freeNat s.free (i * 65536 + l * 256 + k) % max 1 vocab)))
  let t := t.filter (fun c => hasSpine bad c.1)
  let kept := t.filter (fun c => !bad c.1 c.2.1)
  let s := s.modStream i (fun r => { r with sampled := [], tree := kept, depth := d })
  let s := s.count Od.candidatesDropped (t.length - kept.length)
  let s := if bits (s.sw i 0) 21 20 = 2 then s.count Od.draftLevels d else s
  if d = 0 then s else (s.writeMasks i width d).tick

/-- R355: the walk over the tree: tokens in order, and the (level, rank) at which it ends. -/
def specWalk (sampled : List (Nat × Nat)) (tree : List (Nat × Nat × Nat)) (width endTok depth : Nat) :
    Nat → Nat → Nat → List Nat × Nat × Nat
  | 0, level, rank => ([], level, rank)
  | fuel + 1, level, rank =>
    let slot := if level = 0 then 0 else 1 + (level - 1) * width + rank
    match sampled.find? (fun p => p.1 == slot) with
    | none => ([], level, rank)
    | some (_, t) =>
      if t = endTok ∨ level = depth ∨ (level ≠ 0 ∧ rank ≠ 0) then ([t], level, rank)
      else
        match tree.find? (fun c => c.1 == level + 1 && c.2.2 == t) with
        | none => ([t], level, rank)
        | some (_, k, _) =>
          let (ts, l, r) := specWalk sampled tree width endTok depth fuel (level + 1) k
          (t :: ts, l, r)

/-- What a step commits for a stream: positions, tokens, input positions, and whether the stream ends. -/
structure CommitPlan where
  positions : Nat
  tokens    : List Nat
  fed       : Nat
  ends      : Bool
  level     : Nat
  rank      : Nat
  deriving DecidableEq, Repr

/-- R335: a prompt chunk holds at most 64 positions (DEDUCED, log entry 25). -/
abbrev chunkMax : Nat := 64

/-- R308, R355: what the open step commits for a stream. -/
def State.commitPlan (s : State) (i : Nat) : CommitPlan :=
  match s.pkgOf (s.sModel i) with
  | none => ⟨0, [], 0, true, 0, 0⟩
  | some p =>
    let r := s.stream i
    if p.vocab = 0 then ⟨0, [], 0, true, 0, 0⟩
    else if s.sState i = stGenerating ∨ r.was = stGenerating then
      let width := bits (s.sw i 11) 55 48
      let depth := r.tree.foldl (fun m c => max m c.1) 0
      let (ts, l, k) := specWalk r.sampled r.tree width p.endToken depth (depth + 1) 0 0
      ⟨ts.length, ts, 0, decide (s.sLimit i ≤ s.sCommitted i + ts.length) || ts.contains p.endToken, l, k⟩
    else
      let n := min chunkMax (s.sw i 3 / 4 - r.fed)
      if r.fed + n < s.sw i 3 / 4 then ⟨n, [], n, false, 0, 0⟩
      else if s.sLimit i = 0 then ⟨n, [], n, true, 0, 0⟩
      else
        let ts := ((r.sampled.find? (fun q => q.1 == 0)).map (fun q => [q.2])).getD []
        ⟨n, ts, n, !ts.isEmpty && (decide (s.sLimit i ≤ 1) || ts.contains p.endToken), 0, 0⟩

end Sys2Proof.Machine
end

