-- ==== Sys2Proof/Machine/Install.lean ====
section
/-!
DEFINITION. Install.lean: a program that the loader accepted becomes resident (R137, R249); a re-placement takes effect (R386, R395, R396).
-/

namespace Sys2Proof.Machine

/-! ### Residence (R137, R249) -/

/-- R137: seed the generators that a binding table binds, each from the lowest slot that binds it. -/
def State.seedGens (s : State) (hall : Nat) (i : Image) : State :=
  (List.range 16).reverse.foldl (fun s g =>
    let b := i.bind g
    if !b.used then s
    else
      let seed := if b.src = 1 then BitVec.ofNat 64 b.seed else Config.entropy s.free (hall * 64 + b.gen)
      let lanes := (List.range 64).map (Lane.seed seed g)
      let s : State := { s with halls := { s.halls with gens := kput (hall * 64 + b.gen) lanes s.halls.gens } }
      if b.src = 1 then s else s.tick) s

/-- The lowest free slot of a flight. -/
def FlightSt.freeSlot (x : FlightSt) : Nat := ((List.range 4).find? (fun k => !(x.progs.any (fun p => p.slot == k)))).getD 0

/-- R249: a program that passes takes the flight's lowest free slot; its generators are seeded and its handles written. -/
def State.install (s : State) (fk addr : Nat) (i : Image) : State :=
  let s := s.seedGens (fk / 20) i
  let s := (i.handles.filter (fun h => h.atLoad == 1)).foldl (fun s h => s.setHandle (tableLanding fk h.table) h.handle h.entry) s
  let x := s.flight fk
  let p : Prog :=
    { slot := x.freeSlot, addr := addr, img := i, mode := .idle, cls := 3, pc := 0, rep := none, counters := List.replicate 8 0,
      issued := [], nextOp := 0, bars := [], resume := none, ppDone := false, lastPass := [], since := 0 }
  let s := s.setFlight fk { x with progs := x.progs ++ [p] }
  let j := s.jobOf i.job
  let s := s.setJob { j with model := i.model, code := 0, waiting := [], abandoned := false }
  ((s.count Od.loads 1).updateSpan).closeSettled

/-! ### Re-placement (R395, R396) -/

/-- R181: bytes of a slice's data area, as packed. -/
def ModelSt.dataLen (x : ModelSt) (k : Nat) : Nat := (kget (0, 0, []) k x.work).2.1 * 64

/-- R181: bytes of a slice's index table, and of its check table. -/
def sliceTableLen (sl : Slice) : Nat := 4 * cdiv sl.t5Bytes 4096

/-- R386: the pages of a region, from the page of its first byte. -/
def pagesOf (a n : Nat) : Nat × Nat := (a / 4096 * 4096, cdiv (a % 4096 + n) 4096 * 4096)

/-- R395: class 3 Movers copy a region to its new place, poisoned words as poisoned (R290). -/
def State.moveRegion (s : State) (a b n : Nat) : State :=
  if a = b ∨ n = 0 then s
  else
    let d := s.memBytes a n
    let bad := (List.range n).filter (fun i => s.wordPoisoned ((a + i) / 8))
    let s := s.devWrite b d
    let s := (wordsOf b n).foldl (fun s w =>
      if bad.any (fun i => decide ((b + i) / 8 = w)) then s.memMark (8 * w) 8 true else s) s
    s.counts [(Od.moverBytes, n), (Od.moverDescriptors, 1), (Od.moverPoisonBytes, bad.length)]

/-! ### Copies in flight landings (R382, R388, R394) -/

/-- n bytes of device memory, each with whether its word is poisoned. -/
def State.memMarked (s : State) (a n : Nat) : List (Byte × Bool) := (List.range n).map (fun k => (s.memByte (a + k), s.wordPoisoned ((a + k) / 8)))

/-- R382: the Planner fills a landing outside any task: what it writes belongs to no task, and every task finds it written (R217). -/
def Landing.fill (x : Landing) (off : Nat) (l : List (Byte × Bool)) : Landing :=
  if l = [] then x
  else
    let words := (List.range ((off + l.length - 1) / 8 + 1 - off / 8)).map (· + off / 8)
    let units := (List.range ((off + l.length - 1) / 64 + 1 - off / 64)).map (· + off / 64)
    { x with
      bytes := kputBytes x.bytes off (l.map (·.1))
      poison := words.foldl (fun p w =>
        kset false w ((List.range 8).any (fun j => decide (off ≤ 8 * w + j) && (l.getD (8 * w + j - off) (0, false)).2)) p) x.poison
      owner := units.foldl (fun o u => kdel u o) x.owner
      stamp := units.foldl (fun o u => kput u (2 ^ 64) o) x.stamp }

/-- R181, R382: the data, the index entries and the check values of a copy of blocks of a stored slice. -/
def State.copyArrays (s : State) (sl : Slice) (bs : List Nat) : List (Byte × Bool) × List (Byte × Bool) × List (Byte × Bool) :=
  bs.foldl (fun r b =>
    let (a, n) := s.blockAt sl b
    let e := s.memMarked (sl.idxAddr + 4 * b) 4
    let v := leNat (e.map (·.1))
    let v := if bit v 30 then v else setBits v 29 0 (r.1.length / 64)
    (r.1 ++ s.memMarked a n, r.2.1 ++ (leBytes 4 v).zip (e.map (·.2)), r.2.2 ++ s.memMarked (sl.chkAddr + 4 * b) 4)) ([], [], [])

/-- The copies of a model's slices that lie in this module, each with its slice. -/
def State.ownCopies (s : State) (p : Package) : List (LandCopy × Slice) :=
  p.copies.filterMap (fun c => (p.slices[c.slice]?).bind (fun sl => if s.holds sl then some (c, sl) else none))

/-- R382: the copies in flight landings that hold block b of a slice of a model, each with the bytes of data that stand in it before the block. -/
def State.blockCopies (s : State) (m : Nat) (sl : Slice) (b : Nat) : List (LandCopy × Nat) :=
  ((((kfind m s.serve.models).bind (·.pkg)).map s.ownCopies).getD []).filterMap (fun e =>
    if e.2 = sl ∧ b ∈ e.1.blocks then some (e.1, ((e.1.blocks.takeWhile (· ≠ b)).map (fun x => (s.blockAt sl x).2)).sum) else none)

/-- R382, R521: the stored block of which an index entry in a landing is a copy: model, slice and block. -/
def State.copiedBlock (s : State) (l a : Nat) : Option (Nat × Slice × Nat) :=
  s.serve.models.findSome? (fun e =>
    ((e.2.pkg.map s.ownCopies).getD []).findSome? (fun c =>
      if c.1.flight = l ∧ c.1.idx ≤ a then (c.1.blocks[(a - c.1.idx) / 4]?).map (fun b => (e.1, c.2, b)) else none))

/-- R527: the stored bytes of block b are marked in a copy. -/
def Landing.markPart (x : Landing) (off n : Nat) : Landing :=
  { x with poison := (wordsOf off n).foldl (fun p w => kset false w true p) x.poison }

/-- R388, step 4: a copy is written into its flight's landing. -/
def State.landCopy (s : State) (c : LandCopy) (sl : Slice) : State :=
  let (d, i, k) := s.copyArrays sl c.blocks
  let n := d.length + i.length + k.length
  (s.setLanding c.flight ((((s.landing c.flight).fill c.data d).fill c.idx i).fill c.chk k)).counts [(Od.moverBytes, n), (Od.moverDescriptors, 1)]

/-- R391: the landing units of a copy are free again. -/
def State.dropCopy (s : State) (c : LandCopy) (sl : Slice) : State :=
  let (d, i, k) := s.copyArrays sl c.blocks
  let units := fun (off n : Nat) => (List.range (cdiv n 64)).map (· + off / 64)
  s.setLanding c.flight ((s.landing c.flight).overwrite (units c.data d.length ++ units c.idx i.length ++ units c.chk k.length))

/-- R394: the landing copies of a model that its programs need go with them from one flight to another: their records, or, with `write`, the bytes too. -/
def State.moveCopies (s : State) (m k j : Nat) (write : Bool) : State :=
  match (kfind m s.serve.models).bind (fun x => x.pkg.map (fun p => (x, p))) with
  | none => s
  | some (x, p) =>
    if k = j then s else
    let p' := { p with copies := p.copies.map (fun c => if c.flight = k then { c with flight := j } else c) }
    let s : State := { s with serve := { s.serve with models := kput m { x with pkg := some p' } s.serve.models } }
    if write then ((s.ownCopies p').filter (fun e => e.1.flight == j)).foldl (fun s e => s.landCopy e.1 e.2) s else s

/-- R386: the mappings of a model that led to a region lead to its new place. -/
def State.remap (s : State) (m a b n : Nat) : State :=
  let (p, z) := pagesOf a n
  let l := s.xlate.maps.map (fun x =>
    if x.model = m ∧ x.device = p ∧ x.size = z then { x with device := b / 4096 * 4096 } else x)
  { s with xlate := { s.xlate with maps := l } }

/-- R395: a slice of a model moves: its three arrays and its shadow, and the mappings. A place keeps its offset in a page, so that the programs' areas stay
valid. -/
def State.moveSlice (s : State) (m k : Nat) (sl new : Slice) : State :=
  match kfind m s.serve.models with
  | none => s
  | some x =>
    match x.pkg with
    | none => s
    | some p =>
      if sl.dataAddr % 4096 ≠ new.dataAddr % 4096 ∨ sl.idxAddr % 4096 ≠ new.idxAddr % 4096 ∨ sl.chkAddr % 4096 ≠ new.chkAddr % 4096 then s
      else
        let n := x.dataLen k
        let t := sliceTableLen sl
        let s := ((s.moveRegion sl.dataAddr new.dataAddr n).moveRegion sl.idxAddr new.idxAddr t).moveRegion sl.chkAddr new.chkAddr t
        let s := if sl.shadow = 0 ∨ new.shadow = 0 then s else s.moveRegion sl.shadow new.shadow sl.t5Bytes
        let s := ((s.remap m sl.dataAddr new.dataAddr n).remap m sl.idxAddr new.idxAddr t).remap m sl.chkAddr new.chkAddr t
        let put := { sl with hall := new.hall, dataAddr := new.dataAddr, idxAddr := new.idxAddr, chkAddr := new.chkAddr,
                             shadow := if sl.shadow = 0 then 0 else new.shadow }
        let p := { p with slices := p.slices.set k put }
        { s with serve := { s.serve with models := kput m { x with pkg := some p } s.serve.models } }

/-- R395: the slices of a list move; a slice of the model is the one with the same tensor and the same place in the package. -/
def State.moveSlices (s : State) (m : Nat) (l : List Slice) : State :=
  l.foldl (fun s new =>
    let old := ((s.pkgOf m).map (·.slices)).getD []
    match (old.zip (List.range old.length)).find? (fun e => e.1.tensor == new.tensor && e.1.srcAddr == new.srcAddr) with
    | some (sl, k) => s.moveSlice m k sl new
    | none => s) s

/-- R368, R396: exchange the entries of two experts in the expert map that an exchange record of a layer names. -/
def State.swapMap (s : State) (fk layer a b : Nat) (p : Prog) : State :=
  let l := hallLanding (fk / 20)
  (p.img.ops.filter (fun w => opOf w == 0x44)).foldl (fun s w =>
    match s.resolve 0 l (bits w 95 88) with
    | none => s
    | some r =>
      let rec_ := s.landBytes 0 r.landing (r.base * 64) 64
      if leField rec_ 34 2 ≠ layer then s
      else
        match s.resolve 0 l (leField rec_ 33 1) with
        | none => s
        | some m =>
          let x := s.landBytes 0 m.landing (m.base * 64 + 2 * a) 2
          let y := s.landBytes 0 m.landing (m.base * 64 + 2 * b) 2
          (s.landWrite m.landing (m.base * 64 + 2 * a) y false p.img.tenant).landWrite m.landing (m.base * 64 + 2 * b) x false p.img.tenant) s

/-- R396: two experts of a layer of a model change places. -/
def State.swapExperts (s : State) (m layer a b : Nat) : State :=
  match kfind m s.serve.models with
  | none => s
  | some x =>
    let at_ := fun (p : Package) (e : Nat) => p.experts.find? (fun q => q.layer == layer && q.expert == e)
    let pk := x.pkg.map (fun p =>
      match at_ p a, at_ p b with
      | some pa, some pb => { p with experts := p.experts.map (fun q =>
          if q.layer = layer ∧ q.expert = a then { pb with expert := a } else if q.layer = layer ∧ q.expert = b then { pa with expert := b } else q) }
      | _, _ => p)
    let s : State := { s with serve := { s.serve with models := kput m { x with pkg := pk } s.serve.models } }
    (s.progs.filter (fun e => e.2.img.model == m)).foldl (fun s e => s.swapMap e.1 layer a b e.2) s

/-- R248, R394: the flight that takes a program at a re-placement: its own, or, where that is fenced, the lowest of its kind in the hall with room. -/
def State.placeFor (s : State) (fk : Nat) : Nat :=
  if !s.fenced fk then fk
  else (((List.range 20).map (fun i => fk / 20 * 20 + i)).find? (fun j =>
    (decide (j % 20 < 12) == decide (fk % 20 < 12)) && !s.fenced j && decide ((s.flight j).progs.length < 4))).getD fk

/-- R394: n blocks of the cache pool of one hall go to another hall of the model, as many as are free. -/
def State.resizePool (s : State) (m h j n : Nat) : State :=
  match (kfind m s.serve.models).bind (fun x => x.pkg.map (fun p => (x, p))) with
  | none => s
  | some (x, p) =>
    let own := ((p.pool.find? (fun e => e.1 == h)).map (·.2)).getD 0
    let n := min n (min own (s.pool h).2)
    if !(p.pool.any (fun e => e.1 == j)) ∨ h = j then s
    else
      let put := p.pool.map (fun e => if e.1 = h then (h, e.2 - n) else if e.1 = j then (j, e.2 + n) else e)
      let pools := kset (0, 0) h ((s.pool h).1 - n, (s.pool h).2 - n) s.serve.pools
      let pools := kset (0, 0) j ((s.pool j).1 + n, (s.pool j).2 + n) pools
      { s with serve := { s.serve with models := kput m { x with pkg := some { p with pool := put } } s.serve.models, pools := pools } }

/-- R393: a placement of a model takes effect: its epoch and its time. -/
def State.newEpoch (s : State) (m : Nat) : State :=
  let s := s.count Od.planEpoch 1
  match kfind m s.serve.models with
  | none => s
  | some x => { s with serve := { s.serve with models := kput m { x with epoch := s.odGet Od.planEpoch, time := s.epoch } s.serve.models } }

/-- R395, stages 2 and 3: the job's programs are unloaded and loaded again at the new places; the mappings and the epoch change; 0x4310. -/
def State.replaceJob (s : State) (job : Nat) (r : Replace) : State :=
  let j := s.jobOf job
  let ps := s.jobProgs job
  let m := (ps.head?.map (fun e => e.2.img.model)).getD j.model
  let s := ps.foldl (fun s e => s.unloadProg e.1 e.2.slot) s
  let s := s.moveSlices m r.slices
  let s := r.swaps.foldl (fun s w => s.swapExperts m w.1 w.2.1 w.2.2) s
  let s := r.pools.foldl (fun s w => s.resizePool m w.1 w.2.1 w.2.2) s
  let s := ps.foldl (fun s e =>
    let k := s.placeFor e.1
    (s.moveCopies m e.1 k true).install k e.2.addr e.2.img) s
  let s := s.setJob { (s.jobOf job) with replacing := none, waiting := j.waiting }
  (((s.newEpoch m).count Od.replacements 1).logEv { code := 0x4310, job := job, model := m }).closeSettled

end Sys2Proof.Machine
end

