-- ==== Sys2Proof/Machine/Offer.lean ====
section
/-!
DEFINITION. Offer.lean: the step scheduler (R329 to R335, R341): the queued work of a hall in its order, the start of a prompt, the batch of a
generation step, the step that opens; and the release of barriers (R238, R411).
-/

namespace Sys2Proof.Machine

/-! ### Operations that end (R236) -/

/-- R236: an issued operation ends: its counter falls. -/
def Prog.endIssued (p : Prog) (id : Nat) : Prog :=
  match p.issued.find? (fun x => x.id == id) with
  | none => p
  | some x =>
    { p with issued := p.issued.filter (fun y => y.id != id),
             counters := match x.sig with
               | some c => p.counters.set c (p.counters.getD c 0 - 1)
               | none => p.counters }

/-- A program that waits at a barrier goes on: its BARRIER or STEP ends. -/
def Prog.passBarrier (p : Prog) : Prog :=
  match p.mode with
  | .atBarrier =>
    let ids := (p.issued.filter (fun x => x.op == 0x08 || x.op == 0x09)).map (·.id)
    ids.foldl Prog.endIssued { p with mode := .running }
  | _ => p

/-! ### Release of a barrier (R238, R411) -/

/-- R238: the three values that arrivals share, at one barrier unit. -/
def BarrierSt.is (b : BarrierSt) (job bid use : Nat) (hall : Option Nat) : Bool := b.job == job && b.bid == bid && b.use == use && b.hall == hall

/-- The barrier of a key. -/
def State.barrierOf (s : State) (job bid use : Nat) (hall : Option Nat) : Option BarrierSt := s.halls.barriers.find? (fun b => b.is job bid use hall)

/-- R238: the barrier releases for the programs that have arrived here. -/
def State.releaseLocal (s : State) (job bid use : Nat) (hall : Option Nat) : State :=
  match s.barrierOf job bid use hall with
  | none => s
  | some b =>
    let s : State := { s with halls := { s.halls with barriers := s.halls.barriers.filter (fun b => !b.is job bid use hall) } }
    b.arrived.foldl (fun s a => s.modProg (a / 4) (a % 4) Prog.passBarrier) s

/-- R408, DESIGN CHOICE, log entry 33: the payload of BARRIER_ARRIVE and BARRIER_RELEASE. -/
def barrierPayload (bid scope use : Nat) : Bytes := leBytes 1 bid ++ leBytes 1 scope ++ zeros 2 ++ leBytes 4 use

/-- R411: BARRIER_RELEASE goes down the tree from the galleries of levels `top` and below that this module manages, and the barrier
releases here. -/
def State.galRelease (s : State) (job bid use scope top : Nat) : State :=
  let send := fun (s : State) (l : Nat) =>
    (s.levelIndices l).foldl (fun s x =>
      match s.memberManager l x with
      | some p => if s.mine p then s else s.sendFrame (s.mkFrame p 0x05 0 31 job 0 0 (barrierPayload bid scope use))
      | none => s) s
  let s := if s.isManager then ((List.range 9).reverse.filter (fun l => decide (3 ≤ l) && decide (l ≤ top))).foldl send s else s
  s.releaseLocal job bid use none

/-- The release of a barrier whose arrivals are complete. -/
def State.releaseBarrier (s : State) (job bid use : Nat) (hall : Option Nat) : State :=
  match s.barrierOf job bid use hall with
  | some b => if 3 ≤ b.scope then s.galRelease job bid use b.scope b.scope else s.releaseLocal job bid use hall
  | none => s

/-! ### Queued work (R329, R330, R332) -/

/-- R332: class 2 work of a hall counts as class 1 until it has held its share of the window: the P-flight steps of 10 ms at the hall's step
rate. -/
def State.shareOpen (s : State) (h : Nat) : Bool :=
  let p := s.odGet Od.promptShare
  let rate := if s.odGet (Od.stepRateH0 + h) = 0 then s.odGet Od.rateTarget else s.odGet (Od.stepRateH0 + h)
  decide (0 < p) && decide (kget 0 h s.serve.shareSteps * 1000 < p * (120 * rate))

/-- R330, R332: the class in which work of a stream is queued. -/
def State.offerClass (s : State) (i : Nat) : Nat :=
  let c := s.workClass i
  if c = 2 ∧ s.shareOpen (s.sHall i) then 1 else c

/-- R330: the place of a stream's work in the order: rank, then deadline, ready time or submission, then index. -/
def State.workKey (s : State) (i : Nat) : Nat :=
  let c := s.offerClass i
  let t := if c = 0 then s.sw i 1 else if c = 1 then (s.stream i).ready else s.sw i 17
  c * 2 ^ 96 + t % 2 ^ 64 * 2 ^ 16 + i

/-- The class that a key gives. -/
def keyClass (k : Nat) : Nat := k / 2 ^ 96

/-- R341, R359: the blocks that a stream's cache holds already for a submission: its own, and those of the draft model that it names. -/
def State.kept (s : State) (i : Nat) : List Nat × List Nat :=
  match (s.stream i).cache with
  | none => ([], [])
  | some c => (c.blocks, if c.draft = s.draftOf i then c.dblocks else [])

/-- R359: the blocks of a draft cache that a submission does not continue. -/
def State.staleDraft (s : State) (i : Nat) : Nat :=
  match (s.stream i).cache with
  | none => 0
  | some c => if c.draft = s.draftOf i then 0 else c.dblocks.length

/-- R341: the blocks of its own model and of the draft model that a submission still needs. -/
def State.blocksLack (s : State) (i : Nat) : Nat × Nat :=
  (s.ownNeeded i - (s.kept i).1.length, s.draftNeeded i - (s.kept i).2.length)

/-- R297, R305: the input of the next chunk of a prompt is confirmed: token identifiers by chunks, the input of another model whole. -/
def State.chunkReady (s : State) (i : Nat) : Bool :=
  let r := s.stream i
  match r.input with
  | none => true
  | some id =>
    match s.desc id with
    | none => true
    | some d =>
      let tokens := ((s.pkgOf (s.sModel i)).map (·.vocab)).getD 0 != 0
      d.state == .done || decide ((if tokens then 4 * min (r.fed + chunkMax) (s.sw i 3 / 4) else s.sw i 3) ≤ d.confirmed)

/-- R330, R341, R347, R515: the work of a stream is queued: its inputs are there, its blocks can be reserved, a restore has ended, and its class is not
held back. -/
def State.workReady (s : State) (i : Nat) : Bool :=
  let st := s.sState i
  let held := s.workClass i
  !(decide (s.power.heldBack = 1) && held == 2) && !(decide (s.power.heldBack = 2) && held != 0) &&
  !(s.serve.steps.any (fun x => x.slots.contains i && !x.removed.contains i)) &&
  (if st = stField then bit (s.sw i 16) 32
   else if st = stSubmitted then
     (s.pkgOf (s.sModel i)).isSome && !((s.stream i).cache.any (fun c => c.moving == some 1)) &&
       decide ((s.blocksLack i).1 + (s.blocksLack i).2 ≤ (s.pool (s.sHall i)).2 + s.staleDraft i)
   else if st = stPrompt then s.chunkReady i
   else st == stGenerating)

/-- The halls in which programs of a job are resident. -/
def State.jobHalls (s : State) (job : Nat) : List Nat := ((s.jobProgs job).map (fun e => e.1 / 20)).dedup

/-- The queued work that a job's programs can do (R333). -/
def State.workFor (s : State) (job : Nat) : List Nat :=
  match s.jobProgs job with
  | [] => []
  | e :: es =>
    let wide := (e :: es).any (fun q => q.2.img.acrossModules)
    s.streamList.filter (fun i =>
      s.sModel i == e.2.img.model && (wide || (s.jobHalls job).contains (s.sHall i)) && s.workReady i)

/-- The stream whose work comes first. -/
def State.firstWork (s : State) (l : List Nat) : Option Nat :=
  l.foldl (fun b i => match b with | none => some i | some j => some (if s.workKey i < s.workKey j then i else j)) none

/-! ### The batch of a generation step (R335) -/

/-- R335: streams in order, until the next does not fit: those taken, and whether one was left out. -/
def fitBatch (slotsOf : Nat → Nat) : Nat → List Nat → List Nat × Bool
  | _, [] => ([], false)
  | room, i :: t =>
    if slotsOf i ≤ room then
      let (l, more) := fitBatch slotsOf (room - slotsOf i) t
      (i :: l, more)
    else ([], true)

/-- Insert a stream in ready order. -/
def State.insertReady (s : State) (i : Nat) : List Nat → List Nat
  | [] => [i]
  | j :: t => if s.workKey i < s.workKey j then i :: j :: t else j :: s.insertReady i t

/-- R335: the batch that the step of stream i forms from queued work: its streams, whether it may start now, and since when its oldest has been
ready. -/
def State.batchOf (s : State) (i : Nat) (work : List Nat) : List Nat × Bool × Nat :=
  let l := work.filter (fun j => s.sState j == stGenerating && s.workClass j == s.workClass i && s.sHall j == s.sHall i)
  let l := l.foldl (fun a j => s.insertReady j a) []
  let (b, more) := fitBatch s.slotsOf (s.odGet Od.batchTarget) l
  let used := (b.map s.slotsOf).sum
  let since := (b.map (fun j => (s.stream j).ready)).foldl min s.epoch
  (b, !more || decide (s.odGet Od.batchTarget ≤ used) || decide (since + s.odGet Od.batchWaitUs * oneUs ≤ s.epoch), since)

/-! ### Opening a step (R240, R317, R335, R341) -/

/-- R284, R297: the fetch of a stream's input is queued for the Movers of its hall. -/
def State.queueInput (s : State) (i : Nat) : State :=
  let id := s.xlate.nextDesc
  let d : Desc :=
    { id := 0, hall := s.sHall i, src := s.sw i 2, dst := inPlace (s.sHall i) i, len := s.sw i 3, srcSpace := 0, dstSpace := 1, tenant := s.sTenant i,
      cls := s.workClass i, stream := i, origin := 1, confirmed := 0, faultAddr := 0, status := 0, state := .queued, job := 0,
      use := .input }
  (s.addDesc d).modStream i (fun r => { r with input := some id })

/-- R328: a stream continues from its committed progress when the module returns to Run: the fetch of its input, which was abandoned, is queued again, and it
returns from WAITING_PAGE to the state that it left (DEDUCED, log entry 94). -/
def State.continueStream (s : State) (i : Nat) : State :=
  let st := s.sState i
  let w := if st = stWaitingPage then (s.stream i).was else st
  let lost := ((s.stream i).input.bind s.desc).any (fun d => d.state == .abandoned)
  let s := if w = stPrompt ∧ lost then s.queueInput i else s
  if st = stWaitingPage then (s.modStream i (fun r => { r with was := 0 })).setState i w else s

/-! ### Parks and rebuilds (R344, R345) -/

/-- R345: the free pool of a hall is below PARK_LOW_WATER. -/
def State.poolLow (s : State) (h : Nat) : Bool :=
  decide ((s.pool h).2 * 1000 < (s.pool h).1 * s.odGet Od.parkLowWater)

/-- R345, R346: a park of a kept cache begins, unless the hall's mezzanine is withdrawn. -/
def State.startPark (s : State) (i : Nat) : State :=
  if bit (s.odGet Od.mezzPresent) (s.sHall i) then
    s.modStream i (fun r => { r with cache := r.cache.map (fun c =>
      if c.moving.isNone ∧ c.parked.isNone then { c with moving := some 0 } else c) })
  else s

/-- R345: park TIER 0b01 caches of a hall below the low-water mark, oldest pause first: the oldest that is not moving. -/
def State.parkLow (s : State) (h : Nat) : State :=
  if !(s.poolLow h) then s
  else
    let c := s.serve.streams.filterMap (fun e => match e.2.cache with
      | some c => if s.sState e.1 = stPaused ∧ s.sHall e.1 = h ∧ c.moving.isNone ∧ bits (e.2.word 10) 57 56 = 1 then some (c.paused, e.1) else none
      | none => none)
    match c.foldl (fun b x => match b with | none => some x | some y => some (if x.1 < y.1 then x else y)) (none : Option (Nat × Nat)) with
    | some (_, i) => s.startPark i
    | none => s

/-- R344, R341: a poisoned cache block of a stream: 0x4030 and a rebuild in place from the log's tokens of the positions that the block covers, whose result the spec leaves
open in its low-order bits (free); or, where both copies of a needed token are poisoned, 0x4031. -/
def State.rebuildCache (s : State) (i b : Nat) : State :=
  match (s.stream i).cache with
  | some c =>
    let a := blockPlace (s.sHall i) b
    let own := c.blocks.contains b
    let m := if own then c.model else c.draft.getD 0
    let n := s.modelUnits m * 4096
    let heads := max 1 (((s.pkgOf m).map (fun p => p.layersN * p.cacheHeads)).getD 1)
    let at_ := (if own then c.blocks else c.dblocks).idxOf b / heads * 256
    let lost := (List.range (min 256 (c.tokens.length - at_))).any (fun j =>
      let k := at_ + j
      s.memPoisoned (tokenPlace (s.sHall i) 0 i k) 4 && s.memPoisoned (tokenPlace (s.sHall i) 1 i k) 4)
    let x := (s.memSubject a).1
    if lost then
      (s.raiseFault { code := 0x4031, hall := s.sHall i, stream := i, address := a, model := s.sModel i } x).faultStream i 0x4031 5 0 0 s.log.next
    else
      let s := s.raiseFault { code := 0x4030, hall := s.sHall i, stream := i, address := a, model := s.sModel i } x
      if s.mode = .safeStop then s
      else
      let s := (s.faultRec i 0x4030 false 5 0 0 (s.logSeqOf 0x4030)).count Od.cacheRebuilds 1
      (s.memWrite a ((List.range n).map (fun k => Config.freeByte s.free a k)) false).tick
  | none => s

/-- R344: the poisoned blocks of a kept cache are rebuilt before its continuation's prompt runs. -/
def State.rebuildKept (s : State) (i : Nat) : State :=
  match (s.stream i).cache with
  | none => s
  | some c => ((s.cacheSpans c).filter (fun b => s.memPoisoned (blockPlace (s.sHall i) b.1) (b.2 * 4096))).foldl (fun s b => s.rebuildCache i b.1) s

/-- R317, R341, R344: the step scheduler starts a prompt: a kept cache is rebuilt where it is poisoned, blocks are reserved, the entry enters PROMPT, and the
input fetch is queued. -/
def State.startPrompt (s : State) (i : Nat) : State :=
  let s := (if s.staleDraft i = 0 then s else s.releaseDraft i).rebuildKept i
  if s.sState i ≠ stSubmitted then s else
  let draft := s.draftOf i
  let kept := s.kept i
  let lack := s.blocksLack i
  match s.reserve (s.sHall i) (s.sModel i) lack.1 draft lack.2 with
  | none => s
  | some (bs, ds, s) =>
    let t := s.sTenant i
    let old := (s.stream i).cache
    let c : CacheSt :=
      { tenant := t, model := s.sModel i, draft := draft, blocks := kept.1 ++ bs, dblocks := kept.2 ++ ds,
        tokens := ((old.map (·.tokens)).getD []).take (s.sCacheLen i), paused := 0, moving := none, parked := none }
    let s := (s.countWait i).queueInput i
    let s := s.modStream i (fun r => { r with cache := some c, fed := 0 })
    (s.setState i stPrompt).parkLow (s.sHall i)

/-- The handles by which the programs of a job name their commit map (STEP) or its copy (SAMPLE). -/
def mapHandles (i : Image) : List Nat :=
  ((i.ops.filter (fun w => opOf w == 0x09)).map (fun w => bits w 107 100) ++
   (i.ops.filter (fun w => opOf w == 0x46)).map (fun w => bits w 81 74)).dedup

/-- R240: the step scheduler writes the map of an open step, a U16 stream index for each slot, into the buffers that a program names (DESIGN CHOICE, log entry 26). -/
def State.writeMap (s : State) (fk : Nat) (p : Prog) (slots : List Nat) : State :=
  (mapHandles p.img).foldl (fun s h =>
    match s.resolve p.since (hallLanding (fk / 20)) h with
    | none => s
    | some b => s.landWrite b.landing (b.base * 64) ((slots.flatMap (leBytes 2)).take b.bytesLen) false p.img.tenant) s

/-- The map of a job's open step, written for each of its programs. -/
def State.writeMaps (s : State) (job : Nat) : State :=
  match s.openStepOf job with
  | none => s
  | some x => (s.jobProgs job).foldl (fun s e => s.writeMap e.1 e.2 x.slots) s

/-- R302: a step opens for those of the streams whose entries the cache takes. -/
def State.addStep (s : State) (job model : Nat) (streams : List Nat) : State :=
  let s := streams.foldl (fun s i => s.cacheEntry (s.sHall i) i) s
  let h := ((streams.head?).map s.sHall).getD 0
  let all := streams
  let streams := streams.filter (fun i => s.cached (s.sHall i) i)
  if streams = [] then s else
  let s := streams.foldl (fun s i => s.growTree i) s
  let x : StepSt :=
    { job := job, hall := h, model := model, slots := streams.flatMap (fun i => List.replicate (s.slotsOf i) i), removed := [], poison := false,
      weight := false, badCache := [], waits := [], mirror := none, closing := none }
  let s : State := { s with serve := { s.serve with steps := s.serve.steps ++ [x],
                                                    batches := s.serve.batches.filter (fun b => !(b.model == model && b.hall == h && b.streams == all)) } }
  s.writeMaps job

/-- R330, R335: open the next step of a job for the first queued work that its programs can do. A batch that has to wait is recorded. `ripe` says that its
wait has ended. -/
def State.openStep (s : State) (job : Nat) (ripe : Bool := false) : State :=
  if s.mode ≠ .run ∨ (s.openStepOf job).isSome ∨ (s.jobOf job).waiting ≠ [] then s
  else
    let work := s.workFor job
    match s.firstWork work with
    | none => s
    | some i =>
      let m := s.sModel i
      if s.sState i = stGenerating then
        let (b, now, since) := s.batchOf i work
        if now || ripe then s.addStep job m b
        else
          let x : Batch := ⟨s.sHall i, m, s.workClass i, b, since⟩
          { s with serve := { s.serve with batches := s.serve.batches.filter (fun y => !(y.hall == x.hall && y.model == m && y.cls == x.cls)) ++ [x] } }
      else if s.sState i = stSubmitted then
        let s := s.startPrompt i
        if s.sState i = stPrompt then s.addStep job m [i] else s
      else s.addStep job m [i]

/-! ### What a flight runs next (R330, R331) -/

/-- The place in the order of an open step. -/
def State.stepKey (s : State) (x : StepSt) : Nat :=
  x.slots.foldl (fun m i => min m (s.workKey i)) (3 * 2 ^ 96)

/-- R330: the place in the order of a program that runs: of its job's open step, else the one that it had. -/
def State.runKey (s : State) (p : Prog) : Nat :=
  match s.openStepOf p.img.job with
  | some x => s.stepKey x
  | none => p.key

/-- R297: a stream that a job serves waits on a page. -/
def State.waitsOnPage (s : State) (job : Nat) : Bool :=
  s.streamList.any (fun i => s.sState i == stWaitingPage && (s.jobProgs job).any (fun e => e.2.img.model == s.sModel i) && (s.jobHalls job).contains (s.sHall i))

/-- R330: the place in the order of a resident program that does not run: of its job's open step, or of the first queued work its job can do. A suspended
program that has neither keeps the place that it had, unless its stream waits on a page. Another without work has none. -/
def State.progKey (s : State) (p : Prog) : Option Nat :=
  let job := p.img.job
  match s.openStepOf job with
  | some x => some (s.stepKey x)
  | none =>
    if (s.jobOf job).waiting ≠ [] then none
    else match s.firstWork (s.workFor job) with
      | some i => some (s.workKey i)
      | none => if p.mode = .suspended ∧ !s.waitsOnPage job then some p.key else none

/-- R330, R376: the program that a flight would be given: its slot and its place in the order. Expert programs start by their own rule. -/
def State.nextFor (s : State) (fk : Nat) : Option (Nat × Nat) :=
  ((s.flight fk).progs.filter (fun p =>
      (p.mode == .idle && (kfind (fk * 4 + p.slot) s.serve.expertProgs).isNone) || p.mode == .suspended)).foldl (fun b p =>
    match s.progKey p, b with
    | none, _ => b
    | some k, none => some (p.slot, k)
    | some k, some (sl, k') => if k < k' then some (p.slot, k) else some (sl, k')) none

/-- The class in which a running program's work is queued. -/
def State.runClass (s : State) (p : Prog) : Nat :=
  match s.openStepOf p.img.job with
  | some x => keyClass (s.stepKey x)
  | none => p.cls

/-- R331: work of a higher class than the running program's waits for the flight. -/
def State.higherWaits (s : State) (fk : Nat) (p : Prog) : Bool :=
  match s.nextFor fk with
  | some (_, k) => decide (keyClass k < s.runClass p)
  | none => false

end Sys2Proof.Machine
end

