-- ==== Sys2Proof/Machine/Commit.lean ====
section
/-!
DEFINITION. Commit.lean: the commit of a step (R240, R298, R308, R318, R320, R339, R355), its abandonment for poison (R525, R526), and the outputs
that its release waits for.
-/

namespace Sys2Proof.Machine

/-! ### Commit (R240, R298, R308, R318, R320, R339) -/

/-- R345: a turn ends with KEEP set: the cache stays, blocks that it does not use are freed, and TIER 0b10 parks it at once. -/
def State.pauseCache (s : State) (i : Nat) : State :=
  match (s.stream i).cache with
  | none => s
  | some c =>
    let used := min c.blocks.length (((s.pkgOf (s.sModel i)).map (fun p => blocksFor p (s.sCacheLen i))).getD c.blocks.length)
    let dused := min c.dblocks.length (((c.draft.bind s.pkgOf).map (fun p => blocksFor p (s.sCacheLen i))).getD 0)
    let s := s.poolFree (s.sHall i) ((s.pool (s.sHall i)).2 + (c.blocks.length - used) + (c.dblocks.length - dused))
    let s := s.modStream i (fun r => { r with cache := some { c with blocks := c.blocks.take used, dblocks := c.dblocks.take dused, paused := s.epoch } })
    if bits (s.sw i 10) 57 56 = 2 then s.startPark i else s.parkLow (s.sHall i)

/-- R339: a late result of a class 0 stream: LATE, LATE_COUNT, the counter and 0x4020. -/
def State.markLate (s : State) (i : Nat) : State :=
  let s := s.putSw i 0 (setBit (s.sw i 0) 19 true)
  let s := (s.putSw i 19 ((s.sw i 19 + 2 ^ 32) % 2 ^ 64)).count Od.lateResults 1
  s.logLimited { code := 0x4020, hall := s.sHall i } (s.sHall i) oneSec

/-- R339: a late result that is not delivered. -/
def State.dropResult (s : State) (i : Nat) : State :=
  (s.putSw i 19 (s.sw i 19 / 2 ^ 32 * 2 ^ 32 + (s.sw i 19 + 1) % 2 ^ 32)).count Od.lateResultsDropped 1

/-- R304: a class 0 stream's result is late at this moment. -/
def State.isLate (s : State) (i : Nat) : Bool := s.sClass i == 0 && decide (s.sw i 1 < s.epoch)

/-- R468, R469: the field gate reads a result slot and sends the recommendation. -/
def State.recommend (s : State) (i : Nat) : State :=
  match s.cellAt i with
  | none => s
  | some c =>
    match c.answer with
    | none => s
    | some (seq, meas, port, gap) =>
      let a := c.ring + 8192 + 128 * (s.sCommitted i % 2)
      let b := s.memBytes a 128
      let n := leField b 0 1
      let vals := (List.range 48).flatMap (fun k => if k < n then beBytes 2 (leField b (32 + 2 * k) 2) else zeros 2)
      let flags := (if bit (s.sw i 0) 19 then 1 else 0) + (if gap then 2 else 0)
      let r := beBytes 8 c.rec_.cellId ++ beBytes 8 meas ++ beBytes 8 (s.sw i 9) ++ beBytes 2 seq ++ beBytes 1 flags ++ beBytes 1 n ++
        beBytes 2 c.rec_.model ++ (b.drop 1).take 1
      s.balSend 0x81 (leBytes 1 port ++ zeros 7 ++ r ++ zeros 1 ++ vals)

/-- R312, R318: STEP_COUNT, W9, FIRST_COMMIT_TIME. -/
def State.stampCommit (s : State) (i : Nat) : State :=
  let s := (s.putSw i 9 s.epoch).putSw i 16 (setBits (s.sw i 16) 31 0 (bits (s.sw i 16) 31 0 + 1))
  if bits (s.sw i 16) 31 0 = 1 then s.putSw i 18 s.epoch else s

/-- R326, R339, R468: a step commits for a field stream. -/
def State.commitField (s : State) (i : Nat) : State :=
  let late := s.isLate i
  let s := s.putSw i 0 (setBit (s.sw i 0) 19 false)
  let s := if late then s.markLate i else s
  let s := s.putSw i 8 (setBits (s.sw i 8) 31 0 (s.sCommitted i + 1))
  let s := (s.stampCommit i).flushWords i 8 2
  let s := s.flushWords i 0 1
  let s := if late && bit (s.sw i 0) 18 then s.dropResult i else s.recommend i
  (s.notify i true).fieldStepEnd i

/-- R341: the token log takes the tokens of the positions that a commit added, in its two copies. -/
def State.logTokens (s : State) (i n : Nat) : State :=
  let len := s.sCacheLen i
  let toks := (((s.stream i).cache.map (·.tokens)).getD []).drop (len - n) |>.take n
  let h := s.sHall i
  if toks = [] then s
  else [0, 1].foldl (fun s c => s.devWrite (tokenPlace h c i (len - n)) (toks.flatMap (leBytes 4))) s

/-- R354, R356, R359: the key and value rows of the candidate at which the walk ended go to their position in each layer and cache head, from the stream's
scratch blocks and in the draft model's cache. The spec does not say where in a scratch block they lie, nor what the draft keeps, so what arrives is free
(DESIGN CHOICE, log entry 21). -/
def State.keepRows (s : State) (h m pos : Nat) (blocks : List Nat) : State :=
  match s.pkgOf m with
  | none => s
  | some p =>
    let len := 8 * p.rowUnits
    let heads := p.layersN * p.cacheHeads
    let row := fun (s : State) (a : Nat) =>
      s.memWrite a ((List.range len).map (fun k => Config.freeByte s.free (a + k) 0)) (Config.freeBit s.free a 0)
    let s := ((blocks.drop (pos / 256 * heads)).take heads).foldl (fun s b =>
      let a := blockPlace h b + pos % 256 * len
      row (row s a) (a + 256 * len)) s
    s.tick

/-- R356, R359: what the walk's end at a candidate of rank 1 or above writes. -/
def State.scratchCopy (s : State) (i pos : Nat) : State :=
  match (s.stream i).cache with
  | none => s
  | some c =>
    let s := s.keepRows (s.sHall i) c.model pos c.blocks
    match c.draft with
    | none => s
    | some d => s.keepRows (s.sHall i) d pos c.dblocks

/-- R308, R317, R318, R320, R339: a step commits for a request stream. -/
def State.commitRequest (s : State) (i : Nat) : State :=
  let late := s.isLate i
  if late && bit (s.sw i 0) 18 then ((s.markLate i).dropResult i).endStream i stCancelled
  else
    let c := s.commitPlan i
    let s := if s.sClass i = 0 then s.putSw i 0 (setBit (s.sw i 0) 19 false) else s
    let s := if late then s.markLate i else s
    let s := s.putSw i 8 ((s.sCacheLen i + c.positions) % 2 ^ 32 * 2 ^ 32 + (s.sCommitted i + c.tokens.length) % 2 ^ 32)
    let s := s.stampCommit i
    let d := (s.stream i).depth
    let s := if d = 0 then s else s.counts [(Od.specSteps, 1), (Od.candidatesChecked, (s.stream i).tree.length),
      (Od.candidatesAccepted, c.tokens.length - 1), (Od.scratchCopies, if c.rank = 0 then 0 else 1)]
    let fed := (s.stream i).fed
    let given := (List.range c.fed).map (fun k => leNat (s.memBytes (inPlace (s.sHall i) i + 4 * (fed + k)) 4))
    let f := fun (r : StreamRec) =>
      { r with fed := r.fed + c.fed, ready := s.epoch, sampled := [], tree := [], aborts := 0,
               cache := r.cache.map (fun k => { k with tokens := k.tokens ++ given ++ c.tokens }) }
    let s := (s.modStream i f).logTokens i c.positions
    let s := if c.rank = 0 then s else s.scratchCopy i (s.sCacheLen i - c.positions + c.level)
    let s := s.flushLocal i 8 2
    let cancel := bit (s.sw i 0) 16
    if c.ends then
      if cancel then
        ((s.putSw i 0 (setBit (s.sw i 0) 17 true)).count Od.cancelSeenEnds 1).endStream i stCompleted
      else if bit (s.sw i 10) 63 then ((s.leaveSteps i).pauseCache i).endStream i stPaused
      else s.endStream i stCompleted
    else if cancel then s.endStream i stCancelled
    else
      let s := if s.sState i = stPrompt ∧ (s.stream i).fed = s.sw i 3 / 4 then s.setState i stGenerating
               else s.flushWords i 0 1
      s.notify i true

/-- R235: the next word of a program ends it. -/
def Prog.atEnd (p : Prog) : Bool := opOf (p.img.ops.getD p.pc 0) == 0x01

/-- R297: the next chunk of a prompt needs input that waits on a page. -/
def State.inputWaits (s : State) (i : Nat) : Bool :=
  s.sState i == stPrompt && !s.chunkReady i && ((s.stream i).input.bind s.desc).any (fun d => d.state == .waitingPage)

/-- R297: the stream waits for its input. -/
def State.waitForInput (s : State) (i : Nat) : State := (s.modStream i (fun r => { r with was := stPrompt })).setState i stWaitingPage

/-- R297, R242: the programs of a job that have passed their STEP are suspended at it. -/
def State.suspendJob (s : State) (job : Nat) : State :=
  (s.jobProgs job).foldl (fun s e =>
    if e.2.mode = .running then
      let g := fun (p : Prog) => { p with mode := .suspended, resume := some ⟨p.pc, p.rep, p.bars⟩, key := s.runKey p }
      let s := (s.modProg e.1 e.2.slot g).count Od.suspensions 1
      if (s.flight e.1).current = some e.2.slot then s.setFlight e.1 { (s.flight e.1) with current := none } else s
    else s) s

/-- R240, R321: the release of a STEP commits for every stream of the map that is not removed; streams of the job that wait on a page take
their cancels; the programs go on, and the job's next step opens where one of them has work left. A re-placement that waits takes place first (R395). -/
def State.commitStep (s : State) (x : StepSt) : State :=
  let gen := x.live.any (fun i => s.sState i == stGenerating)
  let s := if gen then s.counts [(Od.genSteps, 1), (Od.batchSlotsFilled, x.slots.length)] else s
  let s := s.dropStep x.job
  let s := x.live.foldl (fun s i => if s.sState i = stField then s.commitField i
    else if runningState (s.sState i) then s.commitRequest i else s) s
  let s := s.streamList.foldl (fun s i =>
    if s.sState i = stWaitingPage ∧ s.sModel i = x.model ∧ s.sHall i = x.hall ∧ bit (s.sw i 0) 16 then s.endStream i stCancelled
    else s) s
  let s := match x.closing with
    | some (bid, use, hall) => s.releaseBarrier x.job bid use hall
    | none => s
  match (s.jobOf x.job).replacing with
  | some r => s.replaceJob x.job r
  | none =>
  if (s.jobProgs x.job).any (fun e => e.2.mode == .running && !e.2.atEnd) then
    let s := s.openStep x.job
    let stuck := x.live.filter s.inputWaits
    if (s.openStepOf x.job).isSome || stuck.isEmpty then s
    else (stuck.foldl (fun s i => s.waitForInput i) s).suspendJob x.job
  else s

/-- R525: the open episodes whose subject the programs of a job read: weight blocks of its model; rows, landings and
withdrawn memory of the halls that its programs run in (DESIGN CHOICE, log entry 26). -/
def State.jobEpisodes (s : State) (job : Nat) : List Nat :=
  let ps := s.jobProgs job
  let hs := ps.map (fun e => e.1 / 20)
  (s.newel.episodes.filter (fun e =>
    (e.subj.kind == 1 && ps.any (fun p => p.2.img.model == e.model)) ||
    (e.subj.kind == 2 && hs.contains (memHall e.subj.at_)) || (e.subj.kind == 4 && hs.contains (e.subj.at_ / 256)) ||
    (e.subj.kind == 7 && hs.contains (e.subj.at_ / 256)))).map (·.num)

/-- R525, R526: a poisoned step is abandoned for every stream of its map. -/
def State.abandonPoisoned (s : State) (x : StepSt) : State :=
  let eps := s.jobEpisodes x.job
  let s := (s.logEv { code := 0x2020, job := x.job, model := x.model, detail := eps.flatMap (leBytes 2) }).count Od.stepsPoisoned 1
  let live := x.live
  let newel : NewelSt := { s.newel with episodes := s.newel.episodes.map (fun e =>
    if eps.contains e.num then { e with streams := e.streams + live.length } else e) }
  let s : State := { s with newel := newel }
  let s := (((s.clearJob x.job).dropStep x.job).takeIdleCancels).setJob { (s.jobOf x.job) with waiting := eps }
  let s := x.badCache.foldl (fun s p => s.rebuildCache p.1 p.2) s
  let s := s.recordAbandon (live.filter (fun i => runningState (s.sState i) || s.sState i == stField))
    (if x.weight then 0x2021 else 0x2020) false 5
  live.foldl (fun s i =>
    if !runningState (s.sState i) then s
    else
      let s := s.modStream i (fun r => { r with aborts := if eps.isEmpty then r.aborts + 1 else 0 })
      if (s.stream i).aborts < 4 then s else s.faultStream i 0x2020 5 0 0 (s.logSeqOf 0x2020)) s

/-! ### Closing a step: outputs first (R298) -/

/-- Where the step scheduler holds output tokens of a stream until its Mover has written them (DESIGN CHOICE, log entry 21). -/
def outPlace (hall i : Nat) : Nat := (hall * 6 + 5) * 2 ^ 34 + 2 ^ 31 + i * 4096

/-- R305, R317: the output bytes of a stream's step: its tokens, or, where the step ends a submission without tokens, the model's result record, whose content is
the programs' (free). -/
def State.outputBytes (s : State) (i : Nat) : Bytes :=
  let c := s.commitPlan i
  if c.ends ∧ s.sLimit i = 0 then
    (List.range (((s.pkgOf (s.sModel i)).map (·.resultSize)).getD 0)).map (fun k => Config.freeByte s.free (outPlace (s.sHall i) i) k)
  else c.tokens.flatMap (leBytes 4)

/-- R298: queue the output transfer of a stream's step: its descriptor's number, where it has one. -/
def State.queueOutput (s : State) (i : Nat) : Option Nat × State :=
  let b := s.outputBytes i
  if b = [] ∨ s.sState i = stField then (none, s)
  else
    let a := outPlace (s.sHall i) i
    let s := (s.devWrite a b).tick
    let id := s.xlate.nextDesc
    let d : Desc :=
      { id := 0, hall := s.sHall i, src := a, dst := s.sw i 4 + 4 * s.sCommitted i, len := b.length, srcSpace := 1, dstSpace := 0,
        tenant := s.sTenant i, cls := s.workClass i, stream := i, origin := 1, confirmed := 0, faultAddr := 0, status := 0, state := .queued,
        job := 0, use := .output }
    (some id, s.addDesc d)

/-- Every program of the job has arrived at its STEP, and every output byte is confirmed: the step commits, or is abandoned when it
is poisoned. On a manager the deputy confirms the progress records first (R417). -/
def State.tryRelease (s : State) (job : Nat) : State :=
  match s.openStepOf job with
  | none => s
  | some x =>
    if x.closing.isNone || !x.waits.isEmpty || x.live.any (fun i => (s.sState i == stPrompt || (s.sState i == stWaitingPage && (s.stream i).was == stPrompt)) && !s.chunkReady i) then s
    else
      match s.mirrorTo, x.mirror with
      | some d, none =>
        let s := x.live.foldl (fun s i =>
          let c := s.commitPlan i
          s.moveTo d (s.entryAddr i + 64) (leBytes 8 ((s.sCacheLen i + c.positions) % 2 ^ 32 * 2 ^ 32 + (s.sCommitted i + c.tokens.length) % 2 ^ 32) ++
            leBytes 8 s.epoch)) s
        s.modStep job (fun y => { y with mirror := some (kget 0 d.toNat s.arcade.moved) })
      | some d, some n => if n ≤ kget 0 (d.toNat + 2 ^ 64) s.arcade.moved then s.commitStep x else s
      | none, _ => s.commitStep x

/-- R240, R298, R525: every program of a job has arrived at its STEP. -/
def State.stepArrived (s : State) (job bid use : Nat) (hall : Option Nat) : State :=
  match s.openStepOf job with
  | none => s
  | some x =>
    if x.poison then s.abandonPoisoned x
    else
      let (ids, s) := x.live.foldl (fun (r : List Nat × State) i =>
        let (o, s) := r.2.queueOutput i
        (r.1 ++ o.toList, s)) ([], s)
      let s := s.modStep job (fun y => { y with waits := ids, closing := some (bid, use, hall) })
      s.tryRelease job

/-- R298: a stream whose output waits on a page leaves the commit map and waits. -/
def State.outputWaits (s : State) (i id : Nat) : State :=
  match s.serve.steps.find? (fun x => x.waits.contains id) with
  | none => s
  | some x =>
    let s := s.modStep x.job (fun y => { y with waits := y.waits.filter (· ≠ id), removed := (y.removed ++ [i]).dedup })
    let s := s.modStream i (fun r => { r with was := s.sState i, sampled := [], tree := [] })
    (s.setState i stWaitingPage).tryRelease x.job

/-- An output transfer is confirmed. -/
def State.outputDone (s : State) (id : Nat) : State :=
  match s.serve.steps.find? (fun x => x.waits.contains id) with
  | none => s
  | some x => (s.modStep x.job (fun y => { y with waits := y.waits.filter (· ≠ id) })).tryRelease x.job

end Sys2Proof.Machine
end

