-- ==== Sys2Proof/Machine/Recovery.lean ====
section
/-!
DEFINITION. Recovery.lean: what the module does about errors: bit errors of memory reads (R260, R264, R268, R270), poisoned weight
blocks (R193, R527), fences and reissue (R122, R248), withdrawn memory and withdrawn models (R270, R529).
-/

namespace Sys2Proof.Machine

/-! ### Weight blocks (R193, R527) -/

/-- The model, slice and block that a subject of kind 1 names. -/
def State.subjectBlock (s : State) (x : Subject) : Option (Nat × Slice × Nat) :=
  (s.slices.find? (fun e => e.1 == x.key / 2 ^ 48 && e.2.tensor == x.key / 2 ^ 32 % 2 ^ 16)).map
    (fun e => (e.1, e.2, x.key % 2 ^ 32))

/-- R283, R527: the owning tenant of a model and those that share it. -/
def State.tenantsOf (s : State) (m : Nat) : List Nat :=
  match kfind m s.serve.models with
  | none => []
  | some x => x.tenant :: (List.range 64).filter (fun t => bit x.share t && decide (t ≠ x.tenant))

/-- R193, R527: mark every word of a block's stored bytes poisoned, in memory and in the copies that flight landings hold. -/
def State.markBlock (s : State) (m : Nat) (sl : Slice) (b : Nat) : State :=
  let (a, n) := s.blockAt sl b
  (s.blockCopies m sl b).foldl (fun s c => s.setLanding c.1.flight ((s.landing c.1.flight).markPart (c.1.data + c.2) n)) (s.memMark a n true)

/-- R527: a kind 1 episode has opened: the block is marked in every copy, and 0x2021 goes to each tenant of the model. -/
def State.weightPoisoned (s : State) (x : Subject) : State :=
  match s.subjectBlock x with
  | none => s
  | some (m, sl, b) =>
    let s := s.markBlock m sl b
    let s := match s.episodeOf x with | some e => s.modEpisode e.num (fun e => { e with phase := 2 }) | none => s
    (s.tenantsOf m).foldl (fun s t =>
      let n := ((s.episodeOf x).map (·.streams)).getD 0
      s.raiseFault { code := 0x2021, hall := sl.hall, address := x.at_, model := m, detail := leBytes 1 t ++ leBytes 4 n } x m) s

/-- R521, R527: a Fault with its subject, taken now. -/
def State.fault (s : State) (ev : LogEv) (x : Subject) (model : Nat := 0) : State :=
  let fresh := !s.newel.restarting && (s.episodeOf x).isNone
  let s := s.raiseFault ev x model
  if x.kind = 1 && fresh && (s.episodeOf x).isSome then s.weightPoisoned x else s

/-! ### Bit errors (R257, R260, R264, R268, R270) -/

/-- R270: 16 uncorrectable words of a mezzanine within one second, a channel or a stack that fails training: the range leaves
service, and its contents are lost. -/
def State.withdrawMezz (s : State) (h : Nat) : State :=
  let s := s.odPut Od.mezzPresent (setBit (s.odGet Od.mezzPresent) h false)
  (s.fault { code := 0x2016, hall := h } (unitSubject 7 h 0xFF)).closeSettled

/-- R270: a bonded stack leaves service. -/
def State.withdrawStack (s : State) (n : Nat) : State :=
  let s := s.odPut Od.stacksPresent (setBit (s.odGet Od.stacksPresent) n false)
  s.fault { code := 0x2015, hall := n / 6, unit := n } (unitSubject 7 (n / 6) n)

/-- R348, R317: a hall's mezzanine has failed in Run: parks are abandoned, and PARKED streams end COMPLETED with a 0x2016 record. -/
def State.losePacked (s : State) (h : Nat) : State :=
  s.streamList.foldl (fun s i =>
    match (s.stream i).cache with
    | none => s
    | some c =>
      if s.sHall i ≠ h then s
      else if s.sState i = stParked then
        let s := (s.faultRec i 0x2016 false 5 0 0 (s.logSeqOf 0x2016))
        s.endStream i stCompleted
      else if c.moving.isSome then
        (s.modStream i (fun r => { r with cache := some { c with moving := none, parked := none } })).count Od.moverAbandoned 1
      else s) s

/-- R263, R444: the tier of an address in DETAIL byte 0: 0 bonded, 1 mezzanine. -/
def tierOf (a : Nat) : Nat := if a < mezzBase then 0 else 1

/-- R257: the generator g(x) = (x⁷ + x³ + 1)(x⁷ + x³ + x² + x + 1) without its leading term. -/
def bchGen : BitVec 14 := 0x0377#14

/-- One step of the division by g(x): multiply by x. -/
def bchMulX (r : BitVec 14) : BitVec 14 := if r.getLsbD 13 then (r <<< 1) ^^^ bchGen else r <<< 1

/-- R257: x^k mod g(x). -/
def bchPow : Nat → BitVec 14
  | 0 => 1#14
  | n + 1 => bchMulX (bchPow n)

/-- R257: the syndrome of an error pattern over codeword bits 0 to 79: bit i of [64:0] weighs x^(i+14), bit 65 + j weighs x^j, and
bit 79 is the parity. -/
def syndromeOf (bs : List Nat) : Nat :=
  (bs.foldl (fun r b => r ^^^ (if b < 65 then bchPow (b + 14) else if b < 79 then bchPow (b - 65) else 0#14)) 0#14).toNat +
  (bs.length % 2) * 16384

/-- R444: an uncorrectable word inside the HDM range also gives a General Media Event record: here a record of code 0 in the Failure event log, with the DPA in
ADDRESS. -/
def State.mediaEvent (s : State) (a : Nat) : State :=
  match s.hdmLine a with
  | none => s
  | some _ =>
    s.addEvent
      { seq := s.log.next, code := 0, severity := 2, flags := 0, time := s.epoch, episode := 0, episodeSeq := 0, hall := memHall a,
        unit := stackOf a, stream := 0xFFFF, address := a - s.odGet Od.hostWindowBase, count := 1, model := 0,
        boot := s.newel.bootCount % 65536, job := 0, detail := zeros 20 }

/-- R260, R263, R270: an uncorrectable word: delivered poisoned, rewritten with DATA as read and POISON 1, logged, counted; its row has
met R264. -/
def State.uncorrectable (s : State) (a : Nat) (bs : List Nat) (scrub : Bool) : State :=
  let d := (List.range 8).map (fun i =>
    (s.memByte (a + i)) ^^^ BitVec.ofNat 8 (((bs.filter (fun b => b / 8 == i)).map (fun b => 2 ^ (b % 8))).sum))
  let s : State := { s with mem := s.mem.write a d true }
  let s := s.count (if a < mezzBase then Od.ueBonded else Od.ueMezz) 1
  let (x, m) := s.memSubject a
  let ev : LogEv := { code := 0x2010, hall := memHall a, unit := if a < mezzBase then stackOf a else 0xFF, address := a, model := m,
                      detail := leBytes 1 (tierOf a) ++ leBytes 2 (syndromeOf bs), scrub := scrub }
  let s := s.fault ev x m
  let s := s.mediaEvent a
  if a < mezzBase then s
  else
    let h := mezzHallOf a
    let ts := (kget [] h s.mem.mezzUe).filter (fun t => decide (s.epoch < t + oneSec)) ++ [s.epoch]
    let s : State := { s with mem := { s.mem with mezzUe := kset [] h ts s.mem.mezzUe } }
    if 16 ≤ ts.length ∧ bit (s.odGet Od.mezzPresent) h then (s.withdrawMezz h).losePacked h else s

/-- R268: switch a lane, or a spare that carries one, to a free spare of its group, or report that the group has none. -/
def State.spareLane (s : State) (l : Nat) : State :=
  let g := laneGroup l
  match s.mem.freeSpare g with
  | some k =>
    (({ s with mem := { s.mem with laneSpare := kput l k s.mem.laneSpare } } : State).count Od.lanesSpared 1).logEv
      { code := 0x2013, hall := l / 5200 / 6, unit := l / 5200, detail := leBytes 2 (l % 5200) }
  | none =>
    if s.mem.groupsOut.contains g then s
    else
      ({ s with mem := { s.mem with groupsOut := s.mem.groupsOut ++ [g] } } : State).logEv
        { code := 0x2014, hall := l / 5200 / 6, unit := l / 5200, detail := leBytes 1 (g % 16) }

/-- R268: during Run, corrected bits are counted against the lanes that carried them. -/
def State.countLanes (s : State) (a : Nat) (bs : List Nat) : State :=
  if mezzBase ≤ a ∨ s.mode ≠ .run then s
  else bs.foldl (fun s b =>
    let l := s.mem.carrier 5 (laneOf a b)
    let n := kget 0 l s.mem.laneCe + 1
    let s : State := { s with mem := { s.mem with laneCe := kset 0 l n s.mem.laneCe,
                                                  laneTotal := kset 0 l (kget 0 l s.mem.laneTotal + 1) s.mem.laneTotal } }
    if n = s.odGet Od.laneCeLimit then s.spareLane l else s) s

/-- R260, R264: a corrected word: delivered and written back, counted against its tier, its row and its lanes; and whether its row has met R264. -/
def State.corrected (s : State) (a : Nat) (bs : List Nat) : Bool × State :=
  let s := (s.count (if a < mezzBase then Od.ceBonded else Od.ceMezz) 1).countLanes a bs
  let r := rowOf a
  let n := kget 0 r s.mem.rowCe + 1
  (decide (s.odGet Od.rowCeLimit ≤ n) || bs.length == 2, { s with mem := { s.mem with rowCe := kset 0 r n s.mem.rowCe } })

/-- The bits of a word's codeword that arrive wrong. -/
def wrongBits (e : BitErr) : List Nat := e.bits.dedup.filter (· < 80)

/-- R260: what the decoder finds in one word, and whether its row has met R264. Four or more errors lie beyond the code: they are detected, corrected wrongly
or missed (free). -/
def State.decodeWord (s : State) (e : BitErr) (scrub : Bool) : Bool × State :=
  let a := e.word / 8 * 8
  let bs := wrongBits e
  if bs = [] ∨ memTop ≤ a ∨ s.withdrawn a then (false, s)
  else if bs.length ≤ 2 then s.corrected a bs
  else if bs.length = 3 then (true, s.uncorrectable a bs scrub)
  else
    let c := Config.freeNat s.free a % 3
    let flip := fun (k : Nat) (s : State) =>
      { s with mem := { s.mem with cells := putCells s.mem.cells a ((List.range 8).map (fun i =>
        (s.memByte (a + i)) ^^^ Config.freeByte s.free (a + i) k)) } }
    if c = 0 then (true, s.tick.uncorrectable a bs scrub)
    else if c = 1 then ((flip 1 s).tick).corrected a [bs.getD 0 0]
    else (false, (flip 2 s).tick)

/-- R260, R265: one word is decoded; a row that meets R264 is retired: where a spare takes it, its other words are decoded as they are copied (`errs` has the
errors of those that hold some). -/
def State.wordErrors (s : State) (errs : List BitErr) (e : BitErr) (scrub : Bool) : State :=
  let a := e.word / 8 * 8
  let copy := fun (s : State) =>
    if (s.nextSpare a).isNone then s
    else (errs.filter (fun x => x.word / 8 != e.word / 8 && rowOf x.word == rowOf a)).foldl (fun s x => (s.decodeWord x false).2) s
  match s.decodeWord e scrub with
  | (true, s) => (copy s).retireRow a
  | (false, s) => s

/-- R260: what a read of the words that a test accepts finds in them; errors of other words come in where their row is copied (R265). -/
def State.bitErrors (s : State) (errs : List BitErr) (reads : Nat → Bool := fun _ => true) (scrub : Bool := false) : State :=
  (errs.filter (fun e => reads (e.word / 8))).foldl (fun s e => s.wordErrors (errs.filter (fun x => !reads (x.word / 8))) e scrub) s

/-- R260: the words in which a read's errors show. -/
def hitWords (errs : List BitErr) : List Nat := (errs.filter (fun e => wrongBits e != [])).map (fun e => e.word / 8)

/-- R260: a read: its bytes, whether a word arrives poisoned, and the state. OD 0x2200.14 counts the words with POISON set in which the decoder finds no error. -/
def State.memRead (s : State) (a n : Nat) (errs : List BitErr := []) (scrub : Bool := false) : Bytes × Bool × State :=
  let ws := wordsOf a n
  let p := (ws.filter (fun w => kget false w s.mem.poison && !s.withdrawn (8 * w) && !(hitWords errs).contains w)).length
  let s := (s.count Od.poisonReads p).bitErrors errs ws.contains scrub
  (s.memBytes a n, s.memPoisoned a n, s)

/-- R261: a write of part of a word reads it first: an uncorrectable word becomes the merged word, poisoned. -/
def State.partErrors (s : State) (errs : List BitErr) (part : Nat → Bool) : State :=
  (errs.filter (fun e => part (e.word / 8))).foldl (fun s e =>
    let n := s.odGet Od.ueBonded + s.odGet Od.ueMezz
    let s := s.wordErrors (errs.filter (fun x => !part (x.word / 8))) e false
    if s.odGet Od.ueBonded + s.odGet Od.ueMezz = n then s else s.count Od.partialWritePoison 1) s

/-- R261: the words of which a write of bytes [a, a + n) leaves a part. -/
def partWords (a n : Nat) (w : Nat) : Bool :=
  (wordsOf a n).contains w && !(decide (a ≤ 8 * w) && decide (8 * w + 8 ≤ a + n))

/-! ### Fences and reissue (R122, R248) -/

/-- R248, R290: copy the regions of a program's flight landing handles into another flight's landing, at the same BASE (DESIGN CHOICE, log entry 21), poisoned words as
poisoned. -/
def State.copyRegions (s : State) (k k' : Nat) (hs : List HandleE) : State :=
  hs.foldl (fun s h =>
    if h.table ≠ 0 then s
    else
      let e := s.handleEntry k h.handle
      let b := bufOf 0 k h.handle e
      let s := s.setHandle k' h.handle e
      if bit e 126 then s
      else
        let x := s.landing k
        let y := s.landing k'
        let lo := b.base
        let hi := b.base + b.rows * b.pitch
        let pick := fun {α : Type} (d : Nat) (m : KMap α) (n : KMap α) =>
          (m.filter (fun e => decide (lo ≤ e.1 / d) && decide (e.1 / d < hi))).foldl (fun n e => kput e.1 e.2 n) n
        let bad := (x.poison.filter (fun e => decide (lo ≤ e.1 / 8) && decide (e.1 / 8 < hi))).length
        (s.setLanding k' { y with bytes := pick 64 x.bytes y.bytes, poison := pick 8 x.poison y.poison,
                                  owner := pick 1 x.owner y.owner, stamp := pick 1 x.stamp y.stamp }).counts
          [(Od.moverBytes, 64 * (hi - lo)), (Od.moverDescriptors, 1), (Od.moverPoisonBytes, 8 * bad)]) s

/-- R248, R241, R252: a program as it stands at its last resume record; a fixed-latency program, or one without a record, at its
first word. -/
def Prog.atResume (p : Prog) : Prog :=
  let r : Resume := if p.img.fixedLat then ⟨0, none, []⟩ else p.resume.getD ⟨0, none, []⟩
  { p with pc := r.pc, rep := r.rep, bars := r.bars, counters := List.replicate 8 0, issued := [], ppDone := false, lastPass := [],
           mode := match p.mode with | .idle => .idle | .suspended => .suspended | _ => .running }

/-- R248: the flight to which the programs of a fenced flight go: the lowest of its kind in the hall that is not fenced and holds
no program (DESIGN CHOICE, log entry 21). -/
def State.spareFlight (s : State) (k : Nat) : Option Nat :=
  ((List.range 20).map (fun i => k / 20 * 20 + i)).find? (fun j =>
    (decide (j % 20 < 12) == decide (k % 20 < 12)) && !s.fenced j && decide (j ≠ k) && (s.flight j).progs.isEmpty)

/-- R248: the number of an instance that a program repeats: a collective that it joined after its record has not ended (R421). -/
def State.repeatColls (s : State) (k j : Nat) (m : KMap Nat) : KMap Nat :=
  s.serve.colls.foldl (fun m x => (x.parts.filter (fun q => q.flight == k)).foldl (fun m q =>
    match (s.progAt j q.slot).bind (fun p => p.img.groups.findIdx? (fun g => g.gallery == x.gallery)) with
    | some g => kset 0 ((j * 4 + q.slot) * 16 + g) x.count m
    | none => m) m) m

/-- R248: what is kept by flight and slot follows the programs of flight k to flight j (DESIGN CHOICE, log entry 21): transfers that they issued after
their record are issued again, and partners in the module name the new flight. `old` are the programs as the fence found them. -/
def State.moveKeys (s : State) (k j : Nat) (old : List Prog) : State :=
  let key := fun (x : Nat) => if x / 4 = k then j * 4 + x % 4 else x
  let fl := fun (x : Nat) => if x = k then j else x
  let sub := fun (m : KMap Nat) (f : Nat → Nat) => m.foldl (fun n e => kput (f e.1) e.2 n) ([] : KMap Nat)
  let again := fun (e : ExchSt) => e.fk == k && old.any (fun p => p.slot == e.slot && p.issued.any (fun o => o.op == 0x44))
  let own := fun (p : PeerE) => (p.path == noPath || s.mine p.path) && p.hall * 20 + p.flight == k
  let jobs := ((s.flight j).progs.map (·.img.job)).dedup
  let v := { s.serve with
    moves := (s.serve.moves.filter (fun m => m.flight != k)).map (fun m => if s.mine m.peer then { m with unit_ := fl m.unit_ } else m),
    colls := s.serve.colls.map (fun x => { x with parts := x.parts.map (fun q => { q with flight := fl q.flight }) }),
    collCount := s.repeatColls k j (sub s.serve.collCount (fun x => key (x / 16) * 16 + x % 16)),
    exchanges := s.serve.exchanges.map (fun e => if again e then { e with fk := j, record := none, sent := [] } else { e with fk := fl e.fk }),
    expertProgs := sub s.serve.expertProgs key, skipped := s.serve.skipped.map key }
  let s : State := { s with serve := v }
  (s.progs.filter (fun e => jobs.contains e.2.img.job)).foldl (fun s e => s.modProg e.1 e.2.slot (fun p =>
    { p with img := { p.img with peers := p.img.peers.map (fun q => if own q then { q with flight := j % 20 } else q) } })) s

/-- R248: move the programs of a fenced flight; a program that no flight can take stops with its job, which the Planner then places again (R397). -/
def State.reissue (s : State) (k : Nat) : State :=
  let x := s.flight k
  if x.progs = [] then s
  else
    match s.spareFlight k with
    | some j =>
      let s := x.progs.foldl (fun s p => s.copyRegions k j p.img.handles) s
      let y := s.flight j
      let s := s.setFlight j { y with progs := x.progs.map Prog.atResume, current := x.current }
      let s := s.setFlight k { (s.flight k) with progs := [], current := none }
      let b := s.halls.barriers.map (fun b => { b with arrived := b.arrived.filter (fun a => a / 4 != k) })
      let s : State := { s with halls := { s.halls with barriers := b } }
      let s := s.abandonDescs (fun d => d.use == .prog && d.prog / 4 == k)
      let s := ((x.progs.map (·.img.model)).dedup).foldl (fun s m => s.moveCopies m k j false) s
      (s.moveKeys k j x.progs).count Od.reissues x.progs.length
    | none => x.progs.foldl (fun s p => s.programStop k p.slot 0x3011 p.pc) s

/-- R122, R248, R521: fence a flight: its tiles are lost, 0x3011 joins or opens its episode, its programs go to other flights; the
episode closes when they have, or at once when there were none. -/
def State.fence (s : State) (k : Nat) : State :=
  let (e, b) := fenceBit k
  let s := s.odPut e (setBit (s.odGet e) b true)
  let s := s.setFlight k { (s.flight k) with
    tiles := [], tokens := [], tokHeads := [], outliers := [], active := [], staged := [], buffers := [], refetch := [], resolved := [] }
  let x := unitSubject 3 (k / 20) (k % 20)
  let s := s.fault { code := 0x3011, hall := k / 20, unit := k % 20 } x
  if s.mode = .safeStop then s
  else
  let s := s.reissue k
  if (s.flight k).progs = [] then
    match s.episodeOf x with | some e => s.closeEpisode e.num | none => s
  else s

/-! ### Models lost (R529) -/

/-- The jobs whose programs serve a model here. -/
def State.modelJobs (s : State) (m : Nat) : List Nat := ((s.progs.filter (fun e => e.2.img.model == m)).map (·.2.img.job)).dedup

/-- R390, R391, R529: a member is told to release what it holds of a model: a write of UNLOAD (DESIGN CHOICE, log entry 87). -/
def State.releaseShares (s : State) (m : Nat) (x : ModelSt) : State :=
  x.shares.foldl (fun s e =>
    let b := leBytes 8 noPath.toNat ++ leBytes 2 (Od.unload / 256) ++ leBytes 1 (Od.unload % 256) ++ zeros 1 ++ leBytes 4 2 ++ leBytes 2 m
    s.sendFrame (s.mkFrame (s.memberPath e.1) 0x02 0 0 0 0 0xC001 b)) s

/-- R386, R529: the Planner releases every item of a model, in every member, and frees its handle. -/
def State.releaseModel (s : State) (m : Nat) : State :=
  let hs := ((kfind m s.serve.models).bind (·.pkg)).map (·.pool) |>.getD []
  let hs := if ((kfind m s.serve.models).map (·.state)) = some 3 then hs else []
  let pools := hs.foldl (fun p e => kset (0, 0) e.1 ((kget (0, 0) e.1 p).1 - e.2, (kget (0, 0) e.1 p).2 - e.2) p) s.serve.pools
  let s := ((kfind m s.serve.models).map (s.releaseShares m)).getD s
  let s := ((((kfind m s.serve.models).bind (·.pkg)).map s.ownCopies).getD []).foldl (fun s e => s.dropCopy e.1 e.2) s
  { s with
    serve := { s.serve with models := kdel m s.serve.models, pools := pools },
    halls := { s.halls with layers := s.halls.layers.filter (fun e => e.1 / 65536 != m) },
    xlate := { s.xlate with maps := s.xlate.maps.filter (fun x => x.model != m) } }

/-- R462, R529: withdraw a model with 0x4040 MODEL_LOST; its cells wait for it. -/
def State.withdrawModel (s : State) (m : Nat) (x : Subject) : State :=
  let s := s.fault { code := 0x4040, model := m, address := x.at_ } x m
  if s.mode = .safeStop then s
  else
  let s := (s.modelJobs m).foldl (fun s j => s.jobStopAll j 0x4040) s
  let s := s.streamList.foldl (fun s i =>
    if endedState (s.sState i) then s
    else if s.sModel i = m then s.faultStream i 0x4040 5 0 0 (s.logSeqOf 0x4040)
    else if bits (s.sw i 0) 21 20 = 2 ∧ bits (s.sw i 11) 47 32 = m ∧ !(s.stream i).draftLost then
      (((s.releaseDraft i).modStream i (fun r => { r with draftLost := true })).faultRec i 0x4101 false 5 0 0 0).count Od.draftLosses 1
    else s) s
  let lost := s.foyer.cells.filter (fun c => c.state == 1 && c.rec_.model == m)
  let s := lost.foldl (fun s c => if c.leaving then s.cellLeaves c else
    s.aggRefill.modCell c.rec_.entry (fun c => { c with state := 3, held := none })) s
  let s := (s.releaseModel m).count Od.modelsLost 1
  if lost.isEmpty then s else retryRefused s.refusedCells s

end Sys2Proof.Machine
end

