-- ==== Sys2Proof/Machine/Watch.lean ====
section
/-!
DEFINITION. Watch.lean: the watch filter of the stream table (R301, R313 to R317, R320 to R322): submissions, control writes, cancels; admission of
a submission (R337, R338, R342, R384).
-/

namespace Sys2Proof.Machine

/-! ### Checks of a submission attempt (R315, R349) -/

/-- R283: a tenant may use a loaded model: it owns it or it is shared with it. -/
def State.modelFor (s : State) (m t : Nat) : Bool :=
  match kfind m s.serve.models with
  | some x => x.state == 3 && (x.tenant == t || bit x.share t)
  | none => false

/-- R304, R306, R307, R309, R310: reserved bits and codes of an attempt's words; `w k` is word k as the host wrote it. -/
def submitForm (w : Nat → Nat) : Bool :=
  let w0 := w 0
  bits w0 31 30 == 0 && bits w0 23 22 == 0 && bits w0 15 13 == 0 && bits (w 7) 58 48 == 0 && bits (w 10) 61 58 == 0 &&
  bits (w 10) 55 32 == 0 && bits (w 11) 31 0 == 0 && bits w0 21 20 != 3 && bits w0 12 11 != 3 && decide (bits w0 10 8 ≤ 2) &&
  bits (w 10) 57 56 != 3 && (bits w0 21 20 != 0 || w 11 == 0)

/-- R349: the ranges of W11. -/
def State.specForm (s : State) (w : Nat → Nat) (p : Package) : Bool :=
  let d := bits (w 11) 63 56
  let x := bits (w 11) 55 48
  let dm := bits (w 11) 47 32
  let shape := decide (1 ≤ d) && decide (d ≤ 8) && decide (1 ≤ x) && decide (x ≤ 4) && decide (x * d ≤ 31)
  match bits (w 0) 21 20 with
  | 0 => w 11 == 0
  | 1 => shape && decide (d ≤ p.heads) && dm == 0
  | 2 => shape && dm != bits (w 0) 47 32 && s.modelFor dm (bits (w 0) 29 24) &&
      (match s.pkgOf dm with | some q => q.vocabId == p.vocabId && decide ((q.slices.map (·.member)).dedup.length ≤ 1) | none => false)
  | _ => false

/-- R315: the code of the first check that an attempt on entry i fails, or 0. -/
def State.submitCheck (s : State) (i : Nat) (w : Nat → Nat) : Nat :=
  let w0 := w 0
  let t := bits w0 29 24
  let m := bits w0 47 32
  let limit := bits (w 6) 23 0
  let inv := bits (w 6) 63 48
  if !submitForm w then 0x4001
  else if !s.tenantEnabled t then 0x4001
  else match s.pkgOf m with
    | none => 0x4002
    | some p =>
      if !s.modelFor m t then 0x4002
      else if limit ≠ 0 ∧ (p.vocab = 0 ∨ !(sasValid inv) ∨ inv = 0 ∨ (sasValue inv).m ≤ 0) then 0x4001
      else if w 3 = 0 ∨ p.inputLimit < w 3 ∨ w 5 < (if limit = 0 then p.resultSize else 4 * limit) then 0x4001
      else if bit (w 10) 63 ∧ bits (w 10) 31 0 = 0 then 0x4001
      else if bit (w 10) 62 ∧ !((s.sState i = stPaused ∨ s.sState i = stParked) ∧
          ((s.stream i).cache.any (fun c => c.tenant == t && c.model == m))) then 0x4003
      else if !s.specForm w p then 0x4001 else 0

/-! ### Admission (R337, R338, R342, R384) -/

/-- R384: the hall of a stream: of those that hold the model's sampling program, or, for a model that samples nothing, a slice of it, the one with
the most free cache blocks, the lower index among equals. -/
def State.serveHall (s : State) (m : Nat) : Nat :=
  match s.pkgOf m with
  | none => 0
  | some p =>
    let hs := if p.samplers = [] then ((p.slices.filter s.holds).map (·.hall)).dedup else p.samplers
    let hs := (List.range 4).filter (fun h => hs.contains h)
    (hs.foldl (fun b h => match b with
      | none => some h
      | some k => some (if (s.pool k).2 < (s.pool h).2 then h else k)) (none : Option Nat)).getD 0

/-- R342: the blocks of a submission exceed every pool that could hold them. -/
def State.tooLarge (s : State) (i : Nat) : Bool :=
  match s.pkgOf (s.sModel i) with
  | none => false
  | some p =>
    let hs := if p.samplers = [] then ((p.slices.filter s.holds).map (·.hall)).dedup else p.samplers
    hs.all (fun h => decide ((s.pool h).1 < s.blocksNeeded i))

/-- R342, R337, R338: what the step scheduler decides of a submission within 50 µs of its acceptance. -/
def State.admitStream (s : State) (i : Nat) : State :=
  if s.tooLarge i then (s.count Od.cacheTooLargeEnds 1).faultStream i 0x4032 1 0 0 0
  else if s.sClass i ≠ 0 then s
  else
    let D := s.sw i 1 - s.sw i 17
    if s.admits (s.sModel i) 0 D true then
      s.modStream i (fun r => { r with admitted := some (0, D) })
    else
      let s := (s.modStream i (fun r => { r with demoted := true })).logEv
        { code := 0x4021, hall := s.sHall i, stream := i, model := s.sModel i }
      (s.faultRec i 0x4021 false 1 0 0 (s.logSeqOf 0x4021)).count Od.class0Demotions 1

/-! ### Submissions (R314, R317) -/

/-- R313: W0 as it reaches memory: the host's fields, and the module's STATE, CANCEL_SEEN, LATE and reserved bits. -/
def State.ownW0 (s : State) (i v : Nat) : Nat :=
  let m := s.sw i 0
  let v := setBits v 7 0 (bits m 7 0)
  let v := setBits v 15 13 (bits m 15 13)
  let v := setBits v 23 22 (bits m 23 22)
  let v := setBits v 31 30 (bits m 31 30)
  setBit (setBit v 17 (bit m 17)) 19 (bit m 19)

/-- R317: an attempt that passed moves the entry to SUBMITTED; `w` gives the accepted words. -/
def State.accept (s : State) (i : Nat) (w : Nat → Nat) : State :=
  let cont := bit (w 10) 62
  let s := if cont then s else s.releaseCache i
  let w0 := setBit (setBit (setBits (w 0) 7 0 stSubmitted) 17 false) 19 false
  let w8 := if cont then s.sw i 8 / 2 ^ 32 * 2 ^ 32 else 0
  let hall := if cont then s.sHall i else s.serveHall (bits w0 47 32)
  let w16 := bits w0 63 48 * 2 ^ 48 + hall * 2 ^ 40
  let words := (List.range 12).foldl (fun m k => if k = 8 ∨ k = 9 then m else kset 0 k (w k) m) (s.stream i).words
  let words := [12, 13, 14, 15].foldl (fun m k => kset 0 k 0 m) words
  let words := kset 0 17 s.epoch (kset 0 16 w16 (kset 0 8 w8 (kset 0 0 w0 words)))
  let words := if cont then words else kset 0 9 0 words
  let f := fun (r : StreamRec) =>
    { r with
      words := words, was := 0, fed := 0, ready := s.epoch, admitted := none, demoted := false, draftLost := false, aborts := 0,
      input := none, sampled := [], tree := [],
      cache := r.cache.map (fun c =>
        if c.parked.isSome then { c with moving := some 1 } else { c with moving := none }) }
  let dropped := cont && ((s.stream i).cache.any (fun c => c.moving.isSome && c.parked.isNone))
  let s := if dropped then s.count Od.moverAbandoned 1 else s
  let s := (s.modStream i f).count Od.submissions 1
  (s.setState i stSubmitted).admitStream i

/-- R314, R315: a submission attempt on entry i with the words that the host wrote. -/
def State.attempt (s : State) (i : Nat) (w : Nat → Nat) : State :=
  let code := s.submitCheck i w
  let gen := fun (s : State) => s.putSw i 16 (setBits (s.sw i 16) 63 48 (bits (w 0) 63 48))
  let take := fun (s : State) => s.putSw i 0 (setBit (setBit (s.ownW0 i (w 0)) 17 false) 19 false)
  if code ≠ 0 then
    let s := (take (gen s)).count Od.submitRefusals 1
    (s.putSw i 12 0).faultStream i code 1 0 0 0
  else if bit (w 0) 16 then ((take (gen s)).counts [(Od.submissions, 1), (Od.cancels, 1)]).endStream i stCancelled
  else s.accept i w

/-! ### Cancels (R317, R320 to R322) -/

/-- R320, R321: a cancel has been taken: it waits for the release of an open step that serves the stream, or of its job where the stream waits on a
page; otherwise the stream ends. -/
def State.takeCancel (s : State) (i : Nat) : State :=
  let s := (s.putSw i 0 (setBit (s.sw i 0) 16 true)).count Od.cancels 1
  let st := s.sState i
  let busy := s.serve.steps.any (fun x => (x.slots.contains i && !x.removed.contains i) ||
    (x.model == s.sModel i && x.hall == s.sHall i && st == stWaitingPage))
  if st = stSubmitted ∨ st = stPaused ∨ st = stParked then s.endStream i stCancelled
  else if runningState st && !busy then s.endStream i stCancelled
  else s

/-! ### Writes to the table (R301, R313, R316) -/

/-- Bytes of a line as a write leaves them: the writer's bytes where the mask has them, else what memory holds. -/
def State.merged (s : State) (a : Nat) (mask : Nat → Bool) (d : Bytes) (off n : Nat) : Nat :=
  leNat ((List.range n).map (fun k => if mask (off + k) then d.getD (off + k) 0#8 else s.memByte (a + off + k)))

/-- R438, R261, R270: write the masked bytes of a line: a word written whole in one write, a part of a word byte by byte. In a withdrawn range the write is
discarded and counted once. -/
def State.maskedWrite (s : State) (a : Nat) (mask : Nat → Bool) (d : Bytes) (poison : Bool) : State :=
  if !(List.range 64).any mask then s
  else if s.withdrawn a then s.count Od.withdrawnWrites 1
  else (List.range 8).foldl (fun s w =>
    let ks := (List.range 8).map (· + 8 * w)
    if ks.all mask then s.memWrite (a + 8 * w) ((d.drop (8 * w)).take 8) poison
    else (ks.filter mask).foldl (fun s k => s.memWrite (a + k) [d.getD k 0#8] poison) s) s

/-- R316: a control write to W0 of a running entry. -/
def State.controlWrite (s : State) (i v : Nat) : State :=
  if bits v 63 48 ≠ s.sGen i then s.count Od.staleWrites 1
  else if s.sState i = stField then
    let s := s.putSw i 0 (setBit (s.sw i 0) 18 (bit v 18))
    if bit v 16 then s.count Od.fieldCancelsIgnored 1 else s
  else if bit v 16 ∧ !bit (s.sw i 0) 16 then s.takeCancel i
  else s

/-- R306 to R310, R3: the reserved bits of a host-owned word but W0. -/
def reservedBits (k : Nat) : Nat :=
  if k = 7 then 0x07FF000000000000 else if k = 10 then 0x3CFFFFFF00000000 else if k = 11 then 0xFFFFFFFF else 0

/-- R303: the host-owned words but W0. -/
def hostWords : List Nat := [1, 2, 3, 4, 5, 6, 7, 10, 11]

/-- R313, R3: the host's word k as a write leaves it: the bytes that the write has, else what the host wrote before, its reserved bits among them. -/
def State.hostWord (s : State) (i k : Nat) (mask : Nat → Bool) (d : Bytes) : Nat :=
  let off := 8 * k % 64
  let old := leBytes 8 (s.memWord (s.entryAddr i + 8 * k) + kget 0 k (s.stream i).raw)
  leNat ((List.range 8).map (fun j => if mask (off + j) then d.getD (off + j) 0#8 else old.getD j 0#8))

/-- R313, R303, R3: a write reaches host-owned words of a line: memory takes it without the reserved bits, which the module keeps; of an idle entry the current
words follow. -/
def State.hostWrite (s : State) (i line : Nat) (mask : Nat → Bool) (d : Bytes) (poison : Bool) : State :=
  let ks := hostWords.filter (fun k => k / 8 == line && (List.range 8).any (fun j => mask (8 * k % 64 + j)))
  let vs := ks.map (fun k => (k, s.hostWord i k mask d))
  let shown := fun (v k : Nat) => v - (v &&& reservedBits k)
  let b := vs.foldl (fun b e => putBytes b (8 * e.1 % 64) (leBytes 8 (shown e.2 e.1))) (padTo 64 d)
  let s := s.maskedWrite (s.entryAddr i + 64 * line) (fun j => mask j && ks.contains (8 * line + j / 8)) b poison
  let idle := idleState (s.sState i)
  s.modStream i (fun r =>
    { r with raw := vs.foldl (fun m e => kset 0 e.1 (e.2 &&& reservedBits e.1) m) r.raw,
             words := if idle then vs.foldl (fun m e => kset 0 e.1 (shown e.2 e.1) m) r.words else r.words })

/-- R313 to R316, R322: a write to a line of the table, as the filter lets it reach memory, and what it starts. `free` says that the writer may submit
(R18: on a worker only the manager may). -/
def State.tableWrite (s : State) (a : Nat) (mask : Nat → Bool) (d : Bytes) (poison free : Bool) : State :=
  let o := a - s.odGet Od.tableBase
  let i := o / 256
  let e := s.entryAddr i
  match o % 256 / 64 with
  | 0 =>
    let st := s.sState i
    if !((List.range 8).any mask) then s.hostWrite i 0 mask d poison
    else
      let v := s.merged a mask d 0 8
      if idleState st then
        let s := s.hostWrite i 0 mask d poison
        let s := (s.memWrite e (leBytes 8 (s.ownW0 i v)) poison).putSw i 0 (s.ownW0 i v)
        if bits v 63 48 = s.sGen i then
          if (st = stPaused ∨ st = stParked) ∧ bit v 16 then s.takeCancel i else s
        else if s.odGet Od.fieldBase ≤ i then s.count Od.fieldSubmitsIgnored 1
        else if !free then s.count Od.workerSubmitIgnored 1
        else s.attempt i (fun k => if k = 0 then v else s.memWord (e + 8 * k) + kget 0 k (s.stream i).raw)
      else
        let s := s.controlWrite i v
        s.maskedWrite a mask (s.wordBytes i 0 8) false
  | 1 =>
    let owned := (List.range 64).any (fun k => mask k && !(decide (16 ≤ k) && decide (k < 32)))
    let s := if owned then s.count Od.ownedFieldWrites 1 else s
    s.hostWrite i 1 mask d poison
  | _ => if (List.range 64).any mask then s.count Od.ownedFieldWrites 1 else s

/-- R300: the address lies in the stream table. -/
def State.inTable (s : State) (a : Nat) : Bool :=
  decide (s.odGet Od.tableBase ≤ a) && decide (a < s.odGet Od.tableBase + 16777216)

/-- A write of bytes that arrives at a controller from outside the module (R301, R412): by lines, through the filter where they lie in the table. -/
def State.outsideWrite (s : State) (a : Nat) (d : Bytes) (poison free : Bool) : State :=
  (splitLines (d.length / 64 + 2) a d).foldl (fun s p =>
    let (x, b) := p
    if s.inTable x then
      let base := x / 64 * 64
      let off := x % 64
      s.tableWrite base (fun k => decide (off ≤ k) && decide (k < off + b.length)) (zeros off ++ b ++ zeros (64 - off - b.length)) poison free
    else s.memWrite x b poison) s

end Sys2Proof.Machine
end

