-- ==== Sys2Proof/Machine/Loader.lean ====
section
/-!
DEFINITION. Loader.lean: loading and checking programs (R137, R142, R162, R208, R213, R220, R232, R244, R245, R249, R252), and the start of a task
(R217, R218).
-/

namespace Sys2Proof.Machine

/-! ### Regions (R245) -/

/-- A region of a landing: landing, first unit, units. -/
def entryRegion (fk : Nat) (h : HandleE) : Nat × Nat × Nat :=
  let b := bufOf 0 (tableLanding fk h.table) h.handle h.entry
  (b.landing, b.base, b.rows * b.pitch)

/-- The regions that an image's handle list places. -/
def imageRegions (fk : Nat) (i : Image) : List (Nat × Nat × Nat) :=
  (i.handles.filter (fun h => bit h.entry 127)).map (entryRegion fk)

/-- Two regions share a unit. -/
def regionsMeet (a b : Nat × Nat × Nat) : Bool :=
  a.1 == b.1 && decide (a.2.1 < b.2.1 + b.2.2) && decide (b.2.1 < a.2.1 + a.2.2)

/-- R245, R249 check 10: a region of the image overlaps one that it may not. -/
def State.regionOverlap (s : State) (fk : Nat) (i : Image) : Bool :=
  let mine := imageRegions fk i
  s.progs.any (fun e =>
    (imageRegions e.1 e.2.img).any (fun r => mine.any (fun m =>
      regionsMeet m r && (if m.1 < 80 then e.1 == fk else e.2.img.job != i.job))))

/-! ### Checks (R249) -/

/-- R249 check 9: handle list entries, and the handles of tensor entries. -/
def State.handleListBad (s : State) (fk : Nat) (i : Image) : Bool :=
  let ol := fun (h : HandleE) (o : Nat) =>
    i.handles.any (fun e => e.table == h.table && e.handle == o && bit e.entry 127 && bits e.entry 123 120 == 13) ||
    (let e := s.handleEntry (tableLanding fk h.table) o
     bit e 127 && bits e 123 120 == 13)
  i.handles.any (fun h => !entryOk (tableLanding fk h.table) h.entry (ol h)) ||
  i.tensors.any (fun t => bit t.flags 0 &&
    !([(t.data, 0xA), (t.index, 0xB), (t.check, 0xC)].all (fun p =>
      i.handles.any (fun e => e.table == 0 && e.handle == p.1 && bits e.entry 123 120 == p.2))))

/-- R249 check 7: areas and tensor arrays: each array begins in its area, and its index and check entries for the blocks that the words take planes from lie in
it. How long a data area is, no table says. -/
def areasBad (i : Image) (ws : List (Nat × Nat)) : Bool :=
  i.areas.any (fun a => decide (2 ^ 48 < a.base + a.length)) ||
  (i.tensors.zip (List.range i.tensors.length)).any (fun p =>
    let t := p.1
    !bit t.flags 0 &&
    match i.areas[t.area]? with
    | none => true
    | some a =>
      let last := (ws.filterMap (fun e => if [0x10, 0x11, 0x13].contains (opOf e.2) && bits e.2 111 107 == p.2 then
          some (if opOf e.2 = 0x11 then 16 * ((2 ^ bits e.2 82 81 - 1) + bits e.2 80 78 * bits e.2 77 66) + bits e.2 106 83 else bits e.2 106 83)
        else none)).max?
      let need := match last with | some g => 4 * ((g + t.wOffset / 4096 + 15) / 5 + 1) | none => 0
      decide (a.length < t.dataOff) || decide (a.length < t.idxOff + need) || decide (a.length < t.chkOff + need))

/-- R232, R422: the handle list entry that fixes a handle at load: no HANDLE_SET writes it later. -/
def fixedEntry (i : Image) (table h : Nat) : Option Nat :=
  if i.ops.any (fun w => opOf w == 0x36 && bits w 111 104 == h && (bit w 103 == decide (table = 1))) then none
  else (i.handles.find? (fun e => e.table == table && e.handle == h && e.atLoad == 1)).map (·.entry)

/-- R232: the units that a handle fixed at load spans. -/
def fixedRows (i : Image) (table h : Nat) : Option Nat :=
  (fixedEntry i table h).map (fun e => bits e 63 48 * bits e 47 32)

/-- R422: rows that the DST of a collective must hold. -/
def collDstRows (kind rows m : Nat) : Nat :=
  match kind with
  | 1 => m * rows
  | 2 => rows / m
  | _ => rows

/-- R422: the shape of a collective is refused. -/
def collShapeBad (kind rows m : Nat) (src dst : Buf) : Bool :=
  ((kind == 2 || kind == 4) && decide (rows % m ≠ 0)) || decide (dst.viewRows < collDstRows kind rows m) || src.fmt != dst.fmt ||
  ((kind == 2 || kind == 3) && !(src.fmt == 3 || src.fmt == 5))

/-- R422: the shape of a collective whose handles are fixed at load. -/
def collBad (fk : Nat) (i : Image) (w : Nat) : Bool :=
  opOf w == 0x42 &&
  (match fixedEntry i 1 (bits w 103 96), fixedEntry i 1 (bits w 95 88), i.groups[bits w 107 104]? with
   | some a, some b, some g =>
     let l := tableLanding fk 1
     collShapeBad (bits w 111 108) (bits w 71 56 + 1) (max 1 g.members) (bufOf 0 l 0 a) (bufOf 0 l 0 b)
   | _, _, _ => false)

/-- The buffer that a handle of the hall landing's table names once the image is loaded. -/
def State.loadBuf (s : State) (fk : Nat) (i : Image) (h : Nat) : Option Buf :=
  let l := tableLanding fk 1
  match i.handles.find? (fun e => e.table == 1 && e.handle == h && e.atLoad == 1) with
  | some e => if bit e.entry 127 then some (bufOf 0 l h e.entry) else none
  | none => s.resolve 0 l h

/-- The first n units of a buffer have been written. -/
def State.unitsWritten (s : State) (b : Buf) (n : Nat) : Bool := (List.range n).all (fun k => s.landDefined 0 b.landing (b.base + k))

/-- R368: the entries of an expert map: member, hall, slot. -/
def mapEntries (m : Bytes) (n : Nat) : List (Nat × Nat × Nat) :=
  (List.range n).map (fun e => let v := leField m (2 * e) 2; (bits v 15 8, bits v 7 6, bits v 3 0))

/-- R369: the expert map that the exchange record of a DISPATCH names is refused. The experts are those that the ROUTE with the same IDX selects among; a map
or record that nothing has written yet holds nothing to check. -/
def State.mapBad (s : State) (fk : Nat) (i : Image) (w : Nat) : Bool :=
  opOf w == 0x44 &&
  (match s.loadBuf fk i (bits w 95 88) with
   | none => false
   | some r =>
     s.unitsWritten r 1 &&
     (match s.loadBuf fk i (s.landByte 0 r.landing (r.base * 64 + 33)).toNat with
      | none => false
      | some m =>
        s.unitsWritten m 8 &&
        (let b := s.landBytes 0 m.landing (m.base * 64) 512
         let n := ((i.ops.find? (fun o => opOf o == 0x43 && bits o 60 53 == bits w 103 96)).map (fun o => bits o 71 64 + 1)).getD 256
         let es := mapEntries b n
         let at_ := es.map (fun e => e.1 * 16 + e.2.2)
         (List.range n).any (fun e => decide (bits (leField b (2 * e) 2) 5 4 ≠ 0)) || es.any (fun e => decide (s.memberCount ≤ e.1)) ||
         decide (at_.dedup.length < at_.length))))

/-- R232, R113, R115, R117: the bytes of its region that a word needs of each handle: (table, handle, bytes). -/
def wordNeeds (g : Bool) (w : Nat) : List (Nat × Nat × Nat) :=
  let d := bits w 63 0
  let top := bits d 55 50 + bits d 49 44 + 1
  match opOf w with
  | 0x15 => [(1, bits w 49 42, cdiv ((bits w 57 50 + 1) * (lanesOf g / 32)) 4)]
  | 0x20 =>
    match bits d 63 60 with
    | 1 => (if bits d 37 36 = 0 ∧ bit d 35 = false then [] else [(0, bits d 10 3, 16 * top)]) ++
        (match bits d 43 42 with
         | 0 => []
         | 1 => [(0, bits d 18 11, 2 * lanesOf g)]
         | 2 => [(0, bits d 18 11, 2 * top)]
         | _ => [(0, bits d 18 11, 2 * lanesOf g), (0, bits d 18 11 + 1, 2 * top)])
    | 5 => [(0, bits d 10 3, 16 * top), (0, bits d 26 19, 2 * top)]
    | _ => []
  | 0x21 => [(0, bits w 111 104, 16 * (bits w 95 92 * bits w 85 70 + bits w 91 86 + 1)), (0, bits w 103 96, 16 * (bits w 91 86 + 1))]
  | 0x30 => [(1, bits w 43 36, 64 * (bits w 35 16 + bits w 67 44))]
  | 0x31 => [(1, bits w 43 36, 64 * (bits w 35 16 + bits w 67 44))]
  | 0x32 => [(0, bits w 111 104, 64 * (bits w 103 84 + bits w 55 36)), (0, bits w 83 76, 64 * (bits w 75 56 + bits w 55 36))]
  | 0x35 => [(0, bits w 111 104, 2056)]
  | 0x43 => [(1, bits w 60 53, 32 * (bits w 87 72 + 1)), (1, bits w 52 45, 16 * (bits w 87 72 + 1))]
  | 0x44 => if bits w 111 104 = bits w 95 88 then [] else [(1, bits w 103 96, 32 * (bits w 83 68 + 1))]
  | 0x45 => [(1, bits w 103 96, 32 * (bits w 87 72 + 1)), (1, bits w 95 88, 16 * (bits w 87 72 + 1))]
  | _ => []

/-- R232: an access of a word beyond its area or its handle's region, with every field fixed at load. -/
def rangeFixedBad (i : Image) (g : Bool) (w : Nat) : Bool :=
  (wordNeeds g w).any (fun p => match fixedRows i p.1 p.2.1 with | some u => decide (64 * u < p.2.2) | none => false) ||
  (match opOf w with
   | 0x34 => match fixedEntry i 0 (bits w 111 104) with
     | some e => decide (cdiv (bits e 79 64 * 32) 256 < bits w 77 72 + bits w 71 66 + 1)
     | none => false
   | o => if o = 0x30 ∨ o = 0x31 then
       match i.areas[bits w 111 108]? with
       | some a => decide (a.length < bits w 107 68 + 64 * bits w 67 44)
       | none => false
     else false)

/-- R162, R211: where the prediction vector of a handle lies: landing place and first unit. -/
def vectorAt (i : Image) (table h : Nat) : Option Nat :=
  (i.handles.find? (fun e => e.handle == h && e.table == table)).map (fun e =>
    (if table = 1 ∨ bit e.entry 126 then 2 ^ 20 else 0) + bits e.entry 19 0)

/-- R162: the item sets of a prediction and of a sparse pass differ: the number of items; and on a P-flight, where the pass streams from the hall landing, the
buffer and its first row. Rows that a program has copied into its flight landing are compared by number alone (DESIGN CHOICE, log entry 85). -/
def itemsDiffer (i : Image) (g : Bool) (p w : Nat) : Bool :=
  bits p 63 58 != bits w 33 28 ||
  (!g && match vectorAt i 0 (bits w 65 58) with
    | some v => decide (2 ^ 20 ≤ v) && (vectorAt i 1 (bits p 87 80) != some v || bits p 79 64 != bits w 57 42)
    | none => false)

/-- R162, R249 check 13: a sparse pass, among the words that the program runs, whose item set is not that of the prediction that last wrote its vector.
`last` holds that prediction's word for each vector. -/
def vectorBad (i : Image) (g : Bool) : KMap Nat → List (Nat × Nat) → Option Nat
  | _, [] => none
  | last, (k, w) :: t =>
    if opOf w = 0x15 then
      match vectorAt i 1 (bits w 49 42) with
      | some v => vectorBad i g (kput v w last) t
      | none => vectorBad i g last t
    else if opOf w = 0x11 ∧ bit w 11 ∧ ((vectorAt i 0 (bits w 10 3)).bind (fun v => kfind v last)).any (fun p => itemsDiffer i g p w) then some k
    else vectorBad i g last t

/-- The first word for which a check answers a code. -/
def firstWord (ops : List Nat) (f : Nat → Nat → Option Nat) : Option (Nat × Nat) :=
  (List.range ops.length).findSome? (fun k => (f k (ops.getD k 0)).map (fun c => (c, k)))

/-- R142, R249 check 6: the binding table against the programs loaded in the hall. -/
def State.bindCheck (s : State) (fk : Nat) (i : Image) : Option Nat :=
  let gens := (i.binds.map bindOf).filter Bind.used |>.map (·.gen)
  if bindMalformed i then some 0x3031
  else if bindShared i then some 0x3030
  else if s.progs.any (fun e => decide (e.1 / 20 = fk / 20) &&
      ((e.2.img.binds.map bindOf).filter Bind.used).any (fun b => gens.contains b.gen)) then some 0x3030
  else none

/-- The word index that stands for the header and the tables. -/
abbrev noWord : Nat := 0xFFFFFFFF

/-- The words that a program runs, REPEAT iterations included, in order; its words as they stand where a REPEAT has no legal form or an increment leaves its
range, which checks of their own refuse. -/
def runWords (i : Image) : List (Nat × Nat) :=
  let raw := (List.range i.ops.length).zip i.ops
  if (repeatFormBad i.ops).isSome then raw
  else match expandFrom i.ops (i.ops.length + 1) 0 [] with
    | .ok l => l
    | .error _ => raw

/-- R234: a word of an iteration whose incremented fields leave their ranges. -/
def iterBad (i : Image) (g : Bool) (e : Nat × Nat) : Option (Nat × Nat) :=
  match check12 g e.2 with
  | some c => some (c, e.1)
  | none => if rangesOk i g e.2 then none else some (0x3070, e.1)

/-- R249: the checks from 6 on, in order, for an image on a flight: each answers the code and word of its failure. -/
def State.checkList (s : State) (fk : Nat) (i : Image) : List (Option (Nat × Nat)) :=
  let g := i.gFlight
  let ws := runWords i
  let h := fun (bad : Bool) (c : Nat) => if bad then some (c, noWord) else none
  let at_ := fun (c : Nat) (k : Option Nat) => k.map (fun k => (c, k))
  let n4 := fun (h : Nat) => i.handles.any (fun e => e.handle == h && e.table == 0 && bits e.entry 123 120 == 2)
  [ (s.bindCheck fk i).map (fun c => (c, noWord)),
    h (areasBad i ws) 0x3077,
    h (i.tensors.any (fun t => decide (t.wOffset % 4096 ≠ 0))) 0x3041,
    h (s.handleListBad fk i) 0x3060,
    h (s.regionOverlap fk i) 0x3072,
    firstWord i.ops (fun _ w => check11 i g w),
    at_ 0x3070 (outlierAlone [] ws),
    firstWord i.ops (fun _ w => if rangeFixedBad i g w then some 0x3077 else none),
    firstWord i.ops (fun _ w => check12 g w),
    firstWord i.ops (fun _ w => check13 i g w),
    at_ 0x3032 (if g then tokenWidthBad n4 [] ws else none),
    at_ 0x3051 (vectorBad i g [] ws),
    at_ 0x3079 (repeatFormBad i.ops),
    (match expandFrom i.ops (i.ops.length + 1) 0 [] with | .error (k, c) => some (c, k) | .ok _ => none),
    ws.findSome? (iterBad i g),
    (match if i.fixedLat then .ok 0 else walkAll g ws Walk.start with | .error k => some (0x3071, k) | .ok _ => none),
    at_ 0x3070 (check16 i),
    firstWord i.ops (fun _ w => if collBad fk i w then some 0x5030 else none),
    firstWord i.ops (fun _ w => if s.mapBad fk i w then some 0x4201 else none) ]

/-- R249: the first failure among the checks from 6 on. -/
def State.imageCheck (s : State) (fk : Nat) (i : Image) : Option (Nat × Nat) := (s.checkList fk i).findSome? id

/-- R249: every check of an image that bytes spell. -/
def State.loadCheck (s : State) (fk : Nat) (b : Bytes) (addr : Nat) : Except (Nat × Nat) Image :=
  match parseImage b addr (decide (12 ≤ fk % 20)) with
  | none => .error (0x3076, noWord)
  | some i =>
    if i.custom ∧ s.odGet Od.customAllow = 0 then .error (0x3076, noWord)
    else if !s.modelFor i.model i.tenant then .error (0x3078, noWord)
    else if 4 ≤ (s.flight fk).progs.length then .error (0x307B, noWord)
    else if i.fixedLat && (s.odGet Od.fixlatAllow == 0 || i.handles.any (fun h => h.table == 1 || bit h.entry 126)) then
      .error (0x3062, noWord)
    else match if i.fixedLat then i.ops.findIdx? fixedWordBad else none with
      | some k => .error (0x3062, k)
      | none => match s.imageCheck fk i with
        | some r => .error r
        | none => .ok i

/-! ### Loading (R137, R249) -/

/-- R249: what the loader refuses is recorded and counted. -/
def State.loadRefused (s : State) (code word : Nat) : State :=
  let s := (s.count Od.loadRefusals 1).odPut Od.lastRefusal code
  let s := s.odPut Od.lastRefusalWord word
  if code = 0x3030 then s.count Od.genConflicts 1
  else if code = 0x3031 then s.count Od.genBindingRefusals 1
  else if code = 0x3060 then s.count Od.handleRefusals 1
  else s

/-- R62, R542: the halls are powered and serve. -/
def State.hallsUp (s : State) : Bool :=
  match s.mode with | .ready => true | .run => true | .stopped => true | _ => false

/-- R249: the Planner hands the loader the image at a device address. On a fenced flight, and while the halls are not powered, nothing loads (R122). -/
def execProgramLoad (f : FlightId) (addr len : Nat) (s : State) : Result :=
  if !flightOk f then .refused .noSuchUnit
  else if !s.hallsUp || s.fenced (flightKey f) then .next s
  else
    match s.loadCheck (flightKey f) (s.memBytes addr len) addr with
    | .error (c, w) => .next (s.loadRefused c w)
    | .ok i => .next (s.install (flightKey f) addr i)

/-! ### Task start (R217, R218, R245) -/

/-- R245: units that programs with a task in progress hold. -/
def State.heldUnits (s : State) (l : Nat) (except : Nat × Nat) : List (Nat × Nat) :=
  s.progs.flatMap (fun e =>
    if e.2.mode = .idle ∨ (e.1, e.2.slot) = except then []
    else (imageRegions e.1 e.2.img).filterMap (fun r => if r.1 = l then some (r.2.1, r.2.1 + r.2.2) else none))

/-- R218: the landing overwrites the units that a task of another tenant wrote, but for those that a task in progress holds. -/
def State.overwriteFor (s : State) (l tenant : Nat) (me : Nat × Nat) : State :=
  let held := s.heldUnits l me
  let us := ((s.landing l).foreign tenant 0 (landingSize l / 64)).filter (fun u => !held.any (fun r => decide (r.1 ≤ u) && decide (u < r.2)))
  if us = [] then s else (s.setLanding l ((s.landing l).overwrite us)).count Od.tenantOverwrites 1

/-- R219, R104, R101, R132, R187: what a flight holds when a task starts: tiles with their tags at reset and undefined sums, stores that nothing has written, empty
buffers. The planes and the foot tables stay as they are. -/
def FlightSt.atTask (x : FlightSt) : FlightSt :=
  { x with tiles := [], tokens := [], tokHeads := [], outliers := [], buffers := [], refetch := [], resolved := [] }

/-- R217: the handle table entries that only HANDLE_SET writes: those that the image's handle list holds with AT_LOAD 0, and those that a HANDLE_SET names
under a number that the list does not write at load. -/
def setHandles (i : Image) : List (Nat × Nat) :=
  let atLoad := fun (p : Nat × Nat) => i.handles.any (fun h => h.table == p.1 && h.handle == p.2 && h.atLoad == 1)
  ((i.handles.filter (fun (h : HandleE) => h.atLoad == 0)).map (fun (h : HandleE) => (h.table, h.handle)) ++
    ((i.ops.filter (fun w => opOf w == 0x36)).map (fun w => (if bit w 103 then 1 else 0, bits w 111 104)))).filter (fun p => !atLoad p)

/-- R217, R218, R220: a resident program starts: its task begins after the overwrites, with the handle entries that only HANDLE_SET writes not
VALID. -/
def State.startTask (s : State) (fk slot cls : Nat) : State :=
  match s.progAt fk slot with
  | none => s
  | some p =>
    let t := p.img.tenant
    let s := (s.overwriteFor fk t (fk, slot)).overwriteFor (hallLanding (fk / 20)) t (fk, slot)
    let s := (setHandles p.img).foldl (fun s h => s.setHandle (tableLanding fk h.1) h.2 0) s
    let n := s.halls.tasks + 1
    let s : State := { s with halls := { s.halls with tasks := n } }
    let f := fun (p : Prog) =>
      { p with
        mode := .running, cls := cls, pc := 0, rep := none, counters := List.replicate 8 0, issued := [], bars := [], resume := none,
        ppDone := false, lastPass := [], since := n }
    let s := s.modProg fk slot f
    s.setFlight fk { (s.flight fk).atTask with current := some slot }

end Sys2Proof.Machine
end

