-- ==== Sys2Proof/Machine/Seq.lean ====
section
/-!
DEFINITION. Seq.lean: the sequencer (R224, R225, R233 to R247): issue and end of operations, REPEAT, WAIT, END, pre-emption points, barriers and STEP,
program starts, offers and resumes.
-/

namespace Sys2Proof.Machine

/-! ### The next word (R224, R233) -/

/-- R225, R235: the units that carry an opcode out: DISPATCH takes the router and the Arcade, COMBINE the router and the foot. -/
def unitsOf (o : Nat) : List Nat :=
  if o ≤ 0x03 then [0] else if o ≤ 0x09 then [1] else if o ≤ 0x14 then [2] else if o = 0x15 then [3] else if o ≤ 0x21 then [4]
  else if o ≤ 0x31 then [5] else if o ≤ 0x36 then [6] else if o ≤ 0x42 then [7] else if o = 0x43 then [8] else if o = 0x44 then [8, 7]
  else if o = 0x45 then [8, 4] else if o = 0x46 then [9] else [10]

/-- R233: the next word of a program as its REPEAT increments it, or the code with which it is refused (R234). -/
def Prog.next (p : Prog) : Except Nat Nat :=
  let w := p.img.ops.getD p.pc 0
  match p.rep with
  | some r => applyInc r.word r.iter w
  | none => .ok w

/-- R233: the word after the next one. -/
def Prog.advance (p : Prog) : Prog :=
  let p := { p with ppDone := false }
  match p.rep with
  | none => { p with pc := p.pc + 1 }
  | some r =>
    if p.pc + 1 < r.first + bits r.word 95 90 then { p with pc := p.pc + 1 }
    else if r.iter + 1 < bits r.word 111 96 then { p with pc := r.first, rep := some { r with iter := r.iter + 1 } }
    else { p with pc := p.pc + 1, rep := none }

/-- R236: a counter's value. -/
def Prog.counter (p : Prog) (c : Nat) : Nat := p.counters.getD c 0

/-- R242: every issued operation has ended and every counter is zero. -/
def Prog.quiet (p : Prog) : Bool := p.issued.isEmpty && p.counters.all (· == 0)

/-- R235, R236, R242: the word may issue: its pre-emption point has been passed, its counters allow it, and its units have room. -/
def Prog.mayIssue (p : Prog) (w : Nat) : Bool :=
  (!(opPP w || opOf w == 0x09) || p.ppDone) &&
  (match opWait w with | some c => p.counter c == 0 | none => true) &&
  (match opSig w with | some c => decide (p.counter c < 255) | none => true) &&
  (unitsOf (opOf w)).all (fun u => decide ((p.issued.filter (fun x => (unitsOf x.op).contains u)).length < 4))

/-- What the sequencer hands to a unit: the flight, the program, the word, and whether R377 leaves it nothing to do. -/
structure OpCtx where
  fk    : Nat
  prog  : Prog
  word  : Nat
  empty : Bool
  deriving DecidableEq, Repr

def OpCtx.slot (c : OpCtx) : Nat := c.prog.slot
def OpCtx.id (c : OpCtx) : Nat := c.prog.nextOp
def OpCtx.hall (c : OpCtx) : Nat := c.fk / 20
def OpCtx.tenant (c : OpCtx) : Nat := c.prog.img.tenant
def OpCtx.job (c : OpCtx) : Nat := c.prog.img.job
def OpCtx.g (c : OpCtx) : Bool := decide (12 ≤ c.fk % 20)
def OpCtx.since (c : OpCtx) : Nat := c.prog.since
def OpCtx.flight (c : OpCtx) : FlightId := flightOf c.fk

/-- What the sequencer finds when it is asked to issue an operation of a kind. -/
inductive Turn where
  | wait
  | stop (slot code word : Nat)
  | go (c : OpCtx)
  deriving DecidableEq, Repr

/-! ### Expert sections (R375, R377) -/

/-- R370: the bytes of an exchange record. -/
def State.exchRecord (s : State) (e : ExchSt) : Option Bytes :=
  match e.record, s.progAt e.fk e.slot with
  | some h, some p => (s.resolve p.since (hallLanding (e.fk / 20)) h).map (fun b => s.landBytes b.since b.landing (b.base * 64) 64)
  | _, _ => none

/-- R372: rows that the manifests announce for a local slot. -/
def ExchSt.slotRows (e : ExchSt) (lslot : Nat) : Nat := (e.manifest.map (fun m => m.2.getD (1 + lslot) 0)).sum

/-- R370: where an input (`out` false) or output section of a local slot begins, in the landing of a hall. -/
def State.sectionAt (s : State) (rec_ : Bytes) (hall since lslot : Nat) (out : Bool) : Option (Nat × Nat) :=
  (s.resolve since (hallLanding hall) (rec_.getD ((if out then 16 else 0) + lslot) 0#8).toNat).map (fun b => (b.landing, b.base))

/-- R376, R377: the sections of an expert program and the rows that they hold. -/
def State.expertSections (s : State) (fk : Nat) (p : Prog) : Option (List (Nat × Nat) × Nat) :=
  match kfind (fk * 4 + p.slot) s.serve.expertProgs with
  | none => none
  | some k =>
    match s.serve.exchanges.find? (fun e => e.job == p.img.job && e.layer == k / 16 && e.written) with
    | none => none
    | some e => (s.exchRecord e).map (fun r =>
        ((s.sectionAt r (fk / 20) p.since (k % 16) false).toList ++ (s.sectionAt r (fk / 20) p.since (k % 16) true).toList, e.slotRows (k % 16)))

/-- R377: the view that an operation counts over: its handle's table (0 flight, 1 hall) and handle, its first row, and the field that holds its count
minus one, in the word. -/
def countedView (g : Bool) (w : Nat) : Option (Nat × Nat × Nat × Nat × Nat) :=
  let d := bits w 63 0
  match opOf w with
  | 0x10 => if g then none else some (0, bits w 81 74, bits w 73 58, 49, 44)
  | 0x11 => if g then none else some (0, bits w 65 58, bits w 57 42, 33, 28)
  | 0x12 => if g then none else some (0, bits w 66 59, bits w 58 43, 21, 16)
  | 0x13 => if g then none else some (0, bits w 71 64, bits w 63 48, 42, 37)
  | 0x14 => if g then none else some (0, bits w 71 64, bits w 63 48, 31, 26)
  | 0x15 => if g then none else some (1, bits w 87 80, bits w 79 64, 63, 58)
  | 0x20 =>
    if bits d 63 60 = 1 ∧ bits d 34 33 ≠ 0 then some (0, bits d 26 19, bits w 111 96 + bits d 55 50, 49, 44)
    else if bits d 63 60 = 4 then some (0, bits d 18 11, bits w 111 96 + bits d 55 50, 49, 44) else none
  | 0x33 => some (0, bits w 111 104, bits w 103 88, 82, 78)
  | 0x34 => some (0, bits w 111 104, bits w 103 88, 82, 78)
  | 0x40 => some (1, bits w 111 104, bits w 103 88, 87, 72)
  | _ => none

/-- R377: the token store group that a G-flight operation counts over, and its count field. -/
def countedGroup (g : Bool) (w : Nat) : Option (Nat × Nat × Nat) :=
  if !g then none
  else match opOf w with
    | 0x10 => some (bits w 57 50, 49, 44)
    | 0x11 => some (bits w 41 34, 33, 28)
    | 0x12 => some (bits w 66 59, 21, 16)
    | 0x14 => some (bits w 71 64, 31, 26)
    | _ => none

/-- R377: the word with its count cut to n, and whether nothing is left. -/
def cutCount (w hi lo n : Nat) : Nat × Bool :=
  let m := min (bits w hi lo + 1) n
  if m = 0 then (w, true) else (setBits w hi lo (m - 1), false)

/-- R377: an operation of an expert program as the rows of its slot trim it. -/
def State.trim (s : State) (fk : Nat) (p : Prog) (w : Nat) : Nat × Bool :=
  let g := decide (12 ≤ fk % 20)
  match countedGroup g w with
  | some (grp, hi, lo) =>
    match kfind (8192 + grp) (s.flight fk).tokHeads with
    | some n => cutCount w hi lo n
    | none => (w, false)
  | none =>
    match countedView g w, s.expertSections fk p with
    | some (table, h, row0, hi, lo), some (secs, rows) =>
      match s.resolve p.since (if table = 0 then fk else hallLanding (fk / 20)) h with
      | some b => if secs.contains (b.landing, b.base) then cutCount w hi lo (rows - row0) else (w, false)
      | none => (w, false)
    | _, _ => (w, false)

/-- R375: an operation reads an input section that is not complete. -/
def State.sectionOpen (s : State) (fk : Nat) (p : Prog) (w : Nat) : Bool :=
  match countedView (decide (12 ≤ fk % 20)) w with
  | none => false
  | some (table, h, _, _, _) =>
    match s.resolve p.since (if table = 0 then fk else hallLanding (fk / 20)) h with
    | none => false
    | some b => s.serve.exchanges.any (fun e => e.job == p.img.job && !e.written &&
        (match s.exchRecord e with
         | some r => (List.range (min 16 (r.getD 36 0#8).toNat)).any (fun k => s.sectionAt r (fk / 20) p.since k false == some (b.landing, b.base))
         | none => false))

/-- The program that runs on a flight. -/
def State.runningProg (s : State) (fk : Nat) : Option Prog :=
  if s.mode ≠ .run ∨ s.fenced fk then none
  else (s.flight fk).current.bind (fun sl => (s.progAt fk sl).bind (fun p => if p.mode = .running then some p else none))

/-- R235, R247: the operation that the running program issues next, where it is of the kind asked for and may issue. -/
def State.turn (s : State) (fk : Nat) (is : Nat → Bool) : Turn :=
  match s.runningProg fk with
  | none => .wait
  | some p =>
    let raw := p.img.ops.getD p.pc 0
    if p.img.ops.length ≤ p.pc ∨ !is raw then .wait
    else if s.memPoisoned (p.img.opsAt + 16 * p.pc) 16 then .stop p.slot 0x3075 p.pc
    else match p.next with
      | .error c => .stop p.slot c p.pc
      | .ok w =>
        if !p.mayIssue w || s.sectionOpen fk p w then .wait
        else
          let (w, empty) := s.trim fk p w
          .go ⟨fk, p, w, empty⟩

/-! ### Issue (R235, R236) -/

/-- How a unit takes an operation: it ends at once; it is issued until OPERATION_END; the sequencer is held; or it is refused with a code. -/
inductive OpRes where
  | done
  | open_
  | hold
  | stop (code : Nat)
  deriving DecidableEq, Repr

/-- R246: counters of a run-time refusal. -/
def State.countRefusal (s : State) (code : Nat) : State :=
  if code = 0x3060 then s.count Od.handleRefusals 1
  else if code = 0x3061 then s.count Od.rangeRefusals 1
  else if code = 0x3012 ∨ code = 0x3013 then s.count Od.footRefusals 1
  else if code = 0x3020 then s.count Od.fmtMismatches 1
  else if code = 0x3030 then s.count Od.genConflicts 1
  else if code = 0x3031 then s.count Od.genBindingRefusals 1
  else s

/-- R246: an operation is refused at run time, and its program stops. -/
def State.refuseOp (s : State) (fk slot code word : Nat) : State := (s.countRefusal code).programStop fk slot code word

/-- R235, R236: the operation is issued, and the program goes on to the next word. -/
def Prog.issue (p : Prog) (w : Nat) : Prog :=
  let x : Issued := ⟨p.nextOp, opOf w, opSig w, p.pc⟩
  { p.advance with
    issued := p.issued ++ [x], nextOp := p.nextOp + 1,
    counters := match opSig w with | some c => p.counters.set c (p.counter c + 1) | none => p.counters }

/-- R235: an operation that ends at once is counted, and the program goes on to the next word. -/
def State.opDone (s : State) (c : OpCtx) : State := (s.count Od.opsIssued 1).modProg c.fk c.slot Prog.advance

/-- R235, R236: an operation that runs until OPERATION_END is counted and issued, and the program goes on to the next word. -/
def State.opOpen (s : State) (c : OpCtx) : State := (s.count Od.opsIssued 1).modProg c.fk c.slot (fun p => p.issue c.word)

/-- R235: issue the next operation of a flight's program, where it is of a kind; `body` is what the unit does with it. -/
def State.issueOp (s : State) (f : FlightId) (is : Nat → Bool) (body : OpCtx → State → State × OpRes) : State :=
  let fk := flightKey f
  match s.turn fk is with
  | .wait => s
  | .stop slot code word => s.refuseOp fk slot code word
  | .go c =>
    match (if c.empty then (s, .done) else body c s) with
    | (s, .hold) => s
    | (s, .stop code) => s.refuseOp fk c.slot code c.prog.pc
    | (s, .done) => s.opDone c
    | (s, .open_) => s.opOpen c

/-- The opcode alone selects. -/
def isOp (o : Nat) (w : Nat) : Bool := opOf w == o

/-- R227 of R110: a FOOT word with a function. -/
def isFoot (fn : Nat) (w : Nat) : Bool := opOf w == 0x20 && bits w 63 60 == fn

/-- R422: a COLLECTIVE word of a kind. -/
def isColl (k : Nat) (w : Nat) : Bool := opOf w == 0x42 && bits w 111 108 == k

/-! ### Sequencer operations -/

/-- NOP: nothing. -/
def execNop (f : FlightId) (s : State) : Result :=
  if !flightOk f then .refused .noSuchUnit else .next (s.issueOp f (isOp 0x00) (fun _ s => (s, .done)))

/-- R233: REPEAT: its body runs COUNT times. -/
def execRepeatOp (f : FlightId) (s : State) : Result :=
  if !flightOk f then .refused .noSuchUnit
  else
    let fk := flightKey f
    match s.turn fk (isOp 0x02) with
    | .wait => .next s
    | .stop slot code word => .next (s.refuseOp fk slot code word)
    | .go c =>
      let g := fun (p : Prog) => { p with pc := p.pc + 1, rep := some ⟨p.pc + 1, 0, c.word⟩, ppDone := false }
      .next ((s.count Od.opsIssued 1).modProg fk c.slot g)

/-- R225: WAIT issues when every counter named in its mask is zero. -/
def execWaitOp (f : FlightId) (s : State) : Result :=
  if !flightOk f then .refused .noSuchUnit
  else .next (s.issueOp f (isOp 0x03) (fun c s =>
    if (List.range 8).all (fun k => !bit (bits c.word 111 104) k || c.prog.counter k == 0) then (s, .done) else (s, .hold)))

/-- R220: END: the flight is idle; a program without RESIDENT is unloaded. The issued operations run to their end first, as R235 orders them. An
open step of a job none of whose programs is left running ends without a commit. -/
def State.endProgram (s : State) (c : OpCtx) : State :=
  let s := s.count Od.opsIssued 1
  let s := s.setFlight c.fk { (s.flight c.fk) with current := none }
  let s := if c.prog.img.resident then
      let g := fun (p : Prog) => { p with mode := .idle, pc := 0, rep := none, ppDone := false, lastPass := [], resume := none }
      s.modProg c.fk c.slot g
    else s.unloadProg c.fk c.slot
  if (s.jobProgs c.job).any (fun e => e.2.mode != .idle) then s
  else match s.openStepOf c.job with
    | some x => if x.closing.isNone then (s.dropStep c.job).takeIdleCancels else s
    | none => s

/-- END issues when every issued operation has ended. -/
def execEndOp (f : FlightId) (s : State) : Result :=
  if !flightOk f then .refused .noSuchUnit
  else
    let fk := flightKey f
    match s.turn fk (isOp 0x01) with
    | .wait => .next s
    | .stop slot code word => .next (s.refuseOp fk slot code word)
    | .go c => if c.prog.quiet then .next (s.endProgram c) else .next s

/-- An issued operation still waits: a RECV or a collective for its partners, a FETCH or STORE for the last byte of its descriptor (R236). -/
def State.opWaits (s : State) (fk slot id : Nat) : Bool :=
  s.xlate.descs.any (fun d => d.use == .prog && d.prog == fk * 4 + slot && d.op == id && !d.state.final) ||
  s.serve.moves.any (fun m => !m.isSend && m.flight == fk && m.slot == slot && m.opId == id) ||
  s.serve.colls.any (fun c => c.parts.any (fun w => w.flight == fk && w.slot == slot && w.opId == id))

/-- R236: an issued operation ends, and its counter falls. A barrier ends by its release, and what waits for a partner ends after it. -/
def execOperationEnd (f : FlightId) (op : Nat) (s : State) : Result :=
  if !flightOk f then .refused .noSuchUnit
  else
    let fk := flightKey f
    match (s.flight fk).current.bind (fun sl => s.progAt fk sl) with
    | none => .next s
    | some p =>
      match p.issued.find? (fun x => x.id == op) with
      | none => .next s
      | some x =>
        if x.op = 0x08 ∨ x.op = 0x09 ∨ s.opWaits fk p.slot op then .next s
        else .next (s.modProg fk p.slot (fun p => p.endIssued op))

/-! ### Pre-emption points (R242, R243) -/

/-- R243: what a flight does not keep across a resume record becomes undefined. -/
def FlightSt.forget (x : FlightSt) : FlightSt :=
  { x with active := [], staged := [], planeBad := false, planeFree := true, tokens := [], tokHeads := [], outliers := [], tables := [], buffers := [],
           refetch := [], resolved := [] }

/-- R297: streams of the program's open step whose chunk needs input that waits on a page enter WAITING_PAGE; whether there is one. -/
def State.holdForInput (s : State) (job : Nat) : Bool × State :=
  match s.openStepOf job with
  | none => (false, s)
  | some x => x.live.foldl (fun (r : Bool × State) i => if r.2.inputWaits i then (true, r.2.waitForInput i) else r) (false, s)

/-- R242: a program is suspended. -/
def State.suspendProg (s : State) (fk slot : Nat) : State :=
  let s := (s.modProg fk slot (fun p => { p with mode := .suspended, key := s.runKey p })).count Od.suspensions 1
  if (s.flight fk).current = some slot then s.setFlight fk { (s.flight fk) with current := none } else s

/-- R242: at a word with PP, and at STEP, the resume record is written and the point is offered: the program goes on unless work of a higher class
waits for the flight. A STEP that the program reaches with a tile still VALID is no tile boundary: nothing is offered there, and the program keeps what it
holds (R123, R241). -/
def execPreemptionPoint (f : FlightId) (s : State) : Result :=
  if !flightOk f then .refused .noSuchUnit
  else
    let fk := flightKey f
    match s.runningProg fk with
    | none => .next s
    | some p =>
      let w := p.img.ops.getD p.pc 0
      if !(opPP w || opOf w == 0x09) ∨ p.ppDone ∨ !p.quiet ∨ p.img.fixedLat then .next s
      else if !(s.flight fk).atBoundary then .next (s.modProg fk p.slot (fun p => { p with ppDone := true }))
      else
        let r : Resume := ⟨p.pc, p.rep, p.bars⟩
        let s := s.setFlight fk (s.flight fk).forget
        let s := s.modProg fk p.slot (fun p => { p with resume := some r })
        let (held, s) := s.holdForInput p.img.job
        if held then .next (s.suspendProg fk p.slot)
        else
          let up := s.higherWaits fk p
          .next (s.modProg fk p.slot (fun p => { p with ppDone := !up, mode := if up then .offered else .running }))

/-! ### Starts, offers and resumes (R220, R329 to R331) -/

/-- R332: class 2 work that a P-flight has held. -/
def State.holdShare (s : State) (c : OpCtx) : State :=
  if c.prog.cls = 2 ∧ c.g = false then
    let h := c.hall
    { s with serve := { s.serve with shareSteps := kset 0 h (kget 0 h s.serve.shareSteps + wordSteps c.g c.word) s.serve.shareSteps } }
  else s

/-- R329: the step scheduler starts a program on an idle flight: its task begins, and its job's step opens where none is open. -/
def State.startProgram (s : State) (fk slot : Nat) : State :=
  match s.progAt fk slot with
  | none => s
  | some p =>
    let job := p.img.job
    let s := (s.startTask fk slot 3).openStep job
    let s := s.writeMaps job
    let key := match s.openStepOf job with
      | some x => s.stepKey x
      | none => 3 * 2 ^ 96 + s.epoch % 2 ^ 64 * 2 ^ 16
    s.modProg fk slot (fun p => { p with cls := min 3 (keyClass key), key := key })

/-- R62, R220, R542: a program may start or resume on a flight: Run, not fenced, nothing running, its job not waiting for an episode. -/
def State.mayStart (s : State) (fk slot : Nat) (m : ProgMode) : Bool :=
  s.mode == .run && !s.fenced fk && (s.flight fk).current.isNone &&
  (match s.progAt fk slot with
   | some p => p.mode == m && (s.jobOf p.img.job).waiting == []
   | none => false)

/-- R220, R329: PROGRAM_START. -/
def execProgramStart (f : FlightId) (slot : Nat) (s : State) : Result :=
  if !flightOk f then .refused .noSuchUnit
  else if s.mayStart (flightKey f) slot .idle then .next (s.startProgram (flightKey f) slot)
  else .next s

/-- R242: a suspended program resumes at its resume record. -/
def State.resumeProgram (s : State) (fk slot : Nat) : State :=
  let s := s.setFlight fk { (s.flight fk).forget with current := some slot }
  let s := s.modProg fk slot (fun p => { p.atResume with mode := .running, ppDone := true })
  match s.progAt fk slot with
  | none => s
  | some p => (s.openStep p.img.job).writeMaps p.img.job

/-- R242: PROGRAM_RESUME. -/
def execProgramResume (f : FlightId) (slot : Nat) (s : State) : Result :=
  if !flightOk f then .refused .noSuchUnit
  else if s.mayStart (flightKey f) slot .suspended then .next (s.resumeProgram (flightKey f) slot)
  else .next s

/-- Give an idle flight to the first queued work. -/
def State.giveFlight (s : State) (fk : Nat) : State :=
  match s.nextFor fk with
  | none => s
  | some (slot, _) =>
    if s.mayStart fk slot .idle then s.startProgram fk slot
    else if s.mayStart fk slot .suspended then s.resumeProgram fk slot
    else s

/-- R330, R331: FLIGHT_OFFER: at an offer, work of a higher class takes the flight and the program is suspended; otherwise it goes on. An idle
flight goes to the first queued work. -/
def execFlightOffer (f : FlightId) (s : State) : Result :=
  if !flightOk f then .refused .noSuchUnit
  else
    let fk := flightKey f
    match (s.flight fk).current.bind (fun sl => s.progAt fk sl) with
    | none => .next (s.giveFlight fk)
    | some p =>
      if p.mode ≠ .offered then .next s
      else if s.higherWaits fk p then
        .next ((s.suspendProg fk p.slot).giveFlight fk)
      else .next (s.modProg fk p.slot (fun p => { p with mode := .running, ppDone := true }))

end Sys2Proof.Machine
end

