-- ==== Sys2Proof/Machine/Barriers.lean ====
section
/-!
DEFINITION. Barriers.lean: BARRIER and STEP (R238 to R240), the gathering of arrivals over the Arcade (R411) and the barrier timeout (R239).
-/

namespace Sys2Proof.Machine

/-- R240, R298: a barrier whose every participant has arrived: a STEP commits before it releases; without an open step it has nothing to commit. -/
def State.barrierFull (s : State) (job bid use scope : Nat) (hall : Option Nat) : State :=
  match s.barrierOf job bid use hall with
  | none => s.galRelease job bid use scope scope
  | some b =>
    if b.isStep && (s.openStepOf job).isSome then s.stepArrived job bid use hall
    else
      let s := s.releaseBarrier job bid use hall
      if b.isStep && (s.jobProgs job).any (fun e => e.2.mode == .running && !e.2.atEnd) then s.openStep job else s

/-- R411: the programs of a job in this module that take part in a gallery barrier. -/
def State.localShare (s : State) (job bid : Nat) : Nat :=
  ((s.jobProgs job).filter (fun e => match e.2.img.barriers[bid]? with | some b => decide (3 ≤ b.scope) | none => false)).length

/-- R411: this module gathers an arrival from a member of its gallery at a level: when every member has arrived it goes upward, or the barrier is
complete. -/
def State.gather : Nat → State → Nat → Nat → Nat → Nat → Nat → Word64 → State
  | 0, s, _, _, _, _, _, _ => s
  | fuel + 1, s, job, bid, use, scope, level, src =>
    let is := fun (b : GalBarrier) => b.job == job && b.bid == bid && b.use == use && b.level == level
    let old := ((s.arcade.barriers.find? is).map (·.from_)).getD []
    let now := (old ++ [src]).dedup
    let rest := s.arcade.barriers.filter (fun b => !is b)
    if (s.levelIndices level).all (fun x => now.any (fun p => s.levelIndex p level == x)) then
      let s : State := { s with arcade := { s.arcade with barriers := rest } }
      if scope ≤ level then s.barrierFull job bid use scope none
      else match s.levelManager (level + 1) with
        | none => s
        | some m =>
          if s.mine m then State.gather fuel s job bid use scope (level + 1) s.ownPath
          else s.sendFrame (s.mkFrame m 0x04 0 31 job 0 0 (barrierPayload bid scope use))
    else { s with arcade := { s.arcade with barriers := rest ++ [⟨job, bid, use, level, now⟩] } }

/-- R411: this module's share of a gallery barrier has arrived. -/
def State.shareArrived (s : State) (job bid use scope : Nat) : State :=
  if s.depth ≤ 2 then s.barrierFull job bid use scope none
  else match s.arcade.manager with
    | none => s
    | some m =>
      if s.mine m then s.gather 8 job bid use scope 3 s.ownPath
      else s.sendFrame (s.mkFrame m 0x04 0 31 job 0 0 (barrierPayload bid scope use))

/-- R376: expert programs of a job that do not start in its open step count as arrived; at a hall's own barrier unit, those of the hall. -/
def State.skippedFor (s : State) (job bid : Nat) (hall : Option Nat) : Nat :=
  ((s.jobProgs job).filter (fun e => hall.all (· == e.1 / 20) && s.serve.skipped.contains (e.1 * 4 + e.2.slot) && decide (bid < e.2.img.barriers.length))).length

/-- R238: what follows when the last local arrival of a barrier is there. -/
def State.checkBarrier (s : State) (b : BarrierSt) : State :=
  let n := b.arrived.length + s.skippedFor b.job b.bid b.hall
  if b.scope < 3 then (if b.parts ≤ n then s.barrierFull b.job b.bid b.use b.scope b.hall else s)
  else if s.localShare b.job b.bid ≤ n then s.shareArrived b.job b.bid b.use b.scope else s

/-- R376: an expert program does not start in the open step of its job. -/
def State.skipExpert (s : State) (job key : Nat) : State :=
  if s.serve.skipped.contains key then s
  else
    let s := ({ s with serve := { s.serve with skipped := s.serve.skipped ++ [key] } } : State).count Od.expertsIdle 1
    (s.halls.barriers.filter (fun b => b.job == job)).foldl State.checkBarrier s

/-- R238: a program arrives at a barrier; `isStep` for STEP. -/
def State.arrive (s : State) (c : OpCtx) (bid : Nat) (isStep : Bool) : State :=
  match c.prog.img.barriers[bid]? with
  | none => s
  | some e =>
    let use := kget 0 bid c.prog.bars
    let me := c.fk * 4 + c.slot
    let s := s.modProg c.fk c.slot (fun p => { p with mode := .atBarrier, bars := kset 0 bid (use + 1) p.bars })
    let bs := s.halls.barriers
    let hall := if e.scope = 1 then some c.hall else none
    let b : BarrierSt := match s.barrierOf c.job bid use hall with
      | some b => { b with arrived := b.arrived ++ [me] }
      | none => { job := c.job, bid := bid, use := use, hall := hall, scope := e.scope, parts := e.parts, arrived := [me], first := s.epoch, isStep := isStep }
    let s : State := { s with halls := { s.halls with barriers := bs.filter (fun x => !x.is c.job bid use hall) ++ [b] } }
    s.checkBarrier b

/-- R235, R238: a barrier operation issues, and then its program has arrived. -/
def State.barrierOp (s : State) (f : FlightId) (op : Nat) : State :=
  let fk := flightKey f
  match s.turn fk (isOp op) with
  | .wait => s
  | .stop slot code word => s.refuseOp fk slot code word
  | .go c =>
    let s := s.opOpen c
    match s.progAt fk c.slot with
    | none => s
    | some p => s.arrive { c with prog := p } (bits c.word 111 108) (op == 0x09)

/-- R238: BARRIER. -/
def execBarrier (f : FlightId) (s : State) : Result :=
  if !flightOk f then .refused .noSuchUnit else .next (s.barrierOp f 0x08)

/-- R240: STEP. -/
def execStepOp (f : FlightId) (s : State) : Result :=
  if !flightOk f then .refused .noSuchUnit else .next (s.barrierOp f 0x09)

/-- The word of the barrier operation at which a program waits. -/
def Prog.barrierWord (p : Prog) : Nat := ((p.issued.find? (fun x => x.op == 0x08 || x.op == 0x09)).map (·.word)).getD p.pc

/-- R239, R246: a barrier has not released in time: every arrived program stops with 0x3073, the job's others with 0x3074. -/
def State.barrierTimeout (s : State) (b : BarrierSt) : State :=
  let s := b.arrived.foldl (fun s a => match s.progAt (a / 4) (a % 4) with
    | some p => s.stopProg (a / 4) (a % 4) 0x3073 p.barrierWord
    | none => s) s
  s.stopRest b.job 0x3073

/-- R239: BARRIER_TIMEOUT, for a barrier that stands, one timeout after its first arrival. -/
def execBarrierTimeout (job bid : Nat) (use : BarrierUse) (s : State) : Result :=
  match s.barrierOf job bid use.num use.hall with
  | none => .next s
  | some b => .next (s.barrierTimeout b)

/-- R411: a BARRIER_ARRIVE frame for this module. Its sender's level is the one above that at which it is a member. -/
def State.takeArrive (s : State) (f : Frame) : State :=
  let bid := leField f.payload 0 1
  let scope := leField f.payload 1 1
  let use := leField f.payload 4 4
  let l := ((List.range 9).filter (fun l => decide (3 ≤ l) && decide (l ≤ s.depth) && s.sameGallery l f.src s.ownPath)).head?.getD s.depth
  if s.isManager then s.gather 8 f.job bid use scope l f.src else s

/-- R411: a BARRIER_RELEASE frame for this module. -/
def State.takeRelease (s : State) (f : Frame) : State :=
  let bid := leField f.payload 0 1
  let use := leField f.payload 4 4
  s.galRelease f.job bid use (leField f.payload 1 1) (min s.managedLevel (leField f.payload 1 1 - 1))

end Sys2Proof.Machine
end

