-- ==== Sys2Proof/Machine/Expander.lean ====
section
/-!
DEFINITION. Expander.lean: the expander of a flight (R187 to R194): it fetches the weight blocks of a plane, checks them, and delivers their weights;
a block that fails twice is poisoned.
-/

namespace Sys2Proof.Machine

/-! ### Where a tensor lies (R223) -/

/-- Bytes that a flight reads: a region of a landing, or a part of a tenant's space. -/
inductive Arr where
  | land (b : Buf)
  | area (base len : Nat)
  deriving DecidableEq, Repr

/-- Bytes of the array. -/
def Arr.len : Arr → Nat
  | .land b => b.bytesLen
  | .area _ n => n

/-- Read bytes of an array; what lies beyond it arrives poisoned. -/
def State.arrRead (s : State) (hall tenant : Nat) (a : Arr) (off n : Nat) : Bytes × Bool :=
  if a.len < off + n then (zeros n, true)
  else match a with
    | .land b => (s.landBytes b.since b.landing (b.base * 64 + off) n, s.landPoison b.since b.landing (b.base * 64 + off) n)
    | .area base _ => s.vaBytes hall tenant (base + off) n

/-- R260, R281: what a read of an array counts: the translations of its 64-byte units and the poisoned words of device memory, but for those in which the decoder
has found an error. -/
def State.arrTouch (s : State) (errs : List BitErr) (hall tenant : Nat) (a : Arr) (off n : Nat) : State :=
  match a with
  | .land _ => s
  | .area base len =>
    if len < off + n ∨ n = 0 then s
    else
      let lo := (base + off) / 64
      let hi := (base + off + n - 1) / 64
      let s := (List.range (hi + 1 - lo)).foldl (fun s i => (s.translate hall tenant ((lo + i) * 64) false).2) s
      let bad := (wordsOf (base + off) n).filter (fun w => match s.vaDevice hall tenant (8 * w) with
        | some d => kget false (d / 8) s.mem.poison && !(hitWords errs).contains (d / 8)
        | none => false)
      s.count Od.poisonReads bad.length

/-- The data area, the index table and the check table of a tensor, and the segment at which its weights begin. -/
structure Arrays where
  data  : Arr
  index : Arr
  check : Arr
  first : Nat
  deriving DecidableEq, Repr

/-- R214, DESIGN CHOICE, log entry 34: the buffer that a handle names, with a format that the operation takes. -/
def State.need (s : State) (since l h : Nat) (fmts : List Nat) : Except Nat Buf :=
  match s.resolve since l h with
  | none => .error 0x3060
  | some b => if fmts.contains b.fmt then .ok b else .error 0x3070

/-- R223: the arrays of a tensor table entry. -/
def State.arraysOf (s : State) (c : OpCtx) (ti : Nat) : Except Nat Arrays :=
  match c.prog.img.tensors[ti]? with
  | none => .error 0x3070
  | some t =>
    if bit t.flags 0 then
      match s.need c.since c.fk t.data [0xA], s.need c.since c.fk t.index [0xB], s.need c.since c.fk t.check [0xC] with
      | .ok d, .ok i, .ok k => .ok ⟨.land d, .land i, .land k, t.wOffset / 4096⟩
      | .error e, _, _ => .error e
      | _, .error e, _ => .error e
      | _, _, .error e => .error e
    else match c.prog.img.areas[t.area]? with
      | none => .error 0x3070
      | some a =>
        let part := fun (off : Nat) => Arr.area (a.base + off) (a.length - off)
        .ok ⟨part t.dataOff, part t.idxOff, part t.chkOff, t.wOffset / 4096⟩

/-- R11: the array lies where the flights of the hall read directly: in a landing, or in the hall's own bonded memory and mezzanine. Another hall's memory is
reached only by FETCH and STORE (DESIGN CHOICE, log entry 77). -/
def State.arrLocal (s : State) (hall tenant : Nat) : Arr → Bool
  | .land _ => true
  | .area base len => [base, base + (len - 1)].all (fun v => match s.vaDevice hall tenant v with
      | some a => memHall a == hall
      | none => true)

/-! ### One block (R187, R191) -/

/-- A block as a fetch finds it: where its stored bytes lie in the data area, whether it passes its check, whether every word of it is poisoned, its form and
stored bytes, its weights, and its invalid T5 bytes. -/
structure Fetched where
  off    : Nat
  len    : Nat
  good   : Bool
  marked : Bool
  raw    : Bool
  data   : Bytes
  ws     : List Int
  bad5   : Nat
  deriving DecidableEq, Repr

/-- The weights that stored bytes spell (R175, R179). -/
def storedWeights (raw : Bool) (d : Bytes) : Option (List Int) := if raw then decodeRaw d else decodeCoded d

/-- R180: the offset and RAW of block b of a tensor that is stored under a readable index entry. -/
def State.arrEntry (s : State) (hall tenant : Nat) (x : Arrays) (b : Nat) : Option (Nat × Bool) :=
  let (ib, ip) := s.arrRead hall tenant x.index (4 * b) 4
  let e := leNat ib
  if ip || !indexValid e || bit e 30 then none else some (indexOffset e, bit e 31)

/-- Every word of a range of the data area is poisoned. -/
def State.allPoisoned (s : State) (hall tenant : Nat) (a : Arr) (off len : Nat) : Bool :=
  decide (0 < len) && (List.range (len / 8)).all (fun i => (s.arrRead hall tenant a (off + 8 * i) 8).2)

/-- R193: a block of a tensor that fails its check: the extent of its stored bytes, as the entries around it bound them. -/
def State.failedBlock (s : State) (hall tenant : Nat) (x : Arrays) (b : Nat) : Fetched :=
  let units := fun (o : Nat) => ((s.arrRead hall tenant x.data o 1).1.getD 0 0#8).toNat
  let (off, n) := storedExtent (s.arrEntry hall tenant x) units (x.index.len / 4) x.data.len b
  ⟨off, n, false, s.allPoisoned hall tenant x.data off n, false, [], [], 0⟩

/-- R191: fetch block b of a tensor. -/
def State.fetchBlock (s : State) (hall tenant : Nat) (x : Arrays) (b : Nat) : Fetched :=
  let (ib, ip) := s.arrRead hall tenant x.index (4 * b) 4
  let (cb, cp) := s.arrRead hall tenant x.check (4 * b) 4
  let e := leNat ib
  if ip || !indexValid e then s.failedBlock hall tenant x b
  else if bit e 30 then ⟨0, 0, !cp, false, false, [], List.replicate blockWeights 0, 0⟩
  else
    let off := indexOffset e
    let raw := bit e 31
    let len := if raw then 4096 else ((s.arrRead hall tenant x.data off 1).1.getD 0 0#8).toNat * 64
    let (d, p) := s.arrRead hall tenant x.data off len
    match !(decide (x.data.len < off + len)) && !p && !cp && decide (crc32c d = leNat cb), storedWeights raw d with
    | true, some ws => ⟨off, len, true, false, raw, d, ws, 0⟩
    | _, _ => { s.failedBlock hall tenant x b with bad5 := if raw then (d.filter (fun v => !t5Valid v)).length else 0 }

/-- What a fetch of block b counts on its way. -/
def State.fetchTouch (s : State) (errs : List BitErr) (hall tenant : Nat) (x : Arrays) (b : Nat) (f : Fetched) : State :=
  ((s.arrTouch errs hall tenant x.index (4 * b) 4).arrTouch errs hall tenant x.check (4 * b) 4).arrTouch errs hall tenant x.data f.off f.len

/-- R193: every word of the block's stored bytes is marked poisoned in the memory that holds them. -/
def State.markFetched (s : State) (hall tenant : Nat) (x : Arrays) (f : Fetched) : State :=
  match x.data with
  | .land b =>
    let l := s.landing b.landing
    let p := (wordsOf (b.base * 64 + f.off) f.len).foldl (fun p w => kset false w true p) l.poison
    s.setLanding b.landing { l with poison := p }
  | .area base _ =>
    (List.range (f.len / 8)).foldl (fun s i =>
      match s.vaDevice hall tenant (base + f.off + 8 * i) with
      | some a => s.memMark a 8 true
      | none => s) s

/-- R193, R521: the subject of a block that fails: the stored block of the model whose index entry this is, or the copy that the flight reads. -/
def State.fetchedSubject (s : State) (c : OpCtx) (ti : Nat) (x : Arrays) (b : Nat) (f : Fetched) : Subject :=
  let own : Subject := ⟨1, f.off, (c.prog.img.model * 2 ^ 16 + ti) * 2 ^ 32 + b⟩
  match x.index with
  | .land l =>
    match s.copiedBlock l.landing (l.base * 64 + 4 * b) with
    | some (m, sl, k) => s.blockSubject m sl k
    | none => own
  | .area base _ =>
    match s.vaDevice c.hall c.tenant (base + 4 * b) with
    | none => own
    | some a =>
      match s.slices.find? (fun e => decide (e.2.idxAddr ≤ a) && decide (a < e.2.idxAddr + 4 * sliceBlocks e.2)) with
      | some (m, sl) => s.blockSubject m sl ((a - sl.idxAddr) / 4)
      | none => match x.data with
        | .land _ => own
        | .area d _ => { own with at_ := (s.vaDevice c.hall c.tenant (d + f.off)).getD f.off }

/-- R193: a block whose second fetch fails: it is marked, counted and logged. -/
def State.poisonBlock (s : State) (c : OpCtx) (ti : Nat) (x : Arrays) (b : Nat) (f : Fetched) : State :=
  let sub := s.fetchedSubject c ti x b f
  let s := (s.markFetched c.hall c.tenant x f).counts [(Od.blocksPoisoned, 1), (Od.t5InvalidSeen, f.bad5)]
  let ev : LogEv :=
    { code := 0x3040, hall := c.hall, unit := c.fk % 20, address := sub.at_, model := c.prog.img.model, job := c.prog.img.job,
      detail := leBytes 2 ti ++ leBytes 4 b }
  s.fault ev sub c.prog.img.model

/-! ### Errors of landing words (R203) -/

/-- R521: the weight block whose stored bytes, index entry or check value a landing byte copies, in a copy that the Planner placed. -/
def State.landBlock (s : State) (l off : Nat) : Option Subject :=
  s.serve.models.findSome? (fun e =>
    ((e.2.pkg.map s.ownCopies).getD []).findSome? (fun c =>
      if c.1.flight ≠ l then none
      else (c.1.blocks.find? (fun b =>
        let j := c.1.blocks.idxOf b
        let d := c.1.data + ((c.1.blocks.take j).map (fun x => (s.blockAt c.2 x).2)).sum
        let n := (s.blockAt c.2 b).2
        let within := fun (a k : Nat) => decide (a ≤ off) && decide (off < a + k)
        within d n || within (c.1.idx + 4 * j) 4 || within (c.1.chk + 4 * j) 4)).map (s.blockSubject e.1 c.2)))

/-- R521, kind 4: a second join fences every flight whose resident program holds a region in the landing, and the episode closes. -/
def State.escalateLanding (s : State) (l : Nat) (x : Subject) : State :=
  match s.episodeOf x with
  | some e =>
    if x.kind = 4 ∧ 2 ≤ e.joins then
      let ks := ((s.progs.filter (fun p => (imageRegions p.1 p.2.img).any (fun r => r.1 == l))).map (·.1)).dedup
      ((ks.filter (fun k => !s.fenced k)).foldl (fun s k => s.fence k) s).closeEpisode e.num
    else s
  | none => s

/-- R203: what the landing's code does with an error it finds on a read: one wrong bit is corrected, written back and counted; two poison the word, and
0x3063 is logged for the weight block that the word copies, or for the landing. -/
def State.landError (s : State) (e : LandErr) : State :=
  if 84 ≤ e.landing ∨ landingSize e.landing ≤ 8 * e.word then s
  else if !e.double then s.count Od.correctedWords 1
  else
    let l := s.landing e.landing
    let hall := if 80 ≤ e.landing then e.landing - 80 else e.landing / 20
    let unit := if 80 ≤ e.landing then 20 else e.landing % 20
    let x := (s.landBlock e.landing (8 * e.word)).getD (unitSubject 4 hall unit)
    let s := s.setLanding e.landing { l with poison := kset false e.word true l.poison }
    let m := if x.kind = 1 then x.key / 2 ^ 48 else 0
    ((s.count Od.uncorrectableWords 1).fault { code := 0x3063, hall := hall, unit := unit, address := 8 * e.word, model := m } x m).escalateLanding e.landing x

/-- R203: the errors that an operation's landing reads meet. -/
def State.landErrors (s : State) (es : List LandErr) : State := es.foldl State.landError s

/-! ### The blocks of planes (R173, R187, R192 to R194) -/

/-- The blocks that the planes at first segments `segs` cover. -/
def planeBlocks (segs : List Nat) : List Nat := (segs.flatMap (fun g => (List.range 16).map (fun k => (g + k) / 5))).dedup

/-- How a fetch of planes ends: refused, waiting for second fetches, or with the weights of each plane and whether a block of it is poisoned. -/
inductive Load where
  | stop (code : Nat)
  | hold (s : State)
  | ok (s : State) (planes : List (List Int × Bool))
  deriving DecidableEq, Repr

/-- One plane out of fetched blocks: 16 segments from the segment g. -/
def planeFrom (blocks : List (Nat × List Int × Bool)) (g : Nat) : List Int × Bool :=
  let segs := (List.range 16).map (fun k =>
    let n := g + k
    match blocks.find? (fun e => e.1 == n / 5) with
    | some (_, ws, bad) => (if bad then List.replicate segWeights 0 else (ws.drop (n % 5 * segWeights)).take segWeights, bad)
    | none => (List.replicate segWeights 0, true))
  (segs.flatMap (·.1), segs.any (·.2))

/-- R187: where a data area lies, as a block buffer knows it. -/
def Arr.src : Arr → Nat × Nat
  | .land b => (b.landing + 1, b.base * 64)
  | .area base _ => (0, base)

/-- A block that a buffer holds, as the expander delivers it without a fetch. -/
def HeldBlock.fetched (h : HeldBlock) : Fetched := ⟨0, h.data.length, !h.bad, h.bad, h.raw, h.data, (storedWeights h.raw h.data).getD [], 0⟩

/-- R187: block b of a data area, if a buffer of the flight holds it. -/
def FlightSt.held (y : FlightSt) (src : Nat × Nat) (b : Nat) : Option HeldBlock := y.buffers.find? (fun h => h.src == src && h.block == b)

/-- R187: the four buffers after a delivery: the blocks of the last plane, of which zero blocks take none. `bad` says which arrived poisoned. -/
def heldAfter (src : Nat × Nat) (last : List Nat) (fs : List (Nat × Fetched)) (bad : Nat → Bool) : List HeldBlock :=
  ((fs.filter (fun p => last.contains p.1 && (decide (0 < p.2.len) || bad p.1))).map (fun p =>
    (⟨src, p.1, p.2.raw, p.2.data, bad p.1⟩ : HeldBlock))).take 4

/-- R187, R192 to R194: fetch the planes that begin at segments `wsegs` of a tensor. In a rerun (`again`, R121) the second fetch of a block that fails
follows at once. -/
def State.loadPlanes (s0 : State) (c : OpCtx) (ti : Nat) (wsegs : List Nat) (hw : PassHw) (again : Bool) : Load :=
  match s0.arraysOf c ti with
  | .error e => .stop e
  | .ok x =>
    let segs := wsegs.map (· + x.first)
    let bs := planeBlocks segs
    if !([x.data, x.index, x.check].all (s0.arrLocal c.hall c.tenant)) then .stop 0x3070
    else if bs.any (fun b => decide (x.index.len < 4 * b + 4) || decide (x.check.len < 4 * b + 4)) then .stop 0x3077
    else
      let s0 := s0.bitErrors hw.errs
      let y := s0.flight c.fk
      let src := x.data.src
      let fs := bs.map (fun b => (b, ((y.held src b).map HeldBlock.fetched).getD (s0.fetchBlock c.hall c.tenant x b)))
      let new := fs.filter (fun p => (y.held src p.1).isNone)
      let s := new.foldl (fun s p => s.fetchTouch hw.errs c.hall c.tenant x p.1 p.2) s0
      let done := y.resolved
      let failing := new.filter (fun p => (done.all (fun r => r.1 != p.1)) && !p.2.marked && (!p.2.good || hw.fetchFails.contains p.1))
      if s0.mode = .safeStop then .hold s0
      else if failing ≠ [] ∧ !again then
        if y.refetch ≠ [] then .hold s0
        else
          let s := s.setFlight c.fk { (s.flight c.fk) with refetch := failing.map (·.1) }
          .hold (s.counts [(Od.checkFails, failing.length), (Od.t5InvalidSeen, (failing.map (·.2.bad5)).sum)])
      else
        let s := failing.foldl (fun s p =>
          let s := s.counts [(Od.checkFails, 1), (Od.t5InvalidSeen, p.2.bad5)]
          if p.2.good then s.count Od.checkRecovered 1 else s.poisonBlock c ti x p.1 p.2) s
        let bad := fun (b : Nat) => match fs.find? (fun p => p.1 == b) with
          | some p => p.2.marked || !p.2.good || done.any (fun r => r.1 == b && !r.2)
          | none => true
        let already := (new.filter (fun p => p.2.marked && done.all (fun r => r.1 != p.1))).length
        let last := planeBlocks ((segs.getLast?).toList)
        .ok ((s.setFlight c.fk { (s.flight c.fk) with refetch := [], resolved := [], buffers := heldAfter src last fs bad }).count
            Od.poisonedFetches already)
          (segs.map (planeFrom (fs.map (fun p => (p.1, p.2.ws, bad p.1)))))

/-- R192 to R194: the second fetch of a block ends; `ok` says that nothing but its stored bytes can fail it. -/
def execBlockRefetchDone (f : FlightId) (block : Nat) (ok : Bool) (s : State) : Result :=
  if !flightOk f then .refused .noSuchUnit
  else
    let fk := flightKey f
    let y := s.flight fk
    match s.runningProg fk with
    | none => .next s
    | some p =>
      match p.next with
      | .error _ => .next s
      | .ok w =>
        if !(y.refetch.contains block) then .next s
        else
          let c : OpCtx := ⟨fk, p, w, false⟩
          let ti := bits w 111 107
          let out := fun (s : State) (good : Bool) =>
            s.setFlight fk { (s.flight fk) with refetch := (s.flight fk).refetch.filter (· != block),
                                                resolved := (s.flight fk).resolved ++ [(block, good)] }
          match s.arraysOf c ti with
          | .error _ => .next (out s false)
          | .ok x =>
            let b := s.fetchBlock c.hall c.tenant x block
            let s := s.fetchTouch [] c.hall c.tenant x block b
            if b.good && ok then .next (((out s true).count Od.checkRecovered 1).tick)
            else if b.marked then .next (((out s false).count Od.poisonedFetches 1).tick)
            else .next (((out s false).poisonBlock c ti x block b).tick)

end Sys2Proof.Machine
end

