-- ==== Sys2Proof/Machine/Passes.lean ====
section
/-!
DEFINITION. Passes.lean: what dense ternary passes, bit-serial products, outlier passes and count passes bring to their tiles (R95 to R109, R124 to R135, R149).
How it enters them, and what a residue mismatch does, is in Rerun.lean.
-/

namespace Sys2Proof.Machine

/-! ### Operands -/

/-- Treads and lanes of the flight of an operation. -/
def OpCtx.T (c : OpCtx) : Nat := treadsOf c.g
def OpCtx.W (c : OpCtx) : Nat := lanesOf c.g

/-- R100, R102, R125: the streamed operand of a pass: its format (1 N8, 2 N4) and its items. On a P-flight they are rows of the activation buffer, from
channel ch0 on; on a G-flight the token store slots of a group. -/
def State.streamed (s : State) (c : OpCtx) (act row0 n ch0 group : Nat) : Except Nat (Nat × List (List Elem)) :=
  if c.g then .ok (if s.tokN4 c.fk 0 group then 2 else 1, (List.range n).map (fun q => s.tokItem c.fk q group))
  else match s.need c.since c.fk act [1, 2] with
    | .error e => .error e
    | .ok b =>
      if (List.range n).all (fun q => b.rowOk row0 q) then .ok (b.fmt, (List.range n).map (fun q => s.actItem b row0 q ch0 c.T))
      else .error 0x3061

/-- R149: the mask of a PASS word for n items, as its buffer and first row. -/
def State.passMask (s : State) (c : OpCtx) (w n : Nat) : Except Nat (Option (Buf × Nat)) :=
  if !(bit w 27) then .ok none
  else match s.need c.since c.fk (bits w 26 19) [4] with
    | .error e => .error e
    | .ok b => if (List.range n).all (fun q => b.rowOk (bits w 18 3) q) then .ok (some (b, bits w 18 3)) else .error 0x3061

/-- R149: the mask's bit for item q and channel ch, and whether it is poisoned. -/
def State.maskBit (s : State) (m : Option (Buf × Nat)) (q ch : Nat) : Bool × Bool :=
  match m with
  | none => (true, false)
  | some (b, r0) => s.b1At b (b.row r0 q) ch

/-- R149, R109: an element under its mask bit. -/
def Elem.under (e : Elem) (m : Bool × Bool) : Elem := { e with act := e.act && m.1, poison := e.poison || m.2 }

/-- R76: the exponent window of a flight for an operand format. -/
def spreadFor (g : Bool) (fmt : Nat) : Nat := if g then (if fmt = 2 then 10 else 6) else (if fmt = 2 then 8 else 4)

/-- R125: bits of an element of a format. -/
def fmtWidth (fmt : Nat) : Nat := if fmt = 2 then 4 else 8

/-! ### What an operation brings to its tiles -/

/-- What a pass, INJECT or COMBINE comes to before its sums enter a tile: it is refused, the sequencer is held, or it brings rows to tiles. -/
inductive AccRes where
  | stop (s : State) (code : Nat)
  | hold (s : State)
  | ok (s : State) (l : List Accum)
  deriving DecidableEq, Repr

/-- R525: the open step of the job read a poisoned weight block. -/
def State.readBadWeight (s : State) (c : OpCtx) (bad : Bool) : State :=
  if bad then s.modStep c.job (fun x => { x with weight := true }) else s

/-- R93, R97: the flight takes up a plane. -/
def State.takePlane (s : State) (fk : Nat) (plane : KMap Nat) (bad : Bool) : State :=
  s.setFlight fk { (s.flight fk) with active := plane, staged := plane, planeBad := bad, planeFree := false }

/-- The tread rows of a flight's active plane; undefined codes are free (R243). -/
def State.activeRows (s : State) (c : OpCtx) : List (List Int) :=
  if (s.flight c.fk).planeFree then
    (List.range c.T).map (fun i => (List.range c.W).map (fun j => siteWeight (Config.freeNat s.free (c.fk * 65536 + i * c.W + j) % 4)))
  else planeRows c.W c.T 0 (s.flight c.fk).active

/-- R105: TARGET of a word is refused. -/
def OpCtx.badTarget (c : OpCtx) (t n : Nat) : Option Nat := targetCheck c.g t n

/-! ### PASS (R226) -/

/-- R95 to R109, R149: a dense ternary pass. -/
def State.passAccs (s : State) (hw : PassHw) (again : Bool) (c : OpCtx) : AccRes :=
  let w := c.word
  let n := bits w 49 44 + 1
  let target := bits w 43 28
  let group := bits w 57 50
  let ch0 := group * c.T
  match c.badTarget target n, s.streamed c (bits w 81 74) (bits w 73 58) n ch0 group, s.passMask c w n with
  | some e, _, _ => .stop s e
  | _, .error e, _ => .stop s e
  | _, _, .error e => .stop s e
  | none, .ok (fmt, items), .ok m =>
    let items := (items.zip (List.range n)).map (fun p =>
      (p.1.zip (List.range c.T)).map (fun e => e.1.under (s.maskBit m p.2 (ch0 + e.2))))
    let run := fun (s : State) (rows : List (List Int)) =>
      let o := Operands.of (spreadFor c.g fmt) items
      let bad := (s.flight c.fk).planeBad
      let s := (s.counts (o.counters c.hall)).readBadWeight c bad
      let s := s.modProg c.fk c.slot (fun p => { p with lastPass := kset 0 target w p.lastPass })
      AccRes.ok s [⟨tgtTile target, fmt, o.clamp, o.poison || bad, SkipInfo.none, o.contribs c.W rows (tgtRow target)⟩]
    if bit w 82 then run s (s.activeRows c)
    else match s.loadPlanes c (bits w 111 107) [bits w 106 83] hw again with
      | .stop e => .stop s e
      | .hold s => .hold s
      | .ok s planes =>
        let (ws, bad) := planes.getD 0 ([], false)
        run (s.takePlane c.fk (planeOf ws) bad) (pieces c.W c.T ws)

/-! ### SERIAL_PASS (R124 to R129, R228) -/

/-- R127: slice β of a value in working width b. -/
def sliceOf (b k : Nat) (v : Int) : Int := if bit (ofInt b v) k then (if k + 1 = b then -1 else 1) else 0

/-- R127: the values of an element list in a window, sliced. -/
def sliced (spread E b k : Nat) (es : List Elem) : List Int := es.map (fun e => sliceOf b k (e.value spread E))

/-- R128: the rows that plane rows and items bring to the foot, at a base exponent, window by window, slice by slice, item by item. -/
def slicePasses (W : Nat) (rows : List (List Int)) (items : List (List Elem)) (wins : List Nat) (spread b rowBase : Nat) (e0 : Int) : List Contrib :=
  wins.flatMap (fun (E : Nat) => (List.range b).flatMap (fun (k : Nat) =>
    (items.zip (List.range items.length)).map (fun p =>
      laneRow W rows (e0 + (((E : Nat) : Int) - 128) + k) (rowBase + p.2) (sliced spread E b k p.1))))

/-- R128: the rows that a bit-serial product brings to the foot. `A` holds the stationary elements by tread and lane. -/
def serialPasses (W : Nat) (A items : List (List Elem)) (winsA winsB : List Nat) (spA spB a b rowBase : Nat) : List Contrib :=
  winsA.flatMap (fun (EA : Nat) => (List.range a).flatMap (fun (k : Nat) =>
    slicePasses W (A.map (sliced spA EA a k)) items winsB spB b rowBase ((((EA : Nat) : Int) - 128) + k)))

/-- R127, R128: the last plane that a bit-serial product takes up. -/
def lastSerialPlane (A : List (List Elem)) (winsA : List Nat) (spA a : Nat) : KMap Nat :=
  planeOf (A.flatMap (sliced spA (winsA.getLast?.getD 0) a (a - 1)))

/-- R228: a bit-serial product. -/
def State.serialAccs (s : State) (c : OpCtx) : AccRes :=
  let w := c.word
  let n := bits w 21 16 + 1
  let target := bits w 15 0
  let a := bits w 71 67
  let b := bits w 26 22
  match c.badTarget target n, s.need c.since c.fk (bits w 111 104) [1, 2], s.streamed c (bits w 66 59) (bits w 58 43) n (bits w 42 27) (bits w 66 59) with
  | some e, _, _ => .stop s e
  | _, .error e, _ => .stop s e
  | _, _, .error e => .stop s e
  | none, .ok ab, .ok (fmtB, items) =>
    let spA := a - fmtWidth ab.fmt
    let spB := b - fmtWidth fmtB
    if a < fmtWidth ab.fmt ∨ 16 < a ∨ b < fmtWidth fmtB ∨ 16 < b then .stop s 0x3032
    else
      let A := (List.range c.T).map (fun i => (List.range c.W).map (fun j => s.viewElem ab (bits w 103 88) j (bits w 87 72 + i)))
      let oA := Operands.of spA A
      let oB := Operands.of spB items
      let planes := max 1 oA.wins.length * a
      let passes := planes * (max 1 oB.wins.length * b)
      let s := s.counts
        [ (Od.zeroBlocksSkipped, zeroBlocks A.flatten + (items.map zeroBlocks).sum),
          (Od.minCodesRead, ((A ++ items).map minCodes).sum),
          (Od.expWindowSplits, (oA.wins.length - 1) + (oB.wins.length - 1)),
          (Od.itemsH0 + c.hall, passes * n), (Od.serialPasses, passes) ]
      let s := s.takePlane c.fk (lastSerialPlane A oA.wins spA a) false
      .ok s [⟨tgtTile target, 3, oA.clamp || oB.clamp, oA.poison || oB.poison, SkipInfo.none,
        serialPasses c.W A items oA.wins oB.wins spA spB a b (tgtRow target)⟩]

/-! ### OUTLIER_PASS (R130 to R132, R229) -/

/-- R74, R131: a W16 value of a record's bytes as a tread meets it. -/
def outElem (rec_ : Bytes) (place blk : Nat) (poison : Bool) : Elem :=
  let r := readOutRec rec_
  ⟨true, true, r.vals.getD place 0, r.eo, false, false, blk, outMin rec_ place, poison⟩

/-- R132: record r of slot t of a G-flight's outlier store: its 18 bytes and its poison; one never written is undefined. -/
def State.storeRec (s : State) (fk t r : Nat) : Bytes :=
  (kfind (t * 64 + r) (s.flight fk).outliers).getD ((List.range 19).map (fun i => Config.freeByte s.free (400 + fk) ((t * 64 + r) * 64 + i)))

/-- R132: the outlier lists of the tensor that last filled slot t, 16 bytes a group; with nothing filled there are none. -/
def State.storeLists (s : State) (fk t : Nat) : Bytes := (kfind (4096 + t) (s.flight fk).outliers).getD []

/-- R130, R132: the listed channels of slot t in list order: record, place, channel. -/
def State.storeListed (s : State) (fk t : Nat) : List (Nat × Nat × Nat) :=
  let b := s.storeLists fk t
  (List.range (b.length / 16)).flatMap (fun r =>
    let l := outlierList ((b.drop (16 * r)).take 16)
    (l.zip (List.range l.length)).map (fun p => (r, p.2, 256 * r + p.1)))

/-- R131: item q of an outlier pass on a P-flight, from the outlier areas of the activation row. -/
def State.outItemP (s : State) (b : Buf) (row0 q first T : Nat) (m : Option (Buf × Nat)) : List Elem :=
  let l := (s.listedChannels b).drop first
  (List.range T).map (fun i =>
    match l[i]? with
    | none => Elem.none
    | some (g, place, ch) =>
      let (r, p) := s.outRecAt b (b.row row0 q) g
      (outElem r place g p).under (s.maskBit m q ch))

/-- R131: item q of an outlier pass on a G-flight, from the outlier store. -/
def State.outItemG (s : State) (fk q first T : Nat) (m : Option (Buf × Nat)) : List Elem :=
  let l := (s.storeListed fk q).drop first
  (List.range T).map (fun i =>
    match l[i]? with
    | none => Elem.none
    | some (r, place, ch) =>
      let rec_ := s.storeRec fk q r
      (outElem (rec_.take 18) place r ((rec_.getD 18 0#8).getLsbD 0)).under (s.maskBit m q ch))

/-- R131: the items of an outlier pass. -/
def State.outItems (s : State) (c : OpCtx) (n : Nat) (m : Option (Buf × Nat)) : Except Nat (List (List Elem)) :=
  let w := c.word
  let first := bits w 82 72
  if c.g then .ok ((List.range n).map (fun q => s.outItemG c.fk q first c.T m))
  else match s.need c.since c.fk (bits w 71 64) [1, 2] with
    | .error e => .error e
    | .ok b =>
      if !b.outl then .error 0x3070
      else if (List.range n).all (fun q => b.rowOk (bits w 63 48) q) then .ok ((List.range n).map (fun q => s.outItemP b (bits w 63 48) q first c.T m))
      else .error 0x3061

/-- R131, R80: the format of an outlier pass: that of the tile, which its main pass gave it; a tile that holds none takes the main pass's operand format. -/
def State.outFmt (s : State) (c : OpCtx) (pw target : Nat) : Nat :=
  let t := (s.flight c.fk).tile (tgtTile target)
  if t.valid && (t.fmt == 1 || t.fmt == 2) then t.fmt
  else if c.g then (if s.tokN4 c.fk 0 (bits pw 57 50) then 2 else 1)
  else match s.resolve c.since c.fk (bits pw 81 74) with
    | some b => b.fmt
    | none => 1

/-- R229, R131: an outlier pass; `main` is the word of its matching PASS. -/
def State.outlierAccs (s : State) (hw : PassHw) (again : Bool) (c : OpCtx) (main : Nat) : AccRes :=
  let w := c.word
  let n := bits w 42 37 + 1
  let target := bits w 36 21
  let b := bits w 47 43
  if main = 0 then .stop s 0x3070
  else if b < 16 ∨ 24 < b then .stop s 0x3032
  else match c.badTarget target n, s.passMask c main n with
    | some e, _ => .stop s e
    | _, .error e => .stop s e
    | none, .ok m =>
      match s.outItems c n m with
      | .error e => .stop s e
      | .ok items =>
        match s.loadPlanes c (bits w 111 107) [bits w 106 83] hw again with
        | .stop e => .stop s e
        | .hold s => .hold s
        | .ok s planes =>
          let (ws, bad) := planes.getD 0 ([], false)
          let o := Operands.of (b - 16) items
          let passes := max 1 o.wins.length * b
          let s := (s.takePlane c.fk (planeOf ws) bad).counts
            [ (Od.minCodesRead, (o.items.map minCodes).sum), (Od.expWindowSplits, o.wins.length - 1), (Od.itemsH0 + c.hall, passes * n),
              (Od.serialPasses, passes), (Od.outlierPasses, 1) ]
          .ok (s.readBadWeight c bad) [⟨tgtTile target, s.outFmt c main target, false, o.poison || bad, SkipInfo.none,
            slicePasses c.W (pieces c.W c.T ws) items o.wins (b - 16) b (tgtRow target) 0⟩]

/-! ### COUNT_PASS (R133 to R135) -/

/-- R134, R135: for each lane, the matching treads c and the lane's residue of c. `codes` holds 1, −1 or 0 by tread and lane. -/
def countMatches (W : Nat) (codes : List (List Int)) (item : List (Option Bool)) : List (Int × Nat) :=
  (codes.zip item).foldl (fun acc p =>
    match p.2 with
    | none => acc
    | some b => List.zipWith (fun a (k : Int) => if k = (if b then 1 else -1) then (a.1 + 1, (a.2 + 1) % 7) else a) acc p.1) (List.replicate W (0, 0))

/-- R135: 2c − n for each lane, n being the treads presented. -/
def countSums (W : Nat) (codes : List (List Int)) (item : List (Option Bool)) : List Int :=
  (countMatches W codes item).map (fun c => 2 * c.1 - (item.filter Option.isSome).length)

/-- R135, R119: the residue of 2c − n, from the lane's residue of c. -/
def countResidues (W : Nat) (codes : List (List Int)) (item : List (Option Bool)) : List Nat :=
  (countMatches W codes item).map (fun c => res7 (2 * c.2 - (item.filter Option.isSome).length))

/-- R134, R162: the bit that an element presents: 1 for a positive value, 0 for a negative one, no activation for zero. -/
def Elem.sign (e : Elem) : Option Bool := if e.act && !e.zero && decide (e.m ≠ 0) then some (decide (0 < e.m)) else Option.none

/-- R134: the codes of a B1 buffer by tread and lane, from view row r0 and channel c0 on, and whether one of its bits is poisoned. -/
def State.b1Codes (s : State) (b : Buf) (r0 c0 T W : Nat) : List (List Int) × Bool :=
  let xs := (List.range T).map (fun i => (List.range W).map (fun j =>
    if b.rowOk r0 j && decide (c0 + i < b.channels) then
      let (v, p) := s.b1At b (b.row r0 j) (c0 + i)
      ((if v then (1 : Int) else -1), p)
    else (0, false)))
  (xs.map (fun r => r.map (·.1)), xs.any (fun r => r.any (·.2)))

/-- What the items of a count pass present: the bits by item and tread, whether a clamped block (R91) and whether poison (R109) was among them, the zero blocks
that they meet (R72), and the minimum codes (R69). -/
structure CountIn where
  bits   : List (List (Option Bool))
  clamp  : Bool
  poison : Bool
  zero   : Nat
  mins   : Nat
  deriving DecidableEq, Repr

/-- R134: the items of a count pass. -/
def State.countItems (s : State) (c : OpCtx) (h row0 n ch0 : Nat) : Except Nat CountIn :=
  if c.g then
    let xs := (List.range n).map (fun q => s.tokItem c.fk q h)
    .ok ⟨xs.map (fun es => es.map Elem.sign), xs.any (fun es => es.any (·.clamp)), xs.any (fun es => es.any (·.poison)), (xs.map zeroBlocks).sum,
      (xs.map minCodes).sum⟩
  else match s.need c.since c.fk h [4] with
    | .error e => .error e
    | .ok b =>
      if !((List.range n).all (fun q => b.rowOk row0 q)) then .error 0x3061
      else
        let xs := (List.range n).map (fun q => (List.range c.T).map (fun i =>
          if ch0 + i < b.channels then
            let (v, p) := s.b1At b (b.row row0 q) (ch0 + i)
            (some v, p)
          else (none, false)))
        .ok ⟨xs.map (fun es => es.map (·.1)), false, xs.any (fun es => es.any (·.2)), 0, 0⟩

/-- R133 to R135: a count pass. A lane without a row of the stationary tensor brings nothing; where no lane has one, nothing is promoted. -/
def State.countAccs (s : State) (c : OpCtx) : AccRes :=
  let w := c.word
  let n := bits w 31 26 + 1
  let target := bits w 25 10
  match c.badTarget target n, s.need c.since c.fk (bits w 111 104) [4], s.countItems c (bits w 71 64) (bits w 63 48) n (bits w 47 32) with
  | some e, _, _ => .stop s e
  | _, .error e, _ => .stop s e
  | _, _, .error e => .stop s e
  | none, .ok a, .ok x =>
    let (codes, pa) := s.b1Codes a (bits w 103 88) (bits w 87 72) c.T c.W
    let lanes := ((List.range c.W).filter (fun j => a.rowOk (bits w 103 88) j)).length
    let cs := (x.bits.zip (List.range n)).map (fun p =>
      (⟨0, tgtRow target + p.2, 0, (countSums c.W codes p.1).take lanes, (countResidues c.W codes p.1).take lanes⟩ : Contrib))
    let s := (s.takePlane c.fk (planeOf codes.flatten) false).counts
      [(Od.itemsH0 + c.hall, n), (Od.countPasses, 1), (Od.zeroBlocksSkipped, x.zero), (Od.minCodesRead, x.mins)]
    .ok s [⟨tgtTile target, 4, x.clamp, pa || x.poison, SkipInfo.none, if lanes = 0 then [] else cs⟩]

end Sys2Proof.Machine
end

