-- ==== Sys2Proof/Machine/Sparse.lean ====
section
/-!
DEFINITION. Sparse.lean: sparse passes (R150 to R160, R164, R165, R190, R227) and the sign predictor (R161 to R168).
-/

namespace Sys2Proof.Machine

/-! ### Prediction vectors (R162, R164, R165) -/

/-- R162: the code of block m of a vector's bytes. -/
def vectorCode (v : Bytes) (m : Nat) : Nat := bits (v.getD (m / 4) 0#8).toNat (2 * (m % 4) + 1) (2 * (m % 4))

/-- R164: what the vector says of the `per` output blocks that begin at block m0: SKIP bits and AUDIT blocks. -/
def vectorInfo (v : Bytes) (m0 per : Nat) (layer : Option Nat) : SkipInfo :=
  let code := fun (o : Nat) => vectorCode v (m0 + o)
  ⟨(List.range per).filter (fun o => code o == 1 || code o == 3), (List.range per).filter (fun o => code o == 2), layer⟩

/-! ### Rounds (R152, R159) -/

/-- R159: a block that a round carries: the lane-block it sits in, its output tile and its index in the tile. -/
structure Dealt where
  lb   : Nat
  tile : Nat
  blk  : Nat
  deriving DecidableEq, Repr

/-- R159: deal one round of at most L blocks into lane-blocks. -/
def dealRound (L : Nat) (bs : List (Nat × Nat)) : List Dealt :=
  let own := bs.foldl (fun (a : List Dealt) b => if a.any (fun d => d.lb == b.2) then a else a ++ [⟨b.2, b.1, b.2⟩]) []
  let rest := bs.filter (fun b => !own.any (fun d => d.tile == b.1 && d.blk == b.2))
  let free := (List.range L).filter (fun l => !own.any (fun d => d.lb == l))
  own ++ (rest.zip free).map (fun p => ⟨p.2, p.1.1, p.1.2⟩)

/-- R159: the rounds of a span's active output blocks, in ascending order of tile and block. -/
def dealAll (L : Nat) (bs : List (Nat × Nat)) : List (List Dealt) :=
  if bs = [] then [[]] else (pieces L (cdiv bs.length L) bs).map (dealRound L)

/-! ### Placement (R151, R155) -/

/-- R153: an entry of a lane: its fold, its channel offset within the fold, its weight. -/
structure Entry where
  fold : Nat
  ch   : Nat
  w    : Int
  deriving DecidableEq, Repr

/-- R151: the tread that carries an entry's channel in physical plane p. -/
def Entry.tread (e : Entry) (T p : Nat) : Nat := (e.ch + T * (2 * e.fold + 1) - p * (2 * e.fold + 1) % T) % T

/-- R155: the priority of an entry in plane p: (k − p) mod FI. -/
def Entry.prio (e : Entry) (FI p : Nat) : Nat := (e.fold + FI * (p + 1) - p) % FI

/-- R155: the entries of a lane that plane p takes. -/
def takenIn (T FI p : Nat) (es : List Entry) : List Entry :=
  es.filter (fun e => es.all (fun x => decide (x.tread T p ≠ e.tread T p) || decide (e.prio FI p ≤ x.prio FI p)))

/-- R155: a lane's entries plane by plane, from plane p. -/
def placeLane (T FI : Nat) : Nat → Nat → List Entry → List (List Entry)
  | 0, _, _ => []
  | n + 1, p, es =>
    if es = [] then []
    else
      let t := takenIn T FI p es
      t :: placeLane T FI n (p + 1) (es.filter (fun e => !t.contains e))

/-! ### SPARSE_PASS (R227) -/

/-- The fields of a SPARSE_PASS word. -/
structure SpanW where
  fi     : Nat
  fo     : Nat
  wseg   : Nat
  step   : Nat
  group  : Nat
  n      : Nat
  target : Nat
  deriving DecidableEq, Repr

/-- R227. -/
def spanW (w : Nat) : SpanW :=
  ⟨2 ^ bits w 82 81, bits w 80 78 + 1, bits w 106 83, bits w 77 66, bits w 41 34, bits w 33 28 + 1, bits w 27 12⟩

/-- R227: the first segments of the logical planes, by tile and then input group. -/
def SpanW.segs (x : SpanW) : List Nat :=
  (List.range x.fo).flatMap (fun t => (List.range x.fi).map (fun k => x.wseg + 16 * (k + t * x.step)))

/-- R150, R151: the items of a span, fold by fold, and the operand format. -/
def State.spanItems (s : State) (c : OpCtx) (x : SpanW) : Except Nat (Nat × List (List Elem)) :=
  (List.range x.fi).foldl (fun r k =>
    match r, s.streamed c (bits c.word 65 58) (bits c.word 57 42) x.n ((x.group + k) * c.T) (x.group + k) with
    | .error e, _ => .error e
    | _, .error e => .error e
    | .ok (_, a), .ok (f, b) => .ok (f, if k = 0 then b else List.zipWith (· ++ ·) a b)) (.ok (1, []))

/-- R152: the active input blocks of a span of `nb` blocks of 32 channels. -/
def activeBlocks (items : List (List Elem)) (nb : Nat) : List Nat :=
  (List.range nb).filter (fun b => items.any (fun es => ((es.drop (32 * b)).take 32).any (fun e => e.act && !e.zero)))

/-- R164, R165, R169: what the initialising accumulate of each tile of the span would record, and whether the vector arrived poisoned: one poisoned byte of the
vector is enough. -/
def State.spanVector (s : State) (c : OpCtx) (x : SpanW) : Except Nat (List SkipInfo × Bool) :=
  let none_ : List SkipInfo := List.replicate x.fo SkipInfo.none
  if !(bit c.word 11) then .ok (none_, false)
  else match s.need c.since c.fk (bits c.word 10 3) [8] with
    | .error e => .error e
    | .ok b =>
      let per := c.W / 32
      let first := (if x.step = 0 then 0 else x.wseg / 16 / x.step) * per
      let nb := cdiv (first + x.fo * per) 4
      let known := if s.landDefined b.since b.landing b.base then kfind (b.landing * 2 ^ 20 + b.base) s.halls.vectors else none
      let len := max nb ((known.map (·.2)).getD 0)
      if s.landPoison b.since b.landing (b.base * 64) len then .ok (none_, true)
      else
        let v := s.landBytes b.since b.landing (b.base * 64) nb
        .ok ((List.range x.fo).map (fun t => vectorInfo v (first + t * per) per (known.map (·.1))), false)

/-- R153, R154: the span map of a round: the codes of the weights of its output blocks, each in the lanes of its lane-block, in the active input blocks. `planes`
holds the logical planes by tile and input group. -/
def spanMap (T W fi : Nat) (active : List Nat) (planes : List (List (List Int))) (ds : List Dealt) : KMap Nat :=
  (List.range fi).flatMap (fun k => (List.range T).flatMap (fun i =>
    if !(active.contains ((k * T + i) / 32)) then []
    else (List.range (W / 32)).flatMap (fun lb =>
      match ds.find? (fun d => d.lb == lb) with
      | none => []
      | some d =>
        let ws := (((planes.getD (d.tile * fi + k) []).getD i []).drop (32 * d.blk)).take 32
        (ws.zip (List.range ws.length)).filterMap (fun p =>
          if p.1 = 0 then none else some ((k * T + i) * W + 32 * lb + p.2, siteCode p.1)))))

/-- R153: the entries of a lane in a span map. -/
def laneEntries (T W : Nat) (m : KMap Nat) (lane : Nat) : List Entry :=
  m.filterMap (fun e => if e.1 % W = lane then some ⟨e.1 / W / T, e.1 / W % T, siteWeight e.2⟩ else none)

/-- One round as it is placed: what it carries, and for each physical plane the entries of each lane (32 lanes per dealt block). -/
structure Round where
  dealt  : List Dealt
  planes : List (List (Dealt × List (List Entry)))
  deriving DecidableEq, Repr

/-- R155: place a round from its span map. -/
def placeRound (T W fi : Nat) (m : KMap Nat) (ds : List Dealt) : Round :=
  let lanes := ds.map (fun d => (d, (List.range 32).map (fun r => placeLane T fi (fi + 1) 0 (laneEntries T W m (32 * d.lb + r)))))
  let P := max 1 ((lanes.flatMap (fun l => l.2.map List.length)).foldl max 0)
  ⟨ds, (List.range P).map (fun p => lanes.map (fun l => (l.1, l.2.map (fun e => e.getD p []))))⟩

/-- R154: a round's map fills the flight's span map whose turn it is. -/
def State.fillMap (s : State) (fk : Nat) (m : KMap Nat) : State :=
  let x := s.flight fk
  s.setFlight fk (if x.mapTurn then { x with map1 := m, mapTurn := false } else { x with map0 := m, mapTurn := true })

/-! ### Conflict queues (R160) -/

/-- R160: what the banks count: block writes that went through a queue, and steps in which the flight stalled. -/
structure Banks where
  queues : List Nat
  queued : Nat
  stalls : Nat
  deriving DecidableEq, Repr

/-- R160: a row of sums with `ks` block writes for each bank leaves the bottom tread as soon as every bank can take its writes, one at once and the
others into its queue of 8; a step in which one cannot is stalled. The first argument bounds the stalls. -/
def Banks.row (ks : List Nat) : Nat → Banks → Banks
  | 0, b => b
  | n + 1, b =>
    let next := List.zipWith (fun q k => q + k - 1) b.queues ks
    if next.all (fun q => decide (q ≤ 8)) then
      ⟨next, b.queued + (List.zipWith (fun q k => if q = 0 then k - 1 else k) b.queues ks).sum, b.stalls⟩
    else Banks.row ks n { b with queues := b.queues.map (· - 1), stalls := b.stalls + 1 }

/-- R160: one plane and window of a round: n rows, and the steps in which none leaves. -/
def Banks.plane (b : Banks) (ks : List Nat) (n idle : Nat) : Banks :=
  let b := (List.range n).foldl (fun b _ => Banks.row ks 9 b) b
  { b with queues := b.queues.map (· - idle) }

/-- R160: a round of `passes` planes and windows: nothing queues where no bank receives two blocks and no queue holds a write. -/
def Banks.round (b : Banks) (L n T passes : Nat) (ds : List Dealt) : Banks :=
  let ks := (List.range L).map (fun o => (ds.filter (fun d => d.blk == o)).length)
  if ks.all (fun k => decide (k ≤ 1)) && b.queues.all (fun q => q == 0) then b
  else (List.range passes).foldl (fun b _ => b.plane ks n (max n (T / 4) - n)) b

/-- Entries placed in a round. -/
def Round.entries (r : Round) : Nat := (r.planes.map (fun p => (p.map (fun l => (l.2.map List.length).sum)).sum)).sum

/-- R151, R96, R160: the rows that a round brings to output tile t. -/
def Round.contribs (r : Round) (T : Nat) (o : Operands) (rowBase t : Nat) : List Contrib :=
  r.planes.flatMap (fun lanes => o.wins.flatMap (fun (E : Nat) =>
    (o.items.zip (List.range o.items.length)).flatMap (fun q =>
      let vals := q.1.map (fun e => e.value o.spread E)
      (lanes.filter (fun l => l.1.tile == t)).map (fun l =>
        (⟨((E : Nat) : Int) - 128, rowBase + q.2, 32 * l.1.blk,
          l.2.map (fun es => (es.map (fun e => e.w * vals.getD (e.fold * T + e.ch) 0)).sum),
          l.2.map (fun es => (es.map (fun e => res7 e.w * res7 (vals.getD (e.fold * T + e.ch) 0))).sum % 7)⟩ : Contrib)))))

/-- R151: the site codes, with FOLD, of a round's last physical plane. -/
def Round.lastPlane (r : Round) (T W : Nat) : KMap Nat :=
  let p := r.planes.length - 1
  (r.planes.getD p []).foldl (fun m l =>
    ((l.2.zip (List.range 32)).flatMap (fun x => x.1.map (fun e =>
      (e.tread T p * W + 32 * l.1.lb + x.2, siteCode e.w + 4 * e.fold)))).foldl (fun m e => kput e.1 e.2 m) m) []

/-- R108, R160, R164: what a sparse pass brings to its tiles. -/
def spanAccs (c : OpCtx) (x : SpanW) (fmt : Nat) (o : Operands) (infos : List SkipInfo) (bad : List Bool) (rounds : List Round) : List Accum :=
  (List.range x.fo).map (fun t =>
    ⟨tgtTile x.target + t, fmt, o.clamp, o.poison || bad.getD t false, infos.getD t SkipInfo.none,
     rounds.flatMap (fun y => y.contribs c.T o (tgtRow x.target) t)⟩)

/-- R157, R190: the counters of a sparse pass. -/
def spanCounters (c : OpCtx) (x : SpanW) (o : Operands) (active : List Nat) (outs : Nat) (rounds : List Round) : List (Nat × Nat) :=
  let nb := x.fi * c.T / 32
  let physical := (rounds.map (fun r => r.planes.length)).sum
  [ (Od.logicalPlanes, x.fi * x.fo), (Od.physicalPlanes, physical), (Od.entries, (rounds.map Round.entries).sum),
    (Od.inputBlocks, nb), (Od.inputBlocksActive, active.length), (Od.outputBlocks, x.fo * c.W / 32), (Od.outputBlocksActive, outs),
    (Od.segmentsSkipped, x.fo * (nb - active.length) * (32 * c.W / segWeights)),
    (Od.zeroBlocksSkipped, (o.items.map zeroBlocks).sum),
    (Od.minCodesRead, (o.items.map minCodes).sum),
    (Od.expWindowSplits, o.wins.length - 1), (Od.itemsH0 + c.hall, physical * (max 1 o.wins.length * x.n)) ]

/-- R150, R105: the span lies within the flight's tiles. -/
def spanCheck (c : OpCtx) (x : SpanW) : Option Nat :=
  if 8 < x.fi * x.fo ∨ (c.g ∧ 2 < x.fo) then some 0x3051
  else (c.badTarget x.target x.n).orElse (fun _ => if tilesOf c.g < tgtTile x.target + x.fo then some 0x3012 else none)

/-- R156, R163: the planes of the spans that name a layer's vector count for it. -/
def State.countLayer (s : State) (infos : List SkipInfo) (logical physical : Nat) : State :=
  match infos.findSome? (·.layer) with
  | none => s
  | some k =>
    match kfind k s.halls.layers with
    | none => s
    | some l =>
      { s with halls := { s.halls with layers := kput k { l with logical := l.logical + logical, physical := l.physical + physical } s.halls.layers } }

/-- R160, R229: a sparse pass is the main pass of the outlier passes into its tiles (DEDUCED, log entry 78). -/
def State.noteSpan (s : State) (c : OpCtx) (x : SpanW) : State :=
  s.modProg c.fk c.slot (fun p => { p with lastPass := (List.range x.fo).foldl (fun m t => kset 0 (x.target + t) c.word m) p.lastPass })

/-- R227: a sparse pass. -/
def State.sparseAccs (s : State) (hw : PassHw) (again : Bool) (c : OpCtx) : AccRes :=
  let x := spanW c.word
  match spanCheck c x, s.spanItems c x, s.spanVector c x with
  | some e, _, _ => .stop s e
  | _, .error e, _ => .stop s e
  | _, _, .error e => .stop s e
  | none, .ok (fmt, items), .ok (vec, vbad) =>
    match s.loadPlanes c (bits c.word 111 107) x.segs hw again with
    | .stop e => .stop s e
    | .hold s => .hold s
    | .ok s planes =>
      let infos := (List.range x.fo).map (fun t =>
        let y := (s.flight c.fk).tile (tgtTile x.target + t)
        if y.valid || again then (⟨y.skip, y.audit, y.layer⟩ : SkipInfo) else vec.getD t SkipInfo.none)
      let outs := (List.range x.fo).flatMap (fun t => ((List.range (c.W / 32)).filter (fun o =>
        !((infos.getD t SkipInfo.none).skip.contains o))).map (fun o => (t, o)))
      let active := activeBlocks items (x.fi * c.T / 32)
      let rows := planes.map (fun p => pieces c.W c.T p.1)
      let deals := (dealAll (c.W / 32) outs).map (fun ds => (ds, spanMap c.T c.W x.fi active rows ds))
      let rounds := deals.map (fun d => placeRound c.T c.W x.fi d.2 d.1)
      let o := Operands.of (spreadFor c.g fmt) items
      let bad := (List.range x.fo).map (fun t => (List.range x.fi).any (fun k => (planes.getD (t * x.fi + k) ([], false)).2))
      let banks : Banks := rounds.foldl (fun (b : Banks) r => b.round (c.W / 32) x.n c.T (r.planes.length * max 1 o.wins.length) r.dealt)
        ⟨List.replicate (c.W / 32) 0, 0, 0⟩
      let s := (s.counts (spanCounters c x o active outs.length rounds)).counts
        [(Od.vectorPoison, if vbad then 1 else 0), (Od.conflictQueued, banks.queued), (Od.conflictStalls, banks.stalls)]
      let s := deals.foldl (fun s d => s.fillMap c.fk d.2) s
      let s := (s.takePlane c.fk ((rounds.getLast?.map (fun r => r.lastPlane c.T c.W)).getD []) (bad.any id)).readBadWeight c (bad.any id)
      let s := s.countLayer vec (x.fi * x.fo) ((rounds.map (fun r => r.planes.length)).sum)
      .ok (s.noteSpan c x) (spanAccs c x fmt o infos bad rounds)

/-! ### PREDICT (R161 to R168) -/

/-- R163, R170: the active mode of a layer. -/
def State.activeMode (s : State) (l : PredLayer) : Nat :=
  let m := min l.mode (s.odGet Od.predModeCap)
  if l.fallback then min m 1 else m

/-- Log entry 35: the fields of a parameter block. -/
structure PredParam where
  pthr   : Int
  blocks : Nat
  theta  : Dy
  sketch : List Nat
  k      : List Nat
  deriving DecidableEq, Repr

/-- Log entry 35: the parameter block that bytes spell, for T sketch channels and `outs` output blocks. -/
def predParam (b : Bytes) (T outs : Nat) : PredParam :=
  let nb := leField b 2 2
  ⟨toInt 16 (leField b 0 2), nb, ⟨toInt 32 (leField b 4 4), toInt 16 (leField b 8 2)⟩,
   (List.range T).map (fun i => leField b (16 + 2 * i) 2), (List.range (outs * nb)).map (fun i => leField b (16 + 2 * T + i) 1)⟩

/-- An element of an item at an input channel of the layer. -/
def State.predElem (s : State) (c : OpCtx) (b : Option Buf) (row0 q ch : Nat) : Elem :=
  match b with
  | some b => s.viewElem b row0 q ch
  | none => s.tokElem c.fk q (ch / 64) (ch % 64)

/-- R166: U_b(q): 0 for a zero block, otherwise the power of two at or above the largest magnitude. -/
def blockBound (es : List Elem) : Dy :=
  let mx := (es.map (fun e => if e.act && !e.zero then e.m.natAbs else 0)).foldl max 0
  if mx = 0 then Dy.zero else ⟨1, ((((List.range 8).find? (fun k => decide (mx ≤ 2 ^ k))).getD 7 : Nat) : Int) + ((es.head?.map (·.e8)).getD 0 : Nat) - 128⟩

/-- R166: the sum over an item's listed W16 outlier values. -/
def State.outlierBound (s : State) (c : OpCtx) (b : Option Buf) (row0 q : Nat) : Dy × Bool :=
  let terms : List (Dy × Bool) := match b with
    | some b => if b.outl then (s.listedChannels b).map (fun l =>
        let (r, p) := s.outRecAt b (b.row row0 q) l.1
        let x := readOutRec r
        ((⟨(x.vals.getD l.2.1 0).natAbs, (x.eo : Nat) - 128⟩ : Dy), p)) else []
    | none => (s.storeListed c.fk q).map (fun l =>
        let x := readOutRec ((s.storeRec c.fk q l.1).take 18)
        (⟨(x.vals.getD l.2.1 0).natAbs, (x.eo : Nat) - 128⟩, ((s.storeRec c.fk q l.1).getD 18 0#8).getLsbD 0))
  (terms.foldl (fun a t => a.add t.1) Dy.zero, terms.any (·.2))

/-- R166: the bound of output block o for an item with block bounds `us`. -/
def outputBound (x : PredParam) (us : List Dy) (out : Dy) (o : Nat) : Dy :=
  (us.zip (List.range us.length)).foldl (fun a p => a.add ⟨p.1.m * (x.k.getD (o * x.blocks + p.2) 0 : Nat), p.1.e⟩) out

/-- R162, R163, R166, R168: the codes of a layer's output blocks in order, the blocks predicted inactive counted so far, from the predictions. -/
def codeBlocks (mode shift : Nat) (proven : Nat → Bool) : Nat → Nat → List Bool → List Nat × Nat
  | _, n, [] => ([], n)
  | o, n, p :: t =>
    if !p then let (l, m) := codeBlocks mode shift proven (o + 1) n t; (0 :: l, m)
    else if mode = 1 then let (l, m) := codeBlocks mode shift proven (o + 1) n t; ((if proven o then 3 else 0) :: l, m)
    else let (l, m) := codeBlocks mode shift proven (o + 1) (n + 1) t; ((if (n + 1) % 2 ^ shift = 0 then 2 else 1) :: l, m)

/-- R162: the bytes of a vector. -/
def vectorBytes (codes : List Nat) : Bytes :=
  (List.range (cdiv codes.length 4)).map (fun i =>
    BitVec.ofNat 8 ((List.range 4).map (fun k => codes.getD (4 * i + k) 0 * 4 ^ k)).sum)

/-- R162: what a prediction reads: for each output block whether it is predicted inactive, whether it is proven under R166, and poison. -/
def State.predictions (s : State) (c : OpCtx) (planes : Buf) (act : Option Buf) (row0 n tiles : Nat) (x : PredParam) : List Bool × (Nat → Bool) × Bool :=
  let per := c.W / 32
  let sketch := (List.range n).map (fun q => x.sketch.map (fun ch => s.predElem c act row0 q ch))
  let signs := sketch.map (fun es => es.map Elem.sign)
  let tileCodes := (List.range tiles).map (fun t => s.b1Codes planes (t * c.W) 0 c.T c.W)
  let below := tileCodes.map (fun p => signs.map (fun it => (countSums c.W p.1 it).map (fun (v : Int) => decide (v < x.pthr))))
  let inactive := below.flatMap (fun its => (List.range per).map (fun o => its.all (fun ls => ((ls.drop (32 * o)).take 32).all id)))
  let us := (List.range n).map (fun q => (List.range x.blocks).map (fun b =>
    (List.range 32).map (fun i => s.predElem c act row0 q (32 * b + i))))
  let outs := (List.range n).map (fun q => s.outlierBound c act row0 q)
  let bounds := (us.map (fun l => l.map blockBound)).zip (outs.map (·.1))
  let proven := fun (o : Nat) => bounds.all (fun p => (outputBound x p.1 p.2 o).le x.theta)
  let poison := tileCodes.any (·.2) || sketch.any (fun es => es.any (·.poison)) ||
    us.any (fun l => l.any (fun es => es.any (·.poison))) || outs.any (·.2)
  (inactive, proven, poison)

/-- R162, R165, R169: a prediction vector, its layer and its length. -/
def State.noteVector (s : State) (b : Buf) (layer len : Nat) : State :=
  { s with halls := { s.halls with vectors := kput (b.landing * 2 ^ 20 + b.base) (layer, len) s.halls.vectors } }

/-- R162 to R168: the prediction operation, in the hall's predictor unit. -/
def State.predictBody (c : OpCtx) (s : State) : State × OpRes :=
  let w := c.word
  let l := hallLanding c.hall
  let n := bits w 63 58 + 1
  let tiles := bits w 57 50 + 1
  let row0 := bits w 79 64
  let key := c.prog.img.model * 65536 + bits w 111 96
  let outs := tiles * (c.W / 32)
  let act : Except Nat (Option Buf) := if c.g then .ok none else (s.need c.since l (bits w 87 80) [1, 2]).map some
  match kfind key s.halls.layers, s.need c.since l (bits w 95 88) [4], act, s.need c.since l (bits w 49 42) [8], s.need c.since l (bits w 41 34) [7] with
  | none, _, _, _, _ => (s, .stop 0x3070)
  | _, .error e, _, _, _ => (s, .stop e)
  | _, _, .error e, _, _ => (s, .stop e)
  | _, _, _, .error e, _ => (s, .stop e)
  | _, _, _, _, .error e => (s, .stop e)
  | some layer, .ok planes, .ok act, .ok vec, .ok par =>
    let rowsOk := match act with | some b => (List.range n).all (fun q => b.rowOk row0 q) | none => true
    if !vec.writable || !rowsOk || !planes.rowOk (tiles * c.W - 1) 0 then (s, .stop 0x3061)
    else if vec.bytesLen < cdiv outs 4 then (s, .stop 0x3077)
    else
      let mode := s.activeMode layer
      let raw := s.landBytes par.since par.landing (par.base * 64) par.bytesLen
      let x := predParam raw c.T outs
      let plen := min par.bytesLen (16 + 2 * c.T + outs * x.blocks)
      let pp := s.landPoison par.since par.landing (par.base * 64) plen
      let (inactive, proven, poison) := s.predictions c planes act row0 n tiles x
      let (codes, count) := if mode = 0 then (List.replicate outs 0, layer.count)
        else codeBlocks mode (s.odGet Od.auditShift) proven 0 layer.count inactive
      let skipped := (codes.filter (fun k => k == 1 || k == 3)).length
      let bad := decide (mode ≠ 0) && (poison || pp)
      let s := s.landWrite vec.landing (vec.base * 64) (vectorBytes codes) bad c.tenant
      let layers := kput key { layer with count := count, skipped := layer.skipped + skipped } s.halls.layers
      let s : State := { s with halls := { s.halls with layers := layers } }
      let s := s.counts
        [ (Od.boundProven, (codes.filter (· == 3)).length), (Od.countPasses, if mode = 0 then 0 else tiles) ]
      let s := s.noteVector vec key (cdiv outs 4)
      (s.tick, .open_)

/-- R162: PREDICT. -/
def execPredict (f : FlightId) (s : State) : Result :=
  if !flightOk f then .refused .noSuchUnit else .next (s.issueOp f (isOp 0x15) State.predictBody)

end Sys2Proof.Machine
end

