-- ==== Sys2Proof/Machine/FootOps.lean ====
section
/-!
DEFINITION. FootOps.lean: the foot operations (R110 to R118, R230): what a drain writes, RETAG, RELEASE, what INJECT brings, STATSCALE, REDUCE, and the audit of a tile
(R169, R170).
-/

namespace Sys2Proof.Machine

/-- R525: the open step of a job is poisoned. -/
def State.stepPoison (s : State) (job : Nat) (bad : Bool) : State :=
  if bad then s.modStep job (fun x => { x with poison := true }) else s

/-- R143: the binding slot g through which a consumer of a kind draws, or the code with which it may not. -/
def OpCtx.slotFor (c : OpCtx) (g : Nat) (kind : Bind → Bool) : Except Nat Bind :=
  let b := c.prog.img.bind g
  if kind b then .ok b else .error (if b.used then 0x3030 else 0x3031)

/-- The foot descriptor of a FOOT word. -/
def OpCtx.desc (c : OpCtx) : Nat := bits c.word 63 0

/-- R230: ROW0 and CH0 of a FOOT word. -/
def OpCtx.row0 (c : OpCtx) : Nat := bits c.word 111 96
def OpCtx.ch0 (c : OpCtx) : Nat := bits c.word 95 80

/-! ### The audit (R169, R170) -/

/-- R169, R170: one audited block of a layer, whether it missed. -/
def State.auditBlock (s : State) (key : Nat) (miss : Bool) : State :=
  match kfind key s.halls.layers with
  | none => s
  | some l =>
    let win := (miss :: l.window).take 256
    let misses := (win.filter id).length
    let fall := decide (s.odGet Od.missLimit < misses) && !l.fallback
    let l := { l with window := win, audits := l.audits + 1, misses := l.misses + (if miss then 1 else 0), fallback := l.fallback || fall }
    let s : State := { s with halls := { s.halls with layers := kput key l s.halls.layers } }
    let s := s.counts [(Od.audits, 1), (Od.auditMisses, if miss then 1 else 0), (Od.fallbacks, if fall then 1 else 0)]
    if fall then s.logEv { code := 0x3050, model := key / 65536, detail := leBytes 2 (key % 65536) } else s

/-- R169: a drain of a tile notes which AUDIT blocks it saw leave stage 4 as non-zero; `rows` holds the values leaving stage 4. -/
def Tile.noteDrain (t : Tile) (rows : List (List Dy)) : Tile :=
  let seen := t.audit.filter (fun o => rows.any (fun r => ((r.drop (32 * o)).take 32).any (fun x => decide (x.m ≠ 0))))
  { t with drained := true, missed := (t.missed ++ seen).dedup }

/-- R169: a drained tile is audited when it is released: the drains with KEEP before it count with the last one. -/
def State.auditTile (s : State) (t : Tile) : State :=
  match t.layer with
  | none => s
  | some key => if t.drained then t.audit.foldl (fun s o => s.auditBlock key (t.missed.contains o)) s else s

/-- R118, R164, R169: tile i is released. -/
def State.releaseTile (s : State) (fk i : Nat) : State := (s.auditTile ((s.flight fk).tile i)).setTile fk i Tile.reset

/-! ### DRAIN (R113 to R116) -/

/-- R86: a scale code as the foot applies it; an invalid code, which nothing refuses here, acts as a free one. -/
def State.scaleCode (s : State) (code k : Nat) : Nat := if sasValid code then code else Config.freeNat s.free k % 65536

/-- R113: the scales of a drain: the lane scale of lane j, the row scale of row r, absent where there is none, and whether a vector arrived poisoned. -/
structure Scales where
  lane   : Option (List Nat)
  row    : Option (List Nat)
  poison : Bool
  deriving DecidableEq, Repr

/-- R113: read n scales from entry k0 of a vector. -/
def State.scaleVector (s : State) (c : OpCtx) (h k0 n : Nat) : Except Nat (List Nat × Bool) :=
  match s.need c.since c.fk h [6] with
  | .error e => .error e
  | .ok b =>
    if b.bytesLen < 2 * (k0 + n) then .error 0x3077
    else
      let xs := (List.range n).map (fun i => s.sasAt b (k0 + i))
      .ok ((xs.zip (List.range n)).map (fun p => s.scaleCode p.1.1 p.2), xs.any (·.2))

/-- R110, R113: the scales that SCALE_SRC names. -/
def State.drainScales (s : State) (c : OpCtx) (d : DrainD) : Except Nat Scales :=
  match d.scaleSrc with
  | 0 => .ok ⟨none, none, false⟩
  | 1 => (s.scaleVector c d.aux 0 c.W).map (fun x => ⟨some x.1, none, x.2⟩)
  | 2 => (s.scaleVector c d.aux d.rowBase d.rows).map (fun x => ⟨none, some x.1, x.2⟩)
  | _ =>
    match s.scaleVector c d.aux 0 c.W, s.scaleVector c (d.aux + 1) d.rowBase d.rows with
    | .ok x, .ok y => .ok ⟨some x.1, some y.1, x.2 || y.2⟩
    | .error e, _ => .error e
    | _, .error e => .error e

/-- R115, R214: the stored records of a drain's rows, where it uses any; none where it has no stat record vector. A drain that writes them writes through no
handle with RO. -/
def State.drainStats (s : State) (c : OpCtx) (h rowBase rows : Nat) (use write : Bool) : Except Nat (Option (Buf × List (StatRec × Bool))) :=
  if !use then .ok none
  else match s.need c.since c.fk h [5] with
    | .error e => .error e
    | .ok b =>
      if write && !b.writable then .error 0x3061
      else if b.bytesLen < 16 * (rowBase + rows) then .error 0x3077
      else .ok (some (b, (List.range rows).map (fun i => s.statAt b (rowBase + i))))

/-- R113: the output buffer of a drain, where it has one. -/
def State.drainOut (s : State) (c : OpCtx) (d : DrainD) : Except Nat (Option Buf) :=
  if d.out = 0 then .ok none
  else match s.need c.since c.fk d.dst [d.out] with
    | .error e => .error e
    | .ok b =>
      if !b.writable || !((List.range d.rows).all (fun i => b.footOk c.row0 (d.rowBase + i))) then .error 0x3061 else .ok (some b)

/-- One row as it leaves stage 4. -/
structure DrainedRow where
  row    : Nat
  vals   : List Dy
  max    : Option Dy
  clamps : Nat
  deriving DecidableEq, Repr

/-- R113, stages 1 to 4 for every row of a drain. -/
def State.drainRows (s : State) (c : OpCtx) (d : DrainD) (t : Tile) (x : Scales) (st : Option (Buf × List (StatRec × Bool))) : List DrainedRow :=
  (List.range d.rows).map (fun i =>
    let r := d.rowBase + i
    let off := if d.offset then (st.bind (fun p => p.2[i]?)).bind (·.1.max) else none
    let lane := x.lane.map (fun l => fun (j : Nat) => l.getD j 0)
    let (scaled, vals, n) := drainRow t c.W d (s.tableWord c.fk d.table) lane (x.row.map (fun l => l.getD i 0)) off r
    ⟨r, vals, rowMax t scaled, n⟩)

/-- R115: write the records of a drain. -/
def State.writeStats (s : State) (c : OpCtx) (d : DrainD) (st : Option (Buf × List (StatRec × Bool))) (rows : List DrainedRow) (poison : Bool) : State :=
  match st with
  | none => s
  | some (b, old) =>
    if d.stat = 0 then s
    else (rows.zip old).foldl (fun s p =>
      let (ps, n) := statParts d.statInit d.stat p.2.1 p.1.max (p.1.vals.foldl Dy.add Dy.zero)
      (ps.foldl (fun s q => s.landWrite b.landing (b.base * 64 + 16 * p.1.row + q.1) q.2 poison c.tenant) s).count Od.statScaleRoundings n) s

/-- R113 stage 6, R114: write one row as N8 or N4. -/
def State.writeBlocks (s : State) (c : OpCtx) (t : Tile) (b : Buf) (gen : Option Nat) (poison : Bool) (x : DrainedRow) : State :=
  let lanes := min c.W (b.channels - c.ch0)
  let (s, blocks) := match gen with
    | some g => let (s, bs) := s.drawRequest c.hall g 16 c.W; (s, some bs)
    | none => (s, none)
  let vals := ((x.vals.zip (List.range c.W)).take lanes).map (fun p => (p.1, blocks.map (drawAt 16 p.2)))
  let listed := if b.outl then s.listedChannels b else []
  let (bs, recs, clamps) := requantRow (b.fmt == 2) t.sat t c.ch0 listed vals
  let s := s.counts
    [ (Od.zeroBlocksWritten, (bs.filter (·.zero)).length), (Od.clampOrigin, clamps),
      (Od.clampInherited, if t.sat then bs.length - clamps else 0) ]
  s.writeRow b (b.footRow c.row0 x.row) (rowParts (b.fmt == 2) b.channels c.ch0 bs recs) poison c.tenant

/-- R113: the exponent at which a drain to S48 words writes: the lowest among its non-zero values; with none, the tile's, or 0. The exponent of an exact value is the
one at which the stages before form it, with no bit of it taken away (DESIGN CHOICE, log entry 79). -/
def outExp (t : Tile) (rows : List DrainedRow) : Int :=
  match ((rows.flatMap (·.vals)).filterMap (fun x => if x.m = 0 then none else some x.e)).min? with
  | some e => e
  | none => if t.valid then t.lsb.getD 0 else 0

/-- R78, R113: write one row as S48 words at exponent e; how many values took a bound. -/
def State.writeWords (s : State) (c : OpCtx) (b : Buf) (e : Int) (poison : Bool) (x : DrainedRow) : State × Nat :=
  let vals := (x.vals.take (b.channels - c.ch0)).map (fun v => s48Clamp (v.mantAt e))
  (s.landWrite b.landing (b.rowOff (b.footRow c.row0 x.row) + 8 * c.ch0) (vals.flatMap (fun v => s48Word v.1)) poison c.tenant,
   (vals.filter (·.2)).length)

/-- R113: the output stage of a drain; whether a value took a bound. -/
def State.writeDrain (s : State) (c : OpCtx) (d : DrainD) (t : Tile) (out : Option Buf) (gen : Option Nat) (rows : List DrainedRow) (poison : Bool) :
    State × Bool :=
  match out with
  | none => (s, false)
  | some b =>
    if d.out = 3 then
      let e := outExp t rows
      let (s, n) := rows.foldl (fun (r : State × Nat) x => let (s, k) := r.1.writeWords c b e poison x; (s, r.2 + k)) (s, 0)
      ((s.setLsb b e).count Od.wideSaturations n, decide (0 < n))
    else (rows.foldl (fun s x => s.writeBlocks c t b gen poison x) s, false)

/-- R113, R123, R525: a drain whose operands stand and whose sums have passed their residue checks. A poisoned stat record, scale vector or table poisons
every row of the drain (DESIGN CHOICE, log entry 80). -/
def State.runDrain (s : State) (c : OpCtx) (d : DrainD) (x : Scales) (st : Option (Buf × List (StatRec × Bool))) (out : Option Buf)
    (gen : Option Nat) : State :=
  let t := (s.flight c.fk).tile d.tile
  let bad := t.poison && t.valid
  let useStat := d.offset || (decide (d.stat ≠ 0) && !d.statInit)
  let tab := d.tableEn && decide (kget 0 (2056 + d.table) (s.flight c.fk).tables = 1)
  let poison := bad || x.poison || tab || (useStat && (match st with | some p => p.2.any (·.2) | none => false))
  let rows := s.drainRows c d t x st
  let s := s.count Od.tableInputClamps (rows.map (·.clamps)).sum
  let s := s.writeStats c d st rows poison
  let (s, sat) := s.writeDrain c d t out gen rows poison
  let s := (s.stepPoison c.job bad).tick
  let s := s.setTile c.fk d.tile (Tile.noteDrain { t with sat := t.sat || sat } (rows.map (·.vals)))
  if d.keep then s else s.releaseTile c.fk d.tile

/-- R89, R139, R143: the generator of a drain that rounds stochastically. -/
def State.drainGen (s : State) (c : OpCtx) (d : DrainD) : Except Nat (Option Nat) :=
  if d.nearest || s.odGet Od.roundOverride == 1 || d.out == 0 || d.out == 3 then .ok none
  else (c.slotFor d.gslot (·.round)).map (fun b => some b.gen)

/-- What a drain needs besides its tile. -/
structure DrainIn where
  gen   : Option Nat
  scale : Scales
  stats : Option (Buf × List (StatRec × Bool))
  out   : Option Buf
  deriving DecidableEq, Repr

/-- R112, R113: the operands of a drain, or the code that refuses it. -/
def State.drainIn (s : State) (c : OpCtx) : Except Nat DrainIn :=
  let d := drainD c.desc
  match footCheck c.g c.desc, s.drainGen c d, s.drainScales c d,
    s.drainStats c d.statH d.rowBase d.rows (decide (d.stat ≠ 0) || d.offset) (decide (d.stat ≠ 0)), s.drainOut c d with
  | some e, _, _, _, _ => .error e
  | _, .error e, _, _, _ => .error e
  | _, _, .error e, _, _ => .error e
  | _, _, _, .error e, _ => .error e
  | _, _, _, _, .error e => .error e
  | none, .ok gen, .ok x, .ok st, .ok out => .ok ⟨gen, x, st, out⟩

/-! ### RETAG and RELEASE (R83, R111, R118) -/

/-- R83, R80: what a retag makes of a tile, or the code that refuses it. -/
def Tile.retag (t : Tile) (fmt : Nat) (k : Int) : Except Nat Tile :=
  if 4 < fmt then .error 0x3020
  else match t.lsb with
    | none => .ok { t with fmt := fmt }
    | some L => if L + k < -32768 ∨ 32766 < L + k then .error 0x3021 else .ok { t with fmt := fmt, lsb := some (L + k) }

/-- R121: what has entered a tile since its initialising accumulate, with one more operation. -/
def Tile.note (t : Tile) (r : Redo) : Tile := if t.valid then { t with work := t.work ++ [r] } else t

/-- R83, R111: RETAG. A rerun (R121) repeats it in its place (DESIGN CHOICE, log entry 81). -/
def State.retagBody (c : OpCtx) (s : State) : State × OpRes :=
  match footCheck c.g c.desc with
  | some e => (s, .stop e)
  | none =>
    let i := bits c.desc 59 56
    match ((s.flight c.fk).tile i).retag (bits c.desc 55 52) (toInt 8 (bits c.desc 51 44)) with
    | .error e => (s, .stop e)
    | .ok t => ((s.setTile c.fk i (t.note ⟨c.word, 0, [], false⟩)).holdShare c, .open_)

/-- R83: RETAG. -/
def execRetag (f : FlightId) (s : State) : Result :=
  if !flightOk f then .refused .noSuchUnit else .next (s.issueOp f (isFoot 2) State.retagBody)

/-- R118, R109, R164: RELEASE clears VALID, the tag, POISON and the SKIP bits. -/
def State.releaseBody (c : OpCtx) (s : State) : State × OpRes :=
  match footCheck c.g c.desc with
  | some e => (s, .stop e)
  | none => ((s.releaseTile c.fk (bits c.desc 59 56)).holdShare c, .open_)

/-- R118: RELEASE. -/
def execRelease (f : FlightId) (s : State) : Result :=
  if !flightOk f then .refused .noSuchUnit else .next (s.issueOp f (isFoot 3) State.releaseBody)

/-! ### INJECT (R118) -/

/-- R130: the listed channels of a buffer in a window, with group and place. -/
def State.listedIn (s : State) (b : Buf) (ch0 W : Nat) : List (Nat × Nat × Nat) :=
  if b.outl then (s.listedChannels b).filter (fun p => decide (ch0 ≤ p.2.2) && decide (p.2.2 < ch0 + W)) else []

/-- The values of a row r of a view as INJECT promotes them: (E8 or EO, lane, value) of every non-zero mantissa of a block and of every listed W16 value. A W16
value of zero takes part in the row's lowest exponent, a zero mantissa does not (DESIGN CHOICE, log entry 82). -/
def State.injectValues (s : State) (b : Buf) (r ch0 W : Nat) : List (Nat × Nat × Int) :=
  let es := (List.range W).map (fun j => (j, s.rowElem b r (ch0 + j)))
  let outs := (s.listedIn b ch0 W).map (fun p =>
    let x := readOutRec (s.outRecAt b r p.1).1
    (x.eo, p.2.2 - ch0, x.vals.getD p.2.1 0))
  (es.filterMap (fun p => if p.2.act && !p.2.zero && decide (p.2.m ≠ 0) then some (p.2.e8, p.1, p.2.m) else none)) ++ outs

/-- R118: a row as promotions, the lowest exponent first. -/
def injectContribs (W row : Nat) (vs : List (Nat × Nat × Int)) : List Contrib :=
  ((vs.map (·.1)).dedup.mergeSort (· ≤ ·)).map (fun (e : Nat) =>
    let at_ := fun (j : Nat) => (vs.filter (fun v => v.1 == e && v.2.1 == j)).map (·.2.2)
    ⟨((e : Nat) : Int) - 128, row, 0, (List.range W).map (fun j => (at_ j).sum), (List.range W).map (fun j => ((at_ j).map res7).sum % 7)⟩)

/-- What the foot notes of a row of an activation tensor beside its values: a clamped block (R91), poison (R109), and minimum codes among its block mantissas and
listed W16 values (R69; DESIGN CHOICE, log entry 83: the foot reads them as an operand port does). -/
structure RowNote where
  clamp  : Bool
  poison : Bool
  mins   : Nat
  deriving DecidableEq, Repr

/-- R69, R91, R109: the notes of row r of a view. -/
def State.rowNote (s : State) (b : Buf) (r ch0 W : Nat) : RowNote :=
  let es := (List.range W).map (fun j => s.rowElem b r (ch0 + j))
  let ls := (s.listedIn b ch0 W).map (fun p => (s.outRecAt b r p.1, p.2.1))
  ⟨es.any (fun e => e.met && e.clamp), es.any (fun e => e.met && e.poison) || ls.any (fun x => x.1.2),
   minCodes es + (ls.filter (fun x => outMin x.1.1 x.2)).length⟩

/-- R118: INJECT. -/
def State.injectAccs (s : State) (c : OpCtx) : AccRes :=
  let d := drainD c.desc
  let ch0 := d.dst * c.W + c.ch0
  match footCheck c.g c.desc, s.need c.since c.fk d.aux [1, 2] with
  | some e, _ => .stop s e
  | _, .error e => .stop s e
  | none, .ok b =>
    let rows := (List.range d.rows).map (· + d.rowBase)
    if !(rows.all (fun r => b.footOk c.row0 r)) then .stop s 0x3061
    else
      let cs := rows.flatMap (fun r => injectContribs c.W r (s.injectValues b (b.footRow c.row0 r) ch0 c.W))
      let ns := rows.map (fun r => s.rowNote b (b.footRow c.row0 r) ch0 c.W)
      .ok (s.count Od.minCodesRead (ns.map (·.mins)).sum) [⟨d.tile, b.fmt, ns.any (·.clamp), ns.any (·.poison), SkipInfo.none, cs⟩]

/-! ### STATSCALE and REDUCE (R117, R230) -/

/-- R117: a table's result as a scale: its code, and whether it lay outside the scales. -/
def scaleOf (x : Dy) : Nat × Bool :=
  if x.m = 0 then (0, false)
  else if sasOutside x then
    let m := if sasMax.lt x.abs then 63 * 512 + 64 + 8 + 1 else sasNearest sasMin
    (m + (if x.m < 0 then 32768 else 0), true)
  else (sasNearest x, false)

/-- R117: STATSCALE. -/
def State.statscaleBody (c : OpCtx) (s : State) : State × OpRes :=
  let d := drainD c.desc
  match footCheck c.g c.desc, s.drainStats c d.statH d.rowBase d.rows true false, s.need c.since c.fk d.dst [6] with
  | some e, _, _ => (s, .stop e)
  | _, .error e, _ => (s, .stop e)
  | _, _, .error e => (s, .stop e)
  | none, .ok none, .ok _ => (s, .stop 0x3060)
  | none, .ok (some (_, recs)), .ok b =>
    if !b.writable then (s, .stop 0x3061)
    else if b.bytesLen < 2 * (d.rowBase + d.rows) then (s, .stop 0x3077)
    else
      let tab := decide (kget 0 (2056 + d.table) (s.flight c.fk).tables = 1)
      let s := (recs.zip (List.range d.rows)).foldl (fun s p =>
        let (y, cl) := tableEval (s.tableWord c.fk d.table) p.1.1.sum
        let (code, out) := scaleOf y
        let s := s.landWrite b.landing (b.base * 64 + 2 * (d.rowBase + p.2)) (leBytes 2 code) (p.1.2 || tab) c.tenant
        s.counts [(Od.tableInputClamps, if cl then 1 else 0), (Od.statScaleRoundings, if out then 1 else 0)]) s
      (s.tick.holdShare c, .open_)

/-- R117: STATSCALE. -/
def execStatscale (f : FlightId) (s : State) : Result :=
  if !flightOk f then .refused .noSuchUnit else .next (s.issueOp f (isFoot 5) State.statscaleBody)

/-- R230: REDUCE combines stat record vectors. -/
def State.reduceBody (c : OpCtx) (s : State) : State × OpRes :=
  let w := c.word
  let nv := bits w 95 92 + 1
  let ne := bits w 91 86 + 1
  let pitch := bits w 85 70
  match s.need c.since c.fk (bits w 111 104) [5], s.need c.since c.fk (bits w 103 96) [5] with
  | .error e, _ => (s, .stop e)
  | _, .error e => (s, .stop e)
  | .ok src, .ok dst =>
    if !dst.writable then (s, .stop 0x3061)
    else if src.bytesLen < 16 * ((nv - 1) * pitch + ne) ∨ dst.bytesLen < 16 * ne then (s, .stop 0x3077)
    else
      let out := (List.range ne).map (fun i =>
        let rs := (List.range nv).map (fun v => s.statAt src (v * pitch + i))
        (rs.foldl (fun a r => a.combine r.1) (⟨none, Dy.zero⟩ : StatRec), rs.any (·.2)))
      let s := (out.zip (List.range ne)).foldl (fun s p =>
        let (bs, n) := p.1.1.bytes
        (s.landWrite dst.landing (dst.base * 64 + 16 * p.2) bs p.1.2 c.tenant).count Od.statScaleRoundings n) s
      (s.tick.holdShare c, .open_)

/-- R230: REDUCE. -/
def execReduce (f : FlightId) (s : State) : Result :=
  if !flightOk f then .refused .noSuchUnit else .next (s.issueOp f (isOp 0x21) State.reduceBody)

end Sys2Proof.Machine
end

