-- ==== Sys2Proof/Machine/Fills.lean ====
section
/-!
DEFINITION. Fills.lean: FETCH and STORE (R231, R232, R283 to R290), the fill unit (COPY, FILL_TOKENS, FILL_OUTLIER, FILL_TABLE, HANDLE_SET: R101, R116,
R132, R213, R225, R232) and the mask generator (R148).
-/

namespace Sys2Proof.Machine

/-! ### Units of landings -/

/-- Units of a buffer's region. -/
def Buf.units (b : Buf) : Nat := b.rows * b.pitch

/-- One 64-byte unit of a landing. -/
def State.landUnit (s : State) (since l u : Nat) : Unit64 :=
  ⟨s.landBytes since l (64 * u) 64, (List.range 8).map (fun i => s.landWordPoison since l (8 * u + i)), 0⟩

/-- Write a unit, its poisoned words as poisoned. -/
def State.putUnit (s : State) (l u : Nat) (x : Unit64) (tenant : Nat) : State :=
  (x.poison.zip (List.range 8)).foldl (fun s p =>
    s.landWrite l (64 * u + 8 * p.2) ((x.data.drop (8 * p.2)).take 8) p.1 tenant) s

/-- Write units one after another. -/
def State.putUnits (s : State) (l u : Nat) (xs : List Unit64) (tenant : Nat) : State :=
  (xs.zip (List.range xs.length)).foldl (fun s p => s.putUnit l (u + p.2) p.1 tenant) s

/-! ### FETCH and STORE (R231) -/

/-- R341, R344, R359: the cached stream and block that a device address lies in. -/
def State.cacheBlockAt (s : State) (hall a : Nat) : Option (Nat × Nat) :=
  s.serve.streams.findSome? (fun e => match e.2.cache with
    | none => none
    | some x =>
      if s.sHall e.1 ≠ hall then none
      else ((s.cacheSpans x).find? (fun b => decide (blockPlace hall b.1 ≤ a) && decide (a < blockPlace hall b.1 + b.2 * 4096))).map (fun b => (e.1, b.1)))

/-- R525, R344, R527: a Mover of sequencer or step-scheduler origin copies poison for a step: the step is poisoned; the cache blocks that hold the poisoned
addresses are noted, and whether one lies in a weight block. -/
def State.copiedPoison (s : State) (job hall : Nat) (bad : List Nat) : State :=
  let cs := (bad.filterMap (s.cacheBlockAt hall)).dedup
  let w := bad.any (fun a => (s.weightBlock a).isSome)
  (s.stepPoison job true).modStep job (fun y => { y with badCache := (y.badCache ++ cs).dedup, weight := y.weight || w })

/-- R231: the area, the offset and the landing region of a FETCH or STORE word: the first address, the area's flags, the buffer, its first unit and the
number of units. -/
def State.moverRegion (s : State) (c : OpCtx) : Except Nat (Nat × Nat × Buf × Nat × Nat) :=
  let w := c.word
  let n := bits w 67 44
  match c.prog.img.areas[bits w 111 108]?, s.resolve c.since (hallLanding c.hall) (bits w 43 36) with
  | none, _ => .error 0x3070
  | _, none => .error 0x3060
  | some a, some b =>
    if a.length < bits w 107 68 + 64 * n ∨ b.units < bits w 35 16 + n then .error 0x3077
    else .ok (a.base + bits w 107 68, a.flags, b, bits w 35 16, n)

/-- R231, R286: the descriptor of a FETCH or STORE, with the program's tenant and class; `src` and `dst` give a space and an address. -/
def OpCtx.moverDesc (c : OpCtx) (src dst : Nat × Nat) (n : Nat) (shared : Bool) : Desc :=
  { id := 0, hall := c.hall, src := src.2, dst := dst.2, len := 64 * n, srcSpace := src.1, dstSpace := dst.1, tenant := c.tenant, cls := min 3 c.prog.cls,
    stream := 0xFFFF, origin := 0, confirmed := 0, faultAddr := 0, status := 0, state := .queued, job := c.job, use := .prog,
    prog := c.fk * 4 + c.slot, op := c.id, since := c.since, shared := shared }

/-- R231, R283, R284: FETCH: its descriptor is queued for the hall's Movers. -/
def State.fetchBody (c : OpCtx) (s : State) : State × OpRes :=
  match s.moverRegion c with
  | .error e => (s, .stop e)
  | .ok (va, flags, b, u, n) =>
    if !b.writable then (s, .stop 0x3061)
    else (s.addDesc (c.moverDesc (0, va) (2, bits c.word 43 36 + 256 * u) n (bit flags 1)), .open_)

/-- R247, R260: the sequencer reads the next word of the running program from its image; `errs` are the bit errors that the read meets. -/
def State.programErrors (s : State) (fk : Nat) (errs : List BitErr) : State :=
  match s.runningProg fk with
  | none => s
  | some p => s.bitErrors errs (wordsOf (p.img.opsAt + 16 * p.pc) 16).contains

/-- R231: FETCH. -/
def execFetch (f : FlightId) (errs : List BitErr) (s : State) : Result :=
  if !flightOk f then .refused .noSuchUnit else .next ((s.programErrors (flightKey f) errs).issueOp f (isOp 0x30) State.fetchBody)

/-- R231, R284: STORE: its descriptor is queued for the hall's Movers. -/
def State.storeBody (c : OpCtx) (s : State) : State × OpRes :=
  match s.moverRegion c with
  | .error e => (s, .stop e)
  | .ok (va, flags, _, u, n) =>
    if !(bit flags 0) then (s, .stop 0x3070)
    else (s.addDesc (c.moverDesc (2, bits c.word 43 36 + 256 * u) (0, va) n false), .open_)

/-- R231: STORE. -/
def execStoreOperation (f : FlightId) (s : State) : Result :=
  if !flightOk f then .refused .noSuchUnit else .next (s.issueOp f (isOp 0x31) State.storeBody)

/-! ### The fill unit -/

/-- R225: COPY. Units of the destination that are also units of the source hold undefined values afterwards, as R288 has it for a Mover. -/
def State.copyBody (c : OpCtx) (s : State) : State × OpRes :=
  let w := c.word
  let n := bits w 55 36
  let su := bits w 103 84
  let du := bits w 75 56
  match s.resolve c.since c.fk (bits w 111 104), s.resolve c.since c.fk (bits w 83 76) with
  | none, _ => (s, .stop 0x3060)
  | _, none => (s, .stop 0x3060)
  | some a, some b =>
    if !b.writable then (s, .stop 0x3061)
    else if a.units < su + n ∨ b.units < du + n then (s, .stop 0x3077)
    else
      let lo := a.base + su
      let xs := (List.range n).map (fun i =>
        let x := s.landUnit a.since a.landing (lo + i)
        let to_ := b.base + du + i
        if a.landing = b.landing ∧ lo ≤ to_ ∧ to_ < lo + n then
          { x with data := (List.range 64).map (fun k => Config.freeByte s.free (500 + a.landing) (64 * to_ + k)) }
        else x)
      ((s.putUnits b.landing (b.base + du) xs c.tenant).tick, .open_)

/-- R225: COPY. -/
def execCopy (f : CopyCmd) (s : State) : Result :=
  if !flightOk f.flight then .refused .noSuchUnit else .next (s.issueOp f.flight (isOp 0x32) (fun c s => State.copyBody c (s.landErrors f.land)))

/-- R101: write one value of the token store: slot t, group g, tread i. In N4 the other half of the byte stays. -/
def State.putTok (s : State) (fk t g i : Nat) (n4 : Bool) (code : Nat) : State :=
  let x := s.flight fk
  let off := if n4 then g / 2 else g
  let key := (t * 256 + i) * 128 + off
  let old := ((kfind key x.tokens).getD (Config.freeByte s.free (200 + fk) key)).toNat
  let v := if n4 then (if g % 2 = 0 then old / 16 * 16 + code % 16 else old % 16 + code % 16 * 16) else code
  s.setFlight fk { x with tokens := kput key (BitVec.ofNat 8 v) x.tokens }

/-- R101, R216: the header of the 32 channels of a group's half. A transposed view has no one block there: its header is free. -/
def State.tokHeader (s : State) (b : Buf) (es : List Elem) (k : Nat) : Nat :=
  if b.view = 2 then Config.freeNat s.free k % 1024
  else match es.head? with
    | some e => if e.act then e.e8 + (if e.zero then 256 else 0) + (if e.clamp then 512 else 0) else 256
    | none => 256

/-- R101, R232: fill group g of token store slot t from a view row. -/
def State.fillToken (s : State) (c : OpCtx) (b : Buf) (row0 q t g : Nat) : State :=
  let n4 := b.fmt == 2
  let es := (List.range 64).map (fun i => s.viewElem b row0 q (64 * g + i))
  let h := s.tokHeader b (es.take 32) (2 * g) + 65536 * s.tokHeader b (es.drop 32) (2 * g + 1)
  let h := h + (if n4 then 2 ^ 32 else 0) + (if es.any (fun e => e.act && e.poison) then 2 ^ 33 else 0)
  let s := (es.zip (List.range 64)).foldl (fun s p =>
    s.putTok c.fk t g p.2 n4 (if p.1.min then (if n4 then 8 else 128) else ofInt (if n4 then 4 else 8) p.1.m)) s
  s.setFlight c.fk { (s.flight c.fk) with tokHeads := kput (t * 256 + g) h (s.flight c.fk).tokHeads }

/-- R232: FILL_TOKENS. -/
def State.fillTokensBody (c : OpCtx) (s : State) : State × OpRes :=
  let w := c.word
  let n := bits w 82 78 + 1
  let g0 := bits w 77 70
  let ng := bits w 69 62 + 1
  let t0 := bits w 87 83
  match s.need c.since c.fk (bits w 111 104) [1, 2] with
  | .error e => (s, .stop e)
  | .ok b =>
    if 32 < t0 + n ∨ (if b.fmt = 2 then 256 else 128) < g0 + ng then (s, .stop 0x3070)
    else if !((List.range n).all (fun q => b.rowOk (bits w 103 88) q)) then (s, .stop 0x3061)
    else
      let s := (List.range n).foldl (fun s q => (List.range ng).foldl (fun s g => s.fillToken c b (bits w 103 88) q (t0 + q) (g0 + g)) s) s
      let section_ := match s.expertSections c.fk c.prog with
        | some (secs, _) => secs.contains (b.landing, b.base)
        | none => false
      let x := s.flight c.fk
      let heads := (List.range ng).foldl (fun m g => if section_ then kput (8192 + g0 + g) (t0 + n) m else kdel (8192 + g0 + g) m) x.tokHeads
      ((s.setFlight c.fk { x with tokHeads := heads }).tick, .open_)

/-- R232: FILL_TOKENS. -/
def execFillTokens (f : FlightId) (s : State) : Result :=
  if !flightOk f then .refused .noSuchUnit else .next (s.issueOp f (isOp 0x33) State.fillTokensBody)

/-- R132, R232: FILL_OUTLIER: each record with its poison, and for each slot the outlier lists of the tensor that fills it. -/
def State.fillOutlierBody (c : OpCtx) (s : State) : State × OpRes :=
  let w := c.word
  let n := bits w 82 78 + 1
  let r0 := bits w 77 72
  let nr := bits w 71 66 + 1
  let t0 := bits w 87 83
  match s.need c.since c.fk (bits w 111 104) [1, 2] with
  | .error e => (s, .stop e)
  | .ok b =>
    if !b.outl ∨ 32 < t0 + n ∨ 64 < r0 + nr then (s, .stop 0x3070)
    else if !((List.range n).all (fun q => b.rowOk (bits w 103 88) q)) then (s, .stop 0x3061)
    else if cdiv b.channels 256 < r0 + nr then (s, .stop 0x3077)
    else
      let lists := match s.resolve b.since b.table b.olist with
        | some ol => s.landBytes ol.since ol.landing (ol.base * 64) (16 * cdiv b.channels 256)
        | none => []
      let recs := (List.range n).flatMap (fun q => (4096 + t0 + q, lists) :: (List.range nr).map (fun i =>
        let (d, p) := s.outRecAt b (b.row (bits w 103 88) q) (r0 + i)
        ((t0 + q) * 64 + r0 + i, d ++ [if p then 1#8 else 0#8])))
      let x := s.flight c.fk
      ((s.setFlight c.fk { x with outliers := recs.foldl (fun m e => kput e.1 e.2 m) x.outliers }).tick, .open_)

/-- R232: FILL_OUTLIER. -/
def execFillOutlier (f : FlightId) (s : State) : Result :=
  if !flightOk f then .refused .noSuchUnit else .next (s.issueOp f (isOp 0x34) State.fillOutlierBody)

/-- R116, R85, R232: FILL_TABLE. -/
def State.fillTableBody (c : OpCtx) (s : State) : State × OpRes :=
  let w := c.word
  let t := bits w 103 101
  match s.need c.since c.fk (bits w 111 104) [9] with
  | .error e => (s, .stop e)
  | .ok b =>
    if b.bytesLen < 2056 then (s, .stop 0x3077)
    else
      let ws := (List.range 257).map (fun k => leNat (s.landBytes b.since b.landing (b.base * 64 + 8 * k) 8))
      if (ws.drop 1).any (fun v => !sasValid (bits v 47 32)) then (s.tick, .stop 0x3024)
      else
        let p := s.landPoison b.since b.landing (b.base * 64) 2056
        let x := s.flight c.fk
        let m := (ws.zip (List.range 257)).foldl (fun m e => kput (t * 257 + e.2) e.1 m) x.tables
        ((s.setFlight c.fk { x with tables := kset 0 (2056 + t) (if p then 1 else 0) m }).tick, .open_)

/-- R232: FILL_TABLE. -/
def execFillTable (f : FlightId) (s : State) : Result :=
  if !flightOk f then .refused .noSuchUnit else .next (s.issueOp f (isOp 0x35) State.fillTableBody)

/-- R213, R232: HANDLE_SET. -/
def State.handleSetBody (c : OpCtx) (s : State) : State × OpRes :=
  let w := c.word
  let l := if bit w 103 then hallLanding c.hall else c.fk
  let h := bits w 111 104
  if bit w 102 then (s.setHandle l h 0, .open_)
  else match c.prog.img.handles[bits w 101 90]? with
    | none => (s, .stop 0x3070)
    | some e =>
      let olistOk := fun (o : Nat) => match s.resolve c.since l o with | some b => b.fmt == 0xD | none => false
      if entryOk l e.entry olistOk then (s.setHandle l h e.entry, .open_) else (s, .stop 0x3060)

/-- R232: HANDLE_SET. -/
def execHandleSet (f : FlightId) (s : State) : Result :=
  if !flightOk f then .refused .noSuchUnit else .next (s.issueOp f (isOp 0x36) State.handleSetBody)

/-! ### The mask generator (R139, R148) -/

/-- R148: the bytes of one mask row of n channels, from the blocks of its request. -/
def maskRow (w rate n : Nat) (bs : List Nat) : Bytes :=
  bytesOfBits ((List.range n).map (fun k => decide (rate ≤ drawAt w k bs)))

/-- R148: MASK. -/
def State.maskBody (c : OpCtx) (s : State) : State × OpRes :=
  let w := c.word
  let n := bits w 87 72 + 1
  let ch := (bits w 71 61 + 1) * 32
  let dw := 2 ^ bits w 60 59
  let rate := bits w 58 51
  match c.slotFor (bits w 50 47) (·.mask), s.need c.since c.fk (bits w 111 104) [4] with
  | .error e, _ => (s, .stop e)
  | _, .error e => (s, .stop e)
  | .ok gen, .ok b =>
    if 2 ^ dw ≤ rate then (s, .stop 0x3070)
    else if !b.writable ∨ b.channels < ch ∨ !((List.range n).all (fun q => b.rowOk (bits w 103 88) q)) then (s, .stop 0x3061)
    else
      let s := (List.range n).foldl (fun s q =>
        let (s, bs) := s.drawRequest c.hall gen.gen dw ch
        s.landWrite b.landing (b.rowOff (b.row (bits w 103 88) q)) (maskRow dw rate ch bs) false c.tenant) s
      (s.count Od.maskBits (n * ch), .open_)

/-- R148: MASK. -/
def execMask (f : FlightId) (s : State) : Result :=
  if !flightOk f then .refused .noSuchUnit else .next (s.issueOp f (isOp 0x47) State.maskBody)

end Sys2Proof.Machine
end

