-- ==== Sys2Proof/Machine/Rows.lean ====
section
/-!
DEFINITION. Rows.lean: rows on their way through frames (R196 to R198, R410), and SEND and RECV (R240, R411). What the frames of a transfer hold where the
spec leaves it open is in log entry 36.
-/

namespace Sys2Proof.Machine

/-! ### Rows and their layout -/

/-- R71, R78, R133, R213: bytes that a row of a buffer takes in its ordinary layout. -/
def formLen (fmt channels : Nat) (outl : Bool) : Option Nat :=
  match fmt with
  | 1 => some (rowBytes false outl channels)
  | 2 => some (rowBytes true outl channels)
  | 3 => some (channels * 8)
  | 4 => some (cdiv channels 8)
  | _ => none

/-- Bytes that a row of this buffer takes. -/
def Buf.rowLen (b : Buf) : Nat := (formLen b.fmt b.channels b.outl).getD (b.pitch * 64)

/-- R410: what a transfer descriptor says of all its rows. -/
structure RowForm where
  fmt      : Nat
  channels : Nat
  outl     : Bool
  deriving DecidableEq, Repr

/-- The form of a buffer's rows. -/
def Buf.form (b : Buf) : RowForm := ⟨b.fmt, b.channels, b.outl⟩

/-- A row as it leaves: its number in the transfer, the prefix of an exchange row, its bytes, and poison. -/
structure TxRow where
  row    : Nat
  pre    : Bytes
  data   : Bytes
  poison : Bool
  deriving DecidableEq, Repr

/-- Read a row of a buffer as row `num` of a transfer. -/
def State.txRow (s : State) (b : Buf) (r num : Nat) : TxRow :=
  ⟨num, [], s.landBytes b.since b.landing (b.rowOff r) b.rowLen, s.landPoison b.since b.landing (b.rowOff r) b.rowLen⟩

/-- R410: the 16 bytes of a transfer descriptor. -/
def descriptor (m : RowForm) (first rows off : Nat) (frag : Bool) : Bytes :=
  leBytes 4 first ++ leBytes 2 rows ++ leBytes 2 (m.channels / 32) ++ leBytes 1 m.fmt ++
  leBytes 1 ((if m.outl then 1 else 0) + (if frag then 2 else 0)) ++ leBytes 4 off ++ zeros 2

/-- R410: data bytes of one frame. -/
abbrev frameData : Nat := 16384

/-- A frame's payload before it is addressed: FLAGS, and its bytes. -/
structure RowFrame where
  flags   : Nat
  payload : Bytes
  saved   : Nat
  deriving DecidableEq, Repr

/-- R410: a row too long for a frame, in fragments; each carries the prefix. -/
def fragments (m : RowForm) (x : TxRow) : List RowFrame :=
  let step := frameData - x.pre.length
  (List.range (cdiv x.data.length step)).map (fun i =>
    ⟨if x.poison then 2 else 0, descriptor m x.row 1 (step * i) true ++ x.pre ++ (x.data.drop (step * i)).take step, 0⟩)

/-- R196, R197, R410: whole rows in one frame, as Z-rows where that is allowed and smaller. -/
def wholeRows (m : RowForm) (z : Bool) (xs : List TxRow) : RowFrame :=
  let first := ((xs.head?).map (·.row)).getD 0
  let d := descriptor m first xs.length 0 false
  let plain := xs.flatMap (fun x => x.pre ++ x.data)
  let zr := xs.flatMap (fun x => x.pre ++ zRow (m.fmt == 2) m.outl m.channels x.data)
  let zr := padTo (cdiv zr.length 4 * 4) zr
  let bad := if xs.any (·.poison) then 2 else 0
  if z && (m.fmt == 1 || m.fmt == 2) && decide (zr.length < plain.length) then ⟨1 + bad, d ++ zr, plain.length - zr.length⟩
  else ⟨bad, d ++ plain, 0⟩

/-- Rows that continue the first of a list: one after another, of equal poison, at most n. -/
def runOfRows : Nat → TxRow → List TxRow → List TxRow
  | 0, _, _ => []
  | _, _, [] => []
  | n + 1, x, y :: t => if y.row = x.row + 1 ∧ y.poison = x.poison then y :: runOfRows n y t else []

/-- R410: the frames of a transfer. -/
def packRows (m : RowForm) (z : Bool) : Nat → List TxRow → List RowFrame
  | 0, _ => []
  | _, [] => []
  | fuel + 1, x :: t =>
    let len := x.pre.length + x.data.length
    if frameData < len then fragments m x ++ packRows m z fuel t
    else
      let more := runOfRows (frameData / max 1 len - 1) x t
      wholeRows m z (x :: more) :: packRows m z fuel (t.drop more.length)

/-- R197: the sender of frames to a path may compress. -/
def State.zAllowed (s : State) (dest : Word64) : Bool :=
  match s.odGet Od.linkCompress with
  | 0 => false
  | 1 => true
  | _ => match s.routeArch dest with
    | none => false
    | some n => decide (s.odGet Od.linkBacklog < (((s.arch n).queues.flatMap (·.2)).map (fun x => x.fl.body.length)).sum)

/-- R197, R408, R410: send the rows of a transfer to another module. A frame holds the same rows compressed or not, and each may be compressed as the arch
stands when it leaves. -/
def State.sendRows (s : State) (dest : Word64) (ftype destUnit job tag : Nat) (m : RowForm) (z : Bool) (rows : List TxRow) : State :=
  let fs := (packRows m true (rows.length + 1) rows).zip (packRows m false (rows.length + 1) rows)
  (fs.zip (List.range fs.length)).foldl (fun s p =>
    let p := (if z && s.zAllowed dest then p.1.1 else p.1.2, p.2)
    let s := if bit p.1.flags 0 then s.counts [(Od.linkFramesZ, 1), (Od.linkBytesSaved, p.1.saved)] else s
    s.sendFrame (s.mkFrame dest ftype p.1.flags destUnit job tag p.2 p.1.payload)) s

/-! ### Rows as they arrive (R198, R410) -/

/-- R410: the fields of a transfer descriptor. -/
structure XDesc where
  first : Nat
  rows  : Nat
  form  : RowForm
  frag  : Bool
  off   : Nat
  deriving DecidableEq, Repr

/-- R410. -/
def xdesc (p : Bytes) : XDesc :=
  ⟨leField p 0 4, leField p 4 2, ⟨leField p 8 1, leField p 6 2 * 32, bit (leField p 9 1) 0⟩, bit (leField p 9 1) 1, leField p 10 4⟩

/-- R198: the rows of a Z payload, each after a prefix of `pre` bytes; none where the payload does not agree with its presence maps. -/
def zPieces (d : XDesc) (pre : Nat) (poison : Bool) : Nat → Nat → Bytes → Option (List Piece)
  | 0, _, rest => if rest.length < 4 ∧ rest.all (· == 0#8) then some [] else none
  | n + 1, r, b =>
    match zExpand (d.form.fmt == 2) d.form.outl d.form.channels (b.drop pre) with
    | none => none
    | some (row, rest) => (zPieces d pre poison n (r + 1) rest).map (fun l => ⟨r, b.take pre, 0, row, true, poison, row.length⟩ :: l)

/-- R198: the prefixes of the rows of a malformed Z payload, as far as its rows can be told apart. -/
def zPrefixes (d : XDesc) (pre : Nat) : Nat → Bytes → List Bytes
  | 0, _ => []
  | n + 1, b =>
    if b.length < pre then []
    else b.take pre :: (match zExpand (d.form.fmt == 2) d.form.outl d.form.channels (b.drop pre) with
      | none => []
      | some (_, rest) => zPrefixes d pre n rest)

/-- R198, R410: the pieces that a frame brings, each row after a prefix of `pre` bytes, and whether a Z payload was malformed: every row of it is then
poisoned, with the bytes `lost` gives for its data and for a prefix that cannot be told. -/
def framePieces (f : Frame) (pre : Nat) (lost : Nat → Nat → Byte) : List Piece × Bool :=
  let d := xdesc f.payload
  let b := f.payload.drop 16
  let bad := bit f.flags 1
  let n := (formLen d.form.fmt d.form.channels d.form.outl).getD 0
  if d.frag then ([⟨d.first, b.take pre, d.off, b.drop pre, false, bad, n⟩], false)
  else if bit f.flags 0 then
    match zPieces d pre bad d.rows d.first b with
    | some l => (l, false)
    | none =>
      let ps := zPrefixes d pre d.rows b
      ((List.range d.rows).map (fun i =>
        ⟨d.first + i, ps.getD i ((List.range pre).map (lost i)), 0, (List.range n).map (fun k => lost i (pre + k)), true, true, n⟩), true)
  else
    let len := b.length / max 1 d.rows
    ((List.range d.rows).map (fun i => let r := (b.drop (len * i)).take len; ⟨d.first + i, r.take pre, 0, r.drop pre, true, bad, n⟩), false)

/-- R198: the pieces of a frame; a malformed Z payload is logged and counted. -/
def State.takePieces (s : State) (f : Frame) (pre : Nat) : List Piece × State :=
  let (ps, bad) := framePieces f pre (fun i k => Config.freeByte s.free (0x60000 + i) k)
  (ps, if bad then ((s.logEv { code := 0x3043, job := f.job }).count Od.linkZErrors 1).tick else s)

/-- The bytes of a row that pieces bring together, with its prefix and poison; none while it is not whole. -/
def wholeRow (ps : List Piece) (row len : Nat) : Option TxRow :=
  let mine := ps.filter (fun p => p.row == row)
  match mine.find? (·.whole) with
  | some p => some ⟨row, p.pre, p.data, p.poison⟩
  | none =>
    let fs := mine.mergeSort (fun a b => decide (a.off ≤ b.off))
    let data := fs.flatMap (·.data)
    match fs.head? with
    | none => none
    | some p => if max len p.len ≤ data.length then some ⟨row, p.pre, data, fs.any (·.poison)⟩ else none

/-- R410: write a piece of a row into a buffer row; what does not fit the row's pitch is not written. -/
def State.placePiece (s : State) (b : Buf) (r off : Nat) (data : Bytes) (poison : Bool) (tenant : Nat) : State :=
  s.landWrite b.landing (b.rowOff r + off) (data.take (b.pitch * 64 - off)) poison tenant

/-- Write a whole row. -/
def State.placeRow (s : State) (b : Buf) (r : Nat) (x : TxRow) (tenant : Nat) : State := s.placePiece b r 0 x.data x.poison tenant

/-! ### SEND and RECV (R240, R411) -/

/-- R408: DEST_UNIT of a flight. -/
def destUnitOf (fk : Nat) : Nat := fk / 20 + fk % 20 * 4

/-- The flight that DEST_UNIT names. -/
def flightOfUnit (u : Nat) : Nat := u % 4 * 20 + u / 4 % 32

/-- A frame of a SEND within this module carries its sender's flight in place of an arch. -/
abbrev localArch : Nat := 256

/-- R411: the RECV `m` takes frame f: same job and tag, the peer as source. -/
def RowMove.takes (m : RowMove) (own : Word64) (f : Frame) : Bool :=
  !m.isSend && m.job == f.job && m.tag == f.tag && m.flight == flightOfUnit f.destUnit && m.peer == f.src &&
  (f.src != own || decide (f.arch = localArch + m.unit_))

/-- R411: the path of a peer. -/
def State.peerPath (s : State) (p : PeerE) : Word64 := if p.path = noPath then s.ownPath else p.path

/-- R411: a RECV's program, and the buffer that it writes. -/
def State.recvBuf (s : State) (m : RowMove) : Option (Buf × Nat) :=
  match s.progAt m.flight m.slot with
  | none => none
  | some p => (s.resolve p.since (hallLanding (m.flight / 20)) m.handle).map (fun b => (b, p.img.tenant))

/-- R411: rows of which every byte has arrived. -/
def RowMove.rowsDone (m : RowMove) (len : Nat) : Nat :=
  ((List.range m.rows).filter (fun r => decide (len ≤ ((m.got.filter (fun g => g.1 == r)).map (·.2.2)).sum))).length

/-- R410, R240: one frame for a RECV. A row beyond its count, or one that has arrived already and so begins another SEND, shows that the matching SEND
carried another row count (DESIGN CHOICE, log entry 88), and stops it; otherwise its data are placed. -/
def State.recvFrame (s : State) (m : RowMove) (f : Frame) : State :=
  match s.recvBuf m with
  | none => s
  | some (b, tenant) =>
    let (ps, s) := s.takePieces f 0
    if ps.any (fun p => decide (m.rows ≤ p.row) || m.got.any (fun g => g.1 == p.row && g.2.1 == p.off)) then
      match s.progAt m.flight m.slot with
      | none => s
      | some p => s.refuseOp m.flight m.slot 0x307A (((p.issued.find? (fun x => x.id == m.opId)).map (·.word)).getD p.pc)
    else
      let s := ps.foldl (fun s p => s.placePiece b (b.row m.row0 p.row) p.off p.data p.poison tenant) s
      let s := s.stepPoison m.job (ps.any (·.poison))
      let len := (formLen (xdesc f.payload).form.fmt (xdesc f.payload).form.channels (xdesc f.payload).form.outl).getD b.rowLen
      let new := ps.map (fun p => (p.row, p.off, if p.whole then len else p.data.length))
      let m' : RowMove := { m with got := (m.got ++ new).dedup }
      let rest := dropFirst (fun x => x == m) s.serve.moves
      let moves := if m'.rowsDone len = m'.rows then rest else rest ++ [m']
      { s with serve := { s.serve with moves := moves } }

/-- R411: a SEND_DATA frame for this module goes to its RECV, or waits for it. -/
def State.takeSend (s : State) (f : Frame) : State :=
  match s.serve.moves.find? (fun m => m.takes s.ownPath f) with
  | some m => s.recvFrame m f
  | none => { s with serve := { s.serve with early := s.serve.early ++ [f] } }

/-- R240: SEND and RECV of programs in this module that name each other. -/
def movesMatch (a b : RowMove) : Bool :=
  (a.isSend != b.isSend) && a.job == b.job && a.tag == b.tag && a.flight == b.unit_ && b.flight == a.unit_

/-- R240: both programs of a SEND and a RECV with different row counts stop. -/
def State.mismatch (s : State) (m : RowMove) : State :=
  match s.progAt m.flight m.slot with
  | none => s
  | some p => s.stopProg m.flight m.slot 0x307A (((p.issued.find? (fun x => x.id == m.opId)).map (·.word)).getD p.pc)

/-- R240, R410: SEND. -/
def State.sendBody (c : OpCtx) (s : State) : State × OpRes :=
  let w := c.word
  let n := bits w 87 72 + 1
  match c.prog.img.peers[bits w 71 66]?, s.resolve c.since (hallLanding c.hall) (bits w 111 104) with
  | none, _ => (s, .stop 0x3070)
  | _, none => (s, .stop 0x3060)
  | some p, some b =>
    if b.view = 2 ∨ !((List.range n).all (fun k => b.rowOk (bits w 103 88) k)) then (s, .stop 0x3061)
    else
      let rows := (List.range n).map (fun k => s.txRow b (b.row (bits w 103 88) k) k)
      let s := s.stepPoison c.job (rows.any (·.poison))
      let dest := s.peerPath p
      let target := p.hall * 20 + p.flight
      let tag := bits w 65 50
      if !s.mine dest then ((s.sendRows dest 0x10 (destUnitOf target) c.job tag b.form (bit w 49) rows).tick, .open_)
      else
        let me : RowMove := ⟨c.fk, c.slot, c.id, c.job, tag, dest, target, 0, 0, n, [], true⟩
        match s.serve.moves.find? (fun m => movesMatch m me) with
        | some m =>
          if m.rows ≠ n then ((s.mismatch m).tick, .stop 0x307A)
          else
            let fs := packRows b.form false (n + 1) rows
            ((fs.foldl (fun s f => s.takeSend ⟨localArch + c.fk, 1, dest, dest, 0x10, f.flags, destUnitOf target, 0, c.job, tag, 0, f.payload⟩) s).tick, .open_)
        | none =>
          let fs := packRows b.form false (n + 1) rows
          let s : State := { s with serve := { s.serve with moves := s.serve.moves ++ [me] } }
          ((fs.foldl (fun s f => s.takeSend ⟨localArch + c.fk, 1, dest, dest, 0x10, f.flags, destUnitOf target, 0, c.job, tag, 0, f.payload⟩) s).tick, .open_)

/-- R411: SEND. -/
def execSend (f : FlightId) (s : State) : Result :=
  if !flightOk f then .refused .noSuchUnit else .next (s.issueOp f (isOp 0x40) State.sendBody)

/-- R411: frames that waited for a RECV reach it. -/
def State.drainEarly (s : State) (m : RowMove) : State :=
  let now := s.serve.early.filter (fun f => f.ftype == 0x10 && m.takes s.ownPath f)
  let s : State := { s with serve := { s.serve with early := s.serve.early.filter (fun f => !(f.ftype == 0x10 && m.takes s.ownPath f)) } }
  now.foldl State.takeSend s

/-- R240, R411: RECV. -/
def State.recvBody (c : OpCtx) (s : State) : State × OpRes :=
  let w := c.word
  let n := bits w 87 72 + 1
  match c.prog.img.peers[bits w 71 66]?, s.resolve c.since (hallLanding c.hall) (bits w 111 104) with
  | none, _ => (s, .stop 0x3070)
  | _, none => (s, .stop 0x3060)
  | some p, some b =>
    if !b.writable ∨ !((List.range n).all (fun k => b.rowOk (bits w 103 88) k)) then (s, .stop 0x3061)
    else
      let me : RowMove :=
        ⟨c.fk, c.slot, c.id, c.job, bits w 65 50, s.peerPath p, p.hall * 20 + p.flight, bits w 111 104, bits w 103 88, n, [], false⟩
      match (if s.mine me.peer then s.serve.moves.find? (fun m => movesMatch m me) else none) with
      | some m =>
        let s : State := { s with serve := { s.serve with moves := dropFirst (fun x => x == m) s.serve.moves } }
        if m.rows ≠ n then (s.mismatch m, .stop 0x307A)
        else (({ s with serve := { s.serve with moves := s.serve.moves ++ [me] } } : State).drainEarly me, .open_)
      | none => (({ s with serve := { s.serve with moves := s.serve.moves ++ [me] } } : State).drainEarly me, .open_)

/-- R411: RECV. -/
def execRecv (f : FlightId) (s : State) : Result :=
  if !flightOk f then .refused .noSuchUnit else .next (s.issueOp f (isOp 0x41) State.recvBody)

end Sys2Proof.Machine
end

