-- ==== Sys2Proof/Machine/Collect.lean ====
section
/-!
DEFINITION. Collect.lean: the collectives (R421 to R424). Participants combine within the module, and the modules of the gallery exchange directly;
what their frames hold is in log entry 36.
-/

namespace Sys2Proof.Machine

/-! ### Members and ranks (R421) -/

/-- R421: the flights of this module that take part in a group of a job, ordered by hall and flight number. -/
def State.groupFlights (s : State) (job : Nat) (g : Word64) : List Nat :=
  (((s.jobProgs job).filter (fun e => e.2.img.groups.any (fun x => x.gallery == g))).map (·.1)).dedup.mergeSort (fun a b => decide (a ≤ b))

/-- R421, DESIGN CHOICE, log entry 36: participants of each module of a gallery. -/
def State.perModule (s : State) (g : Word64) (members : Nat) : Nat := max 1 (members / max 1 (s.galleryModules g).length)

/-- R421: the place of a module among the modules of a gallery. -/
def State.moduleIndex (s : State) (g p : Word64) : Nat := (s.galleryModules g).idxOf p

/-- The ranks of a module. -/
def State.ranksOf (s : State) (x : CollSt) (p : Word64) : List Nat :=
  let n := s.perModule x.gallery x.members
  (List.range n).map (fun i => s.moduleIndex x.gallery p * n + i)

/-- R422, DESIGN CHOICE, log entry 36: the rows that a rank owns of ROWS rows split over M ranks. -/
def rankRows (rows m r : Nat) : List Nat := (List.range ((r + 1) * rows / m - r * rows / m)).map (· + r * rows / m)

/-- The other modules of a collective. -/
def State.others (s : State) (x : CollSt) : List Word64 := (s.galleryModules x.gallery).filter (fun p => !s.mine p)

/-! ### Sums (R423) -/

/-- Bytes in pieces of n. -/
def chunksOf (n : Nat) (b : Bytes) : List Bytes := pieces n (b.length / n) b

/-- R423: S48 words of a row as sums at exponent e; `raw` reads a partial sum of another module. -/
def rowSums (raw : Bool) (lsb e : Int) (b : Bytes) : List Int :=
  (chunksOf 8 b).map (fun x => (if raw then toInt 64 (leNat x) else (s48Read x).1) * (2 : Int) ^ (lsb - e).toNat)

/-- R115: stat records combined, element by element; how many values were rounded. -/
def addStats (a b : List StatRec) : List StatRec := List.zipWith StatRec.combine a b

/-- A row's part of a reduction, from one contributor: sums (FMT 3) or records (FMT 5), and poison. -/
structure RowSum where
  sums   : List Int
  stats  : List StatRec
  poison : Bool
  deriving DecidableEq, Repr

/-- R423: add one contributor. -/
def RowSum.add (a b : RowSum) : RowSum := ⟨List.zipWith (· + ·) a.sums b.sums, addStats a.stats b.stats, a.poison || b.poison⟩

/-- A row as a contributor brings it. -/
def rowSum (fmt : Nat) (raw : Bool) (lsb e : Int) (b : Bytes) (poison : Bool) : RowSum :=
  if fmt = 3 then ⟨rowSums raw lsb e b, [], poison⟩ else ⟨[], (chunksOf 16 b).map readStat, poison⟩

/-- R423: the sum of contributors. -/
def sumAll : List RowSum → RowSum
  | [] => ⟨[], [], false⟩
  | x :: t => t.foldl RowSum.add x

/-- R423: the bytes of a result row, and how many sums took a bound or records were rounded. -/
def RowSum.result (fmt : Nat) (x : RowSum) : Bytes × Nat :=
  if fmt = 3 then
    let vs := x.sums.map s48Clamp
    (vs.flatMap (fun v => s48Word v.1), (vs.filter (·.2)).length)
  else
    let rs := x.stats.map StatRec.bytes
    (rs.flatMap (·.1), (rs.map (·.2)).sum)

/-- The bytes of a partial sum on its way to another module. -/
def RowSum.partialBytes (fmt : Nat) (x : RowSum) : Bytes :=
  if fmt = 3 then x.sums.flatMap (fun v => leBytes 8 (ofInt 64 v)) else (x.stats.map StatRec.bytes).flatMap (·.1)

/-! ### A collective as it stands -/

/-- R422: kinds that add rows. -/
def CollSt.reduces (x : CollSt) : Bool := x.kind == 2 || x.kind == 3

/-- The form of the rows. -/
def CollSt.form (x : CollSt) : RowForm := ⟨x.fmt, x.channels, x.outl⟩

/-- The lowest LSB_EXP of a list. -/
def lowest (l : List Int) : Int := (l.min?).getD 0

/-- R423: the lowest LSB_EXP of this module's sources. -/
def CollSt.ownLsb (x : CollSt) : Int := lowest (x.parts.map (·.lsb))

/-- R423: the lowest LSB_EXP of all sources. -/
def CollSt.lsb (x : CollSt) : Int := lowest (x.ownLsb :: x.exps.map (·.2))

/-- The rows that a module sent, by number. -/
def CollSt.fromModule (x : CollSt) (p : Word64) (row : Nat) : Option (Bytes × Bool) :=
  (wholeRow ((x.pieces.filter (fun e => e.1 == p)).map (·.2)) row x.len).map (fun r => (r.data, r.poison))

/-- A row of a participant of this module. -/
def CollSt.ownRow (x : CollSt) (rank row : Nat) : Option (Bytes × Bool) :=
  (x.parts.find? (fun q => q.rank == rank)).bind (fun q => q.rows[row]?)

/-- R423: the partial sum of a row over this module's participants, at exponent e. -/
def CollSt.ownSum (x : CollSt) (e : Int) (row : Nat) : RowSum :=
  sumAll (x.parts.map (fun q => let r := q.rows.getD row ([], false); rowSum x.fmt false q.lsb e r.1 r.2))

/-- R423: the sum of a row over all ranks; none while a module's share is missing. -/
def State.fullSum (s : State) (x : CollSt) (row : Nat) : Option RowSum :=
  (s.others x).foldl (fun (acc : Option RowSum) p =>
    match acc, x.fromModule p row with
    | some a, some r =>
      let lsb := ((x.exps.find? (fun e => e.1 == p)).map (·.2)).getD x.lsb
      some (a.add (rowSum x.fmt true lsb x.lsb r.1 r.2))
    | _, _ => none) (some (x.ownSum x.lsb row))

/-- Every module has announced its exponent. -/
def State.expsIn (s : State) (x : CollSt) : Bool := !x.reduces || (s.others x).all (fun p => x.exps.any (fun e => e.1 == p))

/-- R422: the row of rank i's SRC numbered `row` in the exchange, from this module or another. -/
def State.sourceRow (s : State) (x : CollSt) (i row : Nat) : Option (Bytes × Bool) :=
  match x.ownRow i row with
  | some r => some r
  | none =>
    let p := (s.galleryModules x.gallery).getD (i / s.perModule x.gallery x.members) noPath
    x.fromModule p (i * x.rows + row)

/-- R422, R423: the sum of a row as it stands in DST, and how many of its values were counted here. -/
def State.sumRow (s : State) (x : CollSt) (row : Nat) : Option (Bytes × Bool) :=
  let owner := (List.range x.members).find? (fun r => (rankRows x.rows x.members r).contains row)
  let p := (s.galleryModules x.gallery).getD (owner.getD 0 / s.perModule x.gallery x.members) s.ownPath
  if s.mine p then (s.fullSum x row).map (fun a => ((a.result x.fmt).1, a.poison)) else x.fromModule p (x.rows + row)

/-- R422: the rows of DST of rank r; none while one is missing. -/
def State.resultRows (s : State) (x : CollSt) (r : Nat) : Option (List (Bytes × Bool)) :=
  let m := x.members
  let rs : List (Option (Bytes × Bool)) := match x.kind with
    | 0 => (List.range x.rows).map (fun k => s.sourceRow x 0 k)
    | 1 => (List.range m).flatMap (fun i => (List.range x.rows).map (fun k => s.sourceRow x i k))
    | 2 => (rankRows x.rows m r).map (fun k => (s.fullSum x k).map (fun a => ((a.result x.fmt).1, a.poison)))
    | 3 => (List.range x.rows).map (fun k => s.sumRow x k)
    | _ => (List.range m).flatMap (fun i => (rankRows x.rows m r).map (fun k => s.sourceRow x i k))
  if rs.all Option.isSome then some (rs.filterMap id) else none

/-! ### The exchange between modules (R424, DESIGN CHOICE, log entry 36) -/

/-- The rows that this module sends to another when its participants have all issued. -/
def State.rowsFor (s : State) (x : CollSt) (p : Word64) : List TxRow :=
  let tx := fun (i k : Nat) => (x.ownRow i k).map (fun r => (⟨i * x.rows + k, [], r.1, r.2⟩ : TxRow))
  let mine := x.parts.map (·.rank)
  let theirs := s.ranksOf x p
  let sums := fun (ks : List Nat) => ks.map (fun k => let a := x.ownSum x.ownLsb k; (⟨k, [], a.partialBytes x.fmt, a.poison⟩ : TxRow))
  match x.kind with
  | 0 => if mine.contains 0 then (List.range x.rows).filterMap (tx 0) else []
  | 1 => mine.flatMap (fun i => (List.range x.rows).filterMap (tx i))
  | 2 => sums (theirs.flatMap (rankRows x.rows x.members))
  | 3 => sums (theirs.flatMap (rankRows x.rows x.members))
  | _ => mine.flatMap (fun i => (theirs.flatMap (rankRows x.rows x.members)).filterMap (tx i))

/-- Replace a collective. -/
def State.setColl (s : State) (x : CollSt) : State :=
  let same := fun (y : CollSt) => y.job == x.job && y.gallery == x.gallery && y.count == x.count
  { s with serve := { s.serve with colls := s.serve.colls.filter (fun y => !same y) ++ [x] } }

/-- Remove a collective. -/
def State.dropColl (s : State) (x : CollSt) : State :=
  let same := fun (y : CollSt) => y.job == x.job && y.gallery == x.gallery && y.count == x.count
  { s with serve := { s.serve with colls := s.serve.colls.filter (fun y => !same y) } }

/-- R423: the frame in which a module announces the lowest exponent of its sources. -/
def State.sendExp (s : State) (x : CollSt) (p : Word64) : State :=
  s.sendFrame (s.mkFrame p 0x11 0 (31 * 4) x.job (x.count % 65536) 0 (descriptor ⟨7, 0, false⟩ 0 1 0 false ++ leBytes 2 (ofInt 16 x.ownLsb)))

/-- R424: this module's participants have all issued: their rows leave. -/
def State.sendColl (s : State) (x : CollSt) : State :=
  let s := (s.others x).foldl (fun s p =>
    let s := if x.reduces then s.sendExp x p else s
    s.sendRows p 0x11 (31 * 4) x.job (x.count % 65536) x.form (!x.reduces) (s.rowsFor x p)) s
  s.setColl { x with stage := 1 }

/-- R424: the second half of an ALL_REDUCE: the sums of this module's rows leave. -/
def State.sendSums (s : State) (x : CollSt) : State :=
  let ks := (s.ranksOf x s.ownPath).flatMap (rankRows x.rows x.members)
  let rows := ks.filterMap (fun k => (s.fullSum x k).map (fun a => (⟨x.rows + k, [], (a.result x.fmt).1, a.poison⟩ : TxRow)))
  let s := (s.others x).foldl (fun s p => s.sendRows p 0x11 (31 * 4) x.job (x.count % 65536) x.form false rows) s
  s.setColl { x with stage := 2 }

/-- R423: sums that took a bound here: those of the rows that this module's ranks own. -/
def State.countSums' (s : State) (x : CollSt) : State :=
  if !x.reduces then s
  else
    let ks := (s.ranksOf x s.ownPath).flatMap (rankRows x.rows x.members)
    let n := (ks.filterMap (s.fullSum x)).map (fun a => (a.result x.fmt).2)
    s.count (if x.fmt = 3 then Od.wideSaturations else Od.statScaleRoundings) n.sum

/-- R422, R423: write the result of one participant. -/
def State.writeColl (s : State) (x : CollSt) (q : CollPart) : State :=
  match s.progAt q.flight q.slot, s.resultRows x q.rank with
  | some p, some rows =>
    match s.resolve p.since (hallLanding (q.flight / 20)) q.handle with
    | none => s
    | some b =>
      let s := (rows.zip (List.range rows.length)).foldl (fun s e => s.placePiece b (b.row 0 e.2) 0 e.1.1 e.1.2 p.img.tenant) s
      let s := s.stepPoison x.job (rows.any (·.2))
      if x.reduces && x.fmt == 3 then s.setLsb b x.lsb else s
  | _, _ => s

/-- R424: a collective goes on as far as what it has allows, and ends when every DST holds its last row. -/
def State.collStep (s : State) (x : CollSt) : State :=
  if x.stage = 0 then
    if x.parts.length < s.perModule x.gallery x.members then s.setColl x else s.sendColl x
  else if x.stage = 1 ∧ x.kind = 3 then
    if s.expsIn x ∧ ((s.ranksOf x s.ownPath).flatMap (rankRows x.rows x.members)).all (fun k => (s.fullSum x k).isSome) then s.sendSums x else s.setColl x
  else if s.expsIn x ∧ x.parts.all (fun q => (s.resultRows x q.rank).isSome) then
    (x.parts.foldl (fun s q => s.writeColl x q) (s.countSums' x)).dropColl x
  else s.setColl x

/-- The collective as it is held, by job, gallery and instance. -/
def State.collOf (s : State) (job : Nat) (g : Word64) (count : Nat) : Option CollSt :=
  s.serve.colls.find? (fun y => y.job == job && y.gallery == g && y.count == count)

/-- Steps until nothing moves: at most three. -/
def State.collRun (s : State) (job : Nat) (g : Word64) (count : Nat) : State :=
  (List.range 3).foldl (fun s _ => match s.collOf job g count with
    | some x => s.collStep x
    | none => s) s

/-- R423: what a COLL_DATA frame brings to a collective of which a participant has issued. -/
def State.collFrame (s : State) (x : CollSt) (f : Frame) : State :=
  let d := xdesc f.payload
  let s := if d.form.fmt = 7 then s.setColl { x with exps := x.exps.filter (fun e => e.1 != f.src) ++ [(f.src, toInt 16 (leField f.payload 16 2))] }
    else
      let (ps, s) := s.takePieces f 0
      s.setColl { x with pieces := x.pieces ++ ps.map (fun p => (f.src, p)) }
  s.collRun x.job x.gallery x.count

/-- R421: the collective that a frame belongs to. -/
def State.collFor (s : State) (f : Frame) : Option CollSt :=
  s.serve.colls.find? (fun x => x.job == f.job && x.count % 65536 == f.tag && inGallery x.gallery f.src)

/-- R423: a COLL_DATA frame for this module; it waits where no participant has issued yet. -/
def State.takeColl (s : State) (f : Frame) : State :=
  match s.collFor f with
  | some x => s.collFrame x f
  | none => { s with serve := { s.serve with early := s.serve.early ++ [f] } }

/-! ### Issue (R422) -/

/-- R78: S48 words of a row that are taken in as a bound. -/
def overlong (b : Bytes) : Nat := ((chunksOf 8 b).filter (fun x => (s48Read x).2)).length

/-- R421, R422: COLLECTIVE of a kind. -/
def State.collBody (kind : Nat) (c : OpCtx) (s : State) : State × OpRes :=
  let w := c.word
  let rows := bits w 71 56 + 1
  let row0 := bits w 87 72
  let gi := bits w 107 104
  match c.prog.img.groups[gi]?, s.resolve c.since (hallLanding c.hall) (bits w 103 96), s.resolve c.since (hallLanding c.hall) (bits w 95 88) with
  | none, _, _ => (s, .stop 0x3070)
  | _, none, _ => (s, .stop 0x3060)
  | _, _, none => (s, .stop 0x3060)
  | some g, some src, some dst =>
    let m := max 1 g.members
    if collShapeBad kind rows m src dst then (s, .stop 0x5030)
    else if src.view = 2 ∨ !dst.writable ∨ !((List.range rows).all (fun k => src.rowOk row0 k)) ∨
        !((List.range (collDstRows kind rows m)).all (fun k => dst.rowOk 0 k)) then (s, .stop 0x3061)
    else
      let key := (c.fk * 4 + c.slot) * 16 + gi
      let count := kget 0 key s.serve.collCount
      let tx := (List.range rows).map (fun k => let r := s.txRow src (src.row row0 k) k; (r.data, r.poison))
      let rank := s.moduleIndex g.gallery s.ownPath * s.perModule g.gallery m + (s.groupFlights c.job g.gallery).idxOf c.fk
      let part : CollPart := ⟨rank, c.fk, c.slot, c.id, bits w 95 88, tx, src.lsb⟩
      let x : CollSt := (s.collOf c.job g.gallery count).getD
        ⟨c.job, g.gallery, count, kind, m, rows, src.fmt, src.channels, src.outl, src.rowLen, [], [], [], 0⟩
      if x.kind ≠ kind ∨ x.rows ≠ rows ∨ x.fmt ≠ src.fmt ∨ x.channels ≠ src.channels then (s, .stop 0x5030)
      else
        let s := if x.reduces && x.fmt == 3 then s.count Od.wideSaturations ((tx.map (fun r => overlong r.1)).sum) else s
        let s := (s.stepPoison c.job (tx.any (·.2))).tick
        let mine := fun (f : Frame) => f.ftype == 0x11 && f.job == c.job && f.tag == count % 65536 && inGallery g.gallery f.src
        let early := s.serve.early.filter mine
        let s : State := { s with serve := { s.serve with
          collCount := kset 0 key (count + 1) s.serve.collCount, early := s.serve.early.filter (fun f => !mine f) } }
        let s := (s.setColl { x with parts := x.parts.filter (fun q => q.rank != part.rank) ++ [part] }).collRun c.job g.gallery count
        (early.foldl State.takeColl s, .open_)

/-- R422: BROADCAST. -/
def execBroadcast (f : FlightId) (s : State) : Result :=
  if !flightOk f then .refused .noSuchUnit else .next (s.issueOp f (isColl 0) (State.collBody 0))

/-- R422: ALL_GATHER. -/
def execAllGather (f : FlightId) (s : State) : Result :=
  if !flightOk f then .refused .noSuchUnit else .next (s.issueOp f (isColl 1) (State.collBody 1))

/-- R422: REDUCE_SCATTER. -/
def execReduceScatter (f : FlightId) (s : State) : Result :=
  if !flightOk f then .refused .noSuchUnit else .next (s.issueOp f (isColl 2) (State.collBody 2))

/-- R422: ALL_REDUCE. -/
def execAllReduce (f : FlightId) (s : State) : Result :=
  if !flightOk f then .refused .noSuchUnit else .next (s.issueOp f (isColl 3) (State.collBody 3))

/-- R422: ALL_TO_ALL. -/
def execAllToAll (f : FlightId) (s : State) : Result :=
  if !flightOk f then .refused .noSuchUnit else .next (s.issueOp f (isColl 4) (State.collBody 4))

end Sys2Proof.Machine
end

