-- ==== Sys2Proof/Machine/Router.lean ====
section
/-!
DEFINITION. Router.lean: the router (chapter 15): ROUTE, the outbound and the return dispatch, COMBINE, the frames of an expert exchange and the start of
expert programs.
-/

namespace Sys2Proof.Machine

/-! ### The weight table (R145) -/

/-- R145, R364: EXPT of a model: its package's table, or OD 0x3100.1A. -/
def State.exptOf (s : State) (model d : Nat) : Nat :=
  match s.pkgOf model with
  | some p => if p.expt = [] then exptDefaultAt d else p.expt.getD d 0
  | none => exptDefaultAt d

/-! ### ROUTE (R362 to R366) -/

/-- R362: a score within 32 bits. -/
def clamp32 (x : Int) : Int := max (-2147483648) (min 2147483647 x)

/-- What ROUTE makes of a gate row. -/
structure Routed where
  experts : List Nat
  weights : List Nat
  clamps  : Nat
  poison  : Bool
  deriving DecidableEq, Repr

/-- R362 to R364, R366: route one row of scores with LSB exponent L to k experts. -/
def routeRow (expt : Nat → Nat) (L : Int) (k : Nat) (zs : List Int) (poison : Bool) : Routed :=
  let cs := zs.map clamp32
  let clamps := (zs.filter (fun z => clamp32 z != z)).length
  if poison then ⟨List.range k, List.replicate k 0, clamps, true⟩
  else
    let top := topCands k cs
    let s0 := ((top.head?).map (·.1)).getD 0
    let es := top.map (fun c => expt (min 4095 (Dy.floor ⟨s0 - c.1, L + 8⟩)).toNat)
    ⟨top.map (·.2), es.map (fun e => sasNearest ⟨((e * 2 ^ 24 / es.sum : Nat) : Int), -24⟩), clamps, false⟩

/-- R365: the 32 bytes of a route record; the RET_ROW that DISPATCH writes are free until then. -/
def routeRecord (x : Routed) (free : Nat → Nat) : Bytes :=
  let k := x.experts.length
  (List.range 8).map (fun i => BitVec.ofNat 8 (x.experts.getD i 0xFF)) ++
  (List.range 8).flatMap (fun i => leBytes 2 (if i < k then free i % 65536 else 0xFFFF)) ++
  leBytes 1 ((if x.poison then 1 else 0) + (if x.clamps = 0 then 0 else 2)) ++ zeros 7

/-- R362 to R366: one row of ROUTE. -/
def State.routeOne (s : State) (c : OpCtx) (gates idx weight : Buf) (n k r : Nat) : State :=
  let row := gates.row (bits c.word 103 88) r
  let xs := (List.range n).map (fun e => s.s48At gates row e)
  let x := routeRow (s.exptOf c.prog.img.model) gates.lsb k (xs.map (·.1)) (xs.any (fun e => e.2.2))
  let rec_ := routeRecord x (fun i => Config.freeNat s.free (700000 + r * 8 + i))
  let s := s.landWrite idx.landing (idx.base * 64 + 32 * r) rec_ false c.tenant
  let s := s.landWrite weight.landing (weight.base * 64 + 16 * r) ((List.range 8).flatMap (fun i => leBytes 2 (x.weights.getD i 0))) false c.tenant
  s.counts
    [ (Od.routedRows, 1), (Od.expertsSelected, k), (Od.scoreClamps, x.clamps), (Od.poisonedRoutes, if x.poison then 1 else 0),
      (Od.wideSaturations, (xs.filter (fun e => e.2.1)).length) ]

/-- R362: ROUTE. -/
def State.routeBody (c : OpCtx) (s : State) : State × OpRes :=
  let w := c.word
  let l := hallLanding c.hall
  let rows := bits w 87 72 + 1
  let n := bits w 71 64 + 1
  let k := bits w 63 61 + 1
  match s.need c.since l (bits w 111 104) [3], s.need c.since l (bits w 60 53) [0], s.need c.since l (bits w 52 45) [6] with
  | .error e, _, _ => (s, .stop e)
  | _, .error e, _ => (s, .stop e)
  | _, _, .error e => (s, .stop e)
  | .ok gates, .ok idx, .ok weight =>
    if n < k then (s, .stop 0x3070)
    else if gates.channels < n ∨ !((List.range rows).all (fun r => gates.rowOk (bits w 103 88) r)) ∨ !idx.writable ∨ !weight.writable then (s, .stop 0x3061)
    else if idx.bytesLen < 32 * rows ∨ weight.bytesLen < 16 * rows then (s, .stop 0x3077)
    else (((List.range rows).foldl (fun s r => s.routeOne c gates idx weight n k r) s).tick, .open_)

/-- R362: ROUTE. -/
def execRoute (f : FlightId) (s : State) : Result :=
  if !flightOk f then .refused .noSuchUnit else .next (s.issueOp f (isOp 0x43) State.routeBody)

/-! ### The exchange record (R368, R370) -/

/-- R370: the fields of an exchange record that the router uses. -/
structure ExchRec where
  bytes  : Bytes
  layer  : Nat
  map    : List (Nat × Nat × Nat)
  groups : List Nat
  blocks : Nat
  deriving DecidableEq, Repr

/-- R370: the bytes of a parameter block that a handle of the hall names. -/
def State.paramBytes (s : State) (hall since h n : Nat) : Except Nat Bytes :=
  match s.need since (hallLanding hall) h [7] with
  | .error e => .error e
  | .ok b => if b.bytesLen < n then .error 0x3077 else .ok (s.landBytes b.since b.landing (b.base * 64) n)

/-- R370: read an exchange record, its map and its return group handles. -/
def State.readExch (s : State) (hall since h : Nat) : Except Nat ExchRec :=
  match s.paramBytes hall since h 64 with
  | .error e => .error e
  | .ok r =>
    let n := min 64 (leField r 38 1)
    match s.paramBytes hall since (leField r 33 1) 512, s.paramBytes hall since (leField r 32 1) n with
    | .error e, _ => .error e
    | _, .error e => .error e
    | .ok m, .ok g => .ok ⟨r, leField r 34 2, mapEntries m 256, g.map (·.toNat), leField r 37 1⟩

/-- R370: the hall in which the sections of a local slot lie: the one that the map names. -/
def ExchRec.hallOf (x : ExchRec) (own slot hall : Nat) : Nat := ((x.map.find? (fun e => e.1 == own && e.2.2 == slot)).map (·.2.1)).getD hall

/-- R370: the input or output section of a local slot. -/
def State.sectionBuf (s : State) (x : ExchRec) (hall since slot : Nat) (out : Bool) : Option Buf :=
  s.resolve since (hallLanding (x.hallOf s.ownMember slot hall)) (leField x.bytes ((if out then 16 else 0) + slot) 1)

/-- The record of an exchange that this module has begun. -/
def State.recordOf (s : State) (e : ExchSt) : Option (ExchRec × Nat × Nat) :=
  match e.record, s.progAt e.fk e.slot with
  | some h, some p => match s.readExch (e.fk / 20) p.since h with
    | .ok x => some (x, p.since, p.img.tenant)
    | .error _ => none
  | _, _ => none

/-! ### Exchanges -/

/-- Change exchange i. -/
def State.modExch (s : State) (i : Nat) (f : ExchSt → ExchSt) : State :=
  { s with serve := { s.serve with exchanges := s.serve.exchanges.modify i f } }

/-- R374, R375, R379: an exchange ends with a code, and its job stops. -/
def State.exchStop (s : State) (job code : Nat) (e : Option ExchSt) : State :=
  let s := if code = 0x3061 then s.countRefusal code else s.count Od.exchangeErrors 1
  match e.bind (fun e => if e.record.isSome then (s.progAt e.fk e.slot).map (fun p => (e.fk, p.slot, p.pc)) else none) with
  | some (fk, slot, pc) => s.programStop fk slot code pc
  | none => s.jobStopAll job code

/-- R375: bytes of a row of an exchange: those of a row of its sections. -/
def State.exchLen (s : State) (e : ExchSt) : Nat :=
  match s.recordOf e with
  | none => 0
  | some (x, since, _) => (((List.range 16).findSome? (fun k => s.sectionBuf x (e.fk / 20) since k false)).map (·.rowLen)).getD 0

/-- The rows of a source that have arrived whole, in order; one that has not is left out. -/
def ExchSt.rowsFrom (e : ExchSt) (len m : Nat) : List TxRow :=
  let ps := (e.rows.filter (fun p => p.1 == m)).map (·.2)
  ((ps.map (·.row)).dedup.mergeSort (fun a b => decide (a ≤ b))).filterMap (fun r => wholeRow ps r len)

/-- R375: the rows that a source's manifest announces are all there. -/
def ExchSt.fullFrom (e : ExchSt) (len m : Nat) : Bool :=
  match kfind m e.manifest with
  | none => false
  | some l => decide (l.getD 0 0 ≤ (e.rowsFrom len m).length)

/-- R374: the rows of a slot, in ascending source and source row. -/
def State.slotList (s : State) (e : ExchSt) (len slot : Nat) : List (Nat × TxRow) :=
  (List.range s.memberCount).flatMap (fun m =>
    ((e.rowsFrom len m).filter (fun r => bit (leField r.pre 2 2) slot)).map (fun r => (m, r)))

/-- R374, R214: write one section, or the code that stops the exchange: it overflows, or its handle may not be written. -/
def State.writeSection (s : State) (e : ExchSt) (x : ExchRec) (since tenant len slot : Nat) : Except Nat State :=
  let rows := s.slotList e len slot
  if rows = [] then .ok s
  else match s.sectionBuf x (e.fk / 20) since slot false with
    | none => .error 0x4202
    | some b =>
      if !b.writable then .error 0x3061
      else if b.rows < rows.length then .error 0x4202
      else
        let s := (rows.zip (List.range rows.length)).foldl (fun s p => s.placeRow b (b.row 0 p.2) p.1.2 tenant) s
        let s := s.stepPoison e.job (rows.any (fun r => r.2.poison))
        let expert := x.map.idxOf? (s.ownMember, x.hallOf s.ownMember slot (e.fk / 20), slot)
        let model := ((s.progAt e.fk e.slot).map (·.img.model)).getD 0
        match expert with
        | none => .ok s
        | some k =>
          let key := (model * 65536 + e.layer) * 256 + k
          .ok { s with serve := { s.serve with expertLoad := kset 0 key (kget 0 key s.serve.expertLoad + rows.length) s.serve.expertLoad } }

/-- R374: with every manifest there, the section of a slot would receive more rows than its handle has. -/
def State.sectionFull (s : State) (e : ExchSt) (x : ExchRec) (since slot : Nat) : Bool :=
  e.slotRows slot != 0 && (match s.sectionBuf x (e.fk / 20) since slot false with
    | none => true
    | some b => decide (b.rows < e.slotRows slot))

/-- R374, R375: an exchange whose manifests are all there is refused where a section would overflow; once its rows are all there too, it fills its sections. -/
def State.exchProgress (s : State) (i : Nat) : State :=
  match s.serve.exchanges[i]? with
  | none => s
  | some e => match s.recordOf e with
    | none => s
    | some (x, since, tenant) =>
      let len := s.exchLen e
      if e.written ∨ !((List.range s.memberCount).all (fun m => (kfind m e.manifest).isSome)) then s
      else if (List.range 16).any (fun k => s.sectionFull e x since k) then s.exchStop e.job 0x4202 (some e)
      else if !((List.range s.memberCount).all (fun m => e.fullFrom len m)) then s
      else match (List.range 16).foldl (fun (a : Except Nat State) k => a.bind (fun s => s.writeSection e x since tenant len k)) (.ok s) with
        | .error code => s.exchStop e.job code (some e)
        | .ok s => s.modExch i (fun e => { e with written := true })

/-! ### Frames of the way out (R372 to R375) -/

/-- R372: the 64 bytes of a manifest. -/
def manifestBytes (layer source rows : Nat) (counts : List Nat) : Bytes :=
  leBytes 2 layer ++ leBytes 1 source ++ zeros 1 ++ leBytes 2 rows ++ zeros 2 ++ counts.flatMap (leBytes 2) ++ zeros 24

/-- R372: ROWS and the 16 counts of a manifest. -/
def manifestCounts (p : Bytes) : List Nat := leField p 4 2 :: (List.range 16).map (fun k => leField p (8 + 2 * k) 2)

/-- R373, R375: exchange rows of a source reach the exchange that they belong to: the first of the job whose manifest announces rows that are not there. -/
def State.takeExchRows (s : State) (f : Frame) : State :=
  let m := s.memberOf f.src
  let known := fun (e : ExchSt) => e.job == f.job && (kfind m e.manifest).isSome
  match s.serve.exchanges.findIdx? (fun e => known e && !e.fullFrom (s.exchLen e) m) with
  | some i =>
    let (ps, s) := s.takePieces f 8
    match s.serve.exchanges[i]? with
    | none => s
    | some e =>
      if ps.any (fun p => decide (((kfind m e.manifest).getD []).getD 0 0 ≤ p.row)) then s.exchStop e.job 0x4203 (some e)
      else (s.modExch i (fun e => { e with rows := e.rows ++ ps.map (fun p => (m, p)) })).exchProgress i
  | none =>
    match s.serve.exchanges.find? known with
    | some e => s.exchStop e.job 0x4203 (some e)
    | none => { s with serve := { s.serve with early := s.serve.early ++ [f] } }

/-- A new exchange of a layer. -/
def ExchSt.new (job layer : Nat) : ExchSt := ⟨job, layer, 0, 0, none, [], [], [], [], [], [], false, [], false⟩

/-- Frames of a type and source that waited. -/
def State.retryEarly (s : State) (ftype job m : Nat) (g : State → Frame → State) : State :=
  let is := fun (f : Frame) => f.ftype == ftype && f.job == job && s.memberOf f.src == m
  let now := s.serve.early.filter is
  let s : State := { s with serve := { s.serve with early := s.serve.early.filter (fun f => !is f) } }
  now.foldl g s

/-- R374: a manifest's counts reach the first exchange of its layer that has none from its source. -/
def State.addManifest (s : State) (job layer m : Nat) (counts : List Nat) : State × Nat :=
  let put := fun (e : ExchSt) => { e with manifest := kput m counts e.manifest }
  match s.serve.exchanges.findIdx? (fun e => e.job == job && e.layer == layer && (kfind m e.manifest).isNone) with
  | some i => (s.modExch i put, i)
  | none =>
    ({ s with serve := { s.serve with exchanges := s.serve.exchanges ++ [put (ExchSt.new job layer)] } }, s.serve.exchanges.length)

/-- R374: a MANIFEST frame for this module. -/
def State.takeManifest (s : State) (f : Frame) : State :=
  let m := leField f.payload 2 1
  let (s, i) := s.addManifest f.job (leField f.payload 0 2) m (manifestCounts f.payload)
  (s.retryEarly 0x21 f.job m State.takeExchRows).exchProgress i

/-! ### The way back (R378, R379) -/

/-- R379: channel group g of a returned row, in the layout of a row of its own. -/
def splitRow (n4 outl : Bool) (channels gb g : Nat) (data : Bytes) : Bytes :=
  let ch := gb * 32
  let vb := valueBytes n4 ch
  let recs := 18 * (ch / 256)
  let vals := (data.drop (vb * g)).take vb
  let hdrs := (data.drop (headerOff n4 channels + 2 * gb * g)).take (2 * gb)
  let body := padTo (headerOff n4 ch) vals ++ padTo (outlierOff n4 ch - headerOff n4 ch) hdrs
  if outl then padTo (rowBytes n4 true ch) (body ++ (data.drop (outlierOff n4 channels + recs * g)).take recs) else body

/-- R379: write returned row k into every return group. -/
def State.placeReturn (s : State) (e : ExchSt) (x : ExchRec) (since tenant k : Nat) (r : TxRow) : State :=
  let channels := x.groups.length * x.blocks * 32
  let s := (x.groups.zip (List.range x.groups.length)).foldl (fun s g =>
    match s.resolve since (hallLanding (e.fk / 20)) g.1 with
    | none => s
    | some b => s.placePiece b (b.row 0 k) 0 (splitRow (b.fmt == 2) b.outl channels x.blocks g.2 r.data) r.poison tenant) s
  (s.stepPoison e.job r.poison).count Od.rowsReturned 1

/-- R214: a return group takes no row k: its handle may not be written, or ends before it. -/
def State.returnBad (s : State) (e : ExchSt) (x : ExchRec) (since k : Nat) : Bool :=
  x.groups.any (fun g => match s.resolve since (hallLanding (e.fk / 20)) g with
    | some b => !b.writable || decide (b.rows ≤ k)
    | none => false)

/-- R379: bytes of a returned row. -/
def State.returnLen (s : State) (e : ExchSt) (x : ExchRec) (since : Nat) : Nat :=
  match x.groups.findSome? (fun g => s.resolve since (hallLanding (e.fk / 20)) g) with
  | none => 0
  | some b => (formLen b.fmt (x.groups.length * x.blocks * 32) b.outl).getD 0

/-- R379: the returned rows of exchange i that are whole go to their places; an exchange with nothing left ends. -/
def State.placeReturns (s : State) (i : Nat) : State :=
  match s.serve.exchanges[i]? with
  | none => s
  | some e => match s.recordOf e with
    | none => s
    | some (x, since, tenant) =>
      let len := s.returnLen e x since
      let whole := (List.range s.memberCount).flatMap (fun m =>
        let ps := (e.ret.filter (fun p => p.1 == m)).map (·.2)
        ((ps.map (·.row)).dedup.filterMap (fun r => wholeRow ps r len)).filterMap (fun r =>
          (e.sent.idxOf? (m, leField r.pre 2 1, leField r.pre 0 2)).map (fun k => (k, r))))
      let new := whole.filter (fun p => !e.placed.contains p.1)
      if new.any (fun p => s.returnBad e x since p.1) then s.exchStop e.job 0x3061 (some e)
      else
      let s := new.foldl (fun s p => s.placeReturn e x since tenant p.1 p.2) s
      let s := s.modExch i (fun e => { e with placed := (e.placed ++ new.map (·.1)).dedup })
      match s.serve.exchanges[i]? with
      | none => s
      | some e => if e.returned ∧ e.placed.length = e.sent.length ∧ e.retMan.dedup.length = s.memberCount then
          { s with serve := { s.serve with exchanges := s.serve.exchanges.eraseIdx i } } else s

/-- R379: RETURN_ROWS from a member go to the first exchange of the job that waits for rows of it. -/
def State.addReturnRows (s : State) (job m : Nat) (ps : List Piece) : Option State :=
  (s.serve.exchanges.findIdx? (fun e => e.job == job && e.retMan.contains m &&
      (List.range e.sent.length).any (fun k => (e.sent.getD k (0, 0, 0)).1 == m && !e.placed.contains k))).map (fun i =>
    (s.modExch i (fun e => { e with ret := e.ret ++ ps.map (fun p => (m, p)) })).placeReturns i)

/-- R379: a RETURN_ROWS frame for this module. -/
def State.takeReturnRows (s : State) (f : Frame) : State :=
  let (ps, s') := s.takePieces f 8
  match s'.addReturnRows f.job (s.memberOf f.src) ps with
  | some s => s
  | none => { s with serve := { s.serve with early := s.serve.early ++ [f] } }

/-- R379: a return manifest: counts that differ from those that this module computed stop the job. -/
def State.addReturnManifest (s : State) (job layer m : Nat) (counts : List Nat) : Option State :=
  (s.serve.exchanges.findIdx? (fun e => e.job == job && e.layer == layer && e.record.isSome && !e.retMan.contains m)).map (fun i =>
    match s.serve.exchanges[i]? with
    | none => s
    | some e =>
      let mine := (List.range 16).map (fun k => (e.sent.filter (fun p => p.1 == m && p.2.1 == k)).length)
      if counts.drop 1 ≠ mine then s.exchStop e.job 0x4203 (some e)
      else (s.modExch i (fun e => { e with retMan := e.retMan ++ [m] })).placeReturns i)

/-- R379: a RETURN_MANIFEST frame for this module; one before the outbound dispatch waits for it. -/
def State.takeReturnManifest (s : State) (f : Frame) : State :=
  let m := leField f.payload 2 1
  match s.addReturnManifest f.job (leField f.payload 0 2) m (manifestCounts f.payload) with
  | some s => s.retryEarly 0x23 f.job m State.takeReturnRows
  | none => { s with serve := { s.serve with early := s.serve.early ++ [f] } }

/-! ### The outbound dispatch (R371 to R373, R379) -/

/-- A (token, rank) pair: token row, rank, member, slot. -/
structure Pair where
  row    : Nat
  rank   : Nat
  member : Nat
  slot   : Nat
  deriving DecidableEq, Repr

/-- R365, R368: the pairs of the route records. -/
def State.pairsOf (s : State) (idx : Buf) (x : ExchRec) (rows : Nat) : List Pair :=
  (List.range rows).flatMap (fun r => (List.range 8).filterMap (fun k =>
    let e := (s.landByte idx.since idx.landing (idx.base * 64 + 32 * r + k)).toNat
    if e = 0xFF then none
    else let t := x.map.getD e (0, 0, 0); some ⟨r, k, t.1, t.2.2⟩))

/-- R378, R379: the pairs in the order in which they return: member, slot, token row. -/
def returnOrder (n : Nat) (ps : List Pair) : List (Nat × Nat × Nat) :=
  (List.range n).flatMap (fun m => (List.range 16).flatMap (fun k =>
    (ps.filter (fun p => p.member == m && p.slot == k)).map (fun p => (m, k, p.row))))

/-- R373: the rows that travel to a member: token rows in order, each with its slot mask. -/
def rowsTo (ps : List Pair) (m rows : Nat) : List (Nat × Nat) :=
  (List.range rows).filterMap (fun r =>
    let mine := ps.filter (fun p => p.member == m && p.row == r)
    if mine = [] then none else some (r, ((mine.map (·.slot)).dedup.map (fun k => 2 ^ k)).sum))

/-- R372: ROWS and COUNT for a member. -/
def countsTo (ps : List Pair) (m rows : Nat) : List Nat :=
  (rowsTo ps m rows).length :: (List.range 16).map (fun k => (ps.filter (fun p => p.member == m && p.slot == k)).length)

/-- R366: the record of a token row carries POISON, or arrives poisoned. -/
def State.routePoison (s : State) (idx : Buf) (r : Nat) : Bool :=
  bit (s.landByte idx.since idx.landing (idx.base * 64 + 32 * r + 24)).toNat 0 || s.landPoison idx.since idx.landing (idx.base * 64 + 32 * r) 32

/-- R373: the rows of a transfer to a member. -/
def State.outRows (s : State) (src idx : Buf) (l : List (Nat × Nat)) : List TxRow :=
  (l.zip (List.range l.length)).map (fun p =>
    let t := s.txRow src (src.row 0 p.1.1) p.2
    { t with pre := leBytes 2 p.1.1 ++ leBytes 2 p.1.2 ++ zeros 4, poison := t.poison || s.routePoison idx p.1.1 })

/-- R379: write RET_ROW of every pair. -/
def State.writeRetRows (s : State) (idx : Buf) (ps : List Pair) (sent : List (Nat × Nat × Nat)) (tenant : Nat) : State :=
  ps.foldl (fun s p =>
    s.landWrite idx.landing (idx.base * 64 + 32 * p.row + 8 + 2 * p.rank) (leBytes 2 (sent.idxOf (p.member, p.slot, p.row))) false tenant) s

/-- R372: manifests in member order. -/
def State.sendManifests (s : State) (ftype hall job layer : Nat) (counts : List (List Nat)) : State :=
  (counts.zip (List.range counts.length)).foldl (fun s p =>
    if p.2 = s.ownMember then s
    else
      let rows := p.1.getD 0 0
      let s := s.count Od.markersSent (if rows = 0 then 1 else 0)
      s.sendFrame (s.mkFrame (s.memberPath p.2) ftype 0 (hall + 124) job 0 0 (manifestBytes layer s.ownMember rows (p.1.drop 1)))) s

/-- R371 to R373, R379: the outbound dispatch, its buffers read. -/
def State.runOutbound (s : State) (c : OpCtx) (src idx : Buf) (x : ExchRec) (rows : Nat) : State :=
  let n := s.memberCount
  let ps := s.pairsOf idx x rows
  let lists := (List.range n).map (fun m => rowsTo ps m rows)
  let counts := (List.range n).map (fun m => countsTo ps m rows)
  let tx := lists.map (fun l => s.outRows src idx l)
  let sent := returnOrder n ps
  let total := (lists.map List.length).sum
  let s := s.counts [(Od.rowsSent, total), (Od.dedupRowsSaved, ps.length - total)]
  let s := s.stepPoison c.job (tx.any (fun l => l.any (·.poison)))
  let s := s.sendManifests 0x20 c.hall c.job x.layer counts
  let s := (tx.zip (List.range n)).foldl (fun s p =>
    if p.2 = s.ownMember then s else s.sendRows (s.memberPath p.2) 0x21 (c.hall + 124) c.job 0 src.form true p.1) s
  let s := s.writeRetRows idx ps sent c.tenant
  let own := (tx.getD s.ownMember []).map (fun r => (s.ownMember, (⟨r.row, r.pre, 0, r.data, true, r.poison, r.data.length⟩ : Piece)))
  let mine := kput s.ownMember (counts.getD s.ownMember [])
  let fill := fun (e : ExchSt) => { e with
    fk := c.fk, slot := c.slot, record := some (bits c.word 95 88), sent := sent, rows := e.rows ++ own, manifest := mine e.manifest }
  let (s, i) := match s.serve.exchanges.findIdx? (fun e => e.job == c.job && e.layer == x.layer && e.record.isNone) with
    | some i => (s.modExch i fill, i)
    | none => ({ s with serve := { s.serve with exchanges := s.serve.exchanges ++ [fill (ExchSt.new c.job x.layer)] } }, s.serve.exchanges.length)
  let s := s.exchProgress i
  (List.range n).foldl (fun s m => (s.retryEarly 0x22 c.job m State.takeReturnManifest).retryEarly 0x23 c.job m State.takeReturnRows) s

/-- R371: the outbound dispatch. -/
def State.outboundBody (c : OpCtx) (s : State) : State × OpRes :=
  let w := c.word
  let l := hallLanding c.hall
  let rows := bits w 83 68 + 1
  match s.need c.since l (bits w 111 104) [1, 2], s.need c.since l (bits w 103 96) [0], s.readExch c.hall c.since (bits w 95 88) with
  | .error e, _, _ => (s, .stop e)
  | _, .error e, _ => (s, .stop e)
  | _, _, .error e => (s, .stop e)
  | .ok src, .ok idx, .ok x =>
    if (c.prog.img.groups[bits w 87 84]?).isNone then (s, .stop 0x3070)
    else if src.view = 2 ∨ !((List.range rows).all (fun r => src.rowOk 0 r)) ∨ !idx.writable then (s, .stop 0x3061)
    else if idx.bytesLen < 32 * rows then (s, .stop 0x3077)
    else ((s.runOutbound c src idx x rows).tick, .open_)

/-- R371: a DISPATCH word is an outbound dispatch. -/
def isOutbound (w : Nat) : Bool := opOf w == 0x44 && bits w 111 104 != bits w 95 88

/-- R371: DISPATCH from activation rows. -/
def execOutboundDispatch (f : FlightId) (s : State) : Result :=
  if !flightOk f then .refused .noSuchUnit else .next (s.issueOp f isOutbound State.outboundBody)

/-! ### The return dispatch (R378) -/

/-- R376, R378: the expert program of a slot has run to its end on this exchange, or the slot has no rows. -/
def State.slotDone (s : State) (e : ExchSt) (slot : Nat) : Bool :=
  e.slotRows slot == 0 ||
  (e.started.contains slot && !(s.jobProgs e.job).any (fun p =>
    kfind (p.1 * 4 + p.2.slot) s.serve.expertProgs == some (e.layer * 16 + slot) && p.2.mode != .idle))

/-- R378: the rows that go back to a member: slot, source row, and the row of the slot's output section. -/
def State.backRows (s : State) (e : ExchSt) (x : ExchRec) (since len m : Nat) : List TxRow :=
  let l := (List.range 16).flatMap (fun k =>
    let rows := s.slotList e len k
    ((rows.zip (List.range rows.length)).filter (fun p => p.1.1 == m)).map (fun p => (k, leField p.1.2.pre 0 2, p.2)))
  (l.zip (List.range l.length)).filterMap (fun p =>
    (s.sectionBuf x (e.fk / 20) since p.1.1 true).map (fun b =>
      let t := s.txRow b (b.row 0 p.1.2.2) p.2
      { t with pre := leBytes 2 p.1.2.1 ++ leBytes 1 p.1.1 ++ zeros 5 }))

/-- R378: the form of the rows that go back. -/
def State.backForm (s : State) (e : ExchSt) (x : ExchRec) (since : Nat) : RowForm :=
  (((List.range 16).findSome? (fun k => s.sectionBuf x (e.fk / 20) since k true)).map (·.form)).getD ⟨1, 0, false⟩

/-- R378: the return dispatch of exchange i. -/
def State.runReturn (s : State) (c : OpCtx) (i : Nat) (e : ExchSt) (x : ExchRec) : State :=
  let n := s.memberCount
  let len := s.exchLen e
  let tx := (List.range n).map (fun m => s.backRows e x c.since len m)
  let counts := (List.range n).map (fun m =>
    (tx.getD m []).length :: (List.range 16).map (fun k => ((tx.getD m []).filter (fun r => leField r.pre 2 1 == k)).length))
  let form := s.backForm e x c.since
  let s := s.stepPoison c.job (tx.any (fun l => l.any (·.poison)))
  let s := s.modExch i (fun e => { e with returned := true })
  let s := s.sendManifests 0x22 c.hall c.job e.layer counts
  let s := (tx.zip (List.range n)).foldl (fun s p =>
    if p.2 = s.ownMember then s else s.sendRows (s.memberPath p.2) 0x23 (c.hall + 124) c.job 0 form true p.1) s
  let s := (s.addReturnManifest c.job e.layer s.ownMember (counts.getD s.ownMember [])).getD s
  let own := (tx.getD s.ownMember []).map (fun r => (⟨r.row, r.pre, 0, r.data, true, r.poison, r.data.length⟩ : Piece))
  (s.addReturnRows c.job s.ownMember own).getD s

/-- R375, R378: the return dispatch waits for every manifest and for the expert programs; rows that are missing then stop the job. -/
def State.returnBody (c : OpCtx) (s : State) : State × OpRes :=
  let h := bits c.word 95 88
  match s.readExch c.hall c.since h with
  | .error e => (s, .stop e)
  | .ok x =>
    match s.serve.exchanges.findIdx? (fun e => e.job == c.job && e.layer == x.layer && e.record == some h && !e.returned) with
    | none => (s, .hold)
    | some i => match s.serve.exchanges[i]? with
      | none => (s, .hold)
      | some e =>
        let ms := List.range s.memberCount
        let len := s.exchLen e
        if !(ms.all (fun m => (kfind m e.manifest).isSome)) then (s, .hold)
        else if !(ms.all (fun m => e.fullFrom len m)) then (s.count Od.exchangeErrors 1, .stop 0x4203)
        else if !((List.range 16).all (fun k => s.slotDone e k)) then (s, .hold)
        else ((s.runReturn c i e x).tick, .open_)

/-- R371: a DISPATCH word is a return dispatch. -/
def isReturn (w : Nat) : Bool := opOf w == 0x44 && bits w 111 104 == bits w 95 88

/-- R371: DISPATCH from an exchange record to itself. -/
def execReturnDispatch (f : FlightId) (s : State) : Result :=
  if !flightOk f then .refused .noSuchUnit else .next (s.issueOp f isReturn State.returnBody)

/-! ### COMBINE (R380) -/

/-- R380, R86: a row of values (E8 or EO, lane, value) weighted by a scale, as promotions. -/
def weighted (W row code : Nat) (vs : List (Nat × Nat × Int)) : List Contrib :=
  (injectContribs W row vs).map (fun c =>
    let y := sasApply code ⟨1, c.e⟩
    { c with e := y.e, sums := c.sums.map (· * y.m), res := c.res.map (fun r => r * res7 y.m % 7) })

/-- R380: what token r brings to the foot: its rows in rank order, with what the foot notes of them. -/
structure CombineRow where
  rows   : List Contrib
  clamp  : Bool
  poison : Bool
  mins   : Nat
  ok     : Bool
  deriving DecidableEq, Repr

/-- R379: RET_ROW of rank k of token r. -/
def State.retRow (s : State) (idx : Buf) (r k : Nat) : Nat := leNat (s.landBytes idx.since idx.landing (idx.base * 64 + 32 * r + 8 + 2 * k) 2)

/-- R365: rank k of token r holds an expert. -/
def State.hasRank (s : State) (idx : Buf) (r k : Nat) : Bool := decide ((s.landByte idx.since idx.landing (idx.base * 64 + 32 * r + k)).toNat ≠ 0xFF)

/-- R380, R214: one token. `ok` says that every returned row it names lies within the view. -/
def State.combineRow (s : State) (c : OpCtx) (src idx weight : Buf) (row0 r : Nat) : CombineRow :=
  ((List.range 8).filter (s.hasRank idx r)).foldl (fun acc k =>
    let q := s.retRow idx r k
    let w := s.sasAt weight (8 * r + k)
    let x := s.rowNote src (src.row 0 q) 0 c.W
    ⟨acc.rows ++ (if w.1 = 0 then [] else weighted c.W (row0 + r) (s.scaleCode w.1 (8 * r + k)) (s.injectValues src (src.row 0 q) 0 c.W)),
     acc.clamp || x.clamp, acc.poison || w.2 || x.poison, acc.mins + x.mins, acc.ok && src.rowOk 0 q⟩)
    ⟨[], false, s.landPoison idx.since idx.landing (idx.base * 64 + 32 * r) 32, 0, true⟩

/-- R380: COMBINE. -/
def State.combineAccs (s : State) (c : OpCtx) : AccRes :=
  let w := c.word
  let l := hallLanding c.hall
  let rows := bits w 87 72 + 1
  let target := bits w 71 56
  match c.badTarget target rows, s.need c.since l (bits w 111 104) [1, 2], s.need c.since l (bits w 103 96) [0], s.need c.since l (bits w 95 88) [6] with
  | some e, _, _, _ => .stop s e
  | _, .error e, _, _ => .stop s e
  | _, _, .error e, _ => .stop s e
  | _, _, _, .error e => .stop s e
  | none, .ok src, .ok idx, .ok weight =>
    if idx.bytesLen < 32 * rows ∨ weight.bytesLen < 16 * rows then .stop s 0x3077
    else
      let xs := (List.range rows).map (fun r => s.combineRow c src idx weight (tgtRow target) r)
      if !(xs.all (·.ok)) then .stop s 0x3061
      else .ok (s.count Od.minCodesRead (xs.map (·.mins)).sum)
        [⟨tgtTile target, src.fmt, xs.any (·.clamp), xs.any (·.poison), SkipInfo.none, xs.flatMap (·.rows)⟩]

/-! ### Expert programs and the exchange timeout (R375, R376) -/

/-- R376: the expert program of a layer and slot: it starts once its section is complete and holds a row; with no row it does not start, and counts as
arrived at every barrier. -/
def execExpertProgramStart (f : FlightId) (slot layer lslot : Nat) (s : State) : Result :=
  if !flightOk f then .refused .noSuchUnit
  else
    let fk := flightKey f
    match s.progAt fk slot with
    | none => .next s
    | some p =>
      let job := p.img.job
      match s.serve.exchanges.findIdx? (fun e => e.job == job && e.layer == layer && e.written && !e.started.contains lslot) with
      | none => .next s
      | some i => match s.serve.exchanges[i]? with
        | none => .next s
        | some e =>
          let key := fk * 4 + slot
          let reg := fun (s : State) => ({ s with serve := { s.serve with expertProgs := kput key (layer * 16 + lslot) s.serve.expertProgs } } : State)
          if e.slotRows lslot = 0 then .next ((reg s).skipExpert job key)
          else if s.mayStart fk slot .idle then
            .next ((reg (s.modExch i (fun e => { e with started := e.started ++ [lslot] }))).startProgram fk slot)
          else .next s

/-- R375: EXCHANGE_TIMEOUT, for an exchange of a layer whose sections are not complete in time. -/
def execExchangeTimeout (job layer : Nat) (s : State) : Result :=
  match s.serve.exchanges.find? (fun e => e.job == job && e.layer == layer && e.record.isSome && !e.written) with
  | none => .next s
  | some e => .next (s.exchStop job 0x4204 (some e))

end Sys2Proof.Machine
end

