-- ==== Sys2Proof/Machine/Sampler.lean ====
section
/-!
DEFINITION. Sampler.lean: SAMPLE (R143 to R147, R225, R355).
-/

namespace Sys2Proof.Machine

/-- R144: a row of n words or an inverse temperature outside the sampler's parameters. -/
def samplerBad (n inv : Nat) : Bool :=
  decide (n < 1) || decide (262144 < n) || !sasValid inv || decide ((sasValue inv).m ≤ 0)

/-- R355: the slot of the stream, within its own slots, that entry r of a commit map is, and its level. -/
def nodeOf (slots : List Nat) (width r : Nat) : Nat × Nat :=
  let j := ((slots.take r).filter (fun i => i == slots.getD r 0)).length
  (j, if j = 0 then 0 else 1 + (j - 1) / max 1 width)

/-- R146: the positions that precede the token drawn at a level of a stream's step. -/
def State.drawPosition (s : State) (i level : Nat) : Nat :=
  let r := s.stream i
  if s.sState i = stGenerating ∨ r.was = stGenerating then s.sCacheLen i + 1 + level
  else s.sCacheLen i + min chunkMax (s.sw i 3 / 4 - r.fed)

/-- The row of logits r, and whether a word of it is poisoned. -/
def State.logitRow (s : State) (b : Buf) (row : Nat) : List (Int × Bool) × Bool :=
  let xs := (List.range b.channels).map (fun k => s.s48At b row k)
  (xs.map (fun x => (x.1, x.2.1)), xs.any (fun x => x.2.2))

/-- R147, R319: the sampler refuses a token, and its stream ends. -/
def State.refuseToken (s : State) (i : Nat) : State :=
  let s := (s.count Od.samplerRefusals 1).logEv { code := 0x3033, stream := i, model := s.sModel i }
  let seq := s.logSeqOf 0x3033
  if s.sState i = stField then ((s.leaveSteps i).faultRec i 0x3033 false 4 0 0 seq).fieldStepEnd i else s.faultStream i 0x3033 4 0 0 seq

/-- R146: the 32-bit draw for a token: the stream's seeded lane, or the slot's generator. -/
def State.tokenDraw (s : State) (c : OpCtx) (i level : Nat) : State × Nat :=
  let w7 := s.sw i 7
  if bit w7 59 then (s, seededDraw (BitVec.ofNat 64 (bits w7 47 0)) (s.drawPosition i level))
  else
    let (s, bs) := s.drawRequest c.hall (c.prog.img.bind (bits w7 63 60)).gen 32 1
    (s, drawAt 32 0 bs)

/-- R145, R147, R355: one row of SAMPLE. A row beyond the slots of the open step names no stream. -/
def State.sampleOne (s : State) (c : OpCtx) (logits map out : Buf) (r : Nat) : State :=
  match s.openStepOf c.job with
  | none => s
  | some x =>
    let i := leNat (s.landBytes map.since map.landing (map.base * 64 + 2 * r) 2)
    if x.slots.length ≤ r ∨ x.removed.contains i then s
    else
      let w6 := s.sw i 6
      if samplerBad logits.channels (bits w6 63 48) then s.refuseToken i
      else
        let (zs, bad) := s.logitRow logits (logits.row (bits c.word 103 88) r)
        if bad then s.stepPoison c.job true
        else
          let (slot, level) := nodeOf x.slots (bits (s.sw i 11) 55 48) r
          let (s, d) := s.tokenDraw c i level
          let t := sampleToken (s.exptOf (s.sModel i)) (zs.map (·.1)) logits.lsb (bits w6 31 24 + 1) (bits w6 47 32) (bits w6 63 48) d
          let s := s.counts [(Od.tokensSampled, 1), (Od.wideSaturations, (zs.filter (·.2)).length)]
          let s := s.modStream i (fun q => { q with sampled := q.sampled ++ [(slot, t)] })
          s.landWrite out.landing (out.base * 64 + 4 * r) (leBytes 4 t) false c.tenant

/-- R143: the slots through which the rows of a SAMPLE draw: the code of the first that may not. -/
def State.sampleSlots (s : State) (c : OpCtx) (map : Buf) (rows : Nat) : Option Nat :=
  (List.range (min rows (((s.openStepOf c.job).map (·.slots.length)).getD 0))).findSome? (fun r =>
    let w7 := s.sw (leNat (s.landBytes map.since map.landing (map.base * 64 + 2 * r) 2)) 7
    if bit w7 59 then none
    else match c.slotFor (bits w7 63 60) (·.samp) with
      | .error e => some e
      | .ok _ => none)

/-- R145: SAMPLE. -/
def State.sampleBody (c : OpCtx) (s : State) : State × OpRes :=
  let w := c.word
  let l := hallLanding c.hall
  let rows := bits w 87 82 + 1
  match s.need c.since l (bits w 111 104) [3], s.need c.since l (bits w 81 74) [7], s.need c.since l (bits w 73 66) [0, 7] with
  | .error e, _, _ => (s, .stop e)
  | _, .error e, _ => (s, .stop e)
  | _, _, .error e => (s, .stop e)
  | .ok logits, .ok map, .ok out =>
    if !out.writable ∨ !((List.range rows).all (fun r => logits.rowOk (bits w 103 88) r)) then (s, .stop 0x3061)
    else if map.bytesLen < 2 * rows ∨ out.bytesLen < 4 * rows then (s, .stop 0x3077)
    else match s.sampleSlots c map rows with
      | some e => (s, .stop e)
      | none => (((List.range rows).foldl (fun s r => s.sampleOne c logits map out r) s).tick, .open_)

/-- R145: SAMPLE. -/
def execSample (f : FlightId) (s : State) : Result :=
  if !flightOk f then .refused .noSuchUnit else .next (s.issueOp f (isOp 0x46) State.sampleBody)

end Sys2Proof.Machine
end

