-- ==== Sys2Proof/Machine/Arches.lean ====
section
/-!
DEFINITION. Arches.lean: the link layer of an arch: training and retraining (R399 to R401, R540), flit slots, retry and credits (R402 to R407), and the loss of an
arch or a member (R415, R430, R431).
-/

namespace Sys2Proof.Machine

/-! ### Control flits and slots (R403, R405 to R407) -/

/-- R403: a control flit with a body. -/
def ctlFlit (body : Bytes) : Flit := ⟨2, false, false, 0, 0, 0, 0, 0, body, true⟩

/-- R405: NAK: CTYPE 0x01, the expected SEQ in bytes 14 and 15. -/
def nakBody (seq : Nat) : Bytes := leBytes 1 1 ++ zeros 1 ++ leBytes 2 seq

/-- R406: flits of the receive buffer of a channel. -/
def vcBuffer (vc : Nat) : Nat := match vc with | 0 => 64 | 1 => 1024 | 2 => 1024 | _ => 512

/-- R406: a channel has a credit. -/
def ArchSt.credited (a : ArchSt) (vc : Nat) : Bool :=
  decide ((kget 0 vc a.sent + 65536 - kget 0 vc a.credit) % 65536 < vcBuffer vc)

/-- A channel has a flit queued. -/
def ArchSt.waiting (a : ArchSt) (vc : Nat) : Bool := !(kget [] vc a.queues).isEmpty

/-- R407: the turns of VC 1 to 3, in the weights 2 : 2 : 1. -/
def vcTurns : List Nat := [1, 2, 1, 2, 3]

/-- R407: the channel whose data flit goes next, and the turn after it. -/
def ArchSt.nextVc (a : ArchSt) : Option (Nat × Nat) :=
  let ok := fun (v : Nat) => a.waiting v && a.credited v
  if ok 0 then some (0, a.turn)
  else ((List.range 5).find? (fun k => ok (vcTurns.getD ((a.turn + k) % 5) 1))).map (fun k =>
    (vcTurns.getD ((a.turn + k) % 5) 1, (a.turn + k + 1) % 5))

/-- R403: every flit carries the acknowledgement and the next channel's credit counter. -/
def ArchSt.stamp (a : ArchSt) (fl : Flit) : Flit :=
  { fl with ack := (a.rxSeq + 65535) % 65536, credVc := a.credVc, credCount := kget 0 a.credVc a.freed }

/-- R403: the next channel's credit counter takes its turn. -/
def ArchSt.turned (a : ArchSt) : ArchSt := { a with credVc := (a.credVc + 1) % 4 }

/-- A control flit goes. -/
def ArchSt.sendCtl (a : ArchSt) (body : Bytes) : Flit × ArchSt := (a.stamp (ctlFlit body), { a.turned with slots := 0 })

/-- R405, R406: a new data flit goes, and stays in the retry buffer. -/
def ArchSt.sendData (a : ArchSt) (vc turn : Nat) : Flit × ArchSt :=
  match kget [] vc a.queues with
  | [] => (a.stamp ⟨0, false, false, 0, 0, 0, 0, 0, [], true⟩, a.turned)
  | x :: rest =>
    let fl := { a.stamp x.fl with seq := a.txSeq }
    (fl, { a.turned with
      queues := kset [] vc rest a.queues, retry := a.retry ++ [{ x with fl := fl }], txSeq := (a.txSeq + 1) % 65536,
      sent := kset 0 vc ((kget 0 vc a.sent + 1) % 65536) a.sent, flitsTx := a.flitsTx + 1, turn := turn, slots := a.slots + 1 })

/-- R405: a replayed flit goes. -/
def ArchSt.sendReplay (a : ArchSt) (x : TxFlit) (rest : List TxFlit) : Flit × ArchSt :=
  (a.stamp x.fl, { a.turned with resend := rest, replays := a.replays + 1, slots := a.slots + 1 })

/-- R407: what an arch sends in a flit slot; `data` says that it carries frames. -/
def ArchSt.slot (a : ArchSt) (data : Bool) : Flit × ArchSt :=
  if a.nak then ({ a with nak := false } : ArchSt).sendCtl (nakBody a.rxSeq)
  else match a.timeCtl with
    | fl :: rest => ({ a with timeCtl := rest } : ArchSt).sendCtl fl.body
    | [] => match (if 15 ≤ a.slots ∨ !data then a.ctl else []) with
      | fl :: rest => ({ a with ctl := rest } : ArchSt).sendCtl fl.body
      | [] =>
        let idle := (a.stamp ⟨0, false, false, 0, 0, 0, 0, 0, [], true⟩, { a.turned with slots := a.slots + 1 })
        if !data then idle
        else match a.resend with
          | x :: rest => a.sendReplay x rest
          | [] => if 512 ≤ a.retry.length then idle
            else match a.nextVc with
              | some (vc, turn) => a.sendData vc turn
              | none => idle

/-! ### Forwarding buffers (R420) -/

/-- R420: the flits that occupy the forwarding buffers of a class in a hall: those of forwarded frames that wait on the hall's arches. -/
def State.classFlits (s : State) (h cls : Nat) : Nat :=
  ((List.range 3).map (fun k => ((List.range 4).map (fun v => ((kget [] v (s.arch (3 * h + k)).queues).filter (fun x => x.cls == cls)).length)).sum)).sum

/-- R406: flits of a receive buffer are freed. -/
def State.freeCredits (s : State) (n vc k : Nat) : State :=
  if k = 0 then s else s.setArch n { s.arch n with freed := kset 0 vc ((kget 0 vc (s.arch n).freed + k) % 65536) (s.arch n).freed }

/-- R420: a frame for another module goes on, once the buffers of its class (256 flits for each class in each hall) take it, behind the frames that wait for
the same buffers; until then it stays in its receive buffer, whose credits are not freed. -/
def State.forwardFrame (s : State) (f : Frame) (owed : Nat) : State :=
  if 16 ≤ f.hops + 1 then ((s.count Od.hopLimitDrops 1).logEv { code := 0x5011, job := f.job }).freeCredits f.arch f.vc owed
  else
    match s.routeArch f.dest with
    | none => ((s.count Od.unroutableDrops 1).logEv { code := 0x5011, job := f.job }).freeCredits f.arch f.vc owed
    | some n =>
      let cls := (s.splitLevel f.dest).getD 0
      let ahead := s.arcade.held.any (fun e => s.splitLevel e.1.dest == some cls && (s.routeArch e.1.dest).any (fun k => k / 3 == n / 3))
      if ahead ∨ 256 < s.classFlits (n / 3) cls + cdiv (frameBytes f).length 240 then
        { s with arcade := { s.arcade with held := s.arcade.held ++ [(f, owed)] } }
      else ((s.count Od.forwardedFrames 1).queueFrame n { f with hops := f.hops + 1 }).freeCredits f.arch f.vc owed

/-- R420: frames that wait for a forwarding buffer try again. -/
def State.forwardHeld (s : State) : State :=
  s.arcade.held.foldl (fun s e => s.forwardFrame e.1 e.2) { s with arcade := { s.arcade with held := [] } }

/-- The credit counters of an arch start anew: nothing is owed for the frames that it received. -/
def State.disown (s : State) (n : Nat) : State :=
  { s with arcade := { s.arcade with held := s.arcade.held.map (fun e => if e.1.arch = n then (e.1, 0) else e) } }

/-! ### Flit slots (R407) -/

/-- R406: a data flit waits for a credit in this slot. -/
def ArchSt.stalled (a : ArchSt) : Bool := (List.range 4).any (fun v => a.waiting v && !a.credited v)

/-- The arch sends flits: it trains, carries frames, or takes part in a test. -/
def ArchSt.alive (a : ArchSt) : Bool := (1 ≤ a.state && a.state ≤ 4) || a.loopSent || a.partnerTest

/-- R407: FLIT_SLOT. -/
def execFlitSlot (arch : Nat) (s : State) : Result :=
  if !archOk arch then .refused .noSuchUnit
  else
    let a := s.arch arch
    if !a.alive then .next s
    else
      let data := decide (1 ≤ a.state) && decide (a.state ≤ 4) && !a.partnerTest
      let a := { a with stalls := a.stalls + (if data && a.stalled then 1 else 0) }
      let (fl, a) := a.slot data
      .next ((s.setArch arch a).emit (.flit arch fl)).forwardHeld

/-! ### Loss of an arch (R430) -/

/-- Cut a channel's queue into what is left of a partly sent frame and the whole frames after it. -/
def wholeFrames : Nat → List TxFlit → List (List TxFlit)
  | 0, _ => []
  | fuel + 1, l =>
    match l with
    | [] => []
    | x :: t => (x :: t.takeWhile (fun y => !y.fl.first)) :: wholeFrames fuel (t.dropWhile (fun y => !y.fl.first))

/-- R430: flits queued that belong to a frame partly sent. -/
def partlySent (l : List TxFlit) : List TxFlit := l.takeWhile (fun x => !x.fl.first)

/-- R430: the frames of a channel of which nothing has been sent. -/
def queuedFrames (arch vc : Nat) (l : List TxFlit) : List Frame :=
  let l := l.drop (partlySent l).length
  (wholeFrames (l.length + 1) l).filterMap (fun fs => frameOf arch vc (fs.flatMap (fun x => x.fl.body)))

/-- R430: jobs with a frame partly sent, or a flit unacknowledged, on an arch. -/
def ArchSt.jobsAtRisk (a : ArchSt) : List Nat :=
  ((a.retry ++ (List.range 4).flatMap (fun v => partlySent (kget [] v a.queues))).map (·.job)).dedup.filter (· != 0)

/-- R420, R430: the frames of which nothing has been sent take the new routes; HELLO frames do not. -/
def State.reroute (s : State) (n : Nat) (a : ArchSt) : State :=
  ((List.range 4).flatMap (fun v => queuedFrames n v (kget [] v a.queues))).foldl (fun s f => if f.ftype = 1 then s else s.sendFrame f) s

/-- An arch that carries no frames any more. -/
def ArchSt.emptied (a : ArchSt) (state now : Nat) : ArchSt :=
  { a with state := state, queues := [], retry := [], resend := [], ctl := [], timeCtl := [], nak := false, discard := false, partial_ := [], owed := [],
           retraining := false, afterTest := false, attempts := 0, streak := 0, downAt := now }

/-- R431: this module stops a job for a failed link or member. As a manager it tells every member. -/
def State.stopForLink (s : State) (job : Nat) : State :=
  (s.sendJobStop job 0x5020 (s.stopPaths none)).jobStopAll job 0x5020

/-- R430, R431: a job with traffic on a lost arch is reported to its manager, or stopped by it. -/
def State.reportJob (s : State) (job : Nat) : State :=
  if s.isManager ∨ s.depth ≤ 2 then s.stopForLink job
  else match s.arcade.manager with
    | some m => s.sendJobStop job 0x5020 [m]
    | none => s

/-- R431: a job's programs here use a member. -/
def Image.usesMember (i : Image) (p : Word64) : Bool :=
  i.barriers.any (fun b => decide (3 ≤ b.scope)) || i.peers.any (fun x => x.path == p) || i.groups.any (fun g => inGallery g.gallery p)

/-- R416: the election of this module's gallery at a level begins. -/
def State.startElectionAt (s : State) (l : Nat) : State :=
  if s.depth ≤ 2 then s else { s with arcade := { s.arcade with electing := true, electIntervals := 0, election := [], electLevel := l } }

/-- R416: the election of the tray begins. -/
def State.startElection (s : State) : State := s.startElectionAt 3

/-- R431: the jobs that used a lost member stop. -/
def State.stopUsers (s : State) (p : Word64) : State :=
  (((s.progs.filter (fun e => e.2.img.usesMember p)).map (·.2.img.job)).dedup).foldl State.stopForLink s

/-! ### The deputy (R417) -/

/-- R417: the record of a stream that the mirrored table holds: its words, at its committed progress. Its caches stayed with the lost manager (DESIGN CHOICE, log
entry 99). -/
def State.mirroredStream (s : State) (i : Nat) : StreamRec :=
  let w := fun (k : Nat) => s.memWord (s.entryAddr i + 8 * k)
  let first := bits (w 8) 31 0 == 0
  { s.entryRecord i with
    was := if bits (w 0) 7 0 = stWaitingPage then (if first then stPrompt else stGenerating) else 0,
    fed := if first && !bit (w 10) 62 then bits (w 8) 63 32 else 0,
    ready := s.epoch,
    admitted := if bits (w 0) 10 8 = 0 ∧ runningState (bits (w 0) 7 0) ∧ bits (w 12) 15 0 ≠ 0x4021 then some (0, w 1 - w 17) else none,
    demoted := bits (w 0) 10 8 == 0 && bits (w 12) 15 0 == 0x4021 }

/-- R417: the deputy that becomes manager serves the gallery's streams from the mirrored table; a stream that it serves already stays. -/
def State.takeOver (s : State) : State :=
  s.tableEntries.foldl (fun s i =>
    if runningState (s.sState i) ∨ s.sState i = stField then s
    else
      let s := s.setStream i (s.mirroredStream i)
      let st := if s.sState i = stWaitingPage then (s.stream i).was else s.sState i
      let s := if st = stPrompt then s.queueInput i else s
      if s.sState i = stWaitingPage then (s.modStream i (fun r => { r with was := 0 })).setState i st else s) s

/-- R415, R417, R431: a member is lost: its manager logs it and stops the jobs that used it; when the manager is lost, the deputy becomes manager. -/
def State.memberLost (s : State) (p : Word64) : State :=
  let wasManager := s.arcade.manager == some p
  let s : State := { s with arcade := { s.arcade with
    members := s.arcade.members.filter (· != p), heads := s.arcade.heads.filter (fun e => e.2.1 != p), managers := s.arcade.managers.filter (fun e => e.2 != p) } }
  let s : State := if wasManager then { s with arcade := { s.arcade with manager := s.arcade.deputy, deputy := none } } else s
  let s := if wasManager ∧ s.isManager then s.takeOver else s
  let s := if s.isManager then
      let s := (s.count Od.membersLost 1).fault { code := 0x5012, address := p.toNat } (unitSubject 6 0xFF (s.memberOf p))
      (s.stopUsers p).closeSettled
    else s
  s.startElection

/-- R415: a partner is lost on an arch; one lost on every arch is a lost member. -/
def State.partnerLost (s : State) (n : Nat) : State :=
  let p := (s.arch n).partner
  let s := s.setArch n { (s.arch n) with partner := noPath, pArch := 0xFF, pMode := 0xFF, pKey := [] }
  if p = noPath ∨ (List.range 12).any (fun k => (s.arch k).carries && (s.arch k).partner == p) then s
  else if s.arcade.members.contains p then s.memberLost p else s

/-- R430: an arch goes down. -/
def State.archGoesDown (s : State) (n : Nat) : State :=
  let a := s.arch n
  let jobs := a.jobsAtRisk
  let s := (s.setArch n { a.emptied 5 s.epoch with lanes := 0 }).disown n
  let s := s.fault { code := 0x5010, hall := n / 3, unit := n } (unitSubject 6 (n / 3) n)
  if s.mode = .safeStop then s
  else
  let s := s.reroute n a
  let s := jobs.foldl State.reportJob s
  (s.partnerLost n).forwardHeld.closeSettled

/-- R430: ARCH_DOWN: loss of signal, loss of FEC lock for 1 ms, a failed retrain, a lost partner. -/
def execArchDown (arch cause : Nat) (s : State) : Result :=
  if !archOk arch then .refused .noSuchUnit
  else if 3 < cause then .refused .noSuchUnit
  else
    let a := s.arch arch
    .next (if a.up || a.state == 2 || (a.state == 1 && a.retraining) then s.archGoesDown arch else s)

/-! ### Training and retraining (R399 to R401, R540) -/

/-- R401: an arch retrains from event 2: its buffers stay, and every unacknowledged flit is replayed after it. -/
def ArchSt.retrain (a : ArchSt) : ArchSt :=
  { a with state := 1, retraining := true, afterTest := false, attempts := 0, retrains := a.retrains + 1, resend := a.retry, streak := 0,
           discard := false, nak := false, partial_ := a.partial_ }

/-- R401: a retrain in Run; an offending lane moves onto the spare when that is free. -/
def State.retrainArch (s : State) (n : Nat) (lane : Bool) : State :=
  let a := s.arch n
  s.setArch n { a.retrain with spare := a.spare || (lane && a.lanes == 4) }

/-- R400: what event 3 makes of an arch: (lanes, spare in use); none where fewer than two lanes pass. -/
def laneOutcome (pass : List Nat) : Option (Nat × Bool) :=
  let p := (List.range 5).filter (fun l => pass.contains l)
  let active := (p.filter (fun l => decide (l < 4))).length
  if active = 4 then some (4, false)
  else if active = 3 ∧ p.contains 4 then some (4, true)
  else if 2 ≤ p.length then some (2, false) else none

/-- R399: an attempt fails: after the third the arch is down. A retrain after a test does not count. -/
def State.trainFailed (s : State) (n : Nat) : State :=
  let a := s.arch n
  if a.attempts + 1 < 3 then s.setArch n { a with attempts := a.attempts + 1 }
  else
    let s := if a.afterTest then s else s.logEv { code := 0x5001, hall := n / 3, unit := n }
    if a.retraining then s.archGoesDown n
    else s.setArch n { (a.emptied 5 s.epoch) with lanes := 0 }

/-- R399, R400: an arch is trained, or narrowed. At a first training the sequence numbers and credit counters are set; a retrain keeps them. -/
def State.trainDone (s : State) (n lanes : Nat) (spare : Bool) (roundTrip : Nat) : State :=
  let a := s.arch n
  let kept := a.retraining && !a.afterTest
  let base := if kept then a
    else { a with retry := [], resend := [], txSeq := 0, rxSeq := 0, sent := [], credit := [], freed := [], owed := [], credVc := 0, partial_ := [] }
  let fresh := lanes == 4 && spare && !a.spare
  let s := s.setArch n { base with
    state := if lanes = 4 then 3 else 4, lanes := lanes, spare := spare || (kept && a.spare && lanes == 4), roundTrip := roundTrip, attempts := 0,
    retraining := false, afterTest := false, missed := 0, ackAt := s.epoch }
  let s := (if kept then s else s.disown n).forwardHeld
  if lanes = 2 then s.logEv { code := 0x5006, hall := n / 3, unit := n }
  else if fresh then s.logEv { code := 0x5002, hall := n / 3, unit := n } else s

/-- R399, R400: ARCH_TRAINING: the outcome of one attempt of an arch in training; with it a partner's test of the arch has ended (R547). -/
def execArchTraining (arch : Nat) (signal : Bool) (lanesPass : List Nat) (fecLock : Bool) (roundTrip : Nat) (helloOk : Bool) (s : State) : Result :=
  if !archOk arch then .refused .noSuchUnit
  else if (s.arch arch).state ≠ 1 && !(s.arch arch).partnerTest then .next s
  else
    let a := s.arch arch
    let s := if a.partnerTest then s.setArch arch { a with state := 1, partnerTest := false, afterTest := true } else s
    .next (match laneOutcome lanesPass with
      | none => s.trainFailed arch
      | some (lanes, spare) =>
        if !signal ∨ !fecLock ∨ 2000 < roundTrip ∨ !helloOk then s.trainFailed arch else s.trainDone arch lanes spare roundTrip)

/-- R564: the wafer's 3.3 V supply of the active cable of arch n: on from Training onward, off while the arch is disabled in OD 0x5000.02. In
Safe Stop the halls carry no power, so their wafers supply none (DEDUCED, log entry 95). -/
def State.cableSupply (s : State) (n : Nat) : Bool :=
  (s.mode == .training || s.mode == .ready || s.mode == .run || s.mode == .stopped) && bit (s.odGet Od.archEnable) n

/-- R540: ARCH_RETRY: in Ready and Run, every enabled arch that is down trains again. -/
def execArchRetry (s : State) : Result :=
  if s.mode ≠ .ready ∧ s.mode ≠ .run then .next s
  else
    .next ((List.range 12).foldl (fun s n =>
      let a := s.arch n
      if a.state = 5 ∧ bit (s.odGet Od.archEnable) n ∧ !s.testing 1 n ∧ !a.partnerTest then s.setArch n { a with state := 1, attempts := 0 } else s) s)

/-- R401, R402: LANE_FEC_WINDOW: at the end of a second, the symbols corrected on each lane and the codewords not corrected are counted; a lane
at OD 0x5000.20 makes the arch retrain. -/
def execLaneFecWindow (arch : Nat) (corrected : List Nat) (uncorrected : Nat) (s : State) : Result :=
  if !archOk arch then .refused .noSuchUnit
  else
    let a := s.arch arch
    if !a.up ∨ a.partnerTest then .next s
    else
      let s := s.setArch arch { a with fecCorr := a.fecCorr + corrected.sum, fecUncorr := a.fecUncorr + uncorrected }
      .next (if s.mode = .run ∧ corrected.any (fun n => decide (s.odGet Od.laneSymbolLimit ≤ n)) then s.retrainArch arch true else s)

/-- R401: FEC lock lost for less than 1 ms: the arch retrains. -/
def execFecLockLost (arch : Nat) (s : State) : Result :=
  if !archOk arch then .refused .noSuchUnit
  else .next (if (s.arch arch).up then s.retrainArch arch false else s)

/-! ### Acknowledgement and replay (R405) -/

/-- Flits between two sequence numbers. -/
def seqDist (a b : Nat) : Nat := (b + 65536 - a) % 65536

/-- R405: an ACK frees the retry buffer up to it. -/
def ArchSt.acked (a : ArchSt) (ack now : Nat) : ArchSt :=
  match a.retry with
  | [] => a
  | x :: _ =>
    let n := seqDist x.fl.seq ack + 1
    if a.retry.length < n then a
    else { a with retry := a.retry.drop n, ackAt := now, streak := 0,
                  resend := a.resend.filter (fun y => decide (n ≤ seqDist x.fl.seq y.fl.seq)) }

/-- R401, R405: replay from the first flit unacknowledged; the eighth replay of one flit in succession makes the arch retrain. -/
def State.replayArch (s : State) (n : Nat) : State :=
  let a := s.arch n
  if a.retry = [] then s
  else if 8 ≤ a.streak + 1 ∧ s.mode = .run then s.retrainArch n false
  else s.setArch n { a with resend := a.retry, streak := a.streak + 1 }

/-- R405: NAK: the sender replays from the expected SEQ; what lies before it is acknowledged. -/
def execNak (arch expected : Nat) (s : State) : Result :=
  if !archOk arch then .refused .noSuchUnit
  else
    let a := s.arch arch
    if !a.up && a.state ≠ 2 then .next s
    else .next ((s.setArch arch (a.acked ((expected + 65535) % 65536) s.epoch)).replayArch arch)

/-- R405: ACK_TIMEOUT: 4 µs have passed without an ACK advancing. -/
def execAckTimeout (arch : Nat) (s : State) : Result :=
  if !archOk arch then .refused .noSuchUnit
  else
    let a := s.arch arch
    if !a.up && a.state ≠ 2 then .next s else .next (s.replayArch arch)

end Sys2Proof.Machine
end

