-- ==== Sys2Proof/Machine/Movers.lean ====
section
/-!
DEFINITION. Movers.lean: the halls' Movers (R284 to R292), the waits for pages (R292 to R299), and PAGE_RESPONSE (R295).
-/

namespace Sys2Proof.Machine

/-! ### What a transfer's progress starts (R297) -/

/-- Jobs with resident programs of a model. -/
def State.modelJobList (s : State) (m : Nat) : List Nat :=
  ((s.progs.filter (fun e => e.2.img.model == m)).map (fun e => e.2.img.job)).dedup

/-- The job runs without an open step. -/
def State.runsUnstepped (s : State) (job : Nat) : Bool :=
  (s.openStepOf job).isNone && (s.jobProgs job).any (fun e => e.2.mode == .running && !e.2.atEnd)

/-- R297: more input of a stream is confirmed: a step that waited for it commits, and a job that waited for its next chunk opens its step. -/
def State.inputProgress (s : State) (i : Nat) : State :=
  (s.modelJobList (s.sModel i)).foldl (fun s j =>
    match s.openStepOf j with
    | some x => if x.slots.contains i then s.tryRelease j else s
    | none => if s.runsUnstepped j then s.openStep j else s) s

/-- R297: the input of a stream waits on a page: a job that has nothing below CONFIRMED left for it is suspended. -/
def State.inputStuck (s : State) (i : Nat) : State :=
  if !s.inputWaits i ∨ s.serve.steps.any (fun x => x.slots.contains i) then s
  else ((s.modelJobList (s.sModel i)).filter s.runsUnstepped).foldl (fun s j => s.suspendJob j) (s.waitForInput i)

/-- R297, R298: a transfer returns to RUNNING: its stream returns to the state that it left. -/
def State.backFromPage (s : State) (i : Nat) : State :=
  if s.sState i ≠ stWaitingPage then s
  else
    let w := (s.stream i).was
    (s.modStream i (fun r => { r with was := 0 })).setState i w

/-! ### Places of an access (R284, R286) -/

/-- Where an access of a Mover lies. -/
inductive Place where
  | dev (a : Nat)
  | host (a : Nat)
  | land (l off : Nat)
  | page
  | bad (code : Nat)
  deriving DecidableEq, Repr

/-- R284: transfers of the step scheduler, which alone may reach host memory and wait for pages. -/
def Desc.ofStream (d : Desc) : Bool := (d.use == .input || d.use == .output) && d.origin == 1

/-- R286: the first byte of a side, as an offset in its space: for a landing, unit × 64 in the buffer of its handle. -/
def spacePos (space a : Nat) : Nat := if space = 2 then bits a 31 8 * 64 else a

/-- R284, R286: the place of n bytes of a side from its byte `done` on. A FETCH from an area with SHARED reads SHARED leaves alone (R283). -/
def State.moverPlace (s : State) (d : Desc) (space a done n : Nat) (write : Bool) : Place × State :=
  let x := spacePos space a + done
  match space with
  | 0 =>
    let (r, s) := s.translate d.hall d.tenant x write
    match r with
    | .ok b _ e =>
      let y := bits e 51 12 * 4096 + (x - b)
      if bit e 5 then (if d.ofStream then .host y else .bad 0x2030, s)
      else if d.shared && !write && !bit e 4 then (.bad 0x2030, s) else (.dev y, s)
    | .fault c => (.bad c, s)
    | .page => (if d.ofStream then .page else .bad 0x2030, s)
  | 1 => (if memTop < x + n then .bad 0x2030 else .dev x, s)
  | _ =>
    match s.resolve d.since (hallLanding d.hall) (a % 256) with
    | none => (.bad 0x3060, s)
    | some b =>
      if b.bytesLen < x + n then (.bad 0x3077, s)
      else if write && !b.writable then (.bad 0x3061, s)
      else (.land b.landing (b.base * 64 + x), s)

/-- R288, R292: the bytes of a descriptor's next access: to the next 256-byte boundary of the destination, and within one page of a virtual side. -/
def Desc.piece (d : Desc) : Nat :=
  let dst := spacePos d.dstSpace d.dst + d.sent
  let src := spacePos d.srcSpace d.src + d.sent
  let n := min (256 - dst % 256) (d.len - d.sent)
  if d.srcSpace = 0 then min n (4096 - src % 4096) else n

/-- R290: a byte as a Mover carries it, with the poison of its word. -/
abbrev PByte := Byte × Bool

/-- What an access meets outside the module, and on the reads of memory and landings: the bytes that the host delivers, the 64-byte lines of host memory that arrive
poisoned, bit errors of memory words (R260) and of landing words (R203). -/
structure MoverIn where
  data : Bytes
  bad  : List Nat
  errs : List BitErr
  land : List LandErr
  deriving DecidableEq, Repr

/-- The bytes that an access reads. -/
def State.moverRead (s : State) (d : Desc) (p : Place) (n : Nat) (x : MoverIn) : List PByte × State :=
  match p with
  | .dev a =>
    let (b, _, s) := s.memRead a n x.errs
    (b.zip ((List.range n).map (fun i => s.wordPoisoned ((a + i) / 8))), s)
  | .host a =>
    (((padTo n x.data).zip (List.range n)).map (fun e => (e.1, x.bad.contains ((a + e.2) / 64))), s.emit (.hostRead a n))
  | .land l off =>
    let s := s.landErrors (x.land.filter (fun e => e.landing == l && decide (off / 8 ≤ e.word) && decide (8 * e.word < off + n)))
    ((s.landBytes d.since l off n).zip ((List.range n).map (fun i => s.landWordPoison d.since l ((off + i) / 8))), s.tick)
  | _ => ([], s)

/-- R288: of a piece that goes from one place to another of the same kind, the bytes that fall into the overlap of the two regions of the copy are undefined. -/
def State.overlapFree (s : State) (d : Desc) (p q : Place) (bs : List PByte) : List PByte × State :=
  let go := fun (unit a b : Nat) =>
    let bad := fun (i : Nat) => decide (a ≤ b + i + d.sent) && decide (b + i + d.sent < a + d.len)
    if (List.range bs.length).any bad then
      ((bs.zip (List.range bs.length)).map (fun e => if bad e.2 then (Config.freeByte s.free unit (b + e.2), e.1.2) else e.1), s.tick)
    else (bs, s)
  match p, q with
  | .dev a, .dev b => go 700 a b
  | .land l a, .land k b => if l = k then go (500 + l) a b else (bs, s)
  | _, _ => (bs, s)

/-- R261, R290: the bytes of each 8-byte word of a write, poisoned where one of them is. -/
def wordRuns (a : Nat) (bs : List PByte) : List (Nat × Bytes × Bool) :=
  (wordsOf a bs.length).map (fun w =>
    let lo := max a (8 * w)
    let l := (bs.drop (lo - a)).take (8 * w + 8 - lo)
    (lo, l.map (·.1), l.any (·.2)))

/-- R261, R290: the writes that carry the bytes of an access: one where none is poisoned, else one for each word. -/
def writeRuns (a : Nat) (bs : List PByte) : List (Nat × Bytes × Bool) :=
  if bs.any (·.2) then wordRuns a bs else [(a, bs.map (·.1), false)]

/-- R440, R290: the writes of host memory: a 64-byte line whole, or the words of a line that carries poison each by itself. -/
def hostRuns (a : Nat) (bs : List PByte) : List (Nat × Bytes × Bool) :=
  (splitLines (bs.length / 64 + 2) a (bs.map (·.1))).flatMap (fun l => writeRuns l.1 ((bs.drop (l.1 - a)).take l.2.length))

/-- R288 to R290: an access writes its bytes; those for device memory count as written when their last write has left the module's queue (R437). -/
def State.moverWrite (s : State) (d : Desc) (p : Place) (bs : List PByte) (errs : List BitErr) : State :=
  let landed := fun (s : State) => ({ s with xlate := { s.xlate with landed := s.xlate.landed ++ [(d.id, bs.length)] } } : State)
  match p with
  | .dev a =>
    let s := s.partErrors errs (partWords a bs.length)
    s.hostActs ((writeRuns a bs).flatMap (fun r => writeActs r.1 r.2.1 r.2.2) ++ [.moved d.id bs.length])
  | .host a => landed (s.emits ((hostRuns a bs).map (fun r => .hostWrite r.1 r.2.1 r.2.2)))
  | .land l off => landed ((wordRuns off bs).foldl (fun s r => s.landWrite l r.1 r.2.1 r.2.2 d.tenant) s)
  | _ => s

/-! ### Ends of a descriptor (R287, R299) -/

/-- R298: steps all of whose output bytes are confirmed, or whose last stream to wait for has left them, are released. -/
def State.retryReleases (s : State) : State :=
  ((s.serve.steps.filter (fun x => x.closing.isSome && x.waits.isEmpty)).map (·.job)).foldl State.tryRelease s

/-- R286, R246, R299: a descriptor ends FAULTED: its stream takes the fault record and ends; the program of a FETCH or STORE stops at its word. -/
def State.descFaults (s : State) (id code addr : Nat) : State :=
  match s.desc id with
  | none => s
  | some d =>
    if d.state.final then s
    else
      let s := s.modDesc id (fun d => { d with state := .faulted, status := code, faultAddr := addr })
      if d.ofStream ∧ !endedState (s.sState d.stream) then
        let s := s.logEv { code := code, hall := d.hall, stream := d.stream, address := addr, job := d.job }
        (s.faultStream d.stream code 2 addr d.confirmed (s.logSeqOf code)).retryReleases
      else if d.use = .prog then
        let word := ((s.progAt (d.prog / 4) (d.prog % 4)).bind (fun p => p.issued.find? (fun x => x.id == d.op))).map (·.word)
        s.refuseOp (d.prog / 4) (d.prog % 4) code (word.getD 0)
      else s

/-- R292: a descriptor waits for a page. -/
def State.descWaits (s : State) (d : Desc) (va : Nat) (write : Bool) : State :=
  let s := s.modDesc d.id (fun d => { d with state := .waitingPage, faultAddr := va })
  let s := s.openRequest d.tenant (va / 4096 * 4096) write d.stream d.id
  if d.use = .output then s.outputWaits d.stream d.id else s.inputStuck d.stream

/-- R287, R289, R291: bytes of a descriptor have been written and are confirmed; it may be DONE. One that has ended otherwise keeps its state. -/
def State.descMoves (s : State) (id n : Nat) : State :=
  match s.desc id with
  | none => s
  | some d =>
    let done := decide (d.len ≤ d.confirmed + n) && !d.state.final
    let s := s.modDesc id (fun d => { d with confirmed := d.confirmed + n, state := if done then .done else d.state })
    let s := s.count Od.moverBytes n
    let s := if done then s.count Od.moverDescriptors 1 else s
    match d.use with
    | .input => s.inputProgress d.stream
    | .output => if done then s.outputDone id else s
    | _ => s

/-- R289: what has been written is confirmed, descriptor by descriptor. -/
def State.settleMoves (s : State) : State :=
  s.xlate.landed.foldl (fun s e => s.descMoves e.1 e.2) { s with xlate := { s.xlate with landed := [] } }

/-- R437, R282, R289: the queue of the module's writes goes on as far as it can; bytes of descriptors that have been written are confirmed, and writes of
XLATE_INVALIDATE whose accesses have completed are answered. -/
def State.settleHost (s : State) : State := (drainHost (s.cxl.waiting.length + 1) s).settleMoves.answerReady

/-- R285: at a 4 KiB boundary of its destination, a running descriptor yields to a higher class for which no Mover is free. -/
def State.mayYield (s : State) (id : Nat) : State :=
  match s.desc id with
  | none => s
  | some d =>
    if d.state = .running ∧ (spacePos d.dstSpace d.dst + d.sent) % 4096 = 0 ∧ 16 ≤ (s.runningMovers d.hall).length ∧
        (s.nextDescFor d.hall).any (fun n => decide (n.cls < d.cls)) then
      (s.modDesc id (fun d => { d with state := .yielded })).count Od.moverYields 1
    else s

/-! ### The commands -/

/-- R285, R286: MOVER_TAKE. -/
def execMoverTake (hall : Nat) (s : State) : Result :=
  if !hallOk hall then .refused .noSuchUnit
  else if 16 ≤ (s.runningMovers hall).length then .next s
  else
    match s.nextDescFor hall with
    | none => .next s
    | some d => .next (if descOk d.bytes then s.modDesc d.id (fun d => { d with state := .running }) else s.descFaults d.id 0x2030 0)

/-- R525: the job of the step for which a descriptor of sequencer or step-scheduler origin copies. -/
def State.descJob (s : State) (d : Desc) : Option Nat :=
  match d.use with
  | .prog => some d.job
  | .input => (s.serve.steps.find? (fun x => x.slots.contains d.stream)).map (·.job)
  | .output => (s.serve.steps.find? (fun x => x.waits.contains d.id)).map (·.job)
  | _ => none

/-- R290, R525: an access has carried poison: its bytes are counted, and the step for which it copies is poisoned. -/
def State.carriesPoison (s : State) (d : Desc) (p : Place) (bs : List PByte) : State :=
  if !bs.any (·.2) then s
  else
    let s := s.count Od.moverPoisonBytes ((bs.filter (·.2)).length)
    let at_ := match p with
      | .dev a => ((List.range bs.length).filter (fun i => (bs.getD i (0#8, false)).2)).map (· + a)
      | _ => []
    match s.descJob d with
    | some j => s.copiedPoison j d.hall at_
    | none => s

/-- One access of a running descriptor. An uncorrectable word that it reads may lead to Safe Stop, which has abandoned it. -/
def State.moverAccess (s : State) (d : Desc) (x : MoverIn) : State :=
  let n := d.piece
  let n := if d.dstSpace = 0 then min n (4096 - (d.dst + d.sent) % 4096) else n
  let (p, s) := s.moverPlace d d.srcSpace d.src d.sent n false
  match p with
  | .bad c => s.descFaults d.id c (spacePos d.srcSpace d.src + d.sent)
  | .page => s.descWaits d (d.src + d.sent) false
  | p =>
    let (q, s) := s.moverPlace d d.dstSpace d.dst d.sent n true
    match q with
    | .bad c => s.descFaults d.id c (spacePos d.dstSpace d.dst + d.sent)
    | .page => s.descWaits d (d.dst + d.sent) true
    | q =>
      let (bs, s) := s.moverRead d p n x
      if s.mode = .safeStop then s
      else
        let (bs, s) := s.overlapFree d p q bs
        let s := (s.modDesc d.id (fun d => { d with sent := d.sent + n })).carriesPoison d p bs
        ((s.moverWrite d q bs x.errs).settleMoves).mayYield d.id

/-- R288 to R292: MOVER_ACCESS_DONE. A descriptor of which every access has been made waits for its last writes. -/
def execMoverAccessDone (id : Nat) (data : Bytes) (errs : MoverErrs) (s : State) : Result :=
  match s.desc id with
  | none => .next s
  | some d => .next (if d.state = .running ∧ d.sent < d.len then s.moverAccess d ⟨data, errs.bad, errs.words, errs.land⟩ else s)

/-! ### Answers to page requests (R295, R296) -/

/-- A page request ends. -/
def State.dropRequest (s : State) (r : PageReq) : State :=
  { s with xlate := { s.xlate with requests := dropFirst (fun x => x.tenant == r.tenant && x.page == r.page) s.xlate.requests } }

/-- R295, R296: every waiting transfer of a request ends FAULTED. -/
def State.refusePage (s : State) (r : PageReq) (code counter : Nat) : State :=
  let ds := s.waitersOf r
  let s := (s.dropRequest r).count counter 1
  let s := ds.foldl (fun s d => s.descFaults d.id code d.faultAddr) s
  logRequests (s.xlate.requests.length) s

/-- R295: a waiting transfer walks the page again. -/
def State.rewalk (s : State) (d : Desc) : State :=
  let write := d.use == .output
  let (r, s) := s.translate d.hall d.tenant d.faultAddr write
  match r with
  | .ok _ _ _ => (s.modDesc d.id (fun d => { d with state := .running })).backFromPage d.stream
  | .fault c => s.descFaults d.id c d.faultAddr
  | .page =>
    let page := d.faultAddr / 4096 * 4096
    let new := !(s.xlate.requests.any (fun r => r.tenant == d.tenant && r.page == page))
    let s := s.openRequest d.tenant page write d.stream d.id
    if new then s.count Od.pageRefaults 1 else s

/-- R295: PAGE_RESPONSE, by its value: the status and the state. -/
def State.pageAnswer (s : State) (v : Nat) : Nat × State :=
  match s.xlate.requests.find? (fun r => r.rec_ == some (v % 256)) with
  | none => (0x1105, s)
  | some r =>
    if v / 256 = 2 then (0, s.refusePage r 0x2032 Od.pageRefusals)
    else if v / 256 = 1 then
      let ds := s.waitersOf r
      let s := ds.foldl (fun s d => s.rewalk d) (s.dropRequest r)
      (0, logRequests (s.xlate.requests.length) s)
    else (0x1105, s)

/-- R296: PAGE_TIMEOUT. -/
def execPageTimeout (tenant page : Nat) (s : State) : Result :=
  if !tenantOk tenant then .refused .noSuchUnit
  else
    match s.xlate.requests.find? (fun r => r.tenant == tenant && r.page == page / 4096 * 4096) with
    | none => .next s
    | some r => .next (s.refusePage r 0x2033 Od.pageTimeouts)

end Sys2Proof.Machine
end

