-- ==== Sys2Proof/Machine/Transit.lean ====
section
/-!
DEFINITION. Transit.lean: the module's transitions between states (R63, R328, R535, R536, R541), entry into Standby (R39, R61,
R254, R524) and Off, and the end of a running test (R544).
-/

namespace Sys2Proof.Machine

/-! ### Tests (R544, R547) -/

/-- R547, R551: the tested part returns to service: an arch and the CXL link retrain from their first event. -/
def State.restoreTested (s : State) (r : TestRun) : State :=
  if r.kind = 1 ∧ r.iface = 1 ∧ !bit (s.odGet Od.archEnable) r.unit_ then s.setArch r.unit_ { (s.arch r.unit_) with state := 0, loopSent := false }
  else if r.kind = 1 ∧ r.iface = 1 then s.setArch r.unit_ { (s.arch r.unit_) with state := 1, retraining := true, afterTest := true, attempts := 0, resend := (s.arch r.unit_).retry, loopSent := false }
  else s

/-- R543: the entry that shows the state of a kind of test. -/
def testStateKey (kind : Nat) : Nat := if kind = 1 then Od.testState else if kind = 2 then Od.marginState else Od.bistState

/-- R544, R546: the running test ends with a state. -/
def State.finishTest (s : State) (code : Nat) : State :=
  match s.test.run with
  | none => s
  | some r => ({ (s.restoreTested r) with test := { s.test with run := none } } : State).odPut (testStateKey r.kind) code

/-! ### Stop (R328) -/

/-- R328, R542: the open steps and the transfers of streams are abandoned, and no program runs; resident programs stay loaded, to
be started again. -/
def State.haltWork (s : State) : State :=
  let fields := (s.serve.steps.flatMap StepSt.live).filter (fun i => s.sState i == stField)
  let halt := fun (x : FlightSt) =>
    { x with tiles := [], refetch := [], resolved := [], current := none,
             progs := x.progs.map (fun p => { p with mode := .idle, pc := 0, rep := none, counters := List.replicate 8 0, issued := [],
                                                     bars := [], resume := none, ppDone := false, lastPass := [] }) }
  let clear := fun (r : StreamRec) => { r with sampled := [], tree := [], ready := s.epoch }
  let s : State :=
    { s with halls := { s.halls with flights := s.halls.flights.map (fun e => (e.1, halt e.2)), barriers := [] },
             serve := { s.serve.dropped with streams := s.serve.streams.map (fun e => (e.1, clear e.2)) } }
  let s := (s.abandonDescs (fun d => d.use == .input || d.use == .output || d.use == .prog)).abandonParks
  (fields.foldl (fun s i => s.fieldStepEnd i) s).takeIdleCancels

/-! ### Off and Standby -/

/-- R39, R40: the dictionary with its defaults and, over them, the stored values. -/
def OdSt.atStandby (o : OdSt) : OdSt :=
  { OdSt.reset with
    vals := o.stored.foldl (fun m e => kset (odDefault e.1) e.1 e.2 m) [], doms := o.storedDom,
    stored := o.stored, storedDom := o.storedDom }

/-- R61: each key's H is its stored value plus 4,096, and its record is clear. -/
def EopSt.atStandby (e : EopSt) : EopSt :=
  { high := e.stored.map (fun p => (p.1, p.2 + 4096)), seen := [], stored := e.stored, queue := [] }

/-- R459: the cell records of a field map. -/
def mapRecords (b : Bytes) : List CellRec := (pieces 48 (b.length / 48) b).map cellRecOf

/-- R461, R462: the cells of a map, not yet bound. -/
def mapCells (b : Bytes) : List CellSt := (mapRecords b).foldl (fun l r => insertCell (cellNew r) l) []

/-- R482, R498, R524: Newel at an entry into Standby without a power-on: failed sensors are tried again, THERMTRIP_N is released,
every episode but one of kind 8 closes. -/
def NewelSt.atStandby (n : NewelSt) : NewelSt :=
  { n with episodes := n.episodes.filter (fun e => e.subj.kind == 8), tripped := false,
           sensors := n.sensors.map (fun x => { x with failed := false }), svcHeldStop := false, svcTimerFrom := none }

/-- R254, R265, R266: what the memory controllers hold at an entry into Standby: contents are lost, listed mezzanine rows stay
listed for the next Training. -/
def MemSt.atStandby (m : MemSt) : MemSt := { MemSt.reset with repairs := m.repairs }

/-- Power and clocks at an entry into Standby without a power-on: the management die runs on (R501, R504). -/
def PowerSt.atStandby (p : PowerSt) : PowerSt := { PowerSt.reset with freq := p.freq, tcxo := p.tcxo, lastSwitch := p.lastSwitch }

/-- R12, R39, R61, R254, R524: entry into Standby from Safe Stop, Stopped or Training: hall contents, loaded models and streams are
gone; the log, the timebase and the links of the field ports run on; what is withdrawn stays so until
Training (R270; DEDUCED, log entry 91); the Foyer's firmware is loaded again (R450). -/
def State.toStandby (s : State) : State :=
  let od := s.od.atStandby
  let cells := mapCells ((kfind Od.fieldMap od.doms).getD [])
  let restarts := s.odGet Od.newelRestarts
  let links := s.odGet Od.portLinks
  let bonded := s.odGet Od.stacksPresent
  let mezz := s.odGet Od.mezzPresent
  let s : State :=
    { s with od := od, eop := s.eop.atStandby, newel := s.newel.atStandby,
             cxl := { CxlSt.reset with perstHigh := s.cxl.perstHigh }, halls := HallsSt.reset, mem := s.mem.atStandby,
             xlate := XlateSt.reset, serve := ServeSt.reset, arcade := ArcadeSt.reset,
             foyer := { FoyerSt.reset with cells := cells, sfp := s.foyer.sfp },
             power := s.power.atStandby, test := { s.test with run := none, driven := false, floated := false } }
  ((((s.odPut Od.newelRestarts restarts).odPut Od.portLinks links).odPut Od.stacksPresent bonded).odPut Od.mezzPresent mezz).setMode .standby

/-- R517, R560: the switch opens: Off. Only the flash, the fuses and the wiring keep anything. -/
def State.toOff (s : State) (high : Bool) : State :=
  { s with mode := .off, trans := none, od := { OdSt.reset with stored := s.od.stored, storedDom := s.od.storedDom },
           eop := { EopSt.reset with stored := s.eop.stored }, log := { LogSt.reset with persist := s.log.persist },
           newel := { NewelSt.reset with bootCount := s.newel.bootCount, security := s.newel.security, slot := s.newel.slot,
                                         straps := s.newel.straps },
           cxl := { CxlSt.reset with perstHigh := s.cxl.perstHigh }, halls := HallsSt.reset,
           mem := { MemSt.reset with repairs := s.mem.repairs }, xlate := XlateSt.reset, serve := ServeSt.reset,
           arcade := ArcadeSt.reset, foyer := FoyerSt.reset,
           power := { PowerSt.reset with tcxo := 0, highOwed := high || s.power.highOwed },
           start := { closed := false, mated := s.start.mated, trainedAt := 0, selfTested := false, memoryDone := false,
                      waitTrain := false, running := false },
           test := TestSt.reset }

/-! ### Training (R535, R536) -/

/-- R429, R507: the rack reference is present. -/
def State.rackPresent (s : State) : Bool := s.arcade.pulseAt.isSome && !s.arcade.rackLost

/-- R498, R535: a sensor that tripped THERMTRIP_N reads above 95 °C. -/
def State.tripHot (s : State) : Bool :=
  s.newel.tripSensors.any (fun n => s.newel.sensors.any (fun x => x.kind == 0 && x.index == n && decide (95000 < x.value)))

/-- R507: Newel may leave Standby. -/
def State.mayTrain (s : State) : Bool :=
  (s.power.tcxo == 1 || (s.rackPresent && s.odGet Od.timeMode == 1)) && !s.newel.recovery

/-- R536, R399: entry into Training: halls powered at 0.72 V, every enabled arch from its first event, memory training. -/
def State.beginTraining (s : State) : State :=
  let arch := fun (s : State) n =>
    if bit (s.odGet Od.archEnable) n then s.setArch n { ArchSt.reset with state := 1 } else s
  let s := (List.range 12).foldl arch s
  let s := (List.range 4).foldl (fun s h => s.odPut (Od.fabricMvH0 + h) 720) s
  let s : State :=
    { s with power := { s.power with hallPower := [0, 1, 2, 3], plls := [] },
             newel := { s.newel with tripSensors := [] },
             start := { s.start with trainedAt := s.epoch, selfTested := false, memoryDone := false, waitTrain := false } }
  (s.odPut Od.trainingState 1).setMode .training

/-- R535: what follows an entry into Standby by request, activation or R497. -/
def State.standbyEntered (s : State) : State :=
  if s.odGet Od.startMode ≠ 2 then { s with start := { s.start with waitTrain := true } }
  else if s.mayTrain && !s.tripHot && !s.start.waitTrain then s.beginTraining else s

/-! ### Run (R541, R462) -/

/-- R462: every mapped cell that is not bound is bound, in ascending ENTRY. -/
def State.bindAll (s : State) : State :=
  (s.foyer.cells.filter (fun c => c.state != 1)).foldl (fun s c => s.bindCell c.rec_.entry) s

/-- R541, R328: entry into Run: from Ready the mapped cells bind; from Stopped the streams continue. -/
def State.enterRun (s : State) : State :=
  let fromReady := s.mode == .ready
  let s := s.setMode .run
  if fromReady then s.bindAll else (s.streamList.filter (fun i => runningState (s.sState i))).foldl (fun s i => s.continueStream i) s

/-! ### Requests (R63) -/

/-- R63: a request that is legal from the current state, and the state it leads to. -/
def legalRequest (m : ModState) (v : Nat) : Option ModState :=
  match v, m with
  | 4, .ready => some .run
  | 4, .stopped => some .run
  | 5, .ready => some .stopped
  | 5, .run => some .stopped
  | 1, .stopped => some .standby
  | 1, .safeStop => some .standby
  | _, _ => none

/-- R63, R493, R498, R544, R554: Newel takes a state request: the code with which it refuses it, or 0 and the transition begun. -/
def State.requestState (s : State) (v : Nat) : Nat × State :=
  match legalRequest s.mode v with
  | none => (0x1103, s)
  | some m =>
    let fw := s.odGet Od.fwState
    if s.trans.isSome ∨ fw = 2 ∨ fw = 3 ∨ (m = .standby ∧ s.tripHot) ∨ (m = .run ∧ s.odGet Od.extestSinceStandby ≠ 0) then (0x1103, s)
    else
      let s := s.finishTest 5
      (0, { s with trans := some m })

/-- R497: Newel's own request, dropped where R63 refuses it. -/
def State.ownRequest (s : State) (v : Nat) : State := (s.requestState v).2

/-- R494: at the Standby that an activation enters, the boot ROM runs the image of the slot and burns the fuses up to its
SECURITY_VERSION. Newel does not keep running through it, so no episode stays open (R524). -/
def NewelSt.activate (n : NewelSt) : NewelSt :=
  match n.fwActivated, n.slot with
  | true, some i =>
    { n with running := i, security := max n.security i.security, fwActivated := false, recovery := false, episodes := [] }
  | _, _ => n

/-- R63: the accepted transition ends. -/
def State.endTransition (s : State) : State :=
  match s.trans with
  | some .run => s.enterRun
  | some .stopped =>
    let s := (s.haltWork).setMode .stopped
    if s.newel.svcTimerFrom.isSome then { s with newel := { s.newel with svcTimerFrom := some s.epoch } } else s
  | some .standby => ({ s.toStandby with newel := s.toStandby.newel.activate } : State).standbyEntered
  | _ => s

end Sys2Proof.Machine
end

