-- ==== Sys2Proof/Machine/Cxl.lean ====
section
/-!
DEFINITION. Cxl.lean: the CXL port (chapter 18): host reads and writes of the window, back-invalidation, the decoder, the link, resets and power states,
MSI-X (R443), and the mailbox's CXL commands (R441, R442).
-/

namespace Sys2Proof.Machine

/-! ### The exposed window (R434 to R436) -/

/-- R434: bytes of the window that Range 1 reports. -/
def State.rangeSize (s : State) : Nat := s.odGet Od.hostWindowSize / 268435456 * 268435456

/-- R435: Memory_Active: the link is up and memory is trained and filled. -/
def State.memoryActive (s : State) : Bool := s.cxl.linkUp && s.odGet Od.trainingState == 2

/-- R437: the host may cache a line: it enters the filter, or waits until the oldest line has left a full one. -/
def State.filterAdd (s : State) (l : Nat) : State :=
  if s.cxl.filter.contains l then s
  else if s.cxl.filter.length < filterMax then { s with cxl := { s.cxl with filter := s.cxl.filter ++ [l] } }
  else s.hostActs [.enter l]

/-- R436, R438, R439, R313: MemWr of the masked bytes of the line at a DPA, through the watch filter where it lies in the stream table. -/
def execHdmWrite (dpa : Nat) (mask : BitVec 64) (data : Bytes) (poison : Bool) (errs : List BitErr) (s : State) : Result :=
  let d := dpa / 64 * 64
  if !s.cxl.linkUp || decide (s.rangeSize ≤ d) then .next s
  else if !s.memoryActive then .next ((s.count Od.earlyHdmAccesses 1).emit (.memDone d))
  else if s.mode = .safeStop then .next (s.emit (.memDone d))
  else
    let a := s.odGet Od.hostWindowBase + d
    let m := fun k => mask.getLsbD k
    let part := fun w => w / 8 == a / 64 && (List.range 8).any (fun k => m (8 * w - a + k)) && !((List.range 8).all (fun k => m (8 * w - a + k)))
    let s := s.partErrors errs part
    let b := padTo 64 data
    let s := if s.inTable a then s.tableWrite a m b poison (!s.isWorker) else s.maskedWrite a m b poison
    .next (s.emit (.memDone d))

/-- R437: a back-invalidate has waited 100 ms: 0x6111, and the write goes on waiting. -/
def execBirspTimeout (line : Nat) (s : State) : Result :=
  if s.cxl.snooped = some line then
    .next (s.fault { code := 0x6111, address := s.odGet Od.hostWindowBase + 64 * line } (unitSubject 10 0xFF 0xFF))
  else .next s

/-- R440: every H2D snoop is answered with RspIHitI. -/
def execH2dSnoop (hpa : Nat) (s : State) : Result :=
  .next (if s.cxl.linkUp then s.emit (.snoopRsp hpa) else s)

/-- R434: the host commits decoder 0. -/
def execHdmDecoderCommit (base size ways : Nat) (s : State) : Result :=
  if !s.cxl.linkUp then .next s
  else if base % 268435456 = 0 ∧ size % 268435456 = 0 ∧ size ≤ s.rangeSize ∧ ways = 1 then
    let s := ((s.odPut Od.hdmCommitted 1).odPut Od.hdmHpaBase (base % 2 ^ 64)).odPut Od.hdmSize size
    .next (s.emit (.decoder true))
  else .next (s.emit (.decoder false))

/-! ### The link (R432, R435, R446) -/

/-- R432, R435: the link reaches L0, in 256-byte flit mode at 32 GT/s or above, or as PCIe only. -/
def execCxlLinkUp (flit256 : Bool) (rate width : Nat) (s : State) : Result :=
  if !s.portLive || s.testing 3 0 || s.cxl.linkUp || s.cxl.pcieOnly then .next s
  else if flit256 ∧ 32 ≤ rate then
    .next { s with cxl := { s.cxl with linkUp := true, infoValid := true, rate := rate, width := width } }
  else
    .next (({ s with cxl := { s.cxl with pcieOnly := true, infoValid := true, rate := rate, width := width } } : State).logEv { code := 0x6101 })

/-- R446: a stream transfer that reaches host memory now: its next byte lies behind a HOST leaf. -/
def State.toHost (s : State) (d : Desc) : Bool :=
  !d.state.final && (d.use == .input || d.use == .output) &&
  (let va := if d.srcSpace = 0 then d.src + d.confirmed else d.dst + d.confirmed
   match s.walk d.tenant va with
   | .ok _ _ e => bit e 5
   | _ => false)

/-- R446: the link is lost: transfers to host memory end their streams, the filter is cleared, the decoder uncommitted, and the module's waiting writes
proceed. `logged` is false for a test of the port (R547). -/
def State.linkLost (s : State) (logged : Bool) : State :=
  if !(s.cxl.linkUp || s.cxl.pcieOnly) then s
  else
    let ds := s.xlate.descs.filter s.toHost
    let s := ({ s with cxl := s.cxl.unlinked } : State).uncommit
    let s := s.count Od.linkLosses 1
    let s := if logged then s.logEv { code := 0x6110 } else s
    let seq := if logged then s.logSeqOf 0x6110 else 0
    let s := ds.foldl (fun s d =>
      let va := if d.srcSpace = 0 then d.src + d.confirmed else d.dst + d.confirmed
      if endedState (s.sState d.stream) then s else s.faultStream d.stream 0x6110 2 va d.confirmed seq) s
    s.settleHost

/-- R446. -/
def execCxlLinkDown (s : State) : Result := .next (s.linkLost true)

/-- R562: PERST_N low holds the port in reset, so that the link goes down; high releases it. -/
def execPerst (high : Bool) (s : State) : Result :=
  let s := if high then s else s.linkLost true
  .next { s with cxl := { s.cxl with perstHigh := high } }

/-- R447: FLR resets the function's CXL.io state: MSI-X table, AER status and mailbox; a background command ends and its result is discarded. -/
def execFlr (s : State) : Result :=
  .next { s with cxl := { s.cxl with masked := List.range 64, funcMask := false, pendBits := [], d3hot := false },
                 od := { s.od with stateWait := s.od.stateWait.filter (fun w => w.origin != .mailbox) } }

/-- R448, R462: the exposed range is written with zeros; entries of the stream table in it become FREE. Where that erases field entries, every mapped cell that is not
bound any more binds again, in ascending ENTRY. -/
def State.clearWindow (s : State) : State :=
  let lo := s.odGet Od.hostWindowBase
  let hi := lo + s.rangeSize
  let inside := fun (a : Nat) => decide (lo ≤ a) && decide (a < hi)
  let m : MemSt :=
    { s.mem with cells := s.mem.cells.filter (fun e => !inside e.1), poison := s.mem.poison.filter (fun e => !inside (8 * e.1)) }
  let s : State := { s with mem := m }
  let fields := (s.streamList.filter (fun i => s.sState i == stField))
  let gone := s.streamList.filter (fun i => inside (s.entryAddr i))
  let s := gone.foldl (fun s i => (s.releaseShare i).setStream i StreamRec.reset) s
  if fields.all (fun i => !gone.contains i) then s
  else
    ((s.foyer.cells.filter (fun c => c.state != 1 || gone.contains c.rec_.entry)).map (·.rec_.entry)).foldl (fun s e => s.bindCell e) s

/-- R448: CXL Reset, with memory clear where `clear` says so. -/
def execCxlReset (clear : Bool) (s : State) : Result :=
  if !(s.cxl.linkUp || s.cxl.pcieOnly) then .next s
  else
    let s := (s.count Od.cxlResets 1).logEv { code := 0x6120 }
    let seq := s.logSeqOf 0x6120
    let s := s.haltWork
    let s := s.streamList.foldl (fun s i =>
      if endedState (s.sState i) ∨ s.sState i = stField then s else s.faultStream i 0x6120 5 0 0 seq) s
    let s := ({ s with cxl := { s.cxl with filter := [], snooped := none } } : State).uncommit
    let s := s.settleHost
    .next (if clear then s.clearWindow else s)

/-! ### MSI-X and power states (R443, R449) -/

/-- R443: messages whose pending bits are set and that nothing masks any more leave, in the order of their vectors. -/
def State.sendPending (s : State) : State :=
  if s.cxl.d3hot || s.cxl.funcMask || !s.cxl.linkUp then s
  else
    let go := (List.range 64).filter (fun v => s.cxl.pendBits.contains v && !s.cxl.masked.contains v)
    ({ s with cxl := { s.cxl with pendBits := s.cxl.pendBits.filter (fun v => !go.contains v) } } : State).emits (go.map .msix)

/-- R449. -/
def execD3hotEntry (s : State) : Result :=
  .next (if s.cxl.linkUp || s.cxl.pcieOnly then { s with cxl := { s.cxl with d3hot := true } } else s)

/-- R449: back in D0, messages that waited leave; host transfers go on as their Movers next try. -/
def execD0Entry (s : State) : Result :=
  .next (({ s with cxl := { s.cxl with d3hot := false } } : State).sendPending)

/-- R443: the host unmasks a vector, or clears the function mask. -/
def execMsixVectorUnmask (vector : Nat) (function : Bool) (s : State) : Result :=
  if !function && !vectorOk vector then .refused .noSuchUnit
  else if function then .next (({ s with cxl := { s.cxl with funcMask := false } } : State).sendPending)
  else .next (({ s with cxl := { s.cxl with masked := s.cxl.masked.filter (· ≠ vector) } } : State).sendPending)

/-- R325: a coalescing interval ends: records written during it are signalled now, which opens the next interval. -/
def execCoalesceExpiry (vector : Nat) (s : State) : Result :=
  if !vectorOk vector then .refused .noSuchUnit
  else
    match kfind vector s.serve.coalesce with
    | none => .next s
    | some (_, false) => .next { s with serve := { s.serve with coalesce := kdel vector s.serve.coalesce } }
    | some (_, true) =>
      let s : State := { s with serve := { s.serve with coalesce := kput vector (s.epoch, false) s.serve.coalesce } }
      .next (s.hostActs [.signal vector])

/-! ### The mailbox (R441, R442, R479) -/

/-- The CXL return codes that the mailbox uses (PRESUMED, log entry 30). -/
abbrev cxlSuccess : Nat := 0x0000
abbrev cxlInvalidInput : Nat := 0x0002
abbrev cxlUnsupported : Nat := 0x0003
abbrev cxlBusy : Nat := 0x0006

/-- R449, R479, R495, R542: a mailbox command reaches the module while the port carries CXL.io; while Newel restarts it is answered Busy; the recovery
loader serves no CXL command. -/
def State.mailbox (s : State) (f : State → State) : State :=
  if !(s.cxl.linkUp || s.cxl.pcieOnly) then s
  else if s.newel.restarting then s.mbDone (.mbReturn cxlBusy)
  else if s.newel.recovery then s.mbDone (.mbReturn cxlUnsupported)
  else f s

/-- R441: Identify: the vendor from OD 0x1000.01, the other identifiers free, and the 64 KiB payload (PRESUMED, log entry 30). -/
def execIdentify (s : State) : Result :=
  .next (s.mailbox (fun s =>
    let other := (List.range 14).map (fun i => Config.freeByte 0 0x6100 i)
    s.mbDone (.cxl 0x0001 (leBytes 2 0x0D7E ++ other ++ leBytes 1 16 ++ [Config.freeByte 0 0x6100 14]))))

/-- R441, R442: the status of the background command: in progress, its opcode. -/
def execBackgroundOperationStatus (s : State) : Result :=
  .next (s.mailbox (fun s =>
    let run := s.od.stateWait.any (fun w => w.origin == .mailbox)
    s.mbDone (.cxl 0x0002 (leBytes 2 (if run then 1 else 0) ++ leBytes 2 (if run then 0xC006 else 0) ++ zeros 4))))

/-- R441: a running OD_STATE_WAIT ends with the current state. -/
def execRequestAbortBackgroundOperation (s : State) : Result :=
  .next (s.mailbox (fun s =>
    let s := s.mbDone (.mbReturn cxlSuccess)
    if s.od.stateWait.any (fun w => w.origin == .mailbox) then s.endStateWait else s))

/-- R444: an event log by number. -/
def CxlSt.events (c : CxlSt) (log : Nat) : List LogRec :=
  match log with | 0 => c.evInfo | 1 => c.evWarn | 2 => c.evFail | 3 => c.evFatal | _ => []

/-- Replace an event log. -/
def CxlSt.setEvents (c : CxlSt) (log : Nat) (l : List LogRec) : CxlSt :=
  match log with
  | 0 => { c with evInfo := l } | 1 => { c with evWarn := l } | 2 => { c with evFail := l } | 3 => { c with evFatal := l } | _ => c

/-- R444: an event record of 128 bytes: 48 bytes that identify it (free, but for its handle and TIME), and the log record (PRESUMED, log entry 30). -/
def eventBytes (r : LogRec) : Bytes :=
  (List.range 16).map (fun i => Config.freeByte 0 0x6101 i) ++ leBytes 1 128 ++ leBytes 3 r.severity ++ leBytes 2 r.seq ++ zeros 2 ++
  leBytes 8 r.time ++ zeros 16 ++ padTo 80 r.bytes

/-- R441, R444: Get Event Records of a log (0 Informational, 1 Warning, 2 Failure, 3 Fatal). -/
def execGetEventRecords (log : Nat) (s : State) : Result :=
  .next (s.mailbox (fun s =>
    if 4 ≤ log then s.mbDone (.mbReturn cxlInvalidInput)
    else
      let l := s.cxl.events log
      let flags := if s.cxl.overflow.contains log then 1 else 0
      s.mbDone (.cxl 0x0100 (leBytes 1 flags ++ zeros 19 ++ leBytes 2 l.length ++ zeros 10 ++ l.flatMap eventBytes))))

/-- R441, R444: Clear Event Records: all of a log, or those with the handles named. -/
def execClearEventRecords (log : Nat) (all : Bool) (handles : List Nat) (s : State) : Result :=
  .next (s.mailbox (fun s =>
    if 4 ≤ log then s.mbDone (.mbReturn cxlInvalidInput)
    else
      let l := if all then [] else (s.cxl.events log).filter (fun r => !handles.contains (r.seq % 65536))
      let c := s.cxl.setEvents log l
      let c : CxlSt := { c with overflow := c.overflow.filter (· ≠ log) }
      ({ s with cxl := c } : State).mbDone (.mbReturn cxlSuccess)))

/-- R441. -/
def execGetEventInterruptPolicy (s : State) : Result :=
  .next (s.mailbox (fun s => s.mbDone (.cxl 0x0102 (padTo 4 s.cxl.policy))))

/-- R441: vector 0 only: a policy byte that names another vector is refused (PRESUMED, log entry 30: mode in bits [1:0], vector in bits [7:4]). -/
def execSetEventInterruptPolicy (policy : Bytes) (s : State) : Result :=
  .next (s.mailbox (fun s =>
    if policy.length < 4 ∨ (policy.take 4).any (fun b => decide (1 < b.toNat % 4) || decide (b.toNat / 16 ≠ 0)) then
      s.mbDone (.mbReturn cxlInvalidInput)
    else ({ s with cxl := { s.cxl with policy := policy.take 4 } } : State).mbDone (.mbReturn cxlSuccess)))

/-- R441: the host timestamp: 0 until it is set, then it advances with the Epoch Counter (PRESUMED, log entry 30). `hostTime` is 0, or 1 plus the difference of the
two. -/
def execGetTimestamp (s : State) : Result :=
  .next (s.mailbox (fun s =>
    s.mbDone (.cxl 0x0300 (leBytes 8 (if s.cxl.hostTime = 0 then 0 else (s.cxl.hostTime - 1 + s.epoch) % 2 ^ 64)))))

/-- R441: the Epoch Counter is unaffected. -/
def execSetTimestamp (t : Nat) (s : State) : Result :=
  .next (s.mailbox (fun s =>
    ({ s with cxl := { s.cxl with hostTime := 1 + (t % 2 ^ 64 + 2 ^ 64 - s.epoch % 2 ^ 64) % 2 ^ 64 } } : State).mbDone (.mbReturn cxlSuccess)))

/-- R50, R441: the opcodes that the mailbox serves. -/
def mailboxOpcodes : List Nat :=
  [0x0001, 0x0002, 0x0005, 0x0100, 0x0101, 0x0102, 0x0103, 0x0300, 0x0301, 0x0400, 0x0401, 0x4000, 0xC000, 0xC001, 0xC002, 0xC003,
   0xC004, 0xC005, 0xC006]

/-- R441: the Command Effects Log: each opcode with its effects (free). -/
def effectsLog : Bytes :=
  mailboxOpcodes.flatMap (fun o => leBytes 2 o ++ [Config.freeByte 0 0x6102 o, Config.freeByte 0 0x6103 o])

/-- The identifier of the Command Effects Log (PRESUMED, log entry 30). -/
def effectsUuid : Bytes :=
  [0x0D#8, 0xA9#8, 0xC0#8, 0xB5#8, 0xBF#8, 0x41#8, 0x4B#8, 0x78#8, 0x8F#8, 0x79#8, 0x96#8, 0xB1#8, 0x62#8, 0x3B#8, 0x3F#8, 0x17#8]

/-- R441: one log. -/
def execGetSupportedLogs (s : State) : Result :=
  .next (s.mailbox (fun s => s.mbDone (.cxl 0x0400 (leBytes 2 1 ++ zeros 6 ++ effectsUuid ++ leBytes 4 effectsLog.length))))

/-- R441: a part of the Command Effects Log, which is log 0. -/
def execGetLog (log offset length : Nat) (s : State) : Result :=
  .next (s.mailbox (fun s =>
    if log ≠ 0 ∨ effectsLog.length < offset + length then s.mbDone (.mbReturn cxlInvalidInput)
    else s.mbDone (.cxl 0x0401 ((effectsLog.drop offset).take length))))

/-- R441: volatile capacity as Range 1 Size, persistent capacity 0, in units of 256 MiB, and the depth of each event log (PRESUMED, log entry 30). -/
def execIdentifyMemoryDevice (s : State) : Result :=
  .next (s.mailbox (fun s =>
    let u := s.rangeSize / 268435456
    let rev := (List.range 16).map (fun i => Config.freeByte 0 0x6104 i)
    s.mbDone (.cxl 0x4000 (rev ++ leBytes 8 u ++ leBytes 8 u ++ zeros 8 ++ zeros 8 ++ leBytes 2 64 ++ leBytes 2 64 ++ leBytes 2 64 ++ leBytes 2 64 ++
      zeros 11))))

end Sys2Proof.Machine
end

