-- ==== Sys2Proof/Machine/Discovery.lean ====
section
/-!
DEFINITION. Discovery.lean: HELLO (R413 to R415), elections (R416, R417) and the Epoch Counter across modules (R425 to R429).
-/

namespace Sys2Proof.Machine

/-! ### HELLO (R413, R414) -/

/-- R413: OD 0x1000.07. -/
def deviceKeyBytes : Bytes := (List.range 57).map Config.deviceKey

/-- R414: OD 0x5100.08. -/
def State.fabric (s : State) : Bytes := s.domGet Od.fabricId (zeros 16)

/-- R413: bytes 0 to 221 of this module's HELLO on an arch. -/
def State.helloBody (s : State) (n nonce : Nat) : Bytes :=
  let a := s.arch n
  padTo 16 s.fabric ++ deviceKeyBytes ++ leBytes 1 n ++ leBytes 1 (s.odGet Od.managerMode) ++ leBytes 1 s.depth ++ leBytes 8 s.ownPath.toNat ++
  leBytes 8 nonce ++ leBytes 8 a.pNonce ++ leBytes 8 s.epoch ++ (List.range 114).map Config.endorsement

/-- R413, R415: send a HELLO on an arch, with a fresh NONCE. -/
def State.sendHello (s : State) (n : Nat) : State :=
  let a := s.arch n
  let nonce := (Config.entropy s.free (1000 + n)).toNat
  let body := s.helloBody n nonce
  let pay := body ++ (List.range 114).map (Config.sign 1 body)
  let s := s.setArch n { a with nonces := (nonce :: a.nonces).take 2 }
  s.queueFrame n (s.mkFrame a.partner 0x01 0 0 0 0 0 pay)

/-- R418, R419: the level that a port of standard wiring belongs to, and its sibling offset; the arch lies on tray member i. -/
def portOf (n i : Nat) : Nat × Nat := let q := 8 * (n - 7) + i; (4 + q / 7, q % 7 + 1)

/-- R414, R418, R419: a path is the partner that the route table expects on an arch. With a table as written, it names the arch for that path. -/
def State.expected (s : State) (n : Nat) (p : Word64) : Bool :=
  match (if s.isModulePath p then s.splitLevel p else none) with
  | none => false
  | some l =>
    let d := s.levelIndex p l
    if s.odGet Od.routeCustom ≠ 0 then (s.route l d).1 == n || (s.route l d).2 == n
    else
      let i := s.levelIndex s.ownPath 3
      if l = 3 then decide (n < 7) && decide (d = (i + n + 1) % 8)
      else
        let (lp, o) := portOf n i
        let x := s.levelIndex s.ownPath l
        decide (7 ≤ n) && decide (lp = l) && decide (d < s.gallerySize l) && decide ((x + o) % s.gallerySize l = d)

/-- R414: checks other than those of PATH. -/
def State.helloGenuine (s : State) (n : Nat) (p : Bytes) (endorsed signed : Bool) : Bool :=
  decide (p.length = 336) && p.take 16 == padTo 16 s.fabric && decide (leField p 75 1 = s.depth) && endorsed && signed &&
  (s.arch n).nonces.contains (leField p 92 8)

/-- R414: the checks of PATH. -/
def State.helloPlaced (s : State) (n : Nat) (path : Word64) : Bool :=
  s.expected n path && !((List.range 12).any (fun k => k ≠ n && (s.arch k).partner == path && (s.arch k).state ≠ 5 && (s.arch k).state ≠ 0))

/-- R414: a rejected HELLO: its arch is quarantined. -/
def State.helloRejected (s : State) (n code : Nat) : State :=
  let a := s.arch n
  let s := (s.count Od.helloRejects 1).logLimited { code := code, hall := n / 3, unit := n } n (60 * oneSec)
  if a.state = 2 then s
  else
    let s := s.setArch n { a.emptied 2 a.downAt with nonces := a.nonces }
    (s.reroute n a).partnerLost n

/-- R414, R416, R540: an accepted HELLO: the partner is known, and a quarantined arch returns to what it was, in training or trained; a member that was not there
joins. -/
def State.helloAccepted (s : State) (n : Nat) (p : Bytes) : State :=
  let a := s.arch n
  let path := BitVec.ofNat 64 (leField p 76 8)
  let st := if a.state = 2 then (if a.lanes = 0 then 1 else if a.lanes = 2 then 4 else 3) else a.state
  let s := s.setArch n { a with state := st, partner := path, pArch := leField p 73 1, pMode := leField p 74 1, pKey := (p.drop 16).take 57, missed := 0 }
  if s.arcade.members.contains path then s
  else ({ s with arcade := { s.arcade with members := s.arcade.members ++ [path] } } : State).startElection

/-- R414: a HELLO on an arch: `endorsed` and `signed` say whether its signatures verify. -/
def State.takeHello (s : State) (f : Frame) (endorsed signed : Bool) : State :=
  let n := f.arch
  let p := f.payload
  let a := s.arch n
  if a.state = 0 ∨ a.state = 5 then s
  else
    let s := s.setArch n { a with pNonce := leField p 84 8 }
    if !s.helloGenuine n p endorsed signed then s.helloRejected n 0x5003
    else if !s.helloPlaced n (BitVec.ofNat 64 (leField p 76 8)) then s.helloRejected n 0x5004
    else s.helloAccepted n p

/-! ### Elections (R416, R417) -/

/-- R416: an ELECTION frame's payload: mode and path (DESIGN CHOICE, log entry 33). -/
def electionPayload (mode : Nat) (p : Word64) : Bytes := leBytes 1 mode ++ leBytes 8 p.toNat

/-- R16, R416: the modules to which a candidate of the running election names itself: the tray's present members, or the managers of the other members. -/
def State.electors (s : State) : List Word64 :=
  if s.arcade.electLevel ≤ 3 then (s.galleryPaths 3).filter (fun p => !s.mine p)
  else ((s.levelIndices s.arcade.electLevel).filterMap (s.memberManager s.arcade.electLevel)).filter (fun p => s.splitLevel p == some s.arcade.electLevel)

/-- R416: a candidate's ELECTION frames to every present member. -/
def State.sendElection (s : State) : State :=
  if s.odGet Od.managerMode = 2 then s
  else s.electors.foldl (fun s p =>
    s.sendFrame (s.mkFrame p 0x07 0 0 0 0 0 (electionPayload (s.odGet Od.managerMode) s.ownPath))) s

/-- R16, R416: a candidate of another member gallery is heard: one that was not heard before starts the election of the gallery that both lie in, where this
module manages the member below it. -/
def State.hearHead (s : State) (l : Nat) (p : Word64) (mode : Nat) : State :=
  let k := l * 64 + s.levelIndex p l
  let new := kfind k s.arcade.heads != some (p, mode)
  let s : State := { s with arcade := { s.arcade with heads := kput k (p, mode) s.arcade.heads } }
  if new && decide (l ≤ s.managedLevel + 1) && s.isManager && !(s.arcade.electing && decide (s.arcade.electLevel ≤ l)) then s.startElectionAt l else s

/-- R416: an ELECTION frame is recorded; a sender not yet known joins. A path that no module of the hierarchy has is no candidate (R14). -/
def State.takeElection (s : State) (f : Frame) : State :=
  let mode := leField f.payload 0 1
  let p := BitVec.ofNat 64 (leField f.payload 1 8)
  match (if s.isModulePath p then s.splitLevel p else none) with
  | none => s
  | some l =>
    let s := if 3 < l then s.hearHead l p mode
      else if s.arcade.members.contains p then s
      else ({ s with arcade := { s.arcade with members := s.arcade.members ++ [p] } } : State).startElection
    { s with arcade := { s.arcade with election := s.arcade.election.filter (fun e => e.1 != p) ++ [(p, mode)] } }

/-- R416: mode 1 ranks before mode 0, then the lower path. -/
def rankBefore (a b : Word64 × Nat) : Bool := decide (b.2 < a.2) || (decide (a.2 = b.2) && !pathLt b.1 a.1)

/-- R416: the candidates of the running election, ranked: present members whose mode is 0 or 1. Above the tray each member has one, its manager. -/
def State.candidates (s : State) : List (Word64 × Nat) :=
  let own := (s.ownPath, s.odGet Od.managerMode)
  let l := s.arcade.electLevel
  let heard := if l ≤ 3 then s.arcade.election.filter (fun e => (s.galleryPaths 3).contains e.1 && !s.mine e.1)
    else (s.levelIndices l).filterMap (fun x => kfind (l * 64 + x) s.arcade.heads)
  ((own :: heard).filter (fun e => decide (e.2 < 2))).mergeSort rankBefore

/-- R416: every present member's ELECTION has arrived. -/
def State.allVoted (s : State) : Bool :=
  let l := s.arcade.electLevel
  if l ≤ 3 then (s.galleryPaths 3).all (fun p => s.mine p || s.arcade.election.any (fun e => e.1 == p))
  else (s.levelIndices l).all (fun x => x == s.levelIndex s.ownPath l || s.arcade.election.any (fun e => s.splitLevel e.1 == some l && s.levelIndex e.1 l == x))

/-- R16: the manager of a gallery takes part in the election of the gallery above. -/
def State.electAbove (s : State) : State :=
  if s.isManager && decide (s.managedLevel = s.arcade.electLevel) && decide (s.arcade.electLevel < s.depth) then s.startElectionAt (s.arcade.electLevel + 1) else s

/-- R416: what an election settles: manager and deputy of the tray, or the manager of a gallery above it. -/
def State.settleArcade (s : State) (c : List Word64) : ArcadeSt :=
  let a := { s.arcade with electing := false, electIntervals := 0, election := [] }
  if s.arcade.electLevel ≤ 3 then { a with manager := c.head?, deputy := (c.drop 1).head?, managers := [] }
  else { a with managers := match c.head? with | some p => kput s.arcade.electLevel p a.managers | none => kdel s.arcade.electLevel a.managers }

/-- R416, R417: the election settles. -/
def State.settle (s : State) : State :=
  let old := s.arcade.manager
  let c := (s.candidates).map (·.1)
  let s : State := { s with arcade := s.settleArcade c }
  let s := s.count Od.elections 1
  let s := if c = [] then s.logEv { code := 0x5005 } else s
  let s := s.electAbove
  match old with
  | some q => if s.isManager && !s.mine q && !s.arcade.members.contains q then s.stopUsers q else s
  | none => s

/-- R416: ELECTION_SETTLE, once every ELECTION has arrived or after three intervals. -/
def execElectionSettle (s : State) : Result :=
  if s.arcade.electing && (s.allVoted || decide (3 ≤ s.arcade.electIntervals)) then .next s.settle else .next s

/-- R415, R416: HELLO_INTERVAL: HELLOs go out on every trained or quarantined arch, and on one in training; three intervals without an accepted HELLO lose
the partner; a candidate names itself while an election runs. -/
def State.helloTurn (s : State) (n : Nat) : State :=
  let a := s.arch n
  if a.state = 0 ∨ a.state = 5 then s
  else if a.up ∧ 3 ≤ a.missed + 1 then s.archGoesDown n
  else (s.setArch n { a with missed := if a.up then a.missed + 1 else 0 }).sendHello n

/-- R415: HELLO_INTERVAL. -/
def execHelloInterval (s : State) : Result :=
  let s := (List.range 12).foldl State.helloTurn s
  let s := if s.arcade.electing then
      ({ s with arcade := { s.arcade with electIntervals := s.arcade.electIntervals + 1 } } : State).sendElection
    else s
  .next s.tick

/-! ### Time (R425 to R429) -/

/-- R425: the reference's path. -/
def State.timeRoot (s : State) : Option Word64 := s.levelManager s.depth

/-- R425: the arch toward the reference; none on the reference, or where no arch leads there. -/
def State.parent (s : State) : Option Nat :=
  if s.depth ≤ 2 then none
  else s.timeRoot.bind (fun p => if s.mine p then none else (s.routeArch p).bind (fun n => if (s.arch n).up then some n else none))

/-- R428: the manager of the rack gallery. -/
def State.rackManager (s : State) : Option Word64 := s.levelManager (min 4 s.depth)

/-- R428, R429: rack mode is in effect. -/
def State.rackMode (s : State) : Bool := s.odGet Od.timeMode == 1 && !s.arcade.rackLost

/-- R428: this module takes its counter from the rack pulses. -/
def State.rackFollower (s : State) : Bool := s.rackMode && s.rackManager != some s.ownPath

/-- R426: a time in 1/256 ns as a U64 of ticks and a U8. -/
def timeBytes (t : Nat) : Bytes := leBytes 8 (t / 256) ++ leBytes 1 t

/-- R426: once per ms a module asks its parent; without one it is in holdover (R429). -/
def execTimeExchangeTick (s : State) : Result :=
  if s.mode = .off then .next s
  else if s.timeRef then .next (s.odPut Od.timeState 0)
  else if s.rackFollower then .next s
  else match s.parent with
    | none => .next (({ s with arcade := { s.arcade with inBound := 0, askedAt := none } } : State).odPut Od.timeState 3)
    | some n =>
      let a := s.arch n
      let s := s.setArch n { a with timeCtl := a.timeCtl ++ [ctlFlit (leBytes 1 2 ++ timeBytes (s.epoch * 256))] }
      let s : State := { s with arcade := { s.arcade with askedAt := some s.epoch } }
      .next (if s.odGet Od.timeState = 0 ∨ s.odGet Od.timeState = 3 then s.odPut Od.timeState 1 else s)

/-- R426: TIME_REQ: the parent answers with T1, T2 and T3 (all times here in 1/256 ns). -/
def execTimeReq (arch t1 t2 t3 : Nat) (s : State) : Result :=
  if !archOk arch then .refused .noSuchUnit
  else
    let a := s.arch arch
    if !a.up then .next s
    else .next (s.setArch arch { a with timeCtl := a.timeCtl ++ [ctlFlit (leBytes 1 3 ++ timeBytes t1 ++ timeBytes t2 ++ timeBytes t3)] })

/-- R426: half of (T2 - T1) - (T4 - T3), in ns, truncated toward zero. -/
def timeOffset (t1 t2 t3 t4 : Nat) : Int := ((((t2 : Int) - t1) - ((t4 : Int) - t3)).tdiv 512)

/-- R426: |offset| is at most 2 ns. -/
def nearParent (t1 t2 t3 t4 : Nat) : Bool := decide ((((t2 : Int) - t1) - ((t4 : Int) - t3)).natAbs ≤ 1024)

/-- R427, R428: the bound in effect, in ns (OD 0x5200.09). -/
def State.alignBound (s : State) : Nat := if s.rackMode then 25 else 20

/-- R426, R429: what an exchange makes of the counter and of the alignment. In Training the counter steps forward; elsewhere the offset is slewed. -/
def State.timeTaken (s : State) (offset : Int) (near : Bool) : State :=
  let s := (s.count Od.timeExchanges 1).odPut Od.offsetNs (ofInt 32 offset)
  let n := if near then s.arcade.inBound + 1 else 0
  let out := decide (s.alignBound < offset.natAbs)
  let step := s.mode == .training && decide (0 < offset)
  let s : State := { s with
    epoch := if step then s.epoch + offset.natAbs else s.epoch,
    arcade := { s.arcade with
      inBound := n, askedAt := none, slew := if step then 0 else 2 * offset,
      outSince := if out then some (s.arcade.outSince.getD s.epoch) else none } }
  let st := s.odGet Od.timeState
  s.odPut Od.timeState (if 16 ≤ n then 2 else if st = 4 ∧ out then 4 else if st = 2 ∧ !out then 2 else 1)

/-- R426: TIME_RESP from the parent; one that nothing asked for is dropped. -/
def execTimeResp (arch t1 t2 t3 t4 : Nat) (s : State) : Result :=
  if !archOk arch then .refused .noSuchUnit
  else if s.arcade.askedAt.isNone ∨ s.parent ≠ some arch then .next s
  else .next (s.timeTaken (timeOffset t1 t2 t3 t4) (nearParent t1 t2 t3 t4))

/-- R428: the rack manager announces the counter's value at the next pulse, steered by at most one tick. -/
def State.announce (s : State) : State :=
  if !s.rackMode ∨ s.rackManager ≠ some s.ownPath then s
  else
    let steer : Int := if 0 < s.arcade.slew then 1 else if s.arcade.slew < 0 then -1 else 0
    let v := ((s.epoch + oneMs : Nat) + steer).toNat
    ((s.galleryPaths (min 4 s.depth)).filter (fun p => !s.mine p)).foldl (fun s p =>
      s.sendFrame (s.mkFrame p 0x08 0 0 0 0 0 (leBytes 8 v))) s

/-- R428, R429: RACK_SYNC_PULSE: in rack mode the counter takes the announced value, but never falls. -/
def execRackSyncPulse (s : State) : Result :=
  if s.mode = .off then .next s
  else
    let s := s.count Od.syncPulses 1
    let s : State := { s with arcade := { s.arcade with pulseAt := some s.epoch } }
    let s := match (if s.rackFollower then s.arcade.announced else none) with
      | some v => ({ s with epoch := max s.epoch v, arcade := { s.arcade with announced := none, slew := 0 } } : State).odPut Od.timeState 2
      | none => s
    .next s.announce

/-- R428: a SYNC_EPOCH frame of the rack manager. -/
def State.takeSync (s : State) (f : Frame) : State :=
  if s.rackManager = some f.src then { s with arcade := { s.arcade with announced := some (leField f.payload 0 8) } } else s

/-- R429: RACK_REF_LOST: 3 ms without a pulse: the module goes on in Arcade mode. -/
def execRackRefLost (s : State) : Result :=
  if !s.rackMode ∨ s.mode = .off then .next s
  else .next (({ s with arcade := { s.arcade with rackLost := true, pulseAt := none, announced := none, inBound := 0 } } : State).logEv { code := 0x5202 })

/-- R429: TIME_UNALIGNED: the offset has stayed beyond its bound for 100 ms. -/
def execTimeUnaligned (s : State) : Result :=
  if s.arcade.outSince.isNone ∨ s.odGet Od.timeState = 4 ∨ s.timeRef then .next s
  else .next (((({ s with arcade := { s.arcade with inBound := 0 } } : State).odPut Od.timeState 4).count Od.alignLosses 1).logEv { code := 0x5201 })

end Sys2Proof.Machine
end

