-- ==== Sys2Proof/Machine/Eop.lean ====
section
/-!
DEFINITION. Eop.lean: EOP requests as Newel checks and queues them (R55 to R61).
-/

namespace Sys2Proof.Machine

/-- R56: the header of an EOP frame. -/
structure EopHdr where
  op     : Nat
  signed : Bool
  len    : Nat
  key    : Nat
  seq    : Nat
  ts     : Nat
  path   : Word64
  deriving DecidableEq, Repr

/-- R56: the header's fields, in network byte order. -/
def eopHdr (b : Bytes) : EopHdr :=
  ⟨beField b 3 1, bit (beField b 4 1) 0, beField b 6 2, beField b 8 1, beField b 12 8, beField b 20 8, BitVec.ofNat 64 (beField b 28 8)⟩

/-- R57: the request payload. -/
def eopPayload (b : Bytes) : Bytes := (b.drop 36).take (eopHdr b).len

/-- R57: the payload lengths of an opcode. -/
def eopLenOk (op n : Nat) : Bool :=
  match op with
  | 1 => n == 4 | 2 => decide (4 ≤ n) | 3 => n == 4 | 4 => n == 8 | 5 => decide (8 ≤ n) | 6 => n == 4 | _ => false

/-- R59 check 1: a well-formed request, with a LENGTH that agrees with the datagram and reserved bytes 0. -/
def eopFormOk (b : Bytes) : Bool :=
  let h := eopHdr b
  decide (40 ≤ b.length) && decide (b.length ≤ 1186) && beField b 0 2 == 0x454F && beField b 2 1 == 1 && decide (1 ≤ h.op) && decide (h.op ≤ 6) &&
  bits (beField b 4 1) 7 1 == 0 && beField b 5 1 == 0 && beField b 9 3 == 0 && decide (h.key ≤ 7) &&
  b.length == 36 + h.len + (if h.signed then 114 else 0) && eopLenOk h.op h.len && beField b 39 1 == 0

/-- R59 check 2: the signature, where the access needs one, as every one does in recovery (R495); an empty key slot is disabled. -/
def State.eopAuthOk (s : State) (h : EopHdr) (sigOk : Bool) : Bool :=
  (h.op == 1 && s.odGet Od.eopSignedReads == 0 && !s.newel.recovery) || (h.signed && sigOk && s.domGet (Od.eopPeerKey0 + h.key) [] != [])

/-- R59 check 3: the timestamp, while the timebase reports an external time source. -/
def State.eopFresh (s : State) (h : EopHdr) : Bool :=
  let st := s.timebase
  let skew := s.odGet Od.eopSkewMs * oneMs
  !(st == 2 || st == 3) || (decide (h.ts ≤ s.epoch + skew) && decide (s.epoch ≤ h.ts + skew))

/-- R61: a key's highest accepted sequence, 4,096 for a key that never stored one. -/
def State.eopHigh (s : State) (key : Nat) : Nat := kget 4096 key s.eop.high

/-- R60, R61: the record of the 64 sequences that end at H (bit i: H - i). A cleared record refuses all of them, so that nothing accepted
before a restart is taken again (DEDUCED, log entry 39). -/
def State.eopSeen (s : State) (key : Nat) : Nat := kget (2 ^ 64 - 1) key s.eop.seen

/-- R60: the sequence is no replay. -/
def State.eopSeqOk (s : State) (key seq : Nat) : Bool :=
  let h := s.eopHigh key
  decide (h < seq) || (decide (h < seq + 64) && !bit (s.eopSeen key) (h - seq))

/-- R60, R61: the sequence is accepted; H is stored whenever it has risen by 4,096 since it was last stored. -/
def State.eopAccept (s : State) (key seq : Nat) : State :=
  let h := s.eopHigh key
  let seen := s.eopSeen key
  let high := max h seq
  let rec_ := if h < seq then (if 64 ≤ seq - h then 1 else (seen * 2 ^ (seq - h)) % 2 ^ 64 + 1) else setBit seen (h - seq) true
  let stored := kget 0 key s.eop.stored
  let e : EopSt :=
    { s.eop with high := kset 4096 key high s.eop.high, seen := kset (2 ^ 64 - 1) key rec_ s.eop.seen,
                 stored := if stored + 4096 ≤ high then kset 0 key high s.eop.stored else s.eop.stored }
  { s with eop := e }

/-- EOP requests waiting for execution (R59). -/
abbrev eopQueueMax : Nat := 32

/-- R59: the five checks, in order: whether the request is to be executed; a discarded request is counted, and one that passes. -/
def State.eopCheck (s : State) (b : Bytes) (sigOk : Bool) : Bool × State :=
  let h := eopHdr b
  if !eopFormOk b then (false, s.count Od.eopFormatDrops 1)
  else if !s.eopAuthOk h sigOk then (false, s.count Od.eopAuthDrops 1)
  else if !s.eopFresh h then (false, s.count Od.eopStaleDrops 1)
  else if !s.eopSeqOk h.key h.seq then (false, s.count Od.eopReplayDrops 1)
  else
    let s := s.eopAccept h.key h.seq
    if eopQueueMax ≤ s.eop.queue.length then (false, s.count Od.eopQueueDrops 1)
    else (true, s.count Od.eopAccepted 1)

/-- R55, R479, R542: Newel serves EOP. -/
def State.eopServed (s : State) : Bool := s.mode != .off && !s.newel.restarting && s.odGet Od.eopEnable != 0

end Sys2Proof.Machine
end

