-- ==== Sys2Proof/Machine/Newel.lean ====
section
/-!
DEFINITION. Newel.lean: Newel's own events (chapter 20): restarts, sensors, log intervals and the persistent log, the service request
line, the thermal trip, SMBus, firmware.
-/

namespace Sys2Proof.Machine

/-! ### Restarts (R479, R524) -/

/-- R479, R524: the processor pair restarts: 0x1220 waits with the hardware's error events; a failed episode table leads to
Safe Stop. `cause` names what failed (0 checker, 1 SRAM, 2 watchdog) and stands in the record's DETAIL. -/
def execNewelRestart (cause : Nat) (tableOk : Bool) (s : State) : Result :=
  if s.mode = .off then .next s
  else
    let s : State := { s with newel := { s.newel with restarting := true } }
    let s := (s.count Od.newelRestarts 1).raiseFault { code := 0x1220, detail := leBytes 1 cause } (unitSubject 8 0xFF 0xFF)
    .next (if tableOk then s
      else ({ s with newel := { s.newel with episodes := [] } } : State).enterSafeStop 0x1220)

/-- R479: one event of the queue reaches Newel after the restart. -/
def State.takeQueued (s : State) (e : FaultEv) : State :=
  match e.subj with
  | none => s.record e.ev 0 1 e.time 0 0
  | some x =>
    let fresh := (s.episodeOf x).isNone
    let s := s.takeFault e.ev x e.model e.time
    if x.kind = 1 && fresh && (s.episodeOf x).isSome then s.weightPoisoned x else s

/-- R479, R524: the restarted pair serves again, drains its event queue, and resumes the open episodes as they stand. -/
def execNewelRestartDone (s : State) : Result :=
  if !s.newel.restarting then .next s
  else
    let q := s.newel.eventQueue
    let s : State := { s with newel := { s.newel with restarting := false, eventQueue := [] } }
    .next (q.foldl State.takeQueued s)

/-! ### Sensors (R480 to R483, R272 to R274) -/

/-- A sensor by kind and number. -/
def State.sensor (s : State) (kind i : Nat) : Option Sensor := s.newel.sensors.find? (fun x => x.kind == kind && x.index == i)

/-- Set a sensor's record, in the order of kinds and numbers. -/
def putSensor (x : Sensor) : List Sensor → List Sensor
  | [] => [x]
  | y :: t =>
    if x.kind * 256 + x.index < y.kind * 256 + y.index then x :: y :: t
    else if x.kind = y.kind ∧ x.index = y.index then x :: t else y :: putSensor x t

/-- R482: a reading marks its sensor failed. -/
def readingFails (r : Reading) (prev : Option Int) : Bool :=
  if r.kind = 0 then
    decide (r.value < -40000) || decide (150000 < r.value) ||
    (match prev with | some p => decide (20000 < (r.value - p).natAbs) | none => false)
  else if r.kind = 1 ∨ r.kind = 2 then !r.inRange else false

/-- R480: the sensors that exist, by kind. -/
def sensorExists (r : Reading) : Bool :=
  match r.kind with
  | 0 => decide (r.index < 96) | 1 => decide (r.index < 32) | 2 => decide (r.index < 8) | 3 => decide (r.index < 64)
  | 4 => decide (r.index < 20) | _ => false

/-- R482: one reading. -/
def State.takeReading (s : State) (r : Reading) : State :=
  if !sensorExists r then s
  else
    let old := s.sensor r.kind r.index
    let was := (old.map (·.failed)).getD false
    let now := was || readingFails r (old.bind (·.prev))
    let s : State := { s with newel := { s.newel with
      sensors := putSensor ⟨r.kind, r.index, r.value, true, now, some r.value⟩ s.newel.sensors } }
    let s : State := if r.kind = 3 ∧ !now then { s with newel := { s.newel with rates := s.newel.rates ++ [(r.index, s.epoch, r.value)] } } else s
    if now && !was then
      (s.count Od.sensorsFailed 1).logEv { code := 0x1230, unit := r.index, detail := leBytes 1 r.kind ++ leBytes 4 (ofInt 32 r.value) }
    else s

/-- The greatest of a list of integers. -/
def maxInt : List Int → Option Int
  | [] => none
  | x :: t => some (match maxInt t with | none => x | some y => if x < y then y else x)

/-- Sensors of a kind with numbers in [lo, hi) that have been read and have not failed: their values. -/
def State.goodValues (s : State) (kind lo hi : Nat) : List Int :=
  (s.newel.sensors.filter (fun x => x.kind == kind && decide (lo ≤ x.index) && decide (x.index < hi) && x.valid && !x.failed)).map (·.value)

/-- Failed sensors of a kind with numbers in [lo, hi). -/
def State.failedCount (s : State) (kind lo hi : Nat) : Nat :=
  (s.newel.sensors.filter (fun x => x.kind == kind && decide (lo ≤ x.index) && decide (x.index < hi) && x.failed)).length

/-- R480: thermal sensors 0 to 31 lie on the hall dies, 8 a hall; 32 to 79 on the stacks, 2 a stack (DEDUCED, log entry 28). The
temperature of a hall die as the governor takes it (R482). -/
def State.dieTemp (s : State) (h : Nat) : Option Int :=
  if 4 ≤ s.failedCount 0 (8 * h) (8 * h + 8) then some 105000 else maxInt (s.goodValues 0 (8 * h) (8 * h + 8))

/-- R272, R482: the temperature of a stack. -/
def State.stackTemp (s : State) (n : Nat) : Option Int :=
  if s.failedCount 0 (32 + 2 * n) (34 + 2 * n) = 2 then some 105000 else maxInt (s.goodValues 0 (32 + 2 * n) (34 + 2 * n))

/-- R29, R272: an F32 of a figure in thousandths, rounded to nearest, ties to even. -/
def f32Milli (v : Int) : Nat :=
  let a := v.natAbs
  if a = 0 then 0
  else
    let l := Nat.log2 (a * 1048576 / 1000)
    let num := a * 2 ^ (43 - l)
    let q := num / 1000
    let r := num % 1000
    let m := if 500 < r ∨ (r = 500 ∧ q % 2 = 1) then q + 1 else q
    let (m, e) := if m = 2 ^ 24 then (2 ^ 23, l + 1) else (m, l)
    (if v < 0 then 2 ^ 31 else 0) + (e + 107) * 2 ^ 23 + (m - 2 ^ 23)

/-- R274: the row of a temperature, from the row held and the rows' lower bounds (m°C): a warmer row at its bound, a cooler one
3 °C below the bound crossed. -/
def thermalRow (bounds : List Int) (cur : Nat) (t : Int) : Nat :=
  let up := (bounds.filter (fun b => decide (b ≤ t))).length
  let down := (bounds.filter (fun b => decide (b - 3000 ≤ t))).length
  if cur < up then up else if down < cur then down else cur

/-- R272: stack n's row follows its temperature. -/
def State.stackRow (s : State) (n : Nat) : State :=
  match s.stackTemp n with
  | none => s
  | some t =>
    let s := s.odPut (Od.stackTemp0 + n) (f32Milli t)
    let rows := s.odGet Od.thermalRows
    let cur := bits rows (2 * n + 1) (2 * n)
    if 110000 ≤ t then s.fatal { code := 0x2018, hall := n / 6, unit := n, detail := leBytes 4 (ofInt 32 t) }
    else
      let r := thermalRow [85000, 95000, 105000] cur t
      let s := s.odPut Od.thermalRows (setBits rows (2 * n + 1) (2 * n) r)
      let s := if r ≠ cur ∧ 2 ≤ r then s.count Od.derateEvents 1 else s
      if r = 3 ∧ cur ≠ 3 then s.logEv { code := 0x2017, hall := n / 6, unit := n, detail := leBytes 4 (ofInt 32 t) } else s

/-- R273: package p (hall × 5 + package) of the mezzanine follows its own report. -/
def State.mezzRow (s : State) (p : Nat) : State :=
  match s.sensor 4 p with
  | none => s
  | some x =>
    let h := p / 5
    let s := match maxInt (s.goodValues 4 (5 * h) (5 * h + 5)) with
      | some t => s.odPut (Od.mezzTempH0 + h) (f32Milli t)
      | none => s
    let cur := kget 0 p s.mem.mezzRows
    if 105000 ≤ x.value then s.fatal { code := 0x2018, hall := h, unit := p % 5, detail := leBytes 4 (ofInt 32 x.value) }
    else
      let r := thermalRow [85000, 95000] cur x.value
      let s : State := { s with mem := { s.mem with mezzRows := kset 0 p r s.mem.mezzRows } }
      let s := if r ≠ cur ∧ 1 ≤ r then s.count Od.derateEvents 1 else s
      if r = 2 ∧ cur ≠ 2 then s.logEv { code := 0x2017, hall := h, unit := p % 5, detail := leBytes 4 (ofInt 32 x.value) } else s

/-- The mean of a list of integers, 0 for none. -/
def meanInt (l : List Int) : Int := if l = [] then 0 else l.sum / l.length

/-- R24: readings of rate monitors are kept for 10 ms. -/
def State.dropRates (s : State) : State :=
  { s with newel := { s.newel with rates := s.newel.rates.filter (fun x => decide (s.epoch < x.2.1 + 10 * oneMs)) } }

/-- R24, R481: the readings of the rate monitors with numbers in [lo, hi) within the last `span` ticks. -/
def State.rates (s : State) (lo hi span : Nat) : List Int :=
  (s.newel.rates.filter (fun x => decide (lo ≤ x.1) && decide (x.1 < hi) && decide (s.epoch < x.2.1 + span))).map (fun x => x.2.2)

/-- R480 to R482, R272 to R274, R24: Newel samples sensors and rate monitors: failed ones are marked, thermal rows move, the figures
that the dictionary reports follow. Thermal rows are those of powered halls. A restarting pair samples nothing (R479). -/
def execSensorSample (rs : List Reading) (s : State) : Result :=
  if s.mode = .off ∨ s.newel.restarting then .next s
  else
    let s := (rs.foldl State.takeReading s).dropRates
    let sts := ((rs.filter (fun r => r.kind == 0 && decide (32 ≤ r.index) && decide (r.index < 80))).map (fun r => (r.index - 32) / 2)).dedup
    let packs := ((rs.filter (fun r => r.kind == 4 && decide (r.index < 20))).map (·.index)).dedup
    let halls := if rs.any (fun r => r.kind == 3) then [0, 1, 2, 3] else []
    let s := sts.foldl (fun s n => if s.power.hallPower.contains (n / 6) then s.stackRow n else s) s
    let s := packs.foldl (fun s p => if s.power.hallPower.contains (p / 5) then s.mezzRow p else s) s
    let s := halls.foldl (fun s h => s.odPut (Od.stepRateH0 + h) (meanInt (s.rates (16 * h) (16 * h + 16) (10 * oneMs))).toNat) s
    let s := match s.sensor 1 24 with | some v => s.odPut Od.inputMv v.value.toNat | none => s
    .next (match s.sensor 1 24, s.sensor 2 0 with
      | some v, some i => s.odPut Od.inputPowerW (v.value.toNat * i.value.toNat / 1000000 % 65536)
      | _, _ => s)

/-- R483: bits 1 and 2 of STATUS compare a reading with a warning and a limit that the spec does not state: free. -/
def State.sensorStatus (s : State) (kind i : Nat) : Nat :=
  match s.sensor kind i with
  | none => 0
  | some x =>
    (if x.valid then 1 else 0) + (if Config.freeBit s.free (0x2000 + kind) (2 * i) then 2 else 0) +
    (if Config.freeBit s.free (0x2000 + kind) (2 * i + 1) then 4 else 0) + (if x.failed then 8 else 0)

/-- R483, R481: the sensor report; a rate monitor's value is its mean over the last 1 ms (0 where it has none there: DESIGN CHOICE, log entry 93). -/
def State.sensorReport (s : State) : Bytes :=
  [(0, 96), (1, 32), (2, 8), (3, 64)].flatMap (fun k => (List.range k.2).flatMap (fun i =>
    let v := if k.1 = 3 then meanInt (s.rates i (i + 1) oneMs) else ((s.sensor k.1 i).map (·.value)).getD 0
    leBytes 4 (ofInt 32 v) ++ leBytes 1 k.1 ++ leBytes 1 i ++ leBytes 1 (s.sensorStatus k.1 i) ++
    zeros 1))

/-! ### The log (R485, R487) -/

/-- R485: the interval of a code and subject ends. -/
def execLogIntervalEnd (code subject : Nat) (s : State) : Result :=
  .next (if s.newel.restarting then s else s.logIntervalOver code subject)

/-- R487: the oldest waiting Failure or Fatal record is copied into the persistent ring, unless firmware programming occupies the
flash. -/
def execPersistRecord (s : State) : Result :=
  .next (match s.log.toFlash with
    | [] => s
    | r :: t =>
      if s.odGet Od.fwState = 3 then s
      else
        let r := { r with flags := if bit r.flags 3 then r.flags else r.flags + 8 }
        { s with log := { s.log with toFlash := t, persist := keepLast 64 (s.log.persist ++ [r]) } })

/-! ### Lines (R496 to R499) -/

/-- R496, R497: the level of SERVICE_REQ_N counts. -/
def State.countService (s : State) (asserted : Bool) : State :=
  if asserted = s.newel.svcCounted then s
  else
    let s : State := { s with newel := { s.newel with svcCounted := asserted } }
    if !asserted then s.logEv { code := 0x1212 }
    else
      let s := (s.logEv { code := 0x1210 }).count Od.serviceEvents 1
      let a := s.odGet Od.serviceAction
      let s := if a = 2 then { s with newel := { s.newel with svcTimerFrom := some s.epoch } } else s
      if a = 0 ∨ s.newel.recovery then s
      else if s.mode = .ready ∨ s.mode = .run then s.ownRequest 5
      else if s.mode = .training then { s with newel := { s.newel with svcHeldStop := true } }
      else s

/-- R496: a transition of SERVICE_REQ_N (`stable` false), or a level that has been stable for 50 ms. The ninth transition within 1 s
is the input's entry into chatter, in which it is ignored. -/
def execServiceReq (asserted stable : Bool) (s : State) : Result :=
  .next (if s.mode = .off then s
    else if stable then (if s.newel.svcChatter then s else s.countService asserted)
    else
      let edges := (s.newel.svcEdges.filter (fun t => decide (s.epoch < t + oneSec))) ++ [s.epoch]
      let s : State := { s with newel := { s.newel with svcEdges := edges } }
      if 9 ≤ edges.length ∧ !s.newel.svcChatter then
        ({ s with newel := { s.newel with svcChatter := true } } : State).logEv { code := 0x1211 }
      else s)

/-- R496: after 1 s without a transition the input leaves chatter; its level counts if it differs from the last counted one. -/
def execServiceChatterEnd (asserted : Bool) (s : State) : Result :=
  .next (if s.newel.svcChatter then
      ({ s with newel := { s.newel with svcChatter := false, svcEdges := [] } } : State).countService asserted
    else s)

/-- R497: with action 2, 5 s after the later of the counted request and the entry into Stopped, Newel requests Standby if the module
is still in Stopped. -/
def execServiceStandbyTimer (s : State) : Result :=
  .next (match s.newel.svcTimerFrom with
    | none => s
    | some _ =>
      if s.trans = some .stopped ∨ s.newel.svcHeldStop then s
      else
        let s' : State := { s with newel := { s.newel with svcTimerFrom := none } }
        if s.mode = .stopped then s'.ownRequest 1 else s')

/-- R498: the comparators assert THERMTRIP_N: hall power goes, 0x2008 is logged, Safe Stop. Without hall power no hall or stack
sensor is driven, and nothing happens. -/
def execThermtrip (sensor : Nat) (milliC : Int) (s : State) : Result :=
  .next (if s.mode = .off ∨ s.mode = .standby then s
    else
      let n : NewelSt := { s.newel with tripped := true, tripSensors := (s.newel.tripSensors ++ [sensor]).dedup,
                                        sensors := putSensor ⟨0, sensor, milliC, true,
                                          ((s.sensor 0 sensor).map (·.failed)).getD false, some milliC⟩ s.newel.sensors }
      let s : State := { s with newel := n, power := { s.power with hallPower := [] } }
      s.fatal { code := 0x2008, unit := sensor, detail := leBytes 4 (ofInt 32 milliC) })

/-- R499: the causes that assert ALERT_N, bits 0 to 3. -/
def State.alertCauses (s : State) : Nat :=
  (if s.log.buffer.any (fun r => decide (s.odGet Od.alertSeverity ≤ r.severity)) then 1 else 0) +
  (if s.newel.tripped then 2 else 0) + (if s.mode = .safeStop then 4 else 0) + (if s.newel.svcCounted then 8 else 0)

/-! ### SMBus (R500) -/

/-- R500: the 7-bit address: 0x60 plus the two ADDR straps. -/
def State.smbusAddr (s : State) : Nat := 0x60 + s.newel.straps % 4

/-- One bit of the CRC-8 of SMBus. -/
def crc8Bit (c : BitVec 8) : BitVec 8 := if c.getLsbD 7 then (c <<< 1) ^^^ 0x07#8 else c <<< 1

/-- The PEC of a transaction's bytes: CRC-8 with polynomial x⁸ + x² + x + 1 (SMBus 3.2, log entry 29). -/
def pecOf (b : Bytes) : Byte :=
  b.foldl (fun c x => crc8Bit (crc8Bit (crc8Bit (crc8Bit (crc8Bit (crc8Bit (crc8Bit (crc8Bit (c ^^^ x))))))))) 0#8

/-- R500: a read of a command with its PEC; a wrong or missing PEC, or no power, gives no data. -/
def State.smbusRead (s : State) (pecOk : Bool) (cmd : Nat) (data : Bytes) : Result :=
  if !pecOk || s.mode == .off then .next (s.emit (.smbus none))
  else
    let a := s.smbusAddr
    let head : Bytes := leBytes 1 (2 * a) ++ leBytes 1 cmd ++ leBytes 1 (2 * a + 1)
    .next (s.emit (.smbus (some (data ++ [pecOf (head ++ data)]))))

/-- R500: a temperature in 1/64 °C; where no sensor has a reading, the value is free. -/
def State.word64C (s : State) (t : Option Int) : Bytes :=
  match t with
  | some v => leBytes 2 (ofInt 16 (v * 64 / 1000))
  | none => leBytes 2 (Config.freeNat s.free 0x500)

/-- The greatest of the present readings. -/
def maxTemp (l : List (Option Int)) : Option Int := maxInt (l.filterMap id)

/-- R500, command 0x01. -/
def execSmbusReadModuleState (pecOk : Bool) (s : State) : Result := s.smbusRead pecOk 0x01 (leBytes 1 s.mode.code)
/-- R500, command 0x02. -/
def execSmbusReadAlertCauses (pecOk : Bool) (s : State) : Result := s.smbusRead pecOk 0x02 (leBytes 1 s.alertCauses)
/-- R500, command 0x10. -/
def execSmbusReadHallTemp (pecOk : Bool) (s : State) : Result :=
  s.tick.smbusRead pecOk 0x10 (s.word64C (maxTemp ((List.range 4).map s.dieTemp)))
/-- R500, command 0x11. -/
def execSmbusReadStackTemp (pecOk : Bool) (s : State) : Result :=
  s.tick.smbusRead pecOk 0x11 (s.word64C (maxTemp ((List.range 24).map s.stackTemp)))
/-- R500, command 0x12: thermal sensor 92 (DEDUCED, log entry 28). -/
def execSmbusReadCoolantInlet (pecOk : Bool) (s : State) : Result :=
  s.tick.smbusRead pecOk 0x12 (s.word64C ((s.sensor 0 92).map (·.value)))
/-- R500, command 0x13: thermal sensor 93. -/
def execSmbusReadCoolantOutlet (pecOk : Bool) (s : State) : Result :=
  s.tick.smbusRead pecOk 0x13 (s.word64C ((s.sensor 0 93).map (·.value)))
/-- R500, command 0x20. -/
def execSmbusReadInputVoltage (pecOk : Bool) (s : State) : Result := s.smbusRead pecOk 0x20 (leBytes 2 (s.odGet Od.inputMv))
/-- R500, command 0x21: current monitor 0, in units of 10 mA; free without a reading. -/
def execSmbusReadInputCurrent (pecOk : Bool) (s : State) : Result :=
  s.tick.smbusRead pecOk 0x21 (match s.sensor 2 0 with
    | some x => leBytes 2 (x.value.toNat / 10)
    | none => leBytes 2 (Config.freeNat s.free 0x521))
/-- R500, command 0x22. -/
def execSmbusReadInputPower (pecOk : Bool) (s : State) : Result := s.smbusRead pecOk 0x22 (leBytes 2 (s.odGet Od.inputPowerW))

/-- OD 0x1000.03: the serial number, whose length the spec leaves per module: up to the first zero byte of 64. -/
def serialBytes : Bytes := ((List.range 64).map Config.serial).takeWhile (· ≠ 0#8)

/-- R500, command 0x30: a block: its count, ORDERING_CODE, one zero byte, SERIAL. -/
def execSmbusReadIdentity (pecOk : Bool) (s : State) : Result :=
  let d := ascii "CTX3-48A" ++ zeros 1 ++ serialBytes
  s.smbusRead pecOk 0x30 (leBytes 1 d.length ++ d)
/-- R500, command 0x31: a block of 4 bytes. -/
def execSmbusReadFwVersion (pecOk : Bool) (s : State) : Result :=
  s.smbusRead pecOk 0x31 (leBytes 1 4 ++ leBytes 4 s.newel.running.version)
/-- R500, R499: the Alert Response Address is answered, with the port's address, while ALERT_N is asserted. -/
def execAlertResponseAddress (pecOk : Bool) (s : State) : Result :=
  if !pecOk || s.mode == .off || s.alertCauses == 0 then .next (s.emit (.smbus none))
  else
    let d := leBytes 1 (2 * s.smbusAddr)
    .next (s.emit (.smbus (some (d ++ [pecOf ([0x19#8] ++ d)]))))

/-! ### Firmware (R491 to R495) -/

/-- R491, R492: check 1 of an image. -/
def fwHeaderOk (b : Bytes) : Bool :=
  decide (257 ≤ b.length) && (leField b 0 4 == 0x57465843) && (leField b 4 2 == 1) && (leField b 6 2 == 0) &&
  ((b.drop 8).take 16 == ascii "CTX3-48A" ++ zeros 8) && decide (leField b 28 4 ≤ 64) && decide (1 ≤ leField b 32 4) &&
  decide (leField b 32 4 ≤ 16776960) && (leField b 36 4 == 0) && (((b.drop 104).take 38).all (· == 0#8)) &&
  (b.length == 256 + leField b 32 4)

/-- R492: the image is refused with a code: FW_STATE 5; outside recovery the slot is untouched. -/
def State.fwRefuse (s : State) (code : Nat) : State :=
  let s := (s.odPut Od.fwState 5).odPut Od.fwLastCode code
  let s := if s.newel.recovery then { s with newel := { s.newel with slot := none } } else s
  (s.logEv { code := code })

/-- R492, R495: the last byte of an image has arrived: checks 1 to 4, then programming begins. The answer is the code of the access. -/
def State.fwReceived (s : State) (b : Bytes) (sigOk digestOk : Bool) : Nat × State :=
  let s := s.odPut Od.fwState 2
  if !fwHeaderOk b then (0x7101, s.fwRefuse 0x7101)
  else if !sigOk then (0x7102, s.fwRefuse 0x7102)
  else if leField b 28 4 < s.newel.security then (0x7103, s.fwRefuse 0x7103)
  else if !digestOk then (0x7102, s.fwRefuse 0x7102)
  else
    let i : FwImage := ⟨leField b 24 4, leField b 28 4, leField b 40 64⟩
    (0, (({ s with newel := { s.newel with staged := some (i, b.length) } } : State).odPut Od.fwState 3).odPut Od.fwProgress 0)

/-- R492, check 5: programming and read-back end. -/
def execFwProgramDone (ok : Bool) (s : State) : Result :=
  .next (if s.odGet Od.fwState ≠ 3 then s
    else match s.newel.staged with
      | none => s
      | some (i, n) =>
        if ok then
          ((({ s with newel := { s.newel with slot := some i, staged := none } } : State).odPut Od.fwState 4).odPut Od.fwStagedVersion
            i.version).odPut Od.fwProgress n
        else
          let s : State := { s with newel := { s.newel with slot := none, staged := none } }
          ((s.odPut Od.fwState 5).odPut Od.fwLastCode 0x7104).logEv { code := 0x7104 })

end Sys2Proof.Machine
end

