-- ==== Sys2Proof/Machine/Power.lean ====
section
/-!
DEFINITION. Power.lean: power and clocks (chapter 21): the voltage governor, power and input limits, the timebase and its sources,
oscillators and PLLs, the frequency counter.
-/

namespace Sys2Proof.Machine

/-! ### The governor (R511 to R515) -/

/-- The fabric rail of a hall, mV. -/
def State.rail (s : State) (h : Nat) : Nat := s.odGet (Od.fabricMvH0 + h)

/-- R516, R517: every powered rail at 0.62 V. -/
def State.railsToFloor (s : State) : State :=
  s.power.hallPower.foldl (fun s h => s.odPut (Od.fabricMvH0 + h) 620) s

/-- R515: the powered hall with the highest rail; ties go to the lower index. -/
def State.highestRail (s : State) : Option Nat :=
  (List.range 4).foldl (fun b h =>
    if !s.power.hallPower.contains h then b
    else match b with
      | none => some h
      | some k => if s.rail k < s.rail h then some h else b) none

/-- R513: a stack of the hall sits in the 95 °C row or a warmer one. -/
def State.stacksHot (s : State) (h : Nat) : Bool :=
  (List.range 6).any (fun k => decide (2 ≤ bits (s.odGet Od.thermalRows) (2 * (6 * h + k) + 1) (2 * (6 * h + k))))

/-- R513: hot periods: a first reading at 105 °C opens one, with its record; one second below it closes it. -/
def State.hotPeriod (s : State) (h : Nat) (t : Int) : State :=
  let set := fun (s : State) (v : Option (Option Nat)) =>
    { s with power := { s.power with hot := match v with | some x => kput h x s.power.hot | none => kdel h s.power.hot } }
  match kfind h s.power.hot with
  | none => if 105000 ≤ t then (set s (some none)).logEv { code := 0x2007, hall := h, detail := leBytes 4 (ofInt 32 t) } else s
  | some none => if 105000 ≤ t then s else set s (some (some s.epoch))
  | some (some since) =>
    if 105000 ≤ t then set s (some none) else if since + oneSec ≤ s.epoch then set s none else s

/-- R512 to R517: one hall's rail in one millisecond: the largest decrease that a rule calls for, otherwise a rise where no rule
forbids it. The rate is the mean of the hall's monitors over that millisecond; without a reading the rate calls for no change. -/
def State.governHall (s : State) (avgW : Nat) (top : Option Nat) (h : Nat) : State :=
  let t := (s.dieTemp h).getD 0
  let s := s.hotPeriod h t
  let mv := s.rail h
  let rates := s.rates (16 * h) (16 * h + 16) oneMs
  let target : Int := if s.odGet Od.govMode = 1 then 2400000 else s.odGet Od.rateTarget
  let rate := if rates = [] then target else meanInt rates
  let cap := s.odGet Od.powerCapW
  let floor := decide (105000 ≤ t) || s.power.fastHold.isSome || s.power.railsHeld
  let slow := decide (100000 ≤ t)
  let down := (decide (cap < avgW) && top == some h) || decide (target * 1005 < rate * 1000)
  let bar := decide (95000 ≤ t) || s.stacksHot h || decide (98 * cap ≤ 100 * avgW)
  let mv' :=
    if floor then 620 else if slow then mv - 10 else if down then mv - 5
    else if decide (rate * 1000 < target * 995) && !bar then mv + 5 else mv
  s.odPut (Od.fabricMvH0 + h) (min 850 (max 620 mv'))

/-- R515: work is held back while every rail is at the floor and the 1 s average exceeds the cap: class 2 first, after 100 ms
class 1 also; the period is logged once, and ends when the average falls below the cap. -/
def State.capHold (s : State) (avgW : Nat) : State :=
  let cap := s.odGet Od.powerCapW
  let s := if s.power.heldBack ≠ 0 then s.count Od.capHeldMs 1 else s
  if avgW < cap then { s with power := { s.power with heldBack := 0, capUnmet := none } }
  else if cap < avgW ∧ s.power.hallPower ≠ [] ∧ s.power.hallPower.all (fun h => decide (s.rail h ≤ 620)) then
    match s.power.capUnmet with
    | none => ({ s with power := { s.power with heldBack := 1, capUnmet := some s.epoch } } : State).logEv { code := 0x2005 }
    | some t => if t + 100 * oneMs ≤ s.epoch then { s with power := { s.power with heldBack := 2 } } else s
  else s

/-- R512, R515: each millisecond. In Training the rails stay at 0.72 V (R518); while Newel restarts, they hold their last values (R479). -/
def execGovernorTick (avgW : Nat) (s : State) : Result :=
  if s.mode = .off then .next s
  else
    let s := s.odPut Od.inputPowerAvgW (avgW % 65536)
    let mj := s.power.energyMj + s.odGet Od.inputPowerW
    let s := ({ s with power := { s.power with energyMj := mj } } : State).odPut Od.energyJ (mj / 1000 % 2 ^ 64)
    .next (if !s.newel.restarting && (s.mode == .ready || s.mode == .run || s.mode == .stopped) then
        let top := s.highestRail
        ((s.power.hallPower).foldl (fun s h => s.governHall avgW top h) s).capHold avgW
      else s)

/-- R514: a hall's monitors read below 1,200,000 k steps/s over 10 ms while it runs work. -/
def execRateBelowFloor (hall : Nat) (s : State) : Result :=
  if !hallOk hall then .refused .noSuchUnit
  else .next (if s.power.hallPower.contains hall then (s.logEv { code := 0x2006, hall := hall }).count Od.rateFloorEvents 1 else s)

/-! ### Power and input (R516, R517) -/

/-- R516: the input power has exceeded a row's limit for its duration: `overWatts` is that power. -/
def execPowerFastLimit (overWatts : Nat) (s : State) : Result :=
  .next (if s.mode = .off ∨ overWatts ≤ 1050 then s
    else if 1450 < overWatts then
      ({ s with power := { s.power with hallPower := [] } } : State).fatal { code := 0x2003, detail := leBytes 4 overWatts }
    else
      let s := ({ s with power := { s.power with fastHold := some s.epoch } } : State).railsToFloor
      (s.count Od.fastLimits 1).logLimited { code := 0x2002, detail := leBytes 4 overWatts } 0 oneSec)

/-- R516: the 100 ms hold ends; the governor resumes from 0.62 V. -/
def execFastLimitHoldEnd (s : State) : Result := .next { s with power := { s.power with fastHold := none } }

/-- R517: the input has stayed at a voltage for its row's duration (1 ms below 40 V, 100 µs below 32 V or above 60 V, 100 ms at 40 V or
above). R533: before power good, an input outside 40 to 60 V opens the switch again. -/
def execInputVoltageEvent (mv : Nat) (s : State) : Result :=
  .next (if s.mode = .off then
      (if mv < 40000 ∨ 60000 < mv then { s with start := { s.start with closed := false } } else s)
    else if 60000 < mv then s.toOff true
    else if mv < 32000 then s.toOff false
    else
      let s := s.odPut Od.inputMv mv
      if 40000 ≤ mv then { s with power := { s.power with lowInput := false, railsHeld := false } }
      else
        let s := if s.power.lowInput then s
          else ({ s with power := { s.power with lowInput := true } } : State).logEv { code := 0x2001, detail := leBytes 4 mv }
        let s := ({ s with power := { s.power with railsHeld := true } } : State).railsToFloor
        if mv < 36000 then (s.enterSafeStop 0x2001) else s)

/-! ### Frequency (R502, R503) -/

/-- R503: the source codes in order of priority; the first code 0 ends the list. -/
def freqOrder (v : Nat) : List Nat := ((List.range 5).map (fun i => bits v (4 * i + 3) (4 * i))).takeWhile (· ≠ 0)

/-- R503: a source's record. -/
def State.freqSrc (s : State) (c : Nat) : FreqSrc := (s.power.freq.find? (fun x => x.code == c)).getD ⟨c, false, false, 0⟩

/-- R503: the source that the timebase follows now: at once the next qualified one when its own is lost; a higher one only after it
has stayed qualified for a further QUALIFY_S. -/
def State.chooseFreq (s : State) : Nat :=
  let order := freqOrder (s.odGet Od.freqPriority)
  let cur := s.odGet Od.freqSource
  let ok := fun c => (s.freqSrc c).qualified
  if order.contains cur && ok cur then
    ((order.takeWhile (· ≠ cur)).find? (fun c => ok c && decide ((s.freqSrc c).since + s.odGet Od.qualifyS * oneSec ≤ s.epoch))).getD cur
  else (order.find? ok).getD 0

/-- R503: the timebase switches source, logged and counted. -/
def State.switchFreq (s : State) : State :=
  let c := s.chooseFreq
  if !s.timeRef || c == s.odGet Od.freqSource then s
  else
    let s := ((s.odPut Od.freqSource c).count Od.freqSwitches 1).logEv { code := 0x2111, unit := c }
    { s with power := { s.power with lastSwitch := s.epoch } }

/-- R503: a source has been found usable or not, and qualified or not, at this moment. A source that is not usable is not qualified. -/
def execFreqQualify (source : Nat) (usable qualified : Bool) (s : State) : Result :=
  .next (if s.mode = .off ∨ source = 0 ∨ 5 < source then s
    else
      let old := s.freqSrc source
      let q := usable && qualified
      let x : FreqSrc := ⟨source, usable, q, if q == old.qualified && usable == old.usable then old.since else s.epoch⟩
      let l := if s.power.freq.any (fun y => y.code == source) then modFirst (fun y => y.code == source) (fun _ => x) s.power.freq
               else s.power.freq ++ [x]
      ({ s with power := { s.power with freq := l } } : State).switchFreq)

/-- R503: a source becomes unusable, and loses its qualification at once. -/
def State.freqUnusable (s : State) (c : Nat) : State :=
  let l := s.power.freq.map (fun x => if x.code == c && x.usable then ⟨c, false, false, s.epoch⟩ else x)
  ({ s with power := { s.power with freq := l } } : State).switchFreq

/-! ### Time (R502, R504, R505) -/

/-- R504: the timebase enters holdover. -/
def State.holdover (s : State) : State :=
  ((({ s with power := { s.power with inLock := 0 } } : State).odPut Od.tbState 3).count Od.holdoverEntries 1).logEv { code := 0x2110 }

/-- R504: the time source is lost: PTP_STATE leaves 3, or 1PPS is lost under TIME_SOURCE 2. -/
def State.sourceLost (s : State) (pps : Bool) : State :=
  let src := s.odGet Od.timeSource
  if s.timeRef ∧ s.odGet Od.tbState = 2 ∧ (src = 2 ∨ (src = 1 ∧ pps = false)) then s.holdover else s

/-- R504, R505: a one-second comparison of the counter with its source: present or lost, and counter minus source in ns. In Standby and
Training the counter steps forward to its source; elsewhere the offset is slewed. -/
def execTimebaseLockCheck (present : Bool) (offset : Int) (s : State) : Result :=
  if s.mode = .off then .next s
  else if !s.timeRef then .next (s.odPut Od.tbState s.timebase)
  else if s.odGet Od.timeSource = 0 then .next (s.odPut Od.tbState 0)
  else
    let st := s.odGet Od.tbState
    .next (if !present then
      if st = 2 then s.holdover
      else if s.power.everLocked then ({ s with power := { s.power with inLock := 0 } } : State).odPut Od.tbState 3
      else ({ s with power := { s.power with inLock := 0 } } : State).odPut Od.tbState 0
    else
      let s := s.odPut Od.timeOffsetNs (ofInt 64 offset)
      let step := decide (offset < 0) && (s.mode == .standby || s.mode == .training)
      let big := !step && decide (1000000000 < offset.natAbs) && !s.power.largeLogged
      let s := if big then ({ s with power := { s.power with largeLogged := true } } : State).logEv { code := 0x2112 } else s
      let s : State := if step then { s with epoch := s.epoch + offset.natAbs, arcade := { s.arcade with slew := 0 } }
               else { s with arcade := { s.arcade with slew := -2 * offset } }
      let n := if offset.natAbs ≤ 100 then s.power.inLock + 1 else 0
      let s : State := { s with power := { s.power with inLock := n, everLocked := s.power.everLocked || decide (16 ≤ n) } }
      if st = 2 then s
      else if 16 ≤ n then s.odPut Od.tbState 2
      else if st = 3 then s else s.odPut Od.tbState 1)

/-- R5, R501, R505, R426: one cycle of the timebase: the Epoch Counter counts 1 ns. A slew changes one tick in 50,000 (20 ppm) on a time
reference module, one in 20,000 (50 ppm) on any other: a forward slew counts one tick more, a backward slew holds the counter for one
tick. `slew` counts halves of a tick, and is odd after a held tick until the next one has counted. In Off nothing counts. -/
def State.tickEpoch (s : State) : State :=
  let every := if s.timeRef then 50000 else 20000
  let put := fun (e : Nat) (v : Int) => ({ s with epoch := e % 2 ^ 64, arcade := { s.arcade with slew := v } } : State)
  let v := s.arcade.slew
  if s.mode = .off then s
  else if s.epoch % every = 0 ∧ 0 < v then put (s.epoch + 2) (v - 2)
  else if s.epoch % every = 0 ∧ v < 0 ∧ v % 2 = 0 then put s.epoch (v + 1)
  else if v % 2 ≠ 0 then put (s.epoch + 1) (v + 1)
  else put (s.epoch + 1) v

/-! ### Oscillators (R507, R508) -/

/-- R507: the TCXO has met both conditions, or has not within 100 ms. Under a START_MODE that trains at once, Training follows the start
(R535). -/
def execTcxoStart (ok : Bool) (s : State) : Result :=
  .next (if s.mode = .off then s
    else if ok then { s with power := { s.power with tcxo := 1 } }
    else ({ s with power := { s.power with tcxo := 2 } } : State).logEv { code := 0x2101 })

/-- R508: a PLL unit: 0 locked, 1 and 2 restarts, 3 failed. -/
def execPllLock (unit : Nat) (locked : Bool) (s : State) : Result :=
  .next (if s.mode = .off then s
    else
      let n := kget 0 unit s.power.plls
      let put := fun (s : State) v => ({ s with power := { s.power with plls := kset 0 unit v s.power.plls } } : State)
      if n = 3 then s
      else if locked then put s 0
      else if n < 2 then put s (n + 1)
      else (put s 3).logEv { code := 0x2102, unit := unit })

/-! ### The frequency counter (R510) -/

/-- R510: the side of a measurement code: Newel's (false) or the Foyer's (true). -/
def measSide (c : Nat) : Bool := decide (0x80 ≤ c)

/-- R510: a write of MEAS_START: the code it is answered with. A write of false starts nothing. -/
def State.measStart (s : State) (v : Nat) : Nat × State :=
  let a := s.odGet Od.measSource
  let g := s.odGet Od.measGateSource
  if v = 0 then (0, s)
  else if measSide a ≠ measSide g ∨ (0x10 ≤ a ∧ a ≤ 0x4F ∧ g ≠ 0) then (0x1105, s)
  else if s.odGet Od.measState = 1 then (0x1107, s)
  else (0, s.odPut Od.measState 1)

/-- R510: the gate ends with a count. -/
def execMeasDone (count : Nat) (s : State) : Result :=
  .next (if s.odGet Od.measState = 1 then (s.odPut Od.measState 2).odPut Od.measCount (count % 2 ^ 64) else s)

end Sys2Proof.Machine
end

