-- ==== Sys2Proof/Machine/Foyer.lean ====
section
/-!
DEFINITION. Foyer.lean: the Foyer, the messages across the Balustrade and the field gate (chapter 19).
-/

namespace Sys2Proof.Machine

/-! ### Records of limited codes (R458, R461, R464, R471, R485) -/

/-- R485: `n` events of a limited code and subject at this moment. -/
def State.logMany (s : State) (ev : LogEv) (subject interval n : Nat) : State :=
  if n = 0 then s
  else
    let s := s.logLimited ev subject interval
    let f := fun (i : LogInterval) =>
      { i with count := i.count + (n - 1), first := if i.count = 0 ∧ 1 < n then s.epoch else i.first, ev := if i.count = 0 ∧ 1 < n then ev else i.ev }
    { s with log := { s.log with intervals := modFirst (fun i => i.code == ev.code && i.subject == subject) f s.log.intervals } }

/-! ### Receiving across the Balustrade (R470, R471) -/

/-- R471: a message failed its CRC or its SEQ. -/
def State.balFail (s : State) : State := (s.count Od.balCheckFails 1).logLimited { code := 0x6020 } 0 oneSec

/-- R471: a message outside the set or its limits. -/
def State.balRefuse (s : State) : State := (s.count Od.balRefusals 1).logLimited { code := 0x6021 } 0 oneSec

/-- R451: the data channel runs in Ready, Run and Stopped, the management channel in every state but Off. -/
def State.balRuns (s : State) (k : Nat) : Bool :=
  !s.testing 6 (if k ≤ 1 then 0 else 1) && (if k ≤ 1 then s.mode == .ready || s.mode == .run || s.mode == .stopped else s.mode != .off)

/-- R470: the message leaves its queue. -/
def FoyerSt.dequeue (f : FoyerSt) (k : Nat) (m : BalMsg) : FoyerSt :=
  let p := fun (x : BalMsg) => x.typ == m.typ && x.seq == m.seq
  if k = 0 then { f with dataIn := dropFirst p f.dataIn }
  else if k = 2 then { f with mgmtIn := dropFirst p f.mgmtIn }
  else { f with toFoyer := dropFirst p f.toFoyer }

/-- R470: the SEQ that the channel sends next; a message that its sender raised by itself took it. -/
def FoyerSt.follow (f : FoyerSt) (k seq : Nat) : FoyerSt :=
  if (if k = 0 then f.dataIn else if k = 2 then f.mgmtIn else f.toFoyer).isEmpty then { f with txSeq := kset 0 k ((seq + 1) % 2 ^ 32) f.txSeq } else f

/-- R471: messages of a type taken in the running second. -/
def State.balTaken (s : State) (typ : Nat) : Nat :=
  let e := kget (0, 0) typ s.foyer.received
  if e.1 = s.epoch / oneSec then e.2 else 0

/-- R471: a receiver's checks: whether it takes the message, and the state after its checks. -/
def State.balTake (s : State) (typ : Nat) (m : BalMsg) : Bool × State :=
  match balKey typ with
  | none => (false, s)
  | some k =>
    if !s.balRuns k then (false, s)
    else
      let s : State := { s with foyer := s.foyer.dequeue k m }
      if m.crc ≠ crc32c (leBytes 1 m.typ ++ zeros 1 ++ leBytes 2 m.len ++ leBytes 4 m.seq ++ m.body) then (false, s.balFail)
      else
        let prev := kget 0 k s.foyer.rxSeq
        let f := s.foyer.follow k m.seq
        let s : State := { s with foyer := { f with rxSeq := kset 0 k (m.seq + 1) f.rxSeq } }
        if prev ≠ 0 ∧ m.seq ≠ prev % 2 ^ 32 then (false, s.balFail)
        else if m.typ ≠ typ ∨ !balLengthOk typ m.len ∨ m.len ≠ m.body.length then (false, s.balRefuse)
        else
          let n := s.balTaken typ
          if (balLimit typ).any (fun l => decide (l ≤ n)) then (false, s.balRefuse)
          else (true, { s with foyer := { s.foyer with received := kput typ (s.epoch / oneSec, n + 1) s.foyer.received } })

/-- R452: the Foyer controller runs. -/
def State.foyerRuns (s : State) : Bool := s.mode != .off && s.odGet Od.foyerState == 2

/-- R454: a field port's link is up. -/
def State.portUp (s : State) (p : Nat) : Bool := decide (p < 3) && bit (s.odGet Od.portLinks) p

/-- R547: a loop-back test runs on a field port. -/
def State.portTested (s : State) (p : Nat) : Bool := if p < 2 then s.testing 4 p else s.testing 5 0

/-- R454, R547: a field port carries datagrams: it has its link, and no test runs on it. -/
def State.portServes (s : State) (p : Nat) : Bool := s.portUp p && !s.portTested p

/-! ### Telemetry (R455 to R466) -/

/-- R455: an address lies in a prefix of 17 bytes. -/
def inPrefix (a : BitVec 128) (p : Bytes) : Bool :=
  let n := min 128 (leField p 16 1)
  a.toNat / 2 ^ (128 - n) == beField p 0 16 / 2 ^ (128 - n)

/-- R455: telemetry from an address is accepted. -/
def State.sourceOk (s : State) (a : BitVec 128) : Bool :=
  let l := s.fdom Od.telemetrySources
  l.isEmpty || (pieces 17 (l.length / 17) l).any (inPrefix a)

/-- R456, R458: the header of a telemetry datagram agrees with it. -/
def telemetryOk (b : Bytes) : Bool :=
  let n := beField b 4 1
  beField b 0 2 == 0x4654 && beField b 2 1 == 1 && beField b 3 1 == 1 && decide (1 ≤ n) && decide (n ≤ 8) && b.length == 16 + 128 * n && beField b 5 3 == 0

/-- R457, R458: a record's METRICS and reserved bytes. -/
def recordOk (r : Bytes) : Bool :=
  let n := beField r 19 1
  decide (1 ≤ n) && decide (n ≤ 48) && beField r 20 4 == 0 && beField r 120 8 == 0

/-- R466: a record of the entry crosses. -/
def State.crossing (s : State) (entry : Nat) : Bool := s.foyer.dataIn.any (fun m => leField m.body 0 2 == entry)

/-- R464: a cell's bucket and the aggregate bucket as they stand now. -/
def State.refill (s : State) (entry : Nat) : State :=
  s.aggRefill.modCell entry (fun c => { c with bucket := bucketNow c.bucket c.filled c.rec_.rate c.rec_.burst s.epoch, filled := s.epoch })

/-- R464, R466: an accepted record of a bound cell: policed, held, or sent across. -/
def State.policeRecord (s : State) (c : CellSt) (r : Bytes) (port arrival : Nat) : State :=
  let e := c.rec_.entry
  let s := s.refill e
  let has := ((s.cellAt e).map (fun c => decide (bucketUnit ≤ c.bucket))).getD false
  if !(has && decide (bucketUnit ≤ s.foyer.agg)) then
    ((s.count Od.recordsPoliced 1).modCell e (fun c => { c with policed := c.policed + 1 })).logLimited { code := 0x6010 } 0 oneSec
  else
    let s : State := { s with foyer := { s.foyer with agg := s.foyer.agg - bucketUnit } }
    let s := s.modCell e (fun c => { c with bucket := c.bucket - bucketUnit, passed := c.passed + 1 })
    if bit (s.sw e 16) 32 || s.stepOpen e || s.crossing e then
      let s := if c.held.isSome then s.count Od.recordsReplaced 1 else s
      s.modCell e (fun c => { c with held := some (r, arrival, port) })
    else s.balSend 0x01 (leBytes 2 e ++ leBytes 1 port ++ zeros 5 ++ leBytes 8 arrival ++ r)

/-- R458, R462, R465: one record of a telemetry datagram. -/
def State.takeRecord (s : State) (r : Bytes) (port arrival : Nat) : State :=
  if !recordOk r then (s.count Od.recordsFormat 1).logMany { code := 0x6012 } 0 oneSec 1
  else
    match s.foyer.view.find? (fun v => v.1.cellId == beField r 0 8) with
    | none => (s.count Od.recordsUnknown 1).logLimited { code := 0x6011 } 0 oneSec
    | some (v, st) =>
      match s.cellAt v.entry with
      | none => s.count Od.recordsNotBound 1
      | some c =>
        if s.mode ≠ .run ∨ st ≠ 1 ∨ c.state ≠ 1 then s.count Od.recordsNotBound 1
        else
          let seq := beField r 16 2
          let fresh := (c.last.map (fun l => decide (1 ≤ (seq + 65536 - l) % 65536) && decide ((seq + 65536 - l) % 65536 ≤ 32767))).getD true
          if !fresh then (s.count Od.recordsStale 1).modCell v.entry (fun c => { c with stale := c.stale + 1 })
          else (s.modCell v.entry (fun c => { c with last := some seq })).policeRecord c r port arrival

/-- R455, R456, R458: TELEMETRY_DATAGRAM: a datagram reaches an optical port; its last byte arrived at `arrival`. -/
def execTelemetryDatagram (d : Datagram) (arrival : Nat) (s : State) : Result :=
  if !portOk d.port then .refused .noSuchUnit
  else if !s.foyerRuns || d.port == 2 || !s.portServes d.port || d.dstPort != s.fval Od.telemetryPort || d.fragment then .next s
  else if !s.sourceOk d.srcAddr then .next (s.count Od.sourceDrops 1)
  else if !telemetryOk d.payload then
    let n := max 1 ((d.payload.length - 16) / 128)
    .next ((s.count Od.recordsFormat n).logMany { code := 0x6012 } 0 oneSec n)
  else .next ((pieces 128 (beField d.payload 4 1) (d.payload.drop 16)).foldl (fun s r => s.takeRecord r d.port arrival) s)

/-! ### The field gate (R467) -/

/-- R467: the ring slot of a record as received, with its arrival time. -/
def ringSlot (r : Bytes) (arrival : Nat) : Bytes :=
  leBytes 8 (beField r 8 8) ++ leBytes 2 (beField r 16 2) ++ leBytes 1 (beField r 18 1) ++ zeros 1 ++ leBytes 1 (beField r 19 1) ++ zeros 3 ++
  (List.range 48).flatMap (fun k => leBytes 2 (beField r (24 + 2 * k) 2)) ++ leBytes 8 arrival ++ zeros 8

/-- R467: a MISSING slot. -/
def missingSlot : Bytes := zeros 11 ++ [0x01#8] ++ zeros 116

/-- R467: the record in the ring, the gap before it, CACHE_LEN. -/
def State.gateWrite (s : State) (c : CellSt) (r : Bytes) (port arrival : Nat) : State :=
  let e := c.rec_.entry
  let seq := beField r 16 2
  let d := (c.gateSeq.map (fun p => (seq + 65536 - p) % 65536)).getD 1
  let gaps := (List.range (min 63 (d - 1))).map (fun j => (seq + 65536 - 1 - j) % 65536)
  let s := gaps.foldl (fun s q => s.devWrite (c.ring + 128 * (q % 64)) missingSlot) s
  let s := s.devWrite (c.ring + 128 * (seq % 64)) (ringSlot r arrival)
  let missing := (c.missing ++ gaps).filter (fun q => decide ((seq + 65536 - q) % 65536 < 64))
  let s := s.modCell e (fun c => { c with steps := c.steps + d, missing := missing, gateSeq := some seq,
                                          answer := some (seq, beField r 8 8, port, !missing.isEmpty) })
  s.putSw e 8 (setBits (s.sw e 8) 63 32 (min 64 (c.steps + d)))

/-- R326, R467: W1, W17 and READY; the job opens a step when its programs wait for one. -/
def State.gateReady (s : State) (c : CellSt) (arrival : Nat) : State :=
  let e := c.rec_.entry
  let s := (s.putSw e 1 (arrival + c.rec_.budget * 1000)).putSw e 17 arrival
  let s := (s.putSw e 16 (setBits (s.sw e 16) 32 32 1)).modStream e (fun r => { r with ready := s.epoch })
  let s := (s.flushWords e 1 1).flushWords e 8 1
  (s.modelJobList c.rec_.model).foldl (fun s j => if s.runsUnstepped j then s.openStep j else s) s

/-- R467, R471: TELEMETRY: the field gate validates the record again, then takes it. -/
def execTelemetry (m : BalMsg) (s : State) : Result :=
  let (ok, s) := s.balTake 0x01 m
  if !ok then .next s
  else
    let e := leField m.body 0 2
    let port := leField m.body 2 1
    let arrival := leField m.body 8 8
    let r := m.body.drop 16
    match s.cellAt e with
    | none => .next s.balRefuse
    | some c =>
      if c.state ≠ 1 ∨ e < s.odGet Od.fieldBase ∨ !recordOk r ∨ beField r 0 8 ≠ c.rec_.cellId ∨ 2 ≤ port then .next s.balRefuse
      else .next (((s.count Od.recordsIn 1).gateWrite c r port arrival).gateReady c arrival)

/-- R468: RECOMMEND: the Foyer sends the record out of the answered record's optical port, or the other. -/
def execRecommend (m : BalMsg) (s : State) : Result :=
  let (ok, s) := s.balTake 0x81 m
  if !ok || !s.foyerRuns then .next s
  else
    let r := m.body.drop 8
    let p := leField m.body 0 1
    match s.foyer.view.find? (fun v => v.1.cellId == beField r 0 8) with
    | none => .next s
    | some (v, _) =>
      let q := 1 - p
      if !(s.portServes p && decide (p < 2)) && !s.portServes q then .next (s.count Od.recommendDrops 1)
      else
        let out := if s.portServes p && decide (p < 2) then p else q
        let head := beBytes 2 0x4654 ++ beBytes 1 1 ++ beBytes 1 2 ++ beBytes 1 1 ++ zeros 3 ++ beBytes 4 (s.fval Od.senderId) ++
          beBytes 4 (s.odGet Od.recommendsOut)
        .next ((s.count Od.recommendsOut 1).emit (.datagram out v.reply v.replyPort (head ++ r)))

/-! ### EOP across the Balustrade (R55, R59, R470) -/

/-- R55, R495: the Foyer takes a datagram for EOP: not a fragment, at the EOP port, on the management port, or on an optical port where EOP runs
there; in recovery on the management port only. -/
def State.eopArrives (s : State) (d : Datagram) : Bool :=
  s.foyerRuns && s.portServes d.port && (d.port == 2 || (s.odGet Od.eopOnOptical != 0 && !s.newel.recovery)) && d.dstPort == s.odGet Od.eopUdpPort &&
  !d.fragment && s.odGet Od.eopEnable != 0

/-- R55: EOP_DATAGRAM: the Foyer takes a UDP datagram at the EOP port and passes it across. A datagram of another length than EOP has is malformed. -/
def execEopDatagram (d : Datagram) (s : State) : Result :=
  if !portOk d.port then .refused .noSuchUnit
  else if !s.eopArrives d then .next s
  else if d.payload.length < 40 ∨ 1186 < d.payload.length then .next (s.count Od.eopFormatDrops 1)
  else .next (s.balSend 0x02 (beBytes 16 d.srcAddr.toNat ++ leBytes 2 d.srcPort ++ zeros 6 ++ d.payload))

/-- R59, R470: EOP_REQ: Newel checks an EOP request and queues it. -/
def execEopReq (m : BalMsg) (sigOk : Bool) (s : State) : Result :=
  let (ok, s) := s.balTake 0x02 m
  if !ok then .next s
  else if leField m.body 18 6 ≠ 0 then .next s.balRefuse
  else if !s.eopServed then .next s
  else
    let b := m.body.drop 24
    let (ok, s) := s.eopCheck b sigOk
    if !ok then .next s
    else
      let q : EopReq := ⟨2, BitVec.ofNat 128 (beField m.body 0 16), leField m.body 16 2, b⟩
      .next { s with eop := { s.eop with queue := s.eop.queue ++ [q] } }

/-- R55: the port from which an EOP response leaves: the management port, else an optical port where EOP runs there. -/
def State.eopPort (s : State) : Option Nat :=
  if s.portServes 2 then some 2
  else if s.odGet Od.eopOnOptical = 0 then none
  else [0, 1].find? s.portServes

/-- R470: EOP_RESP: the Foyer sends a response to its destination. -/
def execEopResp (m : BalMsg) (s : State) : Result :=
  let (ok, s) := s.balTake 0x82 m
  if !ok || !s.foyerRuns then .next s
  else
    match s.eopPort with
    | none => .next s
    | some p => .next (s.emit (.datagram p (BitVec.ofNat 128 (beField m.body 0 16)) (leField m.body 16 2) (m.body.drop 24)))

/-! ### Reports, events, configuration (R453, R461, R470) -/

/-- R470, R503: TIME_REPORT (DESIGN CHOICE, log entry 38 gives the layout): the offset, the recovered frequency of the port that the timebase follows, the last 1PPS
edge against the second. -/
def execTimeReport (m : BalMsg) (s : State) : Result :=
  let (ok, s) := s.balTake 0x03 m
  if !ok then .next s
  else
    let s := s.odPut Od.ptpOffsetNs (leField m.body 0 4)
    let src := s.odGet Od.freqSource
    let s := if src = 1 ∨ src = 2 then s.odPut Od.freqErrorPpb (leField m.body (4 + 4 * src) 4) else s
    if s.odGet Od.ppsInState = 2 then
      let r := (leField m.body 16 8) % oneSec
      .next (s.odPut Od.ppsInOffsetNs (ofInt 32 (if 2 * r < oneSec then (r : Int) else (r : Int) - oneSec)))
    else .next s

/-- The codes that the Foyer raises (R454, R458, R464, R472, R474, R475). -/
def foyerCodes : List Nat := [0x6001, 0x6002, 0x6010, 0x6011, 0x6012, 0x6030, 0x6031, 0x6032]

/-- R470: FOYER_EVENT (DESIGN CHOICE, log entry 38 gives the layout): Newel logs the event: with its count, where the code is limited. -/
def execFoyerEvent (m : BalMsg) (s : State) : Result :=
  let (ok, s) := s.balTake 0x04 m
  if !ok then .next s
  else
    let code := leField m.body 0 2
    if !foyerCodes.contains code then .next s.balRefuse
    else if 0x6010 ≤ code ∧ code ≤ 0x6012 then .next (s.logMany { code := code } 0 oneSec (leField m.body 4 4))
    else .next (s.logEv { code := code, unit := leField m.body 8 1 })

/-- R461: the Foyer takes one record of a MAP_UPDATE with its state; state 0 takes a cell out. -/
def viewPut (l : List (CellRec × Nat)) (b : Bytes) : List (CellRec × Nat) :=
  let r := cellRecOf b
  let st := leField b 18 1
  if st = 0 then l.filter (fun v => v.1.cellId != r.cellId || v.1.entry != r.entry)
  else l.filter (fun v => v.1.cellId != r.cellId && v.1.entry != r.entry) ++ [(r, st)]

/-- R461: MAP_UPDATE: a count, then cell records with their binding states. -/
def execMapUpdate (m : BalMsg) (s : State) : Result :=
  let (ok, s) := s.balTake 0x83 m
  if !ok || !s.foyerRuns then .next s
  else
    let n := min (leField m.body 0 2) ((m.body.length - 16) / 48)
    .next { s with foyer := { s.foyer with view := (pieces 48 n (m.body.drop 16)).foldl viewPut s.foyer.view } }

/-- R453: the entries of range 0x6000 that the Foyer applies. -/
def foyerEntries : List Nat :=
  [Od.portIp0, Od.portIp0 + 1, Od.portIp0 + 2, Od.portVlan0, Od.portVlan0 + 1, Od.portVlan0 + 2, Od.telemetryPort, Od.telemetrySources, Od.senderId,
   Od.aggBurst, Od.ptpEnable, Od.ptpPort, Od.ptpDomain, Od.ppsOutEnable, Od.ppsInDelayNs]

/-- R39, R453: an entry's value as bytes, as a CONFIG message carries it. -/
def State.configBytes (s : State) (k : Nat) : Bytes :=
  match (odRow k).bind (fun r => r.ty.size) with
  | some n => leBytes n (s.odGet k)
  | none => s.domGet k (if Od.portIp0 ≤ k ∧ k ≤ Od.portIp0 + 2 then zeros 48 else [])

/-- R453: Newel sends a changed entry of range 0x6000 (DESIGN CHOICE, log entry 38 gives the layout). -/
def State.sendConfig (s : State) (k : Nat) : State :=
  if !foyerEntries.contains k then s
  else
    let v := s.configBytes k
    s.balSend 0x84 (leBytes 2 (k / 256) ++ leBytes 1 (k % 256) ++ zeros 1 ++ leBytes 4 v.length ++ zeros 8 ++ v)

/-- R472, R504: PTP_STATE changes; a timebase that follows PTP loses it when it leaves 3. -/
def State.setPtp (s : State) (st : Nat) : State :=
  let was := s.odGet Od.ptpState
  let s := s.odPut Od.ptpState st
  if was = 3 ∧ st ≠ 3 then (s.freqUnusable 5).sourceLost false else s

/-- R472: the slave clock starts again, or stops, after its settings changed. -/
def State.ptpRestart (s : State) : State := s.setPtp (if s.fval Od.ptpEnable ≠ 0 then 1 else 0)

/-- R453, R472: the Foyer applies an entry. -/
def State.applyConfig (s : State) (k : Nat) (v : Bytes) : State :=
  let s : State := { s with foyer := { s.foyer with applied := kput k v s.foyer.applied } }
  if k = Od.ptpEnable ∨ k = Od.ptpPort ∨ k = Od.ptpDomain then s.ptpRestart else s

/-- R453: CONFIG. -/
def execConfig (m : BalMsg) (s : State) : Result :=
  let (ok, s) := s.balTake 0x84 m
  if !ok || !s.foyerRuns then .next s
  else
    let k := leField m.body 0 2 * 256 + leField m.body 2 1
    let n := leField m.body 4 4
    if !foyerEntries.contains k ∨ m.body.length ≠ 16 + n then .next s.balRefuse
    else .next (s.applyConfig k (m.body.drop 16))

/-- R470: TIME_SET: the Foyer's copy of the counter takes the next whole second, and whether the timebase is locked or in holdover. -/
def execTimeSet (m : BalMsg) (s : State) : Result :=
  let (ok, s) := s.balTake 0x85 m
  if !ok || !s.foyerRuns then .next s
  else .next { s with foyer := { s.foyer with timeSet := some (leField m.body 0 8, leField m.body 8 1) } }

/-- R501, R470: Newel announces each whole second. -/
def State.announceSecond (s : State) : State :=
  s.balSend 0x85 (leBytes 8 ((s.epoch / oneSec + 1) * oneSec) ++ leBytes 1 s.timebase ++ zeros 23)

/-- What happens at a cycle of the timebase: the counter counts (R5), and at each whole second TIME_SET leaves for a running Foyer (R470). -/
def State.idleTick (s : State) : State :=
  let t := s.tickEpoch
  if t.foyerRuns && t.epoch / oneSec != s.epoch / oneSec then t.announceSecond else t

/-! ### Loading and heartbeats (R450, R452) -/

/-- R450: FIRMWARE: a segment of the image, while the Foyer loads. -/
def execFirmware (m : BalMsg) (s : State) : Result :=
  let st := s.odGet Od.foyerState
  let (ok, s) := s.balTake 0x86 m
  if !ok then .next s
  else if st = 2 then .next s.balRefuse
  else .next (({ s with foyer := { s.foyer with fwTaken := s.foyer.fwTaken + (m.body.length - 16) } } : State).odPut Od.foyerState (if st = 0 then 1 else st))

/-- R450, R453, R461: the Foyer's firmware runs: it takes the settings and the field map; the channels' SEQs start again. -/
def State.foyerLoaded (s : State) : State :=
  let f : FoyerSt :=
    { s.foyer with applied := foyerEntries.foldl (fun l k => kput k (s.configBytes k) l) [], view := [], fwTaken := 0, dataIn := [], mgmtIn := [],
                   toFoyer := [], txSeq := [], rxSeq := [], received := [], ql := [], esmcAt := [], ppsEdges := [], ppsWindow := none, timeSet := none }
  let s := (({ s with foyer := f } : State).odPut Od.foyerState 2).ptpRestart
  s.foyer.cells.foldl (fun s c => s.mapUpdate c) s

/-- R452: HEARTBEAT: byte 0 is the Foyer's state (DESIGN CHOICE, log entry 38); 2 ends a load. -/
def execHeartbeat (m : BalMsg) (s : State) : Result :=
  let (ok, s) := s.balTake 0x05 m
  if !ok then .next s
  else
    let s : State := { s with foyer := { s.foyer with heartbeat := s.epoch } }
    let st := s.odGet Od.foyerState
    .next (if (st = 1 ∨ st = 3) ∧ leField m.body 0 1 = 2 then s.foyerLoaded else s)

/-- R452, R547: HEARTBEAT_TIMEOUT: Newel restarts the controller, unless its management channel is under test; the Foyer's memory is lost. -/
def execHeartbeatTimeout (s : State) : Result :=
  if !s.foyerRuns || s.testing 6 1 then .next s
  else
    let s := ((s.setPtp 0).odPut Od.foyerState 3).logEv { code := 0x6040 }
    .next { s with foyer := { s.foyer with cells := s.foyer.cells.map (fun c => { c with held := none }), dataIn := [], mgmtIn := [], toFoyer := [],
                                           fwTaken := 0, timeSet := none } }

/-! ### Ports (R453, R454, R473) -/

/-- R473: SYNCE_USABLE from the links and the quality levels; DNU is 0xF (DESIGN CHOICE, log entry 38). An unusable line loses its qualification. -/
def State.synce (s : State) : State :=
  let ok := fun p => s.portServes p && ((kfind p s.foyer.ql).map (fun q => decide (q < 15))).getD true
  let code := fun p => (kget 0 p s.foyer.ql) % 16
  let s := s.odPut Od.synceUsable ((if ok 0 then 1 else 0) + (if ok 1 then 2 else 0) + code 0 * 256 + code 1 * 4096)
  let s := if ok 0 then s else s.freqUnusable 1
  if ok 1 then s else s.freqUnusable 2

/-- R454: PORT_LINK_CHANGE. A held disabled SFP28 module brings no link up. -/
def execPortLinkChange (port : Nat) (up : Bool) (s : State) : Result :=
  if !portOk port then .refused .noSuchUnit
  else if s.mode = .off ∨ s.portTested port ∨ (up ∧ port < 2 ∧ !s.foyer.sfp.contains port) then .next s
  else
    let was := s.portUp port
    let s := s.odPut Od.portLinks (setBit (s.odGet Od.portLinks) port up)
    let s := if was && !up then s.logEv { code := 0x6001, unit := port } else s
    .next s.synce

/-- R454: SFP_INSERTED: a module that is not 25GBASE-SR, or that draws more than its cage supplies (1.5 W), is held disabled. -/
def execSfpInserted (port : Nat) (is25gSr : Bool) (milliwatts : Nat) (s : State) : Result :=
  if !opticalOk port then .refused .noSuchUnit
  else if s.mode = .off then .next s
  else
    let rest := s.foyer.sfp.filter (· ≠ port)
    if is25gSr && decide (milliwatts ≤ 1500) then .next { s with foyer := { s.foyer with sfp := if port = 0 then 0 :: rest else rest ++ [port] } }
    else
      let s := ({ s with foyer := { s.foyer with sfp := rest } } : State).odPut Od.portLinks (setBit (s.odGet Od.portLinks) port false)
      .next (s.logEv { code := 0x6002, unit := port }).synce

/-- R454: ICMP_ECHO: at most 10 answers per second per port. -/
def execIcmpEcho (port : Nat) (payload : Bytes) (s : State) : Result :=
  if !portOk port then .refused .noSuchUnit
  else if !s.foyerRuns || !s.portServes port then .next s
  else
    let e := kget (0, 0) port s.foyer.icmp
    let n := if e.1 = s.epoch / oneSec then e.2 else 0
    if 10 ≤ n then .next s
    else .next (({ s with foyer := { s.foyer with icmp := kput port (s.epoch / oneSec, n + 1) s.foyer.icmp } } : State).emit (.icmp port payload))

/-- R473: ESMC_PDU: a port's quality level. -/
def execEsmcPdu (port ql : Nat) (s : State) : Result :=
  if !opticalOk port then .refused .noSuchUnit
  else if !s.foyerRuns || !s.portServes port then .next s
  else .next ({ s with foyer := { s.foyer with ql := kput port (ql % 16) s.foyer.ql, esmcAt := kput port s.epoch s.foyer.esmcAt } } : State).synce

/-- R473: ESMC_TIMEOUT: no PDU for 5 s after one. -/
def execEsmcTimeout (port : Nat) (s : State) : Result :=
  if !opticalOk port then .refused .noSuchUnit
  else
    match kfind port s.foyer.ql with
    | none => .next s
    | some q => .next ({ s with foyer := { s.foyer with ql := kput port (16 + q % 16) s.foyer.ql, esmcAt := kdel port s.foyer.esmcAt } } : State).synce

/-! ### PTP (R472) -/

/-- R472: PTP_MESSAGE: a message of the domain on the port and transport of the slave clock: 0x0 Sync, 0x9 Delay_Resp, 0xB Announce; any other only
carries what these need. -/
def execPtpMessage (port transport domain msgType : Nat) (offset : Int) (s : State) : Result :=
  let st := s.odGet Od.ptpState
  let cfg := s.fval Od.ptpPort
  if !s.foyerRuns || st == 0 || !s.portServes port || port != bits cfg 3 0 || transport != bits cfg 7 4 || domain != s.fval Od.ptpDomain then .next s
  else if msgType = 0xB then
    let s : State := { s with foyer := { s.foyer with announceAt := s.epoch } }
    .next (if st = 1 ∨ st = 4 then s.setPtp 2 else s)
  else if msgType = 0 ∧ (st = 2 ∨ st = 3) then
    if s.foyer.askedAt ≠ 0 ∧ s.epoch < s.foyer.askedAt + 62500000 then .next s
    else .next (({ s with foyer := { s.foyer with askedAt := s.epoch } } : State).emit (.ptp port 1))
  else if msgType = 9 ∧ (st = 2 ∨ st = 3) then .next ((s.odPut Od.ptpOffsetNs (ofInt 32 offset)).setPtp 3)
  else .next s

/-- R472: PTP_LOST: no Announce for three announce intervals. -/
def execPtpLost (s : State) : Result :=
  let st := s.odGet Od.ptpState
  .next (if !s.foyerRuns || st == 0 || st == 4 then s else (s.logEv { code := 0x6032 }).setPtp 4)

/-! ### 1PPS and 10 MHz (R474 to R476) -/

/-- R474: PPS_EDGE: an edge in the open window is one of its edges; with no window open, an edge opens one 1 s later; any other edge is ignored. -/
def execPpsEdge (time : Nat) (s : State) : Result :=
  if !s.foyerRuns then .next s
  else
    match s.foyer.ppsWindow with
    | some c =>
      if c ≤ time + oneMs ∧ time ≤ c + oneMs then .next { s with foyer := { s.foyer with ppsEdges := s.foyer.ppsEdges ++ [time] } }
      else .next (s.count Od.ppsEdgesIgnored 1)
    | none =>
      let first := s.odGet Od.ppsInState ≠ 2 ∧ s.odGet Od.ppsInState ≠ 1
      let f : FoyerSt := { s.foyer with ppsWindow := some (time + oneSec), ppsEdges := [], ppsEdge := time,
                                        ppsValidAt := if first then time else s.foyer.ppsValidAt }
      let s : State := { s with foyer := f }
      .next (if first then s.odPut Od.ppsInState 1 else s)

/-- R474: the window that follows a valid edge, shifted by PPS_IN_DELAY_NS. -/
def State.nextWindow (s : State) (edge : Nat) : Nat := ((edge + oneSec : Nat) + toInt 32 (s.fval Od.ppsInDelayNs)).toNat

/-- R474: an edge is valid. -/
def State.ppsValid (s : State) (edge : Nat) : State :=
  let r := edge % oneSec
  let f : FoyerSt := { s.foyer with ppsEdges := [], ppsWindow := some (s.nextWindow edge), ppsValidAt := edge }
  (({ s with foyer := f } : State).odPut Od.ppsInState 2).odPut Od.ppsInOffsetNs
    (ofInt 32 (if 2 * r < oneSec then (r : Int) else (r : Int) - oneSec))

/-- R474: PPS_WINDOW_END: the open window closes, valid with exactly one edge; after 2 s without a valid edge the input is lost. -/
def execPpsWindowEnd (time : Nat) (s : State) : Result :=
  if !s.foyerRuns then .next s
  else
    match s.foyer.ppsWindow, s.foyer.ppsEdges with
    | some _, [e] => .next (s.ppsValid e)
    | w, _ =>
      let s : State := { s with foyer := { s.foyer with ppsEdges := [], ppsWindow := if w.isSome && s.foyer.ppsWindow.any (fun c => decide (time < c)) then w else none } }
      let st := s.odGet Od.ppsInState
      if (st = 1 ∨ st = 2) ∧ s.foyer.ppsValidAt + 2 * oneSec ≤ time then
        .next (((s.odPut Od.ppsInState 3).logEv { code := 0x6030 }).sourceLost true)
      else .next s

/-- R475: REF10_MEASURE: a measurement of 10 ms. -/
def execRef10Measure (ppb : Int) (missing : Bool) (s : State) : Result :=
  if !s.foyerRuns then .next s
  else
    let good := decide (ppb.natAbs ≤ 10000) && !missing
    let st := s.odGet Od.ref10State
    let n := if good then s.foyer.ref10Good + 1 else 0
    let s : State := { s with foyer := { s.foyer with ref10Good := n } }
    .next (if good then (if st = 0 ∨ (st = 2 ∧ 100 ≤ n) then s.odPut Od.ref10State 1 else s)
      else if st = 1 then ((s.odPut Od.ref10State 2).logEv { code := 0x6031 }).freqUnusable 3 else s)

/-- R476: PPS_OUT_PULSE: the pulse at the second that TIME_SET announced. -/
def execPpsOutPulse (s : State) : Result :=
  match s.foyer.timeSet with
  | none => .next s
  | some (_, st) =>
    if !s.foyerRuns then .next s
    else
      let t : State := { s with foyer := { s.foyer with timeSet := none } }
      .next (if s.fval Od.ppsOutEnable ≠ 0 ∧ (st = 2 ∨ st = 3) then t.emit .pps else t)

end Sys2Proof.Machine
end

