-- ==== Sys2Proof/Machine/Placement.lean ====
section
/-!
DEFINITION. Placement.lean: loading and unloading models (R184 to R186, R387 to R393), re-placement (R394 to R396), and the timers of serving (R332, R335,
R345 to R348).
-/

namespace Sys2Proof.Machine

/-! ### The load descriptor (R387, R388) -/

/-- R387: a load descriptor. -/
structure LoadD where
  pkgAddr  : Nat
  pkgLen   : Nat
  model    : Nat
  tenant   : Nat
  flags    : Nat
  permille : Nat
  hallMask : Nat
  share    : Nat
  members  : Nat
  home     : Nat
  part     : Nat
  count    : Nat
  offset   : Nat
  rsv      : Nat
  deriving DecidableEq, Repr

/-- R387: the fields of the 64 bytes. -/
def loadD (b : Bytes) : LoadD :=
  { pkgAddr := leField b 0 8, pkgLen := leField b 8 8, model := leField b 16 2, tenant := leField b 18 1, flags := leField b 19 1,
    permille := leField b 20 2, hallMask := leField b 22 1, share := leField b 24 8, members := leField b 32 8, home := leField b 40 8,
    part := leField b 48 2, count := max 1 (leField b 50 2), offset := leField b 56 8, rsv := leField b 23 1 + leField b 52 4 }

/-- R387, R389: ranges and reserved fields. -/
def State.loadForm (s : State) (d : LoadD) : Bool :=
  let base := s.odGet Od.hostWindowBase
  decide (d.rsv = 0) && decide (d.flags < 8) && decide (d.hallMask < 16) && decide (d.permille ≤ 1000) &&
  s.tenantEnabled d.tenant && decide (1 ≤ d.pkgLen) && decide (base ≤ d.pkgAddr) &&
  decide (d.pkgAddr + d.pkgLen ≤ base + s.odGet Od.hostWindowSize) && decide (d.part < d.count) &&
  (decide (d.part + 1 = d.count) || decide (4096 ≤ d.pkgLen)) && (decide (d.part ≠ 0) || decide (d.offset = 0))

/-- R389: a later part's descriptor follows the load in progress. -/
def ModelSt.follows (x : ModelSt) (d : LoadD) : Bool :=
  d.part == x.part + 1 && d.offset == x.offset + x.pkgLen && d.count == x.parts && d.tenant == x.tenant && d.flags == x.flags &&
  d.permille == x.permille && d.hallMask == x.hallMask && d.share == x.share && d.members == x.members && d.home == x.home

/-- R388: a load is refused at a later step: MODEL_STATE 5 with the code; what it reserved is released. -/
def State.refuseLoad (s : State) (m code : Nat) : State :=
  match kfind m s.serve.models with
  | none => s
  | some x =>
    let x := { x with state := 5, code := code, pkg := none, work := [], packed := false, shares := [], done := [] }
    ({ s with serve := { s.serve with models := kput m x s.serve.models } } : State).count Od.modelsRefused 1

/-- R388, R390: a load is refused, and every member releases its share. -/
def State.refuseAll (s : State) (m code : Nat) (x : ModelSt) : State := (s.releaseShares m x).refuseLoad m code

/-- R388, step 1: the descriptor's final byte has arrived: the status, and the load in state 1. -/
def State.loadBegin (s : State) (d : LoadD) : Nat × State :=
  let x := kfind d.model s.serve.models
  let put := fun (x : ModelSt) => ((0, { s with serve := { s.serve with models := kput d.model x s.serve.models } }) : Nat × State)
  let later := d.part ≠ 0 ∧ (x.map (·.state)) = some 4
  if later then
    match x with
    | some x => if s.loadForm d && x.follows d then
        put { x with state := 1, part := d.part, offset := d.offset, pkgAddr := d.pkgAddr, pkgLen := d.pkgLen }
      else (0x4304, s.refuseAll d.model 0x4304 x)
    | none => (0x4304, s)
  else if !s.loadForm d ∨ d.part ≠ 0 then (0x4304, s.count Od.modelsRefused 1)
  else if d.model = 0 ∨ (x.map (·.state)).any (fun n => n != 5) then (0x4303, s.count Od.modelsRefused 1)
  else put { state := 1, code := 0, tenant := d.tenant, flags := d.flags, permille := d.permille, hallMask := d.hallMask, share := d.share,
             members := d.members, home := d.home, parts := d.count, part := 0, offset := 0, pkgAddr := d.pkgAddr, pkgLen := d.pkgLen,
             since := s.epoch, epoch := 0, time := 0, pkg := none, work := [], packed := false, shares := [], done := [] }

/-- R382, R385, R392: the code with which a plan is refused: the Planner's own, or that of a hard hint or of a bound that the plan would break. -/
def State.planRefusal (s : State) (x : ModelSt) (p : Package) : Nat :=
  let halls := p.slices.map (·.hall) ++ p.pool.map (·.1) ++ p.samplers ++ p.experts.map (·.hall) ++ p.copies.map (fun c => c.flight / 20)
  let base := s.odGet Od.hostWindowBase
  let meets := fun (a n : Nat) => decide (base < a + n) && decide (a < base + s.odGet Od.hostWindowSize)
  let most := fun (e : ExpertAt) => decide (16 < (p.experts.filter (fun q => q.layer == e.layer && q.member == e.member)).length)
  if p.planCode ≠ 0 then p.planCode
  else if x.hallMask ≠ 0 ∧ halls.any (fun h => !bit x.hallMask h) then 0x4302
  else if x.members ≠ 0 ∧ (p.slices.any (fun q => !bit x.members q.member) ∨ p.experts.any (fun e => !bit x.members e.member)) then 0x4302
  else if bit x.flags 0 ∧ p.slices.any (fun q => decide (q.shadow < mezzBase) || mezzHallOf q.shadow != q.hall) then 0x4302
  else if (p.slices.filter s.holds).any (fun q => meets q.dataAddr 1 || meets q.idxAddr (sliceTableLen q) || meets q.chkAddr (sliceTableLen q)) then 0x4301
  else if p.experts.any most then 0x4301
  else 0

/-- R388, step 2, and R389: the Planner has read the package: it plans the load, or refuses it. -/
def State.loadPlan (s : State) (m : Nat) (p : Package) : State :=
  match kfind m s.serve.models with
  | none => s
  | some x =>
    if x.state ≠ 1 then s
    else if !p.partOk then s.refuseLoad m 0x4304
    else if x.part = 0 ∧ s.planRefusal x p ≠ 0 then s.refuseLoad m (s.planRefusal x p)
    else
      let x := { x with state := 2, pkg := if x.part = 0 then some p else x.pkg }
      { s with serve := { s.serve with models := kput m x s.serve.models } }

/-- R387: states of the module that accept a load. -/
def State.mayLoad (s : State) : Bool :=
  match s.mode with | .ready => true | .run => true | .stopped => true | _ => false

/-- R387, R388: LOAD_REQUEST with the Planner's reading of the package: the status and the state. A request whose descriptor came through a transfer waits in
state 1 for that reading. -/
def State.loadRequest (s : State) (b : Bytes) (p : Package) : Nat × State :=
  if !s.mayLoad then (0x1103, s)
  else
    let (c, s) := s.loadBegin (loadD b)
    if c ≠ 0 then (c, s) else (0, s.loadPlan (loadD b).model p)

/-- A load whose descriptor has come and whose package the Planner has not read. -/
def State.awaitsPlan (s : State) (d : LoadD) : Bool :=
  (kfind d.model s.serve.models).any (fun x => x.state == 1 && x.part == d.part && x.offset == d.offset && x.pkgAddr == d.pkgAddr && x.pkgLen == d.pkgLen)

/-! ### The packing pass (R184 to R186) -/

/-- R184: what a table builder's blocks count. -/
def packCounts (l : List (Nat × Bytes × Nat × StoredBlock)) : List (Nat × Nat) :=
  l.map (fun e => match e.2.2.2 with
    | .zero => (Od.blocksZero, 1) | .raw _ => (Od.blocksRawRate, 1) | .rawSize _ => (Od.blocksRawSize, 1) | .coded _ => (Od.blocksCoded, 1)) ++
  l.map (fun e => (Od.packBytesOut, e.2.1.length))

/-- The T5 bytes of a slice that a part holds: where they lie in the window, their offset in the slice, and their number. -/
def partBytes (x : ModelSt) (sl : Slice) : Nat × Nat × Nat :=
  let lo := max sl.srcAddr x.offset
  let hi := min (sl.srcAddr + sl.t5Bytes) (x.offset + x.pkgLen)
  (x.pkgAddr + (lo - x.offset), lo - sl.srcAddr, hi - lo)

/-- R184, R185, R389: a table builder packs what a part brings of slice k. -/
def State.packSlice (s : State) (x : ModelSt) (k : Nat) (sl : Slice) : ModelSt × State :=
  let (a, off, n) := partBytes x sl
  if n = 0 then (x, s)
  else
    let new := s.memBytes a n
    let (blk, unit, kept) := kget (0, 0, []) k x.work
    let all := kept ++ new
    let whole := off + n = sl.t5Bytes
    let now := if whole then all else all.take (all.length / 4096 * 4096)
    let l := packTensor unit (t5Blocks now)
    let s := (s.count Od.packBytesIn n).counts (packCounts l)
    let s := s.devWrite (sl.dataAddr + unit * 64) (l.flatMap (fun e => e.2.1))
    let s := s.devWrite (sl.idxAddr + 4 * blk) (l.flatMap (fun e => leBytes 4 e.1))
    let s := s.devWrite (sl.chkAddr + 4 * blk) (l.flatMap (fun e => leBytes 4 e.2.2.1))
    let s := if sl.shadow = 0 then s else s.devWrite (sl.shadow + off) new
    let units := (l.map (fun e => e.2.1.length / 64)).sum
    ({ x with work := kput k (blk + l.length, unit + units, all.drop now.length) x.work }, s)

/-- R161: the layer's drain maps every sum at or below THETA to zero: each lane scale is positive, and every segment of the table that an input at or below
the scaled THETA reaches is zero. -/
def thetaOk (d : LayerDef) : Bool :=
  let w := fun k => d.table.getD k 0
  d.scales.all (fun c =>
    sasValid c && decide (0 < (sasValue c).m) &&
    (let x := (sasApply c ⟨d.thetaM, d.thetaE⟩).shift (-(toInt 8 (bits (w 0) 7 0)))
     let u := (max (-32768) (min 32767 x.floor) + 32768).toNat
     (List.range (u / 256 + 1)).all (fun k =>
       bits (w (1 + k)) 31 0 == 0 && (bits (w (1 + k)) 47 32 == 0 || (decide (k = u / 256) && decide (u % 256 = 0))))))

/-- R161: the rules that the items of a predicted layer keep. -/
def layerOk (d : LayerDef) : Bool :=
  let T := if d.g then 64 else 256
  let W := if d.g then 1024 else 256
  decide (d.mode ≤ 2) && decide (d.sketch.length = T) && (d.sketch.zip (d.sketch.drop 1)).all (fun p => decide (p.1 < p.2)) &&
  d.sketch.all (fun c => decide (c < d.inputs)) && decide (d.planes = d.tiles) &&
  decide (d.bounds.length = d.tiles * (W / 32) * cdiv d.inputs 32) && d.bounds.all (fun k => decide (k ≤ 32)) && thetaOk d

/-- R66, R73, R145, R161, R186: the code with which the packing pass refuses a part as it reads it, or 0. -/
def State.packRefusal (s : State) (x : ModelSt) (p : Package) : Nat :=
  let parts := (p.slices.filter s.holds).map (fun sl => partBytes x sl)
  if x.part = 0 ∧ p.outliers.any (fun l => !outlierListOk l.2 l.1) then 0x3023
  else if x.part = 0 ∧ !p.layers.all layerOk then 0x3052
  else if x.part = 0 ∧ p.expt.head? = some 0 then 0x3033
  else if parts.any (fun q => s.memPoisoned q.1 q.2.2) then 0x3044
  else if parts.any (fun q => (s.memBytes q.1 q.2.2).any (fun b => decide (243 ≤ b.toNat))) then 0x3025
  else 0

/-- R181, R186: the data area of a tensor has grown past 2^30 units of 64 bytes. -/
def ModelSt.tooLong (x : ModelSt) : Bool := x.work.any (fun e => decide (2 ^ 30 < e.2.2.1))

/-- R386: the pages that the Planner maps for a slice in the region of a tenant: at 2^47 + the device address at load (DESIGN CHOICE, log entry 21). -/
def sliceMaps (m t : Nat) (x : ModelSt) (k : Nat) (sl : Slice) : List ModelMap :=
  ([(sl.dataAddr, x.dataLen k), (sl.idxAddr, sliceTableLen sl), (sl.chkAddr, sliceTableLen sl)].filter (fun e => decide (0 < e.2))).map (fun e =>
    let (p, z) := pagesOf e.1 e.2
    ⟨m, t, 2 ^ 47 + p, z, p⟩)

/-- R388, step 5: the model is loaded: its region is mapped for its owner and the tenants that share it, its cache pools open, its predicted layers start,
and its report stands; cells that wait for it are bound (R462). -/
def State.modelLoaded (s : State) (m : Nat) (x : ModelSt) (p : Package) : State :=
  let x := { x with state := 3, code := 0, kBounds := p.class0.map (FlightCost.bound (s.odGet Od.class0Margin)) }
  let ts := (List.range 64).filter (fun t => decide (t = x.tenant) || bit x.share t)
  let maps := ts.flatMap (fun t => ((p.slices.zip (List.range p.slices.length)).filter (fun e => s.holds e.1)).flatMap (fun e => sliceMaps m t x e.2 e.1))
  let pools := p.pool.foldl (fun q e => kset (0, 0) e.1 ((kget (0, 0) e.1 q).1 + e.2, (kget (0, 0) e.1 q).2 + e.2) q) s.serve.pools
  let layers := p.layers.foldl (fun q l => kput (m * 65536 + l.layer) ⟨l.mode, false, [], 0, 0, 0, 0, 0, 0⟩ q) s.halls.layers
  let s : State :=
    { s with serve := { s.serve with models := kput m x s.serve.models, pools := pools,
                                     expertLoad := s.serve.expertLoad.filter (fun e => e.1 / 256 / 65536 != m) },
             xlate := { s.xlate with maps := s.xlate.maps ++ maps }, halls := { s.halls with layers := layers } }
  let s := s.newEpoch m
  if s.mode = .run ∨ s.mode = .stopped then
    ((s.foyer.cells.filter (fun c => c.state == 3 && c.rec_.model == m)).map (·.rec_.entry)).foldl (fun s e => s.bindCell e) s
  else s

/-! ### A load into a tray (R390) -/

/-- R390, R412: the share of a part that another member holds leaves the window in MOVE_DATA frames. -/
def State.sendShare (s : State) (x : ModelSt) (sl : Slice) : ModelSt × State :=
  let (a, off, n) := partBytes x sl
  if n = 0 then (x, s)
  else
    let dest := s.memberPath sl.member
    let s := (List.range (cdiv n 16384)).foldl (fun s i =>
      s.moveTo dest (sl.stage + off + 16384 * i) (s.memBytes (a + 16384 * i) (min 16384 (n - 16384 * i)))) s
    ({ x with shares := kput sl.member (kget 0 dest.toNat s.arcade.moved) x.shares }, s)

/-- R390, R412: every member has confirmed its share of the part. -/
def State.sharesIn (s : State) (x : ModelSt) : Bool :=
  x.shares.all (fun e => decide (e.2 ≤ kget 0 ((s.memberPath e.1).toNat + 2 ^ 64) s.arcade.moved))

/-- R388 to R390: a part that the table builders have packed: the load awaits the next part, or, once every member has completed step 5, is loaded. It waits
for the members' confirmations first. -/
def State.loadProgress (s : State) (m : Nat) : State :=
  match kfind m s.serve.models with
  | none => s
  | some x =>
    if x.state ≠ 2 ∨ !x.packed ∨ !s.sharesIn x then s
    else if x.part + 1 < x.parts then
      { s with serve := { s.serve with models := kput m { x with state := 4, since := s.epoch, packed := false } s.serve.models } }
    else if !x.shares.all (fun e => x.done.contains e.1) then s
    else match x.pkg with
      | none => s
      | some p => s.modelLoaded m x p

/-- R184, R388, R390: the table builders here have packed what the part holds of this module's slices, the shares of other members have left, and after the
last part the landing copies are written. -/
def State.packPart (s : State) (m : Nat) (x : ModelSt) (p : Package) : State :=
  let sl := p.slices.zip (List.range p.slices.length)
  let (x, s) := (sl.filter (fun e => s.holds e.1)).foldl (fun (r : ModelSt × State) e => r.2.packSlice r.1 e.2 e.1) (x, s)
  if x.tooLong then s.refuseAll m 0x3042 x
  else
    let (x, s) := (sl.filter (fun e => !s.holds e.1 && s.isManager)).foldl (fun (r : ModelSt × State) e => r.2.sendShare r.1 e.1) (x, s)
    let s : State := { s with serve := { s.serve with models := kput m { x with packed := true } s.serve.models } }
    let s := if x.part + 1 = x.parts then (s.ownCopies p).foldl (fun s e => s.landCopy e.1 e.2) s else s
    s.loadProgress m

/-- R388 to R390: PACKING_DONE. `noRoom`: a copy of step 4 found memory withdrawn. `members`: the members that have settled their shares, each with 0 where it
has completed step 5 and otherwise with its code (DESIGN CHOICE, log entry 87). -/
def execPackingDone (model : Nat) (out : PackEnd) (s : State) : Result :=
  match kfind model s.serve.models with
  | none => .next s
  | some x =>
    match x.pkg with
    | none => .next s
    | some p =>
      if x.state ≠ 2 then .next s
      else match out.members.find? (fun e => e.2 ≠ 0) with
        | some e => .next (s.refuseAll model e.2 x)
        | none =>
          let x := { x with done := (x.done ++ out.members.map (·.1)).dedup }
          let s : State := { s with serve := { s.serve with models := kput model x s.serve.models } }
          if x.packed then .next (s.loadProgress model)
          else
            let c := s.packRefusal x p
            if c ≠ 0 then .next (s.refuseAll model c x)
            else if out.noRoom then .next (s.refuseAll model 0x4301 x)
            else .next (s.packPart model x p)

/-- R389: PART_TIMEOUT. -/
def execPartTimeout (model : Nat) (s : State) : Result :=
  .next (match kfind model s.serve.models with
    | some x => if x.state = 4 then s.refuseAll model 0x4304 x else s
    | none => s)

/-- R391: UNLOAD: the status and the state. -/
def State.unload (s : State) (m : Nat) : Nat × State :=
  if (kfind m s.serve.models).isNone then (0x1105, s)
  else
    let named := s.streamList.any (fun i => !endedState (s.sState i) &&
      (s.sModel i == m || (bits (s.sw i 0) 21 20 == 2 && bits (s.sw i 11) 47 32 == m)))
    if named || s.progs.any (fun e => e.2.img.model == m) then (0x1103, s)
    else (0, (s.releaseModel m).closeSettled)

/-! ### The placement report (R393) -/

/-- R393: one record. -/
def reportRec (kind hall flight item : Nat) (path : Word64) (addr len : Nat) : Bytes :=
  leBytes 1 kind ++ leBytes 1 hall ++ leBytes 1 flight ++ zeros 1 ++ leBytes 4 item ++ leBytes 8 path.toNat ++ leBytes 8 addr ++ leBytes 8 len

/-- Bytes of a resident program's image. -/
def Image.len (i : Image) (addr : Nat) : Nat := i.opsAt - addr + 16 * i.ops.length

/-- R393: the placement report of a model; of no model, a header of zeros but for MODEL. The packed length of a slice on another member is that member's
(free, log entry 87). -/
def State.placementReport (s : State) (m : Nat) : Bytes :=
  match kfind m s.serve.models, s.pkgOf m with
  | some x, some p =>
    let own := s.ownPath
    let sl := p.slices.zip (List.range p.slices.length)
    let path := fun (q : Slice) => if s.holds q then own else s.memberPath q.member
    let len := fun (e : Slice × Nat) => if s.holds e.1 then x.dataLen e.2 else Config.freeNat s.free (m * 65536 + e.2) % 2 ^ 36
    let r := sl.map (fun e => reportRec 1 e.1.hall 0xFF e.1.tensor (path e.1) e.1.dataAddr (len e)) ++
      ((s.ownCopies p).map (fun e =>
        let (d, i, k) := s.copyArrays e.2 e.1.blocks
        reportRec 2 (e.1.flight / 20) (e.1.flight % 20) e.2.tensor own e.1.data (d.length + i.length + k.length))) ++
      ((sl.filter (fun e => e.1.shadow != 0)).map (fun e => reportRec 3 e.1.hall 0xFF e.1.tensor (path e.1) e.1.shadow e.1.t5Bytes)) ++
      (p.experts.map (fun e => reportRec 4 e.hall 0xFF (e.layer * 256 + e.expert) (s.memberPath e.member) e.addr e.len)) ++
      (p.pool.map (fun e => reportRec 5 e.1 0xFF 0 own (blockPlace e.1 0) (e.2 * p.rowUnits * 4096))) ++
      ((s.progs.filter (fun e => e.2.img.model == m)).map (fun e =>
        reportRec 6 (e.1 / 20) (e.1 % 20) e.2.img.job own e.2.addr (e.2.img.len e.2.addr)))
    leBytes 2 m ++ zeros 2 ++ leBytes 4 x.epoch ++ leBytes 8 x.time ++ leBytes 4 r.length ++ zeros 12 ++ r.flatMap id
  | _, _ => leBytes 2 m ++ zeros 30

/-! ### Re-placement (R394 to R396) -/

/-- R395: a re-placement takes effect at the release of the job's open step; at once where none is open. -/
def State.planReplace (s : State) (job : Nat) (r : Replace) : State :=
  if (s.openStepOf job).isSome then s.setJob { (s.jobOf job) with replacing := some r } else s.replaceJob job r

/-- R394, R395: REPLACEMENT. `pools` holds the blocks that go from the cache pool of one hall to that of another. -/
def execReplacement (job : Nat) (slices : RePlan) (s : State) : Result :=
  .next (if s.serve.jobs.any (fun j => j.job == job) then s.planReplace job ⟨slices.slices, [], slices.pools⟩ else s)

/-- R396: the member that a test picks from (member, rows) pairs; the lowest index among equals. -/
def pickMember (better : Nat → Nat → Bool) : List (Nat × Nat) → Option (Nat × Nat)
  | [] => none
  | e :: t => some (t.foldl (fun b x => if better x.2 b.2 || (x.2 == b.2 && decide (x.1 < b.1)) then x else b) e)

/-- R396: the pair of experts of a layer that a period's loads exchange; `l` holds (expert, member, rows). -/
def rebalancePair (ratio members : Nat) (l : List (Nat × Nat × Nat)) : Option (Nat × Nat) :=
  let total := fun (m : Nat) => ((l.filter (fun e => e.2.1 == m)).map (fun e => e.2.2)).sum
  let sums := (List.range members).map (fun m => (m, total m))
  let own := fun (m : Nat) => (l.filter (fun e => e.2.1 == m)).map (fun e => (e.1, e.2.2))
  let gt := fun (a b : Nat) => decide (b < a)
  let lt := fun (a b : Nat) => decide (a < b)
  match pickMember gt sums, pickMember lt sums with
  | some (hi, top), some (lo, _) =>
    if hi = lo ∨ top * 1000 * members < ratio * (sums.map (·.2)).sum then none
    else match pickMember gt (own hi), pickMember lt (own lo) with
      | some (a, _), some (b, _) => some (a, b)
      | _, _ => none
  | _, _ => none

/-- R396: REBALANCE_PERIOD. `loads` holds, for a layer, an expert and the member that holds it, the rows that it received in the period. -/
def execRebalancePeriod (model : Nat) (loads : List (Nat × Nat × Nat × Nat)) (s : State) : Result :=
  match kfind model s.serve.models with
  | none => .next s
  | some x =>
    if x.state ≠ 3 ∨ !bit x.flags 2 ∨ s.trayWorker ∨ s.mode ≠ .run then .next s
    else
      let swaps := ((loads.map (·.1)).dedup).filterMap (fun y =>
        (rebalancePair (s.odGet Od.rebalanceRatio) s.memberCount ((loads.filter (fun e => e.1 == y)).map (·.2))).map (fun p => (y, p.1, p.2)))
      if swaps = [] then .next s
      else .next ((s.modelJobList model).foldl (fun s j => s.planReplace j ⟨[], swaps, []⟩) s)

/-! ### Timers of the step scheduler (R332, R335) -/

/-- R335: BATCH_WAIT_EXPIRY. -/
def execBatchWaitExpiry (hall model cls : Nat) (s : State) : Result :=
  if !hallOk hall then .refused .noSuchUnit
  else if s.serve.batches.any (fun b => b.hall == hall && b.model == model && b.cls == cls) then
    .next (((s.modelJobList model).filter (fun j => s.runsUnstepped j)).foldl (fun s j => s.openStep j true) s)
  else .next s

/-- R332: PROMPT_SHARE_WINDOW. -/
def execPromptShareWindow (hall : Nat) (s : State) : Result :=
  if !hallOk hall then .refused .noSuchUnit
  else .next { s with serve := { s.serve with shareSteps := kdel hall s.serve.shareSteps } }

/-! ### Kept caches (R345 to R348) -/

/-- R348: a kept cache's TTL_MS has elapsed. -/
def State.ttlOver (s : State) (i : Nat) : Bool :=
  (s.sState i == stPaused || s.sState i == stParked) &&
  ((s.stream i).cache.any (fun c => decide (c.paused + bits (s.sw i 10) 31 0 * oneMs ≤ s.epoch)))

/-- R348: TTL_CHECK. -/
def execTtlCheck (s : State) : Result :=
  .next ((s.streamList.filter s.ttlOver).foldl (fun s i => (s.count Od.ttlExpiries 1).endStream i stCompleted) s)

/-- The bytes that blocks and their list take in a parked copy. -/
def spansLen (bs : List (Nat × Nat)) : Nat := (bs.map (fun b => b.2 * 4096 + 8)).sum

/-- R341, R346, R359: the bytes of a parked copy: the blocks, the draft model's among them, the block list (a U64 address each) and the two copies of the token log
(DESIGN CHOICE, log entry 21). -/
def State.parkLen (s : State) (c : CacheSt) : Nat := spansLen (s.ownSpans c) + 8 * c.tokens.length + spansLen (s.draftSpans c)

/-- R346, R347: blocks between their places in a hall's pool and a run of addresses from `at_`, to the run or back. -/
def State.moveSpans (s : State) (h : Nat) (toRun : Bool) : Nat → List (Nat × Nat) → State
  | _, [] => s
  | at_, b :: t =>
    let s := if toRun then s.moveRegion (blockPlace h b.1) at_ (b.2 * 4096) else s.moveRegion at_ (blockPlace h b.1) (b.2 * 4096)
    s.moveSpans h toRun (at_ + b.2 * 4096) t

/-- R341, R346: blocks and their list to a run of addresses from `at_`. -/
def State.parkSpans (s : State) (h at_ : Nat) (bs : List (Nat × Nat)) : State :=
  (s.moveSpans h true at_ bs).devWrite (at_ + (bs.map (fun b => b.2 * 4096)).sum) (bs.flatMap (fun b => leBytes 8 (blockPlace h b.1)))

/-- R346: no parked copy of another stream holds any of n bytes of the mezzanine from a on. -/
def State.mezzOpen (s : State) (a n : Nat) : Bool :=
  s.serve.streams.all (fun e => match e.2.cache with
    | some c => match c.parked with
      | some b =>
        let blocks := fun (m : Nat) => List.replicate (((s.pkgOf m).map (fun p => blocksFor p (s.sCacheLen e.1))).getD 0) (0, s.modelUnits m)
        let len := spansLen (blocks c.model) + 8 * c.tokens.length + spansLen ((c.draft.map blocks).getD [])
        decide (a + n ≤ b) || decide (b + len ≤ a)
      | none => true
    | none => true)

/-- R346: PARK_DONE: the copy in the mezzanine at `mezzAddr` is confirmed. -/
def execParkDone (stream mezzAddr : Nat) (s : State) : Result :=
  match (s.stream stream).cache with
  | none => .next s
  | some c =>
    let h := s.sHall stream
    let n := s.parkLen c
    if s.sState stream ≠ stPaused ∨ c.moving ≠ some 0 ∨ mezzAddr < mezzBase ∨ mezzHallOf mezzAddr ≠ h ∨ mezzHallOf (mezzAddr + n) ≠ h ∨
       !bit (s.odGet Od.mezzPresent) h ∨ !s.mezzOpen mezzAddr n then .next s
    else
      let own := s.ownSpans c
      let log := mezzAddr + spansLen own
      let m := 4 * c.tokens.length
      let drafts := s.draftSpans c
      let s := s.parkSpans h mezzAddr own
      let s := (s.moveRegion (tokenPlace h 0 stream 0) log m).moveRegion (tokenPlace h 1 stream 0) (log + m) m
      let s := s.parkSpans h (log + 2 * m) drafts
      let s := s.poolFree h ((s.pool h).2 + (c.blocks.length + c.dblocks.length))
      let s := s.modStream stream (fun r => { r with cache := some { c with blocks := [], dblocks := [], moving := none, parked := some mezzAddr } })
      let s := s.counts [(Od.parks, 1), (Od.parkedBytes, n)]
      .next ((s.setState stream stParked).parkLow h)

/-- R347, R359: RESTORE_DONE: fresh blocks are reserved and every byte of the parked copy is back, the draft model's where the submission names the same
draft; the mezzanine copy is freed. -/
def execRestoreDone (stream : Nat) (s : State) : Result :=
  match (s.stream stream).cache with
  | none => .next s
  | some c =>
    match c.parked with
    | none => .next s
    | some a =>
      let h := s.sHall stream
      if c.moving ≠ some 1 ∨ s.sState stream ≠ stSubmitted then .next s
      else
        let draft := s.draftOf stream
        match s.reserve h c.model (s.ownNeeded stream) draft (s.draftNeeded stream), s.pkgOf c.model with
        | some (bs, ds, s), some p =>
          let n := s.sCacheLen stream
          let own := (bs.take (blocksFor p n)).map (fun b => (b, s.modelUnits c.model))
          let dlen := if c.draft = draft then ((draft.bind s.pkgOf).map (fun d => blocksFor d n)).getD 0 else 0
          let drafts := (ds.take dlen).map (fun b => (b, s.modelUnits (draft.getD 0)))
          let log := a + spansLen own
          let m := 4 * c.tokens.length
          let s := s.moveSpans h false a own
          let s := (s.moveRegion log (tokenPlace h 0 stream 0) m).moveRegion (log + m) (tokenPlace h 1 stream 0) m
          let s := s.moveSpans h false (log + 2 * m) drafts
          let s := s.modStream stream (fun r =>
            { r with cache := some { c with draft := draft, blocks := bs, dblocks := ds, moving := none, parked := none } })
          .next ((s.count Od.restores 1).parkLow h)
        | _, _ => .next s

end Sys2Proof.Machine
end

