-- ==== Sys2Proof/Machine/Entries.lean ====
section
/-!
DEFINITION. Entries.lean: what a read of a dictionary entry returns (chapter 2 and the entry tables of every chapter).
-/

namespace Sys2Proof.Machine

/-! ### Roles' own selections ("per role" entries) -/

/-- R33: the role of a path. -/
def roleOf : Via → Role
  | .mailbox => .host | .eop => .field | .arcade => .manager | .newel => .newel

/-- The entries of which each role has its own copy. -/
def perRole : List Nat :=
  [Od.archSelect, Od.modelSelect, Od.reportSelect, Od.loadSelect, Od.layerSelect, Od.laneStackSelect, Od.streamSelect, Od.cellSelect, Od.logReadFrom]

/-! ### Capability (R15, R17, R47) -/

/-- Flights of a hall and kind that are powered and not fenced: kind 0 P-flights, 1 G-flights. -/
def State.freeFlights (s : State) (h kind : Nat) : Nat :=
  if !bit (s.odGet Od.hallsPresent) h then 0
  else ((List.range 20).filter (fun i => (decide (i < 12) == decide (kind = 0)) && !s.fenced (20 * h + i))).length

/-- R404: the payload of a trained arch, GB/s: 40 with four lanes, 20 with two. -/
def ArchSt.gbps (a : ArchSt) : Nat := if a.up then 10 * a.lanes else 0

/-- Halls that a capability view covers: all for the module (view none), one hall, or one engine of a hall. -/
def viewHalls : Option (Nat × Option Nat) → List Nat
  | none => [0, 1, 2, 3]
  | some (h, _) => [h]

/-- R15, R17: the summary of the member of index x of this module's gallery at a level: that member's own state, so free within what its modules can have
(DESIGN CHOICE, log entry 89). -/
def State.memberSummary (s : State) (l x sub : Nat) : Nat :=
  let n := (s.galleryShape (l - 1)).2
  let v := Config.freeNat s.free ((l * 64 + x) * 256 + sub)
  match sub with
  | 0x10 => v % (80 * n + 1)
  | 0x11 => 16 * (v % (24 * n + 1))
  | 0x12 => 128 * (v % (4 * n + 1))
  | 0x14 => 20 * (v % (24 * n + 1))
  | _ => 0

/-- R17: the sum of the summaries of the other members of the galleries from level 3 to `level` on this module's path. -/
def State.membersSum (s : State) (level sub : Nat) : Nat :=
  (((List.range 9).filter (fun l => decide (3 ≤ l) && decide (l ≤ level))).map (fun l =>
    (((s.levelIndices l).filter (· != s.levelIndex s.ownPath l)).map (fun x => s.memberSummary l x sub)).sum)).sum

/-- R15, R47: OD 0x5100.10 to 0x14 for a view of this module. A lost corridor changes none of them: the spec does not say which figure shows it (DESIGN CHOICE,
log entry 89). -/
def State.ownCapability (s : State) (view : Option (Nat × Option Nat)) (sub : Nat) : Nat :=
  let hs := viewHalls view
  let arches := hs.flatMap (fun h => [3 * h, 3 * h + 1, 3 * h + 2])
  match sub with
  | 0x10 => (hs.map (fun h =>
      match view with
      | some (_, some k) => s.freeFlights h k
      | _ => s.freeFlights h 0 + s.freeFlights h 1)).sum
  | 0x11 => 16 * ((hs.flatMap (fun h => (List.range 6).map (· + 6 * h))).filter (bit (s.odGet Od.stacksPresent))).length
  | 0x12 => 128 * (hs.filter (bit (s.odGet Od.mezzPresent))).length
  | 0x13 => (arches.map (fun n => if (s.arch n).up then 2 ^ n else 0)).sum
  | 0x14 => (arches.map (fun n => (s.arch n).gbps)).sum
  | _ => 0

/-- R15, R17, R47: OD 0x5100.10 to 0x14 for a view; without one, of this module's gallery at a level, 2 for the module itself. -/
def State.capability (s : State) (view : Option (Nat × Option Nat)) (level sub : Nat) : Nat :=
  if view.isSome then s.ownCapability view sub else s.ownCapability none sub + s.membersSum level sub

/-! ### Scalar entries that the module computes -/

/-- R172: the predicted layer that a role's copy of LAYER_SELECT names. -/
def State.selectedLayer (s : State) (r : Role) : Option (Nat × PredLayer) :=
  let v := s.roleGet r Od.layerSelect
  let k := v / 65536 * 65536 + v % 65536
  if (s.pkgOf (v / 65536)).isNone then none else (kfind k s.halls.layers).map (fun l => (k, l))

/-- OD 0x3200.21 to 0x28 of a layer. -/
def State.layerEntry (s : State) (l : PredLayer) (sub : Nat) : Nat :=
  let misses := (l.window.filter id).length
  match sub with
  | 0x21 => l.mode
  | 0x22 => s.activeMode l
  | 0x23 => l.audits
  | 0x24 => l.misses
  | 0x25 => l.window.length * 65536 + misses
  | 0x26 => if l.window = [] then 0 else misses * 65536 / l.window.length
  | 0x27 => l.skipped
  | 0x28 => if l.logical = 0 then 0 else l.physical * 65536 / l.logical
  | _ => 0

/-- OD 0x5000.11 to 0x1D of an arch. -/
def ArchSt.entry (a : ArchSt) (sub : Nat) : Nat :=
  match sub with
  | 0x11 => a.lanes | 0x12 => if a.spare then 1 else 0 | 0x13 => a.partner.toNat | 0x14 => a.pArch | 0x15 => a.roundTrip
  | 0x16 => a.fecCorr | 0x17 => a.fecUncorr | 0x18 => a.crcFails | 0x19 => a.replays | 0x1A => a.retrains | 0x1B => a.flitsTx
  | 0x1C => a.flitsRx | 0x1D => a.stalls | _ => 0

/-- R142: generators of a hall that loaded programs bind. -/
def State.genBound (s : State) (h : Nat) : Nat :=
  let gs := ((s.progs.filter (fun e => e.1 / 20 == h)).flatMap (fun e => ((e.2.img.binds.map bindOf).filter Bind.used).map (·.gen))).dedup
  (gs.map (2 ^ ·)).sum

/-- R208: flight landings of a hall in fixed-latency mode: a fixed-latency program is on their flight that has not ended. -/
def State.fixlat (s : State) (h : Nat) : Nat :=
  ((((s.progs.filter (fun e => e.1 / 20 == h && e.2.img.fixedLat && (e.2.mode != .idle || e.2.since == 0))).map (fun e => e.1 % 20)).dedup).map (2 ^ ·)).sum

/-- R17, R18, OD 0x5100.02. -/
def State.roleCode (s : State) : Nat := if s.isManager then 2 else if s.trayWorker then 1 else 0

/-- OD 0x6100.01: the link's state; a link that is neither up nor PCIe only reads 0. -/
def State.linkState (s : State) : Nat := if s.cxl.linkUp then 2 else if s.cxl.pcieOnly then 3 else if s.portLive then 1 else 0

/-- Loaded models. -/
def State.loadedModels (s : State) : List ModelSt := (s.serve.models.map (·.2)).filter (fun x => x.state == 3)

/-- Packages of the loaded models. -/
def State.loadedPkgs (s : State) : List Package := s.loadedModels.filterMap (·.pkg)

/-- OD 0x1000 to 0x2FFF as the module computes them; none where the entry is held as a value. -/
def State.computedLow (s : State) (k : Nat) : Option Nat :=
  match k with
  | 0x100004 => some Config.hwIssue.toNat
  | 0x100005 => some s.newel.running.version
  | 0x100008 => some s.mode.code
  | 0x100022 => some s.newel.bootCount
  | 0x100023 => some s.newel.security
  | 0x100029 => some (if s.newel.svcChatter then 2 else if s.newel.svcCounted then 1 else 0)
  | 0x10002C => some (if s.alertCauses % 2 = 1 ∨ s.newel.tripped ∨ s.mode = .safeStop ∨ s.newel.svcCounted then 1 else 0)
  | 0x10002D => some (if s.newel.tripped then 1 else 0)
  | 0x10002E => some s.smbusAddr
  | 0x120001 => some (s.log.next - 1)
  | 0x120002 => some (((s.log.ring.head?).map (·.seq)).getD 0)
  | 0x130001 => some s.newel.episodes.length
  | 0x130004 => some s.log.buffer.length
  | 0x200081 => some (s.newel.sensors.filter (·.failed)).length
  | 0x220027 => some s.mem.repairs.length
  | 0x220032 => some ((List.range 384).filter (fun g => (s.mem.freeSpare g).isNone)).length
  | 0x230001 => some (((List.range 64).filter s.tenantEnabled).map (2 ^ ·)).sum
  | 0x230028 => some s.xlate.requests.length
  | _ => none

/-- OD 0x3000 to 0x4FFF as the module computes them. -/
def State.computedMid (s : State) (r : Role) (k : Nat) : Option Nat :=
  match k with
  | 0x300002 => some ((List.range 4).map (fun h => s.freeFlights h 0 + s.freeFlights h 1)).sum
  | 0x300003 => some ((List.range 4).map (fun h => s.freeFlights h 0)).sum
  | 0x300004 => some ((List.range 4).map (fun h => s.freeFlights h 1)).sum
  | 0x300040 => some s.progs.length
  | 0x400002 => some s.entriesLive
  | 0x400022 => some s.admittedList.length
  | 0x400024 => some s.class0Load
  | 0x400030 => some (s.serve.pools.map (·.2.1)).sum
  | 0x400031 => some (s.serve.pools.map (·.2.2)).sum
  | 0x400039 => some (s.serve.streams.filter (fun e => e.2.cache.any (·.parked.isSome))).length
  | _ =>
    if k / 256 = 0x3100 ∧ 0x20 ≤ k % 256 ∧ k % 256 ≤ 0x23 then some (s.genBound (k % 256 - 0x20))
    else if k / 256 = 0x3400 ∧ 2 ≤ k % 256 ∧ k % 256 ≤ 5 then some (s.fixlat (k % 256 - 2))
    else if k / 256 = 0x3200 ∧ 0x21 ≤ k % 256 ∧ k % 256 ≤ 0x28 then (s.selectedLayer r).map (fun l => s.layerEntry l.2 (k % 256))
    else none

/-- OD 0x2100.01 and 0x5000 to 0xA000 as the module computes them. -/
def State.computedHigh (s : State) (r : Role) (k : Nat) : Option Nat :=
  match k with
  | 0x210001 => some s.timebase
  | 0x500001 => some ((List.range 12).map (fun n => (s.arch n).state * 16 ^ n)).sum
  | 0x510001 => some s.managedLevel
  | 0x510002 => some s.roleCode
  | 0x510003 => some s.ownPath.toNat
  | 0x51000A => some ((s.arcade.manager.getD noPath).toNat)
  | 0x51000B => some (if s.arcade.deputy = some s.ownPath then 1 else 0)
  | 0x520002 => some (if s.timeRef then 0 else s.odGet k)
  | 0x520004 => some (s.parent.getD 0xFF)
  | 0x520009 => some (if s.rackMode then 25 else 20)
  | 0x600022 => some (s.foyer.cells.filter (fun c => c.state == 1)).length
  | 0x610001 => some s.linkState
  | 0x610002 => some s.cxl.rate
  | 0x610003 => some s.cxl.width
  | 0x610007 => some (if s.cxl.infoValid && s.odGet Od.trainingState == 2 then 1 else 0)
  | 0x610008 => some s.cxl.filter.length
  | 0xA00001 => some s.loadedModels.length
  | 0xA00002 => some (s.loadedPkgs.map (·.templates)).sum
  | 0xA00003 => some (s.loadedPkgs.map (·.customs)).sum
  | 0xA00013 => some (((kfind (s.roleGet r Od.modelSelect) s.serve.models).map (·.state)).getD 0)
  | 0xA00014 => some (((kfind (s.roleGet r Od.modelSelect) s.serve.models).map (·.code)).getD 0)
  | _ =>
    if k / 256 = 0x5000 ∧ 0x11 ≤ k % 256 ∧ k % 256 ≤ 0x1D then some ((s.arch (s.roleGet r Od.archSelect)).entry (k % 256))
    else if k / 256 = 0x5100 ∧ 0x10 ≤ k % 256 ∧ k % 256 ≤ 0x14 then some (s.capability none s.managedLevel (k % 256))
    else none

/-- R427: the arches on the parent chain: each hop that a module counts along the routes toward the reference. -/
def State.hopsToReference (s : State) : Nat :=
  match s.timeRoot with
  | none => 0
  | some p => ((List.range (s.depth - 2)).filter (fun j => hop s.ownPath j != hop p j)).length

/-- R27, R31: the value that a read of a scalar entry gives a role. -/
def State.odScalar (s : State) (r : Role) (k : Nat) : Nat :=
  if k % 256 = 0 then (((odIndexes.find? (fun p => p.1 == k / 256)).bind (fun p => p.2.getLast?)).map (·.sub)).getD 0
  else if perRole.contains k then s.roleGet r k
  else if k = Od.hopsToReference then s.hopsToReference
  else
    match s.computedLow k, s.computedMid r k, s.computedHigh r k with
    | some v, _, _ => v
    | none, some v, _ => v
    | none, none, some v => v
    | none, none, none => s.odGet k

/-! ### DOMAIN and STR entries -/

/-- R312: OD 0x4000.17: an entry as the module holds it: the words that it has taken or keeps itself over those in memory; what its working state holds is
undefined (free). -/
def State.streamEntry (s : State) (i : Nat) : Bytes :=
  let a := s.entryAddr i
  let word := fun (k : Nat) =>
    let m := s.memWord (a + 8 * k)
    if 20 ≤ k then leNat ((List.range 8).map (fun j => Config.freeByte s.free (a + 160) (8 * (k - 20) + j)))
    else if !s.streamList.contains i then m
    else if k = 0 then s.ownW0 i m
    else if k = 8 ∨ k = 9 ∨ (12 ≤ k ∧ k ≤ 19) then s.sw i k
    else if (kfind k (s.stream i).words).isSome && !endedState (s.sState i) then s.sw i k else m
  (List.range 32).flatMap (fun k => leBytes 8 (word k))

/-- R271: OD 0x2200.34: the lane records of a stack. -/
def State.laneReport (s : State) (n : Nat) : Bytes :=
  (List.range 5200).flatMap (fun r =>
    let l := n * 5200 + r
    let eye := (kfind l s.mem.margins).getD s.mem.margin
    let replaced := (kfind l s.mem.laneSpare).isSome
    let used := decide (5120 ≤ r) && s.mem.laneSpare.any (fun e => laneGroup e.1 == n * 16 + (r - 5120) / 5 && e.2 == (r - 5120) % 5)
    let flags := (if replaced then 1 else 0) + (if used && !replaced then 2 else 0) + (if s.mem.laneFail.contains l then 4 else 0)
    leBytes 1 (min 255 eye.1) ++ leBytes 1 (min 255 eye.2) ++ leBytes 1 flags ++ leBytes 1 (min 255 (kget 0 l s.mem.laneTotal)))

/-- R523: OD 0x1300.10. -/
def State.episodeTable (s : State) : Bytes :=
  let rec_ := fun (e : Episode) =>
    leBytes 2 e.num ++ leBytes 1 e.subj.kind ++ leBytes 1 e.phase ++ leBytes 2 e.first ++ leBytes 2 e.last ++ leBytes 8 e.opened ++
    leBytes 8 e.subj.at_ ++ leBytes 2 e.records ++ leBytes 2 e.streams ++ leBytes 2 e.model ++ zeros 2
  padTo 128 (s.newel.episodes.flatMap rec_)

/-- R485: OD 0x1200.04: up to 256 records from the role's LOG_READ_FROM. -/
def State.logRecords (s : State) (r : Role) : Bytes :=
  ((s.log.ring.filter (fun x => decide (s.roleGet r Od.logReadFrom ≤ x.seq))).take 256).flatMap LogRec.bytes

/-- OD 0x6000.26 of the cell that a role selects; a record that waits for its ENTRY reads 3. -/
def State.cellStatus (s : State) (r : Role) : Bytes :=
  let id := s.roleGet r Od.cellSelect
  match s.cellNamed id with
  | some c => leBytes 1 c.state ++ zeros 1 ++ leBytes 2 (c.last.getD 0) ++ zeros 4 ++ leBytes 8 c.passed ++ leBytes 8 c.policed ++ leBytes 8 c.stale
  | none => leBytes 1 (if s.foyer.cells.any (fun c => c.next.any (fun n => n.cellId == id)) then 3 else 0) ++ zeros 31

/-- R489: the digest of the image that a key of the model names. -/
def digestOf (key : Nat) : Bytes := (List.range 64).map (Config.imageDigest key)

/-- R489: a measurement record. -/
def measurement (i kind version : Nat) (digest : Bytes) : Bytes := leBytes 1 i ++ leBytes 1 kind ++ zeros 2 ++ leBytes 4 version ++ digest

/-- R489: the parameter store's copy, over which its digest runs (the digest is opaque, log entry 9). -/
def State.storeBytes (s : State) : Bytes :=
  s.od.stored.flatMap (fun e => leBytes 4 e.1 ++ leBytes 8 e.2) ++ s.od.storedDom.flatMap (fun e => leBytes 4 e.1 ++ leBytes 4 e.2.length ++ e.2)

/-- R489: the measurements, in order. -/
def State.measurements (s : State) : List Bytes :=
  let loaded := s.serve.models.filter (fun e => e.2.state == 3)
  let img := s.newel.running
  [measurement 0 0 0 ((List.range 64).map Config.romDigest), measurement 1 1 img.version (digestOf img.digest),
   measurement 2 2 0 ((List.range 64).map (Config.shake256 s.storeBytes)), measurement 3 3 0 (digestOf (2 ^ 64 + img.digest))] ++
  (loaded.zip (List.range loaded.length)).map (fun e => measurement (4 + e.2) 4 e.1.1 (digestOf (2 ^ 65 + e.1.1 * 2 ^ 32 + e.1.2.epoch)))

/-- R490: ROLE in a report; Newel takes none of its own (0 would be the Host's, log entry 40). -/
def Role.report : Role → Nat
  | .host => 0 | .field => 1 | .manager => 2 | .newel => 0

/-- R490: the attestation report. -/
def State.attestReport (s : State) (r : Role) : Bytes :=
  let ms := s.measurements
  let nonce := (kfind (r.num * 16777216 + Od.attestNonce) s.od.roleDoms).getD (zeros 64)
  signed 2 (leBytes 4 0x52544143 ++ leBytes 2 1 ++ leBytes 2 ms.length ++ nonce ++ leBytes 8 s.epoch ++ leBytes 8 (s.odGet Od.odWriteSeq) ++
    deviceKeyBytes ++ leBytes 1 s.mode.code ++ leBytes 1 r.report ++ zeros 1 ++ ms.flatMap id)

/-- The default of a DOMAIN or STR entry. -/
def domDefault (k : Nat) : Bytes :=
  if k = Od.orderingCode then ascii "CTX3-48A"
  else if k = Od.fabricId then zeros 16
  else if k = Od.routeTable then List.replicate 768 0xFF#8
  else if Od.portIp0 ≤ k ∧ k ≤ Od.portIp0 + 2 then zeros 48
  else if k = Od.echoPeer then zeros 18
  else if k = Od.mezzMarginReport then zeros 1280
  else []

/-- R419: the route table that discovery fills. -/
def State.routeBytes (s : State) : Bytes :=
  (List.range 6).flatMap (fun j => (List.range 64).flatMap (fun d =>
    let l := j + 3
    if l ≤ s.depth ∧ d < s.gallerySize l ∧ d ≠ s.levelIndex s.ownPath l then leBytes 1 (s.route l d).1 ++ leBytes 1 (s.route l d).2
    else [0xFF#8, 0xFF#8]))

/-- R555: the production record: 190 bytes, its reserved bytes and bits 0. -/
def productionBytes : Bytes :=
  (List.range 190).map (fun i =>
    if (13 ≤ i ∧ i ≤ 15) ∨ (72 ≤ i ∧ i ≤ 75) then 0#8
    else if i = 12 then Config.productionRecord i &&& 0x0F#8 else Config.productionRecord i)

/-- The value that a read of a DOMAIN or STR entry gives a role. -/
def State.odBytes (s : State) (r : Role) (k : Nat) : Bytes :=
  match k with
  | 0x100003 => serialBytes
  | 0x100006 => digestOf s.newel.running.digest
  | 0x100007 => deviceKeyBytes
  | 0x110030 => (kfind (r.num * 16777216 + Od.attestNonce) s.od.roleDoms).getD (zeros 64)
  | 0x110031 => s.attestReport r
  | 0x120004 => s.logRecords r
  | 0x120005 => s.log.persist.flatMap LogRec.bytes
  | 0x130006 => ((s.log.buffer.head?).map LogRec.bytes).getD []
  | 0x130010 => s.episodeTable
  | 0x200080 => s.sensorReport
  | 0x220034 => s.laneReport (s.roleGet r Od.laneStackSelect)
  | 0x31001A => (List.range 4096).flatMap (fun d => leBytes 2 (exptDefaultAt d))
  | 0x400017 => s.streamEntry (s.roleGet r Od.streamSelect)
  | 0x420011 => (List.range 256).flatMap (fun e => leBytes 4 (kget 0 (s.roleGet r Od.loadSelect * 256 + e) s.serve.expertLoad))
  | 0x430010 => s.placementReport (s.roleGet r Od.reportSelect)
  | 0x600026 => s.cellStatus r
  | 0x51000E => if s.odGet Od.routeCustom ≠ 0 then s.domGet k (domDefault k) else s.routeBytes
  | 0x700050 => productionBytes
  | _ => s.domGet k (domDefault k)

end Sys2Proof.Machine
end

