-- ==== Sys2Proof/Machine/Start.lean ====
section
/-!
DEFINITION. Start.lean: power-up, Training and Ready (chapter 23), the ends of transitions (R63), and boundary scan (R553, R554).
-/

namespace Sys2Proof.Machine

/-! ### Power-up (R533, R534, R560) -/

/-- R533, R560: the input has stayed in 40 to 60 V for 10 ms with MATE_DET joined: the switch closes. -/
def execHotswapClose (mv : Nat) (s : State) : Result :=
  .next (if s.mode = .off ∧ 40000 ≤ mv ∧ mv ≤ 60000 then { s with start := { s.start with closed := true, mated := true } } else s)

/-- R560: MATE_DET opens: the switch opens, and the module is Off without a record. -/
def execMateDetOpen (s : State) : Result :=
  let t := s.toOff false
  .next { t with start := { t.start with mated := false } }

/-- R39, R41, R61, R478, R505, R534: what holds when the image runs for the first time after power good: the defaults with the stored values,
each EOP key's H advanced, the boot counter incremented, the Epoch Counter from 0. -/
def State.booted (s : State) (slot : Option FwImage) : State :=
  let od := s.od.atStandby
  let cells := mapCells ((kfind Od.fieldMap od.doms).getD [])
  let n : NewelSt :=
    { NewelSt.reset with bootCount := min (2 ^ 32 - 1) (s.newel.bootCount + 1), slot := slot, straps := s.newel.straps,
                         running := slot.getD NewelSt.reset.running, recovery := slot.isNone,
                         security := max s.newel.security ((slot.map (·.security)).getD 0) }
  { s with epoch := 0, od := od, eop := s.eop.atStandby, newel := n, foyer := { FoyerSt.reset with cells := cells } }

/-- R534, R495, R507: power good: the boot ROM verifies the slot and starts the TCXO; the image reaches Standby, or the recovery loader runs. -/
def execPowerGood (slotOk tcxoOk : Bool) (s : State) : Result :=
  if s.mode ≠ .off ∨ !s.start.closed then .next s
  else
    let owed := s.power.highOwed
    let s := s.booted (if slotOk then s.newel.slot else none)
    let s : State :=
      { s with power := { s.power with tcxo := if tcxoOk then 1 else 2, highOwed := false },
               start := { s.start with running := true, waitTrain := decide (s.odGet Od.startMode = 0) } }
    let s := s.setMode .standby
    let s := if owed then s.logEv { code := 0x2004 } else s
    let s := if tcxoOk then s else s.logEv { code := 0x2101 }
    .next (if s.newel.recovery then
        (s.odPut Od.fwState 6).raiseFault { code := 0x7105 } (unitSubject 10 0xFF 0xFF)
      else s)

/-! ### Training (R536 to R538, R266, R267, R270) -/

/-- R508: the PLL units (DESIGN CHOICE, log entry 32): 0 to 3 the halls' periphery, 4 to 27 the stacks, 28 to 31 the mezzanines, 32 to 43 the arches, 44 the
CXL port. A PLL that is not locked after two restarts. -/
def State.pllFailed (s : State) (unit hall u : Nat) : State :=
  ({ s with power := { s.power with plls := kset 0 unit 3 s.power.plls } } : State).logEv { code := 0x2102, hall := hall, unit := u }

/-- R537: a hall landing fails its self-test. -/
def State.landingFailed (s : State) (h : Nat) : State :=
  s.fault { code := 0x3063, hall := h } ⟨4, h * 256 + 20, h * 256 + 20⟩

/-- R537, R122, R521: a flight fails the self-test: fenced, with DETAIL byte 0 set to 1; its episode closes as soon as it opens. -/
def State.selfTestFence (s : State) (k : Nat) : State :=
  let (e, b) := fenceBit k
  let s := s.odPut e (setBit (s.odGet e) b true)
  let x := unitSubject 3 (k / 20) (k % 20)
  let s := s.fault { code := 0x3011, hall := k / 20, unit := k % 20, detail := leBytes 1 1 } x
  match s.episodeOf x with | some ep => s.closeEpisode ep.num | none => s

/-- R521, R538: a withdrawal in Training: no model's item lies in the range, so the episode closes at once. -/
def State.closeWithdrawn (s : State) (h u : Nat) : State :=
  match s.newel.episodes.find? (fun e => e.subj == unitSubject 7 h u) with
  | some e => s.closeEpisode e.num
  | none => s

/-- R538: a hall is unpowered, and its stacks, mezzanine and arches are withdrawn with it. -/
def State.hallOut (s : State) (h : Nat) : State :=
  let s := s.odPut Od.hallsPresent (setBit (s.odGet Od.hallsPresent) h false)
  let s := s.odPut Od.stacksPresent ((List.range 6).foldl (fun v i => setBit v (6 * h + i) false) (s.odGet Od.stacksPresent))
  let s := s.odPut Od.mezzPresent (setBit (s.odGet Od.mezzPresent) h false)
  let s := (List.range 3).foldl (fun s i => s.setArch (3 * h + i) { (s.arch (3 * h + i)) with state := 0 }) s
  { s with power := { s.power with hallPower := s.power.hallPower.filter (· ≠ h) } }

/-- R267: an eye is narrower than 0.35 UI or lower than 60 mV. -/
def eyeTooSmall (width height : Nat) : Bool := decide (width < 350) || decide (height < 60)

/-- R271: an eye as the lane report gives it: 1/64 UI and 4 mV units, rounded down (DESIGN CHOICE, log entry 92). -/
def eyeUnits (width height : Nat) : Nat × Nat := (width * 64 / 1000, height / 4)

/-- R267: the lanes of a stack whose eye is too small, its spares among them. -/
def narrowLanes (o : TrainOutcome) (n : Nat) : List Nat :=
  let own := o.eyes.filter (fun e => e.stack == n && decide (e.lane < 5200))
  let rest := if eyeTooSmall o.eye.1 o.eye.2 then (List.range 5200).filter (fun l => !own.any (fun e => e.lane == l)) else []
  ((own.filter (fun e => eyeTooSmall e.width e.height)).map (·.lane)).dedup ++ rest

/-- R270: Training passes a stack: it is in service. -/
def State.stackPasses (s : State) (n : Nat) : State := s.odPut Od.stacksPresent (setBit (s.odGet Od.stacksPresent) n true)

/-- R267, R270, R538: the lanes of a stack whose eye is too small take spares of their group; more failing lanes than the group has spares withdraw the
stack. A spare of which the eye is too small has failed and replaces none. -/
def State.trainStack (s : State) (o : TrainOutcome) (n : Nat) : State :=
  let lanes := (narrowLanes o n).map (· + n * 5200)
  let tooMany := (List.range 16).any (fun g => decide (5 < (lanes.filter (fun l => laneGroup l == n * 16 + g)).length))
  let spare := fun (l : Nat) => decide (5120 ≤ l % 5200)
  let fail := fun (s : State) (l : List Nat) => ({ s with mem := { s.mem with laneFail := s.mem.laneFail ++ l } } : State)
  if !s.power.hallPower.contains (n / 6) then s
  else if o.stackPllFailed.contains n then ((s.pllFailed (4 + n) (n / 6) n).withdrawStack n).closeWithdrawn (n / 6) n
  else if tooMany then ((fail s lanes).withdrawStack n).closeWithdrawn (n / 6) n
  else ((lanes.filter (fun l => !spare l)).foldl (fun s l => s.spareLane l) (fail s (lanes.filter spare))).stackPasses n

/-- R266, R270, R538: a hall's mezzanine: a PLL or a channel that fails withdraws it, and its listed rows stay listed; else it is in service, and the listed rows
are repaired as far as the packages allow. -/
def State.trainMezz (s : State) (o : TrainOutcome) (h : Nat) : State :=
  if !s.power.hallPower.contains h then s
  else if o.mezzPllFailed.contains h then ((s.pllFailed (28 + h) h 0xFF).withdrawMezz h).closeWithdrawn h 0xFF
  else if o.mezzFailed.contains h then (s.withdrawMezz h).closeWithdrawn h 0xFF
  else
    let rows := s.mem.repairs.filter (fun x => (x - 0x100000000) / 2 ^ 24 / 20 == h)
    let left := rows.filter (fun x => o.rowsUnrepaired.any (fun p => p.1 == h && p.2 == x))
    let s := left.foldl (fun s _ => s.logEv { code := 0x2012, hall := h }) s
    let keep := s.mem.repairs.filter (fun x => !rows.contains x || left.contains x)
    ({ s with mem := { s.mem with repairs := keep } } : State).odPut Od.mezzPresent (setBit (s.odGet Od.mezzPresent) h true)

/-- R538: H0 cannot serve: Training is abandoned, and the module waits for TRAIN_REQUEST in Standby. -/
def State.trainingAbandoned (s : State) (o : TrainOutcome) : State :=
  let s := if o.hallPllFailed.contains 0 then s.pllFailed 0 0 0xFF else s
  let s := if o.landingsFailed.contains 0 then s.landingFailed 0 else s
  let s := s.toStandby
  { s with start := { s.start with waitTrain := true } }

/-- R536, R537, R538: the outcome of Training for each part of the halls. -/
def State.applyTraining (s : State) (o : TrainOutcome) : State :=
  let halls := fun (s : State) h =>
    let s := if o.hallPllFailed.contains h then s.pllFailed h h 0xFF else s
    let s := if o.landingsFailed.contains h then s.landingFailed h else s
    if o.hallPllFailed.contains h || o.landingsFailed.contains h then s.hallOut h else s
  let s := [1, 2, 3].foldl halls s
  let bad := ((o.flightsFailed.filter flightOk).map (fun f => f.hall * 20 + f.idx)).dedup.filter
    (fun k => s.power.hallPower.contains (k / 20))
  let s := bad.foldl (fun s k => s.selfTestFence k) s
  let s := s.odPut Od.selftestFails bad.length
  let eyes := o.eyes.foldl (fun m e => if e.lane < 5200 ∧ e.stack < 24 then kput (e.stack * 5200 + e.lane) (eyeUnits e.width e.height) m else m) []
  let s : State := { s with mem := { s.mem with margins := eyes, margin := eyeUnits o.eye.1 o.eye.2 } }
  let s := (List.range 24).foldl (fun s n => s.trainStack o n) s
  let s := (List.range 4).foldl (fun s h => s.trainMezz o h) s
  let s := (o.archPllFailed.filter archOk).foldl (fun s n =>
    if (s.arch n).state = 0 then s else (s.pllFailed (32 + n) (n / 3) n).setArch n { (s.arch n) with state := 5, downAt := s.epoch }) s
  let s := if o.cxlPllFailed then s.pllFailed 44 0 0xFF else s
  { s with start := { s.start with selfTested := true } }

/-- R535 to R538: Training: from Standby where START_MODE or a request lets it begin, and the outcome of its self-test and of its parts. -/
def execTraining (o : TrainOutcome) (s : State) : Result :=
  let s := if s.mode = .standby ∧ s.trans = none ∧ !s.start.waitTrain ∧ s.mayTrain ∧ !s.tripHot then s.beginTraining else s
  if s.mode ≠ .training ∨ s.start.selfTested then .next s
  else if o.plannerFailed || o.hallPllFailed.contains 0 || o.landingsFailed.contains 0 then .next (s.trainingAbandoned o)
  else .next (s.applyTraining o)

/-- R254, R267, R435: both tiers are trained and filled with zeros after `ms`; Memory_Active follows OD 0x2200.03. -/
def execMemoryTrainingDone (ms : Nat) (s : State) : Result :=
  if s.mode ≠ .training ∨ s.start.memoryDone then .next s
  else
    let s : State := { s with mem := s.mem.blank, start := { s.start with memoryDone := true } }
    .next ((s.odPut Od.trainingState 2).odPut Od.trainingTimeMs (ms % 65536))

/-- R497, R539, R541: every row of R536 has ended: Ready after `ms`; a held Stop is requested first, then Run under AUTO_RUN. -/
def execReady (ms : Nat) (s : State) : Result :=
  if s.mode ≠ .training ∨ !s.start.selfTested ∨ !s.start.memoryDone then .next s
  else
    let s := (s.odPut Od.trainingTimeMs1000 (ms % 65536)).setMode .ready
    let held := s.newel.svcHeldStop
    let s : State := { s with newel := { s.newel with svcHeldStop := false } }
    let s := if held then s.ownRequest 5 else s
    .next (if s.odGet Od.autoRun = 1 then s.ownRequest 4 else s)

/-- R63: an accepted transition ends. -/
def execStateTransitionEnd (s : State) : Result := .next s.endTransition

/-- R535: a write of TRAIN_REQUEST: the code that answers it, and the state. -/
def State.trainRequest (s : State) (v : Nat) : Nat × State :=
  if s.mode ≠ .standby ∨ s.trans.isSome ∨ s.newel.recovery then (0x1103, s)
  else if v = 0 then (0, s)
  else if s.tripHot then (0x1103, s)
  else
    let s : State := { s with start := { s.start with waitTrain := false } }
    (0, if s.mayTrain then s.beginTraining else s)

/-! ### Boundary scan (R553, R554) -/

/-- R553: the devices of the chain: 0 the management die, 1 to 4 the powered halls. -/
def State.jtagChain (s : State) : List Nat :=
  if (s.mode == .ready || s.mode == .stopped) && s.odGet Od.jtagEnable == 1 then
    0 :: (s.power.hallPower.filter (· < 4)).map (· + 1)
  else if s.mode = .off then [] else [0]

/-- R553: an instruction enters the instruction register of every device; what it neither drives nor floats returns to the functions of the module
(PRESUMED of IEEE 1149.1, log entry 101). -/
def State.jtagIr (s : State) (op : Nat) : State := { s with test := { s.test with ir := op, driven := false, floated := false } }

/-- R553: BYPASS: one bit, 0, between each device's TDI and TDO. -/
def State.jtagBypass (s : State) : State :=
  if s.mode = .off then s else (s.jtagIr 0xFF).emits (s.jtagChain.map (fun d => .jtag d [0#8]))

/-- R554: an instruction that drives, holds or floats pins: it acts in Stopped and marks OD 0x7000.41; elsewhere it is BYPASS. -/
def State.jtagActs (s : State) (op : Nat) (drive float : Bool) : State :=
  if s.mode ≠ .stopped then s.jtagBypass
  else
    let s := s.jtagIr op
    ({ s with test := { s.test with driven := drive, floated := float } } : State).odPut Od.extestSinceStandby 1

/-- R554. -/
def execExtest (s : State) : Result := .next (s.jtagActs 0x00 true false)
/-- R554. -/
def execExtestPulse (s : State) : Result := .next (s.jtagActs 0x03 true false)
/-- R554. -/
def execExtestTrain (s : State) : Result := .next (s.jtagActs 0x04 true false)
/-- R554. -/
def execClamp (s : State) : Result := .next (s.jtagActs 0x05 true false)
/-- R554. -/
def execHighz (s : State) : Result := .next (s.jtagActs 0x06 false true)
/-- R553. -/
def execBypass (s : State) : Result := .next s.jtagBypass

/-- R553: the identification registers of the chain. -/
def execIdcode (s : State) : Result :=
  if s.mode = .off then .next s
  else .next ((s.jtagIr 0x01).emits (s.jtagChain.map (fun d => .jtag d (leBytes 4 (if d = 0 then 0x1D7E0C01 else 0x1D7E1C01)))))

/-- R553: SAMPLE/PRELOAD: the boundary registers capture the pins, whose values and order the spec does not give (free), and hold what is
shifted in for the next instruction that drives them. -/
def execSamplePreload (b : Bytes) (s : State) : Result :=
  if s.mode = .off then .next s
  else
    let cap := fun d => (List.range b.length).map (fun i => Config.freeByte s.free d i)
    let t : State := { s with test := { s.test with preload := s.jtagChain.foldl (fun m d => kput d b m) s.test.preload } }
    .next (((t.jtagIr 0x02).emits (s.jtagChain.map (fun d => .jtag d (cap d)))).tick)

end Sys2Proof.Machine
end

