-- ==== Sys2Proof/Machine/Test.lean ====
section
/-!
DEFINITION. Test.lean: loop-backs, margining and self-test on demand (R543 to R552), and the part that an arch takes in its partner's test (R545 to R547).
-/

namespace Sys2Proof.Machine

/-! ### Starts (R543, R545, R549, R552) -/

/-- R543: the state of the module admits a test, and none runs: 0, or the code. -/
def State.mayTest (s : State) : Nat :=
  if s.mode ≠ .ready ∧ s.mode ≠ .stopped then 0x1103 else if s.test.run.isSome then 0x1107 else 0

/-- R545: the units of an interface, and the depths that it has. -/
def testTable (iface : Nat) : Option (Nat × List Nat) :=
  match iface with
  | 1 => some (12, [1, 2, 3, 4, 5])
  | 2 => some (4, [1, 3, 4])
  | 3 => some (1, [1, 2, 3, 4])
  | 4 => some (2, [1, 2, 3, 5])
  | 5 => some (1, [1, 2, 3, 5])
  | 6 => some (2, [1, 2, 4, 5])
  | 7 => some (24, [1, 2, 3, 4])
  | 8 => some (4, [1, 2, 3, 4])
  | _ => none

/-- R545, R548: interface, unit and depth lie in the table, and PRBS13Q runs on PAM4 lanes (DEDUCED, log entry 37). -/
def testOk (iface unit_ depth pattern : Nat) : Bool :=
  match testTable iface with
  | none => false
  | some (n, ds) => decide (unit_ < n) && ds.contains depth && (decide (pattern ≠ 3) || iface == 1 || iface == 3)

/-- R543: the test interrupts the path of its request; `port` is the arch, or the field port, that carried it. -/
def ownTestPath (via : Via) (port iface unit_ : Nat) : Bool :=
  match via with
  | .mailbox => iface == 3
  | .eop => (iface == 6 && unit_ == 1) || (iface == 4 && decide (port < 2) && unit_ == port) || (iface == 5 && port == 2)
  | .arcade => iface == 1 && unit_ == port
  | .newel => false

/-- R403, R546: control flits of a loop-back. -/
def loopReqBody : Bytes := leBytes 1 4
def loopAckBody : Bytes := leBytes 1 5

/-- R545 to R547: TEST_START: the status and the state. -/
def State.testStart (s : State) (v : Nat) (via : Via) (port : Nat) : Nat × State :=
  let c := s.mayTest
  let iface := s.odGet Od.testTarget / 256
  let u := s.odGet Od.testTarget % 256
  let depth := s.odGet Od.testDepth
  if s.mode ≠ .ready ∧ s.mode ≠ .stopped then (0x1103, s)
  else if v = 0 then (0, s)
  else if c ≠ 0 then (c, s)
  else if !testOk iface u depth (s.odGet Od.testPattern) then (0x1105, s)
  else if ownTestPath via port iface u then (0x1106, s)
  else
    let s : State := { s with test := { s.test with run := some ⟨1, iface, u, depth, s.epoch⟩ } }
    let s := s.odPut Od.testState 1
    if iface = 1 then
      let far := decide (4 ≤ depth)
      let a := s.arch u
      (0, s.setArch u { a with state := 5, downAt := s.epoch, loopSent := far, ctl := if far then a.ctl ++ [ctlFlit loopReqBody] else a.ctl })
    else if iface = 3 then (0, s.linkLost false)
    else (0, s)

/-- R544: TEST_ABORT: the status and the state. -/
def State.testAbort (s : State) (v : Nat) : Nat × State := (0, if v = 1 then s.finishTest 5 else s)

/-- R548: TEST_END: the counts are judged; a far end that never answered makes state 4 (R546). -/
def execTestEnd (bits errors corrected : Nat) (s : State) : Result :=
  match s.test.run with
  | none => .next s
  | some r =>
    if r.kind ≠ 1 then .next s
    else if (r.iface = 1 ∧ (s.arch r.unit_).loopSent) ∨ (r.iface = 3 ∧ r.depth = 4 ∧ bits = 0) then .next (s.finishTest 4)
    else
      let s := ((s.odPut Od.testBits (bits % 2 ^ 64)).odPut Od.testErrors (errors % 2 ^ 64)).odPut Od.testCorrected (corrected % 2 ^ 64)
      .next (s.finishTest (if 0 < bits ∧ errors ≤ s.odGet Od.testErrorLimit then 2 else 3))

/-! ### A partner's test (R545 to R547) -/

/-- R546: a path is lower, compared hop by hop from HOP0; with equal paths the DEVICE_KEY decides. -/
def ownStartStands (own partner : Word64) (ownKey key : Bytes) : Bool :=
  if own = partner then decide (beNat ownKey < beNat key) else pathLt own partner

/-- R546: the module answers a LOOP_REQ. -/
def State.joins (s : State) : Bool :=
  s.odGet Od.partnerLoopAllow != 0 && (s.mode == .ready || s.mode == .stopped) && s.test.run.isNone

/-- R430, R546, R547: the module takes part in its partner's test: the arch is down for it, and LOOP_ACK goes. -/
def State.joinLoop (s : State) (arch : Nat) : State :=
  if !s.joins then s
  else
    let s := if (s.arch arch).state = 5 then s else s.archGoesDown arch
    let a := s.arch arch
    s.setArch arch { a with partnerTest := true, loopSent := false, ctl := a.ctl ++ [ctlFlit loopAckBody] }

/-- R546: LOOP_REQ, with the partner's path and key, which settle a crossed start. -/
def execLoopReq (arch : Nat) (path : Word64) (key : Bytes) (s : State) : Result :=
  if !archOk arch then .refused .noSuchUnit
  else if (s.arch arch).state = 0 then .next s
  else if (s.arch arch).loopSent then
    if ownStartStands s.ownPath path ((List.range 57).map Config.deviceKey) key then .next s
    else
      let t := s.finishTest 4
      .next (if t.joins then (t.setArch arch { (t.arch arch) with state := 5, retraining := false }).joinLoop arch else t)
  else .next (s.joinLoop arch)

/-- R546: LOOP_ACK: the test proceeds. -/
def execLoopAck (arch : Nat) (s : State) : Result :=
  if !archOk arch then .refused .noSuchUnit
  else .next (if (s.arch arch).loopSent then s.setArch arch { (s.arch arch) with loopSent := false } else s)

/-- R545: ECHO: during a partner's test the link layer returns an ECHO control flit. -/
def execEcho (arch : Nat) (body : Bytes) (s : State) : Result :=
  if !archOk arch then .refused .noSuchUnit
  else
    let a := s.arch arch
    .next (if a.partnerTest then s.setArch arch { a with ctl := a.ctl ++ [ctlFlit body] } else s)

/-! ### Margins (R549 to R551) -/

/-- R549: the target exists. -/
def State.marginTargetOk (s : State) (t : Nat) : Bool :=
  if t < 24 then bit (s.odGet Od.stacksPresent) t else decide (0x80 ≤ t) && decide (t < 0x84) && bit (s.odGet Od.mezzPresent) (t - 0x80)

/-- R543, R549: MARGIN_START: the status and the state. -/
def State.marginStart (s : State) (v : Nat) : Nat × State :=
  let t := s.odGet Od.marginTarget
  if s.mode ≠ .ready ∧ s.mode ≠ .stopped then (0x1103, s)
  else if v = 0 then (0, s)
  else if s.mayTest ≠ 0 then (s.mayTest, s)
  else if !s.marginTargetOk t then (0x1105, s)
  else (0, ({ s with test := { s.test with run := some ⟨2, 0, t, 0, s.epoch⟩ } } : State).odPut Od.marginState 1)

/-- R550: the number of passing points in the unbroken run that contains offset 0. -/
def passWidth (l : List Int) : Nat :=
  if !l.contains 0 then 0
  else
    1 + ((List.range 32).takeWhile (fun k => l.contains ((k : Int) + 1))).length + ((List.range 32).takeWhile (fun k => l.contains (-(k : Int) - 1))).length

/-- R550: the record of a DQ. -/
def dqRecord (m : LaneMargin) : Bytes := leBytes 1 (passWidth m.timing) ++ leBytes 1 (passWidth m.volts) ++ zeros 1 ++ leBytes 1 (min 255 m.errors)

/-- R550: MARGIN_END. -/
def execMarginEnd (lanes : List LaneMargin) (s : State) : Result :=
  match s.test.run with
  | none => .next s
  | some r =>
    if r.kind ≠ 2 then .next s
    else if r.unit_ < 24 then
      let f := fun (m : KMap (Nat × Nat)) (x : LaneMargin) =>
        if x.lane < 5200 then kput (r.unit_ * 5200 + x.lane) (passWidth x.timing, passWidth x.volts) m else m
      .next (({ s with mem := { s.mem with margins := lanes.foldl f s.mem.margins } } : State).finishTest 2)
    else
      let rep := (List.range 320).flatMap (fun k =>
        match lanes.find? (fun x => x.lane == k) with
        | some x => dqRecord x
        | none => zeros 4)
      .next ((s.domPut Od.mezzMarginReport rep).finishTest 2)

/-! ### Self-test on demand (R552) -/

/-- R552: a stack holds some of the host window. -/
def State.windowOnStack (s : State) (n : Nat) : Bool :=
  let a := s.odGet Od.hostWindowBase
  decide (stackOf a ≤ n) && decide (n ≤ stackOf (a + (s.odGet Od.hostWindowSize - 1)))

/-- R552: the condition of a KIND; 0, or the code. A KIND or a stack that the table lacks is no value of BIST_SELECT (DEDUCED, log entry 37). -/
def State.bistCheck (s : State) (v : Nat) : Nat :=
  let h := bits v 25 24
  let flights := fun (p : Nat → Bool) => s.progs.any (fun e => e.1 / 20 == h && p (e.1 % 20))
  match bits v 31 28 with
  | 1 => if flights (fun i => bit v i) then 0x1103 else 0
  | 2 => if flights (fun _ => true) then 0x1103 else 0
  | 3 =>
    if 24 ≤ bits v 4 0 then 0x1105
    else if s.serve.models.any (fun m => m.2.state == 3) || s.windowOnStack (bits v 4 0) then 0x1103 else 0
  | _ => 0x1105

/-- R543, R552: BIST_START: the status and the state. -/
def State.bistStart (s : State) (v : Nat) : Nat × State :=
  let q := s.odGet Od.bistSelect
  if s.mode ≠ .ready ∧ s.mode ≠ .stopped then (0x1103, s)
  else if v = 0 then (0, s)
  else if s.mayTest ≠ 0 then (s.mayTest, s)
  else if s.bistCheck q ≠ 0 then (s.bistCheck q, s)
  else
    let k := bits q 31 28
    let u := if k = 3 then bits q 4 0 else bits q 25 24
    (0, ({ s with test := { s.test with run := some ⟨3, k, u, bits q 19 0, s.epoch⟩ } } : State).odPut Od.bistState 1)

/-- R254: a stack is zero-filled. -/
def State.zeroStack (s : State) (n : Nat) : State :=
  { s with mem := { s.mem with cells := s.mem.cells.filter (fun e => stackOf e.1 != n), poison := s.mem.poison.filter (fun e => stackOf (8 * e.1) != n) } }

/-- R552: BIST_END: `failed` is the mask of the flights that failed (not 0 for a hall landing or an expander), `rows` the addresses of the failing rows. -/
def execBistEnd (failed : Nat) (rows : List Nat) (s : State) : Result :=
  match s.test.run with
  | none => .next s
  | some r =>
    if r.kind ≠ 3 then .next s
    else if r.iface = 1 then
      let bad := (List.range 20).filter (fun i => bit r.depth i && bit failed i)
      let s := bad.foldl (fun s i => s.selfTestFence (r.unit_ * 20 + i)) s
      .next ((s.odPut Od.bistFailed ((bad.map (fun i => 2 ^ i)).sum)).finishTest (if bad = [] then 2 else 3))
    else if r.iface = 2 then
      let s := if failed = 0 then s else (List.range 20).foldl (fun s i => s.selfTestFence (r.unit_ * 20 + i)) s
      .next (s.finishTest (if failed = 0 then 2 else 3))
    else
      let s := s.zeroStack r.unit_
      let bad := rows.filter (fun a => stackOf a == r.unit_)
      .next ((bad.foldl (fun s a => s.retireRow a) s).finishTest (if bad = [] then 2 else 3))

end Sys2Proof.Machine
end

