-- ==== Sys2Proof/Machine/Writes.lean ====
section
/-!
DEFINITION. Writes.lean: what a write of a dictionary entry accepts and does: rights (R34, R35), ranges (R30), lengths (R570), and the conditions and
effects that each entry's chapter sets (checks 6 and 7 of R571).
-/

namespace Sys2Proof.Machine

/-! ### Rights (R34, R35) -/

/-- R34: a role may write entries of an index. -/
def State.mayWrite (s : State) (r : Role) (index : Nat) : Bool :=
  let g := index / 256
  match r with
  | .newel => true
  | .host => !(decide (0x40 ≤ g) && decide (g ≤ 0x43) && s.isWorker)
  | .field => [0x11, 0x12, 0x21, 0x60, 0x71].contains g
  | .manager => g != 0x60 && g != 0x61

/-- R35: a role may read entries of an index. -/
def mayRead (r : Role) (index : Nat) : Bool := r != .field || !([0x23, 0x40, 0x41, 0x42].contains (index / 256))

/-! ### Ranges and lengths (R30, R570) -/

/-- R510: the codes of MEAS_SOURCE and MEAS_GATE_SOURCE. -/
def measCode (gate : Bool) (v : Nat) : Bool :=
  if gate then decide (v < 4) || (decide (0x80 ≤ v) && decide (v ≤ 0x84))
  else decide (v < 5) || (decide (0x10 ≤ v) && decide (v ≤ 0x4F)) || (decide (0x80 ≤ v) && decide (v ≤ 0x84))

/-- R385: n bytes at an address lie wholly within the host window of a base and size. -/
def hostHolds (base size a n : Nat) : Bool := decide (base ≤ a) && decide (a + n ≤ base + size)

/-- The same for the window in force. -/
def State.windowHolds (s : State) (a n : Nat) : Bool := hostHolds (s.odGet Od.hostWindowBase) (s.odGet Od.hostWindowSize) a n

/-- The range that an entry table states. -/
def State.ruleOk (s : State) (r : VRule) (v : Nat) : Bool :=
  match r with
  | .any => true
  | .range lo hi => decide (lo ≤ v) && decide (v ≤ hi)
  | .oneOf l => l.contains v
  | .irange m => decide ((toInt 32 v).natAbs ≤ m)
  | .ptpPort => decide (v % 16 ≤ 2) && decide (v / 16 ≤ 2)
  | .prlBase => decide (v % 4096 = 0) && s.windowHolds v 8192
  | .clogBase => decide (v % 4096 = 0) && s.windowHolds v 65536
  | .freqPriority => decide (v < 2 ^ 20) && (List.range 5).all (fun i => decide (bits v (4 * i + 3) (4 * i) ≤ 5))
  | .measSource => measCode false v
  | .measGate => measCode true v
  | .testTarget => true
  | .testPattern => decide (v ≤ 4)
  | .marginTarget => decide (v < 24) || (decide (0x80 ≤ v) && decide (v ≤ 0x83))
  | .bistSelect => true
  | .galleryPath => isGalleryPath (BitVec.ofNat 64 v)

/-- R385: a window of a base and size holds its conditions. -/
def State.windowOk (s : State) (base size : Nat) : Bool :=
  decide (base % 2 ^ 24 = 0) && decide (size % 2 ^ 24 = 0) && decide (base + size ≤ mezzBase) && decide (stackOf base = stackOf (base + size - 1)) &&
  hostHolds base size (s.odGet Od.tableBase) 16777216 &&
  hostHolds base size (s.odGet Od.clogBase) 65536 && hostHolds base size (s.odGet Od.prlBase) 8192

/-- R282, R293, R300, R323, R385, R277: the ranges that need more than the table: whether the value lies in its entry's range. -/
def State.valueOk (s : State) (k v : Nat) : Bool :=
  ((odRow k).map (fun r => s.ruleOk r.rule v)).getD true &&
  (if k = Od.xlateInvalidate then !(bit v 57) || (decide (bits v 47 12 = 0) && decide (bits v 11 0 = 0))
   else if k = Od.prlConsumer then
     decide ((v + 65536 - s.odGet Od.prlConsumer) % 65536 ≤ (s.odGet Od.prlProducer + 65536 - s.odGet Od.prlConsumer) % 65536)
   else if k = Od.clogConsumer then
     decide ((v + 65536 - s.odGet Od.clogConsumer) % 65536 ≤ (s.odGet Od.clogProducer + 65536 - s.odGet Od.clogConsumer) % 65536)
   else if k = Od.tableBase then decide (v % 2 ^ 24 = 0) && decide (v < mezzBase) && s.windowHolds v (2 ^ 24)
   else if k = Od.hostWindowBase then s.windowOk v (s.odGet Od.hostWindowSize)
   else if k = Od.hostWindowSize then s.windowOk (s.odGet Od.hostWindowBase) v
   else if k / 64 = Od.tenantRoot0 / 64 then decide (bits v 51 12 * 4096 < memTop)
   else true)

/-- R570: the total lengths that a DOMAIN entry accepts. -/
def domLenOk (k n : Nat) : Bool :=
  if Od.eopPeerKey0 ≤ k ∧ k ≤ Od.eopPeerKey0 + 7 then n == 57 || n == 0
  else if k = Od.loadRequest ∨ k = Od.attestNonce then n == 64
  else if k = Od.fieldCellSet ∨ (Od.portIp0 ≤ k ∧ k ≤ Od.portIp0 + 2) then n == 48
  else if k = Od.fieldMap then decide (n % 48 = 0) && decide (n ≤ 16777216)
  else if k = Od.telemetrySources then decide (n % 17 = 0) && decide (n ≤ 272)
  else if k = Od.fabricId then n == 16
  else if k = Od.routeTable then n == 768
  else if k = Od.echoPeer then n == 18
  else if k = Od.fwImage then decide (257 ≤ n) && decide (n ≤ 16777216)
  else decide (n ≤ 16777216)

/-! ### Scalar entries with an effect of their own -/

/-- The value under the masks of reserved bits, which the module ignores (R3). -/
def writtenValue (k v : Nat) : Nat :=
  if k / 64 = Od.tenantRoot0 / 64 then bits v 51 12 * 4096 + v % 2
  else if k = Od.pageResponse then v % 65536
  else v

/-- R277: a tenant root. -/
def State.writeRoot (s : State) (t v : Nat) : Nat × State :=
  let busy := s.progs.any (fun e => e.2.img.tenant == t) || s.streamList.any (fun i => s.sTenant i == t && !endedState (s.sState i))
  if s.tenantEnabled t ∧ v ≠ s.tenantRoot t ∧ busy then (0x1103, s)
  else (0, (s.odPut (Od.tenantRoot0 + t) v).dropXlate t (fun _ => true))

/-- R282: cached translations of a tenant that cover a named page go. -/
def State.invalidate (s : State) (v : Nat) : State :=
  let a := bits v 47 12 * 4096
  let n := (bits v 11 0 + 1) * 4096
  s.dropXlate (bits v 63 58) (fun x => bit v 57 || (decide (x.base < a + n) && decide (a < x.base + x.size)))

/-- R300, R462: TABLE_BASE and FIELD_BASE: cells outside the field range unbind, and read refused. -/
def State.writeTable (s : State) (k v : Nat) : Nat × State :=
  if s.entriesLive ≠ 0 then (0x1103, s)
  else
    let s := s.odPut k v
    let s := if k = Od.tableBase then s.readTable else s
    let gone := s.foyer.cells.filter (fun c => decide (c.rec_.entry < s.odGet Od.fieldBase) && c.state != 2)
    (0, gone.foldl (fun s c => (s.modCell c.rec_.entry (fun c => { c with state := 2, held := none })).mapUpdate { c with state := 2 }) s)

/-- R385: the host window. -/
def State.writeWindow (s : State) (k v : Nat) : Nat × State :=
  if s.serve.models.any (fun m => 1 ≤ m.2.state && m.2.state ≤ 4) || s.odGet Od.hdmCommitted ≠ 0 then (0x1103, s) else (0, s.odPut k v)

/-- R170: LAYER_MODE of the layer that the role selects. -/
def State.writeLayer (s : State) (r : Role) (v : Nat) : Nat × State :=
  match s.selectedLayer r with
  | none => (0x1101, s)
  | some (k, l) => (0, { s with halls := { s.halls with layers := kput k { l with mode := v, window := [], fallback := false } s.halls.layers } })

/-- R493: firmware programming or verification holds the parameter store and the slot. -/
def State.fwBusy (s : State) : Bool := s.odGet Od.fwState == 2 || s.odGet Od.fwState == 3

/-- R40: a key of the stored values. -/
def isStored (k : Nat) : Bool := (odRow k).any (fun r => r.acc == .rws || r.stored)

/-- R40: STORE. -/
def State.store (s : State) : Nat × State :=
  if s.mode ≠ .stopped ∨ s.fwBusy then (0x1103, s)
  else
    let o := { s.od with stored := s.od.vals.filter (fun e => isStored e.1), storedDom := s.od.doms.filter (fun e => isStored e.1) }
    (0, { s with od := o })

/-- R40: RESTORE: the highest sequences of the EOP keys (R61) stay. -/
def State.restoreDefaults (s : State) : Nat × State :=
  if s.mode ≠ .stopped ∨ s.fwBusy then (0x1103, s) else (0, { s with od := { s.od with stored := [], storedDom := [] } })

/-- R494: FW_ACTIVATE: the module enters Standby and boots the image of the slot. -/
def State.fwActivate (s : State) : Nat × State :=
  if (s.mode ≠ .stopped ∧ !s.newel.recovery) ∨ s.odGet Od.fwState ≠ 4 ∨ s.trans.isSome then (0x1103, s)
  else (0, { s.finishTest 5 with newel := { s.newel with fwActivated := true }, trans := some .standby })

/-- R486: every buffered record up to and including a SEQ goes. -/
def State.ackErrors (s : State) (v : Nat) : State :=
  { s with log := { s.log with buffer := s.log.buffer.filter (fun r => decide (v < r.seq)) } }

/-- R504: TB_STATE is 0 while a time reference module takes no time source. -/
def State.writeTimeSource (s : State) (v : Nat) : State :=
  let s := s.odPut Od.timeSource v
  if v = 0 ∧ s.timeRef then s.odPut Od.tbState 0 else s

/-- Check 7 of R571 and the effect of a write of a scalar entry by a role over a path: the status and the state. -/
def State.applyScalar (s : State) (via : Via) (port k v : Nat) : Nat × State :=
  let r := roleOf via
  if k = Od.stateRequest then s.requestState v
  else if k = Od.store then s.store
  else if k = Od.restore then s.restoreDefaults
  else if k = Od.trainRequest then s.trainRequest v
  else if k = Od.testStart then s.testStart v via port
  else if k = Od.testAbort then s.testAbort v
  else if k = Od.marginStart then s.marginStart v
  else if k = Od.bistStart then s.bistStart v
  else if k = Od.measStart then s.measStart v
  else if k = Od.fwActivate then s.fwActivate
  else if k = Od.unload then s.unload v
  else if k = Od.pageResponse then s.pageAnswer v
  else if k = Od.layerMode then s.writeLayer r v
  else if k = Od.tableBase ∨ k = Od.fieldBase then s.writeTable k v
  else if k = Od.hostWindowBase ∨ k = Od.hostWindowSize then s.writeWindow k v
  else if k / 64 = Od.tenantRoot0 / 64 then s.writeRoot (k - Od.tenantRoot0) v
  else if k = Od.xlateInvalidate then (0, s.invalidate v)
  else if k = Od.errorAck then (0, s.ackErrors v)
  else if k = Od.persistentClear then (0, { s with log := { s.log with persist := [] } })
  else if k = Od.prlConsumer then (0, logRequests s.xlate.requests.length (s.odPut k v))
  else if k = Od.clogConsumer then (0, clogDrain s.serve.clog.length (s.odPut k v))
  else if k = Od.freqPriority then (0, (s.odPut k v).switchFreq)
  else if k = Od.timeSource then (0, s.writeTimeSource v)
  else if perRole.contains k then (0, s.rolePut r k v)
  else (0, s.odPut k v)

/-- R36: a write that commits counts, and a changed entry of range 0x6000 goes to the Foyer (R453). -/
def commitWrite (k : Nat) (r : Nat × State) : Nat × State :=
  if r.1 = 0 then (0, (r.2.count Od.odWriteSeq 1).sendConfig k) else r

/-- Checks 6 and 7 of R571 and the effect, for a scalar entry. -/
def State.writeScalar (s : State) (via : Via) (port k v : Nat) : Nat × State :=
  let v := writtenValue k v
  if !s.valueOk k v then (0x1105, s) else commitWrite k (s.applyScalar via port k v)

/-! ### The field map (R459, R460) -/

/-- R459: a cell record as 48 bytes, reserved bits 0. -/
def cellRecBytes (r : CellRec) : Bytes :=
  leBytes 8 r.cellId ++ leBytes 2 r.entry ++ leBytes 2 r.model ++ leBytes 4 r.rate ++ leBytes 1 r.burst ++ leBytes 1 (if r.dropLate then 1 else 0) ++
  zeros 2 ++ leBytes 4 r.budget ++ beBytes 16 r.reply.toNat ++ leBytes 2 r.replyPort ++ zeros 6

/-- R459: the ranges of a record. -/
def State.cellRecOk (s : State) (r : CellRec) : Bool :=
  decide (s.odGet Od.fieldBase ≤ r.entry) && (s.pkgOf r.model).isSome && !(s.kBounds r.model).isEmpty && decide (1 ≤ r.rate) &&
  decide (r.rate ≤ 1000000) && decide (1 ≤ r.burst) && decide (r.burst ≤ 64) && decide (100 ≤ r.budget) && decide (r.budget ≤ 1000000)

/-- R460: the parts of a record that a binding does not depend on. -/
def CellRec.sameBinding (a b : CellRec) : Bool := { a with dropLate := b.dropLate, reply := b.reply, replyPort := b.replyPort } == b

/-- R460: a bound cell takes new values of DROP_LATE, REPLY_ADDR and REPLY_PORT. -/
def State.cellTakes (s : State) (c : CellSt) (r : CellRec) : State :=
  let s := s.modCell c.rec_.entry (fun c => { c with rec_ := r })
  let s := if c.state = 1 then s.putSw r.entry 0 (setBits (s.sw r.entry 0) 18 18 (if r.dropLate then 1 else 0)) else s
  (if c.state = 1 then s.flushWords r.entry 0 1 else s).mapUpdate { c with rec_ := r }

/-- R460: a cell of the old map under the new map. -/
def State.mapOld (new : List CellRec) (s : State) (c : CellSt) : State :=
  if c.leaving then s.modCell c.rec_.entry (fun c => { c with next := [] })
  else
    match new.find? (fun r => r.cellId == c.rec_.cellId) with
    | none => s.unbindCell c
    | some r => if r = c.rec_ then s else if r.sameBinding c.rec_ then s.cellTakes c r else s.unbindCell c

/-- R460: a record of the new map that no kept cell holds: it waits for the cell that leaves its ENTRY, or for its own old binding, or is added. -/
def State.mapNew (s : State) (r : CellRec) : State :=
  if s.foyer.cells.any (fun c => c.rec_.cellId == r.cellId && !c.leaving) then s
  else
    let wait := fun (e : Nat) => s.modCell e (fun c => { c with next := c.next ++ [r] })
    match s.cellAt r.entry, s.cellNamed r.cellId with
    | some c, _ => wait c.rec_.entry
    | none, some c => wait c.rec_.entry
    | none, none => s.addCell r

/-- Records in ascending ENTRY. -/
def byEntry (l : List CellRec) : List CellRec := (l.foldl (fun m r => insertCell (cellNew r) m) []).map (·.rec_)

/-- R460: the new map takes effect: cells that are not bound leave first, so that no released share goes to them. -/
def State.setMap (s : State) (new : List CellRec) : State :=
  let s := s.domPut Od.fieldMap (new.flatMap cellRecBytes)
  let old := s.foyer.cells
  let s := ((old.filter (fun c => c.state != 1)) ++ old.filter (fun c => c.state == 1)).foldl (State.mapOld new) s
  (byEntry new).foldl State.mapNew s

/-- R460: a whole map. -/
def State.writeFieldMap (s : State) (b : Bytes) : Nat × State :=
  let new := mapRecords b
  let ok := new.all s.cellRecOk && (pieces 48 (b.length / 48) b).all (fun x => leField x 18 1 == 0) &&
    decide ((new.map (·.cellId)).Nodup) && decide ((new.map (·.entry)).Nodup)
  if ok then (0, s.setMap new) else (0x1105, s)

/-- R459, R460: an edit: a record set, or removed; a removal needs only its CELL_ID, and one of an unknown cell changes nothing (DESIGN CHOICE, log entry 41). -/
def State.editFieldMap (s : State) (b : Bytes) : Nat × State :=
  let r := cellRecOf b
  let rest := (mapRecords (s.domGet Od.fieldMap [])).filter (fun x => x.cellId != r.cellId)
  match leField b 18 1 with
  | 0 => if s.cellRecOk r && !rest.any (fun x => x.entry == r.entry) then (0, s.setMap (rest ++ [r])) else (0x1105, s)
  | 1 => (0, s.setMap rest)
  | _ => (0x1105, s)

/-! ### DOMAIN entries -/

/-- What the environment supplies with the final byte of a DOMAIN write: nothing; how an image's signature and digest check (DESIGN CHOICE, log entry 9); the
Planner's reading of a package. -/
inductive DomAux where
  | plain
  | image (sigOk digestOk : Bool)
  | package (p : Package)
  deriving DecidableEq, Repr

/-- The rules of an entry's content (R419, R454, R455), and its bytes with reserved ones 0. -/
def domContent (k : Nat) (b : Bytes) : Option Bytes :=
  if k = Od.telemetrySources then
    if (pieces 17 (b.length / 17) b).all (fun p => decide (leField p 16 1 ≤ 128)) then some b else none
  else if Od.portIp0 ≤ k ∧ k ≤ Od.portIp0 + 2 then
    if leField b 16 1 ≤ 128 ∧ leField b 21 1 ≤ 32 then some (b.take 42 ++ zeros 6) else none
  else if k = Od.routeTable then
    if b.all (fun x => decide (x.toNat < 12) || x == 0xFF#8) then some b else none
  else some b

/-- R492: the start of FW_IMAGE is accepted only in Stopped or in recovery, and not while an image is verified or programmed (R493). -/
def State.mayReceiveFw (s : State) : Bool := (s.mode == .stopped || s.newel.recovery) && !s.fwBusy

/-- R492, R495: the start of FW_IMAGE: receiving; in recovery the slot is erased. -/
def State.fwBegin (s : State) : State :=
  let s := s.odPut Od.fwState 1
  if s.newel.recovery then { s with newel := { s.newel with slot := none } } else s

/-- R492: the final byte of an image: how its signature and digest check is the environment's to say; through a generic segment it is free. -/
def State.fwFinal (s : State) (b : Bytes) (aux : DomAux) : Nat × State :=
  match aux with
  | .image sigOk digestOk => s.fwReceived b sigOk digestOk
  | _ => s.tick.fwReceived b (Config.freeBit s.free 0x7102 0) (Config.freeBit s.free 0x7102 1)

/-- R388: the final byte of a load descriptor: with the Planner's reading of the package, or waiting for it. -/
def State.loadFinal (s : State) (b : Bytes) (aux : DomAux) : Nat × State :=
  match aux with
  | .package p => s.loadRequest b p
  | _ => if s.mayLoad then s.loadBegin (loadD b) else (0x1103, s)

/-- Checks 6 and 7 of R571 and the effect, for a DOMAIN entry whose final byte has arrived. -/
def State.writeDomain (s : State) (via : Via) (k : Nat) (b : Bytes) (aux : DomAux) : Nat × State :=
  commitWrite k
    (if k = Od.fwImage then s.fwFinal b aux
     else if k = Od.loadRequest then s.loadFinal b aux
     else if k = Od.fieldMap then s.writeFieldMap b
     else if k = Od.fieldCellSet then s.editFieldMap b
     else
       match domContent k b with
       | none => (0x1105, s)
       | some v =>
         if k = Od.attestNonce then
           (0, { s with od := { s.od with roleDoms := kput ((roleOf via).num * 16777216 + k) v s.od.roleDoms } })
         else (0, s.domPut k v))

end Sys2Proof.Machine
end

