-- ==== Sys2Proof/Machine/Dictionary.lean ====
section
/-!
DEFINITION. Dictionary.lean: accesses of the object dictionary (R42 to R61, R571): over the CXL mailbox, EOP, the Arcade and Newel's own path; DOMAIN
transfers; gallery paths; and the rows of entries with behaviour of their own.
-/

namespace Sys2Proof

open Machine

/-- R51: the fields of a request's header, and the bytes after it. -/
def MbReq.path (q : MbReq) : Word64 := BitVec.ofNat 64 (leField q.payload 0 8)
/-- R51: INDEX. -/
def MbReq.index (q : MbReq) : Nat := leField q.payload 8 2
/-- R51: SUB. -/
def MbReq.sub (q : MbReq) : Nat := leField q.payload 10 1
/-- R51: LENGTH. -/
def MbReq.length (q : MbReq) : Nat := leField q.payload 12 4
/-- R51: the request payload after byte 15. -/
def MbReq.body (q : MbReq) : Bytes := q.payload.drop 16

end Sys2Proof

namespace Sys2Proof.Machine

/-- An access as it reaches a module: the path that fixes its role (R33), the arch or field port that carried it, who awaits the response, its operation
(0 READ, 1 WRITE, 2 and 3 DOMAIN starts, 4 DOMAIN_SEGMENT, 5 DOMAIN_ABORT, in the order of R50 and R56), the gallery path, the entry, its operands in
little-endian order, what the environment supplies with a final byte, the payload limit of a segment on its path (R42), and the level of the gallery that its
path names here. -/
structure Access where
  via    : Via
  port   : Nat
  origin : Origin
  op     : Nat
  path   : Word64
  key    : Nat
  body   : Bytes
  aux    : DomAux
  limit  : Nat
  level  : Nat
  deriving DecidableEq, Repr

/-- R42: bytes of data in a segment. -/
def segmentMax : Via → Nat
  | .mailbox => 32768 | .eop => 1024 | .arcade => 4096 | .newel => 32768

/-- An answer: STATUS, the bytes after it, and the state. -/
abbrev Answer := Nat × Bytes × State

/-- A refusal leaves the state. -/
def State.refuse (s : State) (code : Nat) : Answer := (code, [], s)

/-! ### The entry (R27, R31, R172, R495) -/

/-- R27: the row of an entry, as a role finds it. -/
def State.entryRow (s : State) (r : Role) (k : Nat) : Option OdRow :=
  if k % 256 = 0 then (odIndexes.find? (fun p => p.1 == k / 256)).map (fun _ => ⟨0, .u8, .cnst, 0, false, .any⟩)
  else if Od.layerMode ≤ k ∧ k ≤ Od.layerPlacedDensity ∧ (s.selectedLayer r).isNone then none
  else odRow k

/-- R495: what the recovery loader serves. -/
def recoveryServes (op k : Nat) : Bool :=
  match op with
  | 0 => k / 65536 == 0x10 || (decide (Od.fwState ≤ k) && decide (k ≤ Od.fwProgress))
  | 1 => k == Od.fwActivate
  | _ => k == Od.fwImage

/-- R47: a hall or engine view answers ranges 0x3000 to 0x34FF, and the capability entries. -/
def viewServes (k : Nat) : Bool :=
  (decide (0x30 ≤ k / 65536) && decide (k / 65536 ≤ 0x34)) || (decide (Od.capFlights ≤ k) && decide (k ≤ Od.capLinkGbps))

/-- R42: a DOMAIN entry. -/
def OdRow.isDomain (r : OdRow) : Bool := r.ty == .domain

/-- R31: the access code permits a read. -/
def OdRow.readable (r : OdRow) : Bool := r.acc != .wo

/-- R31, R32: the access code permits a write. -/
def OdRow.writable (r : OdRow) : Bool := r.acc == .rw || r.acc == .rws || r.acc == .wo

/-- R32, R64: check 4: an RWS entry is written in Stopped, before a request to leave it. -/
def State.rwsOk (s : State) (r : OdRow) : Bool := r.acc != .rws || (s.mode == .stopped && s.trans.isNone)

/-- Checks 1 to 3 of R571 for a read. -/
def State.readCheck (s : State) (r : Role) (k : Nat) (f : OdRow → Answer) : Answer :=
  match s.entryRow r k with
  | none => s.refuse 0x1101
  | some row => if !row.readable then s.refuse 0x1102 else if !mayRead r (k / 256) then s.refuse 0x1106 else f row

/-- Checks 1 to 4 of R571 for a write. -/
def State.writeCheck (s : State) (r : Role) (k : Nat) (f : OdRow → Answer) : Answer :=
  match s.entryRow r k with
  | none => s.refuse 0x1101
  | some row =>
    if !row.writable then s.refuse 0x1102
    else if !s.mayWrite r (k / 256) then s.refuse 0x1106
    else if !s.rwsOk row then s.refuse 0x1103 else f row

/-! ### Reads and writes of fixed-size and STR entries -/

/-- The bytes of a scalar entry; the capability is that of the gallery, module, hall or engine that the path names (R15, R17, R47). -/
def State.scalarBytes (s : State) (r : Role) (view : Option (Nat × Option Nat)) (level k n : Nat) : Bytes :=
  leBytes n (if Od.capFlights ≤ k ∧ k ≤ Od.capLinkGbps then s.capability view level (k % 256) else s.odScalar r k)

/-- R37, R42, R571: OD_READ. -/
def State.accessRead (s : State) (a : Access) (view : Option (Nat × Option Nat)) : Answer :=
  let r := roleOf a.via
  s.readCheck r a.key (fun row =>
    if row.isDomain || a.body != [] then s.refuse 0x1104
    else
      match row.ty.size with
      | some n => (0, s.scalarBytes r view a.level a.key n, s)
      | none => (0, (s.odBytes r a.key).take 64, s))

/-- R30, R37, R571: OD_WRITE. -/
def State.accessWrite (s : State) (a : Access) : Answer :=
  s.writeCheck (roleOf a.via) a.key (fun row =>
    if row.ty.size != some a.body.length then s.refuse 0x1104
    else
      let (c, s) := s.writeScalar a.via a.port a.key (leNat a.body)
      (c, [], s))

/-! ### DOMAIN transfers (R42 to R45) -/

/-- R45: transfers that the module holds open. -/
abbrev transferMax : Nat := 16

/-- R45: the open transfer of a kind of an entry on a path. -/
def State.transfer (s : State) (via : Via) (k : Nat) (w : Bool) : Option Transfer :=
  s.od.transfers.find? (fun t => t.via == via && t.key == k && t.isWrite == w)

/-- End the transfers that a test accepts. -/
def State.endTransfers (s : State) (p : Transfer → Bool) : State :=
  { s with od := { s.od with transfers := s.od.transfers.filter (fun t => !p t) } }

/-- Open a transfer, or replace it with itself as it now stands. -/
def State.putTransfer (s : State) (t : Transfer) : State :=
  let s := s.endTransfers (fun x => x.via == t.via && x.key == t.key && x.isWrite == t.isWrite)
  { s with od := { s.od with transfers := s.od.transfers ++ [t] } }

/-- R492, R495: an image's transfer ends early: nothing is received any more (DESIGN CHOICE, log entry 42). -/
def State.fwStopped (s : State) (k : Nat) : State :=
  if k = Od.fwImage ∧ s.odGet Od.fwState = 1 then s.odPut Od.fwState (if s.newel.recovery then 6 else 0) else s

/-- R44: DOMAIN_READ_START. -/
def State.accessReadStart (s : State) (a : Access) : Answer :=
  let r := roleOf a.via
  s.readCheck r a.key (fun row =>
    if !row.isDomain || a.body != [] then s.refuse 0x1104
    else
      let t := s.endTransfers (fun x => x.via == a.via && x.key == a.key && !x.isWrite)
      let b := s.odBytes r a.key
      if transferMax ≤ t.od.transfers.length ∧ b ≠ [] then s.refuse 0x1107
      else
        let s := t.tick
        (0, leBytes 4 b.length, if b = [] then s else s.putTransfer ⟨a.via, a.key, false, b.length, b, 0, s.epoch⟩))

/-- R43, R492: the chapter's own condition at the start of a write. -/
def State.startOk (s : State) (k : Nat) : Bool := k != Od.fwImage || s.mayReceiveFw

/-- R43, R45, R570: DOMAIN_WRITE_START. -/
def State.accessWriteStart (s : State) (a : Access) : Answer :=
  s.writeCheck (roleOf a.via) a.key (fun row =>
    let n := leNat a.body
    if !row.isDomain || a.body.length != 4 || !domLenOk a.key n then s.refuse 0x1104
    else if !s.startOk a.key then s.refuse 0x1103
    else if s.od.transfers.any (fun t => t.key == a.key && t.isWrite) then s.refuse 0x1121
    else if n = 0 then
      let (c, s) := s.writeDomain a.via a.key [] a.aux
      (c, [], s)
    else if transferMax ≤ s.od.transfers.length then s.refuse 0x1107
    else
      let s := if a.key = Od.fwImage then s.fwBegin else s
      (0, [], s.putTransfer ⟨a.via, a.key, true, n, [], 0, s.epoch⟩))

/-- R43: the final byte of a write has arrived: check 4 again, then 6 and 7. -/
def State.finishWrite (s : State) (a : Access) (row : OdRow) (b : Bytes) : Answer :=
  let s := s.endTransfers (fun x => x.via == a.via && x.key == a.key && x.isWrite)
  if !s.rwsOk row then s.refuse 0x1103
  else
    let (c, s) := s.writeDomain a.via a.key b a.aux
    (c, [], s)

/-- R43, R495: a segment of a write. -/
def State.writeSegment (s : State) (a : Access) (row : OdRow) (off : Nat) (d : Bytes) : Answer :=
  match s.transfer a.via a.key true with
  | none => s.refuse 0x1120
  | some t =>
    let t := { t with last := s.epoch }
    if a.limit < d.length ∨ t.total < off + d.length then (0x1104, [], s.putTransfer t)
    else if off ≠ t.data.length then (0x1122, [], s.putTransfer t)
    else
      let b := t.data ++ d
      let s := if a.key = Od.fwImage && s.newel.recovery then s.odPut Od.fwProgress b.length else s
      if b.length = t.total then s.finishWrite a row b else (0, [], s.putTransfer { t with data := b })

/-- R44: a segment of a read. -/
def State.readSegment (s : State) (a : Access) (off : Nat) : Answer :=
  match s.transfer a.via a.key false with
  | none => s.refuse 0x1120
  | some t =>
    let t := { t with last := s.epoch }
    if t.delivered < off ∨ t.total ≤ off then (0x1122, [], s.putTransfer t)
    else
      let b := (t.data.drop off).take a.limit
      (0, b, s.putTransfer { t with delivered := max t.delivered (off + b.length) })

/-- R42 to R45: DOMAIN_SEGMENT: with data it is a write's, without a read's. -/
def State.accessSegment (s : State) (a : Access) : Answer :=
  let off := leField a.body 0 4
  let d := a.body.drop 4
  if d = [] then s.readCheck (roleOf a.via) a.key (fun row =>
    if !row.isDomain || a.body.length != 4 then s.refuse 0x1104 else s.readSegment a off)
  else
    match s.entryRow (roleOf a.via) a.key with
    | none => s.refuse 0x1101
    | some row =>
      if !row.writable then s.refuse 0x1102
      else if !s.mayWrite (roleOf a.via) (a.key / 256) then s.refuse 0x1106
      else if !row.isDomain then s.refuse 0x1104
      else s.writeSegment a row off d

/-- R45: DOMAIN_ABORT: every transfer of the entry on the path ends. -/
def State.accessAbort (s : State) (a : Access) : Answer :=
  if (s.entryRow (roleOf a.via) a.key).isNone then s.refuse 0x1101
  else
    let w := (s.transfer a.via a.key true).isSome
    let s := s.endTransfers (fun x => x.via == a.via && x.key == a.key)
    (0, [], if w then s.fwStopped a.key else s)

/-- A DOMAIN write as a whole: its start and its final byte at once. -/
def State.accessWhole (s : State) (a : Access) : Answer :=
  s.writeCheck (roleOf a.via) a.key (fun row =>
    if !row.isDomain || !domLenOk a.key a.body.length then s.refuse 0x1104
    else if !s.startOk a.key then s.refuse 0x1103
    else if s.od.transfers.any (fun t => t.key == a.key && t.isWrite) then s.refuse 0x1121
    else if transferMax ≤ s.od.transfers.length then s.refuse 0x1107
    else
      let s := if a.key = Od.fwImage then s.fwBegin else s
      let (c, s) := s.writeDomain a.via a.key a.body a.aux
      (c, [], s))

/-- R571: an access that this module executes itself, under a view where its path names one (R47). -/
def State.access (s : State) (a : Access) (view : Option (Nat × Option Nat)) : Answer :=
  if (s.newel.recovery && !recoveryServes a.op a.key) || (view.isSome && !viewServes a.key) then s.refuse 0x1101
  else
    match a.op with
    | 0 => s.accessRead a view
    | 1 => s.accessWrite a
    | 2 => s.accessReadStart a
    | 3 => s.accessWriteStart a
    | 4 => s.accessSegment a
    | 5 => s.accessAbort a
    | _ => s.accessWhole a

/-! ### Gallery paths (R20, R21, R46, R47) -/

/-- Where a path leads: this module, under a view or as its gallery of a level, and as the Manager's where it passed its own galleries; another module, with the path that it is to
resolve; nowhere. -/
inductive Target where
  | here (view : Option (Nat × Option Nat)) (asManager : Bool) (level : Nat)
  | away (dest down : Word64)
  | bad
  deriving DecidableEq, Repr

/-- R21: the hops of a path, where none follows a 0xFF. -/
def pathHops (p : Word64) : Option (List Nat) :=
  let l := (List.range 8).map (hop p)
  let hs := l.takeWhile (· ≠ 0xFF)
  if (l.drop hs.length).all (· == 0xFF) then some hs else none

/-- R14, R21: further hops name members that exist below another member of a level: other trays are full (R418). -/
def State.hopsExist (s : State) : Nat → List Nat → Bool
  | _, [] => true
  | 0, _ :: _ => false
  | 1, h :: t => decide (h ≤ 1) && t.isEmpty
  | 2, h :: t => decide (h ≤ 3) && s.hopsExist 1 t
  | l + 3, h :: t => decide (h < (if l = 0 then s.galleryMax else s.gallerySize (l + 3))) && s.hopsExist (l + 2) t

/-- R21, R49: a member index exists in this module's gallery at a level. -/
def State.indexExists (s : State) (l h : Nat) : Bool := (s.levelIndices l).contains h

/-- R46, R47: resolve hops in this module's gallery of a level; below level 3 they name a hall and an engine. -/
def State.resolvePath (s : State) : Nat → Bool → Word64 → List Nat → Target
  | l, m, _, [] => .here none m l
  | l + 3, _, p, h :: t =>
    if h = s.levelIndex s.ownPath (l + 3) then s.resolvePath (l + 2) true (pathDown p) t
    else
      match s.memberManager (l + 3) h with
      | none => .bad
      | some q => if s.indexExists (l + 3) h && s.hopsExist (l + 2) t then .away q (pathDown p) else .bad
  | _, m, _, [h] => if h ≤ 3 ∧ bit (s.odGet Od.hallsPresent) h then .here (some (h, none)) m 1 else .bad
  | _, m, _, [h, k] => if h ≤ 3 ∧ bit (s.odGet Od.hallsPresent) h ∧ k ≤ 1 then .here (some (h, some k)) m 0 else .bad
  | _, _, _, _ => .bad

/-- R46, R47: where the path of an access leads. -/
def State.target (s : State) (p : Word64) : Target :=
  match pathHops p with
  | none => .bad
  | some hs => s.resolvePath s.managedLevel false p hs

/-! ### Responses (R52, R54, R57, R58) -/

/-- R282: a write of the module that used a removed translation may still wait for the host's caches (R437). -/
def hostWrites : HostAct → Bool
  | .write _ _ _ => true | .signal _ => false | .enter _ => false | .moved _ _ => false | .answer _ _ _ _ => false

/-- R282: the answer waits behind the module's writes. -/
def State.answerLate (s : State) (a : Access) (code : Nat) : Bool :=
  a.op == 1 && a.key == Od.xlateInvalidate && code == 0 && s.cxl.waiting.any hostWrites

/-- A local answer leaves with this module's OD_WRITE_SEQ (R36); that of a write of XLATE_INVALIDATE leaves once the writes that wait for the host's caches have
completed (R282). -/
def answerTo (a : Access) (r : Answer) : State :=
  let s := r.2.2
  let seq := s.odGet Od.odWriteSeq
  if s.answerLate a r.1 then s.hostActs [.answer a.origin a.op a.key seq]
  else s.respond a.origin a.op a.key r.1 seq r.2.1

/-! ### Proxies (R46, R48, R54) -/

/-- R51: a request payload. -/
def odRequestBytes (path : Word64) (k : Nat) (b : Bytes) : Bytes :=
  leBytes 8 path.toNat ++ leBytes 2 (k / 256) ++ leBytes 1 (k % 256) ++ zeros 1 ++ leBytes 4 b.length ++ b

/-- R46, R48: an operation is forwarded: its request frame leaves, and the manager waits 50 ms for each level that it still descends. -/
def State.forward (s : State) (o : Origin) (op opcode : Nat) (dest down : Word64) (k : Nat) (b : Bytes) (levels : Nat) : State :=
  let id := s.od.nextProxy
  let p : Proxy := ⟨id, o, dest, op, k, s.epoch + levels * (50 * oneMs)⟩
  let s : State := { s with od := { s.od with proxies := s.od.proxies ++ [p], nextProxy := (id + 1) % 65536 } }
  s.sendFrame (s.mkFrame dest 0x02 0 0 0 id opcode (odRequestBytes down k b))

/-- R34, R35, R46: the originator's role may make the access at all. -/
def State.originMay (s : State) (a : Access) : Bool :=
  let r := roleOf a.via
  let w := a.op == 1 || a.op == 3 || 5 < a.op || (a.op == 4 && decide (4 < a.body.length))
  if w then s.mayWrite r (a.key / 256) else a.op == 5 || mayRead r (a.key / 256)

/-- R42, R46: one operation to another module; a DOMAIN write as a whole goes as its start and its segments. A segment keeps to the limit of each part of its
path. -/
def State.forwardAll (s : State) (a : Access) (dest down : Word64) : State :=
  let levels := ((pathHops a.path).getD []).length
  let send := fun (t : State) op b => t.forward a.origin op (0xC000 + op) dest down a.key b levels
  if a.op = 4 ∧ min a.limit (segmentMax .arcade) + 4 < a.body.length then answerTo a (s.refuse 0x1104)
  else if a.op ≤ 5 then send s a.op a.body
  else
    let n := a.body.length
    (pieces 4096 (cdiv n 4096) a.body).zip (List.range (cdiv n 4096)) |>.foldl
      (fun s e => send s 4 (leBytes 4 (4096 * e.2) ++ e.1)) (send s 3 (leBytes 4 n))

/-- R46, R47: an access: executed here, forwarded, or refused for its path. -/
def State.perform (s : State) (a : Access) : State :=
  match s.target a.path with
  | .bad => answerTo a (s.refuse 0x5101)
  | .here view asManager level =>
    let a := { a with level := level }
    if asManager then
      if !s.originMay a then answerTo a (s.refuse 0x1106) else answerTo a (s.access { a with via := .arcade, limit := min a.limit (segmentMax .arcade) } view)
    else answerTo a (s.access a view)
  | .away dest down => if !s.originMay a then answerTo a (s.refuse 0x1106) else s.forwardAll a dest down

/-! ### The mailbox (R50 to R53, R442, R479, R495) -/

/-- R50, R53, R479: a dictionary opcode reaches the mailbox: Busy while Newel restarts, Unsupported for an opcode that the module does not serve, Invalid
Input for a payload shorter than its header and where LENGTH disagrees with the payload. -/
def State.odMailbox (s : State) (op : Nat) (q : MbReq) (f : State → State) : State :=
  if !(s.cxl.linkUp || s.cxl.pcieOnly) then s
  else if s.newel.restarting then s.mbDone (.mbReturn cxlBusy)
  else if q.opcode ≠ op then s.mbDone (.mbReturn cxlUnsupported)
  else if q.payload.length < 16 ∨ q.length ≠ q.body.length then s.mbDone (.mbReturn cxlInvalidInput)
  else f s

/-- R50: an access through the mailbox. -/
def State.mailboxAccess (s : State) (op : Nat) (q : MbReq) : State :=
  s.odMailbox (0xC000 + op) q (fun s => s.perform ⟨.mailbox, 0, .mailbox, op, q.path, q.index * 256 + q.sub, q.body, .plain, segmentMax .mailbox, 2⟩)

/-- R50, 0xC000. -/
def execOdRead (q : MbReq) (s : State) : Result := .next (s.mailboxAccess 0 q)
/-- R50, 0xC001. -/
def execOdWrite (q : MbReq) (s : State) : Result := .next (s.mailboxAccess 1 q)
/-- R50, 0xC002. -/
def execOdDomainReadStart (q : MbReq) (s : State) : Result := .next (s.mailboxAccess 2 q)
/-- R50, 0xC003. -/
def execOdDomainWriteStart (q : MbReq) (s : State) : Result := .next (s.mailboxAccess 3 q)
/-- R50, 0xC004. -/
def execOdDomainSegment (q : MbReq) (s : State) : Result := .next (s.mailboxAccess 4 q)
/-- R50, 0xC005. -/
def execOdDomainAbort (q : MbReq) (s : State) : Result := .next (s.mailboxAccess 5 q)

/-- R53: OD_STATE_WAIT at the module whose state it names: an answer at once, a wait, or, where another runs, none (false). -/
def State.beginWait (s : State) (o : Origin) (b : Bytes) : Bool × State :=
  let target := leField b 0 1
  let ms := leField b 1 2
  let seq := s.odGet Od.odWriteSeq
  if b.length ≠ 3 then (true, s.respond o 6 0 0x1104 seq [])
  else if 10000 < ms then (true, s.respond o 6 0 0x1105 seq [])
  else if ms = 0 ∨ s.mode.code = target then (true, s.respond o 6 0 0 seq (leBytes 1 s.mode.code))
  else if s.od.stateWait.isSome then (false, s)
  else (true, { s with od := { s.od with stateWait := some ⟨o, target, s.epoch + ms * oneMs⟩ } })

/-- R50, R53, R442: 0xC006, a background command: a second one is answered Busy. -/
def execOdStateWait (q : MbReq) (s : State) : Result :=
  .next (s.odMailbox 0xC006 q (fun s =>
    let bad := fun code => s.respond .mailbox 6 0 code (s.odGet Od.odWriteSeq) []
    if s.newel.recovery then bad 0x1101
    else if s.od.stateWait.any (fun w => w.origin == .mailbox) then s.mbDone (.mbReturn cxlBusy)
    else
      match s.target q.path with
      | .bad => bad 0x5101
      | .here (some _) _ _ => bad 0x1101
      | .away dest down => s.forward .mailbox 6 0xC006 dest down 0 q.body ((pathHops q.path).getD []).length
      | .here none _ _ =>
        match s.beginWait .mailbox q.body with
        | (true, s) => s
        | (false, s) => s.mbDone (.mbReturn cxlBusy)))

/-- R53: STATE_WAIT_TIMEOUT. -/
def execStateWaitTimeout (s : State) : Result := .next (if s.od.stateWait.isSome then s.endStateWait else s)

/-- R45: DOMAIN_ABORTED: the transfer of an entry on a path that has waited longest ends. -/
def execDomainAborted (via : Via) (index sub : Nat) (s : State) : Result :=
  let mine := fun (t : Transfer) => t.via == via && t.key == index * 256 + sub
  match (s.od.transfers.filter mine).map (·.last) with
  | [] => .next s
  | x :: l =>
    let m := l.foldl min x
    let w := s.od.transfers.any (fun t => mine t && t.isWrite && t.last == m)
    let s := s.endTransfers (fun t => mine t && t.last == m)
    .next (if w then s.fwStopped (index * 256 + sub) else s)

/-! ### The Arcade (R48, R49, R54) -/

/-- R42: the bytes of a segment's data that go back to an originator. -/
def Origin.segment : Origin → Bytes → Bytes
  | .eop _ _ _ _ _, b => b.take (segmentMax .eop)
  | _, b => b

/-- A module's proxy ends, and its originator is answered. -/
def State.endProxy (s : State) (p : Proxy) (status seq : Nat) (b : Bytes) : State :=
  let s : State := { s with od := { s.od with proxies := s.od.proxies.filter (fun x => x.id != p.id) } }
  s.respond p.origin p.opcode p.key status seq (if p.opcode = 4 then p.origin.segment b else b)

/-- R49: a module has not left the gallery: it is present in the tray, or its index still exists above it. -/
def State.inGallery (s : State) (p : Word64) : Bool :=
  match s.splitLevel p with
  | none => false
  | some l => s.indexExists l (s.levelIndex p l)

/-- R48, R49: PROXY_TIMEOUT: 0x5102, or 0x5101 where the member has left the gallery. -/
def execProxyTimeout (id : Nat) (s : State) : Result :=
  .next (match s.od.proxies.find? (fun p => p.id == id) with
    | none => s
    | some p => s.endProxy p (if s.inGallery p.dest then 0x5102 else 0x5101) (s.odGet Od.odWriteSeq) [])

/-- R54: an OD request frame: executed with the Manager role; from any other sender discarded and counted; unanswered while Newel restarts. -/
def State.takeOdRequest (s : State) (f : Frame) : State :=
  let b := f.payload
  let o : Origin := .arcade f.src f.tag f.index
  let path := BitVec.ofNat 64 (leField b 0 8)
  let body := b.drop 16
  if s.newel.restarting then s
  else if s.odManager != some f.src || s.mine f.src then s.count Od.foreignOdDrops 1
  else if b.length < 16 ∨ leField b 12 4 ≠ body.length ∨ f.index < 0xC000 ∨ 0xC006 < f.index then s.count Od.badFrames 1
  else if f.index = 0xC006 then
    match s.target path with
    | .bad => s.respond o 6 0 0x5101 (s.odGet Od.odWriteSeq) []
    | .here (some _) _ _ => s.respond o 6 0 0x1101 (s.odGet Od.odWriteSeq) []
    | .away dest down => s.forward o 6 0xC006 dest down 0 body ((pathHops path).getD []).length
    | .here none _ _ =>
      match s.beginWait o body with
      | (true, s) => s
      | (false, s) => s.respond o 6 0 0x1107 (s.odGet Od.odWriteSeq) []
  else s.perform ⟨.arcade, f.arch, o, f.index - 0xC000, path, leField b 8 2 * 256 + leField b 10 1, body, .plain, segmentMax .arcade, 2⟩

/-- R54: an OD response frame completes the access that waits under its TAG for its sender. -/
def State.takeOdResponse (s : State) (f : Frame) : State :=
  let b := f.payload
  match s.od.proxies.find? (fun p => p.id == f.tag && p.dest == f.src) with
  | none => s
  | some p =>
    if b.length < 16 ∨ leField b 4 4 + 16 ≠ b.length then s.count Od.badFrames 1
    else s.endProxy p (leField b 0 2) (leField b 8 8) (b.drop 16)

/-! ### EOP (R55 to R61) -/

/-- R57: the operands of an EOP request, in little-endian order. -/
def eopBody (h : EopHdr) (k : Nat) (rest : Bytes) : Bytes :=
  match h.op with
  | 2 => if ((odRow k).map (fun r => r.ty.size.isSome)).getD true then rest.reverse else rest
  | 4 => rest.reverse
  | 5 => (rest.take 4).reverse ++ rest.drop 4
  | _ => rest

/-- R59: an EOP request that passed the checks is executed with the Field role. -/
def State.eopExecute (s : State) (d : Datagram) : State :=
  let h := eopHdr d.payload
  let p := eopPayload d.payload
  let k := beField p 0 2 * 256 + beField p 2 1
  s.perform ⟨.eop, d.port, .eop d.srcAddr d.srcPort h.op h.seq h.path, h.op - 1, h.path, k, eopBody h k (p.drop 4), .plain, segmentMax .eop, 2⟩

/-- The datagram is the request that waits in a place of the queue. -/
def EopReq.is (q : EopReq) (d : Datagram) : Bool := q.addr == d.srcAddr && q.udp == d.srcPort && q.payload == d.payload

/-- R55, R59: an EOP request of an opcode: one that waits in the queue is executed; any other arrives at a port, is checked and executed. -/
def State.eopRow (s : State) (op : Nat) (d : Datagram) : State :=
  if s.eop.queue.any (fun q => q.is d) then
    if (eopHdr d.payload).op ≠ op then s
    else
      let s : State := { s with eop := { s.eop with queue := dropFirst (fun q => q.is d) s.eop.queue } }
      if s.eopServed then s.eopExecute d else s
  else if !s.eopArrives d || !s.eopServed || (eopFormOk d.payload && (eopHdr d.payload).op != op) then s
  else
    let (ok, s) := s.eopCheck d.payload d.sigOk
    if ok then s.eopExecute d else s

/-- R56, opcode 0x01. -/
def execEopRead (d : Datagram) (s : State) : Result := if !portOk d.port then .refused .noSuchUnit else .next (s.eopRow 1 d)
/-- R56, opcode 0x02. -/
def execEopWrite (d : Datagram) (s : State) : Result := if !portOk d.port then .refused .noSuchUnit else .next (s.eopRow 2 d)
/-- R56, opcode 0x03. -/
def execEopDomainReadStart (d : Datagram) (s : State) : Result := if !portOk d.port then .refused .noSuchUnit else .next (s.eopRow 3 d)
/-- R56, opcode 0x04. -/
def execEopDomainWriteStart (d : Datagram) (s : State) : Result := if !portOk d.port then .refused .noSuchUnit else .next (s.eopRow 4 d)
/-- R56, opcode 0x05. -/
def execEopDomainSegment (d : Datagram) (s : State) : Result := if !portOk d.port then .refused .noSuchUnit else .next (s.eopRow 5 d)
/-- R56, opcode 0x06. -/
def execEopDomainAbort (d : Datagram) (s : State) : Result := if !portOk d.port then .refused .noSuchUnit else .next (s.eopRow 6 d)

/-! ### Entries with behaviour of their own -/

/-- A write that reached an entry over a path. Newel executes none in Off or while it restarts (R36, R479). -/
def State.entryAccess (s : State) (op : Nat) (w : OdW) (port k : Nat) (aux : DomAux) : State :=
  if s.mode = .off ∨ s.newel.restarting then s else s.perform ⟨w.via, port, .via w.via, op, w.path, k, w.value, aux, segmentMax w.via, 2⟩

/-- R63. -/
def execStateRequest (w : OdW) (s : State) : Result := .next (s.entryAccess 1 w 0 Od.stateRequest .plain)
/-- R40, R41. -/
def execStore (w : OdW) (s : State) : Result := .next (s.entryAccess 1 w 0 Od.store .plain)
/-- R40. -/
def execRestore (w : OdW) (s : State) : Result := .next (s.entryAccess 1 w 0 Od.restore .plain)
/-- R277. -/
def execTenantRootWrite (w : OdW) (tenant : Nat) (s : State) : Result :=
  if !tenantOk tenant then .refused .noSuchUnit else .next (s.entryAccess 1 w 0 (Od.tenantRoot0 + tenant) .plain)
/-- R282. -/
def execXlateInvalidate (w : OdW) (s : State) : Result := .next (s.entryAccess 1 w 0 Od.xlateInvalidate .plain)
/-- R295. -/
def execPageResponse (w : OdW) (s : State) : Result := .next (s.entryAccess 1 w 0 Od.pageResponse .plain)
/-- R293. -/
def execPrlConsumerWrite (w : OdW) (s : State) : Result := .next (s.entryAccess 1 w 0 Od.prlConsumer .plain)
/-- R323. -/
def execClogConsumerWrite (w : OdW) (s : State) : Result := .next (s.entryAccess 1 w 0 Od.clogConsumer .plain)
/-- R300. -/
def execTableBaseWrite (w : OdW) (fieldBase : Bool) (s : State) : Result :=
  .next (s.entryAccess 1 w 0 (if fieldBase then Od.fieldBase else Od.tableBase) .plain)
/-- R385. -/
def execHostWindowWrite (w : OdW) (size : Bool) (s : State) : Result :=
  .next (s.entryAccess 1 w 0 (if size then Od.hostWindowSize else Od.hostWindowBase) .plain)
/-- R170. -/
def execLayerModeWrite (w : OdW) (s : State) : Result := .next (s.entryAccess 1 w 0 Od.layerMode .plain)
/-- R387, R388: LOAD_REQUEST with the Planner's reading of its package. Where the descriptor came through a transfer and waits, this is that reading. -/
def execLoadRequest (w : OdW) (pkg : Package) (s : State) : Result :=
  .next (if w.value.length = 64 ∧ s.awaitsPlan (loadD w.value) then s.loadPlan (loadD w.value).model pkg
    else s.entryAccess 6 w 0 Od.loadRequest (.package pkg))
/-- R391. -/
def execUnload (w : OdW) (s : State) : Result := .next (s.entryAccess 1 w 0 Od.unload .plain)
/-- R460. -/
def execFieldMapWrite (w : OdW) (s : State) : Result := .next (s.entryAccess 6 w 0 Od.fieldMap .plain)
/-- R459, R460. -/
def execFieldCellSet (w : OdW) (s : State) : Result := .next (s.entryAccess 6 w 0 Od.fieldCellSet .plain)
/-- R486. -/
def execErrorAck (w : OdW) (s : State) : Result := .next (s.entryAccess 1 w 0 Od.errorAck .plain)
/-- R487. -/
def execPersistentClear (w : OdW) (s : State) : Result := .next (s.entryAccess 1 w 0 Od.persistentClear .plain)
/-- R490: a read start of ATTEST_REPORT. -/
def execAttestReport (via : Via) (path : Word64) (s : State) : Result := .next (s.entryAccess 2 ⟨via, path, []⟩ 0 Od.attestReport .plain)
/-- R492, R495: an image as a whole. -/
def execFwImage (w : OdW) (sigOk digestOk : Bool) (s : State) : Result := .next (s.entryAccess 6 w 0 Od.fwImage (.image sigOk digestOk))
/-- R494. -/
def execFwActivate (w : OdW) (s : State) : Result := .next (s.entryAccess 1 w 0 Od.fwActivate .plain)
/-- R535. -/
def execTrainRequest (w : OdW) (s : State) : Result := .next (s.entryAccess 1 w 0 Od.trainRequest .plain)
/-- R543, R545; `arch` is the arch, or the field port, that carried the request. -/
def execTestStart (w : OdW) (arch : Nat) (s : State) : Result := .next (s.entryAccess 1 w arch Od.testStart .plain)
/-- R544. -/
def execTestAbort (w : OdW) (s : State) : Result := .next (s.entryAccess 1 w 0 Od.testAbort .plain)
/-- R543, R549. -/
def execMarginStart (w : OdW) (s : State) : Result := .next (s.entryAccess 1 w 0 Od.marginStart .plain)
/-- R543, R552. -/
def execBistStart (w : OdW) (s : State) : Result := .next (s.entryAccess 1 w 0 Od.bistStart .plain)
/-- R510. -/
def execMeasStart (w : OdW) (s : State) : Result := .next (s.entryAccess 1 w 0 Od.measStart .plain)

end Sys2Proof.Machine
end

