-- ==== Sys2Proof/Machine/Link.lean ====
section
/-!
DEFINITION. Link.lean: what arrives on an arch: data flits (R403, R405), the frames that they carry, forwarding (R409, R420), and the delivery of each
frame type.
-/

namespace Sys2Proof.Machine

/-! ### Delivery (R409) -/

/-- The module holds something of a job: a program, or its open step. -/
def State.holdsJob (s : State) (job : Nat) : Bool := !(s.jobProgs job).isEmpty || (s.openStepOf job).isSome

/-- R246, R431: JOB_STOP with the original code: a manager passes the stop on, and answers a report of 0x5020 from a member of its tray; the job's programs
stop with 0x5020 itself, and with 0x3074 for any other code. -/
def State.takeJobStop (s : State) (f : Frame) : State :=
  let code := leField f.payload 0 2
  let back := code == 0x5020 && s.isManager && s.sameGallery 3 f.src s.ownPath
  let s := if s.isManager then s.sendJobStop f.job code (s.stopPaths (if back then none else some f.src)) else s
  if !s.holdsJob f.job then s
  else if code = 0x5020 then s.jobStopAll f.job code
  else ((s.jobProgs f.job).foldl (fun s e => s.stopProg e.1 e.2.slot 0x3074 e.2.pc) s).endJob f.job code

/-- R300, R412, R417: MOVE_DATA: the payload is written at its device address, the deputy's mirror as it stands and any other write to the stream table
through the filter (DESIGN CHOICE, log entry 44); a confirmation carries all bytes taken from the sender. -/
def State.takeMoveData (s : State) (f : Frame) : State :=
  let a := leField f.payload 0 8
  let d := f.payload.drop 8
  let k := f.src.toNat
  if f.payload.length < 8 ∨ 16384 < d.length ∨ memTop < a + d.length then s.count Od.badFrames 1
  else
    let fromManager := s.odManager == some f.src
    let s := if s.arcade.manager = some f.src ∧ s.arcade.deputy = some s.ownPath then s.memWrite a d (bit f.flags 1) else s.outsideWrite a d (bit f.flags 1) fromManager
    let n := (kget 0 k s.arcade.taken + d.length) % 2 ^ 64
    let s : State := { s with arcade := { s.arcade with taken := kset 0 k n s.arcade.taken } }
    s.sendFrame (s.mkFrame f.src 0x31 0 31 0 0 0 (leBytes 8 n))

/-- R412, R417: MOVE_CONFIRM: the bytes confirmed by a module; a commit that waits for its mirror may follow, and a load that waits for its
shares (R390). -/
def State.takeMoveConfirm (s : State) (f : Frame) : State :=
  let k := f.src.toNat + 2 ^ 64
  let n := max (kget 0 k s.arcade.moved) (leField f.payload 0 8)
  let s : State := { s with arcade := { s.arcade with moved := kset 0 k n s.arcade.moved } }
  let s := ((s.serve.steps.filter (fun x => x.mirror.isSome)).map (·.job)).foldl State.tryRelease s
  (s.serve.models.map (·.1)).foldl State.loadProgress s

/-- R409: a frame for this module, by its type. -/
def State.deliver (s : State) (f : Frame) : State :=
  match f.ftype with
  | 0x02 => s.takeOdRequest f
  | 0x03 => s.takeOdResponse f
  | 0x04 => s.takeArrive f
  | 0x05 => s.takeRelease f
  | 0x06 => s.takeJobStop f
  | 0x07 => s.takeElection f
  | 0x08 => s.takeSync f
  | 0x10 => s.takeSend f
  | 0x11 => s.takeColl f
  | 0x20 => s.takeManifest f
  | 0x21 => s.takeExchRows f
  | 0x22 => s.takeReturnManifest f
  | 0x23 => s.takeReturnRows f
  | 0x30 => s.takeMoveData f
  | 0x31 => s.takeMoveConfirm f
  | _ => s.count Od.badFrames 1

/-- R409, R414, R420: a frame has arrived whole on an arch. In training and in quarantine the arch carries HELLO frames alone. How a HELLO's signatures check
is the environment's to say. `owed` are the flits of its receive buffer that are freed when it leaves it. -/
def State.takeFrame (s : State) (f : Frame) (endorsed signed : Bool) (owed : Nat) : State :=
  let a := s.arch f.arch
  let free := fun (s : State) => s.freeCredits f.arch f.vc owed
  if frameVc f.ftype ≠ some f.vc ∨ 16400 < f.payload.length then free (if a.state = 0 ∨ a.state = 5 then s else s.count Od.badFrames 1)
  else if f.ftype = 0x01 then free (s.takeHello f endorsed signed)
  else if !a.up then free s
  else if s.mine f.dest then free (s.deliver f)
  else s.forwardFrame f owed

/-- R261, R412: the words of which the data of a MOVE_DATA frame for this module writes a part are read first. -/
def State.moveErrors (s : State) (f : Frame) (errs : List BitErr) : State :=
  if f.ftype = 0x30 ∧ s.mine f.dest ∧ (s.arch f.arch).up ∧ 8 ≤ f.payload.length then
    s.partErrors errs (partWords (leField f.payload 0 8) (f.payload.length - 8))
  else s

/-! ### Flits (R403, R405) -/

/-- R405: a flit is discarded: one NAK leaves, and data flits are discarded until the expected SEQ arrives. -/
def ArchSt.refused (a : ArchSt) : ArchSt := if a.discard then a else { a with discard := true, nak := true }

/-- R403: what every good flit carries: an acknowledgement and a credit counter. -/
def ArchSt.heard (a : ArchSt) (fl : Flit) (now : Nat) : ArchSt :=
  let a := a.acked fl.ack now
  { a with credit := kset 0 (fl.credVc % 4) (fl.credCount % 65536) a.credit }

/-- R403, R405, R406, R408, R420: a data flit in order: its body joins its channel's frame; the last flit's frame is complete. The flits of a frame for the module
`own` are freed as they arrive; those of another frame leave the receive buffer together, and are counted with the complete frame. -/
def ArchSt.taken (a : ArchSt) (own : Word64) (fl : Flit) : Option (Bytes × Nat) × ArchSt :=
  let vc := fl.vc % 4
  let b := (if fl.first then [] else kget [] vc a.partial_) ++ fl.body.take 240
  let mine := leField b 0 8 == own.toNat
  let cut := if fl.first then kget 0 vc a.owed else 0
  let owed := kget 0 vc a.owed - cut + (if mine then 0 else 1)
  let a := { a with rxSeq := (a.rxSeq + 1) % 65536, flitsRx := a.flitsRx + 1, discard := false,
                    freed := kset 0 vc ((kget 0 vc a.freed + cut + (if mine then 1 else 0)) % 65536) a.freed,
                    owed := kset 0 vc (if fl.last then 0 else owed) a.owed, partial_ := kset [] vc (if fl.last then [] else b) a.partial_ }
  (if fl.last then some (b, owed) else none, a)

/-- R402, R403, R405: a flit arrives on an arch; `errs` are the bit errors of the words that its frame makes a controller read. -/
def State.takeFlit (s : State) (n : Nat) (fl : Flit) (errs : List BitErr) : State :=
  let a := s.arch n
  if a.state = 0 ∨ a.state = 5 ∨ a.partnerTest then s
  else if !fl.crcOk ∨ 2 < fl.kind then s.setArch n { a.refused with crcFails := a.crcFails + 1 }
  else
    let a := a.heard fl s.epoch
    if fl.kind ≠ 1 then s.setArch n a
    else if fl.seq ≠ a.rxSeq then s.setArch n a.refused
    else
      let (whole, a) := a.taken s.ownPath fl
      let s := s.setArch n a
      match whole with
      | none => s
      | some (b, owed) =>
        match frameOf n (fl.vc % 4) b with
        | none => (s.count Od.badFrames 1).freeCredits n (fl.vc % 4) owed
        | some f => ((s.moveErrors f errs).takeFrame f (Config.freeBit s.free (0x5000 + n) 0) (Config.freeBit s.free (0x5000 + n) 1) owed).tick

/-- R405: DATA_FLIT. -/
def execDataFlit (arch : Nat) (fl : RxFlit) (s : State) : Result :=
  if !archOk arch then .refused .noSuchUnit else .next (s.takeFlit arch fl.flit fl.errs)

/-! ### Frames (R409) -/

/-- A frame of a type arrives on its arch. -/
def State.frameRow (s : State) (ftype : Nat) (f : Frame) : Result :=
  if !archOk f.arch then .refused .noSuchUnit else .next (s.takeFrame { f with ftype := ftype } false false 0)

/-- R413 to R415: HELLO. -/
def execHello (f : Frame) (endorsed signed : Bool) (s : State) : Result :=
  if !archOk f.arch then .refused .noSuchUnit else .next (s.takeFrame { f with ftype := 0x01 } endorsed signed 0)
/-- R54: OD_REQUEST: an opcode of R50 with its request payload. -/
def execOdRequest (f : Frame) (opcode : Nat) (q : Bytes) (s : State) : Result := s.frameRow 0x02 { f with index := opcode, payload := q }
/-- R54: OD_RESPONSE: the STATUS, OD_WRITE_SEQ and value that answer a forwarded access. -/
def execOdResponse (f : Frame) (id status : Nat) (value : Bytes) (seq : Nat) (s : State) : Result :=
  s.frameRow 0x03 { f with tag := id, payload := odPayload status seq value }
/-- R416. -/
def execElection (f : Frame) (s : State) : Result := s.frameRow 0x07 f
/-- R411. -/
def execBarrierArrive (f : Frame) (s : State) : Result := s.frameRow 0x04 f
/-- R411. -/
def execBarrierRelease (f : Frame) (s : State) : Result := s.frameRow 0x05 f
/-- R431. -/
def execJobStop (f : Frame) (s : State) : Result := s.frameRow 0x06 f
/-- R428. -/
def execSyncEpoch (f : Frame) (s : State) : Result := s.frameRow 0x08 f
/-- R410. -/
def execSendData (f : Frame) (s : State) : Result := s.frameRow 0x10 f
/-- R423. -/
def execCollData (f : Frame) (s : State) : Result := s.frameRow 0x11 f
/-- R374. -/
def execManifest (f : Frame) (s : State) : Result := s.frameRow 0x20 f
/-- R374. -/
def execExchRows (f : Frame) (s : State) : Result := s.frameRow 0x21 f
/-- R379. -/
def execReturnManifest (f : Frame) (s : State) : Result := s.frameRow 0x22 f
/-- R379. -/
def execReturnRows (f : Frame) (s : State) : Result := s.frameRow 0x23 f
/-- R412, R261. -/
def execMoveData (f : MoveFrame) (s : State) : Result := (s.moveErrors { f.frame with ftype := 0x30 } f.errs).frameRow 0x30 f.frame
/-- R412. -/
def execMoveConfirm (f : Frame) (s : State) : Result := s.frameRow 0x31 f

end Sys2Proof.Machine
end

