-- ==== Sys2Proof/Machine/Rerun.lean ====
section
/-!
DEFINITION. Rerun.lean: accumulates enter tiles (R107, R108), the residue checks and the rerun after a mismatch (R119 to R123), and the commands of the operations
that these rules govern: passes, INJECT, COMBINE and DRAIN.
-/

namespace Sys2Proof.Machine

/-! ### What an operation brings, by its opcode -/

/-- R225: what the accumulate that a word spells brings to its tiles; `main` is the matching PASS of an outlier pass. -/
def State.accsOf (s : State) (hw : PassHw) (again : Bool) (c : OpCtx) (main : Nat) : AccRes :=
  match opOf c.word with
  | 0x10 => s.passAccs hw again c
  | 0x11 => s.sparseAccs hw again c
  | 0x12 => s.serialAccs c
  | 0x13 => s.outlierAccs hw again c main
  | 0x14 => s.countAccs c
  | 0x20 => s.injectAccs c
  | _ => s.combineAccs c

/-- R229: the matching main pass of an OUTLIER_PASS: the last one issued with the same TARGET; 0 where there is none. -/
def OpCtx.main (c : OpCtx) : Nat := if opOf c.word = 0x13 then (kfind (bits c.word 36 21) c.prog.lastPass).getD 0 else 0

/-- R121: the record of an operation that enters a tile. -/
def State.redoOf (s : State) (c : OpCtx) (main : Nat) : Redo :=
  if opOf c.word = 0x10 ∧ bit c.word 82 then ⟨c.word, main, (s.flight c.fk).active, (s.flight c.fk).planeBad⟩ else ⟨c.word, main, [], false⟩

/-- R107, R108: the rows of an operation enter its tiles; the second component lists the tiles whose residue checks failed. None: a tile refuses the format, and
nothing enters any tile. -/
def State.enterTiles (s : State) (c : OpCtx) (us : List Upset) (main : Nat) (l : List Accum) : Option (State × List Nat) :=
  l.foldl (fun r x => r.bind (fun (s, bad) =>
    (s.accumulate c.flight us x).map (fun (s, b) =>
      (s.setTile c.fk x.tile (((s.flight c.fk).tile x.tile).note (s.redoOf c main)), if b then bad ++ [x.tile] else bad)))) (some (s, []))

/-! ### The rerun (R121, R122) -/

/-- How a rerun ends: it passes, a residue check fails in it, or an operation of it is refused. -/
inductive Again where
  | ok (s : State)
  | bad (s : State)
  | stop (s : State) (code : Nat)
  deriving DecidableEq, Repr

/-- R121: one operation of a rerun of tile i: a retag as it stood, an accumulate with its operands read again; what a multi-tile pass brings to other tiles
is left out, since they hold it. -/
def State.redo (s : State) (c : OpCtx) (i : Nat) (us : List Upset) (r : Redo) : Again :=
  let c := { c with word := r.word, empty := false }
  if isFoot 2 r.word then
    match ((s.flight c.fk).tile i).retag (bits c.desc 55 52) (toInt 8 (bits c.desc 51 44)) with
    | .error e => .stop s e
    | .ok t => .ok (s.setTile c.fk i (t.note r))
  else
    let s := if r.plane = [] then s
      else s.setFlight c.fk { (s.flight c.fk) with active := r.plane, staged := r.plane, planeBad := r.bad, planeFree := false }
    match s.accsOf ⟨⟨[], []⟩, [], []⟩ true c r.main with
    | .stop s e => .stop s e
    | .hold s => .stop s 0x3070
    | .ok s l =>
      match s.enterTiles c us r.main (l.filter (fun x => x.tile == i)) with
      | none => .stop s 0x3020
      | some (s, bad) => if bad = [] then .ok s else .bad s

/-- R121: the operations of a rerun in their order; an upset of the rerun strikes its last operation. -/
def State.redoAll (s : State) (c : OpCtx) (i : Nat) (us : List Upset) : List Redo → Again
  | [] => .ok s
  | r :: rs =>
    match s.redo c i (if rs = [] then us else []) r with
    | .ok s => s.redoAll c i us rs
    | x => x

/-- R121, R165: the sequencer releases a tile for its rerun: its sums and its tag go; its SKIP bits and AUDIT blocks stay as recorded. -/
def Tile.forRerun (t : Tile) : Tile := { Tile.reset with skip := t.skip, audit := t.audit, layer := t.layer, drained := t.drained, missed := t.missed }

/-- R121: the rerun of a tile: its operations run again, and the planes, the span maps and the record of main passes stand afterwards as before it. -/
def State.rerun (s : State) (c : OpCtx) (i : Nat) (us : List Upset) : Again :=
  let y := s.flight c.fk
  let t := y.tile i
  let main := ((s.progAt c.fk c.slot).map (·.lastPass)).getD []
  let s := (s.setTile c.fk i t.forRerun).setFlight c.fk { ((s.setTile c.fk i t.forRerun).flight c.fk) with buffers := [] }
  let back := fun (s : State) =>
    let s := s.modProg c.fk c.slot (fun p => { p with lastPass := main })
    s.setFlight c.fk { (s.flight c.fk) with
      active := y.active, staged := y.staged, planeBad := y.planeBad, planeFree := y.planeFree, map0 := y.map0, map1 := y.map1, mapTurn := y.mapTurn }
  match s.redoAll c i us t.work with
  | .ok s => .ok (back s)
  | x => x

/-- R122: the times of the flight's recovered mismatches of the last 60 s, with one more. -/
def State.noteMismatch (s : State) (fk : Nat) : State :=
  let y := s.flight fk
  s.setFlight fk { y with mismatches := y.mismatches.filter (fun t => decide (s.epoch < t + 60 * oneSec)) ++ [s.epoch] }

/-- R121, R122, R521: a residue mismatch in tile i: logged, counted, and recovered by the rerun; a mismatch in the rerun, or the limit within 60 s, fences the
flight. -/
def State.recoverTile (s : State) (c : OpCtx) (us : List Upset) (i : Nat) : State × OpRes :=
  let x := unitSubject 3 c.hall (c.fk % 20)
  let note := fun (s : State) => (s.count Od.residueMismatches 1).fault { code := 0x3010, hall := c.hall, unit := c.fk % 20 } x
  let s := note s
  if s.mode = .safeStop then (s, .hold)
  else match s.rerun c i (us.filter Upset.again) with
    | .bad s => ((note s).fence c.fk, .hold)
    | .stop s code => (s, .stop code)
    | .ok s =>
      let s := match s.episodeOf x with | some e => s.closeEpisode e.num | none => s
      let s := s.noteMismatch c.fk
      if s.odGet Od.residueFenceLimit ≤ (s.flight c.fk).mismatches.length then (s.fence c.fk, .hold) else (s, .open_)

/-- R121: the mismatches of an operation, tile by tile. -/
def State.recoverAll (s : State) (c : OpCtx) (us : List Upset) : List Nat → State × OpRes
  | [] => (s, .open_)
  | i :: is =>
    match s.recoverTile c us i with
    | (s, .open_) => s.recoverAll c us is
    | x => x

/-! ### Accumulates (R107) -/

/-- R107 to R109, R81, R82, R119 to R123: an accumulate: what it brings enters its tiles and is checked; a tile that fails is recovered. -/
def State.accBody (hw : PassHw) (c : OpCtx) (s : State) : State × OpRes :=
  match (s.landErrors hw.foot.land).accsOf hw false c c.main with
  | .stop s e => (s, .stop e)
  | .hold s => (s, .hold)
  | .ok s l =>
    match s.enterTiles c (hw.foot.upsets.filter (fun u => !Upset.again u)) c.main l with
    | none => (s.tick, .stop 0x3020)
    | some (s, bad) => (s.tick.holdShare c).recoverAll c hw.foot.upsets bad

/-- What the hardware does to an operation that reads no weights. -/
def footPass (h : FootHw) : PassHw := ⟨h, [], []⟩

/-- R226: PASS. -/
def execPassOp (f : FlightId) (hw : PassHw) (s : State) : Result :=
  if !flightOk f then .refused .noSuchUnit else .next (s.issueOp f (isOp 0x10) (State.accBody hw))

/-- R227: SPARSE_PASS. -/
def execSparsePass (f : FlightId) (hw : PassHw) (s : State) : Result :=
  if !flightOk f then .refused .noSuchUnit else .next (s.issueOp f (isOp 0x11) (State.accBody hw))

/-- R228: SERIAL_PASS. -/
def execSerialPass (f : FlightId) (hw : PassHw) (s : State) : Result :=
  if !flightOk f then .refused .noSuchUnit else .next (s.issueOp f (isOp 0x12) (State.accBody hw))

/-- R229: OUTLIER_PASS. -/
def execOutlierPass (f : FlightId) (hw : PassHw) (s : State) : Result :=
  if !flightOk f then .refused .noSuchUnit else .next (s.issueOp f (isOp 0x13) (State.accBody hw))

/-- R133 to R135: COUNT_PASS. -/
def execCountPass (f : FlightId) (hw : PassHw) (s : State) : Result :=
  if !flightOk f then .refused .noSuchUnit else .next (s.issueOp f (isOp 0x14) (State.accBody hw))

/-- R118: INJECT. -/
def execInject (f : FlightId) (hw : FootHw) (s : State) : Result :=
  if !flightOk f then .refused .noSuchUnit else .next (s.issueOp f (isFoot 4) (State.accBody (footPass hw)))

/-- R380: COMBINE. -/
def execCombine (f : FootCmd) (s : State) : Result :=
  if !flightOk f.flight then .refused .noSuchUnit else .next (s.issueOp f.flight (isOp 0x45) (State.accBody (footPass f.hw)))

/-! ### DRAIN (R113, R120, R123) -/

/-- R120: every sum that a drain reads agrees with its RES. -/
def Tile.rowsSound (t : Tile) (W row0 n : Nat) : Bool :=
  t.sums.all (fun p => p.2.good || decide (p.1 < row0 * W) || decide ((row0 + n) * W ≤ p.1))

/-- R119, R120: upsets strike a tile's stored sums as a drain reads them. -/
def State.strikeTile (s : State) (c : OpCtx) (i : Nat) (us : List Upset) : State :=
  s.setTile c.fk i (us.foldl (fun t u => Upset.strike c.W i t u) ((s.flight c.fk).tile i))

/-- R120, R121: the sums that a drain reads are checked; after a mismatch the tile is recovered, and the drain reads it again. -/
def State.checkDrain (s : State) (c : OpCtx) (d : DrainD) (us : List Upset) : State × OpRes :=
  let ok := fun (s : State) => let t := (s.flight c.fk).tile d.tile; !t.valid || t.rowsSound c.W d.rowBase d.rows
  let s := s.strikeTile c d.tile (us.filter (fun u => !Upset.again u))
  if ok s then (s, .open_) else s.recoverTile c us d.tile

/-- R112, R113: DRAIN. -/
def State.drainBody (hw : FootHw) (c : OpCtx) (s : State) : State × OpRes :=
  let s := s.landErrors hw.land
  match s.drainIn c with
  | .error e => (s, .stop e)
  | .ok x =>
    match s.checkDrain c (drainD c.desc) hw.upsets with
    | (s, .open_) => ((s.runDrain c (drainD c.desc) x.scale x.stats x.out x.gen).holdShare c, .open_)
    | r => r

/-- R113: DRAIN. -/
def execDrain (f : FootCmd) (s : State) : Result :=
  if !flightOk f.flight then .refused .noSuchUnit else .next (s.issueOp f.flight (isFoot 1) (State.drainBody f.hw))

end Sys2Proof.Machine
end

