-- ==== Sys2Proof/Machine/Snoop.lean ====
section
/-!
DEFINITION. Snoop.lean: the module's writes that wait for the host's caches go on (R437): the host's BIRsp, and MemRd, which may push a line out of the
filter; what waits behind those writes (R282, R289).
-/

namespace Sys2Proof.Machine

/-- R312: in a line of the stream table, the words W20 to W31 are undefined (free). -/
def State.undefinedWords (s : State) (a : Nat) (b : Bytes) : Bytes :=
  let o := (a - s.odGet Od.tableBase) % 256
  if s.inTable a ∧ 128 ≤ o then
    (b.zip (List.range 64)).map (fun e => if 160 ≤ o + e.2 then Config.freeByte s.free a e.2 else e.1)
  else b

/-- R436, R437, R439, R445: MemRd of the line at a DPA; `cached` says that the read may leave the line in a host cache. A DPA beyond the exposed range, and
a link that carries no CXL.mem, bring no request to the module. -/
def execHdmRead (dpa : Nat) (cached : Bool) (errs : List BitErr) (s : State) : Result :=
  let d := dpa / 64 * 64
  if !s.cxl.linkUp || decide (s.rangeSize ≤ d) then .next s
  else if !s.memoryActive then
    .next (((s.count Od.earlyHdmAccesses 1).emit (.memData d ((List.range 64).map (fun i => Config.freeByte s.free d i)) true)).tick)
  else if s.mode = .safeStop then
    .next (((s.count Od.poisonToHost 1).emit (.memData d ((List.range 64).map (fun i => Config.freeByte s.free d i)) true)).tick)
  else
    let a := s.odGet Od.hostWindowBase + d
    let s := if cached then (s.filterAdd (d / 64)).settleHost else s
    let (b, p, s) := s.memRead a 64 errs
    let b := s.undefinedWords a b
    .next (((if p then s.count Od.poisonToHost 1 else s).emit (.memData d b p)).tick)

/-- R437: the host's BIRsp for a line: the line leaves the filter, and the module's write proceeds. -/
def execBirsp (line : Nat) (s : State) : Result :=
  if s.cxl.snooped = some line then
    let s : State := { s with cxl := { s.cxl with snooped := none, filter := s.cxl.filter.filter (· ≠ line) } }
    .next s.settleHost
  else .next s

end Sys2Proof.Machine
end

