-- ==== Sys2Proof/Machine/Upkeep.lean ====
section
/-!
DEFINITION. Upkeep.lean: the upkeep of memory (patrol scrub, row counts, lanes, recentring: R263 to R269), and the repair and the closing of error
episodes (R247, R521, R528, R529), a lost corridor (R9, R521).
-/

namespace Sys2Proof.Machine

/-! ### Patrol scrub and counts -/

/-- The controller's channel of an address, as the rows of its banks are numbered. -/
def channelOfRow (r : Nat) : Nat := if r < 0x100000000 then r / 2 ^ 19 else 2 ^ 16 + (r - 0x100000000) / 2 ^ 24

/-- R255, R256: the 256-byte bursts of a channel. -/
def channelBursts (c : Nat) : Nat := if c < 2 ^ 16 then 2 ^ 21 else (2 ^ 29 - (c - 2 ^ 16) % 20 + 19) / 20

/-- R62: the memory controllers are powered. -/
def State.memoryUp (s : State) : Bool :=
  match s.mode with
  | .off => false | .standby => false | .safeStop => false | .training => s.start.memoryDone
  | .ready => true | .run => true | .stopped => true

/-- R263: one scrub read of the burst that holds `addr`; `late` says that the channel's pass has run more than a tenth past its period. The channel's
place in its pass is a count of the bursts read. -/
def execScrubRead (addr : Nat) (errs : List BitErr) (late : Bool) (s : State) : Result :=
  if s.memoryUp = false ∨ memTop ≤ addr then .next s
  else
    let b := addr / 256 * 256
    let (_, _, s) := s.memRead b 256 errs true
    let c := channelOfRow (rowOf b)
    let put := fun (s : State) (n : Nat) => ({ s with mem := { s.mem with scrubAt := kset 0 c n s.mem.scrubAt } } : State)
    let n := kget 0 c s.mem.scrubAt + 1
    .next (if late then (put s 0).logEv { code := 0x2019, hall := memHall b, unit := if b < mezzBase then stackOf b else 0xFF, address := b }
      else if channelBursts c ≤ n then (put s 0).count Od.scrubPasses 1
      else put s n)

/-- R264: the controller of the channel that holds `addr` clears its row counts. -/
def execRowCountClear (addr : Nat) (s : State) : Result :=
  let c := channelOfRow (rowOf addr)
  .next { s with mem := { s.mem with rowCe := s.mem.rowCe.filter (fun e => channelOfRow e.1 != c) } }

/-- R268: a second ends for the lanes of a stack: a lane that has reached the limit has been switched when it did, so what is left is to
start the next window. -/
def execLaneCeWindow (stack : Nat) (s : State) : Result :=
  if !stackOk stack then .refused .noSuchUnit
  else
    let full := (s.mem.laneCe.filter (fun e => decide (e.1 / 5200 = stack) && decide (s.odGet Od.laneCeLimit ≤ e.2))).map (·.1)
    let s := if s.mode = .run then full.foldl (fun s l => s.spareLane l) s else s
    .next { s with mem := { s.mem with laneCe := s.mem.laneCe.filter (fun e => e.1 / 5200 != stack) } }

/-- R269: recentring holds a channel's accesses for at most 200 ns and changes nothing that the state holds. -/
def execRecentre (hall : Nat) (s : State) : Result :=
  if !hallOk hall then .refused .noSuchUnit else .next s

/-! ### Episodes -/

/-- R521: the kinds of episode that a quiet period or a hold time closes: memory rows, landings, the host link (60 s after the last record), Newel
(3,600 s after the restart). -/
def timedKind (k : Nat) : Bool := k == 2 || k == 4 || k == 8 || k == 10

/-- R521: the time that closes an episode has run out. An episode of another kind closes by an event of its own. -/
def execEpisodeCloseTimer (episode : Nat) (s : State) : Result :=
  match s.newel.episodes.find? (fun e => e.num == episode) with
  | none => .next s
  | some e => .next (if timedKind e.subj.kind && !s.newel.restarting then s.closeEpisode episode else s)

/-- R528: a slice's shadow is a clean source for a block. -/
def State.shadowClean (s : State) (sl : Slice) (b : Nat) : Bool :=
  sl.shadow != 0 && !s.memPoisoned (sl.shadow + 4096 * b) 4096

/-- R180, R181: where the stored bytes of a block start, in 64-byte units. -/
def State.blockUnits (s : State) (sl : Slice) (b : Nat) : Nat := ((s.blockAt sl b).1 - sl.dataAddr) / 64

/-- R195, R185: T5 bytes from the home copy rebuild a block: packed, they take the space that the block holds, and where the check table can be read they give
its check value. Bytes that do not are no clean copy (DESIGN CHOICE, log entry 15). -/
def State.rebuildsBlock (s : State) (sl : Slice) (b : Nat) (t5 : Bytes) : Bool :=
  let (_, d, c) := (packBlock t5).entry 0
  decide (t5.length = 4096) && t5.all t5Valid && d.length == (s.blockAt sl b).2 &&
  (s.memPoisoned (sl.chkAddr + 4 * b) 4 || leNat (s.memBytes (sl.chkAddr + 4 * b) 4) == c)

/-- R195, R528: the rebuilt block, its index entry and its check value in the copies of flight landings. -/
def State.writeCopies (s : State) (m : Nat) (sl : Slice) (b : Nat) (t5 : Bytes) : State :=
  (s.blockCopies m sl b).foldl (fun s c =>
    let (e, d, k) := (packBlock t5).entry (c.2 / 64)
    let j := c.1.blocks.idxOf b
    let clean := fun (l : Bytes) => l.map (fun v => (v, false))
    s.setLanding c.1.flight ((((s.landing c.1.flight).fill (c.1.data + c.2) (clean d)).fill (c.1.idx + 4 * j) (clean (leBytes 4 e))).fill
      (c.1.chk + 4 * j) (clean (leBytes 4 k)))) s

/-- R195, R528: write a rebuilt block, its index entry and its check value over every copy, and clear the marks. -/
def State.writeBlock (s : State) (m : Nat) (sl : Slice) (b : Nat) (t5 : Bytes) : State :=
  let s := s.writeCopies m sl b t5
  let (e, d, c) := (packBlock t5).entry (s.blockUnits sl b)
  let a := sl.dataAddr + 64 * s.blockUnits sl b
  let s := (s.memWrite a d false).memMark a d.length false
  let s := (s.memWrite (sl.idxAddr + 4 * b) (leBytes 4 e) false).memMark (sl.idxAddr + 4 * b) 4 false
  (s.memWrite (sl.chkAddr + 4 * b) (leBytes 4 c) false).memMark (sl.chkAddr + 4 * b) 4 false

/-- R527 to R529: the repair of a weight block ends. The first clean source is the shadow, then the host's copy: `clean` says that the host's words
arrive unpoisoned; `verified` holds their bytes, and says whether every copy passes when it is read back. Without a clean source, or where the read-back fails, the model is withdrawn. -/
def execWeightRepairDone (episode : Nat) (clean : Bool) (verified : WeightCheck) (s : State) : Result :=
  match s.newel.episodes.find? (fun e => e.num == episode && e.subj.kind == 1) with
  | none => .next s
  | some e =>
    match s.subjectBlock e.subj with
    | none => .next (s.closeEpisode episode)
    | some (m, sl, b) =>
      let addr := ((kfind m s.serve.models).map (·.home)).getD 0
      let shadow := s.shadowClean sl b
      let host := decide (addr ≠ 0) && s.cxl.linkUp && clean && s.rebuildsBlock sl b verified.home
      if !shadow && !host then .next ((s.withdrawModel m e.subj).closeEpisode episode)
      else
        let t5 := if shadow then s.memBytes (sl.shadow + 4096 * b) 4096 else verified.home
        let s := if shadow then s else s.emit (.hostRead (addr + sl.srcAddr + 4096 * b) 4096)
        let s := s.writeBlock m sl b t5
        if verified.ok then
          let s := s.record { code := 0x2022, hall := sl.hall, address := e.subj.at_, model := m } 0 1 s.epoch episode (e.records + 1)
          .next ((s.closeEpisode episode).count Od.weightRepairs 1)
        else
          let s := s.modEpisode episode (fun x => { x with phase := 4 })
          .next ((s.withdrawModel m e.subj).closeEpisode episode)

/-- R221 to R223: the bytes of the program image at an address, from its header's counts. -/
def State.imageLength (s : State) (a : Nat) : Nat :=
  let f := fun o n => leNat (s.memBytes (a + o) n)
  let tables := 192 + 16 * f 23 1 + 32 * f 22 1 + 24 * f 20 2 + 16 * f 24 1 + 8 * f 25 1 + 16 * f 26 1
  cdiv tables 16 * 16 + 16 * f 16 4

/-- R247, R521: Newel has repaired a poisoned program image: its words are clean; the episode closes once the job is loaded again. -/
def execProgramImageRepaired (episode : ImageRepair) (s : State) : Result :=
  match s.newel.episodes.find? (fun e => e.num == episode.episode && e.subj.kind == 9) with
  | none => .next s
  | some e =>
    let b := episode.image.take (s.imageLength e.subj.key)
    let s := s.memWrite e.subj.key b false
    .next (if s.memPoisoned e.subj.key (s.imageLength e.subj.key) then s else (s.modEpisode episode.episode (fun e => { e with phase := 5 })).closeSettled)

/-- R9, R521: a corridor is lost: OD 0x3000.05 falls, 0x3005 opens the corridors' episode, and a second loss leads to Safe Stop. -/
def execCorridorDown (corridor : Nat) (s : State) : Result :=
  if 4 ≤ corridor then .refused .noSuchUnit
  else if s.mode = .off ∨ s.testing 2 corridor ∨ !bit (s.odGet Od.corridorsUp) corridor then .next s
  else
    let s := s.odPut Od.corridorsUp (setBit (s.odGet Od.corridorsUp) corridor false)
    .next (s.fault { code := 0x3005, unit := corridor, detail := leBytes 1 corridor } ⟨5, 0xFF00 + corridor, 0⟩)

end Sys2Proof.Machine
end

