-- ==== Sys2Proof/Machine/Dispatch.lean ====
section
/-!
DEFINITION. Dispatch.lean: one arm for each command.
-/

namespace Sys2Proof.Machine

def exec (i : Instr) (s : State) : Host.Outcome State Fault Refusal :=
  match i with
  | .odRead q => Sys2Proof.Machine.execOdRead q s
  | .odWrite q => Sys2Proof.Machine.execOdWrite q s
  | .odDomainReadStart q => Sys2Proof.Machine.execOdDomainReadStart q s
  | .odDomainWriteStart q => Sys2Proof.Machine.execOdDomainWriteStart q s
  | .odDomainSegment q => Sys2Proof.Machine.execOdDomainSegment q s
  | .odDomainAbort q => Sys2Proof.Machine.execOdDomainAbort q s
  | .odStateWait q => Sys2Proof.Machine.execOdStateWait q s
  | .stateWaitTimeout => Sys2Proof.Machine.execStateWaitTimeout s
  | .domainAborted via index sub => Sys2Proof.Machine.execDomainAborted via index sub s
  | .proxyTimeout id => Sys2Proof.Machine.execProxyTimeout id s
  | .odRequest f opcode q => Sys2Proof.Machine.execOdRequest f opcode q s
  | .odResponse f id status value seq => Sys2Proof.Machine.execOdResponse f id status value seq s
  | .eopDatagram d => Sys2Proof.Machine.execEopDatagram d s
  | .eopRead d => Sys2Proof.Machine.execEopRead d s
  | .eopWrite d => Sys2Proof.Machine.execEopWrite d s
  | .eopDomainReadStart d => Sys2Proof.Machine.execEopDomainReadStart d s
  | .eopDomainWriteStart d => Sys2Proof.Machine.execEopDomainWriteStart d s
  | .eopDomainSegment d => Sys2Proof.Machine.execEopDomainSegment d s
  | .eopDomainAbort d => Sys2Proof.Machine.execEopDomainAbort d s
  | .stateRequest w => Sys2Proof.Machine.execStateRequest w s
  | .stateTransitionEnd => Sys2Proof.Machine.execStateTransitionEnd s
  | .store w => Sys2Proof.Machine.execStore w s
  | .restore w => Sys2Proof.Machine.execRestore w s
  | .tenantRootWrite w tenant => Sys2Proof.Machine.execTenantRootWrite w tenant s
  | .xlateInvalidate w => Sys2Proof.Machine.execXlateInvalidate w s
  | .pageResponse w => Sys2Proof.Machine.execPageResponse w s
  | .prlConsumerWrite w => Sys2Proof.Machine.execPrlConsumerWrite w s
  | .clogConsumerWrite w => Sys2Proof.Machine.execClogConsumerWrite w s
  | .tableBaseWrite w fieldBase => Sys2Proof.Machine.execTableBaseWrite w fieldBase s
  | .hostWindowWrite w size => Sys2Proof.Machine.execHostWindowWrite w size s
  | .layerModeWrite w => Sys2Proof.Machine.execLayerModeWrite w s
  | .loadRequest w pkg => Sys2Proof.Machine.execLoadRequest w pkg s
  | .packingDone model out => Sys2Proof.Machine.execPackingDone model out s
  | .partTimeout model => Sys2Proof.Machine.execPartTimeout model s
  | .unload w => Sys2Proof.Machine.execUnload w s
  | .fieldMapWrite w => Sys2Proof.Machine.execFieldMapWrite w s
  | .fieldCellSet w => Sys2Proof.Machine.execFieldCellSet w s
  | .errorAck w => Sys2Proof.Machine.execErrorAck w s
  | .persistentClear w => Sys2Proof.Machine.execPersistentClear w s
  | .attestReport via path => Sys2Proof.Machine.execAttestReport via path s
  | .fwImage w sigOk digestOk => Sys2Proof.Machine.execFwImage w sigOk digestOk s
  | .fwProgramDone ok => Sys2Proof.Machine.execFwProgramDone ok s
  | .fwActivate w => Sys2Proof.Machine.execFwActivate w s
  | .trainRequest w => Sys2Proof.Machine.execTrainRequest w s
  | .testStart w arch => Sys2Proof.Machine.execTestStart w arch s
  | .testAbort w => Sys2Proof.Machine.execTestAbort w s
  | .testEnd bits errors corrected => Sys2Proof.Machine.execTestEnd bits errors corrected s
  | .marginStart w => Sys2Proof.Machine.execMarginStart w s
  | .marginEnd lanes => Sys2Proof.Machine.execMarginEnd lanes s
  | .bistStart w => Sys2Proof.Machine.execBistStart w s
  | .bistEnd failed rows => Sys2Proof.Machine.execBistEnd failed rows s
  | .measStart w => Sys2Proof.Machine.execMeasStart w s
  | .measDone count => Sys2Proof.Machine.execMeasDone count s
  | .identify => Sys2Proof.Machine.execIdentify s
  | .backgroundOperationStatus => Sys2Proof.Machine.execBackgroundOperationStatus s
  | .requestAbortBackgroundOperation => Sys2Proof.Machine.execRequestAbortBackgroundOperation s
  | .getEventRecords log => Sys2Proof.Machine.execGetEventRecords log s
  | .clearEventRecords log all handles => Sys2Proof.Machine.execClearEventRecords log all handles s
  | .getEventInterruptPolicy => Sys2Proof.Machine.execGetEventInterruptPolicy s
  | .setEventInterruptPolicy policy => Sys2Proof.Machine.execSetEventInterruptPolicy policy s
  | .getTimestamp => Sys2Proof.Machine.execGetTimestamp s
  | .setTimestamp t => Sys2Proof.Machine.execSetTimestamp t s
  | .getSupportedLogs => Sys2Proof.Machine.execGetSupportedLogs s
  | .getLog log offset length => Sys2Proof.Machine.execGetLog log offset length s
  | .identifyMemoryDevice => Sys2Proof.Machine.execIdentifyMemoryDevice s
  | .hdmRead dpa cached errs => Sys2Proof.Machine.execHdmRead dpa cached errs s
  | .hdmWrite dpa mask data poison errs => Sys2Proof.Machine.execHdmWrite dpa mask data poison errs s
  | .birsp line => Sys2Proof.Machine.execBirsp line s
  | .birspTimeout line => Sys2Proof.Machine.execBirspTimeout line s
  | .h2dSnoop hpa => Sys2Proof.Machine.execH2dSnoop hpa s
  | .hdmDecoderCommit base size ways => Sys2Proof.Machine.execHdmDecoderCommit base size ways s
  | .cxlLinkUp flit256 rate width => Sys2Proof.Machine.execCxlLinkUp flit256 rate width s
  | .cxlLinkDown => Sys2Proof.Machine.execCxlLinkDown s
  | .perst high => Sys2Proof.Machine.execPerst high s
  | .flr => Sys2Proof.Machine.execFlr s
  | .cxlReset clear => Sys2Proof.Machine.execCxlReset clear s
  | .d3hotEntry => Sys2Proof.Machine.execD3hotEntry s
  | .d0Entry => Sys2Proof.Machine.execD0Entry s
  | .programLoad f addr len => Sys2Proof.Machine.execProgramLoad f addr len s
  | .programStart f slot => Sys2Proof.Machine.execProgramStart f slot s
  | .flightOffer f => Sys2Proof.Machine.execFlightOffer f s
  | .nop f => Sys2Proof.Machine.execNop f s
  | .endOp f => Sys2Proof.Machine.execEndOp f s
  | .repeatOp f => Sys2Proof.Machine.execRepeatOp f s
  | .waitOp f => Sys2Proof.Machine.execWaitOp f s
  | .barrier f => Sys2Proof.Machine.execBarrier f s
  | .stepOp f => Sys2Proof.Machine.execStepOp f s
  | .barrierTimeout job bid use => Sys2Proof.Machine.execBarrierTimeout job bid use s
  | .passOp f hw => Sys2Proof.Machine.execPassOp f hw s
  | .sparsePass f hw => Sys2Proof.Machine.execSparsePass f hw s
  | .serialPass f hw => Sys2Proof.Machine.execSerialPass f hw s
  | .outlierPass f hw => Sys2Proof.Machine.execOutlierPass f hw s
  | .countPass f hw => Sys2Proof.Machine.execCountPass f hw s
  | .predict f => Sys2Proof.Machine.execPredict f s
  | .drain f => Sys2Proof.Machine.execDrain f s
  | .retag f => Sys2Proof.Machine.execRetag f s
  | .release f => Sys2Proof.Machine.execRelease f s
  | .inject f hw => Sys2Proof.Machine.execInject f hw s
  | .statscale f => Sys2Proof.Machine.execStatscale f s
  | .reduce f => Sys2Proof.Machine.execReduce f s
  | .fetch f errs => Sys2Proof.Machine.execFetch f errs s
  | .storeOperation f => Sys2Proof.Machine.execStoreOperation f s
  | .copy f => Sys2Proof.Machine.execCopy f s
  | .fillTokens f => Sys2Proof.Machine.execFillTokens f s
  | .fillOutlier f => Sys2Proof.Machine.execFillOutlier f s
  | .fillTable f => Sys2Proof.Machine.execFillTable f s
  | .handleSet f => Sys2Proof.Machine.execHandleSet f s
  | .send f => Sys2Proof.Machine.execSend f s
  | .recv f => Sys2Proof.Machine.execRecv f s
  | .broadcast f => Sys2Proof.Machine.execBroadcast f s
  | .allGather f => Sys2Proof.Machine.execAllGather f s
  | .reduceScatter f => Sys2Proof.Machine.execReduceScatter f s
  | .allReduce f => Sys2Proof.Machine.execAllReduce f s
  | .allToAll f => Sys2Proof.Machine.execAllToAll f s
  | .route f => Sys2Proof.Machine.execRoute f s
  | .outboundDispatch f => Sys2Proof.Machine.execOutboundDispatch f s
  | .returnDispatch f => Sys2Proof.Machine.execReturnDispatch f s
  | .combine f => Sys2Proof.Machine.execCombine f s
  | .sample f => Sys2Proof.Machine.execSample f s
  | .mask f => Sys2Proof.Machine.execMask f s
  | .operationEnd f op => Sys2Proof.Machine.execOperationEnd f op s
  | .preemptionPoint f => Sys2Proof.Machine.execPreemptionPoint f s
  | .programResume f slot => Sys2Proof.Machine.execProgramResume f slot s
  | .blockRefetchDone f block ok => Sys2Proof.Machine.execBlockRefetchDone f block ok s
  | .moverTake hall => Sys2Proof.Machine.execMoverTake hall s
  | .moverAccessDone id data errs => Sys2Proof.Machine.execMoverAccessDone id data errs s
  | .pageTimeout tenant page => Sys2Proof.Machine.execPageTimeout tenant page s
  | .coalesceExpiry vector => Sys2Proof.Machine.execCoalesceExpiry vector s
  | .batchWaitExpiry hall model cls => Sys2Proof.Machine.execBatchWaitExpiry hall model cls s
  | .promptShareWindow hall => Sys2Proof.Machine.execPromptShareWindow hall s
  | .ttlCheck => Sys2Proof.Machine.execTtlCheck s
  | .parkDone stream mezzAddr => Sys2Proof.Machine.execParkDone stream mezzAddr s
  | .restoreDone stream => Sys2Proof.Machine.execRestoreDone stream s
  | .expertProgramStart f slot layer lslot => Sys2Proof.Machine.execExpertProgramStart f slot layer lslot s
  | .exchangeTimeout job layer => Sys2Proof.Machine.execExchangeTimeout job layer s
  | .rebalancePeriod model loads => Sys2Proof.Machine.execRebalancePeriod model loads s
  | .replacement job slices => Sys2Proof.Machine.execReplacement job slices s
  | .hello f endorsed signed => Sys2Proof.Machine.execHello f endorsed signed s
  | .helloInterval => Sys2Proof.Machine.execHelloInterval s
  | .election f => Sys2Proof.Machine.execElection f s
  | .electionSettle => Sys2Proof.Machine.execElectionSettle s
  | .barrierArrive f => Sys2Proof.Machine.execBarrierArrive f s
  | .barrierRelease f => Sys2Proof.Machine.execBarrierRelease f s
  | .jobStop f => Sys2Proof.Machine.execJobStop f s
  | .syncEpoch f => Sys2Proof.Machine.execSyncEpoch f s
  | .sendData f => Sys2Proof.Machine.execSendData f s
  | .collData f => Sys2Proof.Machine.execCollData f s
  | .manifest f => Sys2Proof.Machine.execManifest f s
  | .exchRows f => Sys2Proof.Machine.execExchRows f s
  | .returnManifest f => Sys2Proof.Machine.execReturnManifest f s
  | .returnRows f => Sys2Proof.Machine.execReturnRows f s
  | .moveData f => Sys2Proof.Machine.execMoveData f s
  | .moveConfirm f => Sys2Proof.Machine.execMoveConfirm f s
  | .dataFlit arch fl => Sys2Proof.Machine.execDataFlit arch fl s
  | .nak arch expected => Sys2Proof.Machine.execNak arch expected s
  | .ackTimeout arch => Sys2Proof.Machine.execAckTimeout arch s
  | .timeReq arch t1 t2 t3 => Sys2Proof.Machine.execTimeReq arch t1 t2 t3 s
  | .timeResp arch t1 t2 t3 t4 => Sys2Proof.Machine.execTimeResp arch t1 t2 t3 t4 s
  | .timeExchangeTick => Sys2Proof.Machine.execTimeExchangeTick s
  | .loopReq arch path key => Sys2Proof.Machine.execLoopReq arch path key s
  | .loopAck arch => Sys2Proof.Machine.execLoopAck arch s
  | .archTraining arch signal lanesPass fecLock roundTrip helloOk => Sys2Proof.Machine.execArchTraining arch signal lanesPass fecLock roundTrip helloOk s
  | .archRetry => Sys2Proof.Machine.execArchRetry s
  | .laneFecWindow arch corrected uncorrected => Sys2Proof.Machine.execLaneFecWindow arch corrected uncorrected s
  | .archDown arch cause => Sys2Proof.Machine.execArchDown arch cause s
  | .rackSyncPulse => Sys2Proof.Machine.execRackSyncPulse s
  | .rackRefLost => Sys2Proof.Machine.execRackRefLost s
  | .timeUnaligned => Sys2Proof.Machine.execTimeUnaligned s
  | .telemetryDatagram d arrival => Sys2Proof.Machine.execTelemetryDatagram d arrival s
  | .telemetry m => Sys2Proof.Machine.execTelemetry m s
  | .recommend m => Sys2Proof.Machine.execRecommend m s
  | .eopReq m sigOk => Sys2Proof.Machine.execEopReq m sigOk s
  | .eopResp m => Sys2Proof.Machine.execEopResp m s
  | .timeReport m => Sys2Proof.Machine.execTimeReport m s
  | .foyerEvent m => Sys2Proof.Machine.execFoyerEvent m s
  | .mapUpdate m => Sys2Proof.Machine.execMapUpdate m s
  | .config m => Sys2Proof.Machine.execConfig m s
  | .timeSet m => Sys2Proof.Machine.execTimeSet m s
  | .firmware m => Sys2Proof.Machine.execFirmware m s
  | .heartbeat m => Sys2Proof.Machine.execHeartbeat m s
  | .heartbeatTimeout => Sys2Proof.Machine.execHeartbeatTimeout s
  | .portLinkChange port up => Sys2Proof.Machine.execPortLinkChange port up s
  | .sfpInserted port is25gSr milliwatts => Sys2Proof.Machine.execSfpInserted port is25gSr milliwatts s
  | .ptpMessage port transport domain msgType offset => Sys2Proof.Machine.execPtpMessage port transport domain msgType offset s
  | .ptpLost => Sys2Proof.Machine.execPtpLost s
  | .esmcPdu port ql => Sys2Proof.Machine.execEsmcPdu port ql s
  | .esmcTimeout port => Sys2Proof.Machine.execEsmcTimeout port s
  | .ppsEdge time => Sys2Proof.Machine.execPpsEdge time s
  | .ppsWindowEnd time => Sys2Proof.Machine.execPpsWindowEnd time s
  | .ref10Measure ppb missing => Sys2Proof.Machine.execRef10Measure ppb missing s
  | .ppsOutPulse => Sys2Proof.Machine.execPpsOutPulse s
  | .newelRestart cause tableOk => Sys2Proof.Machine.execNewelRestart cause tableOk s
  | .sensorSample rs => Sys2Proof.Machine.execSensorSample rs s
  | .logIntervalEnd code subject => Sys2Proof.Machine.execLogIntervalEnd code subject s
  | .persistRecord => Sys2Proof.Machine.execPersistRecord s
  | .serviceReq asserted stable => Sys2Proof.Machine.execServiceReq asserted stable s
  | .serviceChatterEnd asserted => Sys2Proof.Machine.execServiceChatterEnd asserted s
  | .serviceStandbyTimer => Sys2Proof.Machine.execServiceStandbyTimer s
  | .thermtrip sensor milliC => Sys2Proof.Machine.execThermtrip sensor milliC s
  | .smbusReadModuleState pecOk => Sys2Proof.Machine.execSmbusReadModuleState pecOk s
  | .smbusReadAlertCauses pecOk => Sys2Proof.Machine.execSmbusReadAlertCauses pecOk s
  | .smbusReadHallTemp pecOk => Sys2Proof.Machine.execSmbusReadHallTemp pecOk s
  | .smbusReadStackTemp pecOk => Sys2Proof.Machine.execSmbusReadStackTemp pecOk s
  | .smbusReadCoolantInlet pecOk => Sys2Proof.Machine.execSmbusReadCoolantInlet pecOk s
  | .smbusReadCoolantOutlet pecOk => Sys2Proof.Machine.execSmbusReadCoolantOutlet pecOk s
  | .smbusReadInputVoltage pecOk => Sys2Proof.Machine.execSmbusReadInputVoltage pecOk s
  | .smbusReadInputCurrent pecOk => Sys2Proof.Machine.execSmbusReadInputCurrent pecOk s
  | .smbusReadInputPower pecOk => Sys2Proof.Machine.execSmbusReadInputPower pecOk s
  | .smbusReadIdentity pecOk => Sys2Proof.Machine.execSmbusReadIdentity pecOk s
  | .smbusReadFwVersion pecOk => Sys2Proof.Machine.execSmbusReadFwVersion pecOk s
  | .alertResponseAddress pecOk => Sys2Proof.Machine.execAlertResponseAddress pecOk s
  | .governorTick avgW => Sys2Proof.Machine.execGovernorTick avgW s
  | .rateBelowFloor hall => Sys2Proof.Machine.execRateBelowFloor hall s
  | .powerFastLimit overWatts => Sys2Proof.Machine.execPowerFastLimit overWatts s
  | .fastLimitHoldEnd => Sys2Proof.Machine.execFastLimitHoldEnd s
  | .inputVoltageEvent mv => Sys2Proof.Machine.execInputVoltageEvent mv s
  | .freqQualify source usable qualified => Sys2Proof.Machine.execFreqQualify source usable qualified s
  | .timebaseLockCheck present offset => Sys2Proof.Machine.execTimebaseLockCheck present offset s
  | .tcxoStart ok => Sys2Proof.Machine.execTcxoStart ok s
  | .pllLock unit locked => Sys2Proof.Machine.execPllLock unit locked s
  | .scrubRead addr errs late => Sys2Proof.Machine.execScrubRead addr errs late s
  | .rowCountClear addr => Sys2Proof.Machine.execRowCountClear addr s
  | .laneCeWindow stack => Sys2Proof.Machine.execLaneCeWindow stack s
  | .recentre hall => Sys2Proof.Machine.execRecentre hall s
  | .episodeCloseTimer episode => Sys2Proof.Machine.execEpisodeCloseTimer episode s
  | .weightRepairDone episode clean verified => Sys2Proof.Machine.execWeightRepairDone episode clean verified s
  | .hotswapClose mv => Sys2Proof.Machine.execHotswapClose mv s
  | .mateDetOpen => Sys2Proof.Machine.execMateDetOpen s
  | .powerGood slotOk tcxoOk => Sys2Proof.Machine.execPowerGood slotOk tcxoOk s
  | .training o => Sys2Proof.Machine.execTraining o s
  | .memoryTrainingDone ms => Sys2Proof.Machine.execMemoryTrainingDone ms s
  | .ready ms => Sys2Proof.Machine.execReady ms s
  | .extest => Sys2Proof.Machine.execExtest s
  | .idcode => Sys2Proof.Machine.execIdcode s
  | .samplePreload bits => Sys2Proof.Machine.execSamplePreload bits s
  | .extestPulse => Sys2Proof.Machine.execExtestPulse s
  | .extestTrain => Sys2Proof.Machine.execExtestTrain s
  | .clamp => Sys2Proof.Machine.execClamp s
  | .highz => Sys2Proof.Machine.execHighz s
  | .bypass => Sys2Proof.Machine.execBypass s
  | .corridorDown corridor => Sys2Proof.Machine.execCorridorDown corridor s
  | .newelRestartDone => Sys2Proof.Machine.execNewelRestartDone s
  | .fecLockLost arch => Sys2Proof.Machine.execFecLockLost arch s
  | .flitSlot arch => Sys2Proof.Machine.execFlitSlot arch s
  | .echo arch body => Sys2Proof.Machine.execEcho arch body s
  | .msixVectorUnmask vector function => Sys2Proof.Machine.execMsixVectorUnmask vector function s
  | .icmpEcho port payload => Sys2Proof.Machine.execIcmpEcho port payload s
  | .programImageRepaired episode => Sys2Proof.Machine.execProgramImageRepaired episode s

end Sys2Proof.Machine
end

