-- ==== Sys2Proof/Safety.lean ====
section
/-!
DEFINITION. Safety.lean: what counts as a safe step, and the conditions in whose terms claims are stated: the block answers a next state, its
memory keeps its canonical form, a flight issues a word.
-/

namespace Sys2Proof.Machine

/-- A step answers a next state. -/
def Runs (s : State) : Prop := ∃ t, step s = .next t

/-- Every waiting command names parts that exist. -/
def State.queueOk (s : State) : Bool := s.pending.all wellFormed

/-- R235: the sequencer of a flight hands the word of a context to its unit, and R377 leaves the unit something to do. -/
def Issues (s : State) (f : FlightId) (is : Nat → Bool) (c : OpCtx) : Prop :=
  flightOk f = true ∧ s.turn (flightKey f) is = .go c ∧ c.empty = false

/-- R119: every lane's residue agrees with its sum. -/
def Contrib.sound (c : Contrib) : Bool := c.res == c.sums.map res7

/-- R103, R120: every accumulator word of every tile of a flight agrees with its RES. -/
def FlightSt.sound (y : FlightSt) : Bool := y.tiles.all (fun t => t.2.sound)

/-- The parts of the state outside the halls, the dictionary and what an error record reaches (log, Newel, the CXL port, messages, free values) are the
same. -/
def SameBeyondHalls (s t : State) : Prop :=
  t.pending = s.pending ∧ t.epoch = s.epoch ∧ t.mode = s.mode ∧ t.trans = s.trans ∧ t.eop = s.eop ∧ t.mem = s.mem ∧ t.xlate = s.xlate ∧
  t.arcade = s.arcade ∧ t.foyer = s.foyer ∧ t.power = s.power ∧ t.start = s.start ∧ t.test = s.test

/-- The flights other than one are the same. -/
def SameOtherFlights (k : Nat) (s t : State) : Prop := ∀ j, j ≠ k → t.flight j = s.flight j

/-- The collective of a kind as a command: 0 BROADCAST, 1 ALL_GATHER, 2 REDUCE_SCATTER, 3 ALL_REDUCE, 4 ALL_TO_ALL (R422). -/
def collCommand (kind : Nat) (f : FlightId) : Instr :=
  match kind with
  | 0 => .broadcast f
  | 1 => .allGather f
  | 2 => .reduceScatter f
  | 3 => .allReduce f
  | _ => .allToAll f

/-- R422: a collective of a kind stands: its group and buffers, its shape, and the same shape in the participants that have issued. -/
def CollStands (s : State) (c : OpCtx) (kind : Nat) (g : GroupE) (src dst : Buf) : Prop :=
  c.prog.img.groups[bits c.word 107 104]? = some g ∧ s.resolve c.since (hallLanding c.hall) (bits c.word 103 96) = some src ∧
  s.resolve c.since (hallLanding c.hall) (bits c.word 95 88) = some dst ∧
  collShapeBad kind (bits c.word 71 56 + 1) (max 1 g.members) src dst = false ∧ src.view ≠ 2 ∧ dst.writable = true ∧
  (∀ k < bits c.word 71 56 + 1, src.rowOk (bits c.word 87 72) k = true) ∧
  (∀ k < collDstRows kind (bits c.word 71 56 + 1) (max 1 g.members), dst.rowOk 0 k = true) ∧
  (∀ x, s.collOf c.job g.gallery (kget 0 ((c.fk * 4 + c.slot) * 16 + bits c.word 107 104) s.serve.collCount) = some x →
    x.kind = kind ∧ x.rows = bits c.word 71 56 + 1 ∧ x.fmt = src.fmt ∧ x.channels = src.channels)

/-- R409: the row of a frame type other than HELLO and the two OD types. -/
def frameCommand (ftype : Nat) (f : Frame) : Instr :=
  match ftype with
  | 0x04 => .barrierArrive f
  | 0x05 => .barrierRelease f
  | 0x06 => .jobStop f
  | 0x07 => .election f
  | 0x08 => .syncEpoch f
  | 0x10 => .sendData f
  | 0x11 => .collData f
  | 0x20 => .manifest f
  | 0x21 => .exchRows f
  | 0x22 => .returnManifest f
  | 0x23 => .returnRows f
  | 0x30 => .moveData ⟨f, []⟩
  | _ => .moveConfirm f

/-- The frame types of `frameCommand`. -/
def frameTypes : List Nat := [0x04, 0x05, 0x06, 0x07, 0x08, 0x10, 0x11, 0x20, 0x21, 0x22, 0x23, 0x30, 0x31]

/-- A frame of a type reaches this module on an arch that carries frames: its channel is right and its payload no longer than R410 and R412 allow. -/
def Arrives (s : State) (t : Nat) (f : Frame) : Prop :=
  archOk f.arch = true ∧ (s.arch f.arch).up = true ∧ frameVc t = some f.vc ∧ f.payload.length ≤ 16400

/-- The arches other than one are the same. -/
def SameOtherArches (n : Nat) (s t : State) : Prop := ∀ k, k ≠ n → t.arch k = s.arch k

/-- Halls, memory, the CXL port, translation, serving, the Foyer, Newel, clocks and tests are the same. -/
def SameBeyondArcade (s t : State) : Prop :=
  t.pending = s.pending ∧ t.mode = s.mode ∧ t.trans = s.trans ∧ t.halls = s.halls ∧ t.mem = s.mem ∧ t.cxl = s.cxl ∧ t.xlate = s.xlate ∧
  t.serve = s.serve ∧ t.foyer = s.foyer ∧ t.newel = s.newel ∧ t.power = s.power ∧ t.start = s.start ∧ t.test = s.test

/-- R36, R42, R46, R571: a write to an entry that reaches it here and passes checks 1 to 4; `via` is the path whose role counts, the manager's where the gallery path
passed this module's own galleries. -/
def ReachesEntry (s : State) (w : OdW) (via : Via) (k : Nat) : Prop :=
  s.mode ≠ .off ∧ s.newel.restarting = false ∧ s.newel.recovery = false ∧
  (∃ level, s.target w.path = .here none false level ∧ via = w.via ∨
    s.target w.path = .here none true level ∧ via = .arcade ∧ s.mayWrite (roleOf w.via) (k / 256) = true) ∧
  s.mayWrite (roleOf via) (k / 256) = true ∧ ∃ row, s.entryRow (roleOf via) k = some row ∧ row.writable = true ∧ s.rwsOk row = true

/-- R42, R571: such a write of a fixed-size entry, with a value of its size and in its range (checks 5 and 6). -/
def ReachesScalar (s : State) (w : OdW) (via : Via) (k : Nat) : Prop :=
  ReachesEntry s w via k ∧ (odRow k).bind (fun r => r.ty.size) = some w.value.length ∧ s.valueOk k (writtenValue k (leNat w.value)) = true

/-- R43, R45, R570: such a write of a DOMAIN entry as a whole: its length is accepted, no other write of it is open, and a transfer is free. -/
def ReachesDomain (s : State) (w : OdW) (via : Via) (k : Nat) : Prop :=
  ReachesEntry s w via k ∧ (odRow k).map (·.ty) = some .domain ∧ domLenOk k w.value.length = true ∧ s.startOk k = true ∧
  (∀ t ∈ s.od.transfers, t.key = k → t.isWrite = false) ∧ s.od.transfers.length < transferMax

/-- R36, R52: a write commits: the state is r, OD_WRITE_SEQ is one higher, and the answer is status 0 with it. -/
def Commits (s : State) (c : Instr) (via : Via) (r : State) : Prop :=
  exec c s = .next ((r.count Od.odWriteSeq 1).emit (.od (.via via) 0 ((r.count Od.odWriteSeq 1).odGet Od.odWriteSeq) []))

/-- R36, R52: an access is answered with a code: nothing commits, and OD_WRITE_SEQ stays. -/
def Denied (s : State) (c : Instr) (via : Via) (code : Nat) : Prop :=
  exec c s = .next (s.emit (.od (.via via) code (s.odGet Od.odWriteSeq) []))

/-- R50: the row of a dictionary operation over the mailbox, in the order of R50. -/
def mailboxCommand (op : Nat) (q : MbReq) : Instr :=
  match op with
  | 0 => .odRead q
  | 1 => .odWrite q
  | 2 => .odDomainReadStart q
  | 3 => .odDomainWriteStart q
  | 4 => .odDomainSegment q
  | _ => .odDomainAbort q

/-- R56: the row of the same operation over EOP. -/
def eopCommand (op : Nat) (d : Datagram) : Instr :=
  match op with
  | 0 => .eopRead d
  | 1 => .eopWrite d
  | 2 => .eopDomainReadStart d
  | 3 => .eopDomainWriteStart d
  | 4 => .eopDomainSegment d
  | _ => .eopDomainAbort d

/-- R55, R59: an EOP request of a form that the module serves, with no other waiting, passes the checks of signature, time and replay. -/
def EopPasses (s : State) (d : Datagram) : Prop :=
  portOk d.port = true ∧ s.eop.queue = [] ∧ s.eopArrives d = true ∧ s.eopServed = true ∧ eopFormOk d.payload = true ∧
  s.eopAuthOk (eopHdr d.payload) d.sigOk = true ∧ s.eopFresh (eopHdr d.payload) = true ∧
  s.eopSeqOk (eopHdr d.payload).key (eopHdr d.payload).seq = true

/-- R60, R61: the state once such a request has passed: its sequence is accepted, and it is counted. -/
def State.eopTaken (s : State) (d : Datagram) : State :=
  (s.eopAccept (eopHdr d.payload).key (eopHdr d.payload).seq).count Od.eopAccepted 1

/-- R57: the entry that an EOP request names. -/
def eopKey (d : Datagram) : Nat := beField (eopPayload d.payload) 0 2 * 256 + beField (eopPayload d.payload) 2 1

/-- R50, R51, R53: a mailbox request is served: the port carries CXL.io, Newel runs, the opcode is that of the row, and the payload holds what its header says. -/
def MailboxServes (s : State) (opcode : Nat) (q : MbReq) : Prop :=
  (s.cxl.linkUp || s.cxl.pcieOnly) = true ∧ s.newel.restarting = false ∧ q.opcode = opcode ∧ 16 ≤ q.payload.length ∧ q.length = q.body.length

/-- R54: an OD request frame of the manager reaches this module, with an opcode of R50 and the payload that its header says. -/
def ManagerAsks (s : State) (f : Frame) (q : MbReq) : Prop :=
  archOk f.arch = true ∧ (s.arch f.arch).up = true ∧ f.vc = 0 ∧ q.payload.length ≤ 16400 ∧ s.mine f.dest = true ∧ s.newel.restarting = false ∧
  s.odManager = some f.src ∧ s.mine f.src = false ∧ 16 ≤ q.payload.length ∧ q.length = q.body.length

/-- R50, R54, R56: command c makes access a, over the mailbox, the Arcade or EOP; `r` is the state in which the module executes it. -/
def Brings (s r : State) (c : Instr) (a : Access) : Prop :=
  a.op ≤ 5 ∧ s.newel.recovery = false ∧
  ((∃ q, MailboxServes s (0xC000 + a.op) q ∧ c = mailboxCommand a.op q ∧ r = s ∧
      a = ⟨.mailbox, 0, .mailbox, a.op, q.path, q.index * 256 + q.sub, q.body, .plain, segmentMax .mailbox, 2⟩) ∨
   (∃ f q, ManagerAsks s f q ∧ q.opcode = 0xC000 + a.op ∧ c = .odRequest f q.opcode q.payload ∧ r = s ∧
      a = ⟨.arcade, f.arch, .arcade f.src f.tag q.opcode, a.op, q.path, q.index * 256 + q.sub, q.body, .plain, segmentMax .arcade, 2⟩) ∨
   (∃ d, EopPasses s d ∧ (eopHdr d.payload).op = a.op + 1 ∧ c = eopCommand a.op d ∧ r = s.eopTaken d ∧
      a = ⟨.eop, d.port, .eop d.srcAddr d.srcPort (a.op + 1) (eopHdr d.payload).seq (eopHdr d.payload).path, a.op, (eopHdr d.payload).path, eopKey d,
        eopBody (eopHdr d.payload) (eopKey d) ((eopPayload d.payload).drop 4), .plain, segmentMax .eop, 2⟩))

/-- R571: such an access names an entry of this module, at a level of its hierarchy. -/
def BringsHere (s r : State) (c : Instr) (a : Access) (level : Nat) : Prop := Brings s r c a ∧ r.target a.path = .here none false level

/-- R571, checks 1 to 3 of a read. -/
def MayReadEntry (r : State) (a : Access) (row : OdRow) : Prop :=
  r.entryRow (roleOf a.via) a.key = some row ∧ row.readable = true ∧ mayRead (roleOf a.via) (a.key / 256) = true

/-- R571, checks 1 to 4 of a write. -/
def MayWriteEntry (r : State) (a : Access) (row : OdRow) : Prop :=
  r.entryRow (roleOf a.via) a.key = some row ∧ row.writable = true ∧ r.mayWrite (roleOf a.via) (a.key / 256) = true ∧ r.rwsOk row = true

/-- R52: command c is answered, in state x, with a status and the bytes after it. -/
def Answers (s x : State) (c : Instr) (a : Access) (status : Nat) (b : Bytes) : Prop :=
  exec c s = .next (x.respond a.origin a.op a.key status (x.odGet Od.odWriteSeq) b)

/-- R470: the row of a message type; `sig` is the verdict on an EOP request's signature. -/
def balCommand (typ : Nat) (m : BalMsg) (sig : Bool) : Instr :=
  match typ with
  | 0x01 => .telemetry m
  | 0x81 => .recommend m
  | 0x02 => .eopReq m sig
  | 0x82 => .eopResp m
  | 0x03 => .timeReport m
  | 0x04 => .foyerEvent m
  | 0x83 => .mapUpdate m
  | 0x84 => .config m
  | 0x85 => .timeSet m
  | 0x86 => .firmware m
  | _ => .heartbeat m

/-- R470: the message types of `balCommand`. -/
def balTypes : List Nat := [0x01, 0x81, 0x02, 0x82, 0x03, 0x04, 0x83, 0x84, 0x85, 0x86, 0x05]

end Sys2Proof.Machine
end

