-- ==== Sys2Proof/Certificates/Slice0/Obligations.lean ====
section
/-!
DEFINITION. Obligations.lean: the statements for the provers.
-/

open Sys2Proof Sys2Proof.Machine

/-- For every command c and state s, a step of s with c at the front of its queue is exec of c on s with the rest of the queue. That waiting commands are
taken first in, first out is the block's frame (log entry 1). -/
def Obligations.StepRunsFrontCommand : Prop :=
  ∀ (c : Instr) (rest : List Instr) (s : State), s.pending = c :: rest → step s = exec c { s with pending := rest }

/-- With no command waiting a step answers a next state: outside Off, with no adjustment of the Epoch Counter under way, the counter is one higher (it wraps at 64
bits); the halls and device memory stay as they were. That a tick is what an empty queue does is the model's choice (log entry 1). -/
def Obligations.StepOnEmptyQueueTicks : Prop :=
  ∀ s : State, s.pending = [] → ∃ t, step s = .next t ∧ t.mem = s.mem ∧ t.halls = s.halls ∧ (s.mode = .off → t = s) ∧
    (s.mode ≠ .off → s.arcade.slew = 0 → t.epoch = (s.epoch + 1) % 2 ^ 64)

/-- In Run, on a flight that is not fenced, a running program whose next word is of the kind asked for, is not poisoned, has its pre-emption point behind it,
its counters as WAIT and SIGNAL ask and room in its unit, and reads no open section, issues that word as R233 and R377 leave it; where the word may not
issue, the flight waits. A word that lies in poisoned memory is refused with 0x3075 instead, whatever row of the table asks for it. -/
def Obligations.TurnIssuesNextWord : Prop :=
  ∀ (s : State) (fk sl w : Nat) (is : Nat → Bool) (p : Prog),
    s.mode = .run → s.fenced fk = false → (s.flight fk).current = some sl → s.progAt fk sl = some p → p.mode = .running →
    p.pc < p.img.ops.length → is (p.img.ops.getD p.pc 0) = true →
    (s.memPoisoned (p.img.opsAt + 16 * p.pc) 16 = true → s.turn fk is = .stop p.slot 0x3075 p.pc) ∧
    (s.memPoisoned (p.img.opsAt + 16 * p.pc) 16 = false → p.next = .ok w →
    s.turn fk is =
      if p.mayIssue w = true ∧ s.sectionOpen fk p w = false then .go ⟨fk, p, (s.trim fk p w).1, (s.trim fk p w).2⟩ else .wait)

/-- An operation that ends at once moves its program to the next word as R233 gives it; one that runs until OPERATION_END also joins the issued operations,
takes the next number, and raises the counter it signals. Programs in other slots, other flights, landings, device memory and every part of the state
outside the halls and the dictionary stay as they were. -/
def Obligations.OperationAdvancesItsProgram : Prop :=
  ∀ (s : State) (c : OpCtx),
    (s.opDone c).progAt c.fk c.slot = (s.progAt c.fk c.slot).map Prog.advance ∧
    (s.opOpen c).progAt c.fk c.slot = (s.progAt c.fk c.slot).map (fun p =>
      { p.advance with
        issued := p.issued ++ [⟨p.nextOp, opOf c.word, opSig c.word, p.pc⟩], nextOp := p.nextOp + 1,
        counters := match opSig c.word with | some k => p.counters.set k (p.counter k + 1) | none => p.counters }) ∧
    (s.opDone c).odGet Od.opsIssued = (s.odGet Od.opsIssued + 1) % 2 ^ 64 ∧ (s.opOpen c).odGet Od.opsIssued = (s.odGet Od.opsIssued + 1) % 2 ^ 64 ∧
    (∀ sl, sl ≠ c.slot → (s.opDone c).progAt c.fk sl = s.progAt c.fk sl ∧ (s.opOpen c).progAt c.fk sl = s.progAt c.fk sl) ∧
    SameOtherFlights c.fk s (s.opDone c) ∧ SameOtherFlights c.fk s (s.opOpen c) ∧
    SameBeyondHalls s (s.opDone c) ∧ SameBeyondHalls s (s.opOpen c) ∧
    (∀ l, (s.opDone c).landing l = s.landing l ∧ (s.opOpen c).landing l = s.landing l) ∧
    (∀ a, (s.opDone c).memByte a = s.memByte a ∧ (s.opOpen c).memByte a = s.memByte a) ∧
    (∀ k, k ≠ Od.opsIssued → (s.opDone c).odGet k = s.odGet k ∧ (s.opOpen c).odGet k = s.odGet k)

/-- The word after the next one: without a REPEAT, the one that follows; inside its body, the one that follows; at the end of the body, its first word
while iterations are left, and the word after the body once they are not. -/
def Obligations.AdvanceFollowsRepeat : Prop :=
  ∀ (p : Prog),
    (p.rep = none → p.advance.pc = p.pc + 1 ∧ p.advance.rep = none) ∧
    (∀ r, p.rep = some r →
      (p.pc + 1 < r.first + bits r.word 95 90 → p.advance.pc = p.pc + 1 ∧ p.advance.rep = some r) ∧
      (r.first + bits r.word 95 90 ≤ p.pc + 1 → r.iter + 1 < bits r.word 111 96 →
        p.advance.pc = r.first ∧ p.advance.rep = some { r with iter := r.iter + 1 }) ∧
      (r.first + bits r.word 95 90 ≤ p.pc + 1 → bits r.word 111 96 ≤ r.iter + 1 → p.advance.pc = p.pc + 1 ∧ p.advance.rep = none)) ∧
    p.advance.ppDone = false ∧ p.advance.issued = p.issued ∧ p.advance.counters = p.counters

/-- NOP goes on to the next word. WAIT does, once every counter named in its mask is zero, and waits otherwise. REPEAT enters its body at iteration 0. END,
once every issued operation has ended and every counter is zero, leaves the flight without a running program, and where no program of the job is then at work, the step that stands open for it is dropped. OPERATION_END takes an issued operation that
is no barrier and waits for no partner out of the issued ones, and its counter falls by one. -/
def Obligations.ControlWordsComplete : Prop :=
  (∀ f s c, Issues s f (isOp 0x00) c → exec (.nop f) s = .next (s.opDone c)) ∧
  (∀ f s c, Issues s f (isOp 0x03) c → (∀ k < 8, bit (bits c.word 111 104) k = true → c.prog.counter k = 0) →
    exec (.waitOp f) s = .next (s.opDone c)) ∧
  (∀ f s c k, Issues s f (isOp 0x03) c → k < 8 → bit (bits c.word 111 104) k = true → c.prog.counter k ≠ 0 → exec (.waitOp f) s = .next s) ∧
  (∀ f s c, Issues s f (isOp 0x02) c → ∃ t, exec (.repeatOp f) s = .next t ∧
    t.progAt c.fk c.slot = (s.progAt c.fk c.slot).map (fun p => { p with pc := p.pc + 1, rep := some ⟨p.pc + 1, 0, c.word⟩, ppDone := false }) ∧
    SameOtherFlights c.fk s t ∧ SameBeyondHalls s t ∧ ∀ l, t.landing l = s.landing l) ∧
  (∀ f s c, Issues s f (isOp 0x01) c → c.prog.quiet = true → ∃ r : State,
    (exec (.endOp f) s = .next r ∨ exec (.endOp f) s = .next (r.dropStep c.job).takeIdleCancels) ∧ (s.openStepOf c.job = none → exec (.endOp f) s = .next r) ∧
    (r.flight c.fk).current = none ∧ (c.prog.img.resident = false → r.progAt c.fk c.slot = none) ∧ r.mem = s.mem) ∧
  (∀ f s op sl p x, flightOk f = true → (s.flight (flightKey f)).current = some sl → s.progAt (flightKey f) sl = some p →
    p.issued.find? (fun y => y.id == op) = some x → x.op ≠ 0x08 → x.op ≠ 0x09 → s.opWaits (flightKey f) p.slot op = false →
    ∃ t, exec (.operationEnd f op) s = .next t ∧
      t.progAt (flightKey f) sl = some { p with
        issued := p.issued.filter (fun y => y.id != op)
        counters := match x.sig with | some k => p.counters.set k (p.counters.getD k 0 - 1) | none => p.counters } ∧
      SameOtherFlights (flightKey f) s t ∧ SameBeyondHalls s t)

/-- A resident program that starts runs from word 0 with no REPEAT, every completion counter zero, nothing issued, no barrier used and no resume record; it is
the program that runs on its flight; the task takes the next number, from which R217's undefined units are told apart; every tile, token and outlier record of the flight is as if never written
(R101, R104, R132); and the flight's planes and its other programs are as they were. -/
def Obligations.TaskStartBeginsAtWordZero : Prop :=
  ∀ (s : State) (fk slot cls : Nat) (p : Prog), s.progAt fk slot = some p →
    ∃ q, (s.startTask fk slot cls).progAt fk slot = some q ∧ q.img = p.img ∧ q.mode = .running ∧ q.cls = cls ∧ q.pc = 0 ∧ q.rep = none ∧
      q.counters = List.replicate 8 0 ∧ q.issued = [] ∧ q.bars = [] ∧ q.resume = none ∧ q.lastPass = [] ∧ q.since = s.halls.tasks + 1 ∧
      (s.startTask fk slot cls).halls.tasks = s.halls.tasks + 1 ∧ ((s.startTask fk slot cls).flight fk).current = some slot ∧
      ((s.startTask fk slot cls).flight fk).tiles = [] ∧ ((s.startTask fk slot cls).flight fk).tokens = [] ∧
      ((s.startTask fk slot cls).flight fk).tokHeads = [] ∧ ((s.startTask fk slot cls).flight fk).outliers = [] ∧ ((s.startTask fk slot cls).flight fk).active = (s.flight fk).active ∧
      (∀ sl, sl ≠ slot → (s.startTask fk slot cls).progAt fk sl = s.progAt fk sl) ∧ (s.startTask fk slot cls).mem = s.mem

/-- An image that passes every check of R249 joins the flight's programs, idle, in its lowest free slot; one that fails leaves every flight as it was and is
counted with its code and word. A start of an idle program in Run on an idle flight that is not fenced, for a job that waits for no episode, begins its task,
opens its step and writes its maps; a resume does the same from the resume record. At an offer, the program goes on where no work of a higher class waits,
and otherwise is suspended and the flight is given on. -/
def Obligations.ProgramsLoadStartResumeAndYield : Prop :=
  (∀ f addr len s i, flightOk f = true → s.hallsUp = true → s.fenced (flightKey f) = false →
    s.loadCheck (flightKey f) (s.memBytes addr len) addr = .ok i →
    ∃ t p, exec (.programLoad f addr len) s = .next t ∧ (t.flight (flightKey f)).progs = (s.flight (flightKey f)).progs ++ [p] ∧ p.img = i ∧
      p.mode = .idle ∧ p.slot = (s.flight (flightKey f)).freeSlot ∧ p.addr = addr ∧ SameOtherFlights (flightKey f) s t ∧ t.mem = s.mem) ∧
  (∀ f addr len s c w, flightOk f = true → s.hallsUp = true → s.fenced (flightKey f) = false →
    s.loadCheck (flightKey f) (s.memBytes addr len) addr = .error (c, w) →
    ∃ t, exec (.programLoad f addr len) s = .next t ∧ t.halls = s.halls ∧ t.mem = s.mem ∧ t.odGet Od.lastRefusal = c ∧
      t.odGet Od.lastRefusalWord = w ∧ t.odGet Od.loadRefusals = (s.odGet Od.loadRefusals + 1) % odModulus Od.loadRefusals) ∧
  (∀ f slot s p, flightOk f = true → s.mayStart (flightKey f) slot .idle = true → s.progAt (flightKey f) slot = some p →
    ∃ cls key, exec (.programStart f slot) s = .next
      ((((s.startTask (flightKey f) slot 3).openStep p.img.job).writeMaps p.img.job).modProg (flightKey f) slot (fun q => { q with cls := cls, key := key }))) ∧
  (∀ f slot s p, flightOk f = true → s.mayStart (flightKey f) slot .suspended = true → s.progAt (flightKey f) slot = some p →
    ∃ r : State, exec (.programResume f slot) s = .next ((r.openStep p.img.job).writeMaps p.img.job) ∧
      r.progAt (flightKey f) slot = some { p.atResume with mode := .running, ppDone := true } ∧ (r.flight (flightKey f)).current = some slot ∧
      (r.flight (flightKey f)).tiles = (s.flight (flightKey f)).tiles ∧ (r.flight (flightKey f)).active = [] ∧ SameBeyondHalls s r ∧ r.serve = s.serve) ∧
  (∀ f sl s p, flightOk f = true → (s.flight (flightKey f)).current = some sl → s.progAt (flightKey f) sl = some p → p.mode = .offered →
    s.higherWaits (flightKey f) p = false →
    ∃ t, exec (.flightOffer f) s = .next t ∧ t.progAt (flightKey f) sl = some { p with mode := .running, ppDone := true } ∧
      SameOtherFlights (flightKey f) s t ∧ SameBeyondHalls s t) ∧
  (∀ f sl s p, flightOk f = true → (s.flight (flightKey f)).current = some sl → s.progAt (flightKey f) sl = some p → p.mode = .offered →
    s.higherWaits (flightKey f) p = true →
    ∃ r : State, exec (.flightOffer f) s = .next (r.giveFlight (flightKey f)) ∧ r.progAt (flightKey f) sl = some { p with mode := .suspended, key := s.runKey p } ∧
      (r.flight (flightKey f)).current = none ∧ r.odGet Od.suspensions = (s.odGet Od.suspensions + 1) % odModulus Od.suspensions)

/-- At a word with PP, or at STEP, whose point has not been passed, in a program that is not of fixed latency and whose operations have ended, the program goes on
where a tile of the flight is VALID (the point lies off a tile boundary, R123); otherwise the point is taken: the resume record holds the word, the REPEAT and the barrier uses; planes, token store, outlier store and foot tables are undefined from then on; the
program goes on past the point, is offered, or is suspended. -/
def Obligations.PreemptionPointWritesResumeRecord : Prop :=
  ∀ (f : FlightId) (s : State) (p : Prog), flightOk f = true → s.runningProg (flightKey f) = some p →
    (opPP (p.img.ops.getD p.pc 0) = true ∨ opOf (p.img.ops.getD p.pc 0) = 0x09) → p.ppDone = false → p.quiet = true → p.img.fixedLat = false →
    ((s.flight (flightKey f)).atBoundary = false →
      exec (.preemptionPoint f) s = .next (s.modProg (flightKey f) p.slot (fun q => { q with ppDone := true }))) ∧
    ((s.flight (flightKey f)).atBoundary = true → ∃ t q, exec (.preemptionPoint f) s = .next t ∧ t.progAt (flightKey f) p.slot = some q ∧ q.resume = some ⟨p.pc, p.rep, p.bars⟩ ∧
      q.img = p.img ∧ q.pc = p.pc ∧ (q.mode = .running ∧ q.ppDone = true ∨ q.mode = .offered ∧ q.ppDone = false ∨ q.mode = .suspended) ∧
      (t.flight (flightKey f)).active = [] ∧ (t.flight (flightKey f)).staged = [] ∧ (t.flight (flightKey f)).tokens = [] ∧
      (t.flight (flightKey f)).outliers = [] ∧ (t.flight (flightKey f)).tables = [] ∧ (t.flight (flightKey f)).tiles = (s.flight (flightKey f)).tiles)

/-- BARRIER and STEP issue, and their program then waits at the barrier that its table entry, its use count and, for SCOPE 1, its hall name, among the arrived ones, with the use count
one higher; what the arrival completes follows. A barrier that does not release in time stops every arrived program, and then the job, with 0x3073: what ends a job leaves
none of its programs, barriers, transfers, collectives or exchanges in the module (the flights being a map without a key twice, as every write leaves it). -/
def Obligations.BarriersGatherAndTimeOut : Prop :=
  (∀ f s c e, Issues s f (isOp 0x08) c → c.prog.img.barriers[bits c.word 111 108]? = some e →
    ∃ (r : State) (b : BarrierSt), exec (.barrier f) s = .next (r.checkBarrier b) ∧ b.job = c.job ∧ b.bid = bits c.word 111 108 ∧ b.use = kget 0 b.bid c.prog.bars ∧
      b.hall = (if e.scope = 1 then some c.hall else none) ∧ c.fk * 4 + c.slot ∈ b.arrived ∧ r.barrierOf b.job b.bid b.use b.hall = some b ∧
      (r.progAt c.fk c.slot).map (fun p => (p.mode, p.pc, p.bars)) = some (.atBarrier, c.prog.advance.pc, kset 0 b.bid (b.use + 1) c.prog.bars) ∧
      SameOtherFlights c.fk s r ∧ SameBeyondHalls s r) ∧
  (∀ f s c e, Issues s f (isOp 0x09) c → c.prog.img.barriers[bits c.word 111 108]? = some e →
    ∃ (r : State) (b : BarrierSt), exec (.stepOp f) s = .next (r.checkBarrier b) ∧ b.job = c.job ∧ b.bid = bits c.word 111 108 ∧ b.use = kget 0 b.bid c.prog.bars ∧
      b.hall = (if e.scope = 1 then some c.hall else none) ∧ c.fk * 4 + c.slot ∈ b.arrived ∧ r.barrierOf b.job b.bid b.use b.hall = some b ∧
      (r.progAt c.fk c.slot).map (fun p => (p.mode, p.pc, p.bars)) = some (.atBarrier, c.prog.advance.pc, kset 0 b.bid (b.use + 1) c.prog.bars) ∧
      SameOtherFlights c.fk s r ∧ SameBeyondHalls s r) ∧
  (∀ job bid use hall s b, s.barrierOf job bid use hall = some b → exec (.barrierTimeout job bid ⟨use, hall⟩) s = .next
    ((b.arrived.foldl (fun s a => match s.progAt (a / 4) (a % 4) with
      | some p => s.stopProg (a / 4) (a % 4) 0x3073 p.barrierWord
      | none => s) s).stopRest b.job 0x3073)) ∧
  (∀ (job : Nat) (s : State), kSorted s.halls.flights = true → (s.clearJob job).jobProgs job = [] ∧ (∀ b ∈ (s.clearJob job).halls.barriers, b.job ≠ job) ∧
    (∀ m ∈ (s.clearJob job).serve.moves, m.job ≠ job) ∧ (∀ x ∈ (s.clearJob job).serve.colls, x.job ≠ job) ∧
    (∀ e ∈ (s.clearJob job).serve.exchanges, e.job ≠ job))

/-- When the second fetch of a block that a waiting pass asked for ends, the pass no longer waits for it: a block that now passes its check is counted as
recovered, and one that does not is delivered poisoned (unless the Fault is the fifth open episode, which leads to Safe Stop). -/
def Obligations.SecondFetchResolvesBlock : Prop :=
  ∀ (f : FlightId) (block : Nat) (ok : Bool) (s : State) (p : Prog) (w : Nat) (x : Arrays), flightOk f = true →
    s.runningProg (flightKey f) = some p → p.next = .ok w → (s.flight (flightKey f)).refetch.contains block = true →
    s.arraysOf ⟨flightKey f, p, w, false⟩ (bits w 111 107) = .ok x →
    ∃ t, exec (.blockRefetchDone f block ok) s = .next t ∧
      (((s.fetchBlock (flightKey f / 20) p.img.tenant x block).good && ok) = true → t.mode = .run) ∧
      (t.mode = .run → (t.flight (flightKey f)).refetch.contains block = false ∧
        (t.flight (flightKey f)).resolved.getLast? = some (block, (s.fetchBlock (flightKey f / 20) p.img.tenant x block).good && ok) ∧
        (t.flight (flightKey f)).tiles = (s.flight (flightKey f)).tiles)

/-- A PASS whose target lies in the flight, whose operands and mask resolve, and whose tile is released or holds the operands' format brings one row per item
and window to the tile: with HOLD the active plane serves again, and otherwise the plane that its weight blocks spell becomes the active one. The operation is then issued. No upset strikes here, no read meets a bit error, and the tile's accumulator words agree with their residues, as they do afterwards. Tiles other than
the target keep their contents, as do other flights, landings and, with HOLD, device memory. The check of a promotion into a word that agrees with its residue passes the lane's own sum, and
fails every sum that differs from it by an amount that 7 does not divide. -/
def Obligations.DensePassAccumulates : Prop :=
  (∀ (w : AccWord) (n d : Int) (k : Nat), w.good = true → (w.plus n (res7 n) k).2 = true ∧ (d % 7 ≠ 0 → (w.plus (n + d) (res7 n) k).2 = false)) ∧
  ∀ (f : FlightId) (hw : PassHw) (s : State) (c : OpCtx) (fmt : Nat) (items0 : List (List Elem)) (m : Option (Buf × Nat)),
    Issues s f (isOp 0x10) c → c.badTarget (bits c.word 43 28) (bits c.word 49 44 + 1) = none →
    s.streamed c (bits c.word 81 74) (bits c.word 73 58) (bits c.word 49 44 + 1) (bits c.word 57 50 * c.T) (bits c.word 57 50) = .ok (fmt, items0) →
    s.passMask c c.word (bits c.word 49 44 + 1) = .ok m → hw.foot = ⟨[], []⟩ → hw.errs = [] →
    ((s.flight c.fk).tile (tgtTile (bits c.word 43 28))).sound = true →
    (((s.flight c.fk).tile (tgtTile (bits c.word 43 28))).valid = true → ((s.flight c.fk).tile (tgtTile (bits c.word 43 28))).fmt = fmt) →
    (bit c.word 82 = true ∨ ∃ s1 planes, s.loadPlanes c (bits c.word 111 107) [bits c.word 106 83] hw false = .ok s1 planes) →
    ∃ (r : State) (cs : List Contrib) (clamp poison : Bool), exec (.passOp f hw) s = .next (r.opOpen c) ∧
      ((r.flight c.fk).tile (tgtTile (bits c.word 43 28))).sums =
        (((s.flight c.fk).tile (tgtTile (bits c.word 43 28))).accum c.W fmt clamp poison ⟨[], [], none⟩ cs).1.sums ∧
      ((r.flight c.fk).tile (tgtTile (bits c.word 43 28))).fmt = fmt ∧ ((r.flight c.fk).tile (tgtTile (bits c.word 43 28))).valid = true ∧
      ((r.flight c.fk).tile (tgtTile (bits c.word 43 28))).sound = true ∧
      (∀ x ∈ cs, tgtRow (bits c.word 43 28) ≤ x.row ∧ x.row ≤ tgtRow (bits c.word 43 28) + bits c.word 49 44 ∧ x.lane = 0) ∧
      (∀ i, i ≠ tgtTile (bits c.word 43 28) → (r.flight c.fk).tile i = (s.flight c.fk).tile i) ∧ SameOtherFlights c.fk s r ∧
      (bit c.word 82 = true → (r.flight c.fk).active = (s.flight c.fk).active ∧ r.mem = s.mem ∧ (∀ l, r.landing l = s.landing l) ∧
        cs = (Operands.of (spreadFor c.g fmt) ((items0.zip (List.range (bits c.word 49 44 + 1))).map (fun p =>
          (p.1.zip (List.range c.T)).map (fun e => e.1.under (s.maskBit m p.2 (bits c.word 57 50 * c.T + e.2)))))).contribs c.W (s.activeRows c)
            (tgtRow (bits c.word 43 28)))

/-- A retained PASS whose operands have another format than its VALID tile stops its program with 0x3020 at its word; nothing is accumulated. -/
def Obligations.PassOfAnotherFormatStops : Prop :=
  ∀ (f : FlightId) (hw : PassHw) (s : State) (c : OpCtx) (fmt : Nat) (items0 : List (List Elem)) (m : Option (Buf × Nat)),
    Issues s f (isOp 0x10) c → c.badTarget (bits c.word 43 28) (bits c.word 49 44 + 1) = none → bit c.word 82 = true →
    s.streamed c (bits c.word 81 74) (bits c.word 73 58) (bits c.word 49 44 + 1) (bits c.word 57 50 * c.T) (bits c.word 57 50) = .ok (fmt, items0) →
    s.passMask c c.word (bits c.word 49 44 + 1) = .ok m → hw.foot.land = [] →
    ((s.flight c.fk).tile (tgtTile (bits c.word 43 28))).valid = true → ((s.flight c.fk).tile (tgtTile (bits c.word 43 28))).fmt ≠ fmt →
    ∃ r : State, exec (.passOp f hw) s = .next (r.refuseOp c.fk c.slot 0x3020 c.prog.pc) ∧
      (r.flight c.fk).tiles = (s.flight c.fk).tiles ∧ r.mem = s.mem

/-- SERIAL_PASS, with working widths that hold its operands and reach at most 16, enters its tile with FMT 3; OUTLIER_PASS, after a PASS to the same target and with a working
width of 16 to 24, enters the tile of the operands' format; COUNT_PASS enters its tile with FMT 4, one row per item at exponent 0. No upset strikes and no read meets a bit error. Each is then issued and counted, and leaves the
other tiles, other flights and, but for the fetch of an outlier pass's plane, device memory as they were. -/
def Obligations.SerialOutlierAndCountPassesAccumulate : Prop :=
  (∀ (f : FlightId) (hw : PassHw) (s : State) (c : OpCtx) (ab : Buf) (fmtB : Nat) (items : List (List Elem)),
    Issues s f (isOp 0x12) c → c.badTarget (bits c.word 15 0) (bits c.word 21 16 + 1) = none →
    s.need c.since c.fk (bits c.word 111 104) [1, 2] = .ok ab →
    s.streamed c (bits c.word 66 59) (bits c.word 58 43) (bits c.word 21 16 + 1) (bits c.word 42 27) (bits c.word 66 59) = .ok (fmtB, items) →
    fmtWidth ab.fmt ≤ bits c.word 71 67 → bits c.word 71 67 ≤ 16 → fmtWidth fmtB ≤ bits c.word 26 22 → bits c.word 26 22 ≤ 16 →
    hw.foot = ⟨[], []⟩ → ((s.flight c.fk).tile (tgtTile (bits c.word 15 0))).sound = true →
    (((s.flight c.fk).tile (tgtTile (bits c.word 15 0))).valid = true → ((s.flight c.fk).tile (tgtTile (bits c.word 15 0))).fmt = 3) →
    ∃ r : State, exec (.serialPass f hw) s = .next (r.opOpen c) ∧ ((r.flight c.fk).tile (tgtTile (bits c.word 15 0))).valid = true ∧
      ((r.flight c.fk).tile (tgtTile (bits c.word 15 0))).fmt = 3 ∧
      (∃ clamp poison cs, ((r.flight c.fk).tile (tgtTile (bits c.word 15 0))).sums =
        (((s.flight c.fk).tile (tgtTile (bits c.word 15 0))).accum c.W 3 clamp poison ⟨[], [], none⟩ cs).1.sums) ∧
      (∀ i, i ≠ tgtTile (bits c.word 15 0) → (r.flight c.fk).tile i = (s.flight c.fk).tile i) ∧ SameOtherFlights c.fk s r ∧ r.mem = s.mem ∧
      ∀ l, r.landing l = s.landing l) ∧
  (∀ (f : FlightId) (hw : PassHw) (s s1 : State) (c : OpCtx) (pw fmt : Nat) (m : Option (Buf × Nat)) (items : List (List Elem))
      (planes : List (List Int × Bool)),
    Issues s f (isOp 0x13) c → kfind (bits c.word 36 21) c.prog.lastPass = some pw → pw ≠ 0 → 16 ≤ bits c.word 47 43 → bits c.word 47 43 ≤ 24 →
    c.badTarget (bits c.word 36 21) (bits c.word 42 37 + 1) = none → s.passMask c pw (bits c.word 42 37 + 1) = .ok m →
    s.outItems c (bits c.word 42 37 + 1) m = .ok items → s.outFmt c pw (bits c.word 36 21) = fmt →
    s.loadPlanes c (bits c.word 111 107) [bits c.word 106 83] hw false = .ok s1 planes → hw.foot = ⟨[], []⟩ → hw.errs = [] →
    ((s.flight c.fk).tile (tgtTile (bits c.word 36 21))).sound = true →
    (((s.flight c.fk).tile (tgtTile (bits c.word 36 21))).valid = true → ((s.flight c.fk).tile (tgtTile (bits c.word 36 21))).fmt = fmt) →
    ∃ r : State, exec (.outlierPass f hw) s = .next (r.opOpen c) ∧ ((r.flight c.fk).tile (tgtTile (bits c.word 36 21))).valid = true ∧
      ((r.flight c.fk).tile (tgtTile (bits c.word 36 21))).fmt = fmt ∧
      (∃ poison cs, ((r.flight c.fk).tile (tgtTile (bits c.word 36 21))).sums =
        (((s.flight c.fk).tile (tgtTile (bits c.word 36 21))).accum c.W fmt false poison ⟨[], [], none⟩ cs).1.sums) ∧
      (r.flight c.fk).active = planeOf (planes.getD 0 ([], false)).1 ∧
      (∀ i, i ≠ tgtTile (bits c.word 36 21) → (r.flight c.fk).tile i = (s.flight c.fk).tile i) ∧ SameOtherFlights c.fk s r) ∧
  (∀ (f : FlightId) (hw : PassHw) (s : State) (c : OpCtx) (a : Buf) (x : CountIn),
    Issues s f (isOp 0x14) c → c.badTarget (bits c.word 25 10) (bits c.word 31 26 + 1) = none →
    s.need c.since c.fk (bits c.word 111 104) [4] = .ok a →
    s.countItems c (bits c.word 71 64) (bits c.word 63 48) (bits c.word 31 26 + 1) (bits c.word 47 32) = .ok x → hw.foot = ⟨[], []⟩ →
    ((s.flight c.fk).tile (tgtTile (bits c.word 25 10))).sound = true →
    (((s.flight c.fk).tile (tgtTile (bits c.word 25 10))).valid = true → ((s.flight c.fk).tile (tgtTile (bits c.word 25 10))).fmt = 4) →
    ∃ r : State, exec (.countPass f hw) s = .next (r.opOpen c) ∧ ((r.flight c.fk).tile (tgtTile (bits c.word 25 10))).valid = true ∧
      ((r.flight c.fk).tile (tgtTile (bits c.word 25 10))).fmt = 4 ∧
      (∃ poison cs, (∀ y ∈ cs, y.e = 0 ∧ y.lane = 0) ∧ ((r.flight c.fk).tile (tgtTile (bits c.word 25 10))).sums =
        (((s.flight c.fk).tile (tgtTile (bits c.word 25 10))).accum c.W 4 x.clamp poison ⟨[], [], none⟩ cs).1.sums) ∧
      (∀ i, i ≠ tgtTile (bits c.word 25 10) → (r.flight c.fk).tile i = (s.flight c.fk).tile i) ∧ SameOtherFlights c.fk s r ∧ r.mem = s.mem ∧
      ∀ l, r.landing l = s.landing l)

/-- SPARSE_PASS, without upsets or bit errors, with a span that fits the flight and tiles that are released or hold the operands' format, makes each of its output tiles VALID with that
format and is issued. PREDICT, for a predicted layer of the model and with buffers that hold what it reads and writes, writes its vector, records
which layer the vector belongs to, moves the layer's count of blocks skipped on, and is issued. -/
def Obligations.SparsePassAndPredictComplete : Prop :=
  (∀ (f : FlightId) (hw : PassHw) (s s1 : State) (c : OpCtx) (fmt : Nat) (items : List (List Elem)) (vec : List SkipInfo) (vbad : Bool)
      (planes : List (List Int × Bool)),
    Issues s f (isOp 0x11) c → spanCheck c (spanW c.word) = none → s.spanItems c (spanW c.word) = .ok (fmt, items) →
    s.spanVector c (spanW c.word) = .ok (vec, vbad) → s.loadPlanes c (bits c.word 111 107) (spanW c.word).segs hw false = .ok s1 planes →
    hw.foot = ⟨[], []⟩ → hw.errs = [] → (∀ t < (spanW c.word).fo, ((s.flight c.fk).tile (tgtTile (spanW c.word).target + t)).sound = true) →
    (∀ t < (spanW c.word).fo, ((s.flight c.fk).tile (tgtTile (spanW c.word).target + t)).valid = true →
      ((s.flight c.fk).tile (tgtTile (spanW c.word).target + t)).fmt = fmt) →
    ∃ r : State, exec (.sparsePass f hw) s = .next (r.opOpen c) ∧
      (∀ t < (spanW c.word).fo, ((r.flight c.fk).tile (tgtTile (spanW c.word).target + t)).valid = true ∧
        ((r.flight c.fk).tile (tgtTile (spanW c.word).target + t)).fmt = fmt) ∧
      (∀ i, (i < tgtTile (spanW c.word).target ∨ tgtTile (spanW c.word).target + (spanW c.word).fo ≤ i) →
        (r.flight c.fk).tile i = (s.flight c.fk).tile i) ∧ SameOtherFlights c.fk s r) ∧
  (∀ (f : FlightId) (s : State) (c : OpCtx) (layer : PredLayer) (planes vec par : Buf) (act : Option Buf),
    Issues s f (isOp 0x15) c → kfind (c.prog.img.model * 65536 + bits c.word 111 96) s.halls.layers = some layer →
    s.need c.since (hallLanding c.hall) (bits c.word 95 88) [4] = .ok planes → s.need c.since (hallLanding c.hall) (bits c.word 49 42) [8] = .ok vec →
    s.need c.since (hallLanding c.hall) (bits c.word 41 34) [7] = .ok par →
    (if c.g then act = none else ∃ b, act = some b ∧ s.need c.since (hallLanding c.hall) (bits c.word 87 80) [1, 2] = .ok b ∧
      (List.range (bits c.word 63 58 + 1)).all (fun q => b.rowOk (bits c.word 79 64) q) = true) →
    vec.writable = true → planes.rowOk ((bits c.word 57 50 + 1) * c.W - 1) 0 = true →
    cdiv ((bits c.word 57 50 + 1) * (c.W / 32)) 4 ≤ vec.bytesLen →
    ∃ (r : State) (l : PredLayer), exec (.predict f) s = .next (r.opOpen c) ∧ kfind (c.prog.img.model * 65536 + bits c.word 111 96) r.halls.layers = some l ∧
      layer.skipped ≤ l.skipped ∧ l.mode = layer.mode ∧ l.window = layer.window ∧
      (kfind (vec.landing * 2 ^ 20 + vec.base) r.halls.vectors).map (·.1) = some (c.prog.img.model * 65536 + bits c.word 111 96) ∧
      (∀ k, (r.flight k).tiles = (s.flight k).tiles) ∧ (∀ l', l' ≠ vec.landing → r.landing l' = s.landing l') ∧ SameBeyondHalls s r)

/-- A drain whose descriptor, scales, records, output and generator stand, and whose sums agree with their residues, is issued; with KEEP its tile stays as it was but for SAT and what an audit
notes, and without KEEP it is released, with its tag, POISON and SKIP bits gone. It writes only the landings of its output and of its records. RETAG writes the format and moves the exponent by K where the sum stays in range, its sums and POISON as they were; RELEASE releases. No other tile and no other
flight changes, and neither does device memory; only a drain writes a landing. No upset strikes here, and no landing read meets an error. -/
def Obligations.DrainRetagReleaseTiles : Prop :=
  (∀ (f : FlightId) (s : State) (c : OpCtx) (x : DrainIn),
    Issues s f (isFoot 1) c → s.drainIn c = .ok x →
    (((s.flight c.fk).tile (drainD c.desc).tile).valid = true →
      ((s.flight c.fk).tile (drainD c.desc).tile).rowsSound c.W (drainD c.desc).rowBase (drainD c.desc).rows = true) →
    ∃ r : State, exec (.drain ⟨f, ⟨[], []⟩⟩) s = .next (r.opOpen c) ∧
      ((drainD c.desc).keep = false → (r.flight c.fk).tile (drainD c.desc).tile = Tile.reset) ∧
      ((drainD c.desc).keep = true → ∃ b ms, (r.flight c.fk).tile (drainD c.desc).tile =
        { (s.flight c.fk).tile (drainD c.desc).tile with
          sat := ((s.flight c.fk).tile (drainD c.desc).tile).sat || b, drained := true, missed := ms }) ∧
      (∀ i, i ≠ (drainD c.desc).tile → (r.flight c.fk).tile i = (s.flight c.fk).tile i) ∧ SameOtherFlights c.fk s r ∧ r.mem = s.mem ∧
      (∀ l, (∀ b, x.out = some b → l ≠ b.landing ∧ l ≠ b.table) → (∀ p, x.stats = some p → l ≠ p.1.landing) → r.landing l = s.landing l)) ∧
  (∀ (f : FlightId) (s : State) (c : OpCtx) (t : Tile), Issues s f (isFoot 2) c → footCheck c.g c.desc = none →
    ((s.flight c.fk).tile (bits c.desc 59 56)).retag (bits c.desc 55 52) (toInt 8 (bits c.desc 51 44)) = .ok t →
    ∃ r : State, exec (.retag f) s = .next (r.opOpen c) ∧
      (r.flight c.fk).tile (bits c.desc 59 56) = t.note ⟨c.word, 0, [], false⟩ ∧ t.fmt = bits c.desc 55 52 ∧
      t.sums = ((s.flight c.fk).tile (bits c.desc 59 56)).sums ∧
      t.lsb = ((s.flight c.fk).tile (bits c.desc 59 56)).lsb.map (· + toInt 8 (bits c.desc 51 44)) ∧
      t.poison = ((s.flight c.fk).tile (bits c.desc 59 56)).poison ∧
      (∀ i, i ≠ bits c.desc 59 56 → (r.flight c.fk).tile i = (s.flight c.fk).tile i) ∧ SameOtherFlights c.fk s r ∧ r.mem = s.mem ∧
      ∀ l, r.landing l = s.landing l) ∧
  (∀ (f : FlightId) (s : State) (c : OpCtx), Issues s f (isFoot 3) c → footCheck c.g c.desc = none →
    ∃ r : State, exec (.release f) s = .next (r.opOpen c) ∧ (r.flight c.fk).tile (bits c.desc 59 56) = Tile.reset ∧
      (∀ i, i ≠ bits c.desc 59 56 → (r.flight c.fk).tile i = (s.flight c.fk).tile i) ∧ SameOtherFlights c.fk s r ∧ r.mem = s.mem ∧
      ∀ l, r.landing l = s.landing l)

/-- A FOOT word whose descriptor fails R112's check, whatever its function (and whatever upsets strike), stops its program with the code of that check; nothing is accumulated, drained or released before the
stop. -/
def Obligations.MalformedDescriptorStops : Prop :=
  ∀ (f : FlightId) (hw : FootHw) (s : State) (c : OpCtx) (e : Nat), footCheck c.g c.desc = some e → hw.land = [] → (e = 0x3012 ∨ e = 0x3013) ∧
    (Issues s f (isFoot 1) c → exec (.drain ⟨f, hw⟩) s = .next (s.refuseOp c.fk c.slot e c.prog.pc)) ∧
    (Issues s f (isFoot 2) c → exec (.retag f) s = .next (s.refuseOp c.fk c.slot e c.prog.pc)) ∧
    (Issues s f (isFoot 3) c → exec (.release f) s = .next (s.refuseOp c.fk c.slot e c.prog.pc)) ∧
    (Issues s f (isFoot 4) c → exec (.inject f hw) s = .next (s.refuseOp c.fk c.slot e c.prog.pc)) ∧
    (Issues s f (isFoot 5) c → exec (.statscale f) s = .next (s.refuseOp c.fk c.slot e c.prog.pc))

/-- INJECT, where no upset strikes and no landing read meets an error, promotes the rows of its buffer into its tile, which is VALID with the buffer's format afterwards. STATSCALE writes one scale per row into its vector, and REDUCE one combined
record per entry into its vector: each writes that landing alone, and no tile. Each is then issued. -/
def Obligations.InjectStatscaleReduceComplete : Prop :=
  (∀ (f : FlightId) (s : State) (c : OpCtx) (b : Buf), Issues s f (isFoot 4) c → footCheck c.g c.desc = none →
    s.need c.since c.fk (drainD c.desc).aux [1, 2] = .ok b →
    (∀ i < (drainD c.desc).rows, b.footOk c.row0 (i + (drainD c.desc).rowBase) = true) →
    ((s.flight c.fk).tile (drainD c.desc).tile).sound = true →
    (((s.flight c.fk).tile (drainD c.desc).tile).valid = true → ((s.flight c.fk).tile (drainD c.desc).tile).fmt = b.fmt) →
    ∃ r : State, exec (.inject f ⟨[], []⟩) s = .next (r.opOpen c) ∧ ((r.flight c.fk).tile (drainD c.desc).tile).valid = true ∧
      ((r.flight c.fk).tile (drainD c.desc).tile).fmt = b.fmt ∧
      (∃ clamp poison cs, ((r.flight c.fk).tile (drainD c.desc).tile).sums =
        (((s.flight c.fk).tile (drainD c.desc).tile).accum c.W b.fmt clamp poison ⟨[], [], none⟩ cs).1.sums) ∧
      (∀ i, i ≠ (drainD c.desc).tile → (r.flight c.fk).tile i = (s.flight c.fk).tile i) ∧ SameOtherFlights c.fk s r ∧ r.mem = s.mem ∧
      ∀ l, r.landing l = s.landing l) ∧
  (∀ (f : FlightId) (s : State) (c : OpCtx) (src b : Buf) (recs : List (StatRec × Bool)), Issues s f (isFoot 5) c → footCheck c.g c.desc = none →
    s.drainStats c (drainD c.desc).statH (drainD c.desc).rowBase (drainD c.desc).rows true false = .ok (some (src, recs)) →
    s.need c.since c.fk (drainD c.desc).dst [6] = .ok b → b.writable = true → 2 * ((drainD c.desc).rowBase + (drainD c.desc).rows) ≤ b.bytesLen →
    ∃ r : State, exec (.statscale f) s = .next (r.opOpen c) ∧ (∀ k, r.flight k = s.flight k) ∧ r.mem = s.mem ∧
      (∀ l, l ≠ b.landing → r.landing l = s.landing l) ∧
      (∀ i < (drainD c.desc).rows, kfind (b.base * 64 + 2 * ((drainD c.desc).rowBase + i)) (r.landing b.landing).bytes ≠ none)) ∧
  (∀ (f : FlightId) (s : State) (c : OpCtx) (src dst : Buf), Issues s f (isOp 0x21) c → s.need c.since c.fk (bits c.word 111 104) [5] = .ok src →
    s.need c.since c.fk (bits c.word 103 96) [5] = .ok dst → dst.writable = true →
    16 * (bits c.word 95 92 * bits c.word 85 70 + (bits c.word 91 86 + 1)) ≤ src.bytesLen → 16 * (bits c.word 91 86 + 1) ≤ dst.bytesLen →
    ∃ r : State, exec (.reduce f) s = .next (r.opOpen c) ∧ (∀ k, r.flight k = s.flight k) ∧ r.mem = s.mem ∧
      (∀ l, l ≠ dst.landing → r.landing l = s.landing l) ∧
      (∀ i < bits c.word 91 86 + 1, kfind (dst.base * 64 + 16 * i) (r.landing dst.landing).bytes ≠ none))

/-- FETCH, whose area and region hold what it names and whose buffer may be written, and STORE, into an area with WRITE, queue one descriptor of sequencer origin for the Movers of their hall, with
the tenant and the class of their program: from the tenant's address into the landing, and from the landing to the tenant's address, 64 bytes a unit. The operation stays issued until that
descriptor ends. FETCH into a buffer with RO stops its program with 0x3061; STORE into an area without WRITE with 0x3070 (the code is the model's choice, log entry 34). Landings, flights and
device memory are as they were. An access of such a descriptor, taken by a Mover, brings the next piece: a FETCH's bytes of memory lie in the landing's bytes from then on, a STORE's bytes of the landing in memory,
where no word carries poison and nothing waits for the host's caches; CONFIRMED rises by the piece, and the descriptor is DONE when all of it is confirmed. -/
def Obligations.FetchAndStoreMoveUnits : Prop :=
  (∀ (f : FlightId) (s : State) (c : OpCtx) (va flags u n : Nat) (b : Buf), Issues s f (isOp 0x30) c → s.moverRegion c = .ok (va, flags, b, u, n) →
    (b.writable = false → exec (.fetch f []) s = .next (s.refuseOp c.fk c.slot 0x3061 c.prog.pc)) ∧
    (b.writable = true → ∃ (r : State) (x : Desc), exec (.fetch f []) s = .next (r.opOpen c) ∧ r.xlate.descs = s.xlate.descs ++ [x] ∧
      x.srcSpace = 0 ∧ x.src = va ∧ x.dstSpace = 2 ∧ x.dst = bits c.word 43 36 + 256 * u ∧ x.len = 64 * n ∧ x.tenant = c.tenant ∧ x.hall = c.hall ∧
      x.cls = min 3 c.prog.cls ∧ x.origin = 0 ∧ x.state = .queued ∧ x.confirmed = 0 ∧ x.shared = bit flags 1 ∧
      (r.opOpen c).opWaits c.fk c.slot c.prog.nextOp = true ∧ r.halls = s.halls ∧ r.mem = s.mem)) ∧
  (∀ (f : FlightId) (s : State) (c : OpCtx) (va flags u n : Nat) (b : Buf), Issues s f (isOp 0x31) c → s.moverRegion c = .ok (va, flags, b, u, n) →
    (bit flags 0 = false → exec (.storeOperation f) s = .next (s.refuseOp c.fk c.slot 0x3070 c.prog.pc)) ∧
    (bit flags 0 = true → ∃ (r : State) (x : Desc), exec (.storeOperation f) s = .next (r.opOpen c) ∧ r.xlate.descs = s.xlate.descs ++ [x] ∧
      x.srcSpace = 2 ∧ x.src = bits c.word 43 36 + 256 * u ∧ x.dstSpace = 0 ∧ x.dst = va ∧ x.len = 64 * n ∧ x.tenant = c.tenant ∧ x.hall = c.hall ∧
      x.cls = min 3 c.prog.cls ∧ x.origin = 0 ∧ x.state = .queued ∧ x.confirmed = 0 ∧
      (r.opOpen c).opWaits c.fk c.slot c.prog.nextOp = true ∧ r.halls = s.halls ∧ r.mem = s.mem)) ∧
  (∀ (id a n : Nat) (data : Bytes) (bad : List Nat) (land : List LandErr) (s s1 : State) (d : Desc) (b : Buf), s.desc id = some d → d.state = .running →
    d.sent < d.len → d.use = .prog → d.srcSpace = 0 → d.dstSpace = 2 → n = d.piece → s.moverPlace d 0 d.src d.sent n false = (.dev a, s1) → s1.xlate.landed = [] →
    s1.resolve d.since (hallLanding d.hall) (d.dst % 256) = some b → b.writable = true → bits d.dst 31 8 * 64 + d.sent + n ≤ b.bytesLen →
    (∀ i < n, s1.wordPoisoned ((a + i) / 8) = false) → s1.mode ≠ .safeStop →
    ∃ (t : State) (e : Desc), exec (.moverAccessDone id data ⟨bad, [], land⟩) s = .next t ∧
      (∀ i < n, kfind (b.base * 64 + (bits d.dst 31 8 * 64 + d.sent) + i) (t.landing b.landing).bytes = some (s.memByte (a + i))) ∧
      (∀ l, l ≠ b.landing → t.landing l = s1.landing l) ∧ t.mem = s1.mem ∧ t.desc id = some e ∧ e.confirmed = d.confirmed + n ∧ e.sent = d.sent + n ∧
      (d.len ≤ d.confirmed + n → e.state = .done)) ∧
  (∀ (id a off l n : Nat) (data : Bytes) (bad : List Nat) (s s1 : State) (d : Desc), s.desc id = some d → d.state = .running → d.sent < d.len → d.use = .prog →
    d.srcSpace = 2 → d.dstSpace = 0 → n = min d.piece (4096 - (d.dst + d.sent) % 4096) → s.moverPlace d 2 d.src d.sent n false = (.land l off, s) →
    s.moverPlace d 0 d.dst d.sent n true = (.dev a, s1) → s1.xlate.landed = [] → s1.cxl.waiting = [] → s1.mode ≠ .safeStop →
    (∀ i < n, s1.landWordPoison d.since l ((off + i) / 8) = false ∧ s1.hdmLine (a + i) = none ∧ s1.withdrawn (a + i) = false) →
    ∃ (t : State) (e : Desc), exec (.moverAccessDone id data ⟨bad, [], []⟩) s = .next t ∧ (∀ i < n, t.memByte (a + i) = s1.landByte d.since l (off + i)) ∧
      (∀ x, (x < a ∨ a + n ≤ x) → t.memByte x = s1.memByte x) ∧ (∀ k, t.landing k = s1.landing k) ∧ t.desc id = some e ∧ e.confirmed = d.confirmed + n ∧
      e.sent = d.sent + n ∧ (d.len ≤ d.confirmed + n → e.state = .done))

/-- COPY, within its regions and with no error of a landing read, writes its destination landing alone. FILL_TOKENS gives every slot and group it names a header, FILL_OUTLIER every slot and record it names a record, and
FILL_TABLE all 257 words of a foot table from its buffer; they write their flight's stores and no landing. HANDLE_SET clears the entry it names, or writes the handle list's entry where R213 accepts it.
Each is then issued; tiles and device memory stay as they were. -/
def Obligations.FillUnitCompletes : Prop :=
  (∀ (f : FlightId) (s : State) (c : OpCtx) (a b : Buf), Issues s f (isOp 0x32) c → s.resolve c.since c.fk (bits c.word 111 104) = some a →
    s.resolve c.since c.fk (bits c.word 83 76) = some b → b.writable = true → bits c.word 103 84 + bits c.word 55 36 ≤ a.units →
    bits c.word 75 56 + bits c.word 55 36 ≤ b.units →
    ∃ r : State, exec (.copy ⟨f, []⟩) s = .next (r.opOpen c) ∧ (∀ l, l ≠ b.landing → r.landing l = s.landing l) ∧ (∀ k, r.flight k = s.flight k) ∧ r.mem = s.mem ∧
      (∀ i < bits c.word 55 36, kfind (64 * (b.base + bits c.word 75 56 + i)) (r.landing b.landing).bytes ≠ none)) ∧
  (∀ (f : FlightId) (s : State) (c : OpCtx) (b : Buf), Issues s f (isOp 0x33) c → s.need c.since c.fk (bits c.word 111 104) [1, 2] = .ok b →
    bits c.word 87 83 + (bits c.word 82 78 + 1) ≤ 32 → bits c.word 77 70 + (bits c.word 69 62 + 1) ≤ (if b.fmt = 2 then 256 else 128) →
    (∀ q < bits c.word 82 78 + 1, b.rowOk (bits c.word 103 88) q = true) →
    ∃ r : State, exec (.fillTokens f) s = .next (r.opOpen c) ∧
      (∀ q < bits c.word 82 78 + 1, ∀ g < bits c.word 69 62 + 1,
        kfind ((bits c.word 87 83 + q) * 256 + (bits c.word 77 70 + g)) (r.flight c.fk).tokHeads ≠ none) ∧
      (r.flight c.fk).tiles = (s.flight c.fk).tiles ∧ SameOtherFlights c.fk s r ∧ r.mem = s.mem ∧ ∀ l, r.landing l = s.landing l) ∧
  (∀ (f : FlightId) (s : State) (c : OpCtx) (b : Buf), Issues s f (isOp 0x34) c → s.need c.since c.fk (bits c.word 111 104) [1, 2] = .ok b →
    b.outl = true → bits c.word 87 83 + (bits c.word 82 78 + 1) ≤ 32 → bits c.word 77 72 + (bits c.word 71 66 + 1) ≤ 64 →
    (∀ q < bits c.word 82 78 + 1, b.rowOk (bits c.word 103 88) q = true) → bits c.word 77 72 + (bits c.word 71 66 + 1) ≤ cdiv b.channels 256 →
    ∃ r : State, exec (.fillOutlier f) s = .next (r.opOpen c) ∧
      (∀ q < bits c.word 82 78 + 1, ∀ i < bits c.word 71 66 + 1,
        kfind ((bits c.word 87 83 + q) * 64 + bits c.word 77 72 + i) (r.flight c.fk).outliers ≠ none) ∧
      (r.flight c.fk).tiles = (s.flight c.fk).tiles ∧ SameOtherFlights c.fk s r ∧ r.mem = s.mem ∧ ∀ l, r.landing l = s.landing l) ∧
  (∀ (f : FlightId) (s : State) (c : OpCtx) (b : Buf), Issues s f (isOp 0x35) c → s.need c.since c.fk (bits c.word 111 104) [9] = .ok b →
    2056 ≤ b.bytesLen → (∀ k, 1 ≤ k → k < 257 → sasValid (bits (leNat (s.landBytes b.since b.landing (b.base * 64 + 8 * k) 8)) 47 32) = true) →
    ∃ r : State, exec (.fillTable f) s = .next (r.opOpen c) ∧
      (∀ k < 257, kfind (bits c.word 103 101 * 257 + k) (r.flight c.fk).tables ≠ none) ∧
      (r.flight c.fk).tiles = (s.flight c.fk).tiles ∧ SameOtherFlights c.fk s r ∧ r.mem = s.mem ∧ ∀ l, r.landing l = s.landing l) ∧
  (∀ (f : FlightId) (s : State) (c : OpCtx), Issues s f (isOp 0x36) c → bit c.word 102 = true →
    exec (.handleSet f) s = .next ((s.setHandle (if bit c.word 103 then hallLanding c.hall else c.fk) (bits c.word 111 104) 0).opOpen c)) ∧
  (∀ (f : FlightId) (s : State) (c : OpCtx) (e : HandleE), Issues s f (isOp 0x36) c → bit c.word 102 = false →
    c.prog.img.handles[bits c.word 101 90]? = some e →
    entryOk (if bit c.word 103 then hallLanding c.hall else c.fk) e.entry (fun o =>
      match s.resolve c.since (if bit c.word 103 then hallLanding c.hall else c.fk) o with | some b => b.fmt == 0xD | none => false) = true →
    exec (.handleSet f) s = .next ((s.setHandle (if bit c.word 103 then hallLanding c.hall else c.fk) (bits c.word 111 104) e.entry).opOpen c))

/-- MASK, through a slot bound for masks, into a writable B1 buffer that holds its channels and rows, steps the slot's generator, counts its bits and writes that landing alone; through a slot bound
for something else it stops with 0x3030, and through an unused slot with 0x3031. SAMPLE, whose buffers hold its rows and whose streams draw through sampler slots or their own seeds, is issued and
leaves tiles as they were. -/
def Obligations.MaskAndSampleComplete : Prop :=
  (∀ (f : FlightId) (s : State) (c : OpCtx) (b : Buf), Issues s f (isOp 0x47) c → (c.prog.img.bind (bits c.word 50 47)).mask = true →
    s.need c.since c.fk (bits c.word 111 104) [4] = .ok b → bits c.word 58 51 < 2 ^ 2 ^ bits c.word 60 59 → b.writable = true →
    (bits c.word 71 61 + 1) * 32 ≤ b.channels → (∀ q < bits c.word 87 72 + 1, b.rowOk (bits c.word 103 88) q = true) →
    ∃ r : State, exec (.mask f) s = .next (r.opOpen c) ∧ (∀ l, l ≠ b.landing → r.landing l = s.landing l) ∧ (∀ k, r.flight k = s.flight k) ∧ r.mem = s.mem ∧
      (∀ g, g ≠ (c.prog.img.bind (bits c.word 50 47)).gen → r.genLanes c.hall g = s.genLanes c.hall g) ∧
      r.odGet Od.maskBits = (s.odGet Od.maskBits + (bits c.word 87 72 + 1) * ((bits c.word 71 61 + 1) * 32)) % odModulus Od.maskBits) ∧
  (∀ (f : FlightId) (s : State) (c : OpCtx), Issues s f (isOp 0x47) c → (c.prog.img.bind (bits c.word 50 47)).mask = false →
    exec (.mask f) s = .next (s.refuseOp c.fk c.slot (if (c.prog.img.bind (bits c.word 50 47)).used then 0x3030 else 0x3031) c.prog.pc)) ∧
  (∀ (f : FlightId) (s : State) (c : OpCtx) (logits map out : Buf), Issues s f (isOp 0x46) c →
    s.need c.since (hallLanding c.hall) (bits c.word 111 104) [3] = .ok logits → s.need c.since (hallLanding c.hall) (bits c.word 81 74) [7] = .ok map →
    s.need c.since (hallLanding c.hall) (bits c.word 73 66) [0, 7] = .ok out → out.writable = true →
    (∀ q < bits c.word 87 82 + 1, logits.rowOk (bits c.word 103 88) q = true) → 2 * (bits c.word 87 82 + 1) ≤ map.bytesLen →
    4 * (bits c.word 87 82 + 1) ≤ out.bytesLen → s.sampleSlots c map (bits c.word 87 82 + 1) = none →
    ∃ r : State, exec (.sample f) s = .next (r.opOpen c) ∧
      r = ((List.range (bits c.word 87 82 + 1)).foldl (fun s r => s.sampleOne c logits map out r) s).tick)

/-- A SEND to another module, with a peer, a buffer that is not transposed and rows within it, leaves as frames and is issued: no flight, landing or byte of memory changes. A SEND to a flight of this
module, with no transfer waiting, waits with its rows for its RECV. A RECV into a buffer that it may write, with no SEND and no frame waiting for it, waits with its row count. When a RECV meets the waiting SEND of its peer within the module and their row counts differ, both programs stop with 0x307A: no row is placed. -/
def Obligations.SendAndRecvComplete : Prop :=
  (∀ (f : FlightId) (s : State) (c : OpCtx) (p : PeerE) (b : Buf), Issues s f (isOp 0x40) c → c.prog.img.peers[bits c.word 71 66]? = some p →
    s.resolve c.since (hallLanding c.hall) (bits c.word 111 104) = some b → b.view ≠ 2 → (∀ k < bits c.word 87 72 + 1, b.rowOk (bits c.word 103 88) k = true) →
    s.mine (s.peerPath p) = false →
    ∃ r : State, exec (.send f) s = .next (r.opOpen c) ∧ (∀ k, r.flight k = s.flight k) ∧ (∀ l, r.landing l = s.landing l) ∧ r.mem = s.mem ∧
      r.serve.moves = s.serve.moves) ∧
  (∀ (f : FlightId) (s : State) (c : OpCtx) (p : PeerE) (b : Buf), Issues s f (isOp 0x40) c → c.prog.img.peers[bits c.word 71 66]? = some p →
    s.resolve c.since (hallLanding c.hall) (bits c.word 111 104) = some b → b.view ≠ 2 → (∀ k < bits c.word 87 72 + 1, b.rowOk (bits c.word 103 88) k = true) →
    s.mine (s.peerPath p) = true → s.serve.moves = [] →
    ∃ (r : State) (m : RowMove), exec (.send f) s = .next (r.opOpen c) ∧ r.serve.moves = [m] ∧ m.isSend = true ∧ m.flight = c.fk ∧ m.opId = c.id ∧
      m.unit_ = p.hall * 20 + p.flight ∧ m.tag = bits c.word 65 50 ∧ m.rows = bits c.word 87 72 + 1 ∧
      (∀ k, r.flight k = s.flight k) ∧ (∀ l, r.landing l = s.landing l) ∧ r.mem = s.mem) ∧
  (∀ (f : FlightId) (s : State) (c : OpCtx) (p : PeerE) (b : Buf), Issues s f (isOp 0x41) c → c.prog.img.peers[bits c.word 71 66]? = some p →
    s.resolve c.since (hallLanding c.hall) (bits c.word 111 104) = some b → b.writable = true → (∀ k < bits c.word 87 72 + 1, b.rowOk (bits c.word 103 88) k = true) →
    s.serve.moves = [] → s.serve.early = [] →
    ∃ (r : State) (m : RowMove), exec (.recv f) s = .next (r.opOpen c) ∧ r.serve.moves = [m] ∧ m.isSend = false ∧ m.flight = c.fk ∧ m.opId = c.id ∧
      m.peer = s.peerPath p ∧ m.tag = bits c.word 65 50 ∧ m.rows = bits c.word 87 72 + 1 ∧ m.handle = bits c.word 111 104 ∧
      (∀ k, r.flight k = s.flight k) ∧ (∀ l, r.landing l = s.landing l) ∧ r.mem = s.mem) ∧
  (∀ (f : FlightId) (s : State) (c : OpCtx) (p : PeerE) (b : Buf) (m : RowMove), Issues s f (isOp 0x41) c →
    c.prog.img.peers[bits c.word 71 66]? = some p → s.resolve c.since (hallLanding c.hall) (bits c.word 111 104) = some b → b.writable = true →
    (∀ k < bits c.word 87 72 + 1, b.rowOk (bits c.word 103 88) k = true) → s.mine (s.peerPath p) = true →
    s.serve.moves = [m] → m.isSend = true → m.job = c.job → m.tag = bits c.word 65 50 → m.flight = p.hall * 20 + p.flight → m.unit_ = c.fk →
    m.rows ≠ bits c.word 87 72 + 1 →
    ∃ r : State, exec (.recv f) s = .next ((r.mismatch m).refuseOp c.fk c.slot 0x307A c.prog.pc) ∧ r.serve.moves = [] ∧ r.halls = s.halls ∧ r.mem = s.mem)

/-- BROADCAST, ALL_GATHER, REDUCE_SCATTER, ALL_REDUCE and ALL_TO_ALL, where the group, the buffers and the shape of R422 stand and agree with what other participants have issued, are issued, and the
participant's next collective in that group is the next instance. A shape that R422 forbids stops the program with 0x5030, before any row is taken. -/
def Obligations.CollectivesComplete : Prop :=
  (∀ (kind : Nat) (f : FlightId) (s : State) (c : OpCtx) (g : GroupE) (src dst : Buf), kind < 5 → Issues s f (isColl kind) c →
    CollStands s c kind g src dst →
    ∃ r : State, exec (collCommand kind f) s = .next (r.opOpen c) ∧
      kget 0 ((c.fk * 4 + c.slot) * 16 + bits c.word 107 104) r.serve.collCount =
        kget 0 ((c.fk * 4 + c.slot) * 16 + bits c.word 107 104) s.serve.collCount + 1 ∧ r.mode = s.mode) ∧
  (∀ (kind : Nat) (f : FlightId) (s : State) (c : OpCtx) (g : GroupE) (src dst : Buf), kind < 5 → Issues s f (isColl kind) c →
    c.prog.img.groups[bits c.word 107 104]? = some g → s.resolve c.since (hallLanding c.hall) (bits c.word 103 96) = some src →
    s.resolve c.since (hallLanding c.hall) (bits c.word 95 88) = some dst →
    collShapeBad kind (bits c.word 71 56 + 1) (max 1 g.members) src dst = true →
    exec (collCommand kind f) s = .next (s.refuseOp c.fk c.slot 0x5030 c.prog.pc))

/-- ROUTE, whose gates, records and weights hold its rows and which selects no more experts than there are, counts its rows and writes its two buffers alone. The outbound dispatch, whose source, records
and exchange record stand, sends its rows and is issued. The return dispatch is issued once every manifest and row has arrived and the expert programs are done, and holds its program until then; rows
missing at that point stop it with 0x4203. COMBINE, whose returned rows lie within the source's view, promotes weighted rows into its target tile, whose accumulator words agree with their residues where no upset strikes, before and after. -/
def Obligations.RouterOperationsComplete : Prop :=
  (∀ (f : FlightId) (s : State) (c : OpCtx) (gates idx weight : Buf), Issues s f (isOp 0x43) c →
    s.need c.since (hallLanding c.hall) (bits c.word 111 104) [3] = .ok gates → s.need c.since (hallLanding c.hall) (bits c.word 60 53) [0] = .ok idx →
    s.need c.since (hallLanding c.hall) (bits c.word 52 45) [6] = .ok weight → bits c.word 63 61 ≤ bits c.word 71 64 →
    bits c.word 71 64 + 1 ≤ gates.channels → (∀ r < bits c.word 87 72 + 1, gates.rowOk (bits c.word 103 88) r = true) → idx.writable = true →
    weight.writable = true → 32 * (bits c.word 87 72 + 1) ≤ idx.bytesLen → 16 * (bits c.word 87 72 + 1) ≤ weight.bytesLen →
    ∃ r : State, exec (.route f) s = .next (r.opOpen c) ∧ (∀ k, r.flight k = s.flight k) ∧ r.mem = s.mem ∧
      (∀ l, l ≠ idx.landing → l ≠ weight.landing → r.landing l = s.landing l) ∧
      r.odGet Od.routedRows = (s.odGet Od.routedRows + (bits c.word 87 72 + 1)) % odModulus Od.routedRows) ∧
  (∀ (f : FlightId) (s : State) (c : OpCtx) (src idx : Buf) (x : ExchRec), Issues s f isOutbound c →
    s.need c.since (hallLanding c.hall) (bits c.word 111 104) [1, 2] = .ok src → s.need c.since (hallLanding c.hall) (bits c.word 103 96) [0] = .ok idx →
    s.readExch c.hall c.since (bits c.word 95 88) = .ok x → (c.prog.img.groups[bits c.word 87 84]?).isSome = true → src.view ≠ 2 →
    (∀ r < bits c.word 83 68 + 1, src.rowOk 0 r = true) → idx.writable = true → 32 * (bits c.word 83 68 + 1) ≤ idx.bytesLen →
    exec (.outboundDispatch f) s = .next ((s.runOutbound c src idx x (bits c.word 83 68 + 1)).tick.opOpen c)) ∧
  (∀ (f : FlightId) (s : State) (c : OpCtx) (x : ExchRec) (i : Nat) (e : ExchSt), Issues s f isReturn c → s.readExch c.hall c.since (bits c.word 95 88) = .ok x →
    s.serve.exchanges.findIdx? (fun e => e.job == c.job && e.layer == x.layer && e.record == some (bits c.word 95 88) && !e.returned) = some i →
    s.serve.exchanges[i]? = some e →
    ((∃ m < s.memberCount, kfind m e.manifest = none) → exec (.returnDispatch f) s = .next s) ∧
    ((∀ m < s.memberCount, (kfind m e.manifest).isSome = true) → (∃ m < s.memberCount, e.fullFrom (s.exchLen e) m = false) →
      exec (.returnDispatch f) s = .next ((s.count Od.exchangeErrors 1).refuseOp c.fk c.slot 0x4203 c.prog.pc)) ∧
    ((∀ m < s.memberCount, (kfind m e.manifest).isSome = true ∧ e.fullFrom (s.exchLen e) m = true) → (∃ k < 16, s.slotDone e k = false) →
      exec (.returnDispatch f) s = .next s) ∧
    ((∀ m < s.memberCount, (kfind m e.manifest).isSome = true ∧ e.fullFrom (s.exchLen e) m = true) → (∀ k < 16, s.slotDone e k = true) →
      exec (.returnDispatch f) s = .next ((s.runReturn c i e x).tick.opOpen c))) ∧
  (∀ (f : FlightId) (s : State) (c : OpCtx) (src idx weight : Buf), Issues s f (isOp 0x45) c →
    c.badTarget (bits c.word 71 56) (bits c.word 87 72 + 1) = none → s.need c.since (hallLanding c.hall) (bits c.word 111 104) [1, 2] = .ok src →
    s.need c.since (hallLanding c.hall) (bits c.word 103 96) [0] = .ok idx → s.need c.since (hallLanding c.hall) (bits c.word 95 88) [6] = .ok weight →
    32 * (bits c.word 87 72 + 1) ≤ idx.bytesLen → 16 * (bits c.word 87 72 + 1) ≤ weight.bytesLen →
    (∀ r < bits c.word 87 72 + 1, (s.combineRow c src idx weight (tgtRow (bits c.word 71 56)) r).ok = true) →
    ((s.flight c.fk).tile (tgtTile (bits c.word 71 56))).sound = true →
    (((s.flight c.fk).tile (tgtTile (bits c.word 71 56))).valid = true → ((s.flight c.fk).tile (tgtTile (bits c.word 71 56))).fmt = src.fmt) →
    ∃ r : State, exec (.combine ⟨f, ⟨[], []⟩⟩) s = .next (r.opOpen c) ∧ ((r.flight c.fk).tile (tgtTile (bits c.word 71 56))).valid = true ∧
      ((r.flight c.fk).tile (tgtTile (bits c.word 71 56))).fmt = src.fmt ∧ ((r.flight c.fk).tile (tgtTile (bits c.word 71 56))).sound = true ∧
      (∀ i, i ≠ tgtTile (bits c.word 71 56) → (r.flight c.fk).tile i = (s.flight c.fk).tile i) ∧ SameOtherFlights c.fk s r ∧ r.mem = s.mem ∧
      ∀ l, r.landing l = s.landing l)

/-- Once an exchange has filled its sections, the expert program of a slot that received no row does not start and is counted idle; that of a slot with rows starts, where its flight is free for it.
An exchange of a layer that is not complete when its time is over stops its job with 0x4204. -/
def Obligations.ExpertProgramsStartOrSkip : Prop :=
  (∀ (f : FlightId) (slot layer lslot i : Nat) (s : State) (p : Prog) (e : ExchSt), flightOk f = true → s.progAt (flightKey f) slot = some p →
    s.serve.exchanges.findIdx? (fun e => e.job == p.img.job && e.layer == layer && e.written && !e.started.contains lslot) = some i →
    s.serve.exchanges[i]? = some e →
    (e.slotRows lslot = 0 → ∃ r : State, exec (.expertProgramStart f slot layer lslot) s = .next (r.skipExpert p.img.job (flightKey f * 4 + slot)) ∧
      kfind (flightKey f * 4 + slot) r.serve.expertProgs = some (layer * 16 + lslot) ∧ r.halls = s.halls ∧ r.mem = s.mem) ∧
    (e.slotRows lslot ≠ 0 → s.mayStart (flightKey f) slot .idle = true →
      ∃ r : State, exec (.expertProgramStart f slot layer lslot) s = .next (r.startProgram (flightKey f) slot) ∧
        kfind (flightKey f * 4 + slot) r.serve.expertProgs = some (layer * 16 + lslot) ∧
        r.serve.exchanges[i]? = some { e with started := e.started ++ [lslot] } ∧ r.halls = s.halls ∧ r.mem = s.mem)) ∧
  (∀ (job layer : Nat) (s : State) (e : ExchSt),
    s.serve.exchanges.find? (fun e => e.job == job && e.layer == layer && e.record.isSome && !e.written) = some e →
    exec (.exchangeTimeout job layer) s = .next (s.exchStop job 0x4204 (some e)))

/-- A frame of thirteen types that arrives on an arch that carries frames is delivered by its type where this module is its destination. For another module it leaves with one hop more on the arch of its
route, behind what waits there, and is counted, where the forwarding buffer of its class has room and no frame waits for it, and otherwise waits itself (R420); with its 16th hop, or without a route, it is discarded and counted. A frame of the wrong channel, or longer than any frame may be, changes nothing but its
counter, and on an arch that does not carry frames a frame other than HELLO changes nothing. -/
def Obligations.FramesAreDeliveredForwardedOrDropped : Prop :=
  (∀ (t : Nat) (f : Frame) (s : State), t ∈ frameTypes → Arrives s t f → s.mine f.dest = true →
    exec (frameCommand t f) s = .next (s.deliver { f with ftype := t })) ∧
  (∀ (t : Nat) (f : Frame) (s : State) (n vc : Nat), t ∈ frameTypes → Arrives s t f → s.mine f.dest = false → f.hops + 1 < 16 →
    s.routeArch f.dest = some n → frameVc t = some vc →
    (∀ e ∈ s.arcade.held, s.splitLevel e.1.dest = s.splitLevel f.dest → (s.routeArch e.1.dest).map (· / 3) ≠ some (n / 3)) →
    s.classFlits (n / 3) ((s.splitLevel f.dest).getD 0) + cdiv (frameBytes { f with ftype := t }).length 240 ≤ 256 →
    ∃ r : State, exec (frameCommand t f) s = .next r ∧
      kget [] vc (r.arch n).queues = kget [] vc (s.arch n).queues ++
        (flitsOf ((frameBytes { f with ftype := t, hops := f.hops + 1 }).length / 240 + 1) vc true
          (frameBytes { f with ftype := t, hops := f.hops + 1 })).map (fun fl => ⟨fl, f.job, if f.src = s.ownPath then 0 else (s.splitLevel f.dest).getD 0⟩) ∧
      (∀ v, v ≠ vc → kget [] v (r.arch n).queues = kget [] v (s.arch n).queues) ∧ SameOtherArches n s r ∧ SameBeyondArcade s r ∧
      r.odGet Od.forwardedFrames = (s.odGet Od.forwardedFrames + 1) % odModulus Od.forwardedFrames) ∧
  (∀ (t : Nat) (f : Frame) (s : State) (n : Nat), t ∈ frameTypes → Arrives s t f → s.mine f.dest = false → f.hops + 1 < 16 → s.routeArch f.dest = some n →
    256 < s.classFlits (n / 3) ((s.splitLevel f.dest).getD 0) + cdiv (frameBytes { f with ftype := t }).length 240 →
    exec (frameCommand t f) s = .next { s with arcade := { s.arcade with held := s.arcade.held ++ [({ f with ftype := t }, 0)] } }) ∧
  (∀ (t : Nat) (f : Frame) (s : State), t ∈ frameTypes → Arrives s t f → s.mine f.dest = false → (16 ≤ f.hops + 1 ∨ s.routeArch f.dest = none) →
    ∃ r : State, exec (frameCommand t f) s = .next r ∧ r.arcade = s.arcade ∧ r.halls = s.halls ∧ r.mem = s.mem ∧ r.serve = s.serve ∧
      (16 ≤ f.hops + 1 → r.odGet Od.hopLimitDrops = (s.odGet Od.hopLimitDrops + 1) % odModulus Od.hopLimitDrops) ∧
      (f.hops + 1 < 16 → r.odGet Od.unroutableDrops = (s.odGet Od.unroutableDrops + 1) % odModulus Od.unroutableDrops)) ∧
  (∀ (t : Nat) (f : Frame) (s : State), t ∈ frameTypes → archOk f.arch = true → (s.arch f.arch).up = true →
    (frameVc t ≠ some f.vc ∨ 16400 < f.payload.length) → exec (frameCommand t f) s = .next (s.count Od.badFrames 1)) ∧
  (∀ (t : Nat) (f : Frame) (s : State), t ∈ frameTypes → archOk f.arch = true → (s.arch f.arch).up = false → frameVc t = some f.vc →
    f.payload.length ≤ 16400 → exec (frameCommand t f) s = .next s)

/-- For this module: an ELECTION of a known member of the tray is recorded in place of its earlier one, and one of a module of another member gallery as that gallery's candidate; a SYNC_EPOCH counts only from the rack manager, whose value it announces; JOB_STOP, outside a manager, stops the
job's programs, with 0x5020 itself or with 0x3074 for any other code, and ends the job here with the frame's code, and changes nothing where the module holds nothing of the job; an arrival at a manager joins its barrier, which waits while a member is missing, and elsewhere changes nothing; a release lets every program
that has arrived here pass; MOVE_DATA of the manager at its deputy is written as it stands and confirmed with all bytes taken so far; MOVE_CONFIRM never lowers the bytes confirmed, and what waits for them follows. -/
def Obligations.ControlFramesTakeEffect : Prop :=
  (∀ (f : Frame) (s : State) (l : Nat), Arrives s 0x07 f → s.mine f.dest = true → s.isModulePath (BitVec.ofNat 64 (leField f.payload 1 8)) = true →
    s.splitLevel (BitVec.ofNat 64 (leField f.payload 1 8)) = some l → l ≤ 3 →
    s.arcade.members.contains (BitVec.ofNat 64 (leField f.payload 1 8)) = true →
    ∃ t : State, exec (.election f) s = .next t ∧
      t.arcade.election = s.arcade.election.filter (fun e => e.1 != BitVec.ofNat 64 (leField f.payload 1 8)) ++
        [(BitVec.ofNat 64 (leField f.payload 1 8), leField f.payload 0 1)] ∧
      t.arcade.members = s.arcade.members ∧ t.arcade.arches = s.arcade.arches ∧ SameBeyondArcade s t ∧ t.od = s.od) ∧
  (∀ (f : Frame) (s : State) (l : Nat), Arrives s 0x07 f → s.mine f.dest = true → s.isModulePath (BitVec.ofNat 64 (leField f.payload 1 8)) = true →
    s.splitLevel (BitVec.ofNat 64 (leField f.payload 1 8)) = some l → 3 < l →
    ∃ t : State, exec (.election f) s = .next t ∧
      kfind (l * 64 + s.levelIndex (BitVec.ofNat 64 (leField f.payload 1 8)) l) t.arcade.heads = some (BitVec.ofNat 64 (leField f.payload 1 8), leField f.payload 0 1) ∧
      (BitVec.ofNat 64 (leField f.payload 1 8), leField f.payload 0 1) ∈ t.arcade.election ∧ t.arcade.members = s.arcade.members ∧
      t.arcade.manager = s.arcade.manager ∧ t.arcade.arches = s.arcade.arches ∧ SameBeyondArcade s t ∧ t.od = s.od) ∧
  (∀ (f : Frame) (s : State), Arrives s 0x08 f → s.mine f.dest = true →
    ∃ t : State, exec (.syncEpoch f) s = .next t ∧
      t.arcade.announced = (if s.rackManager = some f.src then some (leField f.payload 0 8) else s.arcade.announced) ∧ t.epoch = s.epoch ∧
      t.arcade.arches = s.arcade.arches ∧ SameBeyondArcade s t ∧ t.od = s.od) ∧
  (∀ (f : Frame) (s : State), Arrives s 0x06 f → s.mine f.dest = true → s.isManager = false → s.holdsJob f.job = true →
    exec (.jobStop f) s = .next (((s.jobProgs f.job).foldl (fun s e =>
      s.stopProg e.1 e.2.slot (if leField f.payload 0 2 = 0x5020 then 0x5020 else 0x3074) e.2.pc) s).endJob f.job (leField f.payload 0 2))) ∧
  (∀ (f : Frame) (s : State), Arrives s 0x06 f → s.mine f.dest = true → s.isManager = false → s.holdsJob f.job = false → exec (.jobStop f) s = .next s) ∧
  (∀ (f : Frame) (s : State), Arrives s 0x04 f → s.mine f.dest = true → s.isManager = false → exec (.barrierArrive f) s = .next s) ∧
  (∀ (f : Frame) (s : State) (x : Nat), Arrives s 0x04 f → s.mine f.dest = true → s.isManager = true → s.depth = 3 →
    s.sameGallery 3 f.src s.ownPath = true → x ∈ s.levelIndices 3 → s.levelIndex f.src 3 ≠ x →
    (∀ b ∈ s.arcade.barriers, b.job = f.job → False) →
    ∃ t : State, exec (.barrierArrive f) s = .next t ∧
      t.arcade.barriers = s.arcade.barriers ++ [⟨f.job, leField f.payload 0 1, leField f.payload 4 4, 3, [f.src]⟩] ∧
      t.arcade.arches = s.arcade.arches ∧ SameBeyondArcade s t) ∧
  (∀ (f : Frame) (s : State), Arrives s 0x05 f → s.mine f.dest = true → s.isManager = false →
    exec (.barrierRelease f) s = .next (s.releaseLocal f.job (leField f.payload 0 1) (leField f.payload 4 4) none)) ∧
  (∀ (s : State) (job bid use : Nat) (hall : Option Nat),
    (s.releaseLocal job bid use hall).barrierOf job bid use hall = none ∧ (s.releaseLocal job bid use hall).mem = s.mem) ∧
  (∀ (f : Frame) (s : State), Arrives s 0x30 f → s.mine f.dest = true → 8 ≤ f.payload.length → f.payload.length ≤ 16392 →
    leField f.payload 0 8 + (f.payload.length - 8) ≤ memTop → s.arcade.manager = some f.src → s.arcade.deputy = some s.ownPath →
    ∃ r : State, exec (.moveData ⟨f, []⟩) s = .next (r.sendFrame (s.mkFrame f.src 0x31 0 31 0 0 0 (leBytes 8 (kget 0 f.src.toNat r.arcade.taken)))) ∧
      r.mem = (s.memWrite (leField f.payload 0 8) (f.payload.drop 8) (bit f.flags 1)).mem ∧
      kget 0 f.src.toNat r.arcade.taken = (kget 0 f.src.toNat s.arcade.taken + (f.payload.length - 8)) % 2 ^ 64 ∧ r.arcade.arches = s.arcade.arches) ∧
  (∀ (f : Frame) (s : State), Arrives s 0x31 f → s.mine f.dest = true →
    ∃ t : State, exec (.moveConfirm f) s = .next ((s.serve.models.map (·.1)).foldl State.loadProgress
        (((s.serve.steps.filter (fun x => x.mirror.isSome)).map (·.job)).foldl State.tryRelease t)) ∧
      kget 0 (f.src.toNat + 2 ^ 64) t.arcade.moved = max (kget 0 (f.src.toNat + 2 ^ 64) s.arcade.moved) (leField f.payload 0 8) ∧
      t.arcade.arches = s.arcade.arches ∧ SameBeyondArcade s t ∧ t.od = s.od)

/-- Rows of a SEND without its RECV, of a collective without its instance, and exchange rows and manifests of an exchange that is not yet known here wait whole, in the order of their arrival; a manifest of
a new exchange opens it with its counts. Rows within the count of a RECV that stands, and not yet there, go to it; rows of a collective that has its instance, of an exchange whose manifest is known, and the manifest and rows of the way back of an exchange that waits for them, go to that collective or exchange. None that
waits writes device memory. -/
def Obligations.EarlyDataFramesWait : Prop :=
  (∀ (f : Frame) (s : State), Arrives s 0x10 f → s.mine f.dest = true →
    (∀ m ∈ s.serve.moves, m.takes s.ownPath { f with ftype := 0x10 } = false) →
    ∃ t : State, exec (.sendData f) s = .next t ∧ t.serve.early = s.serve.early ++ [{ f with ftype := 0x10 }] ∧ t.serve.moves = s.serve.moves ∧
      t.halls = s.halls ∧ t.mem = s.mem ∧ t.arcade = s.arcade) ∧
  (∀ (f : Frame) (s : State) (m : RowMove) (b : Buf) (tenant : Nat), Arrives s 0x10 f → s.mine f.dest = true → s.serve.moves = [m] →
    m.takes s.ownPath { f with ftype := 0x10 } = true → s.recvBuf m = some (b, tenant) →
    (∀ p ∈ (framePieces { f with ftype := 0x10 } 0 (fun i k => Config.freeByte s.free (0x60000 + i) k)).1,
      p.row < m.rows ∧ ∀ g ∈ m.got, g.1 = p.row → g.2.1 ≠ p.off) →
    ∃ t : State, exec (.sendData f) s = .next t ∧ t.mem = s.mem ∧ t.serve.early = s.serve.early ∧ (∀ k, t.flight k = s.flight k) ∧
      (∀ l, l ≠ b.landing → t.landing l = s.landing l) ∧
      (t.serve.moves = [] ∨ ∃ g, t.serve.moves = [{ m with got := g }] ∧ ∀ x ∈ m.got, x ∈ g)) ∧
  (∀ (f : Frame) (s : State), Arrives s 0x11 f → s.mine f.dest = true → s.collFor { f with ftype := 0x11 } = none →
    ∃ t : State, exec (.collData f) s = .next t ∧ t.serve.early = s.serve.early ++ [{ f with ftype := 0x11 }] ∧ t.serve.colls = s.serve.colls ∧
      t.halls = s.halls ∧ t.mem = s.mem ∧ t.arcade = s.arcade) ∧
  (∀ (f : Frame) (s : State), Arrives s 0x20 f → s.mine f.dest = true → s.serve.exchanges = [] → s.serve.early = [] →
    ∃ (t : State) (e : ExchSt), exec (.manifest f) s = .next t ∧ t.serve.exchanges = [e] ∧ e.job = f.job ∧ e.layer = leField f.payload 0 2 ∧
      kfind (leField f.payload 2 1) e.manifest = some (manifestCounts f.payload) ∧ t.mem = s.mem) ∧
  (∀ (f : Frame) (s : State), Arrives s 0x21 f → s.mine f.dest = true → s.serve.exchanges = [] →
    ∃ t : State, exec (.exchRows f) s = .next t ∧ t.serve.early = s.serve.early ++ [{ f with ftype := 0x21 }] ∧ t.halls = s.halls ∧ t.mem = s.mem) ∧
  (∀ (f : Frame) (s : State), Arrives s 0x22 f → s.mine f.dest = true → s.serve.exchanges = [] →
    ∃ t : State, exec (.returnManifest f) s = .next t ∧ t.serve.early = s.serve.early ++ [{ f with ftype := 0x22 }] ∧ t.halls = s.halls ∧
      t.mem = s.mem) ∧
  (∀ (f : Frame) (s : State), Arrives s 0x23 f → s.mine f.dest = true → s.serve.exchanges = [] →
    ∃ t : State, exec (.returnRows f) s = .next t ∧ t.serve.early = s.serve.early ++ [{ f with ftype := 0x23 }] ∧ t.halls = s.halls ∧ t.mem = s.mem) ∧
  (∀ (f : Frame) (s : State) (x : CollSt), Arrives s 0x11 f → s.mine f.dest = true → s.collFor { f with ftype := 0x11 } = some x →
    exec (.collData f) s = .next (s.collFrame x { f with ftype := 0x11 })) ∧
  (∀ (f : Frame) (s : State) (e : ExchSt) (l : List Nat) (ps : List Piece), Arrives s 0x21 f → s.mine f.dest = true → s.serve.exchanges = [e] →
    e.job = f.job → e.record = none → kfind (s.memberOf f.src) e.manifest = some l → e.fullFrom (s.exchLen e) (s.memberOf f.src) = false →
    ps = (s.takePieces { f with ftype := 0x21 } 8).1 → (∀ p ∈ ps, p.row < l.getD 0 0) →
    ∃ t : State, exec (.exchRows f) s = .next t ∧ t.serve.exchanges = [{ e with rows := e.rows ++ ps.map (fun p => (s.memberOf f.src, p)) }] ∧
      t.serve.early = s.serve.early ∧ t.halls = s.halls ∧ t.mem = s.mem) ∧
  (∀ (f : Frame) (s : State) (e : ExchSt) (m : Nat), Arrives s 0x22 f → s.mine f.dest = true → s.serve.exchanges = [e] → e.job = f.job →
    e.layer = leField f.payload 0 2 → e.record.isSome = true → m = leField f.payload 2 1 → m ∉ e.retMan →
    (manifestCounts f.payload).drop 1 = (List.range 16).map (fun k => (e.sent.filter (fun p => p.1 == m && p.2.1 == k)).length) →
    exec (.returnManifest f) s = .next ((({ s with serve := { s.serve with exchanges := [{ e with retMan := e.retMan ++ [m] }] } } : State).placeReturns 0).retryEarly
      0x23 f.job m State.takeReturnRows)) ∧
  (∀ (f : Frame) (s r : State) (e : ExchSt) (ps : List Piece) (k : Nat), Arrives s 0x23 f → s.mine f.dest = true → s.serve.exchanges = [e] → e.job = f.job →
    s.memberOf f.src ∈ e.retMan → k < e.sent.length → (e.sent.getD k (0, 0, 0)).1 = s.memberOf f.src → k ∉ e.placed →
    s.takePieces { f with ftype := 0x23 } 8 = (ps, r) →
    exec (.returnRows f) s = .next (({ r with serve := { r.serve with exchanges :=
      [{ e with ret := e.ret ++ ps.map (fun p => (s.memberOf f.src, p)) }] } } : State).placeReturns 0))

/-- A HELLO that passes every check on an arch that is not down makes its sender the arch's partner, ends a quarantine, and adds a member that was not known. One that fails on a quarantined arch is counted
and leaves the quarantine, the members and the partner. While no arch has missed two intervals, HELLO_INTERVAL gives every arch that is neither disabled nor down a fresh NONCE and touches no queue of another channel. An
election settles once every ELECTION has arrived, or after three intervals: in the tray the first-ranked candidate is the manager and the second the deputy, and the manager takes part in the election of the gallery above; above the tray the first-ranked is that gallery's manager; before that nothing changes. -/
def Obligations.HelloAndElectionSettle : Prop :=
  (∀ (f : Frame) (e g : Bool) (s : State), archOk f.arch = true → f.vc = 0 → f.payload.length ≤ 16400 → (s.arch f.arch).state ≠ 0 → (s.arch f.arch).state ≠ 5 →
    s.helloGenuine f.arch f.payload e g = true → s.helloPlaced f.arch (BitVec.ofNat 64 (leField f.payload 76 8)) = true →
    ∃ t : State, exec (.hello f e g) s = .next t ∧ (t.arch f.arch).partner = BitVec.ofNat 64 (leField f.payload 76 8) ∧
      (t.arch f.arch).pArch = leField f.payload 73 1 ∧ (t.arch f.arch).pNonce = leField f.payload 84 8 ∧ (t.arch f.arch).missed = 0 ∧
      (t.arch f.arch).state ≠ 2 ∧ (t.arch f.arch).queues = (s.arch f.arch).queues ∧ BitVec.ofNat 64 (leField f.payload 76 8) ∈ t.arcade.members ∧
      (∀ p ∈ s.arcade.members, p ∈ t.arcade.members) ∧ SameOtherArches f.arch s t ∧ SameBeyondArcade s t) ∧
  (∀ (f : Frame) (e g : Bool) (s : State), archOk f.arch = true → f.vc = 0 → f.payload.length ≤ 16400 → (s.arch f.arch).state = 2 →
    (s.helloGenuine f.arch f.payload e g && s.helloPlaced f.arch (BitVec.ofNat 64 (leField f.payload 76 8))) = false →
    ∃ t : State, exec (.hello f e g) s = .next t ∧ (t.arch f.arch).state = 2 ∧ (t.arch f.arch).partner = (s.arch f.arch).partner ∧
      t.arcade.members = s.arcade.members ∧ SameOtherArches f.arch s t ∧ t.halls = s.halls ∧ t.mem = s.mem ∧ t.serve = s.serve ∧
      t.odGet Od.helloRejects = (s.odGet Od.helloRejects + 1) % odModulus Od.helloRejects) ∧
  (∀ s : State, s.arcade.electing = false → (∀ n < 12, (s.arch n).missed < 2) →
    ∃ t : State, exec .helloInterval s = .next t ∧ t.free = s.free + 1 ∧ SameBeyondArcade s t ∧ t.od = s.od ∧
      ∀ n < 12, (t.arch n).state = (s.arch n).state ∧ (∀ v, v ≠ 0 → kget [] v (t.arch n).queues = kget [] v (s.arch n).queues) ∧
        ((s.arch n).state ≠ 0 → (s.arch n).state ≠ 5 →
          (t.arch n).nonces.head? = some (Config.entropy s.free (1000 + n)).toNat ∧
          (t.arch n).missed = if (s.arch n).up then (s.arch n).missed + 1 else 0)) ∧
  (∀ s : State, s.arcade.electing = true → (s.allVoted = true ∨ 3 ≤ s.arcade.electIntervals) →
    ∃ r : State, (exec .electionSettle s = .next r ∨
        ∃ q, s.arcade.manager = some q ∧ s.arcade.members.contains q = false ∧ exec .electionSettle s = .next (r.stopUsers q)) ∧
      (s.arcade.electLevel = 3 → r.arcade.manager = (s.candidates.map (·.1)).head? ∧ r.arcade.deputy = ((s.candidates.map (·.1)).drop 1).head? ∧
        r.arcade.electing = (r.isManager && decide (3 < s.depth))) ∧
      (3 < s.arcade.electLevel → kfind s.arcade.electLevel r.arcade.managers = (s.candidates.map (·.1)).head? ∧ r.arcade.manager = s.arcade.manager ∧
        r.arcade.deputy = s.arcade.deputy) ∧
      r.arcade.members = s.arcade.members ∧ r.odGet Od.elections = (s.odGet Od.elections + 1) % odModulus Od.elections ∧ r.halls = s.halls ∧ r.mem = s.mem) ∧
  (∀ s : State, (s.arcade.electing = false ∨ s.allVoted = false ∧ s.arcade.electIntervals < 3) → exec .electionSettle s = .next s)

/-- In a flit slot of an arch that sends, a pending NAK goes first and carries the expected SEQ; then a time control flit; then, with a credit, room in the retry buffer and nothing to replay, a flit of
channel 0, which takes the next SEQ and stays in the retry buffer. With 512 flits unacknowledged and nothing to replay no queued flit leaves. A flit that fails its CRC, or is out of order, is discarded: one
NAK is made pending, and SEQ, buffers and frames stay. A flit in order that does not end its frame joins it, and frees its credit where the frame is for this module; the flits of another frame wait for their release together (R420). -/
def Obligations.FlitsLeaveAndArriveInOrder : Prop :=
  (∀ (n : Nat) (s : State), archOk n = true → (s.arch n).alive = true → (s.arch n).nak = true →
    ∃ (t : State) (fl : Flit), exec (.flitSlot n) s = .next t.forwardHeld ∧ t.out = s.out ++ [.flit n fl] ∧ fl.kind = 2 ∧ fl.body = nakBody (s.arch n).rxSeq ∧
      fl.ack = ((s.arch n).rxSeq + 65535) % 65536 ∧ (t.arch n).nak = false ∧ (t.arch n).queues = (s.arch n).queues ∧ (t.arch n).retry = (s.arch n).retry ∧
      SameOtherArches n s t ∧ SameBeyondArcade s t ∧ t.od = s.od) ∧
  (∀ (n : Nat) (s : State) (c : Flit) (rest : List Flit), archOk n = true → (s.arch n).alive = true → (s.arch n).nak = false → (s.arch n).timeCtl = c :: rest →
    ∃ (t : State) (fl : Flit), exec (.flitSlot n) s = .next t.forwardHeld ∧ t.out = s.out ++ [.flit n fl] ∧ fl.kind = 2 ∧ fl.body = c.body ∧ (t.arch n).timeCtl = rest ∧
      (t.arch n).queues = (s.arch n).queues ∧ (t.arch n).retry = (s.arch n).retry ∧ SameOtherArches n s t ∧ SameBeyondArcade s t ∧ t.od = s.od) ∧
  (∀ (n : Nat) (s : State) (x : TxFlit) (rest : List TxFlit), archOk n = true → 1 ≤ (s.arch n).state → (s.arch n).state ≤ 4 → (s.arch n).partnerTest = false →
    (s.arch n).nak = false → (s.arch n).timeCtl = [] → ((s.arch n).slots < 15 ∨ (s.arch n).ctl = []) → (s.arch n).resend = [] → (s.arch n).retry.length < 512 →
    kget [] 0 (s.arch n).queues = x :: rest → (s.arch n).credited 0 = true →
    ∃ (t : State) (fl : Flit), exec (.flitSlot n) s = .next t.forwardHeld ∧ t.out = s.out ++ [.flit n fl] ∧ fl.seq = (s.arch n).txSeq ∧ fl.body = x.fl.body ∧
      fl.kind = x.fl.kind ∧ (t.arch n).retry = (s.arch n).retry ++ [⟨fl, x.job, x.cls⟩] ∧ kget [] 0 (t.arch n).queues = rest ∧
      (t.arch n).txSeq = ((s.arch n).txSeq + 1) % 65536 ∧ kget 0 0 (t.arch n).sent = (kget 0 0 (s.arch n).sent + 1) % 65536 ∧
      SameOtherArches n s t ∧ SameBeyondArcade s t ∧ t.od = s.od) ∧
  (∀ (n : Nat) (s : State), archOk n = true → (s.arch n).alive = true → 512 ≤ (s.arch n).retry.length → (s.arch n).resend = [] →
    ∃ t : State, exec (.flitSlot n) s = .next t.forwardHeld ∧ (t.arch n).queues = (s.arch n).queues ∧ (t.arch n).retry = (s.arch n).retry ∧
      (t.arch n).txSeq = (s.arch n).txSeq ∧ t.arcade.held = s.arcade.held ∧ SameOtherArches n s t) ∧
  (∀ (n : Nat) (fl : Flit) (errs : List BitErr) (s : State), archOk n = true → 1 ≤ (s.arch n).state → (s.arch n).state ≤ 4 → (s.arch n).partnerTest = false →
    (fl.crcOk = false ∨ 2 < fl.kind) →
    ∃ t : State, exec (.dataFlit n ⟨fl, errs⟩) s = .next t ∧ (t.arch n).crcFails = (s.arch n).crcFails + 1 ∧ (t.arch n).discard = true ∧
      (t.arch n).nak = ((s.arch n).nak || !(s.arch n).discard) ∧ (t.arch n).rxSeq = (s.arch n).rxSeq ∧ (t.arch n).partial_ = (s.arch n).partial_ ∧
      (t.arch n).retry = (s.arch n).retry ∧ SameOtherArches n s t ∧ SameBeyondArcade s t ∧ t.od = s.od) ∧
  (∀ (n : Nat) (fl : Flit) (errs : List BitErr) (s : State), archOk n = true → 1 ≤ (s.arch n).state → (s.arch n).state ≤ 4 → (s.arch n).partnerTest = false →
    fl.crcOk = true → fl.kind = 1 → fl.seq ≠ (s.arch n).rxSeq →
    ∃ t : State, exec (.dataFlit n ⟨fl, errs⟩) s = .next t ∧ (t.arch n).discard = true ∧ (t.arch n).nak = ((s.arch n).nak || !(s.arch n).discard) ∧
      (t.arch n).rxSeq = (s.arch n).rxSeq ∧ (t.arch n).partial_ = (s.arch n).partial_ ∧ (t.arch n).freed = (s.arch n).freed ∧
      SameOtherArches n s t ∧ SameBeyondArcade s t ∧ t.od = s.od) ∧
  (∀ (n : Nat) (fl : Flit) (errs : List BitErr) (s : State) (b : Bytes), archOk n = true → 1 ≤ (s.arch n).state → (s.arch n).state ≤ 4 → (s.arch n).partnerTest = false →
    b = (if fl.first then [] else kget [] (fl.vc % 4) (s.arch n).partial_) ++ fl.body.take 240 →
    fl.crcOk = true → fl.kind = 1 → fl.seq = (s.arch n).rxSeq → fl.last = false →
    ∃ t : State, exec (.dataFlit n ⟨fl, errs⟩) s = .next t ∧ (t.arch n).rxSeq = ((s.arch n).rxSeq + 1) % 65536 ∧ (t.arch n).discard = false ∧
      kget [] (fl.vc % 4) (t.arch n).partial_ = b ∧
      kget 0 (fl.vc % 4) (t.arch n).freed = (kget 0 (fl.vc % 4) (s.arch n).freed + (if fl.first then kget 0 (fl.vc % 4) (s.arch n).owed else 0) +
        (if leField b 0 8 = s.ownPath.toNat then 1 else 0)) % 65536 ∧
      kget 0 (fl.vc % 4) (t.arch n).owed = (if fl.first then 0 else kget 0 (fl.vc % 4) (s.arch n).owed) + (if leField b 0 8 = s.ownPath.toNat then 0 else 1) ∧
      kget 0 (fl.credVc % 4) (t.arch n).credit = fl.credCount % 65536 ∧ SameOtherArches n s t ∧ SameBeyondArcade s t ∧ t.od = s.od)

/-- On an arch that is up: an ACK timeout, before the eighth replay in succession, makes every unacknowledged flit due again and frees none; at the eighth, in Run, the arch retrains. A NAK does the same
after what lies before the expected SEQ has been freed. FEC lock lost makes the arch retrain, and so does, in Run, a lane at its limit of corrected symbols, which first counts. A retrain keeps queues and retry buffer, and makes every
unacknowledged flit due for replay. No other arch changes. -/
def Obligations.ReplayAndRetrainKeepFlits : Prop :=
  (∀ (n : Nat) (s : State), archOk n = true → (s.arch n).up = true → (s.arch n).retry ≠ [] → ((s.arch n).streak + 1 < 8 ∨ s.mode ≠ .run) →
    ∃ t : State, exec (.ackTimeout n) s = .next t ∧ t.arch n = { s.arch n with resend := (s.arch n).retry, streak := (s.arch n).streak + 1 } ∧
      SameOtherArches n s t ∧ SameBeyondArcade s t ∧ t.od = s.od) ∧
  (∀ (n : Nat) (s : State), archOk n = true → (s.arch n).up = true → (s.arch n).retry ≠ [] → 8 ≤ (s.arch n).streak + 1 → s.mode = .run →
    ∃ t : State, exec (.ackTimeout n) s = .next t ∧ (t.arch n).state = 1 ∧ (t.arch n).retraining = true ∧ (t.arch n).retry = (s.arch n).retry ∧
      (t.arch n).resend = (s.arch n).retry ∧ (t.arch n).queues = (s.arch n).queues ∧ (t.arch n).retrains = (s.arch n).retrains + 1 ∧
      SameOtherArches n s t ∧ SameBeyondArcade s t ∧ t.od = s.od) ∧
  (∀ (n expected k : Nat) (s : State) (x : TxFlit) (l : List TxFlit), archOk n = true → (s.arch n).up = true → (s.arch n).retry = x :: l → x.fl.seq < 65536 →
    expected = (x.fl.seq + k) % 65536 → k ≤ l.length → l.length < 65535 → 0 < k →
    ∃ t : State, exec (.nak n expected) s = .next t ∧ (t.arch n).retry = (x :: l).drop k ∧ (t.arch n).resend = (x :: l).drop k ∧
      (t.arch n).streak = 1 ∧ (t.arch n).queues = (s.arch n).queues ∧ SameOtherArches n s t ∧ SameBeyondArcade s t ∧ t.od = s.od) ∧
  (∀ (n : Nat) (s : State), archOk n = true → (s.arch n).up = true →
    ∃ t : State, exec (.fecLockLost n) s = .next t ∧ (t.arch n).state = 1 ∧ (t.arch n).retraining = true ∧ (t.arch n).attempts = 0 ∧
      (t.arch n).retry = (s.arch n).retry ∧ (t.arch n).resend = (s.arch n).retry ∧ (t.arch n).queues = (s.arch n).queues ∧
      (t.arch n).spare = (s.arch n).spare ∧ SameOtherArches n s t ∧ SameBeyondArcade s t ∧ t.od = s.od) ∧
  (∀ (n : Nat) (l : List Nat) (u : Nat) (s : State), archOk n = true → (s.arch n).up = true → (s.arch n).partnerTest = false →
    ∃ t : State, exec (.laneFecWindow n l u) s = .next t ∧ (t.arch n).fecCorr = (s.arch n).fecCorr + l.sum ∧ (t.arch n).fecUncorr = (s.arch n).fecUncorr + u ∧
      (t.arch n).retry = (s.arch n).retry ∧ (t.arch n).queues = (s.arch n).queues ∧
      (t.arch n).state = (if s.mode = .run ∧ (∃ k ∈ l, s.odGet Od.laneSymbolLimit ≤ k) then 1 else (s.arch n).state) ∧
      SameOtherArches n s t ∧ SameBeyondArcade s t ∧ t.od = s.od)

/-- An arch in training whose attempt passes every event is trained on four lanes, on four with the spare where exactly one of them fails, or narrowed on two where fewer of them pass. A failed attempt, before the third, starts
again from the first event; at the third, at a first training, the arch is down with nothing queued. In Ready and Run ARCH_RETRY starts every enabled arch that is down and not under test, and no other. An arch
that goes down carries nothing from then on, and its Fault, its routes, its jobs and its partner follow. The cable of an arch has its wafer's 3.3 V supply from Training onward, while the arch is enabled. -/
def Obligations.ArchTrainingOutcomes : Prop :=
  (∀ (n : Nat) (pass : List Nat) (rt lanes : Nat) (sp : Bool) (s : State), archOk n = true → (s.arch n).state = 1 → (s.arch n).partnerTest = false →
    laneOutcome pass = some (lanes, sp) → rt ≤ 2000 → s.arcade.held = [] →
    ∃ t : State, exec (.archTraining n true pass true rt true) s = .next t ∧ (t.arch n).state = (if lanes = 4 then 3 else 4) ∧ (t.arch n).lanes = lanes ∧
      (t.arch n).roundTrip = rt ∧ (t.arch n).attempts = 0 ∧ (t.arch n).missed = 0 ∧
      ((s.arch n).retraining = true → (s.arch n).afterTest = false → (t.arch n).retry = (s.arch n).retry ∧ (t.arch n).txSeq = (s.arch n).txSeq) ∧
      ((s.arch n).retraining = false → (t.arch n).retry = [] ∧ (t.arch n).txSeq = 0 ∧ (t.arch n).rxSeq = 0 ∧ (t.arch n).sent = [] ∧ (t.arch n).spare = sp) ∧
      SameOtherArches n s t ∧ t.halls = s.halls ∧ t.mem = s.mem ∧ t.serve = s.serve) ∧
  (∀ pass : List Nat, ((∀ l < 4, l ∈ pass) → laneOutcome pass = some (4, false)) ∧
    (∀ k < 4, k ∉ pass → (∀ l < 4, l ≠ k → l ∈ pass) → 4 ∈ pass → laneOutcome pass = some (4, true)) ∧
    (∀ j k, j < 4 → k < 4 → j ≠ k → (∀ l < 5, l ∈ pass ↔ l = j ∨ l = k) → laneOutcome pass = some (2, false)) ∧
    (∀ k < 5, (∀ l < 5, l ∈ pass → l = k) → laneOutcome pass = none)) ∧
  (∀ (n : Nat) (signal fec hello : Bool) (pass : List Nat) (rt : Nat) (s : State), archOk n = true → (s.arch n).state = 1 → (s.arch n).partnerTest = false →
    (signal && fec && hello && decide (rt ≤ 2000) && (laneOutcome pass).isSome) = false →
    ((s.arch n).attempts < 2 → ∃ t : State, exec (.archTraining n signal pass fec rt hello) s = .next t ∧
      t.arch n = { s.arch n with attempts := (s.arch n).attempts + 1 } ∧ SameOtherArches n s t ∧ SameBeyondArcade s t ∧ t.od = s.od) ∧
    (2 ≤ (s.arch n).attempts → (s.arch n).retraining = false → ∃ t : State, exec (.archTraining n signal pass fec rt hello) s = .next t ∧
      (t.arch n).state = 5 ∧ (t.arch n).lanes = 0 ∧ (t.arch n).queues = [] ∧ (t.arch n).retry = [] ∧ SameOtherArches n s t)) ∧
  (∀ s : State, (s.mode = .ready ∨ s.mode = .run) →
    ∃ t : State, exec .archRetry s = .next t ∧ SameBeyondArcade s t ∧ t.od = s.od ∧ ∀ n < 12, t.arch n =
      if (s.arch n).state = 5 ∧ bit (s.odGet Od.archEnable) n = true ∧ s.testing 1 n = false ∧ (s.arch n).partnerTest = false then
        { s.arch n with state := 1, attempts := 0 } else s.arch n) ∧
  (∀ (n : Nat) (s : State), s.mode = .training ∨ s.mode = .ready ∨ s.mode = .run ∨ s.mode = .stopped → s.cableSupply n = bit (s.odGet Od.archEnable) n) ∧
  (∀ (n cause : Nat) (s : State), archOk n = true → cause ≤ 3 → (s.arch n).up = true →
    ∃ r : State, r.arch n = { (s.arch n).emptied 5 s.epoch with lanes := 0 } ∧ SameOtherArches n s r ∧ SameBeyondArcade s r ∧
      (let q := r.fault { code := 0x5010, hall := n / 3, unit := n } (unitSubject 6 (n / 3) n)
       exec (.archDown n cause) s = .next (if q.mode = .safeStop then q
         else (((s.arch n).jobsAtRisk.foldl State.reportJob (q.reroute n (s.arch n))).partnerLost n).forwardHeld.closeSettled)))

/-- TIME_REQ on an arch that is up makes an answer with T1, T2 and T3 pending on it. The tick of a module that is not the reference asks its parent, and without one begins holdover. An answer that was asked for gives the offset; 16 in
succession near the parent lock the counter; outside Training the counter is not stepped, and in no case does it fall. A pulse in rack mode loads the announced value but never lowers the counter. The lost
rack reference, and an offset beyond its bound for long, change the time state and are logged, and move no counter value. -/
def Obligations.TimeAcrossModules : Prop :=
  (∀ (n t1 t2 t3 : Nat) (s : State), archOk n = true → (s.arch n).up = true →
    ∃ t : State, exec (.timeReq n t1 t2 t3) s = .next t ∧
      t.arch n = { s.arch n with timeCtl := (s.arch n).timeCtl ++ [ctlFlit (leBytes 1 3 ++ timeBytes t1 ++ timeBytes t2 ++ timeBytes t3)] } ∧
      SameOtherArches n s t ∧ SameBeyondArcade s t ∧ t.epoch = s.epoch ∧ t.od = s.od) ∧
  (∀ (n : Nat) (s : State), s.mode ≠ .off → s.timeRef = false → s.rackFollower = false → s.parent = some n →
    ∃ t : State, exec .timeExchangeTick s = .next t ∧ t.arcade.askedAt = some s.epoch ∧
      (t.arch n).timeCtl = (s.arch n).timeCtl ++ [ctlFlit (leBytes 1 2 ++ timeBytes (s.epoch * 256))] ∧ SameOtherArches n s t ∧ SameBeyondArcade s t ∧
      t.epoch = s.epoch) ∧
  (∀ s : State, s.mode ≠ .off → s.timeRef = false → s.rackFollower = false → s.parent = none →
    ∃ t : State, exec .timeExchangeTick s = .next t ∧ t.odGet Od.timeState = 3 ∧ t.arcade.inBound = 0 ∧ SameBeyondArcade s t ∧ t.epoch = s.epoch) ∧
  (∀ (n t1 t2 t3 t4 : Nat) (s : State), archOk n = true → s.arcade.askedAt.isSome = true → s.parent = some n →
    ∃ t : State, exec (.timeResp n t1 t2 t3 t4) s = .next t ∧ t.arcade.askedAt = none ∧ s.epoch ≤ t.epoch ∧ (s.mode ≠ .training → t.epoch = s.epoch) ∧
      t.odGet Od.timeExchanges = (s.odGet Od.timeExchanges + 1) % odModulus Od.timeExchanges ∧
      t.odGet Od.offsetNs = ofInt 32 (timeOffset t1 t2 t3 t4) ∧
      (nearParent t1 t2 t3 t4 = false → t.arcade.inBound = 0) ∧ (nearParent t1 t2 t3 t4 = true → t.arcade.inBound = s.arcade.inBound + 1) ∧
      (nearParent t1 t2 t3 t4 = true → 15 ≤ s.arcade.inBound → t.odGet Od.timeState = 2) ∧
      (s.mode ≠ .training → t.arcade.slew = 2 * timeOffset t1 t2 t3 t4) ∧ t.arcade.arches = s.arcade.arches ∧ SameBeyondArcade s t) ∧
  (∀ s : State, s.mode ≠ .off → s.rackFollower = true →
    ∃ t : State, exec .rackSyncPulse s = .next t ∧ s.epoch ≤ t.epoch ∧ (∀ v, s.arcade.announced = some v → t.epoch = max s.epoch v) ∧
      (s.arcade.announced = none → t.epoch = s.epoch) ∧ t.arcade.announced = none ∧ t.arcade.pulseAt = some s.epoch ∧
      t.odGet Od.syncPulses = (s.odGet Od.syncPulses + 1) % odModulus Od.syncPulses ∧ SameBeyondArcade s t) ∧
  (∀ s : State, s.rackMode = true → s.mode ≠ .off →
    ∃ t : State, exec .rackRefLost s = .next t ∧ t.arcade.rackLost = true ∧ t.rackMode = false ∧ t.epoch = s.epoch ∧ t.arcade.arches = s.arcade.arches ∧
      t.halls = s.halls ∧ t.mem = s.mem ∧ t.serve = s.serve) ∧
  (∀ s : State, s.arcade.outSince.isSome = true → s.odGet Od.timeState ≠ 4 → s.timeRef = false →
    ∃ t : State, exec .timeUnaligned s = .next t ∧ t.odGet Od.timeState = 4 ∧ t.odGet Od.alignLosses = (s.odGet Od.alignLosses + 1) % odModulus Od.alignLosses ∧
      t.epoch = s.epoch ∧ t.arcade.arches = s.arcade.arches ∧ t.halls = s.halls ∧ t.mem = s.mem ∧ t.serve = s.serve)

/-- A legal STATE_REQUEST, with no transition and no firmware programming in the way, no tripped sensor for Standby and no EXTEST for Run, begins its transition, after a running test has been aborted;
one that is not legal from the state is refused with 0x1103, and so is one during a transition. STORE in Stopped keeps the values of the stored entries and of no other; RESTORE forgets them; both leave every value in force, and are
refused elsewhere. TRAIN_REQUEST of 1 in Standby begins Training where the timebase allows it. An accepted transition ends in the state requested, into Run with every stream going on, and without one nothing ends. -/
def Obligations.StateAndStoreRequests : Prop :=
  (∀ (s : State) (w : OdW) (via : Via) (m : ModState), ReachesScalar s w via Od.stateRequest → legalRequest s.mode (leNat w.value) = some m → s.trans = none →
    s.fwBusy = false → (m = .standby → s.tripHot = false) → (m = .run → s.odGet Od.extestSinceStandby = 0) →
    Commits s (.stateRequest w) w.via { s.finishTest 5 with trans := some m }) ∧
  (∀ (s : State) (w : OdW) (via : Via), ReachesScalar s w via Od.stateRequest →
    (legalRequest s.mode (leNat w.value) = none ∨ s.trans.isSome = true ∨ s.fwBusy = true) → Denied s (.stateRequest w) w.via 0x1103) ∧
  (∀ (s : State) (w : OdW) (via : Via), ReachesScalar s w via Od.store → s.mode = .stopped → s.fwBusy = false →
    ∃ r : State, Commits s (.store w) w.via r ∧ (∀ e, e ∈ r.od.stored ↔ e ∈ s.od.vals ∧ isStored e.1 = true) ∧
      (∀ e, e ∈ r.od.storedDom ↔ e ∈ s.od.doms ∧ isStored e.1 = true) ∧ r.od.vals = s.od.vals ∧ r.od.doms = s.od.doms ∧ r = { s with od := r.od }) ∧
  (∀ (s : State) (w : OdW) (via : Via), ReachesScalar s w via Od.restore → s.mode = .stopped → s.fwBusy = false →
    ∃ r : State, Commits s (.restore w) w.via r ∧ r.od.stored = [] ∧ r.od.storedDom = [] ∧ r.od.vals = s.od.vals ∧ r.eop = s.eop ∧ r = { s with od := r.od }) ∧
  (∀ (s : State) (w : OdW) (via : Via), (s.mode ≠ .stopped ∨ s.fwBusy = true) → (ReachesScalar s w via Od.store → Denied s (.store w) w.via 0x1103) ∧
    (ReachesScalar s w via Od.restore → Denied s (.restore w) w.via 0x1103)) ∧
  (∀ (s : State) (w : OdW) (via : Via), ReachesScalar s w via Od.trainRequest → s.mode = .standby → s.trans = none → s.tripHot = false → leNat w.value = 1 →
    ∃ r : State, Commits s (.trainRequest w) w.via r ∧ r.start.waitTrain = false ∧ r.mode = (if s.mayTrain then .training else .standby) ∧
      (s.mayTrain = true → r.odGet Od.trainingState = 1 ∧ r.power.hallPower = [0, 1, 2, 3] ∧
        ∀ n < 12, bit (s.odGet Od.archEnable) n = true → (r.arch n).state = 1)) ∧
  (∀ s : State, s.trans = none → exec .stateTransitionEnd s = .next s) ∧
  (∀ s : State, s.trans = some .run → s.mode ≠ .ready →
    exec .stateTransitionEnd s = .next (((s.setMode .run).streamList.filter (fun i => runningState ((s.setMode .run).sState i))).foldl
        (fun s i => s.continueStream i) (s.setMode .run)) ∧
      (s.setMode .run).mode = .run ∧ (s.setMode .run).trans = none ∧ (s.setMode .run).halls = s.halls ∧ (s.setMode .run).mem = s.mem ∧
      (s.setMode .run).serve = s.serve) ∧
  (∀ s : State, s.trans = some .stopped →
    ∃ t : State, exec .stateTransitionEnd s = .next t ∧ t.mode = .stopped ∧ t.trans = none ∧
      (s.serve.steps = [] → s.serve.streams = [] → t.mem.cells = s.mem.cells ∧ ∀ k, (t.flight k).current = none ∧ (t.flight k).tiles = [])) ∧
  (∀ s : State, s.trans = some .standby → s.toStandby.odGet Od.startMode ≠ 2 →
    ∃ t : State, exec .stateTransitionEnd s = .next t ∧ t.mode = .standby ∧ t.trans = none ∧ t.mem.cells = [] ∧ t.halls = HallsSt.reset ∧
      t.serve = ServeSt.reset ∧ t.start.waitTrain = true)

/-- A tenant root that no running work of the tenant forbids is taken, and every cached translation of the tenant goes; XLATE_INVALIDATE drops the translations of its tenant that cover a page it names, and no other, and is answered behind the module's writes that wait for the host's caches.
The consumer indices are taken. TABLE_BASE (with the entries of the table read from there) and FIELD_BASE are taken while no entry is live, the host window while no model is loaded and no decoder committed, LAYER_MODE with an empty window. ERROR_ACK drops the
buffered records up to its SEQ, and PERSISTENT_CLEAR the persistent ones. An answer to a page request that is not listed is refused with 0x1105. -/
def Obligations.EntryWritesTakeEffect : Prop :=
  (∀ (s : State) (w : OdW) (via : Via) (t : Nat), t < 64 → ReachesScalar s w via (Od.tenantRoot0 + t) →
    (s.progs.all (fun e => e.2.img.tenant != t) && s.streamList.all (fun i => s.sTenant i != t || endedState (s.sState i))) = true →
    ∃ r : State, Commits s (.tenantRootWrite w t) w.via r ∧ r.tenantRoot t = writtenValue (Od.tenantRoot0 + t) (leNat w.value) ∧
      (∀ x, x ∈ r.xlate.cache ↔ x ∈ s.xlate.cache ∧ x.tenant ≠ t) ∧ r.mem = s.mem ∧ r.halls = s.halls) ∧
  (∀ (s : State) (w : OdW) (via : Via), ReachesScalar s w via Od.xlateInvalidate → s.cxl.waiting.any hostWrites = true →
    exec (.xlateInvalidate w) s = .next (((s.invalidate (leNat w.value)).count Od.odWriteSeq 1).hostActs
      [.answer (.via w.via) 1 Od.xlateInvalidate (((s.invalidate (leNat w.value)).count Od.odWriteSeq 1).odGet Od.odWriteSeq)])) ∧
  (∀ (s : State) (w : OdW) (via : Via), ReachesScalar s w via Od.xlateInvalidate → s.cxl.waiting.any hostWrites = false →
    ∃ r : State, Commits s (.xlateInvalidate w) w.via r ∧ r = { s with xlate := r.xlate } ∧
      ∀ x, x ∈ r.xlate.cache ↔ x ∈ s.xlate.cache ∧ ¬ (x.tenant = bits (leNat w.value) 63 58 ∧ (bit (leNat w.value) 57 = true ∨
        (x.base < bits (leNat w.value) 47 12 * 4096 + (bits (leNat w.value) 11 0 + 1) * 4096 ∧ bits (leNat w.value) 47 12 * 4096 < x.base + x.size)))) ∧
  (∀ (s : State) (w : OdW) (via : Via), ReachesScalar s w via Od.prlConsumer → s.xlate.requests = [] →
    Commits s (.prlConsumerWrite w) w.via (s.odPut Od.prlConsumer (leNat w.value))) ∧
  (∀ (s : State) (w : OdW) (via : Via), ReachesScalar s w via Od.clogConsumer → s.serve.clog = [] →
    Commits s (.clogConsumerWrite w) w.via (s.odPut Od.clogConsumer (leNat w.value))) ∧
  (∀ (s : State) (w : OdW) (via : Via) (fb : Bool), ReachesScalar s w via (if fb then Od.fieldBase else Od.tableBase) →
    (s.entriesLive ≠ 0 → Denied s (.tableBaseWrite w fb) w.via 0x1103) ∧
    (s.entriesLive = 0 → s.foyer.cells = [] → Commits s (.tableBaseWrite w fb) w.via
      (if fb then s.odPut Od.fieldBase (leNat w.value) else (s.odPut Od.tableBase (leNat w.value)).readTable))) ∧
  (∀ (s : State) (w : OdW) (via : Via) (sz : Bool), ReachesScalar s w via (if sz then Od.hostWindowSize else Od.hostWindowBase) →
    (s.odGet Od.hdmCommitted ≠ 0 → Denied s (.hostWindowWrite w sz) w.via 0x1103) ∧
    (s.odGet Od.hdmCommitted = 0 → (∀ m ∈ s.serve.models, m.2.state = 0 ∨ m.2.state = 5) →
      Commits s (.hostWindowWrite w sz) w.via (s.odPut (if sz then Od.hostWindowSize else Od.hostWindowBase) (leNat w.value)))) ∧
  (∀ (s : State) (w : OdW) (via : Via) (k : Nat) (l : PredLayer), ReachesScalar s w via Od.layerMode → s.selectedLayer (roleOf via) = some (k, l) →
    ∃ r : State, Commits s (.layerModeWrite w) w.via r ∧ r.mem = s.mem ∧ r.halls.flights = s.halls.flights ∧
      kfind k r.halls.layers = some { l with mode := leNat w.value, window := [], fallback := false }) ∧
  (∀ (s : State) (w : OdW) (via : Via), ReachesScalar s w via Od.errorAck →
    ∃ r : State, Commits s (.errorAck w) w.via r ∧ r = { s with log := r.log } ∧ r.log.ring = s.log.ring ∧ r.log.persist = s.log.persist ∧
      ∀ x, x ∈ r.log.buffer ↔ x ∈ s.log.buffer ∧ leNat w.value < x.seq) ∧
  (∀ (s : State) (w : OdW) (via : Via), ReachesScalar s w via Od.persistentClear →
    ∃ r : State, Commits s (.persistentClear w) w.via r ∧ r = { s with log := r.log } ∧ r.log.persist = [] ∧ r.log.ring = s.log.ring ∧ r.log.buffer = s.log.buffer) ∧
  (∀ (s : State) (w : OdW) (via : Via), ReachesScalar s w via Od.pageResponse →
    (∀ q ∈ s.xlate.requests, q.rec_ ≠ some (leNat w.value % 65536 % 256)) → Denied s (.pageResponse w) w.via 0x1105) ∧
  (∀ (s : State) (w : OdW) (via : Via) (q : PageReq), ReachesScalar s w via Od.pageResponse → s.xlate.requests = [q] →
    q.rec_ = some (leNat w.value % 65536 % 256) → leNat w.value % 65536 / 256 = 1 → s.waitersOf q = [] →
    ∃ r : State, Commits s (.pageResponse w) w.via r ∧ r.xlate.requests = [] ∧ r.mem = s.mem ∧ r.halls = s.halls)

/-- A whole image that passes its form, signature, version and digest is staged for programming; one that fails is answered with the code of its first failed check, and the slot keeps its image. Programming that succeeds
makes the slot hold the staged image, state 4 and its version; one that fails leaves the slot empty, with state 5 and 0x7104. FW_ACTIVATE in Stopped, of a programmed image, begins the entry into Standby. A read of the attestation report opens a
transfer of the report as it stands, and reads nothing else. -/
def Obligations.FirmwareAndAttestation : Prop :=
  (∀ (s : State) (w : OdW) (via : Via), ReachesDomain s w via Od.fwImage → fwHeaderOk w.value = true → s.newel.security ≤ leField w.value 28 4 →
    ∃ r : State, Commits s (.fwImage w true true) w.via r ∧ r.newel.staged = some (⟨leField w.value 24 4, leField w.value 28 4, leField w.value 40 64⟩, w.value.length) ∧
      r.newel.slot = s.newel.slot ∧ r.newel.running = s.newel.running ∧ r.odGet Od.fwState = 3 ∧ r.odGet Od.fwProgress = 0 ∧ r.mem = s.mem ∧ r.mode = s.mode) ∧
  (∀ (s : State) (w : OdW) (via : Via) (sig dig : Bool), ReachesDomain s w via Od.fwImage →
    (fwHeaderOk w.value && sig && decide (s.newel.security ≤ leField w.value 28 4) && dig) = false →
    ∃ t : State, exec (.fwImage w sig dig) s = .next t ∧ t.newel.staged = s.newel.staged ∧ t.newel.slot = s.newel.slot ∧ t.newel.running = s.newel.running ∧
      t.odGet Od.odWriteSeq = s.odGet Od.odWriteSeq ∧
      t.odGet Od.fwLastCode = (if fwHeaderOk w.value = false then 0x7101 else if sig = false then 0x7102
        else if leField w.value 28 4 < s.newel.security then 0x7103 else 0x7102)) ∧
  (∀ (s : State) (i : FwImage) (n : Nat), s.odGet Od.fwState = 3 → s.newel.staged = some (i, n) →
    (∃ t : State, exec (.fwProgramDone true) s = .next t ∧ t.newel.slot = some i ∧ t.newel.staged = none ∧ t.newel.running = s.newel.running ∧
      t.odGet Od.fwState = 4 ∧ t.odGet Od.fwStagedVersion = i.version ∧ t.mode = s.mode ∧ t.mem = s.mem) ∧
    (∃ t : State, exec (.fwProgramDone false) s = .next t ∧ t.newel.slot = none ∧ t.newel.running = s.newel.running ∧ t.odGet Od.fwState = 5 ∧
      t.odGet Od.fwLastCode = 0x7104 ∧ t.mode = s.mode ∧ t.mem = s.mem)) ∧
  (∀ (s : State) (ok : Bool), s.odGet Od.fwState ≠ 3 → exec (.fwProgramDone ok) s = .next s) ∧
  (∀ (s : State) (w : OdW) (via : Via), ReachesScalar s w via Od.fwActivate → s.mode = .stopped → s.odGet Od.fwState = 4 → s.trans = none →
    ∃ r : State, Commits s (.fwActivate w) w.via r ∧ r.trans = some .standby ∧ r.newel.fwActivated = true ∧ r.newel.running = s.newel.running ∧ r.mode = .stopped) ∧
  (∀ (s : State) (via : Via) (path : Word64) (level : Nat), s.mode ≠ .off → s.newel.restarting = false → s.newel.recovery = false → s.target path = .here none false level →
    s.od.transfers = [] →
    ∃ t : State, exec (.attestReport via path) s = .next t ∧
      t.od.transfers = [⟨via, Od.attestReport, false, (s.attestReport (roleOf via)).length, s.attestReport (roleOf via), 0, s.epoch⟩] ∧
      t.odGet Od.odWriteSeq = s.odGet Od.odWriteSeq ∧ t.mem = s.mem ∧ t.newel = s.newel ∧ t.halls = s.halls)

/-- A first load descriptor of a new handle, of a good form, in a state that takes loads, opens the load and, with the Planner's reading of a package that it accepts, plans it, or, where the Planner or a hard hint refuses the plan, ends it in state 5 with the code; in other states it is refused with 0x1103. UNLOAD of an unknown handle is
refused with 0x1105, and of a model that a program or a live stream uses with 0x1103; otherwise the model is gone. A field map or an edit whose records break a rule is refused with 0x1105, and so is an edit of an unknown action; an empty
map, where there is no cell, leaves none. -/
def Obligations.LoadUnloadAndFieldMap : Prop :=
  (∀ (s : State) (w : OdW) (via : Via) (p : Package), ReachesDomain s w via Od.loadRequest → s.awaitsPlan (loadD w.value) = false → s.mayLoad = true →
    s.loadForm (loadD w.value) = true → (loadD w.value).part = 0 → (loadD w.value).model ≠ 0 → kfind (loadD w.value).model s.serve.models = none → p.partOk = true →
    (∀ x : ModelSt, x.hallMask = (loadD w.value).hallMask → x.members = (loadD w.value).members → x.flags = (loadD w.value).flags → s.planRefusal x p = 0) →
    ∃ (r : State) (x : ModelSt), Commits s (.loadRequest w p) w.via r ∧ kfind (loadD w.value).model r.serve.models = some x ∧ x.state = 2 ∧ x.pkg = some p ∧
      x.tenant = (loadD w.value).tenant ∧ x.since = s.epoch ∧ r.mem = s.mem ∧ r.halls = s.halls ∧
      (∀ m, m ≠ (loadD w.value).model → kfind m r.serve.models = kfind m s.serve.models)) ∧
  (∀ (s : State) (w : OdW) (via : Via) (p : Package), ReachesDomain s w via Od.loadRequest → s.awaitsPlan (loadD w.value) = false → s.mayLoad = false →
    Denied s (.loadRequest w p) w.via 0x1103) ∧
  (∀ (s : State) (w : OdW) (p : Package) (x : ModelSt), w.value.length = 64 → s.awaitsPlan (loadD w.value) = true →
    kfind (loadD w.value).model s.serve.models = some x → p.partOk = true →
    ((x.part = 0 → s.planRefusal x p = 0) → ∃ t : State, exec (.loadRequest w p) s = .next t ∧ t.mem = s.mem ∧ t.halls = s.halls ∧
      kfind (loadD w.value).model t.serve.models = some { x with state := 2, pkg := if x.part = 0 then some p else x.pkg }) ∧
    (x.part = 0 → s.planRefusal x p ≠ 0 → ∃ (t : State) (y : ModelSt), exec (.loadRequest w p) s = .next t ∧ t.mem = s.mem ∧ t.halls = s.halls ∧
      kfind (loadD w.value).model t.serve.models = some y ∧ y.state = 5 ∧ y.code = s.planRefusal x p ∧ y.pkg = none)) ∧
  (∀ (s : State) (w : OdW) (via : Via), ReachesScalar s w via Od.unload →
    (kfind (leNat w.value) s.serve.models = none → Denied s (.unload w) w.via 0x1105) ∧
    ((kfind (leNat w.value) s.serve.models).isSome = true → (∃ e ∈ s.progs, e.2.img.model = leNat w.value) → Denied s (.unload w) w.via 0x1103) ∧
    ((kfind (leNat w.value) s.serve.models).isSome = true → s.progs = [] → s.streamList = [] →
      Commits s (.unload w) w.via (s.releaseModel (leNat w.value)).closeSettled)) ∧
  (∀ (s : State) (w : OdW) (via : Via), ReachesDomain s w via Od.fieldMap →
    ((∃ r ∈ mapRecords w.value, s.cellRecOk r = false) → Denied s (.fieldMapWrite w) w.via 0x1105) ∧
    (w.value = [] → s.foyer.cells = [] → ∃ r : State, Commits s (.fieldMapWrite w) w.via r ∧ r.foyer.cells = [] ∧ r.domGet Od.fieldMap [] = [] ∧
      r.mem = s.mem ∧ r.serve = s.serve)) ∧
  (∀ (s : State) (w : OdW) (via : Via), ReachesDomain s w via Od.fieldCellSet →
    (2 ≤ leField w.value 18 1 → Denied s (.fieldCellSet w) w.via 0x1105) ∧
    (leField w.value 18 1 = 0 → s.cellRecOk (cellRecOf w.value) = false → Denied s (.fieldCellSet w) w.via 0x1105) ∧
    (leField w.value 18 1 = 1 → s.foyer.cells = [] → s.domGet Od.fieldMap [] = [] →
      ∃ r : State, Commits s (.fieldCellSet w) w.via r ∧ r.foyer.cells = [] ∧ r.mem = s.mem ∧ r.serve = s.serve))

/-- In Ready and Stopped, with no test running, TEST_START of a target that the table has and that does not carry the request, MARGIN_START of a stack or mezzanine that is present and BIST_START of a part that is free begin their test; in other states each
is refused with 0x1103, and while a test runs with 0x1107. TEST_ABORT ends the running test with state 5. The end of a test judges it: state 2 where bits came and the errors stay within the limit, else 3; a far end that never answered makes 4. MARGIN_END ends a margin with
state 2, BIST_END a self-test with 2 where nothing failed. MEAS_START begins a measurement, and its end gives its count. A partner's test is joined where the module allows it, LOOP_ACK lets a test proceed, and ECHO is returned in a partner's test alone. -/
def Obligations.TestsRunAndEnd : Prop :=
  (∀ (s : State) (w : OdW) (via : Via) (port : Nat), ReachesScalar s w via Od.testStart → leNat w.value = 1 →
    (s.mode ≠ .ready → s.mode ≠ .stopped → Denied s (.testStart w port) w.via 0x1103) ∧
    ((s.mode = .ready ∨ s.mode = .stopped) → s.test.run.isSome = true → Denied s (.testStart w port) w.via 0x1107) ∧
    (s.mayTest = 0 → testOk (s.odGet Od.testTarget / 256) (s.odGet Od.testTarget % 256) (s.odGet Od.testDepth) (s.odGet Od.testPattern) = true →
      ownTestPath via port (s.odGet Od.testTarget / 256) (s.odGet Od.testTarget % 256) = false → s.odGet Od.testTarget / 256 ≠ 3 →
      ∃ r : State, Commits s (.testStart w port) w.via r ∧ r.odGet Od.testState = 1 ∧ r.mem = s.mem ∧ r.halls = s.halls ∧
        r.test.run = some ⟨1, s.odGet Od.testTarget / 256, s.odGet Od.testTarget % 256, s.odGet Od.testDepth, s.epoch⟩ ∧
        (s.odGet Od.testTarget / 256 = 1 → (r.arch (s.odGet Od.testTarget % 256)).state = 5))) ∧
  (∀ (s : State) (w : OdW) (via : Via), ReachesScalar s w via Od.marginStart → leNat w.value = 1 →
    (s.mode ≠ .ready → s.mode ≠ .stopped → Denied s (.marginStart w) w.via 0x1103) ∧
    (s.mayTest = 0 → s.marginTargetOk (s.odGet Od.marginTarget) = true →
      ∃ r : State, Commits s (.marginStart w) w.via r ∧ r.odGet Od.marginState = 1 ∧ r.test.run = some ⟨2, 0, s.odGet Od.marginTarget, 0, s.epoch⟩ ∧
        r.mem = s.mem ∧ r.halls = s.halls ∧ r.arcade = s.arcade)) ∧
  (∀ (s : State) (w : OdW) (via : Via), ReachesScalar s w via Od.bistStart → leNat w.value = 1 →
    (s.mode ≠ .ready → s.mode ≠ .stopped → Denied s (.bistStart w) w.via 0x1103) ∧
    (s.mayTest = 0 → s.bistCheck (s.odGet Od.bistSelect) = 0 →
      ∃ r : State, Commits s (.bistStart w) w.via r ∧ r.odGet Od.bistState = 1 ∧ (r.test.run.map (·.kind)) = some 3 ∧ r.mem = s.mem ∧ r.halls = s.halls)) ∧
  (∀ (s : State) (w : OdW) (via : Via), ReachesScalar s w via Od.testAbort →
    ∃ r : State, Commits s (.testAbort w) w.via r ∧ (leNat w.value = 1 → r.test.run = none) ∧ (s.test.run = none → r = s) ∧
      (∀ x, s.test.run = some x → leNat w.value = 1 → r.odGet (testStateKey x.kind) = 5)) ∧
  (∀ (s : State) (n e c : Nat) (x : TestRun), s.test.run = some x → x.kind = 1 → (x.iface = 1 → (s.arch x.unit_).loopSent = false) → (x.iface = 3 → x.depth ≠ 4) →
    ∃ t : State, exec (.testEnd n e c) s = .next t ∧ t.test.run = none ∧ t.odGet Od.testBits = n % 2 ^ 64 ∧ t.odGet Od.testErrors = e % 2 ^ 64 ∧
      t.odGet Od.testState = (if 0 < n ∧ e ≤ s.odGet Od.testErrorLimit then 2 else 3) ∧ t.mem = s.mem ∧ t.halls = s.halls) ∧
  (∀ (s : State) (n e c : Nat) (x : TestRun), s.test.run = some x → x.kind = 1 → x.iface = 1 → (s.arch x.unit_).loopSent = true →
    ∃ t : State, exec (.testEnd n e c) s = .next t ∧ t.test.run = none ∧ t.odGet Od.testState = 4 ∧
      (bit (s.odGet Od.archEnable) x.unit_ = true → (t.arch x.unit_).state = 1 ∧ (t.arch x.unit_).afterTest = true) ∧
      (bit (s.odGet Od.archEnable) x.unit_ = false → (t.arch x.unit_).state = 0)) ∧
  (∀ (s : State) (l : List LaneMargin) (x : TestRun), s.test.run = some x → x.kind = 2 →
    ∃ t : State, exec (.marginEnd l) s = .next t ∧ t.test.run = none ∧ t.odGet Od.marginState = 2 ∧ t.mem.cells = s.mem.cells ∧ t.halls = s.halls) ∧
  (∀ (s : State) (b : Nat) (rows : List Nat) (x : TestRun), s.test.run = some x → x.kind = 3 → x.iface ≤ 2 → 1 ≤ x.iface → b = 0 →
    ∃ t : State, exec (.bistEnd b rows) s = .next t ∧ t.test.run = none ∧ t.odGet Od.bistState = 2 ∧ t.mem = s.mem ∧ t.halls = s.halls) ∧
  (∀ (s : State) (b : Nat) (rows : List Nat) (x : TestRun), s.test.run = some x → x.kind = 3 → x.iface = 3 →
    ∃ t : State, exec (.bistEnd b rows) s = .next t ∧ t.test.run = none ∧ (∀ a, stackOf a = x.unit_ → t.memByte a = memDefault) ∧
      (∀ a, stackOf a ≠ x.unit_ → t.memByte a = s.memByte a)) ∧
  (∀ (s : State) (w : OdW) (via : Via), ReachesScalar s w via Od.measStart → leNat w.value = 1 →
    measSide (s.odGet Od.measSource) = measSide (s.odGet Od.measGateSource) →
    ¬ (0x10 ≤ s.odGet Od.measSource ∧ s.odGet Od.measSource ≤ 0x4F ∧ s.odGet Od.measGateSource ≠ 0) →
    (s.odGet Od.measState = 1 → Denied s (.measStart w) w.via 0x1107) ∧
    (s.odGet Od.measState ≠ 1 → Commits s (.measStart w) w.via (s.odPut Od.measState 1))) ∧
  (∀ (s : State) (n : Nat), s.odGet Od.measState = 1 →
    ∃ t : State, exec (.measDone n) s = .next t ∧ t.odGet Od.measState = 2 ∧ t.odGet Od.measCount = n % 2 ^ 64 ∧ t = { s with od := t.od }) ∧
  (∀ (n : Nat) (path : Word64) (key : Bytes) (s : State), archOk n = true → (s.arch n).state = 5 → (s.arch n).loopSent = false → s.odGet Od.partnerLoopAllow ≠ 0 →
    (s.mode = .ready ∨ s.mode = .stopped) → s.test.run = none →
    ∃ t : State, exec (.loopReq n path key) s = .next t ∧
      t.arch n = { s.arch n with partnerTest := true, loopSent := false, ctl := (s.arch n).ctl ++ [ctlFlit loopAckBody] } ∧
      SameOtherArches n s t ∧ SameBeyondArcade s t ∧ t.od = s.od) ∧
  (∀ (n : Nat) (s : State), archOk n = true →
    ∃ t : State, exec (.loopAck n) s = .next t ∧ t.arch n = { s.arch n with loopSent := false } ∧ SameOtherArches n s t ∧ SameBeyondArcade s t ∧ t.od = s.od) ∧
  (∀ (n : Nat) (b : Bytes) (s : State), archOk n = true →
    ∃ t : State, exec (.echo n b) s = .next t ∧
      (t.arch n).ctl = (if (s.arch n).partnerTest then (s.arch n).ctl ++ [ctlFlit b] else (s.arch n).ctl) ∧ (t.arch n).queues = (s.arch n).queues ∧
      SameOtherArches n s t ∧ SameBeyondArcade s t ∧ t.od = s.od)

/-- While Newel restarts, the mailbox answers every dictionary opcode Busy; it answers a request with an opcode that the row does not serve Unsupported, and one whose payload does not hold what its header says Invalid Input. For this module, whichever path brought the
access (the mailbox, a frame of the manager, or an EOP request that passed its checks): a read that passes its checks answers with the entry's value and writes nothing; a write takes effect and OD_WRITE_SEQ rises by one, and one with a value out of range is refused with 0x1105 and leaves both.
A read start takes a snapshot of the value, and a read segment gives its bytes up to the limit of the path; a write start opens a transfer; a write segment at the next offset joins it, and one out of order is refused with 0x1122 and keeps the bytes so far; an abort ends the transfers of the entry on the path and no other.
A path that names nothing is answered with 0x5101; an access to another module that its originator may make leaves as a frame and waits as a proxy. A wait for the state that holds already is answered at once; another is answered when the state is reached, or at its time. -/
def Obligations.MailboxAccesses : Prop :=
  (∀ (s : State) (q : MbReq) (c : Instr), c ∈ [Instr.odRead q, .odWrite q, .odDomainReadStart q, .odDomainWriteStart q, .odDomainSegment q, .odDomainAbort q, .odStateWait q] →
    (s.cxl.linkUp || s.cxl.pcieOnly) = true → s.newel.restarting = true → exec c s = .next (s.mbDone (.mbReturn cxlBusy))) ∧
  (∀ (s : State) (q : MbReq) (c : Instr) (op : Nat), (c = mailboxCommand op q ∧ op ≤ 5 ∨ c = .odStateWait q ∧ op = 6) →
    (s.cxl.linkUp || s.cxl.pcieOnly) = true → s.newel.restarting = false →
    (q.opcode ≠ 0xC000 + op → exec c s = .next (s.mbDone (.mbReturn cxlUnsupported))) ∧
    (q.opcode = 0xC000 + op → (q.payload.length < 16 ∨ q.length ≠ q.body.length) → exec c s = .next (s.mbDone (.mbReturn cxlInvalidInput)))) ∧
  (∀ (s r : State) (c : Instr) (a : Access) (level n : Nat) (row : OdRow), BringsHere s r c a level → a.op = 0 → MayReadEntry r a row → row.ty.size = some n → a.body = [] →
    Answers s r c a 0 (r.scalarBytes (roleOf a.via) none level a.key n)) ∧
  (∀ (s r : State) (c : Instr) (a : Access) (level : Nat) (row : OdRow), BringsHere s r c a level → a.op = 1 → MayWriteEntry r a row → row.ty.size = some a.body.length →
    (∀ x : State, r.writeScalar a.via a.port a.key (leNat a.body) = (0, x) → (a.key = Od.xlateInvalidate → x.cxl.waiting.any hostWrites = false) → Answers s x c a 0 []) ∧
    (r.valueOk a.key (writtenValue a.key (leNat a.body)) = false → Answers s r c a 0x1105 [])) ∧
  (∀ (s : State) (k v : Nat) (via : Via) (port : Nat) (r : State), s.writeScalar via port k v = (0, r) →
    ∃ x : State, s.applyScalar via port k (writtenValue k v) = (0, x) ∧ r.odGet Od.odWriteSeq = (x.odGet Od.odWriteSeq + 1) % 2 ^ 64) ∧
  (∀ (s r : State) (c : Instr) (a : Access) (level : Nat) (row : OdRow), BringsHere s r c a level → a.op = 2 → MayReadEntry r a row → row.ty = .domain → a.body = [] →
    r.od.transfers = [] → r.odBytes (roleOf a.via) a.key ≠ [] →
    ∃ x : State, Answers s x c a 0 (leBytes 4 (r.odBytes (roleOf a.via) a.key).length) ∧ x.mem = s.mem ∧ x.halls = s.halls ∧
      x.odGet Od.odWriteSeq = r.odGet Od.odWriteSeq ∧
      x.od.transfers = [⟨a.via, a.key, false, (r.odBytes (roleOf a.via) a.key).length, r.odBytes (roleOf a.via) a.key, 0, s.epoch⟩]) ∧
  (∀ (s r : State) (c : Instr) (a : Access) (level : Nat) (row : OdRow), BringsHere s r c a level → a.op = 3 → MayWriteEntry r a row → row.ty = .domain → a.body.length = 4 →
    domLenOk a.key (leNat a.body) = true → r.od.transfers = [] → a.key ≠ Od.fwImage → leNat a.body ≠ 0 →
    ∃ x : State, Answers s x c a 0 [] ∧ x.mem = s.mem ∧ x.odGet Od.odWriteSeq = r.odGet Od.odWriteSeq ∧
      x.od.transfers = [⟨a.via, a.key, true, leNat a.body, [], 0, s.epoch⟩]) ∧
  (∀ (s r : State) (c : Instr) (a : Access) (level : Nat) (row : OdRow) (t : Transfer), BringsHere s r c a level → a.op = 4 → r.entryRow (roleOf a.via) a.key = some row →
    row.ty = .domain → 4 < a.body.length → a.body.length ≤ a.limit + 4 → row.writable = true → r.mayWrite (roleOf a.via) (a.key / 256) = true →
    r.od.transfers = [t] → t.via = a.via → t.key = a.key → t.isWrite = true → leField a.body 0 4 + (a.body.length - 4) ≤ t.total →
    (leField a.body 0 4 ≠ t.data.length → ∃ x : State, Answers s x c a 0x1122 [] ∧ x.od.transfers = [{ t with last := s.epoch }] ∧ x.mem = s.mem) ∧
    (leField a.body 0 4 = t.data.length → t.data.length + (a.body.length - 4) < t.total → t.key ≠ Od.fwImage →
      ∃ x : State, Answers s x c a 0 [] ∧ x.od.transfers = [{ t with last := s.epoch, data := t.data ++ a.body.drop 4 }] ∧ x.mem = s.mem)) ∧
  (∀ (s r : State) (c : Instr) (a : Access) (level : Nat) (row : OdRow) (t : Transfer), BringsHere s r c a level → a.op = 4 → MayReadEntry r a row →
    row.ty = .domain → a.body.length = 4 → r.od.transfers = [t] → t.via = a.via → t.key = a.key → t.isWrite = false → leField a.body 0 4 ≤ t.delivered →
    leField a.body 0 4 < t.total →
    ∃ x : State, Answers s x c a 0 ((t.data.drop (leField a.body 0 4)).take a.limit) ∧ x.mem = s.mem ∧
      x.od.transfers = [{ t with last := s.epoch, delivered := max t.delivered (leField a.body 0 4 + ((t.data.drop (leField a.body 0 4)).take a.limit).length) }]) ∧
  (∀ (s r : State) (c : Instr) (a : Access) (level : Nat), BringsHere s r c a level → a.op = 5 → (r.entryRow (roleOf a.via) a.key).isSome = true → a.key ≠ Od.fwImage →
    ∃ x : State, Answers s x c a 0 [] ∧ x.mem = s.mem ∧ ∀ t, t ∈ x.od.transfers ↔ t ∈ r.od.transfers ∧ ¬ (t.via = a.via ∧ t.key = a.key)) ∧
  (∀ (s r : State) (c : Instr) (a : Access), Brings s r c a → r.target a.path = .bad → Answers s r c a 0x5101 []) ∧
  (∀ (s r : State) (c : Instr) (a : Access) (dest down : Word64), Brings s r c a → r.target a.path = .away dest down → r.originMay a = true →
    (a.op = 4 → a.body.length ≤ min a.limit 4096 + 4) →
    ∃ x : State, exec c s = .next (x.sendFrame (x.mkFrame dest 0x02 0 0 0 r.od.nextProxy (0xC000 + a.op) (odRequestBytes down a.key a.body))) ∧
      x.od.proxies = r.od.proxies ++ [⟨r.od.nextProxy, a.origin, dest, a.op, a.key, s.epoch + ((pathHops a.path).getD []).length * (50 * oneMs)⟩] ∧
      x.mem = s.mem ∧ x.od.transfers = r.od.transfers) ∧
  (∀ (s : State) (q : MbReq) (level : Nat), MailboxServes s 0xC006 q → s.newel.recovery = false →
    s.target q.path = .here none false level → q.body.length = 3 → leField q.body 1 2 ≤ 10000 → s.od.stateWait = none →
    (leField q.body 0 1 = s.mode.code → exec (.odStateWait q) s = .next (s.mbDone (.od .mailbox 0 (s.odGet Od.odWriteSeq) (leBytes 1 s.mode.code)))) ∧
    (leField q.body 0 1 ≠ s.mode.code → leField q.body 1 2 ≠ 0 → ∃ t : State, exec (.odStateWait q) s = .next t ∧ t.out = s.out ∧
      t.od.stateWait = some ⟨.mailbox, leField q.body 0 1, s.epoch + leField q.body 1 2 * oneMs⟩)) ∧
  (∀ (s : State) (w : StateWait), s.od.stateWait = some w →
    ∃ t : State, exec .stateWaitTimeout s = .next t ∧ t.od.stateWait = none ∧ t.mode = s.mode ∧ t.mem = s.mem ∧
      (w.origin = .mailbox → ∃ l, t.out = s.out ++ .od .mailbox 0 (s.odGet Od.odWriteSeq) (leBytes 1 s.mode.code) :: l)) ∧
  (∀ (s : State) (via : Via) (index sub : Nat) (t : Transfer), s.od.transfers = [t] → t.via = via → t.key = index * 256 + sub → t.key ≠ Od.fwImage →
    exec (.domainAborted via index sub) s = .next { s with od := { s.od with transfers := [] } })

/-- An OD request frame of any module but the manager is discarded and counted, and answered by none; while Newel restarts one of the manager is not answered either. A response completes the access that waits for it under its TAG and sender, which then waits no more; a response that nothing waits for changes nothing, and after
its time an access is answered with 0x5102, or 0x5101 where its module has left. A datagram of an EOP length at the EOP port of a port that serves it crosses the Balustrade to Newel as an EOP_REQ; one that is not for EOP changes nothing. An EOP request is checked in the order form, signature, time, replay, room: the first that fails is counted in its own counter and nothing else changes but the
replay record; a request that passes is counted, and its sequence is then refused as a replay. -/
def Obligations.ArcadeAndEopAccesses : Prop :=
  (∀ (f : Frame) (opcode : Nat) (q : Bytes) (s : State), archOk f.arch = true → (s.arch f.arch).up = true → f.vc = 0 → q.length ≤ 16400 → s.mine f.dest = true →
    (s.newel.restarting = true → exec (.odRequest f opcode q) s = .next s) ∧
    (s.newel.restarting = false → s.odManager ≠ some f.src → exec (.odRequest f opcode q) s = .next (s.count Od.foreignOdDrops 1))) ∧
  (∀ (f : Frame) (id status seq : Nat) (v : Bytes) (s : State) (p : Proxy), archOk f.arch = true → (s.arch f.arch).up = true → f.vc = 0 → v.length ≤ 16384 →
    s.mine f.dest = true → status < 65536 → seq < 2 ^ 64 → s.od.proxies = [p] → p.id = id → p.dest = f.src → (p.opcode = 4 → v.length ≤ 1024) →
    ∃ r : State, exec (.odResponse f id status v seq) s = .next (r.respond p.origin p.opcode p.key status seq v) ∧ r.od.proxies = [] ∧ r.mem = s.mem ∧ r.out = s.out) ∧
  (∀ (f : Frame) (id status seq : Nat) (v : Bytes) (s : State), archOk f.arch = true → (s.arch f.arch).up = true → f.vc = 0 → v.length ≤ 16384 →
    s.mine f.dest = true → (∀ p ∈ s.od.proxies, p.id ≠ id ∨ p.dest ≠ f.src) → exec (.odResponse f id status v seq) s = .next s) ∧
  (∀ (id : Nat) (s : State) (p : Proxy), s.od.proxies = [p] → p.id = id →
    ∃ r : State, exec (.proxyTimeout id) s = .next (r.respond p.origin p.opcode p.key (if s.inGallery p.dest then 0x5102 else 0x5101)
      (s.odGet Od.odWriteSeq) []) ∧ r.od.proxies = [] ∧ r.mem = s.mem ∧ r.out = s.out) ∧
  (∀ (d : Datagram) (s : State), portOk d.port = true → s.eopArrives d = true → 40 ≤ d.payload.length → d.payload.length ≤ 1186 →
    ∃ t : State, exec (.eopDatagram d) s = .next t ∧
      t.out = s.out ++ [.bal false 0x02 (kget 0 2 s.foyer.txSeq) (beBytes 16 d.srcAddr.toNat ++ leBytes 2 d.srcPort ++ zeros 6 ++ d.payload)] ∧
      t.foyer.mgmtIn.length = s.foyer.mgmtIn.length + 1 ∧ t.mem = s.mem ∧ t.halls = s.halls ∧ t.od = s.od ∧ t.eop = s.eop) ∧
  (∀ (d : Datagram) (s : State), portOk d.port = true → s.eopArrives d = false → exec (.eopDatagram d) s = .next s) ∧
  (∀ (d : Datagram) (s : State), portOk d.port = true → s.eopArrives d = true → (d.payload.length < 40 ∨ 1186 < d.payload.length) →
    exec (.eopDatagram d) s = .next (s.count Od.eopFormatDrops 1)) ∧
  (∀ (b : Bytes) (sig : Bool) (s : State),
    (eopFormOk b = false → s.eopCheck b sig = (false, s.count Od.eopFormatDrops 1)) ∧
    (eopFormOk b = true → s.eopAuthOk (eopHdr b) sig = false → s.eopCheck b sig = (false, s.count Od.eopAuthDrops 1)) ∧
    (eopFormOk b = true → s.eopAuthOk (eopHdr b) sig = true → s.eopFresh (eopHdr b) = false → s.eopCheck b sig = (false, s.count Od.eopStaleDrops 1)) ∧
    (eopFormOk b = true → s.eopAuthOk (eopHdr b) sig = true → s.eopFresh (eopHdr b) = true → s.eopSeqOk (eopHdr b).key (eopHdr b).seq = false →
      s.eopCheck b sig = (false, s.count Od.eopReplayDrops 1))) ∧
  (∀ (s : State) (key seq : Nat), s.eopSeqOk key seq = true → (s.eopAccept key seq).eopSeqOk key seq = false ∧
    (∀ j, j ≤ seq → s.eopSeqOk key j = false → (s.eopAccept key seq).eopSeqOk key j = false)) ∧
  (∀ (c : Instr) (d : Datagram) (s : State) (op : Nat), op ≤ 5 → c = eopCommand op d → portOk d.port = true → s.eop.queue = [] → s.eopArrives d = true → s.eopServed = true →
    (eopFormOk d.payload = true → (eopHdr d.payload).op = op + 1) →
    ∀ r : State, s.eopCheck d.payload d.sigOk = (false, r) → exec c s = .next r)

/-- The CXL commands of the mailbox, while the port carries CXL.io and Newel serves it: each is answered, and changes nothing but what it names. Get Event Records gives the records of a log as they stand, and Clear Event Records drops those with the handles
named, or all; the interrupt policy and the host timestamp are what was set last, the timestamp running with the Epoch Counter, which Set Timestamp does not touch; an abort ends a running state wait. While Newel restarts each is answered Busy. -/
def Obligations.CxlMailboxCommands : Prop :=
  (∀ (c : Instr) (s : State), c ∈ [Instr.identify, .backgroundOperationStatus, .requestAbortBackgroundOperation, .getEventInterruptPolicy, .getTimestamp, .getSupportedLogs,
      .identifyMemoryDevice] → (s.cxl.linkUp || s.cxl.pcieOnly) = true → s.newel.restarting = true → exec c s = .next (s.mbDone (.mbReturn cxlBusy))) ∧
  (∀ (c : Instr) (s : State), c ∈ [Instr.identify, .backgroundOperationStatus, .getEventInterruptPolicy, .getTimestamp, .getSupportedLogs, .identifyMemoryDevice] →
    (s.cxl.linkUp || s.cxl.pcieOnly) = true → s.newel.restarting = false → s.newel.recovery = false →
    ∃ (op : Nat) (b : Bytes), exec c s = .next (s.mbDone (.cxl op b)) ∧ op ∈ mailboxOpcodes) ∧
  (∀ (log off len : Nat) (s : State), (s.cxl.linkUp || s.cxl.pcieOnly) = true → s.newel.restarting = false → s.newel.recovery = false → log = 0 →
    off + len ≤ effectsLog.length → exec (.getLog log off len) s = .next (s.mbDone (.cxl 0x0401 ((effectsLog.drop off).take len)))) ∧
  (∀ (log : Nat) (s : State), (s.cxl.linkUp || s.cxl.pcieOnly) = true → s.newel.restarting = false → s.newel.recovery = false →
    (log < 4 → ∃ h : Bytes, h.length = 32 ∧ exec (.getEventRecords log) s = .next (s.mbDone (.cxl 0x0100 (h ++ (s.cxl.events log).flatMap eventBytes)))) ∧
    (4 ≤ log → exec (.getEventRecords log) s = .next (s.mbDone (.mbReturn cxlInvalidInput)))) ∧
  (∀ (log : Nat) (all : Bool) (hs : List Nat) (s : State), (s.cxl.linkUp || s.cxl.pcieOnly) = true → s.newel.restarting = false → s.newel.recovery = false → log < 4 →
    ∃ r : State, exec (.clearEventRecords log all hs) s = .next (r.mbDone (.mbReturn cxlSuccess)) ∧ r = { s with cxl := r.cxl } ∧
      (∀ x, x ∈ r.cxl.events log ↔ all = false ∧ x ∈ s.cxl.events log ∧ x.seq % 65536 ∉ hs) ∧ log ∉ r.cxl.overflow ∧
      ∀ l, l ≠ log → r.cxl.events l = s.cxl.events l) ∧
  (∀ (p : Bytes) (s : State), (s.cxl.linkUp || s.cxl.pcieOnly) = true → s.newel.restarting = false → s.newel.recovery = false → 4 ≤ p.length →
    (∀ b ∈ p.take 4, b.toNat % 4 ≤ 1 ∧ b.toNat / 16 = 0) →
    ∃ r : State, exec (.setEventInterruptPolicy p) s = .next (r.mbDone (.mbReturn cxlSuccess)) ∧ r = { s with cxl := { s.cxl with policy := p.take 4 } } ∧
      exec .getEventInterruptPolicy r = .next (r.mbDone (.cxl 0x0102 (p.take 4)))) ∧
  (∀ (t : Nat) (s : State), (s.cxl.linkUp || s.cxl.pcieOnly) = true → s.newel.restarting = false → s.newel.recovery = false → t < 2 ^ 64 →
    ∃ r : State, exec (.setTimestamp t) s = .next (r.mbDone (.mbReturn cxlSuccess)) ∧ r = { s with cxl := r.cxl } ∧
      (∀ d, exec .getTimestamp { r with epoch := r.epoch + d } =
        .next (({ r with epoch := r.epoch + d } : State).mbDone (.cxl 0x0300 (leBytes 8 ((t + d) % 2 ^ 64)))))) ∧
  (∀ (s : State) (w : StateWait), (s.cxl.linkUp || s.cxl.pcieOnly) = true → s.newel.restarting = false → s.newel.recovery = false → s.od.stateWait = some w →
    w.origin = .mailbox →
    ∃ t : State, exec .requestAbortBackgroundOperation s = .next t ∧ t.od.stateWait = none ∧ t.mode = s.mode ∧ t.mem = s.mem ∧ t.halls = s.halls)

/-- Before Memory_Active is set, every MemRd to the HDM range over a link that is up is answered with data marked poisoned, every MemWr to it is completed and discarded, so that memory stays as it was, and each is counted in OD 0x6100.0A. -/
def Obligations.HostAccessesBeforeMemoryActive : Prop :=
  (∀ (dpa : Nat) (cached : Bool) (errs : List BitErr) (s : State), s.cxl.linkUp = true → dpa / 64 * 64 < s.rangeSize → s.memoryActive = false →
    ∃ (t : State) (b : Bytes), exec (.hdmRead dpa cached errs) s = .next t ∧ t.out = s.out ++ [.memData (dpa / 64 * 64) b true] ∧ b.length = 64 ∧ t.mem = s.mem ∧
      t.odGet 0x61000A = (s.odGet 0x61000A + 1) % odModulus 0x61000A ∧ t.cxl = s.cxl ∧ t.halls = s.halls ∧ t.serve = s.serve) ∧
  (∀ (dpa : Nat) (mask : BitVec 64) (data : Bytes) (poison : Bool) (errs : List BitErr) (s : State), s.cxl.linkUp = true → dpa / 64 * 64 < s.rangeSize →
    s.memoryActive = false →
    ∃ t : State, exec (.hdmWrite dpa mask data poison errs) s = .next t ∧ t.out = s.out ++ [.memDone (dpa / 64 * 64)] ∧ t.mem = s.mem ∧
      t.odGet 0x61000A = (s.odGet 0x61000A + 1) % odModulus 0x61000A ∧ t.cxl = s.cxl ∧ t.halls = s.halls ∧ t.serve = s.serve)

/-- A read of a line outside the stream table whose words carry no error answers with its 64 bytes, poisoned where a word of it is, and changes no byte; a cached one joins the filter. A write outside the stream table changes the bytes its mask names and no other. In Safe Stop reads answer poisoned and writes change nothing. A module's
write to a line that the host caches waits for the host's BIRsp, which takes the line from the filter; a timeout raises 0x6111 and the write goes on waiting. A snoop is answered with a hit that gives up the line. A DPA beyond the range brings no request. -/
def Obligations.HostWindowAccesses : Prop :=
  (∀ (dpa : Nat) (cached : Bool) (s : State), s.memoryActive = true → dpa / 64 * 64 < s.rangeSize → s.mode ≠ .safeStop → s.cxl.filter.length < 1048576 →
    s.inTable (s.odGet Od.hostWindowBase + dpa / 64 * 64) = false → (cached = true → s.cxl.waiting = [] ∧ s.xlate.landed = [] ∧ s.od.ready = []) →
    ∃ t : State, exec (.hdmRead dpa cached []) s = .next t ∧ t.mem = s.mem ∧ t.halls = s.halls ∧ t.serve = s.serve ∧
      t.out = s.out ++ [.memData (dpa / 64 * 64) (s.memBytes (s.odGet Od.hostWindowBase + dpa / 64 * 64) 64)
        (s.memPoisoned (s.odGet Od.hostWindowBase + dpa / 64 * 64) 64)] ∧
      (cached = true → dpa / 64 * 64 / 64 ∈ t.cxl.filter) ∧ (cached = false → t.cxl.filter = s.cxl.filter)) ∧
  (∀ (dpa : Nat) (mask : BitVec 64) (data : Bytes) (poison : Bool) (s : State), s.memoryActive = true → dpa / 64 * 64 < s.rangeSize → s.mode ≠ .safeStop →
    s.inTable (s.odGet Od.hostWindowBase + dpa / 64 * 64) = false → s.withdrawn (s.odGet Od.hostWindowBase + dpa / 64 * 64) = false → data.length = 64 →
    s.odGet Od.hostWindowBase % 64 = 0 → s.odGet Od.hostWindowBase + s.rangeSize ≤ mezzBase →
    ∃ t : State, exec (.hdmWrite dpa mask data poison []) s = .next t ∧ t.out = s.out ++ [.memDone (dpa / 64 * 64)] ∧ t.serve = s.serve ∧ t.halls = s.halls ∧
      ∀ a, t.memByte a = (if s.odGet Od.hostWindowBase + dpa / 64 * 64 ≤ a ∧ a < s.odGet Od.hostWindowBase + dpa / 64 * 64 + 64 ∧
          mask.getLsbD (a - (s.odGet Od.hostWindowBase + dpa / 64 * 64)) = true
        then data.getD (a - (s.odGet Od.hostWindowBase + dpa / 64 * 64)) 0#8 else s.memByte a)) ∧
  (∀ (dpa : Nat) (cached : Bool) (mask : BitVec 64) (data : Bytes) (poison : Bool) (errs : List BitErr) (s : State), s.memoryActive = true → dpa / 64 * 64 < s.rangeSize →
    s.mode = .safeStop →
    (∃ (t : State) (b : Bytes), exec (.hdmRead dpa cached errs) s = .next t ∧ t.out = s.out ++ [.memData (dpa / 64 * 64) b true] ∧ t.mem = s.mem) ∧
    exec (.hdmWrite dpa mask data poison errs) s = .next (s.emit (.memDone (dpa / 64 * 64)))) ∧
  (∀ (dpa : Nat) (cached : Bool) (mask : BitVec 64) (data : Bytes) (poison : Bool) (errs : List BitErr) (s : State),
    (s.cxl.linkUp = false ∨ s.rangeSize ≤ dpa / 64 * 64) →
    exec (.hdmRead dpa cached errs) s = .next s ∧ exec (.hdmWrite dpa mask data poison errs) s = .next s) ∧
  (∀ (a l : Nat) (d : Bytes) (p : Bool) (s : State), s.cxl.waiting = [] → s.cxl.snooped = none → s.hdmLine a = some l → s.cxl.filter.contains l = true →
    (s.hostActs [.write a d p]).mem = s.mem ∧ (s.hostActs [.write a d p]).cxl.snooped = some l ∧ (s.hostActs [.write a d p]).cxl.waiting = [.write a d p] ∧
    (s.hostActs [.write a d p]).out = s.out ++ [.bisnp l]) ∧
  (∀ (a l : Nat) (d : Bytes) (p : Bool) (s : State), s.cxl.snooped = some l → s.cxl.waiting = [.write a d p] → s.hdmLine a = some l →
    s.xlate.landed = [] → s.od.ready = [] →
    ∃ t : State, exec (.birsp l) s = .next t ∧ t.cxl.snooped = none ∧ t.cxl.waiting = [] ∧ l ∉ t.cxl.filter ∧ t.mem = (s.memWrite a d p).mem ∧ t.halls = s.halls) ∧
  (∀ (l : Nat) (s : State), s.cxl.snooped ≠ some l → exec (.birsp l) s = .next s ∧ exec (.birspTimeout l) s = .next s) ∧
  (∀ (l : Nat) (s : State), s.cxl.snooped = some l →
    ∃ t : State, exec (.birspTimeout l) s = .next t ∧ (t.mode = s.mode → t.cxl.waiting = s.cxl.waiting ∧ t.cxl.snooped = some l ∧ t.mem.cells = s.mem.cells)) ∧
  (∀ (hpa : Nat) (s : State), s.cxl.linkUp = true → exec (.h2dSnoop hpa) s = .next (s.emit (.snoopRsp hpa)))

/-- The link of a live port that is not under test comes up with CXL.mem in 256-byte flit mode at 32 GT/s or above, and otherwise as PCIe only, which is logged. The decoder is committed only with a base and a size of whole 256 MiB within the range and one way. A lost link clears the filter and the interrupt
state and uncommits the decoder; PERST_N low loses it. FLR resets the interrupt state and ends a background command, and nothing else; a CXL Reset is counted. In D3hot messages wait as pending bits, and on the way back, or when a vector is unmasked, they leave in the order of their vectors. A coalescing
interval in which a record was written signals at its end and opens the next. -/
def Obligations.LinkResetsAndInterrupts : Prop :=
  (∀ (rate width : Nat) (s : State), s.portLive = true → s.testing 3 0 = false → s.cxl.linkUp = false → s.cxl.pcieOnly = false →
    (32 ≤ rate → ∃ t : State, exec (.cxlLinkUp true rate width) s = .next t ∧ t.cxl.linkUp = true ∧ t.cxl.rate = rate ∧ t.cxl.width = width ∧
      t = { s with cxl := t.cxl }) ∧
    (∃ t : State, exec (.cxlLinkUp false rate width) s = .next t ∧ t.cxl.linkUp = false ∧ t.cxl.pcieOnly = true ∧ t.mem = s.mem ∧ t.halls = s.halls)) ∧
  (∀ (base size ways : Nat) (s : State), s.cxl.linkUp = true →
    (base % 268435456 = 0 → size % 268435456 = 0 → size ≤ s.rangeSize → ways = 1 →
      ∃ t : State, exec (.hdmDecoderCommit base size ways) s = .next t ∧ t.out = s.out ++ [.decoder true] ∧ t.odGet Od.hdmCommitted = 1 ∧
        t.odGet Od.hdmHpaBase = base % 2 ^ 64 ∧ t.odGet Od.hdmSize = size ∧ t = { s with od := t.od, out := t.out }) ∧
    (¬ (base % 268435456 = 0 ∧ size % 268435456 = 0 ∧ size ≤ s.rangeSize ∧ ways = 1) →
      exec (.hdmDecoderCommit base size ways) s = .next (s.emit (.decoder false)))) ∧
  (∀ s : State, (s.cxl.linkUp || s.cxl.pcieOnly) = true → s.xlate.descs = [] → s.cxl.waiting = [] → s.xlate.landed = [] →
    s.od.ready = [] →
    ∃ t : State, exec .cxlLinkDown s = .next t ∧ t.cxl.linkUp = false ∧ t.cxl.pcieOnly = false ∧ t.cxl.filter = [] ∧ t.cxl.pendBits = [] ∧
      t.cxl.masked = List.range 64 ∧ t.odGet Od.hdmCommitted = 0 ∧ t.odGet Od.linkLosses = (s.odGet Od.linkLosses + 1) % odModulus Od.linkLosses ∧
      t.mem = s.mem ∧ t.halls = s.halls ∧ t.serve = s.serve) ∧
  (∀ s : State, (s.cxl.linkUp || s.cxl.pcieOnly) = false → exec .cxlLinkDown s = .next s ∧
    exec (.perst false) s = .next { s with cxl := { s.cxl with perstHigh := false } }) ∧
  (∀ s : State, exec (.perst true) s = .next { s with cxl := { s.cxl with perstHigh := true } }) ∧
  (∀ s : State, ∃ t : State, exec .flr s = .next t ∧ t.cxl = { s.cxl with masked := List.range 64, funcMask := false, pendBits := [], d3hot := false } ∧
    t.od.vals = s.od.vals ∧ (∀ w, t.od.stateWait = some w → w.origin ≠ .mailbox) ∧ t = { s with cxl := t.cxl, od := t.od }) ∧
  (∀ (clear : Bool) (s : State), (s.cxl.linkUp || s.cxl.pcieOnly) = true → s.serve.steps = [] → s.serve.streams = [] → s.cxl.waiting = [] → s.xlate.descs = [] → s.xlate.landed = [] →
    s.od.ready = [] →
    ∃ t : State, exec (.cxlReset clear) s = .next t ∧ t.cxl.filter = [] ∧ t.odGet Od.hdmCommitted = 0 ∧
      t.odGet Od.cxlResets = (s.odGet Od.cxlResets + 1) % odModulus Od.cxlResets ∧ t.mode = s.mode ∧
      (∀ a, (clear = false ∨ a < s.odGet Od.hostWindowBase ∨ s.odGet Od.hostWindowBase + s.rangeSize ≤ a) → t.memByte a = s.memByte a) ∧
      (clear = true → ∀ a, s.odGet Od.hostWindowBase ≤ a → a < s.odGet Od.hostWindowBase + s.rangeSize → t.memByte a = memDefault)) ∧
  (∀ s : State, (s.cxl.linkUp || s.cxl.pcieOnly) = true → exec .d3hotEntry s = .next { s with cxl := { s.cxl with d3hot := true } }) ∧
  (∀ (v : Nat) (s : State), s.cxl.linkUp = true → (s.cxl.d3hot = true ∨ s.cxl.funcMask = true ∨ s.cxl.masked.contains v = true) →
    (s.signal v).out = s.out ∧ v ∈ (s.signal v).cxl.pendBits) ∧
  (∀ s : State, s.cxl.linkUp = true → s.cxl.funcMask = false →
    ∃ t : State, exec .d0Entry s = .next t ∧ t.cxl.d3hot = false ∧ (∀ v, v ∈ t.cxl.pendBits → v < 64 → v ∈ s.cxl.masked) ∧
      t.out = s.out ++ ((List.range 64).filter (fun v => s.cxl.pendBits.contains v && !s.cxl.masked.contains v)).map .msix ∧ t.mem = s.mem) ∧
  (∀ (v : Nat) (s : State), v < 64 → s.cxl.linkUp = true → s.cxl.funcMask = false → s.cxl.d3hot = false → s.cxl.pendBits = [v] →
    ∃ t : State, exec (.msixVectorUnmask v false) s = .next t ∧ t.out = s.out ++ [.msix v] ∧ t.cxl.pendBits = [] ∧ v ∉ t.cxl.masked ∧ t.mem = s.mem) ∧
  (∀ (v : Nat) (s : State), vectorOk v = true →
    (kfind v s.serve.coalesce = none → exec (.coalesceExpiry v) s = .next s) ∧
    (∀ m, kfind v s.serve.coalesce = some (m, false) → ∃ t : State, exec (.coalesceExpiry v) s = .next t ∧ kfind v t.serve.coalesce = none ∧ t.out = s.out ∧
      t.mem = s.mem) ∧
    (∀ m, kfind v s.serve.coalesce = some (m, true) → s.cxl.waiting = [] → s.cxl.linkUp = true → s.cxl.d3hot = false → s.cxl.funcMask = false →
      s.cxl.masked.contains v = false →
      ∃ t : State, exec (.coalesceExpiry v) s = .next t ∧ kfind v t.serve.coalesce = some (s.epoch, false) ∧ t.out = s.out ++ [.msix v] ∧ t.mem = s.mem))

/-- MOVER_TAKE starts the descriptor that stands first by class and then age in a hall with a free Mover, and does nothing where all 16 are busy or none is queued; a descriptor out of its ranges ends FAULTED with 0x2030. MOVER_ACCESS_DONE of a running copy between device addresses that do not overlap moves
its next piece: the destination bytes read as the source bytes read, every other byte stays, CONFIRMED and the counted bytes rise by the piece, and the descriptor is DONE when all is confirmed. An access beyond memory faults it and moves nothing. An access of a descriptor that is not running, that is gone, or of which every access has been made, does nothing. PAGE_TIMEOUT ends the request and faults the transfer that waits for it with 0x2033. -/
def Obligations.MoversTakeCopyAndFault : Prop :=
  (∀ (h : Nat) (s : State), hallOk h = true → ((s.runningMovers h).length ≥ 16 ∨ s.nextDescFor h = none) → exec (.moverTake h) s = .next s) ∧
  (∀ (h : Nat) (s : State) (d : Desc), hallOk h = true → (s.runningMovers h).length < 16 → s.nextDescFor h = some d →
    d ∈ s.xlate.descs ∧ d.hall = h ∧ (d.state = .queued ∨ d.state = .yielded) ∧
    (∀ x ∈ s.xlate.descs, x.hall = h → (x.state = .queued ∨ x.state = .yielded) → d.cls ≤ x.cls) ∧
    (descOk d.bytes = true → ∃ t : State, exec (.moverTake h) s = .next t ∧
      t.xlate.descs = modFirst (fun x => x.id == d.id) (fun x => { x with state := .running }) s.xlate.descs ∧
      t = { s with xlate := { s.xlate with descs := t.xlate.descs } }) ∧
    (descOk d.bytes = false → s.desc d.id = some d → d.use = .plan →
      ∃ t : State, exec (.moverTake h) s = .next t ∧ t.desc d.id = some { d with state := .faulted, status := 0x2030, faultAddr := 0 } ∧ t.mem = s.mem)) ∧
  (∀ (id : Nat) (data : Bytes) (bad : List Nat) (errs : List BitErr) (land : List LandErr) (s : State),
    (∀ d, s.desc id = some d → d.state ≠ .running ∨ d.len ≤ d.sent) → exec (.moverAccessDone id data ⟨bad, errs, land⟩) s = .next s) ∧
  (∀ (id : Nat) (data : Bytes) (bad : List Nat) (land : List LandErr) (s : State) (d : Desc), s.desc id = some d → d.state = .running → d.srcSpace = 1 →
    d.dstSpace = 1 → d.use = .plan → d.sent < d.len → s.mode ≠ .safeStop →
    d.src + d.sent + d.piece ≤ memTop → d.dst + d.sent + d.piece ≤ memTop → (d.src + d.len ≤ d.dst ∨ d.dst + d.len ≤ d.src) →
    s.cxl.waiting = [] → s.xlate.landed = [] →
    (∀ a, d.dst + d.sent ≤ a → a < d.dst + d.sent + d.piece → s.hdmLine a = none ∧ s.withdrawn a = false) →
    (∀ a, d.src + d.sent ≤ a → a < d.src + d.sent + d.piece → s.wordPoisoned (a / 8) = false) →
    ∃ t : State, exec (.moverAccessDone id data ⟨bad, [], land⟩) s = .next t ∧
      (∀ a, t.memByte a = if d.dst + d.sent ≤ a ∧ a < d.dst + d.sent + d.piece then s.memByte (a - d.dst + d.src) else s.memByte a) ∧
      t.odGet Od.moverBytes = (s.odGet Od.moverBytes + d.piece) % odModulus Od.moverBytes ∧ t.halls = s.halls ∧ t.serve = s.serve ∧
      ∃ e : Desc, t.desc id = some e ∧ e = { d with confirmed := d.confirmed + d.piece, sent := d.sent + d.piece, state := e.state } ∧
        (d.len ≤ d.confirmed + d.piece → e.state = .done) ∧ (d.confirmed + d.piece < d.len → e.state = .running ∨ e.state = .yielded)) ∧
  (∀ (id : Nat) (data : Bytes) (bad : List Nat) (errs : List BitErr) (land : List LandErr) (s : State) (d : Desc), s.desc id = some d → d.state = .running →
    d.srcSpace = 1 → d.dstSpace = 1 → d.use = .plan → d.sent < d.len → memTop < d.src + d.sent + d.piece →
    ∃ t : State, exec (.moverAccessDone id data ⟨bad, errs, land⟩) s = .next t ∧ t.mem = s.mem ∧
      t.desc id = some { d with state := .faulted, status := 0x2030, faultAddr := d.src + d.sent }) ∧
  (∀ (tn page : Nat) (s : State), tenantOk tn = true →
    (s.xlate.requests.find? (fun r => r.tenant == tn && r.page == page / 4096 * 4096) = none → exec (.pageTimeout tn page) s = .next s) ∧
    (∀ (r : PageReq) (d : Desc), s.xlate.requests = [r] → r.tenant = tn → r.page = page / 4096 * 4096 → r.waiters = [d.id] → s.desc d.id = some d →
      d.state = .waitingPage →
      ∃ t : State, exec (.pageTimeout tn page) s = .next t ∧ t.xlate.requests = [] ∧
        t.desc d.id = some { d with state := .faulted, status := 0x2033 } ∧
        t.odGet Od.pageTimeouts = (s.odGet Od.pageTimeouts + 1) % odModulus Od.pageTimeouts))

/-- A batch whose wait expires opens its step although it is not full; its slots are those of the streams of the batch, each with a place in the hall's entry cache; without a waiting batch nothing happens. A window of PROMPT_SHARE ends by forgetting the steps counted in it. A kept cache whose TTL_MS has elapsed is released, its stream COMPLETED and its blocks free. A park that ends leaves
its stream PARKED with no blocks of the pool; a restore that ends leaves the cache with fresh blocks, as many as the submission needs for its own and for its draft model, and no parked copy. A park or a restore that is not in progress does not end. -/
def Obligations.TimersAndKeptCaches : Prop :=
  (∀ (h m c : Nat) (s : State), hallOk h = true →
    ((∀ b ∈ s.serve.batches, ¬ (b.hall = h ∧ b.model = m ∧ b.cls = c)) → exec (.batchWaitExpiry h m c) s = .next s) ∧
    (∀ (j i : Nat) (b : Batch), b ∈ s.serve.batches → b.hall = h → b.model = m → b.cls = c → (s.modelJobList m).filter s.runsUnstepped = [j] → s.mode = .run →
      (s.jobOf j).waiting = [] → s.firstWork (s.workFor j) = some i → s.sState i = stGenerating →
      (s.batchOf i (s.workFor j)).1 ≠ [] → (kget [] (s.sHall i) s.serve.caches).length + (s.batchOf i (s.workFor j)).1.length ≤ 1024 →
      ∃ t : State, exec (.batchWaitExpiry h m c) s = .next t ∧ ∃ x : StepSt, t.openStepOf j = some x ∧
        (∀ k, k ∈ x.slots ↔ k ∈ (s.batchOf i (s.workFor j)).1) ∧ x.removed = [])) ∧
  (∀ (h : Nat) (s : State), hallOk h = true →
    ∃ t : State, exec (.promptShareWindow h) s = .next t ∧ kfind h t.serve.shareSteps = none ∧ (∀ g, g ≠ h → kfind g t.serve.shareSteps = kfind g s.serve.shareSteps) ∧
      t = { s with serve := { s.serve with shareSteps := t.serve.shareSteps } }) ∧
  (∀ s : State, (s.streamList.filter s.ttlOver = [] → exec .ttlCheck s = .next s) ∧
    (∀ i, s.streamList.filter s.ttlOver = [i] →
      ∃ t : State, exec .ttlCheck s = .next t ∧ t.sState i = stCompleted ∧ (t.stream i).cache = none ∧ t.halls = s.halls ∧
        t.odGet Od.ttlExpiries = (s.odGet Od.ttlExpiries + 1) % odModulus Od.ttlExpiries ∧
        (∀ c, (s.stream i).cache = some c → (t.pool (s.sHall i)).2 = (s.pool (s.sHall i)).2 + (c.blocks.length + c.dblocks.length)))) ∧
  (∀ (i a : Nat) (s : State), (∀ c, (s.stream i).cache = some c → c.moving ≠ some 0) → exec (.parkDone i a) s = .next s) ∧
  (∀ (i a : Nat) (s : State) (c : CacheSt), (s.stream i).cache = some c → c.moving = some 0 → s.sState i = stPaused → mezzBase ≤ a →
    mezzHallOf a = s.sHall i → mezzHallOf (a + s.parkLen c) = s.sHall i → bit (s.odGet Od.mezzPresent) (s.sHall i) = true → s.mezzOpen a (s.parkLen c) = true →
    ∃ t : State, exec (.parkDone i a) s = .next t ∧ t.sState i = stParked ∧
      (t.stream i).cache = some { c with blocks := [], dblocks := [], moving := none, parked := some a } ∧
      (t.pool (s.sHall i)).2 = (s.pool (s.sHall i)).2 + (c.blocks.length + c.dblocks.length) ∧ t.odGet Od.parks = (s.odGet Od.parks + 1) % odModulus Od.parks) ∧
  (∀ (i : Nat) (s : State), (∀ c, (s.stream i).cache = some c → c.moving ≠ some 1 ∨ c.parked = none) → exec (.restoreDone i) s = .next s) ∧
  (∀ (i a : Nat) (s : State) (c : CacheSt) (p : Package), (s.stream i).cache = some c → c.moving = some 1 → c.parked = some a → s.sState i = stSubmitted →
    s.pkgOf c.model = some p → s.blocksNeeded i ≤ (s.pool (s.sHall i)).2 →
    ∃ (t : State) (bs ds : List Nat), exec (.restoreDone i) s = .next t ∧
      (t.stream i).cache = some { c with draft := s.draftOf i, blocks := bs, dblocks := ds, moving := none, parked := none } ∧
      (∀ b ∈ bs ++ ds, b ∉ s.blocksHeld (s.sHall i)) ∧ bs.length = s.ownNeeded i ∧ ds.length = s.draftNeeded i ∧ t.sState i = stSubmitted ∧
      (t.pool (s.sHall i)).2 = (s.pool (s.sHall i)).2 - s.blocksNeeded i ∧ t.odGet Od.restores = (s.odGet Od.restores + 1) % odModulus Od.restores)

/-- A packing pass that fails, here or in a member, leaves its model in MODEL_STATE 5 with the code, counts the refusal and changes no memory; one that finds memory withdrawn takes 0x4301; in a module without a tray the last part of a package, packed within its areas, leaves MODEL_STATE 3 under the next placement epoch, an earlier one MODEL_STATE 4. In a tray a packed part waits until every member has confirmed its share, and the load until every one has completed it. A part that does not come ends the
load with 0x4304. A re-placement of a job with an open step waits for that step's release; without one it takes effect at once under the next epoch. A period of EXPERT_BALANCE plans the exchange of one pair of a layer. A repaired program image holds the package's bytes, and is no longer poisoned. A lost corridor is out of the corridors
that stand. Of each, a command that finds nothing to do changes nothing. -/
def Obligations.LoadsAndReplacement : Prop :=
  (∀ (m : Nat) (nr : Bool) (ms : List (Nat × Nat)) (s : State), (∀ x, kfind m s.serve.models = some x → x.state ≠ 2 ∨ x.pkg = none) →
    exec (.packingDone m ⟨nr, ms⟩) s = .next s) ∧
  (∀ (m : Nat) (nr : Bool) (ms : List (Nat × Nat)) (s : State) (x : ModelSt) (p : Package) (code : Nat), kfind m s.serve.models = some x → x.state = 2 → x.pkg = some p →
    ((∃ e, ms.find? (fun e => e.2 ≠ 0) = some e ∧ code = e.2) ∨ (∀ e ∈ ms, e.2 = 0) ∧ x.packed = false ∧
      (s.packRefusal x p ≠ 0 ∧ code = s.packRefusal x p ∨ s.packRefusal x p = 0 ∧ nr = true ∧ code = 0x4301)) →
    ∃ t : State, exec (.packingDone m ⟨nr, ms⟩) s = .next t ∧ t.mem = s.mem ∧ t.xlate = s.xlate ∧
      kfind m t.serve.models = some { x with state := 5, code := code, pkg := none, work := [], packed := false, shares := [], done := [] } ∧
      t.odGet Od.modelsRefused = (s.odGet Od.modelsRefused + 1) % odModulus Od.modelsRefused) ∧
  (∀ (m : Nat) (ms : List (Nat × Nat)) (s : State) (x : ModelSt) (p : Package), kfind m s.serve.models = some x → x.state = 2 → x.pkg = some p →
    (∀ e ∈ ms, e.2 = 0) → x.packed = false → x.shares = [] → s.packRefusal x p = 0 → s.depth ≤ 2 →
    (∀ (y : ModelSt) (r : State), (p.slices.zip (List.range p.slices.length)).foldl (fun (z : ModelSt × State) e => z.2.packSlice z.1 e.2 e.1)
      ({ x with done := (x.done ++ ms.map (·.1)).dedup },
        { s with serve := { s.serve with models := kput m { x with done := (x.done ++ ms.map (·.1)).dedup } s.serve.models } }) = (y, r) → y.tooLong = false) →
    ∃ (t : State) (y : ModelSt), exec (.packingDone m ⟨false, ms⟩) s = .next t ∧ kfind m t.serve.models = some y ∧
      (x.part + 1 = x.parts → y.state = 3 ∧ y.code = 0 ∧ y.time = s.epoch ∧ t.odGet Od.planEpoch = (s.odGet Od.planEpoch + 1) % odModulus Od.planEpoch ∧
        y.epoch = t.odGet Od.planEpoch) ∧
      (x.part + 1 < x.parts → y.state = 4 ∧ y.since = s.epoch ∧ t.odGet Od.planEpoch = s.odGet Od.planEpoch)) ∧
  (∀ (m : Nat) (s : State) (x : ModelSt), kfind m s.serve.models = some x → x.state = 2 → x.packed = true →
    (s.sharesIn x = false → s.loadProgress m = s) ∧
    (s.sharesIn x = true → x.part + 1 < x.parts →
      s.loadProgress m = { s with serve := { s.serve with models := kput m { x with state := 4, since := s.epoch, packed := false } s.serve.models } }) ∧
    (s.sharesIn x = true → x.parts ≤ x.part + 1 → (∃ e ∈ x.shares, e.1 ∉ x.done) → s.loadProgress m = s)) ∧
  (∀ (m : Nat) (s : State),
    ((kfind m s.serve.models).map (·.state) ≠ some 4 → exec (.partTimeout m) s = .next s) ∧
    (∀ x, kfind m s.serve.models = some x → x.state = 4 →
      ∃ t : State, exec (.partTimeout m) s = .next t ∧ kfind m t.serve.models = some { x with state := 5, code := 0x4304, pkg := none, work := [], packed := false, shares := [], done := [] } ∧
        t.odGet Od.modelsRefused = (s.odGet Od.modelsRefused + 1) % odModulus Od.modelsRefused ∧ t.mem = s.mem)) ∧
  (∀ (job : Nat) (sl : List Slice) (pools : List (Nat × Nat × Nat)) (s : State),
    ((∀ j ∈ s.serve.jobs, j.job ≠ job) → exec (.replacement job ⟨sl, pools⟩) s = .next s) ∧
    (∀ j ∈ s.serve.jobs, j.job = job →
      ((s.openStepOf job).isSome = true → ∃ t : State, exec (.replacement job ⟨sl, pools⟩) s = .next t ∧ (t.jobOf job).replacing = some ⟨sl, [], pools⟩ ∧
        t = { s with serve := { s.serve with jobs := t.serve.jobs } }) ∧
      (s.openStepOf job = none → ∃ t : State, exec (.replacement job ⟨sl, pools⟩) s = .next t ∧ (t.jobOf job).replacing = none ∧
        t.odGet Od.planEpoch = (s.odGet Od.planEpoch + 1) % odModulus Od.planEpoch ∧ t.mode = s.mode))) ∧
  (∀ (m : Nat) (loads : List (Nat × Nat × Nat × Nat)) (s : State),
    ((∀ x, kfind m s.serve.models = some x → x.state ≠ 3 ∨ bit x.flags 2 = false) ∨ s.trayWorker = true ∨ s.mode ≠ .run → exec (.rebalancePeriod m loads) s = .next s) ∧
    (∀ (x : ModelSt) (y j a b : Nat) (l : List (Nat × Nat × Nat)), kfind m s.serve.models = some x → x.state = 3 → bit x.flags 2 = true → s.trayWorker = false →
      s.mode = .run → l ≠ [] → loads = l.map (fun e => (y, e)) → s.modelJobList m = [j] → (s.openStepOf j).isSome = true →
      rebalancePair (s.odGet Od.rebalanceRatio) s.memberCount l = some (a, b) →
      ∃ t : State, exec (.rebalancePeriod m loads) s = .next t ∧ (t.jobOf j).replacing = some ⟨[], [(y, a, b)], []⟩ ∧
        t = { s with serve := { s.serve with jobs := t.serve.jobs } })) ∧
  (∀ (n : Nat) (image : Bytes) (s : State),
    (s.newel.episodes.find? (fun e => e.num == n && e.subj.kind == 9) = none → exec (.programImageRepaired ⟨n, image⟩) s = .next s) ∧
    (∀ e, s.newel.episodes.find? (fun e => e.num == n && e.subj.kind == 9) = some e →
      e.subj.key % 8 = 0 → s.imageLength e.subj.key ≤ image.length → s.withdrawn e.subj.key = false →
      ∃ t : State, exec (.programImageRepaired ⟨n, image⟩) s = .next t ∧
        (∀ a, t.memByte a = if e.subj.key ≤ a ∧ a < e.subj.key + s.imageLength e.subj.key then image.getD (a - e.subj.key) 0#8 else s.memByte a) ∧
        (∀ w ∈ wordsOf e.subj.key (s.imageLength e.subj.key), kget false w t.mem.poison = false) ∧
        (∀ w, w ∉ wordsOf e.subj.key (s.imageLength e.subj.key) → kget false w t.mem.poison = kget false w s.mem.poison))) ∧
  (∀ (k : Nat) (s : State), k < 4 →
    ((s.mode = .off ∨ s.testing 2 k = true ∨ bit (s.odGet Od.corridorsUp) k = false) → exec (.corridorDown k) s = .next s) ∧
    (s.mode ≠ .off → s.testing 2 k = false → bit (s.odGet Od.corridorsUp) k = true →
      ∃ t : State, exec (.corridorDown k) s = .next t ∧ bit (t.odGet Od.corridorsUp) k = false ∧
        (∀ j, j ≠ k → bit (t.odGet Od.corridorsUp) j = bit (s.odGet Od.corridorsUp) j)))

/-- A message across the Balustrade has no effect where its channel does not run. One whose CRC fails, or whose SEQ does not follow, counts in OD 0x6000.40, one of a wrong type or length, or beyond its receiver's limit, in OD 0x6000.41; neither does anything else to the field map, the table, EOP, memory or
the halls. One that passes leaves its queue, and the next must follow its SEQ; what it does is stated for each type by itself. A datagram for EOP that arrives crosses as EOP_REQ. -/
def Obligations.BalustradeMessagesAreChecked : Prop :=
  (∀ (typ k : Nat) (sig : Bool) (m : BalMsg) (s : State), typ ∈ balTypes → balKey typ = some k →
    (s.balRuns k = false → exec (balCommand typ m sig) s = .next s) ∧
    (s.balRuns k = true → (m.crc ≠ crc32c (leBytes 1 m.typ ++ zeros 1 ++ leBytes 2 m.len ++ leBytes 4 m.seq ++ m.body) ∨
        (kget 0 k s.foyer.rxSeq ≠ 0 ∧ m.seq ≠ kget 0 k s.foyer.rxSeq % 2 ^ 32)) →
      ∃ t : State, exec (balCommand typ m sig) s = .next t ∧ t.odGet Od.balCheckFails = (s.odGet Od.balCheckFails + 1) % odModulus Od.balCheckFails ∧
        t.odGet Od.balRefusals = s.odGet Od.balRefusals ∧ t.foyer.cells = s.foyer.cells ∧ t.foyer.view = s.foyer.view ∧ t.foyer.applied = s.foyer.applied ∧
        t.eop = s.eop ∧ t.serve.streams = s.serve.streams ∧ t.halls = s.halls) ∧
    (s.balRuns k = true → m.crc = crc32c (leBytes 1 m.typ ++ zeros 1 ++ leBytes 2 m.len ++ leBytes 4 m.seq ++ m.body) →
      (kget 0 k s.foyer.rxSeq = 0 ∨ m.seq = kget 0 k s.foyer.rxSeq % 2 ^ 32) →
      (m.typ ≠ typ ∨ balLengthOk typ m.len = false ∨ m.len ≠ m.body.length ∨ ∃ l, balLimit typ = some l ∧ l ≤ s.balTaken typ) →
      ∃ t : State, exec (balCommand typ m sig) s = .next t ∧ t.odGet Od.balRefusals = (s.odGet Od.balRefusals + 1) % odModulus Od.balRefusals ∧
        t.odGet Od.balCheckFails = s.odGet Od.balCheckFails ∧ t.foyer.cells = s.foyer.cells ∧ t.foyer.view = s.foyer.view ∧ t.foyer.applied = s.foyer.applied ∧
        t.eop = s.eop ∧ t.serve.streams = s.serve.streams ∧ t.halls = s.halls) ∧
    (s.balRuns k = true → m.crc = crc32c (leBytes 1 m.typ ++ zeros 1 ++ leBytes 2 m.len ++ leBytes 4 m.seq ++ m.body) →
      (kget 0 k s.foyer.rxSeq = 0 ∨ m.seq = kget 0 k s.foyer.rxSeq % 2 ^ 32) → m.typ = typ → balLengthOk typ m.len = true → m.len = m.body.length →
      (∀ l, balLimit typ = some l → s.balTaken typ < l) →
      ∃ u : State, s.balTake typ m = (true, u) ∧ kget 0 k u.foyer.rxSeq = m.seq + 1 ∧ u.balTaken typ = s.balTaken typ + 1 ∧ u = { s with foyer := u.foyer } ∧
        u.foyer.cells = s.foyer.cells ∧ u.foyer.view = s.foyer.view ∧ u.foyer.applied = s.foyer.applied)) ∧
  (∀ (d : Datagram) (s : State), d.port < 3 →
    (s.eopArrives d = false → exec (.eopDatagram d) s = .next s) ∧
    (s.eopArrives d = true → (d.payload.length < 40 ∨ 1186 < d.payload.length) → exec (.eopDatagram d) s = .next (s.count Od.eopFormatDrops 1)) ∧
    (s.eopArrives d = true → 40 ≤ d.payload.length → d.payload.length ≤ 1186 →
      ∃ t : State, exec (.eopDatagram d) s = .next t ∧
        t.out = s.out ++ [.bal false 2 (kget 0 2 s.foyer.txSeq) (beBytes 16 d.srcAddr.toNat ++ leBytes 2 d.srcPort ++ zeros 6 ++ d.payload)] ∧
        kget 0 2 t.foyer.txSeq = (kget 0 2 s.foyer.txSeq + 1) % 2 ^ 32 ∧ t.foyer.mgmtIn.length = s.foyer.mgmtIn.length + 1 ∧
        t = { s with foyer := t.foyer, out := t.out }))

/-- A telemetry datagram that a running Foyer takes: from no source of the list it is dropped and counted; malformed it counts its records; a record of no cell, of a cell that is not bound, or stale counts as such; a fresh one of a bound cell with a record in its bucket and in the aggregate's crosses, or is held while
one of the cell is in flight, and without them is policed. The field gate takes a TELEMETRY of a bound cell into its stream: the deadline, the arrival time and READY; it refuses one of another cell. The first record since the binding stands in the ring slot of its CELL_SEQ. RECOMMEND leaves the port that its record
names, with the rest of the header as the Foyer has it, and is dropped and counted where no port is up. -/
def Obligations.RecordsReachTheirCells : Prop :=
  (∀ (d : Datagram) (at_ : Nat) (s : State), d.port < 3 →
    (s.foyerRuns = false ∨ d.port = 2 ∨ s.portServes d.port = false ∨ d.dstPort ≠ s.fval Od.telemetryPort ∨ d.fragment = true →
      exec (.telemetryDatagram d at_) s = .next s) ∧
    (s.foyerRuns = true → d.port < 2 → s.portServes d.port = true → d.dstPort = s.fval Od.telemetryPort → d.fragment = false →
      (s.sourceOk d.srcAddr = false → exec (.telemetryDatagram d at_) s = .next (s.count Od.sourceDrops 1)) ∧
      (s.sourceOk d.srcAddr = true → telemetryOk d.payload = false →
        ∃ t : State, exec (.telemetryDatagram d at_) s = .next t ∧ t.foyer = s.foyer ∧
          t.odGet Od.recordsFormat = (s.odGet Od.recordsFormat + max 1 ((d.payload.length - 16) / 128)) % odModulus Od.recordsFormat) ∧
      (∀ r : Bytes, s.sourceOk d.srcAddr = true → telemetryOk d.payload = true → beField d.payload 4 1 = 1 → r = d.payload.drop 16 → recordOk r = true →
        (s.foyer.view.find? (fun v => v.1.cellId == beField r 0 8) = none →
          ∃ t : State, exec (.telemetryDatagram d at_) s = .next t ∧ t.foyer = s.foyer ∧
            t.odGet Od.recordsUnknown = (s.odGet Od.recordsUnknown + 1) % odModulus Od.recordsUnknown) ∧
        (∀ (v : CellRec) (st : Nat), s.foyer.view.find? (fun v => v.1.cellId == beField r 0 8) = some (v, st) →
          (s.mode ≠ .run ∨ st ≠ 1 ∨ (∀ c, s.cellAt v.entry = some c → c.state ≠ 1) →
            exec (.telemetryDatagram d at_) s = .next (s.count Od.recordsNotBound 1)) ∧
          (∀ (c : CellSt) (seq : Nat), s.mode = .run → st = 1 → s.cellAt v.entry = some c → c.state = 1 → seq = beField r 16 2 →
            (∀ l, c.last = some l → ¬ (1 ≤ (seq + 65536 - l) % 65536 ∧ (seq + 65536 - l) % 65536 ≤ 32767) →
              ∃ t : State, exec (.telemetryDatagram d at_) s = .next t ∧ t.cellAt v.entry = some { c with stale := c.stale + 1 } ∧ t.out = s.out ∧
                t.odGet Od.recordsStale = (s.odGet Od.recordsStale + 1) % odModulus Od.recordsStale) ∧
            ((∀ l, c.last = some l → 1 ≤ (seq + 65536 - l) % 65536 ∧ (seq + 65536 - l) % 65536 ≤ 32767) →
              ∀ lvl, lvl = bucketNow c.bucket c.filled c.rec_.rate c.rec_.burst s.epoch →
              (lvl < bucketUnit ∨ s.aggRefill.foyer.agg < bucketUnit →
                ∃ t : State, exec (.telemetryDatagram d at_) s = .next t ∧
                  t.cellAt v.entry = some { c with last := some seq, bucket := lvl, filled := s.epoch, policed := c.policed + 1 } ∧
                  t.odGet Od.recordsPoliced = (s.odGet Od.recordsPoliced + 1) % odModulus Od.recordsPoliced) ∧
              (bucketUnit ≤ lvl → bucketUnit ≤ s.aggRefill.foyer.agg → bit (s.sw v.entry 16) 32 = false → s.stepOpen v.entry = false →
                s.crossing v.entry = false → s.foyer.dataIn.length < 1024 →
                ∃ t : State, exec (.telemetryDatagram d at_) s = .next t ∧
                  t.cellAt v.entry = some { c with last := some seq, bucket := lvl - bucketUnit, filled := s.epoch, passed := c.passed + 1 } ∧
                  t.foyer.agg = s.aggRefill.foyer.agg - bucketUnit ∧
                  t.out = s.out ++ [.bal false 1 (kget 0 0 s.foyer.txSeq) (leBytes 2 v.entry ++ leBytes 1 d.port ++ zeros 5 ++ leBytes 8 at_ ++ r.take 128)]) ∧
              (bucketUnit ≤ lvl → bucketUnit ≤ s.aggRefill.foyer.agg →
                (bit (s.sw v.entry 16) 32 = true ∨ s.stepOpen v.entry = true ∨ s.crossing v.entry = true) →
                ∃ t : State, exec (.telemetryDatagram d at_) s = .next t ∧ t.out = s.out ∧
                  t.cellAt v.entry = some { c with last := some seq, bucket := lvl - bucketUnit, filled := s.epoch, passed := c.passed + 1,
                                                   held := some (r.take 128, at_, d.port) }))))))) ∧
  (∀ (m : BalMsg) (s u : State), s.balTake 0x01 m = (true, u) →
    ((∀ c, s.cellAt (leField m.body 0 2) = some c → c.state ≠ 1 ∨ beField m.body 16 8 ≠ c.rec_.cellId) → exec (.telemetry m) s = .next u.balRefuse) ∧
    (∀ c, s.cellAt (leField m.body 0 2) = some c → c.state = 1 → s.odGet Od.fieldBase ≤ leField m.body 0 2 → recordOk (m.body.drop 16) = true →
      beField (m.body.drop 16) 0 8 = c.rec_.cellId → leField m.body 2 1 < 2 → s.sState (leField m.body 0 2) = stField →
      ∃ t : State, exec (.telemetry m) s = .next t ∧ t.odGet Od.recordsIn = (s.odGet Od.recordsIn + 1) % odModulus Od.recordsIn ∧
        t.sw (leField m.body 0 2) 1 = (leField m.body 8 8 + c.rec_.budget * 1000) % 2 ^ 64 ∧ t.sw (leField m.body 0 2) 17 = leField m.body 8 8 ∧
        bit (t.sw (leField m.body 0 2) 16) 32 = true)) ∧
  (∀ (s : State) (c : CellSt) (r : Bytes) (port at_ : Nat), s.cellAt c.rec_.entry = some c → c.gateSeq = none → c.missing = [] → s.cxl.waiting = [] →
    (∀ a, c.ring + 128 * (beField r 16 2 % 64) ≤ a → a < c.ring + 128 * (beField r 16 2 % 64) + 128 → s.hdmLine a = none ∧ s.withdrawn a = false) →
    (s.gateWrite c r port at_).memBytes (c.ring + 128 * (beField r 16 2 % 64)) 128 = ringSlot r at_ ∧
    (s.gateWrite c r port at_).cellAt c.rec_.entry =
      some { c with steps := c.steps + 1, gateSeq := some (beField r 16 2), answer := some (beField r 16 2, beField r 8 8, port, false) }) ∧
  (∀ (m : BalMsg) (s u : State), s.balTake 0x81 m = (true, u) →
    (s.foyerRuns = false ∨ s.foyer.view.find? (fun v => v.1.cellId == beField (m.body.drop 8) 0 8) = none → exec (.recommend m) s = .next u) ∧
    (∀ (v : CellRec) (st : Nat), s.foyerRuns = true → s.foyer.view.find? (fun v => v.1.cellId == beField (m.body.drop 8) 0 8) = some (v, st) →
      leField m.body 0 1 < 2 →
      (s.portServes (leField m.body 0 1) = true →
        exec (.recommend m) s = .next ((u.count Od.recommendsOut 1).emit (.datagram (leField m.body 0 1) v.reply v.replyPort
          (beBytes 2 0x4654 ++ beBytes 1 1 ++ beBytes 1 2 ++ beBytes 1 1 ++ zeros 3 ++ beBytes 4 (s.fval Od.senderId) ++
            beBytes 4 (s.odGet Od.recommendsOut) ++ m.body.drop 8)))) ∧
      (s.portServes (leField m.body 0 1) = false → s.portServes (1 - leField m.body 0 1) = false → exec (.recommend m) s = .next (u.count Od.recommendDrops 1))))

/-- A message that has passed its checks: EOP_REQ joins Newel's queue when its five checks pass and goes no further when they do not; EOP_RESP leaves as a datagram to its destination; TIME_REPORT gives the PTP offset; FOYER_EVENT is refused for a code that the Foyer does not raise; MAP_UPDATE, CONFIG and TIME_SET change what a
running Foyer holds, and nothing of one that does not run; FIRMWARE is refused while the Foyer runs and otherwise counts into its load; HEARTBEAT ends the load that it reports done, and otherwise only marks its moment. A timeout without heartbeat restarts the Foyer, and drops the held records and
what crosses. -/
def Obligations.BalustradeMessagesTakeEffect : Prop :=
  (∀ (m : BalMsg) (sig : Bool) (s u : State), s.balTake 0x02 m = (true, u) → leField m.body 18 6 = 0 →
    (u.eopServed = false → exec (.eopReq m sig) s = .next u) ∧
    (u.eopServed = true → ∀ r : State, u.eopCheck (m.body.drop 24) sig = (false, r) → exec (.eopReq m sig) s = .next r) ∧
    (u.eopServed = true → ∀ r : State, u.eopCheck (m.body.drop 24) sig = (true, r) →
      ∃ t : State, exec (.eopReq m sig) s = .next t ∧ t = { r with eop := t.eop } ∧ t.eop.high = r.eop.high ∧ t.eop.seen = r.eop.seen ∧
        t.eop.queue = s.eop.queue ++ [⟨2, BitVec.ofNat 128 (beField m.body 0 16), leField m.body 16 2, m.body.drop 24⟩])) ∧
  (∀ (m : BalMsg) (s u : State), s.balTake 0x82 m = (true, u) →
    (s.foyerRuns = false ∨ s.eopPort = none → exec (.eopResp m) s = .next u) ∧
    (∀ p, s.foyerRuns = true → s.eopPort = some p →
      exec (.eopResp m) s = .next (u.emit (.datagram p (BitVec.ofNat 128 (beField m.body 0 16)) (leField m.body 16 2) (m.body.drop 24))))) ∧
  (∀ (m : BalMsg) (s u : State), s.balTake 0x03 m = (true, u) →
    ∃ t : State, exec (.timeReport m) s = .next t ∧ t.odGet Od.ptpOffsetNs = leField m.body 0 4 ∧ t = { u with od := t.od } ∧
      (s.odGet Od.freqSource = 1 → t.odGet Od.freqErrorPpb = leField m.body 8 4) ∧ (s.odGet Od.freqSource = 2 → t.odGet Od.freqErrorPpb = leField m.body 12 4)) ∧
  (∀ (m : BalMsg) (s u : State), s.balTake 0x04 m = (true, u) →
    (leField m.body 0 2 ∉ foyerCodes → exec (.foyerEvent m) s = .next u.balRefuse) ∧
    (leField m.body 0 2 ∈ foyerCodes → ∃ t : State, exec (.foyerEvent m) s = .next t ∧ t.foyer = u.foyer ∧ t.mode = s.mode ∧ t.halls = s.halls)) ∧
  (∀ (m : BalMsg) (s u : State), s.balTake 0x83 m = (true, u) →
    (s.foyerRuns = false → exec (.mapUpdate m) s = .next u) ∧
    (s.foyerRuns = true → ∃ t : State, exec (.mapUpdate m) s = .next t ∧ t = { u with foyer := { u.foyer with view := t.foyer.view } } ∧
      (leField m.body 0 2 = 0 → t.foyer.view = s.foyer.view) ∧
      (∀ (r : CellRec) (b : Bytes), leField m.body 0 2 = 1 → m.body.length = 64 → b = m.body.drop 16 → r = cellRecOf b →
        (leField b 18 1 ≠ 0 → (r, leField b 18 1) ∈ t.foyer.view ∧ ∀ v ∈ t.foyer.view, v.1.cellId = r.cellId → v = (r, leField b 18 1)) ∧
        (leField b 18 1 = 0 → ∀ v ∈ t.foyer.view, ¬ (v.1.cellId = r.cellId ∧ v.1.entry = r.entry))))) ∧
  (∀ (m : BalMsg) (k : Nat) (s u : State), s.balTake 0x84 m = (true, u) → k = leField m.body 0 2 * 256 + leField m.body 2 1 →
    (s.foyerRuns = false → exec (.config m) s = .next u) ∧
    (s.foyerRuns = true → (k ∉ foyerEntries ∨ m.body.length ≠ 16 + leField m.body 4 4) → exec (.config m) s = .next u.balRefuse) ∧
    (s.foyerRuns = true → k ∈ foyerEntries → m.body.length = 16 + leField m.body 4 4 →
      ∃ t : State, exec (.config m) s = .next t ∧ t.fval k = leNat (m.body.drop 16) ∧ t.fdom k = m.body.drop 16 ∧
        (∀ j, j ≠ k → t.fval j = s.fval j) ∧ t.foyer.cells = s.foyer.cells ∧ t.halls = s.halls)) ∧
  (∀ (m : BalMsg) (s u : State), s.balTake 0x85 m = (true, u) →
    (s.foyerRuns = false → exec (.timeSet m) s = .next u) ∧
    (s.foyerRuns = true → ∃ t : State, exec (.timeSet m) s = .next t ∧ t.foyer.timeSet = some (leField m.body 0 8, leField m.body 8 1) ∧
      t = { u with foyer := t.foyer })) ∧
  (∀ (m : BalMsg) (s u : State), s.balTake 0x86 m = (true, u) →
    (s.odGet Od.foyerState = 2 → exec (.firmware m) s = .next u.balRefuse) ∧
    (s.odGet Od.foyerState ≠ 2 → ∃ t : State, exec (.firmware m) s = .next t ∧ t.foyer.fwTaken = s.foyer.fwTaken + (m.body.length - 16) ∧
      t.odGet Od.foyerState = (if s.odGet Od.foyerState = 0 then 1 else s.odGet Od.foyerState))) ∧
  (∀ (m : BalMsg) (s u : State), s.balTake 0x05 m = (true, u) →
    (leField m.body 0 1 = 2 → (s.odGet Od.foyerState = 1 ∨ s.odGet Od.foyerState = 3) →
      ∃ t : State, exec (.heartbeat m) s = .next t ∧ t.odGet Od.foyerState = 2 ∧ t.foyer.heartbeat = s.epoch ∧ t.foyer.view = [] ∧
        t.foyer.cells = s.foyer.cells ∧ ∀ k ∈ foyerEntries, kfind k t.foyer.applied = some (s.configBytes k)) ∧
    (¬ (leField m.body 0 1 = 2 ∧ (s.odGet Od.foyerState = 1 ∨ s.odGet Od.foyerState = 3)) →
      exec (.heartbeat m) s = .next { u with foyer := { u.foyer with heartbeat := s.epoch } })) ∧
  (∀ s : State,
    (s.foyerRuns = false → exec .heartbeatTimeout s = .next s) ∧
    (s.foyerRuns = true → s.test.run = none →
      ∃ t : State, exec .heartbeatTimeout s = .next t ∧ t.odGet Od.foyerState = 3 ∧ t.odGet Od.ptpState = 0 ∧ t.foyer.dataIn = [] ∧ t.foyer.mgmtIn = [] ∧
        t.foyer.toFoyer = [] ∧ t.foyer.cells = s.foyer.cells.map (fun c => { c with held := none })))

/-- A port's link comes and goes with its OD bit, unless the port is under test, when it carries nothing; an optical port without an accepted SFP28 module brings none up, and a module that the cage cannot take is held disabled. Echoes are answered up to 10 a second. ESMC gives a port's quality level until it times out. PTP listens, follows and locks by its messages and falls to
state 4 without Announce; with the Foyer off, or on another port, transport or domain, a message does nothing. A 1PPS edge opens a window or falls into the open one; a window with one edge makes it valid, two seconds without one lose the input. A 10 MHz measurement within 10 ppm is valid. The pulse leaves at the
announced second in lock or holdover. -/
def Obligations.PortsAndTimeInputs : Prop :=
  (∀ (p : Nat) (up : Bool) (s : State), p < 3 →
    ((s.mode = .off ∨ s.portTested p = true ∨ (up = true ∧ p < 2 ∧ p ∉ s.foyer.sfp)) → exec (.portLinkChange p up) s = .next s) ∧
    (s.mode ≠ .off → s.portTested p = false → ¬ (up = true ∧ p < 2 ∧ p ∉ s.foyer.sfp) →
      ∃ t : State, exec (.portLinkChange p up) s = .next t ∧ t.portUp p = up ∧ (∀ q, q ≠ p → t.portUp q = s.portUp q) ∧ t.foyer = s.foyer)) ∧
  (∀ (p mw : Nat) (sr : Bool) (s : State), p < 2 →
    (s.mode = .off → exec (.sfpInserted p sr mw) s = .next s) ∧
    (s.mode ≠ .off → sr = true → mw ≤ 1500 → ∃ t : State, exec (.sfpInserted p sr mw) s = .next t ∧ p ∈ t.foyer.sfp ∧ t = { s with foyer := t.foyer }) ∧
    (s.mode ≠ .off → (sr = false ∨ 1500 < mw) → ∃ t : State, exec (.sfpInserted p sr mw) s = .next t ∧ p ∉ t.foyer.sfp ∧ t.portUp p = false)) ∧
  (∀ (p : Nat) (b : Bytes) (s : State), p < 3 →
    (s.foyerRuns = true → s.portServes p = true → ((kget (0, 0) p s.foyer.icmp).1 ≠ s.epoch / oneSec ∨ (kget (0, 0) p s.foyer.icmp).2 < 10) →
      ∃ t : State, exec (.icmpEcho p b) s = .next t ∧ t.out = s.out ++ [.icmp p b] ∧ t = { s with foyer := t.foyer, out := t.out }) ∧
    (s.foyerRuns = false ∨ s.portServes p = false ∨ ((kget (0, 0) p s.foyer.icmp).1 = s.epoch / oneSec ∧ 10 ≤ (kget (0, 0) p s.foyer.icmp).2) →
      exec (.icmpEcho p b) s = .next s)) ∧
  (∀ (p q : Nat) (s : State), p < 2 →
    (s.foyerRuns = true → s.portServes p = true → ∃ t : State, exec (.esmcPdu p q) s = .next t ∧ kfind p t.foyer.ql = some (q % 16) ∧
      kfind p t.foyer.esmcAt = some s.epoch ∧ bit (t.odGet Od.synceUsable) p = decide (q % 16 < 15)) ∧
    ((s.foyerRuns = false ∨ s.portServes p = false) → exec (.esmcPdu p q) s = .next s) ∧
    (kfind p s.foyer.ql = none → exec (.esmcTimeout p) s = .next s) ∧
    (∀ x, kfind p s.foyer.ql = some x → ∃ t : State, exec (.esmcTimeout p) s = .next t ∧ bit (t.odGet Od.synceUsable) p = false)) ∧
  (∀ (p tr dom ty : Nat) (off : Int) (s : State),
    (s.foyerRuns = false ∨ s.odGet Od.ptpState = 0 ∨ s.portServes p = false ∨ p ≠ bits (s.fval Od.ptpPort) 3 0 ∨ tr ≠ bits (s.fval Od.ptpPort) 7 4 ∨
      dom ≠ s.fval Od.ptpDomain → exec (.ptpMessage p tr dom ty off) s = .next s) ∧
    (s.foyerRuns = true → s.portServes p = true → p = bits (s.fval Od.ptpPort) 3 0 → tr = bits (s.fval Od.ptpPort) 7 4 → dom = s.fval Od.ptpDomain →
      ((s.odGet Od.ptpState = 1 ∨ s.odGet Od.ptpState = 4) → ∃ t : State, exec (.ptpMessage p tr dom 0xB off) s = .next t ∧ t.odGet Od.ptpState = 2 ∧
        t.foyer.announceAt = s.epoch) ∧
      ((s.odGet Od.ptpState = 2 ∨ s.odGet Od.ptpState = 3) →
        (∃ t : State, exec (.ptpMessage p tr dom 9 off) s = .next t ∧ t.odGet Od.ptpState = 3 ∧ t.odGet Od.ptpOffsetNs = ofInt 32 off) ∧
        (s.foyer.askedAt + 62500000 ≤ s.epoch → ∃ t : State, exec (.ptpMessage p tr dom 0 off) s = .next t ∧ t.out = s.out ++ [.ptp p 1])))) ∧
  (∀ s : State,
    ((s.foyerRuns = false ∨ s.odGet Od.ptpState = 0 ∨ s.odGet Od.ptpState = 4) → exec .ptpLost s = .next s) ∧
    (s.foyerRuns = true → s.odGet Od.ptpState ≠ 0 → ∃ t : State, exec .ptpLost s = .next t ∧ t.odGet Od.ptpState = 4)) ∧
  (∀ (time : Nat) (s : State),
    (s.foyerRuns = false → exec (.ppsEdge time) s = .next s ∧ exec (.ppsWindowEnd time) s = .next s) ∧
    (s.foyerRuns = true →
      (s.foyer.ppsWindow = none → ∃ t : State, exec (.ppsEdge time) s = .next t ∧ t.foyer.ppsWindow = some (time + oneSec) ∧ t.foyer.ppsEdges = []) ∧
      (∀ c, s.foyer.ppsWindow = some c → c ≤ time + oneMs → time ≤ c + oneMs → ∃ t : State, exec (.ppsEdge time) s = .next t ∧
        t.foyer.ppsEdges = s.foyer.ppsEdges ++ [time] ∧ t = { s with foyer := t.foyer }) ∧
      (∀ c, s.foyer.ppsWindow = some c → ¬ (c ≤ time + oneMs ∧ time ≤ c + oneMs) → exec (.ppsEdge time) s = .next (s.count Od.ppsEdgesIgnored 1)) ∧
      (∀ c e, s.foyer.ppsWindow = some c → s.foyer.ppsEdges = [e] → ∃ t : State, exec (.ppsWindowEnd time) s = .next t ∧ t.odGet Od.ppsInState = 2 ∧
        t.foyer.ppsEdges = [] ∧ t.foyer.ppsWindow = some (s.nextWindow e) ∧
        t.odGet Od.ppsInOffsetNs = ofInt 32 (if 2 * (e % oneSec) < oneSec then ((e % oneSec : Nat) : Int) else ((e % oneSec : Nat) : Int) - oneSec)) ∧
      (s.foyer.ppsEdges = [] → s.odGet Od.ppsInState = 2 → s.foyer.ppsValidAt + 2 * oneSec ≤ time →
        ∃ t : State, exec (.ppsWindowEnd time) s = .next t ∧ t.odGet Od.ppsInState = 3))) ∧
  (∀ (ppb : Int) (miss : Bool) (s : State),
    (s.foyerRuns = false → exec (.ref10Measure ppb miss) s = .next s) ∧
    (s.foyerRuns = true →
      (ppb.natAbs ≤ 10000 → miss = false → s.odGet Od.ref10State = 0 → ∃ t : State, exec (.ref10Measure ppb miss) s = .next t ∧ t.odGet Od.ref10State = 1) ∧
      (ppb.natAbs ≤ 10000 → miss = false → s.odGet Od.ref10State = 2 → ∃ t : State, exec (.ref10Measure ppb miss) s = .next t ∧
        t.odGet Od.ref10State = (if 99 ≤ s.foyer.ref10Good then 1 else 2)) ∧
      ((10000 < ppb.natAbs ∨ miss = true) → s.odGet Od.ref10State = 1 → ∃ t : State, exec (.ref10Measure ppb miss) s = .next t ∧ t.odGet Od.ref10State = 2 ∧
        t.foyer.ref10Good = 0))) ∧
  (∀ s : State,
    (s.foyerRuns = false ∨ s.foyer.timeSet = none → exec .ppsOutPulse s = .next s) ∧
    (∀ a st, s.foyerRuns = true → s.foyer.timeSet = some (a, st) →
      exec .ppsOutPulse s = .next (if s.fval Od.ppsOutEnable ≠ 0 ∧ (st = 2 ∨ st = 3) then
        ({ s with foyer := { s.foyer with timeSet := none } } : State).emit .pps else { s with foyer := { s.foyer with timeSet := none } })))

/-- A restart of Newel queues 0x1220 and, where the episode table is lost, enters Safe Stop; its end drains the queue. While it restarts, nothing is sampled. A sample gives its sensor the value read, failed once it has failed, and a stack at 110 °C enters Safe Stop. The end of a log interval closes it, or writes one record with its count. The oldest waiting
record enters the persistent ring unless firmware is being programmed. SERVICE_REQ_N counts once stable, and at its ninth transition in a second chatters until a second is quiet. THERMTRIP_N takes hall power and enters Safe Stop. In Off none of them does anything. -/
def Obligations.NewelEventsSettle : Prop :=
  (∀ (cause : Nat) (ok : Bool) (s : State),
    (s.mode = .off → exec (.newelRestart cause ok) s = .next s) ∧
    (s.mode ≠ .off → s.newel.eventQueue.length < 64 →
      ∃ t : State, exec (.newelRestart cause true) s = .next t ∧ t.newel.restarting = true ∧ t.mode = s.mode ∧
        t.odGet Od.newelRestarts = (s.odGet Od.newelRestarts + 1) % odModulus Od.newelRestarts ∧
        ∃ e : FaultEv, t.newel.eventQueue = s.newel.eventQueue ++ [e] ∧ e.ev.code = 0x1220) ∧
    (s.mode ≠ .off → ∃ t : State, exec (.newelRestart cause false) s = .next t ∧ t.newel.restarting = true ∧ t.mode = .safeStop ∧ t.newel.episodes = [])) ∧
  (∀ s : State, (s.newel.restarting = false → exec .newelRestartDone s = .next s) ∧
    (s.newel.restarting = true → ∃ t : State, exec .newelRestartDone s = .next t ∧ t.newel.restarting = false ∧ t.newel.eventQueue = [] ∧
      (s.newel.eventQueue = [] → t = { s with newel := { s.newel with restarting := false } }))) ∧
  (∀ (r : Reading) (rs : List Reading) (s : State),
    ((s.mode = .off ∨ s.newel.restarting = true) → exec (.sensorSample rs) s = .next s) ∧
    (s.mode ≠ .off → s.newel.restarting = false → sensorExists r = true →
      ∃ t : State, exec (.sensorSample [r]) s = .next t ∧
        t.sensor r.kind r.index = some ⟨r.kind, r.index, r.value, true,
          ((s.sensor r.kind r.index).map (·.failed)).getD false || readingFails r ((s.sensor r.kind r.index).bind (·.prev)), some r.value⟩) ∧
    (∀ n, s.mode ≠ .off → s.mode ≠ .safeStop → s.newel.restarting = false → n < 24 → r.kind = 0 → r.index = 32 + 2 * n → s.sensor 0 r.index = none → s.failedCount 0 (32 + 2 * n) (34 + 2 * n) = 0 →
      s.power.hallPower.contains (n / 6) = true → 110000 ≤ r.value → r.value ≤ 150000 →
      ∃ t : State, exec (.sensorSample [r]) s = .next t ∧ t.mode = .safeStop ∧ t.power.hallPower = [])) ∧
  (∀ (code subject : Nat) (s : State),
    ((s.newel.restarting = true ∨ s.log.intervals.find? (fun i => i.code == code && i.subject == subject) = none) → exec (.logIntervalEnd code subject) s = .next s) ∧
    (∀ i, s.newel.restarting = false → s.log.intervals = [i] → i.code = code → i.subject = subject →
      (i.count = 0 → exec (.logIntervalEnd code subject) s = .next { s with log := { s.log with intervals := [] } }) ∧
      (i.count ≠ 0 → ∃ (t : State) (x : LogRec), exec (.logIntervalEnd code subject) s = .next t ∧ t.log.intervals = [{ i with opened := s.epoch, count := 0 }] ∧
        x ∈ t.log.ring ∧ x.code = i.ev.code ∧ x.count = i.count ∧ x.time = i.first))) ∧
  (∀ s : State,
    (s.log.toFlash = [] ∨ s.odGet Od.fwState = 3 → exec .persistRecord s = .next s) ∧
    (∀ r l, s.log.toFlash = r :: l → s.odGet Od.fwState ≠ 3 → ∃ (t : State) (x : LogRec), exec .persistRecord s = .next t ∧ t.log.toFlash = l ∧
      x = { r with flags := x.flags } ∧ bit x.flags 3 = true ∧ t.log.persist = keepLast 64 (s.log.persist ++ [x]) ∧ t = { s with log := t.log })) ∧
  (∀ (a st : Bool) (s : State),
    (s.mode = .off → exec (.serviceReq a st) s = .next s) ∧
    (s.mode ≠ .off → (s.newel.svcChatter = true ∨ a = s.newel.svcCounted) → exec (.serviceReq a true) s = .next s) ∧
    (s.mode ≠ .off → s.newel.svcChatter = false → a ≠ s.newel.svcCounted →
      ∃ t : State, exec (.serviceReq a true) s = .next t ∧ t.newel.svcCounted = a ∧
        (a = true → t.odGet Od.serviceEvents = (s.odGet Od.serviceEvents + 1) % odModulus Od.serviceEvents) ∧
        (a = true → s.odGet Od.serviceAction = 1 → s.mode = .run → s.newel.recovery = false → s.trans = none → s.odGet Od.fwState = 0 → t.trans = some .stopped)) ∧
    (s.mode ≠ .off → ∃ t : State, exec (.serviceReq a false) s = .next t ∧
      t.newel.svcEdges = s.newel.svcEdges.filter (fun x => decide (s.epoch < x + oneSec)) ++ [s.epoch] ∧ t.newel.svcCounted = s.newel.svcCounted ∧
      t.newel.svcChatter = (s.newel.svcChatter || decide (8 ≤ (s.newel.svcEdges.filter (fun x => decide (s.epoch < x + oneSec))).length))) ∧
    (s.newel.svcChatter = false → exec (.serviceChatterEnd a) s = .next s) ∧
    (s.newel.svcChatter = true → ∃ t : State, exec (.serviceChatterEnd a) s = .next t ∧ t.newel.svcChatter = false ∧ t.newel.svcCounted = a ∧ t.newel.svcEdges = [])) ∧
  (∀ s : State,
    (s.newel.svcTimerFrom = none ∨ s.trans = some .stopped ∨ s.newel.svcHeldStop = true → exec .serviceStandbyTimer s = .next s) ∧
    (∀ x, s.newel.svcTimerFrom = some x → s.trans ≠ some .stopped → s.newel.svcHeldStop = false → s.mode ≠ .stopped →
      exec .serviceStandbyTimer s = .next { s with newel := { s.newel with svcTimerFrom := none } }) ∧
    (∀ x, s.newel.svcTimerFrom = some x → s.trans = none → s.newel.svcHeldStop = false → s.mode = .stopped → s.odGet Od.fwState = 0 → s.tripHot = false →
      ∃ t : State, exec .serviceStandbyTimer s = .next t ∧ t.trans = some .standby ∧ t.newel.svcTimerFrom = none ∧ t.mode = .stopped)) ∧
  (∀ (n : Nat) (c : Int) (s : State),
    ((s.mode = .off ∨ s.mode = .standby) → exec (.thermtrip n c) s = .next s) ∧
    (s.mode ≠ .off → s.mode ≠ .standby → ∃ t : State, exec (.thermtrip n c) s = .next t ∧ t.mode = .safeStop ∧ t.power.hallPower = [] ∧ t.newel.tripped = true ∧
      n ∈ t.newel.tripSensors))

/-- Without a right PEC, or in Off, a read of the SMBus port gives no data, and the Alert Response Address none either while no cause asserts ALERT_N. With one, a command answers with its data and the PEC of the whole transaction: the state, the causes of ALERT_N, temperatures in 1/64 °C (the greatest of the sensors that read;
coolant from its own sensors), voltage, current and power, the identity and the version of the running image. A read changes nothing of the module. -/
def Obligations.SmbusReadsAnswer : Prop :=
  (∀ (c : Bool → Instr) (b : Bool) (s : State), c ∈ [Instr.smbusReadModuleState, .smbusReadAlertCauses, .smbusReadHallTemp, .smbusReadStackTemp,
      .smbusReadCoolantInlet, .smbusReadCoolantOutlet, .smbusReadInputVoltage, .smbusReadInputCurrent, .smbusReadInputPower, .smbusReadIdentity,
      .smbusReadFwVersion, .alertResponseAddress] →
    (∃ (t : State) (x : Option Bytes), exec (c b) s = .next t ∧ t.out = s.out ++ [.smbus x] ∧ t = { s with out := t.out, free := t.free } ∧
      (b = false ∨ s.mode = .off → x = none))) ∧
  (∀ (cmd : Nat) (data : Bytes) (s : State), s.mode ≠ .off → ∃ h : Bytes, h = leBytes 1 (2 * s.smbusAddr) ++ leBytes 1 cmd ++ leBytes 1 (2 * s.smbusAddr + 1) ∧
    s.smbusRead true cmd data = .next (s.emit (.smbus (some (data ++ [pecOf (h ++ data)]))))) ∧
  (∀ s : State, exec (.smbusReadModuleState true) s = s.smbusRead true 0x01 (leBytes 1 s.mode.code) ∧
    exec (.smbusReadAlertCauses true) s = s.smbusRead true 0x02 (leBytes 1 s.alertCauses) ∧
    exec (.smbusReadInputVoltage true) s = s.smbusRead true 0x20 (leBytes 2 (s.odGet Od.inputMv)) ∧
    exec (.smbusReadInputPower true) s = s.smbusRead true 0x22 (leBytes 2 (s.odGet Od.inputPowerW)) ∧
    exec (.smbusReadFwVersion true) s = s.smbusRead true 0x31 (leBytes 1 4 ++ leBytes 4 s.newel.running.version) ∧
    exec (.smbusReadIdentity true) s = s.smbusRead true 0x30 (leBytes 1 (9 + serialBytes.length) ++ (ascii "CTX3-48A" ++ zeros 1 ++ serialBytes))) ∧
  (∀ s : State,
    (∀ x, s.sensor 0 92 = some x → exec (.smbusReadCoolantInlet true) s = s.tick.smbusRead true 0x12 (leBytes 2 (ofInt 16 (x.value * 64 / 1000)))) ∧
    (∀ x, s.sensor 0 93 = some x → exec (.smbusReadCoolantOutlet true) s = s.tick.smbusRead true 0x13 (leBytes 2 (ofInt 16 (x.value * 64 / 1000)))) ∧
    (∀ x, s.sensor 2 0 = some x → exec (.smbusReadInputCurrent true) s = s.tick.smbusRead true 0x21 (leBytes 2 (x.value.toNat / 10))) ∧
    (∀ (h : Nat) (v : Int), h < 4 → s.dieTemp h = some v → (∀ k w, k < 4 → s.dieTemp k = some w → w ≤ v) →
      exec (.smbusReadHallTemp true) s = s.tick.smbusRead true 0x10 (leBytes 2 (ofInt 16 (v * 64 / 1000)))) ∧
    (∀ (n : Nat) (v : Int), n < 24 → s.stackTemp n = some v → (∀ k w, k < 24 → s.stackTemp k = some w → w ≤ v) →
      exec (.smbusReadStackTemp true) s = s.tick.smbusRead true 0x11 (leBytes 2 (ofInt 16 (v * 64 / 1000))))) ∧
  (∀ s : State,
    (s.alertCauses = 0 → exec (.alertResponseAddress true) s = .next (s.emit (.smbus none))) ∧
    (s.alertCauses ≠ 0 → s.mode ≠ .off → exec (.alertResponseAddress true) s =
      .next (s.emit (.smbus (some (leBytes 1 (2 * s.smbusAddr) ++ [pecOf ([0x19#8] ++ leBytes 1 (2 * s.smbusAddr))]))))) ∧
    (bit s.alertCauses 1 = true ↔ s.newel.tripped = true) ∧ (bit s.alertCauses 2 = true ↔ s.mode = .safeStop) ∧
    (bit s.alertCauses 3 = true ↔ s.newel.svcCounted = true) ∧
    (bit s.alertCauses 0 = true ↔ ∃ r ∈ s.log.buffer, s.odGet Od.alertSeverity ≤ r.severity))

/-- In Off no event of power or clocks does anything, but that an input outside 40 to 60 V opens the switch. A tick of the governor records the average power and the energy, keeps every powered rail between 0.62 and 0.85 V, holds it at 0.62 V for a die at 105 °C or in a hold, and in Training, and while Newel restarts, leaves it alone. A fast limit above 1,450 W takes hall power and enters Safe Stop, one above 1,050 W holds the rails down
until its hold ends. An input below 32 V, or above 60 V, is Off; below 36 V it is Safe Stop, below 40 V the rails are held until it is 40 V again. A source that qualifies is followed in the order of priority; the timebase locks at the sixteenth offset within 100 ns and goes to holdover when its source is lost. A PLL fails at its third restart. -/
def Obligations.PowerAndClocksFollowTheirRules : Prop :=
  (∀ (w : Nat) (s : State),
    (s.mode = .off → exec (.governorTick w) s = .next s) ∧
    (s.mode ≠ .off → ∃ t : State, exec (.governorTick w) s = .next t ∧ t.odGet Od.inputPowerAvgW = w % 65536 ∧
      t.power.energyMj = s.power.energyMj + s.odGet Od.inputPowerW ∧ t.mode = s.mode ∧
      (s.mode = .training ∨ s.mode = .standby ∨ s.mode = .safeStop → ∀ h, h < 4 → t.rail h = s.rail h) ∧
      (s.newel.restarting = true → ∀ h, h < 4 → t.rail h = s.rail h) ∧
      (s.newel.restarting = false → s.mode = .ready ∨ s.mode = .run ∨ s.mode = .stopped → ∀ h, h < 4 → h ∈ s.power.hallPower → s.power.hallPower.Nodup →
        620 ≤ t.rail h ∧ t.rail h ≤ 850 ∧
        (s.power.fastHold.isSome = true ∨ s.power.railsHeld = true ∨ (∃ x, s.dieTemp h = some x ∧ 105000 ≤ x) → t.rail h = 620)))) ∧
  (∀ (h : Nat) (s : State), hallOk h = true →
    (s.power.hallPower.contains h = false → exec (.rateBelowFloor h) s = .next s) ∧
    (s.power.hallPower.contains h = true → ∃ t : State, exec (.rateBelowFloor h) s = .next t ∧ t.mode = s.mode ∧ t.power = s.power ∧
      t.odGet Od.rateFloorEvents = (s.odGet Od.rateFloorEvents + 1) % odModulus Od.rateFloorEvents)) ∧
  (∀ (w : Nat) (s : State),
    (s.mode = .off ∨ w ≤ 1050 → exec (.powerFastLimit w) s = .next s) ∧
    (s.mode ≠ .off → 1450 < w → ∃ t : State, exec (.powerFastLimit w) s = .next t ∧ t.mode = .safeStop ∧ t.power.hallPower = []) ∧
    (s.mode ≠ .off → 1050 < w → w ≤ 1450 → ∃ t : State, exec (.powerFastLimit w) s = .next t ∧ t.power.fastHold = some s.epoch ∧ t.mode = s.mode ∧
      (∀ h ∈ s.power.hallPower, h < 4 → t.rail h = 620)) ∧
    exec .fastLimitHoldEnd s = .next { s with power := { s.power with fastHold := none } }) ∧
  (∀ (mv : Nat) (s : State),
    (s.mode = .off → 40000 ≤ mv → mv ≤ 60000 → exec (.inputVoltageEvent mv) s = .next s) ∧
    (s.mode = .off → (mv < 40000 ∨ 60000 < mv) → exec (.inputVoltageEvent mv) s = .next { s with start := { s.start with closed := false } }) ∧
    (s.mode ≠ .off → (mv < 32000 ∨ 60000 < mv) → ∃ t : State, exec (.inputVoltageEvent mv) s = .next t ∧ t.mode = .off ∧ t.mem.cells = [] ∧
      t.power.highOwed = (decide (60000 < mv) || s.power.highOwed)) ∧
    (s.mode ≠ .off → 32000 ≤ mv → mv < 36000 → ∃ t : State, exec (.inputVoltageEvent mv) s = .next t ∧ t.mode = .safeStop ∧
      t.power.railsHeld = true ∧ (s.mode ≠ .safeStop → t.odGet Od.safeStopCause = 0x2001)) ∧
    (s.mode ≠ .off → 36000 ≤ mv → mv < 40000 → ∃ t : State, exec (.inputVoltageEvent mv) s = .next t ∧ t.mode = s.mode ∧ t.power.railsHeld = true ∧
      (∀ h ∈ s.power.hallPower, h < 4 → t.rail h = 620)) ∧
    (s.mode ≠ .off → 40000 ≤ mv → mv ≤ 60000 → ∃ t : State, exec (.inputVoltageEvent mv) s = .next t ∧ t.power.railsHeld = false ∧ t.power.lowInput = false ∧
      t = { s with od := t.od, power := t.power })) ∧
  (∀ (c : Nat) (us q : Bool) (s : State),
    ((s.mode = .off ∨ c = 0 ∨ 5 < c) → exec (.freqQualify c us q) s = .next s) ∧
    (s.mode ≠ .off → 1 ≤ c → c ≤ 5 → ∃ t : State, exec (.freqQualify c us q) s = .next t ∧ (t.freqSrc c).usable = us ∧ (t.freqSrc c).qualified = (us && q) ∧
      (∀ d, d ≠ c → t.freqSrc d = s.freqSrc d) ∧ (s.timeRef = false → t.odGet Od.freqSource = s.odGet Od.freqSource) ∧
      (s.timeRef = true → us = true → q = true → s.odGet Od.freqSource = 0 → s.odGet Od.freqPriority = c → t.odGet Od.freqSource = c))) ∧
  (∀ (p : Bool) (off : Int) (s : State),
    (s.mode = .off → exec (.timebaseLockCheck p off) s = .next s) ∧
    (s.mode ≠ .off → s.timeRef = false → ∃ t : State, exec (.timebaseLockCheck p off) s = .next t ∧ t = { s with od := t.od } ∧
      (s.odGet Od.timeState = 2 → t.odGet Od.tbState = 2)) ∧
    (s.mode ≠ .off → s.timeRef = true → s.odGet Od.timeSource ≠ 0 →
      (s.odGet Od.tbState = 2 → ∃ t : State, exec (.timebaseLockCheck false off) s = .next t ∧ t.odGet Od.tbState = 3 ∧ t.power.inLock = 0) ∧
      (s.odGet Od.tbState ≠ 2 → ∃ t : State, exec (.timebaseLockCheck true off) s = .next t ∧ t.odGet Od.timeOffsetNs = ofInt 64 off ∧
        t.power.inLock = (if off.natAbs ≤ 100 then s.power.inLock + 1 else 0) ∧
        (off.natAbs ≤ 100 → 15 ≤ s.power.inLock → t.odGet Od.tbState = 2) ∧
        (off < 0 → (s.mode = .standby ∨ s.mode = .training) → t.epoch = s.epoch + off.natAbs) ∧
        (¬ (off < 0 ∧ (s.mode = .standby ∨ s.mode = .training)) → t.epoch = s.epoch ∧ t.arcade.slew = -2 * off)))) ∧
  (∀ s : State,
    (s.mode = .off → exec (.tcxoStart true) s = .next s ∧ exec (.tcxoStart false) s = .next s) ∧
    (s.mode ≠ .off → exec (.tcxoStart true) s = .next { s with power := { s.power with tcxo := 1 } } ∧
      ∃ t : State, exec (.tcxoStart false) s = .next t ∧ t.power.tcxo = 2 ∧ t.mode = s.mode)) ∧
  (∀ (u : Nat) (l : Bool) (s : State),
    (s.mode = .off ∨ kget 0 u s.power.plls = 3 → exec (.pllLock u l) s = .next s) ∧
    (s.mode ≠ .off → kget 0 u s.power.plls ≠ 3 → ∃ t : State, exec (.pllLock u l) s = .next t ∧
      kget 0 u t.power.plls = (if l then 0 else if kget 0 u s.power.plls < 2 then kget 0 u s.power.plls + 1 else 3) ∧
      ∀ v, v ≠ u → kget 0 v t.power.plls = kget 0 v s.power.plls))

/-- A scrub read of a burst without errors changes no byte; its channel counts one burst, and at the last one a pass. The end of a row-count period clears the counts of one channel, the end of a lane window those of one stack, and leaves the others. Recentring changes nothing. A quiet period closes an episode of a kind that it closes, and no other.
A verified repair of a weight block whose shadow is clean rebuilds the block from the shadow and closes its episode; where the shadow is not, the host's copy gives the bytes. -/
def Obligations.UpkeepAndEpisodes : Prop :=
  (∀ (a : Nat) (errs : List BitErr) (late : Bool) (s : State),
    (s.memoryUp = false ∨ memTop ≤ a → exec (.scrubRead a errs late) s = .next s) ∧
    (s.memoryUp = true → a < memTop → ∃ t : State, exec (.scrubRead a [] late) s = .next t ∧ t.mem.cells = s.mem.cells ∧ t.mem.poison = s.mem.poison ∧
      (∀ n, n = kget 0 (channelOfRow (rowOf (a / 256 * 256))) s.mem.scrubAt + 1 →
        kget 0 (channelOfRow (rowOf (a / 256 * 256))) t.mem.scrubAt =
          (if late = true ∨ channelBursts (channelOfRow (rowOf (a / 256 * 256))) ≤ n then 0 else n) ∧
        (late = false → channelBursts (channelOfRow (rowOf (a / 256 * 256))) ≤ n →
          t.odGet Od.scrubPasses = (s.odGet Od.scrubPasses + 1) % odModulus Od.scrubPasses)))) ∧
  (∀ (a : Nat) (s : State), ∃ t : State, exec (.rowCountClear a) s = .next t ∧ t = { s with mem := { s.mem with rowCe := t.mem.rowCe } } ∧
    ∀ e, e ∈ t.mem.rowCe ↔ e ∈ s.mem.rowCe ∧ channelOfRow e.1 ≠ channelOfRow (rowOf a)) ∧
  (∀ (n : Nat) (s : State), stackOk n = true → ∃ t : State, exec (.laneCeWindow n) s = .next t ∧ ∀ e, e ∈ t.mem.laneCe ↔ e ∈ s.mem.laneCe ∧ e.1 / 5200 ≠ n) ∧
  (∀ (n : Nat) (s : State), stackOk n = true → (∀ e ∈ s.mem.laneCe, e.1 / 5200 = n → e.2 < s.odGet Od.laneCeLimit) →
    ∃ t : State, exec (.laneCeWindow n) s = .next t ∧ t = { s with mem := { s.mem with laneCe := t.mem.laneCe } } ∧
      ∀ e, e ∈ t.mem.laneCe ↔ e ∈ s.mem.laneCe ∧ e.1 / 5200 ≠ n) ∧
  (∀ (n : Nat) (s : State), stackOk n = true → s.mode ≠ .run →
    ∃ t : State, exec (.laneCeWindow n) s = .next t ∧ t = { s with mem := { s.mem with laneCe := t.mem.laneCe } } ∧
      ∀ e, e ∈ t.mem.laneCe ↔ e ∈ s.mem.laneCe ∧ e.1 / 5200 ≠ n) ∧
  (∀ (h : Nat) (s : State), hallOk h = true → exec (.recentre h) s = .next s) ∧
  (∀ (n : Nat) (s : State),
    (s.newel.episodes.find? (fun e => e.num == n) = none → exec (.episodeCloseTimer n) s = .next s) ∧
    (∀ e, s.newel.episodes.find? (fun e => e.num == n) = some e →
      (s.newel.restarting = true ∨ e.subj.kind ∉ [2, 4, 8, 10] → exec (.episodeCloseTimer n) s = .next s) ∧
      (s.newel.restarting = false → e.subj.kind ∈ [2, 4, 8, 10] → ∃ t : State, exec (.episodeCloseTimer n) s = .next t ∧
        (∀ x, x ∈ t.newel.episodes ↔ x ∈ s.newel.episodes ∧ x.num ≠ n) ∧ t = { s with newel := { s.newel with episodes := t.newel.episodes } }))) ∧
  (∀ (n : Nat) (c : Bool) (v : WeightCheck) (home : Bytes) (s : State),
    (s.newel.episodes.find? (fun e => e.num == n && e.subj.kind == 1) = none → exec (.weightRepairDone n c v) s = .next s) ∧
    (∀ (e : Episode) (m b : Nat) (sl : Slice), s.newel.episodes.find? (fun e => e.num == n && e.subj.kind == 1) = some e → s.subjectBlock e.subj = some (m, sl, b) →
      s.shadowClean sl b = true →
      ∃ t : State, exec (.weightRepairDone n c ⟨true, home⟩) s = .next t ∧ (∀ x ∈ t.newel.episodes, x.num ≠ n) ∧ t.mode = s.mode ∧
        t.odGet Od.weightRepairs = (s.odGet Od.weightRepairs + 1) % odModulus Od.weightRepairs ∧
        t.mem = (s.writeBlock m sl b (s.memBytes (sl.shadow + 4096 * b) 4096)).mem) ∧
    (∀ (e : Episode) (m b : Nat) (sl : Slice) (x : ModelSt), s.newel.episodes.find? (fun e => e.num == n && e.subj.kind == 1) = some e →
      s.subjectBlock e.subj = some (m, sl, b) → s.shadowClean sl b = false → kfind m s.serve.models = some x → x.home ≠ 0 → s.cxl.linkUp = true →
      s.rebuildsBlock sl b home = true →
      ∃ t : State, exec (.weightRepairDone n true ⟨true, home⟩) s = .next t ∧ (∀ x ∈ t.newel.episodes, x.num ≠ n) ∧
        .hostRead (x.home + sl.srcAddr + 4096 * b) 4096 ∈ t.out ∧ t.odGet Od.weightRepairs = (s.odGet Od.weightRepairs + 1) % odModulus Od.weightRepairs ∧
        t.mem = (s.writeBlock m sl b home).mem))

/-- The switch closes in Off within 40 to 60 V, and opens when MATE_DET does, which is Off. Power good with a sound image leads to Standby with the stored settings and one more boot; without one the recovery loader runs. A Training that cannot serve returns to Standby and waits; one that can ends its self-test; memory training leaves every byte
zero and unpoisoned; both together lead to Ready. In Stopped an instruction of boundary scan that drives or floats pins acts and marks that it did; elsewhere it is BYPASS, one zero bit of each device. IDCODE names the devices of the chain, and SAMPLE/PRELOAD holds what is shifted in; after these two and BYPASS no pin is driven or floated by the chain (log entry 101). -/
def Obligations.StartAndBoundaryScan : Prop :=
  (∀ (mv : Nat) (s : State),
    (s.mode = .off → 40000 ≤ mv → mv ≤ 60000 → exec (.hotswapClose mv) s = .next { s with start := { s.start with closed := true, mated := true } }) ∧
    (¬ (s.mode = .off ∧ 40000 ≤ mv ∧ mv ≤ 60000) → exec (.hotswapClose mv) s = .next s)) ∧
  (∀ s : State, ∃ t : State, exec .mateDetOpen s = .next t ∧ t.mode = .off ∧ t.start.closed = false ∧ t.start.mated = false ∧ t.mem.cells = [] ∧
    t.halls = HallsSt.reset ∧ t.log.persist = s.log.persist ∧ t.od.stored = s.od.stored) ∧
  (∀ (a b : Bool) (s : State),
    ((s.mode ≠ .off ∨ s.start.closed = false) → exec (.powerGood a b) s = .next s) ∧
    (s.mode = .off → s.start.closed = true → ∃ t : State, exec (.powerGood a b) s = .next t ∧
      t.newel.bootCount = min (2 ^ 32 - 1) (s.newel.bootCount + 1) ∧ t.power.tcxo = (if b then 1 else 2) ∧ t.newel.recovery = (!a || s.newel.slot.isNone) ∧
      (t.newel.recovery = false → t.mode = .standby ∧ ∀ i, s.newel.slot = some i → t.newel.running = i) ∧
      (t.newel.recovery = true → t.odGet Od.fwState = 6))) ∧
  (∀ (o : TrainOutcome) (s : State),
    (s.mode = .training → s.start.selfTested = true → exec (.training o) s = .next s) ∧
    ((s.mode = .off ∨ s.mode = .ready ∨ s.mode = .run ∨ s.mode = .stopped ∨ s.mode = .safeStop) → exec (.training o) s = .next s) ∧
    (s.mode = .standby → (s.trans ≠ none ∨ s.start.waitTrain = true ∨ s.mayTrain = false ∨ s.tripHot = true) → exec (.training o) s = .next s) ∧
    (s.mode = .training → s.start.selfTested = false → o.plannerFailed = true →
      ∃ t : State, exec (.training o) s = .next t ∧ t.mode = .standby ∧ t.start.waitTrain = true) ∧
    (s.mode = .training → s.start.selfTested = false → o = ⟨[], [], [], [], [], [], false, false, [], (350, 60), [], []⟩ →
      ∃ t : State, exec (.training o) s = .next t ∧ t.start.selfTested = true ∧ t.mode = .training ∧ t.odGet Od.selftestFails = 0 ∧ t.halls = s.halls)) ∧
  (∀ (ms : Nat) (s : State),
    ((s.mode ≠ .training ∨ s.start.memoryDone = true) → exec (.memoryTrainingDone ms) s = .next s) ∧
    (s.mode = .training → s.start.memoryDone = false → ∃ t : State, exec (.memoryTrainingDone ms) s = .next t ∧ (∀ a, t.memByte a = 0#8) ∧
      (∀ w, kget false w t.mem.poison = false) ∧ t.start.memoryDone = true ∧ t.odGet Od.trainingState = 2 ∧ t.mode = .training) ∧
    ((s.mode ≠ .training ∨ s.start.selfTested = false ∨ s.start.memoryDone = false) → exec (.ready ms) s = .next s) ∧
    (s.mode = .training → s.start.selfTested = true → s.start.memoryDone = true → ∃ t : State, exec (.ready ms) s = .next t ∧ t.mode = .ready ∧
      (s.odGet Od.autoRun ≠ 1 → s.newel.svcHeldStop = false → t.trans = none) ∧
      (s.odGet Od.autoRun = 1 → s.newel.svcHeldStop = false → s.odGet Od.fwState = 0 → s.odGet Od.extestSinceStandby = 0 → t.trans = some .run) ∧
      (s.newel.svcHeldStop = true → s.odGet Od.fwState = 0 → t.trans = some .stopped))) ∧
  (∀ (c : Instr) (op : Nat) (d f : Bool) (s : State), (c, op, d, f) ∈ [(Instr.extest, 0x00, true, false), (.extestPulse, 0x03, true, false),
      (.extestTrain, 0x04, true, false), (.clamp, 0x05, true, false), (.highz, 0x06, false, true)] →
    (s.mode = .stopped → ∃ t : State, exec c s = .next t ∧ t.test = { s.test with ir := op, driven := d, floated := f } ∧ t.odGet Od.extestSinceStandby = 1 ∧
      t = { s with test := t.test, od := t.od }) ∧
    (s.mode ≠ .stopped → exec c s = exec .bypass s)) ∧
  (∀ s : State, (s.mode = .off → exec .bypass s = .next s ∧ exec .idcode s = .next s ∧ ∀ b, exec (.samplePreload b) s = .next s) ∧
    (s.mode ≠ .off →
      (∃ t : State, exec .bypass s = .next t ∧ t.test.ir = 0xFF ∧ t.out = s.out ++ s.jtagChain.map (fun d => .jtag d [0#8]) ∧ t = { s with test := t.test, out := t.out }) ∧
      (∃ t : State, exec .idcode s = .next t ∧ t.test.ir = 1 ∧
        t.out = s.out ++ s.jtagChain.map (fun d => .jtag d (leBytes 4 (if d = 0 then 0x1D7E0C01 else 0x1D7E1C01))) ∧ t = { s with test := t.test, out := t.out }) ∧
      (∀ b : Bytes, ∃ t : State, exec (.samplePreload b) s = .next t ∧ t.test.ir = 2 ∧ (∀ d ∈ s.jtagChain, kfind d t.test.preload = some b) ∧
        t.test.driven = false ∧ t.test.floated = false ∧ t.out.length = s.out.length + s.jtagChain.length)))

/-- While FW_STATE reads 2 or 3, every STATE_REQUEST, STORE and RESTORE that reaches the entry with a value of its range is answered with 0x1103: nothing commits, whatever the state of the module. -/
def Obligations.RequestsRefusedDuringFirmware : Prop :=
  ∀ (s : State) (w : OdW) (via : Via), (s.odGet Od.fwState = 2 ∨ s.odGet Od.fwState = 3) →
    (ReachesScalar s w via Od.stateRequest → Denied s (.stateRequest w) w.via 0x1103) ∧
    (ReachesScalar s w via Od.store → Denied s (.store w) w.via 0x1103) ∧
    (ReachesScalar s w via Od.restore → Denied s (.restore w) w.via 0x1103)

/-- A command whose parts exist answers a next state, in every state and with every operand: no command faults, and none is refused but for a part that the module does not have (a hall, flight, arch, port, stack, tenant, vector, corridor or cause of an arch's loss beyond the last), and then with that name. -/
def Obligations.EveryCommandRuns : Prop :=
  ∀ (c : Instr) (s : State),
    (wellFormed c = true → ∃ t : State, exec c s = .next t) ∧ (wellFormed c = false → exec c s = .refused .noSuchUnit)

/-- Whatever command a step takes: device memory keeps its one canonical form, so that equal memories are equal data, and the queue holds exactly the commands that waited behind it, in their order. That memory is a list in canonical form and that waiting commands are taken first in, first out is the model's frame (log entries 1 and 5). -/
def Obligations.StepKeepsMemoryAndQueue : Prop :=
  ∀ (s t : State), Memory.wf s.mem.cells = true → step s = .next t → Memory.wf t.mem.cells = true ∧ t.pending = s.pending.tail

/-- After reset the module is in Standby with no transition, nothing waits, every dictionary entry that is not computed holds its default and nothing is stored, no memory byte is listed (its canonical form; that an unlisted byte reads 0 is log entry 5), the Epoch Counter is 0, no hall is powered, no arch carries frames, and no stream, job, model,
episode, record or cell exists. -/
def Obligations.ResetState : Prop :=
  State.reset.mode = .standby ∧ State.reset.trans = none ∧ State.reset.pending = [] ∧ State.reset.epoch = 0 ∧
  (∀ k, State.reset.odGet k = odDefault k) ∧ State.reset.od.stored = [] ∧ State.reset.od.storedDom = [] ∧
  Memory.wf State.reset.mem.cells = true ∧ State.reset.mem.cells = [] ∧ (∀ a, State.reset.memByte a = 0#8) ∧
  State.reset.power.hallPower = [] ∧ (∀ n, (State.reset.arch n).up = false) ∧ State.reset.progs = [] ∧ State.reset.serve.streams = [] ∧
  State.reset.serve.jobs = [] ∧ State.reset.serve.models = [] ∧ State.reset.newel.episodes = [] ∧ State.reset.log.ring = [] ∧ State.reset.log.buffer = [] ∧
  State.reset.foyer.cells = [] ∧ State.reset.cxl.linkUp = false ∧ State.reset.test.run = none
end

