-- ==== Sys2Proof/Laws/Map.lean ====
section
/-!
SUPPORT. Laws/Map.lean: reading a map after a write, and the canonical form that every write keeps.
-/

namespace Sys2Proof.Machine

variable {α : Type}

/-! ### Reading after a write -/

@[simp] theorem kfind_kput_self (k : Nat) (v : α) (m : KMap α) : kfind k (kput k v m) = some v := by
  induction m with
  | nil => simp [kput, kfind]
  | cons e t ih =>
    obtain ⟨k', v'⟩ := e
    simp only [kput]
    split
    · simp [kfind]
    · split
      · simp [kfind]
      · rename_i h
        simp [kfind, ih, Ne.symm h]

theorem kfind_kput_ne {k j : Nat} (h : j ≠ k) (v : α) (m : KMap α) : kfind j (kput k v m) = kfind j m := by
  induction m with
  | nil => simp [kput, kfind, Ne.symm h]
  | cons e t ih =>
    obtain ⟨k', v'⟩ := e
    simp only [kput]
    split
    · simp [kfind, Ne.symm h]
    · split
      · rename_i hk
        subst hk
        simp [kfind, Ne.symm h]
      · simp only [kfind, ih]

@[simp] theorem kfind_kdel_self (k : Nat) (m : KMap α) : kfind k (kdel k m) = none := by
  induction m with
  | nil => rfl
  | cons e t ih =>
    obtain ⟨k', v'⟩ := e
    simp only [kdel]
    split
    · exact ih
    · rename_i h
      simp [kfind, ih, h]

theorem kfind_kdel_ne {k j : Nat} (h : j ≠ k) (m : KMap α) : kfind j (kdel k m) = kfind j m := by
  induction m with
  | nil => rfl
  | cons e t ih =>
    obtain ⟨k', v'⟩ := e
    simp only [kdel]
    split
    · rename_i hk
      subst hk
      simp [kfind, ih, Ne.symm h]
    · simp only [kfind, ih]

@[simp] theorem kget_kset_self [DecidableEq α] (d : α) (k : Nat) (v : α) (m : KMap α) : kget d k (kset d k v m) = v := by
  unfold kset kget
  split
  · rename_i h
    simp [h]
  · simp

theorem kget_kset_ne [DecidableEq α] {k j : Nat} (h : j ≠ k) (e d v : α) (m : KMap α) : kget e j (kset d k v m) = kget e j m := by
  unfold kset kget
  split
  · rw [kfind_kdel_ne h]
  · rw [kfind_kput_ne h]

/-- A map read after a write at one key. -/
theorem kget_kset [DecidableEq α] (d : α) (k j : Nat) (v : α) (m : KMap α) :
    kget d j (kset d k v m) = if j = k then v else kget d j m := by
  split
  · rename_i h
    subst h
    simp
  · rename_i h
    exact kget_kset_ne h d d v m

/-! ### The canonical form -/

theorem kSortedFrom_mono {lo lo' : Nat} (h : lo' ≤ lo) {m : KMap α} (hm : kSortedFrom lo m = true) : kSortedFrom lo' m = true := by
  cases m with
  | nil => rfl
  | cons e t =>
    obtain ⟨k, v⟩ := e
    simp only [kSortedFrom, Bool.and_eq_true, decide_eq_true_eq] at hm ⊢
    exact ⟨by omega, hm.2⟩

theorem kSortedFrom_kput {lo k : Nat} (hk : lo ≤ k) (v : α) {m : KMap α} (hm : kSortedFrom lo m = true) :
    kSortedFrom lo (kput k v m) = true := by
  induction m generalizing lo with
  | nil => simp [kput, kSortedFrom, hk]
  | cons e t ih =>
    obtain ⟨k', v'⟩ := e
    simp only [kSortedFrom, Bool.and_eq_true, decide_eq_true_eq] at hm
    simp only [kput]
    split
    · rename_i h
      simp only [kSortedFrom, Bool.and_eq_true, decide_eq_true_eq]
      exact ⟨hk, by omega, hm.2⟩
    · split
      · rename_i h
        subst h
        simp only [kSortedFrom, Bool.and_eq_true, decide_eq_true_eq]
        exact ⟨hk, hm.2⟩
      · simp only [kSortedFrom, Bool.and_eq_true, decide_eq_true_eq]
        exact ⟨hm.1, ih (by omega) hm.2⟩

theorem kSortedFrom_kdel {lo : Nat} (k : Nat) {m : KMap α} (hm : kSortedFrom lo m = true) : kSortedFrom lo (kdel k m) = true := by
  induction m generalizing lo with
  | nil => rfl
  | cons e t ih =>
    obtain ⟨k', v'⟩ := e
    simp only [kSortedFrom, Bool.and_eq_true, decide_eq_true_eq] at hm
    simp only [kdel]
    split
    · exact kSortedFrom_mono (by omega) (ih hm.2)
    · simp only [kSortedFrom, Bool.and_eq_true, decide_eq_true_eq]
      exact ⟨hm.1, ih hm.2⟩

/-- A write keeps the keys rising. -/
theorem kSorted_kput (k : Nat) (v : α) {m : KMap α} (hm : kSorted m = true) : kSorted (kput k v m) = true :=
  kSortedFrom_kput (Nat.zero_le k) v hm

/-- A removal keeps the keys rising. -/
theorem kSorted_kdel (k : Nat) {m : KMap α} (hm : kSorted m = true) : kSorted (kdel k m) = true :=
  kSortedFrom_kdel k hm

theorem all_kput (p : Nat × α → Bool) {k : Nat} {v : α} (hv : p (k, v) = true) {m : KMap α} (hm : m.all p = true) :
    (kput k v m).all p = true := by
  induction m with
  | nil => simp [kput, hv]
  | cons e t ih =>
    obtain ⟨k', v'⟩ := e
    simp only [List.all_cons, Bool.and_eq_true] at hm
    simp only [kput]
    split
    · simp [hv, hm.1, hm.2]
    · split
      · simp [hv, hm.2]
      · simp [hm.1, ih hm.2]

theorem all_kdel (p : Nat × α → Bool) (k : Nat) {m : KMap α} (hm : m.all p = true) : (kdel k m).all p = true := by
  induction m with
  | nil => rfl
  | cons e t ih =>
    obtain ⟨k', v'⟩ := e
    simp only [List.all_cons, Bool.and_eq_true] at hm
    simp only [kdel]
    split
    · exact ih hm.2
    · simp [hm.1, ih hm.2]

/-- Setting a key keeps the canonical form of a map with a default. -/
theorem kwf_kset [DecidableEq α] (d : α) (k : Nat) (v : α) {m : KMap α} (hm : kwf d m = true) : kwf d (kset d k v m) = true := by
  simp only [kwf, Bool.and_eq_true] at hm ⊢
  unfold kset
  split
  · exact ⟨kSorted_kdel k hm.1, all_kdel _ k hm.2⟩
  · rename_i h
    exact ⟨kSorted_kput k v hm.1, all_kput _ (by simpa using h) hm.2⟩

/-- What holds of a map and is kept by one write is kept by writes in turn. -/
theorem foldl_keeps {β γ : Type} (P : β → Prop) (f : β → γ → β) (hf : ∀ b c, P b → P (f b c)) (l : List γ) {b : β} (hb : P b) :
    P (l.foldl f b) := by
  induction l generalizing b with
  | nil => exact hb
  | cons c t ih => exact ih (hf b c hb)

end Sys2Proof.Machine
end

