-- ==== Sys2Proof/Laws/State.lean ====
section
/-!
SUPPORT. Laws/State.lean: what each shared update of State leaves as it was, and what it writes, so that no proof unfolds a record update.
-/

namespace Sys2Proof.Machine

/-! ### State.odPut -/

@[simp] theorem State.odPut_pending (s : State) (k v : Nat) : (s.odPut k v).pending = s.pending := rfl
@[simp] theorem State.odPut_epoch (s : State) (k v : Nat) : (s.odPut k v).epoch = s.epoch := rfl
@[simp] theorem State.odPut_mode (s : State) (k v : Nat) : (s.odPut k v).mode = s.mode := rfl
@[simp] theorem State.odPut_trans (s : State) (k v : Nat) : (s.odPut k v).trans = s.trans := rfl
@[simp] theorem State.odPut_free (s : State) (k v : Nat) : (s.odPut k v).free = s.free := rfl
@[simp] theorem State.odPut_out (s : State) (k v : Nat) : (s.odPut k v).out = s.out := rfl
@[simp] theorem State.odPut_eop (s : State) (k v : Nat) : (s.odPut k v).eop = s.eop := rfl
@[simp] theorem State.odPut_log (s : State) (k v : Nat) : (s.odPut k v).log = s.log := rfl
@[simp] theorem State.odPut_newel (s : State) (k v : Nat) : (s.odPut k v).newel = s.newel := rfl
@[simp] theorem State.odPut_cxl (s : State) (k v : Nat) : (s.odPut k v).cxl = s.cxl := rfl
@[simp] theorem State.odPut_halls (s : State) (k v : Nat) : (s.odPut k v).halls = s.halls := rfl
@[simp] theorem State.odPut_mem (s : State) (k v : Nat) : (s.odPut k v).mem = s.mem := rfl
@[simp] theorem State.odPut_xlate (s : State) (k v : Nat) : (s.odPut k v).xlate = s.xlate := rfl
@[simp] theorem State.odPut_serve (s : State) (k v : Nat) : (s.odPut k v).serve = s.serve := rfl
@[simp] theorem State.odPut_arcade (s : State) (k v : Nat) : (s.odPut k v).arcade = s.arcade := rfl
@[simp] theorem State.odPut_foyer (s : State) (k v : Nat) : (s.odPut k v).foyer = s.foyer := rfl
@[simp] theorem State.odPut_power (s : State) (k v : Nat) : (s.odPut k v).power = s.power := rfl
@[simp] theorem State.odPut_start (s : State) (k v : Nat) : (s.odPut k v).start = s.start := rfl
@[simp] theorem State.odPut_test (s : State) (k v : Nat) : (s.odPut k v).test = s.test := rfl

/-! ### State.count -/

@[simp] theorem State.count_pending (s : State) (k n : Nat) : (s.count k n).pending = s.pending := rfl
@[simp] theorem State.count_epoch (s : State) (k n : Nat) : (s.count k n).epoch = s.epoch := rfl
@[simp] theorem State.count_mode (s : State) (k n : Nat) : (s.count k n).mode = s.mode := rfl
@[simp] theorem State.count_trans (s : State) (k n : Nat) : (s.count k n).trans = s.trans := rfl
@[simp] theorem State.count_free (s : State) (k n : Nat) : (s.count k n).free = s.free := rfl
@[simp] theorem State.count_out (s : State) (k n : Nat) : (s.count k n).out = s.out := rfl
@[simp] theorem State.count_eop (s : State) (k n : Nat) : (s.count k n).eop = s.eop := rfl
@[simp] theorem State.count_log (s : State) (k n : Nat) : (s.count k n).log = s.log := rfl
@[simp] theorem State.count_newel (s : State) (k n : Nat) : (s.count k n).newel = s.newel := rfl
@[simp] theorem State.count_cxl (s : State) (k n : Nat) : (s.count k n).cxl = s.cxl := rfl
@[simp] theorem State.count_halls (s : State) (k n : Nat) : (s.count k n).halls = s.halls := rfl
@[simp] theorem State.count_mem (s : State) (k n : Nat) : (s.count k n).mem = s.mem := rfl
@[simp] theorem State.count_xlate (s : State) (k n : Nat) : (s.count k n).xlate = s.xlate := rfl
@[simp] theorem State.count_serve (s : State) (k n : Nat) : (s.count k n).serve = s.serve := rfl
@[simp] theorem State.count_arcade (s : State) (k n : Nat) : (s.count k n).arcade = s.arcade := rfl
@[simp] theorem State.count_foyer (s : State) (k n : Nat) : (s.count k n).foyer = s.foyer := rfl
@[simp] theorem State.count_power (s : State) (k n : Nat) : (s.count k n).power = s.power := rfl
@[simp] theorem State.count_start (s : State) (k n : Nat) : (s.count k n).start = s.start := rfl
@[simp] theorem State.count_test (s : State) (k n : Nat) : (s.count k n).test = s.test := rfl

/-! ### State.domPut -/

@[simp] theorem State.domPut_pending (s : State) (k : Nat) (v : Bytes) : (s.domPut k v).pending = s.pending := rfl
@[simp] theorem State.domPut_epoch (s : State) (k : Nat) (v : Bytes) : (s.domPut k v).epoch = s.epoch := rfl
@[simp] theorem State.domPut_mode (s : State) (k : Nat) (v : Bytes) : (s.domPut k v).mode = s.mode := rfl
@[simp] theorem State.domPut_trans (s : State) (k : Nat) (v : Bytes) : (s.domPut k v).trans = s.trans := rfl
@[simp] theorem State.domPut_free (s : State) (k : Nat) (v : Bytes) : (s.domPut k v).free = s.free := rfl
@[simp] theorem State.domPut_out (s : State) (k : Nat) (v : Bytes) : (s.domPut k v).out = s.out := rfl
@[simp] theorem State.domPut_eop (s : State) (k : Nat) (v : Bytes) : (s.domPut k v).eop = s.eop := rfl
@[simp] theorem State.domPut_log (s : State) (k : Nat) (v : Bytes) : (s.domPut k v).log = s.log := rfl
@[simp] theorem State.domPut_newel (s : State) (k : Nat) (v : Bytes) : (s.domPut k v).newel = s.newel := rfl
@[simp] theorem State.domPut_cxl (s : State) (k : Nat) (v : Bytes) : (s.domPut k v).cxl = s.cxl := rfl
@[simp] theorem State.domPut_halls (s : State) (k : Nat) (v : Bytes) : (s.domPut k v).halls = s.halls := rfl
@[simp] theorem State.domPut_mem (s : State) (k : Nat) (v : Bytes) : (s.domPut k v).mem = s.mem := rfl
@[simp] theorem State.domPut_xlate (s : State) (k : Nat) (v : Bytes) : (s.domPut k v).xlate = s.xlate := rfl
@[simp] theorem State.domPut_serve (s : State) (k : Nat) (v : Bytes) : (s.domPut k v).serve = s.serve := rfl
@[simp] theorem State.domPut_arcade (s : State) (k : Nat) (v : Bytes) : (s.domPut k v).arcade = s.arcade := rfl
@[simp] theorem State.domPut_foyer (s : State) (k : Nat) (v : Bytes) : (s.domPut k v).foyer = s.foyer := rfl
@[simp] theorem State.domPut_power (s : State) (k : Nat) (v : Bytes) : (s.domPut k v).power = s.power := rfl
@[simp] theorem State.domPut_start (s : State) (k : Nat) (v : Bytes) : (s.domPut k v).start = s.start := rfl
@[simp] theorem State.domPut_test (s : State) (k : Nat) (v : Bytes) : (s.domPut k v).test = s.test := rfl

/-! ### State.rolePut -/

@[simp] theorem State.rolePut_pending (s : State) (r : Role) (k v : Nat) : (s.rolePut r k v).pending = s.pending := rfl
@[simp] theorem State.rolePut_epoch (s : State) (r : Role) (k v : Nat) : (s.rolePut r k v).epoch = s.epoch := rfl
@[simp] theorem State.rolePut_mode (s : State) (r : Role) (k v : Nat) : (s.rolePut r k v).mode = s.mode := rfl
@[simp] theorem State.rolePut_trans (s : State) (r : Role) (k v : Nat) : (s.rolePut r k v).trans = s.trans := rfl
@[simp] theorem State.rolePut_free (s : State) (r : Role) (k v : Nat) : (s.rolePut r k v).free = s.free := rfl
@[simp] theorem State.rolePut_out (s : State) (r : Role) (k v : Nat) : (s.rolePut r k v).out = s.out := rfl
@[simp] theorem State.rolePut_eop (s : State) (r : Role) (k v : Nat) : (s.rolePut r k v).eop = s.eop := rfl
@[simp] theorem State.rolePut_log (s : State) (r : Role) (k v : Nat) : (s.rolePut r k v).log = s.log := rfl
@[simp] theorem State.rolePut_newel (s : State) (r : Role) (k v : Nat) : (s.rolePut r k v).newel = s.newel := rfl
@[simp] theorem State.rolePut_cxl (s : State) (r : Role) (k v : Nat) : (s.rolePut r k v).cxl = s.cxl := rfl
@[simp] theorem State.rolePut_halls (s : State) (r : Role) (k v : Nat) : (s.rolePut r k v).halls = s.halls := rfl
@[simp] theorem State.rolePut_mem (s : State) (r : Role) (k v : Nat) : (s.rolePut r k v).mem = s.mem := rfl
@[simp] theorem State.rolePut_xlate (s : State) (r : Role) (k v : Nat) : (s.rolePut r k v).xlate = s.xlate := rfl
@[simp] theorem State.rolePut_serve (s : State) (r : Role) (k v : Nat) : (s.rolePut r k v).serve = s.serve := rfl
@[simp] theorem State.rolePut_arcade (s : State) (r : Role) (k v : Nat) : (s.rolePut r k v).arcade = s.arcade := rfl
@[simp] theorem State.rolePut_foyer (s : State) (r : Role) (k v : Nat) : (s.rolePut r k v).foyer = s.foyer := rfl
@[simp] theorem State.rolePut_power (s : State) (r : Role) (k v : Nat) : (s.rolePut r k v).power = s.power := rfl
@[simp] theorem State.rolePut_start (s : State) (r : Role) (k v : Nat) : (s.rolePut r k v).start = s.start := rfl
@[simp] theorem State.rolePut_test (s : State) (r : Role) (k v : Nat) : (s.rolePut r k v).test = s.test := rfl

/-! ### State.emit -/

@[simp] theorem State.emit_pending (s : State) (m : OutMsg) : (s.emit m).pending = s.pending := rfl
@[simp] theorem State.emit_epoch (s : State) (m : OutMsg) : (s.emit m).epoch = s.epoch := rfl
@[simp] theorem State.emit_mode (s : State) (m : OutMsg) : (s.emit m).mode = s.mode := rfl
@[simp] theorem State.emit_trans (s : State) (m : OutMsg) : (s.emit m).trans = s.trans := rfl
@[simp] theorem State.emit_free (s : State) (m : OutMsg) : (s.emit m).free = s.free := rfl
@[simp] theorem State.emit_od (s : State) (m : OutMsg) : (s.emit m).od = s.od := rfl
@[simp] theorem State.emit_eop (s : State) (m : OutMsg) : (s.emit m).eop = s.eop := rfl
@[simp] theorem State.emit_log (s : State) (m : OutMsg) : (s.emit m).log = s.log := rfl
@[simp] theorem State.emit_newel (s : State) (m : OutMsg) : (s.emit m).newel = s.newel := rfl
@[simp] theorem State.emit_cxl (s : State) (m : OutMsg) : (s.emit m).cxl = s.cxl := rfl
@[simp] theorem State.emit_halls (s : State) (m : OutMsg) : (s.emit m).halls = s.halls := rfl
@[simp] theorem State.emit_mem (s : State) (m : OutMsg) : (s.emit m).mem = s.mem := rfl
@[simp] theorem State.emit_xlate (s : State) (m : OutMsg) : (s.emit m).xlate = s.xlate := rfl
@[simp] theorem State.emit_serve (s : State) (m : OutMsg) : (s.emit m).serve = s.serve := rfl
@[simp] theorem State.emit_arcade (s : State) (m : OutMsg) : (s.emit m).arcade = s.arcade := rfl
@[simp] theorem State.emit_foyer (s : State) (m : OutMsg) : (s.emit m).foyer = s.foyer := rfl
@[simp] theorem State.emit_power (s : State) (m : OutMsg) : (s.emit m).power = s.power := rfl
@[simp] theorem State.emit_start (s : State) (m : OutMsg) : (s.emit m).start = s.start := rfl
@[simp] theorem State.emit_test (s : State) (m : OutMsg) : (s.emit m).test = s.test := rfl

/-! ### State.emits -/

@[simp] theorem State.emits_pending (s : State) (ms : List OutMsg) : (s.emits ms).pending = s.pending := rfl
@[simp] theorem State.emits_epoch (s : State) (ms : List OutMsg) : (s.emits ms).epoch = s.epoch := rfl
@[simp] theorem State.emits_mode (s : State) (ms : List OutMsg) : (s.emits ms).mode = s.mode := rfl
@[simp] theorem State.emits_trans (s : State) (ms : List OutMsg) : (s.emits ms).trans = s.trans := rfl
@[simp] theorem State.emits_free (s : State) (ms : List OutMsg) : (s.emits ms).free = s.free := rfl
@[simp] theorem State.emits_od (s : State) (ms : List OutMsg) : (s.emits ms).od = s.od := rfl
@[simp] theorem State.emits_eop (s : State) (ms : List OutMsg) : (s.emits ms).eop = s.eop := rfl
@[simp] theorem State.emits_log (s : State) (ms : List OutMsg) : (s.emits ms).log = s.log := rfl
@[simp] theorem State.emits_newel (s : State) (ms : List OutMsg) : (s.emits ms).newel = s.newel := rfl
@[simp] theorem State.emits_cxl (s : State) (ms : List OutMsg) : (s.emits ms).cxl = s.cxl := rfl
@[simp] theorem State.emits_halls (s : State) (ms : List OutMsg) : (s.emits ms).halls = s.halls := rfl
@[simp] theorem State.emits_mem (s : State) (ms : List OutMsg) : (s.emits ms).mem = s.mem := rfl
@[simp] theorem State.emits_xlate (s : State) (ms : List OutMsg) : (s.emits ms).xlate = s.xlate := rfl
@[simp] theorem State.emits_serve (s : State) (ms : List OutMsg) : (s.emits ms).serve = s.serve := rfl
@[simp] theorem State.emits_arcade (s : State) (ms : List OutMsg) : (s.emits ms).arcade = s.arcade := rfl
@[simp] theorem State.emits_foyer (s : State) (ms : List OutMsg) : (s.emits ms).foyer = s.foyer := rfl
@[simp] theorem State.emits_power (s : State) (ms : List OutMsg) : (s.emits ms).power = s.power := rfl
@[simp] theorem State.emits_start (s : State) (ms : List OutMsg) : (s.emits ms).start = s.start := rfl
@[simp] theorem State.emits_test (s : State) (ms : List OutMsg) : (s.emits ms).test = s.test := rfl

/-! ### State.tick -/

@[simp] theorem State.tick_pending (s : State) : (s.tick).pending = s.pending := rfl
@[simp] theorem State.tick_epoch (s : State) : (s.tick).epoch = s.epoch := rfl
@[simp] theorem State.tick_mode (s : State) : (s.tick).mode = s.mode := rfl
@[simp] theorem State.tick_trans (s : State) : (s.tick).trans = s.trans := rfl
@[simp] theorem State.tick_out (s : State) : (s.tick).out = s.out := rfl
@[simp] theorem State.tick_od (s : State) : (s.tick).od = s.od := rfl
@[simp] theorem State.tick_eop (s : State) : (s.tick).eop = s.eop := rfl
@[simp] theorem State.tick_log (s : State) : (s.tick).log = s.log := rfl
@[simp] theorem State.tick_newel (s : State) : (s.tick).newel = s.newel := rfl
@[simp] theorem State.tick_cxl (s : State) : (s.tick).cxl = s.cxl := rfl
@[simp] theorem State.tick_halls (s : State) : (s.tick).halls = s.halls := rfl
@[simp] theorem State.tick_mem (s : State) : (s.tick).mem = s.mem := rfl
@[simp] theorem State.tick_xlate (s : State) : (s.tick).xlate = s.xlate := rfl
@[simp] theorem State.tick_serve (s : State) : (s.tick).serve = s.serve := rfl
@[simp] theorem State.tick_arcade (s : State) : (s.tick).arcade = s.arcade := rfl
@[simp] theorem State.tick_foyer (s : State) : (s.tick).foyer = s.foyer := rfl
@[simp] theorem State.tick_power (s : State) : (s.tick).power = s.power := rfl
@[simp] theorem State.tick_start (s : State) : (s.tick).start = s.start := rfl
@[simp] theorem State.tick_test (s : State) : (s.tick).test = s.test := rfl

/-! ### State.setFlight -/

@[simp] theorem State.setFlight_pending (s : State) (k : Nat) (x : FlightSt) : (s.setFlight k x).pending = s.pending := rfl
@[simp] theorem State.setFlight_epoch (s : State) (k : Nat) (x : FlightSt) : (s.setFlight k x).epoch = s.epoch := rfl
@[simp] theorem State.setFlight_mode (s : State) (k : Nat) (x : FlightSt) : (s.setFlight k x).mode = s.mode := rfl
@[simp] theorem State.setFlight_trans (s : State) (k : Nat) (x : FlightSt) : (s.setFlight k x).trans = s.trans := rfl
@[simp] theorem State.setFlight_free (s : State) (k : Nat) (x : FlightSt) : (s.setFlight k x).free = s.free := rfl
@[simp] theorem State.setFlight_out (s : State) (k : Nat) (x : FlightSt) : (s.setFlight k x).out = s.out := rfl
@[simp] theorem State.setFlight_od (s : State) (k : Nat) (x : FlightSt) : (s.setFlight k x).od = s.od := rfl
@[simp] theorem State.setFlight_eop (s : State) (k : Nat) (x : FlightSt) : (s.setFlight k x).eop = s.eop := rfl
@[simp] theorem State.setFlight_log (s : State) (k : Nat) (x : FlightSt) : (s.setFlight k x).log = s.log := rfl
@[simp] theorem State.setFlight_newel (s : State) (k : Nat) (x : FlightSt) : (s.setFlight k x).newel = s.newel := rfl
@[simp] theorem State.setFlight_cxl (s : State) (k : Nat) (x : FlightSt) : (s.setFlight k x).cxl = s.cxl := rfl
@[simp] theorem State.setFlight_mem (s : State) (k : Nat) (x : FlightSt) : (s.setFlight k x).mem = s.mem := rfl
@[simp] theorem State.setFlight_xlate (s : State) (k : Nat) (x : FlightSt) : (s.setFlight k x).xlate = s.xlate := rfl
@[simp] theorem State.setFlight_serve (s : State) (k : Nat) (x : FlightSt) : (s.setFlight k x).serve = s.serve := rfl
@[simp] theorem State.setFlight_arcade (s : State) (k : Nat) (x : FlightSt) : (s.setFlight k x).arcade = s.arcade := rfl
@[simp] theorem State.setFlight_foyer (s : State) (k : Nat) (x : FlightSt) : (s.setFlight k x).foyer = s.foyer := rfl
@[simp] theorem State.setFlight_power (s : State) (k : Nat) (x : FlightSt) : (s.setFlight k x).power = s.power := rfl
@[simp] theorem State.setFlight_start (s : State) (k : Nat) (x : FlightSt) : (s.setFlight k x).start = s.start := rfl
@[simp] theorem State.setFlight_test (s : State) (k : Nat) (x : FlightSt) : (s.setFlight k x).test = s.test := rfl

/-! ### State.setTile -/

@[simp] theorem State.setTile_pending (s : State) (k i : Nat) (t : Tile) : (s.setTile k i t).pending = s.pending := rfl
@[simp] theorem State.setTile_epoch (s : State) (k i : Nat) (t : Tile) : (s.setTile k i t).epoch = s.epoch := rfl
@[simp] theorem State.setTile_mode (s : State) (k i : Nat) (t : Tile) : (s.setTile k i t).mode = s.mode := rfl
@[simp] theorem State.setTile_trans (s : State) (k i : Nat) (t : Tile) : (s.setTile k i t).trans = s.trans := rfl
@[simp] theorem State.setTile_free (s : State) (k i : Nat) (t : Tile) : (s.setTile k i t).free = s.free := rfl
@[simp] theorem State.setTile_out (s : State) (k i : Nat) (t : Tile) : (s.setTile k i t).out = s.out := rfl
@[simp] theorem State.setTile_od (s : State) (k i : Nat) (t : Tile) : (s.setTile k i t).od = s.od := rfl
@[simp] theorem State.setTile_eop (s : State) (k i : Nat) (t : Tile) : (s.setTile k i t).eop = s.eop := rfl
@[simp] theorem State.setTile_log (s : State) (k i : Nat) (t : Tile) : (s.setTile k i t).log = s.log := rfl
@[simp] theorem State.setTile_newel (s : State) (k i : Nat) (t : Tile) : (s.setTile k i t).newel = s.newel := rfl
@[simp] theorem State.setTile_cxl (s : State) (k i : Nat) (t : Tile) : (s.setTile k i t).cxl = s.cxl := rfl
@[simp] theorem State.setTile_mem (s : State) (k i : Nat) (t : Tile) : (s.setTile k i t).mem = s.mem := rfl
@[simp] theorem State.setTile_xlate (s : State) (k i : Nat) (t : Tile) : (s.setTile k i t).xlate = s.xlate := rfl
@[simp] theorem State.setTile_serve (s : State) (k i : Nat) (t : Tile) : (s.setTile k i t).serve = s.serve := rfl
@[simp] theorem State.setTile_arcade (s : State) (k i : Nat) (t : Tile) : (s.setTile k i t).arcade = s.arcade := rfl
@[simp] theorem State.setTile_foyer (s : State) (k i : Nat) (t : Tile) : (s.setTile k i t).foyer = s.foyer := rfl
@[simp] theorem State.setTile_power (s : State) (k i : Nat) (t : Tile) : (s.setTile k i t).power = s.power := rfl
@[simp] theorem State.setTile_start (s : State) (k i : Nat) (t : Tile) : (s.setTile k i t).start = s.start := rfl
@[simp] theorem State.setTile_test (s : State) (k i : Nat) (t : Tile) : (s.setTile k i t).test = s.test := rfl

/-! ### State.setLanding -/

@[simp] theorem State.setLanding_pending (s : State) (l : Nat) (x : Landing) : (s.setLanding l x).pending = s.pending := rfl
@[simp] theorem State.setLanding_epoch (s : State) (l : Nat) (x : Landing) : (s.setLanding l x).epoch = s.epoch := rfl
@[simp] theorem State.setLanding_mode (s : State) (l : Nat) (x : Landing) : (s.setLanding l x).mode = s.mode := rfl
@[simp] theorem State.setLanding_trans (s : State) (l : Nat) (x : Landing) : (s.setLanding l x).trans = s.trans := rfl
@[simp] theorem State.setLanding_free (s : State) (l : Nat) (x : Landing) : (s.setLanding l x).free = s.free := rfl
@[simp] theorem State.setLanding_out (s : State) (l : Nat) (x : Landing) : (s.setLanding l x).out = s.out := rfl
@[simp] theorem State.setLanding_od (s : State) (l : Nat) (x : Landing) : (s.setLanding l x).od = s.od := rfl
@[simp] theorem State.setLanding_eop (s : State) (l : Nat) (x : Landing) : (s.setLanding l x).eop = s.eop := rfl
@[simp] theorem State.setLanding_log (s : State) (l : Nat) (x : Landing) : (s.setLanding l x).log = s.log := rfl
@[simp] theorem State.setLanding_newel (s : State) (l : Nat) (x : Landing) : (s.setLanding l x).newel = s.newel := rfl
@[simp] theorem State.setLanding_cxl (s : State) (l : Nat) (x : Landing) : (s.setLanding l x).cxl = s.cxl := rfl
@[simp] theorem State.setLanding_mem (s : State) (l : Nat) (x : Landing) : (s.setLanding l x).mem = s.mem := rfl
@[simp] theorem State.setLanding_xlate (s : State) (l : Nat) (x : Landing) : (s.setLanding l x).xlate = s.xlate := rfl
@[simp] theorem State.setLanding_serve (s : State) (l : Nat) (x : Landing) : (s.setLanding l x).serve = s.serve := rfl
@[simp] theorem State.setLanding_arcade (s : State) (l : Nat) (x : Landing) : (s.setLanding l x).arcade = s.arcade := rfl
@[simp] theorem State.setLanding_foyer (s : State) (l : Nat) (x : Landing) : (s.setLanding l x).foyer = s.foyer := rfl
@[simp] theorem State.setLanding_power (s : State) (l : Nat) (x : Landing) : (s.setLanding l x).power = s.power := rfl
@[simp] theorem State.setLanding_start (s : State) (l : Nat) (x : Landing) : (s.setLanding l x).start = s.start := rfl
@[simp] theorem State.setLanding_test (s : State) (l : Nat) (x : Landing) : (s.setLanding l x).test = s.test := rfl

/-! ### State.setHandle -/

@[simp] theorem State.setHandle_pending (s : State) (l h e : Nat) : (s.setHandle l h e).pending = s.pending := rfl
@[simp] theorem State.setHandle_epoch (s : State) (l h e : Nat) : (s.setHandle l h e).epoch = s.epoch := rfl
@[simp] theorem State.setHandle_mode (s : State) (l h e : Nat) : (s.setHandle l h e).mode = s.mode := rfl
@[simp] theorem State.setHandle_trans (s : State) (l h e : Nat) : (s.setHandle l h e).trans = s.trans := rfl
@[simp] theorem State.setHandle_free (s : State) (l h e : Nat) : (s.setHandle l h e).free = s.free := rfl
@[simp] theorem State.setHandle_out (s : State) (l h e : Nat) : (s.setHandle l h e).out = s.out := rfl
@[simp] theorem State.setHandle_od (s : State) (l h e : Nat) : (s.setHandle l h e).od = s.od := rfl
@[simp] theorem State.setHandle_eop (s : State) (l h e : Nat) : (s.setHandle l h e).eop = s.eop := rfl
@[simp] theorem State.setHandle_log (s : State) (l h e : Nat) : (s.setHandle l h e).log = s.log := rfl
@[simp] theorem State.setHandle_newel (s : State) (l h e : Nat) : (s.setHandle l h e).newel = s.newel := rfl
@[simp] theorem State.setHandle_cxl (s : State) (l h e : Nat) : (s.setHandle l h e).cxl = s.cxl := rfl
@[simp] theorem State.setHandle_mem (s : State) (l h e : Nat) : (s.setHandle l h e).mem = s.mem := rfl
@[simp] theorem State.setHandle_xlate (s : State) (l h e : Nat) : (s.setHandle l h e).xlate = s.xlate := rfl
@[simp] theorem State.setHandle_serve (s : State) (l h e : Nat) : (s.setHandle l h e).serve = s.serve := rfl
@[simp] theorem State.setHandle_arcade (s : State) (l h e : Nat) : (s.setHandle l h e).arcade = s.arcade := rfl
@[simp] theorem State.setHandle_foyer (s : State) (l h e : Nat) : (s.setHandle l h e).foyer = s.foyer := rfl
@[simp] theorem State.setHandle_power (s : State) (l h e : Nat) : (s.setHandle l h e).power = s.power := rfl
@[simp] theorem State.setHandle_start (s : State) (l h e : Nat) : (s.setHandle l h e).start = s.start := rfl
@[simp] theorem State.setHandle_test (s : State) (l h e : Nat) : (s.setHandle l h e).test = s.test := rfl

/-! ### State.modProg -/

@[simp] theorem State.modProg_pending (s : State) (fk slot : Nat) (g : Prog → Prog) : (s.modProg fk slot g).pending = s.pending := rfl
@[simp] theorem State.modProg_epoch (s : State) (fk slot : Nat) (g : Prog → Prog) : (s.modProg fk slot g).epoch = s.epoch := rfl
@[simp] theorem State.modProg_mode (s : State) (fk slot : Nat) (g : Prog → Prog) : (s.modProg fk slot g).mode = s.mode := rfl
@[simp] theorem State.modProg_trans (s : State) (fk slot : Nat) (g : Prog → Prog) : (s.modProg fk slot g).trans = s.trans := rfl
@[simp] theorem State.modProg_free (s : State) (fk slot : Nat) (g : Prog → Prog) : (s.modProg fk slot g).free = s.free := rfl
@[simp] theorem State.modProg_out (s : State) (fk slot : Nat) (g : Prog → Prog) : (s.modProg fk slot g).out = s.out := rfl
@[simp] theorem State.modProg_od (s : State) (fk slot : Nat) (g : Prog → Prog) : (s.modProg fk slot g).od = s.od := rfl
@[simp] theorem State.modProg_eop (s : State) (fk slot : Nat) (g : Prog → Prog) : (s.modProg fk slot g).eop = s.eop := rfl
@[simp] theorem State.modProg_log (s : State) (fk slot : Nat) (g : Prog → Prog) : (s.modProg fk slot g).log = s.log := rfl
@[simp] theorem State.modProg_newel (s : State) (fk slot : Nat) (g : Prog → Prog) : (s.modProg fk slot g).newel = s.newel := rfl
@[simp] theorem State.modProg_cxl (s : State) (fk slot : Nat) (g : Prog → Prog) : (s.modProg fk slot g).cxl = s.cxl := rfl
@[simp] theorem State.modProg_mem (s : State) (fk slot : Nat) (g : Prog → Prog) : (s.modProg fk slot g).mem = s.mem := rfl
@[simp] theorem State.modProg_xlate (s : State) (fk slot : Nat) (g : Prog → Prog) : (s.modProg fk slot g).xlate = s.xlate := rfl
@[simp] theorem State.modProg_serve (s : State) (fk slot : Nat) (g : Prog → Prog) : (s.modProg fk slot g).serve = s.serve := rfl
@[simp] theorem State.modProg_arcade (s : State) (fk slot : Nat) (g : Prog → Prog) : (s.modProg fk slot g).arcade = s.arcade := rfl
@[simp] theorem State.modProg_foyer (s : State) (fk slot : Nat) (g : Prog → Prog) : (s.modProg fk slot g).foyer = s.foyer := rfl
@[simp] theorem State.modProg_power (s : State) (fk slot : Nat) (g : Prog → Prog) : (s.modProg fk slot g).power = s.power := rfl
@[simp] theorem State.modProg_start (s : State) (fk slot : Nat) (g : Prog → Prog) : (s.modProg fk slot g).start = s.start := rfl
@[simp] theorem State.modProg_test (s : State) (fk slot : Nat) (g : Prog → Prog) : (s.modProg fk slot g).test = s.test := rfl

/-! ### State.setJob -/

@[simp] theorem State.setJob_pending (s : State) (j : JobSt) : (s.setJob j).pending = s.pending := rfl
@[simp] theorem State.setJob_epoch (s : State) (j : JobSt) : (s.setJob j).epoch = s.epoch := rfl
@[simp] theorem State.setJob_mode (s : State) (j : JobSt) : (s.setJob j).mode = s.mode := rfl
@[simp] theorem State.setJob_trans (s : State) (j : JobSt) : (s.setJob j).trans = s.trans := rfl
@[simp] theorem State.setJob_free (s : State) (j : JobSt) : (s.setJob j).free = s.free := rfl
@[simp] theorem State.setJob_out (s : State) (j : JobSt) : (s.setJob j).out = s.out := rfl
@[simp] theorem State.setJob_od (s : State) (j : JobSt) : (s.setJob j).od = s.od := rfl
@[simp] theorem State.setJob_eop (s : State) (j : JobSt) : (s.setJob j).eop = s.eop := rfl
@[simp] theorem State.setJob_log (s : State) (j : JobSt) : (s.setJob j).log = s.log := rfl
@[simp] theorem State.setJob_newel (s : State) (j : JobSt) : (s.setJob j).newel = s.newel := rfl
@[simp] theorem State.setJob_cxl (s : State) (j : JobSt) : (s.setJob j).cxl = s.cxl := rfl
@[simp] theorem State.setJob_halls (s : State) (j : JobSt) : (s.setJob j).halls = s.halls := rfl
@[simp] theorem State.setJob_mem (s : State) (j : JobSt) : (s.setJob j).mem = s.mem := rfl
@[simp] theorem State.setJob_xlate (s : State) (j : JobSt) : (s.setJob j).xlate = s.xlate := rfl
@[simp] theorem State.setJob_arcade (s : State) (j : JobSt) : (s.setJob j).arcade = s.arcade := rfl
@[simp] theorem State.setJob_foyer (s : State) (j : JobSt) : (s.setJob j).foyer = s.foyer := rfl
@[simp] theorem State.setJob_power (s : State) (j : JobSt) : (s.setJob j).power = s.power := rfl
@[simp] theorem State.setJob_start (s : State) (j : JobSt) : (s.setJob j).start = s.start := rfl
@[simp] theorem State.setJob_test (s : State) (j : JobSt) : (s.setJob j).test = s.test := rfl

/-! ### State.modStep -/

@[simp] theorem State.modStep_pending (s : State) (job : Nat) (g : StepSt → StepSt) : (s.modStep job g).pending = s.pending := rfl
@[simp] theorem State.modStep_epoch (s : State) (job : Nat) (g : StepSt → StepSt) : (s.modStep job g).epoch = s.epoch := rfl
@[simp] theorem State.modStep_mode (s : State) (job : Nat) (g : StepSt → StepSt) : (s.modStep job g).mode = s.mode := rfl
@[simp] theorem State.modStep_trans (s : State) (job : Nat) (g : StepSt → StepSt) : (s.modStep job g).trans = s.trans := rfl
@[simp] theorem State.modStep_free (s : State) (job : Nat) (g : StepSt → StepSt) : (s.modStep job g).free = s.free := rfl
@[simp] theorem State.modStep_out (s : State) (job : Nat) (g : StepSt → StepSt) : (s.modStep job g).out = s.out := rfl
@[simp] theorem State.modStep_od (s : State) (job : Nat) (g : StepSt → StepSt) : (s.modStep job g).od = s.od := rfl
@[simp] theorem State.modStep_eop (s : State) (job : Nat) (g : StepSt → StepSt) : (s.modStep job g).eop = s.eop := rfl
@[simp] theorem State.modStep_log (s : State) (job : Nat) (g : StepSt → StepSt) : (s.modStep job g).log = s.log := rfl
@[simp] theorem State.modStep_newel (s : State) (job : Nat) (g : StepSt → StepSt) : (s.modStep job g).newel = s.newel := rfl
@[simp] theorem State.modStep_cxl (s : State) (job : Nat) (g : StepSt → StepSt) : (s.modStep job g).cxl = s.cxl := rfl
@[simp] theorem State.modStep_halls (s : State) (job : Nat) (g : StepSt → StepSt) : (s.modStep job g).halls = s.halls := rfl
@[simp] theorem State.modStep_mem (s : State) (job : Nat) (g : StepSt → StepSt) : (s.modStep job g).mem = s.mem := rfl
@[simp] theorem State.modStep_xlate (s : State) (job : Nat) (g : StepSt → StepSt) : (s.modStep job g).xlate = s.xlate := rfl
@[simp] theorem State.modStep_arcade (s : State) (job : Nat) (g : StepSt → StepSt) : (s.modStep job g).arcade = s.arcade := rfl
@[simp] theorem State.modStep_foyer (s : State) (job : Nat) (g : StepSt → StepSt) : (s.modStep job g).foyer = s.foyer := rfl
@[simp] theorem State.modStep_power (s : State) (job : Nat) (g : StepSt → StepSt) : (s.modStep job g).power = s.power := rfl
@[simp] theorem State.modStep_start (s : State) (job : Nat) (g : StepSt → StepSt) : (s.modStep job g).start = s.start := rfl
@[simp] theorem State.modStep_test (s : State) (job : Nat) (g : StepSt → StepSt) : (s.modStep job g).test = s.test := rfl

/-! ### State.dropStep -/

@[simp] theorem State.dropStep_pending (s : State) (job : Nat) : (s.dropStep job).pending = s.pending := rfl
@[simp] theorem State.dropStep_epoch (s : State) (job : Nat) : (s.dropStep job).epoch = s.epoch := rfl
@[simp] theorem State.dropStep_mode (s : State) (job : Nat) : (s.dropStep job).mode = s.mode := rfl
@[simp] theorem State.dropStep_trans (s : State) (job : Nat) : (s.dropStep job).trans = s.trans := rfl
@[simp] theorem State.dropStep_free (s : State) (job : Nat) : (s.dropStep job).free = s.free := rfl
@[simp] theorem State.dropStep_out (s : State) (job : Nat) : (s.dropStep job).out = s.out := rfl
@[simp] theorem State.dropStep_od (s : State) (job : Nat) : (s.dropStep job).od = s.od := rfl
@[simp] theorem State.dropStep_eop (s : State) (job : Nat) : (s.dropStep job).eop = s.eop := rfl
@[simp] theorem State.dropStep_log (s : State) (job : Nat) : (s.dropStep job).log = s.log := rfl
@[simp] theorem State.dropStep_newel (s : State) (job : Nat) : (s.dropStep job).newel = s.newel := rfl
@[simp] theorem State.dropStep_cxl (s : State) (job : Nat) : (s.dropStep job).cxl = s.cxl := rfl
@[simp] theorem State.dropStep_halls (s : State) (job : Nat) : (s.dropStep job).halls = s.halls := rfl
@[simp] theorem State.dropStep_mem (s : State) (job : Nat) : (s.dropStep job).mem = s.mem := rfl
@[simp] theorem State.dropStep_xlate (s : State) (job : Nat) : (s.dropStep job).xlate = s.xlate := rfl
@[simp] theorem State.dropStep_arcade (s : State) (job : Nat) : (s.dropStep job).arcade = s.arcade := rfl
@[simp] theorem State.dropStep_foyer (s : State) (job : Nat) : (s.dropStep job).foyer = s.foyer := rfl
@[simp] theorem State.dropStep_power (s : State) (job : Nat) : (s.dropStep job).power = s.power := rfl
@[simp] theorem State.dropStep_start (s : State) (job : Nat) : (s.dropStep job).start = s.start := rfl
@[simp] theorem State.dropStep_test (s : State) (job : Nat) : (s.dropStep job).test = s.test := rfl

/-! ### State.setStream -/

@[simp] theorem State.setStream_pending (s : State) (i : Nat) (r : StreamRec) : (s.setStream i r).pending = s.pending := rfl
@[simp] theorem State.setStream_epoch (s : State) (i : Nat) (r : StreamRec) : (s.setStream i r).epoch = s.epoch := rfl
@[simp] theorem State.setStream_mode (s : State) (i : Nat) (r : StreamRec) : (s.setStream i r).mode = s.mode := rfl
@[simp] theorem State.setStream_trans (s : State) (i : Nat) (r : StreamRec) : (s.setStream i r).trans = s.trans := rfl
@[simp] theorem State.setStream_free (s : State) (i : Nat) (r : StreamRec) : (s.setStream i r).free = s.free := rfl
@[simp] theorem State.setStream_out (s : State) (i : Nat) (r : StreamRec) : (s.setStream i r).out = s.out := rfl
@[simp] theorem State.setStream_od (s : State) (i : Nat) (r : StreamRec) : (s.setStream i r).od = s.od := rfl
@[simp] theorem State.setStream_eop (s : State) (i : Nat) (r : StreamRec) : (s.setStream i r).eop = s.eop := rfl
@[simp] theorem State.setStream_log (s : State) (i : Nat) (r : StreamRec) : (s.setStream i r).log = s.log := rfl
@[simp] theorem State.setStream_newel (s : State) (i : Nat) (r : StreamRec) : (s.setStream i r).newel = s.newel := rfl
@[simp] theorem State.setStream_cxl (s : State) (i : Nat) (r : StreamRec) : (s.setStream i r).cxl = s.cxl := rfl
@[simp] theorem State.setStream_halls (s : State) (i : Nat) (r : StreamRec) : (s.setStream i r).halls = s.halls := rfl
@[simp] theorem State.setStream_mem (s : State) (i : Nat) (r : StreamRec) : (s.setStream i r).mem = s.mem := rfl
@[simp] theorem State.setStream_xlate (s : State) (i : Nat) (r : StreamRec) : (s.setStream i r).xlate = s.xlate := rfl
@[simp] theorem State.setStream_arcade (s : State) (i : Nat) (r : StreamRec) : (s.setStream i r).arcade = s.arcade := rfl
@[simp] theorem State.setStream_foyer (s : State) (i : Nat) (r : StreamRec) : (s.setStream i r).foyer = s.foyer := rfl
@[simp] theorem State.setStream_power (s : State) (i : Nat) (r : StreamRec) : (s.setStream i r).power = s.power := rfl
@[simp] theorem State.setStream_start (s : State) (i : Nat) (r : StreamRec) : (s.setStream i r).start = s.start := rfl
@[simp] theorem State.setStream_test (s : State) (i : Nat) (r : StreamRec) : (s.setStream i r).test = s.test := rfl

/-! ### State.modStream -/

@[simp] theorem State.modStream_pending (s : State) (i : Nat) (g : StreamRec → StreamRec) : (s.modStream i g).pending = s.pending := rfl
@[simp] theorem State.modStream_epoch (s : State) (i : Nat) (g : StreamRec → StreamRec) : (s.modStream i g).epoch = s.epoch := rfl
@[simp] theorem State.modStream_mode (s : State) (i : Nat) (g : StreamRec → StreamRec) : (s.modStream i g).mode = s.mode := rfl
@[simp] theorem State.modStream_trans (s : State) (i : Nat) (g : StreamRec → StreamRec) : (s.modStream i g).trans = s.trans := rfl
@[simp] theorem State.modStream_free (s : State) (i : Nat) (g : StreamRec → StreamRec) : (s.modStream i g).free = s.free := rfl
@[simp] theorem State.modStream_out (s : State) (i : Nat) (g : StreamRec → StreamRec) : (s.modStream i g).out = s.out := rfl
@[simp] theorem State.modStream_od (s : State) (i : Nat) (g : StreamRec → StreamRec) : (s.modStream i g).od = s.od := rfl
@[simp] theorem State.modStream_eop (s : State) (i : Nat) (g : StreamRec → StreamRec) : (s.modStream i g).eop = s.eop := rfl
@[simp] theorem State.modStream_log (s : State) (i : Nat) (g : StreamRec → StreamRec) : (s.modStream i g).log = s.log := rfl
@[simp] theorem State.modStream_newel (s : State) (i : Nat) (g : StreamRec → StreamRec) : (s.modStream i g).newel = s.newel := rfl
@[simp] theorem State.modStream_cxl (s : State) (i : Nat) (g : StreamRec → StreamRec) : (s.modStream i g).cxl = s.cxl := rfl
@[simp] theorem State.modStream_halls (s : State) (i : Nat) (g : StreamRec → StreamRec) : (s.modStream i g).halls = s.halls := rfl
@[simp] theorem State.modStream_mem (s : State) (i : Nat) (g : StreamRec → StreamRec) : (s.modStream i g).mem = s.mem := rfl
@[simp] theorem State.modStream_xlate (s : State) (i : Nat) (g : StreamRec → StreamRec) : (s.modStream i g).xlate = s.xlate := rfl
@[simp] theorem State.modStream_arcade (s : State) (i : Nat) (g : StreamRec → StreamRec) : (s.modStream i g).arcade = s.arcade := rfl
@[simp] theorem State.modStream_foyer (s : State) (i : Nat) (g : StreamRec → StreamRec) : (s.modStream i g).foyer = s.foyer := rfl
@[simp] theorem State.modStream_power (s : State) (i : Nat) (g : StreamRec → StreamRec) : (s.modStream i g).power = s.power := rfl
@[simp] theorem State.modStream_start (s : State) (i : Nat) (g : StreamRec → StreamRec) : (s.modStream i g).start = s.start := rfl
@[simp] theorem State.modStream_test (s : State) (i : Nat) (g : StreamRec → StreamRec) : (s.modStream i g).test = s.test := rfl

/-! ### State.putSw -/

@[simp] theorem State.putSw_pending (s : State) (i k v : Nat) : (s.putSw i k v).pending = s.pending := rfl
@[simp] theorem State.putSw_epoch (s : State) (i k v : Nat) : (s.putSw i k v).epoch = s.epoch := rfl
@[simp] theorem State.putSw_mode (s : State) (i k v : Nat) : (s.putSw i k v).mode = s.mode := rfl
@[simp] theorem State.putSw_trans (s : State) (i k v : Nat) : (s.putSw i k v).trans = s.trans := rfl
@[simp] theorem State.putSw_free (s : State) (i k v : Nat) : (s.putSw i k v).free = s.free := rfl
@[simp] theorem State.putSw_out (s : State) (i k v : Nat) : (s.putSw i k v).out = s.out := rfl
@[simp] theorem State.putSw_od (s : State) (i k v : Nat) : (s.putSw i k v).od = s.od := rfl
@[simp] theorem State.putSw_eop (s : State) (i k v : Nat) : (s.putSw i k v).eop = s.eop := rfl
@[simp] theorem State.putSw_log (s : State) (i k v : Nat) : (s.putSw i k v).log = s.log := rfl
@[simp] theorem State.putSw_newel (s : State) (i k v : Nat) : (s.putSw i k v).newel = s.newel := rfl
@[simp] theorem State.putSw_cxl (s : State) (i k v : Nat) : (s.putSw i k v).cxl = s.cxl := rfl
@[simp] theorem State.putSw_halls (s : State) (i k v : Nat) : (s.putSw i k v).halls = s.halls := rfl
@[simp] theorem State.putSw_mem (s : State) (i k v : Nat) : (s.putSw i k v).mem = s.mem := rfl
@[simp] theorem State.putSw_xlate (s : State) (i k v : Nat) : (s.putSw i k v).xlate = s.xlate := rfl
@[simp] theorem State.putSw_arcade (s : State) (i k v : Nat) : (s.putSw i k v).arcade = s.arcade := rfl
@[simp] theorem State.putSw_foyer (s : State) (i k v : Nat) : (s.putSw i k v).foyer = s.foyer := rfl
@[simp] theorem State.putSw_power (s : State) (i k v : Nat) : (s.putSw i k v).power = s.power := rfl
@[simp] theorem State.putSw_start (s : State) (i k v : Nat) : (s.putSw i k v).start = s.start := rfl
@[simp] theorem State.putSw_test (s : State) (i k v : Nat) : (s.putSw i k v).test = s.test := rfl

/-! ### State.setArch -/

@[simp] theorem State.setArch_pending (s : State) (n : Nat) (a : ArchSt) : (s.setArch n a).pending = s.pending := rfl
@[simp] theorem State.setArch_epoch (s : State) (n : Nat) (a : ArchSt) : (s.setArch n a).epoch = s.epoch := rfl
@[simp] theorem State.setArch_mode (s : State) (n : Nat) (a : ArchSt) : (s.setArch n a).mode = s.mode := rfl
@[simp] theorem State.setArch_trans (s : State) (n : Nat) (a : ArchSt) : (s.setArch n a).trans = s.trans := rfl
@[simp] theorem State.setArch_free (s : State) (n : Nat) (a : ArchSt) : (s.setArch n a).free = s.free := rfl
@[simp] theorem State.setArch_out (s : State) (n : Nat) (a : ArchSt) : (s.setArch n a).out = s.out := rfl
@[simp] theorem State.setArch_od (s : State) (n : Nat) (a : ArchSt) : (s.setArch n a).od = s.od := rfl
@[simp] theorem State.setArch_eop (s : State) (n : Nat) (a : ArchSt) : (s.setArch n a).eop = s.eop := rfl
@[simp] theorem State.setArch_log (s : State) (n : Nat) (a : ArchSt) : (s.setArch n a).log = s.log := rfl
@[simp] theorem State.setArch_newel (s : State) (n : Nat) (a : ArchSt) : (s.setArch n a).newel = s.newel := rfl
@[simp] theorem State.setArch_cxl (s : State) (n : Nat) (a : ArchSt) : (s.setArch n a).cxl = s.cxl := rfl
@[simp] theorem State.setArch_halls (s : State) (n : Nat) (a : ArchSt) : (s.setArch n a).halls = s.halls := rfl
@[simp] theorem State.setArch_mem (s : State) (n : Nat) (a : ArchSt) : (s.setArch n a).mem = s.mem := rfl
@[simp] theorem State.setArch_xlate (s : State) (n : Nat) (a : ArchSt) : (s.setArch n a).xlate = s.xlate := rfl
@[simp] theorem State.setArch_serve (s : State) (n : Nat) (a : ArchSt) : (s.setArch n a).serve = s.serve := rfl
@[simp] theorem State.setArch_foyer (s : State) (n : Nat) (a : ArchSt) : (s.setArch n a).foyer = s.foyer := rfl
@[simp] theorem State.setArch_power (s : State) (n : Nat) (a : ArchSt) : (s.setArch n a).power = s.power := rfl
@[simp] theorem State.setArch_start (s : State) (n : Nat) (a : ArchSt) : (s.setArch n a).start = s.start := rfl
@[simp] theorem State.setArch_test (s : State) (n : Nat) (a : ArchSt) : (s.setArch n a).test = s.test := rfl

/-! ### State.modEpisode -/

@[simp] theorem State.modEpisode_pending (s : State) (n : Nat) (g : Episode → Episode) : (s.modEpisode n g).pending = s.pending := rfl
@[simp] theorem State.modEpisode_epoch (s : State) (n : Nat) (g : Episode → Episode) : (s.modEpisode n g).epoch = s.epoch := rfl
@[simp] theorem State.modEpisode_mode (s : State) (n : Nat) (g : Episode → Episode) : (s.modEpisode n g).mode = s.mode := rfl
@[simp] theorem State.modEpisode_trans (s : State) (n : Nat) (g : Episode → Episode) : (s.modEpisode n g).trans = s.trans := rfl
@[simp] theorem State.modEpisode_free (s : State) (n : Nat) (g : Episode → Episode) : (s.modEpisode n g).free = s.free := rfl
@[simp] theorem State.modEpisode_out (s : State) (n : Nat) (g : Episode → Episode) : (s.modEpisode n g).out = s.out := rfl
@[simp] theorem State.modEpisode_od (s : State) (n : Nat) (g : Episode → Episode) : (s.modEpisode n g).od = s.od := rfl
@[simp] theorem State.modEpisode_eop (s : State) (n : Nat) (g : Episode → Episode) : (s.modEpisode n g).eop = s.eop := rfl
@[simp] theorem State.modEpisode_log (s : State) (n : Nat) (g : Episode → Episode) : (s.modEpisode n g).log = s.log := rfl
@[simp] theorem State.modEpisode_cxl (s : State) (n : Nat) (g : Episode → Episode) : (s.modEpisode n g).cxl = s.cxl := rfl
@[simp] theorem State.modEpisode_halls (s : State) (n : Nat) (g : Episode → Episode) : (s.modEpisode n g).halls = s.halls := rfl
@[simp] theorem State.modEpisode_mem (s : State) (n : Nat) (g : Episode → Episode) : (s.modEpisode n g).mem = s.mem := rfl
@[simp] theorem State.modEpisode_xlate (s : State) (n : Nat) (g : Episode → Episode) : (s.modEpisode n g).xlate = s.xlate := rfl
@[simp] theorem State.modEpisode_serve (s : State) (n : Nat) (g : Episode → Episode) : (s.modEpisode n g).serve = s.serve := rfl
@[simp] theorem State.modEpisode_arcade (s : State) (n : Nat) (g : Episode → Episode) : (s.modEpisode n g).arcade = s.arcade := rfl
@[simp] theorem State.modEpisode_foyer (s : State) (n : Nat) (g : Episode → Episode) : (s.modEpisode n g).foyer = s.foyer := rfl
@[simp] theorem State.modEpisode_power (s : State) (n : Nat) (g : Episode → Episode) : (s.modEpisode n g).power = s.power := rfl
@[simp] theorem State.modEpisode_start (s : State) (n : Nat) (g : Episode → Episode) : (s.modEpisode n g).start = s.start := rfl
@[simp] theorem State.modEpisode_test (s : State) (n : Nat) (g : Episode → Episode) : (s.modEpisode n g).test = s.test := rfl

/-! ### State.closeEpisode -/

@[simp] theorem State.closeEpisode_pending (s : State) (n : Nat) : (s.closeEpisode n).pending = s.pending := rfl
@[simp] theorem State.closeEpisode_epoch (s : State) (n : Nat) : (s.closeEpisode n).epoch = s.epoch := rfl
@[simp] theorem State.closeEpisode_mode (s : State) (n : Nat) : (s.closeEpisode n).mode = s.mode := rfl
@[simp] theorem State.closeEpisode_trans (s : State) (n : Nat) : (s.closeEpisode n).trans = s.trans := rfl
@[simp] theorem State.closeEpisode_free (s : State) (n : Nat) : (s.closeEpisode n).free = s.free := rfl
@[simp] theorem State.closeEpisode_out (s : State) (n : Nat) : (s.closeEpisode n).out = s.out := rfl
@[simp] theorem State.closeEpisode_od (s : State) (n : Nat) : (s.closeEpisode n).od = s.od := rfl
@[simp] theorem State.closeEpisode_eop (s : State) (n : Nat) : (s.closeEpisode n).eop = s.eop := rfl
@[simp] theorem State.closeEpisode_log (s : State) (n : Nat) : (s.closeEpisode n).log = s.log := rfl
@[simp] theorem State.closeEpisode_cxl (s : State) (n : Nat) : (s.closeEpisode n).cxl = s.cxl := rfl
@[simp] theorem State.closeEpisode_halls (s : State) (n : Nat) : (s.closeEpisode n).halls = s.halls := rfl
@[simp] theorem State.closeEpisode_mem (s : State) (n : Nat) : (s.closeEpisode n).mem = s.mem := rfl
@[simp] theorem State.closeEpisode_xlate (s : State) (n : Nat) : (s.closeEpisode n).xlate = s.xlate := rfl
@[simp] theorem State.closeEpisode_serve (s : State) (n : Nat) : (s.closeEpisode n).serve = s.serve := rfl
@[simp] theorem State.closeEpisode_arcade (s : State) (n : Nat) : (s.closeEpisode n).arcade = s.arcade := rfl
@[simp] theorem State.closeEpisode_foyer (s : State) (n : Nat) : (s.closeEpisode n).foyer = s.foyer := rfl
@[simp] theorem State.closeEpisode_power (s : State) (n : Nat) : (s.closeEpisode n).power = s.power := rfl
@[simp] theorem State.closeEpisode_start (s : State) (n : Nat) : (s.closeEpisode n).start = s.start := rfl
@[simp] theorem State.closeEpisode_test (s : State) (n : Nat) : (s.closeEpisode n).test = s.test := rfl

/-! ### State.closeSettled -/

@[simp] theorem State.closeSettled_pending (s : State) : (s.closeSettled).pending = s.pending := rfl
@[simp] theorem State.closeSettled_epoch (s : State) : (s.closeSettled).epoch = s.epoch := rfl
@[simp] theorem State.closeSettled_mode (s : State) : (s.closeSettled).mode = s.mode := rfl
@[simp] theorem State.closeSettled_trans (s : State) : (s.closeSettled).trans = s.trans := rfl
@[simp] theorem State.closeSettled_free (s : State) : (s.closeSettled).free = s.free := rfl
@[simp] theorem State.closeSettled_out (s : State) : (s.closeSettled).out = s.out := rfl
@[simp] theorem State.closeSettled_od (s : State) : (s.closeSettled).od = s.od := rfl
@[simp] theorem State.closeSettled_eop (s : State) : (s.closeSettled).eop = s.eop := rfl
@[simp] theorem State.closeSettled_log (s : State) : (s.closeSettled).log = s.log := rfl
@[simp] theorem State.closeSettled_cxl (s : State) : (s.closeSettled).cxl = s.cxl := rfl
@[simp] theorem State.closeSettled_halls (s : State) : (s.closeSettled).halls = s.halls := rfl
@[simp] theorem State.closeSettled_mem (s : State) : (s.closeSettled).mem = s.mem := rfl
@[simp] theorem State.closeSettled_xlate (s : State) : (s.closeSettled).xlate = s.xlate := rfl
@[simp] theorem State.closeSettled_serve (s : State) : (s.closeSettled).serve = s.serve := rfl
@[simp] theorem State.closeSettled_arcade (s : State) : (s.closeSettled).arcade = s.arcade := rfl
@[simp] theorem State.closeSettled_foyer (s : State) : (s.closeSettled).foyer = s.foyer := rfl
@[simp] theorem State.closeSettled_power (s : State) : (s.closeSettled).power = s.power := rfl
@[simp] theorem State.closeSettled_start (s : State) : (s.closeSettled).start = s.start := rfl
@[simp] theorem State.closeSettled_test (s : State) : (s.closeSettled).test = s.test := rfl

/-! ### State.modCell -/

@[simp] theorem State.modCell_pending (s : State) (e : Nat) (g : CellSt → CellSt) : (s.modCell e g).pending = s.pending := rfl
@[simp] theorem State.modCell_epoch (s : State) (e : Nat) (g : CellSt → CellSt) : (s.modCell e g).epoch = s.epoch := rfl
@[simp] theorem State.modCell_mode (s : State) (e : Nat) (g : CellSt → CellSt) : (s.modCell e g).mode = s.mode := rfl
@[simp] theorem State.modCell_trans (s : State) (e : Nat) (g : CellSt → CellSt) : (s.modCell e g).trans = s.trans := rfl
@[simp] theorem State.modCell_free (s : State) (e : Nat) (g : CellSt → CellSt) : (s.modCell e g).free = s.free := rfl
@[simp] theorem State.modCell_out (s : State) (e : Nat) (g : CellSt → CellSt) : (s.modCell e g).out = s.out := rfl
@[simp] theorem State.modCell_od (s : State) (e : Nat) (g : CellSt → CellSt) : (s.modCell e g).od = s.od := rfl
@[simp] theorem State.modCell_eop (s : State) (e : Nat) (g : CellSt → CellSt) : (s.modCell e g).eop = s.eop := rfl
@[simp] theorem State.modCell_log (s : State) (e : Nat) (g : CellSt → CellSt) : (s.modCell e g).log = s.log := rfl
@[simp] theorem State.modCell_newel (s : State) (e : Nat) (g : CellSt → CellSt) : (s.modCell e g).newel = s.newel := rfl
@[simp] theorem State.modCell_cxl (s : State) (e : Nat) (g : CellSt → CellSt) : (s.modCell e g).cxl = s.cxl := rfl
@[simp] theorem State.modCell_halls (s : State) (e : Nat) (g : CellSt → CellSt) : (s.modCell e g).halls = s.halls := rfl
@[simp] theorem State.modCell_mem (s : State) (e : Nat) (g : CellSt → CellSt) : (s.modCell e g).mem = s.mem := rfl
@[simp] theorem State.modCell_xlate (s : State) (e : Nat) (g : CellSt → CellSt) : (s.modCell e g).xlate = s.xlate := rfl
@[simp] theorem State.modCell_serve (s : State) (e : Nat) (g : CellSt → CellSt) : (s.modCell e g).serve = s.serve := rfl
@[simp] theorem State.modCell_arcade (s : State) (e : Nat) (g : CellSt → CellSt) : (s.modCell e g).arcade = s.arcade := rfl
@[simp] theorem State.modCell_power (s : State) (e : Nat) (g : CellSt → CellSt) : (s.modCell e g).power = s.power := rfl
@[simp] theorem State.modCell_start (s : State) (e : Nat) (g : CellSt → CellSt) : (s.modCell e g).start = s.start := rfl
@[simp] theorem State.modCell_test (s : State) (e : Nat) (g : CellSt → CellSt) : (s.modCell e g).test = s.test := rfl

/-! ### State.dropCell -/

@[simp] theorem State.dropCell_pending (s : State) (e : Nat) : (s.dropCell e).pending = s.pending := rfl
@[simp] theorem State.dropCell_epoch (s : State) (e : Nat) : (s.dropCell e).epoch = s.epoch := rfl
@[simp] theorem State.dropCell_mode (s : State) (e : Nat) : (s.dropCell e).mode = s.mode := rfl
@[simp] theorem State.dropCell_trans (s : State) (e : Nat) : (s.dropCell e).trans = s.trans := rfl
@[simp] theorem State.dropCell_free (s : State) (e : Nat) : (s.dropCell e).free = s.free := rfl
@[simp] theorem State.dropCell_out (s : State) (e : Nat) : (s.dropCell e).out = s.out := rfl
@[simp] theorem State.dropCell_od (s : State) (e : Nat) : (s.dropCell e).od = s.od := rfl
@[simp] theorem State.dropCell_eop (s : State) (e : Nat) : (s.dropCell e).eop = s.eop := rfl
@[simp] theorem State.dropCell_log (s : State) (e : Nat) : (s.dropCell e).log = s.log := rfl
@[simp] theorem State.dropCell_newel (s : State) (e : Nat) : (s.dropCell e).newel = s.newel := rfl
@[simp] theorem State.dropCell_cxl (s : State) (e : Nat) : (s.dropCell e).cxl = s.cxl := rfl
@[simp] theorem State.dropCell_halls (s : State) (e : Nat) : (s.dropCell e).halls = s.halls := rfl
@[simp] theorem State.dropCell_mem (s : State) (e : Nat) : (s.dropCell e).mem = s.mem := rfl
@[simp] theorem State.dropCell_xlate (s : State) (e : Nat) : (s.dropCell e).xlate = s.xlate := rfl
@[simp] theorem State.dropCell_serve (s : State) (e : Nat) : (s.dropCell e).serve = s.serve := rfl
@[simp] theorem State.dropCell_arcade (s : State) (e : Nat) : (s.dropCell e).arcade = s.arcade := rfl
@[simp] theorem State.dropCell_power (s : State) (e : Nat) : (s.dropCell e).power = s.power := rfl
@[simp] theorem State.dropCell_start (s : State) (e : Nat) : (s.dropCell e).start = s.start := rfl
@[simp] theorem State.dropCell_test (s : State) (e : Nat) : (s.dropCell e).test = s.test := rfl

/-! ### State.endTransfers -/

@[simp] theorem State.endTransfers_pending (s : State) (p : Transfer → Bool) : (s.endTransfers p).pending = s.pending := rfl
@[simp] theorem State.endTransfers_epoch (s : State) (p : Transfer → Bool) : (s.endTransfers p).epoch = s.epoch := rfl
@[simp] theorem State.endTransfers_mode (s : State) (p : Transfer → Bool) : (s.endTransfers p).mode = s.mode := rfl
@[simp] theorem State.endTransfers_trans (s : State) (p : Transfer → Bool) : (s.endTransfers p).trans = s.trans := rfl
@[simp] theorem State.endTransfers_free (s : State) (p : Transfer → Bool) : (s.endTransfers p).free = s.free := rfl
@[simp] theorem State.endTransfers_out (s : State) (p : Transfer → Bool) : (s.endTransfers p).out = s.out := rfl
@[simp] theorem State.endTransfers_eop (s : State) (p : Transfer → Bool) : (s.endTransfers p).eop = s.eop := rfl
@[simp] theorem State.endTransfers_log (s : State) (p : Transfer → Bool) : (s.endTransfers p).log = s.log := rfl
@[simp] theorem State.endTransfers_newel (s : State) (p : Transfer → Bool) : (s.endTransfers p).newel = s.newel := rfl
@[simp] theorem State.endTransfers_cxl (s : State) (p : Transfer → Bool) : (s.endTransfers p).cxl = s.cxl := rfl
@[simp] theorem State.endTransfers_halls (s : State) (p : Transfer → Bool) : (s.endTransfers p).halls = s.halls := rfl
@[simp] theorem State.endTransfers_mem (s : State) (p : Transfer → Bool) : (s.endTransfers p).mem = s.mem := rfl
@[simp] theorem State.endTransfers_xlate (s : State) (p : Transfer → Bool) : (s.endTransfers p).xlate = s.xlate := rfl
@[simp] theorem State.endTransfers_serve (s : State) (p : Transfer → Bool) : (s.endTransfers p).serve = s.serve := rfl
@[simp] theorem State.endTransfers_arcade (s : State) (p : Transfer → Bool) : (s.endTransfers p).arcade = s.arcade := rfl
@[simp] theorem State.endTransfers_foyer (s : State) (p : Transfer → Bool) : (s.endTransfers p).foyer = s.foyer := rfl
@[simp] theorem State.endTransfers_power (s : State) (p : Transfer → Bool) : (s.endTransfers p).power = s.power := rfl
@[simp] theorem State.endTransfers_start (s : State) (p : Transfer → Bool) : (s.endTransfers p).start = s.start := rfl
@[simp] theorem State.endTransfers_test (s : State) (p : Transfer → Bool) : (s.endTransfers p).test = s.test := rfl

/-! ### State.dropXlate -/

@[simp] theorem State.dropXlate_pending (s : State) (t : Nat) (p : XEntry → Bool) : (s.dropXlate t p).pending = s.pending := rfl
@[simp] theorem State.dropXlate_epoch (s : State) (t : Nat) (p : XEntry → Bool) : (s.dropXlate t p).epoch = s.epoch := rfl
@[simp] theorem State.dropXlate_mode (s : State) (t : Nat) (p : XEntry → Bool) : (s.dropXlate t p).mode = s.mode := rfl
@[simp] theorem State.dropXlate_trans (s : State) (t : Nat) (p : XEntry → Bool) : (s.dropXlate t p).trans = s.trans := rfl
@[simp] theorem State.dropXlate_free (s : State) (t : Nat) (p : XEntry → Bool) : (s.dropXlate t p).free = s.free := rfl
@[simp] theorem State.dropXlate_out (s : State) (t : Nat) (p : XEntry → Bool) : (s.dropXlate t p).out = s.out := rfl
@[simp] theorem State.dropXlate_od (s : State) (t : Nat) (p : XEntry → Bool) : (s.dropXlate t p).od = s.od := rfl
@[simp] theorem State.dropXlate_eop (s : State) (t : Nat) (p : XEntry → Bool) : (s.dropXlate t p).eop = s.eop := rfl
@[simp] theorem State.dropXlate_log (s : State) (t : Nat) (p : XEntry → Bool) : (s.dropXlate t p).log = s.log := rfl
@[simp] theorem State.dropXlate_newel (s : State) (t : Nat) (p : XEntry → Bool) : (s.dropXlate t p).newel = s.newel := rfl
@[simp] theorem State.dropXlate_cxl (s : State) (t : Nat) (p : XEntry → Bool) : (s.dropXlate t p).cxl = s.cxl := rfl
@[simp] theorem State.dropXlate_halls (s : State) (t : Nat) (p : XEntry → Bool) : (s.dropXlate t p).halls = s.halls := rfl
@[simp] theorem State.dropXlate_mem (s : State) (t : Nat) (p : XEntry → Bool) : (s.dropXlate t p).mem = s.mem := rfl
@[simp] theorem State.dropXlate_serve (s : State) (t : Nat) (p : XEntry → Bool) : (s.dropXlate t p).serve = s.serve := rfl
@[simp] theorem State.dropXlate_arcade (s : State) (t : Nat) (p : XEntry → Bool) : (s.dropXlate t p).arcade = s.arcade := rfl
@[simp] theorem State.dropXlate_foyer (s : State) (t : Nat) (p : XEntry → Bool) : (s.dropXlate t p).foyer = s.foyer := rfl
@[simp] theorem State.dropXlate_power (s : State) (t : Nat) (p : XEntry → Bool) : (s.dropXlate t p).power = s.power := rfl
@[simp] theorem State.dropXlate_start (s : State) (t : Nat) (p : XEntry → Bool) : (s.dropXlate t p).start = s.start := rfl
@[simp] theorem State.dropXlate_test (s : State) (t : Nat) (p : XEntry → Bool) : (s.dropXlate t p).test = s.test := rfl

/-! ### State.addDesc -/

@[simp] theorem State.addDesc_pending (s : State) (d : Desc) : (s.addDesc d).pending = s.pending := rfl
@[simp] theorem State.addDesc_epoch (s : State) (d : Desc) : (s.addDesc d).epoch = s.epoch := rfl
@[simp] theorem State.addDesc_mode (s : State) (d : Desc) : (s.addDesc d).mode = s.mode := rfl
@[simp] theorem State.addDesc_trans (s : State) (d : Desc) : (s.addDesc d).trans = s.trans := rfl
@[simp] theorem State.addDesc_free (s : State) (d : Desc) : (s.addDesc d).free = s.free := rfl
@[simp] theorem State.addDesc_out (s : State) (d : Desc) : (s.addDesc d).out = s.out := rfl
@[simp] theorem State.addDesc_od (s : State) (d : Desc) : (s.addDesc d).od = s.od := rfl
@[simp] theorem State.addDesc_eop (s : State) (d : Desc) : (s.addDesc d).eop = s.eop := rfl
@[simp] theorem State.addDesc_log (s : State) (d : Desc) : (s.addDesc d).log = s.log := rfl
@[simp] theorem State.addDesc_newel (s : State) (d : Desc) : (s.addDesc d).newel = s.newel := rfl
@[simp] theorem State.addDesc_cxl (s : State) (d : Desc) : (s.addDesc d).cxl = s.cxl := rfl
@[simp] theorem State.addDesc_halls (s : State) (d : Desc) : (s.addDesc d).halls = s.halls := rfl
@[simp] theorem State.addDesc_mem (s : State) (d : Desc) : (s.addDesc d).mem = s.mem := rfl
@[simp] theorem State.addDesc_serve (s : State) (d : Desc) : (s.addDesc d).serve = s.serve := rfl
@[simp] theorem State.addDesc_arcade (s : State) (d : Desc) : (s.addDesc d).arcade = s.arcade := rfl
@[simp] theorem State.addDesc_foyer (s : State) (d : Desc) : (s.addDesc d).foyer = s.foyer := rfl
@[simp] theorem State.addDesc_power (s : State) (d : Desc) : (s.addDesc d).power = s.power := rfl
@[simp] theorem State.addDesc_start (s : State) (d : Desc) : (s.addDesc d).start = s.start := rfl
@[simp] theorem State.addDesc_test (s : State) (d : Desc) : (s.addDesc d).test = s.test := rfl

/-! ### State.modDesc -/

@[simp] theorem State.modDesc_pending (s : State) (id : Nat) (g : Desc → Desc) : (s.modDesc id g).pending = s.pending := rfl
@[simp] theorem State.modDesc_epoch (s : State) (id : Nat) (g : Desc → Desc) : (s.modDesc id g).epoch = s.epoch := rfl
@[simp] theorem State.modDesc_mode (s : State) (id : Nat) (g : Desc → Desc) : (s.modDesc id g).mode = s.mode := rfl
@[simp] theorem State.modDesc_trans (s : State) (id : Nat) (g : Desc → Desc) : (s.modDesc id g).trans = s.trans := rfl
@[simp] theorem State.modDesc_free (s : State) (id : Nat) (g : Desc → Desc) : (s.modDesc id g).free = s.free := rfl
@[simp] theorem State.modDesc_out (s : State) (id : Nat) (g : Desc → Desc) : (s.modDesc id g).out = s.out := rfl
@[simp] theorem State.modDesc_od (s : State) (id : Nat) (g : Desc → Desc) : (s.modDesc id g).od = s.od := rfl
@[simp] theorem State.modDesc_eop (s : State) (id : Nat) (g : Desc → Desc) : (s.modDesc id g).eop = s.eop := rfl
@[simp] theorem State.modDesc_log (s : State) (id : Nat) (g : Desc → Desc) : (s.modDesc id g).log = s.log := rfl
@[simp] theorem State.modDesc_newel (s : State) (id : Nat) (g : Desc → Desc) : (s.modDesc id g).newel = s.newel := rfl
@[simp] theorem State.modDesc_cxl (s : State) (id : Nat) (g : Desc → Desc) : (s.modDesc id g).cxl = s.cxl := rfl
@[simp] theorem State.modDesc_halls (s : State) (id : Nat) (g : Desc → Desc) : (s.modDesc id g).halls = s.halls := rfl
@[simp] theorem State.modDesc_mem (s : State) (id : Nat) (g : Desc → Desc) : (s.modDesc id g).mem = s.mem := rfl
@[simp] theorem State.modDesc_serve (s : State) (id : Nat) (g : Desc → Desc) : (s.modDesc id g).serve = s.serve := rfl
@[simp] theorem State.modDesc_arcade (s : State) (id : Nat) (g : Desc → Desc) : (s.modDesc id g).arcade = s.arcade := rfl
@[simp] theorem State.modDesc_foyer (s : State) (id : Nat) (g : Desc → Desc) : (s.modDesc id g).foyer = s.foyer := rfl
@[simp] theorem State.modDesc_power (s : State) (id : Nat) (g : Desc → Desc) : (s.modDesc id g).power = s.power := rfl
@[simp] theorem State.modDesc_start (s : State) (id : Nat) (g : Desc → Desc) : (s.modDesc id g).start = s.start := rfl
@[simp] theorem State.modDesc_test (s : State) (id : Nat) (g : Desc → Desc) : (s.modDesc id g).test = s.test := rfl

/-! ### State.dropRequest -/

@[simp] theorem State.dropRequest_pending (s : State) (r : PageReq) : (s.dropRequest r).pending = s.pending := rfl
@[simp] theorem State.dropRequest_epoch (s : State) (r : PageReq) : (s.dropRequest r).epoch = s.epoch := rfl
@[simp] theorem State.dropRequest_mode (s : State) (r : PageReq) : (s.dropRequest r).mode = s.mode := rfl
@[simp] theorem State.dropRequest_trans (s : State) (r : PageReq) : (s.dropRequest r).trans = s.trans := rfl
@[simp] theorem State.dropRequest_free (s : State) (r : PageReq) : (s.dropRequest r).free = s.free := rfl
@[simp] theorem State.dropRequest_out (s : State) (r : PageReq) : (s.dropRequest r).out = s.out := rfl
@[simp] theorem State.dropRequest_od (s : State) (r : PageReq) : (s.dropRequest r).od = s.od := rfl
@[simp] theorem State.dropRequest_eop (s : State) (r : PageReq) : (s.dropRequest r).eop = s.eop := rfl
@[simp] theorem State.dropRequest_log (s : State) (r : PageReq) : (s.dropRequest r).log = s.log := rfl
@[simp] theorem State.dropRequest_newel (s : State) (r : PageReq) : (s.dropRequest r).newel = s.newel := rfl
@[simp] theorem State.dropRequest_cxl (s : State) (r : PageReq) : (s.dropRequest r).cxl = s.cxl := rfl
@[simp] theorem State.dropRequest_halls (s : State) (r : PageReq) : (s.dropRequest r).halls = s.halls := rfl
@[simp] theorem State.dropRequest_mem (s : State) (r : PageReq) : (s.dropRequest r).mem = s.mem := rfl
@[simp] theorem State.dropRequest_serve (s : State) (r : PageReq) : (s.dropRequest r).serve = s.serve := rfl
@[simp] theorem State.dropRequest_arcade (s : State) (r : PageReq) : (s.dropRequest r).arcade = s.arcade := rfl
@[simp] theorem State.dropRequest_foyer (s : State) (r : PageReq) : (s.dropRequest r).foyer = s.foyer := rfl
@[simp] theorem State.dropRequest_power (s : State) (r : PageReq) : (s.dropRequest r).power = s.power := rfl
@[simp] theorem State.dropRequest_start (s : State) (r : PageReq) : (s.dropRequest r).start = s.start := rfl
@[simp] theorem State.dropRequest_test (s : State) (r : PageReq) : (s.dropRequest r).test = s.test := rfl

/-! ### State.modExch -/

@[simp] theorem State.modExch_pending (s : State) (i : Nat) (g : ExchSt → ExchSt) : (s.modExch i g).pending = s.pending := rfl
@[simp] theorem State.modExch_epoch (s : State) (i : Nat) (g : ExchSt → ExchSt) : (s.modExch i g).epoch = s.epoch := rfl
@[simp] theorem State.modExch_mode (s : State) (i : Nat) (g : ExchSt → ExchSt) : (s.modExch i g).mode = s.mode := rfl
@[simp] theorem State.modExch_trans (s : State) (i : Nat) (g : ExchSt → ExchSt) : (s.modExch i g).trans = s.trans := rfl
@[simp] theorem State.modExch_free (s : State) (i : Nat) (g : ExchSt → ExchSt) : (s.modExch i g).free = s.free := rfl
@[simp] theorem State.modExch_out (s : State) (i : Nat) (g : ExchSt → ExchSt) : (s.modExch i g).out = s.out := rfl
@[simp] theorem State.modExch_od (s : State) (i : Nat) (g : ExchSt → ExchSt) : (s.modExch i g).od = s.od := rfl
@[simp] theorem State.modExch_eop (s : State) (i : Nat) (g : ExchSt → ExchSt) : (s.modExch i g).eop = s.eop := rfl
@[simp] theorem State.modExch_log (s : State) (i : Nat) (g : ExchSt → ExchSt) : (s.modExch i g).log = s.log := rfl
@[simp] theorem State.modExch_newel (s : State) (i : Nat) (g : ExchSt → ExchSt) : (s.modExch i g).newel = s.newel := rfl
@[simp] theorem State.modExch_cxl (s : State) (i : Nat) (g : ExchSt → ExchSt) : (s.modExch i g).cxl = s.cxl := rfl
@[simp] theorem State.modExch_halls (s : State) (i : Nat) (g : ExchSt → ExchSt) : (s.modExch i g).halls = s.halls := rfl
@[simp] theorem State.modExch_mem (s : State) (i : Nat) (g : ExchSt → ExchSt) : (s.modExch i g).mem = s.mem := rfl
@[simp] theorem State.modExch_xlate (s : State) (i : Nat) (g : ExchSt → ExchSt) : (s.modExch i g).xlate = s.xlate := rfl
@[simp] theorem State.modExch_arcade (s : State) (i : Nat) (g : ExchSt → ExchSt) : (s.modExch i g).arcade = s.arcade := rfl
@[simp] theorem State.modExch_foyer (s : State) (i : Nat) (g : ExchSt → ExchSt) : (s.modExch i g).foyer = s.foyer := rfl
@[simp] theorem State.modExch_power (s : State) (i : Nat) (g : ExchSt → ExchSt) : (s.modExch i g).power = s.power := rfl
@[simp] theorem State.modExch_start (s : State) (i : Nat) (g : ExchSt → ExchSt) : (s.modExch i g).start = s.start := rfl
@[simp] theorem State.modExch_test (s : State) (i : Nat) (g : ExchSt → ExchSt) : (s.modExch i g).test = s.test := rfl

/-! ### State.poolFree -/

@[simp] theorem State.poolFree_pending (s : State) (h n : Nat) : (s.poolFree h n).pending = s.pending := rfl
@[simp] theorem State.poolFree_epoch (s : State) (h n : Nat) : (s.poolFree h n).epoch = s.epoch := rfl
@[simp] theorem State.poolFree_mode (s : State) (h n : Nat) : (s.poolFree h n).mode = s.mode := rfl
@[simp] theorem State.poolFree_trans (s : State) (h n : Nat) : (s.poolFree h n).trans = s.trans := rfl
@[simp] theorem State.poolFree_free (s : State) (h n : Nat) : (s.poolFree h n).free = s.free := rfl
@[simp] theorem State.poolFree_out (s : State) (h n : Nat) : (s.poolFree h n).out = s.out := rfl
@[simp] theorem State.poolFree_od (s : State) (h n : Nat) : (s.poolFree h n).od = s.od := rfl
@[simp] theorem State.poolFree_eop (s : State) (h n : Nat) : (s.poolFree h n).eop = s.eop := rfl
@[simp] theorem State.poolFree_log (s : State) (h n : Nat) : (s.poolFree h n).log = s.log := rfl
@[simp] theorem State.poolFree_newel (s : State) (h n : Nat) : (s.poolFree h n).newel = s.newel := rfl
@[simp] theorem State.poolFree_cxl (s : State) (h n : Nat) : (s.poolFree h n).cxl = s.cxl := rfl
@[simp] theorem State.poolFree_halls (s : State) (h n : Nat) : (s.poolFree h n).halls = s.halls := rfl
@[simp] theorem State.poolFree_mem (s : State) (h n : Nat) : (s.poolFree h n).mem = s.mem := rfl
@[simp] theorem State.poolFree_xlate (s : State) (h n : Nat) : (s.poolFree h n).xlate = s.xlate := rfl
@[simp] theorem State.poolFree_arcade (s : State) (h n : Nat) : (s.poolFree h n).arcade = s.arcade := rfl
@[simp] theorem State.poolFree_foyer (s : State) (h n : Nat) : (s.poolFree h n).foyer = s.foyer := rfl
@[simp] theorem State.poolFree_power (s : State) (h n : Nat) : (s.poolFree h n).power = s.power := rfl
@[simp] theorem State.poolFree_start (s : State) (h n : Nat) : (s.poolFree h n).start = s.start := rfl
@[simp] theorem State.poolFree_test (s : State) (h n : Nat) : (s.poolFree h n).test = s.test := rfl

/-! ### State.noteVector -/

@[simp] theorem State.noteVector_pending (s : State) (b : Buf) (l n : Nat) : (s.noteVector b l n).pending = s.pending := rfl
@[simp] theorem State.noteVector_epoch (s : State) (b : Buf) (l n : Nat) : (s.noteVector b l n).epoch = s.epoch := rfl
@[simp] theorem State.noteVector_mode (s : State) (b : Buf) (l n : Nat) : (s.noteVector b l n).mode = s.mode := rfl
@[simp] theorem State.noteVector_trans (s : State) (b : Buf) (l n : Nat) : (s.noteVector b l n).trans = s.trans := rfl
@[simp] theorem State.noteVector_free (s : State) (b : Buf) (l n : Nat) : (s.noteVector b l n).free = s.free := rfl
@[simp] theorem State.noteVector_out (s : State) (b : Buf) (l n : Nat) : (s.noteVector b l n).out = s.out := rfl
@[simp] theorem State.noteVector_od (s : State) (b : Buf) (l n : Nat) : (s.noteVector b l n).od = s.od := rfl
@[simp] theorem State.noteVector_eop (s : State) (b : Buf) (l n : Nat) : (s.noteVector b l n).eop = s.eop := rfl
@[simp] theorem State.noteVector_log (s : State) (b : Buf) (l n : Nat) : (s.noteVector b l n).log = s.log := rfl
@[simp] theorem State.noteVector_newel (s : State) (b : Buf) (l n : Nat) : (s.noteVector b l n).newel = s.newel := rfl
@[simp] theorem State.noteVector_cxl (s : State) (b : Buf) (l n : Nat) : (s.noteVector b l n).cxl = s.cxl := rfl
@[simp] theorem State.noteVector_mem (s : State) (b : Buf) (l n : Nat) : (s.noteVector b l n).mem = s.mem := rfl
@[simp] theorem State.noteVector_xlate (s : State) (b : Buf) (l n : Nat) : (s.noteVector b l n).xlate = s.xlate := rfl
@[simp] theorem State.noteVector_serve (s : State) (b : Buf) (l n : Nat) : (s.noteVector b l n).serve = s.serve := rfl
@[simp] theorem State.noteVector_arcade (s : State) (b : Buf) (l n : Nat) : (s.noteVector b l n).arcade = s.arcade := rfl
@[simp] theorem State.noteVector_foyer (s : State) (b : Buf) (l n : Nat) : (s.noteVector b l n).foyer = s.foyer := rfl
@[simp] theorem State.noteVector_power (s : State) (b : Buf) (l n : Nat) : (s.noteVector b l n).power = s.power := rfl
@[simp] theorem State.noteVector_start (s : State) (b : Buf) (l n : Nat) : (s.noteVector b l n).start = s.start := rfl
@[simp] theorem State.noteVector_test (s : State) (b : Buf) (l n : Nat) : (s.noteVector b l n).test = s.test := rfl

/-! ### State.disown -/

@[simp] theorem State.disown_pending (s : State) (n : Nat) : (s.disown n).pending = s.pending := rfl
@[simp] theorem State.disown_epoch (s : State) (n : Nat) : (s.disown n).epoch = s.epoch := rfl
@[simp] theorem State.disown_mode (s : State) (n : Nat) : (s.disown n).mode = s.mode := rfl
@[simp] theorem State.disown_trans (s : State) (n : Nat) : (s.disown n).trans = s.trans := rfl
@[simp] theorem State.disown_free (s : State) (n : Nat) : (s.disown n).free = s.free := rfl
@[simp] theorem State.disown_out (s : State) (n : Nat) : (s.disown n).out = s.out := rfl
@[simp] theorem State.disown_od (s : State) (n : Nat) : (s.disown n).od = s.od := rfl
@[simp] theorem State.disown_eop (s : State) (n : Nat) : (s.disown n).eop = s.eop := rfl
@[simp] theorem State.disown_log (s : State) (n : Nat) : (s.disown n).log = s.log := rfl
@[simp] theorem State.disown_newel (s : State) (n : Nat) : (s.disown n).newel = s.newel := rfl
@[simp] theorem State.disown_cxl (s : State) (n : Nat) : (s.disown n).cxl = s.cxl := rfl
@[simp] theorem State.disown_halls (s : State) (n : Nat) : (s.disown n).halls = s.halls := rfl
@[simp] theorem State.disown_mem (s : State) (n : Nat) : (s.disown n).mem = s.mem := rfl
@[simp] theorem State.disown_xlate (s : State) (n : Nat) : (s.disown n).xlate = s.xlate := rfl
@[simp] theorem State.disown_serve (s : State) (n : Nat) : (s.disown n).serve = s.serve := rfl
@[simp] theorem State.disown_foyer (s : State) (n : Nat) : (s.disown n).foyer = s.foyer := rfl
@[simp] theorem State.disown_power (s : State) (n : Nat) : (s.disown n).power = s.power := rfl
@[simp] theorem State.disown_start (s : State) (n : Nat) : (s.disown n).start = s.start := rfl
@[simp] theorem State.disown_test (s : State) (n : Nat) : (s.disown n).test = s.test := rfl

/-! ### State.memMark -/

@[simp] theorem State.memMark_pending (s : State) (a n : Nat) (p : Bool) : (s.memMark a n p).pending = s.pending := rfl
@[simp] theorem State.memMark_epoch (s : State) (a n : Nat) (p : Bool) : (s.memMark a n p).epoch = s.epoch := rfl
@[simp] theorem State.memMark_mode (s : State) (a n : Nat) (p : Bool) : (s.memMark a n p).mode = s.mode := rfl
@[simp] theorem State.memMark_trans (s : State) (a n : Nat) (p : Bool) : (s.memMark a n p).trans = s.trans := rfl
@[simp] theorem State.memMark_free (s : State) (a n : Nat) (p : Bool) : (s.memMark a n p).free = s.free := rfl
@[simp] theorem State.memMark_out (s : State) (a n : Nat) (p : Bool) : (s.memMark a n p).out = s.out := rfl
@[simp] theorem State.memMark_od (s : State) (a n : Nat) (p : Bool) : (s.memMark a n p).od = s.od := rfl
@[simp] theorem State.memMark_eop (s : State) (a n : Nat) (p : Bool) : (s.memMark a n p).eop = s.eop := rfl
@[simp] theorem State.memMark_log (s : State) (a n : Nat) (p : Bool) : (s.memMark a n p).log = s.log := rfl
@[simp] theorem State.memMark_newel (s : State) (a n : Nat) (p : Bool) : (s.memMark a n p).newel = s.newel := rfl
@[simp] theorem State.memMark_cxl (s : State) (a n : Nat) (p : Bool) : (s.memMark a n p).cxl = s.cxl := rfl
@[simp] theorem State.memMark_halls (s : State) (a n : Nat) (p : Bool) : (s.memMark a n p).halls = s.halls := rfl
@[simp] theorem State.memMark_xlate (s : State) (a n : Nat) (p : Bool) : (s.memMark a n p).xlate = s.xlate := rfl
@[simp] theorem State.memMark_serve (s : State) (a n : Nat) (p : Bool) : (s.memMark a n p).serve = s.serve := rfl
@[simp] theorem State.memMark_arcade (s : State) (a n : Nat) (p : Bool) : (s.memMark a n p).arcade = s.arcade := rfl
@[simp] theorem State.memMark_foyer (s : State) (a n : Nat) (p : Bool) : (s.memMark a n p).foyer = s.foyer := rfl
@[simp] theorem State.memMark_power (s : State) (a n : Nat) (p : Bool) : (s.memMark a n p).power = s.power := rfl
@[simp] theorem State.memMark_start (s : State) (a n : Nat) (p : Bool) : (s.memMark a n p).start = s.start := rfl
@[simp] theorem State.memMark_test (s : State) (a n : Nat) (p : Bool) : (s.memMark a n p).test = s.test := rfl

/-! ### State.takePlane -/

@[simp] theorem State.takePlane_pending (s : State) (fk : Nat) (m : KMap Nat) (b : Bool) : (s.takePlane fk m b).pending = s.pending := rfl
@[simp] theorem State.takePlane_epoch (s : State) (fk : Nat) (m : KMap Nat) (b : Bool) : (s.takePlane fk m b).epoch = s.epoch := rfl
@[simp] theorem State.takePlane_mode (s : State) (fk : Nat) (m : KMap Nat) (b : Bool) : (s.takePlane fk m b).mode = s.mode := rfl
@[simp] theorem State.takePlane_trans (s : State) (fk : Nat) (m : KMap Nat) (b : Bool) : (s.takePlane fk m b).trans = s.trans := rfl
@[simp] theorem State.takePlane_free (s : State) (fk : Nat) (m : KMap Nat) (b : Bool) : (s.takePlane fk m b).free = s.free := rfl
@[simp] theorem State.takePlane_out (s : State) (fk : Nat) (m : KMap Nat) (b : Bool) : (s.takePlane fk m b).out = s.out := rfl
@[simp] theorem State.takePlane_od (s : State) (fk : Nat) (m : KMap Nat) (b : Bool) : (s.takePlane fk m b).od = s.od := rfl
@[simp] theorem State.takePlane_eop (s : State) (fk : Nat) (m : KMap Nat) (b : Bool) : (s.takePlane fk m b).eop = s.eop := rfl
@[simp] theorem State.takePlane_log (s : State) (fk : Nat) (m : KMap Nat) (b : Bool) : (s.takePlane fk m b).log = s.log := rfl
@[simp] theorem State.takePlane_newel (s : State) (fk : Nat) (m : KMap Nat) (b : Bool) : (s.takePlane fk m b).newel = s.newel := rfl
@[simp] theorem State.takePlane_cxl (s : State) (fk : Nat) (m : KMap Nat) (b : Bool) : (s.takePlane fk m b).cxl = s.cxl := rfl
@[simp] theorem State.takePlane_mem (s : State) (fk : Nat) (m : KMap Nat) (b : Bool) : (s.takePlane fk m b).mem = s.mem := rfl
@[simp] theorem State.takePlane_xlate (s : State) (fk : Nat) (m : KMap Nat) (b : Bool) : (s.takePlane fk m b).xlate = s.xlate := rfl
@[simp] theorem State.takePlane_serve (s : State) (fk : Nat) (m : KMap Nat) (b : Bool) : (s.takePlane fk m b).serve = s.serve := rfl
@[simp] theorem State.takePlane_arcade (s : State) (fk : Nat) (m : KMap Nat) (b : Bool) : (s.takePlane fk m b).arcade = s.arcade := rfl
@[simp] theorem State.takePlane_foyer (s : State) (fk : Nat) (m : KMap Nat) (b : Bool) : (s.takePlane fk m b).foyer = s.foyer := rfl
@[simp] theorem State.takePlane_power (s : State) (fk : Nat) (m : KMap Nat) (b : Bool) : (s.takePlane fk m b).power = s.power := rfl
@[simp] theorem State.takePlane_start (s : State) (fk : Nat) (m : KMap Nat) (b : Bool) : (s.takePlane fk m b).start = s.start := rfl
@[simp] theorem State.takePlane_test (s : State) (fk : Nat) (m : KMap Nat) (b : Bool) : (s.takePlane fk m b).test = s.test := rfl

/-! ### State.opDone -/

@[simp] theorem State.opDone_pending (s : State) (c : OpCtx) : (s.opDone c).pending = s.pending := rfl
@[simp] theorem State.opDone_epoch (s : State) (c : OpCtx) : (s.opDone c).epoch = s.epoch := rfl
@[simp] theorem State.opDone_mode (s : State) (c : OpCtx) : (s.opDone c).mode = s.mode := rfl
@[simp] theorem State.opDone_trans (s : State) (c : OpCtx) : (s.opDone c).trans = s.trans := rfl
@[simp] theorem State.opDone_free (s : State) (c : OpCtx) : (s.opDone c).free = s.free := rfl
@[simp] theorem State.opDone_out (s : State) (c : OpCtx) : (s.opDone c).out = s.out := rfl
@[simp] theorem State.opDone_eop (s : State) (c : OpCtx) : (s.opDone c).eop = s.eop := rfl
@[simp] theorem State.opDone_log (s : State) (c : OpCtx) : (s.opDone c).log = s.log := rfl
@[simp] theorem State.opDone_newel (s : State) (c : OpCtx) : (s.opDone c).newel = s.newel := rfl
@[simp] theorem State.opDone_cxl (s : State) (c : OpCtx) : (s.opDone c).cxl = s.cxl := rfl
@[simp] theorem State.opDone_mem (s : State) (c : OpCtx) : (s.opDone c).mem = s.mem := rfl
@[simp] theorem State.opDone_xlate (s : State) (c : OpCtx) : (s.opDone c).xlate = s.xlate := rfl
@[simp] theorem State.opDone_serve (s : State) (c : OpCtx) : (s.opDone c).serve = s.serve := rfl
@[simp] theorem State.opDone_arcade (s : State) (c : OpCtx) : (s.opDone c).arcade = s.arcade := rfl
@[simp] theorem State.opDone_foyer (s : State) (c : OpCtx) : (s.opDone c).foyer = s.foyer := rfl
@[simp] theorem State.opDone_power (s : State) (c : OpCtx) : (s.opDone c).power = s.power := rfl
@[simp] theorem State.opDone_start (s : State) (c : OpCtx) : (s.opDone c).start = s.start := rfl
@[simp] theorem State.opDone_test (s : State) (c : OpCtx) : (s.opDone c).test = s.test := rfl

/-! ### State.opOpen -/

@[simp] theorem State.opOpen_pending (s : State) (c : OpCtx) : (s.opOpen c).pending = s.pending := rfl
@[simp] theorem State.opOpen_epoch (s : State) (c : OpCtx) : (s.opOpen c).epoch = s.epoch := rfl
@[simp] theorem State.opOpen_mode (s : State) (c : OpCtx) : (s.opOpen c).mode = s.mode := rfl
@[simp] theorem State.opOpen_trans (s : State) (c : OpCtx) : (s.opOpen c).trans = s.trans := rfl
@[simp] theorem State.opOpen_free (s : State) (c : OpCtx) : (s.opOpen c).free = s.free := rfl
@[simp] theorem State.opOpen_out (s : State) (c : OpCtx) : (s.opOpen c).out = s.out := rfl
@[simp] theorem State.opOpen_eop (s : State) (c : OpCtx) : (s.opOpen c).eop = s.eop := rfl
@[simp] theorem State.opOpen_log (s : State) (c : OpCtx) : (s.opOpen c).log = s.log := rfl
@[simp] theorem State.opOpen_newel (s : State) (c : OpCtx) : (s.opOpen c).newel = s.newel := rfl
@[simp] theorem State.opOpen_cxl (s : State) (c : OpCtx) : (s.opOpen c).cxl = s.cxl := rfl
@[simp] theorem State.opOpen_mem (s : State) (c : OpCtx) : (s.opOpen c).mem = s.mem := rfl
@[simp] theorem State.opOpen_xlate (s : State) (c : OpCtx) : (s.opOpen c).xlate = s.xlate := rfl
@[simp] theorem State.opOpen_serve (s : State) (c : OpCtx) : (s.opOpen c).serve = s.serve := rfl
@[simp] theorem State.opOpen_arcade (s : State) (c : OpCtx) : (s.opOpen c).arcade = s.arcade := rfl
@[simp] theorem State.opOpen_foyer (s : State) (c : OpCtx) : (s.opOpen c).foyer = s.foyer := rfl
@[simp] theorem State.opOpen_power (s : State) (c : OpCtx) : (s.opOpen c).power = s.power := rfl
@[simp] theorem State.opOpen_start (s : State) (c : OpCtx) : (s.opOpen c).start = s.start := rfl
@[simp] theorem State.opOpen_test (s : State) (c : OpCtx) : (s.opOpen c).test = s.test := rfl

/-! ### The named reads across the updates -/

@[simp] theorem State.odPut_flight (s : State) (k v : Nat) (j : Nat) : (s.odPut k v).flight j = s.flight j := rfl
@[simp] theorem State.odPut_landing (s : State) (k v : Nat) (j : Nat) : (s.odPut k v).landing j = s.landing j := rfl
@[simp] theorem State.odPut_progAt (s : State) (k v : Nat) (j i : Nat) : (s.odPut k v).progAt j i = s.progAt j i := rfl
@[simp] theorem State.odPut_handleEntry (s : State) (k v : Nat) (j i : Nat) : (s.odPut k v).handleEntry j i = s.handleEntry j i := rfl
@[simp] theorem State.odPut_memByte (s : State) (k v : Nat) (j : Nat) : (s.odPut k v).memByte j = s.memByte j := rfl
@[simp] theorem State.odPut_stream (s : State) (k v : Nat) (j : Nat) : (s.odPut k v).stream j = s.stream j := rfl
@[simp] theorem State.odPut_jobOf (s : State) (k v : Nat) (j : Nat) : (s.odPut k v).jobOf j = s.jobOf j := rfl
@[simp] theorem State.odPut_openStepOf (s : State) (k v : Nat) (j : Nat) : (s.odPut k v).openStepOf j = s.openStepOf j := rfl
@[simp] theorem State.odPut_arch (s : State) (k v : Nat) (j : Nat) : (s.odPut k v).arch j = s.arch j := rfl
@[simp] theorem State.count_flight (s : State) (k n : Nat) (j : Nat) : (s.count k n).flight j = s.flight j := rfl
@[simp] theorem State.count_landing (s : State) (k n : Nat) (j : Nat) : (s.count k n).landing j = s.landing j := rfl
@[simp] theorem State.count_progAt (s : State) (k n : Nat) (j i : Nat) : (s.count k n).progAt j i = s.progAt j i := rfl
@[simp] theorem State.count_handleEntry (s : State) (k n : Nat) (j i : Nat) : (s.count k n).handleEntry j i = s.handleEntry j i := rfl
@[simp] theorem State.count_memByte (s : State) (k n : Nat) (j : Nat) : (s.count k n).memByte j = s.memByte j := rfl
@[simp] theorem State.count_stream (s : State) (k n : Nat) (j : Nat) : (s.count k n).stream j = s.stream j := rfl
@[simp] theorem State.count_jobOf (s : State) (k n : Nat) (j : Nat) : (s.count k n).jobOf j = s.jobOf j := rfl
@[simp] theorem State.count_openStepOf (s : State) (k n : Nat) (j : Nat) : (s.count k n).openStepOf j = s.openStepOf j := rfl
@[simp] theorem State.count_arch (s : State) (k n : Nat) (j : Nat) : (s.count k n).arch j = s.arch j := rfl
@[simp] theorem State.domPut_flight (s : State) (k : Nat) (v : Bytes) (j : Nat) : (s.domPut k v).flight j = s.flight j := rfl
@[simp] theorem State.domPut_landing (s : State) (k : Nat) (v : Bytes) (j : Nat) : (s.domPut k v).landing j = s.landing j := rfl
@[simp] theorem State.domPut_progAt (s : State) (k : Nat) (v : Bytes) (j i : Nat) : (s.domPut k v).progAt j i = s.progAt j i := rfl
@[simp] theorem State.domPut_handleEntry (s : State) (k : Nat) (v : Bytes) (j i : Nat) : (s.domPut k v).handleEntry j i = s.handleEntry j i := rfl
@[simp] theorem State.domPut_memByte (s : State) (k : Nat) (v : Bytes) (j : Nat) : (s.domPut k v).memByte j = s.memByte j := rfl
@[simp] theorem State.domPut_stream (s : State) (k : Nat) (v : Bytes) (j : Nat) : (s.domPut k v).stream j = s.stream j := rfl
@[simp] theorem State.domPut_jobOf (s : State) (k : Nat) (v : Bytes) (j : Nat) : (s.domPut k v).jobOf j = s.jobOf j := rfl
@[simp] theorem State.domPut_openStepOf (s : State) (k : Nat) (v : Bytes) (j : Nat) : (s.domPut k v).openStepOf j = s.openStepOf j := rfl
@[simp] theorem State.domPut_arch (s : State) (k : Nat) (v : Bytes) (j : Nat) : (s.domPut k v).arch j = s.arch j := rfl
@[simp] theorem State.rolePut_flight (s : State) (r : Role) (k v : Nat) (j : Nat) : (s.rolePut r k v).flight j = s.flight j := rfl
@[simp] theorem State.rolePut_landing (s : State) (r : Role) (k v : Nat) (j : Nat) : (s.rolePut r k v).landing j = s.landing j := rfl
@[simp] theorem State.rolePut_progAt (s : State) (r : Role) (k v : Nat) (j i : Nat) : (s.rolePut r k v).progAt j i = s.progAt j i := rfl
@[simp] theorem State.rolePut_handleEntry (s : State) (r : Role) (k v : Nat) (j i : Nat) : (s.rolePut r k v).handleEntry j i = s.handleEntry j i := rfl
@[simp] theorem State.rolePut_memByte (s : State) (r : Role) (k v : Nat) (j : Nat) : (s.rolePut r k v).memByte j = s.memByte j := rfl
@[simp] theorem State.rolePut_stream (s : State) (r : Role) (k v : Nat) (j : Nat) : (s.rolePut r k v).stream j = s.stream j := rfl
@[simp] theorem State.rolePut_jobOf (s : State) (r : Role) (k v : Nat) (j : Nat) : (s.rolePut r k v).jobOf j = s.jobOf j := rfl
@[simp] theorem State.rolePut_openStepOf (s : State) (r : Role) (k v : Nat) (j : Nat) : (s.rolePut r k v).openStepOf j = s.openStepOf j := rfl
@[simp] theorem State.rolePut_arch (s : State) (r : Role) (k v : Nat) (j : Nat) : (s.rolePut r k v).arch j = s.arch j := rfl
@[simp] theorem State.emit_odGet (s : State) (m : OutMsg) (j : Nat) : (s.emit m).odGet j = s.odGet j := rfl
@[simp] theorem State.emit_domGet (s : State) (m : OutMsg) (j : Nat) (d : Bytes) : (s.emit m).domGet j d = s.domGet j d := rfl
@[simp] theorem State.emit_roleGet (s : State) (m : OutMsg) (q : Role) (j : Nat) : (s.emit m).roleGet q j = s.roleGet q j := rfl
@[simp] theorem State.emit_flight (s : State) (m : OutMsg) (j : Nat) : (s.emit m).flight j = s.flight j := rfl
@[simp] theorem State.emit_landing (s : State) (m : OutMsg) (j : Nat) : (s.emit m).landing j = s.landing j := rfl
@[simp] theorem State.emit_progAt (s : State) (m : OutMsg) (j i : Nat) : (s.emit m).progAt j i = s.progAt j i := rfl
@[simp] theorem State.emit_handleEntry (s : State) (m : OutMsg) (j i : Nat) : (s.emit m).handleEntry j i = s.handleEntry j i := rfl
@[simp] theorem State.emit_memByte (s : State) (m : OutMsg) (j : Nat) : (s.emit m).memByte j = s.memByte j := rfl
@[simp] theorem State.emit_stream (s : State) (m : OutMsg) (j : Nat) : (s.emit m).stream j = s.stream j := rfl
@[simp] theorem State.emit_jobOf (s : State) (m : OutMsg) (j : Nat) : (s.emit m).jobOf j = s.jobOf j := rfl
@[simp] theorem State.emit_openStepOf (s : State) (m : OutMsg) (j : Nat) : (s.emit m).openStepOf j = s.openStepOf j := rfl
@[simp] theorem State.emit_arch (s : State) (m : OutMsg) (j : Nat) : (s.emit m).arch j = s.arch j := rfl
@[simp] theorem State.emits_odGet (s : State) (ms : List OutMsg) (j : Nat) : (s.emits ms).odGet j = s.odGet j := rfl
@[simp] theorem State.emits_domGet (s : State) (ms : List OutMsg) (j : Nat) (d : Bytes) : (s.emits ms).domGet j d = s.domGet j d := rfl
@[simp] theorem State.emits_roleGet (s : State) (ms : List OutMsg) (q : Role) (j : Nat) : (s.emits ms).roleGet q j = s.roleGet q j := rfl
@[simp] theorem State.emits_flight (s : State) (ms : List OutMsg) (j : Nat) : (s.emits ms).flight j = s.flight j := rfl
@[simp] theorem State.emits_landing (s : State) (ms : List OutMsg) (j : Nat) : (s.emits ms).landing j = s.landing j := rfl
@[simp] theorem State.emits_progAt (s : State) (ms : List OutMsg) (j i : Nat) : (s.emits ms).progAt j i = s.progAt j i := rfl
@[simp] theorem State.emits_handleEntry (s : State) (ms : List OutMsg) (j i : Nat) : (s.emits ms).handleEntry j i = s.handleEntry j i := rfl
@[simp] theorem State.emits_memByte (s : State) (ms : List OutMsg) (j : Nat) : (s.emits ms).memByte j = s.memByte j := rfl
@[simp] theorem State.emits_stream (s : State) (ms : List OutMsg) (j : Nat) : (s.emits ms).stream j = s.stream j := rfl
@[simp] theorem State.emits_jobOf (s : State) (ms : List OutMsg) (j : Nat) : (s.emits ms).jobOf j = s.jobOf j := rfl
@[simp] theorem State.emits_openStepOf (s : State) (ms : List OutMsg) (j : Nat) : (s.emits ms).openStepOf j = s.openStepOf j := rfl
@[simp] theorem State.emits_arch (s : State) (ms : List OutMsg) (j : Nat) : (s.emits ms).arch j = s.arch j := rfl
@[simp] theorem State.tick_odGet (s : State) (j : Nat) : (s.tick).odGet j = s.odGet j := rfl
@[simp] theorem State.tick_domGet (s : State) (j : Nat) (d : Bytes) : (s.tick).domGet j d = s.domGet j d := rfl
@[simp] theorem State.tick_roleGet (s : State) (q : Role) (j : Nat) : (s.tick).roleGet q j = s.roleGet q j := rfl
@[simp] theorem State.tick_flight (s : State) (j : Nat) : (s.tick).flight j = s.flight j := rfl
@[simp] theorem State.tick_landing (s : State) (j : Nat) : (s.tick).landing j = s.landing j := rfl
@[simp] theorem State.tick_progAt (s : State) (j i : Nat) : (s.tick).progAt j i = s.progAt j i := rfl
@[simp] theorem State.tick_handleEntry (s : State) (j i : Nat) : (s.tick).handleEntry j i = s.handleEntry j i := rfl
@[simp] theorem State.tick_memByte (s : State) (j : Nat) : (s.tick).memByte j = s.memByte j := rfl
@[simp] theorem State.tick_stream (s : State) (j : Nat) : (s.tick).stream j = s.stream j := rfl
@[simp] theorem State.tick_jobOf (s : State) (j : Nat) : (s.tick).jobOf j = s.jobOf j := rfl
@[simp] theorem State.tick_openStepOf (s : State) (j : Nat) : (s.tick).openStepOf j = s.openStepOf j := rfl
@[simp] theorem State.tick_arch (s : State) (j : Nat) : (s.tick).arch j = s.arch j := rfl
@[simp] theorem State.setFlight_odGet (s : State) (k : Nat) (x : FlightSt) (j : Nat) : (s.setFlight k x).odGet j = s.odGet j := rfl
@[simp] theorem State.setFlight_domGet (s : State) (k : Nat) (x : FlightSt) (j : Nat) (d : Bytes) : (s.setFlight k x).domGet j d = s.domGet j d := rfl
@[simp] theorem State.setFlight_roleGet (s : State) (k : Nat) (x : FlightSt) (q : Role) (j : Nat) : (s.setFlight k x).roleGet q j = s.roleGet q j := rfl
@[simp] theorem State.setFlight_memByte (s : State) (k : Nat) (x : FlightSt) (j : Nat) : (s.setFlight k x).memByte j = s.memByte j := rfl
@[simp] theorem State.setFlight_stream (s : State) (k : Nat) (x : FlightSt) (j : Nat) : (s.setFlight k x).stream j = s.stream j := rfl
@[simp] theorem State.setFlight_jobOf (s : State) (k : Nat) (x : FlightSt) (j : Nat) : (s.setFlight k x).jobOf j = s.jobOf j := rfl
@[simp] theorem State.setFlight_openStepOf (s : State) (k : Nat) (x : FlightSt) (j : Nat) : (s.setFlight k x).openStepOf j = s.openStepOf j := rfl
@[simp] theorem State.setFlight_arch (s : State) (k : Nat) (x : FlightSt) (j : Nat) : (s.setFlight k x).arch j = s.arch j := rfl
@[simp] theorem State.setTile_odGet (s : State) (k i0 : Nat) (t : Tile) (j : Nat) : (s.setTile k i0 t).odGet j = s.odGet j := rfl
@[simp] theorem State.setTile_domGet (s : State) (k i0 : Nat) (t : Tile) (j : Nat) (d : Bytes) : (s.setTile k i0 t).domGet j d = s.domGet j d := rfl
@[simp] theorem State.setTile_roleGet (s : State) (k i0 : Nat) (t : Tile) (q : Role) (j : Nat) : (s.setTile k i0 t).roleGet q j = s.roleGet q j := rfl
@[simp] theorem State.setTile_memByte (s : State) (k i0 : Nat) (t : Tile) (j : Nat) : (s.setTile k i0 t).memByte j = s.memByte j := rfl
@[simp] theorem State.setTile_stream (s : State) (k i0 : Nat) (t : Tile) (j : Nat) : (s.setTile k i0 t).stream j = s.stream j := rfl
@[simp] theorem State.setTile_jobOf (s : State) (k i0 : Nat) (t : Tile) (j : Nat) : (s.setTile k i0 t).jobOf j = s.jobOf j := rfl
@[simp] theorem State.setTile_openStepOf (s : State) (k i0 : Nat) (t : Tile) (j : Nat) : (s.setTile k i0 t).openStepOf j = s.openStepOf j := rfl
@[simp] theorem State.setTile_arch (s : State) (k i0 : Nat) (t : Tile) (j : Nat) : (s.setTile k i0 t).arch j = s.arch j := rfl
@[simp] theorem State.setLanding_odGet (s : State) (l : Nat) (x : Landing) (j : Nat) : (s.setLanding l x).odGet j = s.odGet j := rfl
@[simp] theorem State.setLanding_domGet (s : State) (l : Nat) (x : Landing) (j : Nat) (d : Bytes) : (s.setLanding l x).domGet j d = s.domGet j d := rfl
@[simp] theorem State.setLanding_roleGet (s : State) (l : Nat) (x : Landing) (q : Role) (j : Nat) : (s.setLanding l x).roleGet q j = s.roleGet q j := rfl
@[simp] theorem State.setLanding_memByte (s : State) (l : Nat) (x : Landing) (j : Nat) : (s.setLanding l x).memByte j = s.memByte j := rfl
@[simp] theorem State.setLanding_stream (s : State) (l : Nat) (x : Landing) (j : Nat) : (s.setLanding l x).stream j = s.stream j := rfl
@[simp] theorem State.setLanding_jobOf (s : State) (l : Nat) (x : Landing) (j : Nat) : (s.setLanding l x).jobOf j = s.jobOf j := rfl
@[simp] theorem State.setLanding_openStepOf (s : State) (l : Nat) (x : Landing) (j : Nat) : (s.setLanding l x).openStepOf j = s.openStepOf j := rfl
@[simp] theorem State.setLanding_arch (s : State) (l : Nat) (x : Landing) (j : Nat) : (s.setLanding l x).arch j = s.arch j := rfl
@[simp] theorem State.setHandle_odGet (s : State) (l h e : Nat) (j : Nat) : (s.setHandle l h e).odGet j = s.odGet j := rfl
@[simp] theorem State.setHandle_domGet (s : State) (l h e : Nat) (j : Nat) (d : Bytes) : (s.setHandle l h e).domGet j d = s.domGet j d := rfl
@[simp] theorem State.setHandle_roleGet (s : State) (l h e : Nat) (q : Role) (j : Nat) : (s.setHandle l h e).roleGet q j = s.roleGet q j := rfl
@[simp] theorem State.setHandle_memByte (s : State) (l h e : Nat) (j : Nat) : (s.setHandle l h e).memByte j = s.memByte j := rfl
@[simp] theorem State.setHandle_stream (s : State) (l h e : Nat) (j : Nat) : (s.setHandle l h e).stream j = s.stream j := rfl
@[simp] theorem State.setHandle_jobOf (s : State) (l h e : Nat) (j : Nat) : (s.setHandle l h e).jobOf j = s.jobOf j := rfl
@[simp] theorem State.setHandle_openStepOf (s : State) (l h e : Nat) (j : Nat) : (s.setHandle l h e).openStepOf j = s.openStepOf j := rfl
@[simp] theorem State.setHandle_arch (s : State) (l h e : Nat) (j : Nat) : (s.setHandle l h e).arch j = s.arch j := rfl
@[simp] theorem State.modProg_odGet (s : State) (fk slot : Nat) (g : Prog → Prog) (j : Nat) : (s.modProg fk slot g).odGet j = s.odGet j := rfl
@[simp] theorem State.modProg_domGet (s : State) (fk slot : Nat) (g : Prog → Prog) (j : Nat) (d : Bytes) : (s.modProg fk slot g).domGet j d = s.domGet j d := rfl
@[simp] theorem State.modProg_roleGet (s : State) (fk slot : Nat) (g : Prog → Prog) (q : Role) (j : Nat) : (s.modProg fk slot g).roleGet q j = s.roleGet q j := rfl
@[simp] theorem State.modProg_memByte (s : State) (fk slot : Nat) (g : Prog → Prog) (j : Nat) : (s.modProg fk slot g).memByte j = s.memByte j := rfl
@[simp] theorem State.modProg_stream (s : State) (fk slot : Nat) (g : Prog → Prog) (j : Nat) : (s.modProg fk slot g).stream j = s.stream j := rfl
@[simp] theorem State.modProg_jobOf (s : State) (fk slot : Nat) (g : Prog → Prog) (j : Nat) : (s.modProg fk slot g).jobOf j = s.jobOf j := rfl
@[simp] theorem State.modProg_openStepOf (s : State) (fk slot : Nat) (g : Prog → Prog) (j : Nat) : (s.modProg fk slot g).openStepOf j = s.openStepOf j := rfl
@[simp] theorem State.modProg_arch (s : State) (fk slot : Nat) (g : Prog → Prog) (j : Nat) : (s.modProg fk slot g).arch j = s.arch j := rfl
@[simp] theorem State.setJob_odGet (s : State) (x : JobSt) (j : Nat) : (s.setJob x).odGet j = s.odGet j := rfl
@[simp] theorem State.setJob_domGet (s : State) (x : JobSt) (j : Nat) (d : Bytes) : (s.setJob x).domGet j d = s.domGet j d := rfl
@[simp] theorem State.setJob_roleGet (s : State) (x : JobSt) (q : Role) (j : Nat) : (s.setJob x).roleGet q j = s.roleGet q j := rfl
@[simp] theorem State.setJob_flight (s : State) (x : JobSt) (j : Nat) : (s.setJob x).flight j = s.flight j := rfl
@[simp] theorem State.setJob_landing (s : State) (x : JobSt) (j : Nat) : (s.setJob x).landing j = s.landing j := rfl
@[simp] theorem State.setJob_progAt (s : State) (x : JobSt) (j i : Nat) : (s.setJob x).progAt j i = s.progAt j i := rfl
@[simp] theorem State.setJob_handleEntry (s : State) (x : JobSt) (j i : Nat) : (s.setJob x).handleEntry j i = s.handleEntry j i := rfl
@[simp] theorem State.setJob_memByte (s : State) (x : JobSt) (j : Nat) : (s.setJob x).memByte j = s.memByte j := rfl
@[simp] theorem State.setJob_arch (s : State) (x : JobSt) (j : Nat) : (s.setJob x).arch j = s.arch j := rfl
@[simp] theorem State.modStep_odGet (s : State) (job : Nat) (g : StepSt → StepSt) (j : Nat) : (s.modStep job g).odGet j = s.odGet j := rfl
@[simp] theorem State.modStep_domGet (s : State) (job : Nat) (g : StepSt → StepSt) (j : Nat) (d : Bytes) : (s.modStep job g).domGet j d = s.domGet j d := rfl
@[simp] theorem State.modStep_roleGet (s : State) (job : Nat) (g : StepSt → StepSt) (q : Role) (j : Nat) : (s.modStep job g).roleGet q j = s.roleGet q j := rfl
@[simp] theorem State.modStep_flight (s : State) (job : Nat) (g : StepSt → StepSt) (j : Nat) : (s.modStep job g).flight j = s.flight j := rfl
@[simp] theorem State.modStep_landing (s : State) (job : Nat) (g : StepSt → StepSt) (j : Nat) : (s.modStep job g).landing j = s.landing j := rfl
@[simp] theorem State.modStep_progAt (s : State) (job : Nat) (g : StepSt → StepSt) (j i : Nat) : (s.modStep job g).progAt j i = s.progAt j i := rfl
@[simp] theorem State.modStep_handleEntry (s : State) (job : Nat) (g : StepSt → StepSt) (j i : Nat) : (s.modStep job g).handleEntry j i = s.handleEntry j i := rfl
@[simp] theorem State.modStep_memByte (s : State) (job : Nat) (g : StepSt → StepSt) (j : Nat) : (s.modStep job g).memByte j = s.memByte j := rfl
@[simp] theorem State.modStep_arch (s : State) (job : Nat) (g : StepSt → StepSt) (j : Nat) : (s.modStep job g).arch j = s.arch j := rfl
@[simp] theorem State.dropStep_odGet (s : State) (job : Nat) (j : Nat) : (s.dropStep job).odGet j = s.odGet j := rfl
@[simp] theorem State.dropStep_domGet (s : State) (job : Nat) (j : Nat) (d : Bytes) : (s.dropStep job).domGet j d = s.domGet j d := rfl
@[simp] theorem State.dropStep_roleGet (s : State) (job : Nat) (q : Role) (j : Nat) : (s.dropStep job).roleGet q j = s.roleGet q j := rfl
@[simp] theorem State.dropStep_flight (s : State) (job : Nat) (j : Nat) : (s.dropStep job).flight j = s.flight j := rfl
@[simp] theorem State.dropStep_landing (s : State) (job : Nat) (j : Nat) : (s.dropStep job).landing j = s.landing j := rfl
@[simp] theorem State.dropStep_progAt (s : State) (job : Nat) (j i : Nat) : (s.dropStep job).progAt j i = s.progAt j i := rfl
@[simp] theorem State.dropStep_handleEntry (s : State) (job : Nat) (j i : Nat) : (s.dropStep job).handleEntry j i = s.handleEntry j i := rfl
@[simp] theorem State.dropStep_memByte (s : State) (job : Nat) (j : Nat) : (s.dropStep job).memByte j = s.memByte j := rfl
@[simp] theorem State.dropStep_arch (s : State) (job : Nat) (j : Nat) : (s.dropStep job).arch j = s.arch j := rfl
@[simp] theorem State.setStream_odGet (s : State) (i0 : Nat) (r : StreamRec) (j : Nat) : (s.setStream i0 r).odGet j = s.odGet j := rfl
@[simp] theorem State.setStream_domGet (s : State) (i0 : Nat) (r : StreamRec) (j : Nat) (d : Bytes) : (s.setStream i0 r).domGet j d = s.domGet j d := rfl
@[simp] theorem State.setStream_roleGet (s : State) (i0 : Nat) (r : StreamRec) (q : Role) (j : Nat) : (s.setStream i0 r).roleGet q j = s.roleGet q j := rfl
@[simp] theorem State.setStream_flight (s : State) (i0 : Nat) (r : StreamRec) (j : Nat) : (s.setStream i0 r).flight j = s.flight j := rfl
@[simp] theorem State.setStream_landing (s : State) (i0 : Nat) (r : StreamRec) (j : Nat) : (s.setStream i0 r).landing j = s.landing j := rfl
@[simp] theorem State.setStream_progAt (s : State) (i0 : Nat) (r : StreamRec) (j i : Nat) : (s.setStream i0 r).progAt j i = s.progAt j i := rfl
@[simp] theorem State.setStream_handleEntry (s : State) (i0 : Nat) (r : StreamRec) (j i : Nat) : (s.setStream i0 r).handleEntry j i = s.handleEntry j i := rfl
@[simp] theorem State.setStream_memByte (s : State) (i0 : Nat) (r : StreamRec) (j : Nat) : (s.setStream i0 r).memByte j = s.memByte j := rfl
@[simp] theorem State.setStream_arch (s : State) (i0 : Nat) (r : StreamRec) (j : Nat) : (s.setStream i0 r).arch j = s.arch j := rfl
@[simp] theorem State.modStream_odGet (s : State) (i0 : Nat) (g : StreamRec → StreamRec) (j : Nat) : (s.modStream i0 g).odGet j = s.odGet j := rfl
@[simp] theorem State.modStream_domGet (s : State) (i0 : Nat) (g : StreamRec → StreamRec) (j : Nat) (d : Bytes) : (s.modStream i0 g).domGet j d = s.domGet j d := rfl
@[simp] theorem State.modStream_roleGet (s : State) (i0 : Nat) (g : StreamRec → StreamRec) (q : Role) (j : Nat) : (s.modStream i0 g).roleGet q j = s.roleGet q j := rfl
@[simp] theorem State.modStream_flight (s : State) (i0 : Nat) (g : StreamRec → StreamRec) (j : Nat) : (s.modStream i0 g).flight j = s.flight j := rfl
@[simp] theorem State.modStream_landing (s : State) (i0 : Nat) (g : StreamRec → StreamRec) (j : Nat) : (s.modStream i0 g).landing j = s.landing j := rfl
@[simp] theorem State.modStream_progAt (s : State) (i0 : Nat) (g : StreamRec → StreamRec) (j i : Nat) : (s.modStream i0 g).progAt j i = s.progAt j i := rfl
@[simp] theorem State.modStream_handleEntry (s : State) (i0 : Nat) (g : StreamRec → StreamRec) (j i : Nat) : (s.modStream i0 g).handleEntry j i = s.handleEntry j i := rfl
@[simp] theorem State.modStream_memByte (s : State) (i0 : Nat) (g : StreamRec → StreamRec) (j : Nat) : (s.modStream i0 g).memByte j = s.memByte j := rfl
@[simp] theorem State.modStream_arch (s : State) (i0 : Nat) (g : StreamRec → StreamRec) (j : Nat) : (s.modStream i0 g).arch j = s.arch j := rfl
@[simp] theorem State.putSw_odGet (s : State) (i0 k v : Nat) (j : Nat) : (s.putSw i0 k v).odGet j = s.odGet j := rfl
@[simp] theorem State.putSw_domGet (s : State) (i0 k v : Nat) (j : Nat) (d : Bytes) : (s.putSw i0 k v).domGet j d = s.domGet j d := rfl
@[simp] theorem State.putSw_roleGet (s : State) (i0 k v : Nat) (q : Role) (j : Nat) : (s.putSw i0 k v).roleGet q j = s.roleGet q j := rfl
@[simp] theorem State.putSw_flight (s : State) (i0 k v : Nat) (j : Nat) : (s.putSw i0 k v).flight j = s.flight j := rfl
@[simp] theorem State.putSw_landing (s : State) (i0 k v : Nat) (j : Nat) : (s.putSw i0 k v).landing j = s.landing j := rfl
@[simp] theorem State.putSw_progAt (s : State) (i0 k v : Nat) (j i : Nat) : (s.putSw i0 k v).progAt j i = s.progAt j i := rfl
@[simp] theorem State.putSw_handleEntry (s : State) (i0 k v : Nat) (j i : Nat) : (s.putSw i0 k v).handleEntry j i = s.handleEntry j i := rfl
@[simp] theorem State.putSw_memByte (s : State) (i0 k v : Nat) (j : Nat) : (s.putSw i0 k v).memByte j = s.memByte j := rfl
@[simp] theorem State.putSw_arch (s : State) (i0 k v : Nat) (j : Nat) : (s.putSw i0 k v).arch j = s.arch j := rfl
@[simp] theorem State.setArch_odGet (s : State) (n : Nat) (a : ArchSt) (j : Nat) : (s.setArch n a).odGet j = s.odGet j := rfl
@[simp] theorem State.setArch_domGet (s : State) (n : Nat) (a : ArchSt) (j : Nat) (d : Bytes) : (s.setArch n a).domGet j d = s.domGet j d := rfl
@[simp] theorem State.setArch_roleGet (s : State) (n : Nat) (a : ArchSt) (q : Role) (j : Nat) : (s.setArch n a).roleGet q j = s.roleGet q j := rfl
@[simp] theorem State.setArch_flight (s : State) (n : Nat) (a : ArchSt) (j : Nat) : (s.setArch n a).flight j = s.flight j := rfl
@[simp] theorem State.setArch_landing (s : State) (n : Nat) (a : ArchSt) (j : Nat) : (s.setArch n a).landing j = s.landing j := rfl
@[simp] theorem State.setArch_progAt (s : State) (n : Nat) (a : ArchSt) (j i : Nat) : (s.setArch n a).progAt j i = s.progAt j i := rfl
@[simp] theorem State.setArch_handleEntry (s : State) (n : Nat) (a : ArchSt) (j i : Nat) : (s.setArch n a).handleEntry j i = s.handleEntry j i := rfl
@[simp] theorem State.setArch_memByte (s : State) (n : Nat) (a : ArchSt) (j : Nat) : (s.setArch n a).memByte j = s.memByte j := rfl
@[simp] theorem State.setArch_stream (s : State) (n : Nat) (a : ArchSt) (j : Nat) : (s.setArch n a).stream j = s.stream j := rfl
@[simp] theorem State.setArch_jobOf (s : State) (n : Nat) (a : ArchSt) (j : Nat) : (s.setArch n a).jobOf j = s.jobOf j := rfl
@[simp] theorem State.setArch_openStepOf (s : State) (n : Nat) (a : ArchSt) (j : Nat) : (s.setArch n a).openStepOf j = s.openStepOf j := rfl
@[simp] theorem State.modEpisode_odGet (s : State) (n : Nat) (g : Episode → Episode) (j : Nat) : (s.modEpisode n g).odGet j = s.odGet j := rfl
@[simp] theorem State.modEpisode_domGet (s : State) (n : Nat) (g : Episode → Episode) (j : Nat) (d : Bytes) : (s.modEpisode n g).domGet j d = s.domGet j d := rfl
@[simp] theorem State.modEpisode_roleGet (s : State) (n : Nat) (g : Episode → Episode) (q : Role) (j : Nat) : (s.modEpisode n g).roleGet q j = s.roleGet q j := rfl
@[simp] theorem State.modEpisode_flight (s : State) (n : Nat) (g : Episode → Episode) (j : Nat) : (s.modEpisode n g).flight j = s.flight j := rfl
@[simp] theorem State.modEpisode_landing (s : State) (n : Nat) (g : Episode → Episode) (j : Nat) : (s.modEpisode n g).landing j = s.landing j := rfl
@[simp] theorem State.modEpisode_progAt (s : State) (n : Nat) (g : Episode → Episode) (j i : Nat) : (s.modEpisode n g).progAt j i = s.progAt j i := rfl
@[simp] theorem State.modEpisode_handleEntry (s : State) (n : Nat) (g : Episode → Episode) (j i : Nat) : (s.modEpisode n g).handleEntry j i = s.handleEntry j i := rfl
@[simp] theorem State.modEpisode_memByte (s : State) (n : Nat) (g : Episode → Episode) (j : Nat) : (s.modEpisode n g).memByte j = s.memByte j := rfl
@[simp] theorem State.modEpisode_stream (s : State) (n : Nat) (g : Episode → Episode) (j : Nat) : (s.modEpisode n g).stream j = s.stream j := rfl
@[simp] theorem State.modEpisode_jobOf (s : State) (n : Nat) (g : Episode → Episode) (j : Nat) : (s.modEpisode n g).jobOf j = s.jobOf j := rfl
@[simp] theorem State.modEpisode_openStepOf (s : State) (n : Nat) (g : Episode → Episode) (j : Nat) : (s.modEpisode n g).openStepOf j = s.openStepOf j := rfl
@[simp] theorem State.modEpisode_arch (s : State) (n : Nat) (g : Episode → Episode) (j : Nat) : (s.modEpisode n g).arch j = s.arch j := rfl
@[simp] theorem State.closeEpisode_odGet (s : State) (n : Nat) (j : Nat) : (s.closeEpisode n).odGet j = s.odGet j := rfl
@[simp] theorem State.closeEpisode_domGet (s : State) (n : Nat) (j : Nat) (d : Bytes) : (s.closeEpisode n).domGet j d = s.domGet j d := rfl
@[simp] theorem State.closeEpisode_roleGet (s : State) (n : Nat) (q : Role) (j : Nat) : (s.closeEpisode n).roleGet q j = s.roleGet q j := rfl
@[simp] theorem State.closeEpisode_flight (s : State) (n : Nat) (j : Nat) : (s.closeEpisode n).flight j = s.flight j := rfl
@[simp] theorem State.closeEpisode_landing (s : State) (n : Nat) (j : Nat) : (s.closeEpisode n).landing j = s.landing j := rfl
@[simp] theorem State.closeEpisode_progAt (s : State) (n : Nat) (j i : Nat) : (s.closeEpisode n).progAt j i = s.progAt j i := rfl
@[simp] theorem State.closeEpisode_handleEntry (s : State) (n : Nat) (j i : Nat) : (s.closeEpisode n).handleEntry j i = s.handleEntry j i := rfl
@[simp] theorem State.closeEpisode_memByte (s : State) (n : Nat) (j : Nat) : (s.closeEpisode n).memByte j = s.memByte j := rfl
@[simp] theorem State.closeEpisode_stream (s : State) (n : Nat) (j : Nat) : (s.closeEpisode n).stream j = s.stream j := rfl
@[simp] theorem State.closeEpisode_jobOf (s : State) (n : Nat) (j : Nat) : (s.closeEpisode n).jobOf j = s.jobOf j := rfl
@[simp] theorem State.closeEpisode_openStepOf (s : State) (n : Nat) (j : Nat) : (s.closeEpisode n).openStepOf j = s.openStepOf j := rfl
@[simp] theorem State.closeEpisode_arch (s : State) (n : Nat) (j : Nat) : (s.closeEpisode n).arch j = s.arch j := rfl
@[simp] theorem State.closeSettled_odGet (s : State) (j : Nat) : (s.closeSettled).odGet j = s.odGet j := rfl
@[simp] theorem State.closeSettled_domGet (s : State) (j : Nat) (d : Bytes) : (s.closeSettled).domGet j d = s.domGet j d := rfl
@[simp] theorem State.closeSettled_roleGet (s : State) (q : Role) (j : Nat) : (s.closeSettled).roleGet q j = s.roleGet q j := rfl
@[simp] theorem State.closeSettled_flight (s : State) (j : Nat) : (s.closeSettled).flight j = s.flight j := rfl
@[simp] theorem State.closeSettled_landing (s : State) (j : Nat) : (s.closeSettled).landing j = s.landing j := rfl
@[simp] theorem State.closeSettled_progAt (s : State) (j i : Nat) : (s.closeSettled).progAt j i = s.progAt j i := rfl
@[simp] theorem State.closeSettled_handleEntry (s : State) (j i : Nat) : (s.closeSettled).handleEntry j i = s.handleEntry j i := rfl
@[simp] theorem State.closeSettled_memByte (s : State) (j : Nat) : (s.closeSettled).memByte j = s.memByte j := rfl
@[simp] theorem State.closeSettled_stream (s : State) (j : Nat) : (s.closeSettled).stream j = s.stream j := rfl
@[simp] theorem State.closeSettled_jobOf (s : State) (j : Nat) : (s.closeSettled).jobOf j = s.jobOf j := rfl
@[simp] theorem State.closeSettled_openStepOf (s : State) (j : Nat) : (s.closeSettled).openStepOf j = s.openStepOf j := rfl
@[simp] theorem State.closeSettled_arch (s : State) (j : Nat) : (s.closeSettled).arch j = s.arch j := rfl
@[simp] theorem State.modCell_odGet (s : State) (e : Nat) (g : CellSt → CellSt) (j : Nat) : (s.modCell e g).odGet j = s.odGet j := rfl
@[simp] theorem State.modCell_domGet (s : State) (e : Nat) (g : CellSt → CellSt) (j : Nat) (d : Bytes) : (s.modCell e g).domGet j d = s.domGet j d := rfl
@[simp] theorem State.modCell_roleGet (s : State) (e : Nat) (g : CellSt → CellSt) (q : Role) (j : Nat) : (s.modCell e g).roleGet q j = s.roleGet q j := rfl
@[simp] theorem State.modCell_flight (s : State) (e : Nat) (g : CellSt → CellSt) (j : Nat) : (s.modCell e g).flight j = s.flight j := rfl
@[simp] theorem State.modCell_landing (s : State) (e : Nat) (g : CellSt → CellSt) (j : Nat) : (s.modCell e g).landing j = s.landing j := rfl
@[simp] theorem State.modCell_progAt (s : State) (e : Nat) (g : CellSt → CellSt) (j i : Nat) : (s.modCell e g).progAt j i = s.progAt j i := rfl
@[simp] theorem State.modCell_handleEntry (s : State) (e : Nat) (g : CellSt → CellSt) (j i : Nat) : (s.modCell e g).handleEntry j i = s.handleEntry j i := rfl
@[simp] theorem State.modCell_memByte (s : State) (e : Nat) (g : CellSt → CellSt) (j : Nat) : (s.modCell e g).memByte j = s.memByte j := rfl
@[simp] theorem State.modCell_stream (s : State) (e : Nat) (g : CellSt → CellSt) (j : Nat) : (s.modCell e g).stream j = s.stream j := rfl
@[simp] theorem State.modCell_jobOf (s : State) (e : Nat) (g : CellSt → CellSt) (j : Nat) : (s.modCell e g).jobOf j = s.jobOf j := rfl
@[simp] theorem State.modCell_openStepOf (s : State) (e : Nat) (g : CellSt → CellSt) (j : Nat) : (s.modCell e g).openStepOf j = s.openStepOf j := rfl
@[simp] theorem State.modCell_arch (s : State) (e : Nat) (g : CellSt → CellSt) (j : Nat) : (s.modCell e g).arch j = s.arch j := rfl
@[simp] theorem State.dropCell_odGet (s : State) (e : Nat) (j : Nat) : (s.dropCell e).odGet j = s.odGet j := rfl
@[simp] theorem State.dropCell_domGet (s : State) (e : Nat) (j : Nat) (d : Bytes) : (s.dropCell e).domGet j d = s.domGet j d := rfl
@[simp] theorem State.dropCell_roleGet (s : State) (e : Nat) (q : Role) (j : Nat) : (s.dropCell e).roleGet q j = s.roleGet q j := rfl
@[simp] theorem State.dropCell_flight (s : State) (e : Nat) (j : Nat) : (s.dropCell e).flight j = s.flight j := rfl
@[simp] theorem State.dropCell_landing (s : State) (e : Nat) (j : Nat) : (s.dropCell e).landing j = s.landing j := rfl
@[simp] theorem State.dropCell_progAt (s : State) (e : Nat) (j i : Nat) : (s.dropCell e).progAt j i = s.progAt j i := rfl
@[simp] theorem State.dropCell_handleEntry (s : State) (e : Nat) (j i : Nat) : (s.dropCell e).handleEntry j i = s.handleEntry j i := rfl
@[simp] theorem State.dropCell_memByte (s : State) (e : Nat) (j : Nat) : (s.dropCell e).memByte j = s.memByte j := rfl
@[simp] theorem State.dropCell_stream (s : State) (e : Nat) (j : Nat) : (s.dropCell e).stream j = s.stream j := rfl
@[simp] theorem State.dropCell_jobOf (s : State) (e : Nat) (j : Nat) : (s.dropCell e).jobOf j = s.jobOf j := rfl
@[simp] theorem State.dropCell_openStepOf (s : State) (e : Nat) (j : Nat) : (s.dropCell e).openStepOf j = s.openStepOf j := rfl
@[simp] theorem State.dropCell_arch (s : State) (e : Nat) (j : Nat) : (s.dropCell e).arch j = s.arch j := rfl
@[simp] theorem State.endTransfers_flight (s : State) (p : Transfer → Bool) (j : Nat) : (s.endTransfers p).flight j = s.flight j := rfl
@[simp] theorem State.endTransfers_landing (s : State) (p : Transfer → Bool) (j : Nat) : (s.endTransfers p).landing j = s.landing j := rfl
@[simp] theorem State.endTransfers_progAt (s : State) (p : Transfer → Bool) (j i : Nat) : (s.endTransfers p).progAt j i = s.progAt j i := rfl
@[simp] theorem State.endTransfers_handleEntry (s : State) (p : Transfer → Bool) (j i : Nat) : (s.endTransfers p).handleEntry j i = s.handleEntry j i := rfl
@[simp] theorem State.endTransfers_memByte (s : State) (p : Transfer → Bool) (j : Nat) : (s.endTransfers p).memByte j = s.memByte j := rfl
@[simp] theorem State.endTransfers_stream (s : State) (p : Transfer → Bool) (j : Nat) : (s.endTransfers p).stream j = s.stream j := rfl
@[simp] theorem State.endTransfers_jobOf (s : State) (p : Transfer → Bool) (j : Nat) : (s.endTransfers p).jobOf j = s.jobOf j := rfl
@[simp] theorem State.endTransfers_openStepOf (s : State) (p : Transfer → Bool) (j : Nat) : (s.endTransfers p).openStepOf j = s.openStepOf j := rfl
@[simp] theorem State.endTransfers_arch (s : State) (p : Transfer → Bool) (j : Nat) : (s.endTransfers p).arch j = s.arch j := rfl
@[simp] theorem State.dropXlate_odGet (s : State) (t : Nat) (p : XEntry → Bool) (j : Nat) : (s.dropXlate t p).odGet j = s.odGet j := rfl
@[simp] theorem State.dropXlate_domGet (s : State) (t : Nat) (p : XEntry → Bool) (j : Nat) (d : Bytes) : (s.dropXlate t p).domGet j d = s.domGet j d := rfl
@[simp] theorem State.dropXlate_roleGet (s : State) (t : Nat) (p : XEntry → Bool) (q : Role) (j : Nat) : (s.dropXlate t p).roleGet q j = s.roleGet q j := rfl
@[simp] theorem State.dropXlate_flight (s : State) (t : Nat) (p : XEntry → Bool) (j : Nat) : (s.dropXlate t p).flight j = s.flight j := rfl
@[simp] theorem State.dropXlate_landing (s : State) (t : Nat) (p : XEntry → Bool) (j : Nat) : (s.dropXlate t p).landing j = s.landing j := rfl
@[simp] theorem State.dropXlate_progAt (s : State) (t : Nat) (p : XEntry → Bool) (j i : Nat) : (s.dropXlate t p).progAt j i = s.progAt j i := rfl
@[simp] theorem State.dropXlate_handleEntry (s : State) (t : Nat) (p : XEntry → Bool) (j i : Nat) : (s.dropXlate t p).handleEntry j i = s.handleEntry j i := rfl
@[simp] theorem State.dropXlate_memByte (s : State) (t : Nat) (p : XEntry → Bool) (j : Nat) : (s.dropXlate t p).memByte j = s.memByte j := rfl
@[simp] theorem State.dropXlate_stream (s : State) (t : Nat) (p : XEntry → Bool) (j : Nat) : (s.dropXlate t p).stream j = s.stream j := rfl
@[simp] theorem State.dropXlate_jobOf (s : State) (t : Nat) (p : XEntry → Bool) (j : Nat) : (s.dropXlate t p).jobOf j = s.jobOf j := rfl
@[simp] theorem State.dropXlate_openStepOf (s : State) (t : Nat) (p : XEntry → Bool) (j : Nat) : (s.dropXlate t p).openStepOf j = s.openStepOf j := rfl
@[simp] theorem State.dropXlate_arch (s : State) (t : Nat) (p : XEntry → Bool) (j : Nat) : (s.dropXlate t p).arch j = s.arch j := rfl
@[simp] theorem State.addDesc_odGet (s : State) (e : Desc) (j : Nat) : (s.addDesc e).odGet j = s.odGet j := rfl
@[simp] theorem State.addDesc_domGet (s : State) (e : Desc) (j : Nat) (d : Bytes) : (s.addDesc e).domGet j d = s.domGet j d := rfl
@[simp] theorem State.addDesc_roleGet (s : State) (e : Desc) (q : Role) (j : Nat) : (s.addDesc e).roleGet q j = s.roleGet q j := rfl
@[simp] theorem State.addDesc_flight (s : State) (e : Desc) (j : Nat) : (s.addDesc e).flight j = s.flight j := rfl
@[simp] theorem State.addDesc_landing (s : State) (e : Desc) (j : Nat) : (s.addDesc e).landing j = s.landing j := rfl
@[simp] theorem State.addDesc_progAt (s : State) (e : Desc) (j i : Nat) : (s.addDesc e).progAt j i = s.progAt j i := rfl
@[simp] theorem State.addDesc_handleEntry (s : State) (e : Desc) (j i : Nat) : (s.addDesc e).handleEntry j i = s.handleEntry j i := rfl
@[simp] theorem State.addDesc_memByte (s : State) (e : Desc) (j : Nat) : (s.addDesc e).memByte j = s.memByte j := rfl
@[simp] theorem State.addDesc_stream (s : State) (e : Desc) (j : Nat) : (s.addDesc e).stream j = s.stream j := rfl
@[simp] theorem State.addDesc_jobOf (s : State) (e : Desc) (j : Nat) : (s.addDesc e).jobOf j = s.jobOf j := rfl
@[simp] theorem State.addDesc_openStepOf (s : State) (e : Desc) (j : Nat) : (s.addDesc e).openStepOf j = s.openStepOf j := rfl
@[simp] theorem State.addDesc_arch (s : State) (e : Desc) (j : Nat) : (s.addDesc e).arch j = s.arch j := rfl
@[simp] theorem State.modDesc_odGet (s : State) (id : Nat) (g : Desc → Desc) (j : Nat) : (s.modDesc id g).odGet j = s.odGet j := rfl
@[simp] theorem State.modDesc_domGet (s : State) (id : Nat) (g : Desc → Desc) (j : Nat) (d : Bytes) : (s.modDesc id g).domGet j d = s.domGet j d := rfl
@[simp] theorem State.modDesc_roleGet (s : State) (id : Nat) (g : Desc → Desc) (q : Role) (j : Nat) : (s.modDesc id g).roleGet q j = s.roleGet q j := rfl
@[simp] theorem State.modDesc_flight (s : State) (id : Nat) (g : Desc → Desc) (j : Nat) : (s.modDesc id g).flight j = s.flight j := rfl
@[simp] theorem State.modDesc_landing (s : State) (id : Nat) (g : Desc → Desc) (j : Nat) : (s.modDesc id g).landing j = s.landing j := rfl
@[simp] theorem State.modDesc_progAt (s : State) (id : Nat) (g : Desc → Desc) (j i : Nat) : (s.modDesc id g).progAt j i = s.progAt j i := rfl
@[simp] theorem State.modDesc_handleEntry (s : State) (id : Nat) (g : Desc → Desc) (j i : Nat) : (s.modDesc id g).handleEntry j i = s.handleEntry j i := rfl
@[simp] theorem State.modDesc_memByte (s : State) (id : Nat) (g : Desc → Desc) (j : Nat) : (s.modDesc id g).memByte j = s.memByte j := rfl
@[simp] theorem State.modDesc_stream (s : State) (id : Nat) (g : Desc → Desc) (j : Nat) : (s.modDesc id g).stream j = s.stream j := rfl
@[simp] theorem State.modDesc_jobOf (s : State) (id : Nat) (g : Desc → Desc) (j : Nat) : (s.modDesc id g).jobOf j = s.jobOf j := rfl
@[simp] theorem State.modDesc_openStepOf (s : State) (id : Nat) (g : Desc → Desc) (j : Nat) : (s.modDesc id g).openStepOf j = s.openStepOf j := rfl
@[simp] theorem State.modDesc_arch (s : State) (id : Nat) (g : Desc → Desc) (j : Nat) : (s.modDesc id g).arch j = s.arch j := rfl
@[simp] theorem State.dropRequest_odGet (s : State) (r : PageReq) (j : Nat) : (s.dropRequest r).odGet j = s.odGet j := rfl
@[simp] theorem State.dropRequest_domGet (s : State) (r : PageReq) (j : Nat) (d : Bytes) : (s.dropRequest r).domGet j d = s.domGet j d := rfl
@[simp] theorem State.dropRequest_roleGet (s : State) (r : PageReq) (q : Role) (j : Nat) : (s.dropRequest r).roleGet q j = s.roleGet q j := rfl
@[simp] theorem State.dropRequest_flight (s : State) (r : PageReq) (j : Nat) : (s.dropRequest r).flight j = s.flight j := rfl
@[simp] theorem State.dropRequest_landing (s : State) (r : PageReq) (j : Nat) : (s.dropRequest r).landing j = s.landing j := rfl
@[simp] theorem State.dropRequest_progAt (s : State) (r : PageReq) (j i : Nat) : (s.dropRequest r).progAt j i = s.progAt j i := rfl
@[simp] theorem State.dropRequest_handleEntry (s : State) (r : PageReq) (j i : Nat) : (s.dropRequest r).handleEntry j i = s.handleEntry j i := rfl
@[simp] theorem State.dropRequest_memByte (s : State) (r : PageReq) (j : Nat) : (s.dropRequest r).memByte j = s.memByte j := rfl
@[simp] theorem State.dropRequest_stream (s : State) (r : PageReq) (j : Nat) : (s.dropRequest r).stream j = s.stream j := rfl
@[simp] theorem State.dropRequest_jobOf (s : State) (r : PageReq) (j : Nat) : (s.dropRequest r).jobOf j = s.jobOf j := rfl
@[simp] theorem State.dropRequest_openStepOf (s : State) (r : PageReq) (j : Nat) : (s.dropRequest r).openStepOf j = s.openStepOf j := rfl
@[simp] theorem State.dropRequest_arch (s : State) (r : PageReq) (j : Nat) : (s.dropRequest r).arch j = s.arch j := rfl
@[simp] theorem State.modExch_odGet (s : State) (i0 : Nat) (g : ExchSt → ExchSt) (j : Nat) : (s.modExch i0 g).odGet j = s.odGet j := rfl
@[simp] theorem State.modExch_domGet (s : State) (i0 : Nat) (g : ExchSt → ExchSt) (j : Nat) (d : Bytes) : (s.modExch i0 g).domGet j d = s.domGet j d := rfl
@[simp] theorem State.modExch_roleGet (s : State) (i0 : Nat) (g : ExchSt → ExchSt) (q : Role) (j : Nat) : (s.modExch i0 g).roleGet q j = s.roleGet q j := rfl
@[simp] theorem State.modExch_flight (s : State) (i0 : Nat) (g : ExchSt → ExchSt) (j : Nat) : (s.modExch i0 g).flight j = s.flight j := rfl
@[simp] theorem State.modExch_landing (s : State) (i0 : Nat) (g : ExchSt → ExchSt) (j : Nat) : (s.modExch i0 g).landing j = s.landing j := rfl
@[simp] theorem State.modExch_progAt (s : State) (i0 : Nat) (g : ExchSt → ExchSt) (j i : Nat) : (s.modExch i0 g).progAt j i = s.progAt j i := rfl
@[simp] theorem State.modExch_handleEntry (s : State) (i0 : Nat) (g : ExchSt → ExchSt) (j i : Nat) : (s.modExch i0 g).handleEntry j i = s.handleEntry j i := rfl
@[simp] theorem State.modExch_memByte (s : State) (i0 : Nat) (g : ExchSt → ExchSt) (j : Nat) : (s.modExch i0 g).memByte j = s.memByte j := rfl
@[simp] theorem State.modExch_arch (s : State) (i0 : Nat) (g : ExchSt → ExchSt) (j : Nat) : (s.modExch i0 g).arch j = s.arch j := rfl
@[simp] theorem State.poolFree_odGet (s : State) (h n : Nat) (j : Nat) : (s.poolFree h n).odGet j = s.odGet j := rfl
@[simp] theorem State.poolFree_domGet (s : State) (h n : Nat) (j : Nat) (d : Bytes) : (s.poolFree h n).domGet j d = s.domGet j d := rfl
@[simp] theorem State.poolFree_roleGet (s : State) (h n : Nat) (q : Role) (j : Nat) : (s.poolFree h n).roleGet q j = s.roleGet q j := rfl
@[simp] theorem State.poolFree_flight (s : State) (h n : Nat) (j : Nat) : (s.poolFree h n).flight j = s.flight j := rfl
@[simp] theorem State.poolFree_landing (s : State) (h n : Nat) (j : Nat) : (s.poolFree h n).landing j = s.landing j := rfl
@[simp] theorem State.poolFree_progAt (s : State) (h n : Nat) (j i : Nat) : (s.poolFree h n).progAt j i = s.progAt j i := rfl
@[simp] theorem State.poolFree_handleEntry (s : State) (h n : Nat) (j i : Nat) : (s.poolFree h n).handleEntry j i = s.handleEntry j i := rfl
@[simp] theorem State.poolFree_memByte (s : State) (h n : Nat) (j : Nat) : (s.poolFree h n).memByte j = s.memByte j := rfl
@[simp] theorem State.poolFree_arch (s : State) (h n : Nat) (j : Nat) : (s.poolFree h n).arch j = s.arch j := rfl
@[simp] theorem State.noteVector_odGet (s : State) (b : Buf) (l n : Nat) (j : Nat) : (s.noteVector b l n).odGet j = s.odGet j := rfl
@[simp] theorem State.noteVector_domGet (s : State) (b : Buf) (l n : Nat) (j : Nat) (d : Bytes) : (s.noteVector b l n).domGet j d = s.domGet j d := rfl
@[simp] theorem State.noteVector_roleGet (s : State) (b : Buf) (l n : Nat) (q : Role) (j : Nat) : (s.noteVector b l n).roleGet q j = s.roleGet q j := rfl
@[simp] theorem State.noteVector_memByte (s : State) (b : Buf) (l n : Nat) (j : Nat) : (s.noteVector b l n).memByte j = s.memByte j := rfl
@[simp] theorem State.noteVector_stream (s : State) (b : Buf) (l n : Nat) (j : Nat) : (s.noteVector b l n).stream j = s.stream j := rfl
@[simp] theorem State.noteVector_jobOf (s : State) (b : Buf) (l n : Nat) (j : Nat) : (s.noteVector b l n).jobOf j = s.jobOf j := rfl
@[simp] theorem State.noteVector_openStepOf (s : State) (b : Buf) (l n : Nat) (j : Nat) : (s.noteVector b l n).openStepOf j = s.openStepOf j := rfl
@[simp] theorem State.noteVector_arch (s : State) (b : Buf) (l n : Nat) (j : Nat) : (s.noteVector b l n).arch j = s.arch j := rfl
@[simp] theorem State.disown_odGet (s : State) (n : Nat) (j : Nat) : (s.disown n).odGet j = s.odGet j := rfl
@[simp] theorem State.disown_domGet (s : State) (n : Nat) (j : Nat) (d : Bytes) : (s.disown n).domGet j d = s.domGet j d := rfl
@[simp] theorem State.disown_roleGet (s : State) (n : Nat) (q : Role) (j : Nat) : (s.disown n).roleGet q j = s.roleGet q j := rfl
@[simp] theorem State.disown_flight (s : State) (n : Nat) (j : Nat) : (s.disown n).flight j = s.flight j := rfl
@[simp] theorem State.disown_landing (s : State) (n : Nat) (j : Nat) : (s.disown n).landing j = s.landing j := rfl
@[simp] theorem State.disown_progAt (s : State) (n : Nat) (j i : Nat) : (s.disown n).progAt j i = s.progAt j i := rfl
@[simp] theorem State.disown_handleEntry (s : State) (n : Nat) (j i : Nat) : (s.disown n).handleEntry j i = s.handleEntry j i := rfl
@[simp] theorem State.disown_memByte (s : State) (n : Nat) (j : Nat) : (s.disown n).memByte j = s.memByte j := rfl
@[simp] theorem State.disown_stream (s : State) (n : Nat) (j : Nat) : (s.disown n).stream j = s.stream j := rfl
@[simp] theorem State.disown_jobOf (s : State) (n : Nat) (j : Nat) : (s.disown n).jobOf j = s.jobOf j := rfl
@[simp] theorem State.disown_openStepOf (s : State) (n : Nat) (j : Nat) : (s.disown n).openStepOf j = s.openStepOf j := rfl
@[simp] theorem State.memMark_odGet (s : State) (a n : Nat) (p : Bool) (j : Nat) : (s.memMark a n p).odGet j = s.odGet j := rfl
@[simp] theorem State.memMark_domGet (s : State) (a n : Nat) (p : Bool) (j : Nat) (d : Bytes) : (s.memMark a n p).domGet j d = s.domGet j d := rfl
@[simp] theorem State.memMark_roleGet (s : State) (a n : Nat) (p : Bool) (q : Role) (j : Nat) : (s.memMark a n p).roleGet q j = s.roleGet q j := rfl
@[simp] theorem State.memMark_flight (s : State) (a n : Nat) (p : Bool) (j : Nat) : (s.memMark a n p).flight j = s.flight j := rfl
@[simp] theorem State.memMark_landing (s : State) (a n : Nat) (p : Bool) (j : Nat) : (s.memMark a n p).landing j = s.landing j := rfl
@[simp] theorem State.memMark_progAt (s : State) (a n : Nat) (p : Bool) (j i : Nat) : (s.memMark a n p).progAt j i = s.progAt j i := rfl
@[simp] theorem State.memMark_handleEntry (s : State) (a n : Nat) (p : Bool) (j i : Nat) : (s.memMark a n p).handleEntry j i = s.handleEntry j i := rfl
@[simp] theorem State.memMark_stream (s : State) (a n : Nat) (p : Bool) (j : Nat) : (s.memMark a n p).stream j = s.stream j := rfl
@[simp] theorem State.memMark_jobOf (s : State) (a n : Nat) (p : Bool) (j : Nat) : (s.memMark a n p).jobOf j = s.jobOf j := rfl
@[simp] theorem State.memMark_openStepOf (s : State) (a n : Nat) (p : Bool) (j : Nat) : (s.memMark a n p).openStepOf j = s.openStepOf j := rfl
@[simp] theorem State.memMark_arch (s : State) (a n : Nat) (p : Bool) (j : Nat) : (s.memMark a n p).arch j = s.arch j := rfl
@[simp] theorem State.takePlane_odGet (s : State) (fk : Nat) (m : KMap Nat) (b : Bool) (j : Nat) : (s.takePlane fk m b).odGet j = s.odGet j := rfl
@[simp] theorem State.takePlane_domGet (s : State) (fk : Nat) (m : KMap Nat) (b : Bool) (j : Nat) (d : Bytes) : (s.takePlane fk m b).domGet j d = s.domGet j d := rfl
@[simp] theorem State.takePlane_roleGet (s : State) (fk : Nat) (m : KMap Nat) (b : Bool) (q : Role) (j : Nat) : (s.takePlane fk m b).roleGet q j = s.roleGet q j := rfl
@[simp] theorem State.takePlane_memByte (s : State) (fk : Nat) (m : KMap Nat) (b : Bool) (j : Nat) : (s.takePlane fk m b).memByte j = s.memByte j := rfl
@[simp] theorem State.takePlane_stream (s : State) (fk : Nat) (m : KMap Nat) (b : Bool) (j : Nat) : (s.takePlane fk m b).stream j = s.stream j := rfl
@[simp] theorem State.takePlane_jobOf (s : State) (fk : Nat) (m : KMap Nat) (b : Bool) (j : Nat) : (s.takePlane fk m b).jobOf j = s.jobOf j := rfl
@[simp] theorem State.takePlane_openStepOf (s : State) (fk : Nat) (m : KMap Nat) (b : Bool) (j : Nat) : (s.takePlane fk m b).openStepOf j = s.openStepOf j := rfl
@[simp] theorem State.takePlane_arch (s : State) (fk : Nat) (m : KMap Nat) (b : Bool) (j : Nat) : (s.takePlane fk m b).arch j = s.arch j := rfl
@[simp] theorem State.opDone_memByte (s : State) (c : OpCtx) (j : Nat) : (s.opDone c).memByte j = s.memByte j := rfl
@[simp] theorem State.opDone_stream (s : State) (c : OpCtx) (j : Nat) : (s.opDone c).stream j = s.stream j := rfl
@[simp] theorem State.opDone_jobOf (s : State) (c : OpCtx) (j : Nat) : (s.opDone c).jobOf j = s.jobOf j := rfl
@[simp] theorem State.opDone_openStepOf (s : State) (c : OpCtx) (j : Nat) : (s.opDone c).openStepOf j = s.openStepOf j := rfl
@[simp] theorem State.opDone_arch (s : State) (c : OpCtx) (j : Nat) : (s.opDone c).arch j = s.arch j := rfl
@[simp] theorem State.opOpen_memByte (s : State) (c : OpCtx) (j : Nat) : (s.opOpen c).memByte j = s.memByte j := rfl
@[simp] theorem State.opOpen_stream (s : State) (c : OpCtx) (j : Nat) : (s.opOpen c).stream j = s.stream j := rfl
@[simp] theorem State.opOpen_jobOf (s : State) (c : OpCtx) (j : Nat) : (s.opOpen c).jobOf j = s.jobOf j := rfl
@[simp] theorem State.opOpen_openStepOf (s : State) (c : OpCtx) (j : Nat) : (s.opOpen c).openStepOf j = s.openStepOf j := rfl
@[simp] theorem State.opOpen_arch (s : State) (c : OpCtx) (j : Nat) : (s.opOpen c).arch j = s.arch j := rfl

/-! ### What the updates write -/

/-- An entry read after it is put. -/
@[simp] theorem State.odGet_odPut_self (s : State) (k v : Nat) : (s.odPut k v).odGet k = v := by
  simp [State.odGet, State.odPut]

theorem State.odGet_odPut_ne (s : State) {k j : Nat} (h : j ≠ k) (v : Nat) : (s.odPut k v).odGet j = s.odGet j :=
  kget_kset_ne h _ _ v s.od.vals

/-- A counter after it has counted. -/
@[simp] theorem State.odGet_count_self (s : State) (k n : Nat) : (s.count k n).odGet k = (s.odGet k + n) % odModulus k := by
  simp [State.count]

theorem State.odGet_count_ne (s : State) {k j : Nat} (h : j ≠ k) (n : Nat) : (s.count k n).odGet j = s.odGet j :=
  s.odGet_odPut_ne h _

/-- A flight read after it is set. -/
@[simp] theorem State.flight_setFlight_self (s : State) (k : Nat) (x : FlightSt) : (s.setFlight k x).flight k = x := by
  simp [State.flight, State.setFlight]

theorem State.flight_setFlight_ne (s : State) {k j : Nat} (h : j ≠ k) (x : FlightSt) : (s.setFlight k x).flight j = s.flight j :=
  kget_kset_ne h _ _ x s.halls.flights

@[simp] theorem State.landing_setFlight (s : State) (k : Nat) (x : FlightSt) (l : Nat) : (s.setFlight k x).landing l = s.landing l := rfl

@[simp] theorem State.flight_setLanding (s : State) (l : Nat) (x : Landing) (k : Nat) : (s.setLanding l x).flight k = s.flight k := rfl

/-- A landing read after it is set. -/
@[simp] theorem State.landing_setLanding_self (s : State) (l : Nat) (x : Landing) : (s.setLanding l x).landing l = x := by
  simp [State.landing, State.setLanding]

theorem State.landing_setLanding_ne (s : State) {l j : Nat} (h : j ≠ l) (x : Landing) : (s.setLanding l x).landing j = s.landing j :=
  kget_kset_ne h _ _ x s.halls.landings

/-- A handle table entry read after it is set. -/
@[simp] theorem State.handleEntry_setHandle_self (s : State) (l h e : Nat) : (s.setHandle l h e).handleEntry l h = e := by
  simp [State.handleEntry, State.setHandle]

/-- A tile read after it is set. -/
@[simp] theorem State.tile_setTile_self (s : State) (k i : Nat) (t : Tile) : ((s.setTile k i t).flight k).tile i = t := by
  simp [State.setTile, FlightSt.tile]

theorem State.tile_setTile_ne (s : State) (k : Nat) {i j : Nat} (h : j ≠ i) (t : Tile) :
    ((s.setTile k i t).flight k).tile j = (s.flight k).tile j := by
  simp [State.setTile, FlightSt.tile, kget_kset_ne h]

/-- A stream read after its record is set. -/
@[simp] theorem State.stream_setStream_self (s : State) (i : Nat) (r : StreamRec) : (s.setStream i r).stream i = r := by
  simp [State.stream, State.setStream]

theorem State.stream_setStream_ne (s : State) {i j : Nat} (h : j ≠ i) (r : StreamRec) : (s.setStream i r).stream j = s.stream j :=
  kget_kset_ne h _ _ r s.serve.streams

@[simp] theorem State.stream_modStream_self (s : State) (i : Nat) (f : StreamRec → StreamRec) :
    (s.modStream i f).stream i = f (s.stream i) := by simp [State.modStream]

/-- The program in a slot after it is changed, where the change keeps its slot. -/
theorem State.progAt_modProg_self (s : State) (fk slot : Nat) {f : Prog → Prog} (hf : ∀ p, (f p).slot = p.slot) :
    (s.modProg fk slot f).progAt fk slot = (s.progAt fk slot).map f := by
  simp only [State.progAt, State.modProg, State.flight_setFlight_self]
  induction (s.flight fk).progs with
  | nil => rfl
  | cons p t ih =>
    simp only [modFirst]
    split
    · rename_i h
      simp [List.find?, h, hf]
    · rename_i h
      simp only [List.find?, h, ih]

/-- A program in another slot is as it was. -/
theorem State.progAt_modProg_ne (s : State) (fk : Nat) {slot sl : Nat} (h : sl ≠ slot) {f : Prog → Prog} (hf : ∀ p, (f p).slot = p.slot) :
    (s.modProg fk slot f).progAt fk sl = s.progAt fk sl := by
  simp only [State.progAt, State.modProg, State.flight_setFlight_self]
  induction (s.flight fk).progs with
  | nil => rfl
  | cons p t ih =>
    simp only [modFirst]
    split
    · rename_i hp
      have : p.slot = slot := by simpa using hp
      simp [List.find?, hf, this, beq_eq_false_iff_ne.mpr (Ne.symm h)]
    · simp only [List.find?]
      rw [ih]

end Sys2Proof.Machine
end

