-- ==== Sys2Proof/Laws/Log.lean ====
section
/-!
SUPPORT. Laws/Log.lean: what counting, signalling and logging leave as it was: everything but the dictionary, the log, Newel, the CXL port and the
messages that leave.
-/

namespace Sys2Proof.Machine

/-- Two states differ at most in the dictionary, the log, Newel, the CXL port and the messages. -/
structure LogFrame (s t : State) : Prop where
  pending : t.pending = s.pending
  epoch : t.epoch = s.epoch
  mode : t.mode = s.mode
  trans : t.trans = s.trans
  free : t.free = s.free
  eop : t.eop = s.eop
  halls : t.halls = s.halls
  mem : t.mem = s.mem
  xlate : t.xlate = s.xlate
  serve : t.serve = s.serve
  arcade : t.arcade = s.arcade
  foyer : t.foyer = s.foyer
  power : t.power = s.power
  start : t.start = s.start
  test : t.test = s.test

theorem LogFrame.refl (s : State) : LogFrame s s := by constructor <;> rfl

theorem LogFrame.step {s t u : State} (h : LogFrame s t) (k : LogFrame t u) : LogFrame s u :=
  ⟨k.pending.trans h.pending, k.epoch.trans h.epoch, k.mode.trans h.mode, k.trans.trans h.trans, k.free.trans h.free, k.eop.trans h.eop, k.halls.trans h.halls, k.mem.trans h.mem, k.xlate.trans h.xlate, k.serve.trans h.serve, k.arcade.trans h.arcade, k.foyer.trans h.foyer, k.power.trans h.power, k.start.trans h.start, k.test.trans h.test⟩

theorem State.odPut_frame (s : State) (k v : Nat) : LogFrame s (s.odPut k v) := by constructor <;> rfl

theorem State.count_frame (s : State) (k n : Nat) : LogFrame s (s.count k n) := by constructor <;> rfl

theorem State.rolePut_frame (s : State) (r : Role) (k v : Nat) : LogFrame s (s.rolePut r k v) := by constructor <;> rfl

theorem State.domPut_frame (s : State) (k : Nat) (v : Bytes) : LogFrame s (s.domPut k v) := by constructor <;> rfl

theorem State.emit_frame (s : State) (m : OutMsg) : LogFrame s (s.emit m) := by constructor <;> rfl

theorem State.modEpisode_frame (s : State) (n : Nat) (f : Episode → Episode) : LogFrame s (s.modEpisode n f) := by constructor <;> rfl

theorem State.closeEpisode_frame (s : State) (n : Nat) : LogFrame s (s.closeEpisode n) := by constructor <;> rfl

theorem State.closeSettled_frame (s : State) : LogFrame s (s.closeSettled) := by constructor <;> rfl

theorem State.signal_frame (s : State) (v : Nat) : LogFrame s (s.signal v) := by
  unfold State.signal
  split
  · exact .refl s
  · split
    · constructor <;> rfl
    · exact s.emit_frame _

theorem State.addEvent_frame (s : State) (r : LogRec) : LogFrame s (s.addEvent r) := by
  have h : LogFrame s { s with cxl := s.cxl.addEvent r } := by constructor <;> rfl
  unfold State.addEvent
  simp only
  split
  · split
    · exact h.step (State.signal_frame _ 0)
    · exact h
  · split
    · exact h.step (State.signal_frame _ 0)
    · exact h
  · split
    · exact h.step (State.signal_frame _ 0)
    · exact h
  · split
    · exact h.step (State.signal_frame _ 0)
    · exact h

/-- R484: a record that enters the ring. -/
theorem State.ringPut_frame (s : State) (r : LogRec) : LogFrame s (s.ringPut r) := by
  unfold State.ringPut
  constructor <;> rfl

/-- R486: a record that enters the error record buffer, or is counted. -/
theorem State.bufferPut_frame (s : State) (r : LogRec) : LogFrame s (s.bufferPut r) := by
  have h : LogFrame s { s with log := { s.log with buffer := s.log.buffer ++ [r] } } := by constructor <;> rfl
  unfold State.bufferPut
  split
  · exact (h.step (State.signal_frame _ _)).step (State.addEvent_frame _ r)
  · exact s.count_frame _ _

/-- R484 to R487: writing a record. -/
theorem State.record_frame (s : State) (ev : LogEv) (extra n time e q : Nat) : LogFrame s (s.record ev extra n time e q) := by
  unfold State.record
  simp only
  split
  · exact s.ringPut_frame _
  · exact (((s.ringPut_frame _).step (State.odPut_frame _ _ _)).step (State.odPut_frame _ _ _)).step (State.bufferPut_frame _ _)

/-- R479: an event that reaches the log, or waits for it. -/
theorem State.logEv_frame (s : State) (ev : LogEv) (extra : Nat) : LogFrame s (s.logEv ev extra) := by
  unfold State.logEv
  split
  · split
    · constructor <;> rfl
    · exact s.count_frame _ _
  · exact s.record_frame _ _ _ _ _ _

/-- Counting on a list of counters. -/
theorem State.counts_frame (s : State) (l : List (Nat × Nat)) : LogFrame s (s.counts l) :=
  foldl_keeps (fun t => LogFrame s t) _ (fun t _ h => h.step (t.count_frame _ _)) l (.refl s)

/-- R485: a code that is logged at most once per interval. -/
theorem State.logLimited_frame (s : State) (ev : LogEv) (subject interval : Nat) : LogFrame s (s.logLimited ev subject interval) := by
  unfold State.logLimited
  split
  · constructor <;> rfl
  · exact (s.logEv_frame ev 0).step (by constructor <;> rfl)

end Sys2Proof.Machine
end

