-- ==== Sys2Proof/Laws/Foot.lean ====
section
/-!
SUPPORT. Laws/Foot.lean: what accumulation into a tile does (R77, R81, R82, R108), what a pass leaves as it was, and the residue arithmetic (R119, R120):
where no upset strikes, no residue check fails.
-/

namespace Sys2Proof.Machine

/-! ### Residues (R119, R120) -/

/-- The residue of a value is the value mod 7. -/
theorem res7_int (x : Int) : (res7 x : Int) = x % 7 := by unfold res7; omega

theorem res7_add (x y : Int) : res7 (x + y) = (res7 x + res7 y) % 7 := by
  zify [res7_int]; exact Int.add_emod x y 7

theorem res7_mul (x y : Int) : res7 (x * y) = res7 x * res7 y % 7 := by
  zify [res7_int]; exact Int.mul_emod x y 7

theorem res7_lt (x : Int) : res7 x % 7 = res7 x := by unfold res7; omega

/-- R120: 2^k mod 7. -/
theorem res7_two_pow (k : Nat) : res7 (2 ^ k) = pow7 k := by
  induction k using Nat.strong_induction_on with
  | _ k ih =>
    match k with
    | 0 => rfl
    | 1 => rfl
    | 2 => rfl
    | n + 3 =>
      have h := ih n (by omega)
      rw [pow_add, res7_mul, h, show res7 ((2 : Int) ^ 3) = 1 from rfl]
      unfold pow7
      rw [show (n + 3) % 3 = n % 3 by omega]
      split
      · rfl
      · split <;> rfl

@[simp] theorem AccWord.of_good (x : Int) : (AccWord.of x).good = true := by simp [AccWord.of, AccWord.good]

@[simp] theorem AccWord.zero_good : AccWord.zero.good = true := rfl

/-- R120: a sound word and a lane's own residue pass the check of a promotion. -/
theorem AccWord.plus_ok {w : AccWord} (h : w.good = true) (n : Int) (k : Nat) : (w.plus n (res7 n) k).2 = true := by
  have h : res7 w.sum = w.res := by simpa [AccWord.good] using h
  simp only [AccWord.plus, beq_self_eq_true, Bool.true_and, beq_iff_eq]
  rw [res7_add, res7_mul, res7_two_pow, h]
  omega

/-! ### Maps whose values all hold a property -/

theorem all_kset {α : Type} [DecidableEq α] (p : α → Bool) (d : α) (k : Nat) (v : α) (hv : p v = true) (m : KMap α)
    (h : m.all (fun e => p e.2) = true) : (kset d k v m).all (fun e => p e.2) = true := by
  unfold kset
  split
  · exact all_kdel _ k h
  · exact all_kput (fun e => p e.2) hv h

theorem kfind_all {α : Type} (p : α → Bool) (k : Nat) (v : α) : ∀ m : KMap α, m.all (fun e => p e.2) = true → kfind k m = some v → p v = true
  | [], _, h => by simp [kfind] at h
  | (j, w) :: t, h, hk => by
    have h1 : p w = true ∧ t.all (fun e => p e.2) = true := by simpa using h
    unfold kfind at hk
    split at hk
    · cases hk; exact h1.1
    · exact kfind_all p k v t h1.2 hk

/-- The value at a key where every value, the default among them, holds a property. -/
theorem kget_all {α : Type} (p : α → Bool) (d : α) (hd : p d = true) (k : Nat) (m : KMap α) (h : m.all (fun e => p e.2) = true) :
    p (kget d k m) = true := by
  unfold kget
  cases hk : kfind k m with
  | none => exact hd
  | some v => exact kfind_all p k v m h hk

/-! ### Tiles -/

/-- The initialising accumulate makes a tile VALID. -/
@[simp] theorem Tile.init_valid (t : Tile) (fmt : Nat) (k : SkipInfo) : (t.init fmt k).valid = true := by
  unfold Tile.init
  split
  · assumption
  · rfl

/-- A released tile takes the format; a VALID tile keeps its own. -/
theorem Tile.init_fmt (t : Tile) (fmt : Nat) (k : SkipInfo) (h : t.valid = true → t.fmt = fmt) : (t.init fmt k).fmt = fmt := by
  unfold Tile.init
  split
  · exact h ‹_›
  · rfl

theorem Tile.init_sound (t : Tile) (fmt : Nat) (k : SkipInfo) (h : t.sound = true) : (t.init fmt k).sound = true := by
  unfold Tile.init
  split
  · exact h
  · rfl

theorem Tile.lower_tag (t : Tile) (e : Int) : (t.lower e).1.valid = t.valid ∧ (t.lower e).1.fmt = t.fmt ∧ (t.lower e).1.poison = t.poison := by
  unfold Tile.lower
  split
  · exact ⟨rfl, rfl, rfl⟩
  · split <;> exact ⟨rfl, rfl, rfl⟩

/-- R120: a rescale of sound words fails no check and leaves sound words. -/
theorem Tile.lower_sound (t : Tile) (e : Int) (h : t.sound = true) : (t.lower e).1.sound = true ∧ (t.lower e).2.bad = false := by
  unfold Tile.lower
  split
  · exact ⟨h, rfl⟩
  · split
    · exact ⟨h, rfl⟩
    · simp [Tile.sound] at h ⊢
      exact fun a b hb => h a b hb

theorem Tile.promote_tag (t : Tile) (e : Int) (ns : List (Nat × Int × Nat)) :
    (t.promote e ns).1.valid = t.valid ∧ (t.promote e ns).1.fmt = t.fmt ∧ (t.promote e ns).1.poison = t.poison :=
  t.lower_tag e

/-- R120: sums with their own residues enter sound words without a failed check. -/
theorem addSum_sound (k : Nat) (ns : List (Nat × Int × Nat)) (hn : ∀ x ∈ ns, x.2.2 = res7 x.2.1) (m : KMap AccWord) (q : Promo)
    (hm : m.all (fun e => e.2.good) = true) (hq : q.bad = false) :
    (ns.foldl (addSum k) (m, q)).1.all (fun e => e.2.good) = true ∧ (ns.foldl (addSum k) (m, q)).2.bad = false := by
  induction ns generalizing m q with
  | nil => exact ⟨hm, hq⟩
  | cons x ns ih =>
    obtain ⟨key, n, r⟩ := x
    have hr : r = res7 n := hn (key, n, r) (List.mem_cons_self ..)
    have hw := kget_all AccWord.good AccWord.zero rfl key m hm
    have hp := AccWord.plus_ok hw n k
    rw [List.foldl_cons]
    apply ih (fun y hy => hn y (List.mem_cons_of_mem _ hy))
    · split
      · exact hm
      · exact all_kset AccWord.good _ _ _ (AccWord.of_good _) m hm
    · have e := hp
      subst hr
      simp only [Promo.add, hq, Bool.false_or, Bool.not_eq_false']
      exact e

/-- What the keys of a sound row carry. -/
theorem Contrib.keyed_sound (c : Contrib) (W : Nat) (h : c.sound = true) : ∀ x ∈ c.keyed W, x.2.2 = res7 x.2.1 := by
  have h : c.res = c.sums.map res7 := by simpa [Contrib.sound] using h
  unfold Contrib.keyed
  rw [h]
  intro x hx
  simp only [List.mem_map] at hx
  obtain ⟨⟨⟨a, b⟩, i⟩, hm, rfl⟩ := hx
  have hab := (List.of_mem_zip hm).1
  rw [List.mem_iff_getElem] at hab
  obtain ⟨j, hj, e⟩ := hab
  simp only [List.getElem_zip, List.getElem_map, Prod.mk.injEq] at e
  simp [← e.1, ← e.2]

/-- Promotion keeps VALID, the format and POISON. -/
theorem Tile.promoteAll_tag (W : Nat) (cs : List Contrib) (t : Tile) :
    (Tile.promoteAll W cs t).1.valid = t.valid ∧ (Tile.promoteAll W cs t).1.fmt = t.fmt ∧ (Tile.promoteAll W cs t).1.poison = t.poison := by
  induction cs generalizing t with
  | nil => exact ⟨rfl, rfl, rfl⟩
  | cons c cs ih =>
    have h := ih (t.promote c.e (c.keyed W)).1
    have k := t.promote_tag c.e (c.keyed W)
    exact ⟨h.1.trans k.1, h.2.1.trans k.2.1, h.2.2.trans k.2.2⟩

/-- R120: sound rows enter a sound tile without a failed check, and leave it sound. -/
theorem Tile.promoteAll_sound (W : Nat) (cs : List Contrib) (hc : ∀ c ∈ cs, c.sound = true) (t : Tile) (h : t.sound = true) :
    (Tile.promoteAll W cs t).1.sound = true ∧ (Tile.promoteAll W cs t).2.bad = false := by
  induction cs generalizing t with
  | nil => exact ⟨h, rfl⟩
  | cons c cs ih =>
    have l := t.lower_sound c.e h
    have a := addSum_sound (c.e - (t.lower c.e).1.lsb.getD c.e).toNat (c.keyed W) (c.keyed_sound W (hc c (List.mem_cons_self ..)))
      (t.lower c.e).1.sums Promo.none l.1 rfl
    have r := ih (fun d hd => hc d (List.mem_cons_of_mem _ hd)) (t.promote c.e (c.keyed W)).1 a.1
    refine ⟨r.1, ?_⟩
    simp only [Tile.promoteAll, Promo.add, r.2, Bool.or_false]
    simp only [Tile.promote, Promo.add, l.2, a.2, Bool.or_false]

/-- A tile that rows have entered is VALID, of their format, and poisoned when the rows or the tile were. -/
theorem Tile.accum_tag (t : Tile) (W fmt : Nat) (clamp poison : Bool) (k : SkipInfo) (cs : List Contrib) (h : t.valid = true → t.fmt = fmt) :
    (t.accum W fmt clamp poison k cs).1.valid = true ∧ (t.accum W fmt clamp poison k cs).1.fmt = fmt ∧
    (t.accum W fmt clamp poison k cs).1.poison = ((t.init fmt k).poison || poison) := by
  have := Tile.promoteAll_tag W cs
    { t.init fmt k with sat := (t.init fmt k).sat || clamp, poison := (t.init fmt k).poison || poison }
  exact ⟨this.1.trans (t.init_valid fmt k), this.2.1.trans (t.init_fmt fmt k h), this.2.2⟩

/-- R120: an operation whose rows are sound leaves a sound tile sound, and no check fails. -/
theorem Tile.accum_sound (t : Tile) (W fmt : Nat) (clamp poison : Bool) (k : SkipInfo) (cs : List Contrib) (hc : ∀ c ∈ cs, c.sound = true)
    (h : t.sound = true) : (t.accum W fmt clamp poison k cs).1.sound = true ∧ (t.accum W fmt clamp poison k cs).2.bad = false :=
  Tile.promoteAll_sound W cs hc _ (t.init_sound fmt k h)

/-! ### Rows that are sound -/

theorem zipWith_map_res7 (v : Int) (a w : List Int) :
    List.zipWith (fun a w => (a + res7 w * res7 v) % 7) (a.map res7) w = (List.zipWith (fun a w => a + w * v) a w).map res7 := by
  induction a generalizing w with
  | nil => simp
  | cons x a ih =>
    cases w with
    | nil => simp
    | cons y w =>
      simp only [List.map_cons, List.zipWith_cons_cons, ih, List.cons.injEq, and_true]
      rw [res7_add, res7_mul]; omega

/-- R119: the residue that the sites' adders form is that of the sum. -/
theorem laneResidues_eq (W : Nat) (rows : List (List Int)) (vals : List Int) : laneResidues W rows vals = (laneSums W rows vals).map res7 := by
  unfold laneResidues laneSums
  generalize rows.zip vals = ps
  have h0 : List.replicate W 0 = (List.replicate W (0 : Int)).map res7 := by simp [res7]
  rw [h0]
  generalize List.replicate W (0 : Int) = a
  induction ps generalizing a with
  | nil => rfl
  | cons p ps ih =>
    simp only [List.foldl_cons]
    split
    · exact ih a
    · rw [zipWith_map_res7]; exact ih _

@[simp] theorem laneRow_sound (W : Nat) (rows : List (List Int)) (e : Int) (row : Nat) (vals : List Int) : (laneRow W rows e row vals).sound = true := by
  simp [Contrib.sound, laneRow, laneResidues_eq]

theorem res7_sum (l : List Int) : (l.map res7).sum % 7 = res7 l.sum := by
  induction l with
  | nil => rfl
  | cons x l ih => rw [List.map_cons, List.sum_cons, List.sum_cons, res7_add, ← ih]; omega

theorem Operands.contribs_sound (o : Operands) (W : Nat) (rows : List (List Int)) (rowBase : Nat) : ∀ c ∈ o.contribs W rows rowBase, c.sound = true := by
  intro c hc
  simp only [Operands.contribs, List.mem_flatMap, List.mem_map] at hc
  obtain ⟨_, _, _, _, rfl⟩ := hc
  exact laneRow_sound ..

theorem slicePasses_sound (W : Nat) (rows : List (List Int)) (items : List (List Elem)) (wins : List Nat) (spread b rowBase : Nat) (e0 : Int) :
    ∀ c ∈ slicePasses W rows items wins spread b rowBase e0, c.sound = true := by
  intro c hc
  simp only [slicePasses, List.mem_flatMap, List.mem_map] at hc
  obtain ⟨_, _, _, _, _, _, rfl⟩ := hc
  exact laneRow_sound ..

theorem injectContribs_sound (W row : Nat) (vs : List (Nat × Nat × Int)) : ∀ c ∈ injectContribs W row vs, c.sound = true := by
  intro c hc
  simp only [injectContribs, List.mem_map] at hc
  obtain ⟨_, _, rfl⟩ := hc
  simp only [Contrib.sound, List.map_map, beq_iff_eq]
  exact List.map_congr_left (fun j _ => by rw [← List.map_map]; exact res7_sum _)

theorem weighted_sound (W row code : Nat) (vs : List (Nat × Nat × Int)) : ∀ c ∈ weighted W row code vs, c.sound = true := by
  intro c hc
  simp only [weighted, List.mem_map] at hc
  obtain ⟨d, hd, rfl⟩ := hc
  have h : d.res = d.sums.map res7 := by simpa [Contrib.sound] using injectContribs_sound W row vs d hd
  simp only [Contrib.sound, h, List.map_map, beq_iff_eq]
  exact List.map_congr_left (fun x _ => by simp [res7_mul])

theorem zipWith_matches (b : Int) (a : List (Int × Nat)) (k : List Int) (h : ∀ x ∈ a, x.2 = res7 x.1) :
    ∀ x ∈ List.zipWith (fun (a : Int × Nat) (k : Int) => if k = b then (a.1 + 1, (a.2 + 1) % 7) else a) a k, x.2 = res7 x.1 := by
  induction a generalizing k with
  | nil => simp
  | cons y a ih =>
    cases k with
    | nil => simp
    | cons z k =>
      intro x hx
      rw [List.zipWith_cons_cons, List.mem_cons] at hx
      rcases hx with rfl | hx
      · split
        · rw [h y (List.mem_cons_self ..), res7_add]; rfl
        · exact h y (List.mem_cons_self ..)
      · exact ih k (fun w hw => h w (List.mem_cons_of_mem _ hw)) x hx

/-- R119, R135: the lane's residue of the matching treads. -/
theorem countMatches_res (W : Nat) (codes : List (List Int)) (item : List (Option Bool)) : ∀ x ∈ countMatches W codes item, x.2 = res7 x.1 := by
  unfold countMatches
  generalize codes.zip item = ps
  have h0 : ∀ x ∈ List.replicate W ((0 : Int), (0 : Nat)), x.2 = res7 x.1 := by
    intro x hx
    rw [(List.mem_replicate.1 hx).2]; rfl
  revert h0
  generalize List.replicate W ((0 : Int), (0 : Nat)) = a
  induction ps generalizing a with
  | nil => exact id
  | cons p ps ih =>
    intro h
    rw [List.foldl_cons]
    apply ih
    split
    · exact h
    · exact zipWith_matches _ a p.1 h

theorem countResidues_eq (W : Nat) (codes : List (List Int)) (item : List (Option Bool)) :
    countResidues W codes item = (countSums W codes item).map res7 := by
  unfold countResidues countSums
  rw [List.map_map]
  apply List.map_congr_left
  intro x hx
  have h := countMatches_res W codes item x hx
  simp only [Function.comp, h]
  zify [res7_int]
  omega

theorem Round.contribs_sound (r : Round) (T : Nat) (o : Operands) (rowBase t : Nat) : ∀ c ∈ r.contribs T o rowBase t, c.sound = true := by
  intro c hc
  simp only [Round.contribs, List.mem_flatMap, List.mem_map] at hc
  obtain ⟨_, _, _, _, _, _, _, _, rfl⟩ := hc
  simp only [Contrib.sound, List.map_map, beq_iff_eq]
  apply List.map_congr_left
  intro es _
  simp only [Function.comp]
  rw [← res7_sum, List.map_map]
  clear * -
  induction es with
  | nil => rfl
  | cons e es ih =>
    simp only [List.map_cons, List.sum_cons, Function.comp, res7_mul]
    omega

/-! ### Accumulation -/

/-- Two states that agree but for one tile of one flight, the dictionary and what a record reaches. -/
structure TileFrame (fk ti : Nat) (s t : State) : Prop where
  tiles  : ∀ i, i ≠ ti → (t.flight fk).tile i = (s.flight fk).tile i
  flight : ∀ k, k ≠ fk → t.flight k = s.flight k
  active : (t.flight fk).active = (s.flight fk).active
  progs  : (t.flight fk).progs = (s.flight fk).progs
  landing : ∀ l, t.landing l = s.landing l
  mem    : t.mem = s.mem
  mode   : t.mode = s.mode
  serve  : t.serve = s.serve
  xlate  : t.xlate = s.xlate

@[simp] theorem bendRows_nil (i : Nat) (cs : List Contrib) : bendRows [] i cs = cs := by
  simp [bendRows, List.map_fst_zip]

/-- R82, R108, R120: without upsets, sound rows enter a sound tile that is released or of their format; the tile holds what Tile.accum says, and no residue
check fails. -/
theorem State.accumulate_some (s : State) (f : FlightId) (x : Accum) (hs : ((s.flight (flightKey f)).tile x.tile).sound = true)
    (hc : ∀ c ∈ x.rows, c.sound = true)
    (h : ((s.flight (flightKey f)).tile x.tile).valid = true → ((s.flight (flightKey f)).tile x.tile).fmt = x.fmt) :
    ∃ t, s.accumulate f [] x = some (t, false) ∧
      ((t.flight (flightKey f)).tile x.tile).sums =
        (((s.flight (flightKey f)).tile x.tile).accum (lanesOf (flightIsG f)) x.fmt x.clamp x.poison x.info x.rows).1.sums ∧
      ((t.flight (flightKey f)).tile x.tile).valid = true ∧ ((t.flight (flightKey f)).tile x.tile).fmt = x.fmt ∧
      ((t.flight (flightKey f)).tile x.tile).sound = true ∧ TileFrame (flightKey f) x.tile s t := by
  obtain ⟨ti, fmt, clamp, poison, k, cs⟩ := x
  simp only at hs hc h ⊢
  have hk : (((s.flight (flightKey f)).tile ti).valid && decide (((s.flight (flightKey f)).tile ti).fmt ≠ fmt)) = false := by
    cases hv : ((s.flight (flightKey f)).tile ti).valid
    · rfl
    · simp [h hv]
  have ht := ((s.flight (flightKey f)).tile ti).accum_tag (lanesOf (flightIsG f)) fmt clamp poison k cs h
  have hg := ((s.flight (flightKey f)).tile ti).accum_sound (lanesOf (flightIsG f)) fmt clamp poison k cs hc hs
  unfold State.accumulate
  simp only [hk, List.foldl_nil, bendRows_nil]
  generalize ((s.flight (flightKey f)).tile ti).accum (lanesOf (flightIsG f)) fmt clamp poison k cs = a at ht hg ⊢
  obtain ⟨a, p⟩ := a
  simp only at ht hg ⊢
  have fr : ∀ t u : State, LogFrame t u → (∀ j, u.flight j = t.flight j) ∧ (∀ l, u.landing l = t.landing l) ∧ u.mem = t.mem ∧ u.mode = t.mode ∧
      u.serve = t.serve ∧ u.xlate = t.xlate := by
    intro t u e
    refine ⟨fun j => ?_, fun l => ?_, e.mem, e.mode, e.serve, e.xlate⟩
    · simp only [State.flight, e.halls]
    · simp only [State.landing, e.halls]
  generalize hfirst : (decide (0 < p.sats) && !a.satLogged) = first
  have e : LogFrame (s.setTile (flightKey f) ti { a with satLogged := a.satLogged || first })
      (if first then ((s.setTile (flightKey f) ti { a with satLogged := a.satLogged || first }).counts
          [(Od.wideSaturations, p.sats), (Od.tileRescales, p.resc)]).logEv { code := 0x3022, hall := f.hall, unit := f.idx }
        else (s.setTile (flightKey f) ti { a with satLogged := a.satLogged || first }).counts
          [(Od.wideSaturations, p.sats), (Od.tileRescales, p.resc)]) := by
    split
    · exact (State.counts_frame _ _).step (State.logEv_frame _ _ _)
    · exact State.counts_frame _ _
  obtain ⟨e1, e2, e3, e4, e5, e6⟩ := fr _ _ e
  refine ⟨_, congrArg (fun b => some (_, b)) hg.2, ?_, ?_, ?_, ?_, ⟨?_, ?_, ?_, ?_, ?_, ?_, ?_, ?_, ?_⟩⟩
  · rw [e1, State.tile_setTile_self]
  · rw [e1, State.tile_setTile_self]; exact ht.1
  · rw [e1, State.tile_setTile_self]; exact ht.2.1
  · rw [e1, State.tile_setTile_self]; exact hg.1
  · intro i hi; rw [e1, State.tile_setTile_ne _ _ hi]
  · intro j hj; rw [e1]; exact State.flight_setFlight_ne _ hj _
  · rw [e1]; simp [State.setTile]
  · rw [e1]; simp [State.setTile]
  · intro l; rw [e2]; rfl
  · exact e3
  · exact e4
  · exact e5
  · exact e6

/-- R82: rows of another format enter nothing. -/
theorem State.accumulate_none (s : State) (f : FlightId) (us : List Upset) (x : Accum)
    (hv : ((s.flight (flightKey f)).tile x.tile).valid = true) (hf : ((s.flight (flightKey f)).tile x.tile).fmt ≠ x.fmt) :
    s.accumulate f us x = none := by
  unfold State.accumulate
  simp [hv, hf]

end Sys2Proof.Machine
end

