-- ==== Sys2Proof/Laws/Memory.lean ====
section
/-!
SUPPORT. Laws/Memory.lean: every operation on device memory keeps its canonical form, a read after a write gives the byte written, and a write
leaves every other byte as it was.
-/

namespace Sys2Proof.Machine

/-! ### The canonical form -/

theorem putCells_wf (a : Nat) (d : Bytes) {m : List Host.Cell} (h : Memory.wf m = true) : Memory.wf (putCells m a d) = true := by
  induction d generalizing a m with
  | nil => exact h
  | cons b t ih => exact ih (a + 1) (kwf_kset memDefault a b h)

/-- A write of the controller keeps the canonical form. -/
theorem MemSt.write_wf (m : MemSt) (a : Nat) (d : Bytes) (p : Bool) (h : Memory.wf m.cells = true) : Memory.wf (m.write a d p).cells = true :=
  putCells_wf a d h

/-- R254: memory after its contents are lost is in canonical form. -/
theorem MemSt.blank_wf (m : MemSt) : Memory.wf m.blank.cells = true := rfl

/-- A write, into a present or a withdrawn range, keeps the canonical form. -/
theorem State.memWrite_wf (s : State) (a : Nat) (d : Bytes) (p : Bool) (h : Memory.wf s.mem.cells = true) :
    Memory.wf (s.memWrite a d p).mem.cells = true := by
  unfold State.memWrite
  split
  · exact h
  · split
    · exact h
    · exact s.mem.write_wf a d p h

/-- Marking words keeps the bytes as they were. -/
@[simp] theorem State.memMark_cells (s : State) (a n : Nat) (p : Bool) : (s.memMark a n p).mem.cells = s.mem.cells := rfl

/-- A message to a masked or unmasked vector leaves memory as it was. -/
@[simp] theorem State.signal_mem (s : State) (v : Nat) : (s.signal v).mem = s.mem := by
  unfold State.signal
  split
  · rfl
  · split <;> rfl

/-- R437: a BISnp leaves memory as it was. -/
@[simp] theorem State.backInvalidate_mem (s : State) (l : Nat) : (s.backInvalidate l).mem = s.mem := by
  unfold State.backInvalidate
  split <;> rfl

theorem drainHost_wf (n : Nat) (s : State) (h : Memory.wf s.mem.cells = true) : Memory.wf (drainHost n s).mem.cells = true := by
  induction n generalizing s with
  | zero => exact h
  | succ n ih =>
    unfold drainHost
    split
    · exact h
    · exact ih _ (by simpa using h)
    · split
      · exact ih _ h
      · split
        · exact ih _ h
        · split
          · exact h
          · simpa using h
    · exact ih _ h
    · exact ih _ h
    · split
      · split
        · simpa using h
        · exact ih _ (State.memWrite_wf _ _ _ _ h)
      · exact ih _ (State.memWrite_wf _ _ _ _ h)

/-- R437: the module's writes and messages keep the canonical form. -/
theorem State.hostActs_wf (s : State) (l : List HostAct) (h : Memory.wf s.mem.cells = true) : Memory.wf (s.hostActs l).mem.cells = true :=
  drainHost_wf _ _ h

/-- A write of the module to device memory keeps the canonical form. -/
theorem State.devWrite_wf (s : State) (a : Nat) (d : Bytes) (p : Bool) (h : Memory.wf s.mem.cells = true) :
    Memory.wf (s.devWrite a d p).mem.cells = true := s.hostActs_wf _ h

/-- Memory right after reset is in canonical form. -/
theorem reset_memory_wf : Memory.wf State.reset.mem.cells = true := rfl

/-! ### A read after a write -/

theorem kget_putCells (m : List Host.Cell) (a x : Nat) (d : Bytes) :
    kget memDefault x (putCells m a d) = if a ≤ x ∧ x < a + d.length then d.getD (x - a) memDefault else kget memDefault x m := by
  induction d generalizing a m with
  | nil =>
    simp [putCells]
  | cons b t ih =>
    simp only [putCells, ih, kget_kset, List.length_cons]
    by_cases h0 : x = a
    · subst h0
      simp
    · by_cases h1 : a + 1 ≤ x ∧ x < a + 1 + t.length
      · have h2 : a ≤ x ∧ x < a + (t.length + 1) := by omega
        have h3 : x - a = (x - (a + 1)) + 1 := by omega
        rw [if_pos h1, if_pos h2, h3, List.getD_cons_succ]
      · have h2 : ¬ (a ≤ x ∧ x < a + (t.length + 1)) := by omega
        rw [if_neg h1, if_neg h2, if_neg h0]

/-- R254: a byte of memory after a write to a present range: the byte written inside it, and the old byte elsewhere. -/
theorem State.memByte_memWrite (s : State) (a x : Nat) (d : Bytes) (p : Bool) (h : s.withdrawn a = false) :
    (s.memWrite a d p).memByte x = if a ≤ x ∧ x < a + d.length then d.getD (x - a) memDefault else s.memByte x := by
  unfold State.memWrite
  split
  · rename_i hd
    subst hd
    have : ¬ (a ≤ x ∧ x < a + ([] : Bytes).length) := by simp
    rw [if_neg this]
  · rw [if_neg (by simp [h])]
    exact kget_putCells s.mem.cells a x d

/-- R270: a write to a withdrawn range changes no byte. -/
theorem State.memByte_memWrite_withdrawn (s : State) (a x : Nat) (d : Bytes) (p : Bool) (h : s.withdrawn a = true) :
    (s.memWrite a d p).memByte x = s.memByte x := by
  unfold State.memWrite
  split
  · rfl
  · simp

end Sys2Proof.Machine
end

