-- ==== Sys2Proof/Laws/Seq.lean ====
section
/-!
SUPPORT. Laws/Seq.lean: what the sequencer hands to a unit, and what issue does with the unit's answer: the lemmas that a proof about an operation cites
instead of unfolding State.turn and State.issueOp.
-/

namespace Sys2Proof.Machine

/-- A word that is handed out belongs to the flight that was asked. -/
theorem turn_go_flight {s : State} {fk : Nat} {is : Nat → Bool} {c : OpCtx} (h : s.turn fk is = .go c) : c.fk = fk := by
  unfold State.turn at h
  split at h
  · cases h
  · simp only at h
    split at h
    · cases h
    · split at h
      · cases h
      · split at h
        · cases h
        · split at h
          · cases h
          · cases h; rfl

/-- A running program is the one in the slot that runs. -/
theorem runningProg_progAt {s : State} {fk : Nat} {p : Prog} (h : s.runningProg fk = some p) :
    s.mode = .run ∧ s.fenced fk = false ∧ (s.flight fk).current = some p.slot ∧ s.progAt fk p.slot = some p ∧ p.mode = .running := by
  unfold State.runningProg at h
  split at h
  · cases h
  · rename_i hm
    simp only [not_or, not_not] at hm
    simp only [Option.bind_eq_some_iff] at h
    obtain ⟨sl, h1, q, h2, h3⟩ := h
    split at h3
    · rename_i hr
      cases h3
      have e : p.slot = sl := by simpa using List.find?_some h2
      subst e
      exact ⟨hm.1, by simpa using hm.2, h1, h2, hr⟩
    · cases h3

/-- A word that is handed out is the next word of the running program. -/
theorem turn_go_running {s : State} {fk : Nat} {is : Nat → Bool} {c : OpCtx} (h : s.turn fk is = .go c) : s.runningProg fk = some c.prog := by
  unfold State.turn at h
  split at h
  · cases h
  · rename_i p hp
    simp only at h
    split at h
    · cases h
    · split at h
      · cases h
      · split at h
        · cases h
        · split at h
          · cases h
          · cases h
            exact hp

/-- The program of a word that is handed out. -/
theorem turn_go_progAt {s : State} {fk : Nat} {is : Nat → Bool} {c : OpCtx} (h : s.turn fk is = .go c) : s.progAt fk c.slot = some c.prog :=
  (runningProg_progAt (turn_go_running h)).2.2.2.1

/-- What becomes of a unit's answer to an issued word. -/
theorem issueOp_of_issues {s : State} {f : FlightId} {is : Nat → Bool} {c : OpCtx} (h : Issues s f is c)
    (body : OpCtx → State → State × OpRes) :
    s.issueOp f is body = match body c s with
      | (t, .hold) => t
      | (t, .stop code) => t.refuseOp (flightKey f) c.slot code c.prog.pc
      | (t, .done) => t.opDone c
      | (t, .open_) => t.opOpen c := by
  obtain ⟨_, h1, h2⟩ := h
  simp only [State.issueOp, h1, h2]
  rfl

/-- An operation that its unit takes until OPERATION_END. -/
theorem issueOp_open {s t : State} {f : FlightId} {is : Nat → Bool} {c : OpCtx} (h : Issues s f is c)
    {body : OpCtx → State → State × OpRes} (hb : body c s = (t, .open_)) : s.issueOp f is body = t.opOpen c := by
  rw [issueOp_of_issues h, hb]

/-- An operation that ends at once. -/
theorem issueOp_done {s t : State} {f : FlightId} {is : Nat → Bool} {c : OpCtx} (h : Issues s f is c)
    {body : OpCtx → State → State × OpRes} (hb : body c s = (t, .done)) : s.issueOp f is body = t.opDone c := by
  rw [issueOp_of_issues h, hb]

/-- An operation that its unit refuses. -/
theorem issueOp_stop {s t : State} {f : FlightId} {is : Nat → Bool} {c : OpCtx} {code : Nat} (h : Issues s f is c)
    {body : OpCtx → State → State × OpRes} (hb : body c s = (t, .stop code)) :
    s.issueOp f is body = t.refuseOp (flightKey f) c.slot code c.prog.pc := by
  rw [issueOp_of_issues h, hb]

/-- Going on to the next word keeps the slot. -/
@[simp] theorem Prog.advance_slot (p : Prog) : p.advance.slot = p.slot := by
  unfold Prog.advance
  simp only
  repeat' split
  all_goals rfl

/-- An issued operation keeps the slot. -/
@[simp] theorem Prog.issue_slot (p : Prog) (w : Nat) : (p.issue w).slot = p.slot := by
  simp [Prog.issue]

/-- The end of an issued operation keeps the slot. -/
@[simp] theorem Prog.endIssued_slot (p : Prog) (id : Nat) : (p.endIssued id).slot = p.slot := by
  unfold Prog.endIssued
  split <;> rfl

end Sys2Proof.Machine
end

