-- ==== Sys2Proof/Tests/Slice0.lean ====
section
/-! SUPPORT. Tests/Slice0.lean: small states and operands that meet the hypotheses of the obligations (test_meets_…), commands with an ill-formed
operand that the check refuses, single steps, and the spec's worked examples. -/

namespace Sys2Proof.Tests

open Sys2Proof Sys2Proof.Machine

set_option Elab.async false

/-! ### Small states -/

/-- An operation word: its opcode (in the field of log entry 45) and its fields as (lowest bit, value). -/
def word (op : Nat) (fs : List (Nat × Nat)) : Nat := (if op < 0x40 then op else op - 8) * 2 ^ 122 + (fs.map (fun f => f.2 * 2 ^ f.1)).sum

/-- A program image with these words. -/
def image (ops : List Nat) : Image :=
  { flags := 0, tenant := 0, model := 1, job := 1, binds := [], areas := [], tensors := [], handles := [], peers := [], barriers := [⟨0, 1⟩],
    groups := [], ops := ops, opsAt := 0x1000 }

/-- A program that runs them. -/
def prog (ops : List Nat) : Prog :=
  { slot := 0, addr := 0x1000, img := image ops, mode := .running, cls := 1, pc := 0, rep := none, counters := List.replicate 8 0, issued := [],
    nextOp := 0, bars := [], resume := none, ppDone := true, lastPass := [], since := 0 }

/-- The module in Run. -/
def inRun : State := { State.reset with mode := .run }

/-- A program on a flight. -/
def put (fk : Nat) (p : Prog) (s : State) : State :=
  { s with halls := { s.halls with flights := [(fk, { FlightSt.reset with progs := [p], current := some 0 })] } }

/-- Run with a program on flight 0 of hall 0. -/
def runs (ops : List Nat) : State := put 0 (prog ops) inRun

/-- The context of the first word. -/
def ctx (ops : List Nat) : OpCtx := ⟨0, prog ops, ops.getD 0 0, false⟩

/-- The same with nothing current. -/
def putIdle (p : Prog) (s : State) : State :=
  { s with halls := { s.halls with flights := [(0, { FlightSt.reset with progs := [p] })] } }

theorem okOf {α β : Type} {e : Except α β} (h : e.toBool = true) : ∃ x, e = .ok x := by
  cases e with
  | error _ => exact absurd h (by simp [Except.toBool])
  | ok x => exact ⟨x, rfl⟩

/-- Flight 0 of hall 0. -/
def f0 : FlightId := ⟨0, 0⟩

/-- An entry of a handle table of landing l, valid: format, rows, pitch, base, channels / 32. -/
def entry (hall : Bool) (fmt rows pitch base ch : Nat) : Nat :=
  2 ^ 127 + (if hall then 2 ^ 126 else 0) + fmt * 2 ^ 120 + ch * 2 ^ 64 + rows * 2 ^ 48 + pitch * 2 ^ 32 + 2 ^ 24 + base

/-- With a handle in a landing's table. -/
def handle (l h e : Nat) (s : State) : State := s.setHandle l h e

theorem issuesOf {s : State} {f : FlightId} {is : Nat → Bool} {c : OpCtx}
    (h : flightOk f = true ∧ s.turn (flightKey f) is = .go c ∧ c.empty = false) : Issues s f is c := h

theorem pairOf {α β : Type} {p : α × β} {a : α} (h : p.1 = a) : p = (a, p.2) := by rw [← h]
/-! ### Hypotheses that concrete states meet -/

theorem test_meets_turn : ∃ (s : State) (fk sl w : Nat) (is : Nat → Bool) (p : Prog), s.mode = .run ∧ s.fenced fk = false ∧ (s.flight fk).current = some sl ∧
    s.progAt fk sl = some p ∧ p.mode = .running ∧ p.pc < p.img.ops.length ∧ is (p.img.ops.getD p.pc 0) = true ∧
    s.memPoisoned (p.img.opsAt + 16 * p.pc) 16 = false ∧ p.next = .ok w := by
  refine ⟨runs [0], 0, 0, 0, isOp 0, prog [0], ?_, ?_, ?_, ?_, ?_, ?_, ?_, ?_, by rfl⟩ <;> decide +kernel

/-- The same with its word poisoned. -/
def poisonedWord : State := (runs [0]).memMark 0x1000 16 true

theorem test_meets_poisoned_turn : poisonedWord.mode = .run ∧ poisonedWord.fenced 0 = false ∧ (poisonedWord.flight 0).current = some 0 ∧
    poisonedWord.progAt 0 0 = some (prog [0]) ∧ isOp 0 ((prog [0]).img.ops.getD 0 0) = true ∧
    poisonedWord.memPoisoned ((prog [0]).img.opsAt + 16 * 0) 16 = true ∧ poisonedWord.turn 0 (isOp 0) = .stop 0 0x3075 0 := by decide +kernel

theorem test_meets_repeat : ∃ (p q : Prog) (r : RepFrame), p.rep = some r ∧ p.pc + 1 < r.first + bits r.word 95 90 ∧ q.rep = some { r with iter := 1 } ∧
    r.first + bits r.word 95 90 ≤ q.pc + 1 ∧ r.iter + 1 < bits r.word 111 96 ∧ bits r.word 111 96 ≤ 1 + 1 :=
  ⟨{ prog [] with pc := 1, rep := some ⟨1, 0, word 2 [(90, 2), (96, 2)]⟩ }, { prog [] with pc := 2, rep := some ⟨1, 1, word 2 [(90, 2), (96, 2)]⟩ },
    ⟨1, 0, word 2 [(90, 2), (96, 2)]⟩, by decide +kernel⟩

theorem test_meets_control_words : Issues (runs [0]) f0 (isOp 0x00) (ctx [0]) ∧ Issues (runs [word 3 [(104, 1)]]) f0 (isOp 0x03) (ctx [word 3 [(104, 1)]]) ∧
    Issues (runs [word 2 [(90, 1), (96, 2)]]) f0 (isOp 0x02) (ctx [word 2 [(90, 1), (96, 2)]]) ∧
    Issues (runs [word 1 []]) f0 (isOp 0x01) (ctx [word 1 []]) ∧ (ctx [word 1 []]).prog.quiet = true ∧
    (∀ k < 8, bit (bits (ctx [word 3 [(104, 1)]]).word 111 104) k = true → (ctx [word 3 [(104, 1)]]).prog.counter k = 0) := by
  simp only [Issues]; decide +kernel

/-- A WAIT on counter 0 while it is not zero. -/
def waiting : Prog := { prog [word 3 [(104, 1)]] with counters := 1 :: List.replicate 7 0, issued := [⟨0, 0x10, some 0, 0⟩], nextOp := 1 }

theorem test_meets_wait_and_end : Issues (put 0 waiting inRun) f0 (isOp 0x03) ⟨0, waiting, word 3 [(104, 1)], false⟩ ∧
    bit (bits (word 3 [(104, 1)]) 111 104) 0 = true ∧ waiting.counter 0 ≠ 0 ∧ ((put 0 waiting inRun).flight (flightKey f0)).current = some 0 ∧
    (put 0 waiting inRun).progAt (flightKey f0) 0 = some waiting ∧ waiting.issued.find? (fun y => y.id == 0) = some ⟨0, 0x10, some 0, 0⟩ ∧
    (put 0 waiting inRun).opWaits (flightKey f0) 0 0 = false := by
  simp only [Issues]; decide +kernel
/-- The bytes of a program image of one END: header, 16 empty bindings, the word (R221, R222). -/
def endImage : Bytes :=
  leBytes 4 0x33515343 ++ leBytes 2 1 ++ zeros 4 ++ leBytes 2 1 ++ leBytes 4 1 ++ leBytes 4 1 ++ zeros 44 ++ zeros 128 ++ leBytes 16 (word 1 [])

/-- Model 1 is loaded for tenant 0. -/
def loaded : ModelSt :=
  { state := 3, code := 0, tenant := 0, flags := 0, permille := 0, hallMask := 0, share := 0, members := 0, home := 0, parts := 1, part := 0, offset := 0,
    pkgAddr := 0, pkgLen := 0, since := 0, epoch := 0, time := 0, pkg := none, work := [], packed := false, shares := [], done := [] }

def withModel (s : State) : State := { s with serve := { s.serve with models := [(1, loaded)] } }

/-- Ready, with model 1 loaded and an image at 0x1000. -/
def readyImage : State := { (withModel State.reset).memWrite 0x1000 endImage false with mode := .ready }

theorem test_meets_program_load : readyImage.hallsUp = true ∧ readyImage.fenced (flightKey f0) = false ∧
    (∃ i, readyImage.loadCheck (flightKey f0) (readyImage.memBytes 0x1000 208) 0x1000 = .ok i) ∧
    (readyImage.loadCheck (flightKey f0) (readyImage.memBytes 0x1001 208) 0x1001).toBool = false :=
  ⟨by decide +kernel, by decide +kernel, okOf (by decide +kernel), by decide +kernel⟩

def idleProg : Prog := { prog [word 1 []] with mode := .idle, ppDone := false }
def offered : Prog := { prog [word 9 [(121, 1)]] with mode := .offered, ppDone := false }

theorem test_meets_start_resume_offer : (putIdle idleProg inRun).mayStart 0 0 .idle = true ∧ (putIdle idleProg inRun).progAt 0 0 = some idleProg ∧
    (putIdle { idleProg with mode := .suspended, resume := some ⟨0, none, []⟩ } inRun).mayStart 0 0 .suspended = true ∧
    (put 0 offered inRun).higherWaits 0 offered = false ∧ offered.mode = .offered ∧ ((put 0 offered inRun).flight 0).current = some 0 := by decide +kernel

/-- A field program waits behind an offered one. -/
def offeredTwo : State :=
  { inRun with halls := { inRun.halls with flights := [(0, { FlightSt.reset with
      progs := [offered, { offered with slot := 1, mode := .suspended, cls := 0, resume := some ⟨0, none, []⟩, key := 0 }], current := some 0 })] } }

theorem test_meets_offer_to_higher : flightOk f0 = true ∧ (offeredTwo.flight (flightKey f0)).current = some 0 ∧
    offeredTwo.progAt (flightKey f0) 0 = some offered ∧ offered.mode = .offered ∧ offeredTwo.higherWaits (flightKey f0) offered = true := by decide +kernel

theorem test_meets_preemption_point : ((put 0 { offered with mode := .running } inRun).flight 0).atBoundary = true ∧ (put 0 { offered with mode := .running } inRun).runningProg (flightKey f0) = some { offered with mode := .running } ∧
    opPP (offered.img.ops.getD 0 0) = true ∧ offered.ppDone = false ∧ offered.quiet = true ∧ offered.img.fixedLat = false := by decide +kernel

/-- A program at a STEP with an open tile. -/
def openTile : State := (put 0 (prog [word 9 []]) inRun).setFlight 0 { FlightSt.reset with
  progs := [{ prog [word 9 []] with ppDone := false }], current := some 0, tiles := [(0, { Tile.reset with valid := true, fmt := 1, lsb := some 0 })] }

theorem test_meets_open_tile : openTile.runningProg (flightKey f0) = some { prog [word 9 []] with ppDone := false } ∧
    opOf ((prog [word 9 []]).img.ops.getD 0 0) = 0x09 ∧ (prog [word 9 []]).quiet = true ∧ (prog [word 9 []]).img.fixedLat = false ∧
    (openTile.flight (flightKey f0)).atBoundary = false := by decide +kernel

theorem test_meets_barriers : Issues (runs [word 8 []]) f0 (isOp 0x08) (ctx [word 8 []]) ∧ Issues (runs [word 9 []]) f0 (isOp 0x09) (ctx [word 9 []]) ∧
    (ctx [word 8 []]).prog.img.barriers[bits (ctx [word 8 []]).word 111 108]? = some ⟨0, 1⟩ ∧
    (ctx [word 9 []]).prog.img.barriers[bits (ctx [word 9 []]).word 111 108]? = some ⟨0, 1⟩ ∧
    ({ State.reset with halls := { HallsSt.reset with barriers := [⟨1, 0, 0, none, 0, 2, [0], 0, false⟩] } } : State).barrierOf 1 0 0 none =
      some ⟨1, 0, 0, none, 0, 2, [0], 0, false⟩ := by
  simp only [Issues]; decide +kernel

/-- Barriers of two jobs: clearing one leaves the other's. -/
def twoBarriers : State := { runs [0] with halls := { (runs [0]).halls with barriers := [⟨1, 0, 0, none, 0, 2, [0], 0, false⟩, ⟨2, 0, 0, none, 0, 2, [0], 0, false⟩] } }

theorem test_meets_clear_job : kSorted twoBarriers.halls.flights = true ∧
    (⟨2, 0, 0, none, 0, 2, [0], 0, false⟩ : BarrierSt) ∈ (twoBarriers.clearJob 1).halls.barriers := by decide +kernel

/-- A PASS with HOLD over one row of the buffer behind handle 0. -/
def passOps : List Nat := [word 0x10 [(82, 1)]]
def passState : State := handle 0 0 (entry false 1 1 8 0 16) (runs passOps)

theorem test_meets_pass : Issues passState f0 (isOp 0x10) (ctx passOps) ∧ (ctx passOps).badTarget (bits (ctx passOps).word 43 28) 1 = none ∧
    (∃ x, passState.streamed (ctx passOps) 0 0 1 0 0 = .ok (1, x)) ∧ passState.passMask (ctx passOps) (ctx passOps).word 1 = .ok none ∧
    ((passState.flight 0).tile 0).valid = false ∧ ((passState.flight 0).tile 0).sound = true ∧ bit (ctx passOps).word 82 = true := by
  refine ⟨issuesOf ?_, ?_, ⟨_, by rfl⟩, by rfl, ?_⟩ <;> decide +kernel

/-- A word that agrees with its residue, and a sum that differs from another by 3. -/
theorem test_meets_accumulator : (⟨5, 5⟩ : AccWord).good = true ∧ (3 : Int) % 7 ≠ 0 := by decide +kernel

/-- The same with an N4 tile in the way. -/
def otherTile : State := passState.setFlight 0 { (passState.flight 0) with tiles := [(0, { Tile.reset with valid := true, fmt := 2, lsb := some 0 })] }

theorem test_meets_other_format : Issues otherTile f0 (isOp 0x10) (ctx passOps) ∧ (∃ x, otherTile.streamed (ctx passOps) 0 0 1 0 0 = .ok (1, x)) ∧
    otherTile.passMask (ctx passOps) (ctx passOps).word 1 = .ok none ∧ ((otherTile.flight 0).tile 0).valid = true ∧
    ((otherTile.flight 0).tile 0).fmt ≠ 1 := by
  refine ⟨issuesOf ?_, ⟨_, by rfl⟩, by rfl, ?_⟩ <;> decide +kernel

def serialOps : List Nat := [word 0x12 [(104, 1), (67, 8), (22, 8)]]
def serialState : State := handle 0 1 (entry false 1 1 8 8 16) (handle 0 0 (entry false 1 1 8 0 16) (runs serialOps))

theorem test_meets_serial : Issues serialState f0 (isOp 0x12) (ctx serialOps) ∧ (ctx serialOps).badTarget (bits (ctx serialOps).word 15 0) 1 = none ∧
    (∃ b, serialState.need 0 0 1 [1, 2] = .ok b ∧ fmtWidth b.fmt ≤ 8) ∧
    (∃ x, serialState.streamed (ctx serialOps) (bits (ctx serialOps).word 66 59) (bits (ctx serialOps).word 58 43) 1 0 0 = .ok (1, x)) ∧
    bits (ctx serialOps).word 111 104 = 1 ∧ bits (ctx serialOps).word 71 67 = 8 ∧ bits (ctx serialOps).word 26 22 = 8 ∧
    ((serialState.flight 0).tile 0).sound = true := by
  refine ⟨issuesOf ?_, ?_, ⟨_, by rfl, ?_⟩, ⟨_, by rfl⟩, ?_⟩ <;> decide +kernel

def countOps : List Nat := [word 0x14 [(104, 1), (64, 2)]]
def countState : State := handle 0 2 (entry false 4 1 8 16 16) (handle 0 1 (entry false 4 1 8 8 16) (runs countOps))

theorem test_meets_count : Issues countState f0 (isOp 0x14) (ctx countOps) ∧ (∃ a, countState.need 0 0 1 [4] = .ok a) ∧
    (∃ x, countState.countItems (ctx countOps) 2 0 1 0 = .ok x) ∧ ((countState.flight 0).tile 0).sound = true := by
  refine ⟨issuesOf ?_, ⟨_, by rfl⟩, ⟨_, by rfl⟩, ?_⟩ <;> decide +kernel

/-! A tensor of one zero block in the flight's landing (R84, R86), and operations on it. -/

/-- Data, index and check handles 0 to 2 of a landing, with the index and check tables of four zero blocks. -/
def withTensor (l : Nat) (s : State) : State :=
  ((handle l 2 (entry false 0xC 1 1 2 0) (handle l 1 (entry false 0xB 1 1 1 0) (handle l 0 (entry false 0xA 1 1 0 0) s))).landWrite l 64
    ((List.replicate 4 (leBytes 4 0x40000000)).flatten) false 0).landWrite l 128 (zeros 16) false 0

def tensor : TensorE := ⟨1, 0, 0, 1, 2, 0, 0, 0, 0⟩

def progT (ops : List Nat) : Prog := { prog ops with img := { image ops with tensors := [tensor] } }

/-- A pass waits for the second fetch of block 0, which passes its check. -/
def refetchState : State := withTensor 0 { inRun with halls := { inRun.halls with
  flights := [(0, { FlightSt.reset with progs := [progT [word 0x10 []]], current := some 0, refetch := [0] })] } }

theorem test_meets_second_fetch : ∃ x, refetchState.runningProg (flightKey f0) = some (progT [word 0x10 []]) ∧ (progT [word 0x10 []]).next = .ok (word 0x10 []) ∧
    (refetchState.flight (flightKey f0)).refetch.contains 0 = true ∧
    refetchState.arraysOf ⟨flightKey f0, progT [word 0x10 []], word 0x10 [], false⟩ (bits (word 0x10 []) 111 107) = .ok x ∧
    (refetchState.fetchBlock (flightKey f0 / 20) 0 x 0).good = true := by
  refine ⟨_, ?_, by rfl, ?_, by rfl, ?_⟩ <;> decide +kernel

/-- An OUTLIER_PASS of 16 planes behind a pass of tile 0, on a G-flight. -/
def outOps : List Nat := [word 0x13 [(43, 16)]]
def outProg : Prog := { progT outOps with lastPass := [(0, word 0x10 [])] }

def outState : State := withTensor 12 (put 12 outProg inRun)
def g0 : FlightId := ⟨0, 12⟩

def loaded? (l : Load) : Bool := match l with | .ok _ _ => true | _ => false

theorem okOfLoad {l : Load} (h : loaded? l = true) : ∃ s p, l = .ok s p := by
  cases l with
  | ok s p => exact ⟨s, p, rfl⟩
  | _ => exact absurd h (by simp [loaded?])

/-- No upset, no fetch that fails, no bit error. -/
def calm : PassHw := ⟨⟨[], []⟩, [], []⟩

theorem test_meets_outlier_pass : ∃ x, Issues outState g0 (isOp 0x13) ⟨12, outProg, word 0x13 [(43, 16)], false⟩ ∧
    kfind (bits (word 0x13 [(43, 16)]) 36 21) outProg.lastPass = some (word 0x10 []) ∧ word 0x10 [] ≠ 0 ∧ bits (word 0x13 [(43, 16)]) 47 43 = 16 ∧
    (⟨12, outProg, word 0x13 [(43, 16)], false⟩ : OpCtx).badTarget 0 1 = none ∧
    outState.passMask ⟨12, outProg, word 0x13 [(43, 16)], false⟩ (word 0x10 []) 1 = .ok none ∧
    outState.outItems ⟨12, outProg, word 0x13 [(43, 16)], false⟩ 1 none = .ok x ∧
    (∃ s1 planes, outState.loadPlanes ⟨12, outProg, word 0x13 [(43, 16)], false⟩ 0 [0] calm false = .ok s1 planes) ∧
    ((outState.flight 12).tile 0).valid = false ∧ ((outState.flight 12).tile 0).sound = true := by
  refine ⟨_, issuesOf ?_, ?_, ?_, ?_, ?_, by rfl, by rfl, okOfLoad ?_, ?_⟩ <;> decide +kernel

def sparseOps : List Nat := [word 0x11 [(58, 3)]]
def sparseState : State := handle 0 3 (entry false 1 1 8 8 16) (withTensor 0 (put 0 (progT sparseOps) inRun))
def sparseCtx : OpCtx := ⟨0, progT sparseOps, word 0x11 [(58, 3)], false⟩

theorem test_meets_sparse_pass : ∃ x, Issues sparseState f0 (isOp 0x11) sparseCtx ∧ spanCheck sparseCtx (spanW sparseCtx.word) = none ∧
    sparseState.spanItems sparseCtx (spanW sparseCtx.word) = .ok (1, x) ∧
    (∃ v bad, sparseState.spanVector sparseCtx (spanW sparseCtx.word) = .ok (v, bad)) ∧
    (∃ s1 planes, sparseState.loadPlanes sparseCtx (bits sparseCtx.word 111 107) (spanW sparseCtx.word).segs calm false = .ok s1 planes) ∧
    (spanW sparseCtx.word).fo = 1 ∧ ((sparseState.flight 0).tile 0).valid = false ∧ ((sparseState.flight 0).tile 0).sound = true := by
  refine ⟨_, issuesOf ?_, ?_, by rfl, ⟨_, _, by rfl⟩, okOfLoad ?_, ?_⟩ <;> decide +kernel

def predictOps : List Nat := [word 0x15 [(111 - 15, 7), (42, 1), (34, 2), (80, 3)]]
def predictState (fk : Nat) : State :=
  let s := handle 80 3 (entry false 1 64 8 40 16) (handle 80 2 (entry false 7 1 1 1 0) (handle 80 1 (entry false 8 1 1 0 0)
    (handle 80 0 (entry false 4 1024 1 64 16) (put fk (prog predictOps) inRun))))
  { s with halls := { s.halls with layers := [(65543, ⟨0, false, [], 0, 0, 0, 0, 0, 0⟩)] } }
def predictCtx (fk : Nat) : OpCtx := ⟨fk, prog predictOps, predictOps.getD 0 0, false⟩

/-- What PREDICT asks on either kind of flight. -/
def PredictMet (fk : Nat) (f : FlightId) : Prop :=
  Issues (predictState fk) f (isOp 0x15) (predictCtx fk) ∧
    kfind (1 * 65536 + bits (predictCtx fk).word 111 96) (predictState fk).halls.layers = some ⟨0, false, [], 0, 0, 0, 0, 0, 0⟩ ∧
    (∃ planes, (predictState fk).need 0 80 0 [4] = .ok planes ∧ planes.rowOk ((predictCtx fk).W - 1) 0 = true) ∧
    (∃ v, (predictState fk).need 0 80 1 [8] = .ok v ∧ v.writable = true ∧ cdiv ((predictCtx fk).W / 32) 4 ≤ v.bytesLen) ∧
    (∃ p, (predictState fk).need 0 80 2 [7] = .ok p) ∧ bits (predictCtx fk).word 49 42 = 1 ∧ bits (predictCtx fk).word 41 34 = 2

theorem test_meets_predict_p : PredictMet 0 f0 ∧ (∃ b, (predictState 0).need 0 80 3 [1, 2] = .ok b ∧ b.rowOk 0 0 = true) ∧
    (predictCtx 0).g = false ∧ bits (predictCtx 0).word 87 80 = 3 := by
  refine ⟨⟨issuesOf ?_, ?_, ⟨_, by rfl, ?_⟩, ⟨_, by rfl, ?_⟩, ⟨_, by rfl⟩, ?_⟩, ⟨_, by rfl, ?_⟩, ?_⟩ <;> decide +kernel

theorem test_meets_predict_g : PredictMet 12 g0 ∧ (predictCtx 12).g = true := by
  refine ⟨⟨issuesOf ?_, ?_, ⟨_, by rfl, ?_⟩, ⟨_, by rfl, ?_⟩, ⟨_, by rfl⟩, ?_⟩, ?_⟩ <;> decide +kernel

/-- Drains of tile 0: one that clears it and one with KEEP. -/
def footW (fn : Nat) (fs : List (Nat × Nat)) : Nat := word 0x20 ((60, fn) :: fs)
def footOps : List Nat := [footW 1 [(33, 1), (32, 1), (19, 1)]]
def footState : State := handle 0 1 (entry false 1 1 8 8 16) (runs footOps)
def keepOps : List Nat := [footW 1 [(33, 1), (32, 1), (27, 1), (19, 1)]]
def keepState : State := handle 0 1 (entry false 1 1 8 8 16) (runs keepOps)

theorem test_meets_drain : ∃ x y, Issues footState f0 (isFoot 1) (ctx footOps) ∧ footState.drainIn (ctx footOps) = .ok x ∧
    (drainD (ctx footOps).desc).keep = false ∧ Issues keepState f0 (isFoot 1) (ctx keepOps) ∧ keepState.drainIn (ctx keepOps) = .ok y ∧
    (drainD (ctx keepOps).desc).keep = true ∧ ((footState.flight 0).tile 0).rowsSound (ctx footOps).W 0 1 = true := by
  refine ⟨_, _, issuesOf ?_, by rfl, ?_, issuesOf ?_, by rfl, ?_⟩ <;> decide +kernel

theorem test_meets_retag_release : ∃ t, Issues (runs [footW 2 [(52, 2)]]) f0 (isFoot 2) (ctx [footW 2 [(52, 2)]]) ∧
    footCheck false (ctx [footW 2 [(52, 2)]]).desc = none ∧ ((runs [footW 2 [(52, 2)]]).flight 0).tile 0 = Tile.reset ∧ Tile.reset.retag 2 0 = .ok t ∧
    Issues (runs [footW 3 [(56, 7)]]) f0 (isFoot 3) (ctx [footW 3 [(56, 7)]]) ∧ footCheck false (ctx [footW 3 [(56, 7)]]).desc = none := by
  refine ⟨_, issuesOf ?_, ?_, ?_, by rfl, issuesOf ?_, ?_⟩ <;> decide +kernel

/-- Descriptors with a tile beyond the flight's, a DELTA of 65, a KEEP without output, and one that is well formed. -/
theorem test_meets_malformed : Issues (runs [footW 1 [(56, 15), (33, 1)]]) f0 (isFoot 1) (ctx [footW 1 [(56, 15), (33, 1)]]) ∧
    footCheck false (footW 1 [(56, 15), (33, 1)] % 2 ^ 64) = some 0x3012 ∧ footCheck false (footW 2 [(44, 65)] % 2 ^ 64) = some 0x3013 ∧
    footCheck false (footW 2 [(44, 64)] % 2 ^ 64) = none ∧ footCheck false (footW 1 [(27, 1)] % 2 ^ 64) = some 0x3013 ∧
    footCheck false (footW 3 [(0, 1)] % 2 ^ 64) = some 0x3013 ∧ footCheck false (footW 5 [] % 2 ^ 64) = some 0x3013 ∧
    Issues (runs [footW 2 [(44, 65)]]) f0 (isFoot 2) (ctx [footW 2 [(44, 65)]]) ∧ Issues (runs [footW 3 [(0, 1)]]) f0 (isFoot 3) (ctx [footW 3 [(0, 1)]]) ∧
    Issues (runs [footW 4 [(56, 15)]]) f0 (isFoot 4) (ctx [footW 4 [(56, 15)]]) ∧ footCheck false (footW 4 [(56, 15)] % 2 ^ 64) = some 0x3012 ∧
    Issues (runs [footW 5 []]) f0 (isFoot 5) (ctx [footW 5 []]) := by
  refine ⟨issuesOf ?_, ?_, ?_, ?_, ?_, ?_, ?_, issuesOf ?_, issuesOf ?_, issuesOf ?_, ?_, issuesOf ?_⟩ <;> decide +kernel

def injectOps : List Nat := [footW 4 [(11, 1)]]
def injectState : State := handle 0 1 (entry false 1 1 8 8 16) (runs injectOps)

theorem test_meets_inject : ∃ b, Issues injectState f0 (isFoot 4) (ctx injectOps) ∧ footCheck false (ctx injectOps).desc = none ∧
    injectState.need 0 0 (drainD (ctx injectOps).desc).aux [1, 2] = .ok b ∧ (drainD (ctx injectOps).desc).rows = 1 ∧
    b.footOk (ctx injectOps).row0 (0 + (drainD (ctx injectOps).desc).rowBase) = true ∧ ((injectState.flight 0).tile 0).valid = false ∧
    ((injectState.flight 0).tile 0).sound = true := by
  refine ⟨_, issuesOf ?_, ?_, by rfl, ?_⟩ <;> decide +kernel

def statOps : List Nat := [footW 5 [(41, 1), (19, 2), (3, 1)]]
def statState : State := handle 0 2 (entry false 6 1 1 9 0) (handle 0 1 (entry false 5 1 1 8 0) (runs statOps))

theorem test_meets_statscale : ∃ x b, Issues statState f0 (isFoot 5) (ctx statOps) ∧ footCheck false (ctx statOps).desc = none ∧
    statState.drainStats (ctx statOps) (drainD (ctx statOps).desc).statH 0 1 true false = .ok (some x) ∧
    statState.need 0 0 (drainD (ctx statOps).desc).dst [6] = .ok b ∧ b.writable = true ∧ 2 * (0 + 1) ≤ b.bytesLen ∧
    (drainD (ctx statOps).desc).rowBase = 0 ∧ (drainD (ctx statOps).desc).rows = 1 := by
  refine ⟨_, _, issuesOf ?_, ?_, by rfl, by rfl, ?_⟩ <;> decide +kernel

def reduceOps : List Nat := [word 0x21 [(104, 1), (96, 2), (92, 2), (70, 2)]]
def reduceState : State := handle 0 2 (entry false 5 1 1 12 0) (handle 0 1 (entry false 5 4 1 8 0) (runs reduceOps))

theorem test_meets_reduce : ∃ a b, Issues reduceState f0 (isOp 0x21) (ctx reduceOps) ∧ reduceState.need 0 0 1 [5] = .ok a ∧
    reduceState.need 0 0 2 [5] = .ok b ∧ b.writable = true ∧ 16 * (2 * 2 + 1) ≤ a.bytesLen ∧ 16 * 1 ≤ b.bytesLen ∧
    bits (ctx reduceOps).word 95 92 = 2 ∧ bits (ctx reduceOps).word 85 70 = 2 ∧ bits (ctx reduceOps).word 91 86 = 0 := by
  refine ⟨_, _, issuesOf ?_, by rfl, by rfl, ?_⟩ <;> decide +kernel

/-! Data movers of a program (R145). FETCH and STORE of one unit between area 0, at the model's window, and handle 0 of
the hall landing. -/

def areaProg (fl : Nat) (ops : List Nat) : Prog := { prog ops with img := { image ops with areas := [⟨0x1000, 0x1000, fl⟩] } }
def fetchOp : List Nat := [word 0x30 [(44, 1)]]
def storeOp : List Nat := [word 0x31 [(44, 1)]]
def moverState (fl : Nat) (ops : List Nat) : State := handle 80 0 (entry false 7 1 1 0 0) (put 0 (areaProg fl ops) inRun)
def moverCtx (fl : Nat) (ops : List Nat) : OpCtx := ⟨0, areaProg fl ops, ops.getD 0 0, false⟩

def readOnlyState (ops : List Nat) : State := handle 80 0 (entry false 7 1 1 0 0 + 2 ^ 119) (put 0 (areaProg 1 ops) inRun)

theorem test_meets_fetch_store : ∃ va b r, Issues (moverState 1 fetchOp) f0 (isOp 0x30) (moverCtx 1 fetchOp) ∧
    Issues (moverState 1 storeOp) f0 (isOp 0x31) (moverCtx 1 storeOp) ∧ Issues (moverState 0 storeOp) f0 (isOp 0x31) (moverCtx 0 storeOp) ∧
    (moverState 1 fetchOp).moverRegion (moverCtx 1 fetchOp) = .ok (va, 1, b, 0, 1) ∧ b.writable = true ∧
    (moverState 1 storeOp).moverRegion (moverCtx 1 storeOp) = .ok (va, 1, b, 0, 1) ∧
    (moverState 0 storeOp).moverRegion (moverCtx 0 storeOp) = .ok (va, 0, b, 0, 1) ∧
    Issues (readOnlyState fetchOp) f0 (isOp 0x30) (moverCtx 1 fetchOp) ∧
    (readOnlyState fetchOp).moverRegion (moverCtx 1 fetchOp) = .ok (va, 1, r, 0, 1) ∧ r.writable = false := by
  refine ⟨_, _, _, issuesOf ?_, issuesOf ?_, issuesOf ?_, by rfl, ?_, by rfl, by rfl, issuesOf ?_, by rfl, ?_⟩ <;> decide +kernel

/-- Tenant 0 is enabled and its page 0x1000 is cached as device page 0x2000 (VALID, readable, writable). -/
def withPage (s : State) : State :=
  { s.odPut Od.tenantRoot0 1 with xlate := { s.xlate with cache := [⟨0, 0, 0x1000, 0x1000, 0x200F⟩] } }

/-- A descriptor of 64 bytes of a program's FETCH and of its STORE, between the page and handle 0 of the hall landing. -/
def fetchDesc : Desc := ⟨7, 0, 0x1000, 0, 64, 0, 2, 0, 1, 0, 0, 0, 0, 0, .running, 1, .prog, 0, 0, 0, 0, false⟩
def storeDesc : Desc := ⟨7, 0, 0, 0x1000, 64, 2, 0, 0, 1, 0, 0, 0, 0, 0, .running, 1, .prog, 0, 0, 0, 0, false⟩

def descState (d : Desc) : State :=
  let s := (withPage (handle 80 0 (entry false 7 1 1 0 0) (runs []))).landWrite 80 0 (List.replicate 64 3#8) false 0
  { s with xlate := { s.xlate with descs := [d] } }

theorem test_meets_fetch_access : ∃ s1 b, (descState fetchDesc).desc 7 = some fetchDesc ∧ fetchDesc.piece = 64 ∧
    (descState fetchDesc).moverPlace fetchDesc 0 fetchDesc.src 0 64 false = (.dev 0x2000, s1) ∧ s1.xlate.landed = [] ∧ s1.resolve 0 80 0 = some b ∧
    b.writable = true ∧ 64 ≤ b.bytesLen ∧ (∀ i < 64, s1.wordPoisoned ((0x2000 + i) / 8) = false) ∧ s1.mode ≠ .safeStop := by
  refine ⟨_, _, ?_, ?_, pairOf ?_, ?_, by rfl, ?_⟩ <;> decide +kernel

theorem test_meets_store_access : ∃ s1, (descState storeDesc).desc 7 = some storeDesc ∧ min storeDesc.piece (4096 - (storeDesc.dst + 0) % 4096) = 64 ∧
    (descState storeDesc).moverPlace storeDesc 2 storeDesc.src 0 64 false = (.land 80 0, descState storeDesc) ∧
    (descState storeDesc).moverPlace storeDesc 0 storeDesc.dst 0 64 true = (.dev 0x2000, s1) ∧ s1.xlate.landed = [] ∧ s1.cxl.waiting = [] ∧ s1.mode ≠ .safeStop ∧
    (∀ i < 64, s1.landWordPoison 0 80 (i / 8) = false ∧ s1.hdmLine (0x2000 + i) = none ∧ s1.withdrawn (0x2000 + i) = false) := by
  refine ⟨_, ?_, ?_, by rfl, pairOf ?_, ?_⟩ <;> decide +kernel

def copyOps : List Nat := [word 0x32 [(104, 1), (76, 2), (36, 1)]]
def copyState : State := handle 0 2 (entry false 7 1 1 9 0) (handle 0 1 (entry false 7 1 1 8 0) (runs copyOps))
def tokensOps : List Nat := [word 0x33 [(104, 1)]]
def tokensState : State := handle 0 1 (entry false 1 1 8 8 16) (runs tokensOps)
def outlierOps : List Nat := [word 0x34 [(104, 1)]]
def outlierState : State := handle 0 1 (entry false 1 1 16 8 16 + 2 ^ 118) (runs outlierOps)
def handleOps : List Nat := [word 0x36 [(102, 1)]]

theorem test_meets_fills : ∃ a b t o, Issues copyState f0 (isOp 0x32) (ctx copyOps) ∧ copyState.resolve 0 0 1 = some a ∧
    copyState.resolve 0 0 2 = some b ∧ b.writable = true ∧ 1 ≤ a.units ∧ 1 ≤ b.units ∧ bits (ctx copyOps).word 55 36 = 1 ∧
    Issues tokensState f0 (isOp 0x33) (ctx tokensOps) ∧ tokensState.need 0 0 1 [1, 2] = .ok t ∧ t.rowOk 0 0 = true ∧
    Issues outlierState f0 (isOp 0x34) (ctx outlierOps) ∧ outlierState.need 0 0 1 [1, 2] = .ok o ∧ o.outl = true ∧ o.rowOk 0 0 = true ∧ 1 ≤ cdiv o.channels 256 ∧
    Issues (runs handleOps) f0 (isOp 0x36) (ctx handleOps) ∧ bit (ctx handleOps).word 102 = true := by
  refine ⟨_, _, _, _, issuesOf ?_, by rfl, by rfl, ?_, ?_, ?_, ?_, issuesOf ?_, by rfl, ?_, issuesOf ?_, by rfl, ?_, ?_, ?_, issuesOf ?_, ?_⟩ <;> decide +kernel

def tableOps : List Nat := [word 0x35 [(104, 1)]]
def tableState : State := handle 0 1 (entry false 9 1 33 0 0) (runs tableOps)

def setProg : Prog := { prog [word 0x36 []] with img := { image [word 0x36 []] with handles := [⟨0, 0, 0, entry false 7 1 1 0 0⟩] } }

theorem test_meets_handle_set : Issues (put 0 setProg inRun) f0 (isOp 0x36) ⟨0, setProg, word 0x36 [], false⟩ ∧ bit (word 0x36 []) 102 = false ∧
    setProg.img.handles[bits (word 0x36 []) 101 90]? = some ⟨0, 0, 0, entry false 7 1 1 0 0⟩ ∧
    entryOk 0 (entry false 7 1 1 0 0) (fun o =>
      match (put 0 setProg inRun).resolve 0 0 o with | some b => b.fmt == 0xD | none => false) = true := by
  refine ⟨issuesOf ?_, ?_⟩ <;> decide +kernel

/-- A MASK over one row of 32 channels with generator slot 0 bound for masks. -/
def maskOps : List Nat := [word 0x47 [(104, 1)]]
def maskProg (e : Nat) : Prog := { prog maskOps with img := { image maskOps with binds := [e] } }
def maskState (e : Nat) : State := handle 0 1 (entry false 4 1 1 8 1) (put 0 (maskProg e) inRun)
def maskCtx (e : Nat) : OpCtx := ⟨0, maskProg e, maskOps.getD 0 0, false⟩

theorem test_meets_mask : ∃ b, Issues (maskState (2 ^ 55)) f0 (isOp 0x47) (maskCtx (2 ^ 55)) ∧ ((maskProg (2 ^ 55)).img.bind 0).mask = true ∧
    ((maskProg (2 ^ 56)).img.bind 0).mask = false ∧ Issues (maskState (2 ^ 56)) f0 (isOp 0x47) (maskCtx (2 ^ 56)) ∧
    (maskState (2 ^ 55)).need 0 0 1 [4] = .ok b ∧ b.writable = true ∧ (0 + 1) * 32 ≤ b.channels ∧ b.rowOk 0 0 = true := by
  refine ⟨_, issuesOf ?_, ?_, ?_, issuesOf ?_, by rfl, ?_⟩ <;> decide +kernel

def sampleOps : List Nat := [word 0x46 [(104, 1), (74, 2), (66, 3)]]
def sampleState : State := handle 80 3 (entry false 0 1 1 24 0) (handle 80 2 (entry false 7 1 1 16 0) (handle 80 1 (entry false 3 1 4 8 1) (runs sampleOps)))

theorem test_meets_sample : ∃ l m o, Issues sampleState f0 (isOp 0x46) (ctx sampleOps) ∧ sampleState.need 0 80 1 [3] = .ok l ∧
    sampleState.need 0 80 2 [7] = .ok m ∧ sampleState.need 0 80 3 [0, 7] = .ok o ∧ o.writable = true ∧ l.rowOk 0 0 = true ∧ 2 ≤ m.bytesLen ∧
    4 ≤ o.bytesLen ∧ sampleState.sampleSlots (ctx sampleOps) m 1 = none := by
  refine ⟨_, _, _, issuesOf ?_, by rfl, by rfl, by rfl, ?_⟩ <;> decide +kernel

/-- SEND and RECV of one row with peer 0, in this module or in another. -/
def peerProg (p : Word64) (ops : List Nat) : Prog := { prog ops with img := { image ops with peers := [⟨p, 0, 0⟩] } }
def rowState (p : Word64) (ops : List Nat) : State := handle 80 0 (entry false 1 1 8 0 16) (put 0 (peerProg p ops) inRun)

theorem test_meets_send : ∃ b, Issues (rowState 5 [word 0x40 []]) f0 (isOp 0x40) ⟨0, peerProg 5 [word 0x40 []], word 0x40 [], false⟩ ∧
    (rowState 5 [word 0x40 []]).resolve 0 80 0 = some b ∧ b.view ≠ 2 ∧ b.rowOk 0 0 = true ∧
    (rowState 5 [word 0x40 []]).mine ((rowState 5 [word 0x40 []]).peerPath ⟨5, 0, 0⟩) = false ∧
    Issues (rowState noPath [word 0x40 []]) f0 (isOp 0x40) ⟨0, peerProg noPath [word 0x40 []], word 0x40 [], false⟩ ∧
    (rowState noPath [word 0x40 []]).resolve 0 80 0 = some b ∧
    (rowState noPath [word 0x40 []]).mine ((rowState noPath [word 0x40 []]).peerPath ⟨noPath, 0, 0⟩) = true ∧ (rowState noPath [word 0x40 []]).serve.moves = [] := by
  refine ⟨_, issuesOf ?_, by rfl, ?_, ?_, ?_, issuesOf ?_, by rfl, ?_⟩ <;> decide +kernel

/-- A SEND of two rows that waits where the RECV asks for one (R419). -/
def sendOfTwo : RowMove :=
  { flight := 0, slot := 1, opId := 0, job := 1, tag := 0, peer := 0, unit_ := 0, handle := 0, row0 := 0, rows := 2, got := [], isSend := true }

def recvOps : List Nat := [word 0x41 []]
def recvState (l : List RowMove) : State := { rowState noPath recvOps with serve := { (rowState noPath recvOps).serve with moves := l } }

theorem test_meets_recv (l : List RowMove) (h : l = [] ∨ l = [sendOfTwo]) : ∃ b, Issues (recvState l) f0 (isOp 0x41) ⟨0, peerProg noPath recvOps, word 0x41 [], false⟩ ∧
    (peerProg noPath recvOps).img.peers[0]? = some ⟨noPath, 0, 0⟩ ∧ (recvState l).resolve 0 80 0 = some b ∧ b.writable = true ∧ b.rowOk 0 0 = true ∧
    (recvState l).serve.moves = l ∧ (recvState l).serve.early = [] ∧ (recvState l).mine ((recvState l).peerPath ⟨noPath, 0, 0⟩) = true := by
  rcases h with rfl | rfl <;> refine ⟨_, issuesOf ?_, ?_, by rfl, ?_⟩ <;> decide +kernel

theorem test_meets_row_mismatch : sendOfTwo.rows ≠ bits (word 0x41 []) 87 72 + 1 ∧ sendOfTwo.isSend = true ∧ sendOfTwo.tag = 0 ∧ sendOfTwo.flight = 0 ∧
    sendOfTwo.unit_ = 0 ∧ (⟨0, peerProg noPath recvOps, word 0x41 [], false⟩ : OpCtx).job = sendOfTwo.job := by decide +kernel

theorem kfind_const {α : Type} (v : α) (n a k : Nat) (h : a ≤ k) (g : k < a + n) : kfind k ((List.range' a n).map (fun i => (i, v))) = some v := by
  induction n generalizing a with
  | zero => omega
  | succ n ih =>
    by_cases e : a = k
    · subst e; simp [List.range'_succ, kfind]
    · have := ih (a + 1) (by omega) (by omega)
      simp only [List.range'_succ, List.map_cons, kfind, if_neg e]
      simpa [kfind, e] using this

def tableFull : State :=
  tableState.setLanding 0 { (tableState.landing 0) with bytes := (List.range' 0 2112).map (fun i => (i, 0#8)), stamp := (List.range' 0 33).map (fun u => (u, 0)) }

theorem setLanding_landing (s : State) (l : Nat) (x : Landing) : (s.setLanding l x).landing l = x := by
  unfold State.setLanding State.landing; simp

theorem tableFull_landing : tableFull.landing 0 =
    { (tableState.landing 0) with bytes := (List.range' 0 2112).map (fun i => (i, 0#8)), stamp := (List.range' 0 33).map (fun u => (u, 0)) } := setLanding_landing _ _ _

theorem test_meets_fill_table : ∃ b, Issues tableFull f0 (isOp 0x35) (ctx tableOps) ∧ tableFull.need 0 0 1 [9] = .ok b ∧ 2056 ≤ b.bytesLen ∧ b.landing = 0 ∧
    b.base = 0 ∧ b.since = 0 := by
  refine ⟨_, issuesOf ?_, by rfl, ?_⟩ <;> decide +kernel

theorem test_meets_fill_table_entries (k : Nat) (h : k < 257) :
    sasValid (bits (leNat (tableFull.landBytes 0 0 (0 * 64 + 8 * k) 8)) 47 32) = true := by
  have e : ∀ i < 8, tableFull.landByte 0 0 (0 * 64 + 8 * k + i) = 0#8 := by
    intro i hi
    unfold State.landByte State.landDefined
    rw [tableFull_landing]
    simp only
    rw [kfind_const 0 33 0 _ (by omega) (by omega), kfind_const 0#8 2112 0 _ (by omega) (by omega)]
    rfl
  have : tableFull.landBytes 0 0 (0 * 64 + 8 * k) 8 = List.replicate 8 0#8 := by
    unfold State.landBytes
    rw [List.eq_replicate_iff]
    refine ⟨by simp, fun b hb => ?_⟩
    obtain ⟨i, hi, rfl⟩ := List.mem_map.1 hb
    exact e i (List.mem_range.1 hi)
  rw [this]; decide

/-! Collectives and the router. -/

def collOps (kind : Nat) : List Nat := [word 0x42 [(108, kind), (88, 1)]]
def collProg (kind : Nat) : Prog := { prog (collOps kind) with img := { image (collOps kind) with groups := [⟨1, 1⟩] } }
def collState (kind dstFmt : Nat) : State :=
  handle 80 1 (entry false dstFmt 1 4 4 1) (handle 80 0 (entry false 3 1 4 0 1) (put 0 (collProg kind) inRun))
def collCtx (kind : Nat) : OpCtx := ⟨0, collProg kind, word 0x42 [(108, kind), (88, 1)], false⟩

theorem test_meets_collectives (kind : Nat) (h : kind < 5) : ∃ src dst, CollStands (collState kind 3) (collCtx kind) kind ⟨1, 1⟩ src dst ∧
    Issues (collState kind 3) f0 (isColl kind) (collCtx kind) := by
  have : kind = 0 ∨ kind = 1 ∨ kind = 2 ∨ kind = 3 ∨ kind = 4 := by omega
  rcases this with rfl | rfl | rfl | rfl | rfl <;>
  refine ⟨_, _, ⟨by rfl, by rfl, by rfl, ?_, ?_, ?_, ?_, ?_, fun x hx => nomatch hx⟩, issuesOf ?_⟩ <;> decide +kernel

/-- Destination rows of another format (R411). -/
theorem test_meets_collective_shape : ∃ src dst, (collState 3 5).resolve 0 80 0 = some src ∧ (collState 3 5).resolve 0 80 1 = some dst ∧
    collShapeBad 3 1 1 src dst = true ∧ Issues (collState 3 5) f0 (isColl 3) (collCtx 3) := by
  refine ⟨_, _, by rfl, by rfl, ?_, issuesOf ?_⟩ <;> decide +kernel

def routeOps : List Nat := [word 0x43 [(104, 1), (53, 2), (45, 3)]]
def routeState : State := handle 80 3 (entry false 6 1 1 24 0) (handle 80 2 (entry false 0 1 1 16 0) (handle 80 1 (entry false 3 1 4 8 1) (runs routeOps)))

theorem test_meets_route : ∃ g i w, Issues routeState f0 (isOp 0x43) (ctx routeOps) ∧ routeState.need 0 80 1 [3] = .ok g ∧ routeState.need 0 80 2 [0] = .ok i ∧
    routeState.need 0 80 3 [6] = .ok w ∧ g.rowOk 0 0 = true ∧ 0 + 1 ≤ g.channels ∧ i.writable = true ∧ w.writable = true ∧ 32 * (0 + 1) ≤ i.bytesLen ∧
    16 * (0 + 1) ≤ w.bytesLen := by
  refine ⟨_, _, _, issuesOf ?_, by rfl, by rfl, by rfl, ?_⟩ <;> decide +kernel

/-- An outbound DISPATCH (source handle 1, index handle 2) and a return DISPATCH, with a record of zeros behind handle 0. -/
def outDispOps : List Nat := [word 0x44 [(104, 1), (96, 2)]]
def groupProg (ops : List Nat) : Prog := { prog ops with img := { image ops with groups := [⟨1, 1⟩] } }
def dispState (ops : List Nat) : State :=
  (handle 80 2 (entry false 0 1 1 16 0) (handle 80 1 (entry false 1 1 8 8 16) (handle 80 0 (entry false 7 1 8 0 0) (put 0 (groupProg ops) inRun)))).landWrite
    80 0 (zeros 64) false 0
def dispCtx (ops : List Nat) : OpCtx := ⟨0, groupProg ops, ops.getD 0 0, false⟩

theorem test_meets_outbound : ∃ a i x, Issues (dispState outDispOps) f0 isOutbound (dispCtx outDispOps) ∧ (dispState outDispOps).need 0 80 1 [1, 2] = .ok a ∧
    (dispState outDispOps).need 0 80 2 [0] = .ok i ∧ (dispState outDispOps).readExch 0 0 0 = .ok x ∧ (groupProg outDispOps).img.groups[0]?.isSome = true ∧
    a.view ≠ 2 ∧ a.rowOk 0 0 = true ∧ i.writable = true ∧ 32 * (0 + 1) ≤ i.bytesLen := by
  refine ⟨_, _, _, issuesOf ?_, by rfl, by rfl, by rfl, ?_⟩ <;> decide +kernel

def backOps : List Nat := [word 0x44 []]
/-- An exchange of job 1 and layer 0 whose members have sent these manifests. -/
def exch (man : KMap (List Nat)) : ExchSt := { ExchSt.new 1 0 with record := some 0, manifest := man }
def backState (man : KMap (List Nat)) : State := { dispState backOps with serve := { (dispState backOps).serve with exchanges := [exch man] } }

/-- The return waits for a manifest; finds rows missing; waits for an expert; and runs. -/
theorem test_meets_return : ∃ x, (∀ man ∈ [[], [(0, [1])], [(0, [0, 1])], [(0, [])]], Issues (backState man) f0 isReturn (dispCtx backOps) ∧
      (backState man).serve.exchanges.findIdx? (fun e => e.job == (dispCtx backOps).job && e.layer == 0 && e.record == some 0 && !e.returned) = some 0 ∧
      (backState man).memberCount = 1) ∧ (backState []).readExch 0 0 0 = .ok x ∧ x.layer = 0 ∧ kfind 0 (exch []).manifest = none ∧
    (exch [(0, [1])]).fullFrom 0 0 = false ∧ (exch [(0, [0, 1])]).fullFrom 0 0 = true ∧ (backState [(0, [0, 1])]).slotDone (exch [(0, [0, 1])]) 0 = false ∧
    (exch [(0, [])]).fullFrom 0 0 = true ∧ (∀ k < 16, (backState [(0, [])]).slotDone (exch [(0, [])]) k = true) := by
  refine ⟨_, ?_, by rfl, by rfl, by decide +kernel, ?_, ?_, ?_, ?_, ?_⟩
  · simp only [Issues]; decide +kernel
  all_goals decide +kernel

def combineOps : List Nat := [word 0x45 [(104, 1), (96, 2), (88, 3)]]
def combineState : State :=
  handle 80 3 (entry false 6 1 1 24 0) (handle 80 2 (entry false 0 1 1 16 0) (handle 80 1 (entry false 1 1 8 8 16)
    (((runs combineOps).landWrite 80 1024 (zeros 64) false 0).landWrite 80 1536 (zeros 64) false 0)))

theorem test_meets_combine : ∃ a i w, Issues combineState f0 (isOp 0x45) (ctx combineOps) ∧ (ctx combineOps).badTarget 0 1 = none ∧
    combineState.need 0 80 1 [1, 2] = .ok a ∧ combineState.need 0 80 2 [0] = .ok i ∧ combineState.need 0 80 3 [6] = .ok w ∧ 32 * (0 + 1) ≤ i.bytesLen ∧
    16 * (0 + 1) ≤ w.bytesLen ∧ (combineState.combineRow (ctx combineOps) a i w 0 0).ok = true ∧ ((combineState.flight 0).tile 0).valid = false ∧
    ((combineState.flight 0).tile 0).sound = true := by
  refine ⟨bufOf 0 80 1 (entry false 1 1 8 8 16), bufOf 0 80 2 (entry false 0 1 1 16 0), bufOf 0 80 3 (entry false 6 1 1 24 0), issuesOf ?_, ?_⟩ <;> decide +kernel

/-- An exchange whose rows are written, with no rows and with one row for local slot 0, and one that is open. -/
def written (n : Nat) : ExchSt := { exch [(0, [n, n])] with written := true }
def expertState (e : ExchSt) : State := { putIdle idleProg inRun with serve := { inRun.serve with exchanges := [e] } }

theorem test_meets_experts : (expertState (written 0)).progAt (flightKey f0) 0 = some idleProg ∧
    (∀ n < 2, (expertState (written n)).serve.exchanges.findIdx? (fun e => e.job == idleProg.img.job && e.layer == 0 && e.written && !e.started.contains 0) = some 0) ∧
    (written 0).slotRows 0 = 0 ∧ (written 1).slotRows 0 ≠ 0 ∧ (expertState (written 1)).mayStart (flightKey f0) 0 .idle = true ∧
    (expertState (exch [])).serve.exchanges.find? (fun e => e.job == 1 && e.layer == 0 && e.record.isSome && !e.written) = some (exch []) := by decide +kernel

/-! ### Arches and frames -/

/-- The path of module k of a gallery of level 3, and of module k of gallery g one level up. -/
def tray (k : Nat) : Word64 := BitVec.ofNat 64 (0xFFFFFFFFFFFFFF00 + k)
def rack (g k : Nat) : Word64 := BitVec.ofNat 64 (0xFFFFFFFFFFFF0000 + k * 256 + g)

/-- Run as module 2 of a gallery of level 3 whose other member, 1, is over arch 6, which is up. -/
def member : State :=
  let s := (inRun.odPut Od.depthConfig 3).odPut Od.pathConfig (tray 2).toNat
  ({ s with arcade := { s.arcade with members := [tray 1], manager := some (tray 1), deputy := some (tray 2) } } : State).setArch 6 { ArchSt.reset with state := 3 }

def manager : State := { member with arcade := { member.arcade with manager := some (tray 2), deputy := some (tray 1) } }

/-- A frame over arch 6 from module 1. -/
def frame (vc : Nat) (dest : Word64) (b : Bytes) : Frame :=
  { arch := 6, vc := vc, dest := dest, src := tray 1, ftype := 0, flags := 0, destUnit := 0, hops := 0, job := 1, tag := 0, index := 0, payload := b }

/-- The member with another arch 6. -/
def linked (a : ArchSt) : State := member.setArch 6 a

theorem linked_arch (a : ArchSt) : (linked a).arch 6 = a := by unfold linked State.setArch State.arch; simp

def dataFl (seq : Nat) : Flit := { kind := 1, first := true, last := false, vc := 0, seq := seq, ack := 0, credVc := 0, credCount := 0, body := zeros 8, crcOk := true }
def up : ArchSt := { ArchSt.reset with state := 3 }

/-- The forwarding buffer of class 3 holds 256 flits. -/
def crowded : State := linked { up with queues := [(0, List.replicate 256 ⟨dataFl 0, 1, 3⟩)] }

theorem test_meets_frames : (∀ t ∈ frameTypes, ∃ vc < 4, frameVc t = some vc ∧ Arrives member t (frame vc (tray 2) [])) ∧ member.mine (tray 2) = true ∧
    Arrives manager 0x07 (frame 0 (tray 1) []) ∧ manager.mine (tray 1) = false ∧ manager.routeArch (tray 1) = some 6 ∧ frameVc 0x07 = some 0 ∧
    manager.arcade.held = [] ∧ manager.classFlits 2 3 + cdiv (frameBytes { frame 0 (tray 1) [] with ftype := 0x07 }).length 240 ≤ 256 ∧
    (manager.splitLevel (tray 1)).getD 0 = 3 ∧ manager.mine (tray 3) = false ∧ manager.routeArch (tray 3) = none ∧
    (frame 0 (tray 1) []).hops + 1 < 16 ∧ 16 ≤ ({ frame 0 (tray 1) [] with hops := 15 } : Frame).hops + 1 ∧ frameVc 0x10 ≠ some (frame 0 (tray 1) []).vc ∧
    (inRun.arch 6).up = false := by
  simp only [Arrives]; decide +kernel

theorem test_meets_crowded_frames : Arrives crowded 0x07 (frame 0 (tray 1) []) ∧ crowded.mine (tray 1) = false ∧ crowded.routeArch (tray 1) = some 6 ∧
    256 < crowded.classFlits (6 / 3) ((crowded.splitLevel (tray 1)).getD 0) + cdiv (frameBytes { frame 0 (tray 1) [] with ftype := 0x07 }).length 240 := by
  simp only [Arrives]; decide +kernel

theorem test_meets_long_frame : 16400 < (zeros 16401).length := by unfold zeros; rw [List.length_replicate]; decide

/-- Module 2 of gallery 1 of level 3, in a hierarchy of depth 4. -/
def racked : State := { ((inRun.odPut Od.depthConfig 4).odPut Od.pathConfig (rack 1 2).toNat) with arcade := member.arcade }

def vote (p : Word64) : Bytes := leBytes 1 0 ++ leBytes 8 p.toNat

theorem racked_path : racked.isModulePath (BitVec.ofNat 64 (leField (vote (rack 0 5)) 1 8)) = true := by
  have h : 0 < racked.gallerySize 4 := by
    unfold State.gallerySize State.galleryShape
    simp
  have e : hop (BitVec.ofNat 64 (leField (vote (rack 0 5)) 1 8)) 0 = 0 := by decide +kernel
  have d : racked.depth = 4 := by decide +kernel
  have r : ∀ j < 8, j ≠ 0 → (if j < 2 then decide (hop (BitVec.ofNat 64 (leField (vote (rack 0 5)) 1 8)) j < 64)
    else hop (BitVec.ofNat 64 (leField (vote (rack 0 5)) 1 8)) j == 0xFF) = true := by decide +kernel
  unfold State.isModulePath
  refine List.all_eq_true.2 (fun j hj => ?_)
  rw [d]
  by_cases z : j = 0
  · subst z; rw [e]; simpa using h
  · have := r j (List.mem_range.1 hj) z
    by_cases y : j = 1
    · subst y; simpa using this
    · have w : ¬ j < 2 := by omega
      simpa [w, show ¬ j < 4 - 2 by omega] using this

/-- The member with a program of job 1. -/
def working : State := { member with halls := (put 0 (prog []) member).halls }

theorem test_meets_control_frames : (∀ vc < 4, ∀ p ∈ [vote (tray 1), leBytes 8 0x1000 ++ [1#8]], archOk 6 = true ∧ (member.arch 6).up = true ∧
      (manager.arch 6).up = true ∧ (racked.arch 6).up = true ∧ (working.arch 6).up = true ∧ (frame vc (tray 2) p).payload.length ≤ 16400) ∧
    member.mine (tray 2) = true ∧ member.isModulePath (BitVec.ofNat 64 (leField (vote (tray 1)) 1 8)) = true ∧
    member.splitLevel (BitVec.ofNat 64 (leField (vote (tray 1)) 1 8)) = some 3 ∧
    member.arcade.members.contains (BitVec.ofNat 64 (leField (vote (tray 1)) 1 8)) = true ∧
    racked.mine (rack 1 2) = true ∧
    racked.splitLevel (BitVec.ofNat 64 (leField (vote (rack 0 5)) 1 8)) = some 4 ∧
    member.isManager = false ∧ working.isManager = false ∧ working.mine (tray 2) = true ∧ working.holdsJob 1 = true ∧ member.holdsJob 1 = false ∧
    manager.mine (tray 2) = true ∧ manager.isManager = true ∧ manager.depth = 3 ∧ manager.sameGallery 3 (tray 1) manager.ownPath = true ∧ 2 ∈ manager.levelIndices 3 ∧
    manager.levelIndex (tray 1) 3 ≠ 2 ∧ manager.arcade.barriers = [] ∧ member.arcade.manager = some (frame 3 (tray 2) []).src ∧
    member.arcade.deputy = some member.ownPath ∧ 8 ≤ (leBytes 8 0x1000 ++ [1#8]).length ∧ leField (leBytes 8 0x1000 ++ [1#8]) 0 8 + 1 ≤ memTop := by decide +kernel

/-- A RECV of two rows behind handle 0 of the hall landing, and a SEND frame of its first 8 bytes. -/
def recvMove : RowMove :=
  { flight := 0, slot := 0, opId := 0, job := 1, tag := 0, peer := tray 1, unit_ := 0, handle := 0, row0 := 0, rows := 2, got := [], isSend := false }
def receiver : State := { handle 80 0 (entry false 1 2 8 0 16) (put 0 (prog []) member) with arcade := member.arcade, serve := { member.serve with moves := [recvMove] } }
def rowsFrame (vc : Nat) (n : Nat) : Frame := frame vc (tray 2) (zeros n)

theorem test_meets_row_frames : ∃ b tenant, Arrives receiver 0x10 (rowsFrame 1 16) ∧ receiver.mine (tray 2) = true ∧ receiver.recvBuf recvMove = some (b, tenant) ∧
    recvMove.takes receiver.ownPath { rowsFrame 1 16 with ftype := 0x10 } = true ∧
    (∀ p ∈ (framePieces { rowsFrame 1 16 with ftype := 0x10 } 0 (fun i k => Config.freeByte receiver.free (0x60000 + i) k)).1,
      p.row < 2 ∧ ∀ g ∈ recvMove.got, g.1 = p.row → g.2.1 ≠ p.off) ∧
    Arrives receiver 0x10 { rowsFrame 1 16 with tag := 5 } ∧ recvMove.takes receiver.ownPath { rowsFrame 1 16 with ftype := 0x10, tag := 5 } = false := by
  refine ⟨bufOf 0 80 0 (entry false 1 2 8 0 16), 0, ?_⟩
  simp only [Arrives]; decide +kernel

/-- A collective of job 1 with its instance, and an exchange of job 1 and layer 0 whose manifest of module 1 counts one row. -/
def oneColl : CollSt := ⟨1, tray 1, 0, 0, 2, 1, 1, 256, false, 272, [], [], [], 0⟩
def exchOf (man : KMap (List Nat)) : ExchSt := { ExchSt.new 1 0 with manifest := man }
def backOf : ExchSt := { ExchSt.new 1 0 with record := some 0, sent := [(1, 0, 0)], retMan := [1] }
def gathering (cs : List CollSt) (es : List ExchSt) : State := { member with serve := { member.serve with colls := cs, exchanges := es } }

theorem test_meets_early_frames : (∀ t ∈ [0x11, 0x20, 0x21, 0x22, 0x23], ∃ vc < 4, Arrives member t (rowsFrame vc 19)) ∧
    member.collFor { rowsFrame 1 19 with ftype := 0x11 } = none ∧ member.serve.exchanges = [] ∧ member.serve.early = [] ∧
    (∀ cs ∈ [[], [oneColl]], ∀ es ∈ [[], [exchOf [(1, [1])]], [backOf]], ∀ t ∈ [0x11, 0x21, 0x22, 0x23], ∃ vc < 4, Arrives (gathering cs es) t (rowsFrame vc 19) ∧
      (gathering cs es).mine (tray 2) = true) ∧
    (gathering [oneColl] []).collFor { rowsFrame 1 19 with ftype := 0x11 } = some oneColl := by
  simp only [Arrives]; decide +kernel

theorem test_meets_exchange_rows : (exchOf [(1, [1])]).record = none ∧ kfind ((gathering [] [exchOf [(1, [1])]]).memberOf (tray 1)) (exchOf [(1, [1])]).manifest = some [1] ∧
    (exchOf [(1, [1])]).fullFrom ((gathering [] [exchOf [(1, [1])]]).exchLen (exchOf [(1, [1])])) 1 = false ∧
    (∀ p ∈ ((gathering [] [exchOf [(1, [1])]]).takePieces { rowsFrame 2 24 with ftype := 0x21 } 8).1, p.row < 1) := by decide +kernel

/-- The manifest of the way back: layer 0, member 1, one row of slot 0. -/
def backMan : Bytes := leBytes 2 0 ++ leBytes 1 1 ++ zeros 1 ++ leBytes 2 1 ++ zeros 2 ++ leBytes 2 1 ++ zeros 30

theorem test_meets_way_back : Arrives (gathering [] [{ backOf with retMan := [] }]) 0x22 (frame 2 (tray 2) backMan) ∧ backOf.layer = leField backMan 0 2 ∧ backOf.record.isSome = true ∧
    leField backMan 2 1 = 1 ∧ (manifestCounts backMan).drop 1 = (List.range 16).map (fun k => (backOf.sent.filter (fun p => p.1 == 1 && p.2.1 == k)).length) ∧
    (gathering [] [backOf]).memberOf (tray 1) ∈ backOf.retMan ∧ (0 : Nat) < backOf.sent.length ∧ (backOf.sent.getD 0 (0, 0, 0)).1 = (gathering [] [backOf]).memberOf (tray 1) ∧
    0 ∉ backOf.placed := by
  simp only [Arrives]; decide +kernel

/-- A HELLO of a module that answers nonce 7, over arch 6 in state 2. -/
def helloBody (path : Word64) (depth : Nat) : Bytes := zeros 75 ++ leBytes 1 depth ++ leBytes 8 path.toNat ++ zeros 8 ++ leBytes 8 7 ++ zeros 236
def greeting : State := linked { ArchSt.reset with state := 2, nonces := [7] }

theorem test_meets_hello : archOk 6 = true ∧ (helloBody (tray 1) 3).length ≤ 16400 ∧ (greeting.arch 6).state = 2 ∧
    greeting.helloGenuine 6 (helloBody (tray 1) 3) true true = true ∧
    greeting.helloPlaced 6 (BitVec.ofNat 64 (leField (helloBody (tray 1) 3) 76 8)) = true ∧ greeting.helloGenuine 6 (helloBody (tray 1) 4) true true = false ∧
    greeting.helloGenuine 6 (helloBody (tray 3) 3) true true = true ∧
    greeting.helloPlaced 6 (BitVec.ofNat 64 (leField (helloBody (tray 3) 3) 76 8)) = false ∧ member.arcade.electing = false ∧ (∀ n < 12, (member.arch n).missed < 2) := by
  decide +kernel

def electing (votes : List (Word64 × Nat)) (k l : Nat) : State :=
  { member with arcade := { member.arcade with electing := true, election := votes, electIntervals := k, electLevel := l } }

theorem test_meets_election : (electing [(tray 1, 0)] 0 3).allVoted = true ∧ (electing [] 3 3).allVoted = false ∧ (electing [] 2 3).allVoted = false ∧
    (∀ k l, (electing [] k l).arcade.electing = true ∧ (electing [] k l).arcade.electIntervals = k ∧ (electing [] k l).arcade.electLevel = l) :=
  ⟨by decide +kernel, by decide +kernel, by decide +kernel, fun _ _ => ⟨rfl, rfl, rfl⟩⟩

/-! Flits: an arch that is up with, in turn, a NAK to send, a time flit, a data flit in its queue, and a full retry buffer (the arch of linked a is a). -/

theorem test_meets_flit_slots : archOk 6 = true ∧ archOk 12 = false ∧ ({ up with nak := true } : ArchSt).alive = true ∧ up.alive = true ∧ up.nak = false ∧
    up.partnerTest = false ∧ 1 ≤ up.state ∧ up.state ≤ 4 ∧ ({ up with timeCtl := [dataFl 0] } : ArchSt).alive = true ∧ up.timeCtl = [] ∧ up.slots < 15 ∧ up.ctl = [] ∧
    up.resend = [] ∧ up.retry.length < 512 ∧ kget [] 0 ({ up with queues := [(0, [⟨dataFl 0, 1, 0⟩])] } : ArchSt).queues = [⟨dataFl 0, 1, 0⟩] ∧
    ({ up with queues := [(0, [⟨dataFl 0, 1, 0⟩])] } : ArchSt).credited 0 = true ∧
    512 ≤ ({ up with retry := List.replicate 512 ⟨dataFl 0, 1, 0⟩ } : ArchSt).retry.length := by decide +kernel

theorem test_meets_flits_in : (member.arch 6).rxSeq = 0 ∧ 1 ≤ (member.arch 6).state ∧ (member.arch 6).state ≤ 4 ∧ (member.arch 6).partnerTest = false ∧
    (dataFl 0).crcOk = true ∧ (dataFl 0).kind = 1 ∧ (dataFl 0).seq = 0 ∧ (dataFl 0).last = false ∧ (dataFl 1).crcOk = true ∧ (dataFl 1).kind = 1 ∧
    (dataFl 1).seq ≠ (member.arch 6).rxSeq ∧ ({ dataFl 0 with crcOk := false } : Flit).crcOk = false ∧ 2 < ({ dataFl 0 with kind := 3 } : Flit).kind := by decide +kernel

/-- Two flits that wait for their ACK. -/
def unacked (k : Nat) : State := linked { up with retry := [⟨dataFl 65535, 1, 0⟩, ⟨dataFl 0, 1, 0⟩], streak := k }

theorem test_meets_replay : (∀ k ∈ [0, 7], ((unacked k).arch 6).up = true ∧ ((unacked k).arch 6).retry ≠ [] ∧ (unacked k).mode = .run) ∧
    ((unacked 0).arch 6).streak + 1 < 8 ∧ 8 ≤ ((unacked 7).arch 6).streak + 1 ∧ 0 = ((dataFl 65535).seq + 1) % 65536 ∧ (dataFl 65535).seq < 65536 ∧
    (member.arch 6).up = true ∧ (member.arch 6).partnerTest = false := by decide +kernel

theorem test_meets_training : laneOutcome [0, 1, 2, 3] = some (4, false) ∧ laneOutcome [0, 1, 3, 4] = some (4, true) ∧ laneOutcome [1, 4] = some (2, false) ∧
    laneOutcome [4] = none ∧ (∀ l < 5, l ∈ [1, 4] ↔ l = 1 ∨ l = 4) ∧ (true && true && true && decide (2001 ≤ 2000) && (laneOutcome [0, 1, 2, 3]).isSome) = false ∧
    (∀ k ∈ [0, 2], ((linked { ArchSt.reset with state := 1, attempts := k }).arch 6).state = 1 ∧ ((linked { ArchSt.reset with state := 1, attempts := k }).arch 6).attempts = k ∧
      ((linked { ArchSt.reset with state := 1, attempts := k }).arch 6).partnerTest = false ∧
      ((linked { ArchSt.reset with state := 1, attempts := k }).arch 6).retraining = false ∧ (linked { ArchSt.reset with state := 1, attempts := k }).arcade.held = []) ∧
    (∀ b ∈ [true, false], ({ ArchSt.reset with state := 1, retraining := b } : ArchSt).retraining = b) := by decide +kernel

/-! Time: the module follows arch 6; stands alone; follows the rack pulse. -/

def timed : State := { member with arcade := { member.arcade with askedAt := some 0, outSince := some 0 } }
def follower (v : Option Nat) : State := { (member.odPut Od.timeMode 1) with arcade := { member.arcade with announced := v } }
def alone : State := member.setArch 6 ArchSt.reset

theorem test_meets_time : member.mode ≠ .off ∧ member.timeRef = false ∧ member.rackFollower = false ∧ member.parent = some 6 ∧ alone.mode ≠ .off ∧
    alone.parent = none ∧ alone.timeRef = false ∧ alone.rackFollower = false ∧ timed.arcade.askedAt.isSome = true ∧ timed.parent = some 6 ∧ timed.mode ≠ .training ∧
    (∀ v ∈ [none, some 9], (follower v).mode ≠ .off ∧ (follower v).rackFollower = true ∧ (follower v).rackMode = true ∧ (follower v).arcade.announced = v) ∧
    timed.arcade.outSince.isSome = true ∧ timed.odGet Od.timeState ≠ 4 ∧ timed.timeRef = false ∧
    nearParent 0 0 0 0 = true ∧ nearParent 0 (2 ^ 40) (2 ^ 40) 0 = false := by decide +kernel

/-! ### Object dictionary requests -/

/-- A write from the CXL mailbox of v as n bytes. -/
def wr (n v : Nat) : OdW := ⟨.mailbox, noPath, leBytes n v⟩

def here? (s : State) (p : Word64) : Bool :=
  match s.target p with
  | .here none false _ => true
  | _ => false

theorem here_of {s : State} {p : Word64} (h : here? s p = true) : ∃ l, s.target p = .here none false l := by
  unfold here? at h
  split at h
  · exact ⟨_, ‹_›⟩
  · cases h

def reaches? (s : State) (w : OdW) (k : Nat) : Bool :=
  decide (s.mode ≠ .off) && !s.newel.restarting && !s.newel.recovery && here? s w.path && s.mayWrite (roleOf w.via) (k / 256) &&
  (match s.entryRow (roleOf w.via) k with | some row => row.writable && s.rwsOk row | none => false)

theorem reachesEntry_of {s : State} {w : OdW} {k : Nat} (h : reaches? s w k = true) : ReachesEntry s w w.via k := by
  unfold reaches? at h
  cases e : s.entryRow (roleOf w.via) k with
  | none => simp [e] at h
  | some row =>
    simp only [e, Bool.and_eq_true, decide_eq_true_eq, Bool.not_eq_true'] at h
    obtain ⟨⟨⟨⟨⟨h1, h2⟩, h3⟩, h4⟩, h5⟩, h6, h7⟩ := h
    obtain ⟨l, h4⟩ := here_of h4
    exact ⟨h1, h2, h3, ⟨l, .inl ⟨h4, rfl⟩⟩, h5, row, e, h6, h7⟩

theorem reachesScalar_of {s : State} {w : OdW} {k : Nat} (h : (reaches? s w k && ((odRow k).bind (fun r => r.ty.size) == some w.value.length) &&
    s.valueOk k (writtenValue k (leNat w.value))) = true) : ReachesScalar s w w.via k := by
  simp only [Bool.and_eq_true, beq_iff_eq] at h
  exact ⟨reachesEntry_of h.1.1, h.1.2, h.2⟩

theorem reachesDomain_of {s : State} {w : OdW} {k : Nat} (h : (reaches? s w k && decide ((odRow k).map (·.ty) = some .domain) && domLenOk k w.value.length &&
    s.startOk k && s.od.transfers.all (fun t => t.key != k || !t.isWrite) && decide (s.od.transfers.length < transferMax)) = true) : ReachesDomain s w w.via k := by
  simp only [Bool.and_eq_true, decide_eq_true_eq, List.all_eq_true] at h
  obtain ⟨⟨⟨⟨⟨h1, h2⟩, h3⟩, h4⟩, h5⟩, h6⟩ := h
  refine ⟨reachesEntry_of h1, h2, h3, h4, fun t ht e => ?_, h6⟩
  have := h5 t ht
  simpa [e] using this

def ready : State := { State.reset with mode := .ready }
def stopped : State := { State.reset with mode := .stopped }

theorem test_meets_state_requests : (∀ m ∈ [(1, ready), (4, ready), (1, stopped)], ReachesScalar m.2 (wr 1 m.1) .mailbox Od.stateRequest) ∧
    legalRequest .ready (leNat (wr 1 4).value) = some .run ∧ legalRequest .stopped (leNat (wr 1 1).value) = some .standby ∧ stopped.trans = none ∧
    stopped.fwBusy = false ∧ stopped.tripHot = false ∧ ready.trans = none ∧ ready.fwBusy = false ∧ ready.odGet Od.extestSinceStandby = 0 ∧
    legalRequest .ready (leNat (wr 1 1).value) = none := by
  have h : ∀ m ∈ [(1, ready), (4, ready), (1, stopped)], (reaches? m.2 (wr 1 m.1) Od.stateRequest &&
    ((odRow Od.stateRequest).bind (fun r => r.ty.size) == some (wr 1 m.1).value.length) && m.2.valueOk Od.stateRequest (writtenValue Od.stateRequest (leNat (wr 1 m.1).value))) = true := by
    decide +kernel
  exact ⟨fun m hm => reachesScalar_of (h m hm), by decide +kernel⟩

/-- A package of one layer that places nothing. -/
def package : Package :=
  { outliers := [], expt := [], partOk := true, planCode := 0, slices := [], copies := [], layers := [], templates := 0, customs := 0,
    vocab := 0, vocabId := 0, inputLimit := 1, resultSize := 1, heads := 0, endToken := 0, maskExp := 0, layersN := 1, cacheHeads := 1, rowUnits := 1,
    class0 := [], pool := [], samplers := [], experts := [] }
def layered : State :=
  let s := ({ ready with serve := { ready.serve with models := [(1, { loaded with pkg := some package })] } } : State).rolePut .host Od.layerSelect 65536
  { s with halls := { s.halls with layers := [(65536, ⟨0, false, [], 0, 0, 0, 0, 0, 0⟩)] } }

/-- A write of the module waits for the host's caches. -/
def hostBusy : State := { ready with cxl := { ready.cxl with waiting := [.write 0x1000 [1#8] false] } }

/-- Writes of fixed-size entries that reach them: state, write, entry. -/
def scalarWrites : List (State × OdW × Nat) :=
  [(stopped, wr 4 1702257011, Od.store), (stopped, wr 4 1684107116, Od.restore), (ready, wr 4 1702257011, Od.store), (ready, wr 4 1684107116, Od.restore),
   (State.reset, wr 1 1, Od.trainRequest), (ready, wr 8 0x2001, Od.tenantRoot0), (ready, wr 8 1, Od.tenantRoot0 + 63), (ready, wr 8 0, Od.xlateInvalidate), (hostBusy, wr 8 0, Od.xlateInvalidate),
   (ready, wr 2 0, Od.prlConsumer), (ready, wr 2 0, Od.clogConsumer), (stopped, wr 4 65536, Od.fieldBase), (stopped, wr 8 (stopped.odGet Od.tableBase), Od.tableBase),
   (stopped, wr 8 (stopped.odGet Od.hostWindowBase), Od.hostWindowBase), (stopped, wr 8 (stopped.odGet Od.hostWindowSize), Od.hostWindowSize),
   (layered, wr 1 2, Od.layerMode), (ready, wr 4 7, Od.errorAck), (ready, wr 4 1918985580, Od.persistentClear), (ready, wr 4 0x0105, Od.pageResponse),
   (stopped, wr 4 1953460066, Od.fwActivate), (ready, wr 2 1, Od.unload), (inRun, wr 1 1, Od.testStart), (ready, wr 1 1, Od.testStart), (inRun, wr 1 1, Od.marginStart),
   (ready, wr 1 1, Od.marginStart), (inRun, wr 1 1, Od.bistStart), (ready, wr 1 1, Od.bistStart), (ready, wr 1 1, Od.testAbort), (ready, wr 1 1, Od.measStart)]

theorem test_meets_scalar_writes : ∀ x ∈ scalarWrites, ReachesScalar x.1 x.2.1 x.2.1.via x.2.2 := by
  have h : ∀ x ∈ scalarWrites, (reaches? x.1 x.2.1 x.2.2 && ((odRow x.2.2).bind (fun r => r.ty.size) == some x.2.1.value.length) &&
    x.1.valueOk x.2.2 (writtenValue x.2.2 (leNat x.2.1.value))) = true := by decide +kernel
  exact fun x hx => reachesScalar_of (h x hx)

theorem test_meets_store : stopped.mode = .stopped ∧ stopped.fwBusy = false ∧ ready.mode ≠ .stopped ∧ (stopped.odPut Od.fwState 3).fwBusy = true := by decide +kernel

theorem test_meets_state_ends : State.reset.mode = .standby ∧ State.reset.trans = none ∧ State.reset.tripHot = false ∧ leNat (wr 1 1).value = 1 ∧
    ({ stopped with trans := some .run } : State).mode ≠ .ready ∧ ({ stopped with trans := some .standby } : State).toStandby.odGet Od.startMode ≠ 2 := by decide +kernel

/-- A stream table with one waiting entry, a page request with record 5. -/
def oneStream : State :=
  { stopped with serve := { stopped.serve with streams := [(0, { StreamRec.reset with words := [(0, 2)] })] } }
def pageReq : PageReq := ⟨0, 0x1000, some 5, [], 0, false, 0, 1⟩
def asked : State := { ready with xlate := { ready.xlate with requests := [pageReq] } }
def decoded : State := stopped.odPut Od.hdmCommitted 1

theorem test_meets_entry_writes : ∀ x ∈ [(oneStream, wr 4 65536, Od.fieldBase), (oneStream, wr 8 (oneStream.odGet Od.tableBase), Od.tableBase),
    (decoded, wr 8 (decoded.odGet Od.hostWindowBase), Od.hostWindowBase), (decoded, wr 8 (decoded.odGet Od.hostWindowSize), Od.hostWindowSize),
    (asked, wr 4 0x0105, Od.pageResponse)], ReachesScalar x.1 x.2.1 x.2.1.via x.2.2 := by
  have h : ∀ x ∈ [(oneStream, wr 4 65536, Od.fieldBase), (oneStream, wr 8 (oneStream.odGet Od.tableBase), Od.tableBase),
    (decoded, wr 8 (decoded.odGet Od.hostWindowBase), Od.hostWindowBase), (decoded, wr 8 (decoded.odGet Od.hostWindowSize), Od.hostWindowSize),
    (asked, wr 4 0x0105, Od.pageResponse)], (reaches? x.1 x.2.1 x.2.2 && ((odRow x.2.2).bind (fun r => r.ty.size) == some x.2.1.value.length) &&
    x.1.valueOk x.2.2 (writtenValue x.2.2 (leNat x.2.1.value))) = true := by decide +kernel
  exact fun x hx => reachesScalar_of (h x hx)

theorem test_meets_entries : (∀ t < 64, (ready.progs.all (fun e => e.2.img.tenant != t) && ready.streamList.all (fun i => ready.sTenant i != t || endedState (ready.sState i))) = true) ∧
    hostBusy.cxl.waiting.any hostWrites = true ∧ ready.cxl.waiting.any hostWrites = false ∧
    ready.xlate.requests = [] ∧ ready.serve.clog = [] ∧ stopped.entriesLive = 0 ∧ stopped.foyer.cells = [] ∧ stopped.odGet Od.hdmCommitted = 0 ∧
    stopped.serve.models = [] ∧ decoded.odGet Od.hdmCommitted ≠ 0 ∧ oneStream.entriesLive ≠ 0 ∧ leNat (wr 4 0x0105).value % 65536 / 256 = 1 ∧
    asked.xlate.requests = [pageReq] ∧ pageReq.rec_ = some (leNat (wr 4 0x0105).value % 65536 % 256) ∧ asked.waitersOf pageReq = [] ∧
    layered.selectedLayer (roleOf .mailbox) = some (65536, ⟨0, false, [], 0, 0, 0, 0, 0, 0⟩) := by decide +kernel

def fwBody : Bytes := leBytes 4 0x57465843 ++ leBytes 2 1 ++ leBytes 2 0 ++ ascii "CTX3-48A" ++ zeros 8 ++ leBytes 4 1 ++ leBytes 4 1 ++ leBytes 4 1 ++ zeros 221
def staged : State :=
  let s := stopped.odPut Od.fwState 3
  { s with newel := { s.newel with staged := some (⟨1, 1, 0⟩, 1) } }
def programmed : State := stopped.odPut Od.fwState 4

theorem test_meets_firmware : ReachesDomain stopped ⟨.mailbox, noPath, fwBody⟩ .mailbox Od.fwImage ∧ ReachesScalar programmed (wr 4 1953460066) .mailbox Od.fwActivate ∧
    fwHeaderOk fwBody = true ∧ stopped.newel.security ≤ leField fwBody 28 4 ∧
    (fwHeaderOk fwBody && false && decide (stopped.newel.security ≤ leField fwBody 28 4) && true) = false ∧ staged.odGet Od.fwState = 3 ∧
    staged.newel.staged = some (⟨1, 1, 0⟩, 1) ∧ stopped.odGet Od.fwState ≠ 3 ∧ programmed.mode = .stopped ∧ programmed.odGet Od.fwState = 4 ∧ programmed.trans = none ∧
    here? stopped noPath = true ∧ stopped.mode ≠ .off ∧ stopped.od.transfers = [] ∧ stopped.newel.recovery = false ∧ stopped.newel.restarting = false :=
  ⟨reachesDomain_of (by decide +kernel), reachesScalar_of (by decide +kernel), by decide +kernel⟩

/-- A load of model 1 from one part in the host window, for tenant 0, which is enabled. -/
def loadBody : Bytes := leBytes 8 16106127360 ++ leBytes 8 4096 ++ leBytes 2 1 ++ zeros 46
def loading : State := { ready.odPut Od.tenantRoot0 1 with mode := .ready }
def awaited : ModelSt := { loaded with state := 1, pkgAddr := 16106127360, pkgLen := 4096 }
def awaiting : State := { loading with serve := { loading.serve with models := [(1, awaited)] } }

theorem planRefusal_empty (s : State) (x : ModelSt) : s.planRefusal x package = 0 := by simp [State.planRefusal, package]

theorem test_meets_load : ReachesDomain loading ⟨.mailbox, noPath, loadBody⟩ .mailbox Od.loadRequest ∧
    ReachesDomain State.reset ⟨.mailbox, noPath, loadBody⟩ .mailbox Od.loadRequest ∧ loading.awaitsPlan (loadD loadBody) = false ∧
    loading.mayLoad = true ∧ loading.loadForm (loadD loadBody) = true ∧ (loadD loadBody).part = 0 ∧ (loadD loadBody).model ≠ 0 ∧
    kfind (loadD loadBody).model loading.serve.models = none ∧ package.partOk = true ∧ (State.reset : State).mayLoad = false ∧ State.reset.awaitsPlan (loadD loadBody) = false ∧
    loadBody.length = 64 ∧ awaiting.awaitsPlan (loadD loadBody) = true ∧ kfind (loadD loadBody).model awaiting.serve.models = some awaited ∧ awaited.part = 0 ∧
    awaiting.planRefusal awaited { package with planCode := 0x4301 } ≠ 0 :=
  ⟨reachesDomain_of (by decide +kernel), reachesDomain_of (by decide +kernel), by decide +kernel⟩

def cellBody (action : Nat) : Bytes := leBytes 8 7 ++ zeros 10 ++ leBytes 1 action ++ zeros 29

/-- A model in use, and one that nothing uses. -/
def inUse : State := put 0 (prog []) (withModel ready)

theorem test_meets_unload : (∀ s ∈ [ready, inUse, withModel ready], ReachesScalar s (wr 2 1) .mailbox Od.unload) ∧ kfind (leNat (wr 2 1).value) ready.serve.models = none ∧
    (kfind (leNat (wr 2 1).value) inUse.serve.models).isSome = true ∧ (∃ e ∈ inUse.progs, e.2.img.model = leNat (wr 2 1).value) ∧
    (kfind (leNat (wr 2 1).value) (withModel ready).serve.models).isSome = true ∧ (withModel ready).progs = [] ∧ (withModel ready).streamList = [] := by
  have h : ∀ s ∈ [ready, inUse, withModel ready], (reaches? s (wr 2 1) Od.unload && ((odRow Od.unload).bind (fun r => r.ty.size) == some (wr 2 1).value.length) &&
    s.valueOk Od.unload (writtenValue Od.unload (leNat (wr 2 1).value))) = true := by decide +kernel
  exact ⟨fun s hs => reachesScalar_of (h s hs), by decide +kernel⟩

theorem test_meets_map : (∀ n ∈ [0, 48], ReachesDomain ready ⟨.mailbox, noPath, zeros n⟩ .mailbox Od.fieldMap) ∧
    (∀ a ∈ [0, 1, 2], ReachesDomain ready ⟨.mailbox, noPath, cellBody a⟩ .mailbox Od.fieldCellSet) ∧
    (∃ r ∈ mapRecords (zeros 48), ready.cellRecOk r = false) ∧ ready.foyer.cells = [] ∧
    leField (cellBody 2) 18 1 = 2 ∧ leField (cellBody 0) 18 1 = 0 ∧ leField (cellBody 1) 18 1 = 1 ∧ ready.cellRecOk (cellRecOf (cellBody 0)) = false ∧
    ready.domGet Od.fieldMap [] = [] := by
  refine ⟨fun n hn => reachesDomain_of ?_, fun a ha => reachesDomain_of ?_, by decide +kernel⟩
  · revert n hn; decide +kernel
  · revert a ha; decide +kernel

/-- A line test, a margin test and self-tests that run. -/
def testing (kind iface : Nat) : State := { ready with test := { ready.test with run := some ⟨kind, iface, 0, 1, 0⟩ } }
def aimed : State := ready.odPut Od.testTarget 0x400
def looped (e : Nat) : State := ((testing 1 1).odPut Od.archEnable e).setArch 0 { ArchSt.reset with loopSent := true }
def marginal : State := (ready.odPut Od.stacksPresent (2 ^ 24 - 1)).odPut Od.marginTarget 23
def chosen : State := ready.odPut Od.bistSelect 0x20000000
def testWrites : List (State × Nat) :=
  [(testing 1 2, Od.testStart), (aimed, Od.testStart), (marginal, Od.marginStart), (chosen, Od.bistStart), (testing 2 0, Od.testAbort),
   (ready.odPut Od.measState 1, Od.measStart)]

theorem test_meets_test_writes : ∀ x ∈ testWrites, ReachesScalar x.1 (wr 1 1) .mailbox x.2 := by
  have h : ∀ x ∈ testWrites, (reaches? x.1 (wr 1 1) x.2 && ((odRow x.2).bind (fun r => r.ty.size) == some (wr 1 1).value.length) &&
    x.1.valueOk x.2 (writtenValue x.2 (leNat (wr 1 1).value))) = true := by decide +kernel
  exact fun x hx => reachesScalar_of (h x hx)

theorem test_meets_tests : inRun.mode ≠ .ready ∧ inRun.mode ≠ .stopped ∧ (testing 1 2).mode = .ready ∧ (testing 1 2).test.run.isSome = true ∧ aimed.mayTest = 0 ∧
    testOk (aimed.odGet Od.testTarget / 256) (aimed.odGet Od.testTarget % 256) (aimed.odGet Od.testDepth) (aimed.odGet Od.testPattern) = true ∧
    ownTestPath .mailbox 0 (aimed.odGet Od.testTarget / 256) (aimed.odGet Od.testTarget % 256) = false ∧ aimed.odGet Od.testTarget / 256 ≠ 3 ∧
    marginal.mayTest = 0 ∧ marginal.marginTargetOk (marginal.odGet Od.marginTarget) = true ∧ chosen.mayTest = 0 ∧ chosen.bistCheck (chosen.odGet Od.bistSelect) = 0 ∧
    (∀ k ∈ [1, 2, 3], ∀ i ∈ [1, 2, 3], (testing k i).test.run = some ⟨k, i, 0, 1, 0⟩) ∧ ((testing 1 1).arch 0).loopSent = false ∧
    (∀ e ∈ [0, 1], (looped e).test.run = some ⟨1, 1, 0, 1, 0⟩ ∧ ((looped e).arch 0).loopSent = true ∧ bit ((looped e).odGet Od.archEnable) 0 = decide (e = 1)) ∧
    measSide (ready.odGet Od.measSource) = measSide (ready.odGet Od.measGateSource) ∧
    ¬ (0x10 ≤ ready.odGet Od.measSource ∧ ready.odGet Od.measSource ≤ 0x4F ∧ ready.odGet Od.measGateSource ≠ 0) ∧ ready.odGet Od.measState ≠ 1 ∧
    (ready.odPut Od.measState 1).odGet Od.measState = 1 ∧ ready.test.run = none := by decide +kernel

/-- A partner asks for a test over arch 0, which is down. -/
def asksTest : State := (ready.odPut Od.partnerLoopAllow 1).setArch 0 { ArchSt.reset with state := 5 }

theorem test_meets_partner_test : (asksTest.arch 0).state = 5 ∧ (asksTest.arch 0).loopSent = false ∧ asksTest.odGet Od.partnerLoopAllow ≠ 0 ∧ asksTest.mode = .ready ∧
    asksTest.test.run = none := by decide +kernel

/-! ### The CXL port and the EOP -/

def cxlUp (s : State) : State := { s with cxl := { s.cxl with linkUp := true } }

/-- A mailbox request of a dictionary operation, its access, and what must hold of both. -/
def mb (op k : Nat) (path : Word64) (b : Bytes) : MbReq :=
  ⟨0xC000 + op, leBytes 8 path.toNat ++ leBytes 2 (k / 256) ++ leBytes 1 (k % 256) ++ zeros 1 ++ leBytes 4 b.length ++ b⟩
def acc (op k : Nat) (path : Word64) (b : Bytes) : Access := ⟨.mailbox, 0, .mailbox, op, path, k, b, .plain, segmentMax .mailbox, 2⟩

def mbCase (s : State) (op k : Nat) (path : Word64) (b : Bytes) : Bool :=
  let q := mb op k path b
  decide (op ≤ 5) && !s.newel.recovery && (s.cxl.linkUp || s.cxl.pcieOnly) && !s.newel.restarting && decide (q.opcode = 0xC000 + op) && decide (16 ≤ q.payload.length) &&
  decide (q.length = q.body.length) && decide (q.path = path) && decide (q.index * 256 + q.sub = k) && decide (q.body = b)

theorem brings_of {s : State} {op k : Nat} {path : Word64} {b : Bytes} (h : mbCase s op k path b = true) :
    Brings s s (mailboxCommand op (mb op k path b)) (acc op k path b) := by
  unfold mbCase at h
  simp only [Bool.and_eq_true, decide_eq_true_eq, Bool.not_eq_true'] at h
  obtain ⟨⟨⟨⟨⟨⟨⟨⟨⟨h1, h2⟩, h3⟩, h4⟩, h5⟩, h6⟩, h7⟩, h8⟩, h9⟩, h10⟩ := h
  exact ⟨h1, h2, .inl ⟨mb op k path b, ⟨h3, h4, h5, h6, h7⟩, rfl, rfl, by rw [acc, h8, h9, h10]⟩⟩

theorem bringsHere_of {s : State} {op k : Nat} {b : Bytes} (h : (mbCase s op k noPath b && here? s noPath) = true) :
    ∃ l, BringsHere s s (mailboxCommand op (mb op k noPath b)) (acc op k noPath b) l := by
  rw [Bool.and_eq_true] at h
  obtain ⟨l, e⟩ := here_of h.2
  exact ⟨l, brings_of h.1, e⟩

def row (k : Nat) : OdRow := (odRow k).getD ⟨0, .u8, .cnst, 0, false, .any⟩

/-- Ready over the mailbox with an open transfer of an entry. -/
def moving (k total : Nat) (w : Bool) (d : Bytes) : State := { cxlUp ready with od := { ready.od with transfers := [⟨.mailbox, k, w, total, d, 0, 0⟩] } }

/-- The mailbox cases: state, operation, entry, body. -/
def mbCases : List (State × Nat × Nat × Bytes) :=
  [(cxlUp ready, 0, Od.tableBase, []), (cxlUp ready, 1, Od.layerSelect, leBytes 4 1), (cxlUp ready, 1, Od.stateRequest, leBytes 1 2), (cxlUp ready, 2, 0x400017, []),
   (cxlUp ready, 3, Od.fieldMap, leBytes 4 96), (moving Od.fieldMap 96 true [], 4, Od.fieldMap, leBytes 4 0 ++ zeros 48),
   (moving Od.fieldMap 96 true [], 4, Od.fieldMap, leBytes 4 48 ++ zeros 48), (moving 0x400017 128 false (zeros 128), 4, 0x400017, leBytes 4 0),
   (moving Od.fieldMap 96 true [], 5, Od.fieldMap, [])]

theorem test_meets_mailbox : ∀ x ∈ mbCases, ∃ l, BringsHere x.1 x.1 (mailboxCommand x.2.1 (mb x.2.1 x.2.2.1 noPath x.2.2.2)) (acc x.2.1 x.2.2.1 noPath x.2.2.2) l := by
  have h : ∀ x ∈ mbCases, (mbCase x.1 x.2.1 x.2.2.1 noPath x.2.2.2 && here? x.1 noPath) = true := by decide +kernel
  exact fun x hx => bringsHere_of (h x hx)

theorem test_meets_mailbox_scalars : MayReadEntry (cxlUp ready) (acc 0 Od.tableBase noPath []) (row Od.tableBase) ∧ (row Od.tableBase).ty.size = some 8 ∧
    MayWriteEntry (cxlUp ready) (acc 1 Od.layerSelect noPath (leBytes 4 1)) (row Od.layerSelect) ∧ (row Od.layerSelect).ty.size = some (leBytes 4 1).length ∧
    ((cxlUp ready).writeScalar .mailbox 0 Od.layerSelect (leNat (leBytes 4 1))).1 = 0 ∧ Od.layerSelect ≠ Od.xlateInvalidate ∧
    MayWriteEntry (cxlUp ready) (acc 1 Od.stateRequest noPath (leBytes 1 2)) (row Od.stateRequest) ∧ (row Od.stateRequest).ty.size = some (leBytes 1 2).length ∧
    (cxlUp ready).valueOk Od.stateRequest (writtenValue Od.stateRequest (leNat (leBytes 1 2))) = false := by
  simp only [MayReadEntry, MayWriteEntry]; decide +kernel

theorem test_meets_mailbox_domains : MayReadEntry (cxlUp ready) (acc 2 0x400017 noPath []) (row 0x400017) ∧ (row 0x400017).ty = .domain ∧ (cxlUp ready).od.transfers = [] ∧
    (cxlUp ready).odBytes .host 0x400017 ≠ [] ∧ MayWriteEntry (cxlUp ready) (acc 3 Od.fieldMap noPath (leBytes 4 96)) (row Od.fieldMap) ∧ (row Od.fieldMap).ty = .domain ∧
    domLenOk Od.fieldMap (leNat (leBytes 4 96)) = true ∧ leNat (leBytes 4 96) ≠ 0 ∧ Od.fieldMap ≠ Od.fwImage ∧
    MayWriteEntry (moving Od.fieldMap 96 true []) (acc 4 Od.fieldMap noPath (leBytes 4 0 ++ zeros 48)) (row Od.fieldMap) ∧
    (leBytes 4 0 ++ zeros 48).length ≤ segmentMax .mailbox + 4 ∧ leField (leBytes 4 0 ++ zeros 48) 0 4 + 48 ≤ 96 ∧ leField (leBytes 4 0 ++ zeros 48) 0 4 = 0 ∧
    leField (leBytes 4 48 ++ zeros 48) 0 4 + 48 ≤ 96 ∧ leField (leBytes 4 48 ++ zeros 48) 0 4 ≠ 0 ∧
    MayReadEntry (moving 0x400017 128 false (zeros 128)) (acc 4 0x400017 noPath (leBytes 4 0)) (row 0x400017) ∧ leField (leBytes 4 0) 0 4 ≤ 0 ∧
    ((moving Od.fieldMap 96 true []).entryRow .host Od.fieldMap).isSome = true := by
  simp only [MayReadEntry, MayWriteEntry]; decide +kernel

def restarted : State := { cxlUp ready with newel := { ready.newel with restarting := true } }
/-- Ready as the manager of module 1, with its host. -/
def hosting : State := { cxlUp manager with mode := .ready }

theorem test_meets_mailbox_answers : (restarted.cxl.linkUp || restarted.cxl.pcieOnly) = true ∧ restarted.newel.restarting = true ∧
    ((cxlUp ready).cxl.linkUp || (cxlUp ready).cxl.pcieOnly) = true ∧ ready.newel.restarting = false ∧ (mb 1 0 noPath []).opcode ≠ 0xC000 + 0 ∧
    (⟨0xC000, zeros 12⟩ : MbReq).payload.length < 16 ∧ (⟨0xC000, zeros 17⟩ : MbReq).length ≠ (⟨0xC000, zeros 17⟩ : MbReq).body.length ∧
    (cxlUp ready).target 0x01FFFFFFFFFFFF05#64 = .bad ∧ (∃ d, hosting.target (tray 1) = .away (tray 1) d) ∧ hosting.originMay (acc 0 Od.tableBase (tray 1) []) = true := by
  refine ⟨?_, ?_, ?_, ?_, ?_, ?_, ?_, ?_, ⟨_, by rfl⟩, ?_⟩ <;> decide +kernel

theorem test_meets_mailbox_paths : Brings (cxlUp ready) (cxlUp ready) (.odRead (mb 0 Od.tableBase 0x01FFFFFFFFFFFF05#64 [])) (acc 0 Od.tableBase 0x01FFFFFFFFFFFF05#64 []) ∧
    Brings hosting hosting (.odRead (mb 0 Od.tableBase (tray 1) [])) (acc 0 Od.tableBase (tray 1) []) :=
  ⟨brings_of (by decide +kernel), brings_of (by decide +kernel)⟩

/-- Waits for a state: the one that holds, and one to come. -/
def waitReq (st : Nat) : MbReq := ⟨0xC006, leBytes 8 noPath.toNat ++ zeros 4 ++ leBytes 4 3 ++ leBytes 1 st ++ leBytes 2 10000⟩
def waits (o : Origin) : State := { ready with od := { ready.od with stateWait := some ⟨o, 4, 0⟩ } }

theorem test_meets_state_wait : (∀ st ∈ [3, 4], MailboxServes (cxlUp ready) 0xC006 (waitReq st) ∧ (waitReq st).path = noPath ∧ (waitReq st).body.length = 3 ∧
      leField (waitReq st).body 1 2 ≤ 10000 ∧ leField (waitReq st).body 1 2 ≠ 0) ∧ here? (cxlUp ready) noPath = true ∧ (cxlUp ready).newel.recovery = false ∧
    (cxlUp ready).od.stateWait = none ∧ leField (waitReq 3).body 0 1 = ready.mode.code ∧ leField (waitReq 4).body 0 1 ≠ ready.mode.code ∧
    (waits .mailbox).od.stateWait = some ⟨.mailbox, 4, 0⟩ ∧ (moving Od.fieldMap 96 true []).od.transfers = [⟨.mailbox, Od.fieldMap, true, 96, [], 0, 0⟩] := by
  simp only [MailboxServes]; decide +kernel

/-- An Arcade OD request of the manager, and a proxy that waits. -/
def asks : MbReq := mb 0 Od.tableBase noPath []
def proxy : Proxy := ⟨4, .mailbox, tray 1, 0xC000, Od.tableBase, 100⟩
def proxied : State := { member with od := { member.od with proxies := [proxy] } }
def stranger : Frame := { frame 0 (tray 2) [] with src := tray 3 }

theorem test_meets_arcade_od : ManagerAsks member (frame 0 (tray 2) []) asks ∧ asks.opcode = 0xC000 ∧ here? member noPath = true ∧ member.newel.recovery = false ∧
    asks.path = noPath ∧ asks.index * 256 + asks.sub = Od.tableBase ∧ asks.body = [] ∧ member.odManager ≠ some stranger.src ∧ member.mine stranger.dest = true ∧
    asks.payload.length ≤ 16400 ∧ ({ member with newel := { member.newel with restarting := true } } : State).newel.restarting = true ∧
    ({ member with newel := { member.newel with restarting := true } } : State).mine (tray 2) = true ∧
    (proxied.arch 6).up = true ∧ proxied.mine (tray 2) = true ∧ proxied.od.proxies = [proxy] ∧ proxy.id = 4 ∧ proxy.dest = (frame 0 (tray 2) []).src ∧ proxy.opcode ≠ 4 ∧
    (∀ p ∈ member.od.proxies, p.id ≠ 4 ∨ p.dest ≠ tray 1) := by
  simp only [ManagerAsks]; decide +kernel

/-- An EOP request of key 0 with sequence number seq, not signed, for the module itself, and its payload: READ of an entry (R54, R57). -/
def eopReqBytes (op seq : Nat) : Bytes :=
  [0x45#8, 0x4F#8, 1#8, BitVec.ofNat 8 op, 0#8, 0#8, 0#8, 4#8, 0#8, 0#8, 0#8, 0#8] ++ (leBytes 8 seq).reverse ++ zeros 8 ++ List.replicate 8 0xFF#8 ++ zeros 4
def eopOn : State :=
  let s := (((cxlUp ready).odPut Od.eopEnable 1).odPut Od.foyerState 2).odPut Od.eopSignedReads 0
  { (s.odPut Od.portLinks 4).odPut Od.eopUdpPort 4444 with eop := s.eop }
def datagram (b : Bytes) : Datagram := ⟨2, 0, 0, 4444, false, b, false⟩

theorem test_meets_eop : EopPasses eopOn (datagram (eopReqBytes 1 5000)) ∧ (eopHdr (eopReqBytes 1 5000)).op = 1 ∧ (eopHdr (eopReqBytes 1 5000)).path = noPath ∧
    here? (eopOn.eopTaken (datagram (eopReqBytes 1 5000))) noPath = true ∧ eopOn.newel.recovery = false ∧
    40 ≤ (eopReqBytes 1 5000).length ∧ (eopReqBytes 1 5000).length ≤ 1186 ∧ eopOn.eopArrives (datagram []) = true ∧ (datagram []).payload.length < 40 ∧
    eopFormOk (eopReqBytes 7 5000) = false ∧ eopFormOk (eopReqBytes 2 5000) = true ∧ eopOn.eopAuthOk (eopHdr (eopReqBytes 2 5000)) false = false ∧
    ({ eopOn.odPut Od.tbState 2 with epoch := 10 ^ 15, eop := eopOn.eop } : State).eopAuthOk (eopHdr (eopReqBytes 1 5000)) false = true ∧
    ({ eopOn.odPut Od.tbState 2 with epoch := 10 ^ 15, eop := eopOn.eop } : State).eopFresh (eopHdr (eopReqBytes 1 5000)) = false ∧
    eopFormOk (eopReqBytes 1 4096) = true ∧ eopOn.eopAuthOk (eopHdr (eopReqBytes 1 4096)) false = true ∧ eopOn.eopFresh (eopHdr (eopReqBytes 1 4096)) = true ∧
    eopOn.eopSeqOk 0 4097 = true ∧ eopOn.eopSeqOk 0 4096 = false ∧
    (eopOn.eopAccept 0 5000).eopSeqOk 0 4936 = false ∧ (eopOn.eopAccept 0 5000).eopSeqOk 0 4937 = true ∧ (eopOn.eopAccept 0 5000).eopSeqOk 0 5000 = false ∧
    (eopOn.eopCheck (eopReqBytes 7 5000) false).1 = false ∧ eopOn.eopArrives (datagram (eopReqBytes 7 5000)) = true ∧
    ready.eopArrives { datagram [] with dstPort := 1 } = false := by
  simp only [EopPasses]; decide +kernel

/-- Memory_Active is set; a line of the window is cached; a write to it waits for its BIRsp. -/
def active : State := (cxlUp ready).odPut Od.trainingState 2
def cached : State := { active with cxl := { active.cxl with filter := [0] } }
def snooping : State := { cached with cxl := { cached.cxl with snooped := some 0, waiting := [.write 16106127360 [] false] } }
def halted : State := { active with mode := .safeStop }

theorem test_meets_cxl : (∀ s ∈ [restarted, cxlUp ready], (s.cxl.linkUp || s.cxl.pcieOnly) = true) ∧ effectsLog.length ≤ 0 + effectsLog.length ∧
    4 ≤ [0#8, 1#8, 0#8, 1#8].length ∧ (∀ b ∈ [0#8, 1#8, 0#8, 1#8], b.toNat % 4 ≤ 1 ∧ b.toNat / 16 = 0) ∧
    (cxlUp (waits .mailbox)).od.stateWait = some ⟨.mailbox, 4, 0⟩ ∧ (cxlUp ready).memoryActive = false ∧
    (cxlUp ready).cxl.linkUp = true ∧ 1073741760 / 64 * 64 < ready.rangeSize ∧ ready.rangeSize ≤ 1073741824 / 64 * 64 ∧ active.memoryActive = true ∧ active.mode ≠ .safeStop ∧
    1073741760 / 64 * 64 < active.rangeSize ∧ active.cxl.filter.length < 1048576 ∧ active.inTable (active.odGet Od.hostWindowBase) = false ∧ active.xlate.landed = [] ∧
    active.od.ready = [] ∧ active.withdrawn (active.odGet Od.hostWindowBase) = false ∧ active.odGet Od.hostWindowBase % 64 = 0 ∧
    active.odGet Od.hostWindowBase + active.rangeSize ≤ mezzBase ∧ halted.memoryActive = true ∧ halted.mode = .safeStop ∧ 0 / 64 * 64 < halted.rangeSize ∧
    active.cxl.waiting = [] ∧ cached.cxl.waiting = [] ∧ cached.cxl.snooped = none ∧ cached.hdmLine 16106127360 = some 0 ∧ cached.cxl.filter.contains 0 = true ∧
    snooping.cxl.snooped = some 0 ∧ snooping.cxl.waiting = [.write 16106127360 [] false] ∧ snooping.hdmLine 16106127360 = some 0 ∧ snooping.xlate.landed = [] ∧
    snooping.od.ready = [] ∧ active.cxl.snooped ≠ some 0 := by decide +kernel

def portReady : State := { ready with cxl := { ready.cxl with perstHigh := true } }
def armed (m : Bool) (masked : List Nat) : State :=
  { cxlUp ready with serve := { ready.serve with coalesce := [(3, (0, m))] }, cxl := { (cxlUp ready).cxl with masked := masked, pendBits := [3] } }

theorem test_meets_link : portReady.portLive = true ∧ portReady.testing 3 0 = false ∧ portReady.cxl.linkUp = false ∧ portReady.cxl.pcieOnly = false ∧
    (cxlUp ready).cxl.linkUp = true ∧ 268435456 ≤ (cxlUp ready).rangeSize ∧
    268435456 % 268435456 = 0 ∧ ¬ (1 % 268435456 = 0 ∧ 0 % 268435456 = 0 ∧ 0 ≤ (cxlUp ready).rangeSize ∧ 1 = 1) ∧ (cxlUp ready).xlate.descs = [] ∧
    (cxlUp ready).xlate.landed = [] ∧ (cxlUp ready).od.ready = [] ∧ (cxlUp ready).cxl.waiting = [] ∧ (cxlUp ready).serve.steps = [] ∧ (cxlUp ready).serve.streams = [] ∧
    (ready.cxl.linkUp || ready.cxl.pcieOnly) = false ∧ (cxlUp ready).cxl.masked.contains 0 = true ∧
    (cxlUp ready).cxl.funcMask = false ∧ (cxlUp ready).cxl.d3hot = false ∧ vectorOk 63 = true ∧ vectorOk 64 = false ∧ kfind 3 ready.serve.coalesce = none ∧
    vectorOk 3 = true ∧ (∀ m ∈ [true, false], kfind 3 (armed m []).serve.coalesce = some (0, m) ∧ (armed m []).cxl.waiting = [] ∧ (armed m []).cxl.linkUp = true ∧
      (armed m []).cxl.d3hot = false ∧ (armed m []).cxl.funcMask = false ∧ (armed m []).cxl.masked.contains 3 = false ∧ (armed m []).cxl.pendBits = [3]) := by decide +kernel

/-! ### Movers, streams, loads -/

/-- A plan's copy of 64 bytes from device address 0 to 64, by a Mover of hall 0. -/
def copyDesc (st : DescState) : Desc :=
  { id := 1, hall := 0, src := 0, dst := 64, len := 64, srcSpace := 1, dstSpace := 1, tenant := 0, cls := 1, stream := 0, origin := 0, confirmed := 0, faultAddr := 0,
    status := 0, state := st, job := 0, use := .plan }
def carries (d : Desc) : State := { ready with xlate := { ready.xlate with descs := [d] } }
/-- All 16 Movers of hall 0 are busy. -/
def full : State := { ready with xlate := { ready.xlate with descs := copyDesc .queued :: List.replicate 16 (copyDesc .running) } }
def badCopy (st : DescState) : Desc := { copyDesc st with len := 0 }
def farCopy : Desc := { copyDesc .running with src := memTop }

theorem test_meets_movers : hallOk 3 = true ∧ hallOk 4 = false ∧ hallOk 0 = true ∧ ready.nextDescFor 0 = none ∧ 16 ≤ (full.runningMovers 0).length ∧
    ((carries (copyDesc .queued)).runningMovers 0).length < 16 ∧ (carries (copyDesc .queued)).nextDescFor 0 = some (copyDesc .queued) ∧ descOk (copyDesc .queued).bytes = true ∧
    ((carries (badCopy .queued)).runningMovers 0).length < 16 ∧ (carries (badCopy .queued)).nextDescFor 0 = some (badCopy .queued) ∧ descOk (badCopy .queued).bytes = false ∧
    (carries (badCopy .queued)).desc 1 = some (badCopy .queued) ∧ (carries (copyDesc .done)).desc 1 = some (copyDesc .done) ∧
    (carries (copyDesc .running)).desc 1 = some (copyDesc .running) ∧ (copyDesc .running).sent < (copyDesc .running).len ∧ (copyDesc .running).piece = 64 ∧
    (copyDesc .running).src + (copyDesc .running).sent + (copyDesc .running).piece ≤ memTop ∧
    (copyDesc .running).dst + (copyDesc .running).sent + (copyDesc .running).piece ≤ memTop ∧
    (copyDesc .running).src + (copyDesc .running).len ≤ (copyDesc .running).dst ∧ (carries (copyDesc .running)).cxl.waiting = [] ∧
    (carries (copyDesc .running)).xlate.landed = [] ∧ (carries (copyDesc .running)).mode ≠ .safeStop ∧ (carries farCopy).desc 1 = some farCopy ∧
    farCopy.sent < farCopy.len ∧ memTop < farCopy.src + farCopy.sent + farCopy.piece := by decide +kernel

theorem test_meets_mover_places : ∀ a < 128, (carries (copyDesc .running)).hdmLine a = none ∧ (carries (copyDesc .running)).withdrawn a = false ∧
    (carries (copyDesc .running)).wordPoisoned (a / 8) = false := by decide +kernel

def waitedReq : PageReq := { pageReq with waiters := [1] }
def pageWait : State := { carries (copyDesc .waitingPage) with xlate := { (carries (copyDesc .waitingPage)).xlate with requests := [waitedReq] } }

theorem test_meets_page_timeout : tenantOk 63 = true ∧ tenantOk 64 = false ∧ tenantOk 0 = true ∧
    ready.xlate.requests.find? (fun r => r.tenant == 0 && r.page == 0x1234 / 4096 * 4096) = none ∧ pageWait.xlate.requests = [waitedReq] ∧ waitedReq.tenant = 0 ∧
    waitedReq.page = 0x1FFF / 4096 * 4096 ∧ pageWait.desc 1 = some (copyDesc .waitingPage) := by decide +kernel

/-- Stream 0 of model 1 in hall 0 in a state; with its cache. -/
def stream (st : Nat) (c : Option CacheSt) (w10 : Nat) : StreamRec := { StreamRec.reset with words := [(0, st + 2 ^ 32), (10, w10)], cache := c }
def cacheOf (moving parked : Option Nat) : CacheSt := ⟨0, 1, none, [], [], [], 0, moving, parked⟩
def withStream (s : State) (r : StreamRec) : State :=
  { s with serve := { s.serve with streams := [(0, r)], models := [(1, { loaded with pkg := some package })] } }

def batched : State :=
  let s := withStream (put 0 (prog [0]) inRun) (stream stGenerating none 0)
  { s with serve := { s.serve with batches := [⟨0, 1, 1, [0], 0⟩] } }

theorem test_meets_batch_wait : (∀ b ∈ ready.serve.batches, ¬ (b.hall = 0 ∧ b.model = 1 ∧ b.cls = 1)) ∧ batched.serve.batches = [⟨0, 1, 1, [0], 0⟩] ∧
    (batched.modelJobList 1).filter batched.runsUnstepped = [1] ∧ batched.mode = .run ∧ (batched.jobOf 1).waiting = [] ∧
    batched.firstWork (batched.workFor 1) = some 0 ∧ batched.sState 0 = stGenerating ∧ (batched.batchOf 0 (batched.workFor 1)).1 ≠ [] ∧
    (kget [] (batched.sHall 0) batched.serve.caches).length + (batched.batchOf 0 (batched.workFor 1)).1.length ≤ 1024 := by decide +kernel

def paused : State := withStream ready (stream stPaused (some (cacheOf none none)) 0)
def parking : State := withStream (ready.odPut Od.mezzPresent 15) (stream stPaused (some (cacheOf (some 0) none)) 0)
def restoring : State := withStream ready (stream stSubmitted (some (cacheOf (some 1) (some mezzBase))) 0)

theorem test_meets_kept_caches : ready.streamList.filter ready.ttlOver = [] ∧ paused.streamList.filter paused.ttlOver = [0] ∧
    (ready.stream 0).cache = none ∧ (parking.stream 0).cache = some (cacheOf (some 0) none) ∧ parking.sState 0 = stPaused ∧ mezzHallOf mezzBase = parking.sHall 0 ∧
    mezzHallOf (mezzBase + parking.parkLen (cacheOf (some 0) none)) = parking.sHall 0 ∧ bit (parking.odGet Od.mezzPresent) (parking.sHall 0) = true ∧
    parking.mezzOpen mezzBase (parking.parkLen (cacheOf (some 0) none)) = true ∧
    (restoring.stream 0).cache = some (cacheOf (some 1) (some mezzBase)) ∧ restoring.sState 0 = stSubmitted ∧
    restoring.pkgOf 1 = some package ∧ restoring.blocksNeeded 0 ≤ (restoring.pool (restoring.sHall 0)).2 := by decide +kernel

/-- Model 1 in a load state, with a package. -/
def model (st flags : Nat) (p : Package) : ModelSt := { loaded with state := st, flags := flags, pkg := some p }
def withLoad (x : ModelSt) : State := { inRun with serve := { inRun.serve with models := [(1, x)], jobs := [⟨1, 1, [], 0, [], false, none⟩] } }
def inLoad (st flags : Nat) : State := withLoad (model st flags package)
def badList : Package := { package with outliers := [(256, [1#8])] }
def stepOf (j : Nat) : StepSt := { job := j, hall := 0, model := 1, slots := [], removed := [], poison := false, weight := false, badCache := [], waits := [], mirror := none, closing := none }
def stepped : State :=
  let s := put 0 (prog [0]) (inLoad 3 4)
  { s with serve := { s.serve with steps := [stepOf 1] } }

/-- A part that is packed, of two; the last one, with a member's share that stands, has not moved, or is complete. -/
def packedPart (k : Nat) (shares : KMap Nat) : ModelSt := { model 2 0 package with packed := true, parts := 2, part := k, shares := shares }

theorem test_meets_packing : kfind 2 (inLoad 3 0).serve.models = none ∧ kfind 1 (inLoad 2 0).serve.models = some (model 2 0 package) ∧
    (model 2 0 package).packed = false ∧ (model 2 0 package).shares = [] ∧ (inLoad 2 0).packRefusal (model 2 0 package) package = 0 ∧ (inLoad 2 0).depth ≤ 2 ∧
    [(0, 0x3044)].find? (fun e : Nat × Nat => e.2 ≠ 0) = some (0, 0x3044) ∧ (withLoad (model 2 0 badList)).packRefusal (model 2 0 badList) badList ≠ 0 ∧
    kfind 1 (withLoad (model 2 0 badList)).serve.models = some (model 2 0 badList) ∧
    ((model 2 0 package).part + 1 = (model 2 0 package).parts) ∧ ({ model 2 0 package with parts := 2 } : ModelSt).part + 1 < 2 ∧
    (withLoad { model 2 0 package with parts := 2 }).packRefusal { model 2 0 package with parts := 2 } package = 0 := by decide +kernel

/-- Packing nothing leaves no data area too long. -/
theorem test_meets_packing_lengths (s : State) (x y : ModelSt) (r : State)
    (h : (package.slices.zip (List.range package.slices.length)).foldl (fun (z : ModelSt × State) e => z.2.packSlice z.1 e.2 e.1) (x, s) = (y, r))
    (e : x.work = []) : y.tooLong = false := by
  have : y = x := by simpa [package] using (congrArg Prod.fst h).symm
  rw [this, ModelSt.tooLong, e]; rfl

theorem test_meets_load_progress : (∀ x ∈ [packedPart 0 [], packedPart 1 [(1, 5)], packedPart 1 [(1, 0)]], kfind 1 (withLoad x).serve.models = some x ∧ x.state = 2 ∧ x.packed = true) ∧
    (withLoad (packedPart 1 [(1, 5)])).sharesIn (packedPart 1 [(1, 5)]) = false ∧ (withLoad (packedPart 0 [])).sharesIn (packedPart 0 []) = true ∧
    (packedPart 0 []).part + 1 < (packedPart 0 []).parts ∧ (withLoad (packedPart 1 [(1, 0)])).sharesIn (packedPart 1 [(1, 0)]) = true ∧
    (packedPart 1 [(1, 0)]).parts ≤ (packedPart 1 [(1, 0)]).part + 1 ∧ (∃ e ∈ (packedPart 1 [(1, 0)]).shares, e.1 ∉ (packedPart 1 [(1, 0)]).done) := by decide +kernel

theorem test_meets_replacement : kfind 1 (inLoad 4 0).serve.models = some (model 4 0 package) ∧
    (kfind 1 (inLoad 3 0).serve.models).map (·.state) ≠ some 4 ∧ ready.serve.jobs = [] ∧ stepped.serve.jobs = [⟨1, 1, [], 0, [], false, none⟩] ∧
    (stepped.openStepOf 1).isSome = true ∧ (inLoad 3 4).serve.jobs = [⟨1, 1, [], 0, [], false, none⟩] ∧ (inLoad 3 4).openStepOf 1 = none ∧ (inLoad 2 0).mode = .run := by
  decide +kernel

/-- A manager of three members runs a model with EXPERT_BALANCE in a step. -/
def balancing : State := { stepped with od := manager.od, arcade := manager.arcade }

theorem test_meets_rebalance : kfind 1 balancing.serve.models = some (model 3 4 package) ∧ bit (model 3 4 package).flags 2 = true ∧ balancing.trayWorker = false ∧
    balancing.mode = .run ∧ balancing.memberCount = 3 ∧ balancing.modelJobList 1 = [1] ∧ (balancing.openStepOf 1).isSome = true ∧
    rebalancePair (balancing.odGet Od.rebalanceRatio) balancing.memberCount [(7, 0, 1000), (8, 1, 2), (9, 2, 1)] = some (7, 9) ∧
    bit (model 3 0 package).flags 2 = false ∧ member.trayWorker = true ∧ ready.mode ≠ .run := by decide +kernel

/-- An episode of a poisoned image at device address 0x1000, whose length its header of zeros gives. -/
def imageEpisode : Episode := ⟨5, 1, 0, 0, 0, ⟨9, 0, 0x1000⟩, 1, 0, 0, 0, 0⟩
def repairing : State := { ready with newel := { ready.newel with episodes := [imageEpisode] } }
def corridors : State := ready.odPut Od.corridorsUp 15

theorem test_meets_image_repair : ready.newel.episodes.find? (fun e => e.num == 5 && e.subj.kind == 9) = none ∧
    repairing.newel.episodes.find? (fun e => e.num == 5 && e.subj.kind == 9) = some imageEpisode ∧ imageEpisode.subj.key % 8 = 0 ∧
    repairing.imageLength imageEpisode.subj.key ≤ (zeros 192).length ∧ repairing.withdrawn imageEpisode.subj.key = false ∧
    bit ((corridors.odPut Od.corridorsUp 0).odGet Od.corridorsUp) 3 = false ∧ corridors.mode ≠ .off ∧ corridors.testing 2 3 = false ∧
    bit (corridors.odGet Od.corridorsUp) 3 = true := by decide +kernel

/-! ### The Foyer -/

/-- The Foyer serves; port 0 is up; the telemetry port is 5000. -/
def foyerUp (s : State) : State :=
  let s := (s.odPut Od.foyerState 2).odPut Od.portLinks 1
  { s with foyer := { s.foyer with applied := [(Od.telemetryPort, leBytes 2 5000)] } }

/-- A message with its length and check value. -/
def bal (typ seq : Nat) (b : Bytes) : BalMsg :=
  ⟨typ, b.length, seq, b, crc32c (leBytes 1 typ ++ zeros 1 ++ leBytes 2 b.length ++ leBytes 4 seq ++ b)⟩

theorem balTake_bal {s : State} {typ k seq : Nat} {b : Bytes} (hk : balKey typ = some k) (hr : s.balRuns k = true) (hs : kget 0 k s.foyer.rxSeq = 0)
    (hl : balLengthOk typ b.length = true) (hn : s.foyer.received = []) (hz : balLimit typ ≠ some 0) :
    ∃ u, s.balTake typ (bal typ seq b) = (true, u) ∧ u = { s with foyer := u.foyer } := by
  have hd : (s.foyer.dequeue k (bal typ seq b)).rxSeq = s.foyer.rxSeq ∧ (s.foyer.dequeue k (bal typ seq b)).received = [] := by
    unfold FoyerSt.dequeue; dsimp only; split <;> [skip; split] <;> exact ⟨rfl, hn⟩
  have hf : ∀ (f : FoyerSt) (q : Nat), (f.follow k q).received = f.received := by
    intro f q; unfold FoyerSt.follow
    by_cases h : (if k = 0 then f.dataIn else if k = 2 then f.mgmtIn else f.toFoyer).isEmpty = true
    · rw [if_pos h]
    · rw [if_neg h]
  unfold State.balTake
  simp only [hk, hr, Bool.not_true, Bool.false_eq_true, if_false]
  rw [if_neg (by simp [bal]), if_neg (by simp [hd.1, hs]), if_neg (by simp [bal, hl]), if_neg]
  · exact ⟨_, rfl, rfl⟩
  · cases e : balLimit typ with
    | none => simp
    | some l =>
      have : 0 < l := Nat.pos_of_ne_zero (fun h => hz (by rw [e, h]))
      simp [State.balTaken, hf, hd.2, kget, kfind]; omega

theorem test_meets_bal_checks : (∀ typ ∈ balTypes, ∃ k < 4, balKey typ = some k ∧ (foyerUp inRun).balRuns k = true ∧
      ({ State.reset with mode := .off } : State).balRuns k = false) ∧ balKey 5 = some 2 ∧ kget 0 2 (foyerUp inRun).foyer.rxSeq = 0 ∧
    ({ bal 5 0 (zeros 8) with crc := 0 } : BalMsg).crc ≠ crc32c (leBytes 1 5 ++ zeros 1 ++ leBytes 2 8 ++ leBytes 4 0 ++ zeros 8) ∧
    (bal 5 0 (zeros 8)).crc = crc32c (leBytes 1 5 ++ zeros 1 ++ leBytes 2 8 ++ leBytes 4 0 ++ zeros 8) ∧ (bal 4 0 (zeros 8)).typ ≠ 5 ∧
    (bal 5 0 (zeros 8)).len = (bal 5 0 (zeros 8)).body.length ∧
    balLengthOk 5 8 = true ∧ balLengthOk 5 9 = false ∧ balLimit 5 = some 100 ∧ (foyerUp inRun).balTaken 5 < 100 := by decide +kernel

/-- The line of Newel expects sequence number 4. -/
def fourth : State := { foyerUp inRun with foyer := { (foyerUp inRun).foyer with rxSeq := [(2, 4)] } }

theorem test_meets_bal_resync : fourth.balRuns 2 = true ∧ kget 0 2 fourth.foyer.rxSeq ≠ 0 ∧ (bal 5 3 (zeros 8)).seq ≠ kget 0 2 fourth.foyer.rxSeq % 2 ^ 32 ∧
    (bal 5 4 (zeros 8)).seq = kget 0 2 fourth.foyer.rxSeq % 2 ^ 32 := by decide +kernel

theorem test_meets_eop_crossing : (datagram (eopReqBytes 1 5000)).port < 3 ∧ eopOn.eopArrives (datagram (eopReqBytes 1 5000)) = true ∧
    40 ≤ (eopReqBytes 1 5000).length ∧ (eopReqBytes 1 5000).length ≤ 1186 ∧ ready.eopArrives (datagram []) = false := by decide +kernel

/-- A telemetry datagram of one record of cell 7 with sequence number 3, and the cell bound to entry 70000. -/
def recordBytes : Bytes := [0#8, 0#8, 0#8, 0#8, 0#8, 0#8, 0#8, 7#8] ++ zeros 8 ++ [0#8, 3#8, 0#8, 1#8] ++ zeros 108
def telemetryBytes : Bytes := [0x46#8, 0x54#8, 1#8, 1#8, 1#8, 0#8, 0#8, 0#8] ++ zeros 8 ++ recordBytes
def toCell (b : Bytes) : Datagram := ⟨0, 0, 0, 5000, false, b, false⟩
def cellRec : CellRec := ⟨7, 5, 1, 1000, 1, false, 1000, 0, 0⟩
def cell (last : Option Nat) (level : Nat) : CellSt := ⟨cellRec, 1, last, 0, 0, 0, level, 0, none, 0, [], none, false, [], 0x10000, none⟩
def fielded (c : CellSt) (agg : Nat) : State :=
  let s := foyerUp inRun
  { s with foyer := { s.foyer with cells := [c], view := [(cellRec, 1)], agg := agg, applied := (Od.aggBurst, leBytes 2 64) :: s.foyer.applied } }

def record0 : State := fielded (cell none bucketUnit) bucketUnit
/-- The same where only a source 1 is accepted; in Ready; with the record's number already seen; with an empty bucket; with an empty aggregate; with its cell held. -/
def filtered : State := { foyerUp inRun with foyer := { (foyerUp inRun).foyer with applied := (Od.telemetrySources, zeros 15 ++ [1#8, 128#8]) :: (foyerUp inRun).foyer.applied } }
def atRest : State := { record0 with mode := .ready }
def seen : State := fielded (cell (some 3) bucketUnit) bucketUnit
def drained : State := fielded (cell none (bucketUnit - 1)) bucketUnit
def spent : State := fielded (cell none bucketUnit) 0
def holding : State := { record0 with serve := { record0.serve with streams := [(5, { StreamRec.reset with words := [(16, 2 ^ 32)] })] } }

theorem test_meets_record_paths : (∀ s ∈ [filtered, foyerUp inRun, record0, atRest, seen, drained, spent, holding], s.foyerRuns = true ∧ s.portServes 0 = true ∧
      (toCell []).dstPort = s.fval Od.telemetryPort) ∧ filtered.sourceOk 0 = false ∧
    (∀ s ∈ [foyerUp inRun, record0, atRest, seen, drained, spent, holding], s.sourceOk 0 = true) ∧ inRun.foyerRuns = false ∧
    telemetryOk [] = false ∧ telemetryOk telemetryBytes = true ∧ beField telemetryBytes 4 1 = 1 ∧
    telemetryBytes.drop 16 = recordBytes ∧ recordOk recordBytes = true ∧ beField recordBytes 0 8 = 7 ∧ beField recordBytes 16 2 = 3 := by decide +kernel

theorem test_meets_record_cells : (foyerUp inRun).foyer.view.find? (fun v => v.1.cellId == 7) = none ∧
    (∀ s ∈ [record0, atRest, seen, drained, spent, holding], s.foyer.view.find? (fun v => v.1.cellId == 7) = some (cellRec, 1)) ∧ atRest.mode ≠ .run ∧
    (∀ s ∈ [record0, spent, holding], s.mode = .run ∧ s.cellAt 5 = some (cell none bucketUnit)) ∧ seen.mode = .run ∧ seen.cellAt 5 = some (cell (some 3) bucketUnit) ∧
    drained.mode = .run ∧ drained.cellAt 5 = some (cell none (bucketUnit - 1)) := by decide +kernel

theorem test_meets_record_limits : ¬ (1 ≤ (3 + 65536 - 3) % 65536 ∧ (3 + 65536 - 3) % 65536 ≤ 32767) ∧ ¬ (1 ≤ (3 + 65536 - 32771) % 65536 ∧ (3 + 65536 - 32771) % 65536 ≤ 32767) ∧
    (1 ≤ (3 + 65536 - 32772) % 65536 ∧ (3 + 65536 - 32772) % 65536 ≤ 32767) ∧ bucketNow (bucketUnit - 1) 0 1000 1 drained.epoch < bucketUnit ∧
    bucketUnit ≤ bucketNow bucketUnit 0 1000 1 record0.epoch ∧ bucketUnit ≤ record0.aggRefill.foyer.agg ∧ spent.aggRefill.foyer.agg < bucketUnit ∧
    bit (record0.sw 5 16) 32 = false ∧ record0.stepOpen 5 = false ∧ record0.crossing 5 = false ∧ record0.foyer.dataIn.length < 1024 ∧
    bucketUnit ≤ bucketNow bucketUnit 0 1000 1 holding.epoch ∧ bucketUnit ≤ holding.aggRefill.foyer.agg ∧ bit (holding.sw 5 16) 32 = true := by decide +kernel

/-- A TELEMETRY for entry 5 and a RECOMMEND of cell 7. -/
def telemetryMsg : BalMsg := bal 1 0 (leBytes 2 5 ++ zeros 14 ++ recordBytes)
def atGate : State :=
  let s := record0.odPut Od.fieldBase 5
  { s with serve := { s.serve with streams := [(5, { StreamRec.reset with words := [(0, stField)] })] } }

theorem test_meets_telemetry_message : leField telemetryMsg.body 0 2 = 5 ∧ atGate.cellAt 5 = some (cell none bucketUnit) ∧
    atGate.odGet Od.fieldBase ≤ 5 ∧ recordOk (telemetryMsg.body.drop 16) = true ∧ beField (telemetryMsg.body.drop 16) 0 8 = (cell none bucketUnit).rec_.cellId ∧
    leField telemetryMsg.body 2 1 < 2 ∧ atGate.sState 5 = stField ∧ (cell none bucketUnit).gateSeq = none ∧ (cell none bucketUnit).missing = [] ∧ atGate.cxl.waiting = [] ∧
    (foyerUp inRun).cellAt (leField telemetryMsg.body 0 2) = none := by decide +kernel

theorem test_meets_gate_places : ∀ i < 128, atGate.hdmLine (0x10000 + 128 * (3 % 64) + i) = none ∧ atGate.withdrawn (0x10000 + 128 * (3 % 64) + i) = false := by
  decide +kernel

def recommendMsg : BalMsg := bal 0x81 0 (zeros 8 ++ [0#8, 0#8, 0#8, 0#8, 0#8, 0#8, 0#8, 7#8] ++ zeros 120)
/-- No port serves. -/
def noPort : State := atGate.odPut Od.portLinks 0

theorem test_meets_recommend : beField (recommendMsg.body.drop 8) 0 8 = 7 ∧ leField recommendMsg.body 0 1 = 0 ∧ atGate.foyerRuns = true ∧ noPort.foyerRuns = true ∧
    atGate.foyer.view.find? (fun v => v.1.cellId == 7) = some (cellRec, 1) ∧ noPort.foyer.view.find? (fun v => v.1.cellId == 7) = some (cellRec, 1) ∧
    atGate.portServes 0 = true ∧ noPort.portServes 0 = false ∧ noPort.portServes (1 - 0) = false ∧ inRun.foyerRuns = false := by decide +kernel

theorem test_meets_data_messages : (∃ u, atGate.balTake 1 telemetryMsg = (true, u)) ∧ (∃ u, (foyerUp inRun).balTake 1 telemetryMsg = (true, u)) ∧
    (∃ u, atGate.balTake 0x81 recommendMsg = (true, u)) ∧ (∃ u, inRun.balTake 0x81 recommendMsg = (true, u)) ∧ (∃ u, noPort.balTake 0x81 recommendMsg = (true, u)) := by
  have take : ∀ (s : State) (typ k : Nat) (b : Bytes), balKey typ = some k → s.balRuns k = true → kget 0 k s.foyer.rxSeq = 0 → balLengthOk typ b.length = true →
      s.foyer.received = [] → balLimit typ ≠ some 0 → ∃ u, s.balTake typ (bal typ 0 b) = (true, u) := fun s typ k b h1 h2 h3 h4 h5 h6 =>
    let ⟨u, h, _⟩ := balTake_bal h1 h2 h3 h4 h5 h6
    ⟨u, h⟩
  refine ⟨take _ 1 0 _ ?_ ?_ ?_ ?_ ?_ ?_, take _ 1 0 _ ?_ ?_ ?_ ?_ ?_ ?_, take _ 0x81 1 _ ?_ ?_ ?_ ?_ ?_ ?_, take _ 0x81 1 _ ?_ ?_ ?_ ?_ ?_ ?_,
    take _ 0x81 1 _ ?_ ?_ ?_ ?_ ?_ ?_⟩ <;> decide +kernel

/-- A message that nothing stands against is taken, and the module is as it was but for the Foyer's own counts. -/
theorem taken_of {s : State} (e : s.foyer.rxSeq = [] ∧ s.foyer.received = [] ∧ s.mode = .run ∧ s.test.run = none) {typ : Nat} {b : Bytes}
    (h : (∃ k < 4, balKey typ = some k) ∧ balLengthOk typ b.length = true ∧ balLimit typ ≠ some 0) :
    ∃ u, s.balTake typ (bal typ 0 b) = (true, u) ∧ u = { s with foyer := u.foyer } := by
  obtain ⟨⟨k, _, hk⟩, hl, hz⟩ := h
  refine balTake_bal hk ?_ (by rw [e.1]; rfl) hl e.2.1 hz
  unfold State.balRuns State.testing; rw [e.2.2.1, e.2.2.2]; simp

def eopRun : State := { eopOn with mode := .run }
def served : State := (foyerUp inRun).odPut Od.eopEnable 1
def managed : State := (foyerUp inRun).odPut Od.portLinks 4
def greeted : State := inRun.odPut Od.foyerState 1
def eopMsg : Bytes := zeros 24 ++ eopReqBytes 1 5000
def eventMsg : Bytes := leBytes 2 0x6001 ++ zeros 14
def configMsg : Bytes := leBytes 2 (Od.telemetryPort / 256) ++ leBytes 1 (Od.telemetryPort % 256) ++ zeros 1 ++ leBytes 4 2 ++ zeros 8 ++ leBytes 2 5001

/-- The messages of R470, each in the states that its clauses ask for. -/
def balCases : List (State × Nat × Bytes) :=
  [(foyerUp inRun, 0x02, zeros 64), (served, 0x02, zeros 64), (eopRun, 0x02, eopMsg), (inRun, 0x82, zeros 72), (foyerUp inRun, 0x82, zeros 72), (managed, 0x82, zeros 72),
   (foyerUp inRun, 0x03, zeros 64), (foyerUp inRun, 0x04, zeros 16), (foyerUp inRun, 0x04, eventMsg), (inRun, 0x83, zeros 16), (foyerUp inRun, 0x83, zeros 16),
   (inRun, 0x84, zeros 16), (foyerUp inRun, 0x84, zeros 16), (foyerUp inRun, 0x84, configMsg), (inRun, 0x85, zeros 32), (foyerUp inRun, 0x85, zeros 32),
   (foyerUp inRun, 0x86, zeros 16), (inRun, 0x86, zeros 16), (greeted, 0x05, leBytes 1 2 ++ zeros 7), (foyerUp inRun, 0x05, zeros 8)]

theorem test_meets_message_forms : ∀ x ∈ balCases, ∃ u, x.1.balTake x.2.1 (bal x.2.1 0 x.2.2) = (true, u) ∧ u = { x.1 with foyer := u.foyer } := by
  have e : ∀ x ∈ balCases, (x.1.foyer.rxSeq = [] ∧ x.1.foyer.received = [] ∧ x.1.mode = .run ∧ x.1.test.run = none) ∧
      (∃ k < 4, balKey x.2.1 = some k) ∧ balLengthOk x.2.1 x.2.2.length = true ∧ balLimit x.2.1 ≠ some 0 := by decide +kernel
  exact fun x hx => taken_of (e x hx).1 (e x hx).2

/-- What the clauses ask of the state after the message is taken holds in every state that differs from the first in the Foyer's fields alone. -/
theorem test_meets_eop_messages (f : FoyerSt) : ({ foyerUp inRun with foyer := f } : State).eopServed = false ∧ ({ served with foyer := f } : State).eopServed = true ∧
    (∃ r, ({ served with foyer := f } : State).eopCheck (zeros 40) false = (false, r)) ∧ ({ eopRun with foyer := f } : State).eopServed = true ∧
    (∃ r, ({ eopRun with foyer := f } : State).eopCheck (eopMsg.drop 24) false = (true, r)) ∧ leField (zeros 64) 18 6 = 0 ∧ leField eopMsg 18 6 = 0 := by
  have a : eopRun.eopAuthOk (eopHdr (eopMsg.drop 24)) false = true ∧ eopRun.eopFresh (eopHdr (eopMsg.drop 24)) = true ∧
      eopRun.eopSeqOk (eopHdr (eopMsg.drop 24)).key (eopHdr (eopMsg.drop 24)).seq = true ∧
      ¬ eopQueueMax ≤ (eopRun.eopAccept (eopHdr (eopMsg.drop 24)).key (eopHdr (eopMsg.drop 24)).seq).eop.queue.length := by decide +kernel
  refine ⟨?_, ?_, ?_, ?_, ?_, by decide +kernel, by decide +kernel⟩
  · show (foyerUp inRun).eopServed = false; decide +kernel
  · show served.eopServed = true; decide +kernel
  · have b : eopFormOk (zeros 40) = false := by decide +kernel
    unfold State.eopCheck; rw [b]; exact ⟨_, rfl⟩
  · show eopRun.eopServed = true; decide +kernel
  · have b : eopFormOk (eopMsg.drop 24) = true := by decide +kernel
    unfold State.eopCheck
    simp only [b, Bool.not_true, Bool.false_eq_true, if_false]
    rw [if_neg (by rw [show ({ eopRun with foyer := f } : State).eopAuthOk (eopHdr (eopMsg.drop 24)) false = true from a.1]; simp),
      if_neg (by rw [show ({ eopRun with foyer := f } : State).eopFresh (eopHdr (eopMsg.drop 24)) = true from a.2.1]; simp),
      if_neg (by rw [show ({ eopRun with foyer := f } : State).eopSeqOk _ _ = true from a.2.2.1]; simp), 
      if_neg (show ¬ eopQueueMax ≤ (({ eopRun with foyer := f } : State).eopAccept (eopHdr (eopMsg.drop 24)).key (eopHdr (eopMsg.drop 24)).seq).eop.queue.length from a.2.2.2)]
    exact ⟨_, rfl⟩

theorem test_meets_bal_messages : inRun.foyerRuns = false ∧ (foyerUp inRun).foyerRuns = true ∧ (foyerUp inRun).eopPort = none ∧
    managed.foyerRuns = true ∧ managed.eopPort = some 2 ∧ leField (zeros 16) 0 2 ∉ foyerCodes ∧ leField eventMsg 0 2 ∈ foyerCodes ∧
    leField (zeros 16) 0 2 * 256 + leField (zeros 16) 2 1 ∉ foyerEntries ∧ leField configMsg 0 2 * 256 + leField configMsg 2 1 = Od.telemetryPort ∧
    Od.telemetryPort ∈ foyerEntries ∧ configMsg.length = 16 + leField configMsg 4 4 ∧ (foyerUp inRun).odGet Od.foyerState = 2 ∧ inRun.odGet Od.foyerState ≠ 2 ∧
    greeted.odGet Od.foyerState = 1 ∧ leField (leBytes 1 2 ++ zeros 7) 0 1 = 2 ∧ leField (zeros 8) 0 1 ≠ 2 ∧ (foyerUp inRun).test.run = none := by decide +kernel

/-! Ports and time. -/

def timedFoyer (f : FoyerSt → FoyerSt) : State := { foyerUp inRun with foyer := f (foyerUp inRun).foyer }
def off : State := { inRun with mode := .off }
def ptp (st port : Nat) : State := ({ timedFoyer (fun f => { f with applied := (Od.ptpPort, leBytes 1 port) :: f.applied, askedAt := 0 }) with epoch := 62500000 } : State).odPut Od.ptpState st
def pulses (w : Option Nat) (es : List Nat) : State := (timedFoyer (fun f => { f with ppsWindow := w, ppsEdges := es })).odPut Od.ppsInState 2

theorem test_meets_ports : off.mode = .off ∧ inRun.mode ≠ .off ∧ inRun.portTested 2 = false ∧ 0 ∉ inRun.foyer.sfp ∧ inRun.foyerRuns = false ∧
    (∀ n ∈ [9, 10], (timedFoyer (fun f => { f with icmp := [(0, (0, n))] })).foyerRuns = true ∧ (timedFoyer (fun f => { f with icmp := [(0, (0, n))] })).portServes 0 = true ∧
      kget (0, 0) 0 (timedFoyer (fun f => { f with icmp := [(0, (0, n))] })).foyer.icmp = (0, n) ∧ (timedFoyer (fun f => { f with icmp := [(0, (0, n))] })).epoch / oneSec = 0) ∧
    kfind 0 inRun.foyer.ql = none ∧ kfind 0 (timedFoyer (fun f => { f with ql := [(0, 2)] })).foyer.ql = some 2 := by decide +kernel

theorem test_meets_time_inputs : (∀ st ∈ [0, 1, 3], (ptp st 0).foyerRuns = true ∧ (ptp st 0).portServes 0 = true ∧ 0 = bits ((ptp st 0).fval Od.ptpPort) 3 0 ∧
      0 = bits ((ptp st 0).fval Od.ptpPort) 7 4 ∧ (ptp st 0).odGet Od.ptpState = st ∧ (ptp st 0).foyer.askedAt + 62500000 ≤ (ptp st 0).epoch) ∧
    (∀ es ∈ [[], [7]], (pulses (some oneSec) es).foyerRuns = true ∧ (pulses (some oneSec) es).foyer.ppsWindow = some oneSec ∧ (pulses (some oneSec) es).foyer.ppsEdges = es) ∧
    (pulses none []).foyerRuns = true ∧ (pulses none []).foyer.ppsWindow = none ∧ (pulses none []).foyer.ppsEdges = [] ∧ (pulses none []).odGet Od.ppsInState = 2 ∧
    oneSec ≤ oneSec + oneMs ∧ ¬ (oneSec ≤ 0 + oneMs ∧ 0 ≤ oneSec + oneMs) ∧ (pulses none []).foyer.ppsValidAt + 2 * oneSec ≤ 2 * oneSec ∧
    (∀ st ∈ [0, 1, 2], ((foyerUp inRun).odPut Od.ref10State st).foyerRuns = true ∧ ((foyerUp inRun).odPut Od.ref10State st).odGet Od.ref10State = st) ∧
    (10001 : Int).natAbs > 10000 ∧ (10000 : Int).natAbs ≤ 10000 ∧ (timedFoyer (fun f => { f with timeSet := some (7, 2) })).foyerRuns = true ∧
    (timedFoyer (fun f => { f with timeSet := some (7, 2) })).foyer.timeSet = some (7, 2) ∧ (foyerUp inRun).foyer.timeSet = none := by decide +kernel

/-! ### Newel, power, clocks, upkeep, start -/

def withSensors (l : List Sensor) (s : State) : State := { s with newel := { s.newel with sensors := l } }
def hotStack : State := let s := withSensors [] inRun; { s with power := { s.power with hallPower := [0, 1, 2, 3] } }
def inOff : State := { State.reset with mode := .off }
def sensor0 (i : Nat) (v : Int) : Sensor := ⟨0, i, v, true, false, some v⟩
def interval (n : Nat) : LogInterval := ⟨0x2040, 7, 0, 100, n, 0, { code := 0x2040 }⟩
def logRec : LogRec := ⟨1, 0x7001, 1, 0, 0, 0, 0, 0xFF, 0xFF, 0xFFFF, 0, 1, 0, 0, 0, []⟩
def withLog (f : LogSt → LogSt) : State := { inRun with log := f inRun.log }
def withNewel (f : NewelSt → NewelSt) (s : State) : State := { s with newel := f s.newel }

def restartingRun : State := withNewel (fun n => { n with restarting := true }) inRun
def chatter : State := withNewel (fun n => { n with svcChatter := true }) inRun
/-- The ten seconds of the service switch run, in Stopped and in Run; and after the switch itself asked for Stopped. -/
def svcTimer (s : State) (b : Bool) : State := withNewel (fun n => { n with svcTimerFrom := some 0, svcHeldStop := b }) s

theorem test_meets_newel : inOff.mode = .off ∧ inRun.mode ≠ .off ∧ inRun.newel.eventQueue.length < 64 ∧ inRun.newel.restarting = false ∧ restartingRun.newel.restarting = true ∧
    sensorExists ⟨0, 95, 25000, true⟩ = true ∧ sensorExists ⟨0, 96, 25000, true⟩ = false ∧ sensorExists ⟨5, 0, 0, true⟩ = false ∧ hotStack.mode ≠ .off ∧
    hotStack.mode ≠ .safeStop ∧ hotStack.newel.restarting = false ∧ hotStack.sensor 0 (32 + 2 * 23) = none ∧ hotStack.failedCount 0 (32 + 2 * 23) (34 + 2 * 23) = 0 ∧
    hotStack.power.hallPower.contains (23 / 6) = true ∧ inRun.newel.svcChatter = false ∧ true ≠ inRun.newel.svcCounted ∧ chatter.mode ≠ .off ∧
    chatter.newel.svcChatter = true ∧ inRun.newel.svcTimerFrom = none ∧ (∀ b, (svcTimer stopped b).newel.svcTimerFrom = some 0 ∧ (svcTimer inRun b).newel.svcTimerFrom = some 0 ∧
      (svcTimer stopped b).newel.svcHeldStop = b ∧ (svcTimer inRun b).newel.svcHeldStop = b ∧ (svcTimer stopped b).trans = none ∧ (svcTimer inRun b).trans ≠ some .stopped ∧
      (svcTimer stopped b).mode = .stopped ∧ (svcTimer inRun b).mode ≠ .stopped ∧ (svcTimer stopped b).odGet Od.fwState = 0 ∧ (svcTimer stopped b).tripHot = false) ∧
    State.reset.mode = .standby ∧ inRun.mode ≠ .standby := by decide +kernel

theorem test_meets_log : (∀ n ∈ [0, 2], (withLog (fun l => { l with intervals := [interval n] })).log.intervals = [interval n] ∧ (interval n).count = n ∧
      (withLog (fun l => { l with intervals := [interval n] })).newel.restarting = false) ∧ inRun.log.intervals = [] ∧
    (withLog (fun l => { l with toFlash := [logRec] })).log.toFlash = [logRec] ∧ (withLog (fun l => { l with toFlash := [logRec] })).odGet Od.fwState ≠ 3 ∧
    inRun.log.toFlash = [] := by decide +kernel

def warm : State := withSensors [sensor0 92 20000, sensor0 93 30000, ⟨2, 0, 3000, true, false, none⟩, sensor0 0 70000, sensor0 32 60000] inRun

theorem test_meets_smbus : warm.sensor 0 92 = some (sensor0 92 20000) ∧ warm.sensor 0 93 = some (sensor0 93 30000) ∧
    warm.sensor 2 0 = some ⟨2, 0, 3000, true, false, none⟩ ∧ warm.dieTemp 0 = some 70000 ∧ (∀ k < 4, k ≠ 0 → warm.dieTemp k = none) ∧ warm.stackTemp 0 = some 60000 ∧
    (∀ k < 24, k ≠ 0 → warm.stackTemp k = none) ∧ warm.alertCauses = 0 ∧ (withNewel (fun n => { n with svcCounted := true }) inRun).alertCauses = 8 := by decide +kernel

def follows (v : Nat) : State := (inRun.odPut Od.timeSource 1).odPut Od.tbState v

theorem test_meets_power : hotStack.power.hallPower.contains 3 = true ∧ inRun.power.hallPower.contains 3 = false ∧ inRun.mode ≠ .off ∧ inOff.mode = .off ∧
    member.mode ≠ .off ∧ member.timeRef = false ∧ (∀ v ∈ [1, 2], (follows v).mode ≠ .off ∧ (follows v).timeRef = true ∧ (follows v).odGet Od.timeSource ≠ 0 ∧
      (follows v).odGet Od.tbState = v) ∧
    kget 0 44 inRun.power.plls ≠ 3 ∧ kget 0 44 ({ inRun with power := { inRun.power with plls := [(44, 3)] } } : State).power.plls = 3 := by decide +kernel

def episode (kind : Nat) : Episode := ⟨9, 0, 0, 0, 0, ⟨kind, 0, 2 ^ 48⟩, 1, 0, 1, 0, 0⟩
def inEpisode (kind : Nat) (s : State) : State := withNewel (fun n => { n with episodes := [episode kind] }) s
def slice (shadow : Nat) : Slice := ⟨0, 0, 0, 4096, 0x10000, 0x20000, 0x30000, shadow, 0, 0⟩
/-- A poisoned block 0 of model 1, whose packed copy is a zero block, with a shadow or with a home in the host window. -/
def sliced (shadow home : Nat) : State :=
  let s := (cxlUp inRun).memWrite 0x20000 (leBytes 4 0x40000000) false
  inEpisode 1 { s with serve := { s.serve with models := [(1, { loaded with home := home, pkg := some { package with slices := [slice shadow] } })] } }

theorem test_meets_upkeep : State.reset.memoryUp = false ∧ inRun.memoryUp = true ∧ memTop - 1 < memTop ∧ stackOk 23 = true ∧ stackOk 24 = false ∧ inRun.mem.laneCe = [] ∧
    ready.mode ≠ .run ∧ ready.newel.episodes.find? (fun e => e.num == 9) = none ∧ (inEpisode 2 ready).newel.restarting = false ∧
    (inEpisode 2 ready).newel.episodes.find? (fun e => e.num == 9) = some (episode 2) ∧ (episode 2).subj.kind ∈ [2, 4, 8, 10] ∧
    (inEpisode 1 ready).newel.episodes.find? (fun e => e.num == 9) = some (episode 1) ∧ (episode 1).subj.kind ∉ [2, 4, 8, 10] := by decide +kernel

theorem test_meets_weight_repair : (∀ h ∈ [(0x100000, 0), (0, 0x1000)], (sliced h.1 h.2).newel.episodes.find? (fun e => e.num == 9 && e.subj.kind == 1) = some (episode 1) ∧
      (sliced h.1 h.2).subjectBlock (episode 1).subj = some (1, slice h.1, 0) ∧ (sliced h.1 h.2).shadowClean (slice h.1) 0 = decide (h.1 ≠ 0)) ∧
    (kfind 1 (sliced 0 0x1000).serve.models).map (·.home) = some 0x1000 ∧ (sliced 0 0x1000).cxl.linkUp = true := by decide +kernel

theorem test_meets_rebuild : (sliced 0 0x1000).rebuildsBlock (slice 0) 0 (List.replicate 4096 121#8) = true := by
  have m : ∀ b ∈ List.replicate 4096 121#8, b = 121#8 := fun b hb => List.eq_of_mem_replicate hb
  have z : packBlock (List.replicate 4096 121#8) = .zero := by
    unfold packBlock
    rw [if_pos]
    rw [List.length_eq_zero_iff, List.filter_eq_nil_iff]
    intro w hw
    obtain ⟨b, hb, hw⟩ := List.mem_flatMap.1 hw
    rw [m b hb] at hw
    have t : ∀ w ∈ t5Decode 121#8, w = 0 := by decide +kernel
    simp [t w hw]
  have v : (List.replicate 4096 121#8).all t5Valid = true := List.all_eq_true.2 (fun b hb => by rw [m b hb]; decide)
  have c : ((sliced 0 0x1000).blockAt (slice 0) 0).2 = 0 ∧ leNat ((sliced 0 0x1000).memBytes ((slice 0).chkAddr + 4 * 0) 4) = 0 := by decide +kernel
  unfold State.rebuildsBlock
  rw [z, v, List.length_replicate, c.1, c.2]
  simp [StoredBlock.entry]

def cleanTraining : TrainOutcome := ⟨[], [], [], [], [], [], false, false, [], (350, 60), [], []⟩
def training (a b : Bool) : State :=
  { State.reset with mode := .training, start := { State.reset.start with selfTested := a, memoryDone := b } }

theorem test_meets_start : inOff.start.closed = true ∧ ({ inOff with start := { inOff.start with closed := false } } : State).start.closed = false ∧
    (∀ a b, (training a b).mode = .training ∧ (training a b).start.selfTested = a ∧ (training a b).start.memoryDone = b) ∧
    { cleanTraining with plannerFailed := true }.plannerFailed = true ∧ State.reset.mode = .standby ∧
    (withNewel (fun n => { n with recovery := true }) State.reset).mayTrain = false ∧
    stopped.mode = .stopped ∧ inRun.mode ≠ .stopped ∧ inRun.mode ≠ .off ∧ inOff.mode = .off := by decide +kernel

def storing : State := stopped.odPut Od.fwState 3

theorem test_meets_firmware_requests : storing.odGet Od.fwState = 3 ∧ (ready.odPut Od.fwState 2).odGet Od.fwState = 2 ∧
    ReachesScalar (ready.odPut Od.fwState 2) (wr 1 4) .mailbox Od.stateRequest ∧ ReachesScalar storing (wr 4 1702257011) .mailbox Od.store ∧
    ReachesScalar storing (wr 4 1684107116) .mailbox Od.restore :=
  ⟨by decide +kernel, by decide +kernel, reachesScalar_of (by decide +kernel), reachesScalar_of (by decide +kernel), reachesScalar_of (by decide +kernel)⟩

/-! ### Queue, memory, units -/

theorem test_meets_step : (State.reset : State).pending = [] ∧ ({ State.reset with pending := [.nop f0] } : State).pending = .nop f0 :: [] ∧
    Memory.wf State.reset.mem.cells = true ∧ Memory.wf (State.reset.memWrite 0x1000 [1#8, 0#8, 2#8] false).mem.cells = true := by decide +kernel

/-- A step on a queue of one NOP answers a next state with an empty queue and the same memory. -/
theorem test_step : ∃ t, step { readyImage with pending := [.nop f0] } = .next t ∧ t.pending = [] ∧ t.mem = readyImage.mem := ⟨_, by rfl, by rfl, by rfl⟩

/-- A command is refused where its flight, hall, arch, port, stack, tenant, vector or corridor does not exist, and runs at the last one that does. -/
theorem test_units : (∀ c ∈ [Instr.nop ⟨4, 0⟩, .nop ⟨0, 20⟩, .moverTake 4, .flitSlot 12, .portLinkChange 3 true, .sfpInserted 2 true 0, .laneCeWindow 24,
      .pageTimeout 64 0, .coalesceExpiry 64, .corridorDown 4], wellFormed c = false) ∧
    (∀ c ∈ [Instr.nop ⟨3, 19⟩, .moverTake 3, .flitSlot 11, .portLinkChange 2 true, .sfpInserted 1 true 0, .laneCeWindow 23, .pageTimeout 63 0, .coalesceExpiry 63,
      .corridorDown 3], wellFormed c = true) := by decide +kernel

theorem test_no_such_unit : exec (.nop ⟨4, 0⟩) State.reset = .refused .noSuchUnit ∧ exec (.moverTake 4) State.reset = .refused .noSuchUnit ∧
    exec (.flitSlot 12) State.reset = .refused .noSuchUnit := ⟨by rfl, by rfl, by rfl⟩

/-! ### The spec's worked examples -/

/-- Chapter 3, worked packing of five weights. -/
theorem test_t5 : t5Encode [1, 0, -1, -1, 1] = 0xA7#8 ∧ t5Decode 0xA7#8 = [1, 0, -1, -1, 1] := by decide +kernel

/-- Chapter 3, worked layout of a row of 2,048 channels with an outlier list. -/
theorem test_row_layout : headerOff false 2048 = 2048 ∧ outlierOff false 2048 = 2176 ∧ rowBytes false true 2048 = 2368 ∧ headerOff true 2048 = 1024 ∧
    outlierOff true 2048 = 1152 ∧ rowBytes true true 2048 = 1344 := by decide +kernel

/-- Chapter 3, worked scale: 0x3CCA applied to 1,000 with L = -6 is 77,000 × 2^-14. -/
theorem test_scale : sasApply 0x3CCA ⟨1000, -6⟩ = ⟨77000, -14⟩ := by decide +kernel

/-- Chapter 3, worked requantisation: a largest magnitude of 25,000 × 2^-6 takes E8 = 0x82 in N8. -/
theorem test_requant : requantExp 127 ⟨25000, -6⟩ = some 0x82 := by decide +kernel

/-- Chapter 5, worked sampling: the candidates' d values, the kept prefix and the token drawn. -/
theorem test_sampling : [1280, 1152, 1152, 768].map (candD (-8) 0x4000 1280) = [0, 128, 128, 512] ∧
    [0, 128, 512].map exptDefaultAt = [65535, 39749, 8869] ∧
    keptPrefix 58982 153902 0 [(65535, 17), (39749, 4), (39749, 90), (8869, 3)] = [(65535, 17), (39749, 4), (39749, 90)] ∧
    0xA3D70A3D * 145033 / 2 ^ 32 = 92821 ∧ pickToken 92821 0 [(65535, 17), (39749, 4), (39749, 90)] = some 4 := by decide +kernel

/-- Chapter 7, worked encoding: the first 13 bits of a segment with K = 1. -/
theorem test_code : bytesOfBits (segBits 1 [(3, false), (1, true), (7, false)]) = [0xE5#8, 0x0B#8] := by decide +kernel

/-- Chapter 8, worked entry of a handle table. -/
theorem test_handle_entry : bufOf 0 0 7 0x81484000000000400040002501004000 =
    { table := 0, handle := 7, landing := 0, view := 0, fmt := 1, ro := false, outl := true, olist := 33, lsb := 0, channels := 2048, rows := 64, pitch := 37,
      stride := 1, base := 16384, since := 0 } ∧ entryOk 0 0x81484000000000400040002501004000 (fun o => o == 33) = true := by decide +kernel

/-- Chapter 6, worked round: the lane-blocks of the first round of eleven active blocks. -/
theorem test_rounds : (dealAll 8 [(0, 0), (0, 1), (0, 2), (0, 5), (1, 1), (1, 3), (1, 4), (1, 6), (2, 0), (2, 2), (3, 7)]).length = 2 := by decide +kernel

/-- Chapter 11, worked walk: tenant 5's 2 MiB leaf, which a read may take and a store may not. -/
def walkState : State :=
  (((ready.odPut (Od.tenantRoot0 + 5) 0x10000001).memWrite 0x10000000 (leBytes 8 0x10001001) false).memWrite 0x10001800 (leBytes 8 0x10002001) false).memWrite
    0x10002048 (leBytes 8 0x1234400017) false

theorem test_walk : ((walkState.translate 0 5 0x4001234567 false).1.phys 0x4001234567) = some (0x1234434567, false) ∧
    (walkState.translate 0 5 0x4001234567 true).1 = .fault 0x2030 := by decide +kernel

/-- The opcode field's last values (R224, R225, log entry 45). -/
theorem test_opcodes : opOf (0x38 * 2 ^ 122) = 0x40 ∧ opOf (0x3F * 2 ^ 122) = 0x47 ∧ opOf (0x36 * 2 ^ 122) = 0x36 ∧ opKnown (opOf (0x37 * 2 ^ 122)) = false := by
  decide +kernel

end Sys2Proof.Tests
end

section
/-!
SUPPORT. What an empty queue's tick and a message across the Balustrade leave as they were, and what reset leaves: the statements on the
block's idle step and on its state after reset.
-/

namespace Sys2Proof.Machine

/-! ### One cycle of the timebase (R5) -/

/-- R5: in Off nothing counts. -/
@[simp] theorem State.tickEpoch_of_off {s : State} (h : s.mode = .off) : s.tickEpoch = s := by
  simp [State.tickEpoch, h]

/-- R5: with no slew under way a cycle counts one, and changes nothing else. -/
theorem State.tickEpoch_of_no_slew {s : State} (h : s.mode ≠ .off) (hs : s.arcade.slew = 0) :
    s.tickEpoch = { s with epoch := (s.epoch + 1) % 2 ^ 64 } := by
  have harc : { s.arcade with slew := 0 } = s.arcade := by rw [← hs]
  simp [State.tickEpoch, h, hs, harc]

/-- R5, R505: a cycle changes at most the counter and the arcade, which holds the slew. -/
theorem State.tickEpoch_frame (s : State) : ∃ e a, s.tickEpoch = { s with epoch := e, arcade := a } := by
  unfold State.tickEpoch
  generalize (if s.timeRef then 50000 else 20000) = every
  simp only
  split
  · exact ⟨s.epoch, s.arcade, rfl⟩
  · split
    · exact ⟨_, _, rfl⟩
    · split
      · exact ⟨_, _, rfl⟩
      · split <;> exact ⟨_, _, rfl⟩

/-! ### A message across the Balustrade (R470, R471) -/

/-- R470: a message changes at most the dictionary's counts, the Foyer's queues and what has left. -/
theorem State.balSend_frame (s : State) (typ : Nat) (body : Bytes) :
    ∃ d f o, s.balSend typ body = { s with od := d, foyer := f, out := o } := by
  unfold State.balSend
  split
  · exact ⟨s.od, s.foyer, s.out, rfl⟩
  · simp only
    split
    · exact ⟨_, s.foyer, s.out, rfl⟩
    · exact ⟨s.od, _, _, rfl⟩

/-! ### The tick of an empty queue -/

/-- R470: the announcement of a second adds to the tick at most a message to the Foyer. -/
theorem State.idleTick_frame (s : State) : ∃ d f o, s.idleTick = { s.tickEpoch with od := d, foyer := f, out := o } := by
  unfold State.idleTick
  simp only
  split
  · exact s.tickEpoch.balSend_frame _ _
  · exact ⟨s.tickEpoch.od, s.tickEpoch.foyer, s.tickEpoch.out, rfl⟩

@[simp] theorem State.idleTick_epoch (s : State) : s.idleTick.epoch = s.tickEpoch.epoch := by
  obtain ⟨d, f, o, h⟩ := s.idleTick_frame
  rw [h]

@[simp] theorem State.idleTick_mem (s : State) : s.idleTick.mem = s.mem := by
  obtain ⟨d, f, o, h⟩ := s.idleTick_frame
  obtain ⟨e, a, ht⟩ := s.tickEpoch_frame
  rw [h, ht]

@[simp] theorem State.idleTick_halls (s : State) : s.idleTick.halls = s.halls := by
  obtain ⟨d, f, o, h⟩ := s.idleTick_frame
  obtain ⟨e, a, ht⟩ := s.tickEpoch_frame
  rw [h, ht]

@[simp] theorem State.idleTick_of_off {s : State} (h : s.mode = .off) : s.idleTick = s := by
  simp [State.idleTick, h]

theorem step_of_empty_queue {s : State} (h : s.pending = []) : step s = .next s.idleTick := by
  simp [step, h]

/-- Settles O2: the step is the idle tick, which adds to a cycle of the timebase at most a message to the Foyer. -/
theorem stepOnEmptyQueueTicks : Obligations.StepOnEmptyQueueTicks := by
  intro s hq
  refine ⟨s.idleTick, step_of_empty_queue hq, s.idleTick_mem, s.idleTick_halls, State.idleTick_of_off, fun hm hs => ?_⟩
  rw [State.idleTick_epoch, State.tickEpoch_of_no_slew hm hs]

/-! ### What reset leaves (R5, R39, R254, R534) -/

/-- A map that lists nothing holds the default at every key. -/
@[simp] theorem kget_nil {α : Type} (d : α) (k : Nat) : kget d k [] = d := rfl

/-- R39: every entry is at its default. -/
@[simp] theorem reset_odGet (k : Nat) : State.reset.odGet k = odDefault k := kget_nil _ k

/-- R254: memory lists nothing, and an unlisted byte reads 0. -/
@[simp] theorem reset_memByte (a : Nat) : State.reset.memByte a = 0#8 := kget_nil _ a

/-- Every arch is as ArchSt.reset gives it. -/
@[simp] theorem reset_arch (n : Nat) : State.reset.arch n = ArchSt.reset := kget_nil _ n

/-- No arch carries frames: an arch after reset is in none of the states that do. -/
@[simp] theorem reset_arch_up (n : Nat) : (State.reset.arch n).up = false := by
  rw [reset_arch]
  rfl

/-- Settles O60: the maps' reads by the lemmas above, and every field as State.reset writes it. -/
theorem resetState : Obligations.ResetState :=
  ⟨rfl, rfl, rfl, rfl, reset_odGet, rfl, rfl, reset_memory_wf, rfl, reset_memByte, rfl, reset_arch_up, rfl, rfl, rfl, rfl, rfl, rfl, rfl, rfl, rfl, rfl⟩

end Sys2Proof.Machine
end

section
/-!
SUPPORT. What the work of a load, of a re-placement and of an escalation leaves as it was: the entries of the dictionary in which their statements are
given, the module's state, its time and its models.
-/

namespace Sys2Proof.Machine

/-! ### The entries that say how the module is placed -/

/-- The entries in which loads, re-placements and lost corridors are reported, and the one that says how many levels lie above the module. -/
def placementEntries : List Nat := [Od.corridorsUp, Od.planEpoch, Od.depthConfig, Od.modelsRefused]

/-- Two states agree in those entries. -/
structure KeepsEntries (s t : State) : Prop where
  same : ∀ k ∈ placementEntries, t.odGet k = s.odGet k

theorem KeepsEntries.refl (s : State) : KeepsEntries s s := ⟨fun _ _ => rfl⟩

theorem KeepsEntries.step {s t u : State} (h : KeepsEntries s t) (h' : KeepsEntries t u) : KeepsEntries s u :=
  ⟨fun k hk => (h'.same k hk).trans (h.same k hk)⟩

theorem KeepsEntries.of_od {s t : State} (h : t.od.vals = s.od.vals) : KeepsEntries s t :=
  ⟨fun k _ => by simp only [State.odGet, h]⟩

theorem State.odPut_keepsEntries (s : State) {k : Nat} (hk : k ∉ placementEntries) (v : Nat) : KeepsEntries s (s.odPut k v) :=
  ⟨fun _ hj => s.odGet_odPut_ne (ne_of_mem_of_not_mem hj hk) v⟩

theorem State.count_keepsEntries (s : State) {k : Nat} (hk : k ∉ placementEntries) (n : Nat) : KeepsEntries s (s.count k n) :=
  s.odPut_keepsEntries hk _

theorem State.counts_keepsEntries {l : List (Nat × Nat)} (hl : ∀ e ∈ l, e.1 ∉ placementEntries) (s : State) : KeepsEntries s (s.counts l) := by
  induction l generalizing s with
  | nil => exact .refl s
  | cons e l ih =>
    exact (s.count_keepsEntries (hl e List.mem_cons_self) e.2).step (ih (fun x hx => hl x (List.mem_cons_of_mem e hx)) _)

@[simp] theorem State.signal_od (s : State) (v : Nat) : (s.signal v).od = s.od := by
  unfold State.signal
  split
  · rfl
  · split <;> rfl

@[simp] theorem State.addEvent_od (s : State) (r : LogRec) : (s.addEvent r).od = s.od := by
  unfold State.addEvent
  simp only
  generalize (_ && _ : Bool) = b
  cases b <;> simp

theorem State.bufferPut_keepsEntries (s : State) (r : LogRec) : KeepsEntries s (s.bufferPut r) := by
  unfold State.bufferPut
  split
  · exact .of_od (by simp)
  · exact s.count_keepsEntries (by decide) 1

theorem State.ringPut_keepsEntries (s : State) (r : LogRec) : KeepsEntries s (s.ringPut r) := by
  unfold State.ringPut
  exact .of_od rfl

/-- R484 to R487: a record writes the last error and its time, or the count of those lost. -/
theorem State.record_keepsEntries (s : State) (ev : LogEv) (extra n time e q : Nat) : KeepsEntries s (s.record ev extra n time e q) := by
  unfold State.record
  simp only
  split
  · exact s.ringPut_keepsEntries _
  · exact (((s.ringPut_keepsEntries _).step (State.odPut_keepsEntries _ (by decide) _)).step (State.odPut_keepsEntries _ (by decide) _)).step
      (State.bufferPut_keepsEntries _ _)

theorem State.logEv_keepsEntries (s : State) (ev : LogEv) (extra : Nat) : KeepsEntries s (s.logEv ev extra) := by
  unfold State.logEv
  split
  · split
    · exact .of_od rfl
    · exact s.count_keepsEntries (by decide) 1
  · exact s.record_keepsEntries ..

theorem State.logLimited_keepsEntries (s : State) (ev : LogEv) (subject interval : Nat) : KeepsEntries s (s.logLimited ev subject interval) := by
  unfold State.logLimited
  split
  · exact .of_od rfl
  · exact (s.logEv_keepsEntries ev 0).step (.of_od rfl)

/-! ### Work that changes no placement -/

/-- Two states agree in those entries and in the module's state. -/
structure PlanFrame (s t : State) : Prop where
  entries : KeepsEntries s t
  mode : t.mode = s.mode

/-- They agree, beside, in the time and in the models. -/
structure WorkFrame (s t : State) : Prop extends PlanFrame s t where
  epoch : t.epoch = s.epoch
  models : t.serve.models = s.serve.models

theorem PlanFrame.refl (s : State) : PlanFrame s s := ⟨.refl s, rfl⟩

theorem PlanFrame.step {s t u : State} (h : PlanFrame s t) (h' : PlanFrame t u) : PlanFrame s u :=
  ⟨h.entries.step h'.entries, h'.mode.trans h.mode⟩

theorem WorkFrame.refl (s : State) : WorkFrame s s := ⟨.refl s, rfl, rfl⟩

theorem WorkFrame.step {s t u : State} (h : WorkFrame s t) (h' : WorkFrame t u) : WorkFrame s u :=
  ⟨h.toPlanFrame.step h'.toPlanFrame, h'.epoch.trans h.epoch, h'.models.trans h.models⟩

/-- An update of other parts of the state. -/
theorem WorkFrame.of_eq {s t : State} (hod : t.od.vals = s.od.vals) (hmode : t.mode = s.mode) (hepoch : t.epoch = s.epoch)
    (hmodels : t.serve.models = s.serve.models) : WorkFrame s t := ⟨⟨.of_od hod, hmode⟩, hepoch, hmodels⟩

theorem WorkFrame.after {s t u : State} (h : WorkFrame t u) (hod : t.od.vals = s.od.vals) (hmode : t.mode = s.mode) (hepoch : t.epoch = s.epoch)
    (hmodels : t.serve.models = s.serve.models) : WorkFrame s u := (WorkFrame.of_eq hod hmode hepoch hmodels).step h

/-- Counting and logging are such work, where they count none of those entries. -/
theorem LogFrame.work {s t : State} (h : LogFrame s t) (he : KeepsEntries s t) : WorkFrame s t :=
  ⟨⟨he, h.mode⟩, h.epoch, congrArg ServeSt.models h.serve⟩

/-- Work done for each element of a list in turn. -/
theorem WorkFrame.foldl {β : Type} {f : State → β → State} (hf : ∀ s b, WorkFrame s (f s b)) (l : List β) (s : State) :
    WorkFrame s (l.foldl f s) :=
  foldl_keeps (WorkFrame s) f (fun t b h => h.step (hf t b)) l (.refl s)

theorem PlanFrame.foldl {β : Type} {f : State → β → State} (hf : ∀ s b, PlanFrame s (f s b)) (l : List β) (s : State) :
    PlanFrame s (l.foldl f s) :=
  foldl_keeps (PlanFrame s) f (fun t b h => h.step (hf t b)) l (.refl s)

theorem WorkFrame.ite {s t u : State} {c : Prop} [Decidable c] (ht : WorkFrame s t) (hu : WorkFrame s u) : WorkFrame s (if c then t else u) := by
  split <;> assumption

theorem PlanFrame.ite {s t u : State} {c : Prop} [Decidable c] (ht : PlanFrame s t) (hu : PlanFrame s u) : PlanFrame s (if c then t else u) := by
  split <;> assumption

theorem State.count_work (s : State) {k : Nat} (hk : k ∉ placementEntries) (n : Nat) : WorkFrame s (s.count k n) :=
  (s.count_frame k n).work (s.count_keepsEntries hk n)

theorem State.counts_work (s : State) {l : List (Nat × Nat)} (hl : ∀ e ∈ l, e.1 ∉ placementEntries) : WorkFrame s (s.counts l) :=
  (s.counts_frame l).work (s.counts_keepsEntries hl)

theorem State.logEv_work (s : State) (ev : LogEv) (extra : Nat) : WorkFrame s (s.logEv ev extra) :=
  (s.logEv_frame ev extra).work (s.logEv_keepsEntries ev extra)

theorem State.logLimited_work (s : State) (ev : LogEv) (subject interval : Nat) : WorkFrame s (s.logLimited ev subject interval) :=
  (s.logLimited_frame ev subject interval).work (s.logLimited_keepsEntries ev subject interval)

theorem State.signal_work (s : State) (v : Nat) : WorkFrame s (s.signal v) := (s.signal_frame v).work (.of_od (by simp))

/-! ### Writes of device memory (R437) -/

theorem State.memWrite_work (s : State) (a : Nat) (d : Bytes) (p : Bool) : WorkFrame s (s.memWrite a d p) := by
  unfold State.memWrite
  exact .ite (.refl s) (.ite (s.count_work (by decide) 1) (.of_eq rfl rfl rfl rfl))

theorem State.backInvalidate_work (s : State) (l : Nat) : WorkFrame s (s.backInvalidate l) := by
  unfold State.backInvalidate
  exact .ite (.refl s) ((State.count_work _ (k := Od.backInvalidates) (by decide) 1).after rfl rfl rfl rfl)

theorem drainHost_work (n : Nat) (s : State) : WorkFrame s (drainHost n s) := by
  induction n generalizing s with
  | zero => exact .refl s
  | succ n ih =>
    have write : ∀ (t : State) a d p, WorkFrame s t → WorkFrame s (drainHost n (t.memWrite a d p)) :=
      fun t a d p h => (h.step (t.memWrite_work a d p)).step (ih _)
    unfold drainHost
    split
    · exact .refl s
    · exact ((State.signal_work _ _).step (ih _)).after rfl rfl rfl rfl
    · refine .ite (.after (ih _) rfl rfl rfl rfl) (.ite (.after (ih _) rfl rfl rfl rfl) ?_)
      split
      · exact .refl s
      · exact s.backInvalidate_work _
    · exact (ih _).after rfl rfl rfl rfl
    · exact (ih _).after rfl rfl rfl rfl
    · split
      · exact .ite (s.backInvalidate_work _) (write _ _ _ _ (.of_eq rfl rfl rfl rfl))
      · exact write _ _ _ _ (.of_eq rfl rfl rfl rfl)

theorem State.devWrite_work (s : State) (a : Nat) (d : Bytes) (p : Bool) : WorkFrame s (s.devWrite a d p) :=
  (drainHost_work _ _).after rfl rfl rfl rfl

/-! ### Frames and messages that leave (R420, R470) -/

theorem State.queueFrame_work (s : State) (n : Nat) (f : Frame) : WorkFrame s (s.queueFrame n f) := by
  unfold State.queueFrame
  split
  · exact .refl s
  · exact .of_eq rfl rfl rfl rfl

theorem State.sendFrame_work (s : State) (f : Frame) : WorkFrame s (s.sendFrame f) := by
  unfold State.sendFrame
  split
  · exact s.queueFrame_work _ f
  · exact (s.count_work (by decide) 1).step (State.logEv_work _ _ 0)

/-- R420: a frame that leaves, or is discarded, changes neither memory nor the address spaces. -/
theorem State.sendFrame_mem_xlate (s : State) (f : Frame) : (s.sendFrame f).mem = s.mem ∧ (s.sendFrame f).xlate = s.xlate := by
  unfold State.sendFrame
  split
  · unfold State.queueFrame
    split <;> exact ⟨rfl, rfl⟩
  · have h := (s.count_frame Od.unroutableDrops 1).step (State.logEv_frame _ { code := 0x5011, job := f.job } 0)
    exact ⟨h.mem, h.xlate⟩

theorem State.moveTo_work (s : State) (dest : Word64) (a : Nat) (d : Bytes) : WorkFrame s (s.moveTo dest a d) :=
  (State.sendFrame_work _ _).after rfl rfl rfl rfl

theorem State.balSend_work (s : State) (typ : Nat) (body : Bytes) : WorkFrame s (s.balSend typ body) := by
  unfold State.balSend
  split
  · exact .refl s
  · exact .ite (s.count_work (by decide) 1) (.of_eq rfl rfl rfl rfl)

theorem State.flushWords_work (s : State) (i k n : Nat) : WorkFrame s (s.flushWords i k n) := by
  have h : WorkFrame s (s.flushLocal i k n) := s.devWrite_work _ _ _
  unfold State.flushWords
  simp only
  split
  · exact h.step (State.moveTo_work _ _ _ _)
  · exact h

theorem State.modCell_work (s : State) (entry : Nat) (f : CellSt → CellSt) : WorkFrame s (s.modCell entry f) := .of_eq rfl rfl rfl rfl

theorem State.setStream_work (s : State) (i : Nat) (r : StreamRec) : WorkFrame s (s.setStream i r) := .of_eq rfl rfl rfl rfl

theorem State.aggRefill_work (s : State) : WorkFrame s s.aggRefill := .of_eq rfl rfl rfl rfl

theorem State.mapUpdate_work (s : State) (c : CellSt) : WorkFrame s (s.mapUpdate c) := by
  unfold State.mapUpdate
  exact s.balSend_work 0x83 _

/-- R462: binding a cell, to its stream, to a later load or in vain. -/
theorem State.bindCell_work (s : State) (entry : Nat) : WorkFrame s (s.bindCell entry) := by
  unfold State.bindCell
  split
  · exact .refl s
  · rename_i c _
    extract_lets r _ _ _ _ _ _ _ _ _ _ _ _ s'
    have hs' : WorkFrame s s' := by
      have bound (q : StreamRec) (g : CellSt → CellSt) : WorkFrame s ((s.aggRefill.setStream entry q).modCell entry g) :=
        (s.aggRefill_work.step (State.setStream_work _ entry q)).step (State.modCell_work _ entry g)
      exact .ite (s.modCell_work entry _)
        (.ite ((((bound _ _).step (State.flushWords_work _ _ _ _)).step (State.flushWords_work _ _ _ _)).step (State.flushWords_work _ _ _ _))
          (((s.modCell_work entry _).step (State.count_work _ (by decide) 1)).step (State.logLimited_work _ _ _ _)))
    split
    · exact hs'.step (State.mapUpdate_work _ _)
    · exact hs'

end Sys2Proof.Machine
end

section
/-!
SUPPORT. What a packing pass leaves (R184 to R186, R388 to R390): a refusal, a part that waits for the next one, a model that is loaded.
-/

namespace Sys2Proof.Machine

/-! ### A load that is refused (R388, R390) -/

theorem exec_packingDone (m : Nat) (out : PackEnd) (s : State) : exec (.packingDone m out) s = execPackingDone m out s := by rfl

theorem exec_partTimeout (m : Nat) (s : State) : exec (.partTimeout m) s = execPartTimeout m s := by rfl

/-- R388: what stays of a load that is refused with a code. -/
def ModelSt.refused (x : ModelSt) (code : Nat) : ModelSt :=
  { x with state := 5, code := code, pkg := none, work := [], packed := false, shares := [], done := [] }

/-- The state with a model's load as given. -/
def State.putModel (s : State) (m : Nat) (x : ModelSt) : State := { s with serve := { s.serve with models := kput m x s.serve.models } }

@[simp] theorem State.putModel_model (s : State) (m : Nat) (x : ModelSt) : kfind m (s.putModel m x).serve.models = some x := kfind_kput_self ..

theorem State.refuseLoad_eq {s : State} {m : Nat} {x : ModelSt} (h : kfind m s.serve.models = some x) (code : Nat) :
    s.refuseLoad m code = (s.putModel m (x.refused code)).count Od.modelsRefused 1 := by
  unfold State.refuseLoad
  rw [h]
  rfl

theorem State.releaseShares_work (s : State) (m : Nat) (x : ModelSt) : WorkFrame s (s.releaseShares m x) :=
  WorkFrame.foldl (fun t _ => t.sendFrame_work _) x.shares s

theorem State.releaseShares_mem_xlate (s : State) (m : Nat) (x : ModelSt) :
    (s.releaseShares m x).mem = s.mem ∧ (s.releaseShares m x).xlate = s.xlate := by
  refine foldl_keeps (fun t : State => t.mem = s.mem ∧ t.xlate = s.xlate) _ (fun t e h => ?_) x.shares ⟨rfl, rfl⟩
  obtain ⟨hmem, hxlate⟩ := State.sendFrame_mem_xlate t _
  exact ⟨hmem.trans h.1, hxlate.trans h.2⟩

/-- R388, R390: a load refused here and in every member: the code stands, the refusal counts, and memory and the address spaces are as they were. -/
theorem State.refuseAll_leaves {s : State} {m : Nat} {x : ModelSt} (h : kfind m s.serve.models = some x) (code : Nat) (y : ModelSt) :
    (s.refuseAll m code y).mem = s.mem ∧ (s.refuseAll m code y).xlate = s.xlate ∧
      kfind m (s.refuseAll m code y).serve.models = some (x.refused code) ∧
      (s.refuseAll m code y).odGet Od.modelsRefused = (s.odGet Od.modelsRefused + 1) % odModulus Od.modelsRefused := by
  have hw := s.releaseShares_work m y
  obtain ⟨hmem, hxlate⟩ := s.releaseShares_mem_xlate m y
  have hodGet : (s.releaseShares m y).odGet Od.modelsRefused = s.odGet Od.modelsRefused := hw.entries.same _ (by decide)
  rw [State.refuseAll, State.refuseLoad_eq (x := x) (hw.models ▸ h)]
  refine ⟨hmem, hxlate, State.putModel_model .., ?_⟩
  rw [State.odGet_count_self, ← hodGet]
  rfl

/-! ### What a packing pass does (R184, R389) -/

/-- R390: a load that has heard of members which have settled their shares. -/
def ModelSt.noteDone (x : ModelSt) (ms : List (Nat × Nat)) : ModelSt := { x with done := (x.done ++ ms.map (·.1)).dedup }

theorem execPackingDone_idle {m : Nat} {s : State} (h : ∀ x, kfind m s.serve.models = some x → x.state ≠ 2 ∨ x.pkg = none) (out : PackEnd) :
    execPackingDone m out s = .next s := by
  unfold execPackingDone
  split
  · rfl
  · rename_i x hx
    split
    · rfl
    · rename_i p hp
      rw [if_pos ((h x hx).resolve_right (by simp [hp]))]

section
variable {m : Nat} {s : State} {x : ModelSt} {p : Package} {ms : List (Nat × Nat)}
  (hx : kfind m s.serve.models = some x) (hst : x.state = 2) (hp : x.pkg = some p)
include hx hst hp

theorem execPackingDone_of_member_code {e : Nat × Nat} (he : ms.find? (fun e => e.2 ≠ 0) = some e) (nr : Bool) :
    execPackingDone m ⟨nr, ms⟩ s = .next (s.refuseAll m e.2 x) := by
  unfold execPackingDone
  simp only [hx, hp, hst, he, ne_eq, not_true_eq_false, if_false]

/-- R186, R388: with every member settled, a part that is not packed yet is refused with its code, refused for want of memory, or packed. -/
theorem execPackingDone_of_unpacked (hms : ∀ e ∈ ms, e.2 = 0) (hpk : x.packed = false) (nr : Bool) :
    execPackingDone m ⟨nr, ms⟩ s = .next (
      if s.packRefusal x p ≠ 0 then (s.putModel m (x.noteDone ms)).refuseAll m (s.packRefusal x p) (x.noteDone ms)
      else if nr then (s.putModel m (x.noteDone ms)).refuseAll m 0x4301 (x.noteDone ms)
      else (s.putModel m (x.noteDone ms)).packPart m (x.noteDone ms) p) := by
  have hnone : ms.find? (fun e => decide (e.2 ≠ 0)) = none := by simpa using hms
  have hsame : (s.putModel m (x.noteDone ms)).packRefusal (x.noteDone ms) p = s.packRefusal x p := rfl
  rw [← hsame]
  simp only [execPackingDone, hx, hp, hst, hnone, hpk, State.putModel, ModelSt.noteDone, ne_eq, not_true_eq_false, if_false, Bool.false_eq_true]
  split
  · rfl
  · split <;> rfl

end

theorem execPartTimeout_of_found {m : Nat} {s : State} {x : ModelSt} (hx : kfind m s.serve.models = some x) :
    execPartTimeout m s = .next (if x.state = 4 then s.refuseAll m 0x4304 x else s) := by
  unfold execPartTimeout
  rw [hx]

theorem execPartTimeout_idle {m : Nat} {s : State} (h : (kfind m s.serve.models).map (·.state) ≠ some 4) : execPartTimeout m s = .next s := by
  unfold execPartTimeout
  split
  · rename_i x hx
    rw [if_neg (fun e => h (by rw [hx, Option.map_some, e]))]
  · rfl

/-! ### Packing the slices of a part (R184, R185) -/

theorem packCounts_not_placement (l : List (Nat × Bytes × Nat × StoredBlock)) : ∀ e ∈ packCounts l, e.1 ∉ placementEntries := by
  intro e he
  simp only [packCounts, List.mem_append, List.mem_map] at he
  obtain ⟨⟨_, _, _, b⟩, _, rfl⟩ | ⟨_, _, rfl⟩ := he
  · cases b <;> simp only <;> decide
  · simp only
    decide

/-- R184: a slice packed writes memory and its counters, and in its model's load what is packed of it. -/
theorem State.packSlice_frame (s : State) (x : ModelSt) (k : Nat) (sl : Slice) :
    WorkFrame s (s.packSlice x k sl).2 ∧ ∃ w, (s.packSlice x k sl).1 = { x with work := w } := by
  unfold State.packSlice
  obtain ⟨a, off, n⟩ := partBytes x sl
  obtain ⟨blk, unit, kept⟩ := kget (0, 0, []) k x.work
  simp only
  split
  · exact ⟨.refl s, x.work, rfl⟩
  · refine ⟨?_, _, rfl⟩
    have hwrite (l a d b e c f) : WorkFrame s
        (((((s.count Od.packBytesIn n).counts (packCounts l)).devWrite a d).devWrite b e).devWrite c f) :=
      ((((s.count_work (by decide) n).step (State.counts_work _ (packCounts_not_placement l))).step (State.devWrite_work _ a d _)).step
        (State.devWrite_work _ b e _)).step (State.devWrite_work _ c f _)
    exact .ite (hwrite ..) ((hwrite ..).step (State.devWrite_work ..))

/-- R184: the slices of a list packed in turn, each with its place in the package. -/
def State.packSlices (s : State) (x : ModelSt) (l : List (Slice × Nat)) : ModelSt × State :=
  l.foldl (fun r e => r.2.packSlice r.1 e.2 e.1) (x, s)

theorem State.packSlices_frame (s : State) (x : ModelSt) (l : List (Slice × Nat)) :
    WorkFrame s (s.packSlices x l).2 ∧ ∃ w, (s.packSlices x l).1 = { x with work := w } := by
  refine foldl_keeps (fun r : ModelSt × State => WorkFrame s r.2 ∧ ∃ w, r.1 = { x with work := w }) _ (fun r e h => ?_) l ⟨.refl s, x.work, rfl⟩
  obtain ⟨hs, w, hx⟩ := h
  obtain ⟨hs', w', hx'⟩ := r.2.packSlice_frame r.1 e.2 e.1
  exact ⟨hs.step hs', w', by rw [hx', hx]⟩

theorem State.landCopy_work (s : State) (c : LandCopy) (sl : Slice) : WorkFrame s (s.landCopy c sl) := by
  unfold State.landCopy
  simp only
  exact (State.counts_work _ (by simp [placementEntries])).after rfl rfl rfl rfl

/-! ### The load goes on (R388 to R390) -/

section
variable {s : State} {m : Nat} {x : ModelSt} (hx : kfind m s.serve.models = some x)
include hx

/-- R390: a part waits for the members' confirmations. -/
theorem State.loadProgress_of_unconfirmed (h : s.sharesIn x = false) : s.loadProgress m = s := by
  simp [State.loadProgress, hx, h]

section
variable (hst : x.state = 2) (hpk : x.packed = true) (hin : s.sharesIn x = true)
include hst hpk hin

/-- R389: with every share confirmed, the load awaits the next part. -/
theorem State.loadProgress_of_earlier_part (h : x.part + 1 < x.parts) :
    s.loadProgress m = s.putModel m { x with state := 4, since := s.epoch, packed := false } := by
  unfold State.loadProgress
  rw [hx]
  simp only
  rw [if_neg (by simp [hst, hpk, hin]), if_pos h]
  rfl

/-- R390: after the last part the load waits until every member has completed step 5. -/
theorem State.loadProgress_of_incomplete (h : x.parts ≤ x.part + 1) (hdone : ∃ e ∈ x.shares, e.1 ∉ x.done) : s.loadProgress m = s := by
  unfold State.loadProgress
  rw [hx]
  simp only
  rw [if_neg (by simp [hst, hpk, hin]), if_neg (by omega), if_pos (by simpa using hdone)]

/-- R388, step 5: after the last part, with every member done, the model is loaded. -/
theorem State.loadProgress_of_complete {p : Package} (hp : x.pkg = some p) (h : x.parts ≤ x.part + 1) (hdone : ∀ e ∈ x.shares, e.1 ∈ x.done) :
    s.loadProgress m = s.modelLoaded m x p := by
  unfold State.loadProgress
  rw [hx]
  simp only
  rw [if_neg (by simp [hst, hpk, hin]), if_neg (by omega), if_neg (by simpa using hdone), hp]

end
end

/-! ### A placement takes effect (R393) -/

theorem State.newEpoch_of_found {s : State} {m : Nat} {x : ModelSt} (hx : kfind m s.serve.models = some x) :
    s.newEpoch m = (s.count Od.planEpoch 1).putModel m { x with epoch := (s.odGet Od.planEpoch + 1) % odModulus Od.planEpoch, time := s.epoch } := by
  unfold State.newEpoch
  simp only [State.count_serve, hx, State.odGet_count_self]
  rfl

@[simp] theorem State.newEpoch_planEpoch (s : State) (m : Nat) :
    (s.newEpoch m).odGet Od.planEpoch = (s.odGet Od.planEpoch + 1) % odModulus Od.planEpoch := by
  rw [← s.odGet_count_self]
  unfold State.newEpoch
  simp only
  split <;> rfl

@[simp] theorem State.newEpoch_mode (s : State) (m : Nat) : (s.newEpoch m).mode = s.mode := by
  unfold State.newEpoch
  simp only
  split <;> rfl

@[simp] theorem State.newEpoch_jobOf (s : State) (m j : Nat) : (s.newEpoch m).jobOf j = s.jobOf j := by
  unfold State.newEpoch
  simp only
  split <;> rfl

/-- R388, step 5: a loaded model stands under the next placement epoch, from now on. -/
theorem State.modelLoaded_places (s : State) (m : Nat) (x : ModelSt) (p : Package) :
    ∃ y, kfind m (s.modelLoaded m x p).serve.models = some y ∧ y.state = 3 ∧ y.code = 0 ∧ y.time = s.epoch ∧
      (s.modelLoaded m x p).odGet Od.planEpoch = (s.odGet Od.planEpoch + 1) % odModulus Od.planEpoch ∧
      y.epoch = (s.modelLoaded m x p).odGet Od.planEpoch := by
  unfold State.modelLoaded
  extract_lets y ts maps pools layers _ _ _ u v
  have hu : kfind m u.serve.models = some y := kfind_kput_self ..
  have hv : kfind m v.serve.models = some { y with epoch := (s.odGet Od.planEpoch + 1) % odModulus Od.planEpoch, time := s.epoch } := by
    rw [show v = _ from State.newEpoch_of_found hu]
    exact State.putModel_model ..
  have hw : WorkFrame v (if v.mode = .run ∨ v.mode = .stopped then
      ((v.foyer.cells.filter (fun c => c.state == 3 && c.rec_.model == m)).map (·.rec_.entry)).foldl (fun s e => s.bindCell e) v else v) :=
    .ite (.foldl (fun t e => t.bindCell_work e) _ v) (.refl v)
  have hepoch : v.odGet Od.planEpoch = (s.odGet Od.planEpoch + 1) % odModulus Od.planEpoch := u.newEpoch_planEpoch m
  have hkeep := (hw.entries.same Od.planEpoch (by decide)).trans hepoch
  exact ⟨_, hw.models ▸ hv, rfl, rfl, rfl, hkeep, hkeep.symm⟩

/-! ### A part packed in a module without a tray (R388) -/

theorem State.holds_of_depth {s : State} (h : s.depth ≤ 2) (sl : Slice) : s.holds sl = true := by simp [State.holds, h]

/-- The slices of a package, each with its place in it. -/
abbrev placedSlices (p : Package) : List (Slice × Nat) := p.slices.zip (List.range p.slices.length)

/-- R390: the shares of other members leave in turn. -/
def State.sendShares (s : State) (x : ModelSt) (l : List (Slice × Nat)) : ModelSt × State :=
  l.foldl (fun r e => r.2.sendShare r.1 e.1) (x, s)

/-- R388, steps 3 and 4: a part is packed; after the last one the landing copies are written. -/
def State.partPacked (s : State) (m : Nat) (x : ModelSt) (p : Package) : State :=
  let s := s.putModel m { x with packed := true }
  if x.part + 1 = x.parts then (s.ownCopies p).foldl (fun s e => s.landCopy e.1 e.2) s else s

theorem State.partPacked_work (s : State) (m : Nat) (x : ModelSt) (p : Package) :
    WorkFrame (s.putModel m { x with packed := true }) (s.partPacked m x p) := by
  unfold State.partPacked
  extract_lets u
  split
  · exact .foldl (fun t (e : LandCopy × Slice) => t.landCopy_work e.1 e.2) _ u
  · exact .refl u

theorem State.packPart_eq (s : State) (m : Nat) (x : ModelSt) (p : Package) :
    s.packPart m x p =
      (let r := s.packSlices x ((placedSlices p).filter (fun e => s.holds e.1))
       if r.1.tooLong then r.2.refuseAll m 0x3042 r.1
       else
         let q := r.2.sendShares r.1 ((placedSlices p).filter (fun e => !r.2.holds e.1 && r.2.isManager))
         (q.2.partPacked m q.1 p).loadProgress m) := by
  rfl

/-- R388: alone, the module packs every slice, and once the last part's copies are written the load goes on with no share of another member. -/
theorem State.packPart_of_alone {s : State} {x : ModelSt} (p : Package) (m : Nat) (hd : s.depth ≤ 2)
    (hlen : (s.packSlices x (placedSlices p)).1.tooLong = false) :
    s.packPart m x p =
      ((s.packSlices x (placedSlices p)).2.partPacked m (s.packSlices x (placedSlices p)).1 p).loadProgress m := by
  have hwork := (s.packSlices_frame x (placedSlices p)).1
  have hd' : (s.packSlices x (placedSlices p)).2.depth ≤ 2 := (hwork.entries.same Od.depthConfig (by decide)).trans_le hd
  have hall : (placedSlices p).filter (fun e => s.holds e.1) = placedSlices p := List.filter_eq_self.2 (fun e _ => s.holds_of_depth hd e.1)
  rw [State.packPart_eq, hall]
  extract_lets r q
  have hnone : (placedSlices p).filter (fun e => !r.2.holds e.1 && r.2.isManager) = [] :=
    List.filter_eq_nil_iff.2 (fun e _ => by simp [r.2.holds_of_depth hd' e.1])
  have hq : q = (r.1, r.2) := congrArg (r.2.sendShares r.1) hnone
  rw [if_neg (by simp [r, hlen]), hq]

/-- R388, R389: alone, the module's load goes from a packed part to the next one, or to the loaded model under the next epoch. -/
theorem State.packPart_outcome {s : State} {x : ModelSt} {p : Package} (m : Nat) (hd : s.depth ≤ 2) (hst : x.state = 2) (hp : x.pkg = some p)
    (hsh : x.shares = []) (hlen : (s.packSlices x (placedSlices p)).1.tooLong = false) :
    ∃ y, kfind m (s.packPart m x p).serve.models = some y ∧
      (x.part + 1 = x.parts → y.state = 3 ∧ y.code = 0 ∧ y.time = s.epoch ∧
        (s.packPart m x p).odGet Od.planEpoch = (s.odGet Od.planEpoch + 1) % odModulus Od.planEpoch ∧
        y.epoch = (s.packPart m x p).odGet Od.planEpoch) ∧
      (x.part + 1 < x.parts → y.state = 4 ∧ y.since = s.epoch ∧ (s.packPart m x p).odGet Od.planEpoch = s.odGet Od.planEpoch) := by
  rw [State.packPart_of_alone p m hd hlen]
  obtain ⟨hwork, w, hmodel⟩ := s.packSlices_frame x (placedSlices p)
  have hpart := (s.packSlices x (placedSlices p)).2.partPacked_work m (s.packSlices x (placedSlices p)).1 p
  generalize (s.packSlices x (placedSlices p)).2.partPacked m (s.packSlices x (placedSlices p)).1 p = t at hpart
  have hx : kfind m t.serve.models = some { x with work := w, packed := true } := by
    rw [hpart.models, hmodel]
    exact State.putModel_model ..
  rw [← show t.epoch = s.epoch from hpart.epoch.trans hwork.epoch,
    ← show t.odGet Od.planEpoch = s.odGet Od.planEpoch from (hpart.entries.same _ (by decide)).trans (hwork.entries.same _ (by decide))]
  have hin : t.sharesIn { x with work := w, packed := true } = true := by simp [State.sharesIn, hsh]
  rcases lt_or_ge (x.part + 1) x.parts with hlt | hge
  · rw [State.loadProgress_of_earlier_part hx hst rfl hin hlt]
    exact ⟨_, State.putModel_model .., fun e => absurd e (by omega), fun _ => ⟨rfl, rfl, rfl⟩⟩
  · rw [State.loadProgress_of_complete hx hst rfl hin hp hge (by simp [hsh])]
    obtain ⟨y, hy, hplaced⟩ := t.modelLoaded_places m { x with work := w, packed := true } p
    exact ⟨y, hy, fun _ => hplaced, fun e => absurd e (by omega)⟩

end Sys2Proof.Machine
end

section
/-!
SUPPORT. Re-placement (R394 to R396): what moves when a job is placed anew, and what a plan leaves for the release of the job's step.
-/

namespace Sys2Proof.Machine

theorem exec_replacement (job : Nat) (r : RePlan) (s : State) : exec (.replacement job r) s = execReplacement job r s := by rfl

/-! ### Jobs -/

@[simp] theorem State.jobOf_job (s : State) (job : Nat) : (s.jobOf job).job = job := by
  unfold State.jobOf
  cases h : s.serve.jobs.find? (fun j => j.job == job) with
  | none => rfl
  | some j => simpa using List.find?_some h

@[simp] theorem State.jobOf_setJob_self (s : State) (j : JobSt) : (s.setJob j).jobOf j.job = j := by
  have hnone : (s.serve.jobs.filter (fun x => x.job != j.job)).find? (fun x => x.job == j.job) = none := by simp
  simp [State.jobOf, State.setJob, hnone]

theorem State.jobOf_eq {s t : State} (h : t.serve = s.serve) (job : Nat) : t.jobOf job = s.jobOf job := by
  unfold State.jobOf
  rw [h]

/-! ### What a re-placement moves (R395, stages 2 and 3) -/

/-- An update of other parts of the state. -/
theorem PlanFrame.of_eq {s t : State} (hod : t.od.vals = s.od.vals) (hmode : t.mode = s.mode) : PlanFrame s t := ⟨.of_od hod, hmode⟩

theorem PlanFrame.after {s t u : State} (h : PlanFrame t u) (hod : t.od.vals = s.od.vals) (hmode : t.mode = s.mode) : PlanFrame s u :=
  (PlanFrame.of_eq hod hmode).step h

theorem State.setHandle_plan (s : State) (l h e : Nat) : PlanFrame s (s.setHandle l h e) := .of_eq rfl rfl

theorem State.count_plan (s : State) {k : Nat} (hk : k ∉ placementEntries) (n : Nat) : PlanFrame s (s.count k n) :=
  (s.count_work hk n).toPlanFrame

theorem State.updateSpan_plan (s : State) : PlanFrame s s.updateSpan := ⟨s.odPut_keepsEntries (by decide) _, rfl⟩

theorem State.unloadProg_plan (s : State) (fk slot : Nat) : PlanFrame s (s.unloadProg fk slot) := by
  unfold State.unloadProg
  split
  · exact .refl s
  · rename_i p _
    have hfree := PlanFrame.foldl (f := fun s (e : HandleE) => s.setHandle (tableLanding fk e.table) e.handle 0)
      (fun t e => t.setHandle_plan _ _ _) p.img.handles s
    exact hfree.step ((State.updateSpan_plan _).after rfl rfl)

theorem State.moveRegion_plan (s : State) (a b n : Nat) : PlanFrame s (s.moveRegion a b n) := by
  unfold State.moveRegion
  split
  · exact .refl s
  · extract_lets d bad u v
    have hu : PlanFrame s u := (s.devWrite_work b d false).toPlanFrame
    have hv : PlanFrame u v := by
      refine PlanFrame.foldl (fun t w => ?_) _ u
      exact .ite (.of_eq rfl rfl) (.refl t)
    exact (hu.step hv).step (State.counts_work _ (by simp [placementEntries])).toPlanFrame

theorem State.moveSlice_plan (s : State) (m k : Nat) (sl new : Slice) : PlanFrame s (s.moveSlice m k sl new) := by
  have hremap (t : State) (a b n : Nat) : PlanFrame t (t.remap m a b n) := by
    unfold State.remap
    exact .of_eq rfl rfl
  unfold State.moveSlice
  split
  · exact .refl s
  · split
    · exact .refl s
    · refine .ite (.refl s) ?_
      extract_lets n z u v w
      have hu : PlanFrame s u := ((s.moveRegion_plan sl.dataAddr new.dataAddr n).step (State.moveRegion_plan _ sl.idxAddr new.idxAddr z)).step
        (State.moveRegion_plan _ sl.chkAddr new.chkAddr z)
      have hv : PlanFrame u v := .ite (.refl u) (u.moveRegion_plan _ _ _)
      have hw : PlanFrame v w := ((hremap v _ _ n).step (hremap _ _ _ z)).step (hremap _ _ _ z)
      have hsw : PlanFrame s w := (hu.step hv).step hw
      clear_value w
      exact hsw.step (.of_eq rfl rfl)

theorem State.moveSlices_plan (s : State) (m : Nat) (l : List Slice) : PlanFrame s (s.moveSlices m l) := by
  refine PlanFrame.foldl (fun t new => ?_) l s
  simp only
  split
  · exact t.moveSlice_plan ..
  · exact .refl t

theorem State.swapMap_plan (s : State) (fk layer a b : Nat) (p : Prog) : PlanFrame s (s.swapMap fk layer a b p) := by
  refine PlanFrame.foldl (fun t w => ?_) _ s
  simp only
  split
  · exact .refl t
  · split
    · exact .refl t
    · split
      · exact .refl t
      · exact .of_eq rfl rfl

theorem State.swapExperts_plan (s : State) (m layer a b : Nat) : PlanFrame s (s.swapExperts m layer a b) := by
  unfold State.swapExperts
  split
  · exact .refl s
  · exact PlanFrame.after (.foldl (fun t (e : Nat × Prog) => t.swapMap_plan e.1 layer a b e.2) _ _) rfl rfl

theorem State.resizePool_plan (s : State) (m h j n : Nat) : PlanFrame s (s.resizePool m h j n) := by
  unfold State.resizePool
  split
  · exact .refl s
  · exact .ite (.refl s) (.of_eq rfl rfl)

theorem State.moveCopies_plan (s : State) (m k j : Nat) (write : Bool) : PlanFrame s (s.moveCopies m k j write) := by
  unfold State.moveCopies
  split
  · exact .refl s
  · refine .ite (.refl s) ?_
    extract_lets p' _ u
    have hu : PlanFrame s u := .of_eq rfl rfl
    exact .ite (hu.step (.foldl (fun t (e : LandCopy × Slice) => (t.landCopy_work e.1 e.2).toPlanFrame) _ u)) hu

theorem State.seedGens_plan (s : State) (hall : Nat) (i : Image) : PlanFrame s (s.seedGens hall i) := by
  refine PlanFrame.foldl (fun t g => ?_) _ s
  simp only
  split
  · exact .refl t
  · exact .ite (.of_eq rfl rfl) (.of_eq rfl rfl)

theorem State.install_plan (s : State) (fk addr : Nat) (i : Image) : PlanFrame s (s.install fk addr i) := by
  unfold State.install
  extract_lets u v x p w j y
  have hu : PlanFrame s u := s.seedGens_plan _ i
  have hv : PlanFrame u v := .foldl (fun t (h : HandleE) => t.setHandle_plan (tableLanding fk h.table) h.handle h.entry) _ u
  have hy : PlanFrame v y := .of_eq rfl rfl
  have hload := (y.count_plan (k := Od.loads) (by decide) 1).step (State.updateSpan_plan _)
  exact (((hu.step hv).step hy).step hload).step (.of_eq rfl rfl)

/-- R395: what a job's programs and their model's items move through leaves the placement's entries and the module's state. -/
theorem State.replaceJob_eq (s : State) (job : Nat) (r : Replace) : ∃ (t : State) (m : Nat) (j : JobSt),
    s.replaceJob job r = ((((t.setJob j).newEpoch m).count Od.replacements 1).logEv { code := 0x4310, job := job, model := m }).closeSettled ∧
      PlanFrame s t ∧ j.job = job ∧ j.replacing = none := by
  unfold State.replaceJob
  extract_lets j ps m u v w x y
  have hu : PlanFrame s u := .foldl (fun t (e : Nat × Prog) => t.unloadProg_plan e.1 e.2.slot) ps s
  have hw : PlanFrame v w := .foldl (fun t (e : Nat × Nat × Nat) => t.swapExperts_plan m e.1 e.2.1 e.2.2) r.swaps v
  have hx : PlanFrame w x := .foldl (fun t (e : Nat × Nat × Nat) => t.resizePool_plan m e.1 e.2.1 e.2.2) r.pools w
  have hy : PlanFrame x y := .foldl (fun t (e : Nat × Prog) => (t.moveCopies_plan m e.1 _ true).step (State.install_plan _ _ _ _)) ps x
  exact ⟨y, m, _, rfl, (((hu.step (u.moveSlices_plan m r.slices)).step hw).step hx).step hy, State.jobOf_job y job, rfl⟩

/-- R395: a re-placement that takes effect ends under the next epoch, with nothing left to wait for. -/
theorem State.replaceJob_places (s : State) (job : Nat) (r : Replace) :
    ((s.replaceJob job r).jobOf job).replacing = none ∧
      (s.replaceJob job r).odGet Od.planEpoch = (s.odGet Od.planEpoch + 1) % odModulus Od.planEpoch ∧ (s.replaceJob job r).mode = s.mode := by
  obtain ⟨t, m, j, heq, hplan, rfl, hnone⟩ := s.replaceJob_eq job r
  have hlog := (((t.setJob j).newEpoch m).count_work (k := Od.replacements) (by decide) 1).step
    (State.logEv_work _ { code := 0x4310, job := j.job, model := m } 0)
  have hserve := ((((t.setJob j).newEpoch m).count_frame Od.replacements 1).step
    (State.logEv_frame _ { code := 0x4310, job := j.job, model := m } 0)).serve
  rw [heq]
  refine ⟨?_, ?_, ?_⟩
  · rw [State.closeSettled_jobOf, State.jobOf_eq (s := (t.setJob j).newEpoch m) hserve, State.newEpoch_jobOf, State.jobOf_setJob_self, hnone]
  · rw [State.closeSettled_odGet, hlog.entries.same Od.planEpoch (by decide), State.newEpoch_planEpoch, State.setJob_odGet,
      hplan.entries.same Od.planEpoch (by decide)]
  · rw [State.closeSettled_mode, hlog.mode, State.newEpoch_mode, State.setJob_mode, hplan.mode]

/-! ### A re-placement that is planned (R395, R396) -/

/-- R395: during an open step the plan waits with its job. -/
theorem State.planReplace_of_open {s : State} {job : Nat} (h : (s.openStepOf job).isSome = true) (r : Replace) :
    s.planReplace job r = s.setJob { s.jobOf job with replacing := some r } := by
  unfold State.planReplace
  rw [if_pos h]

theorem State.planReplace_waits {s : State} {job : Nat} (h : (s.openStepOf job).isSome = true) (r : Replace) :
    ((s.planReplace job r).jobOf job).replacing = some r ∧
      s.planReplace job r = { s with serve := { s.serve with jobs := (s.planReplace job r).serve.jobs } } := by
  have hj : ({ s.jobOf job with replacing := some r } : JobSt).job = job := s.jobOf_job job
  rw [State.planReplace_of_open h]
  refine ⟨?_, rfl⟩
  have hread := s.jobOf_setJob_self { s.jobOf job with replacing := some r }
  rw [hj] at hread
  rw [hread]

theorem State.planReplace_of_none {s : State} {job : Nat} (h : s.openStepOf job = none) (r : Replace) :
    s.planReplace job r = s.replaceJob job r := by
  unfold State.planReplace
  rw [if_neg (by simp [h])]

theorem execReplacement_of_no_job {s : State} {job : Nat} (h : ∀ j ∈ s.serve.jobs, j.job ≠ job) (r : RePlan) :
    execReplacement job r s = .next s := by
  unfold execReplacement
  rw [if_neg (by simpa using h)]

theorem execReplacement_of_job {s : State} {j : JobSt} (h : j ∈ s.serve.jobs) (r : RePlan) :
    execReplacement j.job r s = .next (s.planReplace j.job ⟨r.slices, [], r.pools⟩) := by
  unfold execReplacement
  rw [if_pos (List.any_eq_true.2 ⟨j, h, by simp⟩)]

theorem execRebalancePeriod_idle {m : Nat} {s : State}
    (h : (∀ x, kfind m s.serve.models = some x → x.state ≠ 3 ∨ bit x.flags 2 = false) ∨ s.trayWorker = true ∨ s.mode ≠ .run)
    (l : List (Nat × Nat × Nat × Nat)) : execRebalancePeriod m l s = .next s := by
  unfold execRebalancePeriod
  split
  · rfl
  · rename_i x hx
    rw [if_pos]
    rcases h with h | h | h
    · rcases h x hx with h | h
      · exact .inl h
      · exact .inr (.inl (by simp [h]))
    · exact .inr (.inr (.inl h))
    · exact .inr (.inr (.inr h))

/-- R396: the loads of one layer plan the exchange of its pair for the model's one job. -/
theorem execRebalancePeriod_of_pair {m y j a b : Nat} {s : State} {x : ModelSt} {l : List (Nat × Nat × Nat)}
    (hx : kfind m s.serve.models = some x) (hst : x.state = 3) (hfl : bit x.flags 2 = true) (hw : s.trayWorker = false) (hm : s.mode = .run)
    (hl : l ≠ []) (hj : s.modelJobList m = [j]) (hp : rebalancePair (s.odGet Od.rebalanceRatio) s.memberCount l = some (a, b)) :
    execRebalancePeriod m (l.map (fun e => (y, e))) s = .next (s.planReplace j ⟨[], [(y, a, b)], []⟩) := by
  have hlayers : ((l.map (fun e => (y, e))).map (·.1)).dedup = [y] := by
    have hmap : (l.map (fun e => (y, e))).map (·.1) = List.replicate l.length y := by simp [Function.comp_def]
    rw [hmap, List.replicate_dedup (by simpa using hl)]
  have hloads : ((l.map (fun e => (y, e))).filter (fun e => e.1 == y)).map (·.2) = l := by
    rw [List.filter_eq_self.2 (fun e he => by obtain ⟨_, _, rfl⟩ := List.mem_map.1 he; simp)]
    simp [Function.comp_def]
  unfold execRebalancePeriod
  rw [hx]
  simp only
  rw [if_neg (by simp [hst, hfl, hw, hm])]
  simp only [hlayers, List.filterMap_cons, List.filterMap_nil, hloads, hp, Option.map_some, hj, List.foldl_cons, List.foldl_nil]
  rw [if_neg (by simp)]

end Sys2Proof.Machine
end

section
/-!
SUPPORT. Repair of a program image (R247, R527) and loss of a corridor (R9, R521): the bytes and the poison that a whole write leaves, and the
corridors that stand after a Fault and after Safe Stop.
-/

namespace Sys2Proof.Machine

/-! ### Whole words written (R261) -/

theorem mem_wordsOf {a n w : Nat} (h : w ∈ wordsOf a n) : a / 8 ≤ w ∧ w ≤ (a + n - 1) / 8 := by
  unfold wordsOf at h
  split at h
  · simp at h
  · simp only [List.mem_map, List.mem_range] at h
    obtain ⟨i, hi, rfl⟩ := h
    omega

theorem kget_foldl_clear (ws : List Nat) (w : Nat) (p : KMap Bool) :
    kget false w (ws.foldl (fun p w => kset false w false p) p) = if w ∈ ws then false else kget false w p := by
  induction ws generalizing p with
  | nil => simp
  | cons v ws ih =>
    rw [List.foldl_cons, ih, kget_kset]
    by_cases hv : w = v <;> simp [hv]

/-- R261: a clean write of whole words clears their POISON bits and no other. -/
theorem putPoison_of_whole {a n : Nat} (ha : a % 8 = 0) (hn : n % 8 = 0) (p : KMap Bool) (w : Nat) :
    kget false w (putPoison p a n false) = if w ∈ wordsOf a n then false else kget false w p := by
  have hwhole : ∀ v ∈ wordsOf a n, ∀ q : KMap Bool,
      (if false = true then kset false v true q else if a ≤ 8 * v ∧ 8 * v + 8 ≤ a + n then kset false v false q else q) = kset false v false q := by
    intro v hv q
    have hpos : n ≠ 0 := fun h => by simp [wordsOf, h] at hv
    obtain ⟨hlo, hhi⟩ := mem_wordsOf hv
    rw [if_neg (by simp), if_pos (by omega)]
  unfold putPoison
  rw [List.foldl_ext _ (fun p w => kset false w false p) p (fun q v hv => hwhole v hv q), kget_foldl_clear]

/-- R270: a write of bytes to a present range reaches the controller. -/
theorem State.memWrite_of_present {s : State} {a : Nat} {d : Bytes} (hd : d ≠ []) (ha : s.withdrawn a = false) (p : Bool) :
    s.memWrite a d p = { s with mem := s.mem.write a d p } := by
  unfold State.memWrite
  rw [if_neg hd, if_neg (by simp [ha])]

/-- R261: whole words written clean to a present range carry no poison, and every other word keeps its own. -/
theorem State.memWrite_poison_of_whole {s : State} {a : Nat} {d : Bytes} (hd : d ≠ []) (hin : s.withdrawn a = false) (ha : a % 8 = 0)
    (hn : d.length % 8 = 0) (w : Nat) :
    kget false w (s.memWrite a d false).mem.poison = if w ∈ wordsOf a d.length then false else kget false w s.mem.poison := by
  rw [State.memWrite_of_present hd hin]
  exact putPoison_of_whole ha hn _ w

theorem State.memByte_eq {s t : State} (h : t.mem = s.mem) (a : Nat) : t.memByte a = s.memByte a := congrArg (MemSt.byte · a) h

/-- R221: an image takes whole lines of 16 bytes, its header among them. -/
theorem State.imageLength_bounds (s : State) (a : Nat) : 192 ≤ s.imageLength a ∧ s.imageLength a % 8 = 0 := by
  unfold State.imageLength cdiv
  simp only
  omega

theorem execProgramImageRepaired_of_none {e : ImageRepair} {s : State}
    (h : s.newel.episodes.find? (fun x => x.num == e.episode && x.subj.kind == 9) = none) : execProgramImageRepaired e s = .next s := by
  unfold execProgramImageRepaired
  rw [h]

/-- R247: the image is written; what follows concerns its episode only. -/
theorem execProgramImageRepaired_of_episode {e : ImageRepair} {s : State} {x : Episode}
    (h : s.newel.episodes.find? (fun x => x.num == e.episode && x.subj.kind == 9) = some x) :
    ∃ t, execProgramImageRepaired e s = .next t ∧ t.mem = (s.memWrite x.subj.key (e.image.take (s.imageLength x.subj.key)) false).mem := by
  unfold execProgramImageRepaired
  rw [h]
  simp only
  generalize s.memWrite x.subj.key (e.image.take (s.imageLength x.subj.key)) false = u
  split
  · exact ⟨u, rfl, rfl⟩
  · exact ⟨_, rfl, rfl⟩

/-! ### Corridors (R9) -/

theorem bit_eq_testBit (v i : Nat) : bit v i = v.testBit i := by
  rw [Nat.testBit_eq_decide_div_mod_eq]
  rfl

/-- A bit that is set, cleared: it falls, and the others stay. -/
theorem bit_setBit_false {v k : Nat} (h : bit v k = true) (j : Nat) : bit (setBit v k false) j = if j = k then false else bit v j := by
  have hodd : v / 2 ^ k % 2 = 1 := by simpa [bit] using h
  have hlt : v % 2 ^ k < 2 ^ k := Nat.mod_lt _ (by positivity)
  have hv : v = 2 ^ k * (v / 2 ^ k) + v % 2 ^ k := (Nat.div_add_mod v (2 ^ k)).symm
  have hclear : setBit v k false = 2 ^ k * (v / 2 ^ k - 1) + v % 2 ^ k := by
    have hpos : 2 ^ k ≤ 2 ^ k * (v / 2 ^ k) := Nat.le_mul_of_pos_right _ (Nat.pos_of_ne_zero (fun h0 => by simp [h0] at hodd))
    rw [setBit, if_pos h, Nat.mul_sub_one]
    rw [← Nat.sub_add_comm hpos, Nat.div_add_mod]
    rfl
  rw [bit_eq_testBit, bit_eq_testBit, hclear, Nat.testBit_two_pow_mul_add _ hlt]
  conv_rhs => rw [hv, Nat.testBit_two_pow_mul_add _ hlt]
  rcases lt_trichotomy j k with hj | rfl | hj
  · simp [hj, hj.ne]
  · rw [if_neg (lt_irrefl j), if_pos rfl, Nat.sub_self, Nat.testBit_zero, decide_eq_false_iff_not]
    omega
  · obtain ⟨i, hi⟩ : ∃ i, j - k = i + 1 := ⟨j - k - 1, by omega⟩
    rw [if_neg (by omega), if_neg (by omega), if_neg (by omega), hi, Nat.testBit_succ, Nat.testBit_succ]
    generalize v / 2 ^ k = q at hodd
    congr 1
    omega

theorem KeepsEntries.after {s t u : State} (h : KeepsEntries t u) (hod : t.od.vals = s.od.vals) : KeepsEntries s u :=
  (KeepsEntries.of_od hod).step h

theorem State.abandonDescs_keepsEntries (s : State) (p : Desc → Bool) : KeepsEntries s (s.abandonDescs p) :=
  (State.count_keepsEntries _ (k := Od.moverAbandoned) (by decide) _).after rfl

theorem State.abandonParks_keepsEntries (s : State) : KeepsEntries s s.abandonParks :=
  (State.count_keepsEntries _ (k := Od.moverAbandoned) (by decide) _).after rfl

theorem State.allAbandoned_keepsEntries (s : State) : KeepsEntries s s.allAbandoned := by
  unfold State.allAbandoned
  extract_lets u
  have hu : KeepsEntries s u := (s.abandonDescs_keepsEntries (fun _ => true)).step (State.abandonParks_keepsEntries _)
  clear_value u
  exact hu.step (.of_od rfl)

theorem State.respond_keepsEntries (s : State) (o : Origin) (op k status seq : Nat) (b : Bytes) : KeepsEntries s (s.respond o op k status seq b) := by
  cases o with
  | mailbox => exact .of_od (by simp [State.respond, State.mbDone])
  | eop addr udp opcode n path =>
    have hemit : KeepsEntries s (s.emit (.od (.eop addr udp opcode n path) status seq b)) := .of_od rfl
    exact hemit.step (State.balSend_work _ 0x82 _).entries
  | arcade src tag opcode => exact (State.sendFrame_work _ _).entries
  | via _ => exact .of_od rfl

theorem State.endStateWait_keepsEntries (s : State) : KeepsEntries s s.endStateWait := by
  unfold State.endStateWait
  split
  · exact .refl s
  · exact (State.respond_keepsEntries _ _ _ _ _ _ _).after rfl

theorem State.setMode_keepsEntries (s : State) (m : ModState) : KeepsEntries s (s.setMode m) := by
  unfold State.setMode
  extract_lets u
  have hu : KeepsEntries s u := (State.odPut_keepsEntries _ (k := Od.stateSince) (by decide) _).after rfl
  split
  · split
    · exact hu.step u.endStateWait_keepsEntries
    · exact hu
  · exact hu

/-- R530: the entry into Safe Stop for a cause that leaves the port its power writes none of the placement's entries. -/
theorem State.enterSafeStop_keepsEntries (s : State) {cause : Nat} (hc : darkCause cause = false) : KeepsEntries s (s.enterSafeStop cause) := by
  unfold State.enterSafeStop
  split
  · exact .refl s
  · extract_lets logged caused ended _ tested idle _ _ cut _ viral
    have hcaused : KeepsEntries s caused := (s.logEv_keepsEntries _ 0).step (State.odPut_keepsEntries _ (by decide) cause)
    have hended : KeepsEntries caused ended := by
      unfold ended
      split
      · split
        · exact State.odPut_keepsEntries _ (by decide) 5
        · split
          · exact State.odPut_keepsEntries _ (by decide) 5
          · exact State.odPut_keepsEntries _ (by decide) 5
      · exact .refl caused
    have htested : KeepsEntries caused tested := by
      unfold tested
      split
      · exact hended.step (.of_od rfl)
      · exact .refl caused
    clear_value tested
    have hcut : KeepsEntries tested cut := tested.allAbandoned_keepsEntries.step (.of_od rfl)
    have hviral : KeepsEntries cut viral := by
      unfold viral
      split
      · exact .of_od rfl
      · exact .refl cut
    rw [if_neg (by simp [hc])]
    exact (((hcaused.step htested).step hcut).step hviral).step ((State.setMode_keepsEntries viral.tick .safeStop).after rfl)

/-- R521: a Fault that joins an episode, opens one, or is the fifth. -/
theorem State.takeFault_keepsEntries (s : State) (ev : LogEv) (x : Subject) (model time : Nat) (hc : darkCause ev.code = false) :
    KeepsEntries s (s.takeFault ev x model time) := by
  unfold State.takeFault
  split
  · unfold State.joinEpisode
    extract_lets logged up f joined
    have hjoined : KeepsEntries s joined := (s.record_keepsEntries _ _ _ _ _ _).step (.of_od rfl)
    split
    · exact hjoined.step (joined.enterSafeStop_keepsEntries hc)
    · exact hjoined
  · split
    · exact ((s.record_keepsEntries _ _ _ _ _ _).step (State.record_keepsEntries _ _ _ _ _ _ _)).step (State.enterSafeStop_keepsEntries _ (by decide))
    · extract_lets n logged e _ opened
      have hopened : KeepsEntries s opened := (s.record_keepsEntries ev 0 1 time n 1).step (.of_od rfl)
      exact hopened.step (opened.count_keepsEntries (by decide) 1)

theorem State.raiseFault_keepsEntries (s : State) (ev : LogEv) (x : Subject) (model : Nat) (hc : darkCause ev.code = false) :
    KeepsEntries s (s.raiseFault ev x model) := by
  unfold State.raiseFault
  split
  · split
    · exact .of_od rfl
    · exact s.count_keepsEntries (by decide) 1
  · exact s.takeFault_keepsEntries ev x model _ hc

theorem execCorridorDown_idle {k : Nat} {s : State} (hk : k < 4)
    (h : s.mode = .off ∨ s.testing 2 k = true ∨ bit (s.odGet Od.corridorsUp) k = false) : execCorridorDown k s = .next s := by
  unfold execCorridorDown
  rw [if_neg (by omega), if_pos (by simpa using h)]

/-- R9, R521: a corridor that stood falls, and its Fault, whatever it leads to, leaves the others as they are. -/
theorem execCorridorDown_of_up {k : Nat} {s : State} (hk : k < 4) (hm : s.mode ≠ .off) (ht : s.testing 2 k = false)
    (hup : bit (s.odGet Od.corridorsUp) k = true) :
    ∃ t, execCorridorDown k s = .next t ∧ t.odGet Od.corridorsUp = setBit (s.odGet Od.corridorsUp) k false := by
  unfold execCorridorDown
  rw [if_neg (by omega), if_neg (by simp [hm, ht, hup])]
  extract_lets u
  refine ⟨_, rfl, ?_⟩
  unfold State.fault
  rw [if_neg (by simp)]
  rw [(State.raiseFault_keepsEntries u _ _ 0 rfl).same Od.corridorsUp (by decide)]
  exact State.odGet_odPut_self ..

end Sys2Proof.Machine
end

section
/-!
SUPPORT. The statement on loads, re-placement and repaired images, clause by clause.
-/

namespace Sys2Proof.Machine

/-- R388, R390: a pass that fails, in a member, in what it reads or for want of memory, ends the load with the code. -/
theorem packingDone_refuses {m : Nat} {nr : Bool} {ms : List (Nat × Nat)} {s : State} {x : ModelSt} {p : Package} {code : Nat}
    (hx : kfind m s.serve.models = some x) (hst : x.state = 2) (hp : x.pkg = some p)
    (hcode : (∃ e, ms.find? (fun e => e.2 ≠ 0) = some e ∧ code = e.2) ∨ (∀ e ∈ ms, e.2 = 0) ∧ x.packed = false ∧
      (s.packRefusal x p ≠ 0 ∧ code = s.packRefusal x p ∨ s.packRefusal x p = 0 ∧ nr = true ∧ code = 0x4301)) :
    ∃ t : State, exec (.packingDone m ⟨nr, ms⟩) s = .next t ∧ t.mem = s.mem ∧ t.xlate = s.xlate ∧
      kfind m t.serve.models = some (x.refused code) ∧
      t.odGet Od.modelsRefused = (s.odGet Od.modelsRefused + 1) % odModulus Od.modelsRefused := by
  rw [exec_packingDone]
  rcases hcode with ⟨e, he, rfl⟩ | ⟨hms, hpk, hcode⟩
  · exact ⟨_, execPackingDone_of_member_code hx hst hp he nr, State.refuseAll_leaves hx e.2 x⟩
  · have hleaves := State.refuseAll_leaves (s.putModel_model m (x.noteDone ms)) code (x.noteDone ms)
    rw [execPackingDone_of_unpacked hx hst hp hms hpk]
    rcases hcode with ⟨hne, rfl⟩ | ⟨hzero, rfl, rfl⟩
    · exact ⟨_, by rw [if_pos hne], hleaves⟩
    · exact ⟨_, by rw [if_neg (not_not.2 hzero), if_pos rfl], hleaves⟩

/-- R388, R389: a part packed within its areas, in a module without a tray. -/
theorem packingDone_packs {m : Nat} {ms : List (Nat × Nat)} {s : State} {x : ModelSt} {p : Package}
    (hx : kfind m s.serve.models = some x) (hst : x.state = 2) (hp : x.pkg = some p) (hms : ∀ e ∈ ms, e.2 = 0) (hpk : x.packed = false)
    (hsh : x.shares = []) (hzero : s.packRefusal x p = 0) (hd : s.depth ≤ 2)
    (hlen : ((s.putModel m (x.noteDone ms)).packSlices (x.noteDone ms) (placedSlices p)).1.tooLong = false) :
    ∃ (t : State) (y : ModelSt), exec (.packingDone m ⟨false, ms⟩) s = .next t ∧ kfind m t.serve.models = some y ∧
      (x.part + 1 = x.parts → y.state = 3 ∧ y.code = 0 ∧ y.time = s.epoch ∧ t.odGet Od.planEpoch = (s.odGet Od.planEpoch + 1) % odModulus Od.planEpoch ∧
        y.epoch = t.odGet Od.planEpoch) ∧
      (x.part + 1 < x.parts → y.state = 4 ∧ y.since = s.epoch ∧ t.odGet Od.planEpoch = s.odGet Od.planEpoch) := by
  rw [exec_packingDone, execPackingDone_of_unpacked hx hst hp hms hpk, if_neg (not_not.2 hzero), if_neg Bool.false_ne_true]
  obtain ⟨y, hy, hplaced⟩ := State.packPart_outcome (s := s.putModel m (x.noteDone ms)) (x := x.noteDone ms) m hd hst hp hsh hlen
  exact ⟨_, y, rfl, hy, hplaced⟩

/-- R389: a part that does not come ends the load. -/
theorem partTimeout_refuses {m : Nat} {s : State} {x : ModelSt} (hx : kfind m s.serve.models = some x) (hst : x.state = 4) :
    ∃ t : State, exec (.partTimeout m) s = .next t ∧ kfind m t.serve.models = some (x.refused 0x4304) ∧
      t.odGet Od.modelsRefused = (s.odGet Od.modelsRefused + 1) % odModulus Od.modelsRefused ∧ t.mem = s.mem := by
  obtain ⟨hmem, _, hmodel, hcount⟩ := State.refuseAll_leaves hx 0x4304 x
  exact ⟨_, by rw [exec_partTimeout, execPartTimeout_of_found hx, if_pos hst], hmodel, hcount, hmem⟩

/-- R395: the job's open step decides whether a re-placement waits. -/
theorem replacement_of_job {s : State} {j : JobSt} (hj : j ∈ s.serve.jobs) (sl : List Slice) (pools : List (Nat × Nat × Nat)) :
    ((s.openStepOf j.job).isSome = true → ∃ t : State, exec (.replacement j.job ⟨sl, pools⟩) s = .next t ∧
      (t.jobOf j.job).replacing = some ⟨sl, [], pools⟩ ∧ t = { s with serve := { s.serve with jobs := t.serve.jobs } }) ∧
    (s.openStepOf j.job = none → ∃ t : State, exec (.replacement j.job ⟨sl, pools⟩) s = .next t ∧ (t.jobOf j.job).replacing = none ∧
      t.odGet Od.planEpoch = (s.odGet Od.planEpoch + 1) % odModulus Od.planEpoch ∧ t.mode = s.mode) := by
  rw [exec_replacement, execReplacement_of_job hj]
  exact ⟨fun h => ⟨_, rfl, State.planReplace_waits h _⟩,
    fun h => ⟨_, by rw [State.planReplace_of_none h], s.replaceJob_places j.job _⟩⟩

/-- R247, R527: an image that its episode names holds the package's bytes, unpoisoned. -/
theorem programImageRepaired_restores {n : Nat} {image : Bytes} {s : State} {e : Episode}
    (he : s.newel.episodes.find? (fun e => e.num == n && e.subj.kind == 9) = some e) (ha : e.subj.key % 8 = 0)
    (hlen : s.imageLength e.subj.key ≤ image.length) (hin : s.withdrawn e.subj.key = false) :
    ∃ t : State, exec (.programImageRepaired ⟨n, image⟩) s = .next t ∧
      (∀ a, t.memByte a = if e.subj.key ≤ a ∧ a < e.subj.key + s.imageLength e.subj.key then image.getD (a - e.subj.key) 0#8 else s.memByte a) ∧
      (∀ w ∈ wordsOf e.subj.key (s.imageLength e.subj.key), kget false w t.mem.poison = false) ∧
      (∀ w, w ∉ wordsOf e.subj.key (s.imageLength e.subj.key) → kget false w t.mem.poison = kget false w s.mem.poison) := by
  obtain ⟨hpos, hwords⟩ := s.imageLength_bounds e.subj.key
  obtain ⟨t, ht, hmem⟩ := execProgramImageRepaired_of_episode (e := ⟨n, image⟩) he
  have hn : (image.take (s.imageLength e.subj.key)).length = s.imageLength e.subj.key := by simpa using hlen
  have hne : image.take (s.imageLength e.subj.key) ≠ [] := List.ne_nil_of_length_pos (by omega)
  have hpoison := State.memWrite_poison_of_whole hne hin ha (by rw [hn]; exact hwords)
  rw [hn] at hpoison
  refine ⟨t, ht, fun a => ?_, fun w hw => ?_, fun w hw => ?_⟩
  · rw [State.memByte_eq hmem, State.memByte_memWrite _ _ _ _ _ hin, hn]
    split
    · rename_i h
      rw [List.getD_eq_getElem?_getD, List.getElem?_take_of_lt (by omega), ← List.getD_eq_getElem?_getD]
    · rfl
  · rw [hmem, hpoison, if_pos hw]
  · rw [hmem, hpoison, if_neg hw]

/-- R9: a corridor that stood is lost, and the others are not. -/
theorem corridorDown_falls {k : Nat} {s : State} (hk : k < 4) (hm : s.mode ≠ .off) (ht : s.testing 2 k = false)
    (hup : bit (s.odGet Od.corridorsUp) k = true) :
    ∃ t : State, exec (.corridorDown k) s = .next t ∧ bit (t.odGet Od.corridorsUp) k = false ∧
      (∀ j, j ≠ k → bit (t.odGet Od.corridorsUp) j = bit (s.odGet Od.corridorsUp) j) := by
  obtain ⟨t, ht, hup'⟩ := execCorridorDown_of_up hk hm ht hup
  refine ⟨t, ht, ?_, fun j hj => ?_⟩
  · rw [hup', bit_setBit_false hup, if_pos rfl]
  · rw [hup', bit_setBit_false hup, if_neg hj]

/-- Settles O47: each command's clauses by the lemma on what it does; what finds nothing to do by the lemmas on its idle form. -/
theorem loadsAndReplacement : Obligations.LoadsAndReplacement := by
  refine ⟨?_, ?_, ?_, ?_, ?_, ?_, ?_, ?_, ?_⟩
  · exact fun m nr ms s h => execPackingDone_idle h ⟨nr, ms⟩
  · exact fun m nr ms s x p code hx hst hp hcode => packingDone_refuses hx hst hp hcode
  · exact fun m ms s x p hx hst hp hms hpk hsh hzero hd hlen => packingDone_packs hx hst hp hms hpk hsh hzero hd (hlen _ _ rfl)
  · exact fun m s x hx hst hpk => ⟨fun h => State.loadProgress_of_unconfirmed hx h, fun hin h => State.loadProgress_of_earlier_part hx hst hpk hin h,
      fun hin h hdone => State.loadProgress_of_incomplete hx hst hpk hin h hdone⟩
  · exact fun m s => ⟨execPartTimeout_idle, fun x hx hst => partTimeout_refuses hx hst⟩
  · refine fun job sl pools s => ⟨fun h => execReplacement_of_no_job h _, ?_⟩
    rintro j hj rfl
    exact replacement_of_job hj sl pools
  · refine fun m loads s => ⟨fun h => execRebalancePeriod_idle h loads, ?_⟩
    rintro x y j a b l hx hst hfl hw hm hl rfl hj hopen hp
    exact ⟨_, execRebalancePeriod_of_pair hx hst hfl hw hm hl hj hp, State.planReplace_waits hopen _⟩
  · exact fun n image s => ⟨fun h => execProgramImageRepaired_of_none h,
      fun e he ha hlen hin => programImageRepaired_restores he ha hlen hin⟩
  · exact fun k s hk => ⟨fun h => execCorridorDown_idle hk h, fun hm ht hup => corridorDown_falls hk hm ht hup⟩

end Sys2Proof.Machine
end

section
/-!
SUPPORT. What a record, an answer and a change of the module's state leave as they were: the dictionary but for the entries that they count or
write in, and what they do not touch at all.
-/

namespace Sys2Proof.Machine

/-! ### The dictionary but for some entries -/

/-- The dictionaries of two states agree but for the values of the listed entries. -/
structure OdFrame (l : List Nat) (s t : State) : Prop where
  parts : t.od = { s.od with vals := t.od.vals }
  same : ∀ k ∉ l, t.odGet k = s.odGet k

theorem OdFrame.refl (l : List Nat) (s : State) : OdFrame l s s := ⟨rfl, fun _ _ => rfl⟩

theorem OdFrame.step {l : List Nat} {s t u : State} (h : OdFrame l s t) (h' : OdFrame l t u) : OdFrame l s u :=
  ⟨by rw [h'.parts, h.parts], fun k hk => (h'.same k hk).trans (h.same k hk)⟩

theorem OdFrame.mono {l l' : List Nat} {s t : State} (h : OdFrame l s t) (hl : l ⊆ l') : OdFrame l' s t :=
  ⟨h.parts, fun k hk => h.same k (fun hk' => hk (hl hk'))⟩

/-- An update of other parts of the state. -/
theorem OdFrame.of_od (l : List Nat) {s t : State} (h : t.od = s.od) : OdFrame l s t :=
  ⟨by rw [h], fun k _ => by simp only [State.odGet, h]⟩

theorem State.odPut_odFrame {l : List Nat} (s : State) {k : Nat} (hk : k ∈ l) (v : Nat) : OdFrame l s (s.odPut k v) :=
  ⟨rfl, fun _ hj => s.odGet_odPut_ne (ne_of_mem_of_not_mem hk hj).symm v⟩

theorem State.count_odFrame {l : List Nat} (s : State) {k : Nat} (hk : k ∈ l) (n : Nat) : OdFrame l s (s.count k n) :=
  s.odPut_odFrame hk _

/-! ### Records (R484 to R487) -/

/-- The entries that a record writes, or in which it is counted as lost. -/
def logEntries : List Nat := [Od.lastError, Od.lastErrorTime, Od.recordOverflow]

theorem State.bufferPut_odFrame (s : State) (r : LogRec) : OdFrame logEntries s (s.bufferPut r) := by
  unfold State.bufferPut
  split
  · exact .of_od _ (by simp)
  · exact s.count_odFrame (by decide) 1

theorem State.record_odFrame (s : State) (ev : LogEv) (extra n time e q : Nat) : OdFrame logEntries s (s.record ev extra n time e q) := by
  have ring : ∀ r, OdFrame logEntries s (s.ringPut r) := fun r => .of_od _ (by unfold State.ringPut; rfl)
  unfold State.record
  extract_lets sev r u
  split
  · exact ring r
  · exact (((ring r).step (u.odPut_odFrame (by decide) _)).step (State.odPut_odFrame _ (by decide) _)).step (State.bufferPut_odFrame _ r)

theorem State.logEv_odFrame (s : State) (ev : LogEv) (extra : Nat) : OdFrame logEntries s (s.logEv ev extra) := by
  unfold State.logEv
  split
  · split
    · exact .of_od _ rfl
    · exact s.count_odFrame (by decide) 1
  · exact s.record_odFrame ..

/-! ### Messages and frames that leave -/

/-- R471: only the data channel drops what its queue does not hold; a message of another channel joins its queue and leaves. -/
theorem State.balSend_of_management {typ k : Nat} (hk : balKey typ = some k) (h : k ≠ 0) (s : State) (body : Bytes) :
    s.balSend typ body = ({ s with foyer :=
      if k = 2 then { s.foyer with txSeq := kset 0 k ((kget 0 k s.foyer.txSeq + 1) % 2 ^ 32) s.foyer.txSeq,
                                   mgmtIn := s.foyer.mgmtIn ++ [balMsg typ (kget 0 k s.foyer.txSeq) body] }
      else { s.foyer with txSeq := kset 0 k ((kget 0 k s.foyer.txSeq + 1) % 2 ^ 32) s.foyer.txSeq,
                          toFoyer := s.foyer.toFoyer ++ [balMsg typ (kget 0 k s.foyer.txSeq) body] } } : State).emit
      (.bal (k % 2 == 1) typ (kget 0 k s.foyer.txSeq) body) := by
  unfold State.balSend
  simp only [hk, h, false_and, if_false]

theorem State.balSend_od_of_management {typ k : Nat} (hk : balKey typ = some k) (h : k ≠ 0) (s : State) (body : Bytes) :
    (s.balSend typ body).od = s.od := by
  rw [State.balSend_of_management hk h]
  rfl

/-- The entries in which an answer that cannot leave is counted and logged (R420). -/
def answerEntries : List Nat := Od.unroutableDrops :: logEntries

theorem State.queueFrame_od (s : State) (n : Nat) (f : Frame) : (s.queueFrame n f).od = s.od := by
  unfold State.queueFrame
  split <;> rfl

theorem State.sendFrame_odFrame (s : State) (f : Frame) : OdFrame answerEntries s (s.sendFrame f) := by
  unfold State.sendFrame
  split
  · exact .of_od _ (s.queueFrame_od _ f)
  · exact (s.count_odFrame (by decide) 1).step ((State.logEv_odFrame _ _ 0).mono (List.subset_cons_self ..))

theorem State.respond_odFrame (s : State) (o : Origin) (op k status seq : Nat) (b : Bytes) : OdFrame answerEntries s (s.respond o op k status seq b) := by
  cases o with
  | mailbox => exact .of_od _ (by simp [State.respond, State.mbDone])
  | eop addr udp opcode n path =>
    exact .of_od _ (State.balSend_od_of_management (k := 3) rfl (by decide) (s.emit _) _)
  | arcade src tag opcode => exact s.sendFrame_odFrame _
  | via _ => exact .of_od _ rfl

/-! ### What an answer leaves as it was -/

/-- Two states differ at most in what an answer touches: the messages and frames that leave, the log, and the entries above. -/
structure AnswerFrame (s t : State) : Prop where
  epoch : t.epoch = s.epoch
  mode : t.mode = s.mode
  trans : t.trans = s.trans
  eop : t.eop = s.eop
  halls : t.halls = s.halls
  mem : t.mem = s.mem
  serve : t.serve = s.serve
  power : t.power = s.power
  start : t.start = s.start
  archStates : ∀ n, (t.arch n).state = (s.arch n).state
  entries : ∀ k ∉ answerEntries, t.odGet k = s.odGet k

theorem AnswerFrame.refl (s : State) : AnswerFrame s s := by constructor <;> intros <;> rfl

theorem LogFrame.answer {s t : State} (h : LogFrame s t) (hod : OdFrame answerEntries s t) : AnswerFrame s t :=
  ⟨h.epoch, h.mode, h.trans, h.eop, h.halls, h.mem, h.serve, h.power, h.start, fun n => by rw [State.arch, State.arch, h.arcade], hod.same⟩

theorem State.balSend_answerFrame {typ k : Nat} (hk : balKey typ = some k) (h : k ≠ 0) (s : State) (body : Bytes) :
    AnswerFrame s (s.balSend typ body) := by
  rw [State.balSend_of_management hk h]
  constructor <;> intros <;> rfl

/-- A frame that is queued changes no arch's state. -/
theorem State.queueFrame_answerFrame (s : State) (n : Nat) (f : Frame) : AnswerFrame s (s.queueFrame n f) := by
  unfold State.queueFrame
  split
  · exact .refl s
  · refine ⟨rfl, rfl, rfl, rfl, rfl, rfl, rfl, rfl, rfl, fun j => ?_, fun _ _ => rfl⟩
    simp only [State.arch, State.setArch, State.emit, kget_kset]
    split
    · rename_i h
      rw [h]
    · rfl

theorem State.sendFrame_answerFrame (s : State) (f : Frame) : AnswerFrame s (s.sendFrame f) := by
  have hod := s.sendFrame_odFrame f
  unfold State.sendFrame at hod ⊢
  split at hod
  · exact s.queueFrame_answerFrame _ f
  · exact ((s.count_frame _ _).step (State.logEv_frame _ _ _)).answer hod

theorem State.respond_answerFrame (s : State) (o : Origin) (op k status seq : Nat) (b : Bytes) : AnswerFrame s (s.respond o op k status seq b) := by
  have hod := s.respond_odFrame o op k status seq b
  cases o with
  | mailbox => exact ((s.emit_frame _).step (State.signal_frame _ 0)).answer hod
  | eop addr udp opcode n path =>
    have h := State.balSend_answerFrame (typ := 0x82) (k := 3) rfl (by decide) (s.emit (.od (.eop addr udp opcode n path) status seq b))
    exact ⟨(h _).epoch, (h _).mode, (h _).trans, (h _).eop, (h _).halls, (h _).mem, (h _).serve, (h _).power, (h _).start, (h _).archStates, hod.same⟩
  | arcade src tag opcode => exact s.sendFrame_answerFrame _
  | via _ => exact (s.emit_frame _).answer hod

/-! ### A wait for a state, and a change of state (R53, R62) -/

theorem State.endStateWait_of_none {s : State} (h : s.od.stateWait = none) : s.endStateWait = s := by
  simp [State.endStateWait, h]

theorem State.endStateWait_of_some {s : State} {w : StateWait} (h : s.od.stateWait = some w) :
    s.endStateWait = ({ s with od := { s.od with stateWait := none } } : State).respond w.origin 6 0 0 (s.odGet Od.odWriteSeq) (leBytes 1 s.mode.code) := by
  simp [State.endStateWait, h]

theorem State.endStateWait_answerFrame (s : State) : AnswerFrame s s.endStateWait := by
  cases h : s.od.stateWait with
  | none => rw [State.endStateWait_of_none h]; exact .refl s
  | some w =>
    rw [State.endStateWait_of_some h]
    have hr := ({ s with od := { s.od with stateWait := none } } : State).respond_answerFrame w.origin 6 0 0 (s.odGet Od.odWriteSeq) (leBytes 1 s.mode.code)
    exact ⟨hr.epoch, hr.mode, hr.trans, hr.eop, hr.halls, hr.mem, hr.serve, hr.power, hr.start, hr.archStates, hr.entries⟩

/-- R62: a state with MODULE_STATE changed and STATE_SINCE written. -/
def State.modeSet (s : State) (m : ModState) : State := ({ s with mode := m, trans := none } : State).odPut Od.stateSince s.epoch

/-- R53, R62: beyond that, a change of state answers at most a wait for it. -/
theorem State.setMode_answerFrame (s : State) (m : ModState) : AnswerFrame (s.modeSet m) (s.setMode m) := by
  unfold State.setMode
  extract_lets u
  split
  · split
    · exact u.endStateWait_answerFrame
    · exact .refl u
  · exact .refl u

@[simp] theorem State.setMode_mode (s : State) (m : ModState) : (s.setMode m).mode = m := (s.setMode_answerFrame m).mode
@[simp] theorem State.setMode_trans (s : State) (m : ModState) : (s.setMode m).trans = none := (s.setMode_answerFrame m).trans
@[simp] theorem State.setMode_halls (s : State) (m : ModState) : (s.setMode m).halls = s.halls := (s.setMode_answerFrame m).halls
@[simp] theorem State.setMode_mem (s : State) (m : ModState) : (s.setMode m).mem = s.mem := (s.setMode_answerFrame m).mem
@[simp] theorem State.setMode_serve (s : State) (m : ModState) : (s.setMode m).serve = s.serve := (s.setMode_answerFrame m).serve
@[simp] theorem State.setMode_power (s : State) (m : ModState) : (s.setMode m).power = s.power := (s.setMode_answerFrame m).power
@[simp] theorem State.setMode_start (s : State) (m : ModState) : (s.setMode m).start = s.start := (s.setMode_answerFrame m).start
@[simp] theorem State.setMode_archState (s : State) (m : ModState) (n : Nat) : ((s.setMode m).arch n).state = (s.arch n).state :=
  (s.setMode_answerFrame m).archStates n

theorem State.setMode_odGet (s : State) (m : ModState) {k : Nat} (hk : k ∉ Od.stateSince :: answerEntries) : (s.setMode m).odGet k = s.odGet k := by
  obtain ⟨hs, ha⟩ := not_or.1 (List.mem_cons.not.1 hk)
  rw [(s.setMode_answerFrame m).entries k ha]
  exact State.odGet_odPut_ne _ hs _

end Sys2Proof.Machine
end

section
/-!
SUPPORT. Writes of scalar entries as they reach this module (R36, R571), and the statement on state requests, the parameter store and training requests.
-/

namespace Sys2Proof.Machine

/-! ### A write that reaches its entry -/

theorem State.entryRow_of_sub {s : State} {r : Role} {k : Nat} {row : OdRow} (hk : k % 256 ≠ 0) (h : s.entryRow r k = some row) : odRow k = some row := by
  unfold State.entryRow at h
  rw [if_neg hk] at h
  split at h
  · cases h
  · exact h

/-- R571: checks 1 to 4 passed. -/
theorem State.writeCheck_of_passed {s : State} {r : Role} {k : Nat} {row : OdRow} (hrow : s.entryRow r k = some row) (hw : row.writable = true)
    (hm : s.mayWrite r (k / 256) = true) (hs : s.rwsOk row = true) (f : OdRow → Answer) : s.writeCheck r k f = f row := by
  simp [State.writeCheck, hrow, hw, hm, hs]

/-- R46: an access of this module's own entry is executed here, with the manager's role and limit where its path passed this module's galleries. -/
theorem State.perform_of_here {s : State} {a : Access} {level : Nat} (h : s.target a.path = .here none false level) :
    s.perform a = answerTo { a with level := level } (s.access { a with level := level } none) := by
  simp [State.perform, h]

/-- R52: an answer but that of a write of XLATE_INVALIDATE leaves at once. -/
theorem answerTo_of_prompt {a : Access} {r : Answer} (h : r.2.2.answerLate a r.1 = false) :
    answerTo a r = r.2.2.respond a.origin a.op a.key r.1 (r.2.2.odGet Od.odWriteSeq) r.2.1 := by
  simp [answerTo, h]

theorem State.answerLate_of_key {a : Access} (h : a.key ≠ Od.xlateInvalidate) (s : State) (code : Nat) : s.answerLate a code = false := by
  simp [State.answerLate, h]

/-- R571: a scalar write that passes checks 1 to 4, and 5. -/
theorem State.accessWrite_of_passed {s : State} {a : Access} {row : OdRow} (hrow : s.entryRow (roleOf a.via) a.key = some row) (hw : row.writable = true)
    (hm : s.mayWrite (roleOf a.via) (a.key / 256) = true) (hs : s.rwsOk row = true) (hsize : row.ty.size = some a.body.length) :
    s.accessWrite a = ((s.writeScalar a.via a.port a.key (leNat a.body)).1, [], (s.writeScalar a.via a.port a.key (leNat a.body)).2) := by
  rw [State.accessWrite, State.writeCheck_of_passed hrow hw hm hs]
  simp [hsize]

theorem State.access_of_write {s : State} {a : Access} (hop : a.op = 1) (hr : s.newel.recovery = false) : s.access a none = s.accessWrite a := by
  simp [State.access, hop, hr]

/-- R36, R571: a write that reaches its scalar entry is answered as the entry's own rules say. -/
theorem State.entryAccess_of_scalar {s : State} {w : OdW} {via : Via} {k : Nat} (h : ReachesScalar s w via k) (hk : k % 256 ≠ 0)
    (hx : k ≠ Od.xlateInvalidate) :
    s.entryAccess 1 w 0 k .plain =
      (s.writeScalar via 0 k (leNat w.value)).2.emit (.od (.via w.via) (s.writeScalar via 0 k (leNat w.value)).1
        ((s.writeScalar via 0 k (leNat w.value)).2.odGet Od.odWriteSeq) []) := by
  obtain ⟨⟨hoff, hrestart, hrec, htarget, hmay, row, hrow, hw, hrws⟩, hsize, _⟩ := h
  have hsize' : row.ty.size = some w.value.length := by simpa [State.entryRow_of_sub hk hrow] using hsize
  unfold State.entryAccess
  rw [if_neg (by simp [hoff, hrestart])]
  obtain ⟨level, ⟨ht, rfl⟩ | ⟨ht, rfl, horigin⟩⟩ := htarget
  · rw [State.perform_of_here ht, State.access_of_write rfl hrec, State.accessWrite_of_passed hrow hw hmay hrws hsize',
      answerTo_of_prompt (State.answerLate_of_key hx _ _)]
    rfl
  · have ho : s.originMay ⟨w.via, 0, .via w.via, 1, w.path, k, w.value, .plain, segmentMax w.via, level⟩ = true := horigin
    simp only [State.perform, ht, ho, if_true, Bool.not_true, Bool.false_eq_true, if_false]
    rw [State.access_of_write rfl hrec, State.accessWrite_of_passed hrow hw hmay hrws hsize', answerTo_of_prompt (State.answerLate_of_key hx _ _)]
    rfl

/-- R36: a write whose effect is taken commits: OD_WRITE_SEQ counts it. -/
theorem State.writeScalar_of_taken {s r : State} {via : Via} {port k v : Nat} (hv : s.valueOk k (writtenValue k v) = true)
    (hr : s.applyScalar via port k (writtenValue k v) = (0, r)) (hf : k ∉ foyerEntries) :
    s.writeScalar via port k v = (0, r.count Od.odWriteSeq 1) := by
  simp [State.writeScalar, commitWrite, State.sendConfig, hv, hr, hf]

/-- R571: a write that its entry's own condition refuses. -/
theorem State.writeScalar_of_refused {s r : State} {via : Via} {port k v code : Nat} (hv : s.valueOk k (writtenValue k v) = true)
    (hr : s.applyScalar via port k (writtenValue k v) = (code, r)) (hc : code ≠ 0) : s.writeScalar via port k v = (code, r) := by
  simp [State.writeScalar, commitWrite, hv, hr, hc]

section
variable {s r : State} {w : OdW} {via : Via} {k : Nat} {c : Instr} (h : ReachesScalar s w via k) (hc : exec c s = .next (s.entryAccess 1 w 0 k .plain))
  (hk : k % 256 ≠ 0) (hx : k ≠ Od.xlateInvalidate)
include h hc hk hx

theorem ReachesScalar.commits (hf : k ∉ foyerEntries) (hr : s.applyScalar via 0 k (writtenValue k (leNat w.value)) = (0, r)) : Commits s c w.via r := by
  rw [Commits, hc, State.entryAccess_of_scalar h hk hx, State.writeScalar_of_taken h.2.2 hr hf]

theorem ReachesScalar.denied {code : Nat} (hne : code ≠ 0) (hr : s.applyScalar via 0 k (writtenValue k (leNat w.value)) = (code, s)) :
    Denied s c w.via code := by
  rw [Denied, hc, State.entryAccess_of_scalar h hk hx, State.writeScalar_of_refused h.2.2 hr hne]

end

/-! ### STATE_REQUEST (R63) -/

theorem State.applyScalar_stateRequest (s : State) (via : Via) (port v : Nat) :
    s.applyScalar via port Od.stateRequest (writtenValue Od.stateRequest v) = s.requestState v := rfl

theorem exec_stateRequest (w : OdW) (s : State) : exec (.stateRequest w) s = .next (s.entryAccess 1 w 0 Od.stateRequest .plain) := by rfl

theorem State.fwBusy_iff (s : State) : s.fwBusy = true ↔ s.odGet Od.fwState = 2 ∨ s.odGet Od.fwState = 3 := by simp [State.fwBusy]

theorem State.requestState_of_legal {s : State} {v : Nat} {m : ModState} (hm : legalRequest s.mode v = some m) (ht : s.trans = none)
    (hfw : s.fwBusy = false) (htrip : m = .standby → s.tripHot = false) (hext : m = .run → s.odGet Od.extestSinceStandby = 0) :
    s.requestState v = (0, { s.finishTest 5 with trans := some m }) := by
  have hfw' := (not_congr s.fwBusy_iff).1 (by simp [hfw])
  rw [not_or] at hfw'
  rw [State.requestState, hm]
  exact if_neg (by simpa [ht, hfw'] using ⟨htrip, hext⟩)

theorem State.requestState_of_illegal {s : State} {v : Nat} (h : legalRequest s.mode v = none ∨ s.trans.isSome = true ∨ s.fwBusy = true) :
    s.requestState v = (0x1103, s) := by
  rw [State.requestState]
  cases hm : legalRequest s.mode v with
  | none => rfl
  | some m =>
    rw [hm, State.fwBusy_iff] at h
    exact if_pos (by tauto)

/-! ### STORE and RESTORE (R40) -/

theorem State.applyScalar_store (s : State) (via : Via) (port v : Nat) :
    s.applyScalar via port Od.store (writtenValue Od.store v) = s.store := rfl

theorem State.applyScalar_restore (s : State) (via : Via) (port v : Nat) :
    s.applyScalar via port Od.restore (writtenValue Od.restore v) = s.restoreDefaults := rfl

theorem exec_store (w : OdW) (s : State) : exec (.store w) s = .next (s.entryAccess 1 w 0 Od.store .plain) := by rfl

theorem exec_restore (w : OdW) (s : State) : exec (.restore w) s = .next (s.entryAccess 1 w 0 Od.restore .plain) := by rfl

/-- R40: the dictionary with the stored entries' values in the parameter store. -/
def OdSt.keepStored (o : OdSt) : OdSt :=
  { o with stored := o.vals.filter (fun e => isStored e.1), storedDom := o.doms.filter (fun e => isStored e.1) }

/-- R40: the dictionary with an empty parameter store. -/
def OdSt.forgetStored (o : OdSt) : OdSt := { o with stored := [], storedDom := [] }

theorem State.store_of_stopped {s : State} (hm : s.mode = .stopped) (hf : s.fwBusy = false) : s.store = (0, { s with od := s.od.keepStored }) := by
  simp [State.store, OdSt.keepStored, hm, hf]

theorem State.restoreDefaults_of_stopped {s : State} (hm : s.mode = .stopped) (hf : s.fwBusy = false) :
    s.restoreDefaults = (0, { s with od := s.od.forgetStored }) := by
  simp [State.restoreDefaults, OdSt.forgetStored, hm, hf]

theorem State.store_of_elsewhere {s : State} (h : s.mode ≠ .stopped ∨ s.fwBusy = true) : s.store = (0x1103, s) := if_pos h

theorem State.restoreDefaults_of_elsewhere {s : State} (h : s.mode ≠ .stopped ∨ s.fwBusy = true) : s.restoreDefaults = (0x1103, s) := if_pos h

/-! ### TRAIN_REQUEST (R535, R536) -/

theorem State.applyScalar_trainRequest (s : State) (via : Via) (port v : Nat) :
    s.applyScalar via port Od.trainRequest (writtenValue Od.trainRequest v) = s.trainRequest v := rfl

theorem exec_trainRequest (w : OdW) (s : State) : exec (.trainRequest w) s = .next (s.entryAccess 1 w 0 Od.trainRequest .plain) := by rfl

/-- R535: the state whose wait for a request has ended. -/
def State.trainAsked (s : State) : State := { s with start := { s.start with waitTrain := false } }

theorem State.trainRequest_of_standby {s : State} (hm : s.mode = .standby) (ht : s.trans = none) (hr : s.newel.recovery = false) (htrip : s.tripHot = false) :
    s.trainRequest 1 = (0, if s.mayTrain then s.trainAsked.beginTraining else s.trainAsked) := by
  rw [State.trainRequest, if_neg (by simp [hm, ht, hr]), if_neg one_ne_zero, if_neg (by simp [htrip])]
  rfl

/-- R399: an enabled arch starts from its first event. -/
def State.startArch (s : State) (n : Nat) : State :=
  if bit (s.odGet Od.archEnable) n then s.setArch n { ArchSt.reset with state := 1 } else s

theorem State.startArch_od (s : State) (n : Nat) : (s.startArch n).od = s.od := by
  unfold State.startArch
  split <;> rfl

theorem State.startArch_self {s : State} {n : Nat} (h : bit (s.odGet Od.archEnable) n = true) : ((s.startArch n).arch n).state = 1 := by
  simp [State.startArch, h, State.arch, State.setArch]

theorem State.startArch_keeps {s : State} {n : Nat} (h : (s.arch n).state = 1) (m : Nat) : ((s.startArch m).arch n).state = 1 := by
  unfold State.startArch
  split
  · simp only [State.arch, State.setArch, kget_kset]
    split
    · rfl
    · exact h
  · exact h

theorem foldl_startArch_state {n : Nat} (l : List Nat) (s : State) (hn : n ∈ l) (h : bit (s.odGet Od.archEnable) n = true) :
    ((l.foldl State.startArch s).arch n).state = 1 := by
  induction l generalizing s with
  | nil => cases hn
  | cons m l ih =>
    rcases List.mem_cons.1 hn with rfl | hn
    · exact foldl_keeps (fun t : State => (t.arch n).state = 1) _ (fun _ m ht => State.startArch_keeps ht m) l (State.startArch_self h)
    · refine ih (s.startArch m) hn ?_
      rwa [State.odGet, State.startArch_od]

/-- R536: up to the change of state, Training powers the halls and starts the arches. -/
theorem State.beginTraining_eq (s : State) : ∃ u : State, s.beginTraining = (u.odPut Od.trainingState 1).setMode .training ∧
    u.start.waitTrain = false ∧ u.power.hallPower = [0, 1, 2, 3] ∧ u.arcade = ((List.range 12).foldl State.startArch s).arcade := by
  unfold State.beginTraining
  extract_lets _ arch u v
  have hv : v.arcade = u.arcade := foldl_keeps (fun t : State => t.arcade = u.arcade) (fun t h => t.odPut (Od.fabricMvH0 + h) 720) (fun _ _ h => h) (List.range 4) rfl
  exact ⟨_, rfl, rfl, rfl, hv⟩

theorem State.beginTraining_begins (s : State) : s.beginTraining.start.waitTrain = false ∧ s.beginTraining.mode = .training ∧
    s.beginTraining.odGet Od.trainingState = 1 ∧ s.beginTraining.power.hallPower = [0, 1, 2, 3] ∧
    ∀ n < 12, bit (s.odGet Od.archEnable) n = true → (s.beginTraining.arch n).state = 1 := by
  obtain ⟨u, hu, hwait, hpower, harch⟩ := s.beginTraining_eq
  rw [hu]
  refine ⟨by simpa using hwait, State.setMode_mode .., ?_, by simpa using hpower, fun n hn hb => ?_⟩
  · rw [State.setMode_odGet _ _ (by decide), State.odGet_odPut_self]
  · have hstart := foldl_startArch_state (List.range 12) s (List.mem_range.2 hn) hb
    rw [State.setMode_archState]
    rw [State.arch] at hstart ⊢
    rwa [State.odPut_arcade, harch]

/-! ### The end of a transition (R63, R328, R541) -/

theorem exec_stateTransitionEnd (s : State) : exec .stateTransitionEnd s = .next s.endTransition := by rfl

theorem State.endTransition_of_none {s : State} (h : s.trans = none) : s.endTransition = s := by simp [State.endTransition, h]

/-- R328, R541: into Run from Stopped, every stream that runs goes on. -/
theorem State.endTransition_of_run {s : State} (h : s.trans = some .run) (hm : s.mode ≠ .ready) :
    s.endTransition = ((s.setMode .run).streamList.filter (fun i => runningState ((s.setMode .run).sState i))).foldl
      (fun s i => s.continueStream i) (s.setMode .run) := by
  simp [State.endTransition, State.enterRun, h, hm]

/-- A map read after a change of every listed value. -/
theorem kfind_map {α β : Type} (f : α → β) (k : Nat) (m : KMap α) : kfind k (m.map (fun e => (e.1, f e.2))) = (kfind k m).map f := by
  induction m with
  | nil => rfl
  | cons e m ih =>
    simp only [List.map_cons, kfind]
    split
    · rfl
    · exact ih

theorem State.takeIdleCancels_of_no_streams {s : State} (h : s.serve.streams = []) : s.takeIdleCancels = s := by
  simp [State.takeIdleCancels, State.streamList, h]

/-- R328, R542: where no step is open and no stream is listed, a stop writes no memory, and leaves no program current and no tile. -/
theorem State.haltWork_of_no_work {s : State} (hsteps : s.serve.steps = []) (hstreams : s.serve.streams = []) :
    s.haltWork.mem = s.mem ∧ ∀ k, (s.haltWork.flight k).current = none ∧ (s.haltWork.flight k).tiles = [] := by
  unfold State.haltWork
  extract_lets fields halt clear _ _ u v
  have hfields : fields = [] := by simp [fields, hsteps]
  have hv : v.serve.streams = [] := by simp [v, u, State.abandonParks, State.abandonDescs, hstreams]
  rw [hfields, List.foldl_nil, State.takeIdleCancels_of_no_streams hv]
  refine ⟨rfl, fun k => ?_⟩
  have hflight : v.flight k = ((kfind k s.halls.flights).map halt).getD FlightSt.reset := congrArg (fun x => Option.getD x FlightSt.reset) (kfind_map halt k _)
  rw [hflight]
  cases kfind k s.halls.flights <;> exact ⟨rfl, rfl⟩

/-- R63: the stop ends in Stopped; a timer of the service input starts again. -/
theorem State.endTransition_of_stopped {s : State} (h : s.trans = some .stopped) :
    ∃ n : NewelSt, s.endTransition = { s.haltWork.setMode .stopped with newel := n } := by
  unfold State.endTransition
  rw [h]
  simp only
  split
  · exact ⟨_, rfl⟩
  · exact ⟨_, rfl⟩

/-- R535: an entry into Standby by request waits for TRAIN_REQUEST unless START_MODE is 2. -/
theorem State.endTransition_of_standby {s : State} (h : s.trans = some .standby) (hstart : s.toStandby.odGet Od.startMode ≠ 2) :
    ∃ n : NewelSt, s.endTransition = { s.toStandby with newel := n, start := { s.toStandby.start with waitTrain := true } } := by
  refine ⟨s.toStandby.newel.activate, ?_⟩
  unfold State.endTransition
  rw [h]
  exact if_pos hstart

/-- R12, R39, R254: the entry into Standby leaves nothing in memory, in the halls, or served. -/
theorem State.toStandby_empties (s : State) : s.toStandby.mode = .standby ∧ s.toStandby.trans = none ∧ s.toStandby.mem.cells = [] ∧
    s.toStandby.halls = HallsSt.reset ∧ s.toStandby.serve = ServeSt.reset := by
  unfold State.toStandby
  simp [MemSt.atStandby, MemSt.reset]

/-! ### The statement -/

theorem stateRequest_begins {s : State} {w : OdW} {via : Via} {m : ModState} (h : ReachesScalar s w via Od.stateRequest)
    (hm : legalRequest s.mode (leNat w.value) = some m) (ht : s.trans = none) (hfw : s.fwBusy = false) (htrip : m = .standby → s.tripHot = false)
    (hext : m = .run → s.odGet Od.extestSinceStandby = 0) : Commits s (.stateRequest w) w.via { s.finishTest 5 with trans := some m } :=
  h.commits (exec_stateRequest w s) (by decide) (by decide) (by decide)
    ((s.applyScalar_stateRequest ..).trans (State.requestState_of_legal hm ht hfw htrip hext))

theorem stateRequest_denied {s : State} {w : OdW} {via : Via} (h : ReachesScalar s w via Od.stateRequest)
    (hno : legalRequest s.mode (leNat w.value) = none ∨ s.trans.isSome = true ∨ s.fwBusy = true) : Denied s (.stateRequest w) w.via 0x1103 :=
  h.denied (exec_stateRequest w s) (by decide) (by decide) (by decide) ((s.applyScalar_stateRequest ..).trans (State.requestState_of_illegal hno))

theorem store_keeps {s : State} {w : OdW} {via : Via} (h : ReachesScalar s w via Od.store) (hm : s.mode = .stopped) (hf : s.fwBusy = false) :
    Commits s (.store w) w.via { s with od := s.od.keepStored } :=
  h.commits (exec_store w s) (by decide) (by decide) (by decide) ((s.applyScalar_store ..).trans (State.store_of_stopped hm hf))

theorem restore_forgets {s : State} {w : OdW} {via : Via} (h : ReachesScalar s w via Od.restore) (hm : s.mode = .stopped) (hf : s.fwBusy = false) :
    Commits s (.restore w) w.via { s with od := s.od.forgetStored } :=
  h.commits (exec_restore w s) (by decide) (by decide) (by decide) ((s.applyScalar_restore ..).trans (State.restoreDefaults_of_stopped hm hf))

theorem store_denied {s : State} {w : OdW} {via : Via} (h : ReachesScalar s w via Od.store) (hno : s.mode ≠ .stopped ∨ s.fwBusy = true) :
    Denied s (.store w) w.via 0x1103 :=
  h.denied (exec_store w s) (by decide) (by decide) (by decide) ((s.applyScalar_store ..).trans (State.store_of_elsewhere hno))

theorem restore_denied {s : State} {w : OdW} {via : Via} (h : ReachesScalar s w via Od.restore) (hno : s.mode ≠ .stopped ∨ s.fwBusy = true) :
    Denied s (.restore w) w.via 0x1103 :=
  h.denied (exec_restore w s) (by decide) (by decide) (by decide) ((s.applyScalar_restore ..).trans (State.restoreDefaults_of_elsewhere hno))

/-- R535: a request in Standby ends the wait for one, and begins Training where the timebase allows it. -/
theorem trainRequest_begins {s : State} {w : OdW} {via : Via} (h : ReachesScalar s w via Od.trainRequest) (hm : s.mode = .standby) (ht : s.trans = none)
    (htrip : s.tripHot = false) (hv : leNat w.value = 1) :
    Commits s (.trainRequest w) w.via (if s.mayTrain then s.trainAsked.beginTraining else s.trainAsked) := by
  obtain ⟨_, _, hrec, _⟩ := h.1
  refine h.commits (exec_trainRequest w s) (by decide) (by decide) (by decide) ?_
  rw [s.applyScalar_trainRequest, hv, State.trainRequest_of_standby hm ht hrec htrip]

/-- Settles O34: each request by the lemma on what its entry does, and each end of a transition by the lemma on the state requested. -/
theorem stateAndStoreRequests : Obligations.StateAndStoreRequests := by
  refine ⟨fun s w via m h hm ht hfw htrip hext => stateRequest_begins h hm ht hfw htrip hext, fun s w via h hno => stateRequest_denied h hno,
    fun s w via h hm hf => ?_, fun s w via h hm hf => ?_, fun s w via hno => ⟨fun h => store_denied h hno, fun h => restore_denied h hno⟩,
    fun s w via h hm ht htrip hv => ?_, fun s h => ?_, fun s h hm => ?_, fun s h => ?_, fun s h hstart => ?_⟩
  · exact ⟨_, store_keeps h hm hf, fun e => List.mem_filter, fun e => List.mem_filter, rfl, rfl, rfl⟩
  · exact ⟨_, restore_forgets h hm hf, rfl, rfl, rfl, rfl, rfl⟩
  · refine ⟨_, trainRequest_begins h hm ht htrip hv, ?_⟩
    obtain ⟨hwait, hmode, hstate, hpower, harch⟩ := s.trainAsked.beginTraining_begins
    cases s.mayTrain with
    | true => exact ⟨hwait, hmode, fun _ => ⟨hstate, hpower, harch⟩⟩
    | false => exact ⟨rfl, hm, fun h => nomatch h⟩
  · rw [exec_stateTransitionEnd, State.endTransition_of_none h]
  · refine ⟨?_, by simp, by simp, by simp, by simp, by simp⟩
    rw [exec_stateTransitionEnd, State.endTransition_of_run h hm]
  · obtain ⟨n, ht⟩ := State.endTransition_of_stopped h
    refine ⟨_, (exec_stateTransitionEnd s).trans (congrArg _ ht), State.setMode_mode .., State.setMode_trans .., fun hsteps hstreams => ?_⟩
    obtain ⟨hmem, hflights⟩ := State.haltWork_of_no_work hsteps hstreams
    refine ⟨congrArg MemSt.cells ((State.setMode_mem ..).trans hmem), fun k => ?_⟩
    have hk := hflights k
    rwa [State.flight, ← State.setMode_halls _ .stopped] at hk
  · obtain ⟨n, ht⟩ := State.endTransition_of_standby h hstart
    obtain ⟨hmode, htrans, hcells, hhalls, hserve⟩ := s.toStandby_empties
    exact ⟨_, (exec_stateTransitionEnd s).trans (congrArg _ ht), hmode, htrans, hcells, hhalls, hserve, rfl⟩

end Sys2Proof.Machine
end

section
/-!
SUPPORT. Dictionary accesses by the paths that bring them: the mailbox, a frame of the manager, an EOP request; and what an access that passes its
checks does (R42 to R46, R50 to R60, R571).
-/

namespace Sys2Proof.Machine

/-! ### The mailbox (R50, R53, R479) -/

section
variable {s : State} {q : MbReq} (hport : (s.cxl.linkUp || s.cxl.pcieOnly) = true) (op : Nat) (f : State → State)
include hport

theorem State.odMailbox_of_restarting (h : s.newel.restarting = true) : s.odMailbox op q f = s.mbDone (.mbReturn cxlBusy) := by
  simp only [State.odMailbox, hport, h, if_true, Bool.not_true, Bool.false_eq_true, if_false]

theorem State.odMailbox_of_other_opcode (h : s.newel.restarting = false) (hop : q.opcode ≠ op) :
    s.odMailbox op q f = s.mbDone (.mbReturn cxlUnsupported) := by
  simp only [State.odMailbox, hport, h, hop, if_true, Bool.not_true, Bool.false_eq_true, if_false, ne_eq, not_false_eq_true]

theorem State.odMailbox_of_malformed (h : s.newel.restarting = false) (hop : q.opcode = op) (hlen : q.payload.length < 16 ∨ q.length ≠ q.body.length) :
    s.odMailbox op q f = s.mbDone (.mbReturn cxlInvalidInput) := by
  simp only [State.odMailbox, hport, h, hop, hlen, if_true, Bool.not_true, Bool.false_eq_true, if_false, ne_eq, not_true_eq_false]

end

theorem State.odMailbox_of_served {s : State} {q : MbReq} {op : Nat} (h : MailboxServes s op q) (f : State → State) : s.odMailbox op q f = f s := by
  obtain ⟨hport, hrestart, hop, h16, hlen⟩ := h
  have hform : ¬ (q.payload.length < 16 ∨ q.length ≠ q.body.length) := by simp [hlen, h16]
  simp only [State.odMailbox, hport, hrestart, hop, hform, Bool.not_true, Bool.false_eq_true, if_false, ne_eq, not_true_eq_false]

theorem exec_mailboxCommand {op : Nat} (h : op ≤ 5) (q : MbReq) (s : State) : exec (mailboxCommand op q) s = .next (s.mailboxAccess op q) := by
  match op, h with
  | 0, _ => rfl
  | 1, _ => rfl
  | 2, _ => rfl
  | 3, _ => rfl
  | 4, _ => rfl
  | 5, _ => rfl

/-! ### Frames (R54, R409) -/

@[simp] theorem State.freeCredits_zero (s : State) (n vc : Nat) : s.freeCredits n vc 0 = s := if_pos rfl

/-- R409: a frame of a type other than HELLO, for this module, is delivered. -/
theorem State.frameRow_of_mine {s : State} {f : Frame} {t : Nat} (ht : t ≠ 1) (hok : archOk f.arch = true) (hup : (s.arch f.arch).up = true)
    (hvc : frameVc t = some f.vc) (hlen : f.payload.length ≤ 16400) (hmine : s.mine f.dest = true) :
    s.frameRow t f = .next (s.deliver { f with ftype := t }) := by
  have hform : ¬ (frameVc t ≠ some f.vc ∨ 16400 < f.payload.length) := by simp [hvc, hlen]
  simp only [State.frameRow, State.takeFrame, hok, hform, ht, hup, hmine, State.freeCredits_zero, Bool.not_true, Bool.false_eq_true, if_false, if_true]

/-- R54: a request of the manager for an operation of R50 is an access with the manager's role. -/
theorem exec_odRequest_of_manager {s : State} {f : Frame} {q : MbReq} {op : Nat} (h : ManagerAsks s f q) (hop : q.opcode = 0xC000 + op) (h5 : op ≤ 5) :
    exec (.odRequest f q.opcode q.payload) s = .next (s.perform
      ⟨.arcade, f.arch, .arcade f.src f.tag q.opcode, op, q.path, q.index * 256 + q.sub, q.body, .plain, segmentMax .arcade, 2⟩) := by
  obtain ⟨hok, hup, hvc, hlen, hmine, hrestart, hman, hsrc, h16, hbody⟩ := h
  refine (State.frameRow_of_mine (f := { f with index := q.opcode, payload := q.payload }) (t := 2) (by decide) hok hup (by rw [hvc]; rfl) hlen hmine).trans
    (congrArg _ ?_)
  have hform : ¬ (q.payload.length < 16 ∨ leField q.payload 12 4 ≠ (q.payload.drop 16).length ∨ q.opcode < 0xC000 ∨ 0xC006 < q.opcode) := by
    have hbody' : leField q.payload 12 4 = (q.payload.drop 16).length := hbody
    omega
  have hwait : q.opcode ≠ 0xC006 := by omega
  have hsub : q.opcode - 0xC000 = op := by omega
  simp only [State.deliver, State.takeOdRequest, hrestart, hman, hsrc, hform, hwait, hsub, Bool.false_eq_true, if_false, bne_self_eq_false, Bool.or_self]
  rfl

/-! ### EOP requests (R55, R59) -/

@[simp] theorem State.eopAccept_queue (s : State) (key seq : Nat) : (s.eopAccept key seq).eop.queue = s.eop.queue := rfl

/-- R59, R60: a request that passes the checks with an empty queue is counted, and its sequence accepted. -/
theorem State.eopCheck_of_passes {s : State} {d : Datagram} (h : EopPasses s d) : s.eopCheck d.payload d.sigOk = (true, s.eopTaken d) := by
  obtain ⟨_, hqueue, _, _, hform, hauth, hfresh, hseq⟩ := h
  simp [State.eopCheck, State.eopTaken, hqueue, hform, hauth, hfresh, hseq]

theorem exec_eopCommand {op : Nat} (h : op ≤ 5) {d : Datagram} (hport : portOk d.port = true) (s : State) :
    exec (eopCommand op d) s = .next (s.eopRow (op + 1) d) := by
  have row : ∀ n, (if !portOk d.port then .refused .noSuchUnit else .next (s.eopRow n d) : Result) = .next (s.eopRow n d) := fun n => by simp [hport]
  match op, h with
  | 0, _ => exact row 1
  | 1, _ => exact row 2
  | 2, _ => exact row 3
  | 3, _ => exact row 4
  | 4, _ => exact row 5
  | 5, _ => exact row 6

theorem State.eopRow_of_passes {s : State} {d : Datagram} (h : EopPasses s d) : s.eopRow (eopHdr d.payload).op d = (s.eopTaken d).eopExecute d := by
  have hcheck := State.eopCheck_of_passes h
  obtain ⟨_, hqueue, harr, hserved, _⟩ := h
  simp [State.eopRow, hqueue, harr, hserved, hcheck]

/-- R59: the access that an EOP request asks for. -/
theorem State.eopExecute_of_op {d : Datagram} {op : Nat} (h : (eopHdr d.payload).op = op + 1) (s : State) :
    s.eopExecute d = s.perform ⟨.eop, d.port, .eop d.srcAddr d.srcPort (op + 1) (eopHdr d.payload).seq (eopHdr d.payload).path, op,
      (eopHdr d.payload).path, eopKey d, eopBody (eopHdr d.payload) (eopKey d) ((eopPayload d.payload).drop 4), .plain, segmentMax .eop, 2⟩ := by
  simp only [State.eopExecute, h, Nat.add_sub_cancel]
  rfl

/-! ### What brings an access (R50, R54, R56) -/

/-- Whatever path brings an access, the module makes it. -/
theorem Brings.exec {s r : State} {c : Instr} {a : Access} (h : Brings s r c a) : exec c s = .next (r.perform a) := by
  obtain ⟨h5, _, ⟨q, hq, rfl, rfl, ha⟩ | ⟨f, q, hf, hop, rfl, rfl, ha⟩ | ⟨d, hd, hop, rfl, rfl, ha⟩⟩ := h
  · rw [exec_mailboxCommand h5, State.mailboxAccess, State.odMailbox_of_served hq, ha]
  · rw [exec_odRequest_of_manager hf hop h5, ha]
  · rw [exec_eopCommand h5 hd.1, ← hop, State.eopRow_of_passes hd, State.eopExecute_of_op hop, ← ha]

/-- The checks of an EOP request leave everything but EOP's record and its counter. -/
theorem Brings.frame {s r : State} {c : Instr} {a : Access} (h : Brings s r c a) :
    r.epoch = s.epoch ∧ r.mem = s.mem ∧ r.halls = s.halls ∧ r.newel.recovery = false := by
  obtain ⟨_, hrec, ⟨_, _, _, rfl, _⟩ | ⟨_, _, _, _, _, rfl, _⟩ | ⟨_, _, _, _, rfl, _⟩⟩ := h
  · exact ⟨rfl, rfl, rfl, hrec⟩
  · exact ⟨rfl, rfl, rfl, hrec⟩
  · exact ⟨rfl, rfl, rfl, hrec⟩

/-! ### Accesses of this module's entries (R42 to R45, R571) -/

/-- R52, R571: an access of this module's entry is answered with what the access gives. -/
theorem BringsHere.answers {s r x : State} {c : Instr} {a : Access} {level code : Nat} {b : Bytes} (h : BringsHere s r c a level)
    (hx : r.access { a with level := level } none = (code, b, x)) (hlate : x.answerLate a code = false) : Answers s x c a code b := by
  rw [Answers, h.1.exec, State.perform_of_here h.2, hx, answerTo_of_prompt hlate]

/-- R282: only the answer of a write may wait. -/
theorem State.answerLate_of_op {a : Access} (h : a.op ≠ 1) (s : State) (code : Nat) : s.answerLate a code = false := by
  simp [State.answerLate, h]

theorem State.answerLate_of_refusal {code : Nat} (h : code ≠ 0) (s : State) (a : Access) : s.answerLate a code = false := by
  simp [State.answerLate, h]

theorem State.readCheck_of_passed {s : State} {a : Access} {row : OdRow} (h : MayReadEntry s a row) (f : OdRow → Answer) :
    s.readCheck (roleOf a.via) a.key f = f row := by
  obtain ⟨hrow, hread, hmay⟩ := h
  simp [State.readCheck, hrow, hread, hmay]

/-- R42: a row of a fixed size is no DOMAIN entry's. -/
theorem OdRow.not_isDomain {row : OdRow} {n : Nat} (h : row.ty.size = some n) : row.isDomain = false := by
  refine beq_eq_false_iff_ne.2 (fun hty => ?_)
  rw [hty] at h
  cases h

theorem OdRow.isDomain_of_type {row : OdRow} (h : row.ty = .domain) : row.isDomain = true := by simp [OdRow.isDomain, h]

section
variable {s : State} {a : Access} (hrec : s.newel.recovery = false)
include hrec

theorem State.access_of_op_read (hop : a.op = 0) : s.access a none = s.accessRead a none := by simp [State.access, hrec, hop]
theorem State.access_of_op_readStart (hop : a.op = 2) : s.access a none = s.accessReadStart a := by simp [State.access, hrec, hop]
theorem State.access_of_op_writeStart (hop : a.op = 3) : s.access a none = s.accessWriteStart a := by simp [State.access, hrec, hop]
theorem State.access_of_op_segment (hop : a.op = 4) : s.access a none = s.accessSegment a := by simp [State.access, hrec, hop]
theorem State.access_of_op_abort (hop : a.op = 5) : s.access a none = s.accessAbort a := by simp [State.access, hrec, hop]

end

/-- R37: OD_READ of an entry of a fixed size. -/
theorem State.accessRead_of_size {s : State} {a : Access} {row : OdRow} {n : Nat} (h : MayReadEntry s a row) (hn : row.ty.size = some n) (hb : a.body = []) :
    s.accessRead a none = (0, s.scalarBytes (roleOf a.via) none a.level a.key n, s) := by
  rw [State.accessRead, State.readCheck_of_passed h]
  simp [OdRow.not_isDomain hn, hn, hb]

/-- R36: a write whose entry takes it is counted in OD_WRITE_SEQ. -/
theorem State.writeScalar_commits {s r : State} {via : Via} {port k v : Nat} (h : s.writeScalar via port k v = (0, r)) :
    ∃ x, s.applyScalar via port k (writtenValue k v) = (0, x) ∧ r = (x.count Od.odWriteSeq 1).sendConfig k := by
  unfold State.writeScalar at h
  extract_lets u at h
  split at h
  · cases h
  · unfold commitWrite at h
    split at h
    · rename_i hc
      exact ⟨_, Prod.ext hc rfl, (congrArg Prod.snd h).symm⟩
    · rename_i hc
      exact absurd (congrArg Prod.fst h) hc

/-- R453: sending a changed entry to the Foyer changes no entry. -/
theorem State.sendConfig_od (s : State) (k : Nat) : (s.sendConfig k).od = s.od := by
  unfold State.sendConfig
  split
  · rfl
  · exact State.balSend_od_of_management (k := 3) rfl (by decide) _ _

/-! ### DOMAIN transfers (R42 to R45) -/

theorem State.endTransfers_of_none {s : State} (h : s.od.transfers = []) (p : Transfer → Bool) : s.endTransfers p = s := by
  have hod : { s.od with transfers := s.od.transfers.filter (fun t => !p t) } = s.od := by rw [h, List.filter_nil, ← h]
  rw [State.endTransfers, hod]

/-- R45: the first transfer that opens. -/
theorem State.putTransfer_of_none {s : State} (h : s.od.transfers = []) (t : Transfer) : (s.putTransfer t).od.transfers = [t] := by
  simp [State.putTransfer, State.endTransfers_of_none h, h]

/-- R45: the one open transfer, as it now stands. -/
theorem State.putTransfer_of_single {s : State} {t u : Transfer} (h : s.od.transfers = [t]) (hvia : t.via = u.via) (hkey : t.key = u.key)
    (hw : t.isWrite = u.isWrite) : (s.putTransfer u).od.transfers = [u] := by
  simp [State.putTransfer, State.endTransfers, h, hvia, hkey, hw]

theorem State.transfer_of_single {s : State} {t : Transfer} {via : Via} {k : Nat} {w : Bool} (h : s.od.transfers = [t]) (hvia : t.via = via)
    (hkey : t.key = k) (hw : t.isWrite = w) : s.transfer via k w = some t := by
  simp [State.transfer, h, hvia, hkey, hw]

/-- R44: a read start of an entry that holds bytes opens a transfer of them, as they stand. -/
theorem State.accessReadStart_opens {s : State} {a : Access} {row : OdRow} (h : MayReadEntry s a row) (hty : row.ty = .domain) (hb : a.body = [])
    (hnone : s.od.transfers = []) (hne : s.odBytes (roleOf a.via) a.key ≠ []) :
    s.accessReadStart a = (0, leBytes 4 (s.odBytes (roleOf a.via) a.key).length,
      s.tick.putTransfer ⟨a.via, a.key, false, (s.odBytes (roleOf a.via) a.key).length, s.odBytes (roleOf a.via) a.key, 0, s.epoch⟩) := by
  rw [State.accessReadStart, State.readCheck_of_passed h]
  simp [OdRow.isDomain_of_type hty, hb, State.endTransfers_of_none hnone, hnone, hne]

/-- R43, R45: a write start opens a transfer that awaits its bytes. -/
theorem State.accessWriteStart_opens {s : State} {a : Access} {row : OdRow} (h : MayWriteEntry s a row) (hty : row.ty = .domain) (hb : a.body.length = 4)
    (hlen : domLenOk a.key (leNat a.body) = true) (hnone : s.od.transfers = []) (hkey : a.key ≠ Od.fwImage) (hn : leNat a.body ≠ 0) :
    s.accessWriteStart a = (0, [], s.putTransfer ⟨a.via, a.key, true, leNat a.body, [], 0, s.epoch⟩) := by
  obtain ⟨hrow, hw, hmay, hrws⟩ := h
  rw [State.accessWriteStart, State.writeCheck_of_passed hrow hw hmay hrws]
  simp [OdRow.isDomain_of_type hty, hb, hlen, State.startOk, hkey, hnone, hn]

/-- R43: a segment with data is a write's. -/
theorem State.accessSegment_of_data {s : State} {a : Access} {row : OdRow} (hrow : s.entryRow (roleOf a.via) a.key = some row) (hw : row.writable = true)
    (hmay : s.mayWrite (roleOf a.via) (a.key / 256) = true) (hty : row.ty = .domain) (hlen : 4 < a.body.length) :
    s.accessSegment a = s.writeSegment a row (leField a.body 0 4) (a.body.drop 4) := by
  have hd : a.body.drop 4 ≠ [] := fun h => absurd (List.drop_eq_nil_iff.1 h) (by omega)
  simp [State.accessSegment, hrow, hw, hmay, OdRow.isDomain_of_type hty, hd]

section
variable {s : State} {a : Access} {row : OdRow} {t : Transfer} {off : Nat} {d : Bytes} (h : s.transfer a.via a.key true = some t)
  (hlimit : d.length ≤ a.limit)
include h hlimit

/-- R43: a segment out of order is refused, and its transfer keeps the bytes so far. -/
theorem State.writeSegment_of_gap (htotal : off + d.length ≤ t.total) (hoff : off ≠ t.data.length) :
    s.writeSegment a row off d = (0x1122, [], s.putTransfer { t with last := s.epoch }) := by
  simp only [State.writeSegment, h]
  rw [if_neg (by omega), if_pos hoff]

/-- R43: a segment at the next offset joins its transfer. -/
theorem State.writeSegment_of_next (hoff : off = t.data.length) (hmore : t.data.length + d.length < t.total) (hkey : a.key ≠ Od.fwImage) :
    s.writeSegment a row off d = (0, [], s.putTransfer { t with last := s.epoch, data := t.data ++ d }) := by
  have hopen : ¬ (t.data ++ d).length = t.total := by rw [List.length_append]; omega
  simp only [State.writeSegment, h]
  rw [if_neg (by omega), if_neg (not_not.2 hoff), if_neg hopen, if_neg (by simp [hkey])]

end

/-- R44: a segment without data is a read's. -/
theorem State.accessSegment_of_offset {s : State} {a : Access} {row : OdRow} (h : MayReadEntry s a row) (hty : row.ty = .domain) (hlen : a.body.length = 4) :
    s.accessSegment a = s.readSegment a (leField a.body 0 4) := by
  have hd : a.body.drop 4 = [] := List.drop_eq_nil_iff.2 hlen.le
  simp only [State.accessSegment, hd, if_true, State.readCheck_of_passed h]
  simp [OdRow.isDomain_of_type hty, hlen]

/-- R44: the bytes from an offset that the reader has reached, up to the limit of the path. -/
theorem State.readSegment_of_reached {s : State} {a : Access} {t : Transfer} {off : Nat} (h : s.transfer a.via a.key false = some t)
    (hreach : off ≤ t.delivered) (htotal : off < t.total) :
    s.readSegment a off = (0, (t.data.drop off).take a.limit,
      s.putTransfer { t with last := s.epoch, delivered := max t.delivered (off + ((t.data.drop off).take a.limit).length) }) := by
  simp only [State.readSegment, h]
  rw [if_neg (by omega)]

/-- R45: an abort ends the transfers of the entry on the path. -/
theorem State.accessAbort_ends {s : State} {a : Access} (h : (s.entryRow (roleOf a.via) a.key).isSome = true) (hkey : a.key ≠ Od.fwImage) :
    s.accessAbort a = (0, [], s.endTransfers (fun x => x.via == a.via && x.key == a.key)) := by
  have hrow : ¬ (s.entryRow (roleOf a.via) a.key).isNone = true := by
    rw [Option.isNone_iff_eq_none]
    exact Option.isSome_iff_ne_none.1 h
  simp [State.accessAbort, hrow, State.fwStopped, hkey]

theorem State.mem_endTransfers (s : State) (p : Transfer → Bool) (t : Transfer) : t ∈ (s.endTransfers p).od.transfers ↔ t ∈ s.od.transfers ∧ p t = false := by
  simp [State.endTransfers]

end Sys2Proof.Machine
end

section
/-!
SUPPORT. The statement on accesses of the dictionary over the mailbox, the Arcade and EOP, clause by clause.
-/

namespace Sys2Proof.Machine

/-! ### Accesses that leave for another module, or name none (R46, R48) -/

/-- R46: a path that names nothing. -/
theorem Brings.answers_bad_path {s r : State} {c : Instr} {a : Access} (h : Brings s r c a) (hbad : r.target a.path = .bad) : Answers s r c a 0x5101 [] := by
  have hp : r.perform a = answerTo a (r.refuse 0x5101) := by simp only [State.perform, hbad]
  rw [Answers, h.exec, hp, answerTo_of_prompt (State.answerLate_of_refusal (code := 0x5101) (by decide) _ _)]
  rfl

/-- R46, R48: the state in which an access waits as a proxy for the response of another module. -/
def State.proxied (s : State) (a : Access) (dest : Word64) : State :=
  { s with od := { s.od with
      proxies := s.od.proxies ++ [⟨s.od.nextProxy, a.origin, dest, a.op, a.key, s.epoch + ((pathHops a.path).getD []).length * (50 * oneMs)⟩],
      nextProxy := (s.od.nextProxy + 1) % 65536 } }

/-- R46, R48: an access to another module that its originator may make leaves as one frame, where its segment keeps to the limit. -/
theorem State.perform_of_away {s : State} {a : Access} {dest down : Word64} (h : s.target a.path = .away dest down) (hmay : s.originMay a = true) (h5 : a.op ≤ 5)
    (hlen : a.op = 4 → a.body.length ≤ min a.limit 4096 + 4) :
    s.perform a = (s.proxied a dest).sendFrame
      ((s.proxied a dest).mkFrame dest 0x02 0 0 0 s.od.nextProxy (0xC000 + a.op) (odRequestBytes down a.key a.body)) := by
  have hseg : ¬ (a.op = 4 ∧ min a.limit (segmentMax .arcade) + 4 < a.body.length) := fun hc => absurd (hlen hc.1) (Nat.not_le.2 hc.2)
  simp only [State.perform, h, hmay, Bool.not_true, Bool.false_eq_true, if_false, State.forwardAll, hseg, h5, if_true]
  rfl

/-! ### OD_STATE_WAIT (R53) -/

theorem exec_odStateWait_of_here {s : State} {q : MbReq} {level : Nat} (h : MailboxServes s 0xC006 q) (hrec : s.newel.recovery = false)
    (ht : s.target q.path = .here none false level) (hnone : s.od.stateWait = none) (hb : (s.beginWait .mailbox q.body).1 = true) :
    exec (.odStateWait q) s = .next (s.beginWait .mailbox q.body).2 := by
  refine congrArg _ ((State.odMailbox_of_served h _).trans ?_)
  simp only [hrec, hnone, ht, Bool.false_eq_true, if_false, Option.any_none]
  split
  · rename_i hw
    rw [hw]
  · rename_i hw
    rw [hw] at hb
    cases hb

section
variable {s : State} {b : Bytes} (o : Origin) (hb : b.length = 3) (hms : leField b 1 2 ≤ 10000)
include hb hms

/-- R53: a wait for the state that holds already is answered at once. -/
theorem State.beginWait_of_held (h : leField b 0 1 = s.mode.code) :
    s.beginWait o b = (true, s.respond o 6 0 0 (s.odGet Od.odWriteSeq) (leBytes 1 s.mode.code)) := by
  simp [State.beginWait, hb, Nat.not_lt.2 hms, h]

/-- R53: another waits for its state or its time. -/
theorem State.beginWait_of_other (h : leField b 0 1 ≠ s.mode.code) (hpos : leField b 1 2 ≠ 0) (hnone : s.od.stateWait = none) :
    s.beginWait o b = (true, { s with od := { s.od with stateWait := some ⟨o, leField b 0 1, s.epoch + leField b 1 2 * oneMs⟩ } }) := by
  simp [State.beginWait, hb, Nat.not_lt.2 hms, Ne.symm h, hpos, hnone]

end

/-- R443: a signal adds at most a message. -/
theorem State.signal_out (s : State) (v : Nat) : ∃ l, (s.signal v).out = s.out ++ l := by
  unfold State.signal
  split
  · exact ⟨[], (List.append_nil _).symm⟩
  · split
    · exact ⟨[], (List.append_nil _).symm⟩
    · exact ⟨_, rfl⟩

theorem State.endStateWait_ends {s : State} {w : StateWait} (h : s.od.stateWait = some w) :
    s.endStateWait.od.stateWait = none ∧ s.endStateWait.mode = s.mode ∧ s.endStateWait.mem = s.mem ∧
      (w.origin = .mailbox → ∃ l, s.endStateWait.out = s.out ++ .od .mailbox 0 (s.odGet Od.odWriteSeq) (leBytes 1 s.mode.code) :: l) := by
  refine ⟨?_, s.endStateWait_answerFrame.mode, s.endStateWait_answerFrame.mem, fun ho => ?_⟩
  · rw [State.endStateWait_of_some h, (State.respond_odFrame _ _ _ _ _ _ _).parts]
  · obtain ⟨l, hl⟩ := State.signal_out
      (({ s with od := { s.od with stateWait := none } } : State).emit (.od .mailbox 0 (s.odGet Od.odWriteSeq) (leBytes 1 s.mode.code))) 0
    refine ⟨l, ?_⟩
    rw [State.endStateWait_of_some h, ho]
    exact hl.trans (List.append_assoc ..)

theorem exec_stateWaitTimeout (s : State) : exec .stateWaitTimeout s = .next (if s.od.stateWait.isSome then s.endStateWait else s) := by rfl

theorem exec_domainAborted (via : Via) (index sub : Nat) (s : State) :
    exec (.domainAborted via index sub) s = execDomainAborted via index sub s := by rfl

/-- R45: the one transfer of an entry on a path ends when its time is over. -/
theorem exec_domainAborted_of_single {s : State} {via : Via} {index sub : Nat} {t : Transfer} (h : s.od.transfers = [t]) (hvia : t.via = via)
    (hkey : t.key = index * 256 + sub) (hfw : t.key ≠ Od.fwImage) :
    exec (.domainAborted via index sub) s = .next { s with od := { s.od with transfers := [] } } := by
  have hend : (s.endTransfers (fun x => (x.via == via && x.key == index * 256 + sub) && x.last == t.last)) = { s with od := { s.od with transfers := [] } } := by
    simp [State.endTransfers, h, hvia, hkey]
  have hstop : ∀ u : State, u.fwStopped (index * 256 + sub) = u := fun u => if_neg (fun hc => hfw (hkey.trans hc.1))
  rw [exec_domainAborted]
  simp only [execDomainAborted, h, hvia, hkey, hstop, hend, List.filter_cons, List.filter_nil, beq_self_eq_true, Bool.and_self, if_true, List.map_cons,
    List.map_nil, List.foldl_nil, ite_self]

/-! ### The clauses -/

/-- The seven dictionary rows of the mailbox are one operation with an opcode each. -/
theorem exec_of_mailbox_row {q : MbReq} {c : Instr}
    (hc : c ∈ [Instr.odRead q, .odWrite q, .odDomainReadStart q, .odDomainWriteStart q, .odDomainSegment q, .odDomainAbort q, .odStateWait q]) (s : State) :
    ∃ (op : Nat) (f : State → State), exec c s = .next (s.odMailbox op q f) := by
  simp only [List.mem_cons, List.not_mem_nil, or_false] at hc
  rcases hc with rfl | rfl | rfl | rfl | rfl | rfl | rfl <;> exact ⟨_, _, rfl⟩

theorem exec_of_mailbox_opcode {q : MbReq} {c : Instr} {op : Nat} (hc : c = mailboxCommand op q ∧ op ≤ 5 ∨ c = .odStateWait q ∧ op = 6) (s : State) :
    ∃ f : State → State, exec c s = .next (s.odMailbox (0xC000 + op) q f) := by
  obtain ⟨rfl, h5⟩ | ⟨rfl, rfl⟩ := hc
  · exact ⟨_, exec_mailboxCommand h5 q s⟩
  · exact ⟨_, rfl⟩

section
variable {s r : State} {c : Instr} {a : Access} {level : Nat} {row : OdRow} (h : BringsHere s r c a level)
include h

theorem read_answers {n : Nat} (hop : a.op = 0) (hmay : MayReadEntry r a row) (hn : row.ty.size = some n) (hb : a.body = []) :
    Answers s r c a 0 (r.scalarBytes (roleOf a.via) none level a.key n) := by
  obtain ⟨_, _, _, hrec⟩ := h.1.frame
  exact h.answers (Eq.trans (State.access_of_op_read hrec hop) (State.accessRead_of_size hmay hn hb))
    (State.answerLate_of_op (by omega) _ _)

/-- R36, R571: a write is answered with the status that its entry gives. -/
theorem write_answers {x : State} {code : Nat} (hop : a.op = 1) (hmay : MayWriteEntry r a row) (hn : row.ty.size = some a.body.length)
    (hx : r.writeScalar a.via a.port a.key (leNat a.body) = (code, x)) (hlate : x.answerLate a code = false) : Answers s x c a code [] := by
  obtain ⟨_, _, _, hrec⟩ := h.1.frame
  obtain ⟨hrow, hw, hm, hrws⟩ := hmay
  refine h.answers (Eq.trans (State.access_of_write hop hrec) ?_) hlate
  exact (State.accessWrite_of_passed hrow hw hm hrws hn).trans (by rw [hx])

theorem readStart_answers (hop : a.op = 2) (hmay : MayReadEntry r a row) (hty : row.ty = .domain) (hb : a.body = []) (hnone : r.od.transfers = [])
    (hne : r.odBytes (roleOf a.via) a.key ≠ []) :
    ∃ x : State, Answers s x c a 0 (leBytes 4 (r.odBytes (roleOf a.via) a.key).length) ∧ x.mem = s.mem ∧ x.halls = s.halls ∧
      x.odGet Od.odWriteSeq = r.odGet Od.odWriteSeq ∧
      x.od.transfers = [⟨a.via, a.key, false, (r.odBytes (roleOf a.via) a.key).length, r.odBytes (roleOf a.via) a.key, 0, s.epoch⟩] := by
  obtain ⟨hepoch, hmem, hhalls, hrec⟩ := h.1.frame
  refine ⟨_, h.answers (Eq.trans (State.access_of_op_readStart hrec hop)
    (State.accessReadStart_opens hmay hty hb hnone hne)) (State.answerLate_of_op (by omega) _ _), hmem, hhalls, rfl, ?_⟩
  rw [← hepoch]
  exact State.putTransfer_of_none (s := r.tick) hnone _

theorem writeStart_answers (hop : a.op = 3) (hmay : MayWriteEntry r a row) (hty : row.ty = .domain) (hb : a.body.length = 4)
    (hlen : domLenOk a.key (leNat a.body) = true) (hnone : r.od.transfers = []) (hkey : a.key ≠ Od.fwImage) (hn : leNat a.body ≠ 0) :
    ∃ x : State, Answers s x c a 0 [] ∧ x.mem = s.mem ∧ x.odGet Od.odWriteSeq = r.odGet Od.odWriteSeq ∧
      x.od.transfers = [⟨a.via, a.key, true, leNat a.body, [], 0, s.epoch⟩] := by
  obtain ⟨hepoch, hmem, _, hrec⟩ := h.1.frame
  refine ⟨_, h.answers (Eq.trans (State.access_of_op_writeStart hrec hop)
    (State.accessWriteStart_opens hmay hty hb hlen hnone hkey hn)) (State.answerLate_of_op (by omega) _ _), hmem, rfl, ?_⟩
  rw [← hepoch]
  exact State.putTransfer_of_none hnone _

section
variable {t : Transfer} (hop : a.op = 4) (hty : row.ty = .domain) (htr : r.od.transfers = [t]) (hvia : t.via = a.via) (hkey : t.key = a.key)
include hop hty htr hvia hkey

theorem writeSegment_answers (hrow : r.entryRow (roleOf a.via) a.key = some row) (hlen : 4 < a.body.length) (hlimit : a.body.length ≤ a.limit + 4)
    (hw : row.writable = true) (hmay : r.mayWrite (roleOf a.via) (a.key / 256) = true) (hwrite : t.isWrite = true)
    (htotal : leField a.body 0 4 + (a.body.length - 4) ≤ t.total) :
    (leField a.body 0 4 ≠ t.data.length → ∃ x : State, Answers s x c a 0x1122 [] ∧ x.od.transfers = [{ t with last := s.epoch }] ∧ x.mem = s.mem) ∧
    (leField a.body 0 4 = t.data.length → t.data.length + (a.body.length - 4) < t.total → t.key ≠ Od.fwImage →
      ∃ x : State, Answers s x c a 0 [] ∧ x.od.transfers = [{ t with last := s.epoch, data := t.data ++ a.body.drop 4 }] ∧ x.mem = s.mem) := by
  obtain ⟨hepoch, hmem, _, hrec⟩ := h.1.frame
  have hopen : r.transfer a.via a.key true = some t := State.transfer_of_single htr hvia hkey hwrite
  have hd : (a.body.drop 4).length = a.body.length - 4 := List.length_drop
  have hseg : r.access { a with level := level } none = r.writeSegment { a with level := level } row (leField a.body 0 4) (a.body.drop 4) :=
    Eq.trans (State.access_of_op_segment hrec hop) (State.accessSegment_of_data hrow hw hmay hty hlen)
  have hlate : ∀ (x : State) code, x.answerLate a code = false := State.answerLate_of_op (by omega)
  refine ⟨fun hoff => ⟨_, h.answers (hseg.trans (State.writeSegment_of_gap hopen (by simp only [hd]; omega) (by omega) hoff)) (hlate _ _), ?_, hmem⟩,
    fun hoff hmore hfw => ⟨_, h.answers
      (hseg.trans (State.writeSegment_of_next hopen (by simp only [hd]; omega) hoff (by omega) (by rwa [← hkey])))
      (hlate _ _), ?_, hmem⟩⟩
  · rw [← hepoch]
    exact State.putTransfer_of_single htr rfl rfl rfl
  · rw [← hepoch]
    exact State.putTransfer_of_single htr rfl rfl rfl

theorem readSegment_answers (hmay : MayReadEntry r a row) (hlen : a.body.length = 4) (hread : t.isWrite = false) (hreach : leField a.body 0 4 ≤ t.delivered)
    (htotal : leField a.body 0 4 < t.total) :
    ∃ x : State, Answers s x c a 0 ((t.data.drop (leField a.body 0 4)).take a.limit) ∧ x.mem = s.mem ∧
      x.od.transfers = [{ t with last := s.epoch, delivered := max t.delivered (leField a.body 0 4 + ((t.data.drop (leField a.body 0 4)).take a.limit).length) }] := by
  obtain ⟨hepoch, hmem, _, hrec⟩ := h.1.frame
  have hopen : r.transfer a.via a.key false = some t := State.transfer_of_single htr hvia hkey hread
  refine ⟨_, h.answers (Eq.trans (State.access_of_op_segment hrec hop)
    (Eq.trans (State.accessSegment_of_offset hmay hty hlen) (State.readSegment_of_reached hopen hreach htotal)))
    (State.answerLate_of_op (by omega) _ _), hmem, ?_⟩
  rw [← hepoch]
  exact State.putTransfer_of_single htr rfl rfl rfl

end

theorem abort_answers (hop : a.op = 5) (hrow : (r.entryRow (roleOf a.via) a.key).isSome = true) (hkey : a.key ≠ Od.fwImage) :
    ∃ x : State, Answers s x c a 0 [] ∧ x.mem = s.mem ∧ ∀ t, t ∈ x.od.transfers ↔ t ∈ r.od.transfers ∧ ¬ (t.via = a.via ∧ t.key = a.key) := by
  obtain ⟨_, hmem, _, hrec⟩ := h.1.frame
  refine ⟨_, h.answers (Eq.trans (State.access_of_op_abort hrec hop) (State.accessAbort_ends hrow hkey))
    (State.answerLate_of_op (by omega) _ _), hmem, fun t => ?_⟩
  exact (State.mem_endTransfers ..).trans (by simp)

end

theorem away_forwards {s r : State} {c : Instr} {a : Access} {dest down : Word64} (h : Brings s r c a) (ht : r.target a.path = .away dest down)
    (hmay : r.originMay a = true) (hlen : a.op = 4 → a.body.length ≤ min a.limit 4096 + 4) :
    ∃ x : State, exec c s = .next (x.sendFrame (x.mkFrame dest 0x02 0 0 0 r.od.nextProxy (0xC000 + a.op) (odRequestBytes down a.key a.body))) ∧
      x.od.proxies = r.od.proxies ++ [⟨r.od.nextProxy, a.origin, dest, a.op, a.key, s.epoch + ((pathHops a.path).getD []).length * (50 * oneMs)⟩] ∧
      x.mem = s.mem ∧ x.od.transfers = r.od.transfers := by
  obtain ⟨hepoch, hmem, _, _⟩ := h.frame
  refine ⟨_, h.exec.trans (congrArg _ (State.perform_of_away ht hmay h.1 hlen)), ?_, hmem, rfl⟩
  rw [← hepoch]
  rfl

/-- R53: a wait over the mailbox is answered at once, or waits. -/
theorem stateWait_answers {s : State} {q : MbReq} {level : Nat} (h : MailboxServes s 0xC006 q) (hrec : s.newel.recovery = false)
    (ht : s.target q.path = .here none false level) (hb : q.body.length = 3) (hms : leField q.body 1 2 ≤ 10000) (hnone : s.od.stateWait = none) :
    (leField q.body 0 1 = s.mode.code → exec (.odStateWait q) s = .next (s.mbDone (.od .mailbox 0 (s.odGet Od.odWriteSeq) (leBytes 1 s.mode.code)))) ∧
    (leField q.body 0 1 ≠ s.mode.code → leField q.body 1 2 ≠ 0 → ∃ t : State, exec (.odStateWait q) s = .next t ∧ t.out = s.out ∧
      t.od.stateWait = some ⟨.mailbox, leField q.body 0 1, s.epoch + leField q.body 1 2 * oneMs⟩) := by
  refine ⟨fun hm => ?_, fun hm hpos => ?_⟩
  · have hw := State.beginWait_of_held .mailbox hb hms hm
    rw [exec_odStateWait_of_here h hrec ht hnone (by rw [hw]), hw]
    rfl
  · have hw := State.beginWait_of_other .mailbox hb hms hm hpos hnone
    exact ⟨_, exec_odStateWait_of_here h hrec ht hnone (by rw [hw]), by rw [hw], by rw [hw]⟩

/-- Settles O39: what brings an access makes it, and each operation by the lemma on what it does. -/
theorem mailboxAccesses : Obligations.MailboxAccesses := by
  refine ⟨fun s q c hc hport hr => ?_, fun s q c op hc hport hr => ?_, fun s r c a level n row h hop hmay hn hb => read_answers h hop hmay hn hb,
    fun s r c a level row h hop hmay hn => ⟨fun x hx hlate => write_answers h hop hmay hn hx ?_, fun hv => write_answers h hop hmay hn ?_ ?_⟩,
    fun s k v via port r hr => ?_,
    fun s r c a level row h hop hmay hty hb hnone hne => readStart_answers h hop hmay hty hb hnone hne,
    fun s r c a level row h hop hmay hty hb hlen hnone hkey hn => writeStart_answers h hop hmay hty hb hlen hnone hkey hn,
    fun s r c a level row t h hop hrow hty hlen hlimit hw hmay htr hvia hkey hwrite htotal =>
      writeSegment_answers h hop hty htr hvia hkey hrow hlen hlimit hw hmay hwrite htotal,
    fun s r c a level row t h hop hmay hty hlen htr hvia hkey hread hreach htotal =>
      readSegment_answers h hop hty htr hvia hkey hmay hlen hread hreach htotal,
    fun s r c a level h hop hrow hkey => abort_answers h hop hrow hkey, fun s r c a h hbad => h.answers_bad_path hbad,
    fun s r c a dest down h ht hmay hlen => away_forwards h ht hmay hlen,
    fun s q level h hrec ht hb hms hnone => stateWait_answers h hrec ht hb hms hnone, fun s w hw => ?_,
    fun s via index sub t h hvia hkey hfw => exec_domainAborted_of_single h hvia hkey hfw⟩
  · obtain ⟨op, f, he⟩ := exec_of_mailbox_row hc s
    rw [he, State.odMailbox_of_restarting hport op f hr]
  · obtain ⟨f, he⟩ := exec_of_mailbox_opcode hc s
    exact ⟨fun hne => by rw [he, State.odMailbox_of_other_opcode hport _ f hr hne],
      fun hop hlen => by rw [he, State.odMailbox_of_malformed hport _ f hr hop hlen]⟩
  · by_cases hkey : a.key = Od.xlateInvalidate
    · simp [State.answerLate, hlate hkey]
    · exact State.answerLate_of_key hkey _ _
  · simp [State.writeScalar, hv]
  · exact State.answerLate_of_refusal (by decide) _ _
  · obtain ⟨x, hx, rfl⟩ := State.writeScalar_commits hr
    refine ⟨x, hx, ?_⟩
    rw [State.odGet, State.sendConfig_od]
    exact x.odGet_count_self _ _
  · exact ⟨_, by rw [exec_stateWaitTimeout, hw, Option.isSome_some, if_pos rfl], State.endStateWait_ends hw⟩

end Sys2Proof.Machine
end

section
/-!
SUPPORT. What ends a proxy, what brings EOP across, the record of EOP's sequences (R60), and the statement on proxies, foreign requests and EOP's checks.
-/

namespace Sys2Proof.Machine

/-! ### Fields of bytes -/

@[simp] theorem length_leBytes (n v : Nat) : (leBytes n v).length = n := by
  induction n generalizing v with
  | zero => rfl
  | succ n ih => simp [leBytes, ih]

@[simp] theorem length_zeros (n : Nat) : (zeros n).length = n := List.length_replicate

/-- R29: a number read back from as many bytes as hold it. -/
theorem leNat_leBytes {n v : Nat} (h : v < 256 ^ n) : leNat (leBytes n v) = v := by
  induction n generalizing v with
  | zero => exact (Nat.lt_one_iff.1 h).symm
  | succ n ih =>
    have hq : v / 256 < 256 ^ n := Nat.div_lt_of_lt_mul (by rwa [← pow_succ'])
    simp only [leBytes, leNat, ih hq, BitVec.toNat_ofNat]
    omega

/-- A field read from where its bytes stand. -/
theorem leField_append {b c : Bytes} {off n : Nat} (hb : b.length = off) (hc : c.length = n) (d : Bytes) : leField (b ++ (c ++ d)) off n = leNat c := by
  subst hb hc
  simp [leField]

/-! ### OD responses (R52, R54) -/

/-- R52: a response's payload spells its status, its length, its sequence and its bytes. -/
theorem odPayload_fields {status seq : Nat} {b : Bytes} (hs : status < 65536) (hq : seq < 2 ^ 64) (hb : b.length ≤ 16384) :
    leField (odPayload status seq b) 0 2 = status ∧ leField (odPayload status seq b) 4 4 = b.length ∧ leField (odPayload status seq b) 8 8 = seq ∧
      (odPayload status seq b).length = b.length + 16 ∧ (odPayload status seq b).drop 16 = b := by
  have h0 : odPayload status seq b = [] ++ (leBytes 2 status ++ (zeros 2 ++ leBytes 4 b.length ++ leBytes 8 seq ++ b)) := by simp [odPayload]
  have h4 : odPayload status seq b = (leBytes 2 status ++ zeros 2) ++ (leBytes 4 b.length ++ (leBytes 8 seq ++ b)) := by simp [odPayload]
  have h8 : odPayload status seq b = (leBytes 2 status ++ zeros 2 ++ leBytes 4 b.length) ++ (leBytes 8 seq ++ b) := by simp [odPayload]
  refine ⟨?_, ?_, ?_, ?_, List.drop_left' (by simp)⟩
  · rw [h0, leField_append List.length_nil (length_leBytes ..), leNat_leBytes (by omega)]
  · rw [h4, leField_append (by simp) (length_leBytes ..), leNat_leBytes (by omega)]
  · rw [h8, leField_append (by simp) (length_leBytes ..), leNat_leBytes (by omega)]
  · simp only [odPayload, List.length_append, length_leBytes, length_zeros]
    omega

/-- R46, R48: the state in which a proxy waits no more. -/
def State.dropProxy (s : State) (id : Nat) : State := { s with od := { s.od with proxies := s.od.proxies.filter (fun x => x.id != id) } }

theorem State.dropProxy_proxies {s : State} {p : Proxy} (h : s.od.proxies = [p]) : (s.dropProxy p.id).od.proxies = [] := by
  simp [State.dropProxy, h]

/-- R42, R48: the originator of a proxy is answered; an answer within the limit of every path goes back whole. -/
theorem State.endProxy_of_short {p : Proxy} {b : Bytes} (hb : p.opcode = 4 → b.length ≤ 1024) (s : State) (status seq : Nat) :
    s.endProxy p status seq b = (s.dropProxy p.id).respond p.origin p.opcode p.key status seq b := by
  have hseg : (if p.opcode = 4 then p.origin.segment b else b) = b := by
    split
    · rename_i h4
      cases p.origin with
      | eop addr udp opcode n path => exact List.take_of_length_le (hb h4)
      | mailbox => rfl
      | arcade src tag opcode => rfl
      | via _ => rfl
    · rfl
  rw [State.endProxy, hseg]
  rfl

section
variable {f : Frame} {s : State} (hok : archOk f.arch = true) (hup : (s.arch f.arch).up = true) (hvc : f.vc = 0) (hmine : s.mine f.dest = true)
include hok hup hvc hmine

theorem exec_odRequest_of_mine (opcode : Nat) {q : Bytes} (hq : q.length ≤ 16400) :
    exec (.odRequest f opcode q) s = .next (s.takeOdRequest { f with index := opcode, payload := q, ftype := 0x02 }) :=
  State.frameRow_of_mine (f := { f with index := opcode, payload := q }) (t := 2) (by decide) hok hup (by rw [hvc]; rfl) hq hmine

theorem exec_odResponse_of_mine (id status seq : Nat) {v : Bytes} (hv : v.length ≤ 16384) :
    exec (.odResponse f id status v seq) s = .next (s.takeOdResponse { f with tag := id, payload := odPayload status seq v, ftype := 0x03 }) := by
  refine State.frameRow_of_mine (f := { f with tag := id, payload := odPayload status seq v }) (t := 3) (by decide) hok hup (by rw [hvc]; rfl) ?_ hmine
  simp only [odPayload, List.length_append, length_leBytes, length_zeros]
  omega

end

/-- R54: a response completes the access that waits for it under its TAG and sender. -/
theorem State.takeOdResponse_of_proxy {s : State} {f : Frame} {p : Proxy} {status seq : Nat} {v : Bytes} (hp : s.od.proxies = [p]) (hid : p.id = f.tag)
    (hdest : p.dest = f.src) (hf : f.payload = odPayload status seq v) (hs : status < 65536) (hq : seq < 2 ^ 64) (hv : v.length ≤ 16384)
    (hseg : p.opcode = 4 → v.length ≤ 1024) :
    s.takeOdResponse f = (s.dropProxy p.id).respond p.origin p.opcode p.key status seq v := by
  obtain ⟨hstatus, hlen, hseq, hlength, hdrop⟩ := odPayload_fields hs hq hv
  have hfind : s.od.proxies.find? (fun p => p.id == f.tag && p.dest == f.src) = some p := by simp [hp, hid, hdest]
  simp only [State.takeOdResponse, hfind, hf]
  rw [if_neg (by omega), hstatus, hseq, hdrop, State.endProxy_of_short hseg]

theorem State.takeOdResponse_of_none {s : State} {f : Frame} (h : ∀ p ∈ s.od.proxies, p.id ≠ f.tag ∨ p.dest ≠ f.src) : s.takeOdResponse f = s := by
  have hfind : s.od.proxies.find? (fun p => p.id == f.tag && p.dest == f.src) = none := by
    rw [List.find?_eq_none]
    intro p hp
    simpa [imp_iff_not_or] using h p hp
  simp only [State.takeOdResponse, hfind]

theorem exec_proxyTimeout (id : Nat) (s : State) : exec (.proxyTimeout id) s = execProxyTimeout id s := by rfl

/-- R48, R49: after its time an access is answered for the module that it went to. -/
theorem exec_proxyTimeout_of_proxy {s : State} {p : Proxy} (hp : s.od.proxies = [p]) :
    exec (.proxyTimeout p.id) s = .next ((s.dropProxy p.id).respond p.origin p.opcode p.key (if s.inGallery p.dest then 0x5102 else 0x5101)
      (s.odGet Od.odWriteSeq) []) := by
  have hfind : s.od.proxies.find? (fun x => x.id == p.id) = some p := by simp [hp]
  simp only [exec_proxyTimeout, execProxyTimeout, hfind]
  rw [State.endProxy_of_short (fun _ => Nat.zero_le _)]

/-! ### EOP across the Balustrade (R55) -/

theorem exec_eopDatagram (d : Datagram) (s : State) : exec (.eopDatagram d) s = execEopDatagram d s := by rfl

section
variable {d : Datagram} {s : State} (hport : portOk d.port = true)
include hport

theorem exec_eopDatagram_of_other (h : s.eopArrives d = false) : exec (.eopDatagram d) s = .next s := by
  simp [exec_eopDatagram, execEopDatagram, hport, h]

theorem exec_eopDatagram_of_malformed (h : s.eopArrives d = true) (hlen : d.payload.length < 40 ∨ 1186 < d.payload.length) :
    exec (.eopDatagram d) s = .next (s.count Od.eopFormatDrops 1) := by
  simp [exec_eopDatagram, execEopDatagram, hport, h, hlen]

theorem exec_eopDatagram_crosses (h : s.eopArrives d = true) (hmin : 40 ≤ d.payload.length) (hmax : d.payload.length ≤ 1186) :
    exec (.eopDatagram d) s = .next (s.balSend 0x02 (beBytes 16 d.srcAddr.toNat ++ leBytes 2 d.srcPort ++ zeros 6 ++ d.payload)) := by
  simp [exec_eopDatagram, execEopDatagram, hport, h, hmin, hmax]

end

/-! ### The five checks (R59) -/

section
variable {s : State} {b : Bytes} {sig : Bool} (hform : eopFormOk b = true)

theorem State.eopCheck_of_form (h : eopFormOk b = false) : s.eopCheck b sig = (false, s.count Od.eopFormatDrops 1) := by simp [State.eopCheck, h]

include hform

theorem State.eopCheck_of_auth (h : s.eopAuthOk (eopHdr b) sig = false) : s.eopCheck b sig = (false, s.count Od.eopAuthDrops 1) := by
  simp [State.eopCheck, hform, h]

theorem State.eopCheck_of_stale (hauth : s.eopAuthOk (eopHdr b) sig = true) (h : s.eopFresh (eopHdr b) = false) :
    s.eopCheck b sig = (false, s.count Od.eopStaleDrops 1) := by simp [State.eopCheck, hform, hauth, h]

theorem State.eopCheck_of_replay (hauth : s.eopAuthOk (eopHdr b) sig = true) (hfresh : s.eopFresh (eopHdr b) = true)
    (h : s.eopSeqOk (eopHdr b).key (eopHdr b).seq = false) : s.eopCheck b sig = (false, s.count Od.eopReplayDrops 1) := by
  simp [State.eopCheck, hform, hauth, hfresh, h]

end

/-- R59: a request that a check discards goes no further. -/
theorem State.eopRow_of_failed {s r : State} {d : Datagram} {op : Nat} (hqueue : s.eop.queue = []) (harr : s.eopArrives d = true) (hserved : s.eopServed = true)
    (hop : eopFormOk d.payload = true → (eopHdr d.payload).op = op) (h : s.eopCheck d.payload d.sigOk = (false, r)) : s.eopRow op d = r := by
  have hform : (eopFormOk d.payload && (eopHdr d.payload).op != op) = false := by
    cases hf : eopFormOk d.payload with
    | false => rfl
    | true => simp [hop hf]
  simp [State.eopRow, hqueue, harr, hserved, hform, h]

/-! ### The record of sequences (R60) -/

/-- A bit that is clear, set: it rises, and the others stay. -/
theorem bit_setBit_true (v k j : Nat) : bit (setBit v k true) j = if j = k then true else bit v j := by
  by_cases h : bit v k = true
  · rw [setBit, if_pos h, if_pos rfl]
    split
    · rename_i hj
      rw [hj, h]
    · rfl
  · have heven : v / 2 ^ k % 2 = 0 := by
      have h1 : v / 2 ^ k % 2 ≠ 1 := by simpa [bit] using h
      omega
    have hlt : v % 2 ^ k < 2 ^ k := Nat.mod_lt _ (by positivity)
    have hv : v = 2 ^ k * (v / 2 ^ k) + v % 2 ^ k := (Nat.div_add_mod v (2 ^ k)).symm
    have hset : setBit v k true = 2 ^ k * (v / 2 ^ k + 1) + v % 2 ^ k := by
      rw [setBit, if_neg h, if_pos rfl, Nat.mul_succ, Nat.add_right_comm, Nat.div_add_mod]
    rw [bit_eq_testBit, bit_eq_testBit, hset, Nat.testBit_two_pow_mul_add _ hlt]
    conv_rhs => rw [hv, Nat.testBit_two_pow_mul_add _ hlt]
    rcases lt_trichotomy j k with hj | rfl | hj
    · simp [hj, hj.ne]
    · rw [if_neg (lt_irrefl j), if_pos rfl, Nat.sub_self, Nat.testBit_zero, decide_eq_true_eq]
      omega
    · obtain ⟨i, hi⟩ : ∃ i, j - k = i + 1 := ⟨j - k - 1, by omega⟩
      rw [if_neg (by omega), if_neg (by omega), if_neg (by omega), hi, Nat.testBit_succ, Nat.testBit_succ]
      generalize v / 2 ^ k = q at heven
      congr 1
      omega

/-- A record shifted up by d places, with a bit set at its foot. -/
theorem bit_shifted {d i : Nat} (seen : Nat) (hd : 1 ≤ d) (hi : i < 64) :
    bit ((seen * 2 ^ d) % 2 ^ 64 + 1) i = if i = 0 then true else decide (d ≤ i) && bit seen (i - d) := by
  have heven : (seen * 2 ^ d) % 2 ^ 64 % 2 = 0 := by
    obtain ⟨e, rfl⟩ : ∃ e, d = e + 1 := ⟨d - 1, by omega⟩
    rw [pow_succ, ← mul_assoc]
    omega
  rw [bit_eq_testBit, bit_eq_testBit]
  cases i with
  | zero =>
    rw [if_pos rfl, Nat.testBit_zero, decide_eq_true_eq]
    omega
  | succ i =>
    have hhalf : ((seen * 2 ^ d) % 2 ^ 64 + 1) / 2 = (seen * 2 ^ d) % 2 ^ 64 / 2 := by omega
    rw [if_neg (Nat.succ_ne_zero i), Nat.testBit_succ, hhalf, ← Nat.testBit_succ, Nat.testBit_mod_two_pow, Nat.testBit_mul_two_pow]
    simp [hi]

/-- R60: the record of 64 sequences once one more has been accepted. -/
def eopRecord (high seen seq : Nat) : Nat :=
  if high < seq then (if 64 ≤ seq - high then 1 else (seen * 2 ^ (seq - high)) % 2 ^ 64 + 1) else setBit seen (high - seq) true

@[simp] theorem State.eopHigh_eopAccept (s : State) (key seq : Nat) : (s.eopAccept key seq).eopHigh key = max (s.eopHigh key) seq :=
  kget_kset_self 4096 key _ s.eop.high

@[simp] theorem State.eopSeen_eopAccept (s : State) (key seq : Nat) :
    (s.eopAccept key seq).eopSeen key = eopRecord (s.eopHigh key) (s.eopSeen key) seq := kget_kset_self (2 ^ 64 - 1) key _ s.eop.seen

/-- R60: a sequence is refused when it lies 64 or more below the highest, or is recorded. -/
theorem State.eopSeqOk_eq_false (s : State) (key seq : Nat) :
    s.eopSeqOk key seq = false ↔ seq ≤ s.eopHigh key ∧ (seq + 64 ≤ s.eopHigh key ∨ bit (s.eopSeen key) (s.eopHigh key - seq) = true) := by
  simp only [State.eopSeqOk, Bool.or_eq_false_iff, Bool.and_eq_false_iff, decide_eq_false_iff_not, Bool.not_eq_false', not_lt]

/-- R60: the sequence that has been accepted is recorded. -/
theorem eopRecord_self (high seen seq : Nat) : bit (eopRecord high seen seq) (max high seq - seq) = true := by
  unfold eopRecord
  split
  · rename_i h
    rw [Nat.max_eq_right h.le, Nat.sub_self]
    split
    · rfl
    · rw [bit_shifted seen (by omega) (by omega), if_pos rfl]
  · rename_i h
    rw [Nat.max_eq_left (not_lt.1 h), bit_setBit_true, if_pos rfl]

/-- R60: what was recorded stays so while it lies within the 64. -/
theorem eopRecord_keeps {high seen seq j : Nat} (hj : j ≤ high) (hseen : bit seen (high - j) = true) (hwin : max high seq < j + 64) :
    bit (eopRecord high seen seq) (max high seq - j) = true := by
  unfold eopRecord
  split
  · rename_i h
    rw [Nat.max_eq_right h.le] at hwin ⊢
    rw [if_neg (by omega), bit_shifted seen (by omega) (by omega), if_neg (by omega)]
    have hplace : seq - j - (seq - high) = high - j := by omega
    rw [hplace, hseen, decide_eq_true (by omega), Bool.and_self]
  · rename_i h
    rw [Nat.max_eq_left (not_lt.1 h), bit_setBit_true, hseen, ite_self]

/-- R60: an accepted sequence is a replay from then on, and so is what was one before. -/
theorem State.eopAccept_refuses (s : State) (key seq : Nat) :
    (s.eopAccept key seq).eopSeqOk key seq = false ∧
      ∀ j, j ≤ seq → s.eopSeqOk key j = false → (s.eopAccept key seq).eopSeqOk key j = false := by
  simp only [State.eopSeqOk_eq_false, State.eopHigh_eopAccept, State.eopSeen_eopAccept]
  refine ⟨⟨le_max_right .., Or.inr (eopRecord_self ..)⟩, ?_⟩
  rintro j - ⟨hj, hold⟩
  refine ⟨le_max_of_le_left hj, ?_⟩
  by_cases hwin : max (s.eopHigh key) seq < j + 64
  · have hseen := hold.resolve_left (by omega)
    exact Or.inr (eopRecord_keeps hj hseen hwin)
  · exact Or.inl (not_lt.1 hwin)

/-! ### The statement -/

/-- Settles O40: frames by the lemma on what is delivered, EOP's checks in their order, and its record by what an acceptance leaves in it. -/
theorem arcadeAndEopAccesses : Obligations.ArcadeAndEopAccesses := by
  refine ⟨fun f opcode q s hok hup hvc hq hmine => ⟨fun hr => ?_, fun hr hman => ?_⟩,
    fun f id status seq v s p hok hup hvc hv hmine hs hq hp hid hdest hseg => ?_, fun f id status seq v s hok hup hvc hv hmine h => ?_,
    fun id s p hp hid => ?_, fun d s hport h hmin hmax => ?_, fun d s hport h => exec_eopDatagram_of_other hport h,
    fun d s hport h hlen => exec_eopDatagram_of_malformed hport h hlen,
    fun b sig s => ⟨State.eopCheck_of_form, State.eopCheck_of_auth, State.eopCheck_of_stale, State.eopCheck_of_replay⟩,
    fun s key seq _ => s.eopAccept_refuses key seq, ?_⟩
  · rw [exec_odRequest_of_mine hok hup hvc hmine opcode hq, State.takeOdRequest, if_pos hr]
  · rw [exec_odRequest_of_mine hok hup hvc hmine opcode hq, State.takeOdRequest, if_neg (by simp [hr]), if_pos (by simp [hman])]
  · refine ⟨s.dropProxy p.id, ?_, State.dropProxy_proxies hp, rfl, rfl⟩
    rw [exec_odResponse_of_mine hok hup hvc hmine id status seq hv]
    exact congrArg _ (State.takeOdResponse_of_proxy hp hid hdest rfl hs hq hv hseg)
  · rw [exec_odResponse_of_mine hok hup hvc hmine id status seq hv, State.takeOdResponse_of_none h]
  · subst hid
    exact ⟨s.dropProxy p.id, exec_proxyTimeout_of_proxy hp, State.dropProxy_proxies hp, rfl, rfl⟩
  · rw [exec_eopDatagram_crosses hport h hmin hmax, State.balSend_of_management (k := 2) rfl (by decide)]
    exact ⟨_, rfl, rfl, by simp [State.emit], rfl, rfl, rfl, rfl⟩
  · rintro c d s op h5 rfl hport hqueue harr hserved hop r hr
    rw [exec_eopCommand h5 hport, State.eopRow_of_failed hqueue harr hserved hop hr]

end Sys2Proof.Machine
end

section
/-!
SUPPORT. What messages of the Balustrade do once they have passed their checks (R450 to R453, R461, R470, R472), and the statement on them.
-/

namespace Sys2Proof.Machine

/-! ### A message that has passed its checks (R470, R471) -/

/-- What the Foyer holds is the same but for its channels and its time inputs. -/
structure FoyerKept (f g : FoyerSt) : Prop where
  view : g.view = f.view
  cells : g.cells = f.cells
  applied : g.applied = f.applied
  fwTaken : g.fwTaken = f.fwTaken
  heartbeat : g.heartbeat = f.heartbeat

theorem FoyerKept.refl (f : FoyerSt) : FoyerKept f f := ⟨rfl, rfl, rfl, rfl, rfl⟩

theorem FoyerKept.step {f g h : FoyerSt} (hfg : FoyerKept f g) (hgh : FoyerKept g h) : FoyerKept f h :=
  ⟨hgh.view.trans hfg.view, hgh.cells.trans hfg.cells, hgh.applied.trans hfg.applied, hgh.fwTaken.trans hfg.fwTaken, hgh.heartbeat.trans hfg.heartbeat⟩

theorem FoyerSt.dequeue_kept (f : FoyerSt) (k : Nat) (m : BalMsg) : FoyerKept f (f.dequeue k m) := by
  unfold FoyerSt.dequeue
  extract_lets p
  split
  · exact ⟨rfl, rfl, rfl, rfl, rfl⟩
  · split <;> exact ⟨rfl, rfl, rfl, rfl, rfl⟩

theorem FoyerSt.follow_kept (f : FoyerSt) (k seq : Nat) : FoyerKept f (f.follow k seq) := by
  unfold FoyerSt.follow
  generalize List.isEmpty _ = empty
  cases empty <;> exact ⟨rfl, rfl, rfl, rfl, rfl⟩

/-- The checks of a message that is taken change the Foyer's channels alone. -/
structure Taken (s u : State) : Prop where
  rest : u = { s with foyer := u.foyer }
  kept : FoyerKept s.foyer u.foyer

theorem State.balTake_taken {s u : State} {typ : Nat} {m : BalMsg} (h : s.balTake typ m = (true, u)) : Taken s u := by
  unfold State.balTake at h
  split at h
  · cases h
  · rename_i k _
    split at h
    · cases h
    · extract_lets dequeued prev f followed n at h
      have hf : FoyerKept s.foyer f := (s.foyer.dequeue_kept k m).step (FoyerSt.follow_kept _ k m.seq)
      split at h
      · cases h
      · split at h
        · cases h
        · split at h
          · cases h
          · split at h
            · cases h
            · obtain rfl := (Prod.ext_iff.1 h).2
              exact ⟨rfl, hf.view, hf.cells, hf.applied, hf.fwTaken, hf.heartbeat⟩

section
variable {s u : State} (h : Taken s u)
include h

theorem Taken.od : u.od = s.od := by rw [h.rest]
theorem Taken.eop : u.eop = s.eop := by rw [h.rest]
theorem Taken.epoch : u.epoch = s.epoch := by rw [h.rest]
theorem Taken.mode : u.mode = s.mode := by rw [h.rest]
theorem Taken.halls : u.halls = s.halls := by rw [h.rest]
theorem Taken.odGet (k : Nat) : u.odGet k = s.odGet k := by rw [State.odGet, State.odGet, h.od]
theorem Taken.foyerRuns : u.foyerRuns = s.foyerRuns := by rw [State.foyerRuns, State.foyerRuns, h.mode, h.odGet]
theorem Taken.fval (k : Nat) : u.fval k = s.fval k := by rw [State.fval, State.fval, h.kept.applied]
theorem Taken.configBytes (k : Nat) : u.configBytes k = s.configBytes k := by
  simp only [State.configBytes, State.odGet, State.domGet, h.od]

theorem Taken.eopPort : u.eopPort = s.eopPort := by
  rw [h.rest]
  rfl

end

/-! ### The clocks that a change of PTP_STATE reaches (R472, R503, R504) -/

/-- The entries that a source that is lost writes. -/
def clockEntries : List Nat := Od.freqSource :: Od.freqSwitches :: Od.tbState :: Od.holdoverEntries :: logEntries

/-- Two states differ at most in the clocks, the log and the entries above. -/
structure ClockFrame (s t : State) : Prop where
  epoch : t.epoch = s.epoch
  mode : t.mode = s.mode
  halls : t.halls = s.halls
  foyer : t.foyer = s.foyer
  od : OdFrame clockEntries s t

theorem ClockFrame.refl (s : State) : ClockFrame s s := ⟨rfl, rfl, rfl, rfl, .refl _ s⟩

theorem ClockFrame.step {s t u : State} (h : ClockFrame s t) (h' : ClockFrame t u) : ClockFrame s u :=
  ⟨h'.epoch.trans h.epoch, h'.mode.trans h.mode, h'.halls.trans h.halls, h'.foyer.trans h.foyer, h.od.step h'.od⟩

theorem LogFrame.clock {s t : State} (h : LogFrame s t) (hod : OdFrame clockEntries s t) : ClockFrame s t := ⟨h.epoch, h.mode, h.halls, h.foyer, hod⟩

theorem State.odPut_clockFrame (s : State) {k : Nat} (hk : k ∈ clockEntries) (v : Nat) : ClockFrame s (s.odPut k v) :=
  (s.odPut_frame k v).clock (s.odPut_odFrame hk v)

theorem State.count_clockFrame (s : State) {k : Nat} (hk : k ∈ clockEntries) (n : Nat) : ClockFrame s (s.count k n) :=
  s.odPut_clockFrame hk _

theorem State.logEv_clockFrame (s : State) (ev : LogEv) (extra : Nat) : ClockFrame s (s.logEv ev extra) :=
  (s.logEv_frame ev extra).clock ((s.logEv_odFrame ev extra).mono (by decide))

/-- An update of the clocks alone. -/
theorem ClockFrame.of_power (s : State) (p : PowerSt) : ClockFrame s { s with power := p } := ⟨rfl, rfl, rfl, rfl, .of_od _ rfl⟩

theorem State.switchFreq_clockFrame (s : State) : ClockFrame s s.switchFreq := by
  unfold State.switchFreq
  extract_lets c u
  have hu : ClockFrame s u := ((s.odPut_clockFrame (by decide) c).step (State.count_clockFrame _ (by decide) 1)).step (State.logEv_clockFrame _ _ 0)
  split
  · exact .refl s
  · exact hu.step (.of_power u _)

theorem State.freqUnusable_clockFrame (s : State) (c : Nat) : ClockFrame s (s.freqUnusable c) :=
  (ClockFrame.of_power s _).step (State.switchFreq_clockFrame _)

theorem State.holdover_clockFrame (s : State) : ClockFrame s s.holdover :=
  (((ClockFrame.of_power s _).step (State.odPut_clockFrame _ (by decide) 3)).step (State.count_clockFrame _ (by decide) 1)).step
    (State.logEv_clockFrame _ _ 0)

theorem State.sourceLost_clockFrame (s : State) (pps : Bool) : ClockFrame s (s.sourceLost pps) := by
  unfold State.sourceLost
  extract_lets src
  split
  · exact s.holdover_clockFrame
  · exact .refl s

/-- R472, R504: beyond PTP_STATE, its change reaches the clocks alone. -/
theorem State.setPtp_clockFrame (s : State) (st : Nat) : ClockFrame (s.odPut Od.ptpState st) (s.setPtp st) := by
  unfold State.setPtp
  extract_lets was u
  split
  · exact (u.freqUnusable_clockFrame 5).step (State.sourceLost_clockFrame _ false)
  · exact .refl u

@[simp] theorem State.setPtp_foyer (s : State) (st : Nat) : (s.setPtp st).foyer = s.foyer := (s.setPtp_clockFrame st).foyer
@[simp] theorem State.setPtp_halls (s : State) (st : Nat) : (s.setPtp st).halls = s.halls := (s.setPtp_clockFrame st).halls

theorem State.setPtp_ptpState (s : State) (st : Nat) : (s.setPtp st).odGet Od.ptpState = st := by
  rw [(s.setPtp_clockFrame st).od.same _ (by decide), State.odGet_odPut_self]

theorem State.setPtp_odGet (s : State) (st : Nat) {k : Nat} (hk : k ∉ Od.ptpState :: clockEntries) : (s.setPtp st).odGet k = s.odGet k := by
  obtain ⟨hp, hc⟩ := not_or.1 (List.mem_cons.not.1 hk)
  rw [(s.setPtp_clockFrame st).od.same k hc, State.odGet_odPut_ne _ hp]

/-! ### EOP requests and responses (R55, R59) -/

/-- R59: an EOP request joins Newel's queue. -/
def State.eopJoin (s : State) (m : BalMsg) : State :=
  { s with eop := { s.eop with queue := s.eop.queue ++ [⟨2, BitVec.ofNat 128 (beField m.body 0 16), leField m.body 16 2, m.body.drop 24⟩] } }

theorem exec_eopReq {m : BalMsg} {s u : State} (h : s.balTake 0x02 m = (true, u)) (hres : leField m.body 18 6 = 0) (sig : Bool) :
    exec (.eopReq m sig) s = .next (if u.eopServed then
      (if (u.eopCheck (m.body.drop 24) sig).1 then (u.eopCheck (m.body.drop 24) sig).2.eopJoin m else (u.eopCheck (m.body.drop 24) sig).2) else u) := by
  have he : exec (.eopReq m sig) s = execEopReq m sig s := by rfl
  rw [he, execEopReq, h]
  simp only [hres, Bool.not_true, Bool.false_eq_true, if_false, ne_eq, not_true_eq_false]
  cases u.eopServed with
  | false => rfl
  | true => cases (u.eopCheck (m.body.drop 24) sig).1 <;> rfl

/-- R59: no check touches the queue. -/
theorem State.eopCheck_queue (s : State) (b : Bytes) (sig : Bool) : (s.eopCheck b sig).2.eop.queue = s.eop.queue := by
  unfold State.eopCheck
  extract_lets hd u
  split
  · rfl
  · split
    · rfl
    · split
      · rfl
      · split
        · rfl
        · split <;> rfl

/-- R55, R470: a response leaves from the port that EOP has, where the Foyer runs. -/
theorem exec_eopResp {m : BalMsg} {s u : State} (h : s.balTake 0x82 m = (true, u)) :
    exec (.eopResp m) s = .next (if s.foyerRuns then
      (match s.eopPort with
        | none => u
        | some p => u.emit (.datagram p (BitVec.ofNat 128 (beField m.body 0 16)) (leField m.body 16 2) (m.body.drop 24))) else u) := by
  have he : exec (.eopResp m) s = execEopResp m s := by rfl
  have ht := State.balTake_taken h
  rw [he, execEopResp, h, ← ht.foyerRuns, ← ht.eopPort]
  simp only [Bool.not_true, Bool.false_or]
  cases u.foyerRuns with
  | false => rfl
  | true => cases u.eopPort <;> rfl

/-! ### Reports and events (R461, R470, R503) -/

/-- R470, R503: the offset, and the frequency of the port that the timebase follows, as a TIME_REPORT gives them. -/
def State.reported (s : State) (m : BalMsg) : State :=
  if s.odGet Od.freqSource = 1 ∨ s.odGet Od.freqSource = 2 then
    (s.odPut Od.ptpOffsetNs (leField m.body 0 4)).odPut Od.freqErrorPpb (leField m.body (4 + 4 * s.odGet Od.freqSource) 4)
  else s.odPut Od.ptpOffsetNs (leField m.body 0 4)

theorem State.reported_rest (s : State) (m : BalMsg) : s.reported m = { s with od := (s.reported m).od } := by
  unfold State.reported
  split <;> rfl

theorem State.reported_offset (s : State) (m : BalMsg) : (s.reported m).odGet Od.ptpOffsetNs = leField m.body 0 4 := by
  unfold State.reported
  split
  · rw [State.odGet_odPut_ne _ (by decide), State.odGet_odPut_self]
  · exact State.odGet_odPut_self ..

theorem State.reported_frequency {s : State} {n : Nat} (h : s.odGet Od.freqSource = n) (hn : n = 1 ∨ n = 2) (m : BalMsg) :
    (s.reported m).odGet Od.freqErrorPpb = leField m.body (4 + 4 * n) 4 := by
  rw [State.reported, h, if_pos hn]
  exact State.odGet_odPut_self ..

/-- R470: beyond that, a TIME_REPORT gives the last 1PPS edge. -/
theorem exec_timeReport {m : BalMsg} {s u : State} (h : s.balTake 0x03 m = (true, u)) :
    ∃ t : State, exec (.timeReport m) s = .next t ∧ t = { u.reported m with od := t.od } ∧ OdFrame [Od.ppsInOffsetNs] (u.reported m) t := by
  have he : exec (.timeReport m) s = execTimeReport m s := by rfl
  have hsrc : (u.odPut Od.ptpOffsetNs (leField m.body 0 4)).odGet Od.freqSource = u.odGet Od.freqSource := State.odGet_odPut_ne _ (by decide) _
  rw [he, execTimeReport, h]
  simp only [Bool.not_true, Bool.false_eq_true, if_false, hsrc]
  change ∃ t : State, (if (u.reported m).odGet Od.ppsInState = 2 then .next ((u.reported m).odPut Od.ppsInOffsetNs _) else .next (u.reported m)) =
    Host.Outcome.next t ∧ _
  split
  · exact ⟨_, rfl, rfl, State.odPut_odFrame _ List.mem_cons_self _⟩
  · exact ⟨_, rfl, rfl, .refl _ _⟩

theorem timeReport_gives {m : BalMsg} {s u : State} (h : s.balTake 0x03 m = (true, u)) :
    ∃ t : State, exec (.timeReport m) s = .next t ∧ t.odGet Od.ptpOffsetNs = leField m.body 0 4 ∧ t = { u with od := t.od } ∧
      (s.odGet Od.freqSource = 1 → t.odGet Od.freqErrorPpb = leField m.body 8 4) ∧ (s.odGet Od.freqSource = 2 → t.odGet Od.freqErrorPpb = leField m.body 12 4) := by
  obtain ⟨t, ht, hrest, hod⟩ := exec_timeReport h
  have hu := State.balTake_taken h
  refine ⟨t, ht, ?_, ?_, fun hsrc => ?_, fun hsrc => ?_⟩
  · rw [hod.same _ (by decide), State.reported_offset]
  · rw [hrest, State.reported_rest]
  · rw [hod.same _ (by decide), State.reported_frequency ((hu.odGet _).trans hsrc) (Or.inl rfl)]
  · rw [hod.same _ (by decide), State.reported_frequency ((hu.odGet _).trans hsrc) (Or.inr rfl)]

/-- R485: limited events in one moment change the log, and what a record writes. -/
theorem State.logMany_frame (s : State) (ev : LogEv) (subject interval n : Nat) : LogFrame s (s.logMany ev subject interval n) := by
  unfold State.logMany
  split
  · exact .refl s
  · extract_lets u f
    have hu : LogFrame s u := s.logLimited_frame ev subject interval
    exact hu.step (by constructor <;> rfl)

theorem foyerEvent_logs {m : BalMsg} {s u : State} (h : s.balTake 0x04 m = (true, u)) :
    (leField m.body 0 2 ∉ foyerCodes → exec (.foyerEvent m) s = .next u.balRefuse) ∧
    (leField m.body 0 2 ∈ foyerCodes → ∃ t : State, exec (.foyerEvent m) s = .next t ∧ t.foyer = u.foyer ∧ t.mode = s.mode ∧ t.halls = s.halls) := by
  have he : exec (.foyerEvent m) s = execFoyerEvent m s := by rfl
  have ht := State.balTake_taken h
  rw [he, execFoyerEvent, h]
  refine ⟨fun hc => by simp [hc], fun hc => ?_⟩
  have hin : (!foyerCodes.contains (leField m.body 0 2)) = false := by simp [hc]
  simp only [hin, Bool.not_true, Bool.false_eq_true, if_false]
  split
  · have hl := u.logMany_frame { code := leField m.body 0 2 } 0 oneSec (leField m.body 4 4)
    exact ⟨_, rfl, hl.foyer, hl.mode.trans ht.mode, hl.halls.trans ht.halls⟩
  · have hl := u.logEv_frame { code := leField m.body 0 2, unit := leField m.body 8 1 } 0
    exact ⟨_, rfl, hl.foyer, hl.mode.trans ht.mode, hl.halls.trans ht.halls⟩

/-! ### The Foyer's view of the field map (R461) -/

/-- R461: a record with a state takes the place of what was known of its cell and entry. -/
theorem mem_viewPut_of_state {l : List (CellRec × Nat)} {b : Bytes} (h : leField b 18 1 ≠ 0) :
    (cellRecOf b, leField b 18 1) ∈ viewPut l b ∧ ∀ v ∈ viewPut l b, v.1.cellId = (cellRecOf b).cellId → v = (cellRecOf b, leField b 18 1) := by
  rw [viewPut, if_neg h]
  refine ⟨by simp, fun v hv hid => ?_⟩
  rcases List.mem_append.1 hv with hv | hv
  · simp [hid] at hv
  · exact List.mem_singleton.1 hv

/-- R461: state 0 takes the cell of an entry out. -/
theorem not_mem_viewPut_of_zero {l : List (CellRec × Nat)} {b : Bytes} (h : leField b 18 1 = 0) :
    ∀ v ∈ viewPut l b, ¬ (v.1.cellId = (cellRecOf b).cellId ∧ v.1.entry = (cellRecOf b).entry) := by
  rw [viewPut, if_pos h]
  rintro v hv ⟨hid, hentry⟩
  simp [hid, hentry] at hv

/-- The Foyer's view after a MAP_UPDATE: its records in order, as many as its count says and its body holds. -/
def State.viewAfter (s : State) (m : BalMsg) : List (CellRec × Nat) :=
  (pieces 48 (min (leField m.body 0 2) ((m.body.length - 16) / 48)) (m.body.drop 16)).foldl viewPut s.foyer.view

theorem exec_mapUpdate {m : BalMsg} {s u : State} (h : s.balTake 0x83 m = (true, u)) :
    exec (.mapUpdate m) s = .next (if s.foyerRuns then { u with foyer := { u.foyer with view := s.viewAfter m } } else u) := by
  have he : exec (.mapUpdate m) s = execMapUpdate m s := by rfl
  have ht := State.balTake_taken h
  rw [he, execMapUpdate, h, ← ht.foyerRuns, State.viewAfter, ← ht.kept.view]
  simp only [Bool.not_true, Bool.false_or]
  cases u.foyerRuns <;> rfl

theorem State.viewAfter_of_none {m : BalMsg} (h : leField m.body 0 2 = 0) (s : State) : s.viewAfter m = s.foyer.view := by
  simp [State.viewAfter, h, pieces]

theorem State.viewAfter_of_one {m : BalMsg} (h : leField m.body 0 2 = 1) (hlen : m.body.length = 64) (s : State) :
    s.viewAfter m = viewPut s.foyer.view (m.body.drop 16) := by
  have htake : (m.body.drop 16).take 48 = m.body.drop 16 := List.take_of_length_le (by simp [hlen])
  simp [State.viewAfter, h, hlen, pieces, htake]

theorem mapUpdate_changes {m : BalMsg} {s u : State} (h : s.balTake 0x83 m = (true, u)) :
    (s.foyerRuns = false → exec (.mapUpdate m) s = .next u) ∧
    (s.foyerRuns = true → ∃ t : State, exec (.mapUpdate m) s = .next t ∧ t = { u with foyer := { u.foyer with view := t.foyer.view } } ∧
      (leField m.body 0 2 = 0 → t.foyer.view = s.foyer.view) ∧
      (∀ (r : CellRec) (b : Bytes), leField m.body 0 2 = 1 → m.body.length = 64 → b = m.body.drop 16 → r = cellRecOf b →
        (leField b 18 1 ≠ 0 → (r, leField b 18 1) ∈ t.foyer.view ∧ ∀ v ∈ t.foyer.view, v.1.cellId = r.cellId → v = (r, leField b 18 1)) ∧
        (leField b 18 1 = 0 → ∀ v ∈ t.foyer.view, ¬ (v.1.cellId = r.cellId ∧ v.1.entry = r.entry)))) := by
  rw [exec_mapUpdate h]
  refine ⟨fun hr => by simp [hr], fun hr => ⟨_, by rw [if_pos hr], rfl, fun hn => State.viewAfter_of_none hn s, ?_⟩⟩
  rintro r b hn hlen rfl rfl
  simp only [State.viewAfter_of_one hn hlen]
  exact ⟨mem_viewPut_of_state, not_mem_viewPut_of_zero⟩

/-! ### Settings, seconds and segments of the image (R450, R453, R470) -/

theorem State.ptpRestart_foyer (s : State) : s.ptpRestart.foyer = s.foyer := s.setPtp_foyer _
theorem State.ptpRestart_halls (s : State) : s.ptpRestart.halls = s.halls := s.setPtp_halls _

theorem State.applyConfig_foyer (s : State) (k : Nat) (v : Bytes) :
    (s.applyConfig k v).foyer = { s.foyer with applied := kput k v s.foyer.applied } := by
  unfold State.applyConfig
  split
  · exact State.ptpRestart_foyer _
  · rfl

theorem State.applyConfig_halls (s : State) (k : Nat) (v : Bytes) : (s.applyConfig k v).halls = s.halls := by
  unfold State.applyConfig
  split
  · exact State.ptpRestart_halls _
  · rfl

/-- R453: the Foyer holds an applied entry's value, and every other entry's as before. -/
theorem State.applyConfig_applies (s : State) (k : Nat) (v : Bytes) :
    (s.applyConfig k v).fval k = leNat v ∧ (s.applyConfig k v).fdom k = v ∧ (∀ j, j ≠ k → (s.applyConfig k v).fval j = s.fval j) ∧
      (s.applyConfig k v).foyer.cells = s.foyer.cells := by
  simp only [State.fval, State.fdom, State.applyConfig_foyer]
  exact ⟨by simp, by simp, fun j hj => by rw [kfind_kput_ne hj], trivial⟩

theorem config_applies {m : BalMsg} {k : Nat} {s u : State} (h : s.balTake 0x84 m = (true, u)) (hk : k = leField m.body 0 2 * 256 + leField m.body 2 1) :
    (s.foyerRuns = false → exec (.config m) s = .next u) ∧
    (s.foyerRuns = true → (k ∉ foyerEntries ∨ m.body.length ≠ 16 + leField m.body 4 4) → exec (.config m) s = .next u.balRefuse) ∧
    (s.foyerRuns = true → k ∈ foyerEntries → m.body.length = 16 + leField m.body 4 4 →
      exec (.config m) s = .next (u.applyConfig k (m.body.drop 16))) := by
  have he : exec (.config m) s = execConfig m s := by rfl
  rw [he, execConfig, h, ← (State.balTake_taken h).foyerRuns, ← hk]
  simp only [Bool.not_true, Bool.false_or]
  refine ⟨fun hr => by simp [hr], fun hr hbad => ?_, fun hr hin hlen => ?_⟩
  · rw [hr, if_neg (by decide), if_pos (by simpa using hbad)]
  · rw [hr, if_neg (by decide), if_neg (by simp [hin, hlen])]

theorem exec_timeSet {m : BalMsg} {s u : State} (h : s.balTake 0x85 m = (true, u)) :
    exec (.timeSet m) s = .next (if s.foyerRuns then { u with foyer := { u.foyer with timeSet := some (leField m.body 0 8, leField m.body 8 1) } } else u) := by
  have he : exec (.timeSet m) s = execTimeSet m s := by rfl
  rw [he, execTimeSet, h, ← (State.balTake_taken h).foyerRuns]
  simp only [Bool.not_true, Bool.false_or]
  cases u.foyerRuns <;> rfl

theorem exec_firmware {m : BalMsg} {s u : State} (h : s.balTake 0x86 m = (true, u)) :
    exec (.firmware m) s = .next (if s.odGet Od.foyerState = 2 then u.balRefuse
      else ({ u with foyer := { u.foyer with fwTaken := u.foyer.fwTaken + (m.body.length - 16) } } : State).odPut Od.foyerState
        (if s.odGet Od.foyerState = 0 then 1 else s.odGet Od.foyerState)) := by
  have he : exec (.firmware m) s = execFirmware m s := by rfl
  rw [he, execFirmware, h]
  simp only [Bool.not_true, Bool.false_eq_true, if_false]
  split <;> rfl

/-! ### Heartbeats (R450, R452) -/

/-- R461: a record for the Foyer changes only the channel on which it crosses. -/
theorem State.mapUpdate_kept (s : State) (c : CellSt) : (s.mapUpdate c).od = s.od ∧ FoyerKept s.foyer (s.mapUpdate c).foyer := by
  unfold State.mapUpdate
  extract_lets r
  rw [State.balSend_of_management (k := 3) rfl (by decide)]
  exact ⟨rfl, rfl, rfl, rfl, rfl, rfl⟩

/-- A map in which every key of a list has been given its value. -/
theorem kfind_foldl_kput {α : Type} (g : Nat → α) (l : List Nat) (m : KMap α) {k : Nat} (hk : k ∈ l) :
    kfind k (l.foldl (fun m j => kput j (g j) m) m) = some (g k) := by
  induction l generalizing m with
  | nil => cases hk
  | cons j l ih =>
    by_cases hl : k ∈ l
    · exact ih _ hl
    · obtain rfl := (List.mem_cons.1 hk).resolve_right hl
      refine foldl_keeps (fun m => kfind k m = some (g k)) _ (fun m j hm => ?_) l (kfind_kput_self k (g k) m)
      by_cases hj : k = j
      · rw [← hj, kfind_kput_self]
      · rw [kfind_kput_ne hj, hm]

/-- R450, R453, R461: a Foyer that has loaded runs, with the settings of the dictionary and nothing yet of the field map. -/
theorem State.foyerLoaded_starts (s : State) : s.foyerLoaded.odGet Od.foyerState = 2 ∧ s.foyerLoaded.foyer.heartbeat = s.foyer.heartbeat ∧
    s.foyerLoaded.foyer.view = [] ∧ s.foyerLoaded.foyer.cells = s.foyer.cells ∧
    ∀ k ∈ foyerEntries, kfind k s.foyerLoaded.foyer.applied = some (s.configBytes k) := by
  unfold State.foyerLoaded
  extract_lets _ f u
  have hfoyer : FoyerKept f u.foyer := by
    rw [show u.foyer = f from State.ptpRestart_foyer _]
    exact .refl f
  have hstate : u.odGet Od.foyerState = 2 := (State.setPtp_odGet _ _ (by decide)).trans (State.odGet_odPut_self ..)
  obtain ⟨hod, hkept⟩ := foldl_keeps (fun t : State => t.od = u.od ∧ FoyerKept f t.foyer) (fun t c => t.mapUpdate c)
    (fun t c h => ⟨(t.mapUpdate_kept c).1.trans h.1, h.2.step (t.mapUpdate_kept c).2⟩) u.foyer.cells ⟨rfl, hfoyer⟩
  refine ⟨?_, hkept.heartbeat, hkept.view, hkept.cells, fun k hk => ?_⟩
  · rw [State.odGet, hod]
    exact hstate
  · rw [hkept.applied]
    have happlied : f.applied = foyerEntries.foldl (fun m j => kput j (s.configBytes j) m) [] := by dsimp only [f]
    rw [happlied]
    exact kfind_foldl_kput s.configBytes foyerEntries [] hk

/-- R452: the moment of a heartbeat is marked. -/
def State.beat (s : State) : State := { s with foyer := { s.foyer with heartbeat := s.epoch } }

theorem exec_heartbeat {m : BalMsg} {s u : State} (h : s.balTake 0x05 m = (true, u)) :
    exec (.heartbeat m) s = .next (if (s.odGet Od.foyerState = 1 ∨ s.odGet Od.foyerState = 3) ∧ leField m.body 0 1 = 2 then u.beat.foyerLoaded else u.beat) := by
  have he : exec (.heartbeat m) s = execHeartbeat m s := by rfl
  rw [he, execHeartbeat, h, ← (State.balTake_taken h).odGet]
  rfl

theorem heartbeat_ends_load {m : BalMsg} {s u : State} (h : s.balTake 0x05 m = (true, u)) (hdone : leField m.body 0 1 = 2)
    (hst : s.odGet Od.foyerState = 1 ∨ s.odGet Od.foyerState = 3) :
    ∃ t : State, exec (.heartbeat m) s = .next t ∧ t.odGet Od.foyerState = 2 ∧ t.foyer.heartbeat = s.epoch ∧ t.foyer.view = [] ∧
      t.foyer.cells = s.foyer.cells ∧ ∀ k ∈ foyerEntries, kfind k t.foyer.applied = some (s.configBytes k) := by
  have hu := State.balTake_taken h
  obtain ⟨hstate, hbeat, hview, hcells, happlied⟩ := u.beat.foyerLoaded_starts
  exact ⟨_, by rw [exec_heartbeat h, if_pos ⟨hst, hdone⟩], hstate, hbeat.trans hu.epoch, hview, hcells.trans hu.kept.cells,
    fun k hk => (happlied k hk).trans (congrArg some (hu.configBytes k))⟩

/-- R452: without a heartbeat the Foyer restarts: what it held and what crosses is lost. -/
theorem heartbeatTimeout_restarts {s : State} (hr : s.foyerRuns = true) (htest : s.test.run = none) :
    ∃ t : State, exec .heartbeatTimeout s = .next t ∧ t.odGet Od.foyerState = 3 ∧ t.odGet Od.ptpState = 0 ∧ t.foyer.dataIn = [] ∧ t.foyer.mgmtIn = [] ∧
      t.foyer.toFoyer = [] ∧ t.foyer.cells = s.foyer.cells.map (fun c => { c with held := none }) := by
  have he : exec .heartbeatTimeout s = execHeartbeatTimeout s := by rfl
  have hrun : ¬ (!s.foyerRuns || s.testing 6 1) = true := by simp [hr, State.testing, htest]
  rw [he, execHeartbeatTimeout, if_neg hrun]
  extract_lets u
  have hlog : OdFrame logEntries ((s.setPtp 0).odPut Od.foyerState 3) u := State.logEv_odFrame _ _ 0
  have hfoyer : u.foyer = s.foyer := (State.logEv_frame _ _ 0).foyer.trans (s.setPtp_foyer 0)
  refine ⟨_, rfl, (hlog.same _ (by decide)).trans (State.odGet_odPut_self ..), ?_, rfl, rfl, rfl, by rw [← hfoyer]⟩
  exact ((hlog.same _ (by decide)).trans (State.odGet_odPut_ne _ (by decide) _)).trans (s.setPtp_ptpState 0)

/-! ### The statement -/

/-- Settles O50: each message by the lemma on what it does once it is taken. -/
theorem balustradeMessagesTakeEffect : Obligations.BalustradeMessagesTakeEffect := by
  refine ⟨fun m sig s u h hres => ⟨fun hs => ?_, fun hs r hr => ?_, fun hs r hr => ?_⟩, fun m s u h => ⟨fun hno => ?_, fun p hr hp => ?_⟩,
    fun m s u h => timeReport_gives h, fun m s u h => foyerEvent_logs h, fun m s u h => mapUpdate_changes h, fun m k s u h hk => ?_,
    fun m s u h => ⟨fun hr => ?_, fun hr => ?_⟩, fun m s u h => ⟨fun hst => ?_, fun hst => ?_⟩,
    fun m s u h => ⟨fun hdone hst => heartbeat_ends_load h hdone hst, fun hno => ?_⟩,
    fun s => ⟨fun hr => ?_, fun hr htest => heartbeatTimeout_restarts hr htest⟩⟩
  · simp [exec_eopReq h hres, hs]
  · simp [exec_eopReq h hres, hs, hr]
  · have hqueue := u.eopCheck_queue (m.body.drop 24) sig
    rw [hr, (State.balTake_taken h).eop] at hqueue
    exact ⟨r.eopJoin m, by simp [exec_eopReq h hres, hs, hr], rfl, rfl, rfl, by rw [← hqueue]; rfl⟩
  · rw [exec_eopResp h]
    obtain hr | hp := hno
    · simp [hr]
    · simp [hp]
  · simp [exec_eopResp h, hr, hp]
  · obtain ⟨hoff, hbad, hok⟩ := config_applies h hk
    obtain ⟨hval, hdom, hother, hcells⟩ := u.applyConfig_applies k (m.body.drop 16)
    have hu := State.balTake_taken h
    exact ⟨hoff, hbad, fun hr hin hlen => ⟨_, hok hr hin hlen, hval, hdom, fun j hj => (hother j hj).trans (hu.fval j), hcells.trans hu.kept.cells,
      (u.applyConfig_halls ..).trans hu.halls⟩⟩
  · simp [exec_timeSet h, hr]
  · exact ⟨_, by rw [exec_timeSet h, if_pos hr], rfl, rfl⟩
  · rw [exec_firmware h, if_pos hst]
  · exact ⟨_, by rw [exec_firmware h, if_neg hst], congrArg (· + _) (State.balTake_taken h).kept.fwTaken, State.odGet_odPut_self ..⟩
  · rw [exec_heartbeat h, if_neg (fun hc => hno hc.symm), State.beat, (State.balTake_taken h).epoch]
  · have he : exec .heartbeatTimeout s = execHeartbeatTimeout s := by rfl
    simp [he, execHeartbeatTimeout, hr]

end Sys2Proof.Machine
end

section
/-!
SUPPORT. Laws of the words that the sequencer hands out: neither a REPEAT's increment (R233) nor the trim of an expert program's rows (R377) reaches a word's
opcode; and the statement on a retained PASS that meets a tile of another format (R82, R108).
-/

namespace Sys2Proof.Machine

/-! ### The opcode of a word that is handed out (R224, R233, R377) -/

theorem setBits_div {hi lo : Nat} (h : lo ≤ hi + 1) (v x : Nat) : setBits v hi lo x / 2 ^ (hi + 1) = v / 2 ^ (hi + 1) := by
  have hlow : v % 2 ^ lo < 2 ^ lo := Nat.mod_lt _ (by positivity)
  have hfield : (x % 2 ^ (hi + 1 - lo) + 1) * 2 ^ lo ≤ 2 ^ (hi + 1) := by
    calc _ ≤ 2 ^ (hi + 1 - lo) * 2 ^ lo := Nat.mul_le_mul_right _ (Nat.mod_lt _ (by positivity))
      _ = 2 ^ (hi + 1) := by rw [← pow_add, Nat.sub_add_cancel h]
  have hlt : v % 2 ^ lo + x % 2 ^ (hi + 1 - lo) * 2 ^ lo < 2 ^ (hi + 1) := by rw [Nat.add_mul] at hfield; omega
  rw [setBits, Nat.add_mul_div_right _ _ (by positivity), Nat.div_eq_of_lt hlt, Nat.zero_add]

/-- A field above the one that is replaced stays. -/
theorem bits_setBits_above {hi lo b : Nat} (h : lo ≤ hi + 1) (hb : hi < b) (v x a : Nat) : bits (setBits v hi lo x) a b = bits v a b := by
  have hsplit : (2 : Nat) ^ b = 2 ^ (hi + 1) * 2 ^ (b - (hi + 1)) := by rw [← pow_add, Nat.add_sub_cancel' hb]
  simp only [bits, hsplit, ← Nat.div_div_eq_div_mul, setBits_div h]

/-- A field, as its high and its low bit, that lies below OPCODE. -/
def BelowOpcode (hi lo : Nat) : Prop := lo ≤ hi + 1 ∧ hi < 122

theorem opOf_setBits {hi lo : Nat} (h : BelowOpcode hi lo) (v x : Nat) : opOf (setBits v hi lo x) = opOf v := by
  simp only [opOf, bits_setBits_above h.1 h.2]

theorem incFields_belowOpcode (o : Nat) : ∀ f ∈ incFields o, BelowOpcode f.2.1 f.2.2 := by
  unfold incFields BelowOpcode
  split <;> decide

/-- R233: an increment leaves the opcode. -/
theorem opOf_applyInc {rep i w u : Nat} (h : applyInc rep i w = .ok u) : opOf u = opOf w := by
  unfold applyInc at h
  split at h
  · cases h
    rfl
  · revert u
    refine List.foldlRecOn (motive := fun r : Except Nat Nat => ∀ {u}, r = .ok u → opOf u = opOf w) _ _ (fun h => by cases h; rfl) ?_
    intro r hr f hf u hu
    split at hu
    · cases hu
    · next v =>
      simp only at hu
      split at hu
      · cases hu
      · cases hu
        rw [opOf_setBits (incFields_belowOpcode _ f hf), hr rfl]

theorem opOf_next {p : Prog} {w : Nat} (h : p.next = .ok w) : opOf w = opOf (p.img.ops.getD p.pc 0) := by
  unfold Prog.next at h
  simp only at h
  split at h
  · exact opOf_applyInc h
  · cases h
    rfl

theorem opOf_cutCount {hi lo : Nat} (h : BelowOpcode hi lo) (w n : Nat) : opOf (cutCount w hi lo n).1 = opOf w := by
  unfold cutCount
  simp only
  split
  · rfl
  · exact opOf_setBits h w _

theorem countedGroup_belowOpcode {g : Bool} {w grp hi lo : Nat} (h : countedGroup g w = some (grp, hi, lo)) : BelowOpcode hi lo := by
  unfold countedGroup at h
  unfold BelowOpcode
  repeat' split at h
  all_goals simp only [Option.some.injEq, Prod.mk.injEq, reduceCtorEq] at h
  all_goals omega

theorem countedView_belowOpcode {g : Bool} {w tbl hdl row hi lo : Nat} (h : countedView g w = some (tbl, hdl, row, hi, lo)) : BelowOpcode hi lo := by
  unfold countedView at h
  unfold BelowOpcode
  simp only at h
  repeat' split at h
  all_goals simp only [Option.some.injEq, Prod.mk.injEq, reduceCtorEq] at h
  all_goals omega

/-- R377: the trim of a word leaves the opcode. -/
theorem State.opOf_trim (s : State) (fk : Nat) (p : Prog) (w : Nat) : opOf (s.trim fk p w).1 = opOf w := by
  unfold State.trim
  simp only
  split
  · next hgroup =>
    split
    · exact opOf_cutCount (countedGroup_belowOpcode hgroup) w _
    · rfl
  · split
    · next hview _ =>
      split
      · split
        · exact opOf_cutCount (countedView_belowOpcode hview) w _
        · rfl
      · rfl
    · rfl

/-- R235: a word that is handed out for an opcode carries it. -/
theorem turn_go_opOf {s : State} {fk o : Nat} {c : OpCtx} (h : s.turn fk (isOp o) = .go c) : opOf c.word = o := by
  unfold State.turn at h
  split at h
  · cases h
  · next p _ =>
    simp only at h
    split at h
    · cases h
    · next hraw =>
      split at h
      · cases h
      · split at h
        · cases h
        · next w hnext =>
          split at h
          · cases h
          · cases h
            have hop : opOf (p.img.ops.getD p.pc 0) = o := by simpa [isOp] using (not_or.mp hraw).2
            exact (s.opOf_trim fk p w).trans ((opOf_next hnext).trans hop)

theorem Issues.flightOk {s : State} {f : FlightId} {is : Nat → Bool} {c : OpCtx} (h : Issues s f is c) : flightOk f = true := h.1

theorem Issues.opOf_word {s : State} {f : FlightId} {o : Nat} {c : OpCtx} (h : Issues s f (isOp o) c) : opOf c.word = o :=
  turn_go_opOf h.2.1

theorem Issues.fk {s : State} {f : FlightId} {is : Nat → Bool} {c : OpCtx} (h : Issues s f is c) : c.fk = flightKey f :=
  turn_go_flight h.2.1

@[simp] theorem OpCtx.flightKey_flight (c : OpCtx) : flightKey c.flight = c.fk := by
  simp only [flightKey, OpCtx.flight, flightOf]
  omega

/-! ### What a retained PASS brings, and where it may not enter (R82, R97, R108) -/

/-- R525: the mark of a poisoned weight block concerns the job's step alone. -/
@[simp] theorem State.readBadWeight_flight (s : State) (c : OpCtx) (bad : Bool) (k : Nat) : (s.readBadWeight c bad).flight k = s.flight k := by
  cases bad <;> rfl

@[simp] theorem State.readBadWeight_mem (s : State) (c : OpCtx) (bad : Bool) : (s.readBadWeight c bad).mem = s.mem := by
  cases bad <;> rfl

@[simp] theorem State.counts_flight (s : State) (l : List (Nat × Nat)) (k : Nat) : (s.counts l).flight k = s.flight k := by
  simp only [State.flight, (s.counts_frame l).halls]

/-- R97, R108: a PASS with HOLD whose operands and mask resolve brings rows of its operands' format to its target tile alone; tiles and memory are as they were. -/
theorem State.passAccs_hold {s : State} {c : OpCtx} {fmt : Nat} {items : List (List Elem)} {m : Option (Buf × Nat)}
    (htarget : c.badTarget (bits c.word 43 28) (bits c.word 49 44 + 1) = none) (hhold : bit c.word 82 = true)
    (hitems : s.streamed c (bits c.word 81 74) (bits c.word 73 58) (bits c.word 49 44 + 1) (bits c.word 57 50 * c.T) (bits c.word 57 50) = .ok (fmt, items))
    (hmask : s.passMask c c.word (bits c.word 49 44 + 1) = .ok m) (hw : PassHw) (again : Bool) :
    ∃ (t : State) (x : Accum), s.passAccs hw again c = .ok t [x] ∧ x.tile = tgtTile (bits c.word 43 28) ∧ x.fmt = fmt ∧
      (t.flight c.fk).tiles = (s.flight c.fk).tiles ∧ t.mem = s.mem := by
  simp only [State.passAccs, htarget, hitems, hmask, hhold, if_true]
  refine ⟨_, _, rfl, rfl, rfl, ?_, ?_⟩
  · simp [State.modProg]
  · simp [(State.counts_frame _ _).mem]

/-- R82: one tile that holds another format refuses all that an operation brings. -/
theorem State.enterTiles_other_format {s : State} {c : OpCtx} {x : Accum} (hv : ((s.flight c.fk).tile x.tile).valid = true)
    (hf : ((s.flight c.fk).tile x.tile).fmt ≠ x.fmt) (us : List Upset) (main : Nat) : s.enterTiles c us main [x] = none := by
  have h : s.accumulate c.flight us x = none := s.accumulate_none c.flight us x (by simpa using hv) (by simpa using hf)
  simp [State.enterTiles, h]

/-! ### The statement -/

/-- Settles O13: the PASS brings its rows to one tile, which refuses them by its format, whatever upsets strike. -/
theorem passOfAnotherFormatStops : Obligations.PassOfAnotherFormatStops := by
  intro f hw s c fmt items m hissue htarget hhold hitems hmask hland hvalid hfmt
  obtain ⟨t, x, hacc, htile, hxfmt, htiles, hmem⟩ := State.passAccs_hold htarget hhold hitems hmask hw false
  have hsame : ∀ i, (t.flight c.fk).tile i = (s.flight c.fk).tile i := fun i => by simp only [FlightSt.tile, htiles]
  have hnone : t.enterTiles c (hw.foot.upsets.filter (fun u => !Upset.again u)) c.main [x] = none :=
    State.enterTiles_other_format (by rw [hsame, htile]; exact hvalid) (by rw [hsame, htile, hxfmt]; exact hfmt) _ _
  have hbody : State.accBody hw c s = (t.tick, .stop 0x3020) := by
    simp [State.accBody, State.landErrors, hland, State.accsOf, hissue.opOf_word, hacc, hnone]
  refine ⟨t.tick, ?_, htiles, hmem⟩
  have he : exec (.passOp f hw) s = execPassOp f hw s := by rfl
  simp [he, execPassOp, hissue.flightOk, issueOp_stop hissue hbody, hissue.fk]

end Sys2Proof.Machine
end

section
/-!
SUPPORT. Laws of the foot operations that leave a tile: what a drain writes (R113 to R116) and what an audit notes (R169) reach no tile and no device memory, what
RETAG makes of a tile (R83); and the statement on DRAIN, RETAG and RELEASE.
-/

namespace Sys2Proof.Machine

/-! ### Work that writes only some landings -/

/-- Between two states flights and device memory are the same, and so are the landings outside a set. -/
structure WritesOnly (L : Nat → Prop) (s t : State) : Prop where
  flight : ∀ k, t.flight k = s.flight k
  landing : ∀ l, ¬ L l → t.landing l = s.landing l
  mem : t.mem = s.mem

namespace WritesOnly

variable {L : Nat → Prop} {s t u : State}

theorem refl (s : State) : WritesOnly L s s := ⟨fun _ => rfl, fun _ _ => rfl, rfl⟩

theorem step (h : WritesOnly L s t) (h' : WritesOnly L t u) : WritesOnly L s u :=
  ⟨fun k => (h'.flight k).trans (h.flight k), fun l hl => (h'.landing l hl).trans (h.landing l hl), h'.mem.trans h.mem⟩

/-- Work that leaves the maps of flights and landings writes no landing. -/
theorem of_maps (hf : t.halls.flights = s.halls.flights) (hl : t.halls.landings = s.halls.landings) (hm : t.mem = s.mem) : WritesOnly L s t :=
  ⟨fun k => by simp only [State.flight, hf], fun l _ => by simp only [State.landing, hl], hm⟩

/-- Counting and logging write no landing. -/
theorem of_log (h : LogFrame s t) : WritesOnly L s t :=
  of_maps (by rw [h.halls]) (by rw [h.halls]) h.mem

/-- Each of a list of writes keeps to the set. -/
theorem foldl {β : Type} {f : State → β → State} (hf : ∀ r x, WritesOnly L r (f r x)) (l : List β) (s : State) : WritesOnly L s (l.foldl f s) :=
  foldl_keeps (WritesOnly L s) f (fun r x h => h.step (hf r x)) l (.refl s)

end WritesOnly

section
variable {L : Nat → Prop}

theorem State.setLanding_writesOnly (s : State) {l : Nat} (hl : L l) (x : Landing) : WritesOnly L s (s.setLanding l x) :=
  ⟨fun _ => rfl, fun j hj => s.landing_setLanding_ne (by rintro rfl; exact hj hl) x, rfl⟩

theorem State.landWrite_writesOnly (s : State) {l : Nat} (hl : L l) (off : Nat) (data : Bytes) (poison : Bool) (tenant : Nat) :
    WritesOnly L s (s.landWrite l off data poison tenant) :=
  s.setLanding_writesOnly hl _

theorem State.setLsb_writesOnly (s : State) {b : Buf} (hb : L b.table) (e : Int) : WritesOnly L s (s.setLsb b e) :=
  s.setLanding_writesOnly hb _

theorem State.writeRow_writesOnly (s : State) {b : Buf} (hb : L b.landing) (r : Nat) (parts : List (Nat × Bytes)) (poison : Bool) (tenant : Nat) :
    WritesOnly L s (s.writeRow b r parts poison tenant) := by
  unfold State.writeRow
  exact .foldl (fun t p => t.landWrite_writesOnly hb _ _ _ _) parts s

/-- R138: the draws of a drain step a generator. -/
theorem State.drawRequest_writesOnly (s : State) (h g w n : Nat) : WritesOnly L s (s.drawRequest h g w n).1 :=
  .of_maps rfl rfl rfl

/-! ### What a drain writes (R113 to R116) -/

theorem State.writeBlocks_writesOnly (s : State) (c : OpCtx) (t : Tile) {b : Buf} (hb : L b.landing) (gen : Option Nat) (poison : Bool) (x : DrainedRow) :
    WritesOnly L s (s.writeBlocks c t b gen poison x) := by
  unfold State.writeBlocks
  cases gen with
  | none => exact (WritesOnly.of_log (State.counts_frame _ _)).step (State.writeRow_writesOnly _ hb _ _ _ _)
  | some g =>
    exact ((s.drawRequest_writesOnly c.hall g 16 c.W).step (.of_log (State.counts_frame _ _))).step (State.writeRow_writesOnly _ hb _ _ _ _)

/-- R113: the output of a drain reaches the landing of its buffer, and for S48 words the handle table that gives it. -/
theorem State.writeDrain_writesOnly (s : State) (c : OpCtx) (d : DrainD) (t : Tile) {out : Option Buf} (hout : ∀ b, out = some b → L b.landing ∧ L b.table)
    (gen : Option Nat) (rows : List DrainedRow) (poison : Bool) : WritesOnly L s (s.writeDrain c d t out gen rows poison).1 := by
  unfold State.writeDrain
  cases out with
  | none => exact .refl s
  | some b =>
    obtain ⟨hland, htable⟩ := hout b rfl
    simp only
    split
    · refine (WritesOnly.step ?_ (State.setLsb_writesOnly _ htable _)).step (.of_log (State.count_frame _ _ _))
      exact foldl_keeps (fun r : State × Nat => WritesOnly L s r.1) _
        (fun r _ h => h.step (r.1.landWrite_writesOnly hland _ _ _ _)) rows (.refl s)
    · exact .foldl (fun r x => r.writeBlocks_writesOnly c t hland gen poison x) rows s

/-- R115: the records of a drain reach the landing of their vector. -/
theorem State.writeStats_writesOnly (s : State) (c : OpCtx) (d : DrainD) {st : Option (Buf × List (StatRec × Bool))}
    (hst : ∀ p, st = some p → L p.1.landing) (rows : List DrainedRow) (poison : Bool) : WritesOnly L s (s.writeStats c d st rows poison) := by
  unfold State.writeStats
  cases st with
  | none => exact .refl s
  | some p =>
    have hland : L p.1.landing := hst p rfl
    simp only
    split
    · exact .refl s
    · exact .foldl (fun r x => (WritesOnly.foldl (fun t q => t.landWrite_writesOnly hland _ _ _ _) _ r).step
        (.of_log (State.count_frame _ _ _))) _ s

/-! ### What an audit writes (R169, R170) -/

theorem State.auditBlock_writesOnly (s : State) (key : Nat) (miss : Bool) : WritesOnly L s (s.auditBlock key miss) := by
  unfold State.auditBlock
  split
  · exact .refl s
  · next y _ =>
    extract_lets win misses fall z _ t u
    have hu : WritesOnly L s u := WritesOnly.step (t := t) (.of_maps rfl rfl rfl) (.of_log (State.counts_frame _ _))
    split
    · exact hu.step (.of_log (State.logEv_frame _ _ _))
    · exact hu

theorem State.auditTile_writesOnly (s : State) (t : Tile) : WritesOnly L s (s.auditTile t) := by
  unfold State.auditTile
  split
  · exact .refl s
  · next key _ =>
    split
    · exact .foldl (fun r o => r.auditBlock_writesOnly key (t.missed.contains o)) t.audit s
    · exact .refl s

theorem State.stepPoison_writesOnly (s : State) (job : Nat) (bad : Bool) : WritesOnly L s (s.stepPoison job bad) := by
  cases bad <;> exact .of_maps rfl rfl rfl

theorem State.tick_writesOnly (s : State) : WritesOnly L s s.tick := .of_maps rfl rfl rfl

theorem State.holdShare_writesOnly (s : State) (c : OpCtx) : WritesOnly L s (s.holdShare c) := by
  unfold State.holdShare
  split <;> exact .of_maps rfl rfl rfl

end

/-! ### Work that sets one tile -/

/-- Work sets one tile of a flight to a value, and writes only some landings beside it. -/
structure SetsTile (L : Nat → Prop) (fk i : Nat) (x : Tile) (s t : State) : Prop where
  tile : (t.flight fk).tile i = x
  tiles : ∀ j, j ≠ i → (t.flight fk).tile j = (s.flight fk).tile j
  others : SameOtherFlights fk s t
  landing : ∀ l, ¬ L l → t.landing l = s.landing l
  mem : t.mem = s.mem

theorem State.setTile_setsTile {L : Nat → Prop} (s : State) (fk i : Nat) (x : Tile) : SetsTile L fk i x s (s.setTile fk i x) :=
  ⟨s.tile_setTile_self fk i x, fun _ hj => s.tile_setTile_ne fk hj x, fun _ hj => s.flight_setFlight_ne hj _, fun _ _ => rfl, rfl⟩

section
variable {L : Nat → Prop} {fk i : Nat} {x y : Tile} {s t u : State}

theorem WritesOnly.setsTile (h : WritesOnly L s t) (h' : SetsTile L fk i x t u) : SetsTile L fk i x s u :=
  ⟨h'.tile, fun j hj => by rw [h'.tiles j hj, h.flight], fun k hk => (h'.others k hk).trans (h.flight k),
    fun l hl => (h'.landing l hl).trans (h.landing l hl), h'.mem.trans h.mem⟩

theorem SetsTile.writesOnly (h : SetsTile L fk i x s t) (h' : WritesOnly L t u) : SetsTile L fk i x s u :=
  ⟨by rw [h'.flight, h.tile], fun j hj => by rw [h'.flight, h.tiles j hj], fun k hk => (h'.flight k).trans (h.others k hk),
    fun l hl => (h'.landing l hl).trans (h.landing l hl), h'.mem.trans h.mem⟩

/-- A tile that is set again holds the later value. -/
theorem SetsTile.again (h : SetsTile L fk i x s t) (h' : SetsTile L fk i y t u) : SetsTile L fk i y s u :=
  ⟨h'.tile, fun j hj => (h'.tiles j hj).trans (h.tiles j hj), fun k hk => (h'.others k hk).trans (h.others k hk),
    fun l hl => (h'.landing l hl).trans (h.landing l hl), h'.mem.trans h.mem⟩

end

/-- R118, R169: a release resets the tile, after its audit. -/
theorem State.releaseTile_setsTile {L : Nat → Prop} (s : State) (fk i : Nat) : SetsTile L fk i Tile.reset s (s.releaseTile fk i) :=
  (s.auditTile_writesOnly _).setsTile (State.setTile_setsTile _ fk i Tile.reset)

/-! ### DRAIN (R113) -/

/-- The landings that a drain may write: that of its output, the one whose table holds the output's handle, and that of its records. -/
def DrainIn.lands (x : DrainIn) (l : Nat) : Prop :=
  (∃ b, x.out = some b ∧ (l = b.landing ∨ l = b.table)) ∨ ∃ p, x.stats = some p ∧ l = p.1.landing

/-- The tile as a drain with KEEP leaves it: SAT may rise, and what the audit notes joins it. -/
def Tile.drainKept (t : Tile) (sat : Bool) (missed : List Nat) : Tile := { t with sat := t.sat || sat, drained := true, missed := missed }

/-- R113, R118: a drain sets its tile alone, to what KEEP leaves of it or to a released one, and writes only its own landings. -/
theorem State.runDrain_setsTile (s : State) (c : OpCtx) (d : DrainD) (x : DrainIn) :
    ∃ sat missed, SetsTile x.lands c.fk d.tile (if d.keep then ((s.flight c.fk).tile d.tile).drainKept sat missed else Tile.reset) s
      (s.runDrain c d x.scale x.stats x.out x.gen) := by
  unfold State.runDrain
  extract_lets t bad useStat tab poison rows s1 s2
  have hlands : WritesOnly x.lands s (s2.writeDrain c d t x.out x.gen rows poison).1 :=
    ((WritesOnly.of_log (State.count_frame _ _ _)).step (State.writeStats_writesOnly _ c d (fun p hp => .inr ⟨p, hp, rfl⟩) rows poison)).step
      (State.writeDrain_writesOnly _ c d t (fun b hb => ⟨.inl ⟨b, hb, .inl rfl⟩, .inl ⟨b, hb, .inr rfl⟩⟩) x.gen rows poison)
  generalize s2.writeDrain c d t x.out x.gen rows poison = w at hlands ⊢
  obtain ⟨s3, sat⟩ := w
  have hkeep : ∀ y, SetsTile x.lands c.fk d.tile y s ((s3.stepPoison c.job bad).tick.setTile c.fk d.tile y) := fun y =>
    ((hlands.step (State.stepPoison_writesOnly _ c.job bad)).step (State.tick_writesOnly _)).setsTile (State.setTile_setsTile _ c.fk d.tile y)
  refine ⟨sat, (t.noteDrain (rows.map (·.vals))).missed, ?_⟩
  dsimp only
  split
  · exact hkeep _
  · exact (hkeep _).again (State.releaseTile_setsTile _ c.fk d.tile)

/-- R120: where the sums that the drain reads agree with their residues, no upset having struck, nothing is recovered. -/
theorem State.checkDrain_open {s : State} {c : OpCtx} {d : DrainD}
    (h : ((s.flight c.fk).tile d.tile).valid = true → ((s.flight c.fk).tile d.tile).rowsSound c.W d.rowBase d.rows = true) :
    s.checkDrain c d [] = (s.setTile c.fk d.tile ((s.flight c.fk).tile d.tile), .open_) := by
  have hok : (!((s.flight c.fk).tile d.tile).valid || ((s.flight c.fk).tile d.tile).rowsSound c.W d.rowBase d.rows) = true := by
    cases hv : ((s.flight c.fk).tile d.tile).valid
    · rfl
    · simp [h hv]
  simp [State.checkDrain, State.strikeTile, hok]

theorem State.drainBody_open {s : State} {c : OpCtx} {x : DrainIn} (hin : s.drainIn c = .ok x)
    (h : ((s.flight c.fk).tile (drainD c.desc).tile).valid = true →
      ((s.flight c.fk).tile (drainD c.desc).tile).rowsSound c.W (drainD c.desc).rowBase (drainD c.desc).rows = true) :
    ∃ (r : State) (sat : Bool) (missed : List Nat), State.drainBody ⟨[], []⟩ c s = (r, .open_) ∧
      SetsTile x.lands c.fk (drainD c.desc).tile
        (if (drainD c.desc).keep then ((s.flight c.fk).tile (drainD c.desc).tile).drainKept sat missed else Tile.reset) s r := by
  have hread : SetsTile x.lands c.fk (drainD c.desc).tile ((s.flight c.fk).tile (drainD c.desc).tile) s _ := s.setTile_setsTile ..
  obtain ⟨sat, missed, hrun⟩ := State.runDrain_setsTile
    (s.setTile c.fk (drainD c.desc).tile ((s.flight c.fk).tile (drainD c.desc).tile)) c (drainD c.desc) x
  rw [hread.tile] at hrun
  refine ⟨_, sat, missed, ?_, (hread.again hrun).writesOnly (State.holdShare_writesOnly _ c)⟩
  simp [State.drainBody, State.landErrors, hin, State.checkDrain_open h]

/-! ### RETAG (R83, R80) -/

/-- R83: a retag writes the format and moves the exponent; sums and POISON stay. -/
theorem Tile.retag_ok {t u : Tile} {fmt : Nat} {k : Int} (h : t.retag fmt k = .ok u) :
    u.fmt = fmt ∧ u.sums = t.sums ∧ u.lsb = t.lsb.map (· + k) ∧ u.poison = t.poison := by
  unfold Tile.retag at h
  split at h
  · cases h
  · split at h
    · next hlsb =>
      cases h
      simp [hlsb]
    · next hlsb =>
      split at h
      · cases h
      · cases h
        simp [hlsb]

theorem State.retagBody_open {s : State} {c : OpCtx} {t : Tile} (hfoot : footCheck c.g c.desc = none)
    (hretag : ((s.flight c.fk).tile (bits c.desc 59 56)).retag (bits c.desc 55 52) (toInt 8 (bits c.desc 51 44)) = .ok t) :
    State.retagBody c s = ((s.setTile c.fk (bits c.desc 59 56) (t.note ⟨c.word, 0, [], false⟩)).holdShare c, .open_) := by
  simp [State.retagBody, hfoot, hretag]

theorem State.releaseBody_open (s : State) {c : OpCtx} (hfoot : footCheck c.g c.desc = none) :
    State.releaseBody c s = ((s.releaseTile c.fk (bits c.desc 59 56)).holdShare c, .open_) := by
  simp [State.releaseBody, hfoot]

/-! ### The statement -/

/-- Settles O16: each operation sets its tile alone, a drain beside writes to its own landings, RETAG and RELEASE beside none. -/
theorem drainRetagReleaseTiles : Obligations.DrainRetagReleaseTiles := by
  refine ⟨fun f s c x hissue hin hsound => ?_, fun f s c t hissue hfoot hretag => ?_, fun f s c hissue hfoot => ?_⟩
  · obtain ⟨r, sat, missed, hbody, hset⟩ := State.drainBody_open hin hsound
    have he : exec (.drain ⟨f, ⟨[], []⟩⟩) s = execDrain ⟨f, ⟨[], []⟩⟩ s := by rfl
    refine ⟨r, by simp [he, execDrain, hissue.flightOk, issueOp_open hissue hbody], fun hkeep => ?_, fun hkeep => ⟨sat, missed, ?_⟩, hset.tiles, hset.others,
      hset.mem, fun l hout hstats => hset.landing l ?_⟩
    · simpa [hkeep] using hset.tile
    · simpa [hkeep, Tile.drainKept] using hset.tile
    · rintro (⟨b, hb, hl⟩ | ⟨p, hp, hl⟩)
      · exact hl.elim (hout b hb).1 (hout b hb).2
      · exact hstats p hp hl
  · have hset := (State.setTile_setsTile (L := fun _ => False) s c.fk (bits c.desc 59 56) (t.note ⟨c.word, 0, [], false⟩)).writesOnly
      (State.holdShare_writesOnly _ c)
    have he : exec (.retag f) s = execRetag f s := by rfl
    obtain ⟨hfmt, hsums, hlsb, hpoison⟩ := Tile.retag_ok hretag
    exact ⟨_, by simp [he, execRetag, hissue.flightOk, issueOp_open hissue (State.retagBody_open hfoot hretag)], hset.tile, hfmt, hsums, hlsb, hpoison, hset.tiles,
      hset.others, hset.mem, fun l => hset.landing l id⟩
  · have hset := (State.releaseTile_setsTile (L := fun _ => False) s c.fk (bits c.desc 59 56)).writesOnly (State.holdShare_writesOnly _ c)
    have he : exec (.release f) s = execRelease f s := by rfl
    exact ⟨_, by simp [he, execRelease, hissue.flightOk, issueOp_open hissue (s.releaseBody_open hfoot)], hset.tile, hset.tiles, hset.others, hset.mem,
      fun l => hset.landing l id⟩

end Sys2Proof.Machine
end

section
/-!
SUPPORT. Laws of the foot's refusals: the opcode of a FOOT word that is handed out (R224, R227), and the statement on a descriptor that fails its check (R112).
-/

namespace Sys2Proof.Machine

/-! ### The opcode of a FOOT word (R224, R227) -/

/-- A word that is handed out for one kind of word is handed out for every wider kind. -/
theorem turn_go_mono {s : State} {fk : Nat} {is js : Nat → Bool} (hij : ∀ w, is w = true → js w = true) {c : OpCtx} (h : s.turn fk is = .go c) :
    s.turn fk js = .go c := by
  unfold State.turn at h ⊢
  cases hp : s.runningProg fk with
  | none => simp [hp] at h
  | some p =>
    simp only [hp] at h ⊢
    split at h
    · cases h
    · next hraw =>
      obtain ⟨hlen, hkind⟩ := not_or.1 hraw
      rw [if_neg (not_or.2 ⟨hlen, by simpa using hij _ (by simpa using hkind)⟩)]
      exact h

/-- A FOOT word that is handed out, whatever its function, carries the opcode of the foot. -/
theorem Issues.opOf_foot {s : State} {f : FlightId} {fn : Nat} {c : OpCtx} (h : Issues s f (isFoot fn) c) : opOf c.word = 0x20 :=
  turn_go_opOf (turn_go_mono (fun w hw => by simp only [isFoot, Bool.and_eq_true] at hw; exact hw.1) h.2.1)

/-! ### The statement -/

/-- R112: the check refuses with one of its two codes. -/
theorem footCheck_code {g : Bool} {d e : Nat} (h : footCheck g d = some e) : e = 0x3012 ∨ e = 0x3013 := by
  unfold footCheck at h
  extract_lets at h
  split at h
  · exact .inr (Option.some.inj h).symm
  · split at h
    · exact .inl (Option.some.inj h).symm
    · cases h

section
variable {s : State} {c : OpCtx} {e : Nat} (he : footCheck c.g c.desc = some e)
include he

theorem State.drainBody_malformed {hw : FootHw} (hland : hw.land = []) : State.drainBody hw c s = (s, .stop e) := by
  simp [State.drainBody, State.drainIn, State.landErrors, hland, he]

theorem State.retagBody_malformed : State.retagBody c s = (s, .stop e) := by simp [State.retagBody, he]

theorem State.releaseBody_malformed : State.releaseBody c s = (s, .stop e) := by simp [State.releaseBody, he]

theorem State.injectBody_malformed {hw : FootHw} (hland : hw.land = []) (hop : opOf c.word = 0x20) :
    State.accBody (footPass hw) c s = (s, .stop e) := by
  simp [State.accBody, State.accsOf, State.injectAccs, State.landErrors, footPass, hland, hop, he]

theorem State.statscaleBody_malformed : State.statscaleBody c s = (s, .stop e) := by simp [State.statscaleBody, he]

end

/-- Settles O17: the unit of each function answers with the check's code before it touches the state. -/
theorem malformedDescriptorStops : Obligations.MalformedDescriptorStops := by
  intro f hw s c e he hland
  have stops : ∀ {is body}, Issues s f is c → body c s = (s, OpRes.stop e) → s.issueOp f is body = s.refuseOp c.fk c.slot e c.prog.pc :=
    fun hi hb => (issueOp_stop hi hb).trans (by rw [hi.fk])
  refine ⟨footCheck_code he, fun hi => ?_, fun hi => ?_, fun hi => ?_, fun hi => ?_, fun hi => ?_⟩
  · have hx : exec (.drain ⟨f, hw⟩) s = execDrain ⟨f, hw⟩ s := by rfl
    simp [hx, execDrain, hi.flightOk, stops hi (State.drainBody_malformed he hland)]
  · have hx : exec (.retag f) s = execRetag f s := by rfl
    simp [hx, execRetag, hi.flightOk, stops hi (State.retagBody_malformed he)]
  · have hx : exec (.release f) s = execRelease f s := by rfl
    simp [hx, execRelease, hi.flightOk, stops hi (State.releaseBody_malformed he)]
  · have hx : exec (.inject f hw) s = execInject f hw s := by rfl
    simp [hx, execInject, hi.flightOk, stops hi (State.injectBody_malformed he hland hi.opOf_foot)]
  · have hx : exec (.statscale f) s = execStatscale f s := by rfl
    simp [hx, execStatscale, hi.flightOk, stops hi (State.statscaleBody_malformed he)]

end Sys2Proof.Machine
end

section
/-!
SUPPORT. Laws of the start of a task (R217 to R220): what the overwrites and the handle entries before it leave as they were, and the statement on what a
program and its flight hold when its task begins.
-/

namespace Sys2Proof.Machine

/-! ### Before the task begins (R217, R218) -/

/-- R218: the overwrite between tenants reaches landings alone. -/
theorem State.overwriteFor_writesOnly (s : State) (l tenant : Nat) (me : Nat × Nat) : WritesOnly (fun _ => True) s (s.overwriteFor l tenant me) := by
  unfold State.overwriteFor
  extract_lets
  split
  · exact .refl s
  · exact (State.setLanding_writesOnly _ trivial _).step (.of_log (State.count_frame _ _ _))

@[simp] theorem State.overwriteFor_tasks (s : State) (l tenant : Nat) (me : Nat × Nat) : (s.overwriteFor l tenant me).halls.tasks = s.halls.tasks := by
  unfold State.overwriteFor
  extract_lets
  split <;> rfl

/-- R217, R218: the state in which a task begins: after the overwrites, and with the handle entries that only HANDLE_SET writes not VALID. -/
def State.clearedFor (s : State) (fk slot : Nat) (i : Image) : State :=
  (setHandles i).foldl (fun s h => s.setHandle (tableLanding fk h.1) h.2 0)
    ((s.overwriteFor fk i.tenant (fk, slot)).overwriteFor (hallLanding (fk / 20)) i.tenant (fk, slot))

theorem State.clearedFor_writesOnly (s : State) (fk slot : Nat) (i : Image) : WritesOnly (fun _ => True) s (s.clearedFor fk slot i) :=
  ((s.overwriteFor_writesOnly _ _ _).step (State.overwriteFor_writesOnly _ _ _ _)).step
    (.foldl (fun t _ => t.setLanding_writesOnly trivial _) _ _)

@[simp] theorem State.clearedFor_tasks (s : State) (fk slot : Nat) (i : Image) : (s.clearedFor fk slot i).halls.tasks = s.halls.tasks := by
  unfold State.clearedFor
  refine foldl_keeps (fun t : State => t.halls.tasks = s.halls.tasks) _ (fun _ _ hk => by exact hk) _ ?_
  rw [State.overwriteFor_tasks, State.overwriteFor_tasks]

theorem State.progAt_of_flight {s t : State} {fk : Nat} (h : t.flight fk = s.flight fk) (sl : Nat) : t.progAt fk sl = s.progAt fk sl := by
  simp only [State.progAt, h]

/-- Setting what a flight holds beside its programs leaves them. -/
theorem State.progAt_setFlight (s : State) {fk : Nat} {x : FlightSt} (h : x.progs = (s.flight fk).progs) (sl : Nat) :
    (s.setFlight fk x).progAt fk sl = s.progAt fk sl := by
  simp only [State.progAt, State.flight_setFlight_self, h]

/-! ### The task (R219, R220) -/

/-- R220: a program at the first word of task n. -/
def Prog.started (cls n : Nat) (p : Prog) : Prog :=
  { p with mode := .running, cls := cls, pc := 0, rep := none, counters := List.replicate 8 0, issued := [], bars := [], resume := none,
           ppDone := false, lastPass := [], since := n }

@[simp] theorem Prog.started_slot (cls n : Nat) (p : Prog) : (p.started cls n).slot = p.slot := rfl

/-- The state in which the tasks of the module are one more. -/
def State.countTask (s : State) : State := { s with halls := { s.halls with tasks := s.halls.tasks + 1 } }

/-- The state in which the program of a task has been put at its first word. -/
def State.taskPut (s : State) (fk slot cls : Nat) (i : Image) : State :=
  (s.clearedFor fk slot i).countTask.modProg fk slot (Prog.started cls (s.halls.tasks + 1))

section
variable {s : State} {fk slot : Nat} {p : Prog} (h : s.progAt fk slot = some p) (cls : Nat)
include h

theorem State.startTask_eq : s.startTask fk slot cls =
    (s.taskPut fk slot cls p.img).setFlight fk { ((s.taskPut fk slot cls p.img).flight fk).atTask with current := some slot } := by
  rw [State.taskPut, ← s.clearedFor_tasks fk slot p.img]
  simp only [State.startTask, h]
  rfl

theorem State.startTask_progAt (sl : Nat) :
    (s.startTask fk slot cls).progAt fk sl = if sl = slot then some (p.started cls (s.halls.tasks + 1)) else s.progAt fk sl := by
  have hclear : ∀ j, (s.clearedFor fk slot p.img).countTask.progAt fk j = s.progAt fk j :=
    State.progAt_of_flight ((s.clearedFor_writesOnly fk slot p.img).flight fk)
  rw [State.startTask_eq h, State.progAt_setFlight _ (by rfl), State.taskPut]
  split
  · next hsl => rw [hsl, State.progAt_modProg_self _ _ _ (Prog.started_slot _ _), hclear, h, Option.map_some]
  · next hsl => rw [State.progAt_modProg_ne _ _ hsl (Prog.started_slot _ _), hclear]

/-- R219: the flight of a task, but for its programs: the planes stay, tiles and stores are as if never written. -/
theorem State.startTask_flight :
    ∃ progs, (s.startTask fk slot cls).flight fk = { (s.flight fk).atTask with progs := progs, current := some slot } := by
  have hclear : (s.clearedFor fk slot p.img).countTask.flight fk = s.flight fk := (s.clearedFor_writesOnly fk slot p.img).flight fk
  refine ⟨((s.taskPut fk slot cls p.img).flight fk).progs, ?_⟩
  rw [State.startTask_eq h, State.flight_setFlight_self, State.taskPut, State.modProg, State.flight_setFlight_self, hclear]
  rfl

theorem State.startTask_tasks : (s.startTask fk slot cls).halls.tasks = s.halls.tasks + 1 := by
  rw [State.startTask_eq h]
  exact congrArg (· + 1) (s.clearedFor_tasks fk slot p.img)

theorem State.startTask_mem : (s.startTask fk slot cls).mem = s.mem := by
  rw [State.startTask_eq h]
  exact (s.clearedFor_writesOnly fk slot p.img).mem

end

/-- Settles O7: the state is cleared for the task, its program is put at word 0, and the flight keeps its planes and other programs alone. -/
theorem taskStartBeginsAtWordZero : Obligations.TaskStartBeginsAtWordZero := by
  intro s fk slot cls p h
  obtain ⟨progs, hflight⟩ := State.startTask_flight h cls
  refine ⟨p.started cls (s.halls.tasks + 1), (State.startTask_progAt h cls slot).trans (if_pos rfl), rfl, rfl, rfl, rfl, rfl, rfl, rfl, rfl, rfl, rfl, rfl,
    State.startTask_tasks h cls, ?_⟩
  rw [hflight]
  exact ⟨rfl, rfl, rfl, rfl, rfl, rfl, fun sl hsl => (State.startTask_progAt h cls sl).trans (if_neg hsl), State.startTask_mem h cls⟩

end Sys2Proof.Machine
end

section
/-!
SUPPORT. Laws of pre-emption points (R242, R243): what the writes of a stream's entry leave as they were, what a flight holds once its point is taken, and the
statement on a point.
-/

namespace Sys2Proof.Machine

/-! ### Writes of device memory and of stream entries leave the halls (R318, R437) -/

@[simp] theorem State.signal_halls (s : State) (v : Nat) : (s.signal v).halls = s.halls := (s.signal_frame v).halls

@[simp] theorem State.memWrite_halls (s : State) (a : Nat) (d : Bytes) (p : Bool) : (s.memWrite a d p).halls = s.halls := by
  unfold State.memWrite
  split
  · rfl
  · split <;> rfl

@[simp] theorem State.backInvalidate_halls (s : State) (l : Nat) : (s.backInvalidate l).halls = s.halls := by
  unfold State.backInvalidate
  split <;> rfl

theorem drainHost_halls (n : Nat) (s : State) : (drainHost n s).halls = s.halls := by
  induction n generalizing s with
  | zero => rfl
  | succ n ih =>
    unfold drainHost
    split
    · rfl
    · simp [ih]
    · split
      · exact ih _
      · split
        · exact ih _
        · split
          · rfl
          · simp
    · exact ih _
    · exact ih _
    · split
      · split
        · simp
        · simp [ih]
      · simp [ih]

@[simp] theorem State.devWrite_halls (s : State) (a : Nat) (d : Bytes) (p : Bool) : (s.devWrite a d p).halls = s.halls := drainHost_halls _ _

@[simp] theorem State.moveTo_halls (s : State) (dest : Word64) (a : Nat) (d : Bytes) : (s.moveTo dest a d).halls = s.halls :=
  (State.sendFrame_answerFrame _ _).halls

@[simp] theorem State.flushWords_halls (s : State) (i k n : Nat) : (s.flushWords i k n).halls = s.halls := by
  unfold State.flushWords
  extract_lets u
  have hu : u.halls = s.halls := s.devWrite_halls _ _ _
  split
  · exact (State.moveTo_halls _ _ _ _).trans hu
  · exact hu

@[simp] theorem State.setState_halls (s : State) (i st : Nat) : (s.setState i st).halls = s.halls := by
  unfold State.setState
  extract_lets u v w
  have hv : v.halls = s.halls := by simp [v, u, State.putSw]
  have hw : w.halls = s.halls := by
    unfold w
    split
    · simp [hv]
    · exact hv
  rw [State.flushWords_halls, hw]

/-- R297: a stream that is made to wait for its input leaves the halls. -/
@[simp] theorem State.waitForInput_halls (s : State) (i : Nat) : (s.waitForInput i).halls = s.halls := by simp [State.waitForInput]

@[simp] theorem State.holdForInput_halls (s : State) (job : Nat) : (s.holdForInput job).2.halls = s.halls := by
  unfold State.holdForInput
  split
  · rfl
  · refine foldl_keeps (fun r : Bool × State => r.2.halls = s.halls) _ (fun r i hr => ?_) _ rfl
    by_cases hi : r.2.inputWaits i = true
    · rw [if_pos hi, State.waitForInput_halls, hr]
    · rw [if_neg hi, hr]

/-! ### A flight whose point is taken (R243) -/

/-- R243: planes, token store, outlier store and foot tables of a flight are undefined; its tiles are as given. -/
structure FlightSt.Forgotten (tiles : KMap Tile) (x : FlightSt) : Prop where
  active : x.active = []
  staged : x.staged = []
  tokens : x.tokens = []
  outliers : x.outliers = []
  tables : x.tables = []
  tiles : x.tiles = tiles

theorem FlightSt.forget_forgotten (x : FlightSt) : x.forget.Forgotten x.tiles := ⟨rfl, rfl, rfl, rfl, rfl, rfl⟩

theorem State.forgotten_modProg {s : State} {fk : Nat} {tiles : KMap Tile} (h : (s.flight fk).Forgotten tiles) (slot : Nat) (g : Prog → Prog) :
    ((s.modProg fk slot g).flight fk).Forgotten tiles := by
  rw [State.modProg, State.flight_setFlight_self]
  exact ⟨h.active, h.staged, h.tokens, h.outliers, h.tables, h.tiles⟩

/-- R242, R243: the state once a point is taken: the flight forgets, and the resume record stands. -/
def State.pointTaken (s : State) (fk : Nat) (p : Prog) : State :=
  (s.setFlight fk (s.flight fk).forget).modProg fk p.slot (fun q => { q with resume := some ⟨p.pc, p.rep, p.bars⟩ })

/-- Where a program whose point is taken stands: its image and word are as they were, its resume record holds them, and its flight has forgotten. -/
structure Recorded (fk : Nat) (p q : Prog) (tiles : KMap Tile) (t : State) : Prop where
  prog : t.progAt fk p.slot = some q
  slot : q.slot = p.slot
  resume : q.resume = some ⟨p.pc, p.rep, p.bars⟩
  img : q.img = p.img
  pc : q.pc = p.pc
  flight : (t.flight fk).Forgotten tiles

section
variable {s t u : State} {fk : Nat} {p q : Prog} {tiles : KMap Tile}

theorem State.pointTaken_recorded (h : s.progAt fk p.slot = some p) :
    Recorded fk p { p with resume := some ⟨p.pc, p.rep, p.bars⟩ } (s.flight fk).tiles (s.pointTaken fk p) := by
  refine ⟨?_, rfl, rfl, rfl, rfl, State.forgotten_modProg ?_ _ _⟩
  · rw [State.pointTaken, State.progAt_modProg_self _ _ _ (fun _ => by rfl), State.progAt_setFlight _ (by rfl), h]
    rfl
  · rw [State.flight_setFlight_self]
    exact (s.flight fk).forget_forgotten

theorem Recorded.of_halls (h : Recorded fk p q tiles t) (hh : u.halls = t.halls) : Recorded fk p q tiles u := by
  have hflight : u.flight fk = t.flight fk := by simp only [State.flight, hh]
  exact ⟨(State.progAt_of_flight hflight _).trans h.prog, h.slot, h.resume, h.img, h.pc, hflight ▸ h.flight⟩

/-- A change of the program that keeps its word and its record. -/
theorem Recorded.modProg (h : Recorded fk p q tiles t) {g : Prog → Prog} (hslot : ∀ x, (g x).slot = x.slot) (hresume : (g q).resume = q.resume)
    (himg : (g q).img = q.img) (hpc : (g q).pc = q.pc) : Recorded fk p (g q) tiles (t.modProg fk p.slot g) :=
  ⟨by rw [State.progAt_modProg_self _ _ _ hslot, h.prog, Option.map_some], (hslot q).trans h.slot, hresume.trans h.resume, himg.trans h.img,
    hpc.trans h.pc, State.forgotten_modProg h.flight _ _⟩

/-- R242: the suspension of the program at its point. -/
theorem Recorded.suspend (h : Recorded fk p q tiles t) :
    Recorded fk p { q with mode := .suspended, key := t.runKey q } tiles (t.suspendProg fk p.slot) := by
  have hmod : Recorded fk p { q with mode := .suspended, key := t.runKey q } tiles
      ((t.modProg fk p.slot (fun x => { x with mode := .suspended, key := t.runKey x })).count Od.suspensions 1) :=
    (h.modProg (g := fun x => { x with mode := .suspended, key := t.runKey x }) (fun _ => rfl) rfl rfl rfl).of_halls rfl
  unfold State.suspendProg
  extract_lets w
  split
  · refine ⟨(State.progAt_setFlight _ (by rfl) _).trans hmod.prog, hmod.slot, hmod.resume, hmod.img, hmod.pc, ?_⟩
    rw [State.flight_setFlight_self]
    exact ⟨hmod.flight.active, hmod.flight.staged, hmod.flight.tokens, hmod.flight.outliers, hmod.flight.tables, hmod.flight.tiles⟩
  · exact hmod

end

/-! ### The statement -/

section
variable {f : FlightId} {s : State} {p : Prog} (hf : flightOk f = true) (hrun : s.runningProg (flightKey f) = some p)
  (hpoint : opPP (p.img.ops.getD p.pc 0) = true ∨ opOf (p.img.ops.getD p.pc 0) = 0x09) (hdone : p.ppDone = false) (hquiet : p.quiet = true)
  (hlat : p.img.fixedLat = false)
include hf hrun hpoint hdone hquiet hlat

/-- R123: off a tile boundary nothing is offered. -/
theorem execPreemptionPoint_off_boundary (h : (s.flight (flightKey f)).atBoundary = false) :
    execPreemptionPoint f s = .next (s.modProg (flightKey f) p.slot (fun q => { q with ppDone := true })) := by
  have hpp : (opPP (p.img.ops.getD p.pc 0) || opOf (p.img.ops.getD p.pc 0) == 0x09) = true := by simpa using hpoint
  simp only [execPreemptionPoint, hf, hrun, hpp, hdone, hquiet, hlat, h]
  rfl

/-- R242: at a tile boundary the point is taken; a program whose stream waits for input is suspended, another goes on or is offered. -/
theorem execPreemptionPoint_at_boundary (h : (s.flight (flightKey f)).atBoundary = true) :
    execPreemptionPoint f s = .next
      (let r := (s.pointTaken (flightKey f) p).holdForInput p.img.job
       if r.1 then r.2.suspendProg (flightKey f) p.slot
       else r.2.modProg (flightKey f) p.slot (fun q =>
        { q with ppDone := !r.2.higherWaits (flightKey f) p, mode := if r.2.higherWaits (flightKey f) p then .offered else .running })) := by
  have hpp : (opPP (p.img.ops.getD p.pc 0) || opOf (p.img.ops.getD p.pc 0) == 0x09) = true := by simpa using hpoint
  simp only [execPreemptionPoint, hf, hrun, hpp, hdone, hquiet, hlat, h]
  exact (apply_ite Host.Outcome.next _ _ _).symm

end

/-- Settles O9: off a boundary the program goes on; at one its record is written, and what follows keeps it. -/
theorem preemptionPointWritesResumeRecord : Obligations.PreemptionPointWritesResumeRecord := by
  intro f s p hf hrun hpoint hdone hquiet hlat
  have hx : exec (.preemptionPoint f) s = execPreemptionPoint f s := by rfl
  refine ⟨fun hoff => hx.trans (execPreemptionPoint_off_boundary hf hrun hpoint hdone hquiet hlat hoff), fun hat => ?_⟩
  obtain ⟨-, -, -, hprog, -⟩ := runningProg_progAt hrun
  have hrec := (State.pointTaken_recorded hprog).of_halls ((s.pointTaken (flightKey f) p).holdForInput_halls p.img.job)
  rw [hx, execPreemptionPoint_at_boundary hf hrun hpoint hdone hquiet hlat hat]
  generalize (s.pointTaken (flightKey f) p).holdForInput p.img.job = r at hrec ⊢
  obtain ⟨held, u⟩ := r
  cases held with
  | true =>
    obtain ⟨hp, -, hresume, himg, hpc, hflight⟩ := hrec.suspend
    exact ⟨_, _, rfl, hp, hresume, himg, hpc, .inr (.inr rfl), hflight.active, hflight.staged, hflight.tokens, hflight.outliers, hflight.tables, hflight.tiles⟩
  | false =>
    obtain ⟨hp, -, hresume, himg, hpc, hflight⟩ := hrec.modProg
      (g := fun q => { q with ppDone := !u.higherWaits (flightKey f) p, mode := if u.higherWaits (flightKey f) p then .offered else .running })
      (fun _ => rfl) rfl rfl rfl
    refine ⟨_, _, rfl, hp, hresume, himg, hpc, ?_, hflight.active, hflight.staged, hflight.tokens, hflight.outliers, hflight.tables, hflight.tiles⟩
    cases u.higherWaits (flightKey f) p
    · exact .inl ⟨rfl, rfl⟩
    · exact .inr (.inl ⟨rfl, rfl⟩)

end Sys2Proof.Machine
end

section
/-!
SUPPORT. Laws of an accumulate into one tile (R107, R108, R120): what a unit leaves that keeps every tile, what an accumulate that brings rows to one tile makes
of that tile, where no upset strikes; and the statement on a dense PASS.
-/

namespace Sys2Proof.Machine

/-! ### Work that keeps tiles -/

/-- Work keeps the tiles of a flight, other flights, landings and device memory; it may write the flight's planes, stores and programs. -/
structure KeepsTiles (fk : Nat) (s t : State) : Prop where
  tiles : (t.flight fk).tiles = (s.flight fk).tiles
  others : SameOtherFlights fk s t
  landing : ∀ l, t.landing l = s.landing l
  mem : t.mem = s.mem

namespace KeepsTiles

variable {fk : Nat} {s t u : State}

theorem refl (s : State) : KeepsTiles fk s s := ⟨rfl, fun _ _ => rfl, fun _ => rfl, rfl⟩

theorem step (h : KeepsTiles fk s t) (h' : KeepsTiles fk t u) : KeepsTiles fk s u :=
  ⟨h'.tiles.trans h.tiles, fun j hj => (h'.others j hj).trans (h.others j hj), fun l => (h'.landing l).trans (h.landing l), h'.mem.trans h.mem⟩

/-- Work that leaves the maps of flights and landings. -/
theorem of_writesOnly (h : WritesOnly (fun _ => False) s t) : KeepsTiles fk s t :=
  ⟨by rw [h.flight], fun j _ => h.flight j, fun l => h.landing l id, h.mem⟩

theorem of_log (h : LogFrame s t) : KeepsTiles fk s t := .of_writesOnly (.of_log h)

theorem foldl {β : Type} {f : State → β → State} (hf : ∀ r x, KeepsTiles fk r (f r x)) (l : List β) (s : State) : KeepsTiles fk s (l.foldl f s) :=
  foldl_keeps (KeepsTiles fk s) f (fun r x h => h.step (hf r x)) l (.refl s)

theorem tile (h : KeepsTiles fk s t) (i : Nat) : (t.flight fk).tile i = (s.flight fk).tile i := by
  simp only [FlightSt.tile, h.tiles]

end KeepsTiles

theorem State.setFlight_keepsTiles (s : State) {fk : Nat} {x : FlightSt} (h : x.tiles = (s.flight fk).tiles) : KeepsTiles fk s (s.setFlight fk x) :=
  ⟨by rw [State.flight_setFlight_self, h], fun _ hj => s.flight_setFlight_ne hj x, fun _ => rfl, rfl⟩

theorem State.modProg_keepsTiles (s : State) (fk slot : Nat) (g : Prog → Prog) : KeepsTiles fk s (s.modProg fk slot g) :=
  s.setFlight_keepsTiles rfl

theorem State.readBadWeight_writesOnly {L : Nat → Prop} (s : State) (c : OpCtx) (bad : Bool) : WritesOnly L s (s.readBadWeight c bad) := by
  cases bad <;> exact .of_maps rfl rfl rfl

/-! ### An accumulate that brings rows to one tile -/

/-- R77, R107: the rows of x have entered their tile, which is sound; other tiles, other flights, landings and memory are as they were. -/
structure Accumulated (c : OpCtx) (x : Accum) (s t : State) : Prop where
  sums : ((t.flight c.fk).tile x.tile).sums = (((s.flight c.fk).tile x.tile).accum c.W x.fmt x.clamp x.poison x.info x.rows).1.sums
  fmt : ((t.flight c.fk).tile x.tile).fmt = x.fmt
  valid : ((t.flight c.fk).tile x.tile).valid = true
  sound : ((t.flight c.fk).tile x.tile).sound = true
  tiles : ∀ i, i ≠ x.tile → (t.flight c.fk).tile i = (s.flight c.fk).tile i
  others : SameOtherFlights c.fk s t
  landing : ∀ l, t.landing l = s.landing l
  mem : t.mem = s.mem

theorem KeepsTiles.accumulated {c : OpCtx} {x : Accum} {s t u : State} (h : KeepsTiles c.fk s t) (h' : Accumulated c x t u) : Accumulated c x s u :=
  ⟨by rw [h'.sums, h.tile], h'.fmt, h'.valid, h'.sound, fun i hi => (h'.tiles i hi).trans (h.tile i), fun j hj => (h'.others j hj).trans (h.others j hj),
    fun l => (h'.landing l).trans (h.landing l), h'.mem.trans h.mem⟩

theorem Accumulated.keepsTiles {c : OpCtx} {x : Accum} {s t u : State} (h : Accumulated c x s t) (h' : KeepsTiles c.fk t u) : Accumulated c x s u := by
  refine ⟨?_, ?_, ?_, ?_, fun i hi => (h'.tile i).trans (h.tiles i hi), fun j hj => (h'.others j hj).trans (h.others j hj),
    fun l => (h'.landing l).trans (h.landing l), h'.mem.trans h.mem⟩
  all_goals rw [h'.tile]
  exacts [h.sums, h.fmt, h.valid, h.sound]

/-- R121: the record for a rerun changes no sum and no tag. -/
theorem Tile.note_same (t : Tile) (r : Redo) : (t.note r).sums = t.sums ∧ (t.note r).fmt = t.fmt ∧ (t.note r).valid = t.valid ∧ (t.note r).sound = t.sound := by
  unfold Tile.note
  split <;> exact ⟨rfl, rfl, rfl, rfl⟩

/-- What a unit asks of a tile before rows enter it without a refusal or a failed check (R82, R108, R120). -/
def Tile.takes (t : Tile) (x : Accum) : Prop := t.sound = true ∧ (∀ r ∈ x.rows, r.sound = true) ∧ (t.valid = true → t.fmt = x.fmt)

/-- R107, R108, R120: without upsets the rows enter their tile, and no residue check fails. -/
theorem State.enterTiles_one {s : State} {c : OpCtx} {x : Accum} (h : ((s.flight c.fk).tile x.tile).takes x) (main : Nat) :
    ∃ t, s.enterTiles c [] main [x] = some (t, []) ∧ Accumulated c x s t ∧ (t.flight c.fk).active = (s.flight c.fk).active := by
  obtain ⟨hsound, hrows, hfmt⟩ := h
  rw [← c.flightKey_flight] at hsound hfmt
  obtain ⟨u, hacc, hsums, hvalid, hufmt, husound, hframe⟩ := s.accumulate_some c.flight x hsound hrows hfmt
  rw [c.flightKey_flight] at hsums hvalid hufmt husound hframe
  obtain ⟨hns, hnf, hnv, hnd⟩ := ((u.flight c.fk).tile x.tile).note_same (u.redoOf c main)
  refine ⟨u.setTile c.fk x.tile (((u.flight c.fk).tile x.tile).note (u.redoOf c main)), by simp [State.enterTiles, hacc], ⟨?_, ?_, ?_, ?_, fun i hi => ?_,
    fun j hj => (u.flight_setFlight_ne hj _).trans (hframe.flight j hj), hframe.landing, hframe.mem⟩, ?_⟩
  · rw [State.tile_setTile_self, hns, hsums]
    rfl
  · rw [State.tile_setTile_self, hnf, hufmt]
  · rw [State.tile_setTile_self, hnv, hvalid]
  · rw [State.tile_setTile_self, hnd, husound]
  · rw [State.tile_setTile_ne _ _ hi, hframe.tiles i hi]
  · rw [State.setTile, State.flight_setFlight_self, hframe.active]

/-- R107: an accumulate that brings rows to one tile, where no upset strikes and no landing read meets an error, is issued with them in it. -/
theorem State.accBody_one {s t : State} {hw : PassHw} {c : OpCtx} {x : Accum} (hfoot : hw.foot = ⟨[], []⟩) (hacc : s.accsOf hw false c c.main = .ok t [x])
    (h : ((t.flight c.fk).tile x.tile).takes x) :
    ∃ r, State.accBody hw c s = (r, .open_) ∧ Accumulated c x t r ∧ (r.flight c.fk).active = (t.flight c.fk).active := by
  obtain ⟨u, henter, hu, hactive⟩ := State.enterTiles_one h c.main
  have hend : WritesOnly (fun _ => False) u (u.tick.holdShare c) := (State.tick_writesOnly u).step (State.holdShare_writesOnly _ c)
  refine ⟨u.tick.holdShare c, ?_, hu.keepsTiles (.of_writesOnly hend), by rw [hend.flight, hactive]⟩
  simp [State.accBody, State.landErrors, hfoot, hacc, henter, State.recoverAll]

/-! ### The residue check of a promotion (R119, R120) -/

theorem res7_eq_iff {x y : Int} : res7 x = res7 y ↔ (x - y) % 7 = 0 := by
  unfold res7
  omega

/-- R120: a lane's sum that differs from the one its residue is of, by an amount that 7 does not divide, fails the check. -/
theorem AccWord.plus_fails (w : AccWord) {n d : Int} (hd : d % 7 ≠ 0) (k : Nat) : (w.plus (n + d) (res7 n) k).2 = false := by
  have h : res7 (n + d) ≠ res7 n := fun he => hd (by simpa using res7_eq_iff.1 he)
  simp [AccWord.plus, h]

/-! ### The planes of a pass (R187, R281) -/

section
variable {L : Nat → Prop}

theorem WritesOnly.ite {s t u : State} {p : Prop} [Decidable p] (ht : WritesOnly L s t) (hu : WritesOnly L s u) : WritesOnly L s (if p then t else u) := by
  split <;> assumption

/-- R280, R281: a translation counts, and may enter the cache. -/
theorem State.translate_writesOnly (s : State) (hall t va : Nat) (write : Bool) : WritesOnly L s (s.translate hall t va write).2 := by
  unfold State.translate
  split
  · exact .of_log (State.count_frame _ _ _)
  · split
    · exact .of_log (State.count_frame _ _ _)
    · extract_lets perm keep u r
      have hperm : ∀ x v, WritesOnly L v (perm x v).2 := fun x v => by
        have hfault : WritesOnly L v (v.count Od.xlateFaults 1) := .of_log (State.count_frame _ _ _)
        cases x with
        | ok b z e =>
          unfold perm
          dsimp only
          rw [apply_ite Prod.snd]
          exact .ite (.refl v) hfault
        | fault code => exact hfault
        | page => exact .refl v
      have hwalk : WritesOnly L s (perm r u).2 := (WritesOnly.of_log (State.count_frame _ _ _)).step (hperm r u)
      split
      · exact (WritesOnly.of_log (State.count_frame _ _ _)).step (hperm _ _)
      · split
        · next hok =>
          rw [hok] at hwalk
          exact hwalk.step (.of_maps rfl rfl rfl)
        · exact hwalk

theorem State.arrTouch_writesOnly (s : State) (errs : List BitErr) (hall tenant : Nat) (a : Arr) (off n : Nat) :
    WritesOnly L s (s.arrTouch errs hall tenant a off n) := by
  unfold State.arrTouch
  split
  · exact .refl s
  · split
    · exact .refl s
    · exact (WritesOnly.foldl (fun t i => t.translate_writesOnly _ _ _ _) _ s).step (.of_log (State.count_frame _ _ _))

theorem State.fetchTouch_writesOnly (s : State) (errs : List BitErr) (hall tenant : Nat) (x : Arrays) (b : Nat) (f : Fetched) :
    WritesOnly L s (s.fetchTouch errs hall tenant x b f) :=
  ((s.arrTouch_writesOnly _ _ _ _ _ _).step (State.arrTouch_writesOnly _ _ _ _ _ _ _)).step (State.arrTouch_writesOnly _ _ _ _ _ _ _)

end

/-- R187, R192: planes that are delivered at once, with no bit error and no block that fails, reach the flight's block buffers alone. -/
theorem State.loadPlanes_keepsTiles {s t : State} {c : OpCtx} {ti : Nat} {segs : List Nat} {hw : PassHw} (herrs : hw.errs = [])
    {planes : List (List Int × Bool)} (h : s.loadPlanes c ti segs hw false = .ok t planes) : KeepsTiles c.fk s t := by
  unfold State.loadPlanes at h
  split at h
  · cases h
  · next x _ =>
    extract_lets segs bs u y src fs new v done failing _ _ w bad already last _ at h
    split at h
    · cases h
    · split at h
      · cases h
      · have hu : u = s := by simp [u, State.bitErrors, herrs]
        have hv : KeepsTiles c.fk s v := by
          rw [← hu]
          exact .of_writesOnly (.foldl (fun t p => t.fetchTouch_writesOnly _ _ _ _ _ _) new u)
        clear_value v
        split at h
        · cases h
        · split at h
          · split at h <;> cases h
          · next hnone =>
            have hfail : failing = [] := by simpa using hnone
            have hkept : KeepsTiles c.fk s w := by simpa [w, hfail] using hv
            cases h
            refine (hkept.step (State.setFlight_keepsTiles w ?_)).step (.of_log (State.count_frame _ _ _))
            rfl

/-! ### What a dense PASS brings (R95 to R109, R149) -/

/-- R149: the items of a PASS word under its mask. -/
def State.maskedItems (s : State) (c : OpCtx) (m : Option (Buf × Nat)) (items : List (List Elem)) : List (List Elem) :=
  (items.zip (List.range (bits c.word 49 44 + 1))).map (fun p =>
    (p.1.zip (List.range c.T)).map (fun e => e.1.under (s.maskBit m p.2 (bits c.word 57 50 * c.T + e.2))))

/-- What a PASS word brings to its target tile, over the tread rows of a plane. -/
def OpCtx.passAccum (c : OpCtx) (fmt : Nat) (items : List (List Elem)) (bad : Bool) (rows : List (List Int)) : Accum :=
  let o := Operands.of (spreadFor c.g fmt) items
  ⟨tgtTile (bits c.word 43 28), fmt, o.clamp, o.poison || bad, SkipInfo.none, o.contribs c.W rows (tgtRow (bits c.word 43 28))⟩

/-- R106: a ternary pass brings one row per item and window, from lane 0 on. -/
theorem Operands.contribs_row {o : Operands} {W rowBase : Nat} {rows : List (List Int)} {r : Contrib} (hr : r ∈ o.contribs W rows rowBase) :
    rowBase ≤ r.row ∧ r.row < rowBase + o.items.length ∧ r.lane = 0 := by
  simp only [Operands.contribs, List.mem_flatMap, List.mem_map] at hr
  obtain ⟨_, _, p, hp, rfl⟩ := hr
  have hlt : p.2 < o.items.length := List.mem_range.1 (List.of_mem_zip hp).2
  exact ⟨Nat.le_add_right _ _, Nat.add_lt_add_left hlt _, rfl⟩

theorem State.length_maskedItems_le (s : State) (c : OpCtx) (m : Option (Buf × Nat)) (items : List (List Elem)) :
    (s.maskedItems c m items).length ≤ bits c.word 49 44 + 1 := by
  simp [State.maskedItems]

section
variable {s : State} {c : OpCtx} {fmt : Nat} {items : List (List Elem)} {m : Option (Buf × Nat)} {hw : PassHw}
  (htarget : c.badTarget (bits c.word 43 28) (bits c.word 49 44 + 1) = none)
  (hitems : s.streamed c (bits c.word 81 74) (bits c.word 73 58) (bits c.word 49 44 + 1) (bits c.word 57 50 * c.T) (bits c.word 57 50) = .ok (fmt, items))
  (hmask : s.passMask c c.word (bits c.word 49 44 + 1) = .ok m)
include htarget hitems hmask

/-- R97: with HOLD the active plane serves again. -/
theorem State.passAccs_of_hold (hhold : bit c.word 82 = true) :
    ∃ t, s.passAccs hw false c = .ok t [c.passAccum fmt (s.maskedItems c m items) (s.flight c.fk).planeBad (s.activeRows c)] ∧ KeepsTiles c.fk s t ∧
      (t.flight c.fk).active = (s.flight c.fk).active := by
  simp only [State.passAccs, htarget, hitems, hmask, hhold, if_true]
  refine ⟨_, rfl, ((KeepsTiles.of_log (State.counts_frame _ _)).step (.of_writesOnly (State.readBadWeight_writesOnly _ _ _))).step
    (State.modProg_keepsTiles _ _ _ _), ?_⟩
  simp [State.modProg]

/-- R93: without HOLD the plane that the weight blocks spell becomes the active one, and its rows serve. -/
theorem State.passAccs_of_load (hhold : bit c.word 82 = false) (herrs : hw.errs = []) {u : State} {planes : List (List Int × Bool)}
    (hload : s.loadPlanes c (bits c.word 111 107) [bits c.word 106 83] hw false = .ok u planes) :
    let p := planes.getD 0 ([], false)
    ∃ t, s.passAccs hw false c = .ok t [c.passAccum fmt (s.maskedItems c m items) p.2 (pieces c.W c.T p.1)] ∧ KeepsTiles c.fk s t ∧
      (t.flight c.fk).active = planeOf p.1 := by
  intro p
  have htake : KeepsTiles c.fk s (u.takePlane c.fk (planeOf p.1) p.2) :=
    (State.loadPlanes_keepsTiles herrs hload).step (State.setFlight_keepsTiles _ rfl)
  have hbad : ((u.takePlane c.fk (planeOf p.1) p.2).flight c.fk).planeBad = p.2 := by simp [State.takePlane]
  simp only [State.passAccs, htarget, hitems, hmask, hhold, hload]
  refine ⟨_, by rw [hbad]; rfl, ((htake.step (.of_log (State.counts_frame _ _))).step (.of_writesOnly (State.readBadWeight_writesOnly _ _ _))).step
    (State.modProg_keepsTiles _ _ _ _), ?_⟩
  simp [State.modProg, State.takePlane, p]

/-- Whichever plane serves, a PASS brings its rows to its target, and keeps tiles. -/
theorem State.passAccs_brings (herrs : hw.errs = [])
    (hplane : bit c.word 82 = true ∨ ∃ u planes, s.loadPlanes c (bits c.word 111 107) [bits c.word 106 83] hw false = .ok u planes) :
    ∃ t bad rows, s.passAccs hw false c = .ok t [c.passAccum fmt (s.maskedItems c m items) bad rows] ∧ KeepsTiles c.fk s t ∧
      (bit c.word 82 = true → rows = s.activeRows c ∧ (t.flight c.fk).active = (s.flight c.fk).active) := by
  cases hhold : bit c.word 82 with
  | true =>
    obtain ⟨t, hacc, hkeep, hactive⟩ := State.passAccs_of_hold (hw := hw) htarget hitems hmask hhold
    exact ⟨t, _, _, hacc, hkeep, fun _ => ⟨rfl, hactive⟩⟩
  | false =>
    obtain ⟨u, planes, hload⟩ := hplane.resolve_left (by simp [hhold])
    obtain ⟨t, hacc, hkeep, -⟩ := State.passAccs_of_load htarget hitems hmask hhold herrs hload
    exact ⟨t, _, _, hacc, hkeep, fun h => by cases h⟩

end

/-! ### The statement -/

/-- Settles O12: whichever plane serves, the PASS brings rows to its target alone, which takes them. -/
theorem densePassAccumulates : Obligations.DensePassAccumulates := by
  refine ⟨fun w n d k hw => ⟨AccWord.plus_ok hw n k, fun hd => w.plus_fails hd k⟩, ?_⟩
  intro f hw s c fmt items m hissue htarget hitems hmask hfoot herrs hsound hfmt hplane
  obtain ⟨t, bad, rows, hacc, hkeep, hhold⟩ := State.passAccs_brings htarget hitems hmask herrs hplane
  have hacc' : s.accsOf hw false c c.main = .ok t [c.passAccum fmt (s.maskedItems c m items) bad rows] := by
    simp [State.accsOf, hissue.opOf_word, hacc]
  have htakes : ((t.flight c.fk).tile (tgtTile (bits c.word 43 28))).takes (c.passAccum fmt (s.maskedItems c m items) bad rows) := by
    rw [hkeep.tile]
    exact ⟨hsound, Operands.contribs_sound _ _ _ _, hfmt⟩
  obtain ⟨r, hbody, hin, hactive⟩ := State.accBody_one hfoot hacc' htakes
  have hall := hkeep.accumulated hin
  have hx : exec (.passOp f hw) s = execPassOp f hw s := by rfl
  refine ⟨r, _, _, _, by simp [hx, execPassOp, hissue.flightOk, issueOp_open hissue hbody], hall.sums, hall.fmt, hall.valid, hall.sound, fun x hxr => ?_,
    hall.tiles, hall.others, fun h => ?_⟩
  · obtain ⟨hlo, hhi, hlane⟩ := Operands.contribs_row hxr
    have hlen := s.length_maskedItems_le c m items
    exact ⟨hlo, by simp only [Operands.of] at hhi; omega, hlane⟩
  · obtain ⟨hrows, hsame⟩ := hhold h
    exact ⟨hactive.trans hsame, hall.mem, hall.landing, by rw [← hrows]; rfl⟩

end Sys2Proof.Machine
end

section
/-!
SUPPORT. Laws of what the foot and the fill unit write into a landing (R117, R230): a byte that is listed stays listed, the first byte of a write is listed after
it; and the statement on INJECT, STATSCALE and REDUCE.
-/

namespace Sys2Proof.Machine

/-! ### Writes in turn -/

/-- What one element of a list brings about, and every element keeps, holds after the whole list. -/
theorem foldl_reaches {β γ : Type} (P : β → Prop) (f : β → γ → β) (keep : ∀ b c, P b → P (f b c)) {x : γ} (make : ∀ b, P (f b x)) {l : List γ}
    (hx : x ∈ l) (b : β) : P (l.foldl f b) := by
  induction l generalizing b with
  | nil => cases hx
  | cons c t ih =>
    rcases List.mem_cons.1 hx with rfl | ht
    · exact foldl_keeps P f keep t (make b)
    · exact ih ht (f b c)

/-- Each place of a list numbered from 0 holds an element of it. -/
theorem exists_mem_zip_range {α : Type} {l : List α} {n i : Nat} (hl : l.length = n) (hi : i < n) : ∃ a ∈ l, (a, i) ∈ l.zip (List.range n) := by
  subst hl
  refine ⟨l[i], List.getElem_mem hi, List.mem_iff_getElem.2 ⟨i, by simpa using hi, by simp⟩⟩

theorem kfind_kput_ne_none {α : Type} {j k : Nat} {v : α} {m : KMap α} (h : kfind j m ≠ none) : kfind j (kput k v m) ≠ none := by
  by_cases hj : j = k
  · rw [hj, kfind_kput_self]
    exact Option.some_ne_none v
  · rwa [kfind_kput_ne hj]

/-! ### Bytes that a landing lists -/

/-- A landing lists a byte at an offset. -/
def State.Lists (s : State) (l off : Nat) : Prop := kfind off (s.landing l).bytes ≠ none

theorem kputBytes_keeps {k : Nat} (data : Bytes) {m : KMap Byte} (h : kfind k m ≠ none) (off : Nat) : kfind k (kputBytes m off data) ≠ none := by
  induction data generalizing m off with
  | nil => exact h
  | cons b t ih => exact ih (kfind_kput_ne_none h) _

theorem kputBytes_head {data : Bytes} (hd : data ≠ []) (m : KMap Byte) (off : Nat) : kfind off (kputBytes m off data) ≠ none := by
  cases data with
  | nil => exact absurd rfl hd
  | cons b t => exact kputBytes_keeps t (by simp) _

section
variable {s : State} {l off : Nat} {data : Bytes}

/-- A write lists its first byte. -/
theorem State.lists_landWrite_self (hd : data ≠ []) (poison : Bool) (tenant : Nat) : (s.landWrite l off data poison tenant).Lists l off := by
  simp only [State.Lists, State.landWrite, State.landing_setLanding_self, Landing.write, if_neg hd]
  exact kputBytes_head hd _ _

/-- A write unlists no byte. -/
theorem State.Lists.landWrite {j k : Nat} (h : s.Lists j k) (l off : Nat) (data : Bytes) (poison : Bool) (tenant : Nat) :
    (s.landWrite l off data poison tenant).Lists j k := by
  by_cases hj : j = l
  · subst hj
    simp only [State.Lists, State.landWrite, State.landing_setLanding_self, Landing.write]
    split
    · exact h
    · exact kputBytes_keeps data h off
  · simpa only [State.Lists, State.landWrite, State.landing_setLanding_ne _ hj] using h

theorem State.Lists.of_landing {t : State} {j k : Nat} (h : s.Lists j k) (ht : t.landing j = s.landing j) : t.Lists j k := by
  rwa [State.Lists, ht]

end

/-! ### INJECT (R118) -/

theorem State.injectAccs_ok {s : State} {c : OpCtx} {b : Buf} (hfoot : footCheck c.g c.desc = none) (hneed : s.need c.since c.fk (drainD c.desc).aux [1, 2] = .ok b)
    (hrows : ∀ i < (drainD c.desc).rows, b.footOk c.row0 (i + (drainD c.desc).rowBase) = true) :
    ∃ t x, s.injectAccs c = .ok t [x] ∧ KeepsTiles c.fk s t ∧ x.tile = (drainD c.desc).tile ∧ x.fmt = b.fmt ∧ x.info = SkipInfo.none ∧
      ∀ r ∈ x.rows, r.sound = true := by
  have hall : ((List.range (drainD c.desc).rows).map (· + (drainD c.desc).rowBase)).all (fun r => b.footOk c.row0 r) = true := by simpa using hrows
  refine ⟨_, _, by simp only [State.injectAccs, hfoot, hneed, hall]; rfl, .of_log (State.count_frame _ _ _), rfl, rfl, rfl, fun r hr => ?_⟩
  obtain ⟨i, -, hi⟩ := List.mem_flatMap.1 hr
  exact injectContribs_sound _ _ _ r hi

/-- R118: INJECT, whose rows lie in its buffer, is issued with them in its tile. -/
theorem State.injectBody_open {s : State} {c : OpCtx} {b : Buf} (hop : opOf c.word = 0x20) (hfoot : footCheck c.g c.desc = none)
    (hneed : s.need c.since c.fk (drainD c.desc).aux [1, 2] = .ok b)
    (hrows : ∀ i < (drainD c.desc).rows, b.footOk c.row0 (i + (drainD c.desc).rowBase) = true)
    (hsound : ((s.flight c.fk).tile (drainD c.desc).tile).sound = true)
    (hfmt : ((s.flight c.fk).tile (drainD c.desc).tile).valid = true → ((s.flight c.fk).tile (drainD c.desc).tile).fmt = b.fmt) :
    ∃ r x, State.accBody (footPass ⟨[], []⟩) c s = (r, .open_) ∧ Accumulated c x s r ∧ x.tile = (drainD c.desc).tile ∧ x.fmt = b.fmt ∧
      x.info = SkipInfo.none := by
  obtain ⟨t, x, hacc, hkeep, htile, hxfmt, hinfo, hxrows⟩ := State.injectAccs_ok hfoot hneed hrows
  have htakes : ((t.flight c.fk).tile x.tile).takes x := by
    rw [hkeep.tile, htile]
    exact ⟨hsound, hxrows, fun h => (hfmt h).trans hxfmt.symm⟩
  obtain ⟨r, hbody, hin, -⟩ := State.accBody_one (s := s) (hw := footPass ⟨[], []⟩) rfl (by simp [State.accsOf, hop, hacc]) htakes
  exact ⟨r, x, hbody, hkeep.accumulated hin, htile, hxfmt, hinfo⟩

/-! ### STATSCALE and REDUCE (R117, R230) -/

theorem leBytes_ne_nil (n v : Nat) : leBytes (n + 1) v ≠ [] := by simp [leBytes]

/-- R115: a record has bytes. -/
theorem StatRec.bytes_ne_nil (r : StatRec) : r.bytes.1 ≠ [] := by
  have h : (statField r.sum).1 ≠ [] := by simp [statField, leBytes]
  exact List.append_ne_nil_of_right_ne_nil _ h

theorem State.drainStats_length {s : State} {c : OpCtx} {h rowBase rows : Nat} {use write : Bool} {src : Buf} {recs : List (StatRec × Bool)}
    (hs : s.drainStats c h rowBase rows use write = .ok (some (src, recs))) : recs.length = rows := by
  unfold State.drainStats at hs
  split at hs
  · cases hs
  · split at hs
    · cases hs
    · split at hs
      · cases hs
      · split at hs
        · cases hs
        · cases hs
          simp

/-- Work writes one landing alone, and unlists no byte of it. -/
structure WritesMore (l : Nat) (s t : State) : Prop where
  frame : WritesOnly (· = l) s t
  keeps : ∀ k, s.Lists l k → t.Lists l k

namespace WritesMore

variable {l : Nat} {s t u : State}

theorem refl (s : State) : WritesMore l s s := ⟨.refl s, fun _ => id⟩

theorem step (h : WritesMore l s t) (h' : WritesMore l t u) : WritesMore l s u := ⟨h.frame.step h'.frame, fun k hk => h'.keeps k (h.keeps k hk)⟩

theorem landWrite (s : State) (l off : Nat) (data : Bytes) (poison : Bool) (tenant : Nat) : WritesMore l s (s.landWrite l off data poison tenant) :=
  ⟨s.landWrite_writesOnly (L := (· = l)) rfl _ _ _ _, fun _ h => h.landWrite _ _ _ _ _⟩

theorem of_writesOnly (h : WritesOnly (fun _ => False) s t) : WritesMore l s t :=
  ⟨⟨h.flight, fun j _ => h.landing j id, h.mem⟩, fun _ hk => hk.of_landing (h.landing l id)⟩

theorem foldl {β : Type} {f : State → β → State} (hf : ∀ r x, WritesMore l r (f r x)) (xs : List β) (s : State) : WritesMore l s (xs.foldl f s) :=
  foldl_keeps (WritesMore l s) f (fun r x h => h.step (hf r x)) xs (.refl s)

end WritesMore

/-- Such work has written the first byte of each of n entries. -/
structure WritesEntries (l : Nat) (at_ : Nat → Nat) (n : Nat) (s t : State) : Prop extends WritesMore l s t where
  lists : ∀ i < n, t.Lists l (at_ i)

section
variable {α : Type} {l n : Nat} {at_ : Nat → Nat} {xs : List α} (hxs : xs.length = n) {f : State → α × Nat → State}
include hxs

/-- Each element of a numbered list is written as the entry of its number. -/
theorem WritesEntries.of_foldl (hf : ∀ r p, WritesMore l r (f r p)) (hmake : ∀ r, ∀ x ∈ xs, ∀ i, (f r (x, i)).Lists l (at_ i)) (s : State) :
    WritesEntries l at_ n s ((xs.zip (List.range n)).foldl f s) := by
  refine ⟨.foldl hf _ s, fun i hi => ?_⟩
  obtain ⟨a, ha, hmem⟩ := exists_mem_zip_range hxs hi
  exact foldl_reaches (fun r : State => r.Lists l (at_ i)) f (fun r p h => (hf r p).keeps _ h) (fun r => hmake r a ha i) hmem s

/-- Each entry is written in one write, and what it counts beside reaches no landing. -/
theorem WritesEntries.of_landWrites
    (hf : ∀ r p, ∃ data poison tenant, data ≠ [] ∧ LogFrame (r.landWrite l (at_ p.2) data poison tenant) (f r p)) (s : State) :
    WritesEntries l at_ n s ((xs.zip (List.range n)).foldl f s) := by
  refine .of_foldl hxs (fun r p => ?_) (fun r x _ i => ?_) s
  · obtain ⟨data, poison, tenant, -, hlog⟩ := hf r p
    exact (WritesMore.landWrite r l _ data poison tenant).step (.of_writesOnly (.of_log hlog))
  · obtain ⟨data, poison, tenant, hdata, hlog⟩ := hf r (x, i)
    exact (State.lists_landWrite_self (s := r) hdata poison tenant).of_landing (by simp only [State.landing, hlog.halls])

end

theorem WritesEntries.step {l : Nat} {at_ : Nat → Nat} {n : Nat} {s t u : State} (h : WritesEntries l at_ n s t) (h' : WritesOnly (fun _ => False) t u) :
    WritesEntries l at_ n s u :=
  ⟨h.toWritesMore.step (.of_writesOnly h'), fun i hi => (h.lists i hi).of_landing (h'.landing l id)⟩

/-- What follows the writes of a unit of the foot. -/
theorem State.tickHoldShare_writesOnly (s : State) (c : OpCtx) : WritesOnly (fun _ => False) s (s.tick.holdShare c) :=
  s.tick_writesOnly.step (State.holdShare_writesOnly _ c)

theorem State.statscaleBody_open {s : State} {c : OpCtx} {src b : Buf} {recs : List (StatRec × Bool)} (hfoot : footCheck c.g c.desc = none)
    (hstats : s.drainStats c (drainD c.desc).statH (drainD c.desc).rowBase (drainD c.desc).rows true false = .ok (some (src, recs)))
    (hneed : s.need c.since c.fk (drainD c.desc).dst [6] = .ok b) (hw : b.writable = true)
    (hlen : 2 * ((drainD c.desc).rowBase + (drainD c.desc).rows) ≤ b.bytesLen) :
    ∃ r, State.statscaleBody c s = (r, .open_) ∧
      WritesEntries b.landing (fun i => b.base * 64 + 2 * ((drainD c.desc).rowBase + i)) (drainD c.desc).rows s r := by
  simp only [State.statscaleBody, hfoot, hstats, hneed, hw, Nat.not_lt.2 hlen, if_false, Bool.not_true, Bool.false_eq_true]
  refine ⟨_, rfl, (WritesEntries.of_landWrites (State.drainStats_length hstats) (fun r p => ?_) s).step (State.tickHoldShare_writesOnly _ c)⟩
  generalize tableEval _ _ = e
  obtain ⟨y, clamped⟩ := e
  generalize scaleOf y = e
  obtain ⟨code, outside⟩ := e
  exact ⟨_, _, _, leBytes_ne_nil 1 _, State.counts_frame _ _⟩

theorem State.reduceBody_open {s : State} {c : OpCtx} {src dst : Buf} (hsrc : s.need c.since c.fk (bits c.word 111 104) [5] = .ok src)
    (hdst : s.need c.since c.fk (bits c.word 103 96) [5] = .ok dst) (hw : dst.writable = true)
    (hslen : 16 * (bits c.word 95 92 * bits c.word 85 70 + (bits c.word 91 86 + 1)) ≤ src.bytesLen) (hdlen : 16 * (bits c.word 91 86 + 1) ≤ dst.bytesLen) :
    ∃ r, State.reduceBody c s = (r, .open_) ∧ WritesEntries dst.landing (fun i => dst.base * 64 + 16 * i) (bits c.word 91 86 + 1) s r := by
  have hfits : ¬(src.bytesLen < 16 * ((bits c.word 95 92 + 1 - 1) * bits c.word 85 70 + (bits c.word 91 86 + 1)) ∨
      dst.bytesLen < 16 * (bits c.word 91 86 + 1)) := by
    rw [Nat.add_sub_cancel]
    omega
  simp only [State.reduceBody, hsrc, hdst, hw, hfits, if_false, Bool.not_true, Bool.false_eq_true]
  exact ⟨_, rfl, (WritesEntries.of_landWrites (by simp) (fun r p => ⟨_, _, _, p.1.1.bytes_ne_nil, State.count_frame _ _ _⟩) s).step
    (State.tickHoldShare_writesOnly _ c)⟩

/-! ### The statement -/

/-- Settles O18: INJECT brings rows to its tile alone; STATSCALE and REDUCE write the entries of one vector. -/
theorem injectStatscaleReduceComplete : Obligations.InjectStatscaleReduceComplete := by
  refine ⟨fun f s c b hissue hfoot hneed hrows hsound hfmt => ?_, fun f s c src b recs hissue hfoot hstats hneed hw hlen => ?_,
    fun f s c src dst hissue hsrc hdst hw hslen hdlen => ?_⟩
  · obtain ⟨r, x, hbody, hin, htile, hxfmt, hinfo⟩ := State.injectBody_open hissue.opOf_foot hfoot hneed hrows hsound hfmt
    have hx : exec (.inject f ⟨[], []⟩) s = execInject f ⟨[], []⟩ s := by rfl
    refine ⟨r, by simp [hx, execInject, hissue.flightOk, issueOp_open hissue hbody], htile ▸ hin.valid, htile ▸ hin.fmt.trans hxfmt,
      ⟨x.clamp, x.poison, x.rows, ?_⟩, htile ▸ hin.tiles, hin.others, hin.mem, hin.landing⟩
    have hsums := hin.sums
    rw [htile, hxfmt, hinfo] at hsums
    exact hsums
  · obtain ⟨r, hbody, hwrites⟩ := State.statscaleBody_open hfoot hstats hneed hw hlen
    have hx : exec (.statscale f) s = execStatscale f s := by rfl
    exact ⟨r, by simp [hx, execStatscale, hissue.flightOk, issueOp_open hissue hbody], hwrites.frame.flight, hwrites.frame.mem, hwrites.frame.landing,
      hwrites.lists⟩
  · obtain ⟨r, hbody, hwrites⟩ := State.reduceBody_open hsrc hdst hw hslen hdlen
    have hx : exec (.reduce f) s = execReduce f s := by rfl
    exact ⟨r, by simp [hx, execReduce, hissue.flightOk, issueOp_open hissue hbody], hwrites.frame.flight, hwrites.frame.mem, hwrites.frame.landing,
      hwrites.lists⟩

end Sys2Proof.Machine
end

section
/-!
SUPPORT. Laws of the fill unit (R101, R116, R132, R225, R232): the units that a COPY writes, and what the fills enter in the stores of their flight; and the
statement on the fill unit.
-/

namespace Sys2Proof.Machine

/-! ### COPY (R225) -/

theorem State.putUnit_writesMore (s : State) (l u : Nat) (x : Unit64) (tenant : Nat) : WritesMore l s (s.putUnit l u x tenant) := by
  unfold State.putUnit
  exact .foldl (fun t p => .landWrite t _ _ _ _ _) _ s

/-- A unit that holds data and names its eight words lists its first byte. -/
theorem State.putUnit_lists (s : State) (l u : Nat) {x : Unit64} (hpoison : x.poison.length = 8) (hdata : x.data ≠ []) (tenant : Nat) :
    (s.putUnit l u x tenant).Lists l (64 * u) := by
  obtain ⟨p, -, hmem⟩ := exists_mem_zip_range hpoison (i := 0) (by decide)
  unfold State.putUnit
  refine foldl_reaches (fun t : State => t.Lists l (64 * u)) _ ?_ ?_ hmem s
  · exact fun t q h => h.landWrite _ _ _ _ _
  · exact fun t => State.lists_landWrite_self (by simpa using hdata) p tenant

theorem State.putUnits_writesEntries (s : State) (l u : Nat) {xs : List Unit64} (hxs : ∀ x ∈ xs, x.poison.length = 8 ∧ x.data ≠ []) (tenant : Nat) :
    WritesEntries l (fun i => 64 * (u + i)) xs.length s (s.putUnits l u xs tenant) := by
  unfold State.putUnits
  refine .of_foldl rfl ?_ ?_ s
  · exact fun t p => t.putUnit_writesMore l (u + p.2) p.1 tenant
  · exact fun t x hx i => t.putUnit_lists l (u + i) (hxs x hx).1 (hxs x hx).2 tenant

theorem State.landUnit_full (s : State) (since l u : Nat) : (s.landUnit since l u).poison.length = 8 ∧ (s.landUnit since l u).data ≠ [] := by
  simp [State.landUnit, State.landBytes]

theorem State.copyBody_open {s : State} {c : OpCtx} {a b : Buf} (hsrc : s.resolve c.since c.fk (bits c.word 111 104) = some a)
    (hdst : s.resolve c.since c.fk (bits c.word 83 76) = some b) (hw : b.writable = true) (ha : bits c.word 103 84 + bits c.word 55 36 ≤ a.units)
    (hb : bits c.word 75 56 + bits c.word 55 36 ≤ b.units) :
    ∃ r, State.copyBody c s = (r, .open_) ∧
      WritesEntries b.landing (fun i => 64 * (b.base + bits c.word 75 56 + i)) (bits c.word 55 36) s r := by
  simp only [State.copyBody, hsrc, hdst, hw, Nat.not_lt.2 ha, Nat.not_lt.2 hb, or_self, if_false, Bool.not_true, Bool.false_eq_true]
  refine ⟨_, rfl, WritesEntries.step ?_ (State.tick_writesOnly _)⟩
  generalize hxs : (List.range (bits c.word 55 36)).map _ = xs
  have hlen : xs.length = bits c.word 55 36 := by simp [← hxs]
  have hfull : ∀ x ∈ xs, x.poison.length = 8 ∧ x.data ≠ [] := fun x hx => by
    rw [← hxs] at hx
    obtain ⟨i, -, rfl⟩ := List.mem_map.1 hx
    split
    · exact ⟨(s.landUnit_full _ _ _).1, by simp⟩
    · exact s.landUnit_full _ _ _
  exact hlen ▸ s.putUnits_writesEntries b.landing _ hfull c.tenant

/-! ### FILL_TOKENS (R101, R232) -/

theorem State.putTok_keepsTiles (s : State) (fk t g i : Nat) (n4 : Bool) (code : Nat) : KeepsTiles fk s (s.putTok fk t g i n4 code) :=
  s.setFlight_keepsTiles (by rfl)

@[simp] theorem State.putTok_tokHeads (s : State) (fk t g i : Nat) (n4 : Bool) (code : Nat) :
    ((s.putTok fk t g i n4 code).flight fk).tokHeads = (s.flight fk).tokHeads := by simp [State.putTok]

/-- R101: a filled group has its header, and keeps tiles. -/
theorem State.fillToken_fills (s : State) (c : OpCtx) (b : Buf) (row0 q t g : Nat) : KeepsTiles c.fk s (s.fillToken c b row0 q t g) ∧
    ∃ h, ((s.fillToken c b row0 q t g).flight c.fk).tokHeads = kput (t * 256 + g) h (s.flight c.fk).tokHeads := by
  unfold State.fillToken
  extract_lets n4 es h0 h u
  have hkeep : KeepsTiles c.fk s u := .foldl (fun r p => r.putTok_keepsTiles _ _ _ _ _ _) _ s
  have hheads : (u.flight c.fk).tokHeads = (s.flight c.fk).tokHeads := by
    refine foldl_keeps (fun r : State => (r.flight c.fk).tokHeads = (s.flight c.fk).tokHeads) _ ?_ _ rfl
    exact fun r p hr => (r.putTok_tokHeads _ _ _ _ _ _).trans hr
  clear_value u
  exact ⟨hkeep.step (State.setFlight_keepsTiles _ (by rfl)), h, by simp [hheads]⟩

/-- A slot and group of the token store has a header. -/
def State.HasHead (s : State) (fk k : Nat) : Prop := kfind k (s.flight fk).tokHeads ≠ none

theorem State.HasHead.fillToken {s : State} {c : OpCtx} {k : Nat} (h : s.HasHead c.fk k) (b : Buf) (row0 q t g : Nat) :
    (s.fillToken c b row0 q t g).HasHead c.fk k := by
  obtain ⟨-, v, hv⟩ := s.fillToken_fills c b row0 q t g
  rw [State.HasHead, hv]
  exact kfind_kput_ne_none h

theorem State.fillToken_hasHead (s : State) (c : OpCtx) (b : Buf) (row0 q t g : Nat) : (s.fillToken c b row0 q t g).HasHead c.fk (t * 256 + g) := by
  obtain ⟨-, v, hv⟩ := s.fillToken_fills c b row0 q t g
  simp [State.HasHead, hv]

/-- R232: the groups of a FILL_TOKENS word, slot by slot. -/
def State.fillGroups (s : State) (c : OpCtx) (b : Buf) (row0 n t0 ng g0 : Nat) : State :=
  (List.range n).foldl (fun s q => (List.range ng).foldl (fun s g => s.fillToken c b row0 q (t0 + q) (g0 + g)) s) s

theorem State.fillGroups_keepsTiles (s : State) (c : OpCtx) (b : Buf) (row0 n t0 ng g0 : Nat) :
    KeepsTiles c.fk s (s.fillGroups c b row0 n t0 ng g0) :=
  .foldl (fun r q => .foldl (fun r g => (r.fillToken_fills c b row0 q (t0 + q) (g0 + g)).1) _ r) _ s

theorem State.fillGroups_hasHead (s : State) (c : OpCtx) (b : Buf) (row0 t0 g0 : Nat) {n ng q g : Nat} (hq : q < n) (hg : g < ng) :
    (s.fillGroups c b row0 n t0 ng g0).HasHead c.fk ((t0 + q) * 256 + (g0 + g)) := by
  have keep : ∀ (r : State) q' g', r.HasHead c.fk ((t0 + q) * 256 + (g0 + g)) →
      (r.fillToken c b row0 q' (t0 + q') (g0 + g')).HasHead c.fk ((t0 + q) * 256 + (g0 + g)) := fun r q' g' h => h.fillToken _ _ _ _ _
  unfold State.fillGroups
  refine foldl_reaches (fun r : State => r.HasHead c.fk ((t0 + q) * 256 + (g0 + g))) _ ?_ ?_ (List.mem_range.2 hq) s
  · exact fun r q' h => foldl_keeps (fun r : State => r.HasHead c.fk ((t0 + q) * 256 + (g0 + g))) _ (keep · q' ·) _ h
  · intro r
    refine foldl_reaches (fun r : State => r.HasHead c.fk ((t0 + q) * 256 + (g0 + g))) _ (keep · q ·) ?_ (List.mem_range.2 hg) r
    exact fun r => r.fillToken_hasHead c b row0 q (t0 + q) (g0 + g)

/-- R377: the note of which groups an expert section fills lies beyond every header. -/
theorem kfind_sectionNotes {k : Nat} (hk : k < 8192) (sect : Bool) (g0 v : Nat) (gs : List Nat) (m : KMap Nat) :
    kfind k (gs.foldl (fun m g => if sect then kput (8192 + g0 + g) v m else kdel (8192 + g0 + g) m) m) = kfind k m := by
  refine foldl_keeps (fun x : KMap Nat => kfind k x = kfind k m) _ (fun x g hx => ?_) gs rfl
  split
  · rw [kfind_kput_ne (by omega), hx]
  · rw [kfind_kdel_ne (by omega), hx]

theorem State.fillTokensBody_open {s : State} {c : OpCtx} {b : Buf} (hneed : s.need c.since c.fk (bits c.word 111 104) [1, 2] = .ok b)
    (hslots : bits c.word 87 83 + (bits c.word 82 78 + 1) ≤ 32)
    (hgroups : bits c.word 77 70 + (bits c.word 69 62 + 1) ≤ (if b.fmt = 2 then 256 else 128))
    (hrows : ∀ q < bits c.word 82 78 + 1, b.rowOk (bits c.word 103 88) q = true) :
    ∃ r, State.fillTokensBody c s = (r, .open_) ∧ KeepsTiles c.fk s r ∧
      ∀ q < bits c.word 82 78 + 1, ∀ g < bits c.word 69 62 + 1, r.HasHead c.fk ((bits c.word 87 83 + q) * 256 + (bits c.word 77 70 + g)) := by
  have hall : (List.range (bits c.word 82 78 + 1)).all (fun q => b.rowOk (bits c.word 103 88) q) = true := by simpa using hrows
  have hmax : bits c.word 77 70 + (bits c.word 69 62 + 1) ≤ 256 := by split at hgroups <;> omega
  simp only [State.fillTokensBody, hneed, hall, Nat.not_lt.2 hslots, Nat.not_lt.2 hgroups, or_self, if_false, Bool.not_true, Bool.false_eq_true]
  refine ⟨_, rfl, ((s.fillGroups_keepsTiles c b (bits c.word 103 88) (bits c.word 82 78 + 1) (bits c.word 87 83) (bits c.word 69 62 + 1) (bits c.word 77 70)).step
    (State.setFlight_keepsTiles _ (by rfl))).step (.of_writesOnly (State.tick_writesOnly _)), fun q hq g hg => ?_⟩
  rw [State.HasHead, State.tick_flight, State.flight_setFlight_self, kfind_sectionNotes (by omega)]
  exact s.fillGroups_hasHead c b _ _ _ hq hg

/-! ### FILL_OUTLIER and FILL_TABLE (R116, R132, R232) -/

theorem kfind_kset_ne {α : Type} [DecidableEq α] {j k : Nat} (h : j ≠ k) (d v : α) (m : KMap α) : kfind j (kset d k v m) = kfind j m := by
  unfold kset
  split
  · exact kfind_kdel_ne h m
  · exact kfind_kput_ne h v m

/-- An entry of a list of writes is listed after it. -/
theorem kfind_foldl_entries {α β : Type} (key : β → Nat) (val : β → α) {e : β} {l : List β} (he : e ∈ l) (m : KMap α) :
    kfind (key e) (l.foldl (fun m e => kput (key e) (val e) m) m) ≠ none :=
  foldl_reaches (fun m : KMap α => kfind (key e) m ≠ none) _ (fun _ _ h => kfind_kput_ne_none h) (fun m => by simp) he m

theorem State.fillOutlierBody_open {s : State} {c : OpCtx} {b : Buf} (hneed : s.need c.since c.fk (bits c.word 111 104) [1, 2] = .ok b)
    (hout : b.outl = true) (hslots : bits c.word 87 83 + (bits c.word 82 78 + 1) ≤ 32) (hrecs : bits c.word 77 72 + (bits c.word 71 66 + 1) ≤ 64)
    (hrows : ∀ q < bits c.word 82 78 + 1, b.rowOk (bits c.word 103 88) q = true)
    (hgroups : bits c.word 77 72 + (bits c.word 71 66 + 1) ≤ cdiv b.channels 256) :
    ∃ r, State.fillOutlierBody c s = (r, .open_) ∧ KeepsTiles c.fk s r ∧
      ∀ q < bits c.word 82 78 + 1, ∀ i < bits c.word 71 66 + 1,
        kfind ((bits c.word 87 83 + q) * 64 + bits c.word 77 72 + i) (r.flight c.fk).outliers ≠ none := by
  have hall : (List.range (bits c.word 82 78 + 1)).all (fun q => b.rowOk (bits c.word 103 88) q) = true := by simpa using hrows
  simp only [State.fillOutlierBody, hneed, hall, hout, Nat.not_lt.2 hslots, Nat.not_lt.2 hrecs, Nat.not_lt.2 hgroups, or_self, if_false, Bool.not_true,
    Bool.false_eq_true]
  refine ⟨_, rfl, (State.setFlight_keepsTiles _ (by rfl)).step (.of_writesOnly (State.tick_writesOnly _)), fun q hq i hi => ?_⟩
  rw [State.tick_flight, State.flight_setFlight_self]
  let x := s.outRecAt b (b.row (bits c.word 103 88) q) (bits c.word 77 72 + i)
  refine kfind_foldl_entries (β := Nat × Bytes) Prod.fst Prod.snd
    (e := ((bits c.word 87 83 + q) * 64 + bits c.word 77 72 + i, x.1 ++ [if x.2 then 1#8 else 0#8]))
    (List.mem_flatMap.2 ⟨q, List.mem_range.2 hq, List.mem_cons_of_mem _ ?_⟩) _
  exact List.mem_map.2 ⟨i, List.mem_range.2 hi, rfl⟩

theorem exists_of_mem_drop_map_range {α : Type} {n m : Nat} {g : Nat → α} {v : α} (hv : v ∈ ((List.range n).map g).drop m) :
    ∃ k, m ≤ k ∧ k < n ∧ g k = v := by
  obtain ⟨i, hi, rfl⟩ := List.getElem_of_mem hv
  rw [List.length_drop, List.length_map, List.length_range] at hi
  exact ⟨m + i, Nat.le_add_right m i, by omega, by simp⟩

theorem State.fillTableBody_open {s : State} {c : OpCtx} {b : Buf} (hneed : s.need c.since c.fk (bits c.word 111 104) [9] = .ok b)
    (hlen : 2056 ≤ b.bytesLen)
    (hvalid : ∀ k, 1 ≤ k → k < 257 → sasValid (bits (leNat (s.landBytes b.since b.landing (b.base * 64 + 8 * k) 8)) 47 32) = true) :
    ∃ r, State.fillTableBody c s = (r, .open_) ∧ KeepsTiles c.fk s r ∧
      ∀ k < 257, kfind (bits c.word 103 101 * 257 + k) (r.flight c.fk).tables ≠ none := by
  have hword : ∀ v ∈ ((List.range 257).map (fun k => leNat (s.landBytes b.since b.landing (b.base * 64 + 8 * k) 8))).drop 1,
      sasValid (bits v 47 32) = true := fun v hv => by
    obtain ⟨k, h1, hk, rfl⟩ := exists_of_mem_drop_map_range hv
    exact hvalid k h1 hk
  generalize hws : (List.range 257).map (fun k => leNat (s.landBytes b.since b.landing (b.base * 64 + 8 * k) 8)) = ws at hword
  have hany : (ws.drop 1).any (fun v => !sasValid (bits v 47 32)) = false := by simpa using hword
  simp only [State.fillTableBody, hneed, Nat.not_lt.2 hlen, hws, hany, if_false, Bool.false_eq_true]
  refine ⟨_, rfl, (State.setFlight_keepsTiles _ (by rfl)).step (.of_writesOnly (State.tick_writesOnly _)), fun k hk => ?_⟩
  obtain ⟨v, -, hmem⟩ := exists_mem_zip_range (l := ws) (by simp [← hws]) hk
  have ht : bits c.word 103 101 < 8 := Nat.mod_lt _ (by decide)
  rw [State.tick_flight, State.flight_setFlight_self, kfind_kset_ne (by omega)]
  exact kfind_foldl_entries (fun e : Nat × Nat => bits c.word 103 101 * 257 + e.2) Prod.fst hmem _

/-! ### The statement -/

/-- Settles O20: COPY writes the units of one landing, the fills write stores of their flight, and HANDLE_SET its entry. -/
theorem fillUnitCompletes : Obligations.FillUnitCompletes := by
  refine ⟨fun f s c a b hissue hsrc hdst hw ha hb => ?_, fun f s c b hissue hneed hslots hgroups hrows => ?_,
    fun f s c b hissue hneed hout hslots hrecs hrows hgroups => ?_, fun f s c b hissue hneed hlen hvalid => ?_, fun f s c hissue hclear => ?_,
    fun f s c e hissue hset hlist hok => ?_⟩
  · obtain ⟨r, hbody, hwrites⟩ := State.copyBody_open hsrc hdst hw ha hb
    have hx : exec (.copy ⟨f, []⟩) s = execCopy ⟨f, []⟩ s := by rfl
    exact ⟨r, by simp [hx, execCopy, hissue.flightOk, State.landErrors, issueOp_open hissue hbody], hwrites.frame.landing, hwrites.frame.flight,
      hwrites.frame.mem, hwrites.lists⟩
  · obtain ⟨r, hbody, hkeep, hheads⟩ := State.fillTokensBody_open hneed hslots hgroups hrows
    have hx : exec (.fillTokens f) s = execFillTokens f s := by rfl
    exact ⟨r, by simp [hx, execFillTokens, hissue.flightOk, issueOp_open hissue hbody], hheads, hkeep.tiles, hkeep.others, hkeep.mem, hkeep.landing⟩
  · obtain ⟨r, hbody, hkeep, hentries⟩ := State.fillOutlierBody_open hneed hout hslots hrecs hrows hgroups
    have hx : exec (.fillOutlier f) s = execFillOutlier f s := by rfl
    exact ⟨r, by simp [hx, execFillOutlier, hissue.flightOk, issueOp_open hissue hbody], hentries, hkeep.tiles, hkeep.others, hkeep.mem, hkeep.landing⟩
  · obtain ⟨r, hbody, hkeep, hwords⟩ := State.fillTableBody_open hneed hlen hvalid
    have hx : exec (.fillTable f) s = execFillTable f s := by rfl
    exact ⟨r, by simp [hx, execFillTable, hissue.flightOk, issueOp_open hissue hbody], hwords, hkeep.tiles, hkeep.others, hkeep.mem, hkeep.landing⟩
  · have hbody : State.handleSetBody c s = (s.setHandle (if bit c.word 103 then hallLanding c.hall else c.fk) (bits c.word 111 104) 0, .open_) := by
      simp [State.handleSetBody, hclear]
    have hx : exec (.handleSet f) s = execHandleSet f s := by rfl
    simp [hx, execHandleSet, hissue.flightOk, issueOp_open hissue hbody]
  · have hbody : State.handleSetBody c s = (s.setHandle (if bit c.word 103 then hallLanding c.hall else c.fk) (bits c.word 111 104) e.entry, .open_) := by
      simp only [State.handleSetBody, hset, hlist]
      exact if_pos hok
    have hx : exec (.handleSet f) s = execHandleSet f s := by rfl
    simp [hx, execHandleSet, hissue.flightOk, issueOp_open hissue hbody]

end Sys2Proof.Machine
end

section
/-!
SUPPORT. Laws of bit-serial products, outlier passes and count passes (R124 to R135): what each brings to its target tile, what the fetch of an outlier pass's
plane leaves as it was; and the statement on the three passes.
-/

namespace Sys2Proof.Machine

/-! ### Operations that bring rows to one tile -/

/-- From s to t an operation has kept tiles, and what it brings to tile ti are sound rows of a format. -/
structure BringsRows (fk ti fmt : Nat) (s t : State) (x : Accum) : Prop where
  keeps : KeepsTiles fk s t
  tile : x.tile = ti
  fmt : x.fmt = fmt
  info : x.info = SkipInfo.none
  rows : ∀ r ∈ x.rows, r.sound = true

theorem State.takePlane_keepsTiles (s : State) (fk : Nat) (plane : KMap Nat) (bad : Bool) : KeepsTiles fk s (s.takePlane fk plane bad) :=
  s.setFlight_keepsTiles rfl

/-- R97: the plane that a flight takes up is the active one while the operation counts. -/
theorem State.takePlane_counts_active (s : State) (fk : Nat) (plane : KMap Nat) (bad : Bool) (l : List (Nat × Nat)) :
    (((s.takePlane fk plane bad).counts l).flight fk).active = plane := by
  simp [State.takePlane]

theorem State.takePlane_counts_keepsTiles (s : State) (fk : Nat) (plane : KMap Nat) (bad : Bool) (l : List (Nat × Nat)) :
    KeepsTiles fk s ((s.takePlane fk plane bad).counts l) :=
  (s.takePlane_keepsTiles fk plane bad).step (.of_log (State.counts_frame _ _))

/-- R107: such an operation, where no upset strikes and no landing read meets an error, is issued with its rows in the tile, if the tile takes them. -/
theorem BringsRows.accBody {s t : State} {hw : PassHw} {c : OpCtx} {ti fmt : Nat} {x : Accum} (h : BringsRows c.fk ti fmt s t x)
    (hfoot : hw.foot = ⟨[], []⟩) (hacc : s.accsOf hw false c c.main = .ok t [x]) (hsound : ((s.flight c.fk).tile ti).sound = true)
    (hfmt : ((s.flight c.fk).tile ti).valid = true → ((s.flight c.fk).tile ti).fmt = fmt) :
    ∃ r, State.accBody hw c s = (r, .open_) ∧ Accumulated c x s r ∧ (r.flight c.fk).active = (t.flight c.fk).active := by
  have htakes : ((t.flight c.fk).tile x.tile).takes x := by
    rw [h.keeps.tile, h.tile]
    exact ⟨hsound, h.rows, fun hv => (hfmt hv).trans h.fmt.symm⟩
  obtain ⟨r, hbody, hin, hactive⟩ := State.accBody_one hfoot hacc htakes
  exact ⟨r, hbody, h.keeps.accumulated hin, hactive⟩

/-- The sums that such an operation leaves in the tile: it records no skipped block. -/
theorem BringsRows.sums {s t r : State} {c : OpCtx} {ti fmt : Nat} {x : Accum} (h : BringsRows c.fk ti fmt s t x) (hin : Accumulated c x s r) :
    ((r.flight c.fk).tile ti).sums = (((s.flight c.fk).tile ti).accum c.W fmt x.clamp x.poison ⟨[], [], none⟩ x.rows).1.sums := by
  have hsums := hin.sums
  rw [h.tile, h.fmt, h.info] at hsums
  exact hsums

/-! ### SERIAL_PASS (R124 to R129, R228) -/

/-- R128: every row of a bit-serial product carries its lanes' own residues. -/
theorem serialPasses_sound (W : Nat) (A items : List (List Elem)) (winsA winsB : List Nat) (spA spB a b rowBase : Nat) :
    ∀ r ∈ serialPasses W A items winsA winsB spA spB a b rowBase, r.sound = true := by
  intro r hr
  simp only [serialPasses, List.mem_flatMap] at hr
  obtain ⟨EA, -, k, -, hslice⟩ := hr
  exact slicePasses_sound _ _ _ _ _ _ _ _ r hslice

/-- R125, R228: with working widths from the operands' own up to 16, the product enters with FMT 3. -/
theorem State.serialAccs_ok {s : State} {c : OpCtx} {ab : Buf} {fmtB : Nat} {items : List (List Elem)}
    (htarget : c.badTarget (bits c.word 15 0) (bits c.word 21 16 + 1) = none) (hneed : s.need c.since c.fk (bits c.word 111 104) [1, 2] = .ok ab)
    (hitems : s.streamed c (bits c.word 66 59) (bits c.word 58 43) (bits c.word 21 16 + 1) (bits c.word 42 27) (bits c.word 66 59) = .ok (fmtB, items))
    (haLo : fmtWidth ab.fmt ≤ bits c.word 71 67) (haHi : bits c.word 71 67 ≤ 16) (hbLo : fmtWidth fmtB ≤ bits c.word 26 22)
    (hbHi : bits c.word 26 22 ≤ 16) :
    ∃ t x, s.serialAccs c = .ok t [x] ∧ BringsRows c.fk (tgtTile (bits c.word 15 0)) 3 s t x := by
  simp only [State.serialAccs, htarget, hneed, hitems, Nat.not_lt.2 haLo, Nat.not_lt.2 haHi, Nat.not_lt.2 hbLo, Nat.not_lt.2 hbHi, or_self, if_false]
  exact ⟨_, _, rfl, (KeepsTiles.of_log (State.counts_frame _ _)).step (State.takePlane_keepsTiles _ _ _ _), rfl, rfl, rfl,
    serialPasses_sound _ _ _ _ _ _ _ _ _ _⟩

/-! ### COUNT_PASS (R133 to R135) -/

/-- R119, R135: the rows that counted items bring, on the lanes that hold rows of the stationary tensor: at exponent 0, from lane 0 on, with the lanes' own
residues. -/
theorem countRows_mem {W rowBase lanes : Nat} {codes : List (List Int)} {items : List (List (Option Bool) × Nat)} {r : Contrib}
    (hr : r ∈ if lanes = 0 then [] else items.map (fun p =>
      (⟨0, rowBase + p.2, 0, (countSums W codes p.1).take lanes, (countResidues W codes p.1).take lanes⟩ : Contrib))) :
    r.sound = true ∧ r.e = 0 ∧ r.lane = 0 := by
  split at hr
  · cases hr
  · obtain ⟨p, -, rfl⟩ := List.mem_map.1 hr
    exact ⟨by simp [Contrib.sound, countResidues_eq, List.map_take], rfl, rfl⟩

/-- R134, R135: a count pass brings one row per item at exponent 0, from lane 0 on. -/
theorem State.countAccs_ok {s : State} {c : OpCtx} {a : Buf} {x : CountIn} (htarget : c.badTarget (bits c.word 25 10) (bits c.word 31 26 + 1) = none)
    (hneed : s.need c.since c.fk (bits c.word 111 104) [4] = .ok a)
    (hitems : s.countItems c (bits c.word 71 64) (bits c.word 63 48) (bits c.word 31 26 + 1) (bits c.word 47 32) = .ok x) :
    ∃ t y, s.countAccs c = .ok t [y] ∧ BringsRows c.fk (tgtTile (bits c.word 25 10)) 4 s t y ∧ y.clamp = x.clamp ∧
      ∀ r ∈ y.rows, r.e = 0 ∧ r.lane = 0 := by
  simp only [State.countAccs, htarget, hneed, hitems]
  exact ⟨_, _, rfl, ⟨State.takePlane_counts_keepsTiles _ _ _ _ _, rfl, rfl, rfl, fun r hr => (countRows_mem hr).1⟩, rfl,
    fun r hr => (countRows_mem hr).2⟩

/-! ### The fetch of a plane (R187, R281) -/

/-- R280, R281: a translation leaves what undefined reads answer. -/
@[simp] theorem State.translate_free (s : State) (hall t va : Nat) (write : Bool) : (s.translate hall t va write).2.free = s.free := by
  unfold State.translate
  split
  · rfl
  · split
    · rfl
    · extract_lets perm keep u r
      have hperm : ∀ x v, (perm x v).2.free = v.free := fun x v => by
        cases x with
        | ok b z e =>
          unfold perm
          dsimp only
          rw [apply_ite Prod.snd, apply_ite State.free]
          exact ite_self _
        | fault code => rfl
        | page => rfl
      have hwalk : (perm r u).2.free = s.free := hperm r u
      split
      · exact hperm _ _
      · split
        · next hok =>
          rw [hok] at hwalk
          exact hwalk
        · exact hwalk

@[simp] theorem State.arrTouch_free (s : State) (errs : List BitErr) (hall tenant : Nat) (a : Arr) (off n : Nat) :
    (s.arrTouch errs hall tenant a off n).free = s.free := by
  unfold State.arrTouch
  split
  · rfl
  · split
    · rfl
    · exact foldl_keeps (fun t : State => t.free = s.free) _ (fun t i ht => (t.translate_free _ _ _ _).trans ht) _ rfl

@[simp] theorem State.fetchTouch_free (s : State) (errs : List BitErr) (hall tenant : Nat) (x : Arrays) (b : Nat) (f : Fetched) :
    (s.fetchTouch errs hall tenant x b f).free = s.free := by
  simp [State.fetchTouch]

/-- R187: a flight whose fetch of planes has been delivered: its buffers hold blocks, and none is fetched again. -/
def FlightSt.delivered (x : FlightSt) (held : List HeldBlock) : FlightSt := { x with refetch := [], resolved := [], buffers := held }

/-- R187, R192: planes that are delivered at once, with no bit error, have been fetched block by block; the flight's block buffers hold the last of them. -/
theorem State.loadPlanes_ok {s t : State} {c : OpCtx} {ti : Nat} {segs : List Nat} {hw : PassHw} (herrs : hw.errs = [])
    {planes : List (List Int × Bool)} (h : s.loadPlanes c ti segs hw false = .ok t planes) :
    (∃ held, t.flight c.fk = (s.flight c.fk).delivered held) ∧ t.free = s.free := by
  unfold State.loadPlanes at h
  split at h
  · cases h
  · next x _ =>
    extract_lets segs bs u y src fs new v done failing _ _ w bad already last _ at h
    have hu : u = s := by simp [u, State.bitErrors, herrs]
    have hv : WritesOnly (fun _ => False) s v := hu ▸ .foldl (fun t p => t.fetchTouch_writesOnly _ _ _ _ _ _) new u
    have hfree : v.free = s.free :=
      hu ▸ foldl_keeps (fun t : State => t.free = u.free) _ (fun t p ht => (t.fetchTouch_free _ _ _ _ _ _).trans ht) new rfl
    clear_value v
    split at h
    · cases h
    · split at h
      · cases h
      · split at h
        · cases h
        · split at h
          · split at h <;> cases h
          · next hnone =>
            have hfail : failing = [] := by simpa using hnone
            have hw : w = v := by simp [w, hfail]
            cases h
            refine ⟨⟨heldAfter src last fs bad, ?_⟩, (congrArg State.free hw).trans hfree⟩
            rw [← hv.flight, ← hw]
            exact w.flight_setFlight_self _ _

/-! ### OUTLIER_PASS (R130 to R132, R229) -/

/-- R101: a token store's headers, written or not, are read alike where the store and the undefined values are the same. -/
theorem State.tokN4_congr {s t : State} {fk : Nat} (hheads : (t.flight fk).tokHeads = (s.flight fk).tokHeads) (hfree : t.free = s.free) (slot g : Nat) :
    t.tokN4 fk slot g = s.tokN4 fk slot g := by
  simp only [State.tokN4, State.tokHead, hheads, hfree]

theorem State.resolve_congr {s t : State} {l : Nat} (h : t.landing l = s.landing l) (since k : Nat) : t.resolve since l k = s.resolve since l k := by
  rw [State.resolve, State.handleEntry, h]
  rfl

/-- R131: the format of an outlier pass comes from its tile, the token store's headers and a handle. -/
theorem State.outFmt_congr {s t : State} {c : OpCtx} (htiles : (t.flight c.fk).tiles = (s.flight c.fk).tiles)
    (hheads : (t.flight c.fk).tokHeads = (s.flight c.fk).tokHeads) (hfree : t.free = s.free) (hland : t.landing c.fk = s.landing c.fk) (pw target : Nat) :
    t.outFmt c pw target = s.outFmt c pw target := by
  have htile : ∀ i, (t.flight c.fk).tile i = (s.flight c.fk).tile i := fun i => by simp only [FlightSt.tile, htiles]
  rw [State.outFmt, htile, State.tokN4_congr hheads hfree, State.resolve_congr hland]
  rfl

/-- The fetch of a plane changes no format. -/
theorem State.outFmt_loadPlanes {s t : State} {c : OpCtx} {ti : Nat} {segs : List Nat} {hw : PassHw} (herrs : hw.errs = [])
    {planes : List (List Int × Bool)} (h : s.loadPlanes c ti segs hw false = .ok t planes) (pw target : Nat) :
    t.outFmt c pw target = s.outFmt c pw target := by
  have hkeep := State.loadPlanes_keepsTiles herrs h
  obtain ⟨⟨held, hflight⟩, hfree⟩ := State.loadPlanes_ok herrs h
  exact State.outFmt_congr hkeep.tiles (by rw [hflight]; rfl) hfree (hkeep.landing c.fk) pw target

/-- The take-up of a plane changes no format. -/
theorem State.outFmt_takePlane_counts (s : State) (c : OpCtx) (plane : KMap Nat) (bad : Bool) (l : List (Nat × Nat)) (pw target : Nat) :
    ((s.takePlane c.fk plane bad).counts l).outFmt c pw target = s.outFmt c pw target := by
  have hcounts : LogFrame (s.takePlane c.fk plane bad) ((s.takePlane c.fk plane bad).counts l) := State.counts_frame _ _
  have hkeep := s.takePlane_counts_keepsTiles c.fk plane bad l
  exact State.outFmt_congr hkeep.tiles (by simp [State.takePlane]) hcounts.free (hkeep.landing c.fk) pw target

/-- R229, R131: an outlier pass whose items, mask and plane stand takes up the plane, and enters with the format that its tile asks for. -/
theorem State.outlierAccs_ok {s s1 : State} {hw : PassHw} {c : OpCtx} {pw : Nat} {m : Option (Buf × Nat)} {items : List (List Elem)}
    {planes : List (List Int × Bool)} (hpw : pw ≠ 0) (hLo : 16 ≤ bits c.word 47 43) (hHi : bits c.word 47 43 ≤ 24)
    (htarget : c.badTarget (bits c.word 36 21) (bits c.word 42 37 + 1) = none) (hmask : s.passMask c pw (bits c.word 42 37 + 1) = .ok m)
    (hitems : s.outItems c (bits c.word 42 37 + 1) m = .ok items)
    (hload : s.loadPlanes c (bits c.word 111 107) [bits c.word 106 83] hw false = .ok s1 planes) (herrs : hw.errs = []) :
    ∃ t x, s.outlierAccs hw false c pw = .ok t [x] ∧
      BringsRows c.fk (tgtTile (bits c.word 36 21)) (s.outFmt c pw (bits c.word 36 21)) s t x ∧ x.clamp = false ∧
      (t.flight c.fk).active = planeOf (planes.getD 0 ([], false)).1 := by
  have hkeep := State.loadPlanes_keepsTiles herrs hload
  have hfmt := State.outFmt_loadPlanes herrs hload pw (bits c.word 36 21)
  simp only [State.outlierAccs, hpw, Nat.not_lt.2 hLo, Nat.not_lt.2 hHi, or_self, if_false, htarget, hmask, hitems, hload]
  generalize planes.getD 0 ([], false) = p
  refine ⟨_, _, rfl, ⟨?_, rfl, (State.outFmt_takePlane_counts ..).trans hfmt, rfl, slicePasses_sound _ _ _ _ _ _ _ _⟩, rfl, ?_⟩
  · exact (hkeep.step (State.takePlane_counts_keepsTiles _ _ _ _ _)).step (.of_writesOnly (State.readBadWeight_writesOnly _ _ _))
  · rw [State.readBadWeight_flight, State.takePlane_counts_active]

/-! ### The statement -/

/-- Settles O14: each pass brings sound rows to its target tile alone, which takes them. -/
theorem serialOutlierAndCountPassesAccumulate : Obligations.SerialOutlierAndCountPassesAccumulate := by
  refine ⟨fun f hw s c ab fmtB items hissue htarget hneed hitems haLo haHi hbLo hbHi hfoot hsound hfmt => ?_,
    fun f hw s s1 c pw fmt m items planes hissue hmain hpw hLo hHi htarget hmask hitems hout hload hfoot herrs hsound hfmt => ?_,
    fun f hw s c a x hissue htarget hneed hitems hfoot hsound hfmt => ?_⟩
  · obtain ⟨t, x, hacc, hbring⟩ := State.serialAccs_ok htarget hneed hitems haLo haHi hbLo hbHi
    obtain ⟨r, hbody, hin, -⟩ := hbring.accBody hfoot (by simp [State.accsOf, hissue.opOf_word, hacc]) hsound hfmt
    have hx : exec (.serialPass f hw) s = execSerialPass f hw s := by rfl
    exact ⟨r, by simp [hx, execSerialPass, hissue.flightOk, issueOp_open hissue hbody], hbring.tile ▸ hin.valid, hbring.tile ▸ hin.fmt.trans hbring.fmt,
      ⟨_, _, _, hbring.sums hin⟩, hbring.tile ▸ hin.tiles, hin.others, hin.mem, hin.landing⟩
  · have hword : c.main = pw := by simp [OpCtx.main, hissue.opOf_word, hmain]
    obtain ⟨t, x, hacc, hbring, hclamp, hactive⟩ := State.outlierAccs_ok hpw hLo hHi htarget hmask hitems hload herrs
    rw [hout] at hbring
    obtain ⟨r, hbody, hin, hsame⟩ := hbring.accBody hfoot (by simp [State.accsOf, hissue.opOf_word, hword, hacc]) hsound hfmt
    have hx : exec (.outlierPass f hw) s = execOutlierPass f hw s := by rfl
    exact ⟨r, by simp [hx, execOutlierPass, hissue.flightOk, issueOp_open hissue hbody], hbring.tile ▸ hin.valid, hbring.tile ▸ hin.fmt.trans hbring.fmt,
      ⟨_, _, hclamp ▸ hbring.sums hin⟩, hsame.trans hactive, hbring.tile ▸ hin.tiles, hin.others⟩
  · obtain ⟨t, y, hacc, hbring, hclamp, hrows⟩ := State.countAccs_ok htarget hneed hitems
    obtain ⟨r, hbody, hin, -⟩ := hbring.accBody hfoot (by simp [State.accsOf, hissue.opOf_word, hacc]) hsound hfmt
    have hx : exec (.countPass f hw) s = execCountPass f hw s := by rfl
    exact ⟨r, by simp [hx, execCountPass, hissue.flightOk, issueOp_open hissue hbody], hbring.tile ▸ hin.valid, hbring.tile ▸ hin.fmt.trans hbring.fmt,
      ⟨_, _, hrows, hclamp ▸ hbring.sums hin⟩, hbring.tile ▸ hin.tiles, hin.others, hin.mem, hin.landing⟩

end Sys2Proof.Machine
end

section
/-!
SUPPORT. Laws of the operations that draw on generators (R138, R139, R143, R148): what a request of draws leaves as it was, and what MASK writes; and the
statement on MASK and SAMPLE.
-/

namespace Sys2Proof.Machine

/-! ### Draws (R138) -/

/-- R138: a request steps the lanes of its own generator alone. -/
theorem State.genLanes_drawRequest_ne (s : State) (h : Nat) {g j : Nat} (hj : j ≠ g) (w n : Nat) :
    (s.drawRequest h g w n).1.genLanes h j = s.genLanes h j := by
  simp only [State.genLanes, State.drawRequest, State.count_halls]
  rw [kfind_kput_ne (by omega)]

/-- R138: a request counts its blocks, and nothing else. -/
theorem State.odGet_drawRequest_ne (s : State) (h g w n : Nat) {k : Nat} (hk : k ≠ Od.genBlocks) :
    (s.drawRequest h g w n).1.odGet k = s.odGet k :=
  State.odGet_count_ne _ hk _

/-! ### Mask rows (R148) -/

/-- Between two states generator g of hall h has served draws, and landing l alone has been written: every other generator, and every entry of the dictionary but
the count of blocks, is as it was. -/
structure DrawsInto (l h g : Nat) (s t : State) : Prop extends WritesOnly (· = l) s t where
  gens : ∀ j, j ≠ g → t.genLanes h j = s.genLanes h j
  entries : ∀ k, k ≠ Od.genBlocks → t.odGet k = s.odGet k

namespace DrawsInto

variable {l h g : Nat} {s t u : State}

theorem refl (s : State) : DrawsInto l h g s s := ⟨.refl s, fun _ _ => rfl, fun _ _ => rfl⟩

theorem step (hst : DrawsInto l h g s t) (htu : DrawsInto l h g t u) : DrawsInto l h g s u :=
  ⟨hst.toWritesOnly.step htu.toWritesOnly, fun j hj => (htu.gens j hj).trans (hst.gens j hj), fun k hk => (htu.entries k hk).trans (hst.entries k hk)⟩

theorem foldl {β : Type} {f : State → β → State} (hf : ∀ r x, DrawsInto l h g r (f r x)) (xs : List β) (s : State) : DrawsInto l h g s (xs.foldl f s) :=
  foldl_keeps (DrawsInto l h g s) f (fun r x hr => hr.step (hf r x)) xs (.refl s)

theorem drawRequest (s : State) (w n : Nat) : DrawsInto l h g s (s.drawRequest h g w n).1 :=
  ⟨s.drawRequest_writesOnly h g w n, fun _ hj => s.genLanes_drawRequest_ne h hj w n, fun _ hk => s.odGet_drawRequest_ne h g w n hk⟩

theorem landWrite (s : State) (off : Nat) (data : Bytes) (poison : Bool) (tenant : Nat) : DrawsInto l h g s (s.landWrite l off data poison tenant) :=
  ⟨s.landWrite_writesOnly (L := (· = l)) rfl _ _ _ _, fun _ _ => rfl, fun _ _ => rfl⟩

end DrawsInto

/-- R148: MASK draws its rows through its slot's generator and writes them to its buffer, and then counts its bits. -/
theorem State.maskBody_open {s : State} {c : OpCtx} {b : Buf} (hmask : (c.prog.img.bind (bits c.word 50 47)).mask = true)
    (hneed : s.need c.since c.fk (bits c.word 111 104) [4] = .ok b) (hrate : bits c.word 58 51 < 2 ^ 2 ^ bits c.word 60 59) (hw : b.writable = true)
    (hch : (bits c.word 71 61 + 1) * 32 ≤ b.channels) (hrows : ∀ q < bits c.word 87 72 + 1, b.rowOk (bits c.word 103 88) q = true) :
    ∃ t, State.maskBody c s = (t.count Od.maskBits ((bits c.word 87 72 + 1) * ((bits c.word 71 61 + 1) * 32)), .open_) ∧
      DrawsInto b.landing c.hall (c.prog.img.bind (bits c.word 50 47)).gen s t := by
  have hall : (List.range (bits c.word 87 72 + 1)).all (fun q => b.rowOk (bits c.word 103 88) q) = true := by simpa using hrows
  have hslot : c.slotFor (bits c.word 50 47) (·.mask) = .ok (c.prog.img.bind (bits c.word 50 47)) := by simp [OpCtx.slotFor, hmask]
  simp only [State.maskBody, hslot, hneed, hall, hw, Nat.not_le.2 hrate, Nat.not_lt.2 hch, or_self, if_false, Bool.not_true, Bool.false_eq_true]
  exact ⟨_, rfl, .foldl (fun r q => (DrawsInto.drawRequest r _ _).step (.landWrite _ _ _ _ _)) _ s⟩

/-- R143: a slot that is not bound for masks refuses, by what it is bound for. -/
theorem State.maskBody_unbound (s : State) {c : OpCtx} (hmask : (c.prog.img.bind (bits c.word 50 47)).mask = false) :
    State.maskBody c s = (s, .stop (if (c.prog.img.bind (bits c.word 50 47)).used then 0x3030 else 0x3031)) := by
  have hslot : c.slotFor (bits c.word 50 47) (·.mask) = .error (if (c.prog.img.bind (bits c.word 50 47)).used then 0x3030 else 0x3031) := by
    simp [OpCtx.slotFor, hmask]
  simp only [State.maskBody, hslot]

/-! ### SAMPLE (R145) -/

/-- R145: SAMPLE, whose buffers hold its rows and whose streams may draw, takes its rows in turn. -/
theorem State.sampleBody_open {s : State} {c : OpCtx} {logits map out : Buf}
    (hlogits : s.need c.since (hallLanding c.hall) (bits c.word 111 104) [3] = .ok logits)
    (hmap : s.need c.since (hallLanding c.hall) (bits c.word 81 74) [7] = .ok map)
    (hout : s.need c.since (hallLanding c.hall) (bits c.word 73 66) [0, 7] = .ok out) (hw : out.writable = true)
    (hrows : ∀ q < bits c.word 87 82 + 1, logits.rowOk (bits c.word 103 88) q = true) (hmlen : 2 * (bits c.word 87 82 + 1) ≤ map.bytesLen)
    (holen : 4 * (bits c.word 87 82 + 1) ≤ out.bytesLen) (hslots : s.sampleSlots c map (bits c.word 87 82 + 1) = none) :
    State.sampleBody c s = (((List.range (bits c.word 87 82 + 1)).foldl (fun s r => s.sampleOne c logits map out r) s).tick, .open_) := by
  have hall : (List.range (bits c.word 87 82 + 1)).all (fun q => logits.rowOk (bits c.word 103 88) q) = true := by simpa using hrows
  simp only [State.sampleBody, hlogits, hmap, hout, hw, hall, Nat.not_lt.2 hmlen, Nat.not_lt.2 holen, hslots, or_self, if_false, Bool.not_true,
    Bool.false_eq_true]

/-! ### The statement -/

/-- Settles O21: MASK draws on its own generator and writes its own landing; SAMPLE takes its rows in turn. -/
theorem maskAndSampleComplete : Obligations.MaskAndSampleComplete := by
  refine ⟨fun f s c b hissue hmask hneed hrate hw hch hrows => ?_, fun f s c hissue hmask => ?_,
    fun f s c logits map out hissue hlogits hmap hout hw hrows hmlen holen hslots => ?_⟩
  · obtain ⟨t, hbody, hdraws⟩ := State.maskBody_open hmask hneed hrate hw hch hrows
    have hx : exec (.mask f) s = execMask f s := by rfl
    exact ⟨t.count Od.maskBits ((bits c.word 87 72 + 1) * ((bits c.word 71 61 + 1) * 32)),
      by simp [hx, execMask, hissue.flightOk, issueOp_open hissue hbody], hdraws.landing, hdraws.flight, hdraws.mem, hdraws.gens,
      by rw [State.odGet_count_self, hdraws.entries _ (by decide)]⟩
  · have hx : exec (.mask f) s = execMask f s := by rfl
    simp [hx, execMask, hissue.flightOk, issueOp_stop hissue (s.maskBody_unbound hmask), hissue.fk]
  · have hbody := State.sampleBody_open hlogits hmap hout hw hrows hmlen holen hslots
    have hx : exec (.sample f) s = execSample f s := by rfl
    exact ⟨_, by simp [hx, execSample, hissue.flightOk, issueOp_open hissue hbody], rfl⟩

end Sys2Proof.Machine
end

section
/-!
SUPPORT. Laws of the life of a program beside its task (R137, R220, R242, R249, R329 to R331): what loading installs and what a refusal of the loader records,
where a program that resumes or is suspended stands; and the statement on loading, starting, resuming and offering programs.
-/

namespace Sys2Proof.Machine

/-! ### Loading (R137, R249) -/

/-- R137: the seeds of generators reach no flight. -/
theorem State.seedGens_writesOnly {L : Nat → Prop} (s : State) (hall : Nat) (i : Image) : WritesOnly L s (s.seedGens hall i) := by
  unfold State.seedGens
  refine .foldl (fun t g => ?_) _ s
  extract_lets b seed lanes u
  split
  · exact .refl t
  · split <;> exact .of_maps rfl rfl rfl

/-- R220, R249: a program as it is loaded. -/
def Prog.loaded (slot addr : Nat) (i : Image) : Prog :=
  { slot := slot, addr := addr, img := i, mode := .idle, cls := 3, pc := 0, rep := none, counters := List.replicate 8 0,
    issued := [], nextOp := 0, bars := [], resume := none, ppDone := false, lastPass := [], since := 0 }

/-- A flight with one more program. -/
def FlightSt.joined (x : FlightSt) (p : Prog) : FlightSt := { x with progs := x.progs ++ [p] }

/-- R249: the image joins its flight in the lowest free slot; beside it, generators, handles and its job are written. -/
theorem State.install_flight (s : State) (fk addr : Nat) (i : Image) :
    (s.install fk addr i).flight fk = (s.flight fk).joined (Prog.loaded (s.flight fk).freeSlot addr i) ∧
      SameOtherFlights fk s (s.install fk addr i) ∧ (s.install fk addr i).mem = s.mem := by
  unfold State.install
  extract_lets t u x p v j w
  have hu : WritesOnly (fun _ => True) s u := (s.seedGens_writesOnly _ i).step (.foldl (fun r _ => r.setLanding_writesOnly trivial _) _ t)
  have hx : x = s.flight fk := hu.flight fk
  have hend : WritesOnly (fun _ => True) w (w.count Od.loads 1).updateSpan.closeSettled :=
    .of_log (((w.count_frame _ _).step (State.odPut_frame _ _ _)).step (State.closeSettled_frame _))
  refine ⟨?_, fun k hk => ?_, hend.mem.trans hu.mem⟩
  · rw [hend.flight, ← hx]
    exact u.flight_setFlight_self fk _
  · rw [hend.flight]
    exact (u.flight_setFlight_ne hk _).trans (hu.flight k)

/-- R249: a refusal of the loader counts and records. -/
theorem State.loadRefused_frame (s : State) (code word : Nat) : LogFrame s (s.loadRefused code word) := by
  unfold State.loadRefused
  extract_lets t u
  have hu : LogFrame s u := ((s.count_frame _ _).step (State.odPut_frame _ _ _)).step (State.odPut_frame _ _ _)
  split
  · exact hu.step (State.count_frame _ _ _)
  · split
    · exact hu.step (State.count_frame _ _ _)
    · split
      · exact hu.step (State.count_frame _ _ _)
      · exact hu

/-- R249: beside the counters of conflicts, of bindings and of handles, a refusal of the loader writes the code, the word and the count of refusals. -/
theorem State.odGet_loadRefused (s : State) (code word : Nat) {k : Nat} (hc : k ≠ Od.genConflicts) (hb : k ≠ Od.genBindingRefusals)
    (hh : k ≠ Od.handleRefusals) :
    (s.loadRefused code word).odGet k = (((s.count Od.loadRefusals 1).odPut Od.lastRefusal code).odPut Od.lastRefusalWord word).odGet k := by
  unfold State.loadRefused
  extract_lets t u
  split
  · exact u.odGet_count_ne hc _
  · split
    · exact u.odGet_count_ne hb _
    · split
      · exact u.odGet_count_ne hh _
      · rfl

theorem execProgramLoad_ok {f : FlightId} {addr len : Nat} {s : State} {i : Image} (hf : flightOk f = true) (hup : s.hallsUp = true)
    (hfence : s.fenced (flightKey f) = false) (h : s.loadCheck (flightKey f) (s.memBytes addr len) addr = .ok i) :
    execProgramLoad f addr len s = .next (s.install (flightKey f) addr i) := by
  simp [execProgramLoad, hf, hup, hfence, h]

theorem execProgramLoad_error {f : FlightId} {addr len : Nat} {s : State} {c w : Nat} (hf : flightOk f = true) (hup : s.hallsUp = true)
    (hfence : s.fenced (flightKey f) = false) (h : s.loadCheck (flightKey f) (s.memBytes addr len) addr = .error (c, w)) :
    execProgramLoad f addr len s = .next (s.loadRefused c w) := by
  simp [execProgramLoad, hf, hup, hfence, h]

/-! ### Starts and resumes (R220, R242, R329) -/

theorem State.slot_of_progAt {s : State} {fk sl : Nat} {p : Prog} (h : s.progAt fk sl = some p) : p.slot = sl := by
  simpa using List.find?_some h

/-- R329: a start is the task's, with the step and the maps of its job, and then the program's place in the order. -/
theorem State.startProgram_eq {s : State} {fk slot : Nat} {p : Prog} (h : s.progAt fk slot = some p) :
    ∃ cls key, s.startProgram fk slot =
      (((s.startTask fk slot 3).openStep p.img.job).writeMaps p.img.job).modProg fk slot (fun q => { q with cls := cls, key := key }) := by
  simp only [State.startProgram, h]
  exact ⟨_, _, rfl⟩

/-- R242, R243: the state in which a program stands at its resume record again, on a flight that holds no plane and no store. -/
def State.resumed (s : State) (fk slot : Nat) : State :=
  (s.setFlight fk { (s.flight fk).forget with current := some slot }).modProg fk slot (fun p => { p.atResume with mode := .running, ppDone := true })

section
variable {s : State} {fk slot : Nat} {p : Prog} (h : s.progAt fk slot = some p)
include h

theorem State.resumed_progAt : (s.resumed fk slot).progAt fk slot = some { p.atResume with mode := .running, ppDone := true } := by
  rw [State.resumed, State.progAt_modProg_self _ _ _ (fun _ => by rfl), State.progAt_setFlight _ (by rfl), h]
  rfl

/-- R242: a resume is the program's, with the step and the maps of its job. -/
theorem State.resumeProgram_eq : s.resumeProgram fk slot = ((s.resumed fk slot).openStep p.img.job).writeMaps p.img.job := by
  have hp := State.resumed_progAt h
  simp only [State.resumed] at hp
  simp only [State.resumeProgram, hp]
  rfl

end

/-- R243: the flight of a program that resumes. -/
theorem State.resumed_flight (s : State) (fk slot : Nat) :
    ∃ progs, (s.resumed fk slot).flight fk = { (s.flight fk).forget with progs := progs, current := some slot } := by
  refine ⟨((s.resumed fk slot).flight fk).progs, ?_⟩
  rw [State.resumed, State.modProg, State.flight_setFlight_self, State.flight_setFlight_self]

/-! ### Offers (R242, R331) -/

/-- A change of a program leaves which one has the flight. -/
theorem State.modProg_current (s : State) (fk slot : Nat) (g : Prog → Prog) : ((s.modProg fk slot g).flight fk).current = (s.flight fk).current := by
  rw [State.modProg, State.flight_setFlight_self]

/-- R242: the program that runs on a flight is suspended at its place in the order, and the flight is idle. -/
theorem State.suspendProg_running {s : State} {fk slot : Nat} {p : Prog} (h : s.progAt fk slot = some p) (hcur : (s.flight fk).current = some slot) :
    (s.suspendProg fk slot).progAt fk slot = some { p with mode := .suspended, key := s.runKey p } ∧
      ((s.suspendProg fk slot).flight fk).current = none ∧
      (s.suspendProg fk slot).odGet Od.suspensions = (s.odGet Od.suspensions + 1) % odModulus Od.suspensions := by
  unfold State.suspendProg
  extract_lets t
  have hprog : t.progAt fk slot = some { p with mode := .suspended, key := s.runKey p } := by
    have hmod := s.progAt_modProg_self fk slot (f := fun q => { q with mode := .suspended, key := s.runKey q }) (fun _ => rfl)
    rw [h] at hmod
    exact hmod
  have hflight : (t.flight fk).current = some slot := (s.modProg_current fk slot _).trans hcur
  rw [if_pos hflight]
  refine ⟨(State.progAt_setFlight _ (by rfl) _).trans hprog, by rw [State.flight_setFlight_self], ?_⟩
  exact State.odGet_count_self _ _ _

/-- R331: at an offer the program is suspended and the flight given on where higher work waits, and goes on otherwise. -/
theorem execFlightOffer_offered {f : FlightId} {s : State} {sl : Nat} {p : Prog} (hf : flightOk f = true)
    (hcur : (s.flight (flightKey f)).current = some sl) (hp : s.progAt (flightKey f) sl = some p) (hmode : p.mode = .offered) :
    execFlightOffer f s = .next
      (if s.higherWaits (flightKey f) p then (s.suspendProg (flightKey f) sl).giveFlight (flightKey f)
       else s.modProg (flightKey f) sl (fun q => { q with mode := .running, ppDone := true })) := by
  have hslot := State.slot_of_progAt hp
  simp only [execFlightOffer, hf, hcur, Option.bind_some, hp, hmode, hslot, Bool.not_true, Bool.false_eq_true, if_false, ne_eq, not_true_eq_false]
  exact (apply_ite Host.Outcome.next _ _ _).symm

/-! ### The statement -/

/-- Settles O8: loading by what it installs or records, and starts, resumes and offers by where they leave their program. -/
theorem programsLoadStartResumeAndYield : Obligations.ProgramsLoadStartResumeAndYield := by
  refine ⟨fun f addr len s i hf hup hfence hcheck => ?_, fun f addr len s c w hf hup hfence hcheck => ?_, fun f slot s p hf hmay hp => ?_,
    fun f slot s p hf hmay hp => ?_, fun f sl s p hf hcur hp hmode hup => ?_, fun f sl s p hf hcur hp hmode hup => ?_⟩
  · have hx : exec (.programLoad f addr len) s = execProgramLoad f addr len s := by rfl
    obtain ⟨hflight, hothers, hmem⟩ := s.install_flight (flightKey f) addr i
    exact ⟨_, _, hx.trans (execProgramLoad_ok hf hup hfence hcheck), by rw [hflight]; rfl, rfl, rfl, rfl, rfl, hothers, hmem⟩
  · have hx : exec (.programLoad f addr len) s = execProgramLoad f addr len s := by rfl
    have hlog := s.loadRefused_frame c w
    refine ⟨_, hx.trans (execProgramLoad_error hf hup hfence hcheck), hlog.halls, hlog.mem, ?_, ?_, ?_⟩
    all_goals rw [State.odGet_loadRefused _ _ _ (by decide) (by decide) (by decide)]
    · rw [State.odGet_odPut_ne _ (by decide), State.odGet_odPut_self]
    · rw [State.odGet_odPut_self]
    · rw [State.odGet_odPut_ne _ (by decide), State.odGet_odPut_ne _ (by decide), State.odGet_count_self]
  · obtain ⟨cls, key, hstart⟩ := State.startProgram_eq hp
    have hx : exec (.programStart f slot) s = execProgramStart f slot s := by rfl
    exact ⟨cls, key, by simp [hx, execProgramStart, hf, hmay, hstart]⟩
  · have hx : exec (.programResume f slot) s = execProgramResume f slot s := by rfl
    obtain ⟨progs, hflight⟩ := s.resumed_flight (flightKey f) slot
    exact ⟨s.resumed (flightKey f) slot, by simp [hx, execProgramResume, hf, hmay, State.resumeProgram_eq hp], State.resumed_progAt hp,
      by rw [hflight], by rw [hflight]; rfl, by rw [hflight]; rfl, ⟨rfl, rfl, rfl, rfl, rfl, rfl, rfl, rfl, rfl, rfl, rfl, rfl⟩, rfl⟩
  · have hx : exec (.flightOffer f) s = execFlightOffer f s := by rfl
    rw [hx, execFlightOffer_offered hf hcur hp hmode, if_neg (by simp [hup])]
    refine ⟨_, rfl, ?_, fun k hk => s.flight_setFlight_ne hk _, ⟨rfl, rfl, rfl, rfl, rfl, rfl, rfl, rfl, rfl, rfl, rfl, rfl⟩⟩
    rw [State.progAt_modProg_self _ _ _ (fun _ => by rfl), hp, Option.map_some]
  · have hx : exec (.flightOffer f) s = execFlightOffer f s := by rfl
    rw [hx, execFlightOffer_offered hf hcur hp hmode, if_pos hup]
    exact ⟨s.suspendProg (flightKey f) sl, rfl, State.suspendProg_running hp hcur⟩

end Sys2Proof.Machine
end

section
/-!
SUPPORT. Laws of sparse passes and of the sign predictor (R150 to R168, R227): what an accumulate that brings rows to several tiles leaves of them, what a span
brings, what a prediction writes; and the statement on SPARSE_PASS and PREDICT.
-/

namespace Sys2Proof.Machine

/-! ### An accumulate that brings rows to several tiles (R105, R107) -/

/-- The rows of each of several accumulates have entered their tiles; other tiles of the flight and other flights are as they were. -/
structure Entered (fk : Nat) (xs : List Accum) (s t : State) : Prop where
  takers : ∀ x ∈ xs, ((t.flight fk).tile x.tile).valid = true ∧ ((t.flight fk).tile x.tile).fmt = x.fmt
  tiles : ∀ i, (∀ x ∈ xs, i ≠ x.tile) → (t.flight fk).tile i = (s.flight fk).tile i
  others : SameOtherFlights fk s t

/-- One accumulate has entered its tile, and then those of a list their own, which differ from it. -/
theorem Accumulated.entered {c : OpCtx} {x : Accum} {xs : List Accum} {s t u : State} (h : Accumulated c x s t) (h' : Entered c.fk xs t u)
    (hne : ∀ y ∈ xs, x.tile ≠ y.tile) : Entered c.fk (x :: xs) s u := by
  refine ⟨fun y hy => ?_, fun i hi => ?_, fun j hj => (h'.others j hj).trans (h.others j hj)⟩
  · rcases List.mem_cons.1 hy with rfl | hy
    · rw [h'.tiles _ hne]
      exact ⟨h.valid, h.fmt⟩
    · exact h'.takers y hy
  · obtain ⟨hix, hixs⟩ := List.forall_mem_cons.1 hi
    rw [h'.tiles i hixs, h.tiles i hix]

theorem KeepsTiles.entered {fk : Nat} {xs : List Accum} {s t u : State} (h : KeepsTiles fk s t) (h' : Entered fk xs t u) : Entered fk xs s u :=
  ⟨h'.takers, fun i hi => (h'.tiles i hi).trans (h.tile i), fun j hj => (h'.others j hj).trans (h.others j hj)⟩

theorem Entered.keepsTiles {fk : Nat} {xs : List Accum} {s t u : State} (h : Entered fk xs s t) (h' : KeepsTiles fk t u) : Entered fk xs s u :=
  ⟨fun x hx => by rw [h'.tile]; exact h.takers x hx, fun i hi => (h'.tile i).trans (h.tiles i hi), fun j hj => (h'.others j hj).trans (h.others j hj)⟩

/-- What an operation brings enters tile by tile. -/
theorem State.enterTiles_cons {s t : State} {c : OpCtx} {us : List Upset} {main : Nat} {x : Accum} (h : s.enterTiles c us main [x] = some (t, []))
    (xs : List Accum) : s.enterTiles c us main (x :: xs) = t.enterTiles c us main xs := by
  simp only [State.enterTiles, List.foldl_cons, List.foldl_nil] at h ⊢
  rw [h]

/-- R107, R108, R120: without upsets the rows of accumulates into different tiles enter them, where each tile takes its rows, and no residue check fails. -/
theorem State.enterTiles_all {c : OpCtx} (main : Nat) {xs : List Accum} (hdiff : (xs.map (·.tile)).Nodup) {s : State}
    (h : ∀ x ∈ xs, ((s.flight c.fk).tile x.tile).takes x) : ∃ t, s.enterTiles c [] main xs = some (t, []) ∧ Entered c.fk xs s t := by
  induction xs generalizing s with
  | nil => exact ⟨s, rfl, List.forall_mem_nil _, fun _ _ => rfl, fun _ _ => rfl⟩
  | cons x xs ih =>
    obtain ⟨hx, hxs⟩ := List.forall_mem_cons.1 h
    obtain ⟨hnotin, hdiff⟩ := List.nodup_cons.1 hdiff
    have hne : ∀ y ∈ xs, x.tile ≠ y.tile := fun y hy he => hnotin (List.mem_map.2 ⟨y, hy, he.symm⟩)
    obtain ⟨t, henter, hin, -⟩ := State.enterTiles_one hx main
    obtain ⟨u, hall, hins⟩ := ih hdiff (s := t) (fun y hy => by rw [hin.tiles _ (hne y hy).symm]; exact hxs y hy)
    exact ⟨u, (State.enterTiles_cons henter xs).trans hall, hin.entered hins hne⟩

/-- R107: such an accumulate, where no upset strikes and no landing read meets an error, is issued with its rows in its tiles. -/
theorem State.accBody_all {s t : State} {hw : PassHw} {c : OpCtx} {xs : List Accum} (hfoot : hw.foot = ⟨[], []⟩)
    (hacc : s.accsOf hw false c c.main = .ok t xs) (hdiff : (xs.map (·.tile)).Nodup) (h : ∀ x ∈ xs, ((t.flight c.fk).tile x.tile).takes x) :
    ∃ r, State.accBody hw c s = (r, .open_) ∧ Entered c.fk xs t r := by
  obtain ⟨u, henter, hu⟩ := State.enterTiles_all c.main hdiff h
  refine ⟨u.tick.holdShare c, ?_, hu.keepsTiles (.of_writesOnly (State.tickHoldShare_writesOnly u c))⟩
  simp [State.accBody, State.landErrors, hfoot, hacc, henter, State.recoverAll]

/-! ### SPARSE_PASS (R150 to R160, R227) -/

theorem State.fillMap_keepsTiles (s : State) (fk : Nat) (m : KMap Nat) : KeepsTiles fk s (s.fillMap fk m) :=
  s.setFlight_keepsTiles (by split <;> rfl)

theorem State.countLayer_writesOnly {L : Nat → Prop} (s : State) (infos : List SkipInfo) (logical physical : Nat) :
    WritesOnly L s (s.countLayer infos logical physical) := by
  unfold State.countLayer
  split
  · exact .refl s
  · split
    · exact .refl s
    · exact .of_maps rfl rfl rfl

/-- The tiles of a span are those from its target on. -/
theorem spanAccs_tile (c : OpCtx) (x : SpanW) (fmt : Nat) (o : Operands) (infos : List SkipInfo) (bad : List Bool) (rounds : List Round) :
    (spanAccs c x fmt o infos bad rounds).map (·.tile) = (List.range x.fo).map (tgtTile x.target + ·) := by
  simp [spanAccs]

/-- R119, R160: a span brings sound rows of its operands' format. -/
theorem spanAccs_mem {c : OpCtx} {x : SpanW} {fmt : Nat} {o : Operands} {infos : List SkipInfo} {bad : List Bool} {rounds : List Round} {a : Accum}
    (ha : a ∈ spanAccs c x fmt o infos bad rounds) :
    ∃ t < x.fo, a.tile = tgtTile x.target + t ∧ a.fmt = fmt ∧ ∀ r ∈ a.rows, r.sound = true := by
  obtain ⟨t, ht, rfl⟩ := List.mem_map.1 ha
  refine ⟨t, List.mem_range.1 ht, rfl, rfl, fun r hr => ?_⟩
  obtain ⟨y, -, hy⟩ := List.mem_flatMap.1 hr
  exact y.contribs_sound _ _ _ _ r hy

section
variable {s s1 : State} {hw : PassHw} {c : OpCtx} {fmt : Nat} {items : List (List Elem)} {vec : List SkipInfo} {vbad : Bool}
  {planes : List (List Int × Bool)} (hspan : spanCheck c (spanW c.word) = none) (hitems : s.spanItems c (spanW c.word) = .ok (fmt, items))
  (hvec : s.spanVector c (spanW c.word) = .ok (vec, vbad))
  (hload : s.loadPlanes c (bits c.word 111 107) (spanW c.word).segs hw false = .ok s1 planes) (herrs : hw.errs = [])
include hspan hitems hvec hload herrs

/-- R150, R227: a span whose operands, vector and planes stand brings its accumulates, and keeps tiles: it writes the flight's maps and plane, the layer's counts
and the record of main passes. -/
theorem State.sparseAccs_ok : ∃ t o infos bad rounds, s.sparseAccs hw false c = .ok t (spanAccs c (spanW c.word) fmt o infos bad rounds) ∧
    KeepsTiles c.fk s t := by
  simp only [State.sparseAccs, hspan, hitems, hvec, hload]
  refine ⟨_, _, _, _, _, rfl, ?_⟩
  have hcounts : ∀ u l, KeepsTiles c.fk u (State.counts u l) := fun u l => .of_log (State.counts_frame u l)
  have hmaps : ∀ u (l : List (List Dealt × KMap Nat)), KeepsTiles c.fk u (l.foldl (fun s d => s.fillMap c.fk d.2) u) := fun u l =>
    .foldl (fun r d => r.fillMap_keepsTiles c.fk d.2) l u
  have hplane : ∀ u m bad, KeepsTiles c.fk u ((State.takePlane u c.fk m bad).readBadWeight c bad) := fun u m bad =>
    (u.takePlane_keepsTiles c.fk m bad).step (.of_writesOnly (State.readBadWeight_writesOnly _ c bad))
  have hfetch := State.loadPlanes_keepsTiles herrs hload
  exact (((((hfetch.step (hcounts _ _)).step (hcounts _ _)).step (hmaps _ _)).step (hplane _ _ _)).step
    (.of_writesOnly (State.countLayer_writesOnly _ _ _ _))).step (State.modProg_keepsTiles _ _ _ _)

/-- R227: such a span, where no upset strikes and its tiles are sound and released or of its operands' format, is issued with its rows in them. -/
theorem State.sparseBody_open (hfoot : hw.foot = ⟨[], []⟩) (hop : opOf c.word = 0x11)
    (hsound : ∀ t < (spanW c.word).fo, ((s.flight c.fk).tile (tgtTile (spanW c.word).target + t)).sound = true)
    (hfmt : ∀ t < (spanW c.word).fo, ((s.flight c.fk).tile (tgtTile (spanW c.word).target + t)).valid = true →
      ((s.flight c.fk).tile (tgtTile (spanW c.word).target + t)).fmt = fmt) :
    ∃ r o infos bad rounds, State.accBody hw c s = (r, .open_) ∧ Entered c.fk (spanAccs c (spanW c.word) fmt o infos bad rounds) s r := by
  obtain ⟨t, o, infos, bad, rounds, hacc, hkeep⟩ := State.sparseAccs_ok hspan hitems hvec hload herrs
  have htakes : ∀ a ∈ spanAccs c (spanW c.word) fmt o infos bad rounds, ((t.flight c.fk).tile a.tile).takes a := fun a ha => by
    obtain ⟨i, hi, htile, hafmt, hrows⟩ := spanAccs_mem ha
    rw [hkeep.tile, htile]
    exact ⟨hsound i hi, hrows, fun hv => (hfmt i hi hv).trans hafmt.symm⟩
  have hdiff : ((spanAccs c (spanW c.word) fmt o infos bad rounds).map (·.tile)).Nodup := by
    rw [spanAccs_tile]
    exact List.nodup_range.map (add_right_injective _)
  obtain ⟨r, hbody, hin⟩ := State.accBody_all (s := s) hfoot (by simp [State.accsOf, hop, hacc]) hdiff htakes
  exact ⟨r, o, infos, bad, rounds, hbody, hkeep.entered hin⟩

end

/-- The tiles of a span after its rows have entered them, and the others. -/
theorem Entered.span {s r : State} {c : OpCtx} {x : SpanW} {fmt : Nat} {o : Operands} {infos : List SkipInfo} {bad : List Bool} {rounds : List Round}
    (h : Entered c.fk (spanAccs c x fmt o infos bad rounds) s r) :
    (∀ t < x.fo, ((r.flight c.fk).tile (tgtTile x.target + t)).valid = true ∧ ((r.flight c.fk).tile (tgtTile x.target + t)).fmt = fmt) ∧
      ∀ i, (i < tgtTile x.target ∨ tgtTile x.target + x.fo ≤ i) → (r.flight c.fk).tile i = (s.flight c.fk).tile i := by
  refine ⟨fun t ht => ?_, fun i hi => h.tiles i fun a ha => ?_⟩
  · have hmem : tgtTile x.target + t ∈ (spanAccs c x fmt o infos bad rounds).map (·.tile) := by
      rw [spanAccs_tile]
      exact List.mem_map_of_mem (List.mem_range.2 ht)
    obtain ⟨a, ha, htile⟩ := List.mem_map.1 hmem
    obtain ⟨-, -, -, hafmt, -⟩ := spanAccs_mem ha
    obtain ⟨hvalid, hfmt⟩ := h.takers a ha
    rw [← htile]
    exact ⟨hvalid, hfmt.trans hafmt⟩
  · obtain ⟨t, ht, htile, -, -⟩ := spanAccs_mem ha
    omega

/-! ### PREDICT (R161 to R168) -/

/-- R163: the record of a predicted layer as given. -/
def State.putLayer (s : State) (key : Nat) (layer : PredLayer) : State := { s with halls := { s.halls with layers := kput key layer s.halls.layers } }

/-- R162, R163, R165: the state after a prediction of a layer: its vector lies in its buffer, the layer's record stands as given, and the vector is known as the
layer's. -/
def State.putVector (s : State) (vec : Buf) (codes : List Nat) (bad : Bool) (tenant key : Nat) (layer : PredLayer) (counted : List (Nat × Nat)) (len : Nat) :
    State :=
  ((((s.landWrite vec.landing (vec.base * 64) (vectorBytes codes) bad tenant).putLayer key layer).counts counted).noteVector vec key len).tick

section
variable (s : State) (vec : Buf) (codes : List Nat) (bad : Bool) (tenant key : Nat) (layer : PredLayer) (counted : List (Nat × Nat)) (len : Nat)

/-- A prediction writes its vector's landing, and no tile. -/
theorem State.putVector_writesOnly : WritesOnly (· = vec.landing) s (s.putVector vec codes bad tenant key layer counted len) := by
  have hwrite := s.landWrite_writesOnly (L := (· = vec.landing)) rfl (vec.base * 64) (vectorBytes codes) bad tenant
  have hlayer : ∀ u : State, WritesOnly (· = vec.landing) u (u.putLayer key layer) := fun u => .of_maps rfl rfl rfl
  exact ((hwrite.step (hlayer _)).step (.of_log (State.counts_frame _ counted))).step (.of_maps rfl rfl rfl)

theorem State.putVector_layer : kfind key (s.putVector vec codes bad tenant key layer counted len).halls.layers = some layer := by
  simp [State.putVector, State.noteVector, (State.counts_frame _ counted).halls, State.putLayer]

theorem State.putVector_vector :
    kfind (vec.landing * 2 ^ 20 + vec.base) (s.putVector vec codes bad tenant key layer counted len).halls.vectors = some (key, len) := by
  simp [State.putVector, State.noteVector]

theorem State.putVector_beyondHalls : SameBeyondHalls s (s.putVector vec codes bad tenant key layer counted len) := by
  have h := State.counts_frame ((s.landWrite vec.landing (vec.base * 64) (vectorBytes codes) bad tenant).putLayer key layer) counted
  exact ⟨h.pending, h.epoch, h.mode, h.trans, h.eop, h.mem, h.xlate, h.arcade, h.foyer, h.power, h.start, h.test⟩

end

/-- R162, R163: a layer's record after a prediction: the audited blocks counted so far, and the codes that skip a block. -/
def PredLayer.predicted (l : PredLayer) (count : Nat) (codes : List Nat) : PredLayer :=
  { l with count := count, skipped := l.skipped + (codes.filter (fun k => k == 1 || k == 3)).length }

/-- R162: the items that a prediction reads: in a P flight those of a buffer whose rows lie in it, in a G flight those of the token store. -/
theorem State.predictSource_ok {s : State} {c : OpCtx} {act : Option Buf}
    (h : if c.g then act = none else ∃ b, act = some b ∧ s.need c.since (hallLanding c.hall) (bits c.word 87 80) [1, 2] = .ok b ∧
      (List.range (bits c.word 63 58 + 1)).all (fun q => b.rowOk (bits c.word 79 64) q) = true) :
    (if c.g then .ok none else (s.need c.since (hallLanding c.hall) (bits c.word 87 80) [1, 2]).map some) = .ok act ∧
      ∀ b, act = some b → (List.range (bits c.word 63 58 + 1)).all (fun q => b.rowOk (bits c.word 79 64) q) = true := by
  split at h
  · next hg =>
    subst h
    simp [hg]
  · next hg =>
    obtain ⟨b, rfl, hneed, hrows⟩ := h
    exact ⟨by rw [if_neg hg, hneed]; rfl, fun _ hb => by cases hb; exact hrows⟩

/-- R162 to R168: PREDICT of a predicted layer, with buffers that hold what it reads and writes, writes the codes of the layer's blocks to its vector, and counts
those that skip a block. -/
theorem State.predictBody_open {s : State} {c : OpCtx} {layer : PredLayer} {planes vec par : Buf} {act : Option Buf}
    (hlayer : kfind (c.prog.img.model * 65536 + bits c.word 111 96) s.halls.layers = some layer)
    (hplanes : s.need c.since (hallLanding c.hall) (bits c.word 95 88) [4] = .ok planes)
    (hvec : s.need c.since (hallLanding c.hall) (bits c.word 49 42) [8] = .ok vec)
    (hpar : s.need c.since (hallLanding c.hall) (bits c.word 41 34) [7] = .ok par)
    (hact : if c.g then act = none else ∃ b, act = some b ∧ s.need c.since (hallLanding c.hall) (bits c.word 87 80) [1, 2] = .ok b ∧
      (List.range (bits c.word 63 58 + 1)).all (fun q => b.rowOk (bits c.word 79 64) q) = true)
    (hw : vec.writable = true) (hprows : planes.rowOk ((bits c.word 57 50 + 1) * c.W - 1) 0 = true)
    (hlen : cdiv ((bits c.word 57 50 + 1) * (c.W / 32)) 4 ≤ vec.bytesLen) :
    ∃ codes bad count counted, State.predictBody c s =
      (s.putVector vec codes bad c.tenant (c.prog.img.model * 65536 + bits c.word 111 96) (layer.predicted count codes) counted
        (cdiv ((bits c.word 57 50 + 1) * (c.W / 32)) 4), .open_) := by
  obtain ⟨hsource, hrows⟩ := State.predictSource_ok hact
  unfold State.predictBody
  simp only [hlayer, hplanes, hsource, hvec, hpar, hw, hprows, Nat.not_lt.2 hlen, Bool.not_true, Bool.false_or, Bool.or_false, if_false]
  rw [if_neg (by cases act with
    | none => simp
    | some b => simp [hrows b rfl])]
  generalize s.predictions _ _ _ _ _ _ _ = p
  obtain ⟨inactive, proven, poison⟩ := p
  dsimp only
  generalize (if s.activeMode layer = 0 then _ else _ : List Nat × Nat) = e
  obtain ⟨codes, count⟩ := e
  exact ⟨codes, _, count, _, rfl⟩

/-! ### The statement -/

/-- Settles O15: a span's rows enter its tiles alone, which take them; a prediction writes its vector and its layer's record. -/
theorem sparsePassAndPredictComplete : Obligations.SparsePassAndPredictComplete := by
  refine ⟨fun f hw s s1 c fmt items vec vbad planes hissue hspan hitems hvec hload hfoot herrs hsound hfmt => ?_,
    fun f s c layer planes vec par act hissue hlayer hplanes hvec hpar hact hw hprows hlen => ?_⟩
  · obtain ⟨r, o, infos, bad, rounds, hbody, hin⟩ := State.sparseBody_open hspan hitems hvec hload herrs hfoot hissue.opOf_word hsound hfmt
    obtain ⟨htakers, htiles⟩ := hin.span
    have hx : exec (.sparsePass f hw) s = execSparsePass f hw s := by rfl
    exact ⟨r, by simp [hx, execSparsePass, hissue.flightOk, issueOp_open hissue hbody], htakers, htiles, hin.others⟩
  · obtain ⟨codes, bad, count, counted, hbody⟩ := State.predictBody_open hlayer hplanes hvec hpar hact hw hprows hlen
    have hwrites := s.putVector_writesOnly vec codes bad c.tenant (c.prog.img.model * 65536 + bits c.word 111 96) (layer.predicted count codes) counted
      (cdiv ((bits c.word 57 50 + 1) * (c.W / 32)) 4)
    have hx : exec (.predict f) s = execPredict f s := by rfl
    exact ⟨_, layer.predicted count codes, by rw [hx, execPredict, hissue.flightOk, issueOp_open hissue hbody]; rfl, State.putVector_layer ..,
      Nat.le_add_right _ _, rfl, rfl, by rw [State.putVector_vector]; rfl, fun k => by rw [hwrites.flight], hwrites.landing,
      State.putVector_beyondHalls ..⟩

end Sys2Proof.Machine
end

section
/-!
SUPPORT. Laws of writes of the entries that translation, the logs, the stream table and predicted layers follow (R170, R277, R282, R293 to R300, R323, R385, R486,
R487): what each entry's own rule makes of a write that reaches it; and the statement on them.
-/

namespace Sys2Proof.Machine

/-! ### TENANT_ROOT (R277) -/

/-- The roots of the 64 tenants are an aligned run of entries. -/
theorem tenantRoot_div {t : Nat} (ht : t < 64) : (Od.tenantRoot0 + t) / 64 = Od.tenantRoot0 / 64 := by
  simp only [Od.tenantRoot0]
  omega

theorem tenantRoot_ne {t k : Nat} (ht : t < 64) (hk : k / 64 ≠ Od.tenantRoot0 / 64) : Od.tenantRoot0 + t ≠ k :=
  fun he => hk (he ▸ tenantRoot_div ht)

theorem tenantRoot_not_foyer {t : Nat} (ht : t < 64) : Od.tenantRoot0 + t ∉ foyerEntries := fun h => by
  have hfar : ∀ k ∈ foyerEntries, k / 64 ≠ Od.tenantRoot0 / 64 := by decide
  exact hfar _ h (tenantRoot_div ht)

theorem State.applyScalar_tenantRoot (s : State) (via : Via) (port : Nat) {t : Nat} (ht : t < 64) (v : Nat) :
    s.applyScalar via port (Od.tenantRoot0 + t) v = s.writeRoot t v := by
  simp (disch := decide) only [State.applyScalar, tenantRoot_ne ht, tenantRoot_div ht, or_self, if_false, if_true, Nat.add_sub_cancel_left]

theorem exec_tenantRootWrite (w : OdW) {t : Nat} (ht : t < 64) (s : State) :
    exec (.tenantRootWrite w t) s = .next (s.entryAccess 1 w 0 (Od.tenantRoot0 + t) .plain) := by
  have hx : exec (.tenantRootWrite w t) s = execTenantRootWrite w t s := by rfl
  simp [hx, execTenantRootWrite, tenantOk, ht]

/-- R277: no program of the tenant is loaded, and its streams have ended. -/
theorem State.writeRoot_of_idle {s : State} {t : Nat}
    (h : (s.progs.all (fun e => e.2.img.tenant != t) && s.streamList.all (fun i => s.sTenant i != t || endedState (s.sState i))) = true) (v : Nat) :
    s.writeRoot t v = (0, (s.odPut (Od.tenantRoot0 + t) v).dropXlate t (fun _ => true)) := by
  have hidle : (s.progs.any (fun e => e.2.img.tenant == t) || s.streamList.any (fun i => s.sTenant i == t && !endedState (s.sState i))) = false := by
    simpa [imp_iff_not_or] using h
  simp [State.writeRoot, hidle]

theorem State.mem_dropXlate {s : State} {t : Nat} {p : XEntry → Bool} {x : XEntry} :
    x ∈ (s.dropXlate t p).xlate.cache ↔ x ∈ s.xlate.cache ∧ ¬ (x.tenant = t ∧ p x = true) := by
  simp [State.dropXlate, imp_iff_not_or]

theorem tenantRoot_taken {s : State} {w : OdW} {via : Via} {t : Nat} (ht : t < 64) (h : ReachesScalar s w via (Od.tenantRoot0 + t))
    (hidle : (s.progs.all (fun e => e.2.img.tenant != t) && s.streamList.all (fun i => s.sTenant i != t || endedState (s.sState i))) = true) :
    Commits s (.tenantRootWrite w t) w.via
      ((s.odPut (Od.tenantRoot0 + t) (writtenValue (Od.tenantRoot0 + t) (leNat w.value))).dropXlate t (fun _ => true)) := by
  refine h.commits (exec_tenantRootWrite w ht s) (by simp only [Od.tenantRoot0]; omega) (tenantRoot_ne ht (by decide)) (tenantRoot_not_foyer ht) ?_
  rw [State.applyScalar_tenantRoot _ _ _ ht, State.writeRoot_of_idle hidle]

/-! ### XLATE_INVALIDATE (R282) -/

/-- R36, R571: what answers a write that reaches its scalar entry, whatever the entry. -/
theorem ReachesScalar.answered {s : State} {w : OdW} {via : Via} {k : Nat} (h : ReachesScalar s w via k) (hk : k % 256 ≠ 0) :
    ∃ a : Access, a.origin = .via w.via ∧ a.op = 1 ∧ a.key = k ∧ s.entryAccess 1 w 0 k .plain =
      answerTo a ((s.writeScalar via 0 k (leNat w.value)).1, [], (s.writeScalar via 0 k (leNat w.value)).2) := by
  obtain ⟨⟨hoff, hrestart, hrec, htarget, hmay, row, hrow, hw, hrws⟩, hsize, _⟩ := h
  have hsize' : row.ty.size = some w.value.length := by simpa [State.entryRow_of_sub hk hrow] using hsize
  unfold State.entryAccess
  rw [if_neg (by simp [hoff, hrestart])]
  obtain ⟨level, ⟨ht, rfl⟩ | ⟨ht, rfl, horigin⟩⟩ := htarget
  · simp only [State.perform, ht, Bool.false_eq_true, if_false]
    rw [State.access_of_write rfl hrec, State.accessWrite_of_passed hrow hw hmay hrws hsize']
    exact ⟨_, rfl, rfl, rfl, rfl⟩
  · have ho : s.originMay ⟨w.via, 0, .via w.via, 1, w.path, k, w.value, .plain, segmentMax w.via, level⟩ = true := horigin
    simp only [State.perform, ht, ho, if_true, Bool.not_true, Bool.false_eq_true, if_false]
    rw [State.access_of_write rfl hrec, State.accessWrite_of_passed hrow hw hmay hrws hsize']
    exact ⟨_, rfl, rfl, rfl, rfl⟩

theorem exec_xlateInvalidate (w : OdW) (s : State) : exec (.xlateInvalidate w) s = .next (s.entryAccess 1 w 0 Od.xlateInvalidate .plain) := by rfl

theorem State.applyScalar_xlateInvalidate (s : State) (via : Via) (port v : Nat) :
    s.applyScalar via port Od.xlateInvalidate (writtenValue Od.xlateInvalidate v) = (0, s.invalidate v) := rfl

/-- R282: such a write removes translations and counts, and its answer leaves behind the writes that wait for the host's caches. -/
theorem xlateInvalidate_answered {s : State} {w : OdW} {via : Via} (h : ReachesScalar s w via Od.xlateInvalidate) :
    exec (.xlateInvalidate w) s = .next (let r := (s.invalidate (leNat w.value)).count Od.odWriteSeq 1
      if s.cxl.waiting.any hostWrites then r.hostActs [.answer (.via w.via) 1 Od.xlateInvalidate (r.odGet Od.odWriteSeq)]
      else r.emit (.od (.via w.via) 0 (r.odGet Od.odWriteSeq) [])) := by
  obtain ⟨a, horigin, hop, hkey, ha⟩ := h.answered (by decide)
  rw [exec_xlateInvalidate, ha, State.writeScalar_of_taken h.2.2 (State.applyScalar_xlateInvalidate ..) (by decide)]
  extract_lets r
  have hlate : r.answerLate a 0 = s.cxl.waiting.any hostWrites := by simp [State.answerLate, hop, hkey, r, State.invalidate]
  rw [answerTo, hlate, horigin, hop, hkey]
  rfl

theorem State.mem_invalidate {s : State} {v : Nat} {x : XEntry} :
    x ∈ (s.invalidate v).xlate.cache ↔ x ∈ s.xlate.cache ∧ ¬ (x.tenant = bits v 63 58 ∧ (bit v 57 = true ∨
      (x.base < bits v 47 12 * 4096 + (bits v 11 0 + 1) * 4096 ∧ bits v 47 12 * 4096 < x.base + x.size))) := by
  simp [State.invalidate, State.mem_dropXlate]

/-! ### Consumer indices (R293, R323) -/

theorem prlConsumer_taken {s : State} {w : OdW} {via : Via} (h : ReachesScalar s w via Od.prlConsumer) (hnone : s.xlate.requests = []) :
    Commits s (.prlConsumerWrite w) w.via (s.odPut Od.prlConsumer (leNat w.value)) := by
  have happly : s.applyScalar via 0 Od.prlConsumer (writtenValue Od.prlConsumer (leNat w.value)) =
      (0, logRequests s.xlate.requests.length (s.odPut Od.prlConsumer (leNat w.value))) := by rfl
  refine h.commits (by rfl) (by decide) (by decide) (by decide) (happly.trans ?_)
  rw [hnone]
  rfl

theorem clogConsumer_taken {s : State} {w : OdW} {via : Via} (h : ReachesScalar s w via Od.clogConsumer) (hnone : s.serve.clog = []) :
    Commits s (.clogConsumerWrite w) w.via (s.odPut Od.clogConsumer (leNat w.value)) := by
  have happly : s.applyScalar via 0 Od.clogConsumer (writtenValue Od.clogConsumer (leNat w.value)) =
      (0, clogDrain s.serve.clog.length (s.odPut Od.clogConsumer (leNat w.value))) := by rfl
  refine h.commits (by rfl) (by decide) (by decide) (by decide) (happly.trans ?_)
  rw [hnone]
  rfl

/-! ### TABLE_BASE and FIELD_BASE (R300, R462) -/

/-- The entry that a write of one of the two bases names. -/
def baseEntry (fieldBase : Bool) : Nat := if fieldBase then Od.fieldBase else Od.tableBase

theorem exec_tableBaseWrite (w : OdW) (fb : Bool) (s : State) : exec (.tableBaseWrite w fb) s = .next (s.entryAccess 1 w 0 (baseEntry fb) .plain) := by rfl

theorem State.applyScalar_base (s : State) (via : Via) (port v : Nat) (fb : Bool) :
    s.applyScalar via port (baseEntry fb) (writtenValue (baseEntry fb) v) = s.writeTable (baseEntry fb) v := by
  cases fb <;> rfl

@[simp] theorem State.readTable_foyer (s : State) : s.readTable.foyer = s.foyer := by
  unfold State.readTable
  refine foldl_keeps (fun t : State => t.foyer = s.foyer) _ ?_ s.tableEntries rfl
  exact fun t i ht => ht

theorem State.writeTable_of_live {s : State} (h : s.entriesLive ≠ 0) (k v : Nat) : s.writeTable k v = (0x1103, s) := if_pos h

/-- R300, R462: while no entry is live and no cell is bound, a base is taken; at a new TABLE_BASE the entries are read as log entry 100 has it. -/
theorem State.writeTable_of_free {s : State} (h : s.entriesLive = 0) (hcells : s.foyer.cells = []) (fb : Bool) (v : Nat) :
    s.writeTable (baseEntry fb) v = (0, if fb then s.odPut Od.fieldBase v else (s.odPut Od.tableBase v).readTable) := by
  cases fb with
  | true => simp [State.writeTable, h, baseEntry, hcells]
  | false => simp [State.writeTable, h, baseEntry, hcells]

section
variable {s : State} {w : OdW} {via : Via} {fb : Bool} (h : ReachesScalar s w via (baseEntry fb))
include h

theorem base_denied (hlive : s.entriesLive ≠ 0) : Denied s (.tableBaseWrite w fb) w.via 0x1103 :=
  h.denied (exec_tableBaseWrite w fb s) (by cases fb <;> decide) (by cases fb <;> decide) (by decide)
    ((State.applyScalar_base ..).trans (State.writeTable_of_live hlive _ _))

theorem base_taken (hfree : s.entriesLive = 0) (hcells : s.foyer.cells = []) : Commits s (.tableBaseWrite w fb) w.via
    (if fb then s.odPut Od.fieldBase (leNat w.value) else (s.odPut Od.tableBase (leNat w.value)).readTable) :=
  h.commits (exec_tableBaseWrite w fb s) (by cases fb <;> decide) (by cases fb <;> decide) (by cases fb <;> decide)
    ((State.applyScalar_base ..).trans (State.writeTable_of_free hfree hcells _ _))

end

/-! ### The host window (R385) -/

/-- The entry that a write of the window's base or size names. -/
def windowEntry (size : Bool) : Nat := if size then Od.hostWindowSize else Od.hostWindowBase

theorem exec_hostWindowWrite (w : OdW) (sz : Bool) (s : State) :
    exec (.hostWindowWrite w sz) s = .next (s.entryAccess 1 w 0 (windowEntry sz) .plain) := by rfl

theorem State.applyScalar_window (s : State) (via : Via) (port v : Nat) (sz : Bool) :
    s.applyScalar via port (windowEntry sz) (writtenValue (windowEntry sz) v) = s.writeWindow (windowEntry sz) v := by
  cases sz <;> rfl

theorem State.writeWindow_of_committed {s : State} (h : s.odGet Od.hdmCommitted ≠ 0) (k v : Nat) : s.writeWindow k v = (0x1103, s) := by
  simp [State.writeWindow, h]

/-- A model in state 0 or 5 is not loaded. -/
theorem State.writeWindow_of_unloaded {s : State} (h : s.odGet Od.hdmCommitted = 0) (hm : ∀ m ∈ s.serve.models, m.2.state = 0 ∨ m.2.state = 5) (k v : Nat) :
    s.writeWindow k v = (0, s.odPut k v) := by
  have hnone : s.serve.models.any (fun m => decide (1 ≤ m.2.state) && decide (m.2.state ≤ 4)) = false := List.any_eq_false.2 fun m hmem => by
    rcases hm m hmem with h | h <;> simp [h]
  simp [State.writeWindow, h, hnone]

section
variable {s : State} {w : OdW} {via : Via} {sz : Bool} (h : ReachesScalar s w via (windowEntry sz))
include h

theorem window_denied (hc : s.odGet Od.hdmCommitted ≠ 0) : Denied s (.hostWindowWrite w sz) w.via 0x1103 :=
  h.denied (exec_hostWindowWrite w sz s) (by cases sz <;> decide) (by cases sz <;> decide) (by decide)
    ((State.applyScalar_window ..).trans (State.writeWindow_of_committed hc _ _))

theorem window_taken (hc : s.odGet Od.hdmCommitted = 0) (hm : ∀ m ∈ s.serve.models, m.2.state = 0 ∨ m.2.state = 5) :
    Commits s (.hostWindowWrite w sz) w.via (s.odPut (windowEntry sz) (leNat w.value)) :=
  h.commits (exec_hostWindowWrite w sz s) (by cases sz <;> decide) (by cases sz <;> decide) (by cases sz <;> decide)
    ((State.applyScalar_window ..).trans (State.writeWindow_of_unloaded hc hm _ _))

end

/-! ### LAYER_MODE (R170) -/

/-- R170: a layer in a new mode: its window is empty, and it does not fall back. -/
def PredLayer.inMode (l : PredLayer) (v : Nat) : PredLayer := { l with mode := v, window := [], fallback := false }

theorem layerMode_taken {s : State} {w : OdW} {via : Via} {k : Nat} {l : PredLayer} (h : ReachesScalar s w via Od.layerMode)
    (hl : s.selectedLayer (roleOf via) = some (k, l)) : Commits s (.layerModeWrite w) w.via (s.putLayer k (l.inMode (leNat w.value))) := by
  have happly : s.applyScalar via 0 Od.layerMode (writtenValue Od.layerMode (leNat w.value)) = s.writeLayer (roleOf via) (leNat w.value) := by rfl
  refine h.commits (by rfl) (by decide) (by decide) (by decide) (happly.trans ?_)
  rw [State.writeLayer, hl]
  rfl

/-! ### ERROR_ACK and PERSISTENT_CLEAR (R486, R487) -/

theorem errorAck_taken {s : State} {w : OdW} {via : Via} (h : ReachesScalar s w via Od.errorAck) :
    Commits s (.errorAck w) w.via (s.ackErrors (leNat w.value)) :=
  h.commits (by rfl) (by decide) (by decide) (by decide) (by rfl)

theorem State.mem_ackErrors {s : State} {v : Nat} {x : LogRec} : x ∈ (s.ackErrors v).log.buffer ↔ x ∈ s.log.buffer ∧ v < x.seq := by
  simp [State.ackErrors]

theorem persistentClear_taken {s : State} {w : OdW} {via : Via} (h : ReachesScalar s w via Od.persistentClear) :
    Commits s (.persistentClear w) w.via { s with log := { s.log with persist := [] } } :=
  h.commits (by rfl) (by decide) (by decide) (by decide) (by rfl)

/-! ### PAGE_RESPONSE (R295) -/

theorem exec_pageResponse (w : OdW) (s : State) : exec (.pageResponse w) s = .next (s.entryAccess 1 w 0 Od.pageResponse .plain) := by rfl

theorem State.applyScalar_pageResponse (s : State) (via : Via) (port v : Nat) :
    s.applyScalar via port Od.pageResponse (writtenValue Od.pageResponse v) = s.pageAnswer (v % 65536) := rfl

theorem State.pageAnswer_of_unlisted {s : State} {v : Nat} (h : ∀ q ∈ s.xlate.requests, q.rec_ ≠ some (v % 256)) : s.pageAnswer v = (0x1105, s) := by
  have hnone : s.xlate.requests.find? (fun r => r.rec_ == some (v % 256)) = none := by simpa using h
  simp [State.pageAnswer, hnone]

/-- R295: where no transfer waits for the one request, its answer ends it, and none is left to be logged. -/
theorem State.pageAnswer_of_only {s : State} {q : PageReq} {v : Nat} (hq : s.xlate.requests = [q]) (hrec : q.rec_ = some (v % 256)) (hv : v / 256 = 1)
    (hwait : s.waitersOf q = []) : s.pageAnswer v = (0, s.dropRequest q) ∧ (s.dropRequest q).xlate.requests = [] := by
  have hnone : (s.dropRequest q).xlate.requests = [] := by simp [State.dropRequest, hq, dropFirst]
  refine ⟨?_, hnone⟩
  simp [State.pageAnswer, hq, hrec, hv, hwait, hnone, logRequests]

theorem pageResponse_denied {s : State} {w : OdW} {via : Via} (h : ReachesScalar s w via Od.pageResponse)
    (hno : ∀ q ∈ s.xlate.requests, q.rec_ ≠ some (leNat w.value % 65536 % 256)) : Denied s (.pageResponse w) w.via 0x1105 :=
  h.denied (exec_pageResponse w s) (by decide) (by decide) (by decide) ((State.applyScalar_pageResponse ..).trans (State.pageAnswer_of_unlisted hno))

/-! ### The statement -/

/-- Settles O35: each write by the lemma on what its entry takes or refuses; what the cache and the log keep by the lemmas on their membership. -/
theorem entryWritesTakeEffect : Obligations.EntryWritesTakeEffect := by
  refine ⟨fun s w via t ht h hidle => ⟨_, tenantRoot_taken ht h hidle, State.odGet_odPut_self .., fun x => ?_, rfl, rfl⟩, fun s w via h hwait => ?_,
    fun s w via h hwait => ⟨s.invalidate (leNat w.value), ?_, rfl, fun x => State.mem_invalidate⟩, fun s w via h hnone => prlConsumer_taken h hnone,
    fun s w via h hnone => clogConsumer_taken h hnone, fun s w via fb h => ⟨base_denied h, base_taken h⟩,
    fun s w via sz h => ⟨window_denied h, window_taken h⟩,
    fun s w via k l h hl => ⟨_, layerMode_taken h hl, rfl, rfl, kfind_kput_self ..⟩,
    fun s w via h => ⟨_, errorAck_taken h, rfl, rfl, rfl, fun x => State.mem_ackErrors⟩,
    fun s w via h => ⟨_, persistentClear_taken h, rfl, rfl, rfl, rfl⟩, fun s w via h hno => pageResponse_denied h hno,
    fun s w via q h hq hrec hv hwait => ?_⟩
  · rw [State.mem_dropXlate]
    simp
  · rw [xlateInvalidate_answered h, hwait]
    rfl
  · rw [Commits, xlateInvalidate_answered h, hwait]
    rfl
  · obtain ⟨hanswer, hnone⟩ := State.pageAnswer_of_only hq hrec hv hwait
    exact ⟨_, h.commits (exec_pageResponse w s) (by decide) (by decide) (by decide) ((State.applyScalar_pageResponse ..).trans hanswer), hnone, rfl, rfl⟩

end Sys2Proof.Machine
end

section
/-!
SUPPORT. Laws of the second fetch of a weight block (R192 to R194): what a Fault leaves of the flights while the module stays in Run (R521, R530), what the fetch
and the poisoning of a block leave of them; and the statement on the block's resolution.
-/

namespace Sys2Proof.Machine

/-! ### Work that keeps the flights of a module that stays in Run -/

/-- Work after which the module is in Run began in Run, and keeps every flight. -/
structure KeepsInRun (s t : State) : Prop where
  mode : t.mode = .run → s.mode = .run
  flight : t.mode = .run → ∀ k, t.flight k = s.flight k

namespace KeepsInRun

variable {s t u : State}

theorem refl (s : State) : KeepsInRun s s := ⟨id, fun _ _ => rfl⟩

theorem step (h : KeepsInRun s t) (h' : KeepsInRun t u) : KeepsInRun s u :=
  ⟨fun hu => h.mode (h'.mode hu), fun hu k => (h'.flight hu k).trans (h.flight (h'.mode hu) k)⟩

theorem of_same (hmode : t.mode = s.mode) (hflight : ∀ k, t.flight k = s.flight k) : KeepsInRun s t := ⟨hmode.symm.trans, fun _ => hflight⟩

/-- Counting and logging keep mode and flights. -/
theorem of_log (h : LogFrame s t) : KeepsInRun s t := of_same h.mode (fun k => by simp only [State.flight, h.halls])

/-- What leaves Run promises nothing of the flights. -/
theorem of_left (h : t.mode ≠ .run) : KeepsInRun s t := ⟨(absurd · h), (absurd · h)⟩

theorem foldl {β : Type} {f : State → β → State} (hf : ∀ r x, KeepsInRun r (f r x)) (l : List β) (s : State) : KeepsInRun s (l.foldl f s) :=
  foldl_keeps (KeepsInRun s) f (fun r x h => h.step (hf r x)) l (.refl s)

end KeepsInRun

/-! ### Faults (R521, R522, R527, R530) -/

/-- R530: Safe Stop and Off are left as they are; from every other state the module ends in Safe Stop. -/
theorem State.enterSafeStop_keepsInRun (s : State) (cause : Nat) : KeepsInRun s (s.enterSafeStop cause) := by
  unfold State.enterSafeStop
  split
  · exact .refl s
  · refine .of_left ?_
    dsimp only
    rw [State.setMode_mode]
    decide

/-- R521, R522: a Fault that joins an episode, opens one, or is the fifth. -/
theorem State.takeFault_keepsInRun (s : State) (ev : LogEv) (x : Subject) (model time : Nat) : KeepsInRun s (s.takeFault ev x model time) := by
  have hrecord : ∀ (r : State) ev n time e q, KeepsInRun r (r.record ev 0 n time e q) := fun r ev n time e q => .of_log (r.record_frame ev 0 n time e q)
  unfold State.takeFault
  split
  · unfold State.joinEpisode
    extract_lets logged up f joined
    have hjoined : KeepsInRun s joined := (hrecord s _ _ _ _ _).step (.of_log (logged.modEpisode_frame _ f))
    split
    · exact hjoined.step (joined.enterSafeStop_keepsInRun _)
    · exact hjoined
  · split
    · exact ((hrecord s _ _ _ _ _).step (hrecord _ _ _ _ _ _)).step (State.enterSafeStop_keepsInRun _ _)
    · extract_lets n logged e _ opened
      have hopened : KeepsInRun logged opened := .of_same rfl fun _ => rfl
      exact ((hrecord s ev 1 time n 1).step hopened).step (.of_log (opened.count_frame _ _))

theorem State.raiseFault_keepsInRun (s : State) (ev : LogEv) (x : Subject) (model : Nat) : KeepsInRun s (s.raiseFault ev x model) := by
  unfold State.raiseFault
  split
  · split
    · exact .of_same rfl fun _ => rfl
    · exact .of_log (s.count_frame _ _)
  · exact s.takeFault_keepsInRun ev x model _

theorem State.memMark_keepsInRun (s : State) (a n : Nat) (p : Bool) : KeepsInRun s (s.memMark a n p) := .of_same rfl fun _ => rfl

theorem State.setLanding_keepsInRun (s : State) (l : Nat) (x : Landing) : KeepsInRun s (s.setLanding l x) := .of_same rfl fun _ => rfl

/-- R527: the marks of a block whose episode has opened, and its records. -/
theorem State.weightPoisoned_keepsInRun (s : State) (x : Subject) : KeepsInRun s (s.weightPoisoned x) := by
  unfold State.weightPoisoned
  split
  · exact .refl s
  · next m sl b _ =>
    extract_lets marked phased
    have hmarked : KeepsInRun s marked :=
      (s.memMark_keepsInRun _ _ _).step (.foldl (fun r _ => r.setLanding_keepsInRun _ _) _ _)
    have hphased : KeepsInRun marked phased := by
      unfold phased
      split
      · exact .of_log (marked.modEpisode_frame _ _)
      · exact .refl marked
    exact (hmarked.step hphased).step (.foldl (fun r _ => r.raiseFault_keepsInRun _ _ _) _ _)

theorem State.fault_keepsInRun (s : State) (ev : LogEv) (x : Subject) (model : Nat) : KeepsInRun s (s.fault ev x model) := by
  unfold State.fault
  extract_lets fresh raised
  have hraised : KeepsInRun s raised := s.raiseFault_keepsInRun ev x model
  split
  · exact hraised.step (raised.weightPoisoned_keepsInRun x)
  · exact hraised

/-! ### A block that is poisoned (R193) -/

theorem State.markFetched_keepsInRun (s : State) (hall tenant : Nat) (x : Arrays) (f : Fetched) : KeepsInRun s (s.markFetched hall tenant x f) := by
  unfold State.markFetched
  split
  · exact s.setLanding_keepsInRun _ _
  · refine .foldl (fun r i => ?_) _ s
    split
    · exact r.memMark_keepsInRun _ _ _
    · exact .refl r

/-- R193: a block that is marked, counted and logged leaves the flights as they were, where its Fault does not lead to Safe Stop. -/
theorem State.poisonBlock_keepsInRun (s : State) (c : OpCtx) (ti : Nat) (x : Arrays) (b : Nat) (f : Fetched) :
    KeepsInRun s (s.poisonBlock c ti x b f) :=
  ((s.markFetched_keepsInRun _ _ x f).step (.of_log (State.counts_frame _ _))).step (State.fault_keepsInRun _ _ _ _)

/-! ### The fetch of a block (R187, R281) -/

/-- R280, R281: a translation counts, and writes nothing else than the translation cache. -/
theorem State.translate_eq (s : State) (hall t va : Nat) (write : Bool) :
    ∃ (u : State) (c : List XEntry), LogFrame s u ∧ (s.translate hall t va write).2 = { u with xlate := { u.xlate with cache := c } } := by
  unfold State.translate
  split
  · exact ⟨_, _, s.count_frame _ _, rfl⟩
  · split
    · exact ⟨_, _, s.count_frame _ _, rfl⟩
    · extract_lets perm keep u r
      have hperm : ∀ x v, LogFrame s v → LogFrame s (perm x v).2 := fun x v hv => by
        cases x with
        | ok b z e =>
          unfold perm
          exact iteInduction (motive := fun r : WalkEnd × State => LogFrame s r.2) (fun _ => hv) (fun _ => hv.step (v.count_frame _ _))
        | fault code => exact hv.step (v.count_frame _ _)
        | page => exact hv
      have hwalk : LogFrame s (perm r u).2 := hperm r u (s.count_frame _ _)
      split
      · exact ⟨_, _, hperm _ _ (s.count_frame _ _), rfl⟩
      · split
        · next hok =>
          rw [hok] at hwalk
          exact ⟨_, _, hwalk, rfl⟩
        · exact ⟨_, _, hwalk, rfl⟩

@[simp] theorem State.translate_mode (s : State) (hall t va : Nat) (write : Bool) : (s.translate hall t va write).2.mode = s.mode := by
  obtain ⟨u, c, hu, he⟩ := s.translate_eq hall t va write
  rw [he]
  exact hu.mode

@[simp] theorem State.arrTouch_mode (s : State) (errs : List BitErr) (hall tenant : Nat) (a : Arr) (off n : Nat) :
    (s.arrTouch errs hall tenant a off n).mode = s.mode := by
  unfold State.arrTouch
  split
  · rfl
  · split
    · rfl
    · exact foldl_keeps (fun t : State => t.mode = s.mode) _ (fun t i ht => (t.translate_mode _ _ _ _).trans ht) _ rfl

@[simp] theorem State.fetchTouch_mode (s : State) (errs : List BitErr) (hall tenant : Nat) (x : Arrays) (b : Nat) (f : Fetched) :
    (s.fetchTouch errs hall tenant x b f).mode = s.mode := by
  simp [State.fetchTouch]

@[simp] theorem State.fetchTouch_flight (s : State) (errs : List BitErr) (hall tenant : Nat) (x : Arrays) (b : Nat) (f : Fetched) (k : Nat) :
    (s.fetchTouch errs hall tenant x b f).flight k = s.flight k :=
  (s.fetchTouch_writesOnly (L := fun _ => False) errs hall tenant x b f).flight k

/-! ### The end of a second fetch (R192 to R194) -/

/-- R192, R193: a flight for which the second fetch of a block has ended. -/
def FlightSt.refetched (y : FlightSt) (block : Nat) (good : Bool) : FlightSt :=
  { y with refetch := y.refetch.filter (· != block), resolved := y.resolved ++ [(block, good)] }

/-- R192, R193: the end of a second fetch, noted in its flight. -/
def State.refetched (s : State) (fk block : Nat) (good : Bool) : State := s.setFlight fk ((s.flight fk).refetched block good)

/-- Work after the end of a second fetch, which does not leave Run, keeps what the flight has noted of it. -/
theorem KeepsInRun.of_refetched {u t : State} {fk block : Nat} {good : Bool} (h : KeepsInRun (u.refetched fk block good) t) (ht : t.mode = .run) :
    (t.flight fk).refetch.contains block = false ∧ (t.flight fk).resolved.getLast? = some (block, good) ∧
      (t.flight fk).tiles = (u.flight fk).tiles := by
  rw [h.flight ht, State.refetched, State.flight_setFlight_self]
  simp [FlightSt.refetched]

theorem State.count_tick_keepsInRun (s : State) (k n : Nat) : KeepsInRun s (s.count k n).tick := .of_same rfl fun _ => rfl

theorem State.tick_keepsInRun (s : State) : KeepsInRun s s.tick := .of_same rfl fun _ => rfl

section
variable {f : FlightId} {block : Nat} {ok : Bool} {s : State} {p : Prog} {w : Nat} {x : Arrays} (hf : flightOk f = true)
  (hrun : s.runningProg (flightKey f) = some p) (hnext : p.next = .ok w) (hwaits : (s.flight (flightKey f)).refetch.contains block = true)
  (hx : s.arraysOf ⟨flightKey f, p, w, false⟩ (bits w 111 107) = .ok x)
include hf hrun hnext hwaits hx

/-- R192: a block that passes its check at the second fetch is counted as recovered. -/
theorem execBlockRefetchDone_good (hgood : ((s.fetchBlock (flightKey f / 20) p.img.tenant x block).good && ok) = true) :
    let u := s.fetchTouch [] (flightKey f / 20) p.img.tenant x block (s.fetchBlock (flightKey f / 20) p.img.tenant x block)
    execBlockRefetchDone f block ok s = .next ((u.refetched (flightKey f) block true).count Od.checkRecovered 1).tick := by
  simp only [execBlockRefetchDone, hf, hrun, hnext, hwaits, hx, OpCtx.hall, OpCtx.tenant, hgood, Bool.not_true, Bool.false_eq_true, if_false, if_true]
  rfl

/-- R193, R194: a block that fails again is counted where every word of it arrived poisoned, and is marked, counted and logged otherwise. -/
theorem execBlockRefetchDone_bad (hbad : ((s.fetchBlock (flightKey f / 20) p.img.tenant x block).good && ok) = false) :
    let b := s.fetchBlock (flightKey f / 20) p.img.tenant x block
    let u := (s.fetchTouch [] (flightKey f / 20) p.img.tenant x block b).refetched (flightKey f) block false
    execBlockRefetchDone f block ok s = .next (if b.marked then (u.count Od.poisonedFetches 1).tick
      else (u.poisonBlock ⟨flightKey f, p, w, false⟩ (bits w 111 107) x block b).tick) := by
  simp only [execBlockRefetchDone, hf, hrun, hnext, hwaits, hx, OpCtx.hall, OpCtx.tenant, hbad, Bool.not_true, Bool.false_eq_true, if_false,
    apply_ite Host.Outcome.next]
  rfl

end

/-! ### The statement -/

/-- Settles O11: the fetch is noted in its flight, and the count or the Fault that follows keeps the note unless it leads to Safe Stop. -/
theorem secondFetchResolvesBlock : Obligations.SecondFetchResolvesBlock := by
  intro f block ok s p w x hf hrun hnext hwaits hx
  have he : exec (.blockRefetchDone f block ok) s = execBlockRefetchDone f block ok s := by rfl
  rw [he, ← s.fetchTouch_flight [] (flightKey f / 20) p.img.tenant x block (s.fetchBlock (flightKey f / 20) p.img.tenant x block) (flightKey f)]
  cases hgood : (s.fetchBlock (flightKey f / 20) p.img.tenant x block).good && ok with
  | true =>
    have hmode : (s.fetchTouch [] (flightKey f / 20) p.img.tenant x block (s.fetchBlock (flightKey f / 20) p.img.tenant x block)).mode = .run :=
      (s.fetchTouch_mode ..).trans (runningProg_progAt hrun).1
    exact ⟨_, execBlockRefetchDone_good hf hrun hnext hwaits hx hgood, fun _ => hmode, (State.count_tick_keepsInRun ..).of_refetched⟩
  | false =>
    refine ⟨_, execBlockRefetchDone_bad hf hrun hnext hwaits hx hgood, nofun, KeepsInRun.of_refetched ?_⟩
    split
    · exact State.count_tick_keepsInRun ..
    · exact (State.poisonBlock_keepsInRun ..).step (State.tick_keepsInRun _)

end Sys2Proof.Machine
end

section
/-!
SUPPORT. Laws of issue and of the control words (R220, R225, R233, R235, R236): what an operation that is issued does to its program and what it
leaves, when a flight's sequencer hands out its next word, and what NOP, WAIT, REPEAT, END and OPERATION_END do; and the statements on them.
-/

open Sys2Proof Sys2Proof.Machine

namespace Sys2Proof.Machine

/-! ### Work within a flight -/

/-- Work that reaches, beside the dictionary, one flight alone. -/
structure WithinFlight (fk : Nat) (s t : State) : Prop where
  others : SameOtherFlights fk s t
  beyond : SameBeyondHalls s t
  landing : ∀ l, t.landing l = s.landing l

theorem WithinFlight.step {fk : Nat} {s t u : State} (h : WithinFlight fk s t) (h' : WithinFlight fk t u) : WithinFlight fk s u := by
  refine ⟨fun k hk => (h'.others k hk).trans (h.others k hk), ?_, fun l => (h'.landing l).trans (h.landing l)⟩
  obtain ⟨p, e, m, t, o, c, x, a, f, w, r, i⟩ := h.beyond
  obtain ⟨p', e', m', t', o', c', x', a', f', w', r', i'⟩ := h'.beyond
  exact ⟨p'.trans p, e'.trans e, m'.trans m, t'.trans t, o'.trans o, c'.trans c, x'.trans x, a'.trans a, f'.trans f, w'.trans w, r'.trans r, i'.trans i⟩

theorem State.count_within (s : State) (k n fk : Nat) : WithinFlight fk s (s.count k n) :=
  ⟨fun _ _ => rfl, ⟨rfl, rfl, rfl, rfl, rfl, rfl, rfl, rfl, rfl, rfl, rfl, rfl⟩, fun _ => rfl⟩

theorem State.modProg_within (s : State) (fk slot : Nat) (g : Prog → Prog) : WithinFlight fk s (s.modProg fk slot g) :=
  ⟨fun _ hk => s.flight_setFlight_ne hk _, ⟨rfl, rfl, rfl, rfl, rfl, rfl, rfl, rfl, rfl, rfl, rfl, rfl⟩, fun _ => rfl⟩

/-! ### The word after the next one (R233) -/

section
variable {p : Prog} {r : RepFrame}

theorem Prog.advance_of_no_repeat (h : p.rep = none) : p.advance = { p with pc := p.pc + 1, ppDone := false } := by
  simp [Prog.advance, h]

theorem Prog.advance_within_body (h : p.rep = some r) (hin : p.pc + 1 < r.first + bits r.word 95 90) :
    p.advance = { p with pc := p.pc + 1, ppDone := false } := by
  simp [Prog.advance, h, hin]

theorem Prog.advance_to_next_iteration (h : p.rep = some r) (hend : r.first + bits r.word 95 90 ≤ p.pc + 1) (hleft : r.iter + 1 < bits r.word 111 96) :
    p.advance = { p with pc := r.first, rep := some { r with iter := r.iter + 1 }, ppDone := false } := by
  simp [Prog.advance, h, Nat.not_lt.2 hend, hleft]

theorem Prog.advance_past_body (h : p.rep = some r) (hend : r.first + bits r.word 95 90 ≤ p.pc + 1) (hlast : bits r.word 111 96 ≤ r.iter + 1) :
    p.advance = { p with pc := p.pc + 1, rep := none, ppDone := false } := by
  simp [Prog.advance, h, Nat.not_lt.2 hend, Nat.not_lt.2 hlast]

end

/-- R233: going on changes where the program stands alone. -/
theorem Prog.advance_frame (p : Prog) : ∃ pc rep, p.advance = { p with pc := pc, rep := rep, ppDone := false } := by
  unfold Prog.advance
  cases hrep : p.rep with
  | none => exact ⟨_, none, rfl⟩
  | some r =>
    dsimp only
    split
    · exact ⟨_, _, rfl⟩
    · split <;> exact ⟨_, _, rfl⟩

/-- Settles O5: one equation for each place that a REPEAT leaves the program at. -/
theorem advanceFollowsRepeat : Obligations.AdvanceFollowsRepeat := by
  intro p
  obtain ⟨pc, rep, hp⟩ := p.advance_frame
  refine ⟨fun h => ?_, fun r h => ⟨fun hin => ?_, fun hend hleft => ?_, fun hend hlast => ?_⟩, by rw [hp], by rw [hp], by rw [hp]⟩
  · rw [Prog.advance_of_no_repeat h]; exact ⟨rfl, h⟩
  · rw [Prog.advance_within_body h hin]; exact ⟨rfl, h⟩
  · rw [Prog.advance_to_next_iteration h hend hleft]; exact ⟨rfl, rfl⟩
  · rw [Prog.advance_past_body h hend hlast]; exact ⟨rfl, rfl⟩

/-! ### Issue (R235, R236) -/

/-- R235: where an issued operation leaves its program, and what it leaves beside. -/
structure IssuedBy (c : OpCtx) (g : Prog → Prog) (s t : State) : Prop extends WithinFlight c.fk s t where
  prog : t.progAt c.fk c.slot = (s.progAt c.fk c.slot).map g
  progs : ∀ sl, sl ≠ c.slot → t.progAt c.fk sl = s.progAt c.fk sl
  counted : t.odGet Od.opsIssued = (s.odGet Od.opsIssued + 1) % 2 ^ 64
  entries : ∀ k, k ≠ Od.opsIssued → t.odGet k = s.odGet k

theorem State.issued_by (s : State) (c : OpCtx) {g : Prog → Prog} (hg : ∀ p, (g p).slot = p.slot) :
    IssuedBy c g s ((s.count Od.opsIssued 1).modProg c.fk c.slot g) where
  toWithinFlight := (s.count_within _ _ _).step (State.modProg_within _ _ _ _)
  prog := State.progAt_modProg_self _ _ _ hg
  progs := fun _ hsl => State.progAt_modProg_ne _ _ hsl hg
  counted := s.odGet_count_self Od.opsIssued 1
  entries := fun _ hk => s.odGet_count_ne hk 1

theorem State.opDone_issuedBy (s : State) (c : OpCtx) : IssuedBy c Prog.advance s (s.opDone c) := s.issued_by c Prog.advance_slot

theorem State.opOpen_issuedBy (s : State) (c : OpCtx) : IssuedBy c (fun p => p.issue c.word) s (s.opOpen c) :=
  s.issued_by c (fun p => p.issue_slot c.word)

/-- Settles O4: both ways of issue change the program in its slot and the count of issued operations alone. -/
theorem operationAdvancesItsProgram : Obligations.OperationAdvancesItsProgram := by
  intro s c
  have hdone := s.opDone_issuedBy c
  have hopen := s.opOpen_issuedBy c
  exact ⟨hdone.prog, hopen.prog, hdone.counted, hopen.counted, fun sl hsl => ⟨hdone.progs sl hsl, hopen.progs sl hsl⟩, hdone.others, hopen.others,
    hdone.beyond, hopen.beyond, fun l => ⟨hdone.landing l, hopen.landing l⟩, fun _ => ⟨rfl, rfl⟩, fun k hk => ⟨hdone.entries k hk, hopen.entries k hk⟩⟩

/-! ### A flight's turn (R235, R247) -/

theorem State.runningProg_of_running {s : State} {fk sl : Nat} {p : Prog} (hmode : s.mode = .run) (hfence : s.fenced fk = false)
    (hcur : (s.flight fk).current = some sl) (hprog : s.progAt fk sl = some p) (hp : p.mode = .running) : s.runningProg fk = some p := by
  simp [State.runningProg, hmode, hfence, hcur, hprog, hp]

section
variable {s : State} {fk : Nat} {is : Nat → Bool} {p : Prog} (hrun : s.runningProg fk = some p) (hpc : p.pc < p.img.ops.length)
  (his : is (p.img.ops.getD p.pc 0) = true)
include hrun hpc his

/-- R247: a poisoned word stops its program. -/
theorem State.turn_of_poisoned (h : s.memPoisoned (p.img.opsAt + 16 * p.pc) 16 = true) : s.turn fk is = .stop p.slot 0x3075 p.pc := by
  simp only [State.turn, hrun, his, h, Nat.not_le.2 hpc, Bool.not_true, Bool.false_eq_true, or_self, if_false, if_true]

/-- R235, R375, R377: a word that may issue is handed out as the rows of its slot trim it. -/
theorem State.turn_of_next {w : Nat} (h : s.memPoisoned (p.img.opsAt + 16 * p.pc) 16 = false) (hnext : p.next = .ok w) :
    s.turn fk is = if p.mayIssue w = true ∧ s.sectionOpen fk p w = false then .go ⟨fk, p, (s.trim fk p w).1, (s.trim fk p w).2⟩ else .wait := by
  simp only [State.turn, hrun, his, h, hnext, Nat.not_le.2 hpc, Bool.not_true, Bool.false_eq_true, or_self, if_false]
  cases p.mayIssue w <;> cases s.sectionOpen fk p w <;> simp

end

/-- Settles O3: the program runs on the flight, and its word is poisoned, or may issue, or waits. -/
theorem turnIssuesNextWord : Obligations.TurnIssuesNextWord := by
  intro s fk sl w is p hmode hfence hcur hprog hp hpc his
  have hrun := State.runningProg_of_running hmode hfence hcur hprog hp
  exact ⟨State.turn_of_poisoned hrun hpc his, State.turn_of_next hrun hpc his⟩

/-! ### Control words (R220, R225, R233, R236) -/

/-- R233: a program at the first word of a REPEAT's body. -/
def Prog.enterRepeat (w : Nat) (p : Prog) : Prog := { p with pc := p.pc + 1, rep := some ⟨p.pc + 1, 0, w⟩, ppDone := false }

theorem exec_nop_of_issues {f : FlightId} {s : State} {c : OpCtx} (h : Issues s f (isOp 0x00) c) : exec (.nop f) s = .next (s.opDone c) := by
  have he : exec (.nop f) s = execNop f s := by rfl
  rw [he, execNop, h.flightOk, issueOp_done h rfl]
  rfl

section
variable {f : FlightId} {s : State} {c : OpCtx} (h : Issues s f (isOp 0x03) c)
include h

theorem exec_waitOp_of_zero (hzero : ∀ k < 8, bit (bits c.word 111 104) k = true → c.prog.counter k = 0) :
    exec (.waitOp f) s = .next (s.opDone c) := by
  have he : exec (.waitOp f) s = execWaitOp f s := by rfl
  have hall : (List.range 8).all (fun k => !bit (bits c.word 111 104) k || c.prog.counter k == 0) = true := by
    simpa [or_iff_not_imp_left] using hzero
  rw [he, execWaitOp, h.flightOk, issueOp_done h (if_pos hall)]
  rfl

theorem exec_waitOp_of_counter {k : Nat} (hk : k < 8) (hbit : bit (bits c.word 111 104) k = true) (hcount : c.prog.counter k ≠ 0) :
    exec (.waitOp f) s = .next s := by
  have he : exec (.waitOp f) s = execWaitOp f s := by rfl
  have hall : ¬ (List.range 8).all (fun k => !bit (bits c.word 111 104) k || c.prog.counter k == 0) = true := by
    intro hz
    have := List.all_eq_true.1 hz k (List.mem_range.2 hk)
    simp [hbit, hcount] at this
  rw [he, execWaitOp, h.flightOk, issueOp_of_issues h, if_neg hall]
  rfl

end

theorem exec_repeatOp_of_issues {f : FlightId} {s : State} {c : OpCtx} (h : Issues s f (isOp 0x02) c) :
    exec (.repeatOp f) s = .next ((s.count Od.opsIssued 1).modProg c.fk c.slot (Prog.enterRepeat c.word)) := by
  have he : exec (.repeatOp f) s = execRepeatOp f s := by rfl
  rw [he, execRepeatOp, h.flightOk, h.fk]
  simp only [h.2.1]
  rfl

/-! ### A program that is unloaded, and END (R220) -/

/-- R220: a flight without the program of a slot. -/
def FlightSt.without (x : FlightSt) (slot : Nat) : FlightSt :=
  { x with progs := x.progs.filter (fun q => q.slot != slot), current := if x.current = some slot then none else x.current }

theorem FlightSt.find_without (x : FlightSt) (slot : Nat) : (x.without slot).progs.find? (fun p => p.slot == slot) = none := by
  simp [FlightSt.without]

/-- R220: unloading takes the program from its flight; beside handles and its expert's marks nothing else is written. -/
structure Unloads (fk slot : Nat) (s t : State) : Prop where
  flights : t.halls.flights = kset FlightSt.reset fk ((s.flight fk).without slot) s.halls.flights
  steps : t.serve.steps = s.serve.steps
  mem : t.mem = s.mem

theorem State.unloadProg_unloads {s : State} {fk slot : Nat} {p : Prog} (h : s.progAt fk slot = some p) : Unloads fk slot s (s.unloadProg fk slot) := by
  unfold State.unloadProg
  split
  · next hnone => cases h.symm.trans hnone
  next q hq =>
  cases h.symm.trans hq
  extract_lets u x cur v w
  obtain ⟨hf, hv, hm⟩ : u.halls.flights = s.halls.flights ∧ u.serve = s.serve ∧ u.mem = s.mem :=
    foldl_keeps (fun t : State => t.halls.flights = s.halls.flights ∧ t.serve = s.serve ∧ t.mem = s.mem)
      (fun t (e : HandleE) => t.setHandle (tableLanding fk e.table) e.handle 0) (fun _ _ ht => ht) p.img.handles ⟨rfl, rfl, rfl⟩
  have hx : x = s.flight fk := congrArg (kget FlightSt.reset fk) hf
  refine ⟨?_, (congrArg ServeSt.steps hv :), hm⟩
  rw [← hx, ← hf]
  rfl

theorem Unloads.flight {fk slot : Nat} {s t : State} (h : Unloads fk slot s t) : t.flight fk = (s.flight fk).without slot := by
  rw [State.flight, h.flights, kget_kset_self]

theorem Unloads.progAt {fk slot : Nat} {s t : State} (h : Unloads fk slot s t) : t.progAt fk slot = none := by
  rw [State.progAt, h.flight, FlightSt.find_without]

/-- R220: the state once END has left the flight, before the open step of the job is looked at. -/
def State.leftFlight (s : State) (c : OpCtx) : State :=
  let u := (s.count Od.opsIssued 1).setFlight c.fk { (s.flight c.fk) with current := none }
  if c.prog.img.resident then
    u.modProg c.fk c.slot (fun p => { p with mode := .idle, pc := 0, rep := none, ppDone := false, lastPass := [], resume := none })
  else u.unloadProg c.fk c.slot

theorem State.leftFlight_leaves {s : State} {c : OpCtx} (h : s.progAt c.fk c.slot = some c.prog) :
    ((s.leftFlight c).flight c.fk).current = none ∧ (c.prog.img.resident = false → (s.leftFlight c).progAt c.fk c.slot = none) ∧
      (s.leftFlight c).mem = s.mem ∧ (s.leftFlight c).openStepOf c.job = s.openStepOf c.job := by
  unfold State.leftFlight
  extract_lets x u
  have hcur : (u.flight c.fk).current = none := by rw [State.flight_setFlight_self]
  split
  · next hres => exact ⟨by rw [State.modProg_current, hcur], by simp [hres], rfl, rfl⟩
  · have hprog : u.progAt c.fk c.slot = some c.prog := (State.progAt_setFlight (x := { s.flight c.fk with current := none }) _ rfl _).trans h
    have hun := State.unloadProg_unloads hprog
    refine ⟨?_, fun _ => hun.progAt, hun.mem, ?_⟩
    · simp [hun.flight, FlightSt.without, hcur]
    · rw [State.openStepOf, hun.steps]; rfl

/-- R220: where no program of the job is at work, its open step that does not close yet is dropped; nothing else follows END. -/
theorem State.endProgram_eq (s : State) (c : OpCtx) :
    s.endProgram c = s.leftFlight c ∨
      (s.endProgram c = ((s.leftFlight c).dropStep c.job).takeIdleCancels ∧ (s.leftFlight c).openStepOf c.job ≠ none) := by
  have he : s.endProgram c = if ((s.leftFlight c).jobProgs c.job).any (fun e => e.2.mode != .idle) then s.leftFlight c
      else match (s.leftFlight c).openStepOf c.job with
        | some x => if x.closing.isNone then ((s.leftFlight c).dropStep c.job).takeIdleCancels else s.leftFlight c
        | none => s.leftFlight c := by rfl
  rw [he]
  split
  · exact .inl rfl
  · split
    · next hstep =>
      split
      · exact .inr ⟨rfl, by simp [hstep]⟩
      · exact .inl rfl
    · exact .inl rfl

theorem exec_endOp_of_issues {f : FlightId} {s : State} {c : OpCtx} (h : Issues s f (isOp 0x01) c) (hquiet : c.prog.quiet = true) :
    exec (.endOp f) s = .next (s.endProgram c) := by
  have he : exec (.endOp f) s = execEndOp f s := by rfl
  rw [he, execEndOp, h.flightOk]
  simp only [h.2.1, hquiet]
  rfl

/-! ### OPERATION_END (R236) -/

theorem Prog.endIssued_of_found {p : Prog} {op : Nat} {x : Issued} (h : p.issued.find? (fun y => y.id == op) = some x) :
    p.endIssued op = { p with
      issued := p.issued.filter (fun y => y.id != op)
      counters := match x.sig with | some k => p.counters.set k (p.counters.getD k 0 - 1) | none => p.counters } := by
  unfold Prog.endIssued
  split
  · next hnone => cases h.symm.trans hnone
  · next y hy =>
    cases h.symm.trans hy
    rfl

theorem exec_operationEnd_of_found {f : FlightId} {s : State} {op sl : Nat} {p : Prog} {x : Issued} (hf : flightOk f = true)
    (hcur : (s.flight (flightKey f)).current = some sl) (hprog : s.progAt (flightKey f) sl = some p)
    (hfind : p.issued.find? (fun y => y.id == op) = some x) (hbarrier : x.op ≠ 0x08) (hstep : x.op ≠ 0x09)
    (hwaits : s.opWaits (flightKey f) p.slot op = false) :
    exec (.operationEnd f op) s = .next (s.modProg (flightKey f) sl (fun p => p.endIssued op)) := by
  have he : exec (.operationEnd f op) s = execOperationEnd f op s := by rfl
  have hslot := State.slot_of_progAt hprog
  rw [hslot] at hwaits
  simp only [he, execOperationEnd, hf, hcur, Option.bind_some, hprog, hfind, hbarrier, hstep, hwaits, or_self, if_false, Bool.not_true,
    Bool.false_eq_true, hslot]

/-- Settles O6: each control word by the lemma on what it does. -/
theorem controlWordsComplete : Obligations.ControlWordsComplete := by
  refine ⟨fun f s c h => exec_nop_of_issues h, fun f s c h hzero => exec_waitOp_of_zero h hzero,
    fun f s c k h hk hbit hcount => exec_waitOp_of_counter h hk hbit hcount, fun f s c h => ?_, fun f s c h hquiet => ?_,
    fun f s op sl p x hf hcur hprog hfind hbarrier hstep hwaits => ?_⟩
  · have hby := s.issued_by c (g := Prog.enterRepeat c.word) (fun _ => rfl)
    exact ⟨_, exec_repeatOp_of_issues h, hby.prog, hby.others, hby.beyond, hby.landing⟩
  · have hprog : s.progAt c.fk c.slot = some c.prog := h.fk ▸ turn_go_progAt h.2.1
    obtain ⟨hcur, hgone, hmem, hstep⟩ := State.leftFlight_leaves hprog
    rw [exec_endOp_of_issues h hquiet]
    rcases s.endProgram_eq c with heq | ⟨heq, hopen⟩
    · exact ⟨s.leftFlight c, .inl (by rw [heq]), fun _ => by rw [heq], hcur, hgone, hmem⟩
    · exact ⟨s.leftFlight c, .inr (by rw [heq]), fun hnone => absurd (hstep.trans hnone) hopen, hcur, hgone, hmem⟩
  · have hin := s.modProg_within (flightKey f) sl (fun p => p.endIssued op)
    refine ⟨_, exec_operationEnd_of_found hf hcur hprog hfind hbarrier hstep hwaits, ?_, hin.others, hin.beyond⟩
    rw [State.progAt_modProg_self _ _ _ (fun p => p.endIssued_slot op), hprog]
    exact congrArg some (Prog.endIssued_of_found hfind)

end Sys2Proof.Machine
end

section
/-!
SUPPORT. Laws of barriers and of a job that ends (R238 to R240, R246): where an arrival leaves its program and the barrier, and what is left of a job whose
programs are unloaded; and the statement on them.
-/

open Sys2Proof Sys2Proof.Machine

namespace Sys2Proof.Machine

/-! ### Arrivals (R238, R240) -/

@[simp] theorem Prog.advance_img (p : Prog) : p.advance.img = p.img := by
  obtain ⟨pc, rep, hp⟩ := p.advance_frame
  rw [hp]

@[simp] theorem Prog.advance_bars (p : Prog) : p.advance.bars = p.bars := by
  obtain ⟨pc, rep, hp⟩ := p.advance_frame
  rw [hp]

/-- An element that takes the place of all that a test accepts is found by it. -/
theorem find_replaced {α : Type} {p : α → Bool} {b : α} (h : p b = true) (l : List α) : (l.filter (fun x => !p x) ++ [b]).find? p = some b := by
  have hnone : (l.filter (fun x => !p x)).find? p = none := by simp
  simp [List.find?_append, hnone, h]

/-- R238: where a program that arrives at barrier n leaves that barrier and itself. -/
structure Gathers (c : OpCtx) (n : Nat) (e : BarrierE) (s r : State) (b : BarrierSt) : Prop extends WithinFlight c.fk s r where
  job : b.job = c.job
  bid : b.bid = n
  use : b.use = kget 0 n c.prog.bars
  hall : b.hall = if e.scope = 1 then some c.hall else none
  arrived : c.fk * 4 + c.slot ∈ b.arrived
  stands : r.barrierOf b.job b.bid b.use b.hall = some b
  prog : r.progAt c.fk c.slot = (s.progAt c.fk c.slot).map (fun p => { p with mode := .atBarrier, bars := kset 0 n (b.use + 1) p.bars })

/-- R238: a program that has issued its barrier operation arrives. -/
theorem State.arrive_gathers {c : OpCtx} {n : Nat} {e : BarrierE} (he : c.prog.img.barriers[n]? = some e) (s : State) (isStep : Bool) :
    ∃ r b, s.arrive c n isStep = r.checkBarrier b ∧ Gathers c n e s r b := by
  unfold State.arrive
  split
  · next hnone => cases he.symm.trans hnone
  next e' he' =>
  cases he.symm.trans he'
  extract_lets use me u bs hall b h r
  have hb : (b.job = c.job ∧ b.bid = n ∧ b.use = use ∧ b.hall = hall) ∧ me ∈ b.arrived := by
    simp only [b]
    split
    · next x hx =>
      have his : x.is c.job n use hall = true := List.find?_some (p := fun b : BarrierSt => b.is c.job n use hall) hx
      simp only [BarrierSt.is, Bool.and_eq_true, beq_iff_eq] at his
      obtain ⟨⟨⟨hjob, hbid⟩, huse⟩, hhall⟩ := his
      exact ⟨⟨hjob, hbid, huse, hhall⟩, by simp⟩
    · exact ⟨⟨rfl, rfl, rfl, rfl⟩, by simp⟩
  obtain ⟨⟨hjob, hbid, huse, hhall⟩, hme⟩ := hb
  have hu := s.modProg_within c.fk c.slot (fun p => { p with mode := .atBarrier, bars := kset 0 n (use + 1) p.bars })
  refine ⟨r, b, rfl, ⟨hu.others, hu.beyond, hu.landing⟩, hjob, hbid, huse, hhall, hme, ?_, ?_⟩
  · rw [hjob, hbid, huse, hhall]
    exact find_replaced (p := fun b : BarrierSt => b.is c.job n use hall) (by simp [BarrierSt.is, hjob, hbid, huse, hhall]) bs
  · rw [huse]
    exact s.progAt_modProg_self c.fk c.slot (fun _ => rfl)

/-- R235: an issued program is at its own slot, in its own job, and has met the same barriers. -/
theorem Gathers.of_issued {c : OpCtx} {n : Nat} {e : BarrierE} {s r : State} {b : BarrierSt}
    (h : Gathers { c with prog := c.prog.issue c.word } n e s r b) : Gathers c n e s r b := by
  obtain ⟨hin, hjob, hbid, huse, hhall, hme, hstands, hprog⟩ := h
  have hslot : (OpCtx.mk c.fk (c.prog.issue c.word) c.word c.empty).slot = c.slot := c.prog.issue_slot c.word
  rw [hslot] at hme hprog
  exact ⟨hin, hjob.trans (by simp [OpCtx.job, Prog.issue]), hbid, huse.trans (by simp [Prog.issue]), hhall, hme, hstands, hprog⟩

/-- R235, R238: a barrier operation issues, and then its program has arrived. -/
theorem State.barrierOp_gathers {f : FlightId} {s : State} {op : Nat} {c : OpCtx} {e : BarrierE} (h : Issues s f (isOp op) c)
    (he : c.prog.img.barriers[bits c.word 111 108]? = some e) :
    ∃ r b, s.barrierOp f op = r.checkBarrier b ∧ Gathers c (bits c.word 111 108) e (s.opOpen c) r b := by
  have hprog : (s.opOpen c).progAt (flightKey f) c.slot = some (c.prog.issue c.word) := by
    rw [← h.fk, (s.opOpen_issuedBy c).prog, h.fk, turn_go_progAt h.2.1, Option.map_some]
  obtain ⟨r, b, hr, hg⟩ := State.arrive_gathers (c := { c with prog := c.prog.issue c.word }) (e := e) (by simpa [Prog.issue] using he) (s.opOpen c) (op == 0x09)
  refine ⟨r, b, ?_, hg.of_issued⟩
  simp only [State.barrierOp, h.2.1, hprog, hr]

/-- R238: the state after an arrival, as the statement on barriers gives it. -/
theorem barrier_gathers {f : FlightId} {s : State} {op : Nat} {c : OpCtx} {e : BarrierE} (h : Issues s f (isOp op) c)
    (he : c.prog.img.barriers[bits c.word 111 108]? = some e) :
    ∃ (r : State) (b : BarrierSt), s.barrierOp f op = r.checkBarrier b ∧ b.job = c.job ∧ b.bid = bits c.word 111 108 ∧ b.use = kget 0 b.bid c.prog.bars ∧
      b.hall = (if e.scope = 1 then some c.hall else none) ∧ c.fk * 4 + c.slot ∈ b.arrived ∧ r.barrierOf b.job b.bid b.use b.hall = some b ∧
      (r.progAt c.fk c.slot).map (fun p => (p.mode, p.pc, p.bars)) = some (.atBarrier, c.prog.advance.pc, kset 0 b.bid (b.use + 1) c.prog.bars) ∧
      SameOtherFlights c.fk s r ∧ SameBeyondHalls s r := by
  obtain ⟨r, b, hr, hg⟩ := State.barrierOp_gathers h he
  have hin := (s.opOpen_issuedBy c).toWithinFlight.step hg.toWithinFlight
  refine ⟨r, b, hr, hg.job, hg.bid, hg.bid ▸ hg.use, hg.hall, hg.arrived, hg.stands, ?_, hin.others, hin.beyond⟩
  rw [hg.prog, (s.opOpen_issuedBy c).prog, h.fk, turn_go_progAt h.2.1, hg.bid]
  simp [Prog.issue]

/-! ### A job that ends (R246) -/

theorem kSorted_kset {α : Type} [DecidableEq α] (d : α) (k : Nat) (v : α) {m : KMap α} (hm : kSorted m = true) : kSorted (kset d k v m) = true := by
  unfold kset
  split
  · exact kSorted_kdel k hm
  · exact kSorted_kput k v hm

theorem kfind_of_mem_of_sorted {α : Type} {k : Nat} {v : α} {lo : Nat} {m : KMap α} (hm : kSortedFrom lo m = true) (h : (k, v) ∈ m) :
    lo ≤ k ∧ kfind k m = some v := by
  induction m generalizing lo with
  | nil => cases h
  | cons e t ih =>
    obtain ⟨j, w⟩ := e
    simp only [kSortedFrom, Bool.and_eq_true, decide_eq_true_eq] at hm
    rcases List.mem_cons.1 h with heq | ht
    · cases heq
      exact ⟨hm.1, by simp [kfind]⟩
    · obtain ⟨hlo, hfind⟩ := ih hm.2 ht
      exact ⟨by omega, by simp [kfind, show j ≠ k by omega, hfind]⟩

theorem mem_of_kfind {α : Type} {k : Nat} {v : α} {m : KMap α} (h : kfind k m = some v) : (k, v) ∈ m := by
  induction m with
  | nil => cases h
  | cons e t ih =>
    obtain ⟨j, w⟩ := e
    simp only [kfind] at h
    split at h
    · next hj => cases h; exact hj ▸ List.mem_cons_self
    · exact List.mem_cons_of_mem _ (ih h)

/-- The resident programs of a module whose flights are listed once each are those of its flights. -/
theorem State.mem_progs {s : State} (hs : kSorted s.halls.flights = true) {e : Nat × Prog} : e ∈ s.progs ↔ e.2 ∈ (s.flight e.1).progs := by
  simp only [State.progs, List.mem_flatMap, List.mem_map]
  constructor
  · rintro ⟨⟨k, x⟩, hx, p, hp, rfl⟩
    simpa [State.flight, kget, (kfind_of_mem_of_sorted hs hx).2] using hp
  · intro h
    cases hfind : kfind e.1 s.halls.flights with
    | none => simp [State.flight, kget, hfind, FlightSt.reset] at h
    | some x => exact ⟨(e.1, x), mem_of_kfind hfind, e.2, by simpa [State.flight, kget, hfind] using h, rfl⟩

/-- R246: a program of a job that ends is unloaded, its flight's tiles released where it runs. -/
def State.dropProg (s : State) (e : Nat × Prog) : State :=
  (if (s.flight e.1).current = some e.2.slot then s.releaseTiles e.1 else s).unloadProg e.1 e.2.slot

/-- R246: the flights of a module after programs of a list have been dropped: still listed once each, and without the programs of those slots. -/
structure Dropped (l : List (Nat × Prog)) (s t : State) : Prop where
  sorted : kSorted t.halls.flights = true
  kept : ∀ k, ∀ p ∈ (t.flight k).progs, p ∈ (s.flight k).progs
  gone : ∀ e ∈ l, ∀ p ∈ (t.flight e.1).progs, p.slot ≠ e.2.slot

theorem Unloads.progs {fk slot : Nat} {s t : State} (h : Unloads fk slot s t) (k : Nat) :
    (t.flight k).progs = if k = fk then (s.flight k).progs.filter (fun q => q.slot != slot) else (s.flight k).progs := by
  split
  · next hk =>
    subst hk
    rw [h.flight]
    rfl
  · next hk => rw [State.flight, h.flights, kget_kset_ne hk]; rfl

theorem State.releaseTiles_progs (s : State) (fk k : Nat) : ((s.releaseTiles fk).flight k).progs = (s.flight k).progs := by
  rw [State.releaseTiles, State.flight, State.setFlight, kget_kset]
  split
  · next hk => rw [hk]
  · rfl

/-- R246: a program that is dropped leaves its flight, and no other does. -/
theorem State.dropProg_dropped {s : State} (hs : kSorted s.halls.flights = true) (e : Nat × Prog) : Dropped [e] s (s.dropProg e) := by
  have hrel : ∃ u : State, s.dropProg e = u.unloadProg e.1 e.2.slot ∧ kSorted u.halls.flights = true ∧ ∀ k, (u.flight k).progs = (s.flight k).progs := by
    unfold State.dropProg
    split
    · exact ⟨_, rfl, kSorted_kset _ _ _ hs, s.releaseTiles_progs e.1⟩
    · exact ⟨s, rfl, hs, fun _ => rfl⟩
  obtain ⟨u, hu, hsorted, hprogs⟩ := hrel
  rw [hu]
  cases hprog : u.progAt e.1 e.2.slot with
  | none =>
    have hsame : u.unloadProg e.1 e.2.slot = u := by simp only [State.unloadProg, hprog]
    rw [hsame]
    refine ⟨hsorted, fun k p hp => hprogs k ▸ hp, fun d hd p hp => ?_⟩
    cases List.mem_singleton.1 hd
    simpa using List.find?_eq_none.1 hprog p hp
  | some q =>
    have hun := State.unloadProg_unloads hprog
    refine ⟨hun.flights ▸ kSorted_kset _ _ _ hsorted, fun k p hp => ?_, fun d hd p hp => ?_⟩
    · rw [hun.progs, hprogs] at hp
      split at hp
      · exact List.mem_of_mem_filter hp
      · exact hp
    · cases List.mem_singleton.1 hd
      rw [hun.progs, if_pos rfl] at hp
      simpa using List.of_mem_filter hp

theorem Dropped.step {e : Nat × Prog} {l : List (Nat × Prog)} {s t u : State} (h : Dropped [e] s t) (h' : Dropped l t u) : Dropped (e :: l) s u := by
  refine ⟨h'.sorted, fun k p hp => h.kept k p (h'.kept k p hp), fun d hd p hp => ?_⟩
  rcases List.mem_cons.1 hd with rfl | hd
  · exact h.gone d List.mem_cons_self p (h'.kept _ p hp)
  · exact h'.gone d hd p hp

theorem State.dropProgs_dropped (l : List (Nat × Prog)) {s : State} (hs : kSorted s.halls.flights = true) : Dropped l s (l.foldl State.dropProg s) := by
  induction l generalizing s with
  | nil => exact ⟨hs, fun _ _ => id, nofun⟩
  | cons e l ih =>
    have he := s.dropProg_dropped hs e
    exact he.step (ih he.sorted)

/-- R246: what a job that ends leaves of the halls, and of the transfers, collectives and exchanges of the module. -/
theorem State.clearJob_leaves (s : State) (job : Nat) :
    (s.clearJob job).halls.flights = ((s.jobProgs job).foldl State.dropProg s).halls.flights ∧
      (∀ b ∈ (s.clearJob job).halls.barriers, b.job ≠ job) ∧ (∀ m ∈ (s.clearJob job).serve.moves, m.job ≠ job) ∧
      (∀ x ∈ (s.clearJob job).serve.colls, x.job ≠ job) ∧ (∀ e ∈ (s.clearJob job).serve.exchanges, e.job ≠ job) := by
  unfold State.clearJob
  extract_lets t h0 h v0 v u j w outs
  have hw : w.halls = h ∧ w.serve.moves = v.moves ∧ w.serve.colls = v.colls ∧ w.serve.exchanges = v.exchanges := by
    simp only [w]
    split <;> exact ⟨rfl, rfl, rfl, rfl⟩
  obtain ⟨hhalls, hmoves, hcolls, hexch⟩ := hw
  refine ⟨(congrArg HallsSt.flights hhalls :), fun b hb => ?_, fun m hm => ?_, fun x hx => ?_, fun e he => ?_⟩
  · change b ∈ w.halls.barriers at hb
    rw [hhalls] at hb
    simpa using List.of_mem_filter hb
  · change m ∈ w.serve.moves at hm
    rw [hmoves] at hm
    simpa using List.of_mem_filter hm
  · change x ∈ w.serve.colls at hx
    rw [hcolls] at hx
    simpa using List.of_mem_filter hx
  · change e ∈ w.serve.exchanges at he
    rw [hexch] at he
    simpa using List.of_mem_filter he

/-- R246: a job that has ended has no program in the module. -/
theorem State.clearJob_jobProgs {s : State} (hs : kSorted s.halls.flights = true) (job : Nat) : (s.clearJob job).jobProgs job = [] := by
  have hd := State.dropProgs_dropped (s.jobProgs job) hs
  have hflights := (s.clearJob_leaves job).1
  refine List.filter_eq_nil_iff.2 fun e he hjob => ?_
  have hin : e.2 ∈ (((s.jobProgs job).foldl State.dropProg s).flight e.1).progs := by
    have := (State.mem_progs (hflights ▸ hd.sorted)).1 he
    rwa [State.flight, hflights] at this
  have hmem : e ∈ s.jobProgs job := List.mem_filter.2 ⟨(State.mem_progs hs).2 (hd.kept _ _ hin), hjob⟩
  exact hd.gone e hmem e.2 hin rfl

/-! ### The statement -/

/-- R239, R246: the timeout of a barrier that stands stops the programs that have arrived, and then the job. -/
theorem exec_barrierTimeout_of_stands {job bid use : Nat} {hall : Option Nat} {s : State} {b : BarrierSt} (h : s.barrierOf job bid use hall = some b) :
    exec (.barrierTimeout job bid ⟨use, hall⟩) s = .next (s.barrierTimeout b) := by
  have he : exec (.barrierTimeout job bid ⟨use, hall⟩) s = execBarrierTimeout job bid ⟨use, hall⟩ s := by rfl
  simp only [he, execBarrierTimeout, h]

/-- Settles O10: BARRIER and STEP issue and arrive, the timeout stops who has arrived, and a job that ends drops each of its programs in turn. -/
theorem barriersGatherAndTimeOut : Obligations.BarriersGatherAndTimeOut := by
  refine ⟨fun f s c e h he => ?_, fun f s c e h he => ?_, fun job bid use hall s b h => exec_barrierTimeout_of_stands h, fun job s hs => ?_⟩
  · have hx : exec (.barrier f) s = execBarrier f s := by rfl
    obtain ⟨r, b, hr, hrest⟩ := barrier_gathers h he
    exact ⟨r, b, by rw [hx, execBarrier, h.flightOk, hr]; rfl, hrest⟩
  · have hx : exec (.stepOp f) s = execStepOp f s := by rfl
    obtain ⟨r, b, hr, hrest⟩ := barrier_gathers h he
    exact ⟨r, b, by rw [hx, execStepOp, h.flightOk, hr]; rfl, hrest⟩
  · exact ⟨s.clearJob_jobProgs hs job, (s.clearJob_leaves job).2⟩

end Sys2Proof.Machine
end

section
/-!
SUPPORT. Laws of SEND and RECV (R240, R410, R411): rows that leave for another module reach nothing of the halls and of memory, and a transfer within the module
stands until its partner comes; and the statement on them.
-/

open Sys2Proof Sys2Proof.Machine

namespace Sys2Proof.Machine

/-! ### Rows that leave (R197, R410) -/

/-- Work that keeps the halls, memory and the transfers that stand. -/
structure KeepsMoves (s t : State) : Prop where
  halls : t.halls = s.halls
  mem : t.mem = s.mem
  moves : t.serve.moves = s.serve.moves

namespace KeepsMoves

variable {s t u : State}

theorem refl (s : State) : KeepsMoves s s := ⟨rfl, rfl, rfl⟩

theorem step (h : KeepsMoves s t) (h' : KeepsMoves t u) : KeepsMoves s u := ⟨h'.halls.trans h.halls, h'.mem.trans h.mem, h'.moves.trans h.moves⟩

theorem of_log (h : LogFrame s t) : KeepsMoves s t := ⟨h.halls, h.mem, congrArg ServeSt.moves h.serve⟩

theorem foldl {β : Type} {f : State → β → State} (hf : ∀ r x, KeepsMoves r (f r x)) (l : List β) (s : State) : KeepsMoves s (l.foldl f s) :=
  foldl_keeps (KeepsMoves s) f (fun r x h => h.step (hf r x)) l (.refl s)

theorem flight (h : KeepsMoves s t) (k : Nat) : t.flight k = s.flight k := by simp only [State.flight, h.halls]

theorem landing (h : KeepsMoves s t) (l : Nat) : t.landing l = s.landing l := by simp only [State.landing, h.halls]

end KeepsMoves

theorem State.stepPoison_keepsMoves (s : State) (job : Nat) (bad : Bool) : KeepsMoves s (s.stepPoison job bad) := by
  unfold State.stepPoison
  split
  · exact ⟨rfl, rfl, rfl⟩
  · exact .refl s

theorem State.sendFrame_keepsMoves (s : State) (f : Frame) : KeepsMoves s (s.sendFrame f) :=
  have h := s.sendFrame_answerFrame f
  ⟨h.halls, h.mem, congrArg ServeSt.moves h.serve⟩

theorem State.sendRows_keepsMoves (s : State) (dest : Word64) (ftype destUnit job tag : Nat) (m : RowForm) (z : Bool) (rows : List TxRow) :
    KeepsMoves s (s.sendRows dest ftype destUnit job tag m z rows) := by
  unfold State.sendRows
  refine .foldl (fun r x => ?_) _ s
  extract_lets p u
  have hu : KeepsMoves r u := by
    simp only [u]
    split
    · exact .of_log (r.counts_frame _)
    · exact .refl r
  exact hu.step (u.sendFrame_keepsMoves _)

@[simp] theorem State.stepPoison_ownPath (s : State) (job : Nat) (bad : Bool) : (s.stepPoison job bad).ownPath = s.ownPath := by
  unfold State.stepPoison
  split <;> rfl

@[simp] theorem State.stepPoison_mine (s : State) (job : Nat) (bad : Bool) (dest : Word64) : (s.stepPoison job bad).mine dest = s.mine dest := by
  simp [State.mine]

@[simp] theorem State.stepPoison_peerPath (s : State) (job : Nat) (bad : Bool) (p : PeerE) : (s.stepPoison job bad).peerPath p = s.peerPath p := by
  simp [State.peerPath]

/-! ### SEND (R240, R411) -/

/-- R240: the module with one transfer that stands. -/
def State.standing (s : State) (m : RowMove) : State := { s with serve := { s.serve with moves := [m] } }

/-- R411: a frame waits for its operation, behind those that wait. -/
def State.putEarly (s : State) (f : Frame) : State := { s with serve := { s.serve with early := s.serve.early ++ [f] } }

theorem State.takeSend_of_none {s : State} {f : Frame} (h : ∀ m ∈ s.serve.moves, m.takes s.ownPath f = false) :
    s.takeSend f = s.putEarly f := by
  have hnone : s.serve.moves.find? (fun m => m.takes s.ownPath f) = none := List.find?_eq_none.2 fun m hm => by simp [h m hm]
  simp only [State.takeSend, hnone]
  rfl

/-- R411: frames wait while only SENDs stand. -/
theorem State.takeSends_of_sends {s : State} (h : ∀ m ∈ s.serve.moves, m.isSend = true) {β : Type} (g : β → Frame) (l : List β) :
    KeepsMoves s (l.foldl (fun s x => s.takeSend (g x)) s) := by
  refine foldl_keeps (KeepsMoves s) _ (fun r x hr => hr.step ?_) l (.refl s)
  rw [State.takeSend_of_none fun m hm => by simp [RowMove.takes, h m (hr.moves ▸ hm)]]
  exact ⟨rfl, rfl, rfl⟩

section
variable {s : State} {c : OpCtx} {p : PeerE} {b : Buf} (hpeer : c.prog.img.peers[bits c.word 71 66]? = some p)
  (hbuf : s.resolve c.since (hallLanding c.hall) (bits c.word 111 104) = some b)
  (hrows : ∀ k < bits c.word 87 72 + 1, b.rowOk (bits c.word 103 88) k = true)

/-- R240: the transfer of a SEND within the module. -/
def OpCtx.sendMove (c : OpCtx) (p : PeerE) (peer : Word64) : RowMove :=
  ⟨c.fk, c.slot, c.id, c.job, bits c.word 65 50, peer, p.hall * 20 + p.flight, 0, 0, bits c.word 87 72 + 1, [], true⟩

/-- R240: the transfer of a RECV. -/
def OpCtx.recvMove (c : OpCtx) (p : PeerE) (peer : Word64) : RowMove :=
  ⟨c.fk, c.slot, c.id, c.job, bits c.word 65 50, peer, p.hall * 20 + p.flight, bits c.word 111 104, bits c.word 103 88, bits c.word 87 72 + 1, [], false⟩

include hpeer hbuf hrows

theorem State.sendBody_away (hview : b.view ≠ 2) (haway : s.mine (s.peerPath p) = false) :
    ∃ r, State.sendBody c s = (r, .open_) ∧ KeepsMoves s r := by
  have hall : (List.range (bits c.word 87 72 + 1)).all (fun k => b.rowOk (bits c.word 103 88) k) = true := by simpa using hrows
  simp only [State.sendBody, hpeer, hbuf, hview, hall, State.stepPoison_mine, State.stepPoison_peerPath, haway, Bool.not_true, Bool.not_false,
    Bool.false_eq_true, or_self, if_false, if_true]
  exact ⟨_, rfl, (State.stepPoison_keepsMoves ..).step ((State.sendRows_keepsMoves ..).step ⟨rfl, rfl, rfl⟩)⟩

theorem State.sendBody_local (hview : b.view ≠ 2) (hmine : s.mine (s.peerPath p) = true) (hnone : s.serve.moves = []) :
    ∃ r, State.sendBody c s = (r, .open_) ∧ KeepsMoves (s.standing (c.sendMove p (s.peerPath p))) r := by
  have hall : (List.range (bits c.word 87 72 + 1)).all (fun k => b.rowOk (bits c.word 103 88) k) = true := by simpa using hrows
  have hmoves (job : Nat) (bad : Bool) : (s.stepPoison job bad).serve.moves = [] := (s.stepPoison_keepsMoves job bad).moves.trans hnone
  simp only [State.sendBody, hpeer, hbuf, hview, hall, State.stepPoison_mine, State.stepPoison_peerPath, hmine, hmoves, List.find?_nil, List.nil_append,
    Bool.not_true, Bool.false_eq_true, or_self, if_false]
  refine ⟨_, rfl, .step ?_ ((State.takeSends_of_sends (by simp) _ _).step ⟨rfl, rfl, rfl⟩)⟩
  have hp := s.stepPoison_keepsMoves c.job ((List.map (fun k => s.txRow b (b.row (bits c.word 103 88) k) k) (List.range (bits c.word 87 72 + 1))).any (·.poison))
  exact ⟨hp.halls, hp.mem, rfl⟩

/-! ### RECV (R240, R411) -/

theorem State.recvBody_first (hw : b.writable = true) (hnone : s.serve.moves = []) (hearly : s.serve.early = []) :
    ∃ r, State.recvBody c s = (r, .open_) ∧ KeepsMoves (s.standing (c.recvMove p (s.peerPath p))) r := by
  have hall : (List.range (bits c.word 87 72 + 1)).all (fun k => b.rowOk (bits c.word 103 88) k) = true := by simpa using hrows
  simp only [State.recvBody, hpeer, hbuf, hw, hall, hnone, List.find?_nil, ite_self, List.nil_append, State.drainEarly, hearly, List.filter_nil,
    List.foldl_nil, Bool.not_true, Bool.false_eq_true, or_self, if_false]
  exact ⟨_, rfl, rfl, rfl, rfl⟩

/-- R240: the SEND that stands is the partner of the RECV, and carries another row count. -/
theorem State.recvBody_mismatch {m : RowMove} (hw : b.writable = true) (hmine : s.mine (s.peerPath p) = true) (hone : s.serve.moves = [m])
    (hmatch : movesMatch m (c.recvMove p (s.peerPath p)) = true) (hcount : m.rows ≠ bits c.word 87 72 + 1) :
    State.recvBody c s = (({ s with serve := { s.serve with moves := [] } } : State).mismatch m, .stop 0x307A) := by
  have hall : (List.range (bits c.word 87 72 + 1)).all (fun k => b.rowOk (bits c.word 103 88) k) = true := by simpa using hrows
  have hfind : [m].find? (fun m => movesMatch m (c.recvMove p (s.peerPath p))) = some m := by simp [hmatch]
  rw [OpCtx.recvMove] at hfind
  simp only [State.recvBody, hpeer, hbuf, hw, hall, hmine, hone, hfind, hcount, dropFirst, beq_self_eq_true, Bool.not_true, Bool.false_eq_true,
    or_self, if_false, if_true, ne_eq, not_false_eq_true]

end

/-! ### The statement -/

/-- Settles O22: a SEND leaves or stands, and a RECV stands or meets the SEND that stands. -/
theorem sendAndRecvComplete : Obligations.SendAndRecvComplete := by
  have hsend (f : FlightId) (s : State) : exec (.send f) s = execSend f s := by rfl
  have hrecv (f : FlightId) (s : State) : exec (.recv f) s = execRecv f s := by rfl
  refine ⟨fun f s c p b h hpeer hbuf hview hrows haway => ?_, fun f s c p b h hpeer hbuf hview hrows hmine hnone => ?_,
    fun f s c p b h hpeer hbuf hw hrows hnone hearly => ?_,
    fun f s c p b m h hpeer hbuf hw hrows hmine hone hsends hjob htag hflight hunit hcount => ?_⟩
  · obtain ⟨r, hbody, hk⟩ := State.sendBody_away hpeer hbuf hrows hview haway
    exact ⟨r, by simp [hsend, execSend, h.flightOk, issueOp_open h hbody], hk.flight, hk.landing, hk.mem, hk.moves⟩
  · obtain ⟨r, hbody, hk⟩ := State.sendBody_local hpeer hbuf hrows hview hmine hnone
    exact ⟨r, c.sendMove p (s.peerPath p), by simp [hsend, execSend, h.flightOk, issueOp_open h hbody], hk.moves, rfl, rfl, rfl, rfl, rfl, rfl,
      hk.flight, hk.landing, hk.mem⟩
  · obtain ⟨r, hbody, hk⟩ := State.recvBody_first hpeer hbuf hrows hw hnone hearly
    exact ⟨r, c.recvMove p (s.peerPath p), by simp [hrecv, execRecv, h.flightOk, issueOp_open h hbody], hk.moves, rfl, rfl, rfl, rfl, rfl, rfl, rfl,
      hk.flight, hk.landing, hk.mem⟩
  · have hmatch : movesMatch m (c.recvMove p (s.peerPath p)) = true := by simp [movesMatch, OpCtx.recvMove, hsends, hjob, htag, hflight, hunit]
    have hbody := State.recvBody_mismatch hpeer hbuf hrows hw hmine hone hmatch hcount
    exact ⟨{ s with serve := { s.serve with moves := [] } }, by rw [hrecv, execRecv, h.flightOk, issueOp_stop h hbody, h.fk]; rfl, rfl, rfl, rfl⟩

end Sys2Proof.Machine
end

section
/-!
SUPPORT. Laws of data frames that reach the module (R240, R372 to R375, R379, R411, R423): the operation that a frame belongs to takes it, and one that comes before
its operation waits; and the statement on them.
-/

open Sys2Proof Sys2Proof.Machine

namespace Sys2Proof.Machine

/-! ### Frames of a type (R409) -/

/-- A frame for this module is delivered as one of its type. -/
theorem Arrives.delivered {s : State} {t : Nat} {f : Frame} (h : Arrives s t f) (hmine : s.mine f.dest = true) (ht : t ≠ 1) :
    s.frameRow t f = .next (s.deliver { f with ftype := t }) := by
  obtain ⟨hok, hup, hvc, hlen⟩ := h
  exact State.frameRow_of_mine ht hok hup hvc hlen hmine

section
variable {f : Frame} {s : State} (hmine : s.mine f.dest = true)
include hmine

theorem exec_sendData_of_mine (h : Arrives s 0x10 f) : exec (.sendData f) s = .next (s.takeSend { f with ftype := 0x10 }) := h.delivered hmine (by decide)

theorem exec_collData_of_mine (h : Arrives s 0x11 f) : exec (.collData f) s = .next (s.takeColl { f with ftype := 0x11 }) := h.delivered hmine (by decide)

theorem exec_manifest_of_mine (h : Arrives s 0x20 f) : exec (.manifest f) s = .next (s.takeManifest { f with ftype := 0x20 }) := h.delivered hmine (by decide)

theorem exec_exchRows_of_mine (h : Arrives s 0x21 f) : exec (.exchRows f) s = .next (s.takeExchRows { f with ftype := 0x21 }) := h.delivered hmine (by decide)

theorem exec_returnManifest_of_mine (h : Arrives s 0x22 f) : exec (.returnManifest f) s = .next (s.takeReturnManifest { f with ftype := 0x22 }) :=
  h.delivered hmine (by decide)

theorem exec_returnRows_of_mine (h : Arrives s 0x23 f) : exec (.returnRows f) s = .next (s.takeReturnRows { f with ftype := 0x23 }) :=
  h.delivered hmine (by decide)

end

/-! ### The pieces of a frame (R198, R410) -/

/-- Reading the pieces of a frame may log, count and take free values. -/
structure ReadsPieces (s t : State) : Prop where
  halls : t.halls = s.halls
  mem : t.mem = s.mem
  serve : t.serve = s.serve

theorem State.takePieces_reads (s : State) (f : Frame) (pre : Nat) : ReadsPieces s (s.takePieces f pre).2 := by
  unfold State.takePieces
  split
  split
  · have h := (s.logEv_frame { code := 0x3043, job := f.job } 0).step (State.count_frame _ Od.linkZErrors 1)
    exact ⟨h.halls, h.mem, h.serve⟩
  · exact ⟨rfl, rfl, rfl⟩

theorem State.takePieces_pieces (s : State) (f : Frame) (pre : Nat) :
    (s.takePieces f pre).1 = (framePieces f pre (fun i k => Config.freeByte s.free (0x60000 + i) k)).1 := by
  simp only [State.takePieces]

/-! ### Rows of a SEND (R240, R410) -/

/-- Work that writes one landing beside the steps of jobs. -/
structure Places (l : Nat) (s t : State) : Prop extends WritesOnly (· = l) s t where
  moves : t.serve.moves = s.serve.moves
  early : t.serve.early = s.serve.early

theorem Places.refl (l : Nat) (s : State) : Places l s s := ⟨.refl s, rfl, rfl⟩

theorem Places.step {l : Nat} {s t u : State} (h : Places l s t) (h' : Places l t u) : Places l s u :=
  ⟨h.toWritesOnly.step h'.toWritesOnly, h'.moves.trans h.moves, h'.early.trans h.early⟩

theorem ReadsPieces.places {s t : State} (h : ReadsPieces s t) (l : Nat) : Places l s t :=
  ⟨.of_maps (congrArg HallsSt.flights h.halls) (congrArg HallsSt.landings h.halls) h.mem, congrArg ServeSt.moves h.serve, congrArg ServeSt.early h.serve⟩

theorem State.stepPoison_places (s : State) (job : Nat) (bad : Bool) (l : Nat) : Places l s (s.stepPoison job bad) := by
  refine ⟨s.stepPoison_writesOnly job bad, ?_, ?_⟩ <;>
  · unfold State.stepPoison
    split <;> rfl

theorem State.placePieces_places (s : State) (b : Buf) (row : Piece → Nat) (tenant : Nat) (ps : List Piece) :
    Places b.landing s (ps.foldl (fun s p => s.placePiece b (row p) p.off p.data p.poison tenant) s) :=
  foldl_keeps (Places b.landing s) (fun (s : State) (p : Piece) => s.placePiece b (row p) p.off p.data p.poison tenant)
    (fun r _ h => h.step ⟨r.landWrite_writesOnly (L := (· = b.landing)) rfl _ _ _ _, rfl, rfl⟩) ps (.refl _ s)

/-- R411: a frame within the count of the one RECV that stands, none of whose pieces is there yet, is placed in its buffer. -/
theorem State.recvFrame_placed {s : State} {m : RowMove} {f : Frame} {b : Buf} {tenant : Nat} (hone : s.serve.moves = [m])
    (hbuf : s.recvBuf m = some (b, tenant))
    (hnew : ∀ p ∈ (s.takePieces f 0).1, p.row < m.rows ∧ ∀ g ∈ m.got, g.1 = p.row → g.2.1 ≠ p.off) :
    ∃ (t : State) (moves : List RowMove), Places b.landing s t ∧ s.recvFrame m f = { t with serve := { t.serve with moves := moves } } ∧
      (moves = [] ∨ ∃ g, moves = [{ m with got := g }] ∧ ∀ x ∈ m.got, x ∈ g) := by
  have hnone : ((s.takePieces f 0).1.any fun p => decide (m.rows ≤ p.row) || m.got.any fun g => g.1 == p.row && g.2.1 == p.off) = false := by
    refine List.any_eq_false.2 fun p hp => ?_
    obtain ⟨hrow, hgot⟩ := hnew p hp
    have hfree (n : Nat) : (p.row, p.off, n) ∉ m.got := fun hn => hgot _ hn rfl rfl
    simp [Nat.not_le.2 hrow, hfree]
  simp only [State.recvFrame, hbuf, hnone, Bool.false_eq_true, if_false]
  have hread := (s.takePieces_reads f 0).places b.landing
  have hplace := (hread.step (State.placePieces_places _ b (fun p => b.row m.row0 p.row) tenant (s.takePieces f 0).1)).step
    (State.stepPoison_places _ m.job ((s.takePieces f 0).1.any (·.poison)) b.landing)
  refine ⟨_, _, hplace, rfl, ?_⟩
  rw [hplace.moves, hone]
  simp only [dropFirst, beq_self_eq_true, if_true, List.nil_append]
  split
  · exact .inl rfl
  · exact .inr ⟨_, rfl, fun x hx => List.mem_dedup.2 (List.mem_append_left _ hx)⟩

/-! ### Rows of a collective (R423) -/

theorem State.takeColl_of_some {s : State} {f : Frame} {x : CollSt} (h : s.collFor f = some x) : s.takeColl f = s.collFrame x f := by
  simp only [State.takeColl, h]

theorem State.takeColl_of_none {s : State} {f : Frame} (h : s.collFor f = none) : s.takeColl f = s.putEarly f := by
  simp only [State.takeColl, h]
  rfl

/-! ### Exchange rows and manifests (R372 to R375) -/

/-- The module with one exchange. -/
def State.exchanging (s : State) (e : ExchSt) : State := { s with serve := { s.serve with exchanges := [e] } }

theorem State.modExch_single {s : State} {e : ExchSt} (h : s.serve.exchanges = [e]) (g : ExchSt → ExchSt) : s.modExch 0 g = s.exchanging (g e) := by
  simp [State.modExch, h, State.exchanging]

/-- R375: an exchange that this module has not begun fills no section. -/
theorem State.exchProgress_of_no_record {s : State} {e : ExchSt} (h : s.serve.exchanges = [e]) (hrec : e.record = none) : s.exchProgress 0 = s := by
  simp [State.exchProgress, h, State.recordOf, hrec]

theorem State.takeExchRows_of_none {s : State} (h : s.serve.exchanges = []) (f : Frame) :
    s.takeExchRows f = s.putEarly f := by
  simp only [State.takeExchRows, State.putEarly, h, List.findIdx?_nil, List.find?_nil]

theorem State.takeExchRows_of_known {s : State} {f : Frame} {e : ExchSt} {l : List Nat} (hone : s.serve.exchanges = [e]) (hjob : e.job = f.job)
    (hrec : e.record = none) (hman : kfind (s.memberOf f.src) e.manifest = some l) (hfull : e.fullFrom (s.exchLen e) (s.memberOf f.src) = false)
    (hrows : ∀ p ∈ (s.takePieces f 8).1, p.row < l.getD 0 0) :
    ∃ t, ReadsPieces s t ∧
      s.takeExchRows f = t.exchanging { e with rows := e.rows ++ (s.takePieces f 8).1.map (fun p => (s.memberOf f.src, p)) } := by
  have hread := s.takePieces_reads f 8
  have hone' : (s.takePieces f 8).2.serve.exchanges = [e] := by rw [hread.serve, hone]
  have hin : ((s.takePieces f 8).1.any fun p => decide (l.getD 0 0 ≤ p.row)) = false := by
    refine List.any_eq_false.2 fun p hp => ?_
    simpa using hrows p hp
  have hj : (e.job == f.job) = true := beq_iff_eq.2 hjob
  refine ⟨(s.takePieces f 8).2, hread, ?_⟩
  simp only [State.takeExchRows, hone, hone', List.findIdx?_singleton, hj, hman, hfull, Option.isSome_some, Bool.and_self,
    Bool.not_false, if_true, List.getElem?_cons_zero, Option.getD_some, hin, Bool.false_eq_true, if_false]
  rw [State.modExch_single hone']
  exact State.exchProgress_of_no_record (s := State.exchanging _ { e with rows := _ }) rfl hrec

theorem State.retryEarly_of_none {s : State} (h : s.serve.early = []) (ftype job m : Nat) (g : State → Frame → State) : s.retryEarly ftype job m g = s := by
  simp only [State.retryEarly, h, List.filter_nil, List.foldl_nil]
  rw [← h]

/-- R372, R374: an exchange that the manifest of member m opens. -/
def ExchSt.opened (f : Frame) : ExchSt :=
  { ExchSt.new f.job (leField f.payload 0 2) with manifest := kput (leField f.payload 2 1) (manifestCounts f.payload) [] }

/-- R374: a manifest of an exchange that is not known opens it. -/
theorem State.takeManifest_of_none {s : State} (h : s.serve.exchanges = []) (hearly : s.serve.early = []) (f : Frame) :
    s.takeManifest f = s.exchanging (ExchSt.opened f) := by
  have hadd : s.addManifest f.job (leField f.payload 0 2) (leField f.payload 2 1) (manifestCounts f.payload) =
      (s.exchanging (ExchSt.opened f), 0) := by
    simp only [State.addManifest, h, List.findIdx?_nil, List.nil_append, List.length_nil]
    rfl
  simp only [State.takeManifest, hadd]
  rw [State.retryEarly_of_none (by exact hearly)]
  exact State.exchProgress_of_no_record (e := ExchSt.opened f) rfl rfl

/-! ### The way back (R379) -/

theorem State.takeReturnManifest_of_none {s : State} (h : s.serve.exchanges = []) (f : Frame) :
    s.takeReturnManifest f = s.putEarly f := by
  simp only [State.takeReturnManifest, State.addReturnManifest, State.putEarly, h, List.findIdx?_nil, Option.map_none]

theorem State.takeReturnRows_of_none {s : State} (h : s.serve.exchanges = []) (f : Frame) :
    s.takeReturnRows f = s.putEarly f := by
  have hnone (job m : Nat) (ps : List Piece) : (s.takePieces f 8).2.addReturnRows job m ps = none := by
    simp [State.addReturnRows, (s.takePieces_reads f 8).serve, h]
  simp only [State.takeReturnRows, hnone]
  rfl

/-- R379: the counts of a return manifest agree with those of the exchange that waits for it. -/
theorem State.takeReturnManifest_of_waiting {s : State} {f : Frame} {e : ExchSt} (hone : s.serve.exchanges = [e]) (hjob : e.job = f.job)
    (hlayer : e.layer = leField f.payload 0 2) (hrec : e.record.isSome = true) (hnew : leField f.payload 2 1 ∉ e.retMan)
    (hcounts : (manifestCounts f.payload).drop 1 =
      (List.range 16).map (fun k => (e.sent.filter (fun p => p.1 == leField f.payload 2 1 && p.2.1 == k)).length)) :
    s.takeReturnManifest f =
      ((s.exchanging { e with retMan := e.retMan ++ [leField f.payload 2 1] }).placeReturns 0).retryEarly 0x23 f.job (leField f.payload 2 1)
        State.takeReturnRows := by
  have hadd : s.addReturnManifest f.job (leField f.payload 0 2) (leField f.payload 2 1) (manifestCounts f.payload) =
      some ((s.modExch 0 (fun e => { e with retMan := e.retMan ++ [leField f.payload 2 1] })).placeReturns 0) := by
    simp [State.addReturnManifest, hone, List.findIdx?_singleton, hjob, hlayer, hrec, hnew, hcounts]
  simp only [State.takeReturnManifest, hadd, State.modExch_single hone]

/-- R379: returned rows go to the exchange that waits for rows of their member. -/
theorem State.takeReturnRows_of_waiting {s : State} {f : Frame} {e : ExchSt} {k : Nat} (hone : s.serve.exchanges = [e]) (hjob : e.job = f.job)
    (hman : s.memberOf f.src ∈ e.retMan) (hk : k < e.sent.length) (hfrom : (e.sent.getD k (0, 0, 0)).1 = s.memberOf f.src) (hnew : k ∉ e.placed) :
    s.takeReturnRows f =
      ((s.takePieces f 8).2.exchanging { e with ret := e.ret ++ (s.takePieces f 8).1.map (fun p => (s.memberOf f.src, p)) }).placeReturns 0 := by
  have hone' : (s.takePieces f 8).2.serve.exchanges = [e] := by rw [(s.takePieces_reads f 8).serve, hone]
  have hany : ((List.range e.sent.length).any fun k => (e.sent.getD k (0, 0, 0)).1 == s.memberOf f.src && !e.placed.contains k) = true :=
    List.any_eq_true.2 ⟨k, List.mem_range.2 hk, by rw [hfrom]; simp [hnew]⟩
  have hadd : (s.takePieces f 8).2.addReturnRows f.job (s.memberOf f.src) (s.takePieces f 8).1 = some (((s.takePieces f 8).2.modExch 0
      (fun e => { e with ret := e.ret ++ (s.takePieces f 8).1.map (fun p => (s.memberOf f.src, p)) })).placeReturns 0) := by
    simp only [State.addReturnRows, hone', List.findIdx?_singleton, hjob, hany, List.contains_iff_mem.2 hman, beq_self_eq_true, Bool.and_self, if_true,
      Option.map_some]
  simp only [State.takeReturnRows, hadd, State.modExch_single hone']

/-! ### The statement -/

/-- Settles O28: each frame goes to the operation that it finds, or waits where it finds none. -/
theorem earlyDataFramesWait : Obligations.EarlyDataFramesWait := by
  refine ⟨fun f s h hmine hnone => ?_, fun f s m b tenant h hmine hone htakes hbuf hnew => ?_, fun f s h hmine hnone => ?_,
    fun f s h hmine hnone hearly => ?_, fun f s h hmine hnone => ?_, fun f s h hmine hnone => ?_, fun f s h hmine hnone => ?_,
    fun f s x h hmine hfor => ?_, fun f s e l ps h hmine hone hjob hrec hman hfull hps hrows => ?_,
    fun f s e m h hmine hone hjob hlayer hrec hm hnew hcounts => ?_, fun f s r e ps k h hmine hone hjob hman hk hfrom hnew hps => ?_⟩
  · exact ⟨s.putEarly _, by rw [exec_sendData_of_mine hmine h, State.takeSend_of_none hnone], rfl, rfl, rfl, rfl, rfl⟩
  · have hfind : s.serve.moves.find? (fun m => m.takes s.ownPath { f with ftype := 0x10 }) = some m := by simp [hone, htakes]
    obtain ⟨t, moves, hplace, hrecv, hmoves⟩ := State.recvFrame_placed (f := { f with ftype := 0x10 }) hone hbuf (by rwa [State.takePieces_pieces])
    refine ⟨_, exec_sendData_of_mine hmine h, ?_⟩
    simp only [State.takeSend, hfind, hrecv]
    exact ⟨hplace.mem, hplace.early, hplace.flight, hplace.landing, hmoves⟩
  · exact ⟨s.putEarly _, by rw [exec_collData_of_mine hmine h, State.takeColl_of_none hnone], rfl, rfl, rfl, rfl, rfl⟩
  · exact ⟨s.exchanging _, ExchSt.opened { f with ftype := 0x20 }, by rw [exec_manifest_of_mine hmine h, State.takeManifest_of_none hnone hearly],
      rfl, rfl, rfl, kfind_kput_self .., rfl⟩
  · exact ⟨s.putEarly _, by rw [exec_exchRows_of_mine hmine h, State.takeExchRows_of_none hnone], rfl, rfl, rfl⟩
  · exact ⟨s.putEarly _, by rw [exec_returnManifest_of_mine hmine h, State.takeReturnManifest_of_none hnone], rfl, rfl, rfl⟩
  · exact ⟨s.putEarly _, by rw [exec_returnRows_of_mine hmine h, State.takeReturnRows_of_none hnone], rfl, rfl, rfl⟩
  · rw [exec_collData_of_mine hmine h, State.takeColl_of_some hfor]
  · subst hps
    obtain ⟨t, hread, htake⟩ := State.takeExchRows_of_known (f := { f with ftype := 0x21 }) hone hjob hrec hman hfull hrows
    exact ⟨t.exchanging _, by rw [exec_exchRows_of_mine hmine h, htake], rfl, (congrArg ServeSt.early hread.serve :), hread.halls, hread.mem⟩
  · subst hm
    rw [exec_returnManifest_of_mine hmine h, State.takeReturnManifest_of_waiting (f := { f with ftype := 0x22 }) hone hjob hlayer hrec hnew hcounts]
    rfl
  · rw [exec_returnRows_of_mine hmine h, State.takeReturnRows_of_waiting (f := { f with ftype := 0x23 }) hone hjob hman hk hfrom hnew, hps]
    rfl

end Sys2Proof.Machine
end

section
/-!
SUPPORT. Laws of the descriptors of FETCH and STORE (R231, R283 to R289): what issue queues for the Movers, where an access of a descriptor lies, and how its bytes
are confirmed.
-/

open Sys2Proof Sys2Proof.Machine

namespace Sys2Proof.Machine

/-! ### Issue (R231, R286) -/

@[simp] theorem State.programErrors_nil (s : State) (fk : Nat) : s.programErrors fk [] = s := by
  unfold State.programErrors
  split <;> rfl

/-- R286: a descriptor as it is queued. -/
def State.queuedDesc (s : State) (d : Desc) : Desc := { d with id := s.xlate.nextDesc }

@[simp] theorem State.addDesc_descs (s : State) (d : Desc) : (s.addDesc d).xlate.descs = s.xlate.descs ++ [s.queuedDesc d] := rfl

/-- R236: an operation whose descriptor is queued waits for it. -/
theorem State.opWaits_addDesc (s : State) (c : OpCtx) (src dst : Nat × Nat) (n : Nat) (shared : Bool) :
    ((s.addDesc (c.moverDesc src dst n shared)).opOpen c).opWaits c.fk c.slot c.prog.nextOp = true := by
  simp [State.opWaits, State.queuedDesc, OpCtx.moverDesc, OpCtx.id, DescState.final]

section
variable {s : State} {c : OpCtx} {va flags u n : Nat} {b : Buf} (h : s.moverRegion c = .ok (va, flags, b, u, n))
include h

theorem State.fetchBody_of_readOnly (hw : b.writable = false) : State.fetchBody c s = (s, .stop 0x3061) := by
  simp [State.fetchBody, h, hw]

theorem State.fetchBody_of_writable (hw : b.writable = true) :
    State.fetchBody c s = (s.addDesc (c.moverDesc (0, va) (2, bits c.word 43 36 + 256 * u) n (bit flags 1)), .open_) := by
  simp [State.fetchBody, h, hw]

theorem State.storeBody_of_readOnly (hw : bit flags 0 = false) : State.storeBody c s = (s, .stop 0x3070) := by
  simp [State.storeBody, h, hw]

theorem State.storeBody_of_writable (hw : bit flags 0 = true) :
    State.storeBody c s = (s.addDesc (c.moverDesc (2, bits c.word 43 36 + 256 * u) (0, va) n false), .open_) := by
  simp [State.storeBody, h, hw]

end

theorem exec_fetch_of_ok {f : FlightId} (hf : flightOk f = true) (s : State) : exec (.fetch f []) s = .next (s.issueOp f (isOp 0x30) State.fetchBody) := by
  have he : exec (.fetch f []) s = execFetch f [] s := by rfl
  rw [he, execFetch, hf, State.programErrors_nil]
  rfl

theorem exec_storeOperation_of_ok {f : FlightId} (hf : flightOk f = true) (s : State) :
    exec (.storeOperation f) s = .next (s.issueOp f (isOp 0x31) State.storeBody) := by
  have he : exec (.storeOperation f) s = execStoreOperation f s := by rfl
  rw [he, execStoreOperation, hf]
  rfl

/-! ### A descriptor that is changed (R287) -/

theorem find_modFirst {α : Type} (p : α → Bool) (f : α → α) (hf : ∀ x, p x = true → p (f x) = true) (l : List α) :
    (modFirst p f l).find? p = (l.find? p).map f := by
  induction l with
  | nil => rfl
  | cons x t ih =>
    simp only [modFirst]
    split
    · next hx => simp [hx, hf x hx]
    · next hx => simp [hx, ih]

theorem State.desc_modDesc {s : State} {id : Nat} {d : Desc} (h : s.desc id = some d) {g : Desc → Desc} (hg : ∀ x, (g x).id = x.id) :
    (s.modDesc id g).desc id = some (g d) := by
  have hfind := find_modFirst (fun x : Desc => x.id == id) g (fun x hx => by rw [hg]; exact hx) s.xlate.descs
  exact hfind.trans (congrArg (Option.map g) h)

theorem State.id_of_desc {s : State} {id : Nat} {d : Desc} (h : s.desc id = some d) : d.id = id := by
  simpa using List.find?_some h

/-- Work that keeps halls and memory while it changes descriptors. -/
structure KeepsBytes (s t : State) : Prop where
  halls : t.halls = s.halls
  mem : t.mem = s.mem

/-! ### Bytes that are confirmed (R287, R289) -/

section
variable {s : State} {id n : Nat} {d : Desc} (hd : s.desc id = some d)

/-- R287: n more bytes of a descriptor are confirmed, perhaps its last. -/
def Desc.confirm (done : Bool) (n : Nat) (d : Desc) : Desc :=
  { d with confirmed := d.confirmed + n, state := if done then .done else d.state }

/-- R287: a running descriptor is DONE when all its bytes are confirmed. -/
def Desc.settled (d : Desc) (n : Nat) : Desc := d.confirm (decide (d.len ≤ d.confirmed + n)) n

include hd

theorem State.descMoves_of_prog (huse : d.use = .prog) (hstate : d.state = .running) :
    (s.descMoves id n).desc id = some (d.settled n) ∧ KeepsBytes s (s.descMoves id n) := by
  have hdone : (decide (d.len ≤ d.confirmed + n) && !d.state.final) = decide (d.len ≤ d.confirmed + n) := by simp [hstate, DescState.final]
  have hmoved : (s.modDesc id (Desc.confirm (decide (d.len ≤ d.confirmed + n)) n)).desc id = some (d.settled n) := State.desc_modDesc hd (fun _ => rfl)
  unfold State.descMoves
  simp only [hd, hdone]
  rw [huse]
  exact ⟨iteInduction (motive := fun t : State => t.desc id = _) (fun _ => hmoved) (fun _ => hmoved),
    iteInduction (motive := KeepsBytes s) (fun _ => ⟨rfl, rfl⟩) (fun _ => ⟨rfl, rfl⟩)⟩

/-- R289: the bytes that one access of a FETCH or STORE has just written are confirmed. -/
theorem State.settleMoves_of_prog (huse : d.use = .prog) (hstate : d.state = .running) (hlanded : s.xlate.landed = [(id, n)]) :
    s.settleMoves.desc id = some (d.settled n) ∧ KeepsBytes s s.settleMoves := by
  have hdesc : ({ s with xlate := { s.xlate with landed := [] } } : State).desc id = some d := hd
  obtain ⟨h, hk⟩ := State.descMoves_of_prog (n := n) hdesc huse hstate
  have he : s.settleMoves = ({ s with xlate := { s.xlate with landed := [] } } : State).descMoves id n := by
    simp [State.settleMoves, hlanded]
  rw [he]
  exact ⟨h, hk.halls, hk.mem⟩

end

/-- R285: a descriptor that yields changes its state alone, and does so while it runs. -/
theorem State.mayYield_desc {s : State} {id : Nat} {d : Desc} (hd : s.desc id = some d) :
    (∃ st, (s.mayYield id).desc id = some { d with state := st } ∧ (d.state ≠ .running → st = d.state)) ∧ KeepsBytes s (s.mayYield id) := by
  unfold State.mayYield
  simp only [hd]
  split
  · next h => exact ⟨⟨.yielded, State.desc_modDesc hd (fun _ => rfl), fun hne => absurd h.1 hne⟩, rfl, rfl⟩
  · exact ⟨⟨d.state, hd, fun _ => rfl⟩, rfl, rfl⟩

/-! ### Bytes of a landing after an access (R203, R288) -/

theorem kfind_kputBytes (m : KMap Byte) (off x : Nat) (data : Bytes) :
    kfind x (kputBytes m off data) = if off ≤ x ∧ x < off + data.length then data[x - off]? else kfind x m := by
  induction data generalizing off m with
  | nil => simp [kputBytes]
  | cons b t ih =>
    simp only [kputBytes, ih, List.length_cons]
    by_cases hx : x = off
    · subst hx
      simp
    · by_cases hin : off + 1 ≤ x ∧ x < off + 1 + t.length
      · have hsub : x - off = (x - (off + 1)) + 1 := by omega
        rw [if_pos hin, if_pos (by omega), hsub, List.getElem?_cons_succ]
      · rw [if_neg hin, if_neg (by omega), kfind_kput_ne hx]

/-- A byte of a landing after a write to it. -/
theorem State.landWrite_bytes (s : State) (l off x : Nat) (data : Bytes) (poison : Bool) (tenant : Nat) :
    kfind x ((s.landWrite l off data poison tenant).landing l).bytes =
      if off ≤ x ∧ x < off + data.length then data[x - off]? else kfind x (s.landing l).bytes := by
  rw [State.landWrite, State.landing_setLanding_self, Landing.write]
  split
  · next hnil =>
    subst hnil
    rw [if_neg (by simp)]
  · exact kfind_kputBytes _ _ _ _

/-- R261: what an access from `a` writes of a word: where it starts, its bytes, and whether one carries poison. -/
def wordRun (a : Nat) (bs : List PByte) (w : Nat) : Nat × Bytes × Bool :=
  let lo := max a (8 * w)
  let l := (bs.drop (lo - a)).take (8 * w + 8 - lo)
  (lo, l.map (·.1), l.any (·.2))

theorem wordRuns_eq (a : Nat) (bs : List PByte) : wordRuns a bs = (wordsOf a bs.length).map (wordRun a bs) := rfl

theorem wordRun_getElem {a : Nat} {bs : List PByte} {w x : Nat} (hlo : (wordRun a bs w).1 ≤ x) (hhi : x < (wordRun a bs w).1 + (wordRun a bs w).2.1.length) :
    (wordRun a bs w).2.1[x - (wordRun a bs w).1]? = (bs[x - a]?).map (·.1) := by
  simp only [wordRun, List.length_map, List.length_take, List.length_drop] at hlo hhi ⊢
  have hsum : max a (8 * w) - a + (x - max a (8 * w)) = x - a := by omega
  rw [List.getElem?_map, List.getElem?_take_of_lt (by omega), List.getElem?_drop, hsum]

theorem mem_wordRun {a i : Nat} {bs : List PByte} (hi : i < bs.length) :
    (wordRun a bs ((a + i) / 8)).1 ≤ a + i ∧ a + i < (wordRun a bs ((a + i) / 8)).1 + (wordRun a bs ((a + i) / 8)).2.1.length := by
  simp only [wordRun, List.length_map, List.length_take, List.length_drop]
  omega

theorem word_mem_wordsOf {a n i : Nat} (hi : i < n) : (a + i) / 8 ∈ wordsOf a n := by
  rw [wordsOf, if_neg (by omega), List.mem_map]
  exact ⟨(a + i) / 8 - a / 8, List.mem_range.2 (by omega), by omega⟩

/-- R288: the writes of an access to a landing, word by word. -/
def State.landWords (s : State) (l off : Nat) (bs : List PByte) (tenant : Nat) : State :=
  (wordRuns off bs).foldl (fun s r => s.landWrite l r.1 r.2.1 r.2.2 tenant) s

theorem State.landWords_writesOnly (s : State) (l off : Nat) (bs : List PByte) (tenant : Nat) : WritesOnly (· = l) s (s.landWords l off bs tenant) :=
  .foldl (fun t _ => t.landWrite_writesOnly (L := (· = l)) rfl _ _ _ _) _ s

theorem State.landWords_bytes (s : State) (l off : Nat) (bs : List PByte) (tenant : Nat) {i : Nat} {e : PByte} (hi : bs[i]? = some e) :
    kfind (off + i) ((s.landWords l off bs tenant).landing l).bytes = some e.1 := by
  have hlt : i < bs.length := (List.getElem?_eq_some_iff.1 hi).1
  have hrun : ∀ w, (wordRun off bs w).1 ≤ off + i ∧ off + i < (wordRun off bs w).1 + (wordRun off bs w).2.1.length →
      (wordRun off bs w).2.1[off + i - (wordRun off bs w).1]? = some e.1 := fun w h => by
    rw [wordRun_getElem h.1 h.2, Nat.add_sub_cancel_left, hi]
    rfl
  rw [State.landWords, wordRuns_eq, List.foldl_map]
  refine foldl_reaches (fun r : State => kfind (off + i) (r.landing l).bytes = some e.1) _ (fun r w hr => ?_) (x := (off + i) / 8) (fun r => ?_)
    (word_mem_wordsOf hlt) s
  · rw [State.landWrite_bytes]
    split
    · next h => exact hrun w h
    · exact hr
  · rw [State.landWrite_bytes, if_pos (mem_wordRun hlt)]
    exact hrun _ (mem_wordRun hlt)

/-! ### Bytes of device memory after an access (R437, R288) -/

theorem putCells_append (m : List Host.Cell) (a : Nat) (d e : Bytes) : putCells m a (d ++ e) = putCells (putCells m a d) (a + d.length) e := by
  induction d generalizing a m with
  | nil => rfl
  | cons b t ih =>
    rw [List.cons_append, putCells, ih, putCells, List.length_cons, Nat.add_right_comm, Nat.add_assoc]

/-- R437: clean writes of memory in turn. -/
def MemSt.writeLines (m : MemSt) (ls : List (Nat × Bytes)) : MemSt := ls.foldl (fun m l => m.write l.1 l.2 false) m

/-- R437: a write that is cut into lines writes what it would write whole. -/
theorem MemSt.writeLines_splitLines (fuel : Nat) (m : MemSt) (a : Nat) (d : Bytes) (h : d.length + a % 64 ≤ 64 * fuel) :
    (m.writeLines (splitLines fuel a d)).cells = putCells m.cells a d := by
  induction fuel generalizing m a d with
  | zero =>
    have hnil : d = [] := List.eq_nil_of_length_eq_zero (by omega)
    subst hnil
    rfl
  | succ fuel ih =>
    unfold splitLines
    split
    · next hnil =>
      subst hnil
      rfl
    · have hcells := ih (m.write a (d.take (64 - a % 64)) false) (a + (64 - a % 64)) (d.drop (64 - a % 64)) (by rw [List.length_drop]; omega)
      refine hcells.trans ?_
      show putCells (putCells m.cells a _) _ _ = _
      by_cases hlen : 64 - a % 64 ≤ d.length
      · have happ := putCells_append m.cells a (d.take (64 - a % 64)) (d.drop (64 - a % 64))
        rw [List.take_append_drop, List.length_take_of_le hlen] at happ
        exact happ.symm
      · rw [List.drop_of_length_le (by omega), List.take_of_length_le (by omega)]
        rfl

/-- R437: the lines of a write lie in it. -/
theorem mem_splitLines {fuel a : Nat} {d : Bytes} {l : Nat × Bytes} (h : l ∈ splitLines fuel a d) : l.2 ≠ [] ∧ ∃ i < d.length, l.1 = a + i := by
  induction fuel generalizing a d with
  | zero => cases h
  | succ fuel ih =>
    unfold splitLines at h
    split at h
    · cases h
    · next hd =>
      have hpos : 0 < d.length := List.length_pos_iff.2 hd
      rcases List.mem_cons.1 h with rfl | h
      · exact ⟨fun hnil => (List.take_eq_nil_iff.1 hnil).elim (by omega) hd, 0, hpos, rfl⟩
      · obtain ⟨hne, i, hi, hl⟩ := ih h
        rw [List.length_drop] at hi
        exact ⟨hne, (64 - a % 64) + i, by omega, by omega⟩

/-- R437: the lines of a present range outside the host's window, written, and then the note that they have been. -/
def State.linesWritten (s : State) (ls : List (Nat × Bytes)) (id n : Nat) : State :=
  { s with mem := s.mem.writeLines ls, cxl := { s.cxl with waiting := [] }, xlate := { s.xlate with landed := s.xlate.landed ++ [(id, n)] } }

/-- R437: writes of lines that the host does not hold leave the queue at once, and the note after them is taken. -/
theorem drainHost_lines (ls : List (Nat × Bytes)) (id n fuel : Nat) (s : State) (hfuel : ls.length < fuel)
    (hq : s.cxl.waiting = ls.map (fun l => .write l.1 l.2 false) ++ [.moved id n])
    (hl : ∀ l ∈ ls, l.2 ≠ [] ∧ s.hdmLine l.1 = none ∧ s.withdrawn l.1 = false) : drainHost fuel s = s.linesWritten ls id n := by
  induction ls generalizing s fuel with
  | nil =>
    obtain ⟨fuel, rfl⟩ := Nat.exists_eq_add_one_of_ne_zero (Nat.ne_of_gt hfuel)
    unfold drainHost
    simp only [List.map_nil, List.nil_append] at hq
    simp only [hq]
    cases fuel <;> rfl
  | cons l t ih =>
    obtain ⟨fuel, rfl⟩ := Nat.exists_eq_add_one_of_ne_zero (Nat.ne_of_gt (Nat.zero_lt_of_lt hfuel))
    obtain ⟨hne, hline, hin⟩ := hl l (List.mem_cons_self ..)
    unfold drainHost
    simp only [List.map_cons, List.cons_append] at hq
    simp only [hq, hline]
    refine (congrArg (drainHost fuel) (State.memWrite_of_present hne ?_ false)).trans
      (ih fuel _ (Nat.lt_of_succ_lt_succ hfuel) rfl (fun x hx => hl x (List.mem_cons_of_mem _ hx)))
    exact hin

/-- R437: the clean bytes of one access, cut into lines, reach memory at once. -/
theorem State.hostActs_lines (s : State) (a : Nat) (data : Bytes) (id n : Nat) (hq : s.cxl.waiting = [])
    (hl : ∀ i < data.length, s.hdmLine (a + i) = none ∧ s.withdrawn (a + i) = false) :
    s.hostActs (writeActs a data false ++ [.moved id n]) = s.linesWritten (splitLines (data.length / 64 + 2) a data) id n := by
  refine drainHost_lines _ id n _ { s with cxl := { s.cxl with waiting := s.cxl.waiting ++ (writeActs a data false ++ [.moved id n]) } } ?_ ?_ ?_
  · simp [hq, writeActs]
  · simp [hq, writeActs]
  · intro l h
    obtain ⟨hne, i, hi, heq⟩ := mem_splitLines h
    exact ⟨hne, heq ▸ (hl i hi).1, heq ▸ (hl i hi).2⟩

theorem State.memByte_linesWritten {fuel a : Nat} {data : Bytes} (h : data.length + a % 64 ≤ 64 * fuel) (s : State) (x id n : Nat) :
    (s.linesWritten (splitLines fuel a data) id n).memByte x = if a ≤ x ∧ x < a + data.length then data.getD (x - a) memDefault else s.memByte x :=
  (congrArg (kget memDefault x) (MemSt.writeLines_splitLines fuel s.mem a data h)).trans (kget_putCells s.mem.cells a x data)

end Sys2Proof.Machine
end

section
/-!
SUPPORT. Laws of one access of a FETCH or STORE descriptor (R287 to R290): what it reads, what it writes, and how the descriptor ends; and the statement on FETCH and
STORE.
-/

open Sys2Proof Sys2Proof.Machine

namespace Sys2Proof.Machine

/-! ### An access whose places exist (R288) -/

/-- R288: a place that an access can reach. -/
def Place.reached : Place → Bool
  | .dev _ | .host _ | .land _ _ => true
  | .page | .bad _ => false

/-- R287, R288: a descriptor of which an access has been made. -/
def Desc.advance (n : Nat) (d : Desc) : Desc := { d with sent := d.sent + n }

/-- R288 to R290: an access that reaches both places and carries no poison writes what it read, and its bytes are confirmed. -/
theorem State.moverAccess_of_reached {s s1 s2 s3 : State} {d : Desc} {n : Nat} {p q : Place} {bs : List PByte} {x : MoverIn}
    (hn : (if d.dstSpace = 0 then min d.piece (4096 - (d.dst + d.sent) % 4096) else d.piece) = n)
    (hp : s.moverPlace d d.srcSpace d.src d.sent n false = (p, s1)) (hpr : p.reached = true)
    (hq : s1.moverPlace d d.dstSpace d.dst d.sent n true = (q, s2)) (hqr : q.reached = true)
    (hr : s2.moverRead d p n x = (bs, s3)) (hmode : s3.mode ≠ .safeStop) (hover : s3.overlapFree d p q bs = (bs, s3)) (hclean : bs.any (·.2) = false) :
    s.moverAccess d x = ((s3.modDesc d.id (Desc.advance n)).moverWrite d q bs x.errs).settleMoves.mayYield d.id := by
  have hcarry : (s3.modDesc d.id (Desc.advance n)).carriesPoison d p bs = s3.modDesc d.id (Desc.advance n) := by
    simp only [State.carriesPoison, hclean, Bool.not_false, if_true]
  unfold State.moverAccess
  simp only [hn, hp, hq]
  cases p with
  | page => cases hpr
  | bad c => cases hpr
  | dev a | host a | land l o =>
    cases q with
    | page => cases hqr
    | bad c => cases hqr
    | dev b | host b | land k v =>
      simp only [hr, if_neg hmode, hover]
      exact congrArg (fun u : State => ((u.moverWrite d _ bs x.errs).settleMoves).mayYield d.id) hcarry

/-- R287: how an access leaves its descriptor. -/
structure AccessEnds (d : Desc) (id n : Nat) (t : State) (e : Desc) : Prop where
  desc : t.desc id = some e
  confirmed : e.confirmed = d.confirmed + n
  sent : e.sent = d.sent + n
  done : d.len ≤ d.confirmed + n → e.state = .done

/-- R287, R289: an access of a running descriptor of a program has been written. -/
theorem State.accessEnds {s : State} {d : Desc} {id n : Nat} (hd : s.desc id = some (d.advance n)) (huse : d.use = .prog) (hstate : d.state = .running)
    (hlanded : s.xlate.landed = [(id, n)]) : (∃ e, AccessEnds d id n (s.settleMoves.mayYield id) e) ∧ KeepsBytes s (s.settleMoves.mayYield id) := by
  obtain ⟨hset, hk⟩ := State.settleMoves_of_prog hd huse hstate hlanded
  obtain ⟨⟨st, hend, hst⟩, hk'⟩ := State.mayYield_desc hset
  refine ⟨⟨_, hend, rfl, rfl, fun hlen => ?_⟩, hk'.halls.trans hk.halls, hk'.mem.trans hk.mem⟩
  have hdone : ((d.advance n).settled n).state = .done := if_pos (decide_eq_true hlen)
  exact (hst (by rw [hdone]; decide)).trans hdone

/-! ### Places (R284, R286) -/

/-- R280, R284: the place of a tenant's address is found without a change to halls, memory, descriptors, the host's queue or OD. -/
theorem State.moverPlace_tenant {s s1 : State} {d : Desc} {a done n : Nat} {write : Bool} {p : Place} (h : s.moverPlace d 0 a done n write = (p, s1)) :
    s1 = (s.translate d.hall d.tenant (a + done) write).2 := by
  have hs : (s.moverPlace d 0 a done n write).2 = (s.translate d.hall d.tenant (a + done) write).2 := by
    have hx : spacePos 0 a = a := rfl
    unfold State.moverPlace
    simp only [hx]
    split
    · split
      · rfl
      · split <;> rfl
    · rfl
    · rfl
  rw [← hs, h]

theorem State.translate_keepsBytes (s : State) (hall t va : Nat) (write : Bool) :
    KeepsBytes s (s.translate hall t va write).2 ∧ (s.translate hall t va write).2.xlate.descs = s.xlate.descs := by
  obtain ⟨u, c, hu, he⟩ := s.translate_eq hall t va write
  rw [he]
  exact ⟨⟨hu.halls, hu.mem⟩, (congrArg XlateSt.descs hu.xlate : u.xlate.descs = s.xlate.descs)⟩

theorem State.moverPlace_landing {s : State} {d : Desc} {a done n : Nat} {b : Buf} (hb : s.resolve d.since (hallLanding d.hall) (a % 256) = some b)
    (hw : b.writable = true) (hin : bits a 31 8 * 64 + done + n ≤ b.bytesLen) :
    s.moverPlace d 2 a done n true = (.land b.landing (b.base * 64 + (bits a 31 8 * 64 + done)), s) := by
  simp only [State.moverPlace, spacePos, hb, hw]
  rw [if_neg (by simpa using hin)]
  rfl

/-! ### What is read (R260, R203) -/

/-- R290: clean bytes as a Mover carries them. -/
def cleanBytes (g : Nat → Byte) (n : Nat) : List PByte := (List.range n).map (fun i => (g i, false))

@[simp] theorem length_cleanBytes (g : Nat → Byte) (n : Nat) : (cleanBytes g n).length = n := by simp [cleanBytes]

theorem any_cleanBytes (g : Nat → Byte) (n : Nat) : (cleanBytes g n).any (·.2) = false := by simp [cleanBytes]

theorem cleanBytes_getElem (g : Nat → Byte) {n i : Nat} (hi : i < n) : (cleanBytes g n)[i]? = some (g i, false) := by
  simp [cleanBytes, hi]

theorem zip_clean (g : Nat → Byte) (p : Nat → Bool) (n : Nat) (h : ∀ i < n, p i = false) :
    ((List.range n).map g).zip ((List.range n).map p) = cleanBytes g n := by
  rw [List.zip_map', cleanBytes]
  exact List.map_congr_left (fun i hi => by rw [h i (List.mem_range.1 hi)])

theorem State.wordPoisoned_countReads (s : State) (k w : Nat) : (s.count Od.poisonReads k).wordPoisoned w = s.wordPoisoned w := by
  have hs : (s.count Od.poisonReads k).odGet Od.stacksPresent = s.odGet Od.stacksPresent := s.odGet_count_ne (by decide) k
  have hm : (s.count Od.poisonReads k).odGet Od.mezzPresent = s.odGet Od.mezzPresent := s.odGet_count_ne (by decide) k
  simp only [State.wordPoisoned, State.withdrawn, hs, hm]
  rfl

theorem State.moverRead_memory {s : State} {a n : Nat} (hclean : ∀ i < n, s.wordPoisoned ((a + i) / 8) = false) (d : Desc) (data : Bytes) (bad : List Nat)
    (land : List LandErr) : ∃ k, s.moverRead d (.dev a) n ⟨data, bad, [], land⟩ = (cleanBytes (fun i => s.memByte (a + i)) n, s.count Od.poisonReads k) := by
  refine ⟨((wordsOf a n).filter (fun w => kget false w s.mem.poison && !s.withdrawn (8 * w) && !(hitWords []).contains w)).length, ?_⟩
  refine congrArg (·, _) (zip_clean _ _ n (fun i hi => ?_))
  exact (s.wordPoisoned_countReads _ _).trans (hclean i hi)

theorem State.moverRead_landing {s : State} {d : Desc} {l off n : Nat} (hclean : ∀ i < n, s.landWordPoison d.since l ((off + i) / 8) = false) (data : Bytes)
    (bad : List Nat) : s.moverRead d (.land l off) n ⟨data, bad, [], []⟩ = (cleanBytes (fun i => s.landByte d.since l (off + i)) n, s.tick) :=
  congrArg (·, s.tick) (zip_clean _ _ n hclean)

/-! ### What is written (R288, R437) -/

theorem writeRuns_clean (a : Nat) {bs : List PByte} (h : bs.any (·.2) = false) : writeRuns a bs = [(a, bs.map (·.1), false)] := by
  rw [writeRuns, h]
  rfl

theorem State.moverWrite_memory {s : State} {a n : Nat} (d : Desc) (g : Nat → Byte) (hq : s.cxl.waiting = [])
    (hl : ∀ i < n, s.hdmLine (a + i) = none ∧ s.withdrawn (a + i) = false) :
    s.moverWrite d (.dev a) (cleanBytes g n) [] = s.linesWritten (splitLines (n / 64 + 2) a ((List.range n).map g)) d.id n := by
  have hbytes : (cleanBytes g n).map (·.1) = (List.range n).map g := by simp [cleanBytes]
  have h := s.hostActs_lines a ((List.range n).map g) d.id n hq (by simpa using hl)
  have he : s.moverWrite d (.dev a) (cleanBytes g n) [] =
      s.hostActs ((writeRuns a (cleanBytes g n)).flatMap (fun r => writeActs r.1 r.2.1 r.2.2) ++ [.moved d.id (cleanBytes g n).length]) := rfl
  rw [he, writeRuns_clean a (any_cleanBytes g n), hbytes, length_cleanBytes, List.flatMap_singleton, h, List.length_map, List.length_range]

/-- R289: bytes that a landing takes have been written at once; they change no descriptor. -/
theorem State.moverWrite_landing_xlate (s : State) (d : Desc) (l off : Nat) (bs : List PByte) :
    (s.moverWrite d (.land l off) bs []).xlate = { s.xlate with landed := s.xlate.landed ++ [(d.id, bs.length)] } := by
  have hx : (s.landWords l off bs d.tenant).xlate = s.xlate :=
    foldl_keeps (fun t : State => t.xlate = s.xlate) (fun (t : State) (r : Nat × Bytes × Bool) => t.landWrite l r.1 r.2.1 r.2.2 d.tenant) (fun _ _ h => h)
      (wordRuns off bs) rfl
  exact congrArg (fun x : XlateSt => { x with landed := x.landed ++ [(d.id, bs.length)] }) hx

theorem State.moverWrite_landing_writesOnly (s : State) (d : Desc) (l off : Nat) (bs : List PByte) :
    WritesOnly (· = l) s (s.moverWrite d (.land l off) bs []) :=
  (s.landWords_writesOnly l off bs d.tenant).step (.of_maps rfl rfl rfl)

theorem State.moverWrite_landing_bytes (s : State) (d : Desc) (l off : Nat) {bs : List PByte} {i : Nat} {e : PByte} (hi : bs[i]? = some e) :
    kfind (off + i) ((s.moverWrite d (.land l off) bs []).landing l).bytes = some e.1 :=
  s.landWords_bytes l off bs d.tenant hi

/-! ### One access, whole (R287 to R290) -/

theorem exec_moverAccessDone {id : Nat} {d : Desc} {s : State} (hd : s.desc id = some d) (hstate : d.state = .running) (hsent : d.sent < d.len) (data : Bytes)
    (bad : List Nat) (land : List LandErr) :
    exec (.moverAccessDone id data ⟨bad, [], land⟩) s = .next (s.moverAccess d ⟨data, bad, [], land⟩) := by
  have he : exec (.moverAccessDone id data ⟨bad, [], land⟩) s = execMoverAccessDone id data ⟨bad, [], land⟩ s := rfl
  rw [he]
  unfold execMoverAccessDone
  simp only [hd, if_pos (And.intro hstate hsent)]

/-- R287, R289: bytes that an access brings into a landing lie there, and are confirmed. -/
theorem State.landingEnds {s : State} {d : Desc} {n : Nat} {bs : List PByte} (hd : s.desc d.id = some (d.advance n)) (huse : d.use = .prog)
    (hstate : d.state = .running) (hlanded : s.xlate.landed = []) (l off : Nat) (hlen : bs.length = n) :
    (∃ e, AccessEnds d d.id n ((s.moverWrite d (.land l off) bs []).settleMoves.mayYield d.id) e) ∧
      WritesOnly (· = l) s ((s.moverWrite d (.land l off) bs []).settleMoves.mayYield d.id) ∧
      ∀ {i : Nat} {e : PByte}, bs[i]? = some e →
        kfind (off + i) ((((s.moverWrite d (.land l off) bs []).settleMoves.mayYield d.id).landing l).bytes) = some e.1 := by
  have hxlate := s.moverWrite_landing_xlate d l off bs
  have hdesc : (s.moverWrite d (.land l off) bs []).desc d.id = some (d.advance n) := by
    rw [State.desc, hxlate]
    exact hd
  obtain ⟨hend, hk⟩ := State.accessEnds hdesc huse hstate (by rw [hxlate, hlanded, hlen]; rfl)
  have hkeeps : WritesOnly (· = l) (s.moverWrite d (.land l off) bs []) ((s.moverWrite d (.land l off) bs []).settleMoves.mayYield d.id) :=
    .of_maps (by rw [hk.halls]) (by rw [hk.halls]) hk.mem
  refine ⟨hend, (s.moverWrite_landing_writesOnly d l off bs).step hkeeps, fun hi => ?_⟩
  rw [State.landing, hk.halls]
  exact s.moverWrite_landing_bytes d l off hi

section
variable {s s1 : State} {d : Desc} {id a n : Nat} {data : Bytes} {bad : List Nat} (hd : s.desc id = some d) (huse : d.use = .prog) (hstate : d.state = .running)
include hd huse hstate

/-- R287 to R290: an access of a FETCH brings its bytes from memory into the landing. -/
theorem State.moverAccess_fetch {b : Buf} {land : List LandErr} (hsrc : d.srcSpace = 0) (hdst : d.dstSpace = 2) (hn : n = d.piece)
    (hp : s.moverPlace d 0 d.src d.sent n false = (.dev a, s1)) (hlanded : s1.xlate.landed = []) (hb : s1.resolve d.since (hallLanding d.hall) (d.dst % 256) = some b)
    (hw : b.writable = true) (hin : bits d.dst 31 8 * 64 + d.sent + n ≤ b.bytesLen) (hclean : ∀ i < n, s1.wordPoisoned ((a + i) / 8) = false)
    (hmode : s1.mode ≠ .safeStop) :
    (∃ e, AccessEnds d id n (s.moverAccess d ⟨data, bad, [], land⟩) e) ∧ WritesOnly (· = b.landing) s1 (s.moverAccess d ⟨data, bad, [], land⟩) ∧
      ∀ i < n, kfind (b.base * 64 + (bits d.dst 31 8 * 64 + d.sent) + i) ((s.moverAccess d ⟨data, bad, [], land⟩).landing b.landing).bytes =
        some (s.memByte (a + i)) := by
  obtain rfl : d.id = id := State.id_of_desc hd
  obtain ⟨hbytes, hdescs⟩ := s.translate_keepsBytes d.hall d.tenant (d.src + d.sent) false
  rw [← State.moverPlace_tenant hp] at hbytes hdescs
  have hd1 : s1.desc d.id = some d := (congrArg (List.find? _) hdescs).trans hd
  obtain ⟨k, hread⟩ := State.moverRead_memory hclean d data bad land
  rw [State.moverAccess_of_reached (by rw [hdst, hn]; rfl) (hsrc ▸ hp) rfl (hdst ▸ State.moverPlace_landing hb hw hin) rfl hread hmode rfl
    (any_cleanBytes _ n)]
  obtain ⟨hend, hwrites, hland⟩ := State.landingEnds (s := (s1.count Od.poisonReads k).modDesc d.id (Desc.advance n)) (n := n)
    (State.desc_modDesc (s := s1.count Od.poisonReads k) hd1 (fun _ => rfl)) huse hstate hlanded b.landing (b.base * 64 + (bits d.dst 31 8 * 64 + d.sent))
    (length_cleanBytes (fun i => s1.memByte (a + i)) n)
  have hkept : WritesOnly (· = b.landing) s1 ((s1.count Od.poisonReads k).modDesc d.id (Desc.advance n)) := .of_maps rfl rfl rfl
  refine ⟨hend, hkept.step hwrites, fun i hi => ?_⟩
  rw [← State.memByte_eq hbytes.mem]
  exact hland (cleanBytes_getElem _ hi)

/-- R287 to R290: an access of a STORE brings its bytes from the landing into memory. -/
theorem State.moverAccess_store {l off : Nat} (hsrc : d.srcSpace = 2) (hdst : d.dstSpace = 0) (hn : n = min d.piece (4096 - (d.dst + d.sent) % 4096))
    (hp : s.moverPlace d 2 d.src d.sent n false = (.land l off, s)) (hq : s.moverPlace d 0 d.dst d.sent n true = (.dev a, s1)) (hlanded : s1.xlate.landed = [])
    (hwait : s1.cxl.waiting = []) (hmode : s1.mode ≠ .safeStop)
    (hclean : ∀ i < n, s1.landWordPoison d.since l ((off + i) / 8) = false ∧ s1.hdmLine (a + i) = none ∧ s1.withdrawn (a + i) = false) :
    (∃ e, AccessEnds d id n (s.moverAccess d ⟨data, bad, [], []⟩) e) ∧ (s.moverAccess d ⟨data, bad, [], []⟩).halls = s1.halls ∧
      ∀ x, (s.moverAccess d ⟨data, bad, [], []⟩).memByte x = if a ≤ x ∧ x < a + n then s1.landByte d.since l (off + (x - a)) else s1.memByte x := by
  obtain rfl : d.id = id := State.id_of_desc hd
  obtain ⟨-, hdescs⟩ := s.translate_keepsBytes d.hall d.tenant (d.dst + d.sent) true
  rw [← State.moverPlace_tenant hq] at hdescs
  have hd1 : s1.desc d.id = some d := (congrArg (List.find? _) hdescs).trans hd
  have hread := State.moverRead_landing (fun i hi => (hclean i hi).1) data bad
  have hwrite := State.moverWrite_memory (s := s1.tick.modDesc d.id (Desc.advance n)) d (fun i => s1.landByte d.since l (off + i)) hwait
    (fun i hi => (hclean i hi).2)
  rw [State.moverAccess_of_reached (by rw [hdst, if_pos rfl, hn]) (hsrc ▸ hp) rfl (hdst ▸ hq) rfl hread hmode rfl (any_cleanBytes _ n), hwrite]
  obtain ⟨hend, hk⟩ := State.accessEnds (s := (s1.tick.modDesc d.id (Desc.advance n)).linesWritten _ d.id n)
    (State.desc_modDesc (s := s1.tick) hd1 (fun _ => rfl)) huse hstate (congrArg (· ++ [(d.id, n)]) hlanded)
  refine ⟨hend, hk.halls, fun x => (State.memByte_eq hk.mem x).trans ?_⟩
  rw [State.memByte_linesWritten (by rw [List.length_map, List.length_range]; omega), List.length_map, List.length_range]
  refine ite_congr rfl (fun hx => ?_) (fun _ => rfl)
  have hlt : x - a < n := by omega
  simp [List.getD, hlt]

end

/-- Settles O19: FETCH and STORE queue one descriptor or stop their program, and an access of such a descriptor writes what it read and confirms it. -/
theorem fetchAndStoreMoveUnits : Obligations.FetchAndStoreMoveUnits := by
  unfold Obligations.FetchAndStoreMoveUnits
  refine ⟨fun f s c va flags u n b h hr => ⟨fun hw => ?_, fun hw => ?_⟩, fun f s c va flags u n b h hr => ⟨fun hw => ?_, fun hw => ?_⟩, ?_, ?_⟩
  · rw [exec_fetch_of_ok h.flightOk, issueOp_stop h (State.fetchBody_of_readOnly hr hw), h.fk]
  · exact ⟨s.addDesc (c.moverDesc (0, va) (2, bits c.word 43 36 + 256 * u) n (bit flags 1)), _,
      by rw [exec_fetch_of_ok h.flightOk, issueOp_open h (State.fetchBody_of_writable hr hw)], State.addDesc_descs _ _, rfl, rfl, rfl, rfl, rfl, rfl,
      rfl, rfl, rfl, rfl, rfl, rfl, State.opWaits_addDesc .., rfl, rfl⟩
  · rw [exec_storeOperation_of_ok h.flightOk, issueOp_stop h (State.storeBody_of_readOnly hr hw), h.fk]
  · exact ⟨s.addDesc (c.moverDesc (2, bits c.word 43 36 + 256 * u) (0, va) n false), _,
      by rw [exec_storeOperation_of_ok h.flightOk, issueOp_open h (State.storeBody_of_writable hr hw)], State.addDesc_descs _ _, rfl, rfl, rfl, rfl,
      rfl, rfl, rfl, rfl, rfl, rfl, rfl, State.opWaits_addDesc .., rfl, rfl⟩
  · intro id a n data bad land s s1 d b hd hstate hsent huse hsrc hdst hn hp hlanded hb hw hin hclean hmode
    obtain ⟨⟨e, he⟩, hwrites, hbytes⟩ := State.moverAccess_fetch (data := data) (bad := bad) (land := land) hd huse hstate hsrc hdst hn hp hlanded hb hw hin
      hclean hmode
    exact ⟨_, e, exec_moverAccessDone hd hstate hsent data bad land, hbytes, hwrites.landing, hwrites.mem, he.desc, he.confirmed, he.sent, he.done⟩
  · intro id a off l n data bad s s1 d hd hstate hsent huse hsrc hdst hn hp hq hlanded hwait hmode hclean
    obtain ⟨⟨e, he⟩, hhalls, hbytes⟩ := State.moverAccess_store (data := data) (bad := bad) hd huse hstate hsrc hdst hn hp hq hlanded hwait hmode hclean
    refine ⟨_, e, exec_moverAccessDone hd hstate hsent data bad [], fun i hi => ?_, fun x hx => ?_, fun k => ?_, he.desc, he.confirmed, he.sent, he.done⟩
    · rw [hbytes, if_pos (by omega), Nat.add_sub_cancel_left]
    · rw [hbytes, if_neg (by omega)]
    · exact congrArg (fun h : HallsSt => kget Landing.reset k h.landings) hhalls

end Sys2Proof.Machine
end

section
/-!
SUPPORT. What the shared functions of the model keep: any predicate that depends on little of the state. One lemma for each function, in the order of
the model; each follows the function's own branches, and a chain of names is the chain of the functions that the state passes through. Elaborated in
turn, since so many short theorems in parallel run out of threads.
-/

set_option Elab.async false

namespace Sys2Proof.Machine

/-! ### What may be kept -/

/-- A predicate on states that the shared functions of the model keep, whatever their branches: it depends on the queue of waiting commands, on
the canonical form of memory (R254, R261), on the page requests and the descriptors (R286, R292), and on the values of the dictionary; it bears
entries other than the count of page timeouts, a descriptor that is queued, those that are abandoned and the loss of all page requests. -/
structure Keeper where
  holds : State → Prop
  cells : ∀ {s t : State}, holds s → t.pending = s.pending → (Memory.wf s.mem.cells = true → Memory.wf t.mem.cells = true) →
    t.xlate.requests = s.xlate.requests → t.xlate.descs = s.xlate.descs → t.od.vals = s.od.vals → holds t
  entry : ∀ {s : State} {k : Nat}, holds s → k ≠ Od.pageTimeouts → ∀ v, holds (s.odPut k v)
  queued : ∀ {s : State}, holds s → ∀ d, holds (s.addDesc d)
  abandoned : ∀ {s : State}, holds s → ∀ p, holds (s.abandonDescs p)
  dropped : ∀ {s : State}, holds s → holds { s with xlate := { s.xlate with requests := [] } }

/-- What is kept holds of a state. -/
def Kept (K : Keeper) (s : State) : Prop := K.holds s

variable {K : Keeper} {s t : State}

/-- A change of the bytes of memory that keeps their canonical form, and of nothing else that is kept. -/
theorem Kept.sameCells (h : Kept K s) (hm : Memory.wf s.mem.cells = true → Memory.wf t.mem.cells = true) (hp : t.pending = s.pending := by rfl)
    (hr : t.xlate.requests = s.xlate.requests := by rfl) (hd : t.xlate.descs = s.xlate.descs := by rfl) (ho : t.od.vals = s.od.vals := by rfl) :
    Kept K t := K.cells h hp hm hr hd ho

/-- A change of nothing that is kept. -/
theorem Kept.same (h : Kept K s) (hp : t.pending = s.pending := by rfl) (hm : t.mem.cells = s.mem.cells := by rfl)
    (hr : t.xlate.requests = s.xlate.requests := by rfl) (hd : t.xlate.descs = s.xlate.descs := by rfl) (ho : t.od.vals = s.od.vals := by rfl) :
    Kept K t := K.cells h hp (fun hw => hm ▸ hw) hr hd ho

/-- An entry other than the count of page timeouts takes a value. -/
theorem Kept.put (h : Kept K s) {k v} (hk : k ≠ Od.pageTimeouts := by decide) : Kept K (s.odPut k v) := K.entry h hk v

theorem Kept.tally (h : Kept K s) {k n} (hk : k ≠ Od.pageTimeouts := by decide) : Kept K (s.count k n) := h.put hk


theorem Kept.of_snd {α : Type} {p : α × State} {a : α} (e : p = (a, t)) (h : Kept K p.2) : Kept K t := by
  subst e
  exact h

theorem Kept.of_fst {α : Type} {p : State × α} {a : α} (e : p = (t, a)) (h : Kept K p.1) : Kept K t := by
  subst e
  exact h

theorem Kept.ite {c : Prop} [Decidable c] (hs : Kept K s) (ht : Kept K t) : Kept K (if c then s else t) := by
  split
  · exact hs
  · exact ht

theorem Kept.foldl {α : Type} {l : List α} {f : State → α → State} (h : Kept K s) (hf : ∀ u x, Kept K u → Kept K (f u x)) :
    Kept K (l.foldl f s) :=
  foldl_keeps (Kept K) f hf l h

theorem Kept.iteFst {α : Type} {c : Prop} [Decidable c] {x y : State × α} (hx : Kept K x.1) (hy : Kept K y.1) : Kept K (if c then x else y).1 := by
  split
  · exact hx
  · exact hy

theorem Kept.iteSnd {α : Type} {c : Prop} [Decidable c] {x y : α × State} (hx : Kept K x.2) (hy : Kept K y.2) : Kept K (if c then x else y).2 := by
  split
  · exact hx
  · exact hy

theorem Kept.iteThird {α β : Type} {c : Prop} [Decidable c] {x y : α × β × State} (hx : Kept K x.2.2) (hy : Kept K y.2.2) :
    Kept K (if c then x else y).2.2 := by
  split
  · exact hx
  · exact hy

/-! ### Dictionary values, messages, the log (Machine/Ops.lean) -/

theorem Kept.emit (h : Kept K s) {m} : Kept K (s.emit m) := h.same

theorem Kept.tick (h : Kept K s) : Kept K s.tick := h.same

theorem Kept.uncommit (h : Kept K s) : Kept K s.uncommit := h.put.put.put

theorem Kept.signal (h : Kept K s) {v} : Kept K (s.signal v) := by
  unfold State.signal
  exact .ite h <| .ite h.same h.emit

theorem Kept.addEvent (h : Kept K s) {r} : Kept K (s.addEvent r) := by
  unfold State.addEvent
  exact .ite h.same.signal h.same

theorem Kept.ringPut (h : Kept K s) {r} : Kept K (s.ringPut r) := by
  unfold State.ringPut
  exact h.same

theorem Kept.bufferPut (h : Kept K s) {r} : Kept K (s.bufferPut r) := by
  unfold State.bufferPut
  exact .ite h.same.signal.addEvent h.tally

theorem Kept.record (h : Kept K s) {ev extra count time episode episodeSeq} : Kept K (s.record ev extra count time episode episodeSeq) := by
  unfold State.record
  exact .ite h.ringPut h.ringPut.put.put.bufferPut

theorem Kept.logEv (h : Kept K s) {ev extra} : Kept K (s.logEv ev extra) := by
  unfold State.logEv
  exact .ite (h.same.ite h.tally) h.record

theorem Kept.logLimited (h : Kept K s) {ev subject interval} : Kept K (s.logLimited ev subject interval) := by
  unfold State.logLimited
  dsimp only
  split
  · exact h.same
  · exact h.logEv.same

/-! ### Arches and frames (Machine/ArcadeOps.lean) -/

theorem Kept.setArch (h : Kept K s) {n a} : Kept K (s.setArch n a) := by
  unfold State.setArch
  exact h.same

theorem Kept.queueFrame (h : Kept K s) {n f} : Kept K (s.queueFrame n f) := by
  unfold State.queueFrame
  dsimp only
  split
  · exact h
  · exact h.setArch.emit

theorem Kept.sendFrame (h : Kept K s) {f} : Kept K (s.sendFrame f) := by
  unfold State.sendFrame
  split
  · exact h.queueFrame
  · exact h.tally.logEv

theorem Kept.sendOdResponse (h : Kept K s) {dest tag opcode status seq b} : Kept K (s.sendOdResponse dest tag opcode status seq b) := h.sendFrame

theorem Kept.sendJobStop (h : Kept K s) {job code dests} : Kept K (s.sendJobStop job code dests) := by
  unfold State.sendJobStop
  exact h.foldl fun _ _ h => .ite h <| .ite h.sendFrame.tally h.sendFrame

/-! ### Device memory (Machine/Memory.lean) -/

theorem Kept.memWrite (h : Kept K s) {a data poison} : Kept K (s.memWrite a data poison) := by
  unfold State.memWrite
  exact .ite h <| .ite h.tally (h.sameCells (s.mem.write_wf a data poison))

theorem Kept.memMark (h : Kept K s) {a n poison} : Kept K (s.memMark a n poison) := by
  unfold State.memMark
  exact h.same

theorem Kept.backInvalidate (h : Kept K s) {l} : Kept K (s.backInvalidate l) := by
  unfold State.backInvalidate
  exact .ite h h.same.emit.tally

theorem Kept.drainHost {n} (h : Kept K s) : Kept K (drainHost n s) := by
  induction n generalizing s with
  | zero => exact h
  | succ n ih =>
    unfold Machine.drainHost
    split
    · exact h
    · exact ih h.same.signal
    · exact .ite (ih h.same) <| .ite (ih h.same) <| by split; exacts [h, h.backInvalidate]
    · exact ih h.same
    · exact ih h.same
    · split
      · exact .ite h.backInvalidate (ih h.same.memWrite)
      · exact ih h.same.memWrite

theorem Kept.hostActs (h : Kept K s) {acts} : Kept K (s.hostActs acts) := by
  unfold State.hostActs
  exact h.same.drainHost

theorem Kept.devWrite (h : Kept K s) {a d poison} : Kept K (s.devWrite a d poison) := h.hostActs

/-! ### Translation, Movers, page requests (Machine/Xlate.lean) -/

theorem Kept.addDesc (h : Kept K s) {d} : Kept K (s.addDesc d) := K.queued h d

theorem Kept.abandonDescs (h : Kept K s) {p} : Kept K (s.abandonDescs p) := K.abandoned h p

/-! ### Streams (Machine/Streams.lean) -/

theorem Kept.setStream (h : Kept K s) {i r} : Kept K (s.setStream i r) := by
  unfold State.setStream
  exact h.same

theorem Kept.modStream (h : Kept K s) {i f} : Kept K (s.modStream i f) := h.setStream

theorem Kept.putSw (h : Kept K s) {i k v} : Kept K (s.putSw i k v) := h.modStream

theorem Kept.moveTo (h : Kept K s) {dest addr d} : Kept K (s.moveTo dest addr d) := by
  unfold State.moveTo
  exact h.same.sendFrame

theorem Kept.flushLocal (h : Kept K s) {i k n} : Kept K (s.flushLocal i k n) := h.devWrite

theorem Kept.flushWords (h : Kept K s) {i k n} : Kept K (s.flushWords i k n) := by
  unfold State.flushWords
  dsimp only
  split
  · exact h.flushLocal.moveTo
  · exact h.flushLocal

theorem Kept.coalesced (h : Kept K s) {v} : Kept K (s.coalesced v).1 := by
  unfold State.coalesced
  dsimp only
  split
  · dsimp only
    exact h.same
  · exact .iteFst h h.same

theorem Kept.clogWrite (h : Kept K s) {tenant rec_} : Kept K (s.clogWrite tenant rec_) := by
  unfold State.clogWrite
  dsimp only
  exact h.put.coalesced.hostActs

theorem Kept.clogAdd (h : Kept K s) {tenant rec_} : Kept K (s.clogAdd tenant rec_) := by
  unfold State.clogAdd
  exact .ite h.same.tally h.clogWrite

theorem Kept.notify (h : Kept K s) {i commit} : Kept K (s.notify i commit) := by
  unfold State.notify
  exact .ite h.clogAdd h

theorem Kept.faultRec (h : Kept K s) {i code final origin addr confirmed logSeq} : Kept K (s.faultRec i code final origin addr confirmed logSeq) := by
  unfold State.faultRec
  have hkey : (if final = true then Od.faultsFinal else Od.faultsRecovered) ≠ Od.pageTimeouts := by split <;> decide
  exact (h.putSw.putSw.putSw.putSw.tally hkey).flushWords.flushWords

theorem Kept.setState (h : Kept K s) {i st} : Kept K (s.setState i st) := by
  unfold State.setState
  exact (h.putSw.flushWords.flushWords.flushWords.ite h.putSw.flushWords.flushWords).flushWords

theorem Kept.poolFree (h : Kept K s) {hall free} : Kept K (s.poolFree hall free) := by
  unfold State.poolFree
  exact h.same

theorem Kept.reserve (h : Kept K s) {hall model n draft m r} (hr : s.reserve hall model n draft m = some r) : Kept K r.2.2 := by
  unfold State.reserve at hr
  split at hr
  · cases hr
    exact h.poolFree
  · cases hr

theorem Kept.releaseCache (h : Kept K s) {i} : Kept K (s.releaseCache i) := by
  unfold State.releaseCache
  dsimp only
  split
  · exact h
  · exact (h.tally.ite h).poolFree.modStream

theorem Kept.releaseDraft (h : Kept K s) {i} : Kept K (s.releaseDraft i) := by
  unfold State.releaseDraft
  dsimp only
  split
  · exact h
  · exact h.poolFree.modStream

theorem Kept.releaseShare (h : Kept K s) {i} : Kept K (s.releaseShare i) := h.modStream

theorem Kept.leaveSteps (h : Kept K s) {i} : Kept K (s.leaveSteps i) := by
  unfold State.leaveSteps
  exact h.same.abandonDescs

theorem Kept.countWait (h : Kept K s) {i} : Kept K (s.countWait i) := .ite h.tally h

theorem Kept.endStream (h : Kept K s) {i st} : Kept K (s.endStream i st) := by
  unfold State.endStream
  extract_lets _ s₂ s₃ s₄ s₅
  have h₂ : Kept K s₂ := h.leaveSteps.countWait.ite h.leaveSteps.countWait.releaseCache
  have h₄ : Kept K s₄ := h₂.releaseShare.modStream
  exact (h₄.tally.ite h₄).setState.notify

theorem Kept.faultStream (h : Kept K s) {i code origin addr confirmed logSeq} : Kept K (s.faultStream i code origin addr confirmed logSeq) :=
  .ite h h.leaveSteps.faultRec.endStream

theorem Kept.writeBack (h : Kept K s) {j} : Kept K (s.writeBack j) := by
  unfold State.writeBack
  exact h.flushWords.devWrite.tick.flushWords

theorem Kept.cacheEntry (h : Kept K s) {hall i} : Kept K (s.cacheEntry hall i) := by
  unfold State.cacheEntry
  extract_lets l put s₁
  have hput : ∀ {t : State} {l}, Kept K t → Kept K (put t l) := fun h => h.same
  have h₁ : Kept K s₁ := h.tally
  refine .ite (hput h) <| .ite (hput h₁) ?_
  split
  · exact h₁
  · exact hput h₁.writeBack.tally

/-! ### The Balustrade and the cells (Machine/FieldOps.lean) -/

theorem Kept.balSend (h : Kept K s) {typ body} : Kept K (s.balSend typ body) := by
  unfold State.balSend
  dsimp only
  split
  · exact h
  · exact .ite h.tally h.same.emit

theorem Kept.modCell (h : Kept K s) {entry f} : Kept K (s.modCell entry f) := by
  unfold State.modCell
  exact h.same

theorem Kept.aggRefill (h : Kept K s) : Kept K s.aggRefill := by
  unfold State.aggRefill
  exact h.same

theorem Kept.mapUpdate (h : Kept K s) {c} : Kept K (s.mapUpdate c) := by
  unfold State.mapUpdate
  exact h.balSend

theorem Kept.bindCell (h : Kept K s) {entry} : Kept K (s.bindCell entry) := by
  unfold State.bindCell
  dsimp only
  split
  · exact h
  · split
    · exact (h.modCell.ite (h.aggRefill.setStream.modCell.flushWords.flushWords.flushWords.ite h.modCell.tally.logLimited)).mapUpdate
    · exact .ite h.modCell <| .ite h.aggRefill.setStream.modCell.flushWords.flushWords.flushWords h.modCell.tally.logLimited

theorem Kept.retryRefused {l} (h : Kept K s) : Kept K (retryRefused l s) := by
  induction l generalizing s with
  | nil => exact h
  | cons e l ih =>
    unfold Machine.retryRefused
    dsimp only
    split
    · exact .ite (ih h.bindCell) h.bindCell
    · exact h.bindCell

theorem Kept.freeEntry (h : Kept K s) {entry} : Kept K (s.freeEntry entry) := by
  unfold State.freeEntry
  exact h.leaveSteps.releaseShare.putSw.setState

theorem Kept.dropCell (h : Kept K s) {entry} : Kept K (s.dropCell entry) := by
  unfold State.dropCell
  exact h.same

theorem Kept.addCell (h : Kept K s) {r} : Kept K (s.addCell r) := by
  unfold State.addCell
  exact .ite h.same.bindCell h.same.mapUpdate

theorem Kept.cellLeaves (h : Kept K s) {c} : Kept K (s.cellLeaves c) := by
  unfold State.cellLeaves
  extract_lets e _ _ s₁ s₂
  have h₁ : Kept K s₁ := (h.aggRefill.freeEntry.ite h.aggRefill).dropCell.mapUpdate
  have h₂ : Kept K s₂ := h₁.foldl fun _ _ h => h.addCell
  exact .ite h₂.retryRefused h₂

theorem Kept.releaseHeld (h : Kept K s) {entry} : Kept K (s.releaseHeld entry) := by
  unfold State.releaseHeld
  dsimp only
  split
  · split
    · exact h.modCell.balSend
    · exact h
  · exact h

theorem Kept.fieldStepEnd (h : Kept K s) {i} : Kept K (s.fieldStepEnd i) := by
  unfold State.fieldStepEnd
  dsimp only
  split
  · exact .ite h.putSw.cellLeaves h.putSw.releaseHeld
  · exact h.putSw

/-! ### Answers (Machine/Answers.lean) -/

theorem Kept.mbDone (h : Kept K s) {m} : Kept K (s.mbDone m) := h.emit.signal

theorem Kept.respond (h : Kept K s) {o op k status seq b} : Kept K (s.respond o op k status seq b) := by
  unfold State.respond
  dsimp only
  split
  · exact h.mbDone
  · exact h.emit.balSend
  · exact h.sendOdResponse
  · exact h.emit

theorem Kept.answerReady (h : Kept K s) : Kept K s.answerReady := by
  unfold State.answerReady
  exact h.same.foldl fun _ _ h => h.respond

/-! ### Safe Stop and episodes (Machine/Errors.lean) -/

theorem Kept.endStateWait (h : Kept K s) : Kept K s.endStateWait := by
  unfold State.endStateWait
  dsimp only
  split
  · exact h
  · exact h.same.respond

theorem Kept.setMode (h : Kept K s) {m} : Kept K (s.setMode m) := by
  unfold State.setMode
  dsimp only
  split
  · exact .ite h.same.put.endStateWait h.same.put
  · exact h.same.put

theorem Kept.abandonParks (h : Kept K s) : Kept K s.abandonParks := by
  unfold State.abandonParks
  exact h.same.tally

theorem Kept.allAbandoned (h : Kept K s) : Kept K s.allAbandoned := K.dropped h.abandonDescs.abandonParks

theorem Kept.portDark (h : Kept K s) : Kept K s.portDark := by
  unfold State.portDark
  exact .ite h h.same.uncommit.tally.logEv.drainHost.answerReady

theorem Kept.enterSafeStop (h : Kept K s) {cause} : Kept K (s.enterSafeStop cause) := by
  unfold State.enterSafeStop
  refine .ite h ?_
  extract_lets s₁ s₂ s₃ _ s₄ s₅ _ _ s₆ _ s₇
  have h₂ : Kept K s₂ := h.logEv.put
  clear_value s₂
  have h₃ : Kept K s₃ := by
    unfold s₃
    split
    · exact .ite h₂.put <| .ite h₂.put h₂.put
    · exact h₂
  clear_value s₃
  have h₅ : Kept K s₅ := (Kept.ite h₃.same h₂).allAbandoned
  clear_value s₅
  have h₆ : Kept K s₆ := h₅.same
  have h₇ : Kept K s₇ := .ite h₆.same.emit h₆
  exact (Kept.ite h₇.portDark h₇).tick.setMode

theorem Kept.modEpisode (h : Kept K s) {n f} : Kept K (s.modEpisode n f) := by
  unfold State.modEpisode
  exact h.same

theorem Kept.closeSettled (h : Kept K s) : Kept K s.closeSettled := by
  unfold State.closeSettled
  exact h.same

theorem Kept.joinEpisode (h : Kept K s) {e ev time} : Kept K (s.joinEpisode e ev time) := by
  unfold State.joinEpisode
  exact .ite h.record.modEpisode.enterSafeStop h.record.modEpisode

theorem Kept.takeFault (h : Kept K s) {ev x model time} : Kept K (s.takeFault ev x model time) := by
  unfold State.takeFault
  dsimp only
  split
  · exact h.joinEpisode
  · exact .ite h.record.record.enterSafeStop h.record.same.tally

theorem Kept.raiseFault (h : Kept K s) {ev x model} : Kept K (s.raiseFault ev x model) := by
  unfold State.raiseFault
  exact .ite (h.same.ite h.tally) h.takeFault

theorem Kept.logStop (h : Kept K s) {ev fk addr} : Kept K (s.logStop ev fk addr) := .ite h.raiseFault h.logEv

/-! ### Landings (Machine/Landing.lean) -/

theorem Kept.setLanding (h : Kept K s) {l x} : Kept K (s.setLanding l x) := by
  unfold State.setLanding
  exact h.same

theorem Kept.landWrite (h : Kept K s) {l off data poison tenant} : Kept K (s.landWrite l off data poison tenant) := h.setLanding

theorem Kept.setHandle (h : Kept K s) {l hall e} : Kept K (s.setHandle l hall e) := by
  unfold State.setHandle
  exact h.setLanding

/-! ### Tiles and the drain pipeline (Machine/Foot.lean) -/

theorem Kept.setFlight (h : Kept K s) {k x} : Kept K (s.setFlight k x) := by
  unfold State.setFlight
  exact h.same

/-! ### Jobs and program stops (Machine/Jobs.lean) -/

theorem Kept.modProg (h : Kept K s) {fk slot f} : Kept K (s.modProg fk slot f) := by
  unfold State.modProg
  exact h.setFlight

theorem Kept.updateSpan (h : Kept K s) : Kept K s.updateSpan := h.put

theorem Kept.unloadProg (h : Kept K s) {fk slot} : Kept K (s.unloadProg fk slot) := by
  unfold State.unloadProg
  dsimp only
  split
  · exact h
  · exact (h.foldl fun _ _ h => h.setHandle).same.setFlight.updateSpan

theorem Kept.releaseTiles (h : Kept K s) {fk} : Kept K (s.releaseTiles fk) := by
  unfold State.releaseTiles
  exact h.setFlight

theorem Kept.setJob (h : Kept K s) {j} : Kept K (s.setJob j) := by
  unfold State.setJob
  exact h.same

theorem Kept.modStep (h : Kept K s) {job f} : Kept K (s.modStep job f) := by
  unfold State.modStep
  exact h.same

theorem Kept.dropStep (h : Kept K s) {job} : Kept K (s.dropStep job) := by
  unfold State.dropStep
  exact h.same

theorem Kept.takeIdleCancels (h : Kept K s) : Kept K s.takeIdleCancels := h.foldl fun _ _ h => h.endStream

theorem Kept.planRestart (h : Kept K s) {job code room} : Kept K (s.planRestart job code room).2 := by
  unfold State.planRestart
  exact .iteSnd h.setJob <| .iteSnd h.setJob.logEv h.setJob.tally

theorem Kept.recordAbandon (h : Kept K s) {ss code final origin} : Kept K (s.recordAbandon ss code final origin) := by
  unfold State.recordAbandon
  exact h.foldl fun _ _ h => .ite (h.modStream.faultStream.ite h.modStream.faultRec.fieldStepEnd) <| .ite h.modStream <|
    .ite h.modStream.faultStream h.modStream.faultRec

theorem Kept.stopProg (h : Kept K s) {fk slot code word} : Kept K (s.stopProg fk slot code word) := by
  unfold State.stopProg
  dsimp only
  split
  · exact h
  · exact .ite h (h.modProg.releaseTiles.ite h.modProg).tally.put.logStop

theorem Kept.clearJob (h : Kept K s) {job} : Kept K (s.clearJob job) := by
  unfold State.clearJob
  extract_lets s₁ _ hl _ v s₂ _ s₃ outs
  have h₁ : Kept K s₁ := h.foldl fun _ _ h => (h.releaseTiles.ite h).unloadProg
  clear_value s₁
  have h₂ : Kept K s₂ := h₁.same
  have h₃ : Kept K s₃ := .ite h₂.setJob h₂
  exact h₃.abandonDescs

theorem Kept.endJob (h : Kept K s) {job code} : Kept K (s.endJob job code) := by
  unfold State.endJob
  dsimp only
  exact .ite h h.clearJob.dropStep.planRestart.recordAbandon.takeIdleCancels.closeSettled

theorem Kept.stopRest (h : Kept K s) {job code} : Kept K (s.stopRest job code) := by
  unfold State.stopRest
  exact ((h.foldl fun _ _ h => h.stopProg).sendJobStop.ite (h.foldl fun _ _ h => h.stopProg)).endJob

theorem Kept.programStop (h : Kept K s) {fk slot code word} : Kept K (s.programStop fk slot code word) := by
  unfold State.programStop
  split
  · exact h
  · exact h.stopProg.stopRest

theorem Kept.writeMasks (h : Kept K s) {i width d} : Kept K (s.writeMasks i width d) := by
  unfold State.writeMasks
  exact h.devWrite

theorem Kept.growTree (h : Kept K s) {i} : Kept K (s.growTree i) := by
  unfold State.growTree
  exact .ite (h.modStream.tally.tally.ite h.modStream.tally) (h.modStream.tally.tally.ite h.modStream.tally).writeMasks.tick

/-! ### Residence and copies (Machine/Install.lean) -/

theorem Kept.seedGens (h : Kept K s) {hall i} : Kept K (s.seedGens hall i) := by
  unfold State.seedGens
  exact h.foldl fun _ _ h => .ite h <| .ite h.same h.same.tick

theorem Kept.install (h : Kept K s) {fk addr i} : Kept K (s.install fk addr i) := by
  unfold State.install
  exact (h.seedGens.foldl fun _ _ h => h.setHandle).setFlight.setJob.tally.updateSpan.closeSettled

theorem Kept.moveRegion (h : Kept K s) {a b n} : Kept K (s.moveRegion a b n) := by
  unfold State.moveRegion
  exact .ite h ((((h.devWrite.foldl fun _ _ h => .ite h.memMark h).tally (k := Od.moverBytes)).tally (k := Od.moverDescriptors)).tally
    (k := Od.moverPoisonBytes))

theorem Kept.landCopy (h : Kept K s) {c sl} : Kept K (s.landCopy c sl) := by
  unfold State.landCopy
  exact (h.setLanding.tally (k := Od.moverBytes)).tally (k := Od.moverDescriptors)

theorem Kept.moveCopies (h : Kept K s) {m k j write} : Kept K (s.moveCopies m k j write) := by
  unfold State.moveCopies
  dsimp only
  split
  · exact h
  · exact .ite h <| .ite (h.same.foldl fun _ _ h => h.landCopy) h.same

theorem Kept.remap (h : Kept K s) {m a b n} : Kept K (s.remap m a b n) := by
  unfold State.remap
  exact h.same

theorem Kept.moveSlice (h : Kept K s) {m k sl new} : Kept K (s.moveSlice m k sl new) := by
  unfold State.moveSlice
  split
  · exact h
  · split
    · exact h
    · refine .ite h ?_
      extract_lets n t s₁ s₂ s₃
      have h₁ : Kept K s₁ := h.moveRegion.moveRegion.moveRegion
      have h₂ : Kept K s₂ := .ite h₁ h₁.moveRegion
      have h₃ : Kept K s₃ := h₂.remap.remap.remap
      clear_value s₃
      exact h₃.same

theorem Kept.moveSlices (h : Kept K s) {m l} : Kept K (s.moveSlices m l) := by
  unfold State.moveSlices
  dsimp only
  refine h.foldl fun _ _ h => ?_
  split
  · exact h.moveSlice
  · exact h

theorem Kept.swapMap (h : Kept K s) {fk layer a b p} : Kept K (s.swapMap fk layer a b p) := by
  unfold State.swapMap
  dsimp only
  refine h.foldl fun _ _ h => ?_
  split
  · exact h
  · refine .ite h ?_
    split
    · exact h
    · exact h.landWrite.landWrite

theorem Kept.swapExperts (h : Kept K s) {m layer a b} : Kept K (s.swapExperts m layer a b) := by
  unfold State.swapExperts
  dsimp only
  split
  · exact h
  · exact h.same.foldl fun _ _ h => h.swapMap

theorem Kept.resizePool (h : Kept K s) {m hall j n} : Kept K (s.resizePool m hall j n) := by
  unfold State.resizePool
  dsimp only
  split
  · exact h
  · exact .ite h h.same

theorem Kept.newEpoch (h : Kept K s) {m} : Kept K (s.newEpoch m) := by
  unfold State.newEpoch
  dsimp only
  split
  · exact h.tally
  · exact (h.tally (k := Od.planEpoch)).same

theorem Kept.replaceJob (h : Kept K s) {job r} : Kept K (s.replaceJob job r) := by
  unfold State.replaceJob
  dsimp only
  exact ((((h.foldl fun _ _ h => h.unloadProg).moveSlices.foldl fun _ _ h => h.swapExperts).foldl fun _ _ h => h.resizePool).foldl fun _ _ h =>
    h.moveCopies.install).setJob.newEpoch.tally.logEv.closeSettled

/-! ### Offers and steps (Machine/Offer.lean) -/

theorem Kept.releaseLocal (h : Kept K s) {job bid use hall} : Kept K (s.releaseLocal job bid use hall) := by
  unfold State.releaseLocal
  dsimp only
  split
  · exact h
  · exact h.same.foldl fun _ _ h => h.modProg

theorem Kept.galRelease (h : Kept K s) {job bid use scope top} : Kept K (s.galRelease job bid use scope top) := by
  unfold State.galRelease
  dsimp only
  refine ((h.foldl fun _ _ h => h.foldl fun _ _ h => ?_).ite h).releaseLocal
  split
  · exact .ite h h.sendFrame
  · exact h

theorem Kept.releaseBarrier (h : Kept K s) {job bid use hall} : Kept K (s.releaseBarrier job bid use hall) := by
  unfold State.releaseBarrier
  split
  · exact .ite h.galRelease h.releaseLocal
  · exact h

theorem Kept.queueInput (h : Kept K s) {i} : Kept K (s.queueInput i) := by
  unfold State.queueInput
  exact h.addDesc.modStream

theorem Kept.startPark (h : Kept K s) {i} : Kept K (s.startPark i) := .ite h.modStream h

theorem Kept.parkLow (h : Kept K s) {hall} : Kept K (s.parkLow hall) := by
  unfold State.parkLow
  dsimp only
  refine .ite h ?_
  split
  · exact h.startPark
  · exact h

theorem Kept.rebuildCache (h : Kept K s) {i b} : Kept K (s.rebuildCache i b) := by
  unfold State.rebuildCache
  dsimp only
  split
  · exact .ite h.raiseFault.faultStream <| .ite h.raiseFault h.raiseFault.faultRec.tally.memWrite.tick
  · exact h

theorem Kept.rebuildKept (h : Kept K s) {i} : Kept K (s.rebuildKept i) := by
  unfold State.rebuildKept
  split
  · exact h
  · exact h.foldl fun _ _ h => h.rebuildCache

theorem Kept.startPrompt (h : Kept K s) {i} : Kept K (s.startPrompt i) := by
  unfold State.startPrompt
  extract_lets s₁ draft kept lack
  have h₁ : Kept K s₁ := (Kept.ite h h.releaseDraft).rebuildKept
  refine .ite h₁ ?_
  split
  · exact h₁
  · rename_i heq
    have h₂ := h₁.reserve heq
    exact h₂.countWait.queueInput.modStream.setState.parkLow

theorem Kept.writeMap (h : Kept K s) {fk p slots} : Kept K (s.writeMap fk p slots) := by
  unfold State.writeMap
  refine h.foldl fun _ _ h => ?_
  split
  · exact h
  · exact h.landWrite

theorem Kept.writeMaps (h : Kept K s) {job} : Kept K (s.writeMaps job) := by
  unfold State.writeMaps
  split
  · exact h
  · exact h.foldl fun _ _ h => h.writeMap

theorem Kept.addStep (h : Kept K s) {job model streams} : Kept K (s.addStep job model streams) := by
  unfold State.addStep
  exact .ite (h.foldl fun _ _ h => h.cacheEntry) ((h.foldl fun _ _ h => h.cacheEntry).foldl fun _ _ h => h.growTree).same.writeMaps

theorem Kept.openStep (h : Kept K s) {job ripe} : Kept K (s.openStep job ripe) := by
  unfold State.openStep
  dsimp only
  refine .ite h ?_
  split
  · exact h
  · exact .ite (h.addStep.ite h.same) <| .ite (h.startPrompt.addStep.ite h.startPrompt) h.addStep

/-! ### Commits (Machine/Commit.lean) -/

theorem Kept.pauseCache (h : Kept K s) {i} : Kept K (s.pauseCache i) := by
  unfold State.pauseCache
  dsimp only
  split
  · exact h
  · exact .ite h.poolFree.modStream.startPark h.poolFree.modStream.parkLow

theorem Kept.markLate (h : Kept K s) {i} : Kept K (s.markLate i) := by
  unfold State.markLate
  exact h.putSw.putSw.tally.logLimited

theorem Kept.dropResult (h : Kept K s) {i} : Kept K (s.dropResult i) := h.putSw.tally

theorem Kept.recommend (h : Kept K s) {i} : Kept K (s.recommend i) := by
  unfold State.recommend
  dsimp only
  split
  · exact h
  · split
    · exact h
    · exact h.balSend

theorem Kept.stampCommit (h : Kept K s) {i} : Kept K (s.stampCommit i) := by
  unfold State.stampCommit
  exact .ite h.putSw.putSw.putSw h.putSw.putSw

theorem Kept.commitField (h : Kept K s) {i} : Kept K (s.commitField i) := by
  unfold State.commitField
  extract_lets late _ _ _ _ s₁ s₂
  have h₁ : Kept K s₁ := (h.putSw.markLate.ite h.putSw).putSw.stampCommit.flushWords.flushWords
  exact (h₁.dropResult.ite h₁.recommend).notify.fieldStepEnd

theorem Kept.logTokens (h : Kept K s) {i n} : Kept K (s.logTokens i n) := by
  unfold State.logTokens
  exact .ite h <| h.foldl fun _ _ h => h.devWrite

theorem Kept.keepRows (h : Kept K s) {hall m pos blocks} : Kept K (s.keepRows hall m pos blocks) := by
  unfold State.keepRows
  dsimp only
  split
  · exact h
  · exact (h.foldl fun _ _ h => h.memWrite.memWrite).tick

theorem Kept.scratchCopy (h : Kept K s) {i pos} : Kept K (s.scratchCopy i pos) := by
  unfold State.scratchCopy
  dsimp only
  split
  · exact h
  · split
    · exact h.keepRows
    · exact h.keepRows.keepRows

theorem Kept.commitRequest (h : Kept K s) {i} : Kept K (s.commitRequest i) := by
  unfold State.commitRequest
  extract_lets late c s₁ s₂ s₃ s₄ d s₅ fed given f s₆ s₇ s₈ cancel s₉
  have h₁ : Kept K s₁ := h.putSw.ite h
  have h₄ : Kept K s₄ := (h₁.markLate.ite h₁).putSw.stampCommit
  have h₆ : Kept K s₆ := (h₄.ite ((((h₄.tally (k := Od.specSteps)).tally (k := Od.candidatesChecked)).tally (k := Od.candidatesAccepted)).tally
    (k := Od.scratchCopies))).modStream.logTokens
  have h₈ : Kept K s₈ := (h₆.ite h₆.scratchCopy).flushLocal
  have h₉ : Kept K s₉ := h₈.setState.ite h₈.flushWords
  refine .ite h.markLate.dropResult.endStream <| .ite ?_ <| .ite h₈.endStream h₉.notify
  exact .ite h₈.putSw.tally.endStream <| .ite h₈.leaveSteps.pauseCache.endStream h₈.endStream

theorem Kept.waitForInput (h : Kept K s) {i} : Kept K (s.waitForInput i) := h.modStream.setState

theorem Kept.suspendJob (h : Kept K s) {job} : Kept K (s.suspendJob job) := by
  unfold State.suspendJob
  exact h.foldl fun _ _ h => .ite (h.modProg.tally.setFlight.ite h.modProg.tally) h

theorem Kept.commitStep (h : Kept K s) {x} : Kept K (s.commitStep x) := by
  unfold State.commitStep
  extract_lets gen s₁ s₂ s₃ s₄ s₅ s₆ stuck
  have h₃ : Kept K s₃ :=
    (((h.tally (k := Od.genSteps)).tally (k := Od.batchSlotsFilled)).ite h).dropStep.foldl fun _ _ h => .ite h.commitField <| .ite h.commitRequest h
  have h₄ : Kept K s₄ := h₃.foldl fun _ _ h => .ite h.endStream h
  have h₅ : Kept K s₅ := by
    unfold s₅
    split
    · exact h₄.releaseBarrier
    · exact h₄
  have h₆ : Kept K s₆ := h₅.openStep
  split
  · exact h₅.replaceJob
  · exact .ite (.ite h₆ (h₆.foldl fun _ _ h => h.waitForInput).suspendJob) h₅

theorem Kept.tryRelease (h : Kept K s) {job} : Kept K (s.tryRelease job) := by
  unfold State.tryRelease
  dsimp only
  split
  · exact h
  · refine .ite h ?_
    split
    · exact (h.foldl fun _ _ h => h.moveTo).modStep
    · exact .ite h.commitStep h
    · exact h.commitStep

/-! ### The sequencer (Machine/Seq.lean) -/

theorem Kept.countRefusal (h : Kept K s) {code} : Kept K (s.countRefusal code) :=
  .ite h.tally <| .ite h.tally <| .ite h.tally <| .ite h.tally <| .ite h.tally <| .ite h.tally h

theorem Kept.refuseOp (h : Kept K s) {fk slot code word} : Kept K (s.refuseOp fk slot code word) := h.countRefusal.programStop

/-! ### Movers (Machine/Movers.lean) -/

theorem Kept.retryReleases (h : Kept K s) : Kept K s.retryReleases := h.foldl fun _ _ h => h.tryRelease

end Sys2Proof.Machine
end

section
/-!
SUPPORT. What every function of the model keeps: the queue of waiting commands, which none of them touches, and the canonical form of device
memory (R254, R261), in the same manner; and the statement that every step keeps them.
-/

set_option Elab.async false

namespace Sys2Proof.Machine

/-- A part of a map with rising keys has rising keys. -/
theorem kSortedFrom_filter {α : Type} (p : Nat × α → Bool) {lo : Nat} {m : KMap α} (hm : kSortedFrom lo m = true) :
    kSortedFrom lo (m.filter p) = true := by
  induction m generalizing lo with
  | nil => rfl
  | cons e t ih =>
    obtain ⟨k, v⟩ := e
    simp only [kSortedFrom, Bool.and_eq_true, decide_eq_true_eq] at hm
    obtain ⟨hk, ht⟩ := hm
    rw [List.filter_cons]
    split
    · simp [kSortedFrom, hk, ih ht]
    · exact kSortedFrom_mono (by omega) (ih ht)

/-- A part of a canonical map is canonical. -/
theorem kwf_filter {α : Type} [DecidableEq α] (d : α) (p : Nat × α → Bool) {m : KMap α} (hm : kwf d m = true) : kwf d (m.filter p) = true := by
  simp only [kwf, Bool.and_eq_true] at hm ⊢
  obtain ⟨hs, ha⟩ := hm
  refine ⟨kSortedFrom_filter p hs, ?_⟩
  rw [List.all_eq_true] at ha ⊢
  exact fun e he => ha e (List.mem_of_mem_filter he)

/-! ### The queue and the form of memory -/

/-- The queue is `q`, and device memory is in its canonical form (R254, R261). -/
def canon (q : List Instr) : Keeper where
  holds s := s.pending = q ∧ Memory.wf s.mem.cells = true
  cells h hp hm _ _ _ := ⟨hp.trans h.1, hm h.2⟩
  entry h _ _ := h
  queued h _ := h
  abandoned h _ := h
  dropped h := h

/-- The state that a command answers with, where it answers one, is kept. -/
def KeptBy (q : List Instr) (r : Result) : Prop := ∀ t, r = .next t → Kept (canon q) t

/-- Where a fetch of planes answers with a state, it is kept. -/
def KeptLoad (q : List Instr) : Load → Prop
  | .stop _ => True
  | .hold s => Kept (canon q) s
  | .ok s _ => Kept (canon q) s

/-- The state that an accumulate comes to before its sums enter a tile is kept. -/
def KeptAcc (q : List Instr) : AccRes → Prop
  | .stop s _ => Kept (canon q) s
  | .hold s => Kept (canon q) s
  | .ok s _ => Kept (canon q) s

/-- The state that a rerun comes to is kept. -/
def KeptAgain (q : List Instr) : Again → Prop
  | .ok s => Kept (canon q) s
  | .bad s => Kept (canon q) s
  | .stop s _ => Kept (canon q) s

variable {q : List Instr} {s t : State}

/-- A change of anything but the queue and the bytes of memory. -/
theorem Kept.upd (h : Kept (canon q) s) (hp : t.pending = s.pending := by rfl) (hm : t.mem.cells = s.mem.cells := by rfl) : Kept (canon q) t := by
  obtain ⟨hq, hw⟩ := h
  exact ⟨hp.trans hq, hm ▸ hw⟩

/-- A change of the bytes of memory that keeps their canonical form, and of anything but the queue. -/
theorem Kept.updCells (h : Kept (canon q) s) (hm : Memory.wf s.mem.cells = true → Memory.wf t.mem.cells = true) (hp : t.pending = s.pending := by rfl) :
    
    Kept (canon q) t := by
  obtain ⟨hq, hw⟩ := h
  exact ⟨hp.trans hq, hm hw⟩

theorem Kept.next (h : Kept (canon q) s) : KeptBy q (.next s) := by
  intro t ht
  cases ht
  exact h

theorem KeptBy.refused {r : Refusal} : KeptBy q (.refused r) := fun _ ht => Host.Outcome.noConfusion rfl rfl rfl (heq_of_eq ht)

theorem KeptBy.ite {c : Prop} [Decidable c] {x y : Result} (hx : KeptBy q x) (hy : KeptBy q y) : KeptBy q (if c then x else y) := by
  split
  · exact hx
  · exact hy

/-! ### Dictionary values, messages, the log (Machine/Ops.lean) -/

theorem Kept.odPut (h : Kept (canon q) s) {k v} : Kept (canon q) (s.odPut k v) := by
  unfold State.odPut
  exact h.upd

theorem Kept.count (h : Kept (canon q) s) {k n} : Kept (canon q) (s.count k n) := h.odPut

theorem Kept.counts (h : Kept (canon q) s) {l} : Kept (canon q) (s.counts l) := h.foldl fun _ _ h => h.count

theorem Kept.domPut (h : Kept (canon q) s) {k v} : Kept (canon q) (s.domPut k v) := by
  unfold State.domPut
  exact h.upd

theorem Kept.rolePut (h : Kept (canon q) s) {r k v} : Kept (canon q) (s.rolePut r k v) := by
  unfold State.rolePut
  exact h.upd

theorem Kept.emits (h : Kept (canon q) s) {ms} : Kept (canon q) (s.emits ms) := h.upd

theorem Kept.logIntervalOver (h : Kept (canon q) s) {code subject} : Kept (canon q) (s.logIntervalOver code subject) := by
  unfold State.logIntervalOver
  dsimp only
  split
  · exact h
  · exact .ite h.upd h.upd.record

/-! ### Translation, Movers, page requests (Machine/Xlate.lean) -/

theorem Kept.translate (h : Kept (canon q) s) {hall tn va write} : Kept (canon q) (s.translate hall tn va write).2 := by
  unfold State.translate
  refine .iteSnd h.count <| .iteSnd h.count ?_
  extract_lets perm keep s₁ r
  have hperm : ∀ {t : State} {r}, Kept (canon q) t → Kept (canon q) (perm r t).2 := by
    intro t r h
    cases r with
    | ok _ _ e => exact .iteSnd h h.count
    | fault c => exact h.count
    | page => exact h
  have h₁ : Kept (canon q) s₁ := h.count
  split
  · exact hperm h.count
  · split
    · rename_i heq
      have h₂ := hperm (r := r) h₁
      rw [heq] at h₂
      exact h₂.upd
    · exact hperm h₁

theorem Kept.dropXlate (h : Kept (canon q) s) {tn p} : Kept (canon q) (s.dropXlate tn p) := by
  unfold State.dropXlate
  exact h.upd

theorem Kept.modDesc (h : Kept (canon q) s) {id f} : Kept (canon q) (s.modDesc id f) := by
  unfold State.modDesc
  exact h.upd

theorem Kept.logRequest (h : Kept (canon q) s) : Kept (canon q) s.logRequest := by
  unfold State.logRequest
  dsimp only
  refine .ite h ?_
  split
  · exact h
  · exact h.upd.odPut.hostActs

theorem Kept.logRequests {n} (h : Kept (canon q) s) : Kept (canon q) (logRequests n s) := by
  induction n generalizing s with
  | zero => exact h
  | succ n ih => exact ih h.logRequest

theorem Kept.openRequest (h : Kept (canon q) s) {tn page write stream id} : Kept (canon q) (s.openRequest tn page write stream id) := by
  unfold State.openRequest
  exact .ite h.upd <| .ite h.upd.logRequests.count h.upd.logRequests

/-! ### Streams (Machine/Streams.lean) -/

theorem Kept.readTable (h : Kept (canon q) s) : Kept (canon q) s.readTable := by
  unfold State.readTable
  exact h.upd.foldl fun _ _ h => h.setStream

theorem Kept.clogDrain {n} (h : Kept (canon q) s) : Kept (canon q) (clogDrain n s) := by
  induction n generalizing s with
  | zero => exact h
  | succ n ih =>
    unfold Machine.clogDrain
    split
    · exact h
    · exact .ite h (ih h.upd.clogWrite)

/-! ### The Balustrade and the cells (Machine/FieldOps.lean) -/

theorem Kept.unbindCell (h : Kept (canon q) s) {c} : Kept (canon q) (s.unbindCell c) := .ite h.modCell h.cellLeaves

/-! ### Safe Stop and episodes (Machine/Errors.lean) -/

theorem Kept.closeEpisode (h : Kept (canon q) s) {n} : Kept (canon q) (s.closeEpisode n) := by
  unfold State.closeEpisode
  exact h.upd

theorem Kept.fatal (h : Kept (canon q) s) {ev} : Kept (canon q) (s.fatal ev) := h.logEv.enterSafeStop

theorem Kept.retireRow (h : Kept (canon q) s) {a} : Kept (canon q) (s.retireRow a) := by
  unfold State.retireRow
  dsimp only
  refine .ite ?_ <| .ite h h.upd.logEv
  split
  · exact h.upd.count.odPut.logEv
  · exact .ite h h.upd.logEv

/-! ### Landings (Machine/Landing.lean) -/

theorem Kept.setLsb (h : Kept (canon q) s) {b e} : Kept (canon q) (s.setLsb b e) := h.setHandle

theorem Kept.writeRow (h : Kept (canon q) s) {b r parts poison tenant} :
    Kept (canon q) (s.writeRow b r parts poison tenant) := h.foldl fun _ _ h => h.landWrite

/-! ### Tiles and the drain pipeline (Machine/Foot.lean) -/

theorem Kept.setTile (h : Kept (canon q) s) {k i tn} : Kept (canon q) (s.setTile k i tn) := by
  unfold State.setTile
  exact h.setFlight

theorem Kept.accumulate (h : Kept (canon q) s) {f us x r} (hr : s.accumulate f us x = some r) : Kept (canon q) r.1 := by
  unfold State.accumulate at hr
  dsimp only at hr
  split at hr
  · cases hr
  · cases hr
    exact .ite h.setTile.counts.logEv h.setTile.counts

theorem Kept.drawRequest (h : Kept (canon q) s) {hall g w n} : Kept (canon q) (s.drawRequest hall g w n).1 := by
  unfold State.drawRequest
  exact h.upd.count

/-! ### Jobs and program stops (Machine/Jobs.lean) -/

theorem Kept.jobStopAll (h : Kept (canon q) s) {job code} : Kept (canon q) (s.jobStopAll job code) := by
  unfold State.jobStopAll
  exact (h.foldl fun _ _ h => h.stopProg).endJob

/-! ### Residence and copies (Machine/Install.lean) -/

theorem Kept.dropCopy (h : Kept (canon q) s) {c sl} : Kept (canon q) (s.dropCopy c sl) := by
  unfold State.dropCopy
  exact h.setLanding

/-! ### Offers and steps (Machine/Offer.lean) -/

theorem Kept.continueStream (h : Kept (canon q) s) {i} : Kept (canon q) (s.continueStream i) := by
  unfold State.continueStream
  exact .ite (h.queueInput.ite h).modStream.setState <| .ite h.queueInput h

/-! ### Commits (Machine/Commit.lean) -/

theorem Kept.abandonPoisoned (h : Kept (canon q) s) {x} : Kept (canon q) (s.abandonPoisoned x) := by
  unfold State.abandonPoisoned
  extract_lets eps s₁ live _ newel s₂ _ s₃ s₄ s₅
  have h₁ : Kept (canon q) s₁ := h.logEv.count
  clear_value s₁
  have h₂ : Kept (canon q) s₂ := h₁.upd
  have h₃ : Kept (canon q) s₃ := h₂.clearJob.dropStep.takeIdleCancels.setJob
  have h₅ : Kept (canon q) s₅ := (h₃.foldl fun _ _ h => h.rebuildCache).recordAbandon
  exact h₅.foldl fun _ _ h => .ite h <| .ite h.modStream h.modStream.faultStream

theorem Kept.queueOutput (h : Kept (canon q) s) {i} : Kept (canon q) (s.queueOutput i).2 := by
  unfold State.queueOutput
  exact .iteSnd h h.devWrite.tick.addDesc

theorem Kept.stepArrived (h : Kept (canon q) s) {job bid use hall} : Kept (canon q) (s.stepArrived job bid use hall) := by
  unfold State.stepArrived
  split
  · exact h
  · rename_i x _
    refine .ite h.abandonPoisoned ?_
    dsimp only
    have hq := foldl_keeps (fun r : List Nat × State => Kept (canon q) r.2) (fun r i => (r.1 ++ (r.2.queueOutput i).1.toList, (r.2.queueOutput i).2))
      (fun _ _ h => h.queueOutput) x.live (b := ([], s)) h
    exact Kept.tryRelease (Kept.modStep hq)

theorem Kept.outputWaits (h : Kept (canon q) s) {i id} : Kept (canon q) (s.outputWaits i id) := by
  unfold State.outputWaits
  dsimp only
  split
  · exact h
  · exact h.modStep.modStream.setState.tryRelease

theorem Kept.outputDone (h : Kept (canon q) s) {id} : Kept (canon q) (s.outputDone id) := by
  unfold State.outputDone
  split
  · exact h
  · exact h.modStep.tryRelease

/-! ### Bit errors, fences, lost models (Machine/Recovery.lean) -/

theorem Kept.markBlock (h : Kept (canon q) s) {m sl b} : Kept (canon q) (s.markBlock m sl b) := by
  unfold State.markBlock
  dsimp only
  exact h.memMark.foldl fun _ _ h => h.setLanding

theorem Kept.weightPoisoned (h : Kept (canon q) s) {x} : Kept (canon q) (s.weightPoisoned x) := by
  unfold State.weightPoisoned
  dsimp only
  split
  · exact h
  · refine Kept.foldl ?_ fun _ _ h => h.raiseFault
    split
    · exact h.markBlock.modEpisode
    · exact h.markBlock

theorem Kept.fault (h : Kept (canon q) s) {ev x model} : Kept (canon q) (s.fault ev x model) := by
  unfold State.fault
  exact .ite h.raiseFault.weightPoisoned h.raiseFault

theorem Kept.withdrawMezz (h : Kept (canon q) s) {hall} : Kept (canon q) (s.withdrawMezz hall) := by
  unfold State.withdrawMezz
  exact h.odPut.fault.closeSettled

theorem Kept.withdrawStack (h : Kept (canon q) s) {n} : Kept (canon q) (s.withdrawStack n) := by
  unfold State.withdrawStack
  exact h.odPut.fault

theorem Kept.losePacked (h : Kept (canon q) s) {hall} : Kept (canon q) (s.losePacked hall) := by
  unfold State.losePacked
  dsimp only
  refine h.foldl fun _ _ h => ?_
  split
  · exact h
  · exact .ite h <| .ite h.faultRec.endStream <| .ite h.modStream.count h

theorem Kept.mediaEvent (h : Kept (canon q) s) {a} : Kept (canon q) (s.mediaEvent a) := by
  unfold State.mediaEvent
  split
  · exact h
  · exact h.addEvent

theorem Kept.write (h : Kept (canon q) s) {a d p} : Kept (canon q) { s with mem := s.mem.write a d p } :=
  h.updCells (s.mem.write_wf a d p)

theorem Kept.uncorrectable (h : Kept (canon q) s) {a bs scrub} : Kept (canon q) (s.uncorrectable a bs scrub) := by
  unfold State.uncorrectable
  extract_lets d s₁ s₂
  have h₂ : Kept (canon q) s₂ := h.write.count
  clear_value s₂
  split
  extract_lets ev s₃ s₄ ts _ s₅
  have h₄ : Kept (canon q) s₄ := h₂.fault.mediaEvent
  clear_value s₄
  have h₅ : Kept (canon q) s₅ := h₄.upd
  exact .ite h₄ <| .ite h₅.withdrawMezz.losePacked h₅

theorem Kept.spareLane (h : Kept (canon q) s) {l} : Kept (canon q) (s.spareLane l) := by
  unfold State.spareLane
  dsimp only
  split
  · exact h.upd.count.logEv
  · exact .ite h h.upd.logEv

theorem Kept.countLanes (h : Kept (canon q) s) {a bs} : Kept (canon q) (s.countLanes a bs) := by
  unfold State.countLanes
  exact .ite h <| h.foldl fun _ _ h => .ite h.upd.spareLane h.upd

theorem Kept.corrected (h : Kept (canon q) s) {a bs} : Kept (canon q) (s.corrected a bs).2 := by
  unfold State.corrected
  exact h.count.countLanes.upd

theorem Kept.decodeWord (h : Kept (canon q) s) {e scrub} : Kept (canon q) (s.decodeWord e scrub).2 := by
  unfold State.decodeWord
  extract_lets a bs c flip
  have hflip : ∀ {k}, Kept (canon q) (flip k s) := h.updCells (putCells_wf a _)
  exact .iteSnd h <| .iteSnd h.corrected <| .iteSnd h.uncorrectable <| .iteSnd h.tick.uncorrectable <| .iteSnd hflip.tick.corrected hflip.tick

theorem Kept.wordErrors (h : Kept (canon q) s) {errs e scrub} : Kept (canon q) (s.wordErrors errs e scrub) := by
  unfold State.wordErrors
  dsimp only
  split
  · rename_i _ t heq
    have h := Kept.of_snd heq h.decodeWord
    exact (h.ite (h.foldl fun _ _ h => h.decodeWord)).retireRow
  · rename_i _ t heq
    have h := Kept.of_snd heq h.decodeWord
    exact h

theorem Kept.bitErrors (h : Kept (canon q) s) {errs reads scrub} : Kept (canon q) (s.bitErrors errs reads scrub) := h.foldl fun _ _ h => h.wordErrors

theorem Kept.memRead (h : Kept (canon q) s) {a n errs scrub} : Kept (canon q) (s.memRead a n errs scrub).2.2 := by
  unfold State.memRead
  exact h.count.bitErrors

theorem Kept.partErrors (h : Kept (canon q) s) {errs part} : Kept (canon q) (s.partErrors errs part) := by
  unfold State.partErrors
  exact h.foldl fun _ _ h => .ite h.wordErrors h.wordErrors.count

theorem Kept.copyRegions (h : Kept (canon q) s) {k k' hs} : Kept (canon q) (s.copyRegions k k' hs) := by
  unfold State.copyRegions
  exact h.foldl fun _ _ h => .ite h <| .ite h.setHandle h.setHandle.setLanding.counts

theorem Kept.moveKeys (h : Kept (canon q) s) {k j old} : Kept (canon q) (s.moveKeys k j old) := by
  unfold State.moveKeys
  exact h.upd.foldl fun _ _ h => h.modProg

theorem Kept.reissue (h : Kept (canon q) s) {k} : Kept (canon q) (s.reissue k) := by
  unfold State.reissue
  extract_lets x
  refine .ite h ?_
  split
  · extract_lets s₁ y s₂ _ s₃ b _ s₄ s₅ s₆
    have h₃ : Kept (canon q) s₃ := (h.foldl fun _ _ h => h.copyRegions).setFlight.setFlight
    clear_value s₃
    have h₄ : Kept (canon q) s₄ := h₃.upd
    exact (h₄.abandonDescs.foldl fun _ _ h => h.moveCopies).moveKeys.count
  · exact h.foldl fun _ _ h => h.programStop

theorem Kept.fence (h : Kept (canon q) s) {k} : Kept (canon q) (s.fence k) := by
  unfold State.fence
  dsimp only
  refine .ite h.odPut.setFlight.fault <| .ite ?_ h.odPut.setFlight.fault.reissue
  split
  · exact h.odPut.setFlight.fault.reissue.closeEpisode
  · exact h.odPut.setFlight.fault.reissue

theorem Kept.releaseShares (h : Kept (canon q) s) {m x} : Kept (canon q) (s.releaseShares m x) := by
  unfold State.releaseShares
  exact h.foldl fun _ _ h => h.sendFrame

theorem Kept.releaseModel (h : Kept (canon q) s) {m} : Kept (canon q) (s.releaseModel m) := by
  unfold State.releaseModel
  extract_lets hs hs' pools s₁ s₂
  have h₁ : Kept (canon q) s₁ := by
    change Kept (canon q) (((kfind m s.serve.models).map (s.releaseShares m)).getD s)
    cases kfind m s.serve.models with
    | none => exact h
    | some x => exact h.releaseShares
  have h₂ : Kept (canon q) s₂ := h₁.foldl fun _ _ h => h.dropCopy
  exact h₂.upd

theorem Kept.withdrawModel (h : Kept (canon q) s) {m x} : Kept (canon q) (s.withdrawModel m x) := by
  unfold State.withdrawModel
  extract_lets s₁ s₂ s₃ lost s₄ s₅
  have h₂ : Kept (canon q) s₂ := h.fault.foldl fun _ _ h => h.jobStopAll
  have h₃ : Kept (canon q) s₃ := h₂.foldl fun _ _ h => .ite h <| .ite h.faultStream <| .ite h.releaseDraft.modStream.faultRec.count h
  have h₄ : Kept (canon q) s₄ := h₃.foldl fun _ _ h => .ite h.cellLeaves h.aggRefill.modCell
  have h₅ : Kept (canon q) s₅ := h₄.releaseModel.count
  exact .ite h.fault <| .ite h₅ h₅.retryRefused

/-! ### Submissions, cancels, the stream table (Machine/Watch.lean) -/

theorem Kept.admitStream (h : Kept (canon q) s) {i} : Kept (canon q) (s.admitStream i) := by
  unfold State.admitStream
  exact .ite h.count.faultStream <| .ite h <| .ite h.modStream h.modStream.logEv.faultRec.count

theorem Kept.accept (h : Kept (canon q) s) {i w} : Kept (canon q) (s.accept i w) := by
  unfold State.accept
  exact ((h.ite h.releaseCache).count.ite (h.ite h.releaseCache)).modStream.count.setState.admitStream

theorem Kept.attempt (h : Kept (canon q) s) {i w} : Kept (canon q) (s.attempt i w) := by
  unfold State.attempt
  exact .ite h.putSw.putSw.count.putSw.faultStream <| .ite h.putSw.putSw.counts.endStream h.accept

theorem Kept.takeCancel (h : Kept (canon q) s) {i} : Kept (canon q) (s.takeCancel i) := by
  unfold State.takeCancel
  exact .ite h.putSw.count.endStream <| .ite h.putSw.count.endStream h.putSw.count

theorem Kept.maskedWrite (h : Kept (canon q) s) {a mask d poison} : Kept (canon q) (s.maskedWrite a mask d poison) := by
  unfold State.maskedWrite
  exact .ite h <| .ite h.count <| h.foldl fun _ _ h => .ite h.memWrite <| h.foldl fun _ _ h => h.memWrite

theorem Kept.controlWrite (h : Kept (canon q) s) {i v} : Kept (canon q) (s.controlWrite i v) := by
  unfold State.controlWrite
  exact .ite h.count <| .ite (h.putSw.count.ite h.putSw) <| .ite h.takeCancel h

theorem Kept.hostWrite (h : Kept (canon q) s) {i line mask d poison} : Kept (canon q) (s.hostWrite i line mask d poison) := by
  unfold State.hostWrite
  exact h.maskedWrite.modStream

theorem Kept.tableWrite (h : Kept (canon q) s) {a mask d poison free} : Kept (canon q) (s.tableWrite a mask d poison free) := by
  unfold State.tableWrite
  extract_lets o i e st v s₁ s₂ s₃ owned s₄
  have h₂ : Kept (canon q) s₂ := h.hostWrite.memWrite.putSw
  have h₃ : Kept (canon q) s₃ := h.controlWrite
  split
  · exact .ite h.hostWrite <| .ite (.ite (h₂.takeCancel.ite h₂) <| .ite h₂.count <| .ite h₂.count h₂.attempt) h₃.maskedWrite
  · exact (h.count.ite h).hostWrite
  · exact .ite h.count h

theorem Kept.outsideWrite (h : Kept (canon q) s) {a d poison free} : Kept (canon q) (s.outsideWrite a d poison free) := by
  unfold State.outsideWrite
  exact h.foldl fun _ _ h => .ite h.tableWrite h.memWrite

/-! ### Loading programs (Machine/Loader.lean) -/

theorem Kept.loadRefused (h : Kept (canon q) s) {code word} : Kept (canon q) (s.loadRefused code word) := by
  unfold State.loadRefused
  exact .ite h.count.odPut.odPut.count <| .ite h.count.odPut.odPut.count <| .ite h.count.odPut.odPut.count h.count.odPut.odPut

theorem Kept.execProgramLoad (h : Kept (canon q) s) {f addr len} : KeptBy q (execProgramLoad f addr len s) := by
  unfold Machine.execProgramLoad
  refine .ite (.refused) <| .ite h.next ?_
  split
  · exact h.loadRefused.next
  · exact h.install.next

theorem Kept.overwriteFor (h : Kept (canon q) s) {l tenant me} : Kept (canon q) (s.overwriteFor l tenant me) := by
  unfold State.overwriteFor
  exact .ite h h.setLanding.count

theorem Kept.startTask (h : Kept (canon q) s) {fk slot cls} : Kept (canon q) (s.startTask fk slot cls) := by
  unfold State.startTask
  dsimp only
  split
  · exact h
  · exact (h.overwriteFor.overwriteFor.foldl fun _ _ h => h.setHandle).upd.modProg.setFlight

/-! ### The sequencer (Machine/Seq.lean) -/

theorem Kept.opDone (h : Kept (canon q) s) {c} : Kept (canon q) (s.opDone c) := h.count.modProg

theorem Kept.opOpen (h : Kept (canon q) s) {c} : Kept (canon q) (s.opOpen c) := h.count.modProg

theorem Kept.issueOp (h : Kept (canon q) s) {f is body} (hb : ∀ c t, Kept (canon q) t → Kept (canon q) (body c t).1) :
    Kept (canon q) (s.issueOp f is body) := by
  unfold State.issueOp
  dsimp only
  split
  · exact h
  · exact h.refuseOp
  · rename_i c _
    have hr : Kept (canon q) (if c.empty then (s, .done) else body c s).1 := .iteFst h (hb c s h)
    split <;> rename_i heq <;> rw [heq] at hr
    · exact hr
    · exact hr.refuseOp
    · exact hr.opDone
    · exact hr.opOpen

theorem Kept.execNop (h : Kept (canon q) s) {f} : KeptBy q (execNop f s) := .ite (.refused) (h.issueOp (fun _ _ h => h)).next

theorem Kept.execRepeatOp (h : Kept (canon q) s) {f} : KeptBy q (execRepeatOp f s) := by
  unfold Machine.execRepeatOp
  dsimp only
  refine .ite (.refused) ?_
  split
  · exact h.next
  · exact h.refuseOp.next
  · exact h.count.modProg.next

theorem Kept.execWaitOp (h : Kept (canon q) s) {f} : KeptBy q (execWaitOp f s) := .ite (.refused) (h.issueOp (fun _ _ h => .iteFst h h)).next

theorem Kept.endProgram (h : Kept (canon q) s) {c} : Kept (canon q) (s.endProgram c) := by
  unfold State.endProgram
  dsimp only
  refine .ite (h.count.setFlight.modProg.ite h.count.setFlight.unloadProg) ?_
  split
  · exact .ite (h.count.setFlight.modProg.ite h.count.setFlight.unloadProg).dropStep.takeIdleCancels <|
      .ite h.count.setFlight.modProg h.count.setFlight.unloadProg
  · exact .ite h.count.setFlight.modProg h.count.setFlight.unloadProg

theorem Kept.execEndOp (h : Kept (canon q) s) {f} : KeptBy q (execEndOp f s) := by
  unfold Machine.execEndOp
  dsimp only
  refine .ite (.refused) ?_
  split
  · exact h.next
  · exact h.refuseOp.next
  · exact .ite h.endProgram.next h.next

theorem Kept.execOperationEnd (h : Kept (canon q) s) {f op} : KeptBy q (execOperationEnd f op s) := by
  unfold Machine.execOperationEnd
  dsimp only
  refine .ite (.refused) ?_
  split
  · exact h.next
  · split
    · exact h.next
    · exact .ite h.next h.modProg.next

theorem Kept.holdForInput (h : Kept (canon q) s) {job} : Kept (canon q) (s.holdForInput job).2 := by
  unfold State.holdForInput
  split
  · exact h
  · refine foldl_keeps (fun r : Bool × State => Kept (canon q) r.2) (fun r i => if r.2.inputWaits i then (true, r.2.waitForInput i) else r) ?_ _ h
    intro r i hr
    split
    · dsimp only
      exact Kept.waitForInput hr
    · exact hr

theorem Kept.suspendProg (h : Kept (canon q) s) {fk slot} : Kept (canon q) (s.suspendProg fk slot) := by
  unfold State.suspendProg
  exact .ite h.modProg.count.setFlight h.modProg.count

theorem Kept.execPreemptionPoint (h : Kept (canon q) s) {f} : KeptBy q (execPreemptionPoint f s) := by
  unfold Machine.execPreemptionPoint
  dsimp only
  refine .ite (.refused) ?_
  split
  · exact h.next
  · exact .ite h.next <| .ite h.modProg.next <| .ite h.setFlight.modProg.holdForInput.suspendProg.next h.setFlight.modProg.holdForInput.modProg.next

theorem Kept.holdShare (h : Kept (canon q) s) {c} : Kept (canon q) (s.holdShare c) := by
  unfold State.holdShare
  exact .ite h.upd h

theorem Kept.startProgram (h : Kept (canon q) s) {fk slot} : Kept (canon q) (s.startProgram fk slot) := by
  unfold State.startProgram
  dsimp only
  split
  · exact h
  · exact h.startTask.openStep.writeMaps.modProg

theorem Kept.execProgramStart (h : Kept (canon q) s) {f slot} :
    KeptBy q (execProgramStart f slot s) := .ite (.refused) <| .ite h.startProgram.next h.next

theorem Kept.resumeProgram (h : Kept (canon q) s) {fk slot} : Kept (canon q) (s.resumeProgram fk slot) := by
  unfold State.resumeProgram
  dsimp only
  split
  · exact h.setFlight.modProg
  · exact h.setFlight.modProg.openStep.writeMaps

theorem Kept.execProgramResume (h : Kept (canon q) s) {f slot} :
    KeptBy q (execProgramResume f slot s) := .ite (.refused) <| .ite h.resumeProgram.next h.next

theorem Kept.giveFlight (h : Kept (canon q) s) {fk} : Kept (canon q) (s.giveFlight fk) := by
  unfold State.giveFlight
  split
  · exact h
  · exact .ite h.startProgram <| .ite h.resumeProgram h

theorem Kept.execFlightOffer (h : Kept (canon q) s) {f} : KeptBy q (execFlightOffer f s) := by
  unfold Machine.execFlightOffer
  dsimp only
  refine .ite (.refused) ?_
  split
  · exact h.giveFlight.next
  · exact .ite h.next <| .ite h.suspendProg.giveFlight.next h.modProg.next

/-! ### Barriers (Machine/Barriers.lean) -/

theorem Kept.barrierFull (h : Kept (canon q) s) {job bid use scope hall} : Kept (canon q) (s.barrierFull job bid use scope hall) := by
  unfold State.barrierFull
  dsimp only
  split
  · exact h.galRelease
  · exact .ite h.stepArrived <| .ite h.releaseBarrier.openStep h.releaseBarrier

theorem Kept.gather {n} (h : Kept (canon q) s) {job bid use scope level src} : Kept (canon q) (State.gather n s job bid use scope level src) := by
  induction n generalizing s level src with
  | zero => exact h
  | succ n ih =>
    unfold State.gather
    dsimp only
    refine .ite ?_ h.upd
    refine .ite h.upd.barrierFull ?_
    split
    · exact h.upd
    · exact .ite (ih h.upd) h.upd.sendFrame

theorem Kept.shareArrived (h : Kept (canon q) s) {job bid use scope} : Kept (canon q) (s.shareArrived job bid use scope) := by
  unfold State.shareArrived
  refine .ite h.barrierFull ?_
  split
  · exact h
  · exact .ite h.gather h.sendFrame

theorem Kept.checkBarrier (h : Kept (canon q) s) {b} : Kept (canon q) (s.checkBarrier b) := by
  unfold State.checkBarrier
  exact .ite (h.barrierFull.ite h) <| .ite h.shareArrived h

theorem Kept.skipExpert (h : Kept (canon q) s) {job key} : Kept (canon q) (s.skipExpert job key) := by
  unfold State.skipExpert
  exact .ite h <| h.upd.count.foldl fun _ _ h => h.checkBarrier

theorem Kept.arrive (h : Kept (canon q) s) {c bid isStep} : Kept (canon q) (s.arrive c bid isStep) := by
  unfold State.arrive
  dsimp only
  split
  · exact h
  · exact h.upd.checkBarrier

theorem Kept.barrierOp (h : Kept (canon q) s) {f op} : Kept (canon q) (s.barrierOp f op) := by
  unfold State.barrierOp
  dsimp only
  split
  · exact h
  · exact h.refuseOp
  · split
    · exact h.opOpen
    · exact h.opOpen.arrive

theorem Kept.execBarrier (h : Kept (canon q) s) {f} : KeptBy q (execBarrier f s) := .ite (.refused) h.barrierOp.next

theorem Kept.execStepOp (h : Kept (canon q) s) {f} : KeptBy q (execStepOp f s) := .ite (.refused) h.barrierOp.next

theorem Kept.barrierTimeout (h : Kept (canon q) s) {b} : Kept (canon q) (s.barrierTimeout b) := by
  unfold State.barrierTimeout
  dsimp only
  refine (h.foldl fun _ _ h => ?_).stopRest
  split
  · exact h.stopProg
  · exact h

theorem Kept.execBarrierTimeout (h : Kept (canon q) s) {job bid use} : KeptBy q (execBarrierTimeout job bid use s) := by
  unfold Machine.execBarrierTimeout
  split
  · exact h.next
  · exact h.barrierTimeout.next

theorem Kept.takeArrive (h : Kept (canon q) s) {f} : Kept (canon q) (s.takeArrive f) := by
  unfold State.takeArrive
  exact .ite h.gather h

theorem Kept.takeRelease (h : Kept (canon q) s) {f} : Kept (canon q) (s.takeRelease f) := by
  unfold State.takeRelease
  exact h.galRelease

/-! ### The expander (Machine/Expander.lean) -/

theorem Kept.arrTouch (h : Kept (canon q) s) {errs hall tenant a off n} : Kept (canon q) (s.arrTouch errs hall tenant a off n) := by
  unfold State.arrTouch
  dsimp only
  split
  · exact h
  · exact .ite h (h.foldl fun _ _ h => h.translate).count

theorem Kept.fetchTouch (h : Kept (canon q) s) {errs hall tenant x b f} :
    Kept (canon q) (s.fetchTouch errs hall tenant x b f) := h.arrTouch.arrTouch.arrTouch

theorem Kept.markFetched (h : Kept (canon q) s) {hall tenant x f} : Kept (canon q) (s.markFetched hall tenant x f) := by
  unfold State.markFetched
  dsimp only
  split
  · exact h.setLanding
  · refine h.foldl fun _ _ h => ?_
    split
    · exact h.memMark
    · exact h

theorem Kept.poisonBlock (h : Kept (canon q) s) {c ti x b f} : Kept (canon q) (s.poisonBlock c ti x b f) := by
  unfold State.poisonBlock
  exact h.markFetched.counts.fault

theorem Kept.escalateLanding (h : Kept (canon q) s) {l x} : Kept (canon q) (s.escalateLanding l x) := by
  unfold State.escalateLanding
  dsimp only
  split
  · exact .ite (h.foldl fun _ _ h => h.fence).closeEpisode h
  · exact h

theorem Kept.landError (h : Kept (canon q) s) {e} : Kept (canon q) (s.landError e) := by
  unfold State.landError
  exact .ite h <| .ite h.count h.setLanding.count.fault.escalateLanding

theorem Kept.landErrors (h : Kept (canon q) s) {es} : Kept (canon q) (s.landErrors es) := h.foldl fun _ _ h => h.landError

theorem Kept.execBlockRefetchDone (h : Kept (canon q) s) {f block ok} : KeptBy q (execBlockRefetchDone f block ok s) := by
  unfold Machine.execBlockRefetchDone
  dsimp only
  refine .ite (.refused) ?_
  split
  · exact h.next
  · split
    · exact h.next
    · refine .ite h.next ?_
      split
      · exact h.setFlight.next
      · exact .ite h.fetchTouch.setFlight.count.tick.next <| .ite h.fetchTouch.setFlight.count.tick.next h.fetchTouch.setFlight.poisonBlock.tick.next

/-! ### Passes (Machine/Passes.lean) -/

theorem Kept.readBadWeight (h : Kept (canon q) s) {c bad} : Kept (canon q) (s.readBadWeight c bad) := .ite h.modStep h

theorem Kept.takePlane (h : Kept (canon q) s) {fk plane bad} : Kept (canon q) (s.takePlane fk plane bad) := by
  unfold State.takePlane
  exact h.setFlight

/-! ### Sparse passes and the predictor (Machine/Sparse.lean) -/

theorem Kept.fillMap (h : Kept (canon q) s) {fk m} : Kept (canon q) (s.fillMap fk m) := by
  unfold State.fillMap
  exact h.setFlight

theorem Kept.countLayer (h : Kept (canon q) s) {infos logical physical} : Kept (canon q) (s.countLayer infos logical physical) := by
  unfold State.countLayer
  dsimp only
  split
  · exact h
  · split
    · exact h
    · exact h.upd

theorem Kept.noteSpan (h : Kept (canon q) s) {c x} : Kept (canon q) (s.noteSpan c x) := h.modProg

theorem Kept.noteVector (h : Kept (canon q) s) {b layer len} : Kept (canon q) (s.noteVector b layer len) := by
  unfold State.noteVector
  exact h.upd

theorem Kept.predictBody (h : Kept (canon q) s) {c} : Kept (canon q) (State.predictBody c s).1 := by
  unfold State.predictBody
  dsimp only
  split
  · dsimp only
    exact h
  · dsimp only
    exact h
  · dsimp only
    exact h
  · dsimp only
    exact h
  · dsimp only
    exact h
  · exact .iteFst h <| .iteFst h h.upd.counts.noteVector.tick

theorem Kept.execPredict (h : Kept (canon q) s) {f} : KeptBy q (execPredict f s) := .ite (.refused) (h.issueOp (fun _ _ h => h.predictBody)).next

/-! ### Foot operations (Machine/FootOps.lean) -/

theorem Kept.stepPoison (h : Kept (canon q) s) {job bad} : Kept (canon q) (s.stepPoison job bad) := .ite h.modStep h

theorem Kept.auditBlock (h : Kept (canon q) s) {key miss} : Kept (canon q) (s.auditBlock key miss) := by
  unfold State.auditBlock
  dsimp only
  split
  · exact h
  · exact .ite h.upd.counts.logEv h.upd.counts

theorem Kept.auditTile (h : Kept (canon q) s) {tn} : Kept (canon q) (s.auditTile tn) := by
  unfold State.auditTile
  split
  · exact h
  · exact .ite (h.foldl fun _ _ h => h.auditBlock) h

theorem Kept.releaseTile (h : Kept (canon q) s) {fk i} : Kept (canon q) (s.releaseTile fk i) := h.auditTile.setTile

theorem Kept.writeStats (h : Kept (canon q) s) {c d st rows poison} : Kept (canon q) (s.writeStats c d st rows poison) := by
  unfold State.writeStats
  dsimp only
  split
  · exact h
  · exact .ite h <| h.foldl fun _ _ h => (h.foldl fun _ _ h => h.landWrite).count

theorem Kept.writeBlocks (h : Kept (canon q) s) {c tn b gen poison x} : Kept (canon q) (s.writeBlocks c tn b gen poison x) := by
  unfold State.writeBlocks
  dsimp only
  refine (Kept.counts ?_).writeRow
  split
  · dsimp only
    exact h.drawRequest
  · dsimp only
    exact h

theorem Kept.writeWords (h : Kept (canon q) s) {c b e poison x} : Kept (canon q) (s.writeWords c b e poison x).1 := by
  unfold State.writeWords
  exact h.landWrite

theorem Kept.writeDrain (h : Kept (canon q) s) {c d u out gen rows poison} : Kept (canon q) (s.writeDrain c d u out gen rows poison).1 := by
  unfold State.writeDrain
  split
  · exact h
  · rename_i b
    refine .iteFst ?_ (h.foldl fun _ _ h => h.writeBlocks)
    have hw := foldl_keeps (fun r : State × Nat => Kept (canon q) r.1)
      (fun r x => ((r.1.writeWords c b (outExp u rows) poison x).1, r.2 + (r.1.writeWords c b (outExp u rows) poison x).2))
      (fun _ _ h => h.writeWords) rows (b := (s, 0)) h
    exact Kept.count (Kept.setLsb hw)

theorem Kept.runDrain (h : Kept (canon q) s) {c d x st out gen} : Kept (canon q) (s.runDrain c d x st out gen) := by
  unfold State.runDrain
  dsimp only
  exact .ite h.count.writeStats.writeDrain.stepPoison.tick.setTile h.count.writeStats.writeDrain.stepPoison.tick.setTile.releaseTile

theorem Kept.retagBody (h : Kept (canon q) s) {c} : Kept (canon q) (State.retagBody c s).1 := by
  unfold State.retagBody
  dsimp only
  split
  · dsimp only
    exact h
  · split
    · dsimp only
      exact h
    · dsimp only
      exact h.setTile.holdShare

theorem Kept.execRetag (h : Kept (canon q) s) {f} : KeptBy q (execRetag f s) := .ite (.refused) (h.issueOp (fun _ _ h => h.retagBody)).next

theorem Kept.releaseBody (h : Kept (canon q) s) {c} : Kept (canon q) (State.releaseBody c s).1 := by
  unfold State.releaseBody
  split
  · dsimp only
    exact h
  · dsimp only
    exact h.releaseTile.holdShare

theorem Kept.execRelease (h : Kept (canon q) s) {f} : KeptBy q (execRelease f s) := .ite (.refused) (h.issueOp (fun _ _ h => h.releaseBody)).next

theorem Kept.statscaleBody (h : Kept (canon q) s) {c} : Kept (canon q) (State.statscaleBody c s).1 := by
  unfold State.statscaleBody
  dsimp only
  split
  · dsimp only
    exact h
  · dsimp only
    exact h
  · dsimp only
    exact h
  · dsimp only
    exact h
  · exact .iteFst h <| .iteFst h (h.foldl fun _ _ h => h.landWrite.counts).tick.holdShare

theorem Kept.execStatscale (h : Kept (canon q) s) {f} :
    KeptBy q (execStatscale f s) := .ite (.refused) (h.issueOp (fun _ _ h => h.statscaleBody)).next

theorem Kept.reduceBody (h : Kept (canon q) s) {c} : Kept (canon q) (State.reduceBody c s).1 := by
  unfold State.reduceBody
  dsimp only
  split
  · dsimp only
    exact h
  · dsimp only
    exact h
  · exact .iteFst h <| .iteFst h (h.foldl fun _ _ h => h.landWrite.count).tick.holdShare

theorem Kept.execReduce (h : Kept (canon q) s) {f} : KeptBy q (execReduce f s) := .ite (.refused) (h.issueOp (fun _ _ h => h.reduceBody)).next

/-! ### FETCH, STORE and the fill unit (Machine/Fills.lean) -/

theorem Kept.putUnit (h : Kept (canon q) s) {l u x tenant} : Kept (canon q) (s.putUnit l u x tenant) := h.foldl fun _ _ h => h.landWrite

theorem Kept.putUnits (h : Kept (canon q) s) {l u xs tenant} : Kept (canon q) (s.putUnits l u xs tenant) := h.foldl fun _ _ h => h.putUnit

theorem Kept.copiedPoison (h : Kept (canon q) s) {job hall bad} : Kept (canon q) (s.copiedPoison job hall bad) := by
  unfold State.copiedPoison
  exact h.stepPoison.modStep

theorem Kept.fetchBody (h : Kept (canon q) s) {c} : Kept (canon q) (State.fetchBody c s).1 := by
  unfold State.fetchBody
  split
  · dsimp only
    exact h
  · exact .iteFst h h.addDesc

theorem Kept.programErrors (h : Kept (canon q) s) {fk errs} : Kept (canon q) (s.programErrors fk errs) := by
  unfold State.programErrors
  split
  · exact h
  · exact h.bitErrors

theorem Kept.execFetch (h : Kept (canon q) s) {f errs} : KeptBy q (execFetch f errs s) :=
  .ite (.refused) (h.programErrors.issueOp (fun _ _ h => h.fetchBody)).next

theorem Kept.storeBody (h : Kept (canon q) s) {c} : Kept (canon q) (State.storeBody c s).1 := by
  unfold State.storeBody
  split
  · dsimp only
    exact h
  · exact .iteFst h h.addDesc

theorem Kept.execStoreOperation (h : Kept (canon q) s) {f} :
    KeptBy q (execStoreOperation f s) := .ite (.refused) (h.issueOp (fun _ _ h => h.storeBody)).next

theorem Kept.copyBody (h : Kept (canon q) s) {c} : Kept (canon q) (State.copyBody c s).1 := by
  unfold State.copyBody
  dsimp only
  split
  · dsimp only
    exact h
  · dsimp only
    exact h
  · exact .iteFst h <| .iteFst h h.putUnits.tick

theorem Kept.execCopy (h : Kept (canon q) s) {f} : KeptBy q (execCopy f s) := .ite (.refused) (h.issueOp (fun _ _ h => h.landErrors.copyBody)).next

theorem Kept.putTok (h : Kept (canon q) s) {fk tn g i n4 code} : Kept (canon q) (s.putTok fk tn g i n4 code) := by
  unfold State.putTok
  exact h.setFlight

theorem Kept.fillToken (h : Kept (canon q) s) {c b row0 r tn g} : Kept (canon q) (s.fillToken c b row0 r tn g) := by
  unfold State.fillToken
  exact (h.foldl fun _ _ h => h.putTok).setFlight

theorem Kept.fillTokensBody (h : Kept (canon q) s) {c} : Kept (canon q) (State.fillTokensBody c s).1 := by
  unfold State.fillTokensBody
  dsimp only
  split
  · dsimp only
    exact h
  · exact .iteFst h <| .iteFst h (h.foldl fun _ _ h => h.foldl fun _ _ h => h.fillToken).setFlight.tick

theorem Kept.execFillTokens (h : Kept (canon q) s) {f} :
    KeptBy q (execFillTokens f s) := .ite (.refused) (h.issueOp (fun _ _ h => h.fillTokensBody)).next

theorem Kept.fillOutlierBody (h : Kept (canon q) s) {c} : Kept (canon q) (State.fillOutlierBody c s).1 := by
  unfold State.fillOutlierBody
  dsimp only
  split
  · dsimp only
    exact h
  · exact .iteFst h <| .iteFst h <| .iteFst h h.setFlight.tick

theorem Kept.execFillOutlier (h : Kept (canon q) s) {f} :
    KeptBy q (execFillOutlier f s) := .ite (.refused) (h.issueOp (fun _ _ h => h.fillOutlierBody)).next

theorem Kept.fillTableBody (h : Kept (canon q) s) {c} : Kept (canon q) (State.fillTableBody c s).1 := by
  unfold State.fillTableBody
  dsimp only
  split
  · dsimp only
    exact h
  · exact .iteFst h <| .iteFst h.tick h.setFlight.tick

theorem Kept.execFillTable (h : Kept (canon q) s) {f} :
    KeptBy q (execFillTable f s) := .ite (.refused) (h.issueOp (fun _ _ h => h.fillTableBody)).next

theorem Kept.handleSetBody (h : Kept (canon q) s) {c} : Kept (canon q) (State.handleSetBody c s).1 := by
  unfold State.handleSetBody
  dsimp only
  refine .iteFst h.setHandle ?_
  split
  · dsimp only
    exact h
  · exact .iteFst h.setHandle h

theorem Kept.execHandleSet (h : Kept (canon q) s) {f} :
    KeptBy q (execHandleSet f s) := .ite (.refused) (h.issueOp (fun _ _ h => h.handleSetBody)).next

theorem Kept.maskBody (h : Kept (canon q) s) {c} : Kept (canon q) (State.maskBody c s).1 := by
  unfold State.maskBody
  dsimp only
  split
  · dsimp only
    exact h
  · dsimp only
    exact h
  · exact .iteFst h <| .iteFst h (h.foldl fun _ _ h => h.drawRequest.landWrite).count

theorem Kept.execMask (h : Kept (canon q) s) {f} : KeptBy q (execMask f s) := .ite (.refused) (h.issueOp (fun _ _ h => h.maskBody)).next

/-! ### Rows, SEND and RECV (Machine/Rows.lean) -/

theorem Kept.sendRows (h : Kept (canon q) s) {dest ftype destUnit job tag m z rows} :
    Kept (canon q) (s.sendRows dest ftype destUnit job tag m z rows) := by
  unfold State.sendRows
  exact h.foldl fun _ _ h => (h.counts.ite h).sendFrame

theorem Kept.takePieces (h : Kept (canon q) s) {f pre} : Kept (canon q) (s.takePieces f pre).2 := by
  unfold State.takePieces
  exact .ite h.logEv.count.tick h

theorem Kept.placePiece (h : Kept (canon q) s) {b r off data poison tenant} : Kept (canon q) (s.placePiece b r off data poison tenant) := h.landWrite

theorem Kept.placeRow (h : Kept (canon q) s) {b r x tenant} : Kept (canon q) (s.placeRow b r x tenant) := h.placePiece

theorem Kept.recvFrame (h : Kept (canon q) s) {m f} : Kept (canon q) (s.recvFrame m f) := by
  unfold State.recvFrame
  dsimp only
  split
  · exact h
  · refine .ite ?_ (h.takePieces.foldl fun _ _ h => h.placePiece).stepPoison.upd
    split
    · exact h.takePieces
    · exact h.takePieces.refuseOp

theorem Kept.takeSend (h : Kept (canon q) s) {f} : Kept (canon q) (s.takeSend f) := by
  unfold State.takeSend
  dsimp only
  split
  · exact h.recvFrame
  · exact h.upd

theorem Kept.mismatch (h : Kept (canon q) s) {m} : Kept (canon q) (s.mismatch m) := by
  unfold State.mismatch
  split
  · exact h
  · exact h.stopProg

theorem Kept.sendBody (h : Kept (canon q) s) {c} : Kept (canon q) (State.sendBody c s).1 := by
  unfold State.sendBody
  dsimp only
  split
  · dsimp only
    exact h
  · dsimp only
    exact h
  · refine .iteFst h <| .iteFst h.stepPoison.sendRows.tick ?_
    split
    · exact .iteFst h.stepPoison.mismatch.tick (h.stepPoison.foldl fun _ _ h => h.takeSend).tick
    · dsimp only
      exact (h.stepPoison.upd.foldl fun _ _ h => h.takeSend).tick

theorem Kept.execSend (h : Kept (canon q) s) {f} : KeptBy q (execSend f s) := .ite (.refused) (h.issueOp (fun _ _ h => h.sendBody)).next

theorem Kept.drainEarly (h : Kept (canon q) s) {m} : Kept (canon q) (s.drainEarly m) := by
  unfold State.drainEarly
  exact h.upd.foldl fun _ _ h => h.takeSend

theorem Kept.recvBody (h : Kept (canon q) s) {c} : Kept (canon q) (State.recvBody c s).1 := by
  unfold State.recvBody
  dsimp only
  split
  · dsimp only
    exact h
  · dsimp only
    exact h
  · refine .iteFst h ?_
    split
    · exact .iteFst h.upd.mismatch h.upd.drainEarly
    · dsimp only
      exact h.upd.drainEarly

theorem Kept.execRecv (h : Kept (canon q) s) {f} : KeptBy q (execRecv f s) := .ite (.refused) (h.issueOp (fun _ _ h => h.recvBody)).next

/-! ### Collectives (Machine/Collect.lean) -/

theorem Kept.setColl (h : Kept (canon q) s) {x} : Kept (canon q) (s.setColl x) := by
  unfold State.setColl
  exact h.upd

theorem Kept.dropColl (h : Kept (canon q) s) {x} : Kept (canon q) (s.dropColl x) := by
  unfold State.dropColl
  exact h.upd

theorem Kept.sendExp (h : Kept (canon q) s) {x p} : Kept (canon q) (s.sendExp x p) := h.sendFrame

theorem Kept.sendColl (h : Kept (canon q) s) {x} : Kept (canon q) (s.sendColl x) := by
  unfold State.sendColl
  exact (h.foldl fun _ _ h => (h.sendExp.ite h).sendRows).setColl

theorem Kept.sendSums (h : Kept (canon q) s) {x} : Kept (canon q) (s.sendSums x) := by
  unfold State.sendSums
  exact (h.foldl fun _ _ h => h.sendRows).setColl

theorem Kept.countSums' (h : Kept (canon q) s) {x} : Kept (canon q) (s.countSums' x) := by
  unfold State.countSums'
  exact .ite h h.count

theorem Kept.writeColl (h : Kept (canon q) s) {x r} : Kept (canon q) (s.writeColl x r) := by
  unfold State.writeColl
  dsimp only
  split
  · split
    · exact h
    · exact .ite (h.foldl fun _ _ h => h.placePiece).stepPoison.setLsb (h.foldl fun _ _ h => h.placePiece).stepPoison
  · exact h

theorem Kept.collStep (h : Kept (canon q) s) {x} : Kept (canon q) (s.collStep x) :=
  .ite (h.setColl.ite h.sendColl) <| .ite (h.sendSums.ite h.setColl) <| .ite (h.countSums'.foldl fun _ _ h => h.writeColl).dropColl h.setColl

theorem Kept.collRun (h : Kept (canon q) s) {job g count} : Kept (canon q) (s.collRun job g count) := by
  unfold State.collRun
  refine h.foldl fun _ _ h => ?_
  split
  · exact h.collStep
  · exact h

theorem Kept.collFrame (h : Kept (canon q) s) {x f} : Kept (canon q) (s.collFrame x f) := by
  unfold State.collFrame
  dsimp only
  exact (h.setColl.ite h.takePieces.setColl).collRun

theorem Kept.takeColl (h : Kept (canon q) s) {f} : Kept (canon q) (s.takeColl f) := by
  unfold State.takeColl
  dsimp only
  split
  · exact h.collFrame
  · exact h.upd

theorem Kept.collBody (h : Kept (canon q) s) {kind c} : Kept (canon q) (State.collBody kind c s).1 := by
  unfold State.collBody
  dsimp only
  split
  · dsimp only
    exact h
  · dsimp only
    exact h
  · dsimp only
    exact h
  · refine .iteFst h <| .iteFst h <| .iteFst h <| (Kept.setColl ?_).collRun.foldl fun _ _ h => h.takeColl
    split
    · exact h.count.stepPoison.tick.upd
    · exact h.stepPoison.tick.upd

theorem Kept.execBroadcast (h : Kept (canon q) s) {f} : KeptBy q (execBroadcast f s) := .ite (.refused) (h.issueOp (fun _ _ h => h.collBody)).next

theorem Kept.execAllGather (h : Kept (canon q) s) {f} : KeptBy q (execAllGather f s) := .ite (.refused) (h.issueOp (fun _ _ h => h.collBody)).next

theorem Kept.execReduceScatter (h : Kept (canon q) s) {f} :
    KeptBy q (execReduceScatter f s) := .ite (.refused) (h.issueOp (fun _ _ h => h.collBody)).next

theorem Kept.execAllReduce (h : Kept (canon q) s) {f} : KeptBy q (execAllReduce f s) := .ite (.refused) (h.issueOp (fun _ _ h => h.collBody)).next

theorem Kept.execAllToAll (h : Kept (canon q) s) {f} : KeptBy q (execAllToAll f s) := .ite (.refused) (h.issueOp (fun _ _ h => h.collBody)).next

/-! ### The router (Machine/Router.lean) -/

theorem Kept.routeOne (h : Kept (canon q) s) {c gates idx weight n k r} : Kept (canon q) (s.routeOne c gates idx weight n k r) := by
  unfold State.routeOne
  exact h.landWrite.landWrite.counts

theorem Kept.routeBody (h : Kept (canon q) s) {c} : Kept (canon q) (State.routeBody c s).1 := by
  unfold State.routeBody
  dsimp only
  split
  · dsimp only
    exact h
  · dsimp only
    exact h
  · dsimp only
    exact h
  · exact .iteFst h <| .iteFst h <| .iteFst h (h.foldl fun _ _ h => h.routeOne).tick

theorem Kept.execRoute (h : Kept (canon q) s) {f} : KeptBy q (execRoute f s) := .ite (.refused) (h.issueOp (fun _ _ h => h.routeBody)).next

theorem Kept.modExch (h : Kept (canon q) s) {i f} : Kept (canon q) (s.modExch i f) := by
  unfold State.modExch
  exact h.upd

theorem Kept.exchStop (h : Kept (canon q) s) {job code e} : Kept (canon q) (s.exchStop job code e) := by
  unfold State.exchStop
  dsimp only
  split
  · exact (h.countRefusal.ite h.count).programStop
  · exact (h.countRefusal.ite h.count).jobStopAll

theorem Kept.writeSection (h : Kept (canon q) s) {e x since tenant len slot t} (ht : s.writeSection e x since tenant len slot = .ok t) :
    Kept (canon q) t := by
  unfold State.writeSection at ht
  dsimp only at ht
  split at ht
  · cases ht
    exact h
  · split at ht
    · cases ht
    · split at ht
      · cases ht
      · split at ht
        · cases ht
        · split at ht
          · cases ht
            exact (h.foldl fun _ _ h => h.placeRow).stepPoison
          · cases ht
            exact (h.foldl fun _ _ h => h.placeRow).stepPoison.upd

theorem Kept.writeSections (h : Kept (canon q) s) {e x since tenant len} {l : List Nat} {u : State}
    (hu : l.foldl (fun (a : Except Nat State) k => a.bind (fun s => s.writeSection e x since tenant len k)) (.ok s) = .ok u) : Kept (canon q) u := by
  have hk := foldl_keeps (fun r : Except Nat State => ∀ u, r = .ok u → Kept (canon q) u)
    (fun (a : Except Nat State) k => a.bind (fun s => s.writeSection e x since tenant len k)) ?_ l (b := .ok s) (by rintro u ⟨⟩; exact h)
  · exact hk u hu
  · rintro (c | t) k ht u hu
    · cases hu
    · exact (ht t rfl).writeSection hu

theorem Kept.exchProgress (h : Kept (canon q) s) {i} : Kept (canon q) (s.exchProgress i) := by
  unfold State.exchProgress
  split
  · exact h
  · split
    · exact h
    · refine .ite h <| .ite h.exchStop <| .ite h ?_
      split
      · exact h.exchStop
      · rename_i heq
        exact (h.writeSections heq).modExch

theorem Kept.takeExchRows (h : Kept (canon q) s) {f} : Kept (canon q) (s.takeExchRows f) := by
  unfold State.takeExchRows
  dsimp only
  split
  · split
    · exact h.takePieces
    · exact .ite h.takePieces.exchStop h.takePieces.modExch.exchProgress
  · split
    · exact h.exchStop
    · exact h.upd

theorem Kept.retryEarly (h : Kept (canon q) s) {ftype job m g} (hg : ∀ t f, Kept (canon q) t → Kept (canon q) (g t f)) :
    Kept (canon q) (s.retryEarly ftype job m g) := h.upd.foldl hg

theorem Kept.addManifest (h : Kept (canon q) s) {job layer m counts} : Kept (canon q) (s.addManifest job layer m counts).1 := by
  unfold State.addManifest
  dsimp only
  split
  · dsimp only
    exact h.modExch
  · dsimp only
    exact h.upd

theorem Kept.takeManifest (h : Kept (canon q) s) {f} : Kept (canon q) (s.takeManifest f) := by
  unfold State.takeManifest
  dsimp only
  exact (h.addManifest.retryEarly (fun _ _ h => h.takeExchRows)).exchProgress

theorem Kept.placeReturn (h : Kept (canon q) s) {e x since tenant k r} : Kept (canon q) (s.placeReturn e x since tenant k r) := by
  unfold State.placeReturn
  dsimp only
  refine (h.foldl fun _ _ h => ?_).stepPoison.count
  split
  · exact h
  · exact h.placePiece

theorem Kept.placeReturns (h : Kept (canon q) s) {i} : Kept (canon q) (s.placeReturns i) := by
  unfold State.placeReturns
  split
  · exact h
  · split
    · exact h
    · extract_lets len whole new s₁ s₂
      have h₂ : Kept (canon q) s₂ := (h.foldl fun _ _ h => h.placeReturn).modExch
      refine .ite h.exchStop ?_
      split
      · exact h₂
      · exact .ite h₂.upd h₂

theorem Kept.addReturnRows (h : Kept (canon q) s) {job m ps t} (ht : s.addReturnRows job m ps = some t) : Kept (canon q) t := by
  obtain ⟨i, -, rfl⟩ := Option.map_eq_some_iff.mp ht
  exact h.modExch.placeReturns

theorem Kept.takeReturnRows (h : Kept (canon q) s) {f} : Kept (canon q) (s.takeReturnRows f) := by
  unfold State.takeReturnRows
  dsimp only
  split
  · rename_i heq
    exact h.takePieces.addReturnRows heq
  · exact h.upd

theorem Kept.addReturnManifest (h : Kept (canon q) s) {job layer m counts t} (ht : s.addReturnManifest job layer m counts = some t) :
    Kept (canon q) t := by
  obtain ⟨i, -, rfl⟩ := Option.map_eq_some_iff.mp ht
  dsimp only
  split
  · exact h
  · exact .ite h.exchStop h.modExch.placeReturns

theorem Kept.takeReturnManifest (h : Kept (canon q) s) {f} : Kept (canon q) (s.takeReturnManifest f) := by
  unfold State.takeReturnManifest
  dsimp only
  split
  · rename_i heq
    exact (h.addReturnManifest heq).retryEarly fun _ _ h => h.takeReturnRows
  · exact h.upd

theorem Kept.writeRetRows (h : Kept (canon q) s) {idx ps sent tenant} :
    Kept (canon q) (s.writeRetRows idx ps sent tenant) := h.foldl fun _ _ h => h.landWrite

theorem Kept.sendManifests (h : Kept (canon q) s) {ftype hall job layer counts} : Kept (canon q) (s.sendManifests ftype hall job layer counts) := by
  unfold State.sendManifests
  exact h.foldl fun _ _ h => .ite h h.count.sendFrame

theorem Kept.runOutbound (h : Kept (canon q) s) {c src idx x rows} : Kept (canon q) (s.runOutbound c src idx x rows) := by
  unfold State.runOutbound
  extract_lets n ps lists counts tx sent total s₁ s₂ s₃ s₄ s₅ own mine fill _
  have h₃ : Kept (canon q) s₃ := h.counts.stepPoison.sendManifests
  have h₅ : Kept (canon q) s₅ := (h₃.foldl fun _ _ h => h.ite h.sendRows).writeRetRows
  clear_value s₅
  dsimp only
  refine Kept.foldl ?_ fun _ _ h => (h.retryEarly fun _ _ h => h.takeReturnManifest).retryEarly fun _ _ h => h.takeReturnRows
  refine Kept.exchProgress ?_
  split
  · exact h₅.modExch
  · exact h₅.upd

theorem Kept.outboundBody (h : Kept (canon q) s) {c} : Kept (canon q) (State.outboundBody c s).1 := by
  unfold State.outboundBody
  dsimp only
  split
  · dsimp only
    exact h
  · dsimp only
    exact h
  · dsimp only
    exact h
  · exact .iteFst h <| .iteFst h <| .iteFst h h.runOutbound.tick

theorem Kept.execOutboundDispatch (h : Kept (canon q) s) {f} : KeptBy q (execOutboundDispatch f s) :=
  .ite (.refused) (h.issueOp (fun _ _ h => h.outboundBody)).next

theorem Kept.getD (h : Kept (canon q) s) {x : Option State} (hx : ∀ u, x = some u → Kept (canon q) u) : Kept (canon q) (x.getD s) := by
  cases x with
  | none => exact h
  | some u => exact hx u rfl

theorem Kept.runReturn (h : Kept (canon q) s) {c i e x} : Kept (canon q) (s.runReturn c i e x) := by
  unfold State.runReturn
  extract_lets n len tx counts form s₁ s₂ s₃ s₄ s₅ own
  have h₃ : Kept (canon q) s₃ := h.stepPoison.modExch.sendManifests
  have h₄ : Kept (canon q) s₄ := h₃.foldl fun _ _ h => h.ite h.sendRows
  have h₅ : Kept (canon q) s₅ := h₄.getD fun _ hu => h₄.addReturnManifest hu
  exact h₅.getD fun _ hu => h₅.addReturnRows hu

theorem Kept.returnBody (h : Kept (canon q) s) {c} : Kept (canon q) (State.returnBody c s).1 := by
  unfold State.returnBody
  dsimp only
  split
  · dsimp only
    exact h
  · split
    · dsimp only
      exact h
    · split
      · dsimp only
        exact h
      · exact .iteFst h <| .iteFst h.count <| .iteFst h h.runReturn.tick

theorem Kept.execReturnDispatch (h : Kept (canon q) s) {f} :
    KeptBy q (execReturnDispatch f s) := .ite (.refused) (h.issueOp (fun _ _ h => h.returnBody)).next

theorem Kept.execExpertProgramStart (h : Kept (canon q) s) {f slot layer lslot} : KeptBy q (execExpertProgramStart f slot layer lslot s) := by
  unfold Machine.execExpertProgramStart
  dsimp only
  refine .ite (.refused) ?_
  split
  · exact h.next
  · split
    · exact h.next
    · split
      · exact h.next
      · exact .ite h.upd.skipExpert.next <| .ite h.upd.startProgram.next h.next

theorem Kept.execExchangeTimeout (h : Kept (canon q) s) {job layer} : KeptBy q (execExchangeTimeout job layer s) := by
  unfold Machine.execExchangeTimeout
  split
  · exact h.next
  · exact h.exchStop.next

/-! ### Sampler (Machine/Sampler.lean) -/

theorem Kept.refuseToken (h : Kept (canon q) s) {i} : Kept (canon q) (s.refuseToken i) := by
  unfold State.refuseToken
  exact .ite h.count.logEv.leaveSteps.faultRec.fieldStepEnd h.count.logEv.faultStream

theorem Kept.tokenDraw (h : Kept (canon q) s) {c i level} : Kept (canon q) (s.tokenDraw c i level).1 := by
  unfold State.tokenDraw
  dsimp only
  exact .iteFst h h.drawRequest

theorem Kept.sampleOne (h : Kept (canon q) s) {c logits map out r} : Kept (canon q) (s.sampleOne c logits map out r) := by
  unfold State.sampleOne
  dsimp only
  split
  · exact h
  · exact .ite h <| .ite h.refuseToken <| .ite h.stepPoison h.tokenDraw.counts.modStream.landWrite

theorem Kept.sampleBody (h : Kept (canon q) s) {c} : Kept (canon q) (State.sampleBody c s).1 := by
  unfold State.sampleBody
  dsimp only
  split
  · dsimp only
    exact h
  · dsimp only
    exact h
  · dsimp only
    exact h
  · refine .iteFst h <| .iteFst h ?_
    split
    · dsimp only
      exact h
    · dsimp only
      exact (h.foldl fun _ _ h => h.sampleOne).tick

theorem Kept.execSample (h : Kept (canon q) s) {f} : KeptBy q (execSample f s) := .ite (.refused) (h.issueOp (fun _ _ h => h.sampleBody)).next

/-! ### Arches (Machine/Arches.lean) -/

theorem Kept.freeCredits (h : Kept (canon q) s) {n vc k} : Kept (canon q) (s.freeCredits n vc k) := by
  unfold State.freeCredits
  exact .ite h h.setArch

theorem Kept.forwardFrame (h : Kept (canon q) s) {f owed} : Kept (canon q) (s.forwardFrame f owed) := by
  unfold State.forwardFrame
  dsimp only
  refine .ite h.count.logEv.freeCredits ?_
  split
  · exact h.count.logEv.freeCredits
  · exact .ite h.upd h.count.queueFrame.freeCredits

theorem Kept.forwardHeld (h : Kept (canon q) s) : Kept (canon q) s.forwardHeld := by
  unfold State.forwardHeld
  exact h.upd.foldl fun _ _ h => h.forwardFrame

theorem Kept.disown (h : Kept (canon q) s) {n} : Kept (canon q) (s.disown n) := by
  unfold State.disown
  exact h.upd

theorem Kept.execFlitSlot (h : Kept (canon q) s) {arch} : KeptBy q (execFlitSlot arch s) := by
  unfold Machine.execFlitSlot
  refine .ite .refused <| .ite h.next ?_
  exact h.setArch.emit.forwardHeld.next

theorem Kept.reroute (h : Kept (canon q) s) {n a} : Kept (canon q) (s.reroute n a) := h.foldl fun _ _ h => .ite h h.sendFrame

theorem Kept.stopForLink (h : Kept (canon q) s) {job} : Kept (canon q) (s.stopForLink job) := h.sendJobStop.jobStopAll

theorem Kept.reportJob (h : Kept (canon q) s) {job} : Kept (canon q) (s.reportJob job) := by
  unfold State.reportJob
  refine .ite h.stopForLink ?_
  split
  · exact h.sendJobStop
  · exact h

theorem Kept.startElectionAt (h : Kept (canon q) s) {l} : Kept (canon q) (s.startElectionAt l) := by
  unfold State.startElectionAt
  exact .ite h h.upd

theorem Kept.startElection (h : Kept (canon q) s) : Kept (canon q) s.startElection := h.startElectionAt

theorem Kept.stopUsers (h : Kept (canon q) s) {p} : Kept (canon q) (s.stopUsers p) := h.foldl fun _ _ h => h.stopForLink

theorem Kept.takeOver (h : Kept (canon q) s) : Kept (canon q) s.takeOver := by
  unfold State.takeOver
  exact h.foldl fun _ _ h => .ite h <| .ite (h.setStream.queueInput.ite h.setStream).modStream.setState <| .ite h.setStream.queueInput h.setStream

theorem Kept.memberLost (h : Kept (canon q) s) {p} : Kept (canon q) (s.memberLost p) := by
  unfold State.memberLost
  extract_lets wasManager _ s₁ _ s₂ s₃ _ s₄
  have h₁ : Kept (canon q) s₁ := h.upd
  clear_value s₁
  have h₂ : Kept (canon q) s₂ := h₁.upd.ite h₁
  have h₃ : Kept (canon q) s₃ := h₂.takeOver.ite h₂
  exact (h₃.count.fault.stopUsers.closeSettled.ite h₃).startElection

theorem Kept.partnerLost (h : Kept (canon q) s) {n} : Kept (canon q) (s.partnerLost n) := by
  unfold State.partnerLost
  exact .ite h.setArch <| .ite h.setArch.memberLost h.setArch

theorem Kept.archGoesDown (h : Kept (canon q) s) {n} : Kept (canon q) (s.archGoesDown n) := by
  unfold State.archGoesDown
  exact .ite h.setArch.disown.fault (h.setArch.disown.fault.reroute.foldl fun _ _ h => h.reportJob).partnerLost.forwardHeld.closeSettled

theorem Kept.execArchDown (h : Kept (canon q) s) {arch cause} : KeptBy q (execArchDown arch cause s) := by
  unfold Machine.execArchDown
  dsimp only
  exact .ite (.refused) <| .ite (.refused) (h.archGoesDown.ite h).next

theorem Kept.retrainArch (h : Kept (canon q) s) {n lane} : Kept (canon q) (s.retrainArch n lane) := by
  unfold State.retrainArch
  exact h.setArch

theorem Kept.trainFailed (h : Kept (canon q) s) {n} : Kept (canon q) (s.trainFailed n) := by
  unfold State.trainFailed
  exact .ite h.setArch <| .ite (h.ite h.logEv).archGoesDown (h.ite h.logEv).setArch

theorem Kept.trainDone (h : Kept (canon q) s) {n lanes spare roundTrip} : Kept (canon q) (s.trainDone n lanes spare roundTrip) := by
  unfold State.trainDone
  extract_lets a kept base fresh s₁ s₂
  have h₂ : Kept (canon q) s₂ := (h.setArch.ite h.setArch.disown).forwardHeld
  exact .ite h₂.logEv <| .ite h₂.logEv h₂

theorem Kept.execArchTraining (h : Kept (canon q) s) {arch signal lanesPass fecLock roundTrip helloOk} :
    KeptBy q (execArchTraining arch signal lanesPass fecLock roundTrip helloOk s) := by
  unfold Machine.execArchTraining
  dsimp only
  refine .ite (.refused) <| .ite h.next <| Kept.next ?_
  split
  · exact (h.setArch.ite h).trainFailed
  · exact .ite (h.setArch.ite h).trainFailed (h.setArch.ite h).trainDone

theorem Kept.execArchRetry (h : Kept (canon q) s) : KeptBy q (execArchRetry s) := by
  unfold Machine.execArchRetry
  exact .ite h.next (h.foldl fun _ _ h => .ite h.setArch h).next

theorem Kept.execLaneFecWindow (h : Kept (canon q) s) {arch corrected uncorrected} : KeptBy q (execLaneFecWindow arch corrected uncorrected s) := by
  unfold Machine.execLaneFecWindow
  dsimp only
  exact .ite (.refused) <| .ite h.next (h.setArch.retrainArch.ite h.setArch).next

theorem Kept.execFecLockLost (h : Kept (canon q) s) {arch} : KeptBy q (execFecLockLost arch s) := .ite (.refused) (h.retrainArch.ite h).next

theorem Kept.replayArch (h : Kept (canon q) s) {n} : Kept (canon q) (s.replayArch n) := by
  unfold State.replayArch
  exact .ite h <| .ite h.retrainArch h.setArch

theorem Kept.execNak (h : Kept (canon q) s) {arch expected} : KeptBy q (execNak arch expected s) := by
  unfold Machine.execNak
  dsimp only
  exact .ite (.refused) <| .ite h.next h.setArch.replayArch.next

theorem Kept.execAckTimeout (h : Kept (canon q) s) {arch} : KeptBy q (execAckTimeout arch s) := by
  unfold Machine.execAckTimeout
  dsimp only
  exact .ite (.refused) <| .ite h.next h.replayArch.next

/-! ### Movers (Machine/Movers.lean) -/

theorem Kept.inputProgress (h : Kept (canon q) s) {i} : Kept (canon q) (s.inputProgress i) := by
  unfold State.inputProgress
  refine h.foldl fun _ _ h => ?_
  split
  · exact .ite h.tryRelease h
  · exact .ite h.openStep h

theorem Kept.inputStuck (h : Kept (canon q) s) {i} : Kept (canon q) (s.inputStuck i) := .ite h <| h.waitForInput.foldl fun _ _ h => h.suspendJob

theorem Kept.backFromPage (h : Kept (canon q) s) {i} : Kept (canon q) (s.backFromPage i) := by
  unfold State.backFromPage
  exact .ite h h.modStream.setState

theorem Kept.moverPlace (h : Kept (canon q) s) {d space a done n write} : Kept (canon q) (s.moverPlace d space a done n write).2 := by
  unfold State.moverPlace
  dsimp only
  split
  · split
    · exact .iteSnd h.translate <| .iteSnd h.translate h.translate
    · dsimp only
      exact h.translate
    · dsimp only
      exact h.translate
  · dsimp only
    exact h
  · split
    · dsimp only
      exact h
    · exact .iteSnd h <| .iteSnd h h

theorem Kept.moverRead (h : Kept (canon q) s) {d p n x} : Kept (canon q) (s.moverRead d p n x).2 := by
  unfold State.moverRead
  dsimp only
  split
  · dsimp only
    exact h.memRead
  · dsimp only
    exact h.emit
  · dsimp only
    exact h.landErrors.tick
  · dsimp only
    exact h

theorem Kept.overlapFree (h : Kept (canon q) s) {d p r bs} : Kept (canon q) (s.overlapFree d p r bs).2 := by
  unfold State.overlapFree
  dsimp only
  split
  · exact .iteSnd h.tick h
  · exact .iteSnd (Kept.iteSnd h.tick h) h
  · dsimp only
    exact h

theorem Kept.moverWrite (h : Kept (canon q) s) {d p bs errs} : Kept (canon q) (s.moverWrite d p bs errs) := by
  unfold State.moverWrite
  dsimp only
  split
  · exact h.partErrors.hostActs
  · exact h.upd
  · exact (h.foldl fun _ _ h => h.landWrite).upd
  · exact h

theorem Kept.descFaults (h : Kept (canon q) s) {id code addr} : Kept (canon q) (s.descFaults id code addr) := by
  unfold State.descFaults
  dsimp only
  split
  · exact h
  · exact .ite h <| .ite h.modDesc.logEv.faultStream.retryReleases <| .ite h.modDesc.refuseOp h.modDesc

theorem Kept.descWaits (h : Kept (canon q) s) {d va write} : Kept (canon q) (s.descWaits d va write) := by
  unfold State.descWaits
  exact .ite h.modDesc.openRequest.outputWaits h.modDesc.openRequest.inputStuck

theorem Kept.descMoves (h : Kept (canon q) s) {id n} : Kept (canon q) (s.descMoves id n) := by
  unfold State.descMoves
  dsimp only
  split
  · exact h
  · split
    · exact (h.modDesc.count.count.ite h.modDesc.count).inputProgress
    · exact .ite (h.modDesc.count.count.ite h.modDesc.count).outputDone <| .ite h.modDesc.count.count h.modDesc.count
    · exact .ite h.modDesc.count.count h.modDesc.count

theorem Kept.settleMoves (h : Kept (canon q) s) : Kept (canon q) s.settleMoves := by
  unfold State.settleMoves
  exact h.upd.foldl fun _ _ h => h.descMoves

theorem Kept.settleHost (h : Kept (canon q) s) : Kept (canon q) s.settleHost := h.drainHost.settleMoves.answerReady

theorem Kept.mayYield (h : Kept (canon q) s) {id} : Kept (canon q) (s.mayYield id) := by
  unfold State.mayYield
  split
  · exact h
  · exact .ite h.modDesc.count h

theorem Kept.execMoverTake (h : Kept (canon q) s) {hall} : KeptBy q (execMoverTake hall s) := by
  unfold Machine.execMoverTake
  refine .ite (.refused) <| .ite h.next ?_
  split
  · exact h.next
  · exact (h.modDesc.ite h.descFaults).next

theorem Kept.carriesPoison (h : Kept (canon q) s) {d p bs} : Kept (canon q) (s.carriesPoison d p bs) := by
  unfold State.carriesPoison
  dsimp only
  refine .ite h ?_
  split
  · exact h.count.copiedPoison
  · exact h.count

theorem Kept.moverAccess (h : Kept (canon q) s) {d x} : Kept (canon q) (s.moverAccess d x) := by
  unfold State.moverAccess
  dsimp only
  split
  · exact h.moverPlace.descFaults
  · exact h.moverPlace.descWaits
  · split
    · exact h.moverPlace.moverPlace.descFaults
    · exact h.moverPlace.moverPlace.descWaits
    · exact .ite h.moverPlace.moverPlace.moverRead h.moverPlace.moverPlace.moverRead.overlapFree.modDesc.carriesPoison.moverWrite.settleMoves.mayYield

theorem Kept.execMoverAccessDone (h : Kept (canon q) s) {id data errs} : KeptBy q (execMoverAccessDone id data errs s) := by
  unfold Machine.execMoverAccessDone
  split
  · exact h.next
  · exact (h.moverAccess.ite h).next

theorem Kept.dropRequest (h : Kept (canon q) s) {r} : Kept (canon q) (s.dropRequest r) := by
  unfold State.dropRequest
  exact h.upd

theorem Kept.refusePage (h : Kept (canon q) s) {r code counter} : Kept (canon q) (s.refusePage r code counter) := by
  unfold State.refusePage
  exact (h.dropRequest.count.foldl fun _ _ h => h.descFaults).logRequests

theorem Kept.rewalk (h : Kept (canon q) s) {d} : Kept (canon q) (s.rewalk d) := by
  unfold State.rewalk
  dsimp only
  split
  · exact h.translate.modDesc.backFromPage
  · exact h.translate.descFaults
  · exact .ite h.translate.openRequest.count h.translate.openRequest

theorem Kept.pageAnswer (h : Kept (canon q) s) {v} : Kept (canon q) (s.pageAnswer v).2 := by
  unfold State.pageAnswer
  dsimp only
  split
  · dsimp only
    exact h
  · exact .iteSnd h.refusePage <| .iteSnd (h.dropRequest.foldl fun _ _ h => h.rewalk).logRequests h

theorem Kept.execPageTimeout (h : Kept (canon q) s) {tenant page} : KeptBy q (execPageTimeout tenant page s) := by
  unfold Machine.execPageTimeout
  refine .ite (.refused) ?_
  split
  · exact h.next
  · exact h.refusePage.next

/-! ### Transit (Machine/Transit.lean) -/

theorem Kept.restoreTested (h : Kept (canon q) s) {r} : Kept (canon q) (s.restoreTested r) := by
  unfold State.restoreTested
  exact .ite h.setArch <| .ite h.setArch h

theorem Kept.finishTest (h : Kept (canon q) s) {code} : Kept (canon q) (s.finishTest code) := by
  unfold State.finishTest
  dsimp only
  split
  · exact h
  · exact h.restoreTested.upd.odPut

theorem Kept.haltWork (h : Kept (canon q) s) : Kept (canon q) s.haltWork := by
  unfold State.haltWork
  exact (h.upd.abandonDescs.abandonParks.foldl fun _ _ h => h.fieldStepEnd).takeIdleCancels

theorem Kept.toStandby (h : Kept (canon q) s) : Kept (canon q) s.toStandby := by
  unfold State.toStandby
  extract_lets od cells restarts links bonded mezz _ _ _ s₁
  have h₁ : Kept (canon q) s₁ := h.updCells fun _ => reset_memory_wf
  exact h₁.odPut.odPut.odPut.odPut.setMode

theorem Kept.toOff (h : Kept (canon q) s) {high} : Kept (canon q) (s.toOff high) := h.updCells fun _ => reset_memory_wf

theorem Kept.beginTraining (h : Kept (canon q) s) : Kept (canon q) s.beginTraining := by
  unfold State.beginTraining
  extract_lets _ arch s₁ s₂ _ _ _ s₃
  have h₁ : Kept (canon q) s₁ := h.foldl fun _ _ h => .ite h.setArch h
  have h₂ : Kept (canon q) s₂ := h₁.foldl fun _ _ h => h.odPut
  clear_value s₂
  have h₃ : Kept (canon q) s₃ := h₂.upd
  exact h₃.odPut.setMode

theorem Kept.standbyEntered (h : Kept (canon q) s) : Kept (canon q) s.standbyEntered := by
  unfold State.standbyEntered
  exact .ite h.upd <| .ite h.beginTraining h

theorem Kept.bindAll (h : Kept (canon q) s) : Kept (canon q) s.bindAll := h.foldl fun _ _ h => h.bindCell

theorem Kept.enterRun (h : Kept (canon q) s) : Kept (canon q) s.enterRun := by
  unfold State.enterRun
  exact .ite h.setMode.bindAll <| h.setMode.foldl fun _ _ h => h.continueStream

theorem Kept.requestState (h : Kept (canon q) s) {v} : Kept (canon q) (s.requestState v).2 := by
  unfold State.requestState
  dsimp only
  split
  · dsimp only
    exact h
  · exact .iteSnd h h.finishTest.upd

theorem Kept.ownRequest (h : Kept (canon q) s) {v} : Kept (canon q) (s.ownRequest v) := h.requestState

theorem Kept.endTransition (h : Kept (canon q) s) : Kept (canon q) s.endTransition := by
  unfold State.endTransition
  dsimp only
  split
  · exact h.enterRun
  · exact .ite h.haltWork.setMode.upd h.haltWork.setMode
  · exact h.toStandby.upd.standbyEntered
  · exact h

/-! ### Cxl (Machine/Cxl.lean) -/

theorem Kept.filterAdd (h : Kept (canon q) s) {l} : Kept (canon q) (s.filterAdd l) := by
  unfold State.filterAdd
  exact .ite h <| .ite h.upd h.hostActs

theorem Kept.execHdmWrite (h : Kept (canon q) s) {dpa mask data poison errs} : KeptBy q (execHdmWrite dpa mask data poison errs s) := by
  unfold Machine.execHdmWrite
  exact .ite h.next <| .ite h.count.emit.next <| .ite h.emit.next (h.partErrors.tableWrite.ite h.partErrors.maskedWrite).emit.next

theorem Kept.execBirspTimeout (h : Kept (canon q) s) {line} : KeptBy q (execBirspTimeout line s) := .ite h.fault.next h.next

theorem Kept.execH2dSnoop (h : Kept (canon q) s) {hpa} : KeptBy q (execH2dSnoop hpa s) := (h.emit.ite h).next

theorem Kept.execHdmDecoderCommit (h : Kept (canon q) s) {base size ways} : KeptBy q (execHdmDecoderCommit base size ways s) := by
  unfold Machine.execHdmDecoderCommit
  exact .ite h.next <| .ite h.odPut.odPut.odPut.emit.next h.emit.next

theorem Kept.execCxlLinkUp (h : Kept (canon q) s) {flit256 rate width} : KeptBy q (execCxlLinkUp flit256 rate width s) := by
  unfold Machine.execCxlLinkUp
  exact .ite h.next <| .ite h.upd.next h.upd.logEv.next

theorem Kept.linkLost (h : Kept (canon q) s) {logged} : Kept (canon q) (s.linkLost logged) := by
  unfold State.linkLost
  exact .ite h ((h.upd.uncommit.count.logEv.ite h.upd.uncommit.count).foldl fun _ _ h => .ite h h.faultStream).settleHost

theorem Kept.execCxlLinkDown (h : Kept (canon q) s) : KeptBy q (execCxlLinkDown s) := h.linkLost.next

theorem Kept.execPerst (h : Kept (canon q) s) {high} : KeptBy q (execPerst high s) := by
  unfold Machine.execPerst
  dsimp only
  refine Kept.next ?_
  split
  · exact h.upd
  · exact h.linkLost.upd

theorem Kept.execFlr (h : Kept (canon q) s) : KeptBy q (execFlr s) := by
  unfold Machine.execFlr
  exact h.upd.next

theorem Kept.clearWindow (h : Kept (canon q) s) : Kept (canon q) s.clearWindow := by
  unfold State.clearWindow
  extract_lets lo hi inside _ m s₁ fields gone s₂
  have h₁ : Kept (canon q) s₁ := h.updCells (kwf_filter _ _)
  have h₂ : Kept (canon q) s₂ := h₁.foldl fun _ _ h => h.releaseShare.setStream
  exact .ite h₂ <| h₂.foldl fun _ _ h => h.bindCell

theorem Kept.execCxlReset (h : Kept (canon q) s) {clear} : KeptBy q (execCxlReset clear s) := by
  unfold Machine.execCxlReset
  refine .ite h.next ?_
  extract_lets s₁ seq s₂ s₃ _ s₄ s₅
  have h₂ : Kept (canon q) s₂ := h.count.logEv.haltWork
  have h₃ : Kept (canon q) s₃ := h₂.foldl fun _ _ h => .ite h h.faultStream
  clear_value s₃
  have h₅ : Kept (canon q) s₅ := h₃.upd.uncommit.settleHost
  exact (h₅.clearWindow.ite h₅).next

theorem Kept.sendPending (h : Kept (canon q) s) : Kept (canon q) s.sendPending := by
  unfold State.sendPending
  exact .ite h h.upd.emits

theorem Kept.execD3hotEntry (h : Kept (canon q) s) : KeptBy q (execD3hotEntry s) := by
  unfold Machine.execD3hotEntry
  exact (h.upd.ite h).next

theorem Kept.execD0Entry (h : Kept (canon q) s) : KeptBy q (execD0Entry s) := by
  unfold Machine.execD0Entry
  exact h.upd.sendPending.next

theorem Kept.execMsixVectorUnmask (h : Kept (canon q) s) {vector function} : KeptBy q (execMsixVectorUnmask vector function s) := by
  unfold Machine.execMsixVectorUnmask
  dsimp only
  exact .ite (.refused) <| .ite h.upd.sendPending.next h.upd.sendPending.next

theorem Kept.execCoalesceExpiry (h : Kept (canon q) s) {vector} : KeptBy q (execCoalesceExpiry vector s) := by
  unfold Machine.execCoalesceExpiry
  dsimp only
  refine .ite (.refused) ?_
  split
  · exact h.next
  · exact h.upd.next
  · exact h.upd.hostActs.next

theorem Kept.mailbox (h : Kept (canon q) s) {f} (hf : ∀ t, Kept (canon q) t → Kept (canon q) (f t)) : Kept (canon q) (s.mailbox f) :=
  .ite h <| .ite h.mbDone <| .ite h.mbDone (hf s h)

theorem Kept.execIdentify (h : Kept (canon q) s) : KeptBy q (execIdentify s) := by
  unfold Machine.execIdentify
  exact (h.mailbox (fun _ h => h.mbDone)).next

theorem Kept.execBackgroundOperationStatus (h : Kept (canon q) s) : KeptBy q (execBackgroundOperationStatus s) := by
  unfold Machine.execBackgroundOperationStatus
  exact (h.mailbox (fun _ h => h.mbDone)).next

theorem Kept.execRequestAbortBackgroundOperation (h : Kept (canon q) s) : KeptBy q (execRequestAbortBackgroundOperation s) := by
  unfold Machine.execRequestAbortBackgroundOperation
  exact (h.mailbox (fun _ h => .ite h.mbDone.endStateWait h.mbDone)).next

theorem Kept.execGetEventRecords (h : Kept (canon q) s) {log} : KeptBy q (execGetEventRecords log s) := by
  unfold Machine.execGetEventRecords
  exact (h.mailbox (fun _ h => .ite h.mbDone h.mbDone)).next

theorem Kept.execClearEventRecords (h : Kept (canon q) s) {log all handles} : KeptBy q (execClearEventRecords log all handles s) := by
  unfold Machine.execClearEventRecords
  exact (h.mailbox (fun _ h => .ite h.mbDone h.upd.mbDone)).next

theorem Kept.execGetEventInterruptPolicy (h : Kept (canon q) s) : KeptBy q (execGetEventInterruptPolicy s) := (h.mailbox (fun _ h => h.mbDone)).next

theorem Kept.execSetEventInterruptPolicy (h : Kept (canon q) s) {policy} : KeptBy q (execSetEventInterruptPolicy policy s) := by
  unfold Machine.execSetEventInterruptPolicy
  exact (h.mailbox (fun _ h => .ite h.mbDone h.upd.mbDone)).next

theorem Kept.execGetTimestamp (h : Kept (canon q) s) : KeptBy q (execGetTimestamp s) := (h.mailbox (fun _ h => h.mbDone)).next

theorem Kept.execSetTimestamp (h : Kept (canon q) s) {tn} : KeptBy q (execSetTimestamp tn s) := by
  unfold Machine.execSetTimestamp
  exact (h.mailbox (fun _ h => h.upd.mbDone)).next

theorem Kept.execGetSupportedLogs (h : Kept (canon q) s) : KeptBy q (execGetSupportedLogs s) := (h.mailbox (fun _ h => h.mbDone)).next

theorem Kept.execGetLog (h : Kept (canon q) s) {log offset length} : KeptBy q (execGetLog log offset length s) := (h.mailbox
    (fun _ h => .ite h.mbDone h.mbDone)).next

theorem Kept.execIdentifyMemoryDevice (h : Kept (canon q) s) : KeptBy q (execIdentifyMemoryDevice s) := by
  unfold Machine.execIdentifyMemoryDevice
  exact (h.mailbox (fun _ h => h.mbDone)).next

/-! ### Discovery (Machine/Discovery.lean) -/

theorem Kept.sendHello (h : Kept (canon q) s) {n} : Kept (canon q) (s.sendHello n) := by
  unfold State.sendHello
  exact h.setArch.queueFrame

theorem Kept.helloRejected (h : Kept (canon q) s) {n code} : Kept (canon q) (s.helloRejected n code) := by
  unfold State.helloRejected
  exact .ite h.count.logLimited h.count.logLimited.setArch.reroute.partnerLost

theorem Kept.helloAccepted (h : Kept (canon q) s) {n p} : Kept (canon q) (s.helloAccepted n p) := by
  unfold State.helloAccepted
  exact .ite h.setArch h.upd.startElection

theorem Kept.takeHello (h : Kept (canon q) s) {f endorsed signed} : Kept (canon q) (s.takeHello f endorsed signed) := by
  unfold State.takeHello
  exact .ite h <| .ite h.setArch.helloRejected <| .ite h.setArch.helloRejected h.setArch.helloAccepted

theorem Kept.sendElection (h : Kept (canon q) s) : Kept (canon q) s.sendElection := .ite h <| h.foldl fun _ _ h => h.sendFrame

theorem Kept.hearHead (h : Kept (canon q) s) {l p mode} : Kept (canon q) (s.hearHead l p mode) := by
  unfold State.hearHead
  exact .ite h.upd.startElectionAt h.upd

theorem Kept.takeElection (h : Kept (canon q) s) {f} : Kept (canon q) (s.takeElection f) := by
  unfold State.takeElection
  extract_lets mode p
  split
  · exact h
  · rename_i l _
    have h₁ : Kept (canon q) (if 3 < l then s.hearHead l p mode
        else if s.arcade.members.contains p then s
        else ({ s with arcade := { s.arcade with members := s.arcade.members ++ [p] } } : State).startElection) :=
      .ite h.hearHead <| .ite h h.upd.startElection
    exact h₁.upd

theorem Kept.electAbove (h : Kept (canon q) s) : Kept (canon q) s.electAbove := .ite h.startElectionAt h

theorem Kept.settle (h : Kept (canon q) s) : Kept (canon q) s.settle := by
  unfold State.settle
  dsimp only
  split
  · exact .ite (h.upd.count.logEv.ite h.upd.count).electAbove.stopUsers (h.upd.count.logEv.ite h.upd.count).electAbove
  · exact (h.upd.count.logEv.ite h.upd.count).electAbove

theorem Kept.execElectionSettle (h : Kept (canon q) s) : KeptBy q (execElectionSettle s) := .ite h.settle.next h.next

theorem Kept.helloTurn (h : Kept (canon q) s) {n} : Kept (canon q) (s.helloTurn n) := by
  unfold State.helloTurn
  exact .ite h <| .ite h.archGoesDown h.setArch.sendHello

theorem Kept.execHelloInterval (h : Kept (canon q) s) : KeptBy q (execHelloInterval s) := by
  unfold Machine.execHelloInterval
  extract_lets s₁ _ s₂
  have h₁ : Kept (canon q) s₁ := h.foldl fun _ _ h => h.helloTurn
  clear_value s₁
  have h₂ : Kept (canon q) s₂ := .ite h₁.upd.sendElection h₁
  exact h₂.tick.next

theorem Kept.execTimeExchangeTick (h : Kept (canon q) s) : KeptBy q (execTimeExchangeTick s) := by
  unfold Machine.execTimeExchangeTick
  dsimp only
  refine .ite h.next <| .ite h.odPut.next <| .ite h.next ?_
  split
  · exact h.upd.odPut.next
  · exact (h.upd.odPut.ite h.upd).next

theorem Kept.execTimeReq (h : Kept (canon q) s) {arch t1 t2 t3} : KeptBy q (execTimeReq arch t1 t2 t3 s) := by
  unfold Machine.execTimeReq
  dsimp only
  exact .ite (.refused) <| .ite h.next h.setArch.next

theorem Kept.timeTaken (h : Kept (canon q) s) {offset near} : Kept (canon q) (s.timeTaken offset near) := by
  unfold State.timeTaken
  exact h.upd.odPut

theorem Kept.execTimeResp (h : Kept (canon q) s) {arch t1 t2 t3 t4} : KeptBy q (execTimeResp arch t1 t2 t3 t4 s) :=
  .ite (.refused) <| .ite h.next h.timeTaken.next

theorem Kept.announce (h : Kept (canon q) s) : Kept (canon q) s.announce := by
  unfold State.announce
  exact .ite h <| h.foldl fun _ _ h => h.sendFrame

theorem Kept.execRackSyncPulse (h : Kept (canon q) s) : KeptBy q (execRackSyncPulse s) := by
  unfold Machine.execRackSyncPulse
  dsimp only
  refine .ite h.next (Kept.announce ?_).next
  split
  · exact h.upd.odPut
  · exact h.upd

theorem Kept.takeSync (h : Kept (canon q) s) {f} : Kept (canon q) (s.takeSync f) := by
  unfold State.takeSync
  exact .ite h.upd h

theorem Kept.execRackRefLost (h : Kept (canon q) s) : KeptBy q (execRackRefLost s) := by
  unfold Machine.execRackRefLost
  exact .ite h.next h.upd.logEv.next

theorem Kept.execTimeUnaligned (h : Kept (canon q) s) : KeptBy q (execTimeUnaligned s) := by
  unfold Machine.execTimeUnaligned
  exact .ite h.next h.upd.odPut.count.logEv.next

/-! ### Eop (Machine/Eop.lean) -/

theorem Kept.eopAccept (h : Kept (canon q) s) {key seq} : Kept (canon q) (s.eopAccept key seq) := by
  unfold State.eopAccept
  exact h.upd

theorem Kept.eopCheck (h : Kept (canon q) s) {b sigOk} : Kept (canon q) (s.eopCheck b sigOk).2 := by
  unfold State.eopCheck
  exact .iteSnd h.count <| .iteSnd h.count <| .iteSnd h.count <| .iteSnd h.count <| .iteSnd h.eopAccept.count h.eopAccept.count

/-! ### Newel (Machine/Newel.lean) -/

theorem Kept.execNewelRestart (h : Kept (canon q) s) {cause tableOk} : KeptBy q (execNewelRestart cause tableOk s) := by
  unfold Machine.execNewelRestart
  refine .ite h.next ?_
  extract_lets _ s₁ s₂ _
  have h₂ : Kept (canon q) s₂ := h.upd.count.raiseFault
  clear_value s₂
  exact (h₂.ite h₂.upd.enterSafeStop).next

theorem Kept.takeQueued (h : Kept (canon q) s) {e} : Kept (canon q) (s.takeQueued e) := by
  unfold State.takeQueued
  dsimp only
  split
  · exact h.record
  · exact .ite h.takeFault.weightPoisoned h.takeFault

theorem Kept.execNewelRestartDone (h : Kept (canon q) s) : KeptBy q (execNewelRestartDone s) := by
  unfold Machine.execNewelRestartDone
  exact .ite h.next (h.upd.foldl fun _ _ h => h.takeQueued).next

theorem Kept.takeReading (h : Kept (canon q) s) {r} : Kept (canon q) (s.takeReading r) := by
  unfold State.takeReading
  exact .ite h <| .ite (h.upd.ite h.upd).count.logEv <| .ite h.upd h.upd

theorem Kept.stackRow (h : Kept (canon q) s) {n} : Kept (canon q) (s.stackRow n) := by
  unfold State.stackRow
  dsimp only
  split
  · exact h
  · exact .ite h.odPut.fatal <| .ite (h.odPut.odPut.count.ite h.odPut.odPut).logEv <| .ite h.odPut.odPut.count h.odPut.odPut

theorem Kept.mezzRow (h : Kept (canon q) s) {p} : Kept (canon q) (s.mezzRow p) := by
  unfold State.mezzRow
  dsimp only
  split
  · exact h
  · refine .ite (Kept.fatal ?_) <| .ite (Kept.ite (Kept.count ?_) ?_).logEv <| .ite (Kept.count ?_) ?_
    · split
      · exact h.odPut
      · exact h
    · split
      · exact h.upd
      · exact h.upd
    · split
      · exact h.upd
      · exact h.upd
    · split
      · exact h.upd
      · exact h.upd
    · split
      · exact h.upd
      · exact h.upd

theorem Kept.dropRates (h : Kept (canon q) s) : Kept (canon q) s.dropRates := by
  unfold State.dropRates
  exact h.upd

theorem Kept.execSensorSample (h : Kept (canon q) s) {rs} : KeptBy q (execSensorSample rs s) := by
  unfold Machine.execSensorSample
  refine .ite h.next ?_
  extract_lets s₁ sts packs halls s₂ s₃ s₄ s₅
  have h₂ : Kept (canon q) s₂ := (h.foldl fun _ _ h => h.takeReading).dropRates.foldl fun _ _ h => .ite h.stackRow h
  have h₄ : Kept (canon q) s₄ := (h₂.foldl fun _ _ h => .ite h.mezzRow h).foldl fun _ _ h => h.odPut
  have h₅ : Kept (canon q) s₅ := by
    unfold s₅
    split
    · exact h₄.odPut
    · exact h₄
  split
  · exact h₅.odPut.next
  · exact h₅.next

theorem Kept.execLogIntervalEnd (h : Kept (canon q) s) {code subject} : KeptBy q (execLogIntervalEnd code subject s) := (h.ite h.logIntervalOver).next

theorem Kept.execPersistRecord (h : Kept (canon q) s) : KeptBy q (execPersistRecord s) := by
  unfold Machine.execPersistRecord
  dsimp only
  refine Kept.next ?_
  split
  · exact h
  · exact .ite h h.upd

theorem Kept.countService (h : Kept (canon q) s) {asserted} : Kept (canon q) (s.countService asserted) := by
  unfold State.countService
  refine .ite h ?_
  extract_lets _ s₁ s₂ a _ s₃ _
  have h₁ : Kept (canon q) s₁ := h.upd
  have h₂ : Kept (canon q) s₂ := h₁.logEv.count
  clear_value s₂
  have h₃ : Kept (canon q) s₃ := .ite h₂.upd h₂
  clear_value s₃
  exact .ite h₁.logEv <| .ite h₃ <| .ite h₃.ownRequest <| .ite h₃.upd h₃

theorem Kept.execServiceReq (h : Kept (canon q) s) {asserted stable} : KeptBy q (execServiceReq asserted stable s) := by
  unfold Machine.execServiceReq
  exact (h.ite ((h.ite h.countService).ite (h.upd.logEv.ite h.upd))).next

theorem Kept.execServiceChatterEnd (h : Kept (canon q) s) {asserted} : KeptBy q (execServiceChatterEnd asserted s) := by
  unfold Machine.execServiceChatterEnd
  exact (h.upd.countService.ite h).next

theorem Kept.execServiceStandbyTimer (h : Kept (canon q) s) : KeptBy q (execServiceStandbyTimer s) := by
  unfold Machine.execServiceStandbyTimer
  dsimp only
  refine Kept.next ?_
  split
  · exact h
  · exact .ite h <| .ite h.upd.ownRequest h.upd

theorem Kept.execThermtrip (h : Kept (canon q) s) {sensor milliC} : KeptBy q (execThermtrip sensor milliC s) := by
  unfold Machine.execThermtrip
  exact (h.ite h.upd.fatal).next

theorem Kept.smbusRead (h : Kept (canon q) s) {pecOk cmd data} : KeptBy q (s.smbusRead pecOk cmd data) := by
  unfold State.smbusRead
  exact .ite h.emit.next h.emit.next

theorem Kept.execSmbusReadModuleState (h : Kept (canon q) s) {pecOk} : KeptBy q (execSmbusReadModuleState pecOk s) := h.smbusRead

theorem Kept.execSmbusReadAlertCauses (h : Kept (canon q) s) {pecOk} : KeptBy q (execSmbusReadAlertCauses pecOk s) := h.smbusRead

theorem Kept.execSmbusReadHallTemp (h : Kept (canon q) s) {pecOk} : KeptBy q (execSmbusReadHallTemp pecOk s) := h.tick.smbusRead

theorem Kept.execSmbusReadStackTemp (h : Kept (canon q) s) {pecOk} : KeptBy q (execSmbusReadStackTemp pecOk s) := h.tick.smbusRead

theorem Kept.execSmbusReadCoolantInlet (h : Kept (canon q) s) {pecOk} : KeptBy q (execSmbusReadCoolantInlet pecOk s) := h.tick.smbusRead

theorem Kept.execSmbusReadCoolantOutlet (h : Kept (canon q) s) {pecOk} : KeptBy q (execSmbusReadCoolantOutlet pecOk s) := h.tick.smbusRead

theorem Kept.execSmbusReadInputVoltage (h : Kept (canon q) s) {pecOk} : KeptBy q (execSmbusReadInputVoltage pecOk s) := h.smbusRead

theorem Kept.execSmbusReadInputCurrent (h : Kept (canon q) s) {pecOk} : KeptBy q (execSmbusReadInputCurrent pecOk s) := h.tick.smbusRead

theorem Kept.execSmbusReadInputPower (h : Kept (canon q) s) {pecOk} : KeptBy q (execSmbusReadInputPower pecOk s) := h.smbusRead

theorem Kept.execSmbusReadIdentity (h : Kept (canon q) s) {pecOk} : KeptBy q (execSmbusReadIdentity pecOk s) := by
  unfold Machine.execSmbusReadIdentity
  exact h.smbusRead

theorem Kept.execSmbusReadFwVersion (h : Kept (canon q) s) {pecOk} : KeptBy q (execSmbusReadFwVersion pecOk s) := h.smbusRead

theorem Kept.execAlertResponseAddress (h : Kept (canon q) s) {pecOk} : KeptBy q (execAlertResponseAddress pecOk s) := by
  unfold Machine.execAlertResponseAddress
  exact .ite h.emit.next h.emit.next

theorem Kept.fwRefuse (h : Kept (canon q) s) {code} : Kept (canon q) (s.fwRefuse code) := by
  unfold State.fwRefuse
  exact (h.upd.ite h.odPut.odPut).logEv

theorem Kept.fwReceived (h : Kept (canon q) s) {b sigOk digestOk} : Kept (canon q) (s.fwReceived b sigOk digestOk).2 := by
  unfold State.fwReceived
  exact .iteSnd h.odPut.fwRefuse <| .iteSnd h.odPut.fwRefuse <| .iteSnd h.odPut.fwRefuse <| .iteSnd h.odPut.fwRefuse h.upd.odPut.odPut

theorem Kept.execFwProgramDone (h : Kept (canon q) s) {ok} : KeptBy q (execFwProgramDone ok s) := by
  unfold Machine.execFwProgramDone
  dsimp only
  refine (Kept.ite h ?_).next
  split
  · exact h
  · exact .ite h.upd.odPut.odPut.odPut h.upd.odPut.odPut.logEv

/-! ### Power (Machine/Power.lean) -/

theorem Kept.railsToFloor (h : Kept (canon q) s) : Kept (canon q) s.railsToFloor := h.foldl fun _ _ h => h.odPut

theorem Kept.hotPeriod (h : Kept (canon q) s) {hall tn} : Kept (canon q) (s.hotPeriod hall tn) := by
  unfold State.hotPeriod
  dsimp only
  split
  · exact .ite h.upd.logEv h
  · exact .ite h h.upd
  · exact .ite h.upd <| .ite h.upd h

theorem Kept.governHall (h : Kept (canon q) s) {avgW top hall} : Kept (canon q) (s.governHall avgW top hall) := by
  unfold State.governHall
  exact h.hotPeriod.odPut

theorem Kept.capHold (h : Kept (canon q) s) {avgW} : Kept (canon q) (s.capHold avgW) := by
  unfold State.capHold
  dsimp only
  refine .ite ?_ <| .ite ?_ <| .ite h.count h
  · split
    · exact h.upd
    · exact h.upd
  · split
    · refine Kept.logEv ?_
      split
      · exact h.upd
      · exact h.upd
    · refine .ite ?_ <| .ite h.count h
      split
      · exact h.upd
      · exact h.upd

theorem Kept.execGovernorTick (h : Kept (canon q) s) {avgW} : KeptBy q (execGovernorTick avgW s) := by
  unfold Machine.execGovernorTick
  exact .ite h.next ((h.upd.odPut.foldl fun _ _ h => h.governHall).capHold.ite h.upd.odPut).next

theorem Kept.execRateBelowFloor (h : Kept (canon q) s) {hall} : KeptBy q (execRateBelowFloor hall s) := .ite (.refused) (h.logEv.count.ite h).next

theorem Kept.execPowerFastLimit (h : Kept (canon q) s) {overWatts} : KeptBy q (execPowerFastLimit overWatts s) := by
  unfold Machine.execPowerFastLimit
  exact (h.ite (h.upd.fatal.ite h.upd.railsToFloor.count.logLimited)).next

theorem Kept.execFastLimitHoldEnd (h : Kept (canon q) s) : KeptBy q (execFastLimitHoldEnd s) := by
  unfold Machine.execFastLimitHoldEnd
  exact h.upd.next

theorem Kept.execInputVoltageEvent (h : Kept (canon q) s) {mv} : KeptBy q (execInputVoltageEvent mv s) := by
  unfold Machine.execInputVoltageEvent
  extract_lets _ s₁ _ s₂ _ s₃
  have h₁ : Kept (canon q) s₁ := h.odPut
  clear_value s₁
  have h₂ : Kept (canon q) s₂ := .ite h₁ h₁.upd.logEv
  clear_value s₂
  have h₃ : Kept (canon q) s₃ := h₂.upd.railsToFloor
  exact (Kept.ite (.ite h.upd h) <| .ite h.toOff <| .ite h.toOff <| .ite h₁.upd <| .ite h₃.enterSafeStop h₃).next

theorem Kept.switchFreq (h : Kept (canon q) s) : Kept (canon q) s.switchFreq := by
  unfold State.switchFreq
  exact .ite h h.odPut.count.logEv.upd

theorem Kept.execFreqQualify (h : Kept (canon q) s) {source usable qualified} : KeptBy q (execFreqQualify source usable qualified s) := by
  unfold Machine.execFreqQualify
  exact (h.ite h.upd.switchFreq).next

theorem Kept.freqUnusable (h : Kept (canon q) s) {c} : Kept (canon q) (s.freqUnusable c) := by
  unfold State.freqUnusable
  exact h.upd.switchFreq

theorem Kept.holdover (h : Kept (canon q) s) : Kept (canon q) s.holdover := by
  unfold State.holdover
  exact h.upd.odPut.count.logEv

theorem Kept.sourceLost (h : Kept (canon q) s) {pps} : Kept (canon q) (s.sourceLost pps) := by
  unfold State.sourceLost
  exact .ite h.holdover h

theorem Kept.execTimebaseLockCheck (h : Kept (canon q) s) {present offset} : KeptBy q (execTimebaseLockCheck present offset s) := by
  unfold Machine.execTimebaseLockCheck
  refine .ite h.next <| .ite h.odPut.next <| .ite h.odPut.next ?_
  extract_lets st _ s₁ step big _ s₂ _ s₃ n _ s₄
  have h₁ : Kept (canon q) s₁ := h.odPut
  clear_value s₁
  have h₂ : Kept (canon q) s₂ := .ite h₁.upd.logEv h₁
  clear_value s₂
  have h₃ : Kept (canon q) s₃ := .ite h₂.upd h₂.upd
  clear_value s₃
  have h₄ : Kept (canon q) s₄ := h₃.upd
  exact (Kept.ite (.ite h.holdover <| .ite h.upd.odPut h.upd.odPut) <| .ite h₄ <| .ite h₄.odPut <| .ite h₄ h₄.odPut).next

theorem Kept.tickEpoch (h : Kept (canon q) s) : Kept (canon q) s.tickEpoch := by
  unfold State.tickEpoch
  exact .ite h <| .ite h.upd <| .ite h.upd <| .ite h.upd h.upd

theorem Kept.execTcxoStart (h : Kept (canon q) s) {ok} : KeptBy q (execTcxoStart ok s) := by
  unfold Machine.execTcxoStart
  exact (h.ite (h.upd.ite h.upd.logEv)).next

theorem Kept.execPllLock (h : Kept (canon q) s) {unit locked} : KeptBy q (execPllLock unit locked s) := by
  unfold Machine.execPllLock
  exact (h.ite (h.ite (h.upd.ite (h.upd.ite h.upd.logEv)))).next

theorem Kept.measStart (h : Kept (canon q) s) {v} : Kept (canon q) (s.measStart v).2 := by
  unfold State.measStart
  exact .iteSnd h <| .iteSnd h <| .iteSnd h h.odPut

theorem Kept.execMeasDone (h : Kept (canon q) s) {count} : KeptBy q (execMeasDone count s) := (h.odPut.odPut.ite h).next

/-! ### Foyer (Machine/Foyer.lean) -/

theorem Kept.logMany (h : Kept (canon q) s) {ev subject interval n} : Kept (canon q) (s.logMany ev subject interval n) := by
  unfold State.logMany
  exact .ite h h.logLimited.upd

theorem Kept.balFail (h : Kept (canon q) s) : Kept (canon q) s.balFail := h.count.logLimited

theorem Kept.balRefuse (h : Kept (canon q) s) : Kept (canon q) s.balRefuse := h.count.logLimited

theorem Kept.balTake (h : Kept (canon q) s) {typ m} : Kept (canon q) (s.balTake typ m).2 := by
  unfold State.balTake
  dsimp only
  split
  · dsimp only
    exact h
  · exact .iteSnd h <| .iteSnd h.upd.balFail <| .iteSnd h.upd.balFail <| .iteSnd h.upd.balRefuse <| .iteSnd h.upd.balRefuse h.upd

theorem Kept.refill (h : Kept (canon q) s) {entry} : Kept (canon q) (s.refill entry) := h.aggRefill.modCell

theorem Kept.policeRecord (h : Kept (canon q) s) {c r port arrival} : Kept (canon q) (s.policeRecord c r port arrival) := by
  unfold State.policeRecord
  exact .ite h.refill.count.modCell.logLimited <| .ite (h.upd.modCell.count.ite h.upd.modCell).modCell h.upd.modCell.balSend

theorem Kept.takeRecord (h : Kept (canon q) s) {r port arrival} : Kept (canon q) (s.takeRecord r port arrival) := by
  unfold State.takeRecord
  dsimp only
  refine .ite h.count.logMany ?_
  split
  · exact h.count.logLimited
  · split
    · exact h.count
    · exact .ite h.count <| .ite h.count.modCell h.modCell.policeRecord

theorem Kept.execTelemetryDatagram (h : Kept (canon q) s) {d arrival} : KeptBy q (execTelemetryDatagram d arrival s) := by
  unfold Machine.execTelemetryDatagram
  dsimp only
  exact .ite (.refused) <| .ite h.next <| .ite h.count.next <| .ite h.count.logMany.next (h.foldl fun _ _ h => h.takeRecord).next

theorem Kept.gateWrite (h : Kept (canon q) s) {c r port arrival} : Kept (canon q) (s.gateWrite c r port arrival) := by
  unfold State.gateWrite
  exact (h.foldl fun _ _ h => h.devWrite).devWrite.modCell.putSw

theorem Kept.gateReady (h : Kept (canon q) s) {c arrival} : Kept (canon q) (s.gateReady c arrival) := by
  unfold State.gateReady
  exact h.putSw.putSw.putSw.modStream.flushWords.flushWords.foldl fun _ _ h => .ite h.openStep h

theorem Kept.execTelemetry (h : Kept (canon q) s) {m} : KeptBy q (execTelemetry m s) := by
  unfold Machine.execTelemetry
  dsimp only
  refine .ite h.balTake.next ?_
  split
  · exact h.balTake.balRefuse.next
  · exact .ite h.balTake.balRefuse.next h.balTake.count.gateWrite.gateReady.next

theorem Kept.execRecommend (h : Kept (canon q) s) {m} : KeptBy q (execRecommend m s) := by
  unfold Machine.execRecommend
  dsimp only
  refine .ite h.balTake.next ?_
  split
  · exact h.balTake.next
  · exact .ite h.balTake.count.next h.balTake.count.emit.next

theorem Kept.execEopDatagram (h : Kept (canon q) s) {d} :
    KeptBy q (execEopDatagram d s) := .ite (.refused) <| .ite h.next <| .ite h.count.next h.balSend.next

theorem Kept.execEopReq (h : Kept (canon q) s) {m sigOk} : KeptBy q (execEopReq m sigOk s) := by
  unfold Machine.execEopReq
  dsimp only
  exact .ite h.balTake.next <| .ite h.balTake.balRefuse.next <| .ite h.balTake.next <| .ite h.balTake.eopCheck.next h.balTake.eopCheck.upd.next

theorem Kept.execEopResp (h : Kept (canon q) s) {m} : KeptBy q (execEopResp m s) := by
  unfold Machine.execEopResp
  dsimp only
  refine .ite h.balTake.next ?_
  split
  · exact h.balTake.next
  · exact h.balTake.emit.next

theorem Kept.execTimeReport (h : Kept (canon q) s) {m} : KeptBy q (execTimeReport m s) := by
  unfold Machine.execTimeReport
  dsimp only
  exact .ite h.balTake.next <| .ite (h.balTake.odPut.odPut.ite h.balTake.odPut).odPut.next (h.balTake.odPut.odPut.ite h.balTake.odPut).next

theorem Kept.execFoyerEvent (h : Kept (canon q) s) {m} : KeptBy q (execFoyerEvent m s) := by
  unfold Machine.execFoyerEvent
  dsimp only
  exact .ite h.balTake.next <| .ite h.balTake.balRefuse.next <| .ite h.balTake.logMany.next h.balTake.logEv.next

theorem Kept.execMapUpdate (h : Kept (canon q) s) {m} : KeptBy q (execMapUpdate m s) := by
  unfold Machine.execMapUpdate
  dsimp only
  exact .ite h.balTake.next h.balTake.upd.next

theorem Kept.sendConfig (h : Kept (canon q) s) {k} : Kept (canon q) (s.sendConfig k) := by
  unfold State.sendConfig
  exact .ite h h.balSend

theorem Kept.setPtp (h : Kept (canon q) s) {st} : Kept (canon q) (s.setPtp st) := by
  unfold State.setPtp
  exact .ite h.odPut.freqUnusable.sourceLost h.odPut

theorem Kept.ptpRestart (h : Kept (canon q) s) : Kept (canon q) s.ptpRestart := h.setPtp

theorem Kept.applyConfig (h : Kept (canon q) s) {k v} : Kept (canon q) (s.applyConfig k v) := by
  unfold State.applyConfig
  exact .ite h.upd.ptpRestart h.upd

theorem Kept.execConfig (h : Kept (canon q) s) {m} : KeptBy q (execConfig m s) := by
  unfold Machine.execConfig
  dsimp only
  exact .ite h.balTake.next <| .ite h.balTake.balRefuse.next h.balTake.applyConfig.next

theorem Kept.execTimeSet (h : Kept (canon q) s) {m} : KeptBy q (execTimeSet m s) := by
  unfold Machine.execTimeSet
  dsimp only
  exact .ite h.balTake.next h.balTake.upd.next

theorem Kept.announceSecond (h : Kept (canon q) s) : Kept (canon q) s.announceSecond := h.balSend

theorem Kept.idleTick (h : Kept (canon q) s) : Kept (canon q) s.idleTick := by
  unfold State.idleTick
  exact .ite h.tickEpoch.announceSecond h.tickEpoch

theorem Kept.execFirmware (h : Kept (canon q) s) {m} : KeptBy q (execFirmware m s) := by
  unfold Machine.execFirmware
  dsimp only
  exact .ite h.balTake.next <| .ite h.balTake.balRefuse.next h.balTake.upd.odPut.next

theorem Kept.foyerLoaded (h : Kept (canon q) s) : Kept (canon q) s.foyerLoaded := by
  unfold State.foyerLoaded
  exact h.upd.odPut.ptpRestart.foldl fun _ _ h => h.mapUpdate

theorem Kept.execHeartbeat (h : Kept (canon q) s) {m} : KeptBy q (execHeartbeat m s) := by
  unfold Machine.execHeartbeat
  dsimp only
  exact .ite h.balTake.next (h.balTake.upd.foyerLoaded.ite h.balTake.upd).next

theorem Kept.execHeartbeatTimeout (h : Kept (canon q) s) : KeptBy q (execHeartbeatTimeout s) := by
  unfold Machine.execHeartbeatTimeout
  exact .ite h.next h.setPtp.odPut.logEv.upd.next

theorem Kept.synce (h : Kept (canon q) s) : Kept (canon q) s.synce := by
  unfold State.synce
  exact .ite (h.odPut.ite h.odPut.freqUnusable) (h.odPut.ite h.odPut.freqUnusable).freqUnusable

theorem Kept.execPortLinkChange (h : Kept (canon q) s) {port up} : KeptBy q (execPortLinkChange port up s) := by
  unfold Machine.execPortLinkChange
  dsimp only
  exact .ite (.refused) <| .ite h.next (h.odPut.logEv.ite h.odPut).synce.next

theorem Kept.execSfpInserted (h : Kept (canon q) s) {port is25gSr milliwatts} : KeptBy q (execSfpInserted port is25gSr milliwatts s) := by
  unfold Machine.execSfpInserted
  dsimp only
  exact .ite (.refused) <| .ite h.next <| .ite h.upd.next h.upd.odPut.logEv.synce.next

theorem Kept.execIcmpEcho (h : Kept (canon q) s) {port payload} : KeptBy q (execIcmpEcho port payload s) := by
  unfold Machine.execIcmpEcho
  dsimp only
  exact .ite (.refused) <| .ite h.next <| .ite h.next h.upd.emit.next

theorem Kept.execEsmcPdu (h : Kept (canon q) s) {port ql} : KeptBy q (execEsmcPdu port ql s) := by
  unfold Machine.execEsmcPdu
  dsimp only
  exact .ite (.refused) <| .ite h.next h.upd.synce.next

theorem Kept.execEsmcTimeout (h : Kept (canon q) s) {port} : KeptBy q (execEsmcTimeout port s) := by
  unfold Machine.execEsmcTimeout
  dsimp only
  refine .ite (.refused) ?_
  split
  · exact h.next
  · exact h.upd.synce.next

theorem Kept.execPtpMessage (h : Kept (canon q) s) {port transport domain msgType offset} :
    KeptBy q (execPtpMessage port transport domain msgType offset s) := by
  unfold Machine.execPtpMessage
  exact .ite h.next <| .ite (h.upd.setPtp.ite h.upd).next <| .ite (.ite h.next h.upd.emit.next) <| .ite h.odPut.setPtp.next h.next

theorem Kept.execPtpLost (h : Kept (canon q) s) : KeptBy q (execPtpLost s) := by
  unfold Machine.execPtpLost
  exact (h.ite h.logEv.setPtp).next

theorem Kept.execPpsEdge (h : Kept (canon q) s) {time} : KeptBy q (execPpsEdge time s) := by
  unfold Machine.execPpsEdge
  dsimp only
  refine .ite h.next ?_
  split
  · exact .ite h.upd.next h.count.next
  · exact (h.upd.odPut.ite h.upd).next

theorem Kept.ppsValid (h : Kept (canon q) s) {edge} : Kept (canon q) (s.ppsValid edge) := by
  unfold State.ppsValid
  exact h.upd.odPut.odPut

theorem Kept.execPpsWindowEnd (h : Kept (canon q) s) {time} : KeptBy q (execPpsWindowEnd time s) := by
  unfold Machine.execPpsWindowEnd
  dsimp only
  refine .ite h.next ?_
  split
  · exact h.ppsValid.next
  · exact .ite h.upd.odPut.logEv.sourceLost.next h.upd.next

theorem Kept.execRef10Measure (h : Kept (canon q) s) {ppb missing} : KeptBy q (execRef10Measure ppb missing s) := by
  unfold Machine.execRef10Measure
  exact .ite h.next ((h.upd.odPut.ite h.upd).ite (h.upd.odPut.logEv.freqUnusable.ite h.upd)).next

theorem Kept.execPpsOutPulse (h : Kept (canon q) s) : KeptBy q (execPpsOutPulse s) := by
  unfold Machine.execPpsOutPulse
  dsimp only
  split
  · exact h.next
  · exact .ite h.next (h.upd.emit.ite h.upd).next

/-! ### Placement (Machine/Placement.lean) -/

theorem Kept.refuseLoad (h : Kept (canon q) s) {m code} : Kept (canon q) (s.refuseLoad m code) := by
  unfold State.refuseLoad
  dsimp only
  split
  · exact h
  · exact h.upd.count

theorem Kept.refuseAll (h : Kept (canon q) s) {m code x} : Kept (canon q) (s.refuseAll m code x) := h.releaseShares.refuseLoad

theorem Kept.loadBegin (h : Kept (canon q) s) {d} : Kept (canon q) (s.loadBegin d).2 := by
  unfold State.loadBegin
  dsimp only
  refine .iteSnd ?_ <| .iteSnd h.count <| .iteSnd h.count h.upd
  split
  · exact .iteSnd h.upd h.refuseAll
  · dsimp only
    exact h

theorem Kept.loadPlan (h : Kept (canon q) s) {m p} : Kept (canon q) (s.loadPlan m p) := by
  unfold State.loadPlan
  dsimp only
  split
  · exact h
  · exact .ite h <| .ite h.refuseLoad <| .ite h.refuseLoad h.upd

theorem Kept.loadRequest (h : Kept (canon q) s) {b p} : Kept (canon q) (s.loadRequest b p).2 := by
  unfold State.loadRequest
  dsimp only
  exact .iteSnd h <| .iteSnd h.loadBegin h.loadBegin.loadPlan

theorem Kept.packSlice (h : Kept (canon q) s) {x k sl} : Kept (canon q) (s.packSlice x k sl).2 := by
  unfold State.packSlice
  exact .iteSnd h <| .ite h.count.counts.devWrite.devWrite.devWrite h.count.counts.devWrite.devWrite.devWrite.devWrite

theorem Kept.modelLoaded (h : Kept (canon q) s) {m x p} : Kept (canon q) (s.modelLoaded m x p) := by
  unfold State.modelLoaded
  exact .ite (h.upd.newEpoch.foldl fun _ _ h => h.bindCell) h.upd.newEpoch

theorem Kept.sendShare (h : Kept (canon q) s) {x sl} : Kept (canon q) (s.sendShare x sl).2 := by
  unfold State.sendShare
  exact .iteSnd h <| h.foldl fun _ _ h => h.moveTo

theorem Kept.loadProgress (h : Kept (canon q) s) {m} : Kept (canon q) (s.loadProgress m) := by
  unfold State.loadProgress
  dsimp only
  split
  · exact h
  · refine .ite h <| .ite h.upd <| .ite h ?_
    split
    · exact h
    · exact h.modelLoaded

theorem Kept.packPart (h : Kept (canon q) s) {m x p} : Kept (canon q) (s.packPart m x p) := by
  unfold State.packPart
  extract_lets sl
  have hp : ∀ l : List (Slice × Nat), Kept (canon q) (l.foldl (fun (r : ModelSt × State) e => r.2.packSlice r.1 e.2 e.1) (x, s)).2 := fun l =>
    foldl_keeps (fun r : ModelSt × State => Kept (canon q) r.2) _ (fun _ _ h => h.packSlice) l h
  generalize hr : (sl.filter (fun e => s.holds e.1)).foldl (fun (r : ModelSt × State) e => r.2.packSlice r.1 e.2 e.1) (x, s) = r
  obtain ⟨x₁, s₁⟩ := r
  have h₁ : Kept (canon q) s₁ := .of_snd hr (hp _)
  refine .ite h₁.refuseAll ?_
  have hs : ∀ l : List (Slice × Nat), Kept (canon q) (l.foldl (fun (r : ModelSt × State) e => r.2.sendShare r.1 e.1) (x₁, s₁)).2 := fun l =>
    foldl_keeps (fun r : ModelSt × State => Kept (canon q) r.2) _ (fun _ _ h => h.sendShare) l h₁
  generalize hr : (sl.filter (fun e => !s₁.holds e.1 && s₁.isManager)).foldl (fun (r : ModelSt × State) e => r.2.sendShare r.1 e.1) (x₁, s₁) = r
  obtain ⟨x₂, s₂⟩ := r
  have h₂ : Kept (canon q) s₂ := .of_snd hr (hs _)
  have h₃ : Kept (canon q) { s₂ with serve := { s₂.serve with models := kput m { x₂ with packed := true } s₂.serve.models } } := h₂.upd
  exact (Kept.ite (h₃.foldl fun _ _ h => h.landCopy) h₃).loadProgress

theorem Kept.execPackingDone (h : Kept (canon q) s) {model out} : KeptBy q (execPackingDone model out s) := by
  unfold Machine.execPackingDone
  dsimp only
  split
  · exact h.next
  · split
    · exact h.next
    · refine .ite h.next ?_
      split
      · exact h.refuseAll.next
      · exact .ite h.upd.loadProgress.next <| .ite h.upd.refuseAll.next <| .ite h.upd.refuseAll.next h.upd.packPart.next

theorem Kept.execPartTimeout (h : Kept (canon q) s) {model} : KeptBy q (execPartTimeout model s) := by
  unfold Machine.execPartTimeout
  refine Kept.next ?_
  split
  · exact .ite h.refuseAll h
  · exact h

theorem Kept.unload (h : Kept (canon q) s) {m} : Kept (canon q) (s.unload m).2 := by
  unfold State.unload
  exact .iteSnd h <| .iteSnd h h.releaseModel.closeSettled

theorem Kept.planReplace (h : Kept (canon q) s) {job r} : Kept (canon q) (s.planReplace job r) := by
  unfold State.planReplace
  exact .ite h.setJob h.replaceJob

theorem Kept.execReplacement (h : Kept (canon q) s) {job slices} : KeptBy q (execReplacement job slices s) := (h.planReplace.ite h).next

theorem Kept.execRebalancePeriod (h : Kept (canon q) s) {model loads} : KeptBy q (execRebalancePeriod model loads s) := by
  unfold Machine.execRebalancePeriod
  dsimp only
  split
  · exact h.next
  · exact .ite h.next <| .ite h.next (h.foldl fun _ _ h => h.planReplace).next

theorem Kept.execBatchWaitExpiry (h : Kept (canon q) s) {hall model cls} : KeptBy q (execBatchWaitExpiry hall model cls s) :=
  .ite (.refused) <| .ite (h.foldl fun _ _ h => h.openStep).next h.next

theorem Kept.execPromptShareWindow (h : Kept (canon q) s) {hall} : KeptBy q (execPromptShareWindow hall s) := by
  unfold Machine.execPromptShareWindow
  dsimp only
  exact .ite (.refused) h.upd.next

theorem Kept.execTtlCheck (h : Kept (canon q) s) : KeptBy q (execTtlCheck s) := (h.foldl fun _ _ h => h.count.endStream).next

theorem Kept.moveSpans (h : Kept (canon q) s) {hall toRun p l} : Kept (canon q) (s.moveSpans hall toRun p l) := by
  induction l generalizing s p with
  | nil => exact h
  | cons b l ih => exact ih (.ite h.moveRegion h.moveRegion)

theorem Kept.parkSpans (h : Kept (canon q) s) {hall at_ bs} : Kept (canon q) (s.parkSpans hall at_ bs) := h.moveSpans.devWrite

theorem Kept.execParkDone (h : Kept (canon q) s) {stream mezzAddr} : KeptBy q (execParkDone stream mezzAddr s) := by
  unfold Machine.execParkDone
  dsimp only
  split
  · exact h.next
  · exact .ite h.next h.parkSpans.moveRegion.moveRegion.parkSpans.poolFree.modStream.counts.setState.parkLow.next

theorem Kept.execRestoreDone (h : Kept (canon q) s) {stream} : KeptBy q (execRestoreDone stream s) := by
  unfold Machine.execRestoreDone
  split
  · exact h.next
  · split
    · exact h.next
    · extract_lets hall draft
      refine .ite h.next ?_
      split
      · rename_i heq _
        have h₁ := h.reserve heq
        exact (h₁.moveSpans.moveRegion.moveRegion.moveSpans.modStream.count.parkLow).next
      · exact h.next

/-! ### Start (Machine/Start.lean) -/

theorem Kept.execHotswapClose (h : Kept (canon q) s) {mv} : KeptBy q (execHotswapClose mv s) := by
  unfold Machine.execHotswapClose
  exact (h.upd.ite h).next

theorem Kept.execMateDetOpen (h : Kept (canon q) s) : KeptBy q (execMateDetOpen s) := by
  unfold Machine.execMateDetOpen
  extract_lets t
  have ht : Kept (canon q) t := h.toOff
  exact ht.upd.next

theorem Kept.booted (h : Kept (canon q) s) {slot} : Kept (canon q) (s.booted slot) := by
  unfold State.booted
  exact h.upd

theorem Kept.execPowerGood (h : Kept (canon q) s) {slotOk tcxoOk} : KeptBy q (execPowerGood slotOk tcxoOk s) := by
  unfold Machine.execPowerGood
  refine .ite h.next ?_
  extract_lets owed s₁ _ _ s₂ s₃ s₄ s₅
  have h₁ : Kept (canon q) s₁ := h.booted
  clear_value s₁
  have h₃ : Kept (canon q) s₃ := h₁.upd.setMode
  have h₄ : Kept (canon q) s₄ := h₃.logEv.ite h₃
  have h₅ : Kept (canon q) s₅ := h₄.ite h₄.logEv
  exact (h₅.odPut.raiseFault.ite h₅).next

theorem Kept.pllFailed (h : Kept (canon q) s) {unit hall u} : Kept (canon q) (s.pllFailed unit hall u) := by
  unfold State.pllFailed
  exact h.upd.logEv

theorem Kept.landingFailed (h : Kept (canon q) s) {hall} : Kept (canon q) (s.landingFailed hall) := h.fault

theorem Kept.selfTestFence (h : Kept (canon q) s) {k} : Kept (canon q) (s.selfTestFence k) := by
  unfold State.selfTestFence
  dsimp only
  split
  · exact h.odPut.fault.closeEpisode
  · exact h.odPut.fault

theorem Kept.closeWithdrawn (h : Kept (canon q) s) {hall u} : Kept (canon q) (s.closeWithdrawn hall u) := by
  unfold State.closeWithdrawn
  split
  · exact h.closeEpisode
  · exact h

theorem Kept.hallOut (h : Kept (canon q) s) {hall} : Kept (canon q) (s.hallOut hall) := by
  unfold State.hallOut
  exact (h.odPut.odPut.odPut.foldl fun _ _ h => h.setArch).upd

theorem Kept.stackPasses (h : Kept (canon q) s) {n} : Kept (canon q) (s.stackPasses n) := h.odPut

theorem Kept.trainStack (h : Kept (canon q) s) {o n} : Kept (canon q) (s.trainStack o n) := by
  unfold State.trainStack
  exact .ite h <| .ite h.pllFailed.withdrawStack.closeWithdrawn <|
    .ite h.upd.withdrawStack.closeWithdrawn (h.upd.foldl fun _ _ h => h.spareLane).stackPasses

theorem Kept.trainMezz (h : Kept (canon q) s) {o hall} : Kept (canon q) (s.trainMezz o hall) := by
  unfold State.trainMezz
  exact .ite h <| .ite h.pllFailed.withdrawMezz.closeWithdrawn <| .ite h.withdrawMezz.closeWithdrawn (h.foldl fun _ _ h => h.logEv).upd.odPut

theorem Kept.trainingAbandoned (h : Kept (canon q) s) {o} : Kept (canon q) (s.trainingAbandoned o) := by
  unfold State.trainingAbandoned
  extract_lets s₁ s₂ s₃ _
  have h₁ : Kept (canon q) s₁ := .ite h.pllFailed h
  have h₂ : Kept (canon q) s₂ := .ite h₁.landingFailed h₁
  have h₃ : Kept (canon q) s₃ := h₂.toStandby
  clear_value s₃
  exact h₃.upd

theorem Kept.applyTraining (h : Kept (canon q) s) {o} : Kept (canon q) (s.applyTraining o) := by
  unfold State.applyTraining
  extract_lets halls s₁ bad s₂ s₃ eyes _ s₄ s₅ s₆ s₇ s₈ _
  have hhalls : ∀ (t : State) (n : Nat), Kept (canon q) t → Kept (canon q) (halls t n) := by
    intro t n ht
    unfold halls
    extract_lets t₁ t₂
    have h₁ : Kept (canon q) t₁ := .ite ht.pllFailed ht
    have h₂ : Kept (canon q) t₂ := .ite h₁.landingFailed h₁
    exact .ite h₂.hallOut h₂
  have h₁ : Kept (canon q) s₁ := h.foldl hhalls
  have h₃ : Kept (canon q) s₃ := (h₁.foldl fun _ _ h => h.selfTestFence).odPut
  clear_value s₃
  have h₄ : Kept (canon q) s₄ := h₃.upd
  have h₆ : Kept (canon q) s₆ := (h₄.foldl fun _ _ h => h.trainStack).foldl fun _ _ h => h.trainMezz
  have h₇ : Kept (canon q) s₇ := h₆.foldl fun _ _ h => .ite h h.pllFailed.setArch
  have h₈ : Kept (canon q) s₈ := .ite h₇.pllFailed h₇
  clear_value s₈
  exact h₈.upd

theorem Kept.execTraining (h : Kept (canon q) s) {o} : KeptBy q (execTraining o s) := by
  unfold Machine.execTraining
  exact .ite (h.beginTraining.ite h).next <| .ite (h.beginTraining.ite h).trainingAbandoned.next (h.beginTraining.ite h).applyTraining.next

theorem Kept.execMemoryTrainingDone (h : Kept (canon q) s) {ms} : KeptBy q (execMemoryTrainingDone ms s) := by
  have hb : Kept (canon q) { s with mem := s.mem.blank, start := { s.start with memoryDone := true } } := h.updCells fun _ => s.mem.blank_wf
  exact .ite h.next hb.odPut.odPut.next

theorem Kept.execReady (h : Kept (canon q) s) {ms} : KeptBy q (execReady ms s) := by
  unfold Machine.execReady
  refine .ite h.next ?_
  extract_lets s₁ held _ s₂ s₃
  have h₁ : Kept (canon q) s₁ := h.odPut.setMode
  clear_value s₁
  have h₃ : Kept (canon q) s₃ := h₁.upd.ownRequest.ite h₁.upd
  exact (h₃.ownRequest.ite h₃).next

theorem Kept.execStateTransitionEnd (h : Kept (canon q) s) : KeptBy q (execStateTransitionEnd s) := h.endTransition.next

theorem Kept.trainRequest (h : Kept (canon q) s) {v} : Kept (canon q) (s.trainRequest v).2 := by
  unfold State.trainRequest
  exact .iteSnd h <| .iteSnd h <| .iteSnd h <| .ite h.upd.beginTraining h.upd

theorem Kept.jtagIr (h : Kept (canon q) s) {op} : Kept (canon q) (s.jtagIr op) := by
  unfold State.jtagIr
  exact h.upd

theorem Kept.jtagBypass (h : Kept (canon q) s) : Kept (canon q) s.jtagBypass := .ite h h.jtagIr.emits

theorem Kept.jtagActs (h : Kept (canon q) s) {op drive float} : Kept (canon q) (s.jtagActs op drive float) := by
  unfold State.jtagActs
  exact .ite h.jtagBypass h.upd.odPut

theorem Kept.execExtest (h : Kept (canon q) s) : KeptBy q (execExtest s) := h.jtagActs.next

theorem Kept.execExtestPulse (h : Kept (canon q) s) : KeptBy q (execExtestPulse s) := h.jtagActs.next

theorem Kept.execExtestTrain (h : Kept (canon q) s) : KeptBy q (execExtestTrain s) := h.jtagActs.next

theorem Kept.execClamp (h : Kept (canon q) s) : KeptBy q (execClamp s) := h.jtagActs.next

theorem Kept.execHighz (h : Kept (canon q) s) : KeptBy q (execHighz s) := h.jtagActs.next

theorem Kept.execBypass (h : Kept (canon q) s) : KeptBy q (execBypass s) := h.jtagBypass.next

theorem Kept.execIdcode (h : Kept (canon q) s) : KeptBy q (execIdcode s) := .ite h.next h.jtagIr.emits.next

theorem Kept.execSamplePreload (h : Kept (canon q) s) {b} : KeptBy q (execSamplePreload b s) := by
  unfold Machine.execSamplePreload
  exact .ite h.next h.upd.jtagIr.emits.tick.next

/-! ### Test (Machine/Test.lean) -/

theorem Kept.testStart (h : Kept (canon q) s) {v via port} : Kept (canon q) (s.testStart v via port).2 := by
  unfold State.testStart
  exact .iteSnd h <| .iteSnd h <| .iteSnd h <| .iteSnd h <| .iteSnd h <| .iteSnd h.upd.odPut.setArch <| .iteSnd h.upd.odPut.linkLost h.upd.odPut

theorem Kept.testAbort (h : Kept (canon q) s) {v} : Kept (canon q) (s.testAbort v).2 := by
  unfold State.testAbort
  exact .ite h.finishTest h

theorem Kept.execTestEnd (h : Kept (canon q) s) {bits errors corrected} : KeptBy q (execTestEnd bits errors corrected s) := by
  unfold Machine.execTestEnd
  dsimp only
  split
  · exact h.next
  · exact .ite h.next <| .ite h.finishTest.next h.odPut.odPut.odPut.finishTest.next

theorem Kept.joinLoop (h : Kept (canon q) s) {arch} : Kept (canon q) (s.joinLoop arch) := by
  unfold State.joinLoop
  exact .ite h (h.ite h.archGoesDown).setArch

theorem Kept.execLoopReq (h : Kept (canon q) s) {arch path key} : KeptBy q (execLoopReq arch path key s) := by
  unfold Machine.execLoopReq
  dsimp only
  exact .ite (.refused) <| .ite h.next <| .ite (.ite h.next (h.finishTest.setArch.joinLoop.ite h.finishTest).next) h.joinLoop.next

theorem Kept.execLoopAck (h : Kept (canon q) s) {arch} : KeptBy q (execLoopAck arch s) := by
  unfold Machine.execLoopAck
  dsimp only
  exact .ite (.refused) (h.setArch.ite h).next

theorem Kept.execEcho (h : Kept (canon q) s) {arch body} : KeptBy q (execEcho arch body s) := by
  unfold Machine.execEcho
  dsimp only
  exact .ite (.refused) (h.setArch.ite h).next

theorem Kept.marginStart (h : Kept (canon q) s) {v} : Kept (canon q) (s.marginStart v).2 := by
  unfold State.marginStart
  exact .iteSnd h <| .iteSnd h <| .iteSnd h <| .iteSnd h h.upd.odPut

theorem Kept.execMarginEnd (h : Kept (canon q) s) {lanes} : KeptBy q (execMarginEnd lanes s) := by
  unfold Machine.execMarginEnd
  dsimp only
  split
  · exact h.next
  · exact .ite h.next <| .ite h.upd.finishTest.next h.domPut.finishTest.next

theorem Kept.bistStart (h : Kept (canon q) s) {v} : Kept (canon q) (s.bistStart v).2 := by
  unfold State.bistStart
  exact .iteSnd h <| .iteSnd h <| .iteSnd h <| .iteSnd h h.upd.odPut

theorem Kept.zeroStack (h : Kept (canon q) s) {n} : Kept (canon q) (s.zeroStack n) := h.updCells (kwf_filter _ _)

theorem Kept.execBistEnd (h : Kept (canon q) s) {failed rows} : KeptBy q (execBistEnd failed rows s) := by
  unfold Machine.execBistEnd
  split
  · exact h.next
  · refine .ite h.next <| .ite ?_ <| .ite ?_ ?_
    · exact (h.foldl fun _ _ h => h.selfTestFence).odPut.finishTest.next
    · exact (h.ite (h.foldl fun _ _ h => h.selfTestFence)).finishTest.next
    · exact (h.zeroStack.foldl fun _ _ h => h.retireRow).finishTest.next

/-! ### Writes (Machine/Writes.lean) -/

theorem Kept.writeRoot (h : Kept (canon q) s) {tn v} : Kept (canon q) (s.writeRoot tn v).2 := by
  unfold State.writeRoot
  exact .iteSnd h h.odPut.dropXlate

theorem Kept.invalidate (h : Kept (canon q) s) {v} : Kept (canon q) (s.invalidate v) := by
  unfold State.invalidate
  exact h.dropXlate

theorem Kept.writeTable (h : Kept (canon q) s) {k v} : Kept (canon q) (s.writeTable k v).2 := by
  unfold State.writeTable
  exact .iteSnd h <| (h.odPut.readTable.ite h.odPut).foldl fun _ _ h => h.modCell.mapUpdate

theorem Kept.writeWindow (h : Kept (canon q) s) {k v} : Kept (canon q) (s.writeWindow k v).2 := .iteSnd h h.odPut

theorem Kept.writeLayer (h : Kept (canon q) s) {r v} : Kept (canon q) (s.writeLayer r v).2 := by
  unfold State.writeLayer
  dsimp only
  split
  · dsimp only
    exact h
  · dsimp only
    exact h.upd

theorem Kept.store (h : Kept (canon q) s) : Kept (canon q) s.store.2 := by
  unfold State.store
  exact .iteSnd h h.upd

theorem Kept.restoreDefaults (h : Kept (canon q) s) : Kept (canon q) s.restoreDefaults.2 := by
  unfold State.restoreDefaults
  exact .iteSnd h h.upd

theorem Kept.fwActivate (h : Kept (canon q) s) : Kept (canon q) s.fwActivate.2 := by
  unfold State.fwActivate
  exact .iteSnd h h.finishTest.upd

theorem Kept.ackErrors (h : Kept (canon q) s) {v} : Kept (canon q) (s.ackErrors v) := by
  unfold State.ackErrors
  exact h.upd

theorem Kept.writeTimeSource (h : Kept (canon q) s) {v} : Kept (canon q) (s.writeTimeSource v) := by
  unfold State.writeTimeSource
  exact .ite h.odPut.odPut h.odPut

theorem Kept.applyScalar (h : Kept (canon q) s) {via port k v} : Kept (canon q) (s.applyScalar via port k v).2 := by
  unfold State.applyScalar
  dsimp only
  exact .iteSnd h.requestState <| .iteSnd h.store <| .iteSnd h.restoreDefaults <| .iteSnd h.trainRequest <| .iteSnd h.testStart <|
    .iteSnd h.testAbort <| .iteSnd h.marginStart <| .iteSnd h.bistStart <| .iteSnd h.measStart <| .iteSnd h.fwActivate <| .iteSnd h.unload <|
      .iteSnd h.pageAnswer <| .iteSnd h.writeLayer <| .iteSnd h.writeTable <| .iteSnd h.writeWindow <| .iteSnd h.writeRoot <| .iteSnd h.invalidate <|
        .iteSnd h.ackErrors <| .iteSnd h.upd <| .iteSnd h.odPut.logRequests <| .iteSnd h.odPut.clogDrain <| .iteSnd h.odPut.switchFreq <|
          .iteSnd h.writeTimeSource <| .iteSnd h.rolePut h.odPut

theorem Kept.commitWrite {k} {r : Nat × State} (h : Kept (canon q) r.2) : Kept (canon q) (commitWrite k r).2 := .iteSnd h.count.sendConfig h

theorem Kept.writeScalar (h : Kept (canon q) s) {via port k v} : Kept (canon q) (s.writeScalar via port k v).2 := by
  unfold State.writeScalar
  dsimp only
  exact .iteSnd h h.applyScalar.commitWrite

theorem Kept.cellTakes (h : Kept (canon q) s) {c r} : Kept (canon q) (s.cellTakes c r) := by
  unfold State.cellTakes
  exact ((h.modCell.putSw.ite h.modCell).flushWords.ite (h.modCell.putSw.ite h.modCell)).mapUpdate

theorem Kept.mapOld (h : Kept (canon q) s) {new c} : Kept (canon q) (State.mapOld new s c) := by
  unfold State.mapOld
  refine .ite h.modCell ?_
  split
  · exact h.unbindCell
  · exact .ite h <| .ite h.cellTakes h.unbindCell

theorem Kept.mapNew (h : Kept (canon q) s) {r} : Kept (canon q) (s.mapNew r) := by
  unfold State.mapNew
  dsimp only
  refine .ite h ?_
  split
  · exact h.modCell
  · exact h.modCell
  · exact h.addCell

theorem Kept.setMap (h : Kept (canon q) s) {new} : Kept (canon q) (s.setMap new) := by
  unfold State.setMap
  exact (h.domPut.foldl fun _ _ h => h.mapOld).foldl fun _ _ h => h.mapNew

theorem Kept.writeFieldMap (h : Kept (canon q) s) {b} : Kept (canon q) (s.writeFieldMap b).2 := by
  unfold State.writeFieldMap
  exact .iteSnd h.setMap h

theorem Kept.editFieldMap (h : Kept (canon q) s) {b} : Kept (canon q) (s.editFieldMap b).2 := by
  unfold State.editFieldMap
  dsimp only
  split
  · exact .iteSnd h.setMap h
  · dsimp only
    exact h.setMap
  · dsimp only
    exact h

theorem Kept.fwBegin (h : Kept (canon q) s) : Kept (canon q) s.fwBegin := by
  unfold State.fwBegin
  exact .ite h.upd h.odPut

theorem Kept.fwFinal (h : Kept (canon q) s) {b aux} : Kept (canon q) (s.fwFinal b aux).2 := by
  unfold State.fwFinal
  split
  · exact h.fwReceived
  · exact h.tick.fwReceived

theorem Kept.loadFinal (h : Kept (canon q) s) {b aux} : Kept (canon q) (s.loadFinal b aux).2 := by
  unfold State.loadFinal
  split
  · exact h.loadRequest
  · exact .iteSnd h.loadBegin h

theorem Kept.writeDomain (h : Kept (canon q) s) {via k b aux} : Kept (canon q) (s.writeDomain via k b aux).2 := by
  unfold State.writeDomain
  dsimp only
  refine (Kept.iteSnd h.fwFinal (Kept.iteSnd h.loadFinal (Kept.iteSnd h.writeFieldMap (Kept.iteSnd h.editFieldMap ?_)))).commitWrite
  split
  · dsimp only
    exact h
  · exact .iteSnd h.upd h.domPut

/-! ### Dictionary (Machine/Dictionary.lean) -/

theorem Kept.refuse (h : Kept (canon q) s) {code} : Kept (canon q) (s.refuse code).2.2 := by
  unfold State.refuse
  exact h

theorem Kept.readCheck (h : Kept (canon q) s) {r k f} (hf : ∀ row, Kept (canon q) (f row).2.2) : Kept (canon q) (s.readCheck r k f).2.2 := by
  unfold State.readCheck
  split
  · exact h.refuse
  · exact .iteThird h.refuse <| .iteThird h.refuse (hf _)

theorem Kept.writeCheck (h : Kept (canon q) s) {r k f} (hf : ∀ row, Kept (canon q) (f row).2.2) : Kept (canon q) (s.writeCheck r k f).2.2 := by
  unfold State.writeCheck
  split
  · exact h.refuse
  · exact .iteThird h.refuse <| .iteThird h.refuse <| .iteThird h.refuse (hf _)

theorem Kept.accessRead (h : Kept (canon q) s) {a view} : Kept (canon q) (s.accessRead a view).2.2 := by
  unfold State.accessRead
  dsimp only
  refine h.readCheck fun _ => .iteThird h.refuse ?_
  split
  · dsimp only
    exact h
  · dsimp only
    exact h

theorem Kept.accessWrite (h : Kept (canon q) s) {a} : Kept (canon q) (s.accessWrite a).2.2 := by
  unfold State.accessWrite
  dsimp only
  exact h.writeCheck fun _ => .iteThird h.refuse h.writeScalar

theorem Kept.endTransfers (h : Kept (canon q) s) {p} : Kept (canon q) (s.endTransfers p) := by
  unfold State.endTransfers
  exact h.upd

theorem Kept.putTransfer (h : Kept (canon q) s) {tn} : Kept (canon q) (s.putTransfer tn) := by
  unfold State.putTransfer
  exact h.upd

theorem Kept.fwStopped (h : Kept (canon q) s) {k} : Kept (canon q) (s.fwStopped k) := .ite h.odPut h

theorem Kept.accessReadStart (h : Kept (canon q) s) {a} : Kept (canon q) (s.accessReadStart a).2.2 := by
  unfold State.accessReadStart
  dsimp only
  exact h.readCheck fun _ => .iteThird h.refuse <| .iteThird h.refuse <| .ite h.endTransfers.tick h.endTransfers.tick.putTransfer

theorem Kept.accessWriteStart (h : Kept (canon q) s) {a} : Kept (canon q) (s.accessWriteStart a).2.2 := by
  unfold State.accessWriteStart
  dsimp only
  exact h.writeCheck fun _ => .iteThird h.refuse <| .iteThird h.refuse <| .iteThird h.refuse <| .iteThird h.writeDomain <|
    .iteThird h.refuse (h.fwBegin.ite h).putTransfer

theorem Kept.finishWrite (h : Kept (canon q) s) {a row b} : Kept (canon q) (s.finishWrite a row b).2.2 := by
  unfold State.finishWrite
  dsimp only
  exact .iteThird h.endTransfers.refuse h.endTransfers.writeDomain

theorem Kept.writeSegment (h : Kept (canon q) s) {a row off d} : Kept (canon q) (s.writeSegment a row off d).2.2 := by
  unfold State.writeSegment
  dsimp only
  split
  · exact h.refuse
  · exact .iteThird h.putTransfer <| .iteThird h.putTransfer <| .iteThird (h.odPut.ite h).finishWrite (h.odPut.ite h).putTransfer

theorem Kept.readSegment (h : Kept (canon q) s) {a off} : Kept (canon q) (s.readSegment a off).2.2 := by
  unfold State.readSegment
  dsimp only
  split
  · exact h.refuse
  · exact .iteThird h.putTransfer h.putTransfer

theorem Kept.accessSegment (h : Kept (canon q) s) {a} : Kept (canon q) (s.accessSegment a).2.2 := by
  unfold State.accessSegment
  dsimp only
  refine .iteThird (h.readCheck (fun _ => .iteThird h.refuse h.readSegment)) ?_
  split
  · exact h.refuse
  · exact .iteThird h.refuse <| .iteThird h.refuse <| .iteThird h.refuse h.writeSegment

theorem Kept.accessAbort (h : Kept (canon q) s) {a} : Kept (canon q) (s.accessAbort a).2.2 := by
  unfold State.accessAbort
  dsimp only
  exact .iteThird h.refuse <| .ite h.endTransfers.fwStopped h.endTransfers

theorem Kept.accessWhole (h : Kept (canon q) s) {a} : Kept (canon q) (s.accessWhole a).2.2 := by
  unfold State.accessWhole
  dsimp only
  exact h.writeCheck fun _ => .iteThird h.refuse <| .iteThird h.refuse <| .iteThird h.refuse <| .iteThird h.refuse (h.fwBegin.ite h).writeDomain

theorem Kept.access (h : Kept (canon q) s) {a view} : Kept (canon q) (s.access a view).2.2 := by
  unfold State.access
  refine .iteThird h.refuse ?_
  split
  · exact h.accessRead
  · exact h.accessWrite
  · exact h.accessReadStart
  · exact h.accessWriteStart
  · exact h.accessSegment
  · exact h.accessAbort
  · exact h.accessWhole

theorem Kept.answerTo {a} {r : Answer} (h : Kept (canon q) r.2.2) : Kept (canon q) (answerTo a r) := .ite h.hostActs h.respond

theorem Kept.forward (h : Kept (canon q) s) {o op opcode dest down k b levels} : Kept (canon q) (s.forward o op opcode dest down k b levels) := by
  unfold State.forward
  exact h.upd.sendFrame

theorem Kept.forwardAll (h : Kept (canon q) s) {a dest down} : Kept (canon q) (s.forwardAll a dest down) := by
  unfold State.forwardAll
  dsimp only
  exact .ite h.refuse.answerTo <| .ite h.forward <| h.forward.foldl fun _ _ h => h.forward

theorem Kept.perform (h : Kept (canon q) s) {a} : Kept (canon q) (s.perform a) := by
  unfold State.perform
  dsimp only
  split
  · exact h.refuse.answerTo
  · exact .ite (h.refuse.answerTo.ite h.access.answerTo) h.access.answerTo
  · exact .ite h.refuse.answerTo h.forwardAll

theorem Kept.odMailbox (h : Kept (canon q) s) {op r f} (hf : ∀ t, Kept (canon q) t → Kept (canon q) (f t)) : Kept (canon q) (s.odMailbox op r f) :=
  .ite h <| .ite h.mbDone <| .ite h.mbDone <| .ite h.mbDone (hf s h)

theorem Kept.mailboxAccess (h : Kept (canon q) s) {op r} : Kept (canon q) (s.mailboxAccess op r) := h.odMailbox fun _ h => h.perform

theorem Kept.execOdRead (h : Kept (canon q) s) {r} : KeptBy q (execOdRead r s) := h.mailboxAccess.next

theorem Kept.execOdWrite (h : Kept (canon q) s) {r} : KeptBy q (execOdWrite r s) := h.mailboxAccess.next

theorem Kept.execOdDomainReadStart (h : Kept (canon q) s) {r} : KeptBy q (execOdDomainReadStart r s) := h.mailboxAccess.next

theorem Kept.execOdDomainWriteStart (h : Kept (canon q) s) {r} : KeptBy q (execOdDomainWriteStart r s) := h.mailboxAccess.next

theorem Kept.execOdDomainSegment (h : Kept (canon q) s) {r} : KeptBy q (execOdDomainSegment r s) := h.mailboxAccess.next

theorem Kept.execOdDomainAbort (h : Kept (canon q) s) {r} : KeptBy q (execOdDomainAbort r s) := h.mailboxAccess.next

theorem Kept.beginWait (h : Kept (canon q) s) {o b} : Kept (canon q) (s.beginWait o b).2 := by
  unfold State.beginWait
  exact .iteSnd h.respond <| .iteSnd h.respond <| .iteSnd h.respond <| .iteSnd h h.upd

theorem Kept.execOdStateWait (h : Kept (canon q) s) {r} : KeptBy q (execOdStateWait r s) := by
  unfold Machine.execOdStateWait
  dsimp only
  refine (h.odMailbox (fun _ h => .ite h.respond <| .ite h.mbDone ?_)).next
  split
  · exact h.respond
  · exact h.respond
  · exact h.forward
  · split
    · rename_i _ t heq
      have h := Kept.of_snd heq h.beginWait
      exact h
    · rename_i _ t heq
      have h := Kept.of_snd heq h.beginWait
      exact h.mbDone

theorem Kept.execStateWaitTimeout (h : Kept (canon q) s) : KeptBy q (execStateWaitTimeout s) := (h.endStateWait.ite h).next

theorem Kept.execDomainAborted (h : Kept (canon q) s) {via index sub} : KeptBy q (execDomainAborted via index sub s) := by
  unfold Machine.execDomainAborted
  dsimp only
  split
  · exact h.next
  · exact (h.endTransfers.fwStopped.ite h.endTransfers).next

theorem Kept.endProxy (h : Kept (canon q) s) {p status seq b} : Kept (canon q) (s.endProxy p status seq b) := by
  unfold State.endProxy
  exact h.upd.respond

theorem Kept.execProxyTimeout (h : Kept (canon q) s) {id} : KeptBy q (execProxyTimeout id s) := by
  unfold Machine.execProxyTimeout
  refine Kept.next ?_
  split
  · exact h
  · exact h.endProxy

theorem Kept.takeOdRequest (h : Kept (canon q) s) {f} : Kept (canon q) (s.takeOdRequest f) := by
  unfold State.takeOdRequest
  dsimp only
  refine .ite h <| .ite h.count <| .ite h.count <| .ite ?_ h.perform
  split
  · exact h.respond
  · exact h.respond
  · exact h.forward
  · split
    · rename_i _ t heq
      have h := Kept.of_snd heq h.beginWait
      exact h
    · rename_i _ t heq
      have h := Kept.of_snd heq h.beginWait
      exact h.respond

theorem Kept.takeOdResponse (h : Kept (canon q) s) {f} : Kept (canon q) (s.takeOdResponse f) := by
  unfold State.takeOdResponse
  dsimp only
  split
  · exact h
  · exact .ite h.count h.endProxy

theorem Kept.eopExecute (h : Kept (canon q) s) {d} : Kept (canon q) (s.eopExecute d) := by
  unfold State.eopExecute
  exact h.perform

theorem Kept.eopRow (h : Kept (canon q) s) {op d} : Kept (canon q) (s.eopRow op d) := by
  unfold State.eopRow
  dsimp only
  exact .ite (h.ite (h.upd.eopExecute.ite h.upd)) <| .ite h <| .ite h.eopCheck.eopExecute h.eopCheck

theorem Kept.execEopRead (h : Kept (canon q) s) {d} : KeptBy q (execEopRead d s) := .ite (.refused) h.eopRow.next

theorem Kept.execEopWrite (h : Kept (canon q) s) {d} : KeptBy q (execEopWrite d s) := .ite (.refused) h.eopRow.next

theorem Kept.execEopDomainReadStart (h : Kept (canon q) s) {d} : KeptBy q (execEopDomainReadStart d s) := .ite (.refused) h.eopRow.next

theorem Kept.execEopDomainWriteStart (h : Kept (canon q) s) {d} : KeptBy q (execEopDomainWriteStart d s) := .ite (.refused) h.eopRow.next

theorem Kept.execEopDomainSegment (h : Kept (canon q) s) {d} : KeptBy q (execEopDomainSegment d s) := .ite (.refused) h.eopRow.next

theorem Kept.execEopDomainAbort (h : Kept (canon q) s) {d} : KeptBy q (execEopDomainAbort d s) := .ite (.refused) h.eopRow.next

theorem Kept.entryAccess (h : Kept (canon q) s) {op w port k aux} : Kept (canon q) (s.entryAccess op w port k aux) := .ite h h.perform

theorem Kept.execStateRequest (h : Kept (canon q) s) {w} : KeptBy q (execStateRequest w s) := h.entryAccess.next

theorem Kept.execStore (h : Kept (canon q) s) {w} : KeptBy q (execStore w s) := h.entryAccess.next

theorem Kept.execRestore (h : Kept (canon q) s) {w} : KeptBy q (execRestore w s) := h.entryAccess.next

theorem Kept.execTenantRootWrite (h : Kept (canon q) s) {w tenant} : KeptBy q (execTenantRootWrite w tenant s) := .ite (.refused) h.entryAccess.next

theorem Kept.execXlateInvalidate (h : Kept (canon q) s) {w} : KeptBy q (execXlateInvalidate w s) := h.entryAccess.next

theorem Kept.execPageResponse (h : Kept (canon q) s) {w} : KeptBy q (execPageResponse w s) := h.entryAccess.next

theorem Kept.execPrlConsumerWrite (h : Kept (canon q) s) {w} : KeptBy q (execPrlConsumerWrite w s) := h.entryAccess.next

theorem Kept.execClogConsumerWrite (h : Kept (canon q) s) {w} : KeptBy q (execClogConsumerWrite w s) := h.entryAccess.next

theorem Kept.execTableBaseWrite (h : Kept (canon q) s) {w fieldBase} : KeptBy q (execTableBaseWrite w fieldBase s) := h.entryAccess.next

theorem Kept.execHostWindowWrite (h : Kept (canon q) s) {w size} : KeptBy q (execHostWindowWrite w size s) := h.entryAccess.next

theorem Kept.execLayerModeWrite (h : Kept (canon q) s) {w} : KeptBy q (execLayerModeWrite w s) := h.entryAccess.next

theorem Kept.execLoadRequest (h : Kept (canon q) s) {w pkg} : KeptBy q (execLoadRequest w pkg s) := (h.loadPlan.ite h.entryAccess).next

theorem Kept.execUnload (h : Kept (canon q) s) {w} : KeptBy q (execUnload w s) := h.entryAccess.next

theorem Kept.execFieldMapWrite (h : Kept (canon q) s) {w} : KeptBy q (execFieldMapWrite w s) := h.entryAccess.next

theorem Kept.execFieldCellSet (h : Kept (canon q) s) {w} : KeptBy q (execFieldCellSet w s) := h.entryAccess.next

theorem Kept.execErrorAck (h : Kept (canon q) s) {w} : KeptBy q (execErrorAck w s) := h.entryAccess.next

theorem Kept.execPersistentClear (h : Kept (canon q) s) {w} : KeptBy q (execPersistentClear w s) := h.entryAccess.next

theorem Kept.execAttestReport (h : Kept (canon q) s) {via path} : KeptBy q (execAttestReport via path s) := h.entryAccess.next

theorem Kept.execFwImage (h : Kept (canon q) s) {w sigOk digestOk} : KeptBy q (execFwImage w sigOk digestOk s) := h.entryAccess.next

theorem Kept.execFwActivate (h : Kept (canon q) s) {w} : KeptBy q (execFwActivate w s) := h.entryAccess.next

theorem Kept.execTrainRequest (h : Kept (canon q) s) {w} : KeptBy q (execTrainRequest w s) := h.entryAccess.next

theorem Kept.execTestStart (h : Kept (canon q) s) {w arch} : KeptBy q (execTestStart w arch s) := h.entryAccess.next

theorem Kept.execTestAbort (h : Kept (canon q) s) {w} : KeptBy q (execTestAbort w s) := h.entryAccess.next

theorem Kept.execMarginStart (h : Kept (canon q) s) {w} : KeptBy q (execMarginStart w s) := h.entryAccess.next

theorem Kept.execBistStart (h : Kept (canon q) s) {w} : KeptBy q (execBistStart w s) := h.entryAccess.next

theorem Kept.execMeasStart (h : Kept (canon q) s) {w} : KeptBy q (execMeasStart w s) := h.entryAccess.next

/-! ### Link (Machine/Link.lean) -/

theorem Kept.takeJobStop (h : Kept (canon q) s) {f} : Kept (canon q) (s.takeJobStop f) := by
  unfold State.takeJobStop
  exact .ite (h.sendJobStop.ite h) <| .ite (h.sendJobStop.ite h).jobStopAll ((h.sendJobStop.ite h).foldl fun _ _ h => h.stopProg).endJob

theorem Kept.takeMoveData (h : Kept (canon q) s) {f} : Kept (canon q) (s.takeMoveData f) := by
  unfold State.takeMoveData
  dsimp only
  refine .ite h.count <| Kept.sendFrame ?_
  split
  · exact h.memWrite.upd
  · exact h.outsideWrite.upd

theorem Kept.takeMoveConfirm (h : Kept (canon q) s) {f} : Kept (canon q) (s.takeMoveConfirm f) := by
  unfold State.takeMoveConfirm
  exact (h.upd.foldl fun _ _ h => h.tryRelease).foldl fun _ _ h => h.loadProgress

theorem Kept.deliver (h : Kept (canon q) s) {f} : Kept (canon q) (s.deliver f) := by
  unfold State.deliver
  split
  · exact h.takeOdRequest
  · exact h.takeOdResponse
  · exact h.takeArrive
  · exact h.takeRelease
  · exact h.takeJobStop
  · exact h.takeElection
  · exact h.takeSync
  · exact h.takeSend
  · exact h.takeColl
  · exact h.takeManifest
  · exact h.takeExchRows
  · exact h.takeReturnManifest
  · exact h.takeReturnRows
  · exact h.takeMoveData
  · exact h.takeMoveConfirm
  · exact h.count

theorem Kept.takeFrame (h : Kept (canon q) s) {f endorsed signed owed} : Kept (canon q) (s.takeFrame f endorsed signed owed) := by
  unfold State.takeFrame
  exact .ite (h.ite h.count).freeCredits <| .ite h.takeHello.freeCredits <| .ite h.freeCredits <| .ite h.deliver.freeCredits h.forwardFrame

theorem Kept.moveErrors (h : Kept (canon q) s) {f errs} : Kept (canon q) (s.moveErrors f errs) := .ite h.partErrors h

theorem Kept.takeFlit (h : Kept (canon q) s) {n fl errs} : Kept (canon q) (s.takeFlit n fl errs) := by
  unfold State.takeFlit
  dsimp only
  refine .ite h <| .ite h.setArch <| .ite h.setArch <| .ite h.setArch ?_
  split
  · exact h.setArch
  · split
    · exact h.setArch.count.freeCredits
    · exact h.setArch.moveErrors.takeFrame.tick

theorem Kept.execDataFlit (h : Kept (canon q) s) {arch fl} : KeptBy q (execDataFlit arch fl s) := .ite (.refused) h.takeFlit.next

theorem Kept.frameRow (h : Kept (canon q) s) {ftype f} : KeptBy q (s.frameRow ftype f) := .ite (.refused) h.takeFrame.next

theorem Kept.execHello (h : Kept (canon q) s) {f endorsed signed} : KeptBy q (execHello f endorsed signed s) := .ite (.refused) h.takeFrame.next

theorem Kept.execOdRequest (h : Kept (canon q) s) {f opcode r} : KeptBy q (execOdRequest f opcode r s) := h.frameRow

theorem Kept.execOdResponse (h : Kept (canon q) s) {f id status value seq} : KeptBy q (execOdResponse f id status value seq s) := h.frameRow

theorem Kept.execElection (h : Kept (canon q) s) {f} : KeptBy q (execElection f s) := h.frameRow

theorem Kept.execBarrierArrive (h : Kept (canon q) s) {f} : KeptBy q (execBarrierArrive f s) := h.frameRow

theorem Kept.execBarrierRelease (h : Kept (canon q) s) {f} : KeptBy q (execBarrierRelease f s) := h.frameRow

theorem Kept.execJobStop (h : Kept (canon q) s) {f} : KeptBy q (execJobStop f s) := h.frameRow

theorem Kept.execSyncEpoch (h : Kept (canon q) s) {f} : KeptBy q (execSyncEpoch f s) := h.frameRow

theorem Kept.execSendData (h : Kept (canon q) s) {f} : KeptBy q (execSendData f s) := h.frameRow

theorem Kept.execCollData (h : Kept (canon q) s) {f} : KeptBy q (execCollData f s) := h.frameRow

theorem Kept.execManifest (h : Kept (canon q) s) {f} : KeptBy q (execManifest f s) := h.frameRow

theorem Kept.execExchRows (h : Kept (canon q) s) {f} : KeptBy q (execExchRows f s) := h.frameRow

theorem Kept.execReturnManifest (h : Kept (canon q) s) {f} : KeptBy q (execReturnManifest f s) := h.frameRow

theorem Kept.execReturnRows (h : Kept (canon q) s) {f} : KeptBy q (execReturnRows f s) := h.frameRow

theorem Kept.execMoveData (h : Kept (canon q) s) {f} : KeptBy q (execMoveData f s) := by
  unfold Machine.execMoveData
  exact h.moveErrors.frameRow

theorem Kept.execMoveConfirm (h : Kept (canon q) s) {f} : KeptBy q (execMoveConfirm f s) := h.frameRow

/-! ### Accumulates and their reruns (Machine/Rerun.lean) -/

theorem Kept.enterTiles (h : Kept (canon q) s) {c us main l r} (hr : s.enterTiles c us main l = some r) : Kept (canon q) r.1 := by
  refine foldl_keeps (fun x : Option (State × List Nat) => ∀ r, x = some r → Kept (canon q) r.1) _ ?_ l ?_ r hr
  · rintro x a hx r hr
    obtain ⟨u, hu, hr⟩ := Option.bind_eq_some_iff.mp hr
    obtain ⟨v, hv, rfl⟩ := Option.map_eq_some_iff.mp hr
    exact ((hx u hu).accumulate hv).setTile
  · rintro r ⟨⟩
    exact h

theorem Kept.noteMismatch (h : Kept (canon q) s) {fk} : Kept (canon q) (s.noteMismatch fk) := by
  unfold State.noteMismatch
  exact h.setFlight

theorem KeptAcc.ite {c : Prop} [Decidable c] {x y : AccRes} (hx : KeptAcc q x) (hy : KeptAcc q y) : KeptAcc q (if c then x else y) := by
  split
  · exact hx
  · exact hy

theorem Kept.loadPlanes (h : Kept (canon q) s) {c ti wsegs hw again} : KeptLoad q (s.loadPlanes c ti wsegs hw again) := by
  unfold State.loadPlanes
  split
  · trivial
  · extract_lets segs bs s₀ y src fs new s₁ done failing _ s₂ s₃ bad already last _
    have h₀ : Kept (canon q) s₀ := h.bitErrors
    have h₁ : Kept (canon q) s₁ := h₀.foldl fun _ _ h => h.fetchTouch
    have h₂ : Kept (canon q) s₂ := h₁.setFlight
    have h₃ : Kept (canon q) s₃ := h₁.foldl fun _ _ h => .ite h.counts.count h.counts.poisonBlock
    split
    · trivial
    · split
      · trivial
      · split
        · exact h₀
        · split
          · split
            · exact h₀
            · exact h₂.counts
          · exact h₃.setFlight.count

theorem Kept.passAccs (h : Kept (canon q) s) {hw again c} : KeptAcc q (s.passAccs hw again c) := by
  unfold State.passAccs
  extract_lets w n target group ch0
  split
  · exact h
  · exact h
  · exact h
  · extract_lets items ops run
    have hrun : ∀ {t : State} {rows}, Kept (canon q) t → KeptAcc q (run t rows) := fun h => h.counts.readBadWeight.modProg
    refine .ite (hrun h) ?_
    have hl := h.loadPlanes (c := c) (ti := bits w 111 107) (wsegs := [bits w 106 83]) (hw := hw) (again := again)
    split <;> rename_i heq <;> rw [heq] at hl
    · exact h
    · exact hl
    · exact hrun hl.takePlane

theorem Kept.serialAccs (h : Kept (canon q) s) {c} : KeptAcc q (s.serialAccs c) := by
  unfold State.serialAccs
  extract_lets w n target a b
  split
  · exact h
  · exact h
  · exact h
  · exact .ite h h.counts.takePlane

theorem Kept.outlierAccs (h : Kept (canon q) s) {hw again c main} : KeptAcc q (s.outlierAccs hw again c main) := by
  unfold State.outlierAccs
  extract_lets w n target b
  refine .ite h <| .ite h ?_
  split
  · exact h
  · exact h
  · split
    · exact h
    · have hl := h.loadPlanes (c := c) (ti := bits w 111 107) (wsegs := [bits w 106 83]) (hw := hw) (again := again)
      split <;> rename_i heq <;> rw [heq] at hl
      · exact h
      · exact hl
      · exact hl.takePlane.counts.readBadWeight

theorem Kept.countAccs (h : Kept (canon q) s) {c} : KeptAcc q (s.countAccs c) := by
  unfold State.countAccs
  extract_lets w n target
  split
  · exact h
  · exact h
  · exact h
  · exact h.takePlane.counts

theorem Kept.sparseAccs (h : Kept (canon q) s) {hw again c} : KeptAcc q (s.sparseAccs hw again c) := by
  unfold State.sparseAccs
  extract_lets x
  split
  · exact h
  · exact h
  · exact h
  · have hl := h.loadPlanes (c := c) (ti := bits c.word 111 107) (wsegs := x.segs) (hw := hw) (again := again)
    split <;> rename_i heq <;> rw [heq] at hl
    · exact h
    · exact hl
    · exact (hl.counts.counts.foldl fun _ _ h => h.fillMap).takePlane.readBadWeight.countLayer.noteSpan

theorem Kept.injectAccs (h : Kept (canon q) s) {c} : KeptAcc q (s.injectAccs c) := by
  unfold State.injectAccs
  extract_lets d ch0
  split
  · exact h
  · exact h
  · exact .ite h h.count

theorem Kept.combineAccs (h : Kept (canon q) s) {c} : KeptAcc q (s.combineAccs c) := by
  unfold State.combineAccs
  extract_lets w l rows target
  split
  · exact h
  · exact h
  · exact h
  · exact h
  · exact .ite h <| .ite h h.count

theorem Kept.accsOf (h : Kept (canon q) s) {hw again c main} : KeptAcc q (s.accsOf hw again c main) := by
  unfold State.accsOf
  split
  · exact h.passAccs
  · exact h.sparseAccs
  · exact h.serialAccs
  · exact h.outlierAccs
  · exact h.countAccs
  · exact h.injectAccs
  · exact h.combineAccs

theorem Kept.redo (h : Kept (canon q) s) {c i us r} : KeptAgain q (s.redo c i us r) := by
  unfold State.redo
  extract_lets c' _ s₁
  split
  · split
    · exact h
    · exact h.setTile
  · have h₁ : Kept (canon q) s₁ := .ite h h.setFlight
    have ha := h₁.accsOf (hw := ⟨⟨[], []⟩, [], []⟩) (again := true) (c := c') (main := r.main)
    split <;> rename_i heq <;> rw [heq] at ha
    · exact ha
    · exact ha
    · split
      · exact ha
      · rename_i heq
        have he := ha.enterTiles heq
        split <;> exact he

theorem Kept.redoAll (h : Kept (canon q) s) {c i us l} : KeptAgain q (s.redoAll c i us l) := by
  induction l generalizing s with
  | nil => exact h
  | cons r l ih =>
    have hr := h.redo (c := c) (i := i) (us := if l = [] then us else []) (r := r)
    unfold State.redoAll
    split
    · rename_i heq
      rw [heq] at hr
      exact ih hr
    · exact hr

theorem Kept.rerun (h : Kept (canon q) s) {c i us} : KeptAgain q (s.rerun c i us) := by
  unfold State.rerun
  extract_lets y u main _ s₁ back
  have hback : ∀ {t : State}, Kept (canon q) t → Kept (canon q) (back t) := fun h => h.modProg.setFlight
  have h₁ : Kept (canon q) s₁ := h.setTile.setFlight
  have hr := h₁.redoAll (c := c) (i := i) (us := us) (l := u.work)
  split
  · rename_i heq
    rw [heq] at hr
    exact hback hr
  · exact hr

theorem Kept.recoverTile (h : Kept (canon q) s) {c us i} : Kept (canon q) (s.recoverTile c us i).1 := by
  unfold State.recoverTile
  extract_lets x note s₁
  have hnote : ∀ {t : State}, Kept (canon q) t → Kept (canon q) (note t) := fun h => h.count.fault
  have h₁ : Kept (canon q) s₁ := hnote h
  refine .iteFst h₁ ?_
  have hr := h₁.rerun (c := c) (i := i) (us := us.filter Upset.again)
  split <;> rename_i heq <;> rw [heq] at hr
  · exact (hnote hr).fence
  · exact hr
  · extract_lets s₂ s₃
    have h₂ : Kept (canon q) s₂ := by
      unfold s₂
      split
      · exact Kept.closeEpisode hr
      · exact hr
    exact .iteFst h₂.noteMismatch.fence h₂.noteMismatch

theorem Kept.recoverAll (h : Kept (canon q) s) {c us l} : Kept (canon q) (s.recoverAll c us l).1 := by
  induction l generalizing s with
  | nil => exact h
  | cons i l ih =>
    have hr := h.recoverTile (c := c) (us := us) (i := i)
    unfold State.recoverAll
    split
    · rename_i heq
      rw [heq] at hr
      exact ih hr
    · exact hr

theorem Kept.accBody (h : Kept (canon q) s) {hw c} : Kept (canon q) (State.accBody hw c s).1 := by
  unfold State.accBody
  have ha := h.landErrors (es := hw.foot.land).accsOf (hw := hw) (again := false) (c := c) (main := c.main)
  split <;> rename_i heq <;> rw [heq] at ha
  · exact ha
  · exact ha
  · split
    · exact Kept.tick ha
    · rename_i heq
      exact (ha.enterTiles heq).tick.holdShare.recoverAll

theorem Kept.execPassOp (h : Kept (canon q) s) {f hw} : KeptBy q (execPassOp f hw s) := .ite (.refused) (h.issueOp (fun _ _ h => h.accBody)).next

theorem Kept.execSparsePass (h : Kept (canon q) s) {f hw} :
    KeptBy q (execSparsePass f hw s) := .ite (.refused) (h.issueOp (fun _ _ h => h.accBody)).next

theorem Kept.execSerialPass (h : Kept (canon q) s) {f hw} :
    KeptBy q (execSerialPass f hw s) := .ite (.refused) (h.issueOp (fun _ _ h => h.accBody)).next

theorem Kept.execOutlierPass (h : Kept (canon q) s) {f hw} :
    KeptBy q (execOutlierPass f hw s) := .ite (.refused) (h.issueOp (fun _ _ h => h.accBody)).next

theorem Kept.execCountPass (h : Kept (canon q) s) {f hw} :
    KeptBy q (execCountPass f hw s) := .ite (.refused) (h.issueOp (fun _ _ h => h.accBody)).next

theorem Kept.execInject (h : Kept (canon q) s) {f hw} : KeptBy q (execInject f hw s) := .ite (.refused) (h.issueOp (fun _ _ h => h.accBody)).next

theorem Kept.execCombine (h : Kept (canon q) s) {f} : KeptBy q (execCombine f s) := .ite (.refused) (h.issueOp (fun _ _ h => h.accBody)).next

theorem Kept.strikeTile (h : Kept (canon q) s) {c i us} : Kept (canon q) (s.strikeTile c i us) := h.setTile

theorem Kept.checkDrain (h : Kept (canon q) s) {c d us} : Kept (canon q) (s.checkDrain c d us).1 := by
  unfold State.checkDrain
  dsimp only
  exact .iteFst h.strikeTile h.strikeTile.recoverTile

theorem Kept.drainBody (h : Kept (canon q) s) {hw c} : Kept (canon q) (State.drainBody hw c s).1 := by
  unfold State.drainBody
  dsimp only
  split
  · dsimp only
    exact h.landErrors
  · split
    · rename_i _ t heq
      have h := Kept.of_fst heq h.landErrors.checkDrain
      dsimp only
      exact h.runDrain.holdShare
    · exact h.landErrors.checkDrain

theorem Kept.execDrain (h : Kept (canon q) s) {f} : KeptBy q (execDrain f s) := .ite (.refused) (h.issueOp (fun _ _ h => h.drainBody)).next

/-! ### Snoop (Machine/Snoop.lean) -/

theorem Kept.execHdmRead (h : Kept (canon q) s) {dpa cached errs} : KeptBy q (execHdmRead dpa cached errs s) := by
  unfold Machine.execHdmRead
  dsimp only
  refine .ite h.next <| .ite h.count.emit.tick.next <| .ite h.count.emit.tick.next ?_
  have h₁ := (Kept.ite (c := cached = true) (h.filterAdd (l := dpa / 64 * 64 / 64)).settleHost h).memRead
    (a := s.odGet Od.hostWindowBase + dpa / 64 * 64)
    (n := 64) (errs := errs) (scrub := false)
  exact (h₁.count.ite h₁).emit.tick.next

theorem Kept.execBirsp (h : Kept (canon q) s) {line} : KeptBy q (execBirsp line s) := by
  unfold Machine.execBirsp
  exact .ite h.upd.settleHost.next h.next

/-! ### Upkeep (Machine/Upkeep.lean) -/

theorem Kept.execScrubRead (h : Kept (canon q) s) {addr errs late} : KeptBy q (execScrubRead addr errs late s) := by
  unfold Machine.execScrubRead
  dsimp only
  exact .ite h.next (h.memRead.upd.logEv.ite (h.memRead.upd.count.ite h.memRead.upd)).next

theorem Kept.execRowCountClear (h : Kept (canon q) s) {addr} : KeptBy q (execRowCountClear addr s) := by
  unfold Machine.execRowCountClear
  exact h.upd.next

theorem Kept.execLaneCeWindow (h : Kept (canon q) s) {stack} : KeptBy q (execLaneCeWindow stack s) := by
  unfold Machine.execLaneCeWindow
  dsimp only
  refine .ite (.refused) <| Kept.next ?_
  split
  · exact (h.foldl fun _ _ h => h.spareLane).upd
  · exact h.upd

theorem Kept.execRecentre (h : Kept (canon q) s) {hall} : KeptBy q (execRecentre hall s) := .ite (.refused) h.next

theorem Kept.execEpisodeCloseTimer (h : Kept (canon q) s) {episode} : KeptBy q (execEpisodeCloseTimer episode s) := by
  unfold Machine.execEpisodeCloseTimer
  split
  · exact h.next
  · exact (h.closeEpisode.ite h).next

theorem Kept.writeCopies (h : Kept (canon q) s) {m sl b t5} : Kept (canon q) (s.writeCopies m sl b t5) := by
  unfold State.writeCopies
  exact h.foldl fun _ _ h => h.setLanding

theorem Kept.writeBlock (h : Kept (canon q) s) {m sl b t5} : Kept (canon q) (s.writeBlock m sl b t5) := by
  unfold State.writeBlock
  exact h.writeCopies.memWrite.memMark.memWrite.memMark.memWrite.memMark

theorem Kept.execWeightRepairDone (h : Kept (canon q) s) {episode clean verified} : KeptBy q (execWeightRepairDone episode clean verified s) := by
  unfold Machine.execWeightRepairDone
  split
  · exact h.next
  · split
    · exact h.closeEpisode.next
    · extract_lets addr shadow host t5 s₁ s₂
      have h₂ : Kept (canon q) s₂ := (h.ite h.emit).writeBlock
      exact .ite h.withdrawModel.closeEpisode.next <| .ite h₂.record.closeEpisode.count.next h₂.modEpisode.withdrawModel.closeEpisode.next

theorem Kept.execProgramImageRepaired (h : Kept (canon q) s) {episode} : KeptBy q (execProgramImageRepaired episode s) := by
  unfold Machine.execProgramImageRepaired
  dsimp only
  split
  · exact h.next
  · exact (h.memWrite.ite h.memWrite.modEpisode.closeSettled).next

theorem Kept.execCorridorDown (h : Kept (canon q) s) {corridor} : KeptBy q (execCorridorDown corridor s) := by
  unfold Machine.execCorridorDown
  dsimp only
  exact .ite (.refused) <| .ite h.next h.odPut.fault.next

/-! ### Every command, and a step -/

/-- Every command keeps the queue behind it and the canonical form of memory. -/
theorem Kept.exec (h : Kept (canon q) s) (c : Instr) : KeptBy q (exec c s) := by
  cases c with
  | odRead => exact h.execOdRead
  | odWrite => exact h.execOdWrite
  | odDomainReadStart => exact h.execOdDomainReadStart
  | odDomainWriteStart => exact h.execOdDomainWriteStart
  | odDomainSegment => exact h.execOdDomainSegment
  | odDomainAbort => exact h.execOdDomainAbort
  | odStateWait => exact h.execOdStateWait
  | stateWaitTimeout => exact h.execStateWaitTimeout
  | domainAborted => exact h.execDomainAborted
  | proxyTimeout => exact h.execProxyTimeout
  | odRequest => exact h.execOdRequest
  | odResponse => exact h.execOdResponse
  | eopDatagram => exact h.execEopDatagram
  | eopRead => exact h.execEopRead
  | eopWrite => exact h.execEopWrite
  | eopDomainReadStart => exact h.execEopDomainReadStart
  | eopDomainWriteStart => exact h.execEopDomainWriteStart
  | eopDomainSegment => exact h.execEopDomainSegment
  | eopDomainAbort => exact h.execEopDomainAbort
  | stateRequest => exact h.execStateRequest
  | stateTransitionEnd => exact h.execStateTransitionEnd
  | store => exact h.execStore
  | restore => exact h.execRestore
  | tenantRootWrite => exact h.execTenantRootWrite
  | xlateInvalidate => exact h.execXlateInvalidate
  | pageResponse => exact h.execPageResponse
  | prlConsumerWrite => exact h.execPrlConsumerWrite
  | clogConsumerWrite => exact h.execClogConsumerWrite
  | tableBaseWrite => exact h.execTableBaseWrite
  | hostWindowWrite => exact h.execHostWindowWrite
  | layerModeWrite => exact h.execLayerModeWrite
  | loadRequest => exact h.execLoadRequest
  | packingDone => exact h.execPackingDone
  | partTimeout => exact h.execPartTimeout
  | unload => exact h.execUnload
  | fieldMapWrite => exact h.execFieldMapWrite
  | fieldCellSet => exact h.execFieldCellSet
  | errorAck => exact h.execErrorAck
  | persistentClear => exact h.execPersistentClear
  | attestReport => exact h.execAttestReport
  | fwImage => exact h.execFwImage
  | fwProgramDone => exact h.execFwProgramDone
  | fwActivate => exact h.execFwActivate
  | trainRequest => exact h.execTrainRequest
  | testStart => exact h.execTestStart
  | testAbort => exact h.execTestAbort
  | testEnd => exact h.execTestEnd
  | marginStart => exact h.execMarginStart
  | marginEnd => exact h.execMarginEnd
  | bistStart => exact h.execBistStart
  | bistEnd => exact h.execBistEnd
  | measStart => exact h.execMeasStart
  | measDone => exact h.execMeasDone
  | identify => exact h.execIdentify
  | backgroundOperationStatus => exact h.execBackgroundOperationStatus
  | requestAbortBackgroundOperation => exact h.execRequestAbortBackgroundOperation
  | getEventRecords => exact h.execGetEventRecords
  | clearEventRecords => exact h.execClearEventRecords
  | getEventInterruptPolicy => exact h.execGetEventInterruptPolicy
  | setEventInterruptPolicy => exact h.execSetEventInterruptPolicy
  | getTimestamp => exact h.execGetTimestamp
  | setTimestamp => exact h.execSetTimestamp
  | getSupportedLogs => exact h.execGetSupportedLogs
  | getLog => exact h.execGetLog
  | identifyMemoryDevice => exact h.execIdentifyMemoryDevice
  | hdmRead => exact h.execHdmRead
  | hdmWrite => exact h.execHdmWrite
  | birsp => exact h.execBirsp
  | birspTimeout => exact h.execBirspTimeout
  | h2dSnoop => exact h.execH2dSnoop
  | hdmDecoderCommit => exact h.execHdmDecoderCommit
  | cxlLinkUp => exact h.execCxlLinkUp
  | cxlLinkDown => exact h.execCxlLinkDown
  | perst => exact h.execPerst
  | flr => exact h.execFlr
  | cxlReset => exact h.execCxlReset
  | d3hotEntry => exact h.execD3hotEntry
  | d0Entry => exact h.execD0Entry
  | programLoad => exact h.execProgramLoad
  | programStart => exact h.execProgramStart
  | flightOffer => exact h.execFlightOffer
  | nop => exact h.execNop
  | endOp => exact h.execEndOp
  | repeatOp => exact h.execRepeatOp
  | waitOp => exact h.execWaitOp
  | barrier => exact h.execBarrier
  | stepOp => exact h.execStepOp
  | barrierTimeout => exact h.execBarrierTimeout
  | passOp => exact h.execPassOp
  | sparsePass => exact h.execSparsePass
  | serialPass => exact h.execSerialPass
  | outlierPass => exact h.execOutlierPass
  | countPass => exact h.execCountPass
  | predict => exact h.execPredict
  | drain => exact h.execDrain
  | retag => exact h.execRetag
  | release => exact h.execRelease
  | inject => exact h.execInject
  | statscale => exact h.execStatscale
  | reduce => exact h.execReduce
  | fetch => exact h.execFetch
  | storeOperation => exact h.execStoreOperation
  | copy => exact h.execCopy
  | fillTokens => exact h.execFillTokens
  | fillOutlier => exact h.execFillOutlier
  | fillTable => exact h.execFillTable
  | handleSet => exact h.execHandleSet
  | send => exact h.execSend
  | recv => exact h.execRecv
  | broadcast => exact h.execBroadcast
  | allGather => exact h.execAllGather
  | reduceScatter => exact h.execReduceScatter
  | allReduce => exact h.execAllReduce
  | allToAll => exact h.execAllToAll
  | route => exact h.execRoute
  | outboundDispatch => exact h.execOutboundDispatch
  | returnDispatch => exact h.execReturnDispatch
  | combine => exact h.execCombine
  | sample => exact h.execSample
  | mask => exact h.execMask
  | operationEnd => exact h.execOperationEnd
  | preemptionPoint => exact h.execPreemptionPoint
  | programResume => exact h.execProgramResume
  | blockRefetchDone => exact h.execBlockRefetchDone
  | moverTake => exact h.execMoverTake
  | moverAccessDone => exact h.execMoverAccessDone
  | pageTimeout => exact h.execPageTimeout
  | coalesceExpiry => exact h.execCoalesceExpiry
  | batchWaitExpiry => exact h.execBatchWaitExpiry
  | promptShareWindow => exact h.execPromptShareWindow
  | ttlCheck => exact h.execTtlCheck
  | parkDone => exact h.execParkDone
  | restoreDone => exact h.execRestoreDone
  | expertProgramStart => exact h.execExpertProgramStart
  | exchangeTimeout => exact h.execExchangeTimeout
  | rebalancePeriod => exact h.execRebalancePeriod
  | replacement => exact h.execReplacement
  | hello => exact h.execHello
  | helloInterval => exact h.execHelloInterval
  | election => exact h.execElection
  | electionSettle => exact h.execElectionSettle
  | barrierArrive => exact h.execBarrierArrive
  | barrierRelease => exact h.execBarrierRelease
  | jobStop => exact h.execJobStop
  | syncEpoch => exact h.execSyncEpoch
  | sendData => exact h.execSendData
  | collData => exact h.execCollData
  | manifest => exact h.execManifest
  | exchRows => exact h.execExchRows
  | returnManifest => exact h.execReturnManifest
  | returnRows => exact h.execReturnRows
  | moveData => exact h.execMoveData
  | moveConfirm => exact h.execMoveConfirm
  | dataFlit => exact h.execDataFlit
  | nak => exact h.execNak
  | ackTimeout => exact h.execAckTimeout
  | timeReq => exact h.execTimeReq
  | timeResp => exact h.execTimeResp
  | timeExchangeTick => exact h.execTimeExchangeTick
  | loopReq => exact h.execLoopReq
  | loopAck => exact h.execLoopAck
  | archTraining => exact h.execArchTraining
  | archRetry => exact h.execArchRetry
  | laneFecWindow => exact h.execLaneFecWindow
  | archDown => exact h.execArchDown
  | rackSyncPulse => exact h.execRackSyncPulse
  | rackRefLost => exact h.execRackRefLost
  | timeUnaligned => exact h.execTimeUnaligned
  | telemetryDatagram => exact h.execTelemetryDatagram
  | telemetry => exact h.execTelemetry
  | recommend => exact h.execRecommend
  | eopReq => exact h.execEopReq
  | eopResp => exact h.execEopResp
  | timeReport => exact h.execTimeReport
  | foyerEvent => exact h.execFoyerEvent
  | mapUpdate => exact h.execMapUpdate
  | config => exact h.execConfig
  | timeSet => exact h.execTimeSet
  | firmware => exact h.execFirmware
  | heartbeat => exact h.execHeartbeat
  | heartbeatTimeout => exact h.execHeartbeatTimeout
  | portLinkChange => exact h.execPortLinkChange
  | sfpInserted => exact h.execSfpInserted
  | ptpMessage => exact h.execPtpMessage
  | ptpLost => exact h.execPtpLost
  | esmcPdu => exact h.execEsmcPdu
  | esmcTimeout => exact h.execEsmcTimeout
  | ppsEdge => exact h.execPpsEdge
  | ppsWindowEnd => exact h.execPpsWindowEnd
  | ref10Measure => exact h.execRef10Measure
  | ppsOutPulse => exact h.execPpsOutPulse
  | newelRestart => exact h.execNewelRestart
  | sensorSample => exact h.execSensorSample
  | logIntervalEnd => exact h.execLogIntervalEnd
  | persistRecord => exact h.execPersistRecord
  | serviceReq => exact h.execServiceReq
  | serviceChatterEnd => exact h.execServiceChatterEnd
  | serviceStandbyTimer => exact h.execServiceStandbyTimer
  | thermtrip => exact h.execThermtrip
  | smbusReadModuleState => exact h.execSmbusReadModuleState
  | smbusReadAlertCauses => exact h.execSmbusReadAlertCauses
  | smbusReadHallTemp => exact h.execSmbusReadHallTemp
  | smbusReadStackTemp => exact h.execSmbusReadStackTemp
  | smbusReadCoolantInlet => exact h.execSmbusReadCoolantInlet
  | smbusReadCoolantOutlet => exact h.execSmbusReadCoolantOutlet
  | smbusReadInputVoltage => exact h.execSmbusReadInputVoltage
  | smbusReadInputCurrent => exact h.execSmbusReadInputCurrent
  | smbusReadInputPower => exact h.execSmbusReadInputPower
  | smbusReadIdentity => exact h.execSmbusReadIdentity
  | smbusReadFwVersion => exact h.execSmbusReadFwVersion
  | alertResponseAddress => exact h.execAlertResponseAddress
  | governorTick => exact h.execGovernorTick
  | rateBelowFloor => exact h.execRateBelowFloor
  | powerFastLimit => exact h.execPowerFastLimit
  | fastLimitHoldEnd => exact h.execFastLimitHoldEnd
  | inputVoltageEvent => exact h.execInputVoltageEvent
  | freqQualify => exact h.execFreqQualify
  | timebaseLockCheck => exact h.execTimebaseLockCheck
  | tcxoStart => exact h.execTcxoStart
  | pllLock => exact h.execPllLock
  | scrubRead => exact h.execScrubRead
  | rowCountClear => exact h.execRowCountClear
  | laneCeWindow => exact h.execLaneCeWindow
  | recentre => exact h.execRecentre
  | episodeCloseTimer => exact h.execEpisodeCloseTimer
  | weightRepairDone => exact h.execWeightRepairDone
  | hotswapClose => exact h.execHotswapClose
  | mateDetOpen => exact h.execMateDetOpen
  | powerGood => exact h.execPowerGood
  | training => exact h.execTraining
  | memoryTrainingDone => exact h.execMemoryTrainingDone
  | ready => exact h.execReady
  | extest => exact h.execExtest
  | idcode => exact h.execIdcode
  | samplePreload => exact h.execSamplePreload
  | extestPulse => exact h.execExtestPulse
  | extestTrain => exact h.execExtestTrain
  | clamp => exact h.execClamp
  | highz => exact h.execHighz
  | bypass => exact h.execBypass
  | corridorDown => exact h.execCorridorDown
  | newelRestartDone => exact h.execNewelRestartDone
  | fecLockLost => exact h.execFecLockLost
  | flitSlot => exact h.execFlitSlot
  | echo => exact h.execEcho
  | msixVectorUnmask => exact h.execMsixVectorUnmask
  | icmpEcho => exact h.execIcmpEcho
  | programImageRepaired => exact h.execProgramImageRepaired

/-- Settles O59: the idle tick and every command keep the queue that they are given and the canonical form of memory. -/
theorem stepKeepsMemoryAndQueue : Obligations.StepKeepsMemoryAndQueue := by
  intro s t hw ht
  have hk : Kept (canon s.pending.tail) t := by
    cases hq : s.pending with
    | nil =>
      have hi : Kept (canon []) s.idleTick := Kept.idleTick ⟨hq, hw⟩
      rw [step_of_empty_queue hq] at ht
      cases ht
      exact hi
    | cons c rest =>
      have hr : Kept (canon rest) { s with pending := rest } := ⟨rfl, hw⟩
      simp only [step, hq] at ht
      exact hr.exec c t ht
  obtain ⟨hp, hm⟩ := hk
  exact ⟨hm, hp⟩

end Sys2Proof.Machine
end

section
/-!
SUPPORT. What a record, an answer, the end of a test and the entry into Safe Stop leave unchanged (R63, R247, R484, R530); Newel's restarts, sensors, log intervals,
persistent ring, SERVICE_REQ_N and THERMTRIP_N (chapter 20); and the statement on them.
-/

set_option Elab.async false

namespace Sys2Proof.Machine

/-! ### What records, answers and ends of tests leave unchanged -/

/-- The settings, states and counts that neither a record nor an answer writes. -/
def settingEntries : List Nat :=
  [Od.autoRun, Od.fwState, Od.extestSinceStandby, Od.serviceAction, Od.serviceEvents, Od.weightRepairs, Od.newelRestarts]

/-- Two states agree in Newel but for events that wait, and where Newel serves in all of it. -/
structure NewelFrame (s t : State) : Prop where
  queued : ∃ q, t.newel = { s.newel with eventQueue := q }
  served : s.newel.restarting = false → t.newel = s.newel

theorem NewelFrame.of_eq {s t : State} (h : t.newel = s.newel) : NewelFrame s t := ⟨⟨_, h⟩, fun _ => h⟩

theorem NewelFrame.refl (s : State) : NewelFrame s s := .of_eq rfl

theorem NewelFrame.restarting {s t : State} (h : NewelFrame s t) : t.newel.restarting = s.newel.restarting := by
  obtain ⟨q, hq⟩ := h.queued
  rw [hq]

theorem NewelFrame.episodes {s t : State} (h : NewelFrame s t) : t.newel.episodes = s.newel.episodes := by
  obtain ⟨q, hq⟩ := h.queued
  rw [hq]

theorem NewelFrame.sensors {s t : State} (h : NewelFrame s t) : t.newel.sensors = s.newel.sensors := by
  obtain ⟨q, hq⟩ := h.queued
  rw [hq]

theorem NewelFrame.step {s t u : State} (h : NewelFrame s t) (h' : NewelFrame t u) : NewelFrame s u := by
  obtain ⟨q, hq⟩ := h.queued
  obtain ⟨q', hq'⟩ := h'.queued
  exact ⟨⟨q', by rw [hq', hq]⟩, fun hr => (h'.served (h.restarting.trans hr)).trans (h.served hr)⟩

theorem NewelFrame.ite {s t u : State} {c : Prop} [Decidable c] (ht : NewelFrame s t) (hu : NewelFrame s u) : NewelFrame s (if c then t else u) := by
  split <;> assumption

theorem NewelFrame.foldl {β : Type} {f : State → β → State} (hf : ∀ s b, NewelFrame s (f s b)) (l : List β) (s : State) :
    NewelFrame s (l.foldl f s) :=
  foldl_keeps (NewelFrame s) f (fun t b h => h.step (hf t b)) l (.refl s)

/-- They agree, beside, in the module's state, its power and its start, in those entries, and in what has left. -/
structure ReportFrame (s t : State) : Prop extends NewelFrame s t where
  mode : t.mode = s.mode
  trans : t.trans = s.trans
  power : t.power = s.power
  start : t.start = s.start
  entries : ∀ k ∈ settingEntries, t.odGet k = s.odGet k
  out : s.out <+: t.out

theorem ReportFrame.refl (s : State) : ReportFrame s s := ⟨.refl s, rfl, rfl, rfl, rfl, fun _ _ => rfl, List.prefix_rfl⟩

theorem ReportFrame.step {s t u : State} (h : ReportFrame s t) (h' : ReportFrame t u) : ReportFrame s u :=
  ⟨h.toNewelFrame.step h'.toNewelFrame, h'.mode.trans h.mode, h'.trans.trans h.trans, h'.power.trans h.power, h'.start.trans h.start,
    fun k hk => (h'.entries k hk).trans (h.entries k hk), h.out.trans h'.out⟩

/-- An update of other parts of the state. -/
theorem ReportFrame.of_eq {s t : State} (hnewel : t.newel = s.newel) (hmode : t.mode = s.mode) (htrans : t.trans = s.trans) (hpower : t.power = s.power)
    (hstart : t.start = s.start) (hod : t.od.vals = s.od.vals) (hout : t.out = s.out) : ReportFrame s t :=
  ⟨.of_eq hnewel, hmode, htrans, hpower, hstart, fun k _ => by simp only [State.odGet, hod], hout ▸ List.prefix_rfl⟩

theorem ReportFrame.after {s t u : State} (h : ReportFrame t u) (hnewel : t.newel = s.newel) (hmode : t.mode = s.mode) (htrans : t.trans = s.trans)
    (hpower : t.power = s.power) (hstart : t.start = s.start) (hod : t.od.vals = s.od.vals) (hout : t.out = s.out) : ReportFrame s u :=
  (ReportFrame.of_eq hnewel hmode htrans hpower hstart hod hout).step h

theorem ReportFrame.ite {s t u : State} {c : Prop} [Decidable c] (ht : ReportFrame s t) (hu : ReportFrame s u) : ReportFrame s (if c then t else u) := by
  split <;> assumption

theorem ReportFrame.foldl {β : Type} {f : State → β → State} (hf : ∀ s b, ReportFrame s (f s b)) (l : List β) (s : State) :
    ReportFrame s (l.foldl f s) :=
  foldl_keeps (ReportFrame s) f (fun t b h => h.step (hf t b)) l (.refl s)

theorem State.odPut_report (s : State) {k : Nat} (hk : k ∉ settingEntries) (v : Nat) : ReportFrame s (s.odPut k v) :=
  ⟨.of_eq rfl, rfl, rfl, rfl, rfl, fun _ hj => s.odGet_odPut_ne (ne_of_mem_of_not_mem hj hk) v, List.prefix_rfl⟩

theorem State.count_report (s : State) {k : Nat} (hk : k ∉ settingEntries) (n : Nat) : ReportFrame s (s.count k n) := s.odPut_report hk _

theorem State.emit_report (s : State) (m : OutMsg) : ReportFrame s (s.emit m) :=
  ⟨.of_eq rfl, rfl, rfl, rfl, rfl, fun _ _ => rfl, List.prefix_append ..⟩

theorem State.signal_report (s : State) (v : Nat) : ReportFrame s (s.signal v) := by
  unfold State.signal
  exact .ite (.refl s) (.ite (.of_eq rfl rfl rfl rfl rfl rfl rfl) (s.emit_report _))

theorem State.addEvent_report (s : State) (r : LogRec) : ReportFrame s (s.addEvent r) := by
  unfold State.addEvent
  simp only
  generalize (_ && _ : Bool) = b
  have h : ReportFrame s { s with cxl := s.cxl.addEvent r } := .of_eq rfl rfl rfl rfl rfl rfl rfl
  exact .ite (h.step (State.signal_report _ 0)) h

theorem State.bufferPut_report (s : State) (r : LogRec) : ReportFrame s (s.bufferPut r) := by
  unfold State.bufferPut
  have h : ReportFrame s { s with log := { s.log with buffer := s.log.buffer ++ [r] } } := .of_eq rfl rfl rfl rfl rfl rfl rfl
  exact .ite ((h.step (State.signal_report _ _)).step (State.addEvent_report _ r)) (s.count_report (by decide) 1)

theorem State.record_report (s : State) (ev : LogEv) (extra n time e q : Nat) : ReportFrame s (s.record ev extra n time e q) := by
  have hring : ∀ r, ReportFrame s (s.ringPut r) := fun r => by
    unfold State.ringPut
    exact .of_eq rfl rfl rfl rfl rfl rfl rfl
  unfold State.record
  simp only
  split
  · exact hring _
  · exact (((hring _).step (State.odPut_report _ (by decide) _)).step (State.odPut_report _ (by decide) _)).step (State.bufferPut_report _ _)

@[simp] theorem State.signal_newel (s : State) (v : Nat) : (s.signal v).newel = s.newel := by
  unfold State.signal
  split
  · rfl
  · split <;> rfl

@[simp] theorem State.addEvent_newel (s : State) (r : LogRec) : (s.addEvent r).newel = s.newel := by
  unfold State.addEvent
  simp only
  generalize (_ && _ : Bool) = b
  cases b <;> simp

@[simp] theorem State.bufferPut_newel (s : State) (r : LogRec) : (s.bufferPut r).newel = s.newel := by
  unfold State.bufferPut
  split <;> simp

theorem State.ringPut_newel (s : State) (r : LogRec) : (s.ringPut r).newel = s.newel := by
  unfold State.ringPut
  rfl

/-- R484: a record leaves Newel as it is, whether Newel serves or not. -/
theorem State.record_newel (s : State) (ev : LogEv) (extra n time e q : Nat) : (s.record ev extra n time e q).newel = s.newel := by
  unfold State.record
  simp only
  split
  · exact s.ringPut_newel _
  · rw [State.bufferPut_newel, State.odPut_newel, State.odPut_newel, State.ringPut_newel]

theorem State.logEv_report (s : State) (ev : LogEv) (extra : Nat := 0) : ReportFrame s (s.logEv ev extra) := by
  unfold State.logEv
  split
  case isTrue hr =>
    split
    · exact ⟨⟨⟨_, rfl⟩, fun h => by simp [h] at hr⟩, rfl, rfl, rfl, rfl, fun _ _ => rfl, List.prefix_rfl⟩
    · exact s.count_report (by decide) 1
  case isFalse => exact s.record_report ..

/-! ### Answers (R52 to R56) -/

theorem State.queueFrame_report (s : State) (n : Nat) (f : Frame) : ReportFrame s (s.queueFrame n f) := by
  unfold State.queueFrame
  split
  · exact .refl s
  · have h : ∀ a, ReportFrame s (s.setArch n a) := fun a => .of_eq rfl rfl rfl rfl rfl rfl rfl
    exact (h _).step (State.emit_report _ _)

theorem State.sendFrame_report (s : State) (f : Frame) : ReportFrame s (s.sendFrame f) := by
  unfold State.sendFrame
  split
  · exact s.queueFrame_report _ f
  · exact (s.count_report (by decide) 1).step (State.logEv_report _ _)

theorem State.balSend_report (s : State) (typ : Nat) (body : Bytes) : ReportFrame s (s.balSend typ body) := by
  unfold State.balSend
  split
  · exact .refl s
  · have h : ∀ f, ReportFrame s { s with foyer := f } := fun f => .of_eq rfl rfl rfl rfl rfl rfl rfl
    exact .ite (s.count_report (by decide) 1) ((h _).step (State.emit_report _ _))

theorem State.respond_report (s : State) (o : Origin) (op k status seq : Nat) (b : Bytes) : ReportFrame s (s.respond o op k status seq b) := by
  cases o with
  | mailbox => exact (s.emit_report _).step (State.signal_report _ 0)
  | eop addr udp opcode n path =>
    unfold State.respond
    exact (s.emit_report _).step (State.balSend_report _ _ _)
  | arcade src tag opcode => exact s.sendFrame_report _
  | via v => exact s.emit_report _

theorem State.endStateWait_report (s : State) : ReportFrame s s.endStateWait := by
  unfold State.endStateWait
  split
  · exact .refl s
  · have h : ReportFrame s { s with od := { s.od with stateWait := none } } := .of_eq rfl rfl rfl rfl rfl rfl rfl
    exact h.step (State.respond_report ..)

/-- R63: the state that the module enters, with no transition left. -/
def State.entering (s : State) (m : ModState) : State := { s with mode := m, trans := none }

/-- R63: what waits for the state is answered. -/
theorem State.setMode_report (s : State) (m : ModState) : ReportFrame (s.entering m) (s.setMode m) := by
  have h : ReportFrame (s.entering m) (({ s with mode := m, trans := none } : State).odPut Od.stateSince s.epoch) :=
    (s.entering m).odPut_report (by decide) _
  unfold State.setMode
  simp only
  split
  · exact .ite (h.step (State.endStateWait_report _)) h
  · exact h

theorem State.answerReady_report (s : State) : ReportFrame s s.answerReady := by
  have h : ReportFrame s { s with od := { s.od with ready := [] } } := .of_eq rfl rfl rfl rfl rfl rfl rfl
  exact h.step (.foldl (fun _ _ => State.respond_report ..) _ _)

/-! ### The host's lines (R437) -/

theorem State.memWrite_report (s : State) (a : Nat) (d : Bytes) (p : Bool) : ReportFrame s (s.memWrite a d p) := by
  unfold State.memWrite
  exact .ite (.refl s) (.ite (s.count_report (by decide) 1) (.of_eq rfl rfl rfl rfl rfl rfl rfl))

theorem State.backInvalidate_report (s : State) (l : Nat) : ReportFrame s (s.backInvalidate l) := by
  have h : ReportFrame s { s with cxl := { s.cxl with snooped := some l } } := .of_eq rfl rfl rfl rfl rfl rfl rfl
  unfold State.backInvalidate
  exact .ite (.refl s) ((h.step (State.emit_report _ _)).step (State.count_report _ (by decide) 1))

theorem drainHost_report (n : Nat) (s : State) : ReportFrame s (drainHost n s) := by
  induction n generalizing s with
  | zero => exact .refl s
  | succ n ih =>
    have next : ∀ {t : State}, ReportFrame s t → ReportFrame s (drainHost n t) := fun h => h.step (ih _)
    have waits : ∀ t, ReportFrame s { s with cxl := { s.cxl with waiting := t } } := fun t => .of_eq rfl rfl rfl rfl rfl rfl rfl
    unfold drainHost
    split
    · exact .refl s
    · exact next ((waits _).step (State.signal_report _ _))
    · refine .ite (next (waits _)) (.ite (next (.of_eq rfl rfl rfl rfl rfl rfl rfl)) ?_)
      split
      · exact .refl s
      · exact s.backInvalidate_report _
    · exact next (.of_eq rfl rfl rfl rfl rfl rfl rfl)
    · exact next (.of_eq rfl rfl rfl rfl rfl rfl rfl)
    · split
      · exact .ite (s.backInvalidate_report _) (next ((waits _).step (State.memWrite_report ..)))
      · exact next ((waits _).step (State.memWrite_report ..))

/-! ### The entry into Safe Stop (R12, R530) -/

theorem State.portDark_report (s : State) : ReportFrame s s.portDark := by
  have uncommits : ∀ t : State, ReportFrame t t.uncommit := fun t =>
    ((t.odPut_report (k := Od.hdmCommitted) (by decide) 0).step (State.odPut_report _ (k := Od.hdmHpaBase) (by decide) 0)).step
      (State.odPut_report _ (k := Od.hdmSize) (by decide) 0)
  have h : ReportFrame s ({ s with cxl := s.cxl.unlinked } : State).uncommit := (uncommits _).after rfl rfl rfl rfl rfl rfl rfl
  unfold State.portDark
  exact .ite (.refl s) ((((h.step (State.count_report _ (k := Od.linkLosses) (by decide) 1)).step (State.logEv_report _ _)).step
    (drainHost_report _ _)).step (State.answerReady_report _))

theorem State.abandonDescs_report (s : State) (p : Desc → Bool) : ReportFrame s (s.abandonDescs p) := by
  unfold State.abandonDescs
  exact (State.count_report _ (by decide) _).after rfl rfl rfl rfl rfl rfl rfl

theorem State.abandonParks_report (s : State) : ReportFrame s s.abandonParks := by
  unfold State.abandonParks
  exact (State.count_report _ (by decide) _).after rfl rfl rfl rfl rfl rfl rfl

theorem State.allAbandoned_report (s : State) : ReportFrame s s.allAbandoned := by
  have h : ReportFrame s (s.abandonDescs (fun _ => true)).abandonParks := (s.abandonDescs_report _).step (State.abandonParks_report _)
  unfold State.allAbandoned
  generalize (s.abandonDescs (fun _ => true)).abandonParks = t at h ⊢
  exact h.step (.of_eq rfl rfl rfl rfl rfl rfl rfl)

theorem State.finishTest_report (s : State) (code : Nat) : ReportFrame s (s.finishTest code) := by
  have restored : ∀ r, ReportFrame s (s.restoreTested r) := fun r => by
    unfold State.restoreTested
    exact .ite (.of_eq rfl rfl rfl rfl rfl rfl rfl) (.ite (.of_eq rfl rfl rfl rfl rfl rfl rfl) (.refl s))
  have key : ∀ k, testStateKey k ∉ settingEntries := fun k => by
    unfold testStateKey
    split
    · decide
    · split <;> decide
  unfold State.finishTest
  split
  · exact .refl s
  · next r _ =>
    have h : ReportFrame s { s.restoreTested r with test := { s.test with run := none } } := (restored r).step (.of_eq rfl rfl rfl rfl rfl rfl rfl)
    exact h.step (State.odPut_report _ (key _) _)

/-! ### The entry into Safe Stop (R12, R530) and the faults that lead to it (R247, R521) -/

/-- R530: the halls without their power. -/
def State.unpowered (s : State) : State := { s with power := { s.power with hallPower := [] } }

theorem ReportFrame.unpowered {s t : State} (h : ReportFrame s t) : ReportFrame s.unpowered t.unpowered :=
  ⟨⟨h.queued, h.served⟩, h.mode, h.trans, by simp only [State.unpowered, h.power], h.start, h.entries, h.out⟩

theorem ReportFrame.entering {s t : State} (h : ReportFrame s t) (m : ModState) :
    ReportFrame (s.entering m) (t.entering m) :=
  ⟨⟨h.queued, h.served⟩, rfl, rfl, h.power, h.start, h.entries, h.out⟩

theorem ReportFrame.beginning {s t : State} (h : ReportFrame s t) (m : Option ModState) : ReportFrame { s with trans := m } { t with trans := m } :=
  ⟨⟨h.queued, h.served⟩, h.mode, rfl, h.power, h.start, h.entries, h.out⟩

theorem State.tick_report (s : State) : ReportFrame s s.tick := .of_eq rfl rfl rfl rfl rfl rfl rfl

theorem State.enterSafeStop_of_there {s : State} (h : s.mode = .safeStop ∨ s.mode = .off) (c : Nat) : s.enterSafeStop c = s := if_pos h

/-- R12, R530: in Safe Stop the module has no transition and its halls have no power. -/
theorem State.enterSafeStop_report {s : State} (h : ¬ (s.mode = .safeStop ∨ s.mode = .off)) (c : Nat) :
    ReportFrame (s.unpowered.entering .safeStop) (s.enterSafeStop c) := by
  unfold State.enterSafeStop
  rw [if_neg h]
  extract_lets s₁ s₂ s₃ _ s₄ s₅ _ _ s₆ _ s₇
  have h₁ : ReportFrame s s₁ := s.logEv_report _
  clear_value s₁
  have h₂ : ReportFrame s s₂ := h₁.step (s₁.odPut_report (by decide) _)
  clear_value s₂
  have h₃ : ReportFrame s s₃ := by
    unfold s₃
    split
    · exact h₂.step (.ite (State.odPut_report _ (by decide) _) (.ite (State.odPut_report _ (by decide) _) (State.odPut_report _ (by decide) _)))
    · exact h₂
  clear_value s₃
  have h₄ : ReportFrame s s₄ := .ite (h₃.step (.of_eq rfl rfl rfl rfl rfl rfl rfl)) h₂
  clear_value s₄
  have h₅ : ReportFrame s s₅ := h₄.step s₄.allAbandoned_report
  clear_value s₅
  have h₆ : ReportFrame s.unpowered s₆ := h₅.unpowered.step (.of_eq rfl rfl rfl rfl rfl rfl rfl)
  clear_value s₆
  have hviral : ReportFrame s₆ ({ s₆ with cxl := { s₆.cxl with viral := true } } : State) := .of_eq rfl rfl rfl rfl rfl rfl rfl
  have h₇ : ReportFrame s.unpowered s₇ := .ite ((h₆.step hviral).step (State.emit_report _ _)) h₆
  clear_value s₇
  have h₈ := (ReportFrame.ite (c := darkCause c = true) (h₇.step s₇.portDark_report) h₇).step (State.tick_report _)
  exact (h₈.entering .safeStop).step (State.setMode_report _ _)

theorem State.enterSafeStop_newel (s : State) (c : Nat) : NewelFrame s (s.enterSafeStop c) := by
  by_cases h : s.mode = .safeStop ∨ s.mode = .off
  · rw [State.enterSafeStop_of_there h]
    exact .refl s
  · obtain ⟨hq, hs⟩ := (State.enterSafeStop_report h c).toNewelFrame
    exact ⟨hq, hs⟩

theorem State.enterSafeStop_mode {s : State} (h : s.mode ≠ .off) (c : Nat) : (s.enterSafeStop c).mode = .safeStop := by
  by_cases hs : s.mode = .safeStop
  · rwa [State.enterSafeStop_of_there (.inl hs)]
  · exact (State.enterSafeStop_report (not_or.mpr ⟨hs, h⟩) c).mode

theorem State.enterSafeStop_power {s : State} (h : s.mode ≠ .off) (hp : s.mode = .safeStop → s.power.hallPower = []) (c : Nat) :
    (s.enterSafeStop c).power.hallPower = [] := by
  by_cases hs : s.mode = .safeStop
  · rw [State.enterSafeStop_of_there (.inl hs), hp hs]
  · rw [(State.enterSafeStop_report (not_or.mpr ⟨hs, h⟩) c).power]
    rfl

theorem State.fatal_newel (s : State) (ev : LogEv) : NewelFrame s (s.fatal ev) :=
  (s.logEv_report ev).toNewelFrame.step (State.enterSafeStop_newel _ _)

theorem State.fatal_mode {s : State} (h : s.mode ≠ .off) (ev : LogEv) : (s.fatal ev).mode = .safeStop :=
  State.enterSafeStop_mode (by rwa [(s.logEv_report ev).mode]) _

theorem State.fatal_power {s : State} (h : s.mode ≠ .off) (hp : s.mode = .safeStop → s.power.hallPower = []) (ev : LogEv) :
    (s.fatal ev).power.hallPower = [] := by
  have hl := s.logEv_report ev
  exact State.enterSafeStop_power (by rwa [hl.mode]) (fun hm => by rw [hl.power, hp (hl.mode ▸ hm)]) _

/-- R247, R521: where the table has room, a fault of a new subject opens an episode and changes no more than its record does. -/
theorem State.takeFault_of_fresh {s : State} {x : Subject} (hfresh : s.episodeOf x = none) (hroom : s.newel.episodes.length < 4) (ev : LogEv)
    (model time : Nat) : ∃ es n, (s.takeFault ev x model time).newel = { s.newel with episodes := es, nextEpisode := n } ∧
      ReportFrame s { s.takeFault ev x model time with newel := s.newel } := by
  have hrec := s.record_report ev 0 1 time s.newel.nextEpisode 1
  have hn : (s.record ev 0 1 time s.newel.nextEpisode 1).newel = s.newel := s.record_newel ..
  unfold State.takeFault
  rw [hfresh]
  simp only
  rw [if_neg (by omega)]
  generalize s.record ev 0 1 time s.newel.nextEpisode 1 = u at hrec hn ⊢
  simp only [State.count_newel, hn]
  refine ⟨_, _, rfl, ?_⟩
  have hc : ReportFrame u (u.count Od.episodesOpened 1) := u.count_report (by decide) 1
  exact (hrec.step hc).step (.of_eq hn.symm rfl rfl rfl rfl rfl rfl)

/-- R479: Newel serves, and nothing waits for it. -/
structure Serves (s : State) : Prop where
  up : s.newel.restarting = false
  drained : s.newel.eventQueue = []

theorem Serves.of_newel {s t : State} (h : Serves s) (hn : t.newel = s.newel) : Serves t := ⟨hn ▸ h.up, hn ▸ h.drained⟩

theorem Serves.frame {s t : State} (h : Serves s) (hf : NewelFrame s t) : Serves t := h.of_newel (hf.served h.up)

theorem Serves.record {s : State} (h : Serves s) (ev : LogEv) (extra n time e q : Nat) : Serves (s.record ev extra n time e q) :=
  h.of_newel (s.record_newel ..)

theorem Serves.modEpisode {s : State} (h : Serves s) (n : Nat) (f : Episode → Episode) : Serves (s.modEpisode n f) := ⟨h.up, h.drained⟩

theorem Serves.enterSafeStop {s : State} (h : Serves s) (c : Nat) : Serves (s.enterSafeStop c) := h.frame (s.enterSafeStop_newel c)

theorem Serves.takeFault {s : State} (h : Serves s) (ev : LogEv) (x : Subject) (model time : Nat) : Serves (s.takeFault ev x model time) := by
  unfold State.takeFault
  split
  · next e _ =>
    have hj := (h.record ev 0 1 time e.num (e.records + 1)).modEpisode e.num
    unfold State.joinEpisode
    simp only
    split
    · exact (hj _).enterSafeStop _
    · exact hj _
  · split
    · exact ((h.record ..).record ..).enterSafeStop _
    · obtain ⟨hup, hq⟩ := h.record ev 0 1 time s.newel.nextEpisode 1
      exact ⟨hup, hq⟩

theorem Serves.raiseFault {s : State} (h : Serves s) (ev : LogEv) (x : Subject) (model : Nat) : Serves (s.raiseFault ev x model) := by
  unfold State.raiseFault
  rw [if_neg (by simp [h.up])]
  exact h.takeFault ..

theorem Serves.foldl {β : Type} {f : State → β → State} (hf : ∀ s b, Serves s → Serves (f s b)) (l : List β) {s : State} (h : Serves s) :
    Serves (l.foldl f s) := foldl_keeps Serves f hf l h

theorem Serves.weightPoisoned {s : State} (h : Serves s) (x : Subject) : Serves (s.weightPoisoned x) := by
  unfold State.weightPoisoned
  split
  · exact h
  · have hm : ∀ m sl b, Serves (s.markBlock m sl b) := fun m sl b => by
      have hmark : ∀ a n, Serves (s.memMark a n true) := fun _ _ => ⟨h.up, h.drained⟩
      have hland : ∀ (t : State) l x, Serves t → Serves (t.setLanding l x) := fun _ _ _ h => ⟨h.up, h.drained⟩
      exact .foldl (fun _ _ h => hland _ _ _ h) _ (hmark _ _)
    refine .foldl (fun _ _ h => h.raiseFault ..) _ ?_
    split
    · exact (hm _ _ _).modEpisode _ _
    · exact hm _ _ _

/-- R479: an event that waited is recorded, or taken as a fault. -/
theorem Serves.takeQueued {s : State} (h : Serves s) (e : FaultEv) : Serves (s.takeQueued e) := by
  unfold State.takeQueued
  split
  · exact h.record ..
  · next x _ =>
    have hf := h.takeFault e.ev x e.model e.time
    simp only
    split
    · exact hf.weightPoisoned x
    · exact hf

/-! ### Restarts (R479, R524) -/

theorem exec_newelRestart (cause : Nat) (ok : Bool) (s : State) : exec (.newelRestart cause ok) s = execNewelRestart cause ok s := by rfl

theorem exec_newelRestartDone (s : State) : exec .newelRestartDone s = execNewelRestartDone s := by rfl

/-- R479: the restart as it counts, before its record. -/
def State.restarts (s : State) : State := ({ s with newel := { s.newel with restarting := true } } : State).count Od.newelRestarts 1

theorem State.restarts_odGet (s : State) : s.restarts.odGet Od.newelRestarts = (s.odGet Od.newelRestarts + 1) % odModulus Od.newelRestarts :=
  State.odGet_count_self ..

/-- R479: while Newel restarts, a fault waits, or is counted where the queue is full. -/
theorem State.raiseFault_newel {s : State} (h : s.newel.restarting = true) (ev : LogEv) (x : Subject) (model : Nat) :
    ReportFrame s (s.raiseFault ev x model) := by
  unfold State.raiseFault
  rw [if_pos h]
  split
  · exact ⟨⟨⟨_, rfl⟩, fun hr => by simp [h] at hr⟩, rfl, rfl, rfl, rfl, fun _ _ => rfl, List.prefix_rfl⟩
  · exact s.count_report (by decide) 1

theorem State.raiseFault_queue {s : State} (h : s.newel.restarting = true) (hroom : s.newel.eventQueue.length < 64) (ev : LogEv) (x : Subject)
    (model : Nat) : (s.raiseFault ev x model).newel.eventQueue = s.newel.eventQueue ++ [⟨ev, some x, model, s.epoch⟩] := by
  unfold State.raiseFault
  rw [if_pos h, if_pos hroom]

/-- R479: the restart's own fault. -/
def State.restartFault (s : State) (cause : Nat) : State := s.restarts.raiseFault { code := 0x1220, detail := leBytes 1 cause } (unitSubject 8 0xFF 0xFF)

theorem State.restartFault_report (s : State) (cause : Nat) : ReportFrame s.restarts (s.restartFault cause) := State.raiseFault_newel rfl _ _ _

theorem execNewelRestart_of_running {s : State} (h : s.mode ≠ .off) (cause : Nat) (ok : Bool) :
    execNewelRestart cause ok s = .next (if ok then s.restartFault cause
      else ({ s.restartFault cause with newel := { (s.restartFault cause).newel with episodes := [] } } : State).enterSafeStop 0x1220) := if_neg h

theorem newelRestart_queues {s : State} (h : s.mode ≠ .off) (hroom : s.newel.eventQueue.length < 64) (cause : Nat) :
    ∃ t : State, exec (.newelRestart cause true) s = .next t ∧ t.newel.restarting = true ∧ t.mode = s.mode ∧
      t.odGet Od.newelRestarts = (s.odGet Od.newelRestarts + 1) % odModulus Od.newelRestarts ∧
      ∃ e : FaultEv, t.newel.eventQueue = s.newel.eventQueue ++ [e] ∧ e.ev.code = 0x1220 := by
  have hf := s.restartFault_report cause
  exact ⟨s.restartFault cause, execNewelRestart_of_running h cause true, hf.restarting, hf.mode,
    (hf.entries _ (by decide)).trans s.restarts_odGet, _, State.raiseFault_queue (s := s.restarts) rfl hroom _ _ _, rfl⟩

theorem newelRestart_without_table {s : State} (h : s.mode ≠ .off) (cause : Nat) :
    ∃ t : State, exec (.newelRestart cause false) s = .next t ∧ t.newel.restarting = true ∧ t.mode = .safeStop ∧ t.newel.episodes = [] := by
  have hf := s.restartFault_report cause
  have hn := State.enterSafeStop_newel { s.restartFault cause with newel := { (s.restartFault cause).newel with episodes := [] } } 0x1220
  refine ⟨_, execNewelRestart_of_running h cause false, hn.restarting.trans hf.restarting, ?_, hn.episodes⟩
  exact State.enterSafeStop_mode (by rw [hf.mode]; exact h) _

theorem newelRestartDone_drains {s : State} (h : s.newel.restarting = true) :
    ∃ t : State, exec .newelRestartDone s = .next t ∧ t.newel.restarting = false ∧ t.newel.eventQueue = [] ∧
      (s.newel.eventQueue = [] → t = { s with newel := { s.newel with restarting := false } }) := by
  have he : exec .newelRestartDone s = .next (s.newel.eventQueue.foldl State.takeQueued
      { s with newel := { s.newel with restarting := false, eventQueue := [] } }) := by
    rw [exec_newelRestartDone, execNewelRestartDone, if_neg (by rw [h]; decide)]
  obtain ⟨hup, hq⟩ := Serves.foldl (fun _ e h => h.takeQueued e) s.newel.eventQueue
    (s := { s with newel := { s.newel with restarting := false, eventQueue := [] } }) ⟨rfl, rfl⟩
  refine ⟨_, he, hup, hq, fun hnil => ?_⟩
  simp only [hnil, List.foldl_nil]

/-! ### Sensors (R272, R480 to R482) -/

theorem exec_sensorSample (rs : List Reading) (s : State) : exec (.sensorSample rs) s = execSensorSample rs s := by rfl

theorem find_putSensor (x : Sensor) (l : List Sensor) : (putSensor x l).find? (fun y => y.kind == x.kind && y.index == x.index) = some x := by
  induction l with
  | nil => simp [putSensor]
  | cons y l ih =>
    unfold putSensor
    split
    · simp
    · split
      · simp
      · next hne =>
        have hmiss : (y.kind == x.kind && y.index == x.index) = false := Bool.eq_false_iff.mpr fun h => by
          simp only [Bool.and_eq_true, beq_iff_eq] at h
          exact hne ⟨h.1.symm, h.2.symm⟩
        rw [List.find?_cons, hmiss]
        exact ih

theorem mem_putSensor_self (x : Sensor) (l : List Sensor) : x ∈ putSensor x l := List.mem_of_find?_eq_some (find_putSensor x l)

theorem mem_of_mem_putSensor {x y : Sensor} {l : List Sensor} (h : y ∈ putSensor x l) : y = x ∨ y ∈ l := by
  induction l with
  | nil => exact .inl (List.mem_singleton.mp h)
  | cons z l ih =>
    unfold putSensor at h
    split at h
    · exact List.mem_cons.mp h
    · split at h
      · exact (List.mem_cons.mp h).imp_right (List.mem_cons_of_mem z)
      · obtain rfl | h := List.mem_cons.mp h
        · exact .inr List.mem_cons_self
        · exact (ih h).imp_right (List.mem_cons_of_mem z)

/-- R482: whether a reading leaves its sensor failed. -/
def State.failsNow (s : State) (r : Reading) : Bool :=
  ((s.sensor r.kind r.index).map (·.failed)).getD false || readingFails r ((s.sensor r.kind r.index).bind (·.prev))

/-- R482: the sensor's record after a reading. -/
def State.readSensor (s : State) (r : Reading) : Sensor := ⟨r.kind, r.index, r.value, true, s.failsNow r, some r.value⟩

/-- R481, R482: Newel's sensors after a reading, with some readings of the rate monitors. -/
def State.withReading (s : State) (r : Reading) (rates : List (Nat × Nat × Int)) : State :=
  { s with newel := { s.newel with sensors := putSensor (s.readSensor r) s.newel.sensors, rates := rates } }

/-- R482: a reading gives its sensor the value read, and changes no more than its record does beside. -/
theorem State.takeReading_report {s : State} {r : Reading} (hr : sensorExists r = true) :
    ∃ rates, ReportFrame (s.withReading r rates) (s.takeReading r) := by
  have hn : ∃ rates, s.takeReading r = (if s.failsNow r && !((s.sensor r.kind r.index).map (·.failed)).getD false then
      ((s.withReading r rates).count Od.sensorsFailed 1).logEv
        { code := 0x1230, unit := r.index, detail := leBytes 1 r.kind ++ leBytes 4 (ofInt 32 r.value) }
      else s.withReading r rates) := by
    unfold State.takeReading
    rw [if_neg (by simp [hr])]
    by_cases h3 : r.kind = 3 ∧ (!s.failsNow r) = true
    · exact ⟨s.newel.rates ++ [(r.index, s.epoch, r.value)], by simp only [State.failsNow] at h3; simp only [if_pos h3]; rfl⟩
    · exact ⟨s.newel.rates, by simp only [State.failsNow] at h3; simp only [if_neg h3]; rfl⟩
  obtain ⟨rates, hn⟩ := hn
  refine ⟨rates, ?_⟩
  rw [hn]
  exact .ite ((State.count_report _ (by decide) 1).step (State.logEv_report _ _)) (.refl _)

theorem State.stackRow_newel (s : State) (n : Nat) : NewelFrame s (s.stackRow n) := by
  unfold State.stackRow
  split
  · exact .refl s
  · extract_lets s₁ rows cur r s₂ s₃
    have h₁ : NewelFrame s s₁ := .of_eq rfl
    have h₂ : NewelFrame s s₂ := .of_eq rfl
    have h₃ : NewelFrame s s₃ := .ite (.of_eq rfl) h₂
    exact .ite (h₁.step (s₁.fatal_newel _)) (.ite (h₃.step (s₃.logEv_report _).toNewelFrame) h₃)

theorem State.mezzRow_newel (s : State) (p : Nat) : NewelFrame s (s.mezzRow p) := by
  unfold State.mezzRow
  split
  · exact .refl s
  · extract_lets h s₁ cur r m s₂ s₃
    have h₁ : NewelFrame s s₁ := by
      unfold s₁
      split <;> exact .of_eq rfl
    have h₂ : NewelFrame s s₂ := h₁.step (.of_eq rfl)
    have h₃ : NewelFrame s s₃ := .ite (h₂.step (.of_eq rfl)) h₂
    exact .ite (h₁.step (s₁.fatal_newel _)) (.ite (h₃.step (s₃.logEv_report _).toNewelFrame) h₃)

/-- R480: what follows the readings of a sample changes nothing in Newel but what waits. -/
theorem sensorSample_newel {s : State} (hm : s.mode ≠ .off) (hr : s.newel.restarting = false) (rs : List Reading) :
    ∃ t, exec (.sensorSample rs) s = .next t ∧ NewelFrame (rs.foldl State.takeReading s).dropRates t := by
  rw [exec_sensorSample, execSensorSample, if_neg (by simp [hm, hr])]
  extract_lets s₁ sts packs halls s₂ s₃ s₄ s₅
  have h₂ : NewelFrame s₁ s₂ := .foldl (fun s n => .ite (s.stackRow_newel n) (.refl s)) _ _
  have h₃ : NewelFrame s₂ s₃ := .foldl (fun s n => .ite (s.mezzRow_newel n) (.refl s)) _ _
  have h₄ : NewelFrame s₃ s₄ := .foldl (fun s h => .of_eq (s.odPut_newel _ _)) _ _
  have h₅ : NewelFrame s₄ s₅ := by
    unfold s₅
    split <;> exact .of_eq rfl
  refine ⟨_, rfl, (h₂.step (h₃.step (h₄.step h₅))).step ?_⟩
  split <;> exact .of_eq rfl

theorem sensorSample_sets {s : State} {r : Reading} (hm : s.mode ≠ .off) (hr : s.newel.restarting = false) (he : sensorExists r = true) :
    ∃ t : State, exec (.sensorSample [r]) s = .next t ∧ t.sensor r.kind r.index = some (s.readSensor r) := by
  obtain ⟨t, ht, hf⟩ := sensorSample_newel hm hr [r]
  obtain ⟨rates, hs⟩ := State.takeReading_report (s := s) he
  refine ⟨t, ht, ?_⟩
  have hsens : t.newel.sensors = putSensor (s.readSensor r) s.newel.sensors :=
    hf.sensors.trans hs.sensors
  unfold State.sensor
  rw [hsens]
  exact find_putSensor (s.readSensor r) _

theorem maxInt_ge {v : Int} {l : List Int} (h : v ∈ l) : ∃ y, maxInt l = some y ∧ v ≤ y := by
  induction l with
  | nil => cases h
  | cons x l ih =>
    refine ⟨_, rfl, ?_⟩
    obtain rfl | h := List.mem_cons.mp h
    · split
      · exact le_rfl
      · split <;> omega
    · obtain ⟨y, hy, hle⟩ := ih h
      rw [hy]
      simp only
      split <;> omega

/-- R272, R482: a stack of which a sensor that has not failed reads a temperature is at least that warm. -/
theorem State.stackTemp_of_reading {s : State} {n : Nat} {x : Sensor} (hfail : s.failedCount 0 (32 + 2 * n) (34 + 2 * n) = 0) (hx : x ∈ s.newel.sensors)
    (hkind : x.kind = 0) (hi : x.index = 32 + 2 * n) (hv : x.valid = true) (hf : x.failed = false) : ∃ T, s.stackTemp n = some T ∧ x.value ≤ T := by
  unfold State.stackTemp
  rw [if_neg (by omega)]
  refine maxInt_ge (List.mem_map.mpr ⟨x, List.mem_filter.mpr ⟨hx, ?_⟩, rfl⟩)
  simp [hkind, hi, hv, hf]

/-- R272, R12: a stack at 110 °C leads to Safe Stop. -/
theorem State.stackRow_of_hot {s : State} {n : Nat} {T : Int} (h : s.stackTemp n = some T) (hT : 110000 ≤ T) (hm : s.mode ≠ .off)
    (hs : s.mode ≠ .safeStop) : (s.stackRow n).mode = .safeStop ∧ (s.stackRow n).power.hallPower = [] := by
  unfold State.stackRow
  simp only [h]
  rw [if_pos hT]
  have hod : ∀ k v, (s.odPut k v).mode = s.mode := fun k v => s.odPut_mode k v
  exact ⟨State.fatal_mode (by rwa [hod]) _, State.fatal_power (by rwa [hod]) (fun he => absurd (hod _ _ ▸ he) hs) _⟩

theorem State.failedCount_withReading {s : State} {r : Reading} {rates : List (Nat × Nat × Int)} {k lo hi : Nat} (h : s.failedCount k lo hi = 0)
    (hr : s.failsNow r = false) : (s.withReading r rates).failedCount k lo hi = 0 := by
  unfold State.failedCount at h ⊢
  rw [List.length_eq_zero_iff, List.filter_eq_nil_iff] at h ⊢
  intro y hy
  obtain rfl | hy := mem_of_mem_putSensor hy
  · simp [State.readSensor, hr]
  · exact h y hy

/-- R480: a reading of a stack's first sensor is followed by that stack's row. -/
theorem sensorSample_of_stack {s : State} {r : Reading} {n : Nat} (hm : s.mode ≠ .off) (hr : s.newel.restarting = false) (hn : n < 24) (hk : r.kind = 0)
    (hi : r.index = 32 + 2 * n) (hp : (s.takeReading r).power.hallPower.contains (n / 6) = true) :
    ∃ t, exec (.sensorSample [r]) s = .next t ∧ ReportFrame ((s.takeReading r).dropRates.stackRow n) t := by
  rw [exec_sensorSample, execSensorSample, if_neg (by simp [hm, hr])]
  extract_lets s₁ sts packs halls s₂ s₃ s₄ s₅
  have hsts : sts = [n] := by
    have : (r.index - 32) / 2 = n := by omega
    simp [sts, hk, hi, show 32 + 2 * n < 80 by omega]
  have hpacks : packs = [] := by simp [packs, hk]
  have hhalls : halls = [] := by simp [halls, hk]
  have h₄ : s₄ = (s.takeReading r).dropRates.stackRow n := by
    simp only [s₄, s₃, s₂, s₁, hsts, hpacks, hhalls, List.foldl_cons, List.foldl_nil]
    exact if_pos hp
  have h₅ : ReportFrame s₄ s₅ := by
    unfold s₅
    split
    · exact State.odPut_report _ (by decide) _
    · exact .refl _
  refine ⟨_, rfl, h₄ ▸ h₅.step ?_⟩
  split
  · exact State.odPut_report _ (by decide) _
  · exact .refl _

theorem sensorSample_of_hot_stack {s : State} {r : Reading} {n : Nat} (hm : s.mode ≠ .off) (hs : s.mode ≠ .safeStop) (hr : s.newel.restarting = false)
    (hn : n < 24) (hk : r.kind = 0) (hi : r.index = 32 + 2 * n) (hold : s.sensor 0 (32 + 2 * n) = none)
    (hfail : s.failedCount 0 (32 + 2 * n) (34 + 2 * n) = 0) (hp : s.power.hallPower.contains (n / 6) = true) (hlo : 110000 ≤ r.value)
    (hhi : r.value ≤ 150000) : ∃ t : State, exec (.sensorSample [r]) s = .next t ∧ t.mode = .safeStop ∧ t.power.hallPower = [] := by
  have hok : s.failsNow r = false := by
    have : ¬ r.value < -40000 := by omega
    simp [State.failsNow, hk, hi, hold, readingFails, hhi, this]
  obtain ⟨rates, ht⟩ := State.takeReading_report (s := s) (r := r) (by simp [sensorExists, hk, hi]; omega)
  obtain ⟨t, het, hrep⟩ := sensorSample_of_stack (s := s) hm hr hn hk hi (by rw [ht.power]; exact hp)
  have hsens : (s.takeReading r).dropRates.newel.sensors = (s.withReading r rates).newel.sensors := ht.sensors
  have hcount : (s.takeReading r).dropRates.failedCount 0 (32 + 2 * n) (34 + 2 * n) = 0 := by
    unfold State.failedCount
    rw [hsens]
    exact State.failedCount_withReading hfail hok
  obtain ⟨T, hT, hle⟩ := State.stackTemp_of_reading (x := s.readSensor r) hcount (by rw [hsens]; exact mem_putSensor_self ..) hk hi rfl hok
  obtain ⟨hmode, hpow⟩ := State.stackRow_of_hot hT (hlo.trans hle) (by rw [show (s.takeReading r).dropRates.mode = s.mode from ht.mode]; exact hm)
    (by rw [show (s.takeReading r).dropRates.mode = s.mode from ht.mode]; exact hs)
  exact ⟨t, het, hrep.mode.trans hmode, (congrArg PowerSt.hallPower hrep.power).trans hpow⟩

/-! ### The log's intervals and the persistent ring (R485, R487) -/

theorem exec_logIntervalEnd (code subject : Nat) (s : State) : exec (.logIntervalEnd code subject) s = execLogIntervalEnd code subject s := by rfl

theorem exec_persistRecord (s : State) : exec .persistRecord s = execPersistRecord s := by rfl

theorem State.signal_log (s : State) (v : Nat) : (s.signal v).log = s.log := by
  unfold State.signal
  split
  · rfl
  · split <;> rfl

theorem State.addEvent_log (s : State) (r : LogRec) : (s.addEvent r).log = s.log := by
  unfold State.addEvent
  simp only
  generalize (_ && _ : Bool) = b
  cases b
  · rfl
  · exact State.signal_log _ 0

theorem State.bufferPut_log (s : State) (r : LogRec) : (s.bufferPut r).log.ring = s.log.ring ∧ (s.bufferPut r).log.intervals = s.log.intervals := by
  unfold State.bufferPut
  split
  · simp only [State.addEvent_log, State.signal_log, and_self]
  · exact ⟨rfl, rfl⟩

theorem mem_keepLast {α : Type} {n : Nat} (hn : 0 < n) (l : List α) (x : α) : x ∈ keepLast n (l ++ [x]) := by
  unfold keepLast
  rw [List.drop_append_of_le_length (by rw [List.length_append, List.length_singleton]; omega)]
  exact List.mem_append_right _ List.mem_cons_self

/-- R484: a record stands last in the ring. -/
theorem State.ringPut_eq (s : State) (r : LogRec) : ∃ ring next waiting, r ∈ ring ∧
    s.ringPut r = { s with log := { s.log with ring := ring, next := next, toFlash := waiting } } :=
  ⟨_, _, _, mem_keepLast (n := 4096) (by omega) s.log.ring r, rfl⟩

theorem State.mem_ringPut (s : State) (r : LogRec) : r ∈ (s.ringPut r).log.ring := by
  obtain ⟨ring, next, waiting, hr, h⟩ := s.ringPut_eq r
  rw [h]
  exact hr

theorem State.ringPut_intervals (s : State) (r : LogRec) : (s.ringPut r).log.intervals = s.log.intervals := by
  obtain ⟨ring, next, waiting, -, h⟩ := s.ringPut_eq r
  rw [h]

theorem State.record_eq (s : State) (ev : LogEv) (extra n time e q : Nat) : ∃ r : LogRec, r.code = ev.code ∧ r.count = n ∧ r.time = time ∧
    s.record ev extra n time e q = if severityOf ev.code = 0 then s.ringPut r
      else (((s.ringPut r).odPut Od.lastError ev.code).odPut Od.lastErrorTime time).bufferPut r := ⟨_, rfl, rfl, rfl, rfl⟩

/-- R484, R485: a record stands in the ring, with its code, its count and its time; the intervals stay. -/
theorem State.record_ring (s : State) (ev : LogEv) (extra n time e q : Nat) : (s.record ev extra n time e q).log.intervals = s.log.intervals ∧
    ∃ x ∈ (s.record ev extra n time e q).log.ring, x.code = ev.code ∧ x.count = n ∧ x.time = time := by
  obtain ⟨r, hcode, hcount, htime, h⟩ := s.record_eq ev extra n time e q
  have hx := s.mem_ringPut r
  have hi := s.ringPut_intervals r
  rw [h]
  split
  · exact ⟨hi, r, hx, hcode, hcount, htime⟩
  · obtain ⟨hring, hint⟩ := State.bufferPut_log (((s.ringPut r).odPut Od.lastError ev.code).odPut Od.lastErrorTime time) r
    rw [hring, hint]
    exact ⟨hi, r, hx, hcode, hcount, htime⟩

theorem logIntervalEnd_idle {s : State} {code subject : Nat}
    (h : s.newel.restarting = true ∨ s.log.intervals.find? (fun i => i.code == code && i.subject == subject) = none) :
    exec (.logIntervalEnd code subject) s = .next s := by
  rw [exec_logIntervalEnd, execLogIntervalEnd]
  obtain h | h := h
  · rw [if_pos h]
  · simp only [State.logIntervalOver, h, ite_self]

section
variable {s : State} {i : LogInterval} (hr : s.newel.restarting = false) (hi : s.log.intervals = [i])
include hr hi

theorem exec_logIntervalEnd_of_single :
    exec (.logIntervalEnd i.code i.subject) s = .next (if i.count = 0 then { s with log := { s.log with intervals := [] } }
    else ({ s with log := { s.log with intervals := [{ i with opened := s.epoch, count := 0 }] } } : State).record i.ev 4 i.count i.first 0 0) := by
  rw [exec_logIntervalEnd, execLogIntervalEnd, if_neg (by simp [hr])]
  simp [State.logIntervalOver, hi, dropFirst]

theorem logIntervalEnd_closes (hc : i.count = 0) :
    exec (.logIntervalEnd i.code i.subject) s = .next { s with log := { s.log with intervals := [] } } := by
  rw [exec_logIntervalEnd_of_single hr hi, if_pos hc]

theorem logIntervalEnd_records (hc : i.count ≠ 0) : ∃ (t : State) (x : LogRec), exec (.logIntervalEnd i.code i.subject) s = .next t ∧
    t.log.intervals = [{ i with opened := s.epoch, count := 0 }] ∧ x ∈ t.log.ring ∧ x.code = i.ev.code ∧ x.count = i.count ∧
      x.time = i.first := by
  obtain ⟨hint, x, hx, hcode, hcount, htime⟩ :=
    ({ s with log := { s.log with intervals := [{ i with opened := s.epoch, count := 0 }] } } : State).record_ring i.ev 4 i.count i.first 0 0
  refine ⟨_, x, ?_, hint, hx, hcode, hcount, htime⟩
  rw [exec_logIntervalEnd_of_single hr hi, if_neg hc]

end

theorem persistRecord_idle {s : State} (h : s.log.toFlash = [] ∨ s.odGet Od.fwState = 3) : exec .persistRecord s = .next s := by
  rw [exec_persistRecord, execPersistRecord]
  obtain h | h := h
  · rw [h]
  · split
    · rfl
    · rw [if_pos h]

/-- R487: the flag that says that a record stands in the persistent ring. -/
def LogRec.persisted (r : LogRec) : LogRec := { r with flags := if bit r.flags 3 then r.flags else r.flags + 8 }

theorem LogRec.persisted_flag (r : LogRec) : bit r.persisted.flags 3 = true := by
  unfold LogRec.persisted
  simp only
  split
  · assumption
  · next h =>
    simp only [bit, beq_iff_eq] at h ⊢
    omega

theorem persistRecord_moves {s : State} {r : LogRec} {l : List LogRec} (h : s.log.toFlash = r :: l) (hf : s.odGet Od.fwState ≠ 3) :
    ∃ (t : State) (x : LogRec), exec .persistRecord s = .next t ∧ t.log.toFlash = l ∧
      x = { r with flags := x.flags } ∧ bit x.flags 3 = true ∧ t.log.persist = keepLast 64 (s.log.persist ++ [x]) ∧ t = { s with log := t.log } := by
  refine ⟨{ s with log := { s.log with toFlash := l, persist := keepLast 64 (s.log.persist ++ [r.persisted]) } }, r.persisted, ?_, rfl, rfl,
    r.persisted_flag, rfl, rfl⟩
  rw [exec_persistRecord, execPersistRecord, h]
  simp only [if_neg hf]
  rfl

/-! ### SERVICE_REQ_N (R496, R497) -/

theorem exec_serviceReq (a st : Bool) (s : State) : exec (.serviceReq a st) s = execServiceReq a st s := by rfl

theorem exec_serviceChatterEnd (a : Bool) (s : State) : exec (.serviceChatterEnd a) s = execServiceChatterEnd a s := by rfl

theorem exec_serviceStandbyTimer (s : State) : exec .serviceStandbyTimer s = execServiceStandbyTimer s := by rfl

/-- R63: a request that is refused changes nothing; one that is accepted begins a transition and ends the test that runs. -/
theorem State.ownRequest_report (s : State) (v : Nat) : ∃ tr, ReportFrame { s with trans := tr } (s.ownRequest v) := by
  unfold State.ownRequest State.requestState
  split
  · exact ⟨s.trans, .refl s⟩
  · next m _ =>
    extract_lets fw u
    split
    · exact ⟨s.trans, .refl s⟩
    · exact ⟨some m, (s.finishTest_report 5).beginning (some m)⟩

/-- R63: what makes Newel accept a request of its own. -/
theorem State.ownRequest_accepted {s : State} {v : Nat} {m : ModState} (hl : legalRequest s.mode v = some m) (ht : s.trans = none)
    (hfw : s.odGet Od.fwState = 0) (htrip : m = .standby → s.tripHot = false) (hrun : m = .run → s.odGet Od.extestSinceStandby = 0) :
    ReportFrame { s with trans := some m } (s.ownRequest v) := by
  have hno : ¬ (s.trans.isSome = true ∨ s.odGet Od.fwState = 2 ∨ s.odGet Od.fwState = 3 ∨ m = .standby ∧ s.tripHot = true ∨
      m = .run ∧ s.odGet Od.extestSinceStandby ≠ 0) := by
    rintro (h | h | h | ⟨h, h'⟩ | ⟨h, h'⟩)
    · simp [ht] at h
    · omega
    · omega
    · simp [htrip h] at h'
    · exact h' (hrun h)
  have he : s.ownRequest v = { s.finishTest 5 with trans := some m } := by
    simp only [State.ownRequest, State.requestState, hl, if_neg hno]
  rw [he]
  exact (s.finishTest_report 5).beginning (some m)

theorem serviceReq_ignored {s : State} {a : Bool} (hm : s.mode ≠ .off) (h : s.newel.svcChatter = true ∨ a = s.newel.svcCounted) :
    exec (.serviceReq a true) s = .next s := by
  rw [exec_serviceReq, execServiceReq, if_neg hm, if_pos rfl]
  obtain h | h := h
  · rw [if_pos h]
  · rw [State.countService, if_pos h, ite_self]

/-- R496: the level that counts from now on. -/
def State.levelCounted (s : State) (a : Bool) : State := { s with newel := { s.newel with svcCounted := a } }

theorem State.countService_released {s : State} (h : false ≠ s.newel.svcCounted) :
    s.countService false = (s.levelCounted false).logEv { code := 0x1212 } := by
  rw [State.countService, if_neg h]
  exact if_pos rfl

/-- R496: a counted request has its record and its count. -/
def State.requestCounted (s : State) : State := ((s.levelCounted true).logEv { code := 0x1210 }).count Od.serviceEvents 1

theorem State.requestCounted_entries (s : State) :
    s.requestCounted.odGet Od.serviceEvents = (s.odGet Od.serviceEvents + 1) % odModulus Od.serviceEvents ∧
    ∀ k ∈ settingEntries, k ≠ Od.serviceEvents → s.requestCounted.odGet k = s.odGet k := by
  have hl := (s.levelCounted true).logEv_report { code := 0x1210 }
  refine ⟨?_, fun k hk hne => (State.odGet_count_ne _ hne 1).trans (hl.entries k hk)⟩
  rw [State.requestCounted, State.odGet_count_self, hl.entries _ (by decide)]
  rfl

/-- Two states agree in what Newel holds of SERVICE_REQ_N and in its count. -/
structure ServiceFrame (s t : State) : Prop where
  counted : t.newel.svcCounted = s.newel.svcCounted
  chatter : t.newel.svcChatter = s.newel.svcChatter
  edges : t.newel.svcEdges = s.newel.svcEdges
  events : t.odGet Od.serviceEvents = s.odGet Od.serviceEvents

theorem ServiceFrame.refl (s : State) : ServiceFrame s s := ⟨rfl, rfl, rfl, rfl⟩

theorem ServiceFrame.step {s t u : State} (h : ServiceFrame s t) (h' : ServiceFrame t u) : ServiceFrame s u :=
  ⟨h'.counted.trans h.counted, h'.chatter.trans h.chatter, h'.edges.trans h.edges, h'.events.trans h.events⟩

theorem ReportFrame.service {s t : State} (h : ReportFrame s t) : ServiceFrame s t := by
  obtain ⟨q, hq⟩ := h.queued
  exact ⟨by rw [hq], by rw [hq], by rw [hq], h.entries _ (by decide)⟩

theorem State.ownRequest_service (s : State) (v : Nat) : ServiceFrame s (s.ownRequest v) := by
  obtain ⟨tr, h⟩ := s.ownRequest_report v
  obtain ⟨hc, hch, he, hv⟩ := h.service
  exact ⟨hc, hch, he, hv⟩

/-- R497: with action 2 the time of a counted request is kept. -/
def State.requestTimed (s : State) : State :=
  if s.odGet Od.serviceAction = 2 then { s with newel := { s.newel with svcTimerFrom := some s.epoch } } else s

theorem State.requestTimed_service (s : State) : ServiceFrame s s.requestTimed := by
  unfold State.requestTimed
  split <;> exact ⟨rfl, rfl, rfl, rfl⟩

/-- R497: what a counted request asks for. -/
theorem State.countService_asserted {s : State} (h : true ≠ s.newel.svcCounted) : s.countService true =
    (if s.requestCounted.odGet Od.serviceAction = 0 ∨ s.requestCounted.requestTimed.newel.recovery then s.requestCounted.requestTimed
      else if s.requestCounted.requestTimed.mode = .ready ∨ s.requestCounted.requestTimed.mode = .run then s.requestCounted.requestTimed.ownRequest 5
      else if s.requestCounted.requestTimed.mode = .training then
        { s.requestCounted.requestTimed with newel := { s.requestCounted.requestTimed.newel with svcHeldStop := true } }
      else s.requestCounted.requestTimed) := by
  rw [State.countService, if_neg h]
  rfl

theorem State.countService_service {s : State} (h : true ≠ s.newel.svcCounted) : ServiceFrame s.requestCounted (s.countService true) := by
  have hu := s.requestCounted.requestTimed_service
  rw [State.countService_asserted h]
  split
  · exact hu
  · split
    · exact hu.step (State.ownRequest_service _ 5)
    · split
      · exact hu.step ⟨rfl, rfl, rfl, rfl⟩
      · exact hu

theorem State.levelCounted_logEv (s : State) (a : Bool) (ev : LogEv) : ((s.levelCounted a).logEv ev).newel.svcCounted = a ∧
    ((s.levelCounted a).logEv ev).newel.svcChatter = s.newel.svcChatter ∧ ((s.levelCounted a).logEv ev).newel.svcEdges = s.newel.svcEdges := by
  obtain ⟨hc, hch, he, -⟩ := ((s.levelCounted a).logEv_report ev).service
  exact ⟨hc, hch, he⟩

/-- R496: a level that counts differs from the last one no more. -/
theorem State.countService_counts {s : State} (a : Bool) : (s.countService a).newel.svcCounted = a ∧
    (s.countService a).newel.svcChatter = s.newel.svcChatter ∧ (s.countService a).newel.svcEdges = s.newel.svcEdges := by
  by_cases h : a = s.newel.svcCounted
  · rw [State.countService, if_pos h]
    exact ⟨h.symm, rfl, rfl⟩
  · cases a with
    | false =>
      rw [State.countService_released h]
      exact s.levelCounted_logEv false _
    | true =>
      obtain ⟨hc, hch, he, -⟩ := State.countService_service h
      obtain ⟨lc, lch, le⟩ := s.levelCounted_logEv true { code := 0x1210 }
      exact ⟨hc.trans lc, hch.trans lch, he.trans le⟩

/-- R497: with action 1, a request in Run requests Stop. -/
theorem State.countService_stops {s : State} (h : true ≠ s.newel.svcCounted) (ha : s.odGet Od.serviceAction = 1) (hm : s.mode = .run)
    (hr : s.newel.recovery = false) (ht : s.trans = none) (hf : s.odGet Od.fwState = 0) : (s.countService true).trans = some .stopped := by
  have hl := (s.levelCounted true).logEv_report { code := 0x1210 }
  obtain ⟨q, hq⟩ := hl.queued
  have hkeep := s.requestCounted_entries.2
  have haction : s.requestCounted.odGet Od.serviceAction = 1 := (hkeep _ (by decide) (by decide)).trans ha
  have htimed : s.requestCounted.requestTimed = s.requestCounted := if_neg (by rw [haction]; decide)
  have hrec : s.requestCounted.newel.recovery = false := (congrArg NewelSt.recovery hq).trans hr
  have hmode : s.requestCounted.mode = .run := hl.mode.trans hm
  rw [State.countService_asserted h, htimed, if_neg (by rw [haction, hrec]; decide), if_pos (.inr hmode)]
  exact (State.ownRequest_accepted (s := s.requestCounted) (m := .stopped) (by rw [hmode]; rfl) (hl.trans.trans ht)
    ((hkeep _ (by decide) (by decide)).trans hf) nofun nofun).trans

theorem serviceReq_counts {s : State} {a : Bool} (hm : s.mode ≠ .off) (hc : s.newel.svcChatter = false) (ha : a ≠ s.newel.svcCounted) :
    ∃ t : State, exec (.serviceReq a true) s = .next t ∧ t.newel.svcCounted = a ∧
      (a = true → t.odGet Od.serviceEvents = (s.odGet Od.serviceEvents + 1) % odModulus Od.serviceEvents) ∧
      (a = true → s.odGet Od.serviceAction = 1 → s.mode = .run → s.newel.recovery = false → s.trans = none → s.odGet Od.fwState = 0 →
        t.trans = some .stopped) := by
  refine ⟨s.countService a, ?_, (s.countService_counts a).1, ?_, ?_⟩
  · rw [exec_serviceReq, execServiceReq, if_neg hm, if_pos rfl, if_neg (by simp [hc])]
  · rintro rfl
    exact (State.countService_service ha).events.trans s.requestCounted_entries.1
  · rintro rfl hact hrun hrec ht hf
    exact State.countService_stops ha hact hrun hrec ht hf

/-- R496: the transitions of the last second, with one that comes now. -/
def State.edgesNow (s : State) : List Nat := s.newel.svcEdges.filter (fun x => decide (s.epoch < x + oneSec)) ++ [s.epoch]

theorem serviceReq_transition {s : State} (a : Bool) (hm : s.mode ≠ .off) : ∃ t : State, exec (.serviceReq a false) s = .next t ∧
    t.newel.svcEdges = s.newel.svcEdges.filter (fun x => decide (s.epoch < x + oneSec)) ++ [s.epoch] ∧ t.newel.svcCounted = s.newel.svcCounted ∧
    t.newel.svcChatter = (s.newel.svcChatter || decide (8 ≤ (s.newel.svcEdges.filter (fun x => decide (s.epoch < x + oneSec))).length)) := by
  have hlen : (9 ≤ s.edgesNow.length) ↔ 8 ≤ (s.newel.svcEdges.filter (fun x => decide (s.epoch < x + oneSec))).length := by
    rw [State.edgesNow, List.length_append, List.length_singleton]
    omega
  have he : exec (.serviceReq a false) s = .next (if 9 ≤ s.edgesNow.length ∧ (!s.newel.svcChatter) = true then
      ({ s with newel := { s.newel with svcEdges := s.edgesNow, svcChatter := true } } : State).logEv { code := 0x1211 }
      else { s with newel := { s.newel with svcEdges := s.edgesNow } }) := by
    rw [exec_serviceReq, execServiceReq, if_neg hm, if_neg (by decide)]
    rfl
  by_cases h : 9 ≤ s.edgesNow.length ∧ (!s.newel.svcChatter) = true
  · obtain ⟨hc, hch, hed, -⟩ :=
      (({ s with newel := { s.newel with svcEdges := s.edgesNow, svcChatter := true } } : State).logEv_report { code := 0x1211 }).service
    refine ⟨_, he.trans (congrArg Host.Outcome.next (if_pos h)), hed, hc, hch.trans ?_⟩
    simp [hlen.mp h.1]
  · refine ⟨_, he.trans (congrArg Host.Outcome.next (if_neg h)), rfl, rfl, ?_⟩
    rw [hlen] at h
    cases hch : s.newel.svcChatter with
    | true => simp
    | false => simpa [hch] using h

theorem serviceChatterEnd_counts {s : State} (a : Bool) (hc : s.newel.svcChatter = true) :
    ∃ t : State, exec (.serviceChatterEnd a) s = .next t ∧ t.newel.svcChatter = false ∧ t.newel.svcCounted = a ∧ t.newel.svcEdges = [] := by
  obtain ⟨hcount, hch, he⟩ := ({ s with newel := { s.newel with svcChatter := false, svcEdges := [] } } : State).countService_counts a
  exact ⟨_, by rw [exec_serviceChatterEnd, execServiceChatterEnd, if_pos hc], hch, hcount, he⟩

theorem serviceStandbyTimer_idle {s : State} (h : s.newel.svcTimerFrom = none ∨ s.trans = some .stopped ∨ s.newel.svcHeldStop = true) :
    exec .serviceStandbyTimer s = .next s := by
  rw [exec_serviceStandbyTimer, execServiceStandbyTimer]
  split
  · rfl
  · next hsome =>
    obtain h | h := h
    · simp [h] at hsome
    · rw [if_pos h]

/-- R497: the timer runs out. -/
theorem exec_serviceStandbyTimer_of_running {s : State} {x : Nat} (hx : s.newel.svcTimerFrom = some x) (ht : s.trans ≠ some .stopped)
    (hh : s.newel.svcHeldStop = false) : exec .serviceStandbyTimer s = .next (if s.mode = .stopped then
      ({ s with newel := { s.newel with svcTimerFrom := none } } : State).ownRequest 1
      else { s with newel := { s.newel with svcTimerFrom := none } }) := by
  rw [exec_serviceStandbyTimer, execServiceStandbyTimer]
  simp only [hx]
  rw [if_neg (by simp [ht, hh])]

theorem serviceStandbyTimer_requests {s : State} {x : Nat} (hx : s.newel.svcTimerFrom = some x) (ht : s.trans = none) (hh : s.newel.svcHeldStop = false)
    (hm : s.mode = .stopped) (hf : s.odGet Od.fwState = 0) (htrip : s.tripHot = false) :
    ∃ t : State, exec .serviceStandbyTimer s = .next t ∧ t.trans = some .standby ∧ t.newel.svcTimerFrom = none ∧ t.mode = .stopped := by
  have hreq := State.ownRequest_accepted (s := { s with newel := { s.newel with svcTimerFrom := none } }) (v := 1) (m := .standby)
    (by rw [hm]; rfl) ht hf (fun _ => htrip) nofun
  obtain ⟨q, hq⟩ := hreq.queued
  refine ⟨_, exec_serviceStandbyTimer_of_running hx (by rw [ht]; nofun) hh, ?_⟩
  rw [if_pos hm]
  exact ⟨hreq.trans, by rw [hq], hreq.mode.trans hm⟩

/-! ### THERMTRIP_N (R498) -/

theorem exec_thermtrip (n : Nat) (c : Int) (s : State) : exec (.thermtrip n c) s = execThermtrip n c s := by rfl

theorem thermtrip_trips {s : State} (n : Nat) (c : Int) (hm : s.mode ≠ .off) (hs : s.mode ≠ .standby) :
    ∃ t : State, exec (.thermtrip n c) s = .next t ∧ t.mode = .safeStop ∧ t.power.hallPower = [] ∧ t.newel.tripped = true ∧
      n ∈ t.newel.tripSensors := by
  rw [exec_thermtrip, execThermtrip, if_neg (by simp [hm, hs])]
  extract_lets _ nw _ u
  obtain ⟨q, hq⟩ := (u.fatal_newel { code := 0x2008, unit := n, detail := leBytes 4 (ofInt 32 c) }).queued
  refine ⟨_, rfl, State.fatal_mode (s := u) hm _, State.fatal_power (s := u) hm (fun _ => rfl) _, by rw [hq], ?_⟩
  rw [hq]
  exact List.mem_dedup.mpr (List.mem_append_right _ List.mem_cons_self)

/-! ### The statement -/

/-- Settles O52, command by command: a restart and its drain, the sensors, the log's intervals and ring, SERVICE_REQ_N and THERMTRIP_N. -/
theorem newelEventsSettle : Obligations.NewelEventsSettle := by
  refine ⟨fun cause ok s => ⟨fun h => if_pos h, fun h hroom => newelRestart_queues h hroom cause, fun h => newelRestart_without_table h cause⟩,
    fun s => ⟨fun h => ?_, newelRestartDone_drains⟩,
    fun r rs s => ⟨fun h => ?_, fun hm hr he => sensorSample_sets hm hr he,
      fun n hm hs hr hn hk hi hold hfail hp hlo hhi => sensorSample_of_hot_stack hm hs hr hn hk hi (hi ▸ hold) hfail hp hlo hhi⟩,
    fun code subject s => ⟨logIntervalEnd_idle, fun i hr hi hcode hsubject => ?_⟩,
    fun s => ⟨persistRecord_idle, fun r l h hf => persistRecord_moves h hf⟩,
    fun a st s => ⟨fun h => ?_, serviceReq_ignored, serviceReq_counts, serviceReq_transition a, fun h => ?_, serviceChatterEnd_counts a⟩,
    fun s => ⟨serviceStandbyTimer_idle, fun x hx ht hh hm => ?_, fun x => serviceStandbyTimer_requests⟩,
    fun n c s => ⟨fun h => ?_, thermtrip_trips n c⟩⟩
  · rw [exec_newelRestartDone, execNewelRestartDone, if_pos (by rw [h]; rfl)]
  · rw [exec_sensorSample, execSensorSample, if_pos h]
  · subst hcode hsubject
    exact ⟨logIntervalEnd_closes hr hi, logIntervalEnd_records hr hi⟩
  · rw [exec_serviceReq, execServiceReq, if_pos h]
  · rw [exec_serviceChatterEnd, execServiceChatterEnd, if_neg (by simp [h])]
  · rw [exec_serviceStandbyTimer_of_running hx ht hh, if_neg hm]
  · rw [exec_thermtrip, execThermtrip, if_pos h]

end Sys2Proof.Machine
end

section
/-!
SUPPORT. The upkeep of memory, the closing of episodes and the repair of a weight block (R263, R264, R268, R269, R521, R527 to R529); and the statement on them.
-/

set_option Elab.async false

namespace Sys2Proof.Machine

/-! ### Patrol scrub and counts (R263, R264, R268, R269) -/

theorem exec_scrubRead (a : Nat) (errs : List BitErr) (late : Bool) (s : State) : exec (.scrubRead a errs late) s = execScrubRead a errs late s := by rfl

theorem exec_rowCountClear (a : Nat) (s : State) : exec (.rowCountClear a) s = execRowCountClear a s := by rfl

theorem exec_laneCeWindow (n : Nat) (s : State) : exec (.laneCeWindow n) s = execLaneCeWindow n s := by rfl

theorem exec_recentre (h : Nat) (s : State) : exec (.recentre h) s = execRecentre h s := by rfl

theorem exec_episodeCloseTimer (n : Nat) (s : State) : exec (.episodeCloseTimer n) s = execEpisodeCloseTimer n s := by rfl

theorem exec_weightRepairDone (n : Nat) (c : Bool) (v : WeightCheck) (s : State) :
    exec (.weightRepairDone n c v) s = execWeightRepairDone n c v s := by rfl

/-- R263: the channel's place in its pass. -/
def State.scrubTo (s : State) (c n : Nat) : State := { s with mem := { s.mem with scrubAt := kset 0 c n s.mem.scrubAt } }

/-- R260: a read without errors counts the poisoned words that it delivers. -/
theorem State.memRead_of_no_errors (s : State) (a n : Nat) (scrub : Bool) : ∃ k, (s.memRead a n [] scrub).2.2 = s.count Od.poisonReads k := ⟨_, rfl⟩

/-- R263: the state after a scrub read that found no error: late, at the end of a pass, or within it. -/
def State.scrubbed (s : State) (c : Nat) (late : Bool) (ev : LogEv) : State :=
  if late then (s.scrubTo c 0).logEv ev
  else if channelBursts c ≤ kget 0 c s.mem.scrubAt + 1 then (s.scrubTo c 0).count Od.scrubPasses 1
  else s.scrubTo c (kget 0 c s.mem.scrubAt + 1)

theorem exec_scrubRead_of_no_errors {s : State} {a : Nat} (hup : s.memoryUp = true) (ha : a < memTop) (late : Bool) :
    ∃ (ev : LogEv) (k : Nat), exec (.scrubRead a [] late) s = .next ((s.count Od.poisonReads k).scrubbed
      (channelOfRow (rowOf (a / 256 * 256))) late ev) := by
  obtain ⟨k, hk⟩ := s.memRead_of_no_errors (a / 256 * 256) 256 true
  rw [exec_scrubRead, execScrubRead, if_neg (by simp [hup, Nat.not_le.mpr ha])]
  simp only [hk]
  exact ⟨_, k, rfl⟩

theorem State.scrubbed_mem (s : State) (c : Nat) (late : Bool) (ev : LogEv) : ∃ n, (s.scrubbed c late ev).mem = (s.scrubTo c n).mem ∧
    n = if late = true ∨ channelBursts c ≤ kget 0 c s.mem.scrubAt + 1 then 0 else kget 0 c s.mem.scrubAt + 1 := by
  unfold State.scrubbed
  cases late with
  | true => exact ⟨0, (State.logEv_frame _ ev 0).mem, by simp⟩
  | false =>
    by_cases h : channelBursts c ≤ kget 0 c s.mem.scrubAt + 1
    · exact ⟨0, by simp only [Bool.false_eq_true, if_false, if_pos h]; rfl, by simp [h]⟩
    · exact ⟨kget 0 c s.mem.scrubAt + 1, by simp only [Bool.false_eq_true, if_false, if_neg h], by simp [h]⟩

theorem scrubRead_counts {s : State} {a : Nat} (late : Bool) (hup : s.memoryUp = true) (ha : a < memTop) :
    ∃ t : State, exec (.scrubRead a [] late) s = .next t ∧ t.mem.cells = s.mem.cells ∧ t.mem.poison = s.mem.poison ∧
      (∀ n, n = kget 0 (channelOfRow (rowOf (a / 256 * 256))) s.mem.scrubAt + 1 →
        kget 0 (channelOfRow (rowOf (a / 256 * 256))) t.mem.scrubAt =
          (if late = true ∨ channelBursts (channelOfRow (rowOf (a / 256 * 256))) ≤ n then 0 else n) ∧
        (late = false → channelBursts (channelOfRow (rowOf (a / 256 * 256))) ≤ n →
          t.odGet Od.scrubPasses = (s.odGet Od.scrubPasses + 1) % odModulus Od.scrubPasses)) := by
  obtain ⟨ev, k, he⟩ := exec_scrubRead_of_no_errors hup ha late
  generalize channelOfRow (rowOf (a / 256 * 256)) = c at he ⊢
  obtain ⟨n, hmem, hn⟩ := (s.count Od.poisonReads k).scrubbed_mem c late ev
  refine ⟨_, he, by rw [hmem]; rfl, by rw [hmem]; rfl, ?_⟩
  rintro _ rfl
  refine ⟨?_, ?_⟩
  · rw [hmem]
    exact (kget_kset_self 0 c n _).trans hn
  · rintro rfl hpass
    have hs : (s.count Od.poisonReads k).scrubbed c false ev = ((s.count Od.poisonReads k).scrubTo c 0).count Od.scrubPasses 1 := by
      simp only [State.scrubbed, Bool.false_eq_true, if_false]
      exact if_pos hpass
    rw [hs, State.odGet_count_self]
    exact congrArg (fun v => (v + 1) % odModulus Od.scrubPasses) (s.odGet_count_ne (by decide) k)

theorem rowCountClear_clears (a : Nat) (s : State) : ∃ t : State, exec (.rowCountClear a) s = .next t ∧
    t = { s with mem := { s.mem with rowCe := t.mem.rowCe } } ∧
    ∀ e, e ∈ t.mem.rowCe ↔ e ∈ s.mem.rowCe ∧ channelOfRow e.1 ≠ channelOfRow (rowOf a) := by
  refine ⟨_, exec_rowCountClear a s, rfl, fun e => ?_⟩
  simp [List.mem_filter]

/-- R268: the counts of the other stacks' lanes. -/
def State.otherLanes (s : State) (n : Nat) : State := { s with mem := { s.mem with laneCe := s.mem.laneCe.filter (fun e => e.1 / 5200 != n) } }

theorem State.mem_otherLanes (s : State) (n : Nat) (e : Nat × Nat) : e ∈ (s.otherLanes n).mem.laneCe ↔ e ∈ s.mem.laneCe ∧ e.1 / 5200 ≠ n := by
  simp [State.otherLanes, List.mem_filter]

/-- R268: a spare that takes a lane, or a group without one, changes no lane's count. -/
theorem State.spareLane_laneCe (s : State) (l : Nat) : (s.spareLane l).mem.laneCe = s.mem.laneCe := by
  have hlog : ∀ (t : State) ev, (t.logEv ev).mem = t.mem := fun t ev => (t.logEv_frame ev 0).mem
  unfold State.spareLane
  simp only
  split
  · rw [hlog]
    rfl
  · split
    · rfl
    · rw [hlog]

/-- R268: the lanes of a stack that have reached the limit. -/
def State.fullLanes (s : State) (n : Nat) : List Nat :=
  (s.mem.laneCe.filter (fun e => decide (e.1 / 5200 = n) && decide (s.odGet Od.laneCeLimit ≤ e.2))).map (·.1)

theorem exec_laneCeWindow_of_stack {n : Nat} (h : stackOk n = true) (s : State) : exec (.laneCeWindow n) s =
    .next ((if s.mode = .run then (s.fullLanes n).foldl (fun s l => s.spareLane l) s else s).otherLanes n) := by
  rw [exec_laneCeWindow, execLaneCeWindow, if_neg (by simp [h])]
  rfl

theorem laneCeWindow_clears {n : Nat} (s : State) (h : stackOk n = true) :
    ∃ t : State, exec (.laneCeWindow n) s = .next t ∧ ∀ e, e ∈ t.mem.laneCe ↔ e ∈ s.mem.laneCe ∧ e.1 / 5200 ≠ n := by
  refine ⟨_, exec_laneCeWindow_of_stack h s, fun e => ?_⟩
  have hl : (if s.mode = .run then (s.fullLanes n).foldl (fun s l => s.spareLane l) s else s).mem.laneCe = s.mem.laneCe := by
    split
    · exact foldl_keeps (fun t : State => t.mem.laneCe = s.mem.laneCe) _ (fun t l ht => (t.spareLane_laneCe l).trans ht) _ rfl
    · rfl
  rw [State.mem_otherLanes, hl]

/-- R268: without a lane at the limit, and outside Run, the window's end does nothing but clear. -/
theorem laneCeWindow_only_clears {n : Nat} {s : State} (h : stackOk n = true) (hfull : s.mode = .run → s.fullLanes n = []) :
    ∃ t : State, exec (.laneCeWindow n) s = .next t ∧ t = { s with mem := { s.mem with laneCe := t.mem.laneCe } } ∧
      ∀ e, e ∈ t.mem.laneCe ↔ e ∈ s.mem.laneCe ∧ e.1 / 5200 ≠ n := by
  refine ⟨s.otherLanes n, (exec_laneCeWindow_of_stack h s).trans ?_, rfl, s.mem_otherLanes n⟩
  split
  · next hm => rw [hfull hm, List.foldl_nil]
  · rfl

theorem State.fullLanes_of_below {s : State} {n : Nat} (h : ∀ e ∈ s.mem.laneCe, e.1 / 5200 = n → e.2 < s.odGet Od.laneCeLimit) :
    s.fullLanes n = [] := by
  rw [State.fullLanes, List.map_eq_nil_iff, List.filter_eq_nil_iff]
  intro e he
  by_cases hn : e.1 / 5200 = n
  · simp [hn, Nat.not_le.mpr (h e he hn)]
  · simp [hn]

/-! ### The end of an episode (R521) -/

theorem timedKind_iff (k : Nat) : timedKind k = true ↔ k ∈ [2, 4, 8, 10] := by simp [timedKind, or_assoc]

theorem State.mem_closeEpisode (s : State) (n : Nat) (x : Episode) :
    x ∈ (s.closeEpisode n).newel.episodes ↔ x ∈ s.newel.episodes ∧ x.num ≠ n := by
  simp [State.closeEpisode, List.mem_filter]

section
variable {s : State} {n : Nat} {e : Episode} (h : s.newel.episodes.find? (fun e => e.num == n) = some e)
include h

theorem episodeCloseTimer_keeps (hk : s.newel.restarting = true ∨ e.subj.kind ∉ [2, 4, 8, 10]) : exec (.episodeCloseTimer n) s = .next s := by
  rw [exec_episodeCloseTimer, execEpisodeCloseTimer]
  simp only [h]
  rw [if_neg]
  rw [← timedKind_iff] at hk
  obtain hk | hk := hk <;> simp [hk]

theorem episodeCloseTimer_closes (hr : s.newel.restarting = false) (hk : e.subj.kind ∈ [2, 4, 8, 10]) : ∃ t : State,
    exec (.episodeCloseTimer n) s = .next t ∧ (∀ x, x ∈ t.newel.episodes ↔ x ∈ s.newel.episodes ∧ x.num ≠ n) ∧
      t = { s with newel := { s.newel with episodes := t.newel.episodes } } := by
  refine ⟨s.closeEpisode n, ?_, s.mem_closeEpisode n, rfl⟩
  rw [exec_episodeCloseTimer, execEpisodeCloseTimer]
  simp only [h]
  rw [if_pos (by simp [(timedKind_iff _).mpr hk, hr])]

end

/-! ### The repair of a weight block (R195, R527 to R529) -/

theorem State.memMark_report (s : State) (a n : Nat) (p : Bool) : ReportFrame s (s.memMark a n p) := .of_eq rfl rfl rfl rfl rfl rfl rfl

theorem State.writeCopies_report (s : State) (m : Nat) (sl : Slice) (b : Nat) (t5 : Bytes) : ReportFrame s (s.writeCopies m sl b t5) := by
  have hland : ∀ (t : State) l x, ReportFrame t (t.setLanding l x) := fun _ _ _ => .of_eq rfl rfl rfl rfl rfl rfl rfl
  exact .foldl (fun t _ => hland t _ _) _ s

theorem State.writeBlock_report (s : State) (m : Nat) (sl : Slice) (b : Nat) (t5 : Bytes) : ReportFrame s (s.writeBlock m sl b t5) := by
  have put : ∀ (t : State) a d n, ReportFrame t ((t.memWrite a d false).memMark a n false) := fun t a d n =>
    (t.memWrite_report a d false).step (State.memMark_report _ a n false)
  exact (((s.writeCopies_report m sl b t5).step (put _ _ _ _)).step (put _ _ _ _)).step (put _ _ _ _)

theorem State.memWrite_emit (s : State) (o : OutMsg) (a : Nat) (d : Bytes) (p : Bool) : (s.emit o).memWrite a d p = (s.memWrite a d p).emit o := by
  unfold State.memWrite
  split
  · rfl
  · change (if s.withdrawn a then _ else _) = _
    split <;> rfl

theorem State.writeCopies_emit (s : State) (o : OutMsg) (m : Nat) (sl : Slice) (b : Nat) (t5 : Bytes) :
    (s.emit o).writeCopies m sl b t5 = (s.writeCopies m sl b t5).emit o :=
  List.foldl_hom (fun t : State => t.emit o) fun _ _ => rfl

/-- A message that leaves before a block is written does not change what is written. -/
theorem State.writeBlock_emit (s : State) (o : OutMsg) (m : Nat) (sl : Slice) (b : Nat) (t5 : Bytes) :
    (s.emit o).writeBlock m sl b t5 = (s.writeBlock m sl b t5).emit o := by
  have mark : ∀ (t : State) a n p, (t.emit o).memMark a n p = (t.memMark a n p).emit o := fun _ _ _ _ => rfl
  have units : ∀ t : State, (t.emit o).blockUnits sl b = t.blockUnits sl b := fun _ => rfl
  unfold State.writeBlock
  simp only [State.writeCopies_emit, State.memWrite_emit, mark, units]

section
variable {s : State} {n : Nat}

theorem weightRepairDone_of_closed (c : Bool) (v : WeightCheck) (h : s.newel.episodes.find? (fun e => e.num == n && e.subj.kind == 1) = none) :
    exec (.weightRepairDone n c v) s = .next s := by
  rw [exec_weightRepairDone, execWeightRepairDone]
  simp only [h]

/-- R527, R528: a block is written from a clean source, and the repair is recorded, counted and closed. -/
def State.repaired (s : State) (n : Nat) (e : Episode) (m : Nat) (sl : Slice) (b : Nat) (t5 : Bytes) : State :=
  (((s.writeBlock m sl b t5).record { code := 0x2022, hall := sl.hall, address := e.subj.at_, model := m } 0 1 (s.writeBlock m sl b t5).epoch n
    (e.records + 1)).closeEpisode n).count Od.weightRepairs 1

/-- R527: the repair is counted, and its episode closed. -/
theorem ReportFrame.counted {s u : State} (h : ReportFrame s u) (n : Nat) :
    (∀ x ∈ ((u.closeEpisode n).count Od.weightRepairs 1).newel.episodes, x.num ≠ n) ∧
      ((u.closeEpisode n).count Od.weightRepairs 1).mode = s.mode ∧
      s.out <+: ((u.closeEpisode n).count Od.weightRepairs 1).out ∧
      ((u.closeEpisode n).count Od.weightRepairs 1).odGet Od.weightRepairs = (s.odGet Od.weightRepairs + 1) % odModulus Od.weightRepairs ∧
      ((u.closeEpisode n).count Od.weightRepairs 1).mem = u.mem := by
  have hcount : (u.closeEpisode n).odGet Od.weightRepairs = s.odGet Od.weightRepairs := h.entries _ (by decide)
  rw [State.count_newel, State.count_mode, State.count_out, State.count_mem, State.odGet_count_self, hcount]
  exact ⟨fun x hx => ((u.mem_closeEpisode n x).mp hx).2, h.mode, h.out, rfl, rfl⟩

theorem State.repaired_closes (s : State) (n : Nat) (e : Episode) (m : Nat) (sl : Slice) (b : Nat) (t5 : Bytes) :
    (∀ x ∈ (s.repaired n e m sl b t5).newel.episodes, x.num ≠ n) ∧ (s.repaired n e m sl b t5).mode = s.mode ∧
      s.out <+: (s.repaired n e m sl b t5).out ∧
      (s.repaired n e m sl b t5).odGet Od.weightRepairs = (s.odGet Od.weightRepairs + 1) % odModulus Od.weightRepairs ∧
      (s.repaired n e m sl b t5).mem = (s.writeBlock m sl b t5).mem := by
  have hw := s.writeBlock_report m sl b t5
  unfold State.repaired
  generalize s.writeBlock m sl b t5 = u at hw ⊢
  obtain ⟨hclosed, hmode, hout, hcount, hmem⟩ :=
    (hw.step (u.record_report { code := 0x2022, hall := sl.hall, address := e.subj.at_, model := m } 0 1 u.epoch n (e.records + 1))).counted n
  exact ⟨hclosed, hmode, hout, hcount, hmem.trans (State.record_frame ..).mem⟩

variable {e : Episode} {m b : Nat} {sl : Slice} (he : s.newel.episodes.find? (fun e => e.num == n && e.subj.kind == 1) = some e)
  (hb : s.subjectBlock e.subj = some (m, sl, b))
include he hb

theorem weightRepairDone_of_shadow (c : Bool) (home : Bytes) (hs : s.shadowClean sl b = true) :
    exec (.weightRepairDone n c ⟨true, home⟩) s = .next (s.repaired n e m sl b (s.memBytes (sl.shadow + 4096 * b) 4096)) := by
  rw [exec_weightRepairDone, execWeightRepairDone]
  simp only [he, hb, hs]
  rfl

theorem weightRepairDone_of_home {x : ModelSt} {home : Bytes} (hs : s.shadowClean sl b = false) (hx : kfind m s.serve.models = some x)
    (hhome : x.home ≠ 0) (hlink : s.cxl.linkUp = true) (hre : s.rebuildsBlock sl b home = true) :
    exec (.weightRepairDone n true ⟨true, home⟩) s =
      .next ((s.emit (.hostRead (x.home + sl.srcAddr + 4096 * b) 4096)).repaired n e m sl b home) := by
  rw [exec_weightRepairDone, execWeightRepairDone]
  simp only [he, hb, hs, hx, hre, hlink, Option.map_some, Option.getD_some]
  rw [if_neg (by simp [hhome])]
  rfl

end

/-! ### The statement -/

/-- Settles O55, command by command. -/
theorem upkeepAndEpisodes : Obligations.UpkeepAndEpisodes := by
  refine ⟨fun a errs late s => ⟨fun h => if_pos h, scrubRead_counts late⟩, rowCountClear_clears, fun n s h => laneCeWindow_clears s h,
    fun n s h hbelow => laneCeWindow_only_clears h fun _ => State.fullLanes_of_below hbelow,
    fun n s h hm => laneCeWindow_only_clears h fun hrun => absurd hrun hm, fun h s hh => ?_,
    fun n s => ⟨fun h => ?_, fun e he => ⟨episodeCloseTimer_keeps he, episodeCloseTimer_closes he⟩⟩,
    fun n c v home s => ⟨weightRepairDone_of_closed c v, fun e m b sl he hb hs => ?_, fun e m b sl x he hb hs hx hhome hlink hre => ?_⟩⟩
  · rw [exec_recentre, execRecentre, if_neg (by simp [hh])]
  · rw [exec_episodeCloseTimer, execEpisodeCloseTimer, h]
  · obtain ⟨hclosed, hmode, -, hcount, hmem⟩ := s.repaired_closes n e m sl b (s.memBytes (sl.shadow + 4096 * b) 4096)
    exact ⟨_, weightRepairDone_of_shadow he hb c home hs, hclosed, hmode, hcount, hmem⟩
  · obtain ⟨hclosed, -, hout, hcount, hmem⟩ :=
      (s.emit (.hostRead (x.home + sl.srcAddr + 4096 * b) 4096)).repaired_closes n e m sl b home
    exact ⟨_, weightRepairDone_of_home he hb hs hx hhome hlink hre, hclosed, hout.subset (List.mem_append_right _ List.mem_cons_self), hcount,
      hmem.trans (by rw [State.writeBlock_emit]; rfl)⟩


end Sys2Proof.Machine
end

section
/-!
SUPPORT. The module from power-on to Ready (R254, R435, R533 to R539, R560) and the instructions of boundary scan (R553, R554); and the statement on them.
-/

set_option Elab.async false

namespace Sys2Proof.Machine

/-! ### Power-up (R533, R534, R560) -/

theorem exec_hotswapClose (mv : Nat) (s : State) : exec (.hotswapClose mv) s = execHotswapClose mv s := by rfl

theorem exec_mateDetOpen (s : State) : exec .mateDetOpen s = execMateDetOpen s := by rfl

theorem exec_powerGood (a b : Bool) (s : State) : exec (.powerGood a b) s = execPowerGood a b s := by rfl

theorem exec_training (o : TrainOutcome) (s : State) : exec (.training o) s = execTraining o s := by rfl

theorem exec_memoryTrainingDone (ms : Nat) (s : State) : exec (.memoryTrainingDone ms) s = execMemoryTrainingDone ms s := by rfl

theorem exec_ready (ms : Nat) (s : State) : exec (.ready ms) s = execReady ms s := by rfl

theorem mateDetOpen_is_off (s : State) : ∃ t : State, exec .mateDetOpen s = .next t ∧ t.mode = .off ∧ t.start.closed = false ∧
    t.start.mated = false ∧ t.mem.cells = [] ∧ t.halls = HallsSt.reset ∧ t.log.persist = s.log.persist ∧ t.od.stored = s.od.stored :=
  ⟨_, exec_mateDetOpen s, rfl, rfl, rfl, rfl, rfl, rfl, rfl⟩

/-- R534: the module as it enters Standby when power is good: the image of the slot runs, the TCXO too where it started. -/
def State.poweredUp (s : State) (slot : Option FwImage) (tcxoOk : Bool) : State :=
  { s.booted slot with power := { s.power with tcxo := if tcxoOk then 1 else 2, highOwed := false },
                       start := { s.start with running := true, waitTrain := decide ((s.booted slot).odGet Od.startMode = 0) } }

/-- R534: the records of a power-up. -/
def State.powerLogged (s : State) (owed tcxoOk : Bool) : State :=
  let s := if owed then s.logEv { code := 0x2004 } else s
  if tcxoOk then s else s.logEv { code := 0x2101 }

theorem State.powerLogged_report (s : State) (owed tcxoOk : Bool) : ReportFrame s (s.powerLogged owed tcxoOk) := by
  unfold State.powerLogged
  cases owed <;> cases tcxoOk
  · exact s.logEv_report _
  · exact .refl s
  · exact (s.logEv_report _).step (State.logEv_report _ _)
  · exact s.logEv_report _

theorem exec_powerGood_of_closed {s : State} (hm : s.mode = .off) (hc : s.start.closed = true) (slotOk tcxoOk : Bool) :
    ∃ u : State, u = (((s.poweredUp (if slotOk then s.newel.slot else none) tcxoOk).setMode .standby).powerLogged s.power.highOwed tcxoOk) ∧
      exec (.powerGood slotOk tcxoOk) s = .next (if u.newel.recovery then
        (u.odPut Od.fwState 6).raiseFault { code := 0x7105 } (unitSubject 10 0xFF 0xFF) else u) := by
  refine ⟨_, rfl, ?_⟩
  rw [exec_powerGood, execPowerGood, if_neg (by simp [hm, hc])]
  rfl

/-- R495: the recovery loader runs: its fault opens an episode, and it says so in FW_STATE. -/
theorem State.recoveryFault {s : State} (hr : s.newel.restarting = false) (he : s.newel.episodes = []) :
    ∃ es n, ((s.odPut Od.fwState 6).raiseFault { code := 0x7105 } (unitSubject 10 0xFF 0xFF)).newel =
        { s.newel with episodes := es, nextEpisode := n } ∧
      ((s.odPut Od.fwState 6).raiseFault { code := 0x7105 } (unitSubject 10 0xFF 0xFF)).power = s.power ∧
      ((s.odPut Od.fwState 6).raiseFault { code := 0x7105 } (unitSubject 10 0xFF 0xFF)).odGet Od.fwState = 6 := by
  obtain ⟨es, n, hn, hrep⟩ := State.takeFault_of_fresh (s := s.odPut Od.fwState 6) (x := unitSubject 10 0xFF 0xFF)
    (by simp [State.episodeOf, he]) (by simp [he]) { code := 0x7105 } 0 (s.odPut Od.fwState 6).epoch
  have hraise : (s.odPut Od.fwState 6).raiseFault { code := 0x7105 } (unitSubject 10 0xFF 0xFF) =
      (s.odPut Od.fwState 6).takeFault { code := 0x7105 } (unitSubject 10 0xFF 0xFF) 0 (s.odPut Od.fwState 6).epoch := if_neg (by simp [hr])
  rw [hraise]
  exact ⟨es, n, hn, hrep.power, (hrep.entries _ (by decide)).trans (s.odGet_odPut_self _ _)⟩

theorem powerGood_boots {s : State} (a b : Bool) (hm : s.mode = .off) (hc : s.start.closed = true) : ∃ t : State, exec (.powerGood a b) s = .next t ∧
    t.newel.bootCount = min (2 ^ 32 - 1) (s.newel.bootCount + 1) ∧ t.power.tcxo = (if b then 1 else 2) ∧
    t.newel.recovery = (!a || s.newel.slot.isNone) ∧
    (t.newel.recovery = false → t.mode = .standby ∧ ∀ i, s.newel.slot = some i → t.newel.running = i) ∧
    (t.newel.recovery = true → t.odGet Od.fwState = 6) := by
  obtain ⟨u, hu, hexec⟩ := exec_powerGood_of_closed hm hc a b
  have hrep : ReportFrame ((s.poweredUp (if a then s.newel.slot else none) b).entering .standby) u :=
    hu ▸ (State.setMode_report _ _).step (State.powerLogged_report _ _ _)
  have hn : u.newel = (s.booted (if a then s.newel.slot else none)).newel := hrep.served rfl
  have hrec : u.newel.recovery = (!a || s.newel.slot.isNone) := by
    rw [hn]
    cases a <;> rfl
  refine ⟨_, hexec, ?_⟩
  by_cases hr : u.newel.recovery = true
  · obtain ⟨es, n, hn', hpow, hfw⟩ := State.recoveryFault (s := u) (by rw [hn]; rfl) (by rw [hn]; rfl)
    rw [if_pos hr, hpow, hn']
    refine ⟨by rw [hn]; rfl, by rw [hrep.power]; rfl, hrec, fun hno => ?_, fun _ => hfw⟩
    exact absurd hr (by rw [show u.newel.recovery = false from hno]; decide)
  · rw [if_neg hr]
    refine ⟨by rw [hn]; rfl, by rw [hrep.power]; rfl, hrec, fun _ => ⟨hrep.mode, fun i hi => ?_⟩, fun hyes => absurd hyes hr⟩
    have ha : a = true := by simpa [hrec, hi] using hr
    rw [hn, ha, hi]
    rfl

/-! ### Training (R254, R435, R535 to R539) -/

theorem State.trainingAbandoned_waits (s : State) (o : TrainOutcome) :
    (s.trainingAbandoned o).mode = .standby ∧ (s.trainingAbandoned o).start.waitTrain = true := by
  unfold State.trainingAbandoned
  extract_lets s₁ s₂ s₃
  exact ⟨(State.toStandby_empties s₂).1, rfl⟩

theorem execTraining_of_other {o : TrainOutcome} {s : State}
    (h : s.mode = .standby → s.trans ≠ none ∨ s.start.waitTrain = true ∨ s.mayTrain = false ∨ s.tripHot = true)
    (hm : s.mode ≠ .training ∨ s.start.selfTested = true) : exec (.training o) s = .next s := by
  have hno : ¬ (s.mode = .standby ∧ s.trans = none ∧ (!s.start.waitTrain) = true ∧ s.mayTrain = true ∧ (!s.tripHot) = true) := by
    rintro ⟨hs, ht, hw, hmay, htrip⟩
    obtain h | h | h | h := h hs
    · exact h ht
    · simp [h] at hw
    · simp [h] at hmay
    · simp [h] at htrip
  rw [exec_training, execTraining, if_neg hno, if_pos hm]

/-- R536, R538: in Training the outcome decides whether the module goes on. -/
theorem execTraining_of_training {o : TrainOutcome} {s : State} (hm : s.mode = .training) (hs : s.start.selfTested = false) :
    exec (.training o) s = .next (if o.plannerFailed || o.hallPllFailed.contains 0 || o.landingsFailed.contains 0 then s.trainingAbandoned o
      else s.applyTraining o) := by
  have hbegin : ¬ (s.mode = .standby ∧ s.trans = none ∧ (!s.start.waitTrain) = true ∧ s.mayTrain = true ∧ (!s.tripHot) = true) := by
    rintro ⟨h, -⟩
    simp [hm] at h
  have hgo : ¬ (s.mode ≠ .training ∨ s.start.selfTested = true) := by simp [hm, hs]
  rw [exec_training, execTraining, if_neg hbegin, if_neg hgo]
  split <;> rfl

/-- The outcome of a Training in which every part passes. -/
def allPass : TrainOutcome := ⟨[], [], [], [], [], [], false, false, [], (350, 60), [], []⟩

/-- Two states agree in what the self-test of parts that pass leaves unchanged. -/
structure TrainFrame (s t : State) : Prop where
  mode : t.mode = s.mode
  halls : t.halls = s.halls
  fails : t.odGet Od.selftestFails = s.odGet Od.selftestFails

theorem TrainFrame.refl (s : State) : TrainFrame s s := ⟨rfl, rfl, rfl⟩

theorem TrainFrame.step {s t u : State} (h : TrainFrame s t) (h' : TrainFrame t u) : TrainFrame s u :=
  ⟨h'.mode.trans h.mode, h'.halls.trans h.halls, h'.fails.trans h.fails⟩

theorem TrainFrame.foldl {β : Type} {f : State → β → State} (hf : ∀ s b, TrainFrame s (f s b)) (l : List β) (s : State) :
    TrainFrame s (l.foldl f s) :=
  foldl_keeps (TrainFrame s) f (fun t b h => h.step (hf t b)) l (.refl s)

theorem narrowLanes_allPass (n : Nat) : narrowLanes allPass n = [] := by simp [narrowLanes, allPass, eyeTooSmall]

theorem State.trainStack_allPass (s : State) (n : Nat) : TrainFrame s (s.trainStack allPass n) := by
  unfold State.trainStack
  simp only [narrowLanes_allPass]
  split
  · exact .refl s
  · rw [if_neg (by simp [allPass]), if_neg (by simp)]
    exact ⟨rfl, rfl, State.odGet_odPut_ne _ (by decide) _⟩

theorem State.trainMezz_allPass (s : State) (h : Nat) : TrainFrame s (s.trainMezz allPass h) := by
  unfold State.trainMezz
  split
  · exact .refl s
  · rw [if_neg (by simp [allPass]), if_neg (by simp [allPass])]
    simp only [allPass, List.any_nil, List.filter_false, List.foldl_nil]
    exact ⟨rfl, rfl, State.odGet_odPut_ne _ (by decide) _⟩

theorem State.applyTraining_allPass (s : State) : ∃ u : State, TrainFrame (s.odPut Od.selftestFails 0) u ∧
    s.applyTraining allPass = { u with start := { u.start with selfTested := true } } := by
  unfold State.applyTraining
  extract_lets halls s₁ bad s₂ s₃ eyes _ s₅ s₆ s₇ s₈ s₉
  have h₁ : s₁ = s := by simp [s₁, halls, allPass]
  have hbad : bad = [] := by simp [bad, allPass]
  have h₃ : s₃ = s.odPut Od.selftestFails 0 := by simp only [s₃, s₂, hbad, h₁, List.foldl_nil, List.length_nil]
  clear_value s₃
  have h₅ : TrainFrame (s.odPut Od.selftestFails 0) s₅ := h₃ ▸ ⟨rfl, rfl, rfl⟩
  clear_value s₅
  have h₆ : TrainFrame s₅ s₆ := .foldl (fun s n => s.trainStack_allPass n) _ s₅
  clear_value s₆
  have h₇ : TrainFrame s₆ s₇ := .foldl (fun s h => s.trainMezz_allPass h) _ s₆
  clear_value s₇
  have h₉ : s₉ = s₇ := rfl
  exact ⟨s₇, h₅.step (h₆.step h₇), h₉ ▸ rfl⟩

theorem training_passes {s : State} (hm : s.mode = .training) (hs : s.start.selfTested = false) :
    ∃ t : State, exec (.training allPass) s = .next t ∧ t.start.selfTested = true ∧ t.mode = .training ∧ t.odGet Od.selftestFails = 0 ∧
      t.halls = s.halls := by
  obtain ⟨u, hu, happly⟩ := s.applyTraining_allPass
  refine ⟨_, execTraining_of_training hm hs, ?_⟩
  rw [if_neg (by decide), happly]
  exact ⟨rfl, hu.mode.trans hm, hu.fails.trans (s.odGet_odPut_self _ _), hu.halls⟩

theorem training_abandoned {o : TrainOutcome} {s : State} (hm : s.mode = .training) (hs : s.start.selfTested = false) (ho : o.plannerFailed = true) :
    ∃ t : State, exec (.training o) s = .next t ∧ t.mode = .standby ∧ t.start.waitTrain = true := by
  refine ⟨_, execTraining_of_training hm hs, ?_⟩
  rw [if_pos (by simp [ho])]
  exact s.trainingAbandoned_waits o

theorem memoryTrainingDone_blanks {s : State} (ms : Nat) (hm : s.mode = .training) (hd : s.start.memoryDone = false) :
    ∃ t : State, exec (.memoryTrainingDone ms) s = .next t ∧ (∀ a, t.memByte a = 0#8) ∧ (∀ w, kget false w t.mem.poison = false) ∧
      t.start.memoryDone = true ∧ t.odGet Od.trainingState = 2 ∧ t.mode = .training := by
  rw [exec_memoryTrainingDone, execMemoryTrainingDone, if_neg (by simp [hm, hd])]
  refine ⟨_, rfl, fun a => kget_nil _ a, fun w => kget_nil _ w, rfl, ?_, hm⟩
  rw [State.odGet_odPut_ne _ (by decide), State.odGet_odPut_self]

/-- R539: the module in Ready, without a held Stop. -/
def State.readied (s : State) (ms : Nat) : State :=
  let u := (s.odPut Od.trainingTimeMs1000 (ms % 65536)).setMode .ready
  { u with newel := { u.newel with svcHeldStop := false } }

theorem exec_ready_of_trained {s : State} (ms : Nat) (hm : s.mode = .training) (hs : s.start.selfTested = true) (hd : s.start.memoryDone = true) :
    ∃ u : State, u = (if ((s.odPut Od.trainingTimeMs1000 (ms % 65536)).setMode .ready).newel.svcHeldStop
        then (s.readied ms).ownRequest 5 else s.readied ms) ∧
      exec (.ready ms) s = .next (if u.odGet Od.autoRun = 1 then u.ownRequest 4 else u) := by
  refine ⟨_, rfl, ?_⟩
  rw [exec_ready, execReady]
  exact if_neg (by simp [hm, hs, hd])

theorem State.readied_report (s : State) (ms : Nat) : (s.readied ms).mode = .ready ∧ (s.readied ms).trans = none ∧
    (∀ k ∈ settingEntries, (s.readied ms).odGet k = s.odGet k) ∧
    ((s.odPut Od.trainingTimeMs1000 (ms % 65536)).setMode .ready).newel.svcHeldStop = s.newel.svcHeldStop := by
  have ht := s.odPut_report (k := Od.trainingTimeMs1000) (by decide) (ms % 65536)
  have h := (ht.entering .ready).step (State.setMode_report (s.odPut Od.trainingTimeMs1000 (ms % 65536)) .ready)
  obtain ⟨q, hq⟩ := h.queued
  exact ⟨h.mode, h.trans, h.entries, by rw [hq]; rfl⟩

/-- R541: under AUTO_RUN the module requests Run, where none of its transitions runs. -/
theorem State.ownRequest_of_transition {s : State} {m : ModState} (h : s.trans = some m) (v : Nat) : s.ownRequest v = s := by
  unfold State.ownRequest State.requestState
  split
  · rfl
  · simp only [h, Option.isSome_some, true_or, if_true]

theorem ready_enters {s : State} (ms : Nat) (hm : s.mode = .training) (hs : s.start.selfTested = true) (hd : s.start.memoryDone = true) :
    ∃ t : State, exec (.ready ms) s = .next t ∧ t.mode = .ready ∧ (s.odGet Od.autoRun ≠ 1 → s.newel.svcHeldStop = false → t.trans = none) ∧
      (s.odGet Od.autoRun = 1 → s.newel.svcHeldStop = false → s.odGet Od.fwState = 0 → s.odGet Od.extestSinceStandby = 0 → t.trans = some .run) ∧
      (s.newel.svcHeldStop = true → s.odGet Od.fwState = 0 → t.trans = some .stopped) := by
  obtain ⟨u, hu, hexec⟩ := exec_ready_of_trained ms hm hs hd
  obtain ⟨hmode, htrans, hentries, hheld⟩ := s.readied_report ms
  rw [hheld] at hu
  obtain ⟨tr, hr5⟩ := (s.readied ms).ownRequest_report 5
  obtain ⟨tr', hr4⟩ := u.ownRequest_report 4
  have hu' : u.mode = .ready ∧ ∀ k ∈ settingEntries, u.odGet k = s.odGet k := by
    rw [hu]
    split
    · exact ⟨hr5.mode.trans hmode, fun k hk => (hr5.entries k hk).trans (hentries k hk)⟩
    · exact ⟨hmode, hentries⟩
  obtain ⟨humode, huentries⟩ := hu'
  refine ⟨_, hexec, ?_, fun ha hh => ?_, fun ha hh hf hx => ?_, fun hh hf => ?_⟩
  · split
    · exact hr4.mode.trans humode
    · exact humode
  · rw [if_neg (by rwa [huentries _ (by decide)]), hu, if_neg (by simp [hh])]
    exact htrans
  · rw [if_pos (by rwa [huentries _ (by decide)])]
    rw [if_neg (by simp [hh])] at hu
    exact (State.ownRequest_accepted (m := .run) (by rw [humode]; rfl) (hu ▸ htrans) ((huentries _ (by decide)).trans hf) nofun
      fun _ => (huentries _ (by decide)).trans hx).trans
  · rw [if_pos hh] at hu
    have hstop : u.trans = some .stopped := by
      rw [hu]
      exact (State.ownRequest_accepted (m := .stopped) (by rw [hmode]; rfl) htrans ((hentries _ (by decide)).trans hf) nofun nofun).trans
    rw [State.ownRequest_of_transition hstop, ite_self]
    exact hstop

/-! ### Boundary scan (R553, R554) -/

theorem jtag_acts {c : Instr} {op : Nat} {d f : Bool} (s : State)
    (h : (c, op, d, f) ∈ [(Instr.extest, 0x00, true, false), (.extestPulse, 0x03, true, false),
    (.extestTrain, 0x04, true, false), (.clamp, 0x05, true, false), (.highz, 0x06, false, true)]) : exec c s = .next (s.jtagActs op d f) := by
  simp only [List.mem_cons, Prod.mk.injEq, List.not_mem_nil, or_false] at h
  obtain ⟨rfl, rfl, rfl, rfl⟩ | ⟨rfl, rfl, rfl, rfl⟩ | ⟨rfl, rfl, rfl, rfl⟩ | ⟨rfl, rfl, rfl, rfl⟩ | ⟨rfl, rfl, rfl, rfl⟩ := h <;> rfl

theorem exec_bypass (s : State) : exec .bypass s = .next s.jtagBypass := by rfl

theorem exec_idcode (s : State) : exec .idcode s = execIdcode s := by rfl

theorem exec_samplePreload (b : Bytes) (s : State) : exec (.samplePreload b) s = execSamplePreload b s := by rfl

theorem State.jtagActs_of_stopped {s : State} (h : s.mode = .stopped) (op : Nat) (d f : Bool) : s.jtagActs op d f =
    ({ s with test := { s.test with ir := op, driven := d, floated := f } } : State).odPut Od.extestSinceStandby 1 := if_neg (not_not.mpr h)

theorem samplePreload_holds {s : State} (h : s.mode ≠ .off) (b : Bytes) : ∃ t : State, exec (.samplePreload b) s = .next t ∧ t.test.ir = 2 ∧
    (∀ d ∈ s.jtagChain, kfind d t.test.preload = some b) ∧ t.test.driven = false ∧ t.test.floated = false ∧
    t.out.length = s.out.length + s.jtagChain.length := by
  rw [exec_samplePreload, execSamplePreload, if_neg h]
  refine ⟨_, rfl, rfl, fun d hd => kfind_foldl_kput (fun _ => b) _ _ hd, rfl, rfl, ?_⟩
  exact List.length_append.trans (congrArg (s.out.length + ·) (List.length_map _))

/-! ### The statement -/

/-- Settles O56, event by event: the switch, power good, Training and its end, and the instructions of boundary scan. -/
theorem startAndBoundaryScan : Obligations.StartAndBoundaryScan := by
  refine ⟨fun mv s => ⟨fun hm hlo hhi => ?_, fun h => ?_⟩, mateDetOpen_is_off, fun a b s => ⟨fun h => ?_, powerGood_boots a b⟩,
    fun o s => ⟨fun hm hs => ?_, fun h => ?_, fun hm h => ?_, training_abandoned, fun hm hs ho => ?_⟩,
    fun ms s => ⟨fun h => if_pos h, memoryTrainingDone_blanks ms, fun h => ?_, ready_enters ms⟩,
    fun c op d f s hc => ⟨fun hm => ?_, fun hm => ?_⟩,
    fun s => ⟨fun h => ⟨?_, ?_, fun b => ?_⟩, fun h => ⟨?_, ?_, samplePreload_holds h⟩⟩⟩
  · rw [exec_hotswapClose, execHotswapClose, if_pos ⟨hm, hlo, hhi⟩]
  · rw [exec_hotswapClose, execHotswapClose, if_neg h]
  · rw [exec_powerGood, execPowerGood, if_pos (by simpa using h)]
  · exact execTraining_of_other (fun h => absurd (hm.symm.trans h) (by decide)) (.inr hs)
  · refine execTraining_of_other (fun hs => ?_) (.inl fun ht => ?_)
    · simp [hs] at h
    · simp [ht] at h
  · exact execTraining_of_other (fun _ => h) (.inl (by simp [hm]))
  · subst ho
    exact training_passes hm hs
  · rw [exec_ready, execReady, if_pos (by simpa using h)]
  · rw [jtag_acts s hc, State.jtagActs_of_stopped hm]
    exact ⟨_, rfl, rfl, State.odGet_odPut_self _ _ _, rfl⟩
  · rw [jtag_acts s hc, exec_bypass, State.jtagActs, if_pos hm]
  · rw [exec_bypass, State.jtagBypass, if_pos h]
  · rw [exec_idcode, execIdcode, if_pos h]
  · rw [exec_samplePreload, execSamplePreload, if_pos h]
  · rw [exec_bypass, State.jtagBypass, if_neg h]
    exact ⟨_, rfl, rfl, rfl, rfl⟩
  · rw [exec_idcode, execIdcode, if_neg h]
    exact ⟨_, rfl, rfl, rfl, rfl⟩


end Sys2Proof.Machine
end

section
/-!
SUPPORT. The descriptors that a Mover takes (R285), the copies of device memory (R286 to R291) and the pages that do not come (R296); and the statement
on them.
-/

set_option Elab.async false

namespace Sys2Proof.Machine

/-! ### The descriptor that a Mover takes (R285, R286) -/

theorem exec_moverTake (h : Nat) (s : State) : exec (.moverTake h) s = execMoverTake h s := by rfl

/-- R285, R286: a free Mover takes the next descriptor. -/
theorem exec_moverTake_of_next {h : Nat} {s : State} {d : Desc} (hh : hallOk h = true) (hfree : (s.runningMovers h).length < 16)
    (hd : s.nextDescFor h = some d) : exec (.moverTake h) s =
      .next (if descOk d.bytes then s.modDesc d.id (fun d => { d with state := .running }) else s.descFaults d.id 0x2030 0) := by
  rw [exec_moverTake, execMoverTake, if_neg (by simp [hh]), if_neg (by omega)]
  simp only [hd]

/-- R285: of two descriptors the one that a free Mover takes: of the higher class, or the one that came first. -/
def firstOf (b : Option Desc) (d : Desc) : Option Desc :=
  match b with
  | none => some d
  | some b => some (if d.cls < b.cls then d else b)

/-- R285: what is chosen so far comes of the start or of the descriptors seen, and its class is as high as any of theirs. -/
theorem foldl_firstOf {l : List Desc} {b : Option Desc} {d : Desc} (h : l.foldl firstOf b = some d) :
    (b = some d ∨ d ∈ l) ∧ (∀ x, b = some x → d.cls ≤ x.cls) ∧ ∀ x ∈ l, d.cls ≤ x.cls := by
  induction l generalizing b with
  | nil =>
    subst h
    exact ⟨.inl rfl, fun x hx => by cases hx; exact le_rfl, nofun⟩
  | cons y l ih =>
    obtain ⟨hmem, hstart, hrest⟩ := ih h
    cases b with
    | none =>
      have hy := hstart y rfl
      refine ⟨.inr ?_, nofun, fun x hx => (List.mem_cons.mp hx).elim (fun e => e ▸ hy) (hrest x)⟩
      exact hmem.elim (fun e => by cases e; exact List.mem_cons_self) (List.mem_cons_of_mem y)
    | some b =>
      have hle := hstart _ rfl
      have hboth : d.cls ≤ b.cls ∧ d.cls ≤ y.cls := by
        split at hle <;> omega
      refine ⟨?_, fun x hx => by cases hx; exact hboth.1, fun x hx => (List.mem_cons.mp hx).elim (fun e => e ▸ hboth.2) (hrest x)⟩
      obtain hmem | hmem := hmem
      · simp only [firstOf, Option.some.injEq] at hmem
        split at hmem
        · exact .inr (hmem ▸ List.mem_cons_self)
        · exact .inl (hmem ▸ rfl)
      · exact .inr (List.mem_cons_of_mem y hmem)

theorem State.nextDescFor_eq (s : State) (h : Nat) : s.nextDescFor h =
    (s.xlate.descs.filter (fun d => d.hall == h && (d.state == .queued || d.state == .yielded))).foldl firstOf none := by
  refine congrArg (fun f => List.foldl f none _) ?_
  funext b d
  cases b <;> rfl

/-- R285: the descriptor that a Mover takes waits in its hall, and none that waits there has a higher class. -/
theorem State.nextDescFor_first {s : State} {h : Nat} {d : Desc} (hd : s.nextDescFor h = some d) :
    d ∈ s.xlate.descs ∧ d.hall = h ∧ (d.state = .queued ∨ d.state = .yielded) ∧
      ∀ x ∈ s.xlate.descs, x.hall = h → (x.state = .queued ∨ x.state = .yielded) → d.cls ≤ x.cls := by
  rw [State.nextDescFor_eq] at hd
  obtain ⟨hmem, -, hle⟩ := foldl_firstOf hd
  obtain ⟨hin, hwaits⟩ := List.mem_filter.mp (hmem.resolve_left nofun)
  simp only [Bool.and_eq_true, Bool.or_eq_true, beq_iff_eq] at hwaits
  refine ⟨hin, hwaits.1, hwaits.2, fun x hx hhall hstate => hle x (List.mem_filter.mpr ⟨hx, ?_⟩)⟩
  simpa only [Bool.and_eq_true, Bool.or_eq_true, beq_iff_eq] using And.intro hhall hstate

theorem moverTake_idle {h : Nat} {s : State} (hh : hallOk h = true) (hidle : (s.runningMovers h).length ≥ 16 ∨ s.nextDescFor h = none) :
    exec (.moverTake h) s = .next s := by
  rw [exec_moverTake, execMoverTake, if_neg (by simp [hh])]
  obtain hfull | hnone := hidle
  · exact if_pos hfull
  · simp only [hnone, ite_self]

/-! ### A descriptor that ends FAULTED (R286, R287) -/

/-- R286: how a descriptor ends FAULTED. -/
def Desc.fault (code addr : Nat) (d : Desc) : Desc := { d with state := .faulted, status := code, faultAddr := addr }

/-- R286: a descriptor of the planner's loads has no stream and no program to tell of its fault. -/
theorem State.descFaults_of_plan {s : State} {id : Nat} {d : Desc} (hd : s.desc id = some d) (huse : d.use = .plan) (hstate : d.state.final = false)
    (code addr : Nat) : s.descFaults id code addr = s.modDesc id (Desc.fault code addr) := by
  unfold State.descFaults
  simp only [hd, hstate, Bool.false_eq_true, if_false, Desc.ofStream, huse]
  rfl

theorem State.desc_descFaults_of_plan {s : State} {id : Nat} {d : Desc} (hd : s.desc id = some d) (huse : d.use = .plan) (hstate : d.state.final = false)
    (code addr : Nat) : (s.descFaults id code addr).desc id = some (d.fault code addr) := by
  rw [State.descFaults_of_plan hd huse hstate]
  exact State.desc_modDesc hd fun _ => rfl

theorem moverTake_starts {h : Nat} {s : State} {d : Desc} (hh : hallOk h = true) (hfree : (s.runningMovers h).length < 16)
    (hd : s.nextDescFor h = some d) (hok : descOk d.bytes = true) : ∃ t : State, exec (.moverTake h) s = .next t ∧
      t.xlate.descs = modFirst (fun x => x.id == d.id) (fun x => { x with state := .running }) s.xlate.descs ∧
      t = { s with xlate := { s.xlate with descs := t.xlate.descs } } := by
  refine ⟨s.modDesc d.id (fun d => { d with state := .running }), ?_, rfl, rfl⟩
  rw [exec_moverTake_of_next hh hfree hd, if_pos hok]

theorem moverTake_faults {h : Nat} {s : State} {d : Desc} (hh : hallOk h = true) (hfree : (s.runningMovers h).length < 16)
    (hd : s.nextDescFor h = some d) (hok : descOk d.bytes = false) (hdesc : s.desc d.id = some d) (huse : d.use = .plan) :
    ∃ t : State, exec (.moverTake h) s = .next t ∧ t.desc d.id = some { d with state := .faulted, status := 0x2030, faultAddr := 0 } ∧
      t.mem = s.mem := by
  obtain ⟨-, -, hwaits, -⟩ := State.nextDescFor_first hd
  have hfinal : d.state.final = false := by
    obtain h | h := hwaits <;> rw [h] <;> rfl
  refine ⟨s.descFaults d.id 0x2030 0, ?_, State.desc_descFaults_of_plan hdesc huse hfinal _ _, ?_⟩
  · rw [exec_moverTake_of_next hh hfree hd, if_neg (by simp [hok])]
  · rw [State.descFaults_of_plan hdesc huse hfinal]
    rfl

/-! ### One access of a copy of device memory (R286 to R291) -/

theorem exec_moverAccessDone_eq (id : Nat) (data : Bytes) (errs : MoverErrs) (s : State) :
    exec (.moverAccessDone id data errs) s = execMoverAccessDone id data errs s := by rfl

theorem moverAccessDone_idle {id : Nat} {s : State} (h : ∀ d, s.desc id = some d → d.state ≠ .running ∨ d.len ≤ d.sent) (data : Bytes)
    (errs : MoverErrs) : exec (.moverAccessDone id data errs) s = .next s := by
  rw [exec_moverAccessDone_eq, execMoverAccessDone]
  cases hd : s.desc id with
  | none => rfl
  | some d =>
    have hno : ¬ (d.state = .running ∧ d.sent < d.len) := by
      rintro ⟨hr, hlt⟩
      obtain h | h := h d hd
      · exact h hr
      · omega
    exact congrArg Host.Outcome.next (if_neg hno)

theorem exec_moverAccessDone_of_running {id : Nat} {d : Desc} {s : State} (hd : s.desc id = some d) (hstate : d.state = .running) (hsent : d.sent < d.len)
    (data : Bytes) (errs : MoverErrs) :
    exec (.moverAccessDone id data errs) s = .next (s.moverAccess d ⟨data, errs.bad, errs.words, errs.land⟩) := by
  rw [exec_moverAccessDone_eq, execMoverAccessDone, hd]
  exact congrArg Host.Outcome.next (if_pos ⟨hstate, hsent⟩)

/-- R286: a side in device memory lies there, or beyond it. -/
theorem State.moverPlace_device (s : State) (d : Desc) (a done n : Nat) (write : Bool) :
    s.moverPlace d 1 a done n write = (if memTop < a + done + n then .bad 0x2030 else .dev (a + done), s) := rfl

theorem moverAccessDone_beyond {id : Nat} {d : Desc} {s : State} (hd : s.desc id = some d) (hstate : d.state = .running) (hsrc : d.srcSpace = 1)
    (hdst : d.dstSpace = 1) (huse : d.use = .plan) (hsent : d.sent < d.len) (hout : memTop < d.src + d.sent + d.piece) (data : Bytes) (errs : MoverErrs) :
    ∃ t : State, exec (.moverAccessDone id data errs) s = .next t ∧ t.mem = s.mem ∧
      t.desc id = some { d with state := .faulted, status := 0x2030, faultAddr := d.src + d.sent } := by
  obtain rfl : d.id = id := State.id_of_desc hd
  have hfinal : d.state.final = false := by rw [hstate]; rfl
  have he : s.moverAccess d ⟨data, errs.bad, errs.words, errs.land⟩ = s.descFaults d.id 0x2030 (d.src + d.sent) := by
    have hplace : s.moverPlace d 1 d.src d.sent d.piece false = (.bad 0x2030, s) := by rw [State.moverPlace_device, if_pos hout]
    unfold State.moverAccess
    simp only [hdst, hsrc, one_ne_zero, if_false, hplace]
    rfl
  refine ⟨_, exec_moverAccessDone_of_running hd hstate hsent data errs, ?_, ?_⟩
  · rw [he, State.descFaults_of_plan hd huse hfinal]
    rfl
  · rw [he]
    exact State.desc_descFaults_of_plan hd huse hfinal _ _

/-- Two states agree in halls and jobs, and a copy's bytes are counted in the later one. -/
structure CopyCounts (n : Nat) (s t : State) : Prop where
  halls : t.halls = s.halls
  serve : t.serve = s.serve
  mem : t.mem = s.mem
  bytes : t.odGet Od.moverBytes = (s.odGet Od.moverBytes + n) % odModulus Od.moverBytes

theorem CopyCounts.count {n : Nat} {s t : State} (h : CopyCounts n s t) {k : Nat} (hk : k ≠ Od.moverBytes) (m : Nat) : CopyCounts n s (t.count k m) :=
  ⟨h.halls, h.serve, h.mem, (t.odGet_count_ne hk.symm m).trans h.bytes⟩

/-- R287: bytes of a load's copy are confirmed and counted. -/
theorem State.descMoves_of_plan {s : State} {id n : Nat} {d : Desc} (hd : s.desc id = some d) (huse : d.use = .plan) (hstate : d.state = .running) :
    (s.descMoves id n).desc id = some (d.settled n) ∧ CopyCounts n s (s.descMoves id n) := by
  have hdone : (decide (d.len ≤ d.confirmed + n) && !d.state.final) = decide (d.len ≤ d.confirmed + n) := by simp [hstate, DescState.final]
  have hmoved : (s.modDesc id (Desc.confirm (decide (d.len ≤ d.confirmed + n)) n)).desc id = some (d.settled n) := State.desc_modDesc hd (fun _ => rfl)
  have hcount : CopyCounts n s ((s.modDesc id (Desc.confirm (decide (d.len ≤ d.confirmed + n)) n)).count Od.moverBytes n) :=
    ⟨rfl, rfl, rfl, State.odGet_count_self _ _ _⟩
  unfold State.descMoves
  simp only [hd, hdone]
  rw [huse]
  exact ⟨iteInduction (motive := fun t : State => t.desc id = _) (fun _ => hmoved) (fun _ => hmoved),
    iteInduction (motive := CopyCounts n s) (fun _ => hcount.count (by decide) 1) (fun _ => hcount)⟩

theorem State.settleMoves_of_plan {s : State} {id n : Nat} {d : Desc} (hd : s.desc id = some d) (huse : d.use = .plan) (hstate : d.state = .running)
    (hlanded : s.xlate.landed = [(id, n)]) : s.settleMoves.desc id = some (d.settled n) ∧ CopyCounts n s s.settleMoves := by
  have hdesc : ({ s with xlate := { s.xlate with landed := [] } } : State).desc id = some d := hd
  obtain ⟨h, hk⟩ := State.descMoves_of_plan (n := n) hdesc huse hstate
  have he : s.settleMoves = ({ s with xlate := { s.xlate with landed := [] } } : State).descMoves id n := by
    simp [State.settleMoves, hlanded]
  rw [he]
  exact ⟨h, hk.halls, hk.serve, hk.mem, hk.bytes⟩

/-- R285: a descriptor yields, or nothing happens. -/
theorem State.mayYield_eq {s : State} {id : Nat} {d : Desc} (hd : s.desc id = some d) : s.mayYield id = s ∨
    d.state = .running ∧ s.mayYield id = (s.modDesc id (fun d => { d with state := .yielded })).count Od.moverYields 1 := by
  unfold State.mayYield
  simp only [hd]
  split
  · next h => exact .inr ⟨h.1, rfl⟩
  · exact .inl rfl

/-- R287, R289: how an access of a load's copy leaves its descriptor: DONE with all bytes confirmed, else running or yielded. -/
theorem State.copyEnds {s : State} {d : Desc} {n : Nat} (hd : s.desc d.id = some (d.advance n)) (huse : d.use = .plan) (hstate : d.state = .running)
    (hlanded : s.xlate.landed = [(d.id, n)]) : (∃ e : Desc, (s.settleMoves.mayYield d.id).desc d.id = some e ∧
      e = { d with confirmed := d.confirmed + n, sent := d.sent + n, state := e.state } ∧ (d.len ≤ d.confirmed + n → e.state = .done) ∧
      (d.confirmed + n < d.len → e.state = .running ∨ e.state = .yielded)) ∧ CopyCounts n s (s.settleMoves.mayYield d.id) := by
  obtain ⟨hset, hk⟩ := State.settleMoves_of_plan hd huse hstate hlanded
  have hdone : d.len ≤ d.confirmed + n → ((d.advance n).settled n).state = .done := fun h => if_pos (decide_eq_true h)
  have hmore : d.confirmed + n < d.len → ((d.advance n).settled n).state = .running := fun h =>
    (if_neg (by rw [decide_eq_true_eq]; exact Nat.not_le.mpr h)).trans hstate
  obtain he | ⟨hrun, he⟩ := State.mayYield_eq hset
  · rw [he]
    exact ⟨⟨_, hset, rfl, hdone, fun h => .inl (hmore h)⟩, hk⟩
  · rw [he]
    refine ⟨⟨_, State.desc_modDesc hset (fun _ => rfl), rfl, fun h => ?_, fun _ => .inr rfl⟩, ?_⟩
    · rw [hdone h] at hrun
      cases hrun
    · have hy : CopyCounts n s (s.settleMoves.modDesc d.id (fun d => { d with state := .yielded })) := ⟨hk.halls, hk.serve, hk.mem, hk.bytes⟩
      exact hy.count (by decide) 1

theorem State.hdmLine_countReads (s : State) (k a : Nat) : (s.count Od.poisonReads k).hdmLine a = s.hdmLine a := by
  have hbase : (s.count Od.poisonReads k).odGet Od.hostWindowBase = s.odGet Od.hostWindowBase := s.odGet_count_ne (by decide) k
  have hsize : (s.count Od.poisonReads k).odGet Od.hostWindowSize = s.odGet Od.hostWindowSize := s.odGet_count_ne (by decide) k
  simp only [State.hdmLine, hbase, hsize]

theorem State.withdrawn_countReads (s : State) (k a : Nat) : (s.count Od.poisonReads k).withdrawn a = s.withdrawn a := by
  have hs : (s.count Od.poisonReads k).odGet Od.stacksPresent = s.odGet Od.stacksPresent := s.odGet_count_ne (by decide) k
  have hm : (s.count Od.poisonReads k).odGet Od.mezzPresent = s.odGet Od.mezzPresent := s.odGet_count_ne (by decide) k
  simp only [State.withdrawn, hs, hm]

/-- R288: no byte of a piece falls into the overlap of two regions that have none. -/
theorem State.overlapFree_of_disjoint (s : State) {d : Desc} {n : Nat} (hn : d.sent + n ≤ d.len)
    (hsep : d.src + d.len ≤ d.dst ∨ d.dst + d.len ≤ d.src) (g : Nat → Byte) :
    s.overlapFree d (.dev (d.src + d.sent)) (.dev (d.dst + d.sent)) (cleanBytes g n) = (cleanBytes g n, s) := by
  refine if_neg ?_
  rw [Bool.not_eq_true, List.any_eq_false]
  intro i hi
  rw [length_cleanBytes, List.mem_range] at hi
  simp only [Bool.and_eq_true, decide_eq_true_eq]
  omega

/-- R288: of a copy within device memory a piece ends with the descriptor at the latest. -/
theorem Desc.piece_le {d : Desc} (h : d.sent < d.len) : d.sent + d.piece ≤ d.len := by
  unfold Desc.piece
  simp only
  split <;> omega

section
variable {s : State} {d : Desc} (hd : s.desc d.id = some d) (huse : d.use = .plan) (hstate : d.state = .running) (hsrc : d.srcSpace = 1)
  (hdst : d.dstSpace = 1) (hsent : d.sent < d.len) (hmode : s.mode ≠ .safeStop) (hin : d.src + d.sent + d.piece ≤ memTop)
  (hout : d.dst + d.sent + d.piece ≤ memTop)
  (hsep : d.src + d.len ≤ d.dst ∨ d.dst + d.len ≤ d.src) (hwait : s.cxl.waiting = []) (hlanded : s.xlate.landed = [])
  (hfree : ∀ a, d.dst + d.sent ≤ a → a < d.dst + d.sent + d.piece → s.hdmLine a = none ∧ s.withdrawn a = false)
  (hclean : ∀ a, d.src + d.sent ≤ a → a < d.src + d.sent + d.piece → s.wordPoisoned (a / 8) = false)
include hd huse hstate hsrc hdst hsent hmode hin hout hsep hwait hlanded hfree hclean

/-- R288 to R290: an access of a load's copy within device memory moves its piece. -/
theorem State.moverAccess_copy (data : Bytes) (bad : List Nat) (land : List LandErr) :
    (∀ a, (s.moverAccess d ⟨data, bad, [], land⟩).memByte a =
      if d.dst + d.sent ≤ a ∧ a < d.dst + d.sent + d.piece then s.memByte (a - d.dst + d.src) else s.memByte a) ∧
    (s.moverAccess d ⟨data, bad, [], land⟩).odGet Od.moverBytes = (s.odGet Od.moverBytes + d.piece) % odModulus Od.moverBytes ∧
    (s.moverAccess d ⟨data, bad, [], land⟩).halls = s.halls ∧ (s.moverAccess d ⟨data, bad, [], land⟩).serve = s.serve ∧
    ∃ e : Desc, (s.moverAccess d ⟨data, bad, [], land⟩).desc d.id = some e ∧
      e = { d with confirmed := d.confirmed + d.piece, sent := d.sent + d.piece, state := e.state } ∧
      (d.len ≤ d.confirmed + d.piece → e.state = .done) ∧ (d.confirmed + d.piece < d.len → e.state = .running ∨ e.state = .yielded) := by
  have hp : s.moverPlace d d.srcSpace d.src d.sent d.piece false = (.dev (d.src + d.sent), s) := by
    rw [hsrc, State.moverPlace_device, if_neg (by omega)]
  have hq : s.moverPlace d d.dstSpace d.dst d.sent d.piece true = (.dev (d.dst + d.sent), s) := by
    rw [hdst, State.moverPlace_device, if_neg (by omega)]
  obtain ⟨k, hread⟩ := State.moverRead_memory (a := d.src + d.sent) (n := d.piece) (fun i hi => hclean _ (by omega) (by omega)) d data bad land
  have hover := (s.count Od.poisonReads k).overlapFree_of_disjoint (Desc.piece_le hsent) hsep (fun i => s.memByte (d.src + d.sent + i))
  have hwrite := State.moverWrite_memory (s := (s.count Od.poisonReads k).modDesc d.id (Desc.advance d.piece)) (a := d.dst + d.sent) (n := d.piece) d
    (fun i => s.memByte (d.src + d.sent + i)) hwait
    (fun i hi => ⟨(s.hdmLine_countReads k _).trans (hfree _ (by omega) (by omega)).1,
      (s.withdrawn_countReads k _).trans (hfree _ (by omega) (by omega)).2⟩)
  rw [State.moverAccess_of_reached (by rw [hdst]; rfl) hp rfl hq rfl hread hmode hover (any_cleanBytes _ _), hwrite]
  obtain ⟨hend, hk⟩ := State.copyEnds (s := ((s.count Od.poisonReads k).modDesc d.id (Desc.advance d.piece)).linesWritten _ d.id d.piece)
    (State.desc_modDesc (s := s.count Od.poisonReads k) hd (fun _ => rfl)) huse hstate (congrArg (· ++ [(d.id, d.piece)]) hlanded)
  refine ⟨fun x => (State.memByte_eq hk.mem x).trans ?_, hk.bytes.trans ?_, hk.halls, hk.serve, hend⟩
  · rw [State.memByte_linesWritten (by rw [List.length_map, List.length_range]; omega), List.length_map, List.length_range]
    refine ite_congr rfl (fun hx => ?_) (fun _ => rfl)
    have hlt : x - (d.dst + d.sent) < d.piece := by omega
    have haddr : d.src + d.sent + (x - (d.dst + d.sent)) = x - d.dst + d.src := by omega
    simp [List.getD, hlt, haddr]
  · exact congrArg (fun v => (v + d.piece) % odModulus Od.moverBytes) (s.odGet_count_ne (by decide) k)

end

/-! ### A page that does not come (R296) -/

theorem exec_pageTimeout (tn page : Nat) (s : State) : exec (.pageTimeout tn page) s = execPageTimeout tn page s := by rfl

/-- R291: a descriptor as it is abandoned, where a test accepts it and it has not ended. -/
def Desc.abandonIf (p : Desc → Bool) (d : Desc) : Desc := if p d && !d.state.final then { d with state := .abandoned } else d

theorem Desc.abandonIf_id (p : Desc → Bool) (d : Desc) : (d.abandonIf p).id = d.id := by
  unfold Desc.abandonIf
  split <;> rfl

/-- R291: a descriptor that has ended is not abandoned. -/
theorem State.desc_abandonDescs {s : State} {id : Nat} {e : Desc} (h : s.desc id = some e) (he : e.state.final = true) (p : Desc → Bool) :
    (s.abandonDescs p).desc id = some e := by
  have hmap : (s.abandonDescs p).desc id = (s.xlate.descs.map (Desc.abandonIf p)).find? (fun d => d.id == id) := rfl
  have hkept : e.abandonIf p = e := if_neg (by simp [he])
  have hfind : s.xlate.descs.find? (fun d => d.id == id) = some e := h
  rw [hmap, List.find?_map, Function.comp_def]
  simp only [Desc.abandonIf_id, hfind, Option.map_some, hkept]

/-- R296, R287: no request is left, a descriptor stands as it ended, and so many timeouts have been counted. -/
def timedOut (id : Nat) (e : Desc) (he : e.state.final = true) (v : Nat) : Keeper where
  holds s := s.xlate.requests = [] ∧ s.desc id = some e ∧ s.odGet Od.pageTimeouts = v
  cells h _ _ hr hd ho := by
    obtain ⟨hreq, hdesc, hcount⟩ := h
    exact ⟨hr.trans hreq, by rw [State.desc, hd]; exact hdesc, by rw [State.odGet, ho]; exact hcount⟩
  entry h hk v := by
    obtain ⟨hreq, hdesc, hcount⟩ := h
    exact ⟨hreq, hdesc, (State.odGet_odPut_ne _ hk.symm v).trans hcount⟩
  queued h d := by
    obtain ⟨hreq, hdesc, hcount⟩ := h
    exact ⟨hreq, by rw [State.desc, State.addDesc_descs, List.find?_append]; exact congrArg (Option.or · _) hdesc, hcount⟩
  abandoned h p := by
    obtain ⟨hreq, hdesc, hcount⟩ := h
    exact ⟨hreq, State.desc_abandonDescs hdesc he p, (State.odGet_count_ne _ (by decide) _).trans hcount⟩
  dropped h := ⟨rfl, h.2⟩

/-- R286, R296: a descriptor that waits and ends FAULTED stays as it ended, whatever its fault does beside; no request comes. -/
theorem State.descFaults_of_waiting {s : State} {d : Desc} (hd : s.desc d.id = some d) (hstate : d.state = .waitingPage) (hreq : s.xlate.requests = [])
    (code addr : Nat) : (s.descFaults d.id code addr).xlate.requests = [] ∧ (s.descFaults d.id code addr).desc d.id = some (d.fault code addr) ∧
      (s.descFaults d.id code addr).odGet Od.pageTimeouts = s.odGet Od.pageTimeouts := by
  have hfault : Kept (timedOut d.id (d.fault code addr) rfl (s.odGet Od.pageTimeouts)) (s.modDesc d.id (Desc.fault code addr)) :=
    ⟨hreq, State.desc_modDesc hd (fun _ => rfl), rfl⟩
  have hkept : Kept (timedOut d.id (d.fault code addr) rfl (s.odGet Od.pageTimeouts)) (s.descFaults d.id code addr) := by
    unfold State.descFaults
    simp only [hd, hstate, DescState.final, Bool.false_eq_true, if_false]
    exact .ite hfault.logEv.faultStream.retryReleases <| .ite hfault.refuseOp hfault
  exact hkept

theorem pageTimeout_faults {tn page : Nat} {s : State} {r : PageReq} {d : Desc} (htn : tenantOk tn = true) (hreq : s.xlate.requests = [r])
    (ht : r.tenant = tn) (hp : r.page = page / 4096 * 4096) (hw : r.waiters = [d.id]) (hd : s.desc d.id = some d) (hstate : d.state = .waitingPage) :
    ∃ t : State, exec (.pageTimeout tn page) s = .next t ∧ t.xlate.requests = [] ∧
      t.desc d.id = some { d with state := .faulted, status := 0x2033 } ∧
      t.odGet Od.pageTimeouts = (s.odGet Od.pageTimeouts + 1) % odModulus Od.pageTimeouts := by
  have hwaits : s.waitersOf r = [d] := by simp [State.waitersOf, hw, hd, hstate]
  have hdropped : (s.dropRequest r).xlate.requests = [] := by simp [State.dropRequest, hreq, dropFirst]
  obtain ⟨hnone, hdesc, hcount⟩ := State.descFaults_of_waiting (s := (s.dropRequest r).count Od.pageTimeouts 1) hd hstate hdropped 0x2033 d.faultAddr
  have he : s.refusePage r 0x2033 Od.pageTimeouts = ((s.dropRequest r).count Od.pageTimeouts 1).descFaults d.id 0x2033 d.faultAddr := by
    simp only [State.refusePage, hwaits, List.foldl_cons, List.foldl_nil]
    rw [hnone]
    rfl
  refine ⟨s.refusePage r 0x2033 Od.pageTimeouts, ?_, by rw [he, hnone], by rw [he, hdesc]; rfl, ?_⟩
  · have hfind : s.xlate.requests.find? (fun r => r.tenant == tn && r.page == page / 4096 * 4096) = some r := by simp [hreq, ht, hp]
    rw [exec_pageTimeout, execPageTimeout, if_neg (by simp [htn])]
    simp only [hfind]
  · rw [he, hcount, State.odGet_count_self]
    rfl

/-! ### The statement -/

/-- Settles O45, command by command: MOVER_TAKE, one access of a copy within device memory or beyond it, and a page that does not come. -/
theorem moversTakeCopyAndFault : Obligations.MoversTakeCopyAndFault := by
  refine ⟨fun h s hh => moverTake_idle hh, fun h s d hh hfree hd => ?_,
    fun id data bad errs land s h => moverAccessDone_idle h data ⟨bad, errs, land⟩,
    fun id data bad land s d hd hstate hsrc hdst huse hsent hmode hin hout hsep hwait hlanded hfree hclean => ?_,
    fun id data bad errs land s d hd hstate hsrc hdst huse hsent hout =>
      moverAccessDone_beyond hd hstate hsrc hdst huse hsent hout data ⟨bad, errs, land⟩,
    fun tn page s htn => ⟨fun hnone => ?_, fun r d hreq ht hp hw hd hstate => pageTimeout_faults htn hreq ht hp hw hd hstate⟩⟩
  · obtain ⟨hmem, hhall, hwaits, hfirst⟩ := State.nextDescFor_first hd
    exact ⟨hmem, hhall, hwaits, hfirst, moverTake_starts hh hfree hd, moverTake_faults hh hfree hd⟩
  · obtain rfl : d.id = id := State.id_of_desc hd
    exact ⟨_, exec_moverAccessDone_of_running hd hstate hsent data ⟨bad, [], land⟩,
      State.moverAccess_copy hd huse hstate hsrc hdst hsent hmode hin hout hsep hwait hlanded hfree hclean data bad land⟩
  · rw [exec_pageTimeout, execPageTimeout, if_neg (by simp [htn])]
    simp only [hnone]

end Sys2Proof.Machine
end

section
/-!
SUPPORT. The CXL link and its decoder (R432, R434, R446, R562), the port's resets (R447, R448), its power states and interrupts (R325, R443, R449); and the
statement on them.
-/

set_option Elab.async false

namespace Sys2Proof.Machine

/-! ### What a record leaves of the port (R443, R444) -/

/-- Two states agree in the port's link, its snoop filter, its queue and its masks, without a link in the pending bits too, and in the answers that wait. -/
structure PortKept (s t : State) : Prop where
  linkUp : t.cxl.linkUp = s.cxl.linkUp
  pcieOnly : t.cxl.pcieOnly = s.cxl.pcieOnly
  filter : t.cxl.filter = s.cxl.filter
  waiting : t.cxl.waiting = s.cxl.waiting
  masked : t.cxl.masked = s.cxl.masked
  pendBits : s.cxl.linkUp = false → t.cxl.pendBits = s.cxl.pendBits
  ready : t.od.ready = s.od.ready

/-- An update of other parts of the state. -/
theorem PortKept.of_eq {s t : State} (hcxl : t.cxl = s.cxl) (hready : t.od.ready = s.od.ready) : PortKept s t := by
  constructor <;> simp only [hcxl, hready, implies_true]

theorem PortKept.refl (s : State) : PortKept s s := .of_eq rfl rfl

theorem PortKept.step {s t u : State} (h : PortKept s t) (h' : PortKept t u) : PortKept s u :=
  ⟨h'.linkUp.trans h.linkUp, h'.pcieOnly.trans h.pcieOnly, h'.filter.trans h.filter, h'.waiting.trans h.waiting, h'.masked.trans h.masked,
    fun hl => (h'.pendBits (h.linkUp.trans hl)).trans (h.pendBits hl), h'.ready.trans h.ready⟩

theorem PortKept.ite {s t u : State} {c : Prop} [Decidable c] (ht : PortKept s t) (hu : PortKept s u) : PortKept s (if c then t else u) := by
  split <;> assumption

theorem State.odPut_portKept (s : State) (k v : Nat) : PortKept s (s.odPut k v) := .of_eq rfl rfl

theorem State.signal_portKept (s : State) (v : Nat) : PortKept s (s.signal v) := by
  unfold State.signal
  split
  · exact .refl s
  · next hup =>
    split
    · exact ⟨rfl, rfl, rfl, rfl, rfl, fun h => absurd h hup, rfl⟩
    · exact .of_eq rfl rfl

/-- R444: a record enters the port's event logs, and may signal vector 0. -/
theorem State.addEvent_portKept (s : State) (r : LogRec) : PortKept s (s.addEvent r) := by
  have hlogs : PortKept s { s with cxl := s.cxl.addEvent r } := by
    unfold CxlSt.addEvent
    extract_lets
    split <;> exact ⟨rfl, rfl, rfl, rfl, rfl, fun _ => rfl, rfl⟩
  unfold State.addEvent
  simp only
  generalize (_ && _ : Bool) = first
  exact .ite (hlogs.step (State.signal_portKept _ 0)) hlogs

theorem State.record_portKept (s : State) (ev : LogEv) (extra n time e q : Nat) : PortKept s (s.record ev extra n time e q) := by
  have hring : ∀ r, PortKept s (s.ringPut r) := fun r => by
    unfold State.ringPut
    exact .of_eq rfl rfl
  have hbuffer : ∀ (t : State) r, PortKept t (t.bufferPut r) := fun t r => by
    unfold State.bufferPut
    have hput : PortKept t { t with log := { t.log with buffer := t.log.buffer ++ [r] } } := .of_eq rfl rfl
    exact .ite ((hput.step (State.signal_portKept _ _)).step (State.addEvent_portKept _ r)) (.of_eq rfl rfl)
  unfold State.record
  extract_lets sev r u
  exact .ite (hring r) ((((hring r).step (u.odPut_portKept _ _)).step (State.odPut_portKept _ _ _)).step (hbuffer _ r))

theorem State.logEv_portKept (s : State) (ev : LogEv) (extra : Nat := 0) : PortKept s (s.logEv ev extra) := by
  unfold State.logEv
  exact .ite (.ite (.of_eq rfl rfl) (.of_eq rfl rfl)) (s.record_portKept ..)

/-! ### The queue of the module's writes (R437) -/

/-- R437: where nothing waits for the host, nothing goes on. -/
theorem State.settleHost_of_idle {s : State} (hwait : s.cxl.waiting = []) (hlanded : s.xlate.landed = []) (hready : s.od.ready = []) : s.settleHost = s := by
  have hdrain : drainHost (s.cxl.waiting.length + 1) s = s := by
    unfold drainHost
    simp only [hwait]
  have hmoves : s.settleMoves = { s with xlate := { s.xlate with landed := [] } } := by simp [State.settleMoves, hlanded]
  have hanswer : s.answerReady = { s with od := { s.od with ready := [] } } := by simp [State.answerReady, hready]
  have hmoves' : s.settleMoves = s := by rw [hmoves, ← hlanded]
  rw [State.settleHost, hdrain, hmoves', hanswer, ← hready]

/-- R443: a signal that meets an empty queue is taken at once. -/
theorem State.hostActs_signal {s : State} (hwait : s.cxl.waiting = []) (v : Nat) : s.hostActs [.signal v] = s.signal v := by
  have hback : ({ s with cxl := { s.cxl with waiting := [] } } : State) = s := by rw [← hwait]
  have hsig : (s.signal v).cxl.waiting = [] := (s.signal_portKept v).waiting.trans hwait
  simp only [State.hostActs, hwait, List.nil_append, List.length_cons, List.length_nil, drainHost, hback, hsig]

/-! ### The link (R432, R434, R446, R562) -/

theorem exec_cxlLinkUp (flit256 : Bool) (rate width : Nat) (s : State) : exec (.cxlLinkUp flit256 rate width) s = execCxlLinkUp flit256 rate width s := by rfl

theorem exec_hdmDecoderCommit (base size ways : Nat) (s : State) : exec (.hdmDecoderCommit base size ways) s = execHdmDecoderCommit base size ways s := by rfl

theorem exec_cxlLinkDown (s : State) : exec .cxlLinkDown s = .next (s.linkLost true) := by rfl

theorem exec_perst (high : Bool) (s : State) : exec (.perst high) s =
    .next { (if high then s else s.linkLost true) with cxl := { (if high then s else s.linkLost true).cxl with perstHigh := high } } := by rfl

section
variable {s : State} (hlive : s.portLive = true) (htest : s.testing 3 0 = false) (hdown : s.cxl.linkUp = false) (honly : s.cxl.pcieOnly = false)
  (rate width : Nat)
include hlive htest hdown honly

/-- R432: CXL.mem in 256-byte flit mode. -/
theorem cxlLinkUp_of_flit (hrate : 32 ≤ rate) : exec (.cxlLinkUp true rate width) s =
    .next { s with cxl := { s.cxl with linkUp := true, infoValid := true, rate := rate, width := width } } := by
  rw [exec_cxlLinkUp, execCxlLinkUp]
  simp [hlive, htest, hdown, honly, hrate]

/-- R432: PCIe only, with its record. -/
theorem cxlLinkUp_of_pcie : ∃ t : State, exec (.cxlLinkUp false rate width) s = .next t ∧ t.cxl.linkUp = false ∧ t.cxl.pcieOnly = true ∧
    t.mem = s.mem ∧ t.halls = s.halls := by
  have hkept := State.logEv_portKept { s with cxl := { s.cxl with pcieOnly := true, infoValid := true, rate := rate, width := width } } { code := 0x6101 }
  have hlog := State.logEv_frame { s with cxl := { s.cxl with pcieOnly := true, infoValid := true, rate := rate, width := width } } { code := 0x6101 } 0
  refine ⟨_, ?_, hkept.linkUp.trans hdown, hkept.pcieOnly, hlog.mem, hlog.halls⟩
  rw [exec_cxlLinkUp, execCxlLinkUp]
  simp [hlive, htest, hdown, honly]

end

/-- R434: decoder 0 as it is committed. -/
def State.decoded (s : State) (base size : Nat) : State := ((s.odPut Od.hdmCommitted 1).odPut Od.hdmHpaBase (base % 2 ^ 64)).odPut Od.hdmSize size

theorem hdmDecoderCommit_commits {base size ways : Nat} {s : State} (hup : s.cxl.linkUp = true)
    (h : base % 268435456 = 0 ∧ size % 268435456 = 0 ∧ size ≤ s.rangeSize ∧ ways = 1) :
    exec (.hdmDecoderCommit base size ways) s = .next ((s.decoded base size).emit (.decoder true)) := by
  rw [exec_hdmDecoderCommit, execHdmDecoderCommit, if_neg (by simp [hup]), if_pos h]
  rfl

theorem hdmDecoderCommit_refuses {base size ways : Nat} {s : State} (hup : s.cxl.linkUp = true)
    (h : ¬ (base % 268435456 = 0 ∧ size % 268435456 = 0 ∧ size ≤ s.rangeSize ∧ ways = 1)) :
    exec (.hdmDecoderCommit base size ways) s = .next (s.emit (.decoder false)) := by
  rw [exec_hdmDecoderCommit, execHdmDecoderCommit, if_neg (by simp [hup]), if_neg h]

/-- The entries of decoder 0. -/
def decoderEntries : List Nat := [Od.hdmCommitted, Od.hdmHpaBase, Od.hdmSize]

theorem State.uncommit_odFrame (s : State) : OdFrame decoderEntries s s.uncommit :=
  ((s.odPut_odFrame (by decide) 0).step (State.odPut_odFrame _ (by decide) 0)).step (State.odPut_odFrame _ (by decide) 0)

theorem State.uncommit_committed (s : State) : s.uncommit.odGet Od.hdmCommitted = 0 := by
  rw [State.uncommit, State.odGet_odPut_ne _ (by decide), State.odGet_odPut_ne _ (by decide), State.odGet_odPut_self]

theorem State.linkLost_of_down {s : State} (h : (s.cxl.linkUp || s.cxl.pcieOnly) = false) (logged : Bool) : s.linkLost logged = s := by
  simp [State.linkLost, h]

/-- R446: the port without its link, before the record. -/
def State.unlinked (s : State) : State := (({ s with cxl := s.cxl.unlinked } : State).uncommit).count Od.linkLosses 1

/-- R446: without a transfer and with nothing that waits, a lost link leaves no more than its record. -/
theorem State.linkLost_of_idle {s : State} (hup : (s.cxl.linkUp || s.cxl.pcieOnly) = true) (hdescs : s.xlate.descs = []) (hwait : s.cxl.waiting = [])
    (hlanded : s.xlate.landed = []) (hready : s.od.ready = []) : s.linkLost true = s.unlinked.logEv { code := 0x6110 } := by
  have hlog := s.unlinked.logEv_frame { code := 0x6110 } 0
  have hkept := s.unlinked.logEv_portKept { code := 0x6110 }
  unfold State.linkLost
  simp only [hup, hdescs, Bool.not_true, Bool.false_eq_true, if_false, if_true, List.filter_nil, List.foldl_nil]
  exact State.settleHost_of_idle (hkept.waiting.trans hwait) ((congrArg XlateSt.landed hlog.xlate).trans hlanded) (hkept.ready.trans hready)

theorem cxlLinkDown_of_idle {s : State} (hup : (s.cxl.linkUp || s.cxl.pcieOnly) = true) (hdescs : s.xlate.descs = []) (hwait : s.cxl.waiting = [])
    (hlanded : s.xlate.landed = []) (hready : s.od.ready = []) : ∃ t : State, exec .cxlLinkDown s = .next t ∧ t.cxl.linkUp = false ∧
      t.cxl.pcieOnly = false ∧ t.cxl.filter = [] ∧ t.cxl.pendBits = [] ∧ t.cxl.masked = List.range 64 ∧ t.odGet Od.hdmCommitted = 0 ∧
      t.odGet Od.linkLosses = (s.odGet Od.linkLosses + 1) % odModulus Od.linkLosses ∧ t.mem = s.mem ∧ t.halls = s.halls ∧ t.serve = s.serve := by
  have hlog := s.unlinked.logEv_frame { code := 0x6110 } 0
  have hod := s.unlinked.logEv_odFrame { code := 0x6110 } 0
  have hkept := s.unlinked.logEv_portKept { code := 0x6110 }
  refine ⟨_, by rw [exec_cxlLinkDown, State.linkLost_of_idle hup hdescs hwait hlanded hready], hkept.linkUp, hkept.pcieOnly, hkept.filter,
    hkept.pendBits rfl, hkept.masked, ?_, ?_, hlog.mem, hlog.halls, hlog.serve⟩
  · rw [hod.same _ (by decide), State.unlinked, State.odGet_count_ne _ (by decide), State.uncommit_committed]
  · rw [hod.same _ (by decide), State.unlinked, State.odGet_count_self, (State.uncommit_odFrame _).same _ (by decide)]
    rfl

/-! ### Resets (R447, R448) -/

theorem exec_cxlReset (clear : Bool) (s : State) : exec (.cxlReset clear) s = execCxlReset clear s := by rfl

/-- R328: a stop without steps, streams and descriptors. -/
structure Halted (s t : State) : Prop where
  cxl : t.cxl = s.cxl
  mode : t.mode = s.mode
  mem : t.mem = s.mem
  landed : t.xlate.landed = s.xlate.landed
  streams : t.serve.streams = []
  od : OdFrame [Od.moverAbandoned] s t

theorem OdFrame.of_count {l : List Nat} {s t : State} (h : t.od = s.od) {k : Nat} (hk : k ∈ l) (n : Nat) : OdFrame l s (t.count k n) :=
  (OdFrame.of_od l h).step (t.count_odFrame hk n)

theorem State.abandonDescs_odFrame (s : State) (p : Desc → Bool) : OdFrame [Od.moverAbandoned] s (s.abandonDescs p) := by
  unfold State.abandonDescs
  extract_lets n l
  refine .of_count ?_ ?_ n
  · rfl
  · decide

theorem State.abandonParks_odFrame (s : State) : OdFrame [Od.moverAbandoned] s s.abandonParks := by
  unfold State.abandonParks
  extract_lets n f
  refine .of_count ?_ ?_ n
  · rfl
  · decide

theorem State.haltWork_halted {s : State} (hsteps : s.serve.steps = []) (hstreams : s.serve.streams = []) : Halted s s.haltWork := by
  unfold State.haltWork
  extract_lets fields halt clear _ _ u v
  have hfields : fields = [] := by simp [fields, hsteps]
  have hv : Halted s v := by
    refine ⟨rfl, rfl, rfl, rfl, by simp [v, u, State.abandonParks, State.abandonDescs, hstreams], ?_⟩
    exact (OdFrame.of_od _ (s := s) (t := u) rfl).step ((u.abandonDescs_odFrame _).step (State.abandonParks_odFrame _))
  rw [hfields, List.foldl_nil, State.takeIdleCancels_of_no_streams hv.streams]
  exact hv

theorem kfind_filter {α : Type} (p : Nat → Bool) (k : Nat) (m : KMap α) : kfind k (m.filter (fun e => p e.1)) = if p k then kfind k m else none := by
  induction m with
  | nil => simp [kfind]
  | cons e m ih =>
    obtain ⟨j, v⟩ := e
    by_cases hj : p j = true
    · simp only [List.filter_cons, hj, if_true, kfind, ih]
      by_cases hk : j = k
      · simp [← hk, hj]
      · simp [hk]
    · simp only [List.filter_cons, hj, Bool.false_eq_true, if_false, kfind, ih]
      by_cases hk : j = k
      · simp [← hk, hj]
      · simp [hk]

/-- R448: without streams the clear of the window writes zeros over it, and does no more. -/
theorem State.clearWindow_of_no_streams {s : State} (h : s.serve.streams = []) : ∃ m : MemSt, s.clearWindow = { s with mem := m } ∧
    ∀ a, m.byte a = if s.odGet Od.hostWindowBase ≤ a ∧ a < s.odGet Od.hostWindowBase + s.rangeSize then memDefault else s.memByte a := by
  unfold State.clearWindow
  extract_lets lo hi inside _ m u fields gone v
  have hfields : fields = [] := by simp [fields, u, State.streamList, h]
  have hgone : gone = [] := by simp [gone, u, State.streamList, h]
  have hv : v = u := by simp [v, hgone]
  refine ⟨m, by rw [hfields, List.all_nil, if_pos rfl, hv], fun a => ?_⟩
  have hfind : kfind a m.cells = _ := kfind_filter (fun k => !inside k) a s.mem.cells
  rw [MemSt.byte, kget, hfind]
  by_cases ha : lo ≤ a ∧ a < hi
  · rw [if_pos ha, if_neg (by simp [inside, ha])]
    rfl
  · rw [if_neg ha, if_pos (by simp only [inside, Bool.not_eq_true', Bool.and_eq_false_iff, decide_eq_false_iff_not]; omega)]
    rfl

/-- R448: the port with the filter clear and the decoder uncommitted. -/
def State.unfiltered (s : State) : State := ({ s with cxl := { s.cxl with filter := [], snooped := none } } : State).uncommit

theorem State.unfiltered_odFrame (s : State) : OdFrame decoderEntries s s.unfiltered := by
  obtain ⟨hparts, hsame⟩ := State.uncommit_odFrame { s with cxl := { s.cxl with filter := [], snooped := none } }
  exact ⟨hparts, hsame⟩

/-- The entries that a CXL Reset writes beside its count. -/
def resetEntries : List Nat := Od.moverAbandoned :: decoderEntries ++ logEntries

/-- R448: without steps and streams and with nothing that waits, a CXL Reset clears the filter, uncommits the decoder and is counted, and the clear of the window
follows. -/
theorem cxlReset_of_idle (clear : Bool) {s : State} (hup : (s.cxl.linkUp || s.cxl.pcieOnly) = true) (hsteps : s.serve.steps = [])
    (hstreams : s.serve.streams = []) (hwait : s.cxl.waiting = []) (hlanded : s.xlate.landed = []) (hready : s.od.ready = []) :
    ∃ w : State, exec (.cxlReset clear) s = .next (if clear then w.unfiltered.clearWindow else w.unfiltered) ∧ w.mem = s.mem ∧ w.mode = s.mode ∧
      w.serve.streams = [] ∧ OdFrame resetEntries (s.count Od.cxlResets 1) w.unfiltered := by
  have hlog := (s.count Od.cxlResets 1).logEv_frame { code := 0x6120 } 0
  have hlogOd := (s.count Od.cxlResets 1).logEv_odFrame { code := 0x6120 } 0
  have hkept := (s.count Od.cxlResets 1).logEv_portKept { code := 0x6120 }
  rw [exec_cxlReset, execCxlReset]
  simp only [hup, Bool.not_true, Bool.false_eq_true, if_false]
  generalize (s.count Od.cxlResets 1).logEv { code := 0x6120 } = v at hlog hlogOd hkept ⊢
  have hhalt : Halted v v.haltWork := State.haltWork_halted (by rw [hlog.serve]; exact hsteps) (by rw [hlog.serve]; exact hstreams)
  generalize v.haltWork = w at hhalt ⊢
  have hlist : w.streamList = [] := by simp [State.streamList, hhalt.streams]
  have hod : OdFrame resetEntries (s.count Od.cxlResets 1) w.unfiltered :=
    ((hlogOd.mono (by decide)).step (hhalt.od.mono (by decide))).step (w.unfiltered_odFrame.mono (by decide))
  have hidle : w.unfiltered.settleHost = w.unfiltered := State.settleHost_of_idle
    ((congrArg CxlSt.waiting hhalt.cxl).trans (hkept.waiting.trans hwait)) (hhalt.landed.trans ((congrArg XlateSt.landed hlog.xlate).trans hlanded))
    ((congrArg OdSt.ready hod.parts).trans hready)
  refine ⟨w, ?_, hhalt.mem.trans hlog.mem, hhalt.mode.trans hlog.mode, hhalt.streams, hod⟩
  rw [hlist, List.foldl_nil, ← hidle]
  rfl

/-- R448: outside the window, and without a clear inside it too, memory stays. -/
theorem cxlReset_resets (clear : Bool) {s : State} (hup : (s.cxl.linkUp || s.cxl.pcieOnly) = true) (hsteps : s.serve.steps = [])
    (hstreams : s.serve.streams = []) (hwait : s.cxl.waiting = []) (hlanded : s.xlate.landed = []) (hready : s.od.ready = []) :
    ∃ t : State, exec (.cxlReset clear) s = .next t ∧ t.cxl.filter = [] ∧ t.odGet Od.hdmCommitted = 0 ∧
      t.odGet Od.cxlResets = (s.odGet Od.cxlResets + 1) % odModulus Od.cxlResets ∧ t.mode = s.mode ∧
      (∀ a, (clear = false ∨ a < s.odGet Od.hostWindowBase ∨ s.odGet Od.hostWindowBase + s.rangeSize ≤ a) → t.memByte a = s.memByte a) ∧
      (clear = true → ∀ a, s.odGet Od.hostWindowBase ≤ a → a < s.odGet Od.hostWindowBase + s.rangeSize → t.memByte a = memDefault) := by
  obtain ⟨w, hexec, hmem, hmode, hnone, hod⟩ := cxlReset_of_idle clear hup hsteps hstreams hwait hlanded hready
  have hkeep : ∀ k ∉ resetEntries, k ≠ Od.cxlResets → w.unfiltered.odGet k = s.odGet k := fun k hk hne =>
    (hod.same k hk).trans (State.odGet_count_ne s hne 1)
  have hresets := (hod.same Od.cxlResets (by decide)).trans (State.odGet_count_self s Od.cxlResets 1)
  have hbase := hkeep Od.hostWindowBase (by decide) (by decide)
  have hsize : w.unfiltered.rangeSize = s.rangeSize := congrArg (· / 268435456 * 268435456) (hkeep Od.hostWindowSize (by decide) (by decide))
  have hbyte : ∀ a, w.unfiltered.memByte a = s.memByte a := fun a => congrArg (fun m => MemSt.byte m a) hmem
  have hcommitted : w.unfiltered.odGet Od.hdmCommitted = 0 := State.uncommit_committed _
  cases clear with
  | false => exact ⟨_, hexec, rfl, hcommitted, hresets, hmode, fun a _ => hbyte a, fun h => nomatch h⟩
  | true =>
    obtain ⟨m, hclear, hbytes⟩ := State.clearWindow_of_no_streams (s := w.unfiltered) hnone
    simp only [hbase, hsize, hbyte] at hbytes
    rw [hclear] at hexec
    refine ⟨_, hexec, rfl, hcommitted, hresets, hmode, fun a ha => (hbytes a).trans (if_neg ?_), fun _ a hlo hhi => (hbytes a).trans (if_pos ⟨hlo, hhi⟩)⟩
    rcases ha with h | h | h
    · cases h
    · omega
    · omega

theorem exec_flr (s : State) : exec .flr s =
    .next { s with cxl := { s.cxl with masked := List.range 64, funcMask := false, pendBits := [], d3hot := false },
                   od := { s.od with stateWait := s.od.stateWait.filter (fun w => w.origin != .mailbox) } } := by rfl

/-- R447: a background command of the mailbox ends. -/
theorem flr_resets (s : State) : ∃ t : State, exec .flr s = .next t ∧
    t.cxl = { s.cxl with masked := List.range 64, funcMask := false, pendBits := [], d3hot := false } ∧ t.od.vals = s.od.vals ∧
    (∀ w, t.od.stateWait = some w → w.origin ≠ .mailbox) ∧ t = { s with cxl := t.cxl, od := t.od } := by
  refine ⟨_, exec_flr s, rfl, rfl, fun w hw => ?_, rfl⟩
  have hkept := (Option.filter_eq_some_iff.1 hw).2
  simpa using hkept

/-! ### Interrupts and power states (R325, R443, R449) -/

theorem exec_d3hotEntry (s : State) : exec .d3hotEntry s = execD3hotEntry s := by rfl

theorem exec_d0Entry (s : State) : exec .d0Entry s = .next ({ s with cxl := { s.cxl with d3hot := false } } : State).sendPending := by rfl

theorem exec_coalesceExpiry (v : Nat) (s : State) : exec (.coalesceExpiry v) s = execCoalesceExpiry v s := by rfl

/-- R443: the vectors whose messages may leave. -/
def CxlSt.unmasked (c : CxlSt) : List Nat := (List.range 64).filter (fun v => c.pendBits.contains v && !c.masked.contains v)

theorem State.sendPending_of_open {s : State} (hup : s.cxl.linkUp = true) (hd0 : s.cxl.d3hot = false) (hfunc : s.cxl.funcMask = false) :
    s.sendPending = ({ s with cxl := { s.cxl with pendBits := s.cxl.pendBits.filter (fun v => !s.cxl.unmasked.contains v) } } : State).emits
      (s.cxl.unmasked.map .msix) := by
  simp [State.sendPending, hup, hd0, hfunc, CxlSt.unmasked]

/-- R443: what holds a message back makes it pending. -/
theorem State.signal_of_masked {s : State} {v : Nat} (hup : s.cxl.linkUp = true)
    (h : s.cxl.d3hot = true ∨ s.cxl.funcMask = true ∨ s.cxl.masked.contains v = true) : (s.signal v).out = s.out ∧ v ∈ (s.signal v).cxl.pendBits := by
  have hheld : (s.cxl.d3hot || s.cxl.funcMask || s.cxl.masked.contains v) = true := by
    simpa only [Bool.or_eq_true, or_assoc] using h
  rw [State.signal, if_neg (by simp [hup]), if_pos hheld]
  refine ⟨rfl, ?_⟩
  show v ∈ if s.cxl.pendBits.contains v then s.cxl.pendBits else s.cxl.pendBits ++ [v]
  split
  · next hp => simpa using hp
  · exact List.mem_append_right _ (List.mem_singleton_self v)

theorem State.signal_of_open {s : State} {v : Nat} (hup : s.cxl.linkUp = true) (hd0 : s.cxl.d3hot = false) (hfunc : s.cxl.funcMask = false)
    (hv : s.cxl.masked.contains v = false) : s.signal v = s.emit (.msix v) := by
  rw [State.signal, if_neg (by simp [hup]), if_neg (by simp only [hd0, hfunc, hv]; decide)]

theorem d0Entry_sends {s : State} (hup : s.cxl.linkUp = true) (hfunc : s.cxl.funcMask = false) :
    ∃ t : State, exec .d0Entry s = .next t ∧ t.cxl.d3hot = false ∧ (∀ v, v ∈ t.cxl.pendBits → v < 64 → v ∈ s.cxl.masked) ∧
      t.out = s.out ++ ((List.range 64).filter (fun v => s.cxl.pendBits.contains v && !s.cxl.masked.contains v)).map .msix ∧ t.mem = s.mem := by
  refine ⟨_, (exec_d0Entry s).trans (congrArg _ (State.sendPending_of_open hup rfl hfunc)), rfl, fun v hv hlt => ?_, rfl, rfl⟩
  obtain ⟨hpend, hstay⟩ := List.mem_filter.1 hv
  by_contra hmask
  have hgo : v ∈ s.cxl.unmasked := List.mem_filter.2 ⟨List.mem_range.2 hlt, by simp [hpend, hmask]⟩
  simp only [Bool.not_eq_true', List.contains_eq_mem, decide_eq_false_iff_not] at hstay
  exact hstay hgo

/-- R443: the state with a vector unmasked. -/
def State.unmask (s : State) (v : Nat) : State := { s with cxl := { s.cxl with masked := s.cxl.masked.filter (· ≠ v) } }

theorem exec_msixVectorUnmask {v : Nat} (hv : v < 64) (s : State) : exec (.msixVectorUnmask v false) s = .next (s.unmask v).sendPending := by
  have he : exec (.msixVectorUnmask v false) s = execMsixVectorUnmask v false s := by rfl
  simp [he, execMsixVectorUnmask, vectorOk, hv, State.unmask]

theorem filter_range_eq {v n : Nat} (hv : v < n) : (List.range n).filter (fun x => x == v) = [v] := by
  rw [List.filter_beq, List.count_eq_one_of_mem List.nodup_range (List.mem_range.2 hv)]
  rfl

theorem msixVectorUnmask_sends {v : Nat} {s : State} (hv : v < 64) (hup : s.cxl.linkUp = true) (hfunc : s.cxl.funcMask = false)
    (hd0 : s.cxl.d3hot = false) (hpend : s.cxl.pendBits = [v]) :
    ∃ t : State, exec (.msixVectorUnmask v false) s = .next t ∧ t.out = s.out ++ [.msix v] ∧ t.cxl.pendBits = [] ∧ v ∉ t.cxl.masked ∧ t.mem = s.mem := by
  have hone : (s.unmask v).cxl.unmasked = [v] := by
    rw [← filter_range_eq hv]
    refine List.filter_congr fun x _ => ?_
    by_cases hx : x = v <;> simp [State.unmask, hpend, hx]
  have hstay : (s.unmask v).cxl.pendBits.filter (fun x => !(s.unmask v).cxl.unmasked.contains x) = [] := by
    rw [hone]
    simp [State.unmask, hpend]
  refine ⟨_, (exec_msixVectorUnmask hv s).trans (congrArg _ (State.sendPending_of_open hup hd0 hfunc)), ?_, hstay, by simp [State.unmask], rfl⟩
  rw [hone]
  rfl

/-- R325: the next coalescing interval of a vector. -/
def State.intervalOpened (s : State) (v : Nat) : State := { s with serve := { s.serve with coalesce := kput v (s.epoch, false) s.serve.coalesce } }

theorem coalesceExpiry_ends {v : Nat} (hv : vectorOk v = true) (s : State) :
    (kfind v s.serve.coalesce = none → exec (.coalesceExpiry v) s = .next s) ∧
    (∀ m, kfind v s.serve.coalesce = some (m, false) → ∃ t : State, exec (.coalesceExpiry v) s = .next t ∧ kfind v t.serve.coalesce = none ∧ t.out = s.out ∧
      t.mem = s.mem) ∧
    (∀ m, kfind v s.serve.coalesce = some (m, true) → s.cxl.waiting = [] → s.cxl.linkUp = true → s.cxl.d3hot = false → s.cxl.funcMask = false →
      s.cxl.masked.contains v = false →
      ∃ t : State, exec (.coalesceExpiry v) s = .next t ∧ kfind v t.serve.coalesce = some (s.epoch, false) ∧ t.out = s.out ++ [.msix v] ∧ t.mem = s.mem) := by
  rw [exec_coalesceExpiry, execCoalesceExpiry, if_neg (by simp [hv])]
  refine ⟨fun h => by simp only [h], fun m h => ?_, fun m h hwait hup hd0 hfunc hmask => ?_⟩
  · simp only [h]
    exact ⟨_, rfl, kfind_kdel_self v _, rfl, rfl⟩
  · have hsent : (s.intervalOpened v).hostActs [.signal v] = (s.intervalOpened v).emit (.msix v) :=
      (State.hostActs_signal (s := s.intervalOpened v) hwait v).trans (State.signal_of_open hup hd0 hfunc hmask)
    simp only [h]
    exact ⟨_, congrArg _ hsent, kfind_kput_self v _ _, rfl, rfl⟩

/-! ### The statement -/

/-- Settles O44, command by command: the link, the decoder, the losses of the link, the two resets, the power states, the vectors and the coalescing interval. -/
theorem linkResetsAndInterrupts : Obligations.LinkResetsAndInterrupts := by
  refine ⟨fun rate width s hlive htest hdown honly => ⟨fun hrate => ⟨_, cxlLinkUp_of_flit hlive htest hdown honly rate width hrate, rfl, rfl, rfl, rfl⟩,
      cxlLinkUp_of_pcie hlive htest hdown honly rate width⟩,
    fun base size ways s hup => ⟨fun hbase hsize hrange hways => ⟨_, hdmDecoderCommit_commits hup ⟨hbase, hsize, hrange, hways⟩, rfl, ?_, ?_, ?_, rfl⟩,
      hdmDecoderCommit_refuses hup⟩,
    fun s hup hdescs hwait hlanded hready => cxlLinkDown_of_idle hup hdescs hwait hlanded hready,
    fun s hdown => ⟨by rw [exec_cxlLinkDown, State.linkLost_of_down hdown], by simp only [exec_perst, State.linkLost_of_down hdown, ite_self]⟩,
    fun s => exec_perst true s, flr_resets,
    fun clear s hup hsteps hstreams hwait hdescs hlanded hready => cxlReset_resets clear hup hsteps hstreams hwait hlanded hready,
    fun s hup => by rw [exec_d3hotEntry, execD3hotEntry, if_pos hup], fun v s hup h => State.signal_of_masked hup h,
    fun s hup hfunc => d0Entry_sends hup hfunc, fun v s hv hup hfunc hd0 hpend => msixVectorUnmask_sends hv hup hfunc hd0 hpend,
    fun v s hv => coalesceExpiry_ends hv s⟩
  · show (s.decoded base size).odGet Od.hdmCommitted = 1
    rw [State.decoded, State.odGet_odPut_ne _ (by decide), State.odGet_odPut_ne _ (by decide), State.odGet_odPut_self]
  · show (s.decoded base size).odGet Od.hdmHpaBase = _
    rw [State.decoded, State.odGet_odPut_ne _ (by decide), State.odGet_odPut_self]
  · exact State.odGet_odPut_self ..

end Sys2Proof.Machine
end

section
/-!
SUPPORT. Records of telemetry as the Foyer takes them (R455 to R458, R462 to R466) and as they leave it again (R468); what stands in the ring of their cell (R467).
-/

set_option Elab.async false

namespace Sys2Proof.Machine

/-! ### Cells and buckets (R460, R464) -/

theorem State.entry_of_cellAt {s : State} {e : Nat} {c : CellSt} (h : s.cellAt e = some c) : c.rec_.entry = e := by
  simpa using List.find?_some h

/-- The cell of an entry after it is changed, where the change keeps its record. -/
theorem State.cellAt_modCell {s : State} {e : Nat} {c : CellSt} (h : s.cellAt e = some c) {g : CellSt → CellSt} (hg : ∀ x, (g x).rec_ = x.rec_) :
    (s.modCell e g).cellAt e = some (g c) := by
  have hfind := find_modFirst (fun x : CellSt => x.rec_.entry == e) g (fun x hx => by rw [hg]; exact hx) s.foyer.cells
  exact hfind.trans (congrArg (Option.map g) h)

theorem filter_map_modFirst {α β : Type} {p q : α → Bool} {f : α → α} {g : α → β} (hq : ∀ x, q (f x) = q x) (hg : ∀ x, g (f x) = g x) (l : List α) :
    ((modFirst p f l).filter q).map g = (l.filter q).map g := by
  induction l with
  | nil => rfl
  | cons x t ih =>
    simp only [modFirst]
    split
    · simp only [List.filter_cons, hq]
      split <;> simp only [List.map_cons, hg]
    · simp only [List.filter_cons]
      split <;> simp only [List.map_cons, ih]

/-- R464: the aggregate bucket depends on no more of the cells than which are bound and their records. -/
theorem State.aggRefill_modCell (s : State) (e : Nat) {g : CellSt → CellSt} (hstate : ∀ x, (g x).state = x.state) (hrec : ∀ x, (g x).rec_ = x.rec_) :
    (s.modCell e g).aggRefill.foyer.agg = s.aggRefill.foyer.agg := by
  have hrates : ((s.modCell e g).foyer.cells.filter (fun c => c.state == 1)).map (·.rec_.rate) =
      (s.foyer.cells.filter (fun c => c.state == 1)).map (·.rec_.rate) :=
    filter_map_modFirst (fun x => by rw [hstate]) (fun x => by rw [hrec]) s.foyer.cells
  have hnone := congrArg List.isEmpty hrates
  simp only [List.isEmpty_map] at hnone
  simp only [State.aggRefill, hrates, hnone]
  rfl

/-! ### One record (R458, R462, R465) -/

section
variable {s : State} {r : Bytes} (hok : recordOk r = true) (port arrival : Nat)
include hok

theorem State.takeRecord_of_unknown (h : s.foyer.view.find? (fun v => v.1.cellId == beField r 0 8) = none) :
    s.takeRecord r port arrival = (s.count Od.recordsUnknown 1).logLimited { code := 0x6011 } 0 oneSec := by
  rw [State.takeRecord, if_neg (by simp [hok]), h]

variable {v : CellRec} {st : Nat} (hview : s.foyer.view.find? (fun v => v.1.cellId == beField r 0 8) = some (v, st))
include hview

theorem State.takeRecord_of_unbound (h : s.mode ≠ .run ∨ st ≠ 1 ∨ ∀ c, s.cellAt v.entry = some c → c.state ≠ 1) :
    s.takeRecord r port arrival = s.count Od.recordsNotBound 1 := by
  rw [State.takeRecord, if_neg (by simp [hok]), hview]
  simp only
  cases hc : s.cellAt v.entry with
  | none => rfl
  | some c => exact if_pos (h.imp_right (Or.imp_right fun hnot => hnot c hc))

variable {c : CellSt} (hmode : s.mode = .run) (hst : st = 1) (hcell : s.cellAt v.entry = some c) (hbound : c.state = 1)
include hmode hst hcell hbound

/-- R465: a CELL_SEQ that does not follow the last accepted one. -/
theorem State.takeRecord_of_stale {l : Nat} (hl : c.last = some l)
    (hstale : ¬ (1 ≤ (beField r 16 2 + 65536 - l) % 65536 ∧ (beField r 16 2 + 65536 - l) % 65536 ≤ 32767)) :
    s.takeRecord r port arrival = (s.count Od.recordsStale 1).modCell v.entry (fun c => { c with stale := c.stale + 1 }) := by
  have hfresh : (decide (1 ≤ (beField r 16 2 + 65536 - l) % 65536) && decide ((beField r 16 2 + 65536 - l) % 65536 ≤ 32767)) = false := by
    simpa only [Bool.and_eq_false_iff, decide_eq_false_iff_not, ← not_and_or] using hstale
  rw [State.takeRecord, if_neg (by simp [hok]), hview]
  simp only [hcell]
  rw [if_neg (by simp [hmode, hst, hbound]), hl, Option.map_some, hfresh]
  rfl

theorem State.takeRecord_of_fresh
    (hfresh : ∀ l, c.last = some l → 1 ≤ (beField r 16 2 + 65536 - l) % 65536 ∧ (beField r 16 2 + 65536 - l) % 65536 ≤ 32767) :
    s.takeRecord r port arrival = (s.modCell v.entry (fun c => { c with last := some (beField r 16 2) })).policeRecord c r port arrival := by
  rw [State.takeRecord, if_neg (by simp [hok]), hview]
  simp only [hcell]
  rw [if_neg (by simp [hmode, hst, hbound])]
  cases hl : c.last with
  | none => rfl
  | some l => simp [hfresh l hl]

end

/-! ### The buckets (R464, R466) -/

/-- R464: the state in which the buckets are looked at: the CELL_SEQ accepted, both buckets as they stand now. -/
def State.looked (s : State) (e seq : Nat) : State := (s.modCell e (fun c => { c with last := some seq })).refill e

/-- R464: a cell one record of which, worth `unit`, has passed. -/
def CellSt.paid (unit : Nat) (c : CellSt) : CellSt := { c with bucket := c.bucket - unit, passed := c.passed + 1 }

/-- R464: the aggregate bucket that has paid for a record worth `unit`. -/
def State.payAggregate (s : State) (unit : Nat) : State := { s with foyer := { s.foyer with agg := s.foyer.agg - unit } }

/-- R464: the state with one record taken out of both buckets. -/
def State.passed (s : State) (e seq : Nat) : State := ((s.looked e seq).payAggregate bucketUnit).modCell e (CellSt.paid bucketUnit)

theorem State.looked_agg (s : State) (e seq : Nat) : (s.looked e seq).foyer.agg = s.aggRefill.foyer.agg :=
  s.aggRefill_modCell e (fun _ => rfl) (fun _ => rfl)

theorem State.looked_cell {s : State} {e : Nat} {c : CellSt} (hcell : s.cellAt e = some c) (seq : Nat) : (s.looked e seq).cellAt e =
    some { c with last := some seq, bucket := bucketNow c.bucket c.filled c.rec_.rate c.rec_.burst s.epoch, filled := s.epoch } :=
  State.cellAt_modCell (s := (s.modCell e (fun c => { c with last := some seq })).aggRefill)
    (State.cellAt_modCell hcell (g := fun c => { c with last := some seq }) (fun _ => rfl)) (fun _ => rfl)

section
variable {s : State} {e seq : Nat} {x : CellSt} (hlooked : (s.looked e seq).cellAt e = some x)
include hlooked

theorem State.passed_cell : (s.passed e seq).cellAt e = some (x.paid bucketUnit) := by
  have hpaid : ∀ unit, (((s.looked e seq).payAggregate unit).modCell e (CellSt.paid unit)).cellAt e = some (x.paid unit) := fun unit =>
    State.cellAt_modCell (s := (s.looked e seq).payAggregate unit) hlooked (fun _ => rfl)
  exact hpaid bucketUnit

variable {c : CellSt} (he : c.rec_.entry = e) (r : Bytes) (port arrival : Nat)
include he

theorem State.policeRecord_of_empty (h : x.bucket < bucketUnit ∨ s.aggRefill.foyer.agg < bucketUnit) :
    (s.modCell e (fun c => { c with last := some seq })).policeRecord c r port arrival =
      (((s.looked e seq).count Od.recordsPoliced 1).modCell e (fun c => { c with policed := c.policed + 1 })).logLimited { code := 0x6010 } 0 oneSec := by
  have hlook : (s.modCell e (fun c => { c with last := some seq })).refill e = s.looked e seq := rfl
  rw [State.policeRecord, he]
  generalize bucketUnit = unit at h ⊢
  simp only [hlook, hlooked, s.looked_agg e seq, Option.map_some, Option.getD_some]
  rw [if_pos]
  simpa only [Bool.not_eq_true', Bool.and_eq_false_iff, decide_eq_false_iff_not, Nat.not_le] using h

/-- R466: a record for which both buckets have one is held, or crosses. -/
theorem State.policeRecord_of_full (hcell : bucketUnit ≤ x.bucket) (hagg : bucketUnit ≤ s.aggRefill.foyer.agg) :
    (s.modCell e (fun c => { c with last := some seq })).policeRecord c r port arrival =
      if bit (s.sw e 16) 32 || s.stepOpen e || s.crossing e then
        (if c.held.isSome then (s.passed e seq).count Od.recordsReplaced 1 else s.passed e seq).modCell e (fun c => { c with held := some (r, arrival, port) })
      else (s.passed e seq).balSend 0x01 (leBytes 2 e ++ leBytes 1 port ++ zeros 5 ++ leBytes 8 arrival ++ r) := by
  have hlook : (s.modCell e (fun c => { c with last := some seq })).refill e = s.looked e seq := rfl
  rw [State.policeRecord, he, State.passed]
  generalize bucketUnit = unit at hcell hagg ⊢
  have hpay : (!(decide (unit ≤ x.bucket) && decide (unit ≤ s.aggRefill.foyer.agg))) = false := by simp [hcell, hagg]
  simp only [hlook, hlooked, s.looked_agg e seq, Option.map_some, Option.getD_some, hpay, Bool.false_eq_true, if_false]
  rw [← s.looked_agg e seq]
  rfl

end

/-! ### A datagram (R455, R456, R458) -/

theorem exec_telemetryDatagram {d : Datagram} (hport : d.port < 3) (at_ : Nat) (s : State) : exec (.telemetryDatagram d at_) s =
    if !s.foyerRuns || d.port == 2 || !s.portServes d.port || d.dstPort != s.fval Od.telemetryPort || d.fragment then .next s
    else if !s.sourceOk d.srcAddr then .next (s.count Od.sourceDrops 1)
    else if !telemetryOk d.payload then
      .next ((s.count Od.recordsFormat (max 1 ((d.payload.length - 16) / 128))).logMany { code := 0x6012 } 0 oneSec (max 1 ((d.payload.length - 16) / 128)))
    else .next ((pieces 128 (beField d.payload 4 1) (d.payload.drop 16)).foldl (fun s r => s.takeRecord r d.port at_) s) := by
  have he : exec (.telemetryDatagram d at_) s = execTelemetryDatagram d at_ s := by rfl
  rw [he, execTelemetryDatagram, if_neg (by simp [portOk, hport])]

theorem State.logMany_foyer (s : State) (ev : LogEv) (subject interval n : Nat) : (s.logMany ev subject interval n).foyer = s.foyer := by
  unfold State.logMany
  split
  · rfl
  · exact (s.logLimited_frame ev subject interval).foyer

theorem State.logLimited_odFrame (s : State) (ev : LogEv) (subject interval : Nat) : OdFrame logEntries s (s.logLimited ev subject interval) := by
  unfold State.logLimited
  split
  · exact .of_od _ rfl
  · exact (s.logEv_odFrame ev 0).step (.of_od _ rfl)

theorem State.logMany_odFrame (s : State) (ev : LogEv) (subject interval n : Nat) : OdFrame logEntries s (s.logMany ev subject interval n) := by
  unfold State.logMany
  split
  · exact .refl _ s
  · exact (s.logLimited_odFrame ev subject interval).step (.of_od _ rfl)

/-- R456: a datagram whose header agrees with one record carries that record. -/
theorem pieces_of_one {b : Bytes} (hok : telemetryOk b = true) (hone : beField b 4 1 = 1) :
    (b.drop 16).length = 128 ∧ pieces 128 (beField b 4 1) (b.drop 16) = [b.drop 16] := by
  have hlen : b.length = 16 + 128 := by
    simp only [telemetryOk, hone, Bool.and_eq_true, beq_iff_eq, decide_eq_true_eq] at hok
    exact hok.1.2
  have hdrop : (b.drop 16).length = 128 := by rw [List.length_drop, hlen]
  exact ⟨hdrop, by rw [hone, pieces, pieces, List.take_of_length_le hdrop.le]⟩

section
variable {d : Datagram} {at_ : Nat} {s : State}

theorem telemetryDatagram_unheard (hport : d.port < 3)
    (h : s.foyerRuns = false ∨ d.port = 2 ∨ s.portServes d.port = false ∨ d.dstPort ≠ s.fval Od.telemetryPort ∨ d.fragment = true) :
    exec (.telemetryDatagram d at_) s = .next s := by
  rw [exec_telemetryDatagram hport, if_pos]
  simpa only [Bool.or_eq_true, Bool.not_eq_true', beq_iff_eq, bne_iff_ne, or_assoc] using h

variable (hruns : s.foyerRuns = true) (hport : d.port < 2) (hserves : s.portServes d.port = true) (hdst : d.dstPort = s.fval Od.telemetryPort)
  (hwhole : d.fragment = false)
include hruns hport hserves hdst hwhole

/-- R455: a datagram that the Foyer takes. -/
theorem exec_telemetryDatagram_heard : exec (.telemetryDatagram d at_) s =
    if !s.sourceOk d.srcAddr then .next (s.count Od.sourceDrops 1)
    else if !telemetryOk d.payload then
      .next ((s.count Od.recordsFormat (max 1 ((d.payload.length - 16) / 128))).logMany { code := 0x6012 } 0 oneSec (max 1 ((d.payload.length - 16) / 128)))
    else .next ((pieces 128 (beField d.payload 4 1) (d.payload.drop 16)).foldl (fun s r => s.takeRecord r d.port at_) s) := by
  rw [exec_telemetryDatagram (by omega), if_neg]
  simp [hruns, hserves, hdst, hwhole, Nat.ne_of_lt hport]

theorem telemetryDatagram_foreign (hsource : s.sourceOk d.srcAddr = false) :
    exec (.telemetryDatagram d at_) s = .next (s.count Od.sourceDrops 1) := by
  rw [exec_telemetryDatagram_heard hruns hport hserves hdst hwhole, if_pos (by simp [hsource])]

variable (hsource : s.sourceOk d.srcAddr = true)
include hsource

theorem telemetryDatagram_malformed (hbad : telemetryOk d.payload = false) : ∃ t : State, exec (.telemetryDatagram d at_) s = .next t ∧ t.foyer = s.foyer ∧
    t.odGet Od.recordsFormat = (s.odGet Od.recordsFormat + max 1 ((d.payload.length - 16) / 128)) % odModulus Od.recordsFormat := by
  have hexec := exec_telemetryDatagram_heard (at_ := at_) hruns hport hserves hdst hwhole
  rw [if_neg (by simp [hsource]), if_pos (by simp [hbad])] at hexec
  exact ⟨_, hexec, State.logMany_foyer .., ((State.logMany_odFrame ..).same _ (by decide)).trans (State.odGet_count_self ..)⟩

/-- R456: a datagram with one record is that record, as it is taken. -/
theorem exec_telemetryDatagram_one (hok : telemetryOk d.payload = true) (hone : beField d.payload 4 1 = 1) :
    exec (.telemetryDatagram d at_) s = .next (s.takeRecord (d.payload.drop 16) d.port at_) := by
  rw [exec_telemetryDatagram_heard hruns hport hserves hdst hwhole, if_neg (by simp [hsource]), if_neg (by simp [hok]), (pieces_of_one hok hone).2]
  rfl

end

/-! ### What becomes of a record (R462 to R466) -/

theorem State.cellAt_of_foyer {s t : State} (h : t.foyer = s.foyer) (e : Nat) : t.cellAt e = s.cellAt e := by rw [State.cellAt, State.cellAt, h]

/-- R470: a record for which the data channel has room leaves on it. -/
theorem State.balSend_of_data {s : State} (hroom : s.foyer.dataIn.length < 1024) (body : Bytes) : s.balSend 0x01 body =
    ({ s with foyer := { s.foyer with txSeq := kset 0 0 ((kget 0 0 s.foyer.txSeq + 1) % 2 ^ 32) s.foyer.txSeq,
                                      dataIn := s.foyer.dataIn ++ [balMsg 0x01 (kget 0 0 s.foyer.txSeq) body] } } : State).emit
      (.bal false 1 (kget 0 0 s.foyer.txSeq) body) := by
  have hkey : balKey 0x01 = some 0 := rfl
  unfold State.balSend
  simp only [hkey, true_and, if_neg (Nat.not_le.2 hroom)]
  rfl

section
variable {s : State} {e seq : Nat} {x : CellSt} (hlooked : (s.looked e seq).cellAt e = some x)

theorem State.looked_channel (s : State) (e seq : Nat) : (s.looked e seq).foyer.dataIn = s.foyer.dataIn ∧
    (s.looked e seq).foyer.txSeq = s.foyer.txSeq ∧ (s.looked e seq).out = s.out := ⟨rfl, rfl, rfl⟩

theorem State.passed_channel (s : State) (e seq : Nat) : (s.passed e seq).foyer.dataIn = s.foyer.dataIn ∧ (s.passed e seq).foyer.txSeq = s.foyer.txSeq ∧
    (s.passed e seq).out = s.out := by
  rw [State.passed, ← (s.looked_channel e seq).1, ← (s.looked_channel e seq).2.1, ← (s.looked_channel e seq).2.2]
  generalize s.looked e seq = t
  generalize bucketUnit = unit
  exact ⟨rfl, rfl, rfl⟩

theorem State.passed_agg (s : State) (e seq : Nat) : (s.passed e seq).foyer.agg = s.aggRefill.foyer.agg - bucketUnit := by
  have hpaid : ∀ unit, (((s.looked e seq).payAggregate unit).modCell e (CellSt.paid unit)).foyer.agg = s.aggRefill.foyer.agg - unit := fun unit =>
    congrArg (· - unit) (s.looked_agg e seq)
  exact hpaid bucketUnit

include hlooked
variable {c : CellSt} (he : c.rec_.entry = e) (r : Bytes) (port at_ : Nat)
include he

theorem State.policeRecord_polices (h : x.bucket < bucketUnit ∨ s.aggRefill.foyer.agg < bucketUnit) :
    ((s.modCell e (fun c => { c with last := some seq })).policeRecord c r port at_).cellAt e = some { x with policed := x.policed + 1 } ∧
    ((s.modCell e (fun c => { c with last := some seq })).policeRecord c r port at_).odGet Od.recordsPoliced =
      (s.odGet Od.recordsPoliced + 1) % odModulus Od.recordsPoliced := by
  rw [State.policeRecord_of_empty hlooked he r port at_ h]
  refine ⟨(State.cellAt_of_foyer (State.logLimited_frame ..).foyer e).trans (State.cellAt_modCell (s := (s.looked e seq).count Od.recordsPoliced 1) hlooked (fun _ => rfl)),
    ((State.logLimited_odFrame ..).same _ (by decide)).trans (State.odGet_count_self (s.looked e seq) Od.recordsPoliced 1)⟩

variable (hcell : bucketUnit ≤ x.bucket) (hagg : bucketUnit ≤ s.aggRefill.foyer.agg)
include hcell hagg

theorem State.policeRecord_crosses (hready : bit (s.sw e 16) 32 = false) (hopen : s.stepOpen e = false) (hcross : s.crossing e = false)
    (hroom : s.foyer.dataIn.length < 1024) :
    ((s.modCell e (fun c => { c with last := some seq })).policeRecord c r port at_).cellAt e = some (x.paid bucketUnit) ∧
    ((s.modCell e (fun c => { c with last := some seq })).policeRecord c r port at_).foyer.agg = s.aggRefill.foyer.agg - bucketUnit ∧
    ((s.modCell e (fun c => { c with last := some seq })).policeRecord c r port at_).out =
      s.out ++ [.bal false 1 (kget 0 0 s.foyer.txSeq) (leBytes 2 e ++ leBytes 1 port ++ zeros 5 ++ leBytes 8 at_ ++ r)] := by
  have hpassed := State.passed_cell hlooked
  have hpaid := s.passed_agg e seq
  obtain ⟨hdata, hseq, hout⟩ := s.passed_channel e seq
  rw [State.policeRecord_of_full hlooked he r port at_ hcell hagg, if_neg (by simp [hready, hopen, hcross])]
  generalize s.passed e seq = p at hpassed hpaid hdata hseq hout ⊢
  rw [State.balSend_of_data (by rw [hdata]; exact hroom), hseq, ← hout]
  exact ⟨hpassed, hpaid, rfl⟩

theorem State.policeRecord_holds (hbusy : bit (s.sw e 16) 32 = true ∨ s.stepOpen e = true ∨ s.crossing e = true) :
    ((s.modCell e (fun c => { c with last := some seq })).policeRecord c r port at_).out = s.out ∧
    ((s.modCell e (fun c => { c with last := some seq })).policeRecord c r port at_).cellAt e =
      some { x.paid bucketUnit with held := some (r, at_, port) } := by
  have hpassed := State.passed_cell hlooked
  obtain ⟨-, -, hout⟩ := s.passed_channel e seq
  rw [State.policeRecord_of_full hlooked he r port at_ hcell hagg, if_pos (by simpa only [Bool.or_eq_true, or_assoc] using hbusy)]
  generalize s.passed e seq = p at hpassed hout ⊢
  generalize x.paid bucketUnit = y at hpassed ⊢
  split
  · exact ⟨hout, State.cellAt_modCell (s := p.count Od.recordsReplaced 1) hpassed (fun _ => rfl)⟩
  · exact ⟨hout, State.cellAt_modCell hpassed (fun _ => rfl)⟩

end

/-! ### RECOMMEND (R468) -/

/-- R468: the datagram that carries a RECOMMEND. -/
def State.recommendation (s : State) (m : BalMsg) : Bytes :=
  beBytes 2 0x4654 ++ beBytes 1 1 ++ beBytes 1 2 ++ beBytes 1 1 ++ zeros 3 ++ beBytes 4 (s.fval Od.senderId) ++ beBytes 4 (s.odGet Od.recommendsOut) ++
    m.body.drop 8

theorem Taken.portServes {s u : State} (h : Taken s u) (p : Nat) : u.portServes p = s.portServes p := by
  rw [h.rest]
  rfl

section
variable {m : BalMsg} {s u : State} (h : s.balTake 0x81 m = (true, u))
include h

theorem exec_recommend : exec (.recommend m) s = if !u.foyerRuns then .next u else
    match u.foyer.view.find? (fun v => v.1.cellId == beField (m.body.drop 8) 0 8) with
    | none => .next u
    | some (v, _) =>
      if !(u.portServes (leField m.body 0 1) && decide (leField m.body 0 1 < 2)) && !u.portServes (1 - leField m.body 0 1) then
        .next (u.count Od.recommendDrops 1)
      else .next ((u.count Od.recommendsOut 1).emit (.datagram
        (if u.portServes (leField m.body 0 1) && decide (leField m.body 0 1 < 2) then leField m.body 0 1 else 1 - leField m.body 0 1)
        v.reply v.replyPort (u.recommendation m))) := by
  have he : exec (.recommend m) s = execRecommend m s := by rfl
  rw [he, execRecommend, h]
  simp only [Bool.not_true, Bool.false_or]
  rfl

theorem recommend_unsent (hno : s.foyerRuns = false ∨ s.foyer.view.find? (fun v => v.1.cellId == beField (m.body.drop 8) 0 8) = none) :
    exec (.recommend m) s = .next u := by
  have ht := State.balTake_taken h
  rw [exec_recommend h, ht.foyerRuns, ht.kept.view]
  rcases hno with hstop | hnone
  · rw [if_pos (by simp [hstop])]
  · rw [hnone]
    exact ite_self _

variable {v : CellRec} {st : Nat} (hruns : s.foyerRuns = true)
  (hview : s.foyer.view.find? (fun v => v.1.cellId == beField (m.body.drop 8) 0 8) = some (v, st))
include hruns hview

theorem recommend_leaves (hport : leField m.body 0 1 < 2) (hserves : s.portServes (leField m.body 0 1) = true) :
    exec (.recommend m) s = .next ((u.count Od.recommendsOut 1).emit (.datagram (leField m.body 0 1) v.reply v.replyPort (s.recommendation m))) := by
  have ht := State.balTake_taken h
  have hbytes : u.recommendation m = s.recommendation m := by rw [State.recommendation, State.recommendation, ht.fval, ht.odGet]
  rw [exec_recommend h, ht.foyerRuns, ht.kept.view, hbytes]
  simp [hruns, hview, ht.portServes, hserves, hport]

theorem recommend_dropped (hserves : s.portServes (leField m.body 0 1) = false) (hother : s.portServes (1 - leField m.body 0 1) = false) :
    exec (.recommend m) s = .next (u.count Od.recommendDrops 1) := by
  have ht := State.balTake_taken h
  rw [exec_recommend h, ht.foyerRuns, ht.kept.view]
  simp [hruns, hview, ht.portServes, hserves, hother]

end

end Sys2Proof.Machine
end

section
/-!
SUPPORT. What the opening of a step, and all that it may start (R330 to R345, R521, R530), leaves of the entry of a field stream: its words; and the count of records
that the field gate has taken. One lemma for each function, in the order of the model, in the manner of the layer of what is kept.
-/

set_option Elab.async false

namespace Sys2Proof.Machine

/-! ### What is left -/

/-- Two states agree in the words of an entry and in the count of records taken. -/
structure EntryFrame (e : Nat) (s t : State) : Prop where
  words : (t.stream e).words = (s.stream e).words
  taken : t.odGet Od.recordsIn = s.odGet Od.recordsIn

variable {e i : Nat} {r s t : State}

theorem EntryFrame.refl (e : Nat) (s : State) : EntryFrame e s s := ⟨rfl, rfl⟩

theorem EntryFrame.step (h : EntryFrame e r s) (h' : EntryFrame e s t) : EntryFrame e r t := ⟨h'.words.trans h.words, h'.taken.trans h.taken⟩

theorem EntryFrame.sw (h : EntryFrame e s t) (k : Nat) : t.sw e k = s.sw e k := congrArg (kget 0 k) h.words

theorem EntryFrame.sState (h : EntryFrame e s t) : t.sState e = s.sState e := congrArg (fun w => bits w 7 0) (h.sw 0)

/-- An update of other parts of the state. -/
theorem EntryFrame.same (h : EntryFrame e r s) (hs : t.serve.streams = s.serve.streams := by rfl) (ho : t.od.vals = s.od.vals := by rfl) :
    EntryFrame e r t := h.step ⟨by rw [State.stream, hs]; rfl, by rw [State.odGet, ho]; rfl⟩

theorem EntryFrame.ite {c : Prop} [Decidable c] (hs : EntryFrame e r s) (ht : EntryFrame e r t) : EntryFrame e r (if c then s else t) := by
  split <;> assumption

theorem EntryFrame.foldl {α : Type} {l : List α} {f : State → α → State} (h : EntryFrame e r s) (hf : ∀ u x, EntryFrame e r u → EntryFrame e r (f u x)) :
    EntryFrame e r (l.foldl f s) := foldl_keeps (EntryFrame e r) f hf l h

theorem EntryFrame.put (h : EntryFrame e r s) {k v : Nat} (hk : Od.recordsIn ≠ k := by decide) : EntryFrame e r (s.odPut k v) :=
  h.step ⟨rfl, s.odGet_odPut_ne hk v⟩

theorem EntryFrame.tally (h : EntryFrame e r s) {k n : Nat} (hk : Od.recordsIn ≠ k := by decide) : EntryFrame e r (s.count k n) := h.put hk

/-- What a record or an answer touches is not the entry. -/
theorem EntryFrame.answered (h : EntryFrame e r s) (ha : AnswerFrame s t) : EntryFrame e r t :=
  h.step ⟨by rw [State.stream, ha.serve]; rfl, ha.entries _ (by decide)⟩

/-- A change of a stream's record that keeps its words. -/
theorem EntryFrame.modStream (h : EntryFrame e r s) {f : StreamRec → StreamRec} (hf : ∀ x, (f x).words = x.words) : EntryFrame e r (s.modStream i f) := by
  refine h.step ⟨?_, rfl⟩
  by_cases he : e = i
  · subst he
    rw [State.stream_modStream_self, hf]
  · exact congrArg StreamRec.words (s.stream_setStream_ne he _)

/-- A write into another entry. -/
theorem EntryFrame.putSw (h : EntryFrame e r s) (hi : i ≠ e) {k v : Nat} : EntryFrame e r (s.putSw i k v) :=
  h.step ⟨congrArg StreamRec.words (s.stream_setStream_ne hi.symm _), rfl⟩

/-! ### Records, answers and frames (Machine/Ops.lean, Machine/ArcadeOps.lean, Machine/Answers.lean) -/

theorem EntryFrame.signal (h : EntryFrame e r s) {v : Nat} : EntryFrame e r (s.signal v) :=
  h.same (congrArg ServeSt.streams (s.signal_frame v).serve) (congrArg OdSt.vals (s.signal_od v))

theorem EntryFrame.record (h : EntryFrame e r s) {ev extra count time ep q} : EntryFrame e r (s.record ev extra count time ep q) :=
  h.answered ((s.record_frame ..).answer ((s.record_odFrame ..).mono (List.subset_cons_self ..)))

theorem EntryFrame.logEv (h : EntryFrame e r s) {ev extra} : EntryFrame e r (s.logEv ev extra) :=
  h.answered ((s.logEv_frame ev extra).answer ((s.logEv_odFrame ev extra).mono (List.subset_cons_self ..)))

theorem EntryFrame.sendFrame (h : EntryFrame e r s) {f} : EntryFrame e r (s.sendFrame f) := h.answered (s.sendFrame_answerFrame f)

theorem EntryFrame.answerReady (h : EntryFrame e r s) : EntryFrame e r s.answerReady := by
  unfold State.answerReady
  exact h.same.foldl fun u x hu => hu.answered (u.respond_answerFrame ..)

theorem EntryFrame.setMode (h : EntryFrame e r s) {m} : EntryFrame e r (s.setMode m) := by
  have hset : EntryFrame e r (s.modeSet m) := by
    unfold State.modeSet
    exact h.same.put
  exact hset.answered (s.setMode_answerFrame m)

/-! ### Device memory and entries (Machine/Memory.lean, Machine/Streams.lean) -/

theorem EntryFrame.memWrite (h : EntryFrame e r s) {a data poison} : EntryFrame e r (s.memWrite a data poison) := by
  unfold State.memWrite
  exact .ite h <| .ite h.tally h.same

theorem EntryFrame.backInvalidate (h : EntryFrame e r s) {l} : EntryFrame e r (s.backInvalidate l) := by
  unfold State.backInvalidate
  exact .ite h (EntryFrame.tally (h.same))

theorem EntryFrame.drainHost {n} (h : EntryFrame e r s) : EntryFrame e r (drainHost n s) := by
  induction n generalizing s with
  | zero => exact h
  | succ n ih =>
    unfold Machine.drainHost
    split
    · exact h
    · exact ih h.same.signal
    · exact .ite (ih h.same) <| .ite (ih h.same) <| by split; exacts [h, h.backInvalidate]
    · exact ih h.same
    · exact ih h.same
    · split
      · exact .ite h.backInvalidate (ih h.same.memWrite)
      · exact ih h.same.memWrite

theorem EntryFrame.hostActs (h : EntryFrame e r s) {acts} : EntryFrame e r (s.hostActs acts) := by
  unfold State.hostActs
  exact h.same.drainHost

theorem EntryFrame.devWrite (h : EntryFrame e r s) {a d poison} : EntryFrame e r (s.devWrite a d poison) := h.hostActs

theorem EntryFrame.abandonDescs (h : EntryFrame e r s) {p} : EntryFrame e r (s.abandonDescs p) := by
  unfold State.abandonDescs
  exact h.same.tally

theorem EntryFrame.moveTo (h : EntryFrame e r s) {dest addr d} : EntryFrame e r (s.moveTo dest addr d) := by
  unfold State.moveTo
  exact h.same.sendFrame

theorem EntryFrame.flushWords (h : EntryFrame e r s) {k n} : EntryFrame e r (s.flushWords i k n) := by
  have hlocal : EntryFrame e r (s.flushLocal i k n) := h.devWrite
  unfold State.flushWords
  extract_lets
  split
  · exact hlocal.moveTo
  · exact hlocal

theorem EntryFrame.coalesced (h : EntryFrame e r s) {v} : EntryFrame e r (s.coalesced v).1 := by
  unfold State.coalesced
  split
  · exact h.same
  · split
    · exact h
    · exact h.same

theorem EntryFrame.clogWrite (h : EntryFrame e r s) {tenant rec_} : EntryFrame e r (s.clogWrite tenant rec_) := by
  unfold State.clogWrite
  dsimp only
  exact h.put.coalesced.hostActs

theorem EntryFrame.notify (h : EntryFrame e r s) {commit} : EntryFrame e r (s.notify i commit) := by
  have hadd : ∀ {tenant rec_}, EntryFrame e r (s.clogAdd tenant rec_) := by
    intro tenant rec_
    unfold State.clogAdd
    exact .ite h.same.tally h.clogWrite
  unfold State.notify
  exact .ite hadd h

theorem EntryFrame.faultRec (h : EntryFrame e r s) (hi : i ≠ e) {code final origin addr confirmed logSeq} :
    EntryFrame e r (s.faultRec i code final origin addr confirmed logSeq) := by
  unfold State.faultRec
  have hkey : Od.recordsIn ≠ (if final = true then Od.faultsFinal else Od.faultsRecovered) := by split <;> decide
  exact (((((h.putSw hi).putSw hi).putSw hi).putSw hi).tally hkey).flushWords.flushWords

theorem EntryFrame.setState (h : EntryFrame e r s) (hi : i ≠ e) {st} : EntryFrame e r (s.setState i st) := by
  have hput : EntryFrame e r (((s.putSw i 0 (setBits (s.sw i 0) 7 0 st)).flushWords i 8 2).flushWords i 12 4) := (h.putSw hi).flushWords.flushWords
  unfold State.setState
  exact (EntryFrame.ite hput.flushWords hput).flushWords

theorem EntryFrame.poolFree (h : EntryFrame e r s) {hall free} : EntryFrame e r (s.poolFree hall free) := by
  unfold State.poolFree
  exact h.same

theorem EntryFrame.reserve (h : EntryFrame e r s) {hall model n draft m x} (hx : s.reserve hall model n draft m = some x) : EntryFrame e r x.2.2 := by
  unfold State.reserve at hx
  split at hx
  · cases hx
    exact h.poolFree
  · cases hx

theorem EntryFrame.releaseCache (h : EntryFrame e r s) : EntryFrame e r (s.releaseCache i) := by
  unfold State.releaseCache
  dsimp only
  split
  · exact h
  · exact (EntryFrame.ite h.tally h).poolFree.modStream (fun _ => rfl)

theorem EntryFrame.releaseDraft (h : EntryFrame e r s) : EntryFrame e r (s.releaseDraft i) := by
  unfold State.releaseDraft
  dsimp only
  split
  · exact h
  · exact h.poolFree.modStream (fun _ => rfl)

theorem EntryFrame.leaveSteps (h : EntryFrame e r s) : EntryFrame e r (s.leaveSteps i) := by
  unfold State.leaveSteps
  exact h.same.abandonDescs

theorem EntryFrame.countWait (h : EntryFrame e r s) : EntryFrame e r (s.countWait i) := by
  unfold State.countWait
  exact .ite h.tally h

theorem EntryFrame.endStream (h : EntryFrame e r s) (hi : i ≠ e) {st} : EntryFrame e r (s.endStream i st) := by
  unfold State.endStream
  extract_lets s₁ s₂ s₃ s₄ s₅
  have h₁ : EntryFrame e r s₁ := h.leaveSteps.countWait
  have h₂ : EntryFrame e r s₂ := .ite h₁ h₁.releaseCache
  have h₃ : EntryFrame e r s₃ := h₂.modStream (fun _ => rfl)
  have h₄ : EntryFrame e r s₄ := h₃.modStream (fun _ => rfl)
  exact ((EntryFrame.ite h₄.tally h₄).setState hi).notify

theorem EntryFrame.faultStream (h : EntryFrame e r s) (hi : i ≠ e) {code origin addr confirmed logSeq} :
    EntryFrame e r (s.faultStream i code origin addr confirmed logSeq) := by
  unfold State.faultStream
  exact .ite h ((h.leaveSteps.faultRec hi).endStream hi)

theorem EntryFrame.tick (h : EntryFrame e r s) : EntryFrame e r s.tick := h.same

theorem EntryFrame.writeBack (h : EntryFrame e r s) {j} : EntryFrame e r (s.writeBack j) := by
  unfold State.writeBack
  exact h.flushWords.devWrite.tick.flushWords

theorem EntryFrame.cacheEntry (h : EntryFrame e r s) {hall} : EntryFrame e r (s.cacheEntry hall i) := by
  unfold State.cacheEntry
  extract_lets l put s₁
  have hput : ∀ {t : State} {l}, EntryFrame e r t → EntryFrame e r (put t l) := fun h => h.same
  have h₁ : EntryFrame e r s₁ := h.tally
  refine .ite (hput h) <| .ite (hput h₁) ?_
  split
  · exact h₁
  · exact hput h₁.writeBack.tally

/-! ### Safe Stop and episodes (Machine/Errors.lean) -/

/-- R291: a park that is abandoned, or a restore, changes no word. -/
theorem EntryFrame.abandonParks (h : EntryFrame e r s) : EntryFrame e r s.abandonParks := by
  unfold State.abandonParks
  extract_lets n f
  have hmap : EntryFrame e r { s with serve := { s.serve with streams := s.serve.streams.map (fun x => (x.1, f x.2)) } } := by
    refine h.step ⟨?_, rfl⟩
    have hfind : kget StreamRec.reset e (s.serve.streams.map (fun x => (x.1, f x.2))) = _ := congrArg (Option.getD · StreamRec.reset) (kfind_map f e _)
    refine (congrArg StreamRec.words hfind).trans ?_
    rw [State.stream, kget]
    cases kfind e s.serve.streams <;> rfl
  exact hmap.tally

theorem EntryFrame.allAbandoned (h : EntryFrame e r s) : EntryFrame e r s.allAbandoned := h.abandonDescs.abandonParks.same

theorem EntryFrame.portDark (h : EntryFrame e r s) : EntryFrame e r s.portDark := by
  have huncommit : ∀ {u : State}, EntryFrame e r u → EntryFrame e r u.uncommit := fun hu => hu.put.put.put
  unfold State.portDark
  exact .ite h (huncommit h.same).tally.logEv.drainHost.answerReady

theorem EntryFrame.enterSafeStop (h : EntryFrame e r s) {cause} : EntryFrame e r (s.enterSafeStop cause) := by
  unfold State.enterSafeStop
  refine .ite h ?_
  extract_lets s₁ s₂ s₃ _ s₄ s₅ _ _ s₆ _ s₇
  have h₂ : EntryFrame e r s₂ := h.logEv.put
  clear_value s₂
  have h₃ : EntryFrame e r s₃ := by
    unfold s₃
    split
    · exact .ite h₂.put <| .ite h₂.put h₂.put
    · exact h₂
  clear_value s₃
  have h₅ : EntryFrame e r s₅ := (EntryFrame.ite h₃.same h₂).allAbandoned
  clear_value s₅
  have h₆ : EntryFrame e r s₆ := h₅.same
  have h₇ : EntryFrame e r s₇ := .ite h₆.same h₆
  exact (EntryFrame.ite h₇.portDark h₇).tick.setMode

theorem EntryFrame.takeFault (h : EntryFrame e r s) {ev x model time} : EntryFrame e r (s.takeFault ev x model time) := by
  have hjoin : ∀ {y : Episode}, EntryFrame e r (s.joinEpisode y ev time) := by
    intro y
    unfold State.joinEpisode
    extract_lets s₁ up f s₂
    have h₁ : EntryFrame e r s₁ := h.record
    have h₂ : EntryFrame e r s₂ := h₁.same
    exact .ite h₂.enterSafeStop h₂
  unfold State.takeFault
  dsimp only
  split
  · exact hjoin
  · exact .ite h.record.record.enterSafeStop (EntryFrame.tally h.record.same)

theorem EntryFrame.raiseFault (h : EntryFrame e r s) {ev x model} : EntryFrame e r (s.raiseFault ev x model) := by
  unfold State.raiseFault
  exact .ite (.ite h.same h.tally) h.takeFault

/-! ### Work that starts (Machine/Jobs.lean, Machine/Offer.lean) -/

theorem EntryFrame.growTree (h : EntryFrame e r s) : EntryFrame e r (s.growTree i) := by
  have hmasks : ∀ {u : State} {j w d}, EntryFrame e r u → EntryFrame e r (u.writeMasks j w d) := fun hu => by
    unfold State.writeMasks
    exact hu.devWrite
  unfold State.growTree
  extract_lets d width vocab bad _ t kept s₁ s₂ s₃
  have h₁ : EntryFrame e r s₁ := h.modStream (fun _ => rfl)
  have h₂ : EntryFrame e r s₂ := h₁.tally
  have h₃ : EntryFrame e r s₃ := .ite h₂.tally h₂
  exact .ite h₃ (hmasks h₃).tick

theorem EntryFrame.queueInput (h : EntryFrame e r s) : EntryFrame e r (s.queueInput i) := by
  unfold State.queueInput
  extract_lets id d
  have hadd : EntryFrame e r (s.addDesc d) := h.same
  exact hadd.modStream (fun _ => rfl)

theorem EntryFrame.parkLow (h : EntryFrame e r s) {hall} : EntryFrame e r (s.parkLow hall) := by
  have hstart : ∀ {j}, EntryFrame e r (s.startPark j) := fun {j} => by
    unfold State.startPark
    exact .ite (h.modStream (fun _ => rfl)) h
  unfold State.parkLow
  dsimp only
  refine .ite h ?_
  split
  · exact hstart
  · exact h

theorem EntryFrame.rebuildCache (h : EntryFrame e r s) (hi : i ≠ e) {b} : EntryFrame e r (s.rebuildCache i b) := by
  unfold State.rebuildCache
  dsimp only
  split
  · refine .ite (h.raiseFault.faultStream hi) <| .ite h.raiseFault ?_
    exact (h.raiseFault.faultRec hi).tally.memWrite.tick
  · exact h

theorem EntryFrame.startPrompt (h : EntryFrame e r s) (hi : i ≠ e) : EntryFrame e r (s.startPrompt i) := by
  have hkept : ∀ {u : State}, EntryFrame e r u → EntryFrame e r (u.rebuildKept i) := fun {u} hu => by
    unfold State.rebuildKept
    split
    · exact hu
    · exact hu.foldl fun _ _ hv => hv.rebuildCache hi
  unfold State.startPrompt
  extract_lets s₁ draft kept lack
  have h₁ : EntryFrame e r s₁ := hkept (.ite h h.releaseDraft)
  refine .ite h₁ ?_
  split
  · exact h₁
  · next s₂ heq =>
    extract_lets t old c s₃ s₄
    have h₂ : EntryFrame e r s₂ := h₁.reserve heq
    have h₃ : EntryFrame e r s₃ := h₂.countWait.queueInput
    have h₄ : EntryFrame e r s₄ := h₃.modStream (fun _ => rfl)
    exact (h₄.setState hi).parkLow

theorem EntryFrame.landWrite (h : EntryFrame e r s) {l off data poison tenant} : EntryFrame e r (s.landWrite l off data poison tenant) := by
  unfold State.landWrite State.setLanding
  exact h.same

theorem EntryFrame.addStep (h : EntryFrame e r s) {job model streams} : EntryFrame e r (s.addStep job model streams) := by
  have hmap : ∀ {u : State} {fk p slots}, EntryFrame e r u → EntryFrame e r (u.writeMap fk p slots) := fun hu => by
    unfold State.writeMap
    refine hu.foldl fun v x hv => ?_
    split
    · exact hv
    · exact hv.landWrite
  have hmaps : ∀ {u : State}, EntryFrame e r u → EntryFrame e r (u.writeMaps job) := fun hu => by
    unfold State.writeMaps
    split
    · exact hu
    · exact hu.foldl fun _ _ hv => hmap hv
  unfold State.addStep
  extract_lets s₁ hall all ss s₂ x s₃
  have h₁ : EntryFrame e r s₁ := h.foldl fun _ _ hu => hu.cacheEntry
  have h₂ : EntryFrame e r s₂ := h₁.foldl fun _ _ hu => hu.growTree
  exact .ite h₁ (hmaps h₂.same)

/-- R330, R335: the step that opens serves the field stream or another one, and changes no word of it. -/
theorem EntryFrame.openStep (h : EntryFrame e r s) (hfield : s.sState e = stField) {job ripe} : EntryFrame e r (s.openStep job ripe) := by
  unfold State.openStep
  dsimp only
  refine .ite h ?_
  split
  · exact h
  · next i _ =>
    by_cases hsub : s.sState i = stSubmitted
    · have hi : i ≠ e := fun he => by simp [he, hfield] at hsub
      rw [if_neg (by simp [hsub]), if_pos hsub]
      exact .ite (h.startPrompt hi).addStep (h.startPrompt hi)
    · rw [if_neg hsub]
      exact .ite (.ite h.addStep h.same) h.addStep

end Sys2Proof.Machine
end

section
/-!
SUPPORT. The field gate (R326, R467, R471): what it writes of a record into the ring and into the entry of its cell; and the statement on records.
-/

set_option Elab.async false

namespace Sys2Proof.Machine

/-! ### A write that no line of the host holds up (R437) -/

theorem drainHost_writes (ls : List (Nat × Bytes)) (fuel : Nat) (s : State) (hfuel : ls.length < fuel)
    (hq : s.cxl.waiting = ls.map (fun l => .write l.1 l.2 false)) (hl : ∀ l ∈ ls, l.2 ≠ [] ∧ s.hdmLine l.1 = none ∧ s.withdrawn l.1 = false) :
    drainHost fuel s = { s with mem := s.mem.writeLines ls, cxl := { s.cxl with waiting := [] } } := by
  induction ls generalizing s fuel with
  | nil =>
    obtain ⟨fuel, rfl⟩ := Nat.exists_eq_add_one_of_ne_zero (Nat.ne_of_gt hfuel)
    unfold drainHost
    simp only [hq, List.map_nil]
    exact congrArg (fun w => ({ s with cxl := { s.cxl with waiting := w } } : State)) hq
  | cons l t ih =>
    obtain ⟨fuel, rfl⟩ := Nat.exists_eq_add_one_of_ne_zero (Nat.ne_of_gt (Nat.zero_lt_of_lt hfuel))
    obtain ⟨hne, hline, hin⟩ := hl l (List.mem_cons_self ..)
    unfold drainHost
    simp only [hq, List.map_cons, hline]
    refine (congrArg (drainHost fuel) (State.memWrite_of_present hne ?_ false)).trans
      (ih fuel _ (Nat.lt_of_succ_lt_succ hfuel) rfl (fun x hx => hl x (List.mem_cons_of_mem _ hx)))
    exact hin

section
variable {s : State} {a : Nat} {data : Bytes} (hq : s.cxl.waiting = []) (hl : ∀ i < data.length, s.hdmLine (a + i) = none ∧ s.withdrawn (a + i) = false)
include hq hl

theorem State.devWrite_lands :
    s.devWrite a data = { s with mem := s.mem.writeLines (splitLines (data.length / 64 + 2) a data), cxl := { s.cxl with waiting := [] } } := by
  refine drainHost_writes _ _ { s with cxl := { s.cxl with waiting := s.cxl.waiting ++ writeActs a data false } } ?_ ?_ ?_
  · simp [hq, writeActs]
  · simp [hq, writeActs]
  · intro l h
    obtain ⟨hne, i, hi, heq⟩ := mem_splitLines h
    exact ⟨hne, heq ▸ (hl i hi).1, heq ▸ (hl i hi).2⟩

theorem State.memBytes_devWrite : (s.devWrite a data).memBytes a data.length = data := by
  have hbyte : ∀ x, (s.devWrite a data).memByte x = if a ≤ x ∧ x < a + data.length then data.getD (x - a) memDefault else s.memByte x := fun x => by
    rw [State.devWrite_lands hq hl]
    exact (congrArg (kget memDefault x) (MemSt.writeLines_splitLines _ s.mem a data (by omega))).trans (kget_putCells s.mem.cells a x data)
  refine List.ext_getElem (by simp [State.memBytes]) fun i hi hi' => ?_
  simp [State.memBytes, hbyte, hi']

end

/-! ### A record in the ring (R467) -/

theorem length_ringSlot (r : Bytes) (arrival : Nat) : (ringSlot r arrival).length = 128 := by
  simp [ringSlot, List.length_flatMap]

section
variable {s : State} {c : CellSt} {r : Bytes} {port arrival : Nat}

/-- R467: a cell whose first record since the binding has been taken. -/
def CellSt.tookFirst (r : Bytes) (port : Nat) (c : CellSt) : CellSt :=
  { c with steps := c.steps + 1, missing := [], gateSeq := some (beField r 16 2), answer := some (beField r 16 2, beField r 8 8, port, false) }

/-- R467: the first record since the binding leaves no gap. -/
theorem State.gateWrite_of_first (hfirst : c.gateSeq = none) (hmiss : c.missing = []) : s.gateWrite c r port arrival =
    (((s.devWrite (c.ring + 128 * (beField r 16 2 % 64)) (ringSlot r arrival)).modCell c.rec_.entry (CellSt.tookFirst r port)).putSw
      c.rec_.entry 8 (setBits ((s.devWrite (c.ring + 128 * (beField r 16 2 % 64)) (ringSlot r arrival)).sw c.rec_.entry 8) 63 32 (min 64 (c.steps + 1)))) := by
  unfold State.gateWrite
  simp only [hfirst, hmiss]
  rfl

/-- R467: what is written after the ring, CACHE_LEN, leaves the ring and the cell. -/
theorem State.memBytes_tookFirst (w : State) (v a n : Nat) :
    ((w.modCell c.rec_.entry (CellSt.tookFirst r port)).putSw c.rec_.entry 8 v).memBytes a n = w.memBytes a n := by
  simp only [State.memBytes, State.putSw_memByte, State.modCell_memByte]

theorem State.cellAt_tookFirst {w : State} (hcell : w.cellAt c.rec_.entry = some c) (v : Nat) :
    ((w.modCell c.rec_.entry (CellSt.tookFirst r port)).putSw c.rec_.entry 8 v).cellAt c.rec_.entry = some (c.tookFirst r port) := by
  rw [State.cellAt_of_foyer (State.putSw_foyer ..)]
  exact State.cellAt_modCell hcell fun _ => rfl

theorem CellSt.tookFirst_of_none (hmiss : c.missing = []) : c.tookFirst r port =
    { c with steps := c.steps + 1, gateSeq := some (beField r 16 2), answer := some (beField r 16 2, beField r 8 8, port, false) } := by
  rw [CellSt.tookFirst, ← hmiss]

variable (hq : s.cxl.waiting = [])
  (hin : ∀ a, c.ring + 128 * (beField r 16 2 % 64) ≤ a → a < c.ring + 128 * (beField r 16 2 % 64) + 128 → s.hdmLine a = none ∧ s.withdrawn a = false)
include hq hin

theorem State.ringWrite_lands :
    (s.devWrite (c.ring + 128 * (beField r 16 2 % 64)) (ringSlot r arrival)).memBytes (c.ring + 128 * (beField r 16 2 % 64)) 128 = ringSlot r arrival ∧
    (s.devWrite (c.ring + 128 * (beField r 16 2 % 64)) (ringSlot r arrival)).foyer = s.foyer := by
  generalize c.ring + 128 * (beField r 16 2 % 64) = a at hin ⊢
  have hlen := length_ringSlot r arrival
  generalize ringSlot r arrival = slot at hlen ⊢
  have hplaces : ∀ i < slot.length, s.hdmLine (a + i) = none ∧ s.withdrawn (a + i) = false := fun i hi => hin (a + i) (by omega) (by omega)
  refine ⟨?_, by rw [State.devWrite_lands hq hplaces]⟩
  rw [← hlen]
  exact State.memBytes_devWrite hq hplaces

theorem State.gateWrite_first (hcell : s.cellAt c.rec_.entry = some c) (hfirst : c.gateSeq = none) (hmiss : c.missing = []) :
    (s.gateWrite c r port arrival).memBytes (c.ring + 128 * (beField r 16 2 % 64)) 128 = ringSlot r arrival ∧
    (s.gateWrite c r port arrival).cellAt c.rec_.entry =
      some { c with steps := c.steps + 1, gateSeq := some (beField r 16 2), answer := some (beField r 16 2, beField r 8 8, port, false) } := by
  obtain ⟨hbytes, hfoyer⟩ := State.ringWrite_lands (arrival := arrival) hq hin
  rw [State.gateWrite_of_first hfirst hmiss, State.memBytes_tookFirst, State.cellAt_tookFirst ((State.cellAt_of_foyer hfoyer _).trans hcell),
    CellSt.tookFirst_of_none hmiss]
  exact ⟨hbytes, rfl⟩

end

/-! ### The words of a field stream (R326, R467) -/

theorem State.sw_putSw (s : State) (e k v j : Nat) : (s.putSw e k v).sw e j = if j = k then v % 2 ^ 64 else s.sw e j := by
  rw [State.sw, State.putSw, State.stream_modStream_self]
  exact kget_kset ..

theorem EntryFrame.putSame {e : Nat} {s t : State} (h : EntryFrame e s t) (k v : Nat) : EntryFrame e (s.putSw e k v) (t.putSw e k v) := by
  refine ⟨?_, h.taken⟩
  rw [State.putSw, State.putSw, State.stream_modStream_self, State.stream_modStream_self]
  exact congrArg (kset 0 k (v % 2 ^ 64)) h.words

/-- R467: the field gate changes no word of the entry but CACHE_LEN's. -/
theorem State.gateWrite_entry (s : State) (c : CellSt) (r : Bytes) (port arrival : Nat) :
    ∃ v, EntryFrame c.rec_.entry (s.putSw c.rec_.entry 8 v) (s.gateWrite c r port arrival) := by
  unfold State.gateWrite
  extract_lets e seq d gaps s₁ s₂ missing s₃
  have h₁ : EntryFrame e s s₁ := (EntryFrame.refl e s).foldl fun _ _ h => h.devWrite
  have h₂ : EntryFrame e s s₂ := h₁.devWrite
  have h₃ : EntryFrame e s s₃ := h₂.step ⟨rfl, rfl⟩
  exact ⟨_, h₃.putSame _ _⟩

/-- R326: the entry of a field stream that has its record: W1, W17 and READY. -/
def State.gateMarks (s : State) (c : CellSt) (arrival : Nat) : State :=
  let t := (s.putSw c.rec_.entry 1 (arrival + c.rec_.budget * 1000)).putSw c.rec_.entry 17 arrival
  t.putSw c.rec_.entry 16 (setBits (t.sw c.rec_.entry 16) 32 32 1)

theorem bit_ready (v : Nat) : bit (setBits v 32 32 1 % 2 ^ 64) 32 = true := by
  simp only [bit, setBits, beq_iff_eq]
  omega

theorem State.gateMarks_words (s : State) (c : CellSt) (arrival : Nat) :
    (s.gateMarks c arrival).sw c.rec_.entry 0 = s.sw c.rec_.entry 0 ∧
    (s.gateMarks c arrival).sw c.rec_.entry 1 = (arrival + c.rec_.budget * 1000) % 2 ^ 64 ∧ (s.gateMarks c arrival).sw c.rec_.entry 17 = arrival % 2 ^ 64 ∧
    bit ((s.gateMarks c arrival).sw c.rec_.entry 16) 32 = true := by
  refine ⟨by simp [State.gateMarks, State.sw_putSw], by simp [State.gateMarks, State.sw_putSw], by simp [State.gateMarks, State.sw_putSw], ?_⟩
  rw [State.gateMarks, State.sw_putSw, if_pos rfl]
  exact bit_ready _

theorem State.gateMarks_odGet (s : State) (c : CellSt) (arrival k : Nat) : (s.gateMarks c arrival).odGet k = s.odGet k := by
  rw [State.gateMarks, State.putSw_odGet, State.putSw_odGet, State.putSw_odGet]

theorem State.gateReady_entry {s : State} {c : CellSt} (hfield : s.sState c.rec_.entry = stField) (arrival : Nat) :
    EntryFrame c.rec_.entry (s.gateMarks c arrival) (s.gateReady c arrival) := by
  unfold State.gateReady
  extract_lets e s₁ s₂ s₃
  have h₂ : EntryFrame e (s.gateMarks c arrival) s₂ := (EntryFrame.refl e (s.gateMarks c arrival)).modStream (fun _ => rfl)
  have h₃ : EntryFrame e (s.gateMarks c arrival) s₃ := h₂.flushWords.flushWords
  have hstate : (s.gateMarks c arrival).sState e = stField := by rwa [State.sState, (s.gateMarks_words c arrival).1]
  exact h₃.foldl fun u j hu => .ite (hu.openStep (hu.sState.trans hstate)) hu

/-- R326, R467: the record of a field stream, taken: its deadline, its arrival time and READY. -/
theorem State.gate_entry {s : State} {c : CellSt} (hfield : s.sState c.rec_.entry = stField) (r : Bytes) (port arrival : Nat) :
    ((s.gateWrite c r port arrival).gateReady c arrival).odGet Od.recordsIn = s.odGet Od.recordsIn ∧
    ((s.gateWrite c r port arrival).gateReady c arrival).sw c.rec_.entry 1 = (arrival + c.rec_.budget * 1000) % 2 ^ 64 ∧
    ((s.gateWrite c r port arrival).gateReady c arrival).sw c.rec_.entry 17 = arrival % 2 ^ 64 ∧
    bit (((s.gateWrite c r port arrival).gateReady c arrival).sw c.rec_.entry 16) 32 = true := by
  obtain ⟨v, hwrite⟩ := s.gateWrite_entry c r port arrival
  have hstate : (s.gateWrite c r port arrival).sState c.rec_.entry = stField := by
    rw [hwrite.sState, State.sState, State.sw_putSw, if_neg (by decide)]
    exact hfield
  have hready := State.gateReady_entry hstate arrival
  obtain ⟨-, hw₁, hw₁₇, hbit⟩ := (s.gateWrite c r port arrival).gateMarks_words c arrival
  have htaken := hready.taken
  rw [State.gateMarks_odGet, hwrite.taken, State.putSw_odGet] at htaken
  exact ⟨htaken, (hready.sw 1).trans hw₁, (hready.sw 17).trans hw₁₇, (congrArg (bit · 32) (hready.sw 16)).trans hbit⟩

end Sys2Proof.Machine
end

section
/-!
SUPPORT. TELEMETRY at the field gate (R467, R471), a record of a datagram case by case (R458, R462 to R466), and the statement on records.
-/

set_option Elab.async false

open Sys2Proof Sys2Proof.Machine

namespace Sys2Proof.Machine

/-! ### TELEMETRY (R467, R471) -/

theorem leNat_lt (b : Bytes) : leNat b < 256 ^ b.length := by
  induction b with
  | nil => exact Nat.one_pos
  | cons x t ih =>
    have hx := x.isLt
    simp only [leNat, List.length_cons, pow_succ]
    omega

theorem leField_lt (b : Bytes) (off n : Nat) : leField b off n < 256 ^ n :=
  (leNat_lt _).trans_le (Nat.pow_le_pow_right (by decide) (List.length_take_le ..))

section
variable {m : BalMsg} {s u : State} (h : s.balTake 0x01 m = (true, u))
include h

theorem telemetry_refused (hcell : ∀ c, s.cellAt (leField m.body 0 2) = some c → c.state ≠ 1 ∨ beField m.body 16 8 ≠ c.rec_.cellId) :
    exec (.telemetry m) s = .next u.balRefuse := by
  have he : exec (.telemetry m) s = execTelemetry m s := by rfl
  have hcells : u.cellAt (leField m.body 0 2) = s.cellAt (leField m.body 0 2) := by
    rw [State.cellAt, State.cellAt, (State.balTake_taken h).kept.cells]
  have hid : beField (m.body.drop 16) 0 8 = beField m.body 16 8 := by rw [beField, beField, List.drop_zero]
  rw [he, execTelemetry, h]
  simp only [Bool.not_true, Bool.false_eq_true, if_false, hcells]
  cases hc : s.cellAt (leField m.body 0 2) with
  | none => rfl
  | some c =>
    refine if_pos ?_
    rw [hid]
    rcases hcell c hc with hstate | hother
    · exact .inl hstate
    · exact .inr (.inr (.inr (.inl hother)))

section
variable {c : CellSt} (hcell : s.cellAt (leField m.body 0 2) = some c) (hbound : c.state = 1) (hbase : s.odGet Od.fieldBase ≤ leField m.body 0 2)
  (hok : recordOk (m.body.drop 16) = true) (hid : beField (m.body.drop 16) 0 8 = c.rec_.cellId) (hport : leField m.body 2 1 < 2)
include hcell hbound hbase hok hid hport

theorem exec_telemetry : exec (.telemetry m) s =
    .next (((u.count Od.recordsIn 1).gateWrite c (m.body.drop 16) (leField m.body 2 1) (leField m.body 8 8)).gateReady c (leField m.body 8 8)) := by
  have he : exec (.telemetry m) s = execTelemetry m s := by rfl
  have ht := State.balTake_taken h
  have hcells : u.cellAt (leField m.body 0 2) = some c := by rw [← hcell, State.cellAt, State.cellAt, ht.kept.cells]
  rw [he, execTelemetry, h]
  simp only [Bool.not_true, Bool.false_eq_true, if_false, hcells, ht.odGet]
  exact if_neg (by simp [hbound, hok, hid, Nat.not_lt.2 hbase, Nat.not_le.2 hport])

theorem telemetry_taken (hfield : s.sState (leField m.body 0 2) = stField) :
    ∃ t : State, exec (.telemetry m) s = .next t ∧ t.odGet Od.recordsIn = (s.odGet Od.recordsIn + 1) % odModulus Od.recordsIn ∧
      t.sw (leField m.body 0 2) 1 = (leField m.body 8 8 + c.rec_.budget * 1000) % 2 ^ 64 ∧ t.sw (leField m.body 0 2) 17 = leField m.body 8 8 ∧
      bit (t.sw (leField m.body 0 2) 16) 32 = true := by
  have ht := State.balTake_taken h
  have he : c.rec_.entry = leField m.body 0 2 := State.entry_of_cellAt hcell
  have hstate : (u.count Od.recordsIn 1).sState c.rec_.entry = stField := by
    rw [he, ht.rest]
    exact hfield
  obtain ⟨htaken, hw₁, hw₁₇, hready⟩ := State.gate_entry hstate (m.body.drop 16) (leField m.body 2 1) (leField m.body 8 8)
  rw [State.odGet_count_self, ht.odGet] at htaken
  rw [he] at hw₁ hw₁₇ hready
  rw [Nat.mod_eq_of_lt ((leField_lt m.body 8 8).trans_eq (by norm_num))] at hw₁₇
  exact ⟨_, exec_telemetry h hcell hbound hbase hok hid hport, htaken, hw₁, hw₁₇, hready⟩

end

end

/-! ### A record of a datagram (R458, R462 to R466) -/

section
variable {s : State} {r : Bytes} (hok : recordOk r = true) (port arrival : Nat)
include hok

theorem State.takeRecord_unknown (h : s.foyer.view.find? (fun v => v.1.cellId == beField r 0 8) = none) : (s.takeRecord r port arrival).foyer = s.foyer ∧
    (s.takeRecord r port arrival).odGet Od.recordsUnknown = (s.odGet Od.recordsUnknown + 1) % odModulus Od.recordsUnknown := by
  rw [State.takeRecord_of_unknown hok port arrival h]
  exact ⟨(State.logLimited_frame ..).foyer, ((State.logLimited_odFrame ..).same _ (by decide)).trans (State.odGet_count_self ..)⟩

variable {v : CellRec} {st : Nat} (hview : s.foyer.view.find? (fun v => v.1.cellId == beField r 0 8) = some (v, st)) (hmode : s.mode = .run) (hst : st = 1)
  {c : CellSt} (hcell : s.cellAt v.entry = some c) (hbound : c.state = 1) {seq : Nat} (hseq : seq = beField r 16 2)
include hview hmode hst hcell hbound hseq

theorem State.takeRecord_stale {l : Nat} (hl : c.last = some l) (hstale : ¬ (1 ≤ (seq + 65536 - l) % 65536 ∧ (seq + 65536 - l) % 65536 ≤ 32767)) :
    (s.takeRecord r port arrival).cellAt v.entry = some { c with stale := c.stale + 1 } ∧ (s.takeRecord r port arrival).out = s.out ∧
    (s.takeRecord r port arrival).odGet Od.recordsStale = (s.odGet Od.recordsStale + 1) % odModulus Od.recordsStale := by
  subst hseq
  rw [State.takeRecord_of_stale hok port arrival hview hmode hst hcell hbound hl hstale]
  refine ⟨State.cellAt_modCell (s := s.count Od.recordsStale 1) hcell fun _ => rfl, rfl, ?_⟩
  rw [State.modCell_odGet, State.odGet_count_self]

variable (hfresh : ∀ l, c.last = some l → 1 ≤ (seq + 65536 - l) % 65536 ∧ (seq + 65536 - l) % 65536 ≤ 32767)
  {lvl : Nat} (hlvl : lvl = bucketNow c.bucket c.filled c.rec_.rate c.rec_.burst s.epoch)
include hfresh hlvl

theorem State.takeRecord_fresh : (s.looked v.entry seq).cellAt v.entry = some { c with last := some seq, bucket := lvl, filled := s.epoch } ∧
    s.takeRecord r port arrival = (s.modCell v.entry (fun c => { c with last := some seq })).policeRecord c r port arrival := by
  subst hseq hlvl
  exact ⟨State.looked_cell hcell _, State.takeRecord_of_fresh hok port arrival hview hmode hst hcell hbound hfresh⟩

end

end Sys2Proof.Machine

/-- Settles O49, clause by clause; a record is followed through the state in which the buckets are looked at (`State.looked`), and at the field gate
through what the opening of steps leaves of the entry (`EntryFrame`). -/
theorem recordsReachTheirCells : Obligations.RecordsReachTheirCells := by
  unfold Obligations.RecordsReachTheirCells
  refine ⟨fun d at_ s hport => ⟨telemetryDatagram_unheard hport, fun hruns hport hserves hdst hwhole =>
      ⟨telemetryDatagram_foreign hruns hport hserves hdst hwhole, telemetryDatagram_malformed hruns hport hserves hdst hwhole, ?_⟩⟩,
    fun m s u h => ⟨telemetry_refused h, fun c hcell hbound hbase hok hid hport hfield => telemetry_taken h hcell hbound hbase hok hid hport hfield⟩,
    fun s c r port at_ hcell hfirst hmiss hq hin => State.gateWrite_first hq hin hcell hfirst hmiss,
    fun m s u h => ⟨recommend_unsent h, fun v st hruns hview hport =>
      ⟨recommend_leaves h hruns hview hport, recommend_dropped h hruns hview⟩⟩⟩
  intro r hsource hwell hone hr hok
  subst hr
  have hexec := exec_telemetryDatagram_one (at_ := at_) hruns hport hserves hdst hwhole hsource hwell hone
  have hwholeRecord : (d.payload.drop 16).take 128 = d.payload.drop 16 := List.take_of_length_le (pieces_of_one hwell hone).1.le
  refine ⟨fun hview => ⟨_, hexec, State.takeRecord_unknown hok d.port at_ hview⟩, fun v st hview =>
    ⟨fun hnot => hexec.trans (congrArg _ (State.takeRecord_of_unbound hok d.port at_ hview hnot)), fun c seq hmode hst hcell hbound hseq =>
      ⟨fun l hl hstale => ⟨_, hexec, State.takeRecord_stale hok d.port at_ hview hmode hst hcell hbound hseq hl hstale⟩, fun hfresh lvl hlvl => ?_⟩⟩⟩
  have he : c.rec_.entry = v.entry := State.entry_of_cellAt hcell
  obtain ⟨hlooked, htake⟩ := State.takeRecord_fresh hok d.port at_ hview hmode hst hcell hbound hseq hfresh hlvl
  rw [htake] at hexec
  rw [hwholeRecord]
  exact ⟨fun hempty => ⟨_, hexec, State.policeRecord_polices hlooked he _ d.port at_ hempty⟩,
    fun hfull hagg hready hopen hcross hroom => ⟨_, hexec, State.policeRecord_crosses hlooked he _ d.port at_ hfull hagg hready hopen hcross hroom⟩,
    fun hfull hagg hbusy => ⟨_, hexec, State.policeRecord_holds hlooked he _ d.port at_ hfull hagg hbusy⟩⟩
end

section
/-!
SUPPORT. The statements on a step's front command and on requests during firmware programming (R493).
-/

namespace Sys2Proof.Machine

/-- Settles O1: a step with a command in front is that command's exec on the rest, as `step` says. -/
theorem stepRunsFrontCommand : Obligations.StepRunsFrontCommand := by
  intro c rest s hq
  rw [step, hq]

theorem State.fwBusy_of_fwState {s : State} (h : s.odGet Od.fwState = 2 ∨ s.odGet Od.fwState = 3) : s.fwBusy = true := s.fwBusy_iff.2 h

/-- Settles O57: each of the three requests is refused by its entry's own condition, whatever the state of the module. -/
theorem requestsRefusedDuringFirmware : Obligations.RequestsRefusedDuringFirmware := by
  intro s w via hfw
  have hbusy := State.fwBusy_of_fwState hfw
  refine ⟨fun h => ?_, fun h => ?_, fun h => ?_⟩
  · exact h.denied (exec_stateRequest w s) (by decide) (by decide) (by decide)
      ((State.applyScalar_stateRequest ..).trans (State.requestState_of_illegal (.inr (.inr hbusy))))
  · exact h.denied (exec_store w s) (by decide) (by decide) (by decide)
      ((State.applyScalar_store ..).trans (State.store_of_elsewhere (.inr hbusy)))
  · exact h.denied (exec_restore w s) (by decide) (by decide) (by decide)
      ((State.applyScalar_restore ..).trans (State.restoreDefaults_of_elsewhere (.inr hbusy)))

end Sys2Proof.Machine
end

section
/-!
SUPPORT. Accesses of the host that reach no memory: beyond the range, before Memory_Active, in Safe Stop (R434, R436, R445); and the statement on accesses before
Memory_Active.
-/

namespace Sys2Proof.Machine

theorem exec_hdmRead (dpa : Nat) (cached : Bool) (errs : List BitErr) (s : State) : exec (.hdmRead dpa cached errs) s = execHdmRead dpa cached errs s := by rfl

theorem exec_hdmWrite (dpa : Nat) (mask : BitVec 64) (data : Bytes) (poison : Bool) (errs : List BitErr) (s : State) :
    exec (.hdmWrite dpa mask data poison errs) s = execHdmWrite dpa mask data poison errs s := by rfl

theorem exec_birsp (l : Nat) (s : State) : exec (.birsp l) s = execBirsp l s := by rfl

theorem exec_birspTimeout (l : Nat) (s : State) : exec (.birspTimeout l) s = execBirspTimeout l s := by rfl

theorem exec_h2dSnoop (hpa : Nat) (s : State) : exec (.h2dSnoop hpa) s = execH2dSnoop hpa s := by rfl

/-! ### Requests that reach no memory (R434, R436, R445) -/

/-- The free bytes of an answer that carries none of memory's. -/
def State.freeLine (s : State) (d : Nat) : Bytes := (List.range 64).map (fun i => Config.freeByte s.free d i)

/-- A poisoned answer to a read, counted on an entry. -/
def State.answerPoisoned (s : State) (k d : Nat) : State := ((s.count k 1).emit (.memData d (s.freeLine d) true)).tick

theorem State.length_freeLine (s : State) (d : Nat) : (s.freeLine d).length = 64 := by simp [State.freeLine]

theorem State.memoryActive_linkUp {s : State} (h : s.memoryActive = true) : s.cxl.linkUp = true :=
  (Bool.and_eq_true_iff.1 h).1

theorem hdmRead_beyond {s : State} {dpa : Nat} (h : s.cxl.linkUp = false ∨ s.rangeSize ≤ dpa / 64 * 64) (cached : Bool) (errs : List BitErr) :
    exec (.hdmRead dpa cached errs) s = .next s := by
  rw [exec_hdmRead, execHdmRead]
  exact if_pos (by simpa using h)

theorem hdmWrite_beyond {s : State} {dpa : Nat} (h : s.cxl.linkUp = false ∨ s.rangeSize ≤ dpa / 64 * 64) (mask : BitVec 64) (data : Bytes) (poison : Bool)
    (errs : List BitErr) : exec (.hdmWrite dpa mask data poison errs) s = .next s := by
  rw [exec_hdmWrite, execHdmWrite]
  exact if_pos (by simpa using h)

theorem hdmRead_early {s : State} {dpa : Nat} (hlink : s.cxl.linkUp = true) (hin : dpa / 64 * 64 < s.rangeSize) (hm : s.memoryActive = false) (cached : Bool)
    (errs : List BitErr) : exec (.hdmRead dpa cached errs) s = .next (s.answerPoisoned Od.earlyHdmAccesses (dpa / 64 * 64)) := by
  simp [exec_hdmRead, execHdmRead, hlink, hin, hm, State.answerPoisoned, State.freeLine]

theorem hdmWrite_early {s : State} {dpa : Nat} (hlink : s.cxl.linkUp = true) (hin : dpa / 64 * 64 < s.rangeSize) (hm : s.memoryActive = false)
    (mask : BitVec 64) (data : Bytes) (poison : Bool) (errs : List BitErr) :
    exec (.hdmWrite dpa mask data poison errs) s = .next ((s.count Od.earlyHdmAccesses 1).emit (.memDone (dpa / 64 * 64))) := by
  simp [exec_hdmWrite, execHdmWrite, hlink, hin, hm]

theorem hdmRead_safeStop {s : State} {dpa : Nat} (hm : s.memoryActive = true) (hin : dpa / 64 * 64 < s.rangeSize) (hs : s.mode = .safeStop) (cached : Bool)
    (errs : List BitErr) : exec (.hdmRead dpa cached errs) s = .next (s.answerPoisoned Od.poisonToHost (dpa / 64 * 64)) := by
  simp [exec_hdmRead, execHdmRead, State.memoryActive_linkUp hm, hin, hm, hs, State.answerPoisoned, State.freeLine]

theorem hdmWrite_safeStop {s : State} {dpa : Nat} (hm : s.memoryActive = true) (hin : dpa / 64 * 64 < s.rangeSize) (hs : s.mode = .safeStop)
    (mask : BitVec 64) (data : Bytes) (poison : Bool) (errs : List BitErr) :
    exec (.hdmWrite dpa mask data poison errs) s = .next (s.emit (.memDone (dpa / 64 * 64))) := by
  simp [exec_hdmWrite, execHdmWrite, State.memoryActive_linkUp hm, hin, hm, hs]

/-- Settles O42: both answers leave at once, and are counted. -/
theorem hostAccessesBeforeMemoryActive : Obligations.HostAccessesBeforeMemoryActive :=
  ⟨fun _ cached errs s hlink hin hm => ⟨_, s.freeLine _, hdmRead_early hlink hin hm cached errs, rfl, s.length_freeLine _, rfl,
      s.odGet_count_self Od.earlyHdmAccesses 1, rfl, rfl, rfl⟩,
    fun _ mask data poison errs s hlink hin hm => ⟨_, hdmWrite_early hlink hin hm mask data poison errs, rfl, rfl,
      s.odGet_count_self Od.earlyHdmAccesses 1, rfl, rfl, rfl⟩⟩

end Sys2Proof.Machine
end

section
/-!
SUPPORT. MemRd and MemWr of lines outside the stream table (R436 to R439), the module's writes that wait for the host's caches and the timeout of BIRsp (R437); and the
statement on the host's accesses to the window.
-/

namespace Sys2Proof.Machine

/-! ### Reads of the window (R436, R437, R439) -/

/-- A state with another snoop filter. -/
def State.withFilter (s : State) (f : List Nat) : State := { s with cxl := { s.cxl with filter := f } }

/-- R437: a line that the filter takes is in it, and nothing else has changed. -/
theorem State.filterAdd_of_room {s : State} (h : s.cxl.filter.length < filterMax) (l : Nat) : ∃ f, s.filterAdd l = s.withFilter f ∧ l ∈ f := by
  by_cases hl : l ∈ s.cxl.filter
  · exact ⟨s.cxl.filter, if_pos (by simpa using hl), hl⟩
  · exact ⟨s.cxl.filter ++ [l], (if_neg (by simpa using hl)).trans (if_pos h), by simp⟩

/-- R439: the answer to a read without errors: memory's bytes, and POISON where a word has it; k words count as poisoned reads. -/
def State.answerRead (s : State) (d k : Nat) : State :=
  ((if s.memPoisoned (s.odGet Od.hostWindowBase + d) 64 then (s.count Od.poisonReads k).count Od.poisonToHost 1 else s.count Od.poisonReads k).emit
    (.memData d (s.memBytes (s.odGet Od.hostWindowBase + d) 64) (s.memPoisoned (s.odGet Od.hostWindowBase + d) 64))).tick

theorem State.answerRead_spec (s : State) (d k : Nat) :
    (s.answerRead d k).mem = s.mem ∧ (s.answerRead d k).halls = s.halls ∧ (s.answerRead d k).serve = s.serve ∧
      (s.answerRead d k).out = s.out ++ [.memData d (s.memBytes (s.odGet Od.hostWindowBase + d) 64) (s.memPoisoned (s.odGet Od.hostWindowBase + d) 64)] ∧
      (s.answerRead d k).cxl = s.cxl := by
  unfold State.answerRead
  split <;> exact ⟨rfl, rfl, rfl, rfl, rfl⟩

/-- R312: outside the table every word of a line is defined. -/
theorem State.undefinedWords_outside {s : State} {a : Nat} (h : s.inTable a = false) (b : Bytes) : s.undefinedWords a b = b := if_neg (by simp [h])

/-- R270: what is present does not depend on counters of reads. -/
theorem State.memPoisoned_count (s : State) {k : Nat} (hk : k ≠ Od.stacksPresent ∧ k ≠ Od.mezzPresent) (n a m : Nat) :
    (s.count k n).memPoisoned a m = s.memPoisoned a m := by
  have hw : ∀ w, (s.count k n).wordPoisoned w = s.wordPoisoned w := fun w => by
    rw [State.wordPoisoned, State.wordPoisoned, State.withdrawn, State.withdrawn, s.odGet_count_ne hk.1.symm, s.odGet_count_ne hk.2.symm]
    rfl
  simp only [State.memPoisoned, funext hw]

/-- R260: a read without errors: memory's bytes and POISON, and the count of poisoned words. -/
theorem State.memRead_of_clean (s : State) (a n : Nat) : ∃ k, s.memRead a n [] = (s.memBytes a n, s.memPoisoned a n, s.count Od.poisonReads k) := by
  obtain ⟨k, hk⟩ := s.memRead_of_no_errors a n false
  refine ⟨k, ?_⟩
  have hp : (s.memRead a n []).2.1 = (s.memRead a n []).2.2.memPoisoned a n := rfl
  rw [hk, s.memPoisoned_count (by decide)] at hp
  exact Prod.ext rfl (Prod.ext hp hk)

section
variable {s : State} {dpa : Nat} (hm : s.memoryActive = true) (hin : dpa / 64 * 64 < s.rangeSize) (hs : s.mode ≠ .safeStop)
  (hout : s.inTable (s.odGet Od.hostWindowBase + dpa / 64 * 64) = false)
include hm hin hs hout

/-- R439: a read that is served answers once the filter has taken the line that a cached one names. -/
theorem hdmRead_served (cached : Bool) (t : State) (ht : (if cached then (s.filterAdd (dpa / 64 * 64 / 64)).settleHost else s) = t) (hod : t.od = s.od) :
    ∃ k, exec (.hdmRead dpa cached []) s = .next (t.answerRead (dpa / 64 * 64) k) := by
  have hlink := State.memoryActive_linkUp hm
  have htb : t.odGet Od.tableBase = s.odGet Od.tableBase := by rw [State.odGet, State.odGet, hod]
  have htable : ∀ k, (t.count Od.poisonReads k).inTable (s.odGet Od.hostWindowBase + dpa / 64 * 64) = false := fun k => by
    rw [← hout, State.inTable, State.inTable, State.odGet_count_ne t (show Od.tableBase ≠ Od.poisonReads by decide), htb]
  have hbase : t.odGet Od.hostWindowBase = s.odGet Od.hostWindowBase := by rw [State.odGet, State.odGet, hod]
  obtain ⟨k, hk⟩ := t.memRead_of_clean (s.odGet Od.hostWindowBase + dpa / 64 * 64) 64
  refine ⟨k, ?_⟩
  rw [exec_hdmRead, execHdmRead, if_neg (by simp [hlink, hin]), if_neg (by simp [hm]), if_neg hs]
  simp only [ht, hk]
  rw [State.undefinedWords_outside (htable k), State.answerRead, hbase]

theorem hdmRead_uncached : ∃ k, exec (.hdmRead dpa false []) s = .next (s.answerRead (dpa / 64 * 64) k) :=
  hdmRead_served hm hin hs hout false s rfl rfl

theorem hdmRead_cached (hroom : s.cxl.filter.length < filterMax) (hwait : s.cxl.waiting = []) (hlanded : s.xlate.landed = []) (hready : s.od.ready = []) :
    ∃ f k, exec (.hdmRead dpa true []) s = .next ((s.withFilter f).answerRead (dpa / 64 * 64) k) ∧ dpa / 64 * 64 / 64 ∈ f := by
  obtain ⟨f, hf, hl⟩ := State.filterAdd_of_room hroom (dpa / 64 * 64 / 64)
  have hsettled : (s.filterAdd (dpa / 64 * 64 / 64)).settleHost = s.withFilter f := by
    rw [hf]
    exact State.settleHost_of_idle hwait hlanded hready
  obtain ⟨k, hk⟩ := hdmRead_served hm hin hs hout true (s.withFilter f) hsettled rfl
  exact ⟨f, k, hk, hl⟩

end

/-! ### Writes of the window (R261, R436, R438) -/

/-- Work writes to memory alone, and there the bytes of a set as given. -/
structure Overlays (P : Nat → Prop) (g : Nat → Byte) (s t : State) : Prop where
  rest : t = { s with mem := t.mem }
  written : ∀ x, P x → t.memByte x = g x
  kept : ∀ x, ¬ P x → t.memByte x = s.memByte x

namespace Overlays

variable {P Q : Nat → Prop} {g : Nat → Byte} {s t u : State}

theorem od (h : Overlays P g s t) : t.od = s.od := by rw [h.rest]

theorem refl (h : ∀ x, ¬ P x) : Overlays P g s s := ⟨rfl, fun x hx => absurd hx (h x), fun _ _ => rfl⟩

theorem congr (h : Overlays P g s t) (hP : ∀ x, P x ↔ Q x) : Overlays Q g s t :=
  ⟨h.rest, fun x hx => h.written x ((hP x).2 hx), fun x hx => h.kept x (fun hp => hx ((hP x).1 hp))⟩

theorem step (h : Overlays P g s t) (h' : Overlays Q g t u) : Overlays (fun x => P x ∨ Q x) g s u := by
  refine ⟨by rw [h'.rest, h.rest], fun x hx => ?_, fun x hx => ?_⟩
  · by_cases hq : Q x
    · exact h'.written x hq
    · rw [h'.kept x hq, h.written x (hx.resolve_right hq)]
  · rw [h'.kept x (fun hq => hx (.inr hq)), h.kept x (fun hp => hx (.inl hp))]

/-- Writes in turn, of which each finds the dictionary as it was. -/
theorem foldl {β : Type} {R : β → Nat → Prop} {f : State → β → State} {l : List β}
    (hf : ∀ t b, b ∈ l → t.od = s.od → Overlays (R b) g t (f t b)) : Overlays (fun x => ∃ b ∈ l, R b x) g s (l.foldl f s) := by
  induction l generalizing s with
  | nil => exact .refl (by simp)
  | cons b l ih =>
    have hb := hf s b (List.mem_cons_self ..) rfl
    have hl := ih (s := f s b) (fun t c hc ht => hf t c (List.mem_cons_of_mem _ hc) (ht.trans hb.od))
    exact (hb.step hl).congr (fun x => by simp)

end Overlays

theorem State.withdrawn_of_od {s t : State} (h : t.od = s.od) (a : Nat) : t.withdrawn a = s.withdrawn a := by
  simp only [State.withdrawn, State.odGet, h]

/-- R254: a write to a present range. -/
theorem State.memWrite_overlays {s : State} {a : Nat} {d : Bytes} {g : Nat → Byte} (hd : d ≠ []) (ha : s.withdrawn a = false)
    (hg : ∀ k < d.length, d.getD k memDefault = g (a + k)) (p : Bool) : Overlays (fun x => a ≤ x ∧ x < a + d.length) g s (s.memWrite a d p) := by
  refine ⟨by rw [State.memWrite_of_present hd ha], fun x hx => ?_, fun x hx => ?_⟩
  · rw [State.memByte_memWrite _ _ _ _ _ ha, if_pos hx, hg _ (by omega)]
    congr 1
    omega
  · rw [State.memByte_memWrite _ _ _ _ _ ha, if_neg hx]

/-- R270: the words of a line below the mezzanine are present together. -/
theorem State.withdrawn_line {s : State} {a k : Nat} (ha : a % 64 = 0) (hb : a + 64 ≤ mezzBase) (hk : k < 64) : s.withdrawn (a + k) = s.withdrawn a := by
  have hstack : stackOf (a + k) = stackOf a := by
    unfold stackOf
    omega
  unfold State.withdrawn
  rw [if_pos (by omega), if_pos (by omega), hstack]

/-- R438: a masked write of a line of a present range leaves the writer's bytes where the mask has them. -/
theorem State.maskedWrite_overlays {s : State} {a : Nat} {mask : Nat → Bool} {d : Bytes} (ha : a % 64 = 0) (hb : a + 64 ≤ mezzBase)
    (hin : s.withdrawn a = false) (hd : d.length = 64) (p : Bool) :
    Overlays (fun x => a ≤ x ∧ x < a + 64 ∧ mask (x - a) = true) (fun x => d.getD (x - a) 0#8) s (s.maskedWrite a mask d p) := by
  unfold State.maskedWrite
  split
  · next hnone =>
    refine .refl (fun x hx => ?_)
    simp only [Bool.not_eq_true', List.any_eq_false, List.mem_range] at hnone
    exact hnone (x - a) (by omega) hx.2.2
  · rw [if_neg (by simp [hin])]
    have hpresent : ∀ (t : State) (k : Nat), t.od = s.od → k < 64 → t.withdrawn (a + k) = false := fun t k ht hk => by
      rw [State.withdrawn_of_od ht, State.withdrawn_line ha hb hk, hin]
    refine (Overlays.foldl (R := fun w x => a + 8 * w ≤ x ∧ x < a + 8 * w + 8 ∧ mask (x - a) = true) fun t w hw ht => ?_).congr fun x => ?_
    · have hw8 : w < 8 := by simpa using hw
      simp only
      split
      · next hall =>
        simp only [List.all_eq_true, List.mem_map, List.mem_range, forall_exists_index, and_imp, forall_apply_eq_imp_iff₂] at hall
        have hlen : ((d.drop (8 * w)).take 8).length = 8 := by simp; omega
        refine (State.memWrite_overlays (List.ne_nil_of_length_pos (by omega)) (hpresent t (8 * w) ht (by omega)) (fun k hk => ?_) p).congr fun x => ?_
        · rw [hlen] at hk
          have hx : a + 8 * w + k - a = 8 * w + k := by omega
          simp [List.getD_eq_getElem?_getD, hk, hx]
        · rw [hlen]
          refine ⟨fun h => ⟨h.1, h.2, ?_⟩, fun h => ⟨h.1, h.2.1⟩⟩
          have hm := hall (x - a - 8 * w) (by omega)
          rwa [Nat.sub_add_cancel (by omega)] at hm
      · refine (Overlays.foldl (R := fun k x => x = a + k) fun u k hk hu => ?_).congr fun x => ?_
        · have hk64 : k < 64 := by
            simp only [List.mem_filter, List.mem_map, List.mem_range] at hk
            omega
          refine (State.memWrite_overlays (by simp) (hpresent u k (hu.trans ht) hk64) (fun j hj => ?_) p).congr fun x => ?_
          · have hj0 : j = 0 := by simpa using hj
            simp [hj0]
          · simp
            omega
        · simp only [List.mem_filter, List.mem_map, List.mem_range]
          constructor
          · rintro ⟨k, ⟨⟨j, hj, rfl⟩, hk⟩, rfl⟩
            exact ⟨by omega, by omega, by rwa [Nat.add_sub_cancel_left]⟩
          · rintro ⟨h1, h2, h3⟩
            exact ⟨x - a, ⟨⟨x - a - 8 * w, by omega, by omega⟩, h3⟩, by omega⟩
    · simp only [List.mem_range]
      constructor
      · rintro ⟨w, hw, h1, h2, h3⟩
        exact ⟨by omega, by omega, h3⟩
      · rintro ⟨h1, h2, h3⟩
        exact ⟨(x - a) / 8, by omega, by omega, by omega, h3⟩

theorem padTo_of_length {n : Nat} {b : Bytes} (h : b.length = n) : padTo n b = b := by
  simp [padTo, ← h, zeros]

/-- R438: a write of a line outside the table, without errors. -/
theorem hdmWrite_served {s : State} {dpa : Nat} (hm : s.memoryActive = true) (hin : dpa / 64 * 64 < s.rangeSize) (hs : s.mode ≠ .safeStop)
    (hout : s.inTable (s.odGet Od.hostWindowBase + dpa / 64 * 64) = false) (mask : BitVec 64) {data : Bytes} (hlen : data.length = 64) (poison : Bool) :
    exec (.hdmWrite dpa mask data poison []) s = .next
      ((s.maskedWrite (s.odGet Od.hostWindowBase + dpa / 64 * 64) (fun k => mask.getLsbD k) data poison).emit (.memDone (dpa / 64 * 64))) := by
  have hlink := State.memoryActive_linkUp hm
  rw [exec_hdmWrite, execHdmWrite, if_neg (by simp [hlink, hin]), if_neg (by simp [hm]), if_neg hs, padTo_of_length hlen]
  simp only [State.partErrors, List.filter_nil, List.foldl_nil, hout, Bool.false_eq_true, if_false]

/-! ### Writes that wait for the host's caches (R437) -/

/-- A state with other accesses that wait for the host. -/
def State.withWaiting (s : State) (l : List HostAct) : State := { s with cxl := { s.cxl with waiting := l } }

/-- R437: BISnpInv leaves for the line. -/
theorem State.backInvalidate_of_idle {s : State} (h : s.cxl.snooped = none) (l : Nat) :
    s.backInvalidate l = (({ s with cxl := { s.cxl with snooped := some l } } : State).emit (.bisnp l)).count Od.backInvalidates 1 :=
  if_neg (by simp [h])

theorem State.hostActs_write_of_cached {s : State} {a l : Nat} (hwait : s.cxl.waiting = []) (hline : s.hdmLine a = some l)
    (hin : s.cxl.filter.contains l = true) (d : Bytes) (p : Bool) : s.hostActs [.write a d p] = (s.withWaiting [.write a d p]).backInvalidate l := by
  have hline' : (s.withWaiting [.write a d p]).hdmLine a = some l := hline
  have hin' : (s.withWaiting [.write a d p]).cxl.filter.contains l = true := hin
  have hq : s.hostActs [.write a d p] = drainHost 2 (s.withWaiting [.write a d p]) := by
    rw [State.hostActs, hwait]
    rfl
  have hw : (s.withWaiting [.write a d p]).cxl.waiting = [.write a d p] := rfl
  rw [hq, drainHost, hw]
  simp only [hline', hin', if_true]

theorem State.settled_of_none {s : State} (hlanded : s.xlate.landed = []) (hready : s.od.ready = []) : s.settleMoves.answerReady = s := by
  have hmoves : s.settleMoves = { s with xlate := { s.xlate with landed := [] } } := by simp [State.settleMoves, hlanded]
  have hanswer : s.answerReady = { s with od := { s.od with ready := [] } } := by simp [State.answerReady, hready]
  rw [hmoves, ← hlanded, hanswer, ← hready]

/-- A write reaches memory, or the count of withdrawn writes. -/
theorem State.memWrite_frame (s : State) (a : Nat) (d : Bytes) (p : Bool) :
    (s.memWrite a d p).cxl = s.cxl ∧ (s.memWrite a d p).xlate = s.xlate ∧ (s.memWrite a d p).halls = s.halls ∧ (s.memWrite a d p).od.ready = s.od.ready := by
  unfold State.memWrite
  split
  · exact ⟨rfl, rfl, rfl, rfl⟩
  · split <;> exact ⟨rfl, rfl, rfl, rfl⟩

theorem State.memWrite_mem_of_eq {s t : State} (hod : t.od = s.od) (hmem : t.mem = s.mem) (a : Nat) (d : Bytes) (p : Bool) :
    (t.memWrite a d p).mem = (s.memWrite a d p).mem := by
  unfold State.memWrite
  rw [State.withdrawn_of_od hod, hmem]
  split
  · exact hmem
  · split
    · exact hmem
    · rfl

/-- R437: the state in which the host has given up a line. -/
def State.lineLeft (s : State) (l : Nat) : State := { s with cxl := { s.cxl with snooped := none, filter := s.cxl.filter.filter (· ≠ l) } }

/-- R437: with the line out of the filter the one write that waits reaches memory. -/
theorem birsp_proceeds {s : State} {a l : Nat} {d : Bytes} {p : Bool} (hsnoop : s.cxl.snooped = some l) (hwait : s.cxl.waiting = [.write a d p])
    (hline : s.hdmLine a = some l) (hlanded : s.xlate.landed = []) (hready : s.od.ready = []) :
    exec (.birsp l) s = .next (((s.lineLeft l).withWaiting []).memWrite a d p) := by
  have hw : (s.lineLeft l).cxl.waiting = [.write a d p] := hwait
  have hline' : (s.lineLeft l).hdmLine a = some l := hline
  have hout : (s.lineLeft l).cxl.filter.contains l = false := by simp [State.lineLeft]
  obtain ⟨hcxl, hxlate, _, hr⟩ := State.memWrite_frame ((s.lineLeft l).withWaiting []) a d p
  have hdrain : drainHost ((s.lineLeft l).cxl.waiting.length + 1) (s.lineLeft l) = ((s.lineLeft l).withWaiting []).memWrite a d p := by
    rw [hw]
    show drainHost 2 (s.lineLeft l) = _
    rw [drainHost, hw]
    simp only [hline', hout, Bool.false_eq_true, if_false]
    show drainHost 1 (((s.lineLeft l).withWaiting []).memWrite a d p) = _
    rw [drainHost, hcxl]
    rfl
  rw [exec_birsp, execBirsp, if_pos hsnoop]
  show Host.Outcome.next (s.lineLeft l).settleHost = _
  rw [State.settleHost, hdrain, State.settled_of_none (by rw [hxlate]; exact hlanded) (by rw [hr]; exact hready)]

/-! ### Faults that do not escalate (R521, R522) -/

/-- Two states agree in what waits for the host, and in the line for which BIRsp is awaited. -/
structure HostWaits (s t : State) : Prop where
  waiting : t.cxl.waiting = s.cxl.waiting
  snooped : t.cxl.snooped = s.cxl.snooped

theorem HostWaits.of_cxl {s t : State} (h : t.cxl = s.cxl) : HostWaits s t := ⟨by rw [h], by rw [h]⟩

theorem HostWaits.step {s t u : State} (h : HostWaits s t) (h' : HostWaits t u) : HostWaits s u :=
  ⟨h'.waiting.trans h.waiting, h'.snooped.trans h.snooped⟩

theorem HostWaits.ite {s t u : State} {c : Prop} [Decidable c] (ht : HostWaits s t) (hu : HostWaits s u) : HostWaits s (if c then t else u) := by
  split <;> assumption

theorem State.signal_hostWaits (s : State) (v : Nat) : HostWaits s (s.signal v) := by
  unfold State.signal
  exact .ite (.of_cxl rfl) (.ite ⟨rfl, rfl⟩ (.of_cxl rfl))

theorem State.addEvent_hostWaits (s : State) (r : LogRec) : HostWaits s (s.addEvent r) := by
  have hlogs : HostWaits s { s with cxl := s.cxl.addEvent r } := by
    unfold CxlSt.addEvent
    extract_lets
    split <;> exact ⟨rfl, rfl⟩
  unfold State.addEvent
  simp only
  generalize (_ && _ : Bool) = first
  exact .ite (hlogs.step (State.signal_hostWaits _ 0)) hlogs

theorem State.record_hostWaits (s : State) (ev : LogEv) (extra n time e q : Nat) : HostWaits s (s.record ev extra n time e q) := by
  have hring : ∀ r, HostWaits s (s.ringPut r) := fun r => by
    unfold State.ringPut
    exact .of_cxl rfl
  have hbuffer : ∀ (t : State) r, HostWaits t (t.bufferPut r) := fun t r => by
    unfold State.bufferPut
    have hput : HostWaits t { t with log := { t.log with buffer := t.log.buffer ++ [r] } } := .of_cxl rfl
    exact .ite ((hput.step (State.signal_hostWaits _ _)).step (State.addEvent_hostWaits _ r)) (.of_cxl rfl)
  have hput : ∀ (t : State) k v, HostWaits t (t.odPut k v) := fun t k v => .of_cxl rfl
  unfold State.record
  extract_lets sev r u
  exact .ite (hring r) ((((hring r).step (hput u _ _)).step (hput _ _ _)).step (hbuffer _ r))

/-- What a record of a Fault leaves: all but the dictionary, the log, Newel and the port's records and messages. -/
structure Reported (s t : State) : Prop extends LogFrame s t, HostWaits s t

theorem Reported.step {s t u : State} (h : Reported s t) (h' : Reported t u) : Reported s u :=
  ⟨h.toLogFrame.step h'.toLogFrame, h.toHostWaits.step h'.toHostWaits⟩

theorem State.record_reported (s : State) (ev : LogEv) (extra n time e q : Nat) : Reported s (s.record ev extra n time e q) :=
  ⟨s.record_frame .., s.record_hostWaits ..⟩

/-- R521, R522: a Fault that neither escalates by its code nor marks a weight block is reported; it leads to Safe Stop at most as the fifth. -/
theorem State.fault_cases (s : State) {ev : LogEv} {x : Subject} (model : Nat) (hup : (ev.code == 0x3005 || ev.code == 0x1220) = false) (hk : x.kind ≠ 1) :
    ∃ u, Reported s u ∧ (s.fault ev x model = u ∨ s.fault ev x model = u.enterSafeStop 0x1302) := by
  have hfault : s.fault ev x model = s.raiseFault ev x model := by simp [State.fault, hk]
  rw [hfault]
  have hnewel : ∀ (t : State) (n : NewelSt), Reported t { t with newel := n } := fun t n => ⟨by constructor <;> rfl, .of_cxl rfl⟩
  have hcount : ∀ (t : State) k n, Reported t (t.count k n) := fun t k n => ⟨t.count_frame k n, .of_cxl rfl⟩
  unfold State.raiseFault
  split
  · split
    · exact ⟨_, hnewel s _, .inl rfl⟩
    · exact ⟨_, hcount s _ _, .inl rfl⟩
  · unfold State.takeFault
    split
    · unfold State.joinEpisode
      simp only [hup, Bool.false_eq_true, if_false]
      exact ⟨_, (s.record_reported ..).step (hnewel _ _), .inl rfl⟩
    · split
      · exact ⟨_, (s.record_reported ..).step (State.record_reported ..), .inr rfl⟩
      · exact ⟨_, ((s.record_reported ..).step (hnewel _ _)).step (hcount _ _ _), .inl rfl⟩

/-- R530: where the module's state is as before, such a Fault has only been reported. -/
theorem State.fault_reported {s : State} {ev : LogEv} {x : Subject} {model : Nat} (hup : (ev.code == 0x3005 || ev.code == 0x1220) = false) (hk : x.kind ≠ 1)
    (hmode : (s.fault ev x model).mode = s.mode) : Reported s (s.fault ev x model) := by
  obtain ⟨u, hu, h | h⟩ := s.fault_cases model hup hk
  · exact h ▸ hu
  · by_cases hoff : u.mode = .off
    · rw [h, State.enterSafeStop_of_there (.inr hoff)]
      exact hu
    · have hsafe : u.mode = .safeStop := by rw [hu.mode, ← hmode, h, State.enterSafeStop_mode hoff]
      rw [h, State.enterSafeStop_of_there (.inl hsafe)]
      exact hu

/-! ### The statement -/

theorem birspTimeout_reports {s : State} {l : Nat} (h : s.cxl.snooped = some l) : exec (.birspTimeout l) s =
    .next (s.fault { code := 0x6111, address := s.odGet Od.hostWindowBase + 64 * l } (unitSubject 10 0xFF 0xFF)) := by
  rw [exec_birspTimeout]
  exact if_pos h

/-- Settles O43: reads and writes by the lemmas on what is served, back-invalidation by what its queue does, the timeout by what its Fault leaves. -/
theorem hostWindowAccesses : Obligations.HostWindowAccesses := by
  refine ⟨fun dpa cached s hm hin hs hroom hout hidle => ?_, fun dpa mask data poison s hm hin hs hout hpresent hlen hbase htop => ?_,
    fun dpa cached mask data poison errs s hm hin hs => ⟨⟨_, _, hdmRead_safeStop hm hin hs cached errs, rfl, rfl⟩, hdmWrite_safeStop hm hin hs ..⟩,
    fun dpa cached mask data poison errs s h => ⟨hdmRead_beyond h cached errs, hdmWrite_beyond h ..⟩, fun a l d p s hwait hidle hline hin => ?_,
    fun a l d p s hsnoop hwait hline hlanded hready => ?_, fun l s h => ⟨?_, ?_⟩, fun l s h => ⟨_, birspTimeout_reports h, fun hmode => ?_⟩, fun hpa s h => ?_⟩
  · cases cached with
    | false =>
      obtain ⟨k, hk⟩ := hdmRead_uncached hm hin hs hout
      obtain ⟨hmem, hhalls, hserve, hleft, hcxl⟩ := s.answerRead_spec (dpa / 64 * 64) k
      exact ⟨_, hk, hmem, hhalls, hserve, hleft, by simp, fun _ => by rw [hcxl]⟩
    | true =>
      obtain ⟨hwait, hlanded, hready⟩ := hidle rfl
      obtain ⟨f, k, hk, hl⟩ := hdmRead_cached hm hin hs hout hroom hwait hlanded hready
      obtain ⟨hmem, hhalls, hserve, hleft, hcxl⟩ := (s.withFilter f).answerRead_spec (dpa / 64 * 64) k
      exact ⟨_, hk, hmem, hhalls, hserve, hleft, fun _ => by rw [hcxl]; exact hl, by simp⟩
  · have hline := State.maskedWrite_overlays (s := s) (a := s.odGet Od.hostWindowBase + dpa / 64 * 64) (mask := fun k => mask.getLsbD k) (by omega)
      (by unfold State.rangeSize at hin htop; omega) hpresent hlen poison
    refine ⟨_, hdmWrite_served hm hin hs hout mask hlen poison, ?_, ?_, ?_, fun a => ?_⟩
    · rw [hline.rest]
      rfl
    · rw [hline.rest]
      rfl
    · rw [hline.rest]
      rfl
    · split
      · next h => exact hline.written a h
      · next h => exact hline.kept a h
  · rw [State.hostActs_write_of_cached hwait hline hin, State.backInvalidate_of_idle (s := s.withWaiting [.write a d p]) hidle]
    exact ⟨rfl, rfl, rfl, rfl⟩
  · obtain ⟨hcxl, _, hhalls, _⟩ := State.memWrite_frame ((s.lineLeft l).withWaiting []) a d p
    refine ⟨_, birsp_proceeds hsnoop hwait hline hlanded hready, by rw [hcxl]; rfl, by rw [hcxl]; rfl, ?_, State.memWrite_mem_of_eq (s := s) (t := (s.lineLeft l).withWaiting []) rfl rfl a d p, hhalls⟩
    rw [hcxl]
    simp [State.withWaiting, State.lineLeft]
  · rw [exec_birsp]
    exact if_neg h
  · rw [exec_birspTimeout]
    exact if_neg h
  · have hr := State.fault_reported rfl (by decide) hmode
    exact ⟨hr.waiting, hr.snooped.trans h, by rw [hr.mem]⟩
  · rw [exec_h2dSnoop, execH2dSnoop, if_pos h]

end Sys2Proof.Machine
end

section
/-!
SUPPORT. The CXL commands of the mailbox (R441, R442, R444, R479), and the statement on them.
-/

namespace Sys2Proof.Machine

/-! ### A command that reaches the mailbox (R441, R479) -/

/-- R441, R479: the mailbox serves a CXL command: the port carries CXL.io, and Newel runs its own image. -/
structure MailboxUp (s : State) : Prop where
  port : (s.cxl.linkUp || s.cxl.pcieOnly) = true
  up : s.newel.restarting = false
  own : s.newel.recovery = false

theorem State.mailbox_of_up {s : State} (h : MailboxUp s) (f : State → State) : s.mailbox f = f s := by
  simp [State.mailbox, h.port, h.up, h.own]

theorem State.mailbox_of_restarting {s : State} (hport : (s.cxl.linkUp || s.cxl.pcieOnly) = true) (h : s.newel.restarting = true) (f : State → State) :
    s.mailbox f = s.mbDone (.mbReturn cxlBusy) := by
  simp [State.mailbox, hport, h]

theorem exec_identify (s : State) : exec .identify s = execIdentify s := by rfl

theorem exec_backgroundOperationStatus (s : State) : exec .backgroundOperationStatus s = execBackgroundOperationStatus s := by rfl

theorem exec_requestAbortBackgroundOperation (s : State) : exec .requestAbortBackgroundOperation s = execRequestAbortBackgroundOperation s := by rfl

theorem exec_getEventInterruptPolicy (s : State) : exec .getEventInterruptPolicy s = execGetEventInterruptPolicy s := by rfl

theorem exec_setEventInterruptPolicy (p : Bytes) (s : State) : exec (.setEventInterruptPolicy p) s = execSetEventInterruptPolicy p s := by rfl

theorem exec_getTimestamp (s : State) : exec .getTimestamp s = execGetTimestamp s := by rfl

theorem exec_setTimestamp (t : Nat) (s : State) : exec (.setTimestamp t) s = execSetTimestamp t s := by rfl

theorem exec_getSupportedLogs (s : State) : exec .getSupportedLogs s = execGetSupportedLogs s := by rfl

theorem exec_identifyMemoryDevice (s : State) : exec .identifyMemoryDevice s = execIdentifyMemoryDevice s := by rfl

theorem exec_getLog (log off len : Nat) (s : State) : exec (.getLog log off len) s = execGetLog log off len s := by rfl

theorem exec_getEventRecords (log : Nat) (s : State) : exec (.getEventRecords log) s = execGetEventRecords log s := by rfl

theorem exec_clearEventRecords (log : Nat) (all : Bool) (hs : List Nat) (s : State) :
    exec (.clearEventRecords log all hs) s = execClearEventRecords log all hs s := by rfl

/-- R479: while Newel restarts a command is answered Busy. -/
theorem mailbox_busy {c : Instr} {s : State} (hc : c ∈ [Instr.identify, .backgroundOperationStatus, .requestAbortBackgroundOperation, .getEventInterruptPolicy,
    .getTimestamp, .getSupportedLogs, .identifyMemoryDevice]) (hport : (s.cxl.linkUp || s.cxl.pcieOnly) = true) (h : s.newel.restarting = true) :
    exec c s = .next (s.mbDone (.mbReturn cxlBusy)) := by
  have hbusy := State.mailbox_of_restarting hport h
  simp only [List.mem_cons, List.not_mem_nil, or_false] at hc
  obtain rfl | rfl | rfl | rfl | rfl | rfl | rfl := hc
  · rw [exec_identify, execIdentify, hbusy]
  · rw [exec_backgroundOperationStatus, execBackgroundOperationStatus, hbusy]
  · rw [exec_requestAbortBackgroundOperation, execRequestAbortBackgroundOperation, hbusy]
  · rw [exec_getEventInterruptPolicy, execGetEventInterruptPolicy, hbusy]
  · rw [exec_getTimestamp, execGetTimestamp, hbusy]
  · rw [exec_getSupportedLogs, execGetSupportedLogs, hbusy]
  · rw [exec_identifyMemoryDevice, execIdentifyMemoryDevice, hbusy]

section
variable {s : State} (h : MailboxUp s)
include h

/-- R441: a command that only asks is answered under its own opcode. -/
theorem mailbox_answers {c : Instr} (hc : c ∈ [Instr.identify, .backgroundOperationStatus, .getEventInterruptPolicy, .getTimestamp, .getSupportedLogs,
    .identifyMemoryDevice]) : ∃ (op : Nat) (b : Bytes), exec c s = .next (s.mbDone (.cxl op b)) ∧ op ∈ mailboxOpcodes := by
  have hup := State.mailbox_of_up h
  simp only [List.mem_cons, List.not_mem_nil, or_false] at hc
  obtain rfl | rfl | rfl | rfl | rfl | rfl := hc
  · exact ⟨0x0001, _, by rw [exec_identify, execIdentify, hup], by decide⟩
  · exact ⟨0x0002, _, by rw [exec_backgroundOperationStatus, execBackgroundOperationStatus, hup], by decide⟩
  · exact ⟨0x0102, _, by rw [exec_getEventInterruptPolicy, execGetEventInterruptPolicy, hup], by decide⟩
  · exact ⟨0x0300, _, by rw [exec_getTimestamp, execGetTimestamp, hup], by decide⟩
  · exact ⟨0x0400, _, by rw [exec_getSupportedLogs, execGetSupportedLogs, hup], by decide⟩
  · exact ⟨0x4000, _, by rw [exec_identifyMemoryDevice, execIdentifyMemoryDevice, hup], by decide⟩

theorem getLog_answers {off len : Nat} (hlen : off + len ≤ effectsLog.length) :
    exec (.getLog 0 off len) s = .next (s.mbDone (.cxl 0x0401 ((effectsLog.drop off).take len))) := by
  rw [exec_getLog, execGetLog, State.mailbox_of_up h, if_neg (by omega)]

/-! ### Event records (R444) -/

/-- R444: the 32 bytes before the records of a log. -/
def State.eventsHeader (s : State) (log : Nat) : Bytes :=
  leBytes 1 (if s.cxl.overflow.contains log then 1 else 0) ++ zeros 19 ++ leBytes 2 (s.cxl.events log).length ++ zeros 10

omit h in
theorem State.length_eventsHeader (s : State) (log : Nat) : (s.eventsHeader log).length = 32 := by
  simp [State.eventsHeader, zeros]

theorem getEventRecords_answers {log : Nat} (hlog : log < 4) :
    exec (.getEventRecords log) s = .next (s.mbDone (.cxl 0x0100 (s.eventsHeader log ++ (s.cxl.events log).flatMap eventBytes))) := by
  rw [exec_getEventRecords, execGetEventRecords, State.mailbox_of_up h, if_neg (by omega)]
  rfl

theorem getEventRecords_invalid {log : Nat} (hlog : 4 ≤ log) : exec (.getEventRecords log) s = .next (s.mbDone (.mbReturn cxlInvalidInput)) := by
  rw [exec_getEventRecords, execGetEventRecords, State.mailbox_of_up h, if_pos hlog]

end

/-- R444: the logs are numbered 0 to 3; any other number names none. -/
theorem CxlSt.events_setEvents (c : CxlSt) {log : Nat} (h : log < 4) (l : List LogRec) (j : Nat) :
    (c.setEvents log l).events j = if j = log then l else c.events j := by
  have hcases : log = 0 ∨ log = 1 ∨ log = 2 ∨ log = 3 := by omega
  match j with
  | 0 | 1 | 2 | 3 => obtain rfl | rfl | rfl | rfl := hcases <;> rfl
  | j + 4 =>
    rw [if_neg (by omega)]
    obtain rfl | rfl | rfl | rfl := hcases <;> rfl

/-- R444: the records that a clear leaves in a log. -/
def State.eventsLeft (s : State) (log : Nat) (all : Bool) (hs : List Nat) : List LogRec :=
  if all then [] else (s.cxl.events log).filter (fun r => !hs.contains (r.seq % 65536))

/-- R444: the state without the records that a clear names, and without the log's overflow. -/
def State.eventsCleared (s : State) (log : Nat) (all : Bool) (hs : List Nat) : State :=
  let c := s.cxl.setEvents log (s.eventsLeft log all hs)
  { s with cxl := { c with overflow := c.overflow.filter (· ≠ log) } }

theorem State.events_eventsCleared (s : State) {log : Nat} (h : log < 4) (all : Bool) (hs : List Nat) (j : Nat) :
    (s.eventsCleared log all hs).cxl.events j = if j = log then s.eventsLeft log all hs else s.cxl.events j :=
  s.cxl.events_setEvents h _ j

theorem State.mem_eventsLeft {s : State} {log : Nat} {all : Bool} {hs : List Nat} {x : LogRec} :
    x ∈ s.eventsLeft log all hs ↔ all = false ∧ x ∈ s.cxl.events log ∧ x.seq % 65536 ∉ hs := by
  unfold State.eventsLeft
  cases all <;> simp

theorem clearEventRecords_clears {s : State} (h : MailboxUp s) {log : Nat} (hlog : log < 4) (all : Bool) (hs : List Nat) :
    exec (.clearEventRecords log all hs) s = .next ((s.eventsCleared log all hs).mbDone (.mbReturn cxlSuccess)) := by
  rw [exec_clearEventRecords, execClearEventRecords, State.mailbox_of_up h, if_neg (by omega)]
  rfl

/-! ### The interrupt policy and the host timestamp (R441) -/

/-- A state with another interrupt policy. -/
def State.withPolicy (s : State) (p : Bytes) : State := { s with cxl := { s.cxl with policy := p } }

theorem setEventInterruptPolicy_sets {s : State} (h : MailboxUp s) {p : Bytes} (hlen : 4 ≤ p.length)
    (hp : ∀ b ∈ p.take 4, b.toNat % 4 ≤ 1 ∧ b.toNat / 16 = 0) :
    exec (.setEventInterruptPolicy p) s = .next ((s.withPolicy (p.take 4)).mbDone (.mbReturn cxlSuccess)) := by
  have hok : ¬ (p.length < 4 ∨ (p.take 4).any (fun b => decide (1 < b.toNat % 4) || decide (b.toNat / 16 ≠ 0)) = true) := by
    rintro (hshort | hbad)
    · omega
    · obtain ⟨b, hb, hbit⟩ := List.any_eq_true.1 hbad
      obtain ⟨hmode, hvector⟩ := hp b hb
      simp [hvector, Nat.not_lt.2 hmode] at hbit
  rw [exec_setEventInterruptPolicy, execSetEventInterruptPolicy, State.mailbox_of_up h, if_neg hok]
  rfl

theorem getEventInterruptPolicy_gives {s : State} (h : MailboxUp s) :
    exec .getEventInterruptPolicy s = .next (s.mbDone (.cxl 0x0102 (padTo 4 s.cxl.policy))) := by
  rw [exec_getEventInterruptPolicy, execGetEventInterruptPolicy, State.mailbox_of_up h]

/-- A state with another value behind its host timestamp. -/
def State.withHostTime (s : State) (v : Nat) : State := { s with cxl := { s.cxl with hostTime := v } }

/-- R441: the value behind a host timestamp that reads t at a time: 1 plus their difference. -/
def hostTimeOf (t now : Nat) : Nat := 1 + (t % 2 ^ 64 + 2 ^ 64 - now % 2 ^ 64) % 2 ^ 64

theorem setTimestamp_sets {s : State} (h : MailboxUp s) (t : Nat) :
    exec (.setTimestamp t) s = .next ((s.withHostTime (hostTimeOf t s.epoch)).mbDone (.mbReturn cxlSuccess)) := by
  rw [exec_setTimestamp, execSetTimestamp, State.mailbox_of_up h]
  rfl

/-- R441: the host timestamp that a state reads once it is set. -/
theorem getTimestamp_gives {s : State} (h : MailboxUp s) (hset : s.cxl.hostTime ≠ 0) :
    exec .getTimestamp s = .next (s.mbDone (.cxl 0x0300 (leBytes 8 ((s.cxl.hostTime - 1 + s.epoch) % 2 ^ 64)))) := by
  rw [exec_getTimestamp, execGetTimestamp, State.mailbox_of_up h, if_neg hset]

/-- R441: the timestamp runs with the Epoch Counter. -/
theorem hostTime_runs (t e d : Nat) : (hostTimeOf t e - 1 + (e + d)) % 2 ^ 64 = (t + d) % 2 ^ 64 := by
  unfold hostTimeOf
  omega

/-- R441: a timestamp read d ticks after it was set. -/
theorem getTimestamp_later {s : State} (h : MailboxUp s) {v : Nat} (hv : v ≠ 0) (d : Nat) :
    exec .getTimestamp { s.withHostTime v with epoch := (s.withHostTime v).epoch + d } =
      .next (({ s.withHostTime v with epoch := (s.withHostTime v).epoch + d } : State).mbDone
        (.cxl 0x0300 (leBytes 8 ((v - 1 + (s.epoch + d)) % 2 ^ 64)))) :=
  getTimestamp_gives (s := { s.withHostTime v with epoch := (s.withHostTime v).epoch + d }) ⟨h.port, h.up, h.own⟩ hv

/-! ### The end of a state wait (R53, R441) -/

theorem State.mbDone_frame (s : State) (m : OutMsg) : LogFrame s (s.mbDone m) ∧ (s.mbDone m).od = s.od :=
  ⟨(s.emit_frame m).step (State.signal_frame _ 0), by simp [State.mbDone]⟩

theorem requestAbort_ends {s : State} (h : MailboxUp s) {w : StateWait} (hw : s.od.stateWait = some w) (ho : w.origin = .mailbox) :
    exec .requestAbortBackgroundOperation s = .next (s.mbDone (.mbReturn cxlSuccess)).endStateWait := by
  have hwait : (s.mbDone (.mbReturn cxlSuccess)).od.stateWait = some w := by rw [(s.mbDone_frame _).2, hw]
  rw [exec_requestAbortBackgroundOperation, execRequestAbortBackgroundOperation, State.mailbox_of_up h]
  simp only [hwait, Option.any_some, ho, beq_self_eq_true, if_true]

/-- R53: a wait of the mailbox ends with its answer. -/
theorem State.endStateWait_of_mailbox {s : State} {w : StateWait} (hw : s.od.stateWait = some w) (ho : w.origin = .mailbox) :
    s.endStateWait.od.stateWait = none := by
  rw [State.endStateWait_of_some hw, ho]
  exact congrArg OdSt.stateWait (State.mbDone_frame _ _).2

/-- Settles O41: each command by the lemma on what it answers or sets. -/
theorem cxlMailboxCommands : Obligations.CxlMailboxCommands := by
  refine ⟨fun c s hc hport hr => mailbox_busy hc hport hr, fun c s hc hport hup hown => mailbox_answers ⟨hport, hup, hown⟩ hc,
    fun log off len s hport hup hown hlog hlen => hlog ▸ getLog_answers ⟨hport, hup, hown⟩ hlen,
    fun log s hport hup hown => ⟨fun hlog => ⟨_, s.length_eventsHeader log, getEventRecords_answers ⟨hport, hup, hown⟩ hlog⟩,
      fun hlog => getEventRecords_invalid ⟨hport, hup, hown⟩ hlog⟩,
    fun log all hs s hport hup hown hlog => ⟨_, clearEventRecords_clears ⟨hport, hup, hown⟩ hlog all hs, rfl, fun x => ?_, ?_, fun l hl => ?_⟩,
    fun p s hport hup hown hlen hp => ⟨_, setEventInterruptPolicy_sets ⟨hport, hup, hown⟩ hlen hp, rfl, ?_⟩,
    fun t s hport hup hown _ => ⟨_, setTimestamp_sets ⟨hport, hup, hown⟩ t, rfl, fun d => ?_⟩,
    fun s w hport hup hown hw ho => ⟨_, requestAbort_ends ⟨hport, hup, hown⟩ hw ho, ?_⟩⟩
  · rw [State.events_eventsCleared s hlog, if_pos rfl]
    exact State.mem_eventsLeft
  · simp [State.eventsCleared]
  · rw [State.events_eventsCleared s hlog, if_neg hl]
  · have hpolicy : padTo 4 (p.take 4) = p.take 4 := padTo_of_length (List.length_take_of_le hlen)
    have hgive := getEventInterruptPolicy_gives (s := s.withPolicy (p.take 4)) ⟨hport, hup, hown⟩
    rwa [show (s.withPolicy (p.take 4)).cxl.policy = p.take 4 from rfl, hpolicy] at hgive
  · have hlater := getTimestamp_later (s := s) ⟨hport, hup, hown⟩ (v := hostTimeOf t s.epoch) (by unfold hostTimeOf; omega) d
    rwa [hostTime_runs] at hlater
  · obtain ⟨hdone, hod⟩ := s.mbDone_frame (.mbReturn cxlSuccess)
    have hend := (s.mbDone (.mbReturn cxlSuccess)).endStateWait_answerFrame
    exact ⟨State.endStateWait_of_mailbox (by rw [hod, hw]) ho, hend.mode.trans hdone.mode, hend.mem.trans hdone.mem, hend.halls.trans hdone.halls⟩

end Sys2Proof.Machine
end

section
/-!
SUPPORT. The SMBus port (R499, R500): what a read answers, the greatest of the readings, and the causes of ALERT_N bit by bit.
-/

namespace Sys2Proof.Machine

/-! ### A read answers and changes nothing else -/

/-- The result of a read of the SMBus port: one answer, nothing where the PEC is wrong or the module is off. -/
def AnswersSmbus (pecOk : Bool) (s : State) (r : Result) : Prop :=
  ∃ (t : State) (x : Option Bytes), r = .next t ∧ t.out = s.out ++ [.smbus x] ∧ t = { s with out := t.out, free := t.free } ∧
    (pecOk = false ∨ s.mode = .off → x = none)

/-- R500: a right PEC outside Off. -/
theorem State.smbusRead_of_on {s : State} (hon : s.mode ≠ .off) (cmd : Nat) (data : Bytes) :
    s.smbusRead true cmd data = .next (s.emit (.smbus (some (data ++ [pecOf
      (leBytes 1 (2 * s.smbusAddr) ++ leBytes 1 cmd ++ leBytes 1 (2 * s.smbusAddr + 1) ++ data)])))) := by
  unfold State.smbusRead
  rw [if_neg (by simpa using hon)]

theorem State.smbusRead_without {pecOk : Bool} {s : State} (h : pecOk = false ∨ s.mode = .off) (cmd : Nat) (data : Bytes) :
    s.smbusRead pecOk cmd data = .next (s.emit (.smbus none)) := by
  unfold State.smbusRead
  rw [if_pos (by simpa using h)]

theorem State.smbusRead_answers (pecOk : Bool) (s : State) (cmd : Nat) (data : Bytes) : AnswersSmbus pecOk s (s.smbusRead pecOk cmd data) := by
  by_cases h : pecOk = false ∨ s.mode = .off
  · exact ⟨_, none, s.smbusRead_without h cmd data, rfl, rfl, fun _ => rfl⟩
  · obtain ⟨hpec, hon⟩ := not_or.mp h
    rw [Bool.not_eq_false] at hpec
    subst hpec
    exact ⟨_, _, s.smbusRead_of_on hon cmd data, rfl, rfl, fun h' => absurd h' h⟩

/-- The reads that take a free value. -/
theorem State.tick_smbusRead_answers (pecOk : Bool) (s : State) (cmd : Nat) (data : Bytes) :
    AnswersSmbus pecOk s (s.tick.smbusRead pecOk cmd data) := by
  obtain ⟨t, x, hread, hout, ht, hx⟩ := s.tick.smbusRead_answers pecOk cmd data
  exact ⟨t, x, hread, hout, ht, hx⟩

theorem exec_alertResponseAddress (pecOk : Bool) (s : State) : exec (.alertResponseAddress pecOk) s = execAlertResponseAddress pecOk s := by rfl

theorem State.alertResponse_without {pecOk : Bool} {s : State} (h : (pecOk = false ∨ s.mode = .off) ∨ s.alertCauses = 0) :
    execAlertResponseAddress pecOk s = .next (s.emit (.smbus none)) := by
  unfold execAlertResponseAddress
  rw [if_pos (by simpa using h)]

theorem State.alertResponse_of_cause {s : State} (hon : s.mode ≠ .off) (hcause : s.alertCauses ≠ 0) :
    execAlertResponseAddress true s =
      .next (s.emit (.smbus (some (leBytes 1 (2 * s.smbusAddr) ++ [pecOf ([0x19#8] ++ leBytes 1 (2 * s.smbusAddr))])))) := by
  unfold execAlertResponseAddress
  rw [if_neg (by simpa using ⟨hon, hcause⟩)]

theorem State.alertResponse_answers (pecOk : Bool) (s : State) : AnswersSmbus pecOk s (execAlertResponseAddress pecOk s) := by
  by_cases h : (pecOk = false ∨ s.mode = .off) ∨ s.alertCauses = 0
  · exact ⟨_, none, State.alertResponse_without h, rfl, rfl, fun _ => rfl⟩
  · obtain ⟨hread, hcause⟩ := not_or.mp h
    obtain ⟨hpec, hon⟩ := not_or.mp hread
    rw [Bool.not_eq_false] at hpec
    subst hpec
    exact ⟨_, _, State.alertResponse_of_cause hon hcause, rfl, rfl, fun h' => absurd h' hread⟩

/-! ### The greatest of the readings -/

/-- The greatest is one of the list. -/
theorem mem_of_maxInt : ∀ {l : List Int} {m : Int}, maxInt l = some m → m ∈ l
  | [], _, h => by simp [maxInt] at h
  | x :: t, m, h => by
    rw [maxInt] at h
    cases hm : maxInt t with
    | none =>
      rw [hm] at h
      simp only [Option.some.injEq] at h
      exact h ▸ List.mem_cons_self ..
    | some k =>
      rw [hm] at h
      simp only [Option.some.injEq] at h
      by_cases hlt : x < k
      · rw [if_pos hlt] at h
        exact List.mem_cons_of_mem _ (h ▸ mem_of_maxInt hm)
      · rw [if_neg hlt] at h
        exact h ▸ List.mem_cons_self ..

theorem maxInt_of_greatest : ∀ {l : List Int} {v : Int}, v ∈ l → (∀ w ∈ l, w ≤ v) → maxInt l = some v
  | [x], v, hv, _ => by rw [maxInt, maxInt, List.mem_singleton.mp hv]
  | x :: y :: t, v, hv, hle => by
    have hx : x ≤ v := hle x (List.mem_cons_self ..)
    by_cases hin : v ∈ y :: t
    · rw [maxInt, maxInt_of_greatest hin (fun w hw => hle w (List.mem_cons_of_mem _ hw))]
      by_cases hlt : x < v
      · simp only [if_pos hlt]
      · simp [show x = v by omega]
    · have hxv : v = x := (List.mem_cons.mp hv).resolve_right hin
      subst hxv
      rw [maxInt]
      cases hm : maxInt (y :: t) with
      | none => rfl
      | some m =>
        have hmem : m ≤ v := hle m (List.mem_cons_of_mem _ (mem_of_maxInt hm))
        simp only [if_neg (not_lt.mpr hmem)]

/-- The greatest of the readings that are there, for readings numbered below `n`. -/
theorem maxTemp_of_greatest {g : Nat → Option Int} {n h : Nat} {v : Int} (hn : h < n) (hv : g h = some v)
    (hle : ∀ k w, k < n → g k = some w → w ≤ v) : maxTemp ((List.range n).map g) = some v := by
  refine maxInt_of_greatest ?_ ?_
  · exact List.mem_filterMap.mpr ⟨some v, List.mem_map.mpr ⟨h, List.mem_range.mpr hn, hv⟩, rfl⟩
  · intro w hw
    obtain ⟨o, ho, hsome⟩ := List.mem_filterMap.mp hw
    obtain ⟨k, hk, hgk⟩ := List.mem_map.mp ho
    exact hle k w (List.mem_range.mp hk) (hgk.trans hsome)

/-! ### The causes of ALERT_N -/

/-- R499: a severe record in the log asserts ALERT_N. -/
def State.severeRecord (s : State) : Bool := s.log.buffer.any (fun r => decide (s.odGet Od.alertSeverity ≤ r.severity))

theorem State.severeRecord_iff (s : State) : s.severeRecord = true ↔ ∃ r ∈ s.log.buffer, s.odGet Od.alertSeverity ≤ r.severity := by
  unfold State.severeRecord
  rw [List.any_eq_true]
  simp only [decide_eq_true_eq]

/-- Four causes, one bit each. -/
theorem bit_of_causes (a b c d : Bool) :
    let v := (if a = true then 1 else 0) + (if b = true then 2 else 0) + (if c = true then 4 else 0) + (if d = true then 8 else 0)
    bit v 0 = a ∧ bit v 1 = b ∧ bit v 2 = c ∧ bit v 3 = d := by
  revert a b c d
  decide

theorem State.bit_alertCauses (s : State) : bit s.alertCauses 0 = s.severeRecord ∧ bit s.alertCauses 1 = s.newel.tripped ∧
    bit s.alertCauses 2 = decide (s.mode = .safeStop) ∧ bit s.alertCauses 3 = s.newel.svcCounted := by
  have h := bit_of_causes s.severeRecord s.newel.tripped (decide (s.mode = .safeStop)) s.newel.svcCounted
  simp only [decide_eq_true_eq] at h
  exact h

/-! ### The statement -/

theorem length_identity : (ascii "CTX3-48A" ++ zeros 1 ++ serialBytes : Bytes).length = 9 + serialBytes.length := by
  simp only [List.length_append]
  rfl

/-- Settles O53, from what a read answers, the greatest of the readings and the causes bit by bit. -/
theorem smbusReadsAnswer : Obligations.SmbusReadsAnswer := by
  refine ⟨fun c b s hc => ?_, fun cmd data s hon => ⟨_, rfl, s.smbusRead_of_on hon cmd data⟩,
    fun s => ⟨rfl, rfl, rfl, rfl, rfl, ?_⟩, fun s => ⟨?_, ?_, ?_, ?_, ?_⟩, fun s => ⟨?_, ?_, ?_, ?_, ?_, ?_⟩⟩
  · simp only [List.mem_cons, List.not_mem_nil, or_false] at hc
    obtain rfl | rfl | rfl | rfl | rfl | rfl | rfl | rfl | rfl | rfl | rfl | rfl := hc
    · exact s.smbusRead_answers b ..
    · exact s.smbusRead_answers b ..
    · exact s.tick_smbusRead_answers b ..
    · exact s.tick_smbusRead_answers b ..
    · exact s.tick_smbusRead_answers b ..
    · exact s.tick_smbusRead_answers b ..
    · exact s.smbusRead_answers b ..
    · exact s.tick_smbusRead_answers b ..
    · exact s.smbusRead_answers b ..
    · exact s.smbusRead_answers b ..
    · exact s.smbusRead_answers b ..
    · exact s.alertResponse_answers b
  · rw [← length_identity]
    rfl
  · intro x hx
    change execSmbusReadCoolantInlet true s = _
    rw [execSmbusReadCoolantInlet, hx]
    rfl
  · intro x hx
    change execSmbusReadCoolantOutlet true s = _
    rw [execSmbusReadCoolantOutlet, hx]
    rfl
  · intro x hx
    change execSmbusReadInputCurrent true s = _
    rw [execSmbusReadInputCurrent, hx]
  · intro h v hh hv hle
    change execSmbusReadHallTemp true s = _
    rw [execSmbusReadHallTemp, maxTemp_of_greatest hh hv hle]
    rfl
  · intro n v hn hv hle
    change execSmbusReadStackTemp true s = _
    rw [execSmbusReadStackTemp, maxTemp_of_greatest hn hv hle]
    rfl
  · exact fun h => (exec_alertResponseAddress true s).trans (State.alertResponse_without (.inr h))
  · exact fun h hon => (exec_alertResponseAddress true s).trans (State.alertResponse_of_cause hon h)
  all_goals obtain ⟨h0, h1, h2, h3⟩ := s.bit_alertCauses
  · rw [h1]
  · rw [h2, decide_eq_true_eq]
  · rw [h3]
  · rw [h0, s.severeRecord_iff]

end Sys2Proof.Machine
end

section
/-!
SUPPORT. One arch at a time: what setting an arch leaves alone, and the statement on replay and retraining (R401, R405).
-/

namespace Sys2Proof.Machine

/-! ### Setting an arch -/

@[simp] theorem State.arch_setArch_self (s : State) (n : Nat) (a : ArchSt) : (s.setArch n a).arch n = a := by
  unfold State.setArch State.arch
  exact kget_kset_self _ _ _ _

theorem State.arch_setArch_ne (s : State) {n k : Nat} (h : k ≠ n) (a : ArchSt) : (s.setArch n a).arch k = s.arch k := by
  unfold State.setArch State.arch
  exact kget_kset_ne h _ _ _ _

/-- A step that touches one arch and nothing else of what claims about arches speak of. -/
def ArchOnly (n : Nat) (s t : State) : Prop := SameOtherArches n s t ∧ SameBeyondArcade s t ∧ t.od = s.od

theorem ArchOnly.refl (n : Nat) (s : State) : ArchOnly n s s :=
  ⟨fun _ _ => rfl, ⟨rfl, rfl, rfl, rfl, rfl, rfl, rfl, rfl, rfl, rfl, rfl, rfl, rfl⟩, rfl⟩

theorem ArchOnly.setArch {n : Nat} {s t : State} (h : ArchOnly n s t) (a : ArchSt) : ArchOnly n s (t.setArch n a) := by
  obtain ⟨hother, hbeyond, hod⟩ := h
  exact ⟨fun k hk => (t.arch_setArch_ne hk a).trans (hother k hk), hbeyond, hod⟩

theorem State.setArch_archOnly (s : State) (n : Nat) (a : ArchSt) : ArchOnly n s (s.setArch n a) := (ArchOnly.refl n s).setArch a

/-! ### Retraining (R401) -/

/-- An arch once it retrains; `lane` where an offending lane moves onto the spare. -/
def ArchSt.retrained (a : ArchSt) (lane : Bool) : ArchSt := { a.retrain with spare := a.spare || (lane && a.lanes == 4) }

theorem State.arch_retrainArch (s : State) (n : Nat) (lane : Bool) : (s.retrainArch n lane).arch n = (s.arch n).retrained lane :=
  s.arch_setArch_self n _

theorem ArchOnly.retrainArch {n : Nat} {s t : State} (h : ArchOnly n s t) (lane : Bool) : ArchOnly n s (t.retrainArch n lane) := h.setArch _

/-! ### Replay (R405) -/

theorem exec_ackTimeout (n : Nat) (s : State) : exec (.ackTimeout n) s = execAckTimeout n s := by rfl
theorem exec_nak (n expected : Nat) (s : State) : exec (.nak n expected) s = execNak n expected s := by rfl
theorem exec_fecLockLost (n : Nat) (s : State) : exec (.fecLockLost n) s = execFecLockLost n s := by rfl
theorem exec_laneFecWindow (n : Nat) (l : List Nat) (u : Nat) (s : State) : exec (.laneFecWindow n l u) s = execLaneFecWindow n l u s := by rfl

/-- An arch whose every unacknowledged flit is due again. -/
def ArchSt.replayed (a : ArchSt) : ArchSt := { a with resend := a.retry, streak := a.streak + 1 }

theorem State.replayArch_of_early {s : State} {n : Nat} (hr : (s.arch n).retry ≠ []) (h : (s.arch n).streak + 1 < 8 ∨ s.mode ≠ .run) :
    s.replayArch n = s.setArch n (s.arch n).replayed := by
  unfold State.replayArch
  rw [if_neg hr, if_neg (by rintro ⟨h8, hrun⟩; exact h.elim (fun h => by omega) (fun h => h hrun))]
  rfl

theorem State.replayArch_of_eighth {s : State} {n : Nat} (hr : (s.arch n).retry ≠ []) (h8 : 8 ≤ (s.arch n).streak + 1) (hrun : s.mode = .run) :
    s.replayArch n = s.retrainArch n false := by
  unfold State.replayArch
  rw [if_neg hr, if_pos ⟨h8, hrun⟩]

theorem execAckTimeout_of_up {n : Nat} {s : State} (hok : archOk n = true) (hup : (s.arch n).up = true) :
    exec (.ackTimeout n) s = .next (s.replayArch n) := by
  rw [exec_ackTimeout, execAckTimeout, if_neg (by simp [hok])]
  exact if_neg (by simp [hup])

theorem execNak_of_up {n : Nat} {s : State} (hok : archOk n = true) (hup : (s.arch n).up = true) (expected : Nat) :
    exec (.nak n expected) s = .next ((s.setArch n ((s.arch n).acked ((expected + 65535) % 65536) s.epoch)).replayArch n) := by
  rw [exec_nak, execNak, if_neg (by simp [hok])]
  exact if_neg (by simp [hup])

/-- The distance from a sequence number to the last one that a NAK of the k-th next acknowledges. -/
theorem seqDist_before {q k : Nat} (hq : q < 65536) (h0 : 0 < k) (hk : k < 65536) :
    seqDist q (((q + k) % 65536 + 65535) % 65536) + 1 = k := by
  unfold seqDist
  omega

/-- An ACK of the first k flits of the retry buffer frees just them. -/
theorem ArchSt.acked_retry {a : ArchSt} {x : TxFlit} {l : List TxFlit} {k ack : Nat} (hr : a.retry = x :: l) (hd : seqDist x.fl.seq ack + 1 = k)
    (hk : k ≤ l.length) (now : Nat) :
    (a.acked ack now).retry = (x :: l).drop k ∧ (a.acked ack now).streak = 0 ∧ (a.acked ack now).queues = a.queues := by
  unfold ArchSt.acked
  rw [hr]
  simp only [hd]
  rw [if_neg (by simp only [List.length_cons]; omega)]
  exact ⟨rfl, rfl, rfl⟩

/-! ### The corrected symbols of a second (R402) -/

/-- The counts of a second are added. -/
def ArchSt.fecCounted (a : ArchSt) (l : List Nat) (u : Nat) : ArchSt := { a with fecCorr := a.fecCorr + l.sum, fecUncorr := a.fecUncorr + u }

theorem execLaneFecWindow_of_up {n : Nat} {s : State} (hok : archOk n = true) (hup : (s.arch n).up = true)
    (htest : (s.arch n).partnerTest = false) (l : List Nat) (u : Nat) :
    exec (.laneFecWindow n l u) s = .next (if s.mode = .run ∧ (l.any fun k => decide (s.odGet Od.laneSymbolLimit ≤ k)) = true
      then (s.setArch n ((s.arch n).fecCounted l u)).retrainArch n true else s.setArch n ((s.arch n).fecCounted l u)) := by
  rw [exec_laneFecWindow, execLaneFecWindow, if_neg (by simp [hok])]
  exact if_neg (by simp [hup, htest])

/-- Settles O31, from the replay, the retrain and the counts of one arch. -/
theorem replayAndRetrainKeepFlits : Obligations.ReplayAndRetrainKeepFlits := by
  refine ⟨?_, ?_, ?_, ?_, ?_⟩
  · intro n s hok hup hr h
    refine ⟨_, execAckTimeout_of_up hok hup, ?_⟩
    rw [State.replayArch_of_early hr h]
    exact ⟨s.arch_setArch_self n _, s.setArch_archOnly n _⟩
  · intro n s hok hup hr h8 hrun
    refine ⟨_, execAckTimeout_of_up hok hup, ?_⟩
    rw [State.replayArch_of_eighth hr h8 hrun, s.arch_retrainArch]
    exact ⟨rfl, rfl, rfl, rfl, rfl, rfl, (ArchOnly.refl n s).retrainArch false⟩
  · intro n expected k s x l hok hup hr hseq hexp hk hl h0
    refine ⟨_, execNak_of_up hok hup expected, ?_⟩
    have hd : seqDist x.fl.seq ((expected + 65535) % 65536) + 1 = k := by
      rw [hexp]
      exact seqDist_before hseq h0 (by omega)
    obtain ⟨hretry, hstreak, hqueues⟩ := ArchSt.acked_retry hr hd hk s.epoch
    have hne : (x :: l).drop k ≠ [] := by
      rw [Ne, List.drop_eq_nil_iff, List.length_cons]
      omega
    rw [State.replayArch_of_early (by rwa [State.arch_setArch_self, hretry]) (.inl (by rw [State.arch_setArch_self, hstreak]; omega)),
      State.arch_setArch_self]
    rw [State.arch_setArch_self]
    exact ⟨hretry, hretry, congrArg (· + 1) hstreak, hqueues, (s.setArch_archOnly n _).setArch _⟩
  · intro n s hok hup
    refine ⟨s.retrainArch n false, ?_, ?_⟩
    · rw [exec_fecLockLost, execFecLockLost, hok, hup]
      rfl
    · rw [s.arch_retrainArch]
      exact ⟨rfl, rfl, rfl, rfl, rfl, rfl, Bool.or_false _, (ArchOnly.refl n s).retrainArch false⟩
  · intro n l u s hok hup htest
    refine ⟨_, execLaneFecWindow_of_up hok hup htest l u, ?_⟩
    have hany : (l.any fun k => decide (s.odGet Od.laneSymbolLimit ≤ k)) = true ↔ ∃ k ∈ l, s.odGet Od.laneSymbolLimit ≤ k := by
      rw [List.any_eq_true]
      simp only [decide_eq_true_eq]
    by_cases hlim : s.mode = .run ∧ ∃ k ∈ l, s.odGet Od.laneSymbolLimit ≤ k
    · rw [if_pos (by rwa [hany]), if_pos hlim, State.arch_retrainArch, State.arch_setArch_self]
      exact ⟨rfl, rfl, rfl, rfl, rfl, (s.setArch_archOnly n _).retrainArch true⟩
    · rw [if_neg (by rwa [hany]), if_neg hlim, State.arch_setArch_self]
      exact ⟨rfl, rfl, rfl, rfl, rfl, s.setArch_archOnly n _⟩

end Sys2Proof.Machine
end

section
/-!
SUPPORT. Collectives as they are issued (R421, R422), and expert programs as they start or are skipped (R375 to R377).
-/

namespace Sys2Proof.Machine

/-! ### What the work of a collective keeps -/

/-- Work that keeps the module's state and the counts of the collectives. -/
structure KeepsInstances (s t : State) : Prop where
  mode : t.mode = s.mode
  count : t.serve.collCount = s.serve.collCount

namespace KeepsInstances

variable {s t u : State}

theorem refl (s : State) : KeepsInstances s s := ⟨rfl, rfl⟩

theorem step (h : KeepsInstances s t) (h' : KeepsInstances t u) : KeepsInstances s u := ⟨h'.mode.trans h.mode, h'.count.trans h.count⟩

theorem of_log (h : LogFrame s t) : KeepsInstances s t := ⟨h.mode, congrArg ServeSt.collCount h.serve⟩

theorem of_answer (h : AnswerFrame s t) : KeepsInstances s t := ⟨h.mode, congrArg ServeSt.collCount h.serve⟩

theorem foldl {β : Type} {f : State → β → State} (hf : ∀ r x, KeepsInstances r (f r x)) (l : List β) (s : State) : KeepsInstances s (l.foldl f s) :=
  foldl_keeps (KeepsInstances s) f (fun r x h => h.step (hf r x)) l (.refl s)

theorem ite {c : Prop} [Decidable c] (ht : KeepsInstances s t) (hu : KeepsInstances s u) : KeepsInstances s (if c then t else u) := by
  split <;> assumption

end KeepsInstances

theorem State.count_keepsInstances (s : State) (k n : Nat) : KeepsInstances s (s.count k n) := .of_log (s.count_frame k n)

theorem State.setColl_keepsInstances (s : State) (x : CollSt) : KeepsInstances s (s.setColl x) := ⟨rfl, rfl⟩

theorem State.stepPoison_keepsInstances (s : State) (job : Nat) (bad : Bool) : KeepsInstances s (s.stepPoison job bad) := by
  cases bad <;> exact ⟨rfl, rfl⟩

theorem State.sendFrame_keepsInstances (s : State) (f : Frame) : KeepsInstances s (s.sendFrame f) := .of_answer (s.sendFrame_answerFrame f)

theorem State.sendRows_keepsInstances (s : State) (dest : Word64) (ftype destUnit job tag : Nat) (m : RowForm) (z : Bool) (rows : List TxRow) :
    KeepsInstances s (s.sendRows dest ftype destUnit job tag m z rows) := by
  unfold State.sendRows
  refine .foldl (fun r x => ?_) _ s
  exact (KeepsInstances.ite (.of_log (r.counts_frame _)) (.refl r)).step (State.sendFrame_keepsInstances _ _)

theorem State.takePieces_keepsInstances (s : State) (f : Frame) (pre : Nat) : KeepsInstances s (s.takePieces f pre).2 := by
  unfold State.takePieces
  refine KeepsInstances.ite ?_ (.refl s)
  have h := (s.logEv_frame { code := 0x3043, job := f.job } 0).step (State.count_frame _ Od.linkZErrors 1)
  exact ⟨h.mode, congrArg ServeSt.collCount h.serve⟩

theorem State.sendColl_keepsInstances (s : State) (x : CollSt) : KeepsInstances s (s.sendColl x) := by
  unfold State.sendColl
  refine (KeepsInstances.foldl (fun r p => ?_) _ s).step (State.setColl_keepsInstances _ _)
  exact (KeepsInstances.ite (r.sendFrame_keepsInstances _) (.refl r)).step (State.sendRows_keepsInstances _ _ _ _ _ _ _ _ _)

theorem State.sendSums_keepsInstances (s : State) (x : CollSt) : KeepsInstances s (s.sendSums x) := by
  unfold State.sendSums
  exact (KeepsInstances.foldl (fun r p => r.sendRows_keepsInstances _ _ _ _ _ _ _ _) _ s).step (State.setColl_keepsInstances _ _)

theorem State.countSums'_keepsInstances (s : State) (x : CollSt) : KeepsInstances s (s.countSums' x) := by
  unfold State.countSums'
  exact .ite (.refl s) (s.count_keepsInstances _ _)

theorem State.placePiece_keepsInstances (s : State) (b : Buf) (r off : Nat) (data : Bytes) (poison : Bool) (tenant : Nat) :
    KeepsInstances s (s.placePiece b r off data poison tenant) := ⟨rfl, rfl⟩

theorem State.setLsb_keepsInstances (s : State) (b : Buf) (e : Int) : KeepsInstances s (s.setLsb b e) := ⟨rfl, rfl⟩

theorem State.writeColl_keepsInstances (s : State) (x : CollSt) (q : CollPart) : KeepsInstances s (s.writeColl x q) := by
  unfold State.writeColl
  split
  · split
    · exact .refl s
    · refine KeepsInstances.step ?_ (KeepsInstances.ite (State.setLsb_keepsInstances _ _ _) (.refl _))
      exact (KeepsInstances.foldl (fun r e => r.placePiece_keepsInstances _ _ _ _ _ _) _ s).step (State.stepPoison_keepsInstances _ _ _)
  · exact .refl s

/-- R424: a collective that goes on as far as what it has allows. -/
theorem State.collStep_keepsInstances (s : State) (x : CollSt) : KeepsInstances s (s.collStep x) := by
  unfold State.collStep
  refine .ite (.ite (s.setColl_keepsInstances x) (s.sendColl_keepsInstances x))
    (.ite (.ite (s.sendSums_keepsInstances x) (s.setColl_keepsInstances x)) (.ite ?_ (s.setColl_keepsInstances x)))
  exact ((s.countSums'_keepsInstances x).step (.foldl (fun r q => r.writeColl_keepsInstances x q) _ _)).step ⟨rfl, rfl⟩

theorem State.collRun_keepsInstances (s : State) (job : Nat) (g : Word64) (count : Nat) : KeepsInstances s (s.collRun job g count) := by
  unfold State.collRun
  refine .foldl (fun r _ => ?_) _ s
  split
  · exact r.collStep_keepsInstances _
  · exact .refl r

theorem State.collFrame_keepsInstances (s : State) (x : CollSt) (f : Frame) : KeepsInstances s (s.collFrame x f) := by
  unfold State.collFrame
  exact (KeepsInstances.ite (s.setColl_keepsInstances _) ((s.takePieces_keepsInstances f 0).step (State.setColl_keepsInstances _ _))).step
    (State.collRun_keepsInstances _ _ _ _)

theorem State.takeColl_keepsInstances (s : State) (f : Frame) : KeepsInstances s (s.takeColl f) := by
  unfold State.takeColl
  split
  · exact s.collFrame_keepsInstances _ f
  · exact ⟨rfl, rfl⟩

/-! ### The issue of a collective (R422) -/

/-- The key of a group's instances: a flight, a slot and a group. -/
def OpCtx.collKey (c : OpCtx) : Nat := (c.fk * 4 + c.slot) * 16 + bits c.word 107 104

theorem execColl_of_issues {kind : Nat} {f : FlightId} {s : State} {c : OpCtx} (hkind : kind < 5) (h : Issues s f (isColl kind) c) :
    exec (collCommand kind f) s = .next (s.issueOp f (isColl kind) (State.collBody kind)) := by
  have hok : flightOk f = true := h.1
  match kind, hkind with
  | 0, _ => exact if_neg (by simp [hok])
  | 1, _ => exact if_neg (by simp [hok])
  | 2, _ => exact if_neg (by simp [hok])
  | 3, _ => exact if_neg (by simp [hok])
  | 4, _ => exact if_neg (by simp [hok])

/-- R422: once a participant has issued, its group's next collective has the next number. -/
theorem State.collIssued_keeps {s t : State} (ht : KeepsInstances s t) (key n job : Nat) (g : Word64) (x : CollSt) (early kept : List Frame) :
    let u : State := { t.tick with serve := { t.tick.serve with collCount := kset 0 key (n + 1) t.tick.serve.collCount, early := kept } }
    let r := early.foldl State.takeColl ((u.setColl x).collRun job g n)
    r.mode = s.mode ∧ r.serve.collCount = kset 0 key (n + 1) s.serve.collCount := by
  intro u r
  have hr : KeepsInstances u r :=
    ((u.setColl_keepsInstances x).step (State.collRun_keepsInstances _ _ _ _)).step (.foldl State.takeColl_keepsInstances early _)
  exact ⟨hr.mode.trans ht.mode, hr.count.trans (congrArg (kset 0 key (n + 1)) ht.count)⟩

theorem State.collBody_of_stands {s : State} {c : OpCtx} {kind : Nat} {g : GroupE} {src dst : Buf} (h : CollStands s c kind g src dst) :
    ∃ r, State.collBody kind c s = (r, .open_) ∧ r.mode = s.mode ∧
      r.serve.collCount = kset 0 c.collKey (kget 0 c.collKey s.serve.collCount + 1) s.serve.collCount := by
  obtain ⟨hg, hsrc, hdst, hshape, hview, hwr, hsrows, hdrows, hagree⟩ := h
  unfold State.collBody
  simp only [hg, hsrc, hdst]
  have hrows : ∀ k ≤ bits c.word 71 56, src.rowOk (bits c.word 87 72) k = true := fun k hk => hsrows k (Nat.lt_succ_of_le hk)
  rw [if_neg (by simp [hshape]), if_neg (by simpa [hview, hwr] using ⟨hrows, hdrows⟩)]
  split
  · next hno =>
    cases hx : s.collOf c.job g.gallery (kget 0 ((c.fk * 4 + c.slot) * 16 + bits c.word 107 104) s.serve.collCount) with
    | none => simp [hx] at hno
    | some x => simp [hx, hagree x hx] at hno
  · have ht : ∀ (b bad : Bool) (k n : Nat), KeepsInstances s ((if b = true then s.count k n else s).stepPoison c.job bad) := fun b bad k n =>
      (KeepsInstances.ite (s.count_keepsInstances k n) (.refl s)).step (State.stepPoison_keepsInstances _ _ _)
    exact ⟨_, rfl, State.collIssued_keeps (ht _ _ _ _) ..⟩

theorem State.collBody_of_shapeBad {s : State} {c : OpCtx} {kind : Nat} {g : GroupE} {src dst : Buf}
    (hg : c.prog.img.groups[bits c.word 107 104]? = some g) (hsrc : s.resolve c.since (hallLanding c.hall) (bits c.word 103 96) = some src)
    (hdst : s.resolve c.since (hallLanding c.hall) (bits c.word 95 88) = some dst)
    (hbad : collShapeBad kind (bits c.word 71 56 + 1) (max 1 g.members) src dst = true) : State.collBody kind c s = (s, .stop 0x5030) := by
  unfold State.collBody
  simp only [hg, hsrc, hdst]
  rw [if_pos hbad]

/-- Settles O23, from the body of a collective and what its work keeps. -/
theorem collectivesComplete : Obligations.CollectivesComplete := by
  refine ⟨fun kind f s c g src dst hkind hissue hstands => ?_, fun kind f s c g src dst hkind hissue hg hsrc hdst hbad => ?_⟩
  · obtain ⟨r, hbody, hmode, hcount⟩ := State.collBody_of_stands hstands
    refine ⟨r, ?_, ?_, hmode⟩
    · rw [execColl_of_issues hkind hissue, issueOp_open hissue hbody]
    · rw [hcount]
      exact kget_kset_self ..
  · rw [execColl_of_issues hkind hissue, issueOp_stop hissue (State.collBody_of_shapeBad hg hsrc hdst hbad),
      turn_go_flight hissue.2.1]

/-! ### Expert programs (R375 to R377) -/

/-- R375: a slot of a flight runs the expert program of a layer's slot. -/
def State.withExpert (s : State) (key v : Nat) : State := { s with serve := { s.serve with expertProgs := kput key v s.serve.expertProgs } }

/-- R375: an exchange once the expert program of one of its slots has started. -/
def ExchSt.starting (e : ExchSt) (lslot : Nat) : ExchSt := { e with started := e.started ++ [lslot] }

section
variable {f : FlightId} {slot layer lslot i : Nat} {s : State} {p : Prog} {e : ExchSt}

theorem execExpertProgramStart_of_exchange (hf : flightOk f = true) (hp : s.progAt (flightKey f) slot = some p)
    (hi : s.serve.exchanges.findIdx? (fun e => e.job == p.img.job && e.layer == layer && e.written && !e.started.contains lslot) = some i)
    (he : s.serve.exchanges[i]? = some e) :
    exec (.expertProgramStart f slot layer lslot) s =
      if e.slotRows lslot = 0 then
        .next ((s.withExpert (flightKey f * 4 + slot) (layer * 16 + lslot)).skipExpert p.img.job (flightKey f * 4 + slot))
      else if s.mayStart (flightKey f) slot .idle = true then
        .next (((s.modExch i (·.starting lslot)).withExpert (flightKey f * 4 + slot) (layer * 16 + lslot)).startProgram (flightKey f) slot)
      else .next s := by
  change execExpertProgramStart f slot layer lslot s = _
  unfold execExpertProgramStart
  rw [if_neg (by simp [hf])]
  simp only [hp, hi, he]
  rfl

theorem State.withExpert_expert (s : State) (key v : Nat) : kfind key (s.withExpert key v).serve.expertProgs = some v := kfind_kput_self ..

theorem State.modExch_at (he : s.serve.exchanges[i]? = some e) (g : ExchSt → ExchSt) : (s.modExch i g).serve.exchanges[i]? = some (g e) := by
  change (s.serve.exchanges.modify i g)[i]? = some (g e)
  rw [List.getElem?_modify, he]
  simp

end

/-- Settles O25, from the start of an expert program and the timeout of an exchange. -/
theorem expertProgramsStartOrSkip : Obligations.ExpertProgramsStartOrSkip := by
  refine ⟨fun f slot layer lslot i s p e hf hp hi he => ⟨fun hrows => ?_, fun hrows hmay => ?_⟩, fun job layer s e he => ?_⟩
  · refine ⟨s.withExpert _ _, ?_, s.withExpert_expert _ _, rfl, rfl⟩
    rw [execExpertProgramStart_of_exchange hf hp hi he, if_pos hrows]
  · refine ⟨(s.modExch i (·.starting lslot)).withExpert _ _, ?_, State.withExpert_expert _ _ _, State.modExch_at he _, rfl, rfl⟩
    rw [execExpertProgramStart_of_exchange hf hp hi he, if_neg hrows, if_pos hmay]
  · change execExchangeTimeout job layer s = _
    unfold execExchangeTimeout
    rw [he]

end Sys2Proof.Machine
end

section
/-!
SUPPORT. The Epoch Counter across modules (R425 to R429): the tick, the exchange, the rack pulse, and the states of time they leave.
-/

namespace Sys2Proof.Machine

/-! ### Who manages a gallery (R16, R416) -/

/-- Two states agree in what says which module manages a gallery, and in the choice of the rack reference. -/
structure SameRanks (s t : State) : Prop where
  depth : t.depth = s.depth
  ownPath : t.ownPath = s.ownPath
  manager : t.arcade.manager = s.arcade.manager
  managers : t.arcade.managers = s.arcade.managers
  timeMode : t.odGet Od.timeMode = s.odGet Od.timeMode
  rackLost : t.arcade.rackLost = s.arcade.rackLost

namespace SameRanks

variable {s t u : State}

theorem step (h : SameRanks s t) (h' : SameRanks t u) : SameRanks s u :=
  ⟨h'.depth.trans h.depth, h'.ownPath.trans h.ownPath, h'.manager.trans h.manager, h'.managers.trans h.managers, h'.timeMode.trans h.timeMode,
    h'.rackLost.trans h.rackLost⟩

/-- The entries beside those of the hierarchy and of TIME_MODE say nothing of ranks. -/
theorem of_odPut (s : State) {k : Nat} (hk : k ∉ [Od.depthConfig, Od.pathConfig, Od.timeMode]) (v : Nat) : SameRanks s (s.odPut k v) := by
  have hne : ∀ j ∈ [Od.depthConfig, Od.pathConfig, Od.timeMode], (s.odPut k v).odGet j = s.odGet j := fun j hj =>
    s.odGet_odPut_ne (ne_of_mem_of_not_mem hj hk) v
  have hdepth : (s.odPut k v).depth = s.depth := hne Od.depthConfig (by decide)
  refine ⟨hdepth, ?_, rfl, rfl, hne Od.timeMode (by decide), rfl⟩
  rw [State.ownPath, State.ownPath, hdepth, hne Od.pathConfig (by decide)]

theorem levelManager (h : SameRanks s t) (l : Nat) : t.levelManager l = s.levelManager l := by
  unfold State.levelManager State.lowestPath
  rw [h.manager, h.managers, h.depth, h.ownPath]

theorem rackManager (h : SameRanks s t) : t.rackManager = s.rackManager := by
  unfold State.rackManager
  rw [h.depth, h.levelManager]

theorem rackMode (h : SameRanks s t) : t.rackMode = s.rackMode := by
  unfold State.rackMode
  rw [h.timeMode, h.rackLost]

theorem rackFollower (h : SameRanks s t) : t.rackFollower = s.rackFollower := by
  unfold State.rackFollower
  rw [h.rackMode, h.rackManager, h.ownPath]

end SameRanks

theorem State.announce_of_follower {s : State} (h : s.rackFollower = true) : s.announce = s := by
  have hne : s.rackManager ≠ some s.ownPath := by
    rw [State.rackFollower, Bool.and_eq_true] at h
    simpa using h.2
  unfold State.announce
  rw [if_pos (.inr hne)]

/-! ### The tick and the request (R426) -/

theorem SameBeyondArcade.of_odPut {s t : State} (h : SameBeyondArcade s t) (k v : Nat) : SameBeyondArcade s (t.odPut k v) := by
  obtain ⟨h1, h2, h3, h4, h5, h6, h7, h8, h9, h10, h11, h12, h13⟩ := h
  exact ⟨h1, h2, h3, h4, h5, h6, h7, h8, h9, h10, h11, h12, h13⟩

theorem exec_timeReq (n t1 t2 t3 : Nat) (s : State) : exec (.timeReq n t1 t2 t3) s = execTimeReq n t1 t2 t3 s := by rfl
theorem exec_timeExchangeTick (s : State) : exec .timeExchangeTick s = execTimeExchangeTick s := by rfl
theorem exec_timeResp (n t1 t2 t3 t4 : Nat) (s : State) : exec (.timeResp n t1 t2 t3 t4) s = execTimeResp n t1 t2 t3 t4 s := by rfl
theorem exec_rackSyncPulse (s : State) : exec .rackSyncPulse s = execRackSyncPulse s := by rfl
theorem exec_rackRefLost (s : State) : exec .rackRefLost s = execRackRefLost s := by rfl
theorem exec_timeUnaligned (s : State) : exec .timeUnaligned s = execTimeUnaligned s := by rfl

/-- An arch with one more time control flit to send. -/
def ArchSt.withTimeCtl (a : ArchSt) (b : Bytes) : ArchSt := { a with timeCtl := a.timeCtl ++ [ctlFlit b] }

/-- The question is out to the parent. -/
def State.asked (s : State) : State := { s with arcade := { s.arcade with askedAt := some s.epoch } }

/-- R429: holdover has begun: the exchanges near the parent count again from 0. -/
def State.unasked (s : State) : State := { s with arcade := { s.arcade with inBound := 0, askedAt := none } }

theorem SameBeyondArcade.asked {s t : State} (h : SameBeyondArcade s t) : SameBeyondArcade s t.asked := by
  obtain ⟨h1, h2, h3, h4, h5, h6, h7, h8, h9, h10, h11, h12, h13⟩ := h
  exact ⟨h1, h2, h3, h4, h5, h6, h7, h8, h9, h10, h11, h12, h13⟩

theorem State.asked_arch (s : State) (k : Nat) : s.asked.arch k = s.arch k := by
  unfold State.asked State.arch
  exact rfl

section
variable {s : State} (hon : s.mode ≠ .off) (href : s.timeRef = false) (hrack : s.rackFollower = false)
include hon href hrack

theorem execTick_of_parent {n : Nat} (hp : s.parent = some n) :
    let u := (s.setArch n ((s.arch n).withTimeCtl (leBytes 1 2 ++ timeBytes (s.epoch * 256)))).asked
    exec .timeExchangeTick s = .next (if u.odGet Od.timeState = 0 ∨ u.odGet Od.timeState = 3 then u.odPut Od.timeState 1 else u) := by
  rw [exec_timeExchangeTick]
  unfold execTimeExchangeTick
  rw [if_neg hon, if_neg (by simp [href]), if_neg (by simp [hrack]), hp]
  rfl

theorem execTick_of_orphan (hp : s.parent = none) : exec .timeExchangeTick s = .next (s.unasked.odPut Od.timeState 3) := by
  rw [exec_timeExchangeTick]
  unfold execTimeExchangeTick
  rw [if_neg hon, if_neg (by simp [href]), if_neg (by simp [hrack]), hp]
  rfl

end

/-! ### The exchange (R426) -/

/-- The counter, the alignment and the slew that an exchange leaves. -/
structure TimeTaken (s t : State) (offset : Int) (near : Bool) : Prop where
  asked : t.arcade.askedAt = none
  rises : s.epoch ≤ t.epoch
  epoch : s.mode ≠ .training → t.epoch = s.epoch
  slew : s.mode ≠ .training → t.arcade.slew = 2 * offset
  exchanges : t.odGet Od.timeExchanges = (s.odGet Od.timeExchanges + 1) % odModulus Od.timeExchanges
  offset : t.odGet Od.offsetNs = ofInt 32 offset
  inBound : t.arcade.inBound = if near = true then s.arcade.inBound + 1 else 0
  locked : 16 ≤ t.arcade.inBound → t.odGet Od.timeState = 2
  arches : t.arcade.arches = s.arcade.arches
  beyond : SameBeyondArcade s t

theorem State.timeTaken_takes (s : State) (offset : Int) (near : Bool) : TimeTaken s (s.timeTaken offset near) offset near := by
  unfold State.timeTaken
  extract_lets u n out step _ v st
  have hstep : s.mode ≠ .training → step = false := fun h => by
    simp only [step, Bool.and_eq_false_iff]
    exact .inl (by simpa [u] using h)
  have hod : ∀ k, v.odGet k = u.odGet k := fun _ => rfl
  refine ⟨rfl, ?_, fun h => ?_, fun h => ?_, ?_, ?_, rfl, fun h => ?_, rfl, ⟨rfl, rfl, rfl, rfl, rfl, rfl, rfl, rfl, rfl, rfl, rfl, rfl, rfl⟩⟩
  · change s.epoch ≤ if step = true then s.epoch + offset.natAbs else s.epoch
    split <;> omega
  · change (if step = true then s.epoch + offset.natAbs else s.epoch) = s.epoch
    rw [hstep h]
    rfl
  · change (if step = true then 0 else 2 * offset) = 2 * offset
    rw [hstep h]
    rfl
  · rw [State.odGet_odPut_ne _ (by decide), hod, State.odGet_odPut_ne _ (by decide), State.odGet_count_self]
  · rw [State.odGet_odPut_ne _ (by decide), hod, State.odGet_odPut_self]
  · exact (State.odGet_odPut_self _ _ _).trans (if_pos h)

theorem execTimeResp_of_asked {n t1 t2 t3 t4 : Nat} {s : State} (hok : archOk n = true) (hasked : s.arcade.askedAt.isSome = true)
    (hp : s.parent = some n) :
    exec (.timeResp n t1 t2 t3 t4) s = .next (s.timeTaken (timeOffset t1 t2 t3 t4) (nearParent t1 t2 t3 t4)) := by
  rw [exec_timeResp, execTimeResp, if_neg (by simp [hok])]
  exact if_neg (by simpa [hp] using fun h => by simp [h] at hasked)

/-! ### The rack pulse (R428) -/

/-- A pulse has come. -/
def State.pulsed (s : State) : State :=
  { s.count Od.syncPulses 1 with arcade := { s.arcade with pulseAt := some s.epoch } }

/-- The announced value is loaded; the counter never falls. -/
def State.loaded (s : State) (v : Nat) : State :=
  ({ s with epoch := max s.epoch v, arcade := { s.arcade with announced := none, slew := 0 } } : State).odPut Od.timeState 2

theorem State.pulsed_ranks (s : State) : SameRanks s s.pulsed :=
  (SameRanks.of_odPut s (by decide) _).step (u := s.pulsed) ⟨rfl, rfl, rfl, rfl, rfl, rfl⟩

theorem State.loaded_ranks (s : State) (v : Nat) : SameRanks s (s.loaded v) :=
  SameRanks.step (t := { s with epoch := max s.epoch v, arcade := { s.arcade with announced := none, slew := 0 } }) ⟨rfl, rfl, rfl, rfl, rfl, rfl⟩
    (.of_odPut _ (by decide) _)

theorem execPulse_of_follower {s : State} (hon : s.mode ≠ .off) (hf : s.rackFollower = true) :
    exec .rackSyncPulse s = .next (match s.arcade.announced with
      | some v => s.pulsed.loaded v
      | none => s.pulsed) := by
  have hpulsed : s.pulsed.rackFollower = true := s.pulsed_ranks.rackFollower.trans hf
  rw [exec_rackSyncPulse, execRackSyncPulse, if_neg hon]
  change Host.Outcome.next (State.announce (match (if s.pulsed.rackFollower = true then s.arcade.announced else none) with
    | some v => s.pulsed.loaded v
    | none => s.pulsed)) = _
  rw [if_pos hpulsed]
  cases s.arcade.announced with
  | none => exact congrArg Host.Outcome.next (State.announce_of_follower hpulsed)
  | some v => exact congrArg Host.Outcome.next (State.announce_of_follower ((s.pulsed.loaded_ranks v).rackFollower.trans hpulsed))

/-! ### The rack reference lost, and the offset beyond its bound (R429) -/

/-- The module goes on in Arcade mode. -/
def State.withoutRack (s : State) : State :=
  { s with arcade := { s.arcade with rackLost := true, pulseAt := none, announced := none, inBound := 0 } }

/-- The exchanges near the parent count again from 0. -/
def State.outOfBound (s : State) : State := { s with arcade := { s.arcade with inBound := 0 } }

theorem execRackRefLost_of_rack {s : State} (hrack : s.rackMode = true) (hon : s.mode ≠ .off) :
    exec .rackRefLost s = .next (s.withoutRack.logEv { code := 0x5202 }) := by
  rw [exec_rackRefLost, execRackRefLost, if_neg (by simp [hrack, hon])]
  rfl

theorem execTimeUnaligned_of_out {s : State} (hout : s.arcade.outSince.isSome = true) (hst : s.odGet Od.timeState ≠ 4) (href : s.timeRef = false) :
    exec .timeUnaligned s = .next (((s.outOfBound.odPut Od.timeState 4).count Od.alignLosses 1).logEv { code := 0x5201 }) := by
  have hnone : s.arcade.outSince.isNone = false := by
    cases h : s.arcade.outSince <;> simp [h] at hout ⊢
  rw [exec_timeUnaligned, execTimeUnaligned, if_neg (by simp [hnone, hst, href])]
  rfl

/-- Settles O33, event by event. -/
theorem timeAcrossModules : Obligations.TimeAcrossModules := by
  refine ⟨?_, ?_, ?_, ?_, ?_, ?_, ?_⟩
  · intro n t1 t2 t3 s hok hup
    have hexec : exec (.timeReq n t1 t2 t3) s = .next (s.setArch n ((s.arch n).withTimeCtl (leBytes 1 3 ++ timeBytes t1 ++ timeBytes t2 ++ timeBytes t3))) := by
      rw [exec_timeReq, execTimeReq, if_neg (by simp [hok])]
      exact if_neg (by simp [hup])
    obtain ⟨hother, hbeyond, hod⟩ := s.setArch_archOnly n ((s.arch n).withTimeCtl (leBytes 1 3 ++ timeBytes t1 ++ timeBytes t2 ++ timeBytes t3))
    exact ⟨_, hexec, s.arch_setArch_self n _, hother, hbeyond, rfl, hod⟩
  · intro n s hon href hrack hp
    refine ⟨_, execTick_of_parent hon href hrack hp, ?_⟩
    have hput : ArchOnly n s (s.setArch n ((s.arch n).withTimeCtl (leBytes 1 2 ++ timeBytes (s.epoch * 256)))) := s.setArch_archOnly n _
    obtain ⟨hother, hbeyond, _⟩ := hput
    split
    · refine ⟨rfl, ?_, fun k hk => ?_, hbeyond.asked.of_odPut _ _, rfl⟩
      · rw [State.odPut_arch, State.asked_arch, State.arch_setArch_self]
        rfl
      · rw [State.odPut_arch, State.asked_arch, hother k hk]
    · refine ⟨rfl, ?_, fun k hk => ?_, hbeyond.asked, rfl⟩
      · rw [State.asked_arch, State.arch_setArch_self]
        rfl
      · rw [State.asked_arch, hother k hk]
  · intro s hon href hrack hp
    exact ⟨_, execTick_of_orphan hon href hrack hp, State.odGet_odPut_self _ _ _, rfl,
      ⟨rfl, rfl, rfl, rfl, rfl, rfl, rfl, rfl, rfl, rfl, rfl, rfl, rfl⟩, rfl⟩
  · intro n t1 t2 t3 t4 s hok hasked hp
    have h := s.timeTaken_takes (timeOffset t1 t2 t3 t4) (nearParent t1 t2 t3 t4)
    refine ⟨_, execTimeResp_of_asked hok hasked hp, h.asked, h.rises, h.epoch, h.exchanges, h.offset, fun hn => ?_, fun hn => ?_, fun hn h15 => ?_,
      h.slew, h.arches, h.beyond⟩
    · rw [h.inBound, hn]
      rfl
    · rw [h.inBound, hn]
      rfl
    · exact h.locked (by rw [h.inBound, hn, if_pos rfl]; omega)
  · intro s hon hf
    refine ⟨_, execPulse_of_follower hon hf, ?_⟩
    cases ha : s.arcade.announced with
    | none => exact ⟨le_rfl, nofun, fun _ => rfl, ha, rfl, State.odGet_count_self _ _ _,
        ⟨rfl, rfl, rfl, rfl, rfl, rfl, rfl, rfl, rfl, rfl, rfl, rfl, rfl⟩⟩
    | some v =>
      refine ⟨le_max_left _ _, fun w hw => ?_, nofun, rfl, rfl, ?_, ⟨rfl, rfl, rfl, rfl, rfl, rfl, rfl, rfl, rfl, rfl, rfl, rfl, rfl⟩⟩
      · rw [← Option.some.inj hw]
        rfl
      · exact (State.odGet_odPut_ne _ (by decide) _).trans (State.odGet_count_self _ _ _)
  · intro s hrack hon
    have h := s.withoutRack.logEv_frame { code := 0x5202 } 0
    refine ⟨_, execRackRefLost_of_rack hrack hon, ?_, ?_, h.epoch, ?_, h.halls, h.mem, h.serve⟩
    · rw [h.arcade]
      rfl
    · unfold State.rackMode
      rw [h.arcade, Bool.and_eq_false_iff]
      exact .inr rfl
    · rw [h.arcade]
      rfl
  · intro s hout hst href
    have h := ((s.outOfBound.odPut Od.timeState 4).count_frame Od.alignLosses 1).step (State.logEv_frame _ { code := 0x5201 } 0)
    have hod := ((s.outOfBound.odPut Od.timeState 4).count Od.alignLosses 1).logEv_odFrame { code := 0x5201 } 0
    refine ⟨_, execTimeUnaligned_of_out hout hst href, ?_, ?_, h.epoch, ?_, h.halls, h.mem, h.serve⟩
    · rw [hod.same _ (by decide), State.odGet_count_ne _ (by decide), State.odGet_odPut_self]
    · rw [hod.same _ (by decide), State.odGet_count_self, State.odGet_odPut_ne _ (by decide)]
      rfl
    · rw [h.arcade]
      rfl

end Sys2Proof.Machine
end

section
/-!
SUPPORT. Frames that arrive (R409, R420): those for this module, those that go on, those that wait, and those that are discarded.
-/

namespace Sys2Proof.Machine

/-! ### The row of a frame (R409) -/

/-- R412: no bit errors come with a MOVE_DATA frame of the table of frame types. -/
theorem State.moveErrors_nil (s : State) (f : Frame) : s.moveErrors f [] = s := by
  unfold State.moveErrors
  split <;> rfl

theorem exec_frameCommand {t : Nat} (ht : t ∈ frameTypes) (f : Frame) (s : State) : exec (frameCommand t f) s = s.frameRow t f := by
  simp only [frameTypes, List.mem_cons, List.not_mem_nil, or_false] at ht
  obtain rfl | rfl | rfl | rfl | rfl | rfl | rfl | rfl | rfl | rfl | rfl | rfl | rfl := ht
  case inr.inr.inr.inr.inr.inr.inr.inr.inr.inr.inr.inl => exact congrArg (State.frameRow · 0x30 f) (s.moveErrors_nil { f with ftype := 0x30 })
  all_goals rfl

theorem ne_hello_of_frameTypes {t : Nat} (ht : t ∈ frameTypes) : t ≠ 1 := by
  rintro rfl
  revert ht
  decide

section
variable {t : Nat} {f : Frame} {s : State}

/-- R410: a frame of the wrong channel, or longer than any may be. -/
theorem State.frameRow_of_bad (hok : archOk f.arch = true) (hup : (s.arch f.arch).up = true) (hbad : frameVc t ≠ some f.vc ∨ 16400 < f.payload.length) :
    s.frameRow t f = .next (s.count Od.badFrames 1) := by
  have hstate : ¬ ((s.arch f.arch).state = 0 ∨ (s.arch f.arch).state = 5) := by
    simp only [ArchSt.up, Bool.or_eq_true, beq_iff_eq] at hup
    omega
  simp only [State.frameRow, State.takeFrame, hok, hbad, hstate, State.freeCredits_zero, Bool.not_true, Bool.false_eq_true, if_false, if_true]

/-- R414: an arch that does not carry frames takes HELLO alone. -/
theorem State.frameRow_of_closed (ht : t ≠ 1) (hok : archOk f.arch = true) (hup : (s.arch f.arch).up = false) (hvc : frameVc t = some f.vc)
    (hlen : f.payload.length ≤ 16400) : s.frameRow t f = .next s := by
  have hform : ¬ (frameVc t ≠ some f.vc ∨ 16400 < f.payload.length) := by simp [hvc, hlen]
  simp only [State.frameRow, State.takeFrame, hok, hform, ht, hup, State.freeCredits_zero, Bool.not_true, Bool.not_false, Bool.false_eq_true, if_false, if_true]

/-- R420: a frame for another module. -/
theorem Arrives.forwarded (h : Arrives s t f) (hother : s.mine f.dest = false) (ht : t ≠ 1) :
    s.frameRow t f = .next (s.forwardFrame { f with ftype := t } 0) := by
  obtain ⟨hok, hup, hvc, hlen⟩ := h
  have hform : ¬ (frameVc t ≠ some f.vc ∨ 16400 < f.payload.length) := by simp [hvc, hlen]
  simp only [State.frameRow, State.takeFrame, hok, hform, ht, hup, hother, Bool.not_true, Bool.false_eq_true, if_false]

end

/-! ### Frames that go on (R420) -/

/-- The flits of a frame, with the class of buffers that it occupies. -/
def State.framed (s : State) (vc : Nat) (f : Frame) : List TxFlit :=
  (flitsOf ((frameBytes f).length / 240 + 1) vc true (frameBytes f)).map (fun fl => ⟨fl, f.job, if f.src = s.ownPath then 0 else (s.splitLevel f.dest).getD 0⟩)

/-- An arch with flits at the end of a channel's queue. -/
def ArchSt.enqueued (a : ArchSt) (vc : Nat) (l : List TxFlit) : ArchSt := { a with queues := kset [] vc (kget [] vc a.queues ++ l) a.queues }

theorem ArchSt.enqueued_self (a : ArchSt) (vc : Nat) (l : List TxFlit) :
    kget [] vc (a.enqueued vc l).queues = kget [] vc a.queues ++ l := kget_kset_self ..

theorem ArchSt.enqueued_other (a : ArchSt) {vc v : Nat} (h : v ≠ vc) (l : List TxFlit) :
    kget [] v (a.enqueued vc l).queues = kget [] v a.queues := kget_kset_ne h ..

theorem State.queueFrame_of_vc {s : State} {f : Frame} {vc : Nat} (hvc : frameVc f.ftype = some vc) (n : Nat) :
    s.queueFrame n f = (s.setArch n ((s.arch n).enqueued vc (s.framed vc f))).emit (.frame n { f with arch := n, vc := vc }) := by
  unfold State.queueFrame
  rw [hvc]
  rfl

/-- Counting says nothing of paths. -/
theorem State.framed_count (s : State) {k : Nat} (hk : k ∉ [Od.depthConfig, Od.pathConfig, Od.timeMode]) (n vc : Nat) (f : Frame) :
    (s.count k n).framed vc f = s.framed vc f := by
  have h : SameRanks s (s.count k n) := .of_odPut s hk _
  unfold State.framed State.splitLevel
  rw [h.ownPath, h.depth]

theorem State.splitLevel_of_route {s : State} {p : Word64} {n : Nat} (h : s.routeArch p = some n) : s.splitLevel p = some ((s.splitLevel p).getD 0) := by
  unfold State.routeArch at h
  unfold State.splitLevel
  cases hj : (List.range (s.depth - 2)).find? (fun j => hop p j ≠ hop s.ownPath j) with
  | none => rw [hj] at h; cases h
  | some j => rfl

/-- R420: a frame of the same class waits for the same hall's buffers. -/
def State.aheadOf (s : State) (cls h : Nat) : Bool :=
  s.arcade.held.any (fun e => s.splitLevel e.1.dest == some cls && (s.routeArch e.1.dest).any (fun k => k / 3 == h))

section
variable {s : State} {f : Frame} {n : Nat}

theorem State.aheadOf_false (hroute : s.routeArch f.dest = some n)
    (h : ∀ e ∈ s.arcade.held, s.splitLevel e.1.dest = s.splitLevel f.dest → (s.routeArch e.1.dest).map (· / 3) ≠ some (n / 3)) :
    s.aheadOf ((s.splitLevel f.dest).getD 0) (n / 3) = false := by
  unfold State.aheadOf
  rw [List.any_eq_false]
  rintro e he hwaits
  simp only [Bool.and_eq_true, beq_iff_eq, ← State.splitLevel_of_route hroute] at hwaits
  refine h e he hwaits.1 ?_
  cases hk : s.routeArch e.1.dest with
  | none => simp [hk] at hwaits
  | some k => simpa [hk] using hwaits.2

theorem State.forwardFrame_waits (hhops : f.hops + 1 < 16) (hroute : s.routeArch f.dest = some n)
    (hfull : 256 < s.classFlits (n / 3) ((s.splitLevel f.dest).getD 0) + cdiv (frameBytes f).length 240) :
    s.forwardFrame f 0 = { s with arcade := { s.arcade with held := s.arcade.held ++ [(f, 0)] } } := by
  unfold State.forwardFrame
  rw [if_neg (by omega)]
  simp only [hroute]
  rw [if_pos (.inr hfull)]

theorem State.forwardFrame_goes (hhops : f.hops + 1 < 16) (hroute : s.routeArch f.dest = some n)
    (hahead : s.aheadOf ((s.splitLevel f.dest).getD 0) (n / 3) = false)
    (hroom : s.classFlits (n / 3) ((s.splitLevel f.dest).getD 0) + cdiv (frameBytes f).length 240 ≤ 256) :
    s.forwardFrame f 0 = (s.count Od.forwardedFrames 1).queueFrame n { f with hops := f.hops + 1 } := by
  unfold State.aheadOf at hahead
  unfold State.forwardFrame
  rw [if_neg (by omega)]
  simp only [hroute]
  rw [if_neg (by rw [hahead]; simpa using hroom), State.freeCredits_zero]

theorem State.forwardFrame_hops (hhops : 16 ≤ f.hops + 1) :
    s.forwardFrame f 0 = (s.count Od.hopLimitDrops 1).logEv { code := 0x5011, job := f.job } := by
  unfold State.forwardFrame
  rw [if_pos hhops, State.freeCredits_zero]

theorem State.forwardFrame_lost (hhops : f.hops + 1 < 16) (hroute : s.routeArch f.dest = none) :
    s.forwardFrame f 0 = (s.count Od.unroutableDrops 1).logEv { code := 0x5011, job := f.job } := by
  unfold State.forwardFrame
  rw [if_neg (by omega)]
  simp only [hroute]
  exact State.freeCredits_zero _ _ _

/-- A frame that is discarded changes only its counter, and what the log says. -/
theorem State.dropped_frame (s : State) (k : Nat) (hk : k ∉ logEntries) (ev : LogEv) : LogFrame s ((s.count k 1).logEv ev) ∧
    ((s.count k 1).logEv ev).odGet k = (s.odGet k + 1) % odModulus k :=
  ⟨(s.count_frame k 1).step (State.logEv_frame _ ev 0), by rw [((s.count k 1).logEv_odFrame ev 0).same k hk, State.odGet_count_self]⟩

end

/-- Settles O26, by what becomes of a frame that has arrived. -/
theorem framesAreDeliveredForwardedOrDropped : Obligations.FramesAreDeliveredForwardedOrDropped := by
  refine ⟨?_, ?_, ?_, ?_, ?_, ?_⟩
  · intro t f s ht harr hmine
    rw [exec_frameCommand ht, harr.delivered hmine (ne_hello_of_frameTypes ht)]
  · intro t f s n vc ht harr hother hhops hroute hvc hheld hroom
    have hgoes := State.forwardFrame_goes (f := { f with ftype := t }) hhops hroute (State.aheadOf_false hroute hheld) hroom
    have hframed := s.framed_count (k := Od.forwardedFrames) (by decide) 1 vc { f with ftype := t, hops := f.hops + 1 }
    rw [State.queueFrame_of_vc hvc, hframed, State.count_arch] at hgoes
    refine ⟨_, by rw [exec_frameCommand ht, harr.forwarded hother (ne_hello_of_frameTypes ht), hgoes], ?_, fun v hv => ?_, fun k hk => ?_, ?_, ?_⟩
    · rw [State.emit_arch, State.arch_setArch_self, ArchSt.enqueued_self]
      rfl
    · rw [State.emit_arch, State.arch_setArch_self, ArchSt.enqueued_other _ hv]
    · rw [State.emit_arch, State.arch_setArch_ne _ hk, State.count_arch]
    · exact ⟨rfl, rfl, rfl, rfl, rfl, rfl, rfl, rfl, rfl, rfl, rfl, rfl, rfl⟩
    · rw [State.emit_odGet, State.setArch_odGet, State.odGet_count_self]
  · intro t f s n ht harr hother hhops hroute hfull
    rw [exec_frameCommand ht, harr.forwarded hother (ne_hello_of_frameTypes ht),
      State.forwardFrame_waits (f := { f with ftype := t }) hhops hroute hfull]
  · intro t f s ht harr hother hdrop
    have hexec := (exec_frameCommand ht f s).trans (harr.forwarded hother (ne_hello_of_frameTypes ht))
    by_cases hhops : 16 ≤ f.hops + 1
    · rw [State.forwardFrame_hops (f := { f with ftype := t }) hhops] at hexec
      obtain ⟨h, hod⟩ := s.dropped_frame Od.hopLimitDrops (by decide) { code := 0x5011, job := f.job }
      exact ⟨_, hexec, h.arcade, h.halls, h.mem, h.serve, fun _ => hod, fun hlt => absurd hhops (by omega)⟩
    · rw [State.forwardFrame_lost (f := { f with ftype := t }) (Nat.lt_of_not_le hhops) (hdrop.resolve_left hhops)] at hexec
      obtain ⟨h, hod⟩ := s.dropped_frame Od.unroutableDrops (by decide) { code := 0x5011, job := f.job }
      exact ⟨_, hexec, h.arcade, h.halls, h.mem, h.serve, fun hle => absurd hle hhops, fun _ => hod⟩
  · intro t f s ht hok hup hbad
    rw [exec_frameCommand ht, State.frameRow_of_bad hok hup hbad]
  · intro t f s ht hok hup hvc hlen
    rw [exec_frameCommand ht, State.frameRow_of_closed (ne_hello_of_frameTypes ht) hok hup hvc hlen]

end Sys2Proof.Machine
end

section
/-!
SUPPORT. Flit slots (R403, R405 to R407): what goes in one, and what a flit that arrives makes of its arch.
-/

namespace Sys2Proof.Machine

theorem exec_flitSlot (n : Nat) (s : State) : exec (.flitSlot n) s = execFlitSlot n s := by rfl
theorem exec_dataFlit (n : Nat) (fl : RxFlit) (s : State) : exec (.dataFlit n fl) s = execDataFlit n fl s := by rfl

/-! ### What leaves in a slot (R407) -/

/-- The arch carries data flits in this slot. -/
def ArchSt.sendsData (a : ArchSt) : Bool := decide (1 ≤ a.state) && decide (a.state ≤ 4) && !a.partnerTest

/-- R406: an arch once the slot's wait for a credit has been counted. -/
def ArchSt.waited (a : ArchSt) : ArchSt := { a with stalls := a.stalls + (if a.sendsData && a.stalled then 1 else 0) }

/-- The state once the arch has sent what a slot gives it. -/
def State.slotSent (s : State) (n : Nat) (r : Flit × ArchSt) : State := (s.setArch n r.2).emit (.flit n r.1)

theorem State.slotSent_archOnly (s : State) (n : Nat) (r : Flit × ArchSt) : ArchOnly n s (s.slotSent n r) := by
  obtain ⟨hother, hbeyond, hod⟩ := s.setArch_archOnly n r.2
  obtain ⟨h1, h2, h3, h4, h5, h6, h7, h8, h9, h10, h11, h12, h13⟩ := hbeyond
  exact ⟨fun k hk => (State.emit_arch ..).trans (hother k hk), ⟨h1, h2, h3, h4, h5, h6, h7, h8, h9, h10, h11, h12, h13⟩, hod⟩

theorem State.slotSent_arch (s : State) (n : Nat) (r : Flit × ArchSt) : (s.slotSent n r).arch n = r.2 :=
  (State.emit_arch ..).trans (s.arch_setArch_self n r.2)

theorem State.slotSent_out (s : State) (n : Nat) (r : Flit × ArchSt) : (s.slotSent n r).out = s.out ++ [.flit n r.1] := rfl

theorem execFlitSlot_of_alive {n : Nat} {s : State} (hok : archOk n = true) (halive : (s.arch n).alive = true) :
    exec (.flitSlot n) s = .next (s.slotSent n ((s.arch n).waited.slot (s.arch n).sendsData)).forwardHeld := by
  rw [exec_flitSlot, execFlitSlot, if_neg (by simp [hok])]
  exact if_neg (by simp [halive])

theorem ArchSt.alive_of_state {a : ArchSt} (h1 : 1 ≤ a.state) (h4 : a.state ≤ 4) : a.alive = true := by
  simp [ArchSt.alive, h1, h4]

theorem ArchSt.sendsData_of_state {a : ArchSt} (h1 : 1 ≤ a.state) (h4 : a.state ≤ 4) (htest : a.partnerTest = false) : a.sendsData = true := by
  simp [ArchSt.sendsData, h1, h4, htest]

/-- The NAK has gone. -/
def ArchSt.withoutNak (a : ArchSt) : ArchSt := { a with nak := false }

/-- The time control flits still to send. -/
def ArchSt.timeLeft (a : ArchSt) (l : List Flit) : ArchSt := { a with timeCtl := l }

/-- The control flits still to send. -/
def ArchSt.ctlLeft (a : ArchSt) (l : List Flit) : ArchSt := { a with ctl := l }

/-- The flit of an empty slot. -/
def ArchSt.idleSlot (a : ArchSt) : Flit × ArchSt := (a.stamp ⟨0, false, false, 0, 0, 0, 0, 0, [], true⟩, { a.turned with slots := a.slots + 1 })

section
variable {a : ArchSt} {data : Bool}

theorem ArchSt.slot_nak (h : a.nak = true) : a.slot data = a.withoutNak.sendCtl (nakBody a.rxSeq) := by
  unfold ArchSt.slot
  rw [if_pos h]
  rfl

theorem ArchSt.slot_time {fl : Flit} {rest : List Flit} (hnak : a.nak = false) (h : a.timeCtl = fl :: rest) :
    a.slot data = (a.timeLeft rest).sendCtl fl.body := by
  unfold ArchSt.slot
  rw [if_neg (by simp [hnak]), h]
  rfl

theorem ArchSt.slot_ctl {fl : Flit} {rest : List Flit} (hnak : a.nak = false) (htime : a.timeCtl = [])
    (h : (if 15 ≤ a.slots ∨ !data then a.ctl else []) = fl :: rest) : a.slot data = (a.ctlLeft rest).sendCtl fl.body := by
  unfold ArchSt.slot
  rw [if_neg (by simp [hnak]), htime]
  simp only [h, ArchSt.ctlLeft, htime]

theorem ArchSt.slot_idle (hnak : a.nak = false) (htime : a.timeCtl = []) (hctl : (if 15 ≤ a.slots ∨ !data then a.ctl else []) = [])
    (h : data = false ∨ a.resend = [] ∧ 512 ≤ a.retry.length) : a.slot data = a.idleSlot := by
  unfold ArchSt.slot
  rw [if_neg (by simp [hnak]), htime]
  simp only [hctl]
  by_cases hd : data = false
  · rw [if_pos (by simp [hd])]
    rfl
  · obtain ⟨hresend, hfull⟩ := h.resolve_left hd
    rw [if_neg (by simpa using hd), hresend]
    exact if_pos hfull

/-- R407: channel 0 goes before the turns of the others. -/
theorem ArchSt.slot_first {x : TxFlit} {rest : List TxFlit} (hnak : a.nak = false) (htime : a.timeCtl = []) (hctl : a.slots < 15 ∨ a.ctl = [])
    (hresend : a.resend = []) (hroom : a.retry.length < 512) (hq : kget [] 0 a.queues = x :: rest) (hcred : a.credited 0 = true) :
    a.slot true = a.sendData 0 a.turn := by
  have hnone : (if 15 ≤ a.slots ∨ !true then a.ctl else []) = [] := by
    split
    · next h => exact hctl.resolve_left (by simpa using h)
    · rfl
  have hnext : a.nextVc = some (0, a.turn) := by
    unfold ArchSt.nextVc
    exact if_pos (by simp [ArchSt.waiting, hq, hcred])
  unfold ArchSt.slot
  rw [if_neg (by simp [hnak]), htime]
  simp only [hnone]
  rw [if_neg (by simp), hresend]
  simp only
  rw [if_neg (by omega), hnext]

end

/-- R405: with the retry buffer full and nothing to replay, whatever goes in the slot leaves queues, retry buffer and SEQ. -/
theorem ArchSt.slot_full {a : ArchSt} (hfull : 512 ≤ a.retry.length) (hresend : a.resend = []) (data : Bool) :
    (a.slot data).2.queues = a.queues ∧ (a.slot data).2.retry = a.retry ∧ (a.slot data).2.txSeq = a.txSeq := by
  cases hnak : a.nak with
  | true => rw [ArchSt.slot_nak hnak]; exact ⟨rfl, rfl, rfl⟩
  | false =>
    cases htime : a.timeCtl with
    | cons fl rest => rw [ArchSt.slot_time hnak htime]; exact ⟨rfl, rfl, rfl⟩
    | nil =>
      cases hctl : (if 15 ≤ a.slots ∨ !data then a.ctl else []) with
      | cons fl rest => rw [ArchSt.slot_ctl hnak htime hctl]; exact ⟨rfl, rfl, rfl⟩
      | nil => rw [ArchSt.slot_idle hnak htime hctl (.inr ⟨hresend, hfull⟩)]; exact ⟨rfl, rfl, rfl⟩

/-- A flit with its acknowledgement and a channel's credit counter. -/
def stampedFlit (fl : Flit) (ack credVc credCount : Nat) : Flit := { fl with ack := ack, credVc := credVc, credCount := credCount }

/-- A flit with its sequence number. -/
def numberedFlit (fl : Flit) (seq : Nat) : Flit := { fl with seq := seq }

theorem ArchSt.stamp_eq (a : ArchSt) (fl : Flit) : a.stamp fl = stampedFlit fl ((a.rxSeq + 65535) % 65536) a.credVc (kget 0 a.credVc a.freed) := rfl

theorem stampedFlit_same (fl : Flit) (ack credVc credCount : Nat) :
    (stampedFlit fl ack credVc credCount).body = fl.body ∧ (stampedFlit fl ack credVc credCount).kind = fl.kind := ⟨rfl, rfl⟩

theorem numberedFlit_fields (fl : Flit) (seq : Nat) :
    (numberedFlit fl seq).seq = seq ∧ (numberedFlit fl seq).body = fl.body ∧ (numberedFlit fl seq).kind = fl.kind := ⟨rfl, rfl, rfl⟩

/-- A data flit as it goes. -/
def ArchSt.dataFlit (a : ArchSt) (fl : Flit) : Flit := numberedFlit (a.stamp fl) a.txSeq

theorem ArchSt.dataFlit_fields (a : ArchSt) (fl : Flit) :
    (a.dataFlit fl).seq = a.txSeq ∧ (a.dataFlit fl).body = fl.body ∧ (a.dataFlit fl).kind = fl.kind := by
  obtain ⟨hseq, hbody, hkind⟩ := numberedFlit_fields (a.stamp fl) a.txSeq
  obtain ⟨hsame, hsort⟩ := stampedFlit_same fl ((a.rxSeq + 65535) % 65536) a.credVc (kget 0 a.credVc a.freed)
  rw [← a.stamp_eq fl] at hsame hsort
  exact ⟨hseq, hbody.trans hsame, hkind.trans hsort⟩

/-- An arch whose channel has given a flit to the retry buffer. -/
def ArchSt.dataSent (a : ArchSt) (vc turn : Nat) (x : TxFlit) (rest : List TxFlit) : ArchSt :=
  { a.turned with
    queues := kset [] vc rest a.queues, retry := a.retry ++ [x], txSeq := (a.txSeq + 1) % 65536,
    sent := kset 0 vc ((kget 0 vc a.sent + 1) % 65536) a.sent, flitsTx := a.flitsTx + 1, turn := turn, slots := a.slots + 1 }

theorem ArchSt.sendData_of_queue {a : ArchSt} {vc : Nat} {x : TxFlit} {rest : List TxFlit} (hq : kget [] vc a.queues = x :: rest) (turn : Nat) :
    a.sendData vc turn = (a.dataFlit x.fl, a.dataSent vc turn ⟨a.dataFlit x.fl, x.job, x.cls⟩ rest) := by
  unfold ArchSt.sendData
  rw [hq]
  rfl

/-! ### What arrives (R403, R405) -/

/-- An arch whose flit failed its CRC, or was none of R403's. -/
def ArchSt.crcFailed (a : ArchSt) : ArchSt := { a.refused with crcFails := a.crcFails + 1 }

/-- What a discarded flit leaves. -/
structure ArchSt.Discards (a b : ArchSt) : Prop where
  discard : b.discard = true
  nak : b.nak = (a.nak || !a.discard)
  rxSeq : b.rxSeq = a.rxSeq
  partial_ : b.partial_ = a.partial_
  freed : b.freed = a.freed
  retry : b.retry = a.retry

theorem ArchSt.refused_discards (a : ArchSt) : a.Discards a.refused := by
  unfold ArchSt.refused
  cases hd : a.discard with
  | true => exact ⟨hd, by simp [hd], rfl, rfl, rfl, rfl⟩
  | false => exact ⟨rfl, by simp [hd], rfl, rfl, rfl, rfl⟩

theorem ArchSt.crcFailed_discards (a : ArchSt) : a.Discards a.crcFailed :=
  have h := a.refused_discards
  ⟨h.discard, h.nak, h.rxSeq, h.partial_, h.freed, h.retry⟩

/-- What an acknowledgement and a credit counter leave. -/
structure ArchSt.KeepsReceived (a b : ArchSt) : Prop where
  discard : b.discard = a.discard
  nak : b.nak = a.nak
  rxSeq : b.rxSeq = a.rxSeq
  partial_ : b.partial_ = a.partial_
  freed : b.freed = a.freed
  owed : b.owed = a.owed

theorem ArchSt.acked_keepsReceived (a : ArchSt) (ack now : Nat) : a.KeepsReceived (a.acked ack now) := by
  unfold ArchSt.acked
  cases a.retry with
  | nil => exact ⟨rfl, rfl, rfl, rfl, rfl, rfl⟩
  | cons x l =>
    simp only
    split
    · exact ⟨rfl, rfl, rfl, rfl, rfl, rfl⟩
    · exact ⟨rfl, rfl, rfl, rfl, rfl, rfl⟩

theorem ArchSt.heard_keepsReceived (a : ArchSt) (fl : Flit) (now : Nat) : a.KeepsReceived (a.heard fl now) :=
  have h := a.acked_keepsReceived fl.ack now
  ⟨h.discard, h.nak, h.rxSeq, h.partial_, h.freed, h.owed⟩

theorem ArchSt.heard_credit (a : ArchSt) (fl : Flit) (now : Nat) : kget 0 (fl.credVc % 4) (a.heard fl now).credit = fl.credCount % 65536 :=
  kget_kset_self ..

/-- The bytes of a channel's frame with those of one more flit. -/
def ArchSt.joined (a : ArchSt) (fl : Flit) : Bytes := (if fl.first then [] else kget [] (fl.vc % 4) a.partial_) ++ fl.body.take 240

/-- What a flit in order that does not end its frame leaves. -/
structure ArchSt.Joins (a b : ArchSt) (own : Word64) (fl : Flit) : Prop where
  rxSeq : b.rxSeq = (a.rxSeq + 1) % 65536
  discard : b.discard = false
  partial_ : kget [] (fl.vc % 4) b.partial_ = a.joined fl
  freed : kget 0 (fl.vc % 4) b.freed = (kget 0 (fl.vc % 4) a.freed + (if fl.first then kget 0 (fl.vc % 4) a.owed else 0) +
    (if leField (a.joined fl) 0 8 = own.toNat then 1 else 0)) % 65536
  owed : kget 0 (fl.vc % 4) b.owed = (if fl.first then 0 else kget 0 (fl.vc % 4) a.owed) + (if leField (a.joined fl) 0 8 = own.toNat then 0 else 1)
  credit : b.credit = a.credit

theorem ArchSt.taken_of_inner (a : ArchSt) (own : Word64) {fl : Flit} (hlast : fl.last = false) :
    (a.taken own fl).1 = none ∧ a.Joins (a.taken own fl).2 own fl := by
  have hmine : (leField (a.joined fl) 0 8 == own.toNat) = decide (leField (a.joined fl) 0 8 = own.toNat) := rfl
  unfold ArchSt.joined at hmine
  refine ⟨by simp [ArchSt.taken, hlast], ?_⟩
  unfold ArchSt.taken
  simp only [hlast, hmine, decide_eq_true_eq, Bool.false_eq_true, if_false]
  refine ⟨rfl, rfl, kget_kset_self .., kget_kset_self .., (kget_kset_self ..).trans ?_, rfl⟩
  cases hfirst : fl.first
  · simp [ArchSt.joined, hfirst]
  · simp [ArchSt.joined, hfirst]

section
variable {n : Nat} {fl : Flit} {s : State} (errs : List BitErr) (hok : archOk n = true) (h1 : 1 ≤ (s.arch n).state) (h4 : (s.arch n).state ≤ 4)
  (htest : (s.arch n).partnerTest = false)
include hok h1 h4 htest

theorem execDataFlit_of_bad (hbad : fl.crcOk = false ∨ 2 < fl.kind) : exec (.dataFlit n ⟨fl, errs⟩) s = .next (s.setArch n (s.arch n).crcFailed) := by
  rw [exec_dataFlit, execDataFlit, if_neg (by simp [hok]), State.takeFlit]
  exact congrArg Host.Outcome.next ((if_neg (by simp only [htest, Bool.false_eq_true, or_false]; omega)).trans (if_pos (by simpa using hbad)))

theorem execDataFlit_of_data (hcrc : fl.crcOk = true) (hkind : fl.kind = 1) : exec (.dataFlit n ⟨fl, errs⟩) s = .next (
    if fl.seq ≠ ((s.arch n).heard fl s.epoch).rxSeq then s.setArch n ((s.arch n).heard fl s.epoch).refused
    else match (((s.arch n).heard fl s.epoch).taken s.ownPath fl).1 with
      | none => s.setArch n (((s.arch n).heard fl s.epoch).taken s.ownPath fl).2
      | some (b, owed) =>
        let s := s.setArch n (((s.arch n).heard fl s.epoch).taken s.ownPath fl).2
        match frameOf n (fl.vc % 4) b with
        | none => (s.count Od.badFrames 1).freeCredits n (fl.vc % 4) owed
        | some f => ((s.moveErrors f errs).takeFrame f (Config.freeBit s.free (0x5000 + n) 0) (Config.freeBit s.free (0x5000 + n) 1) owed).tick) := by
  rw [exec_dataFlit, execDataFlit, if_neg (by simp [hok]), State.takeFlit]
  exact congrArg Host.Outcome.next ((if_neg (by simp only [htest, Bool.false_eq_true, or_false]; omega)).trans
    ((if_neg (by simp [hcrc, hkind])).trans (if_neg (by simp [hkind]))))

end

/-- The flit and the arch of a slot in which a pending NAK goes. -/
theorem ArchSt.waited_slot_nak {a : ArchSt} (h : a.nak = true) (data : Bool) :
    let r := a.waited.slot data
    r.1.kind = 2 ∧ r.1.body = nakBody a.rxSeq ∧ r.1.ack = (a.rxSeq + 65535) % 65536 ∧ r.2.nak = false ∧ r.2.queues = a.queues ∧ r.2.retry = a.retry := by
  have hslot : a.waited.slot data = a.waited.withoutNak.sendCtl (nakBody a.waited.rxSeq) := ArchSt.slot_nak h
  rw [hslot]
  exact ⟨rfl, rfl, rfl, rfl, rfl, rfl⟩

/-- The flit and the arch of a slot in which a time control flit goes. -/
theorem ArchSt.waited_slot_time {a : ArchSt} {c : Flit} {rest : List Flit} (hnak : a.nak = false) (h : a.timeCtl = c :: rest) (data : Bool) :
    let r := a.waited.slot data
    r.1.kind = 2 ∧ r.1.body = c.body ∧ r.2.timeCtl = rest ∧ r.2.queues = a.queues ∧ r.2.retry = a.retry := by
  have hslot : a.waited.slot data = (a.waited.timeLeft rest).sendCtl c.body := ArchSt.slot_time hnak h
  rw [hslot]
  exact ⟨rfl, rfl, rfl, rfl, rfl⟩

/-- The flit and the arch of a slot in which the first flit of channel 0 goes. -/
theorem ArchSt.waited_slot_first {a : ArchSt} {x : TxFlit} {rest : List TxFlit} (hnak : a.nak = false) (htime : a.timeCtl = [])
    (hctl : a.slots < 15 ∨ a.ctl = []) (hresend : a.resend = []) (hroom : a.retry.length < 512) (hq : kget [] 0 a.queues = x :: rest)
    (hcred : a.credited 0 = true) :
    let r := a.waited.slot true
    r.1.seq = a.txSeq ∧ r.1.body = x.fl.body ∧ r.1.kind = x.fl.kind ∧ r.2.retry = a.retry ++ [⟨r.1, x.job, x.cls⟩] ∧ kget [] 0 r.2.queues = rest ∧
      r.2.txSeq = (a.txSeq + 1) % 65536 ∧ kget 0 0 r.2.sent = (kget 0 0 a.sent + 1) % 65536 := by
  have hslot : a.waited.slot true = a.waited.sendData 0 a.waited.turn := ArchSt.slot_first hnak htime hctl hresend hroom hq hcred
  rw [hslot, ArchSt.sendData_of_queue (a := a.waited) hq]
  obtain ⟨hseq, hbody, hkind⟩ := a.waited.dataFlit_fields x.fl
  exact ⟨hseq, hbody, hkind, rfl, kget_kset_self .., rfl, kget_kset_self ..⟩

/-- Settles O30, from what each slot and each flit makes of its arch. -/
theorem flitsLeaveAndArriveInOrder : Obligations.FlitsLeaveAndArriveInOrder := by
  refine ⟨?_, ?_, ?_, ?_, ?_, ?_, ?_⟩
  · intro n s hok halive hnak
    obtain ⟨hkind, hbody, hack, hnone, hq, hretry⟩ := ArchSt.waited_slot_nak hnak (s.arch n).sendsData
    refine ⟨_, _, execFlitSlot_of_alive hok halive, s.slotSent_out n _, ?_⟩
    rw [State.slotSent_arch]
    exact ⟨hkind, hbody, hack, hnone, hq, hretry, s.slotSent_archOnly n _⟩
  · intro n s c rest hok halive hnak htime
    obtain ⟨hkind, hbody, hrest, hq, hretry⟩ := ArchSt.waited_slot_time hnak htime (s.arch n).sendsData
    refine ⟨_, _, execFlitSlot_of_alive hok halive, s.slotSent_out n _, ?_⟩
    rw [State.slotSent_arch]
    exact ⟨hkind, hbody, hrest, hq, hretry, s.slotSent_archOnly n _⟩
  · intro n s x rest hok h1 h4 htest hnak htime hctl hresend hroom hq hcred
    obtain ⟨hseq, hbody, hkind, hretry, hrest, hnext, hsent⟩ := ArchSt.waited_slot_first hnak htime hctl hresend hroom hq hcred
    refine ⟨_, _, execFlitSlot_of_alive hok (ArchSt.alive_of_state h1 h4), s.slotSent_out n _, ?_⟩
    rw [State.slotSent_arch, ArchSt.sendsData_of_state h1 h4 htest]
    exact ⟨hseq, hbody, hkind, hretry, hrest, hnext, hsent, s.slotSent_archOnly n _⟩
  · intro n s hok halive hfull hresend
    obtain ⟨hq, hretry, hseq⟩ := ArchSt.slot_full (a := (s.arch n).waited) hfull hresend (s.arch n).sendsData
    refine ⟨_, execFlitSlot_of_alive hok halive, ?_⟩
    rw [State.slotSent_arch]
    exact ⟨hq, hretry, hseq, rfl, (s.slotSent_archOnly n _).1⟩
  · intro n fl errs s hok h1 h4 htest hbad
    have h := (s.arch n).crcFailed_discards
    refine ⟨_, execDataFlit_of_bad errs hok h1 h4 htest hbad, ?_⟩
    rw [State.arch_setArch_self]
    exact ⟨rfl, h.discard, h.nak, h.rxSeq, h.partial_, h.retry, s.setArch_archOnly n _⟩
  · intro n fl errs s hok h1 h4 htest hcrc hkind hseq
    have hk := (s.arch n).heard_keepsReceived fl s.epoch
    have h := ((s.arch n).heard fl s.epoch).refused_discards
    refine ⟨_, execDataFlit_of_data errs hok h1 h4 htest hcrc hkind, ?_⟩
    rw [if_pos (by rwa [hk.rxSeq]), State.arch_setArch_self]
    exact ⟨h.discard, by rw [h.nak, hk.nak, hk.discard], h.rxSeq.trans hk.rxSeq, h.partial_.trans hk.partial_, h.freed.trans hk.freed,
      s.setArch_archOnly n _⟩
  · intro n fl errs s b hok h1 h4 htest hb hcrc hkind hseq hlast
    have hk := (s.arch n).heard_keepsReceived fl s.epoch
    obtain ⟨hnone, h⟩ := ((s.arch n).heard fl s.epoch).taken_of_inner s.ownPath hlast
    have hjoined : ((s.arch n).heard fl s.epoch).joined fl = b := by rw [hb, ArchSt.joined, hk.partial_]
    refine ⟨_, execDataFlit_of_data errs hok h1 h4 htest hcrc hkind, ?_⟩
    rw [if_neg (by rw [hk.rxSeq]; exact not_not.mpr hseq)]
    simp only [hnone]
    rw [State.arch_setArch_self]
    refine ⟨h.rxSeq.trans (by rw [hk.rxSeq]), h.discard, h.partial_.trans hjoined, ?_, ?_, ?_, s.setArch_archOnly n _⟩
    · rw [h.freed, hjoined, hk.freed, hk.owed]
    · rw [h.owed, hjoined, hk.owed]
    · rw [h.credit, ArchSt.heard_credit]

end Sys2Proof.Machine
end

section
/-!
SUPPORT. Training of an arch and its loss (R399, R400, R430, R540): the lanes that pass, the attempt that succeeds or fails, ARCH_RETRY and ARCH_DOWN.
-/

namespace Sys2Proof.Machine

/-! ### The lanes that pass (R400) -/

/-- The lanes of an arch, the spare last, that pass. -/
def passing (b : Fin 5 → Bool) : List Nat := (List.range 5).filter (fun l => if h : l < 5 then b ⟨l, h⟩ else false)

/-- R400: a rule on the lanes that pass, as `laneOutcome` applies it. -/
def laneRule (b : Fin 5 → Bool) : Option (Nat × Bool) :=
  if ((passing b).filter (fun l => decide (l < 4))).length = 4 then some (4, false)
  else if ((passing b).filter (fun l => decide (l < 4))).length = 3 ∧ (passing b).contains 4 then some (4, true)
  else if 2 ≤ (passing b).length then some (2, false) else none

theorem laneOutcome_eq (pass : List Nat) : laneOutcome pass = laneRule (fun l => pass.contains l.val) := rfl

theorem laneRule_full : ∀ b : Fin 5 → Bool, (∀ l : Fin 5, l.val < 4 → b l = true) → laneRule b = some (4, false) := by decide

theorem laneRule_spare : ∀ b : Fin 5 → Bool, ∀ k : Fin 5, k.val < 4 → b k = false → (∀ l : Fin 5, l.val < 4 → l ≠ k → b l = true) → b 4 = true →
    laneRule b = some (4, true) := by decide

theorem laneRule_narrow : ∀ b : Fin 5 → Bool, ∀ j k : Fin 5, j.val < 4 → k.val < 4 → j ≠ k → (∀ l, b l = true ↔ l = j ∨ l = k) →
    laneRule b = some (2, false) := by decide

theorem laneRule_failed : ∀ b : Fin 5 → Bool, ∀ k : Fin 5, (∀ l, b l = true → l = k) → laneRule b = none := by decide

section
variable {pass : List Nat}

theorem laneOutcome_full (h : ∀ l < 4, l ∈ pass) : laneOutcome pass = some (4, false) :=
  laneRule_full _ fun l hl => List.contains_iff_mem.mpr (h l hl)

theorem laneOutcome_spare {k : Nat} (hk : k < 4) (hbad : k ∉ pass) (h : ∀ l < 4, l ≠ k → l ∈ pass) (h4 : 4 ∈ pass) : laneOutcome pass = some (4, true) :=
  laneRule_spare _ ⟨k, by omega⟩ hk (by simpa using hbad)
    (fun l hl hne => List.contains_iff_mem.mpr (h l hl (fun he => hne (Fin.ext he)))) (List.contains_iff_mem.mpr h4)

theorem laneOutcome_narrow {j k : Nat} (hj : j < 4) (hk : k < 4) (hne : j ≠ k) (h : ∀ l < 5, l ∈ pass ↔ l = j ∨ l = k) :
    laneOutcome pass = some (2, false) :=
  laneRule_narrow (fun l => pass.contains l.val) ⟨j, by omega⟩ ⟨k, by omega⟩ hj hk (fun he => hne (congrArg Fin.val he)) fun l => by
    rw [List.contains_iff_mem, h l l.isLt, Fin.ext_iff, Fin.ext_iff]

theorem laneOutcome_failed {k : Nat} (hk : k < 5) (h : ∀ l < 5, l ∈ pass → l = k) : laneOutcome pass = none :=
  laneRule_failed _ ⟨k, hk⟩ fun l hl => Fin.ext (h l l.isLt (List.contains_iff_mem.mp hl))

end

/-! ### An attempt (R399, R400) -/

theorem exec_archTraining (n : Nat) (signal : Bool) (pass : List Nat) (fec : Bool) (rt : Nat) (hello : Bool) (s : State) :
    exec (.archTraining n signal pass fec rt hello) s = execArchTraining n signal pass fec rt hello s := by rfl

theorem State.forwardHeld_of_none {s : State} (h : s.arcade.held = []) : s.forwardHeld = s := by
  have hs : ({ s with arcade := { s.arcade with held := [] } } : State) = s := by rw [← h]
  unfold State.forwardHeld
  rw [h, hs]
  rfl

@[simp] theorem State.disown_arch (s : State) (n k : Nat) : (s.disown n).arch k = s.arch k := by
  unfold State.disown State.arch
  exact rfl

theorem State.disown_held (s : State) (n : Nat) (h : s.arcade.held = []) : (s.disown n).arcade.held = [] := by
  change s.arcade.held.map _ = []
  rw [h, List.map_nil]

/-- Nothing of the former traffic counts any more. -/
def ArchSt.fresh (a : ArchSt) : ArchSt :=
  { a with retry := [], resend := [], txSeq := 0, rxSeq := 0, sent := [], credit := [], freed := [], owed := [], credVc := 0, partial_ := [] }

/-- An arch on which frames go from now on. -/
def ArchSt.linked (a : ArchSt) (lanes roundTrip now : Nat) (spare : Bool) : ArchSt :=
  { a with state := if lanes = 4 then 3 else 4, lanes := lanes, spare := spare, roundTrip := roundTrip, attempts := 0, retraining := false, afterTest := false,
           missed := 0, ackAt := now }

/-- R399: a retrain in Run keeps the traffic; after a test, and at a first training, it starts anew. -/
def ArchSt.keepsTraffic (a : ArchSt) : Bool := a.retraining && !a.afterTest

/-- An arch that has been trained. -/
def ArchSt.trained (a : ArchSt) (lanes roundTrip now : Nat) (spare : Bool) : ArchSt :=
  (if a.keepsTraffic = true then a else a.fresh).linked lanes roundTrip now (spare || (a.keepsTraffic && a.spare && lanes == 4))

/-- What training leaves of the other arches and of the rest of the module. -/
structure TrainsArch (n : Nat) (s t : State) : Prop where
  other : SameOtherArches n s t
  halls : t.halls = s.halls
  mem : t.mem = s.mem
  serve : t.serve = s.serve

theorem TrainsArch.log {n : Nat} {s t u : State} (h : TrainsArch n s t) (hl : LogFrame t u) : TrainsArch n s u :=
  ⟨fun k hk => by rw [← h.other k hk, State.arch, hl.arcade, State.arch], hl.halls.trans h.halls, hl.mem.trans h.mem, hl.serve.trans h.serve⟩

theorem State.trainDone_of_free {s : State} (hheld : s.arcade.held = []) (n lanes : Nat) (spare : Bool) (roundTrip : Nat) :
    (s.trainDone n lanes spare roundTrip).arch n = (s.arch n).trained lanes roundTrip s.epoch spare ∧ TrainsArch n s (s.trainDone n lanes spare roundTrip) := by
  unfold State.trainDone
  extract_lets a kept base fresh t u
  have hu : u.arch n = a.trained lanes roundTrip s.epoch spare ∧ TrainsArch n s u := by
    have ht : t.arcade.held = [] := hheld
    have hset : t.arch n = a.trained lanes roundTrip s.epoch spare := s.arch_setArch_self n _
    have hother : SameOtherArches n s t := (s.setArch_archOnly n _).1
    have hhalls : t.halls = s.halls := s.setArch_halls n _
    have hmem : t.mem = s.mem := s.setArch_mem n _
    have hserve : t.serve = s.serve := s.setArch_serve n _
    simp only [u]
    split
    · rw [State.forwardHeld_of_none ht]
      exact ⟨hset, hother, hhalls, hmem, hserve⟩
    · rw [State.forwardHeld_of_none (t.disown_held n ht)]
      exact ⟨(t.disown_arch n n).trans hset, fun k hk => (t.disown_arch n k).trans (hother k hk), hhalls, hmem, hserve⟩
  have hlog : ∀ ev, (u.logEv ev).arch n = a.trained lanes roundTrip s.epoch spare ∧ TrainsArch n s (u.logEv ev) := fun ev =>
    have hl := u.logEv_frame ev 0
    ⟨by rw [State.arch, hl.arcade, ← hu.1, State.arch], hu.2.log hl⟩
  split
  · exact hlog _
  · split
    · exact hlog _
    · exact hu

section
variable {n : Nat} {s : State} (hok : archOk n = true) (hst : (s.arch n).state = 1) (htest : (s.arch n).partnerTest = false)
include hok hst htest

theorem execArchTraining_of_training (signal : Bool) (pass : List Nat) (fec : Bool) (rt : Nat) (hello : Bool) :
    exec (.archTraining n signal pass fec rt hello) s = .next ((laneOutcome pass).elim (s.trainFailed n) fun o =>
      if !signal ∨ !fec ∨ 2000 < rt ∨ !hello then s.trainFailed n else s.trainDone n o.1 o.2 rt) := by
  rw [exec_archTraining, execArchTraining, if_neg (by simp [hok]), if_neg (by simp [hst])]
  simp only [htest, Bool.false_eq_true, if_false]
  cases laneOutcome pass with
  | none => rfl
  | some o => rfl

theorem execArchTraining_of_pass {pass : List Nat} {lanes rt : Nat} {sp : Bool} (hpass : laneOutcome pass = some (lanes, sp)) (hrt : rt ≤ 2000) :
    exec (.archTraining n true pass true rt true) s = .next (s.trainDone n lanes sp rt) := by
  rw [execArchTraining_of_training hok hst htest, hpass]
  exact congrArg Host.Outcome.next (if_neg (by simpa using hrt))

theorem execArchTraining_of_failure {signal fec hello : Bool} {pass : List Nat} {rt : Nat}
    (hfail : (signal && fec && hello && decide (rt ≤ 2000) && (laneOutcome pass).isSome) = false) :
    exec (.archTraining n signal pass fec rt hello) s = .next (s.trainFailed n) := by
  rw [execArchTraining_of_training hok hst htest]
  cases hpass : laneOutcome pass with
  | none => rfl
  | some o =>
    refine congrArg Host.Outcome.next (if_pos ?_)
    simp only [hpass, Option.isSome_some, Bool.and_true, Bool.and_eq_false_iff, decide_eq_false_iff_not, not_le] at hfail
    simp only [Bool.not_eq_true']
    tauto

end

theorem State.trainFailed_of_early {s : State} {n : Nat} (h : (s.arch n).attempts < 2) :
    s.trainFailed n = s.setArch n { s.arch n with attempts := (s.arch n).attempts + 1 } := by
  unfold State.trainFailed
  rw [if_pos (by omega)]

/-- R399: at the third failure of a first training the arch is down, with nothing queued. -/
theorem State.trainFailed_of_third {s : State} {n : Nat} (h : 2 ≤ (s.arch n).attempts) (hfirst : (s.arch n).retraining = false) :
    ∃ u : State, LogFrame s u ∧ s.trainFailed n = u.setArch n { ((s.arch n).emptied 5 u.epoch) with lanes := 0 } := by
  unfold State.trainFailed
  extract_lets a u
  refine ⟨u, ?_, ?_⟩
  · simp only [u]
    split
    · exact .refl s
    · exact s.logEv_frame _ 0
  · rw [if_neg (by simp only [a]; omega), if_neg (by simp [a, hfirst])]

/-! ### ARCH_RETRY (R540) -/

/-- R540: an arch that trains again. -/
def ArchSt.retried (a : ArchSt) : ArchSt := { a with state := 1, attempts := 0 }

/-- R540: an arch that is down, enabled and under no test. -/
def State.mayRetry (s : State) (n : Nat) : Prop :=
  (s.arch n).state = 5 ∧ bit (s.odGet Od.archEnable) n = true ∧ s.testing 1 n = false ∧ (s.arch n).partnerTest = false

/-- R540: one arch of ARCH_RETRY. -/
def State.retryArch (s : State) (n : Nat) : State :=
  if (s.arch n).state = 5 ∧ bit (s.odGet Od.archEnable) n ∧ !s.testing 1 n ∧ !(s.arch n).partnerTest then s.setArch n (s.arch n).retried else s

/-- What ARCH_RETRY has done once it has been through some arches. -/
structure Retried (l : List Nat) (s t : State) : Prop where
  arch : ∀ n, (n ∈ l ∧ s.mayRetry n → t.arch n = (s.arch n).retried) ∧ (¬ (n ∈ l ∧ s.mayRetry n) → t.arch n = s.arch n)
  beyond : SameBeyondArcade s t
  od : t.od = s.od

theorem Retried.step {l : List Nat} {s t : State} {n : Nat} (h : Retried l s t) (hn : n ∉ l) : Retried (l ++ [n]) s (t.retryArch n) := by
  obtain ⟨harch, hbeyond, hod⟩ := h
  have hsame : t.arch n = s.arch n := (harch n).2 (fun h => hn h.1)
  have htest : t.testing 1 n = s.testing 1 n := by
    obtain ⟨-, -, -, -, -, -, -, -, -, -, -, -, htest⟩ := hbeyond
    rw [State.testing, htest, State.testing]
  have hguard : ((t.arch n).state = 5 ∧ bit (t.odGet Od.archEnable) n ∧ !t.testing 1 n ∧ !(t.arch n).partnerTest) ↔ s.mayRetry n := by
    rw [hsame, htest, State.odGet, hod, State.mayRetry, State.odGet]
    simp
  have hmem : ∀ k, k ≠ n → (k ∈ l ++ [n] ↔ k ∈ l) := fun k hk => by simp [hk]
  have hin : n ∈ l ++ [n] := by simp
  unfold State.retryArch
  by_cases hmay : s.mayRetry n
  · rw [if_pos (hguard.mpr hmay), hsame]
    obtain ⟨hother, hbeyond', hod'⟩ := t.setArch_archOnly n (s.arch n).retried
    refine ⟨fun k => ?_, hbeyond, hod'.trans hod⟩
    by_cases hk : k = n
    · subst hk
      exact ⟨fun _ => t.arch_setArch_self k _, fun hno => absurd ⟨hin, hmay⟩ hno⟩
    · rw [hmem k hk, hother k hk]
      exact harch k
  · rw [if_neg (fun hg => hmay (hguard.mp hg))]
    refine ⟨fun k => ?_, hbeyond, hod⟩
    by_cases hk : k = n
    · subst hk
      exact ⟨fun hyes => absurd hyes.2 hmay, fun _ => hsame⟩
    · rw [hmem k hk]
      exact harch k

theorem State.retryArches (s : State) : ∀ m, Retried (List.range m) s ((List.range m).foldl State.retryArch s)
  | 0 => ⟨fun n => ⟨fun h => absurd h.1 (by simp), fun _ => rfl⟩, ⟨rfl, rfl, rfl, rfl, rfl, rfl, rfl, rfl, rfl, rfl, rfl, rfl, rfl⟩, rfl⟩
  | m + 1 => by
    rw [List.range_succ, List.foldl_append]
    exact (s.retryArches m).step (by simp)

theorem execArchRetry_of_powered {s : State} (h : s.mode = .ready ∨ s.mode = .run) :
    exec .archRetry s = .next ((List.range 12).foldl State.retryArch s) := by
  change execArchRetry s = _
  unfold execArchRetry
  rw [if_neg (by rintro ⟨hready, hrun⟩; exact h.elim hready hrun)]
  rfl

/-! ### The loss of an arch (R430, R564) -/

theorem execArchDown_of_up {n cause : Nat} {s : State} (hok : archOk n = true) (hcause : cause ≤ 3) (hup : (s.arch n).up = true) :
    exec (.archDown n cause) s = .next (s.archGoesDown n) := by
  change execArchDown n cause s = _
  unfold execArchDown
  rw [if_neg (by simp [hok]), if_neg (by omega)]
  exact congrArg Host.Outcome.next (if_pos (by simp [hup]))

/-- An arch that is lost. -/
def ArchSt.lost (a : ArchSt) (now : Nat) : ArchSt := { a.emptied 5 now with lanes := 0 }

theorem State.cableSupply_of_trained {s : State} (h : s.mode = .training ∨ s.mode = .ready ∨ s.mode = .run ∨ s.mode = .stopped) (n : Nat) :
    s.cableSupply n = bit (s.odGet Od.archEnable) n := by
  unfold State.cableSupply
  obtain h | h | h | h := h <;> simp [h]

/-- Settles O32, by the attempt's outcome, the arches that retry, and the arch that is lost. -/
theorem archTrainingOutcomes : Obligations.ArchTrainingOutcomes := by
  refine ⟨?_, fun pass => ⟨laneOutcome_full, fun k => laneOutcome_spare, fun j k => laneOutcome_narrow, fun k => laneOutcome_failed⟩, ?_, ?_, ?_, ?_⟩
  · intro n pass rt lanes sp s hok hst htest hpass hrt hheld
    obtain ⟨harch, h⟩ := s.trainDone_of_free hheld n lanes sp rt
    refine ⟨_, execArchTraining_of_pass hok hst htest hpass hrt, ?_⟩
    rw [harch]
    generalize s.arch n = a
    refine ⟨rfl, rfl, rfl, rfl, rfl, fun hre haf => ?_, fun hre => ?_, h.other, h.halls, h.mem, h.serve⟩
    · have hk : a.keepsTraffic = true := by simp [ArchSt.keepsTraffic, hre, haf]
      rw [ArchSt.trained, if_pos hk]
      exact ⟨rfl, rfl⟩
    · have hk : a.keepsTraffic = false := by simp [ArchSt.keepsTraffic, hre]
      rw [ArchSt.trained, if_neg (by simp [hk])]
      exact ⟨rfl, rfl, rfl, rfl, by simp [ArchSt.linked, hk]⟩
  · intro n signal fec hello pass rt s hok hst htest hfail
    have hexec := execArchTraining_of_failure hok hst htest hfail
    refine ⟨fun hearly => ?_, fun hthird hfirst => ?_⟩
    · rw [State.trainFailed_of_early hearly] at hexec
      exact ⟨_, hexec, s.arch_setArch_self n _, s.setArch_archOnly n _⟩
    · obtain ⟨u, hlog, hfailed⟩ := State.trainFailed_of_third hthird hfirst
      rw [hfailed] at hexec
      refine ⟨_, hexec, ?_⟩
      rw [State.arch_setArch_self]
      refine ⟨rfl, rfl, rfl, rfl, fun k hk => (u.arch_setArch_ne hk _).trans ?_⟩
      rw [State.arch, hlog.arcade, State.arch]
  · intro s h
    have hr := s.retryArches 12
    refine ⟨_, execArchRetry_of_powered h, hr.beyond, hr.od, fun n hn => ?_⟩
    obtain ⟨hyes, hno⟩ := hr.arch n
    split
    · next hmay => exact hyes ⟨List.mem_range.mpr hn, hmay⟩
    · next hmay => exact hno (fun hboth => hmay hboth.2)
  · exact fun n s h => State.cableSupply_of_trained h n
  · intro n cause s hok hcause hup
    have hother : SameOtherArches n s (s.setArch n ((s.arch n).lost s.epoch)) := (s.setArch_archOnly n _).1
    refine ⟨(s.setArch n ((s.arch n).lost s.epoch)).disown n, ?_, fun k hk => ?_, ?_, execArchDown_of_up hok hcause hup⟩
    · rw [State.disown_arch, State.arch_setArch_self]
      rfl
    · rw [State.disown_arch, hother k hk]
    · exact ⟨rfl, rfl, rfl, rfl, rfl, rfl, rfl, rfl, rfl, rfl, rfl, rfl, rfl⟩

end Sys2Proof.Machine
end

section
/-!
SUPPORT. MOVE_CONFIRM where a commit that waits for its mirror takes a re-placement with it (R393, R395, R412): in a state whose models are not listed in the
order of their handles the placement lists a model twice, and the loads that follow go through them in another order. With it the statement on the control frames.
-/

namespace Sys2Proof.Machine

/-! ### A load leaves the other models as they are (R388) -/

theorem State.modelLoaded_other (s : State) {m k : Nat} (h : k ≠ m) (x : ModelSt) (p : Package) :
    kfind k (s.modelLoaded m x p).serve.models = kfind k s.serve.models := by
  unfold State.modelLoaded
  extract_lets y ts maps pools layers _ _ _ u v
  have hu : kfind m u.serve.models = some y := kfind_kput_self ..
  have hv : kfind k v.serve.models = kfind k s.serve.models := by
    rw [show v = _ from State.newEpoch_of_found hu]
    exact (kfind_kput_ne h ..).trans (kfind_kput_ne h ..)
  have hw : WorkFrame v (if v.mode = .run ∨ v.mode = .stopped then
      ((v.foyer.cells.filter (fun c => c.state == 3 && c.rec_.model == m)).map (·.rec_.entry)).foldl (fun s e => s.bindCell e) v else v) :=
    .ite (.foldl (fun t e => t.bindCell_work e) _ v) (.refl v)
  rw [hw.models, hv]

/-- R388: a load whose last part is packed, with no shares of other members. -/
structure ModelSt.Packed (x : ModelSt) (p : Package) : Prop where
  state : x.state = 2
  packed : x.packed = true
  shares : x.shares = []
  last : x.parts ≤ x.part + 1
  pkg : x.pkg = some p

theorem State.loadProgress_of_packed {s : State} {m : Nat} {x : ModelSt} {p : Package} (hx : kfind m s.serve.models = some x) (h : x.Packed p) :
    s.loadProgress m = s.modelLoaded m x p :=
  State.loadProgress_of_complete hx h.state h.packed (by simp [State.sharesIn, h.shares]) h.pkg h.last (by simp [h.shares])

/-- Of two loads the second stands under the last placement epoch. -/
theorem State.loadProgress_last {s : State} {m k : Nat} {x y : ModelSt} {p q : Package} (hne : k ≠ m) (hm : kfind m s.serve.models = some x)
    (hx : x.Packed p) (hk : kfind k s.serve.models = some y) (hy : y.Packed q) :
    (kfind k ((s.loadProgress m).loadProgress k).serve.models).map (·.epoch) = some (((s.loadProgress m).loadProgress k).odGet Od.planEpoch) := by
  have hk' : kfind k (s.modelLoaded m x p).serve.models = some y := (s.modelLoaded_other hne x p).trans hk
  rw [State.loadProgress_of_packed hm hx, State.loadProgress_of_packed hk' hy]
  obtain ⟨z, hz, -, -, -, -, hepoch⟩ := (s.modelLoaded m x p).modelLoaded_places k y q
  rw [hz, ← hepoch]
  rfl

/-! ### A commit with a re-placement (R395) -/

/-- No program and no stream is here, and no barrier stands. -/
structure State.Idle (s : State) : Prop where
  flights : s.halls.flights = []
  barriers : s.halls.barriers = []
  streams : s.serve.streams = []

theorem State.Idle.jobProgs {s : State} (h : s.Idle) (job : Nat) : s.jobProgs job = [] := by
  simp [State.jobProgs, State.progs, h.flights]

/-- A re-placement that moves nothing: the placement takes effect alone. -/
theorem State.replaceJob_models {s : State} (h : s.Idle) {m job : Nat} {x : ModelSt} (hm : (s.jobOf job).model = m)
    (hx : kfind m s.serve.models = some x) (k : Nat) :
    kfind k (s.replaceJob job ⟨[], [], []⟩).serve.models =
      if k = m then some { x with epoch := (s.odGet Od.planEpoch + 1) % odModulus Od.planEpoch, time := s.epoch } else kfind k s.serve.models := by
  unfold State.replaceJob
  simp only [h.jobProgs, List.foldl_nil, State.moveSlices, List.head?_nil, Option.map_none, Option.getD_none, hm]
  have hset : ∀ j, kfind m (s.setJob j).serve.models = some x := fun _ => hx
  have hlog : ∀ u : State, LogFrame u ((u.count Od.replacements 1).logEv { code := 0x4310, job := job, model := m }) := fun u =>
    (u.count_frame Od.replacements 1).step (State.logEv_frame _ _ 0)
  rw [State.closeSettled_serve, (hlog _).serve, State.newEpoch_of_found (hset _)]
  split
  · next hk =>
    rw [hk]
    exact kfind_kput_self ..
  · next hk => exact kfind_kput_ne hk ..

/-- A step of no stream whose job has a re-placement waiting: the placement follows its commit. -/
theorem State.commitStep_replaces {s : State} (h : s.Idle) {x : StepSt} {c : Nat × Nat × Option Nat} {r : Replace} (hslots : x.slots = [])
    (hclosing : x.closing = some c) (hr : (s.jobOf x.job).replacing = some r) : s.commitStep x = (s.dropStep x.job).replaceJob x.job r := by
  have hlive : x.live = [] := by simp [StepSt.live, hslots]
  have hbarrier : (s.dropStep x.job).releaseBarrier x.job c.1 c.2.1 c.2.2 = s.dropStep x.job := by
    simp [State.releaseBarrier, State.barrierOf, State.dropStep, h.barriers]
  have hstreams : (s.dropStep x.job).streamList = [] := congrArg (List.map Prod.fst) h.streams
  have hjob : ((s.dropStep x.job).jobOf x.job).replacing = some r := hr
  unfold State.commitStep
  simp only [hlive, List.any_nil, Bool.false_eq_true, if_false, List.foldl_nil, hstreams, hclosing, hbarrier, hjob]

/-- In a module without a gallery nothing is mirrored, so that a step whose outputs are out commits. -/
theorem State.tryRelease_replaces {s : State} (h : s.Idle) (hdepth : s.depth ≤ 2) {job : Nat} {x : StepSt} {c : Nat × Nat × Option Nat} {r : Replace}
    (hstep : s.openStepOf job = some x) (hjob : x.job = job) (hslots : x.slots = []) (hwaits : x.waits = []) (hclosing : x.closing = some c)
    (hr : (s.jobOf job).replacing = some r) : s.tryRelease job = (s.dropStep job).replaceJob job r := by
  have hmirror : s.mirrorTo = none := if_neg (by simp [State.isManager, hdepth])
  have hlive : x.live = [] := by simp [StepSt.live, hslots]
  unfold State.tryRelease
  simp only [hstep, hclosing, hwaits, hlive, hmirror, Option.isNone_some, List.isEmpty_nil, Bool.not_true, List.any_nil, Bool.or_false,
    Bool.false_eq_true, if_false]
  rw [State.commitStep_replaces h hslots hclosing (hjob ▸ hr), hjob]

/-! ### The state that refutes the statement -/

/-- A package of no slices. -/
def barePackage : Package :=
  { outliers := [], expt := [], partOk := true, planCode := 0, slices := [], copies := [], layers := [], templates := 0, customs := 0, vocab := 0, vocabId := 0,
    inputLimit := 0, resultSize := 0, heads := 0, endToken := 0, maskExp := 0, layersN := 0, cacheHeads := 0, rowUnits := 0, class0 := [], pool := [],
    samplers := [], experts := [] }

/-- A load whose last part is packed. -/
def packedLoad : ModelSt :=
  { state := 2, code := 0, tenant := 0, flags := 0, permille := 0, hallMask := 0, share := 0, members := 0, home := 0, parts := 1, part := 0, offset := 0,
    pkgAddr := 0, pkgLen := 0, since := 0, epoch := 0, time := 0, pkg := some barePackage, work := [], packed := true, shares := [], done := [] }

theorem packedLoad_packed (epoch time : Nat) : ({ packedLoad with epoch := epoch, time := time } : ModelSt).Packed barePackage :=
  ⟨rfl, rfl, rfl, le_rfl, rfl⟩

/-- A step of job 1, on model 3, that waits for its mirror. -/
def mirroredStep : StepSt := ⟨1, 0, 3, [], [], false, false, [], [], some 0, some (0, 0, none)⟩

/-- Two loads, listed out of order, and job 1 with a re-placement that waits for its step. -/
def unsortedModels : State :=
  ({ State.reset with serve := { State.reset.serve with
      models := [(5, packedLoad), (3, packedLoad)], steps := [mirroredStep], jobs := [⟨1, 3, [], 0, [], false, some ⟨[], [], []⟩⟩] } } : State).setArch 6
    { ArchSt.reset with state := 3 }

/-- A MOVE_CONFIRM for a module without a gallery. -/
def confirmFrame : Frame :=
  { arch := 6, vc := 0, dest := noPath, src := noPath, ftype := 0, flags := 0, destUnit := 0, hops := 0, job := 0, tag := 0, index := 0, payload := zeros 8 }

/-- Model 3 stands under the last placement epoch. -/
def lastPlaced (r : Result) : Bool :=
  match r with
  | .next u => (kfind 3 u.serve.models).map (·.epoch) == some (u.odGet Od.planEpoch)
  | _ => false

/-- As the model runs it, model 3 is loaded before model 5. -/
theorem lastPlaced_exec : lastPlaced (exec (.moveConfirm confirmFrame) unsortedModels) = false := by decide +kernel

/-- As the statement runs it, model 3 is loaded after model 5, whatever the state that the commit starts from holds beyond what it names. -/
theorem lastPlaced_statement {t : State} (hserve : t.serve = unsortedModels.serve) (hhalls : t.halls = unsortedModels.halls) (hod : t.od = unsortedModels.od) :
    lastPlaced (.next ([5, 3].foldl State.loadProgress ([1].foldl State.tryRelease t))) = true := by
  have hidle : t.Idle := ⟨by rw [hhalls]; rfl, by rw [hhalls]; rfl, by rw [hserve]; rfl⟩
  have hdrop : (t.dropStep 1).Idle := ⟨hidle.flights, hidle.barriers, hidle.streams⟩
  have hdepth : t.depth ≤ 2 := by
    rw [State.depth, State.odGet, hod]
    decide +kernel
  have hstep : t.openStepOf 1 = some mirroredStep := by rw [State.openStepOf, hserve]; rfl
  have hjob : t.jobOf 1 = ⟨1, 3, [], 0, [], false, some ⟨[], [], []⟩⟩ := by rw [State.jobOf, hserve]; rfl
  have hmodel : ((t.dropStep 1).jobOf 1).model = 3 := congrArg JobSt.model hjob
  have h3 : kfind 3 (t.dropStep 1).serve.models = some packedLoad := by
    change kfind 3 t.serve.models = _
    rw [hserve]
    rfl
  have h5 : kfind 5 (t.dropStep 1).serve.models = some packedLoad := by
    change kfind 5 t.serve.models = _
    rw [hserve]
    rfl
  have hmodels := State.replaceJob_models hdrop hmodel h3
  have hrelease := State.tryRelease_replaces hidle hdepth hstep rfl rfl rfl rfl (congrArg JobSt.replacing hjob)
  simp only [List.foldl_cons, List.foldl_nil, lastPlaced, hrelease, beq_iff_eq]
  exact State.loadProgress_last (by decide) ((hmodels 5).trans h5) (packedLoad_packed 0 0) (hmodels 3) (packedLoad_packed _ _)

/-- Refutes O27: in a state whose models are not in the order of their handles (5 before 3), a step that waits for its mirror commits at a MOVE_CONFIRM, and its
job's re-placement lists model 3 a second time, before 5. The loads that wait are then gone through as 3, 5, 3, where the statement goes through those of
the state before, 5 and 3; model 3 is loaded under another placement epoch. -/
theorem not_controlFramesTakeEffect : ¬ Obligations.ControlFramesTakeEffect := by
  rintro ⟨-, -, -, -, -, -, -, -, -, -, hconfirm⟩
  obtain ⟨t, hexec, -, -, ⟨-, -, -, hhalls, -, -, -, hserve, -⟩, hod⟩ :=
    hconfirm confirmFrame unsortedModels (by unfold Arrives; decide +kernel) (by decide +kernel)
  have hruns := lastPlaced_exec.symm.trans (congrArg lastPlaced hexec)
  exact Bool.false_ne_true (hruns.trans (lastPlaced_statement hserve hhalls hod))

end Sys2Proof.Machine
end

section
/-!
SUPPORT. HELLO and elections (R413 to R417): a HELLO that is accepted or rejected, the HELLOs of an interval arch by arch, and the settling of an election.
-/

namespace Sys2Proof.Machine

/-! ### The hierarchy as a module knows it (R14, R418, R419) -/

/-- Two states agree in the dictionary and in the members known, from which the hierarchy and the routes are read. -/
structure SameHierarchy (s t : State) : Prop where
  od : t.od = s.od
  members : t.arcade.members = s.arcade.members

namespace SameHierarchy

variable {s t : State}

theorem odGet (h : SameHierarchy s t) (k : Nat) : t.odGet k = s.odGet k := by rw [State.odGet, h.od, State.odGet]

theorem depth (h : SameHierarchy s t) : t.depth = s.depth := h.odGet _

theorem ownPath (h : SameHierarchy s t) : t.ownPath = s.ownPath := by
  unfold State.ownPath
  rw [h.depth, h.odGet]

theorem levelIndex (h : SameHierarchy s t) (p : Word64) (l : Nat) : t.levelIndex p l = s.levelIndex p l := by
  unfold State.levelIndex
  rw [h.depth]

theorem splitLevel (h : SameHierarchy s t) (p : Word64) : t.splitLevel p = s.splitLevel p := by
  unfold State.splitLevel
  rw [h.depth, h.ownPath]

theorem galleryPaths (h : SameHierarchy s t) (l : Nat) : t.galleryPaths l = s.galleryPaths l := by
  unfold State.galleryPaths State.sameGallery
  rw [h.ownPath, h.members, h.depth]

theorem galleryShape (h : SameHierarchy s t) : ∀ l, t.galleryShape l = s.galleryShape l
  | 0 => rfl
  | l + 1 => by
    unfold State.galleryShape
    simp only [h.galleryShape l, h.galleryPaths, h.levelIndex, h.depth, State.galleryMax, h.odGet]

theorem gallerySize (h : SameHierarchy s t) (l : Nat) : t.gallerySize l = s.gallerySize l := congrArg Prod.fst (h.galleryShape l)

theorem route (h : SameHierarchy s t) (l d : Nat) : t.route l d = s.route l d := by
  unfold State.route
  simp only [h.odGet, h.levelIndex, h.ownPath, h.gallerySize, State.domGet, h.od]

theorem isModulePath (h : SameHierarchy s t) (p : Word64) : t.isModulePath p = s.isModulePath p := by
  unfold State.isModulePath
  simp only [h.depth, h.gallerySize]

theorem expected (h : SameHierarchy s t) (n : Nat) (p : Word64) : t.expected n p = s.expected n p := by
  unfold State.expected
  simp only [h.isModulePath, h.splitLevel, h.levelIndex, h.odGet, h.route, h.ownPath, h.gallerySize]

end SameHierarchy

/-! ### A HELLO (R414) -/

/-- A partner's NONCE has been heard. -/
def ArchSt.withNonce (a : ArchSt) (v : Nat) : ArchSt := { a with pNonce := v }

theorem State.helloGenuine_withNonce (s : State) (n v : Nat) (p : Bytes) (e g : Bool) :
    (s.setArch n ((s.arch n).withNonce v)).helloGenuine n p e g = s.helloGenuine n p e g := by
  have hnonces : ((s.setArch n ((s.arch n).withNonce v)).arch n).nonces = (s.arch n).nonces := by rw [State.arch_setArch_self]; rfl
  unfold State.helloGenuine
  rw [hnonces]
  rfl

theorem State.helloPlaced_withNonce (s : State) (n v : Nat) (path : Word64) :
    (s.setArch n ((s.arch n).withNonce v)).helloPlaced n path = s.helloPlaced n path := by
  have hpartner : ∀ k, ((s.setArch n ((s.arch n).withNonce v)).arch k).partner = (s.arch k).partner := fun k => by
    by_cases hk : k = n
    · rw [hk, State.arch_setArch_self]; rfl
    · rw [State.arch_setArch_ne _ hk]
  have hstate : ∀ k, ((s.setArch n ((s.arch n).withNonce v)).arch k).state = (s.arch k).state := fun k => by
    by_cases hk : k = n
    · rw [hk, State.arch_setArch_self]; rfl
    · rw [State.arch_setArch_ne _ hk]
  unfold State.helloPlaced
  simp only [hpartner, hstate, SameHierarchy.expected (s := s) (t := s.setArch n ((s.arch n).withNonce v)) ⟨rfl, rfl⟩]

theorem exec_hello (f : Frame) (e g : Bool) (s : State) : exec (.hello f e g) s = execHello f e g s := by rfl

/-- R414: a HELLO that reaches its arch. -/
theorem execHello_of_arrived {f : Frame} {e g : Bool} {s : State} (hok : archOk f.arch = true) (hvc : f.vc = 0) (hlen : f.payload.length ≤ 16400)
    (h0 : (s.arch f.arch).state ≠ 0) (h5 : (s.arch f.arch).state ≠ 5) :
    let u := s.setArch f.arch ((s.arch f.arch).withNonce (leField f.payload 84 8))
    exec (.hello f e g) s = .next (if s.helloGenuine f.arch f.payload e g = false then u.helloRejected f.arch 0x5003
      else if s.helloPlaced f.arch (BitVec.ofNat 64 (leField f.payload 76 8)) = false then u.helloRejected f.arch 0x5004
      else u.helloAccepted f.arch f.payload) := by
  have hform : ¬ (frameVc 1 ≠ some f.vc ∨ 16400 < f.payload.length) := by
    rw [hvc]
    simpa [frameVc] using hlen
  rw [exec_hello, execHello, if_neg (by simp [hok]), State.takeFrame]
  simp only [hform, if_false, if_true, State.freeCredits_zero]
  unfold State.takeHello
  simp only
  rw [if_neg (by simp [h0, h5]), ← s.helloGenuine_withNonce f.arch (leField f.payload 84 8), ← s.helloPlaced_withNonce f.arch (leField f.payload 84 8)]
  simp only [Bool.not_eq_true']
  rfl

/-- R414: a partner whose HELLO has been accepted; a quarantine has ended. -/
def ArchSt.greeted (a : ArchSt) (p : Bytes) : ArchSt :=
  { a with state := if a.state = 2 then (if a.lanes = 0 then 1 else if a.lanes = 2 then 4 else 3) else a.state,
           partner := BitVec.ofNat 64 (leField p 76 8), pArch := leField p 73 1, pMode := leField p 74 1, pKey := (p.drop 16).take 57, missed := 0 }

theorem ArchSt.greeted_state (a : ArchSt) (p : Bytes) : (a.greeted p).state ≠ 2 := by
  change (if a.state = 2 then (if a.lanes = 0 then 1 else if a.lanes = 2 then 4 else 3) else a.state) ≠ 2
  split
  · split
    · decide
    · split <;> decide
  · next h => exact h

/-- R416: a member that was not there joins, and an election begins. -/
def State.joined (s : State) (p : Word64) : State :=
  ({ s with arcade := { s.arcade with members := s.arcade.members ++ [p] } } : State).startElection

theorem State.joined_arch (s : State) (p : Word64) (k : Nat) : (s.joined p).arch k = s.arch k := by
  unfold State.joined State.startElection State.startElectionAt State.arch
  split <;> exact rfl

theorem State.joined_keeps (s : State) (p : Word64) :
    (s.joined p).arcade.members = s.arcade.members ++ [p] ∧ SameBeyondArcade s (s.joined p) := by
  unfold State.joined State.startElection State.startElectionAt
  split <;> exact ⟨rfl, rfl, rfl, rfl, rfl, rfl, rfl, rfl, rfl, rfl, rfl, rfl, rfl, rfl⟩

theorem State.helloAccepted_eq (s : State) (n : Nat) (p : Bytes) :
    s.helloAccepted n p = if s.arcade.members.contains (BitVec.ofNat 64 (leField p 76 8)) = true then s.setArch n ((s.arch n).greeted p)
      else (s.setArch n ((s.arch n).greeted p)).joined (BitVec.ofNat 64 (leField p 76 8)) := rfl

/-- What an accepted HELLO leaves. -/
structure Greets (n : Nat) (p : Bytes) (s t : State) : Prop where
  arch : t.arch n = (s.arch n).greeted p
  joins : BitVec.ofNat 64 (leField p 76 8) ∈ t.arcade.members
  members : ∀ q ∈ s.arcade.members, q ∈ t.arcade.members
  other : SameOtherArches n s t
  beyond : SameBeyondArcade s t

theorem State.helloAccepted_greets (s : State) (n : Nat) (p : Bytes) : Greets n p s (s.helloAccepted n p) := by
  obtain ⟨hother, hbeyond, -⟩ := s.setArch_archOnly n ((s.arch n).greeted p)
  have hself := s.arch_setArch_self n ((s.arch n).greeted p)
  have hmembers : (s.setArch n ((s.arch n).greeted p)).arcade.members = s.arcade.members := rfl
  rw [State.helloAccepted_eq]
  generalize s.setArch n ((s.arch n).greeted p) = u at hother hbeyond hself hmembers ⊢
  split
  · next hin => exact ⟨hself, by rw [hmembers]; exact List.contains_iff_mem.mp hin, fun q hq => by rwa [hmembers], hother, hbeyond⟩
  · obtain ⟨hjoins, hkeeps⟩ := u.joined_keeps (BitVec.ofNat 64 (leField p 76 8))
    refine ⟨(u.joined_arch _ n).trans hself, by rw [hjoins]; exact List.mem_append_right _ (List.mem_singleton.mpr rfl),
      fun q hq => by rw [hjoins, hmembers]; exact List.mem_append_left _ hq, fun k hk => (u.joined_arch _ k).trans (hother k hk), ?_⟩
    obtain ⟨a1, a2, a3, a4, a5, a6, a7, a8, a9, a10, a11, a12, a13⟩ := hbeyond
    obtain ⟨b1, b2, b3, b4, b5, b6, b7, b8, b9, b10, b11, b12, b13⟩ := hkeeps
    exact ⟨b1.trans a1, b2.trans a2, b3.trans a3, b4.trans a4, b5.trans a5, b6.trans a6, b7.trans a7, b8.trans a8, b9.trans a9, b10.trans a10,
      b11.trans a11, b12.trans a12, b13.trans a13⟩

/-- R414: a rejected HELLO on a quarantined arch is counted, and logged at most once a minute. -/
theorem State.helloRejected_of_quarantine {s : State} {n : Nat} (h : (s.arch n).state = 2) (code : Nat) :
    LogFrame s (s.helloRejected n code) ∧ (s.helloRejected n code).odGet Od.helloRejects = (s.odGet Od.helloRejects + 1) % odModulus Od.helloRejects := by
  unfold State.helloRejected
  simp only [h, if_true]
  refine ⟨(s.count_frame Od.helloRejects 1).step (State.logLimited_frame _ _ _ _), ?_⟩
  rw [(State.logLimited_odFrame _ _ _ _).same _ (by decide), State.odGet_count_self]

/-! ### An interval (R415) -/

/-- R413: an arch with a fresh NONCE, and one interval more without a HELLO. -/
def ArchSt.greeting (a : ArchSt) (nonce : Nat) : ArchSt :=
  { a with missed := if a.up then a.missed + 1 else 0, nonces := (nonce :: a.nonces).take 2 }

/-- What an interval makes of an arch that has not missed two. -/
structure HelloTurned (n free : Nat) (a b : ArchSt) : Prop where
  state : b.state = a.state
  queues : ∀ v, v ≠ 0 → kget [] v b.queues = kget [] v a.queues
  live : a.state ≠ 0 → a.state ≠ 5 →
    b.nonces.head? = some (Config.entropy free (1000 + n)).toNat ∧ b.missed = if a.up then a.missed + 1 else 0

/-- The HELLO of one arch leaves the rest of the module as it was. -/
structure HelloFrame (n : Nat) (s t : State) : Prop where
  only : ArchOnly n s t
  free : t.free = s.free
  electing : t.arcade.electing = s.arcade.electing

theorem HelloTurned.refl {n free : Nat} {a : ArchSt} (h : a.state = 0 ∨ a.state = 5) : HelloTurned n free a a :=
  ⟨rfl, fun _ _ => rfl, fun h0 h5 => absurd h (by simp [h0, h5])⟩

theorem HelloTurned.greeting (n free : Nat) (a : ArchSt) (l : List TxFlit) :
    HelloTurned n free a ((a.greeting (Config.entropy free (1000 + n)).toNat).enqueued 0 l) :=
  ⟨rfl, fun _ hv => ArchSt.enqueued_other _ hv l, fun _ _ => ⟨rfl, rfl⟩⟩

theorem HelloFrame.refl (n : Nat) (s : State) : HelloFrame n s s :=
  ⟨⟨fun _ _ => rfl, ⟨rfl, rfl, rfl, rfl, rfl, rfl, rfl, rfl, rfl, rfl, rfl, rfl, rfl⟩, rfl⟩, rfl, rfl⟩

theorem SameBeyondArcade.trans {s t u : State} (h : SameBeyondArcade s t) (k : SameBeyondArcade t u) : SameBeyondArcade s u := by
  obtain ⟨a1, a2, a3, a4, a5, a6, a7, a8, a9, a10, a11, a12, a13⟩ := h
  obtain ⟨b1, b2, b3, b4, b5, b6, b7, b8, b9, b10, b11, b12, b13⟩ := k
  exact ⟨b1.trans a1, b2.trans a2, b3.trans a3, b4.trans a4, b5.trans a5, b6.trans a6, b7.trans a7, b8.trans a8, b9.trans a9, b10.trans a10,
    b11.trans a11, b12.trans a12, b13.trans a13⟩

theorem HelloFrame.of_set (s : State) (n : Nat) (a : ArchSt) : HelloFrame n s (s.setArch n a) := ⟨s.setArch_archOnly n a, rfl, rfl⟩

theorem HelloFrame.of_emit (n : Nat) (s : State) (o : OutMsg) : HelloFrame n s (s.emit o) :=
  ⟨⟨fun _ _ => State.emit_arch .., ⟨rfl, rfl, rfl, rfl, rfl, rfl, rfl, rfl, rfl, rfl, rfl, rfl, rfl⟩, rfl⟩, rfl, rfl⟩

theorem HelloFrame.step {n : Nat} {s t u : State} (h : HelloFrame n s t) (k : HelloFrame n t u) : HelloFrame n s u := by
  obtain ⟨⟨hother, hbeyond, hod⟩, hfree, helecting⟩ := h
  obtain ⟨⟨kother, kbeyond, kod⟩, kfree, kelecting⟩ := k
  exact ⟨⟨fun m hm => (kother m hm).trans (hother m hm), hbeyond.trans kbeyond, kod.trans hod⟩, kfree.trans hfree, kelecting.trans helecting⟩

theorem State.helloTurn_turns {s : State} {n : Nat} (hm : (s.arch n).missed < 2) :
    HelloTurned n s.free (s.arch n) ((s.helloTurn n).arch n) ∧ HelloFrame n s (s.helloTurn n) := by
  unfold State.helloTurn
  simp only
  split
  · next h => exact ⟨.refl h, .refl n s⟩
  · rw [if_neg (by rintro ⟨-, h3⟩; omega)]
    unfold State.sendHello
    simp only
    rw [State.queueFrame_of_vc (vc := 0) rfl]
    constructor
    · rw [State.emit_arch, State.arch_setArch_self, State.arch_setArch_self, State.arch_setArch_self]
      exact .greeting n s.free (s.arch n) _
    · exact (((HelloFrame.of_set ..).step (.of_set ..)).step (.of_set ..)).step (.of_emit ..)

/-- After the HELLOs of the arches of a list. -/
structure Greeted (l : List Nat) (s t : State) : Prop where
  turned : ∀ n ∈ l, HelloTurned n s.free (s.arch n) (t.arch n)
  rest : ∀ n, n ∉ l → t.arch n = s.arch n
  beyond : SameBeyondArcade s t
  od : t.od = s.od
  free : t.free = s.free
  electing : t.arcade.electing = s.arcade.electing

theorem Greeted.step {l : List Nat} {s t : State} {n : Nat} (h : Greeted l s t) (hn : n ∉ l) (hm : (s.arch n).missed < 2) :
    Greeted (l ++ [n]) s (t.helloTurn n) := by
  have hsame : t.arch n = s.arch n := h.rest n hn
  obtain ⟨hturned, ⟨hother, hbeyond, hod⟩, hfree, helecting⟩ := t.helloTurn_turns (n := n) (by rwa [hsame])
  rw [h.free, hsame] at hturned
  refine ⟨fun k hk => ?_, fun k hk => ?_, h.beyond.trans hbeyond, hod.trans h.od, hfree.trans h.free, helecting.trans h.electing⟩
  · rcases List.mem_append.mp hk with hin | hin
    · rw [hother k (fun hkn => hn (hkn ▸ hin))]
      exact h.turned k hin
    · rw [List.mem_singleton.mp hin]
      exact hturned
  · simp only [List.mem_append, List.mem_singleton, not_or] at hk
    rw [hother k hk.2, h.rest k hk.1]

theorem State.helloTurns {s : State} : ∀ m, (∀ n < m, (s.arch n).missed < 2) → Greeted (List.range m) s ((List.range m).foldl State.helloTurn s)
  | 0, _ => ⟨fun n h => absurd h (by simp), fun _ _ => rfl, ⟨rfl, rfl, rfl, rfl, rfl, rfl, rfl, rfl, rfl, rfl, rfl, rfl, rfl⟩, rfl, rfl, rfl⟩
  | m + 1, h => by
    rw [List.range_succ, List.foldl_append]
    exact (State.helloTurns m (fun n hn => h n (by omega))).step (by simp) (h m (by omega))

theorem exec_helloInterval_of_quiet {s : State} (h : ((List.range 12).foldl State.helloTurn s).arcade.electing = false) :
    exec .helloInterval s = .next ((List.range 12).foldl State.helloTurn s).tick := by
  change execHelloInterval s = _
  unfold execHelloInterval
  simp only
  rw [if_neg (by simp [h])]

/-! ### An election settles (R416) -/

/-- What the election of the tray settles. -/
structure SettlesTray (c : List Word64) (l : Nat) (a : ArcadeSt) : Prop where
  manager : a.manager = c.head?
  deputy : a.deputy = (c.drop 1).head?
  managers : a.managers = []
  level : a.electLevel = l
  ended : a.electing = false

theorem State.settleArcade_of_tray {s : State} (h : s.arcade.electLevel ≤ 3) (c : List Word64) : SettlesTray c s.arcade.electLevel (s.settleArcade c) := by
  unfold State.settleArcade
  simp only [h, if_true]
  exact ⟨rfl, rfl, rfl, rfl, rfl⟩

/-- What the election of a gallery above the tray settles. -/
structure SettlesAbove (p : Option Word64) (l : Nat) (a b : ArcadeSt) : Prop where
  manager : b.manager = a.manager
  deputy : b.deputy = a.deputy
  managers : kfind l b.managers = p

theorem State.settleArcade_of_above {s : State} (h : 3 < s.arcade.electLevel) (c : List Word64) :
    SettlesAbove c.head? s.arcade.electLevel s.arcade (s.settleArcade c) := by
  unfold State.settleArcade
  simp only [Nat.not_le.mpr h, if_false]
  refine ⟨rfl, rfl, ?_⟩
  cases c.head? with
  | none => exact kfind_kdel_self ..
  | some p => exact kfind_kput_self ..

/-- The election of a level has settled, counted and noted; the election of the gallery above has not begun. -/
def State.elected (s : State) : State :=
  let c := s.candidates.map (·.1)
  let t := ({ s with arcade := s.settleArcade c } : State).count Od.elections 1
  if c = [] then t.logEv { code := 0x5005 } else t

theorem State.elected_keeps (s : State) :
    s.elected.arcade = s.settleArcade (s.candidates.map (·.1)) ∧ s.elected.halls = s.halls ∧ s.elected.mem = s.mem ∧
      s.elected.odGet Od.elections = (s.odGet Od.elections + 1) % odModulus Od.elections ∧ s.elected.depth = s.depth := by
  unfold State.elected
  simp only
  have hcount := ({ s with arcade := s.settleArcade (s.candidates.map (·.1)) } : State).count_frame Od.elections 1
  have hod := ({ s with arcade := s.settleArcade (s.candidates.map (·.1)) } : State).odGet_count_self Od.elections 1
  have hdepth := ({ s with arcade := s.settleArcade (s.candidates.map (·.1)) } : State).odGet_count_ne (k := Od.elections) (j := Od.depthConfig) (by decide) 1
  split
  · have hlog := hcount.step (State.logEv_frame _ { code := 0x5005 } 0)
    exact ⟨hlog.arcade, hlog.halls, hlog.mem, ((State.logEv_odFrame _ { code := 0x5005 } 0).same _ (by decide)).trans hod,
      ((State.logEv_odFrame _ { code := 0x5005 } 0).same _ (by decide)).trans hdepth⟩
  · exact ⟨hcount.arcade, hcount.halls, hcount.mem, hod, hdepth⟩

theorem State.settle_eq (s : State) :
    s.settle = s.elected.electAbove ∨
      ∃ q, s.arcade.manager = some q ∧ s.elected.electAbove.arcade.members.contains q = false ∧ s.settle = s.elected.electAbove.stopUsers q := by
  change (match s.arcade.manager with
    | some q => if s.elected.electAbove.isManager && !s.elected.electAbove.mine q && !s.elected.electAbove.arcade.members.contains q then
        s.elected.electAbove.stopUsers q else s.elected.electAbove
    | none => s.elected.electAbove) = _ ∨ ∃ q, s.arcade.manager = some q ∧ _ ∧ (match s.arcade.manager with
    | some q => if s.elected.electAbove.isManager && !s.elected.electAbove.mine q && !s.elected.electAbove.arcade.members.contains q then
        s.elected.electAbove.stopUsers q else s.elected.electAbove
    | none => s.elected.electAbove) = _
  cases s.arcade.manager with
  | none => exact .inl rfl
  | some q =>
    simp only
    split
    · next h =>
      simp only [Bool.and_eq_true, Bool.not_eq_true'] at h
      exact .inr ⟨q, rfl, h.2, rfl⟩
    · exact .inl rfl

/-- Two states agree in everything that an election's begin above the tray leaves. -/
structure ElectsAbove (s t : State) : Prop where
  manager : t.arcade.manager = s.arcade.manager
  deputy : t.arcade.deputy = s.arcade.deputy
  managers : t.arcade.managers = s.arcade.managers
  members : t.arcade.members = s.arcade.members
  od : t.od = s.od
  halls : t.halls = s.halls
  mem : t.mem = s.mem

theorem State.electAbove_keeps (s : State) : ElectsAbove s s.electAbove := by
  unfold State.electAbove State.startElectionAt
  split
  · split <;> exact ⟨rfl, rfl, rfl, rfl, rfl, rfl, rfl⟩
  · exact ⟨rfl, rfl, rfl, rfl, rfl, rfl, rfl⟩

theorem ElectsAbove.isManager {s t : State} (h : ElectsAbove s t) : t.isManager = s.isManager := by
  have hdepth : t.depth = s.depth := by unfold State.depth State.odGet; rw [h.od]
  have hpath : t.ownPath = s.ownPath := by unfold State.ownPath State.odGet; rw [hdepth, h.od]
  unfold State.isManager
  rw [h.manager, hdepth, hpath]

theorem State.managedLevel_of_tray {s : State} (h : s.isManager = true) (hm : s.arcade.managers = []) : s.managedLevel = 3 := by
  unfold State.managedLevel
  rw [if_neg (by simp [h])]
  exact foldl_keeps (fun m => m = 3) _ (fun m k hm3 => by simp [hm, kfind, hm3]) _ rfl

theorem State.isManager_depth {s : State} (h : s.isManager = true) : 2 < s.depth := by
  unfold State.isManager at h
  simp only [Bool.and_eq_true, decide_eq_true_eq] at h
  exact h.1

/-- R16: after the election of the tray, its manager takes part in the election of the gallery above. -/
theorem State.electAbove_of_tray {s : State} (hm : s.arcade.managers = []) (hl : s.arcade.electLevel = 3) (he : s.arcade.electing = false) :
    s.electAbove.arcade.electing = (s.isManager && decide (3 < s.depth)) := by
  unfold State.electAbove
  cases hmanager : s.isManager with
  | false => simpa using he
  | true =>
    rw [State.managedLevel_of_tray hmanager hm, hl]
    by_cases hdepth : 3 < s.depth
    · have h2 : ¬ s.depth ≤ 2 := by omega
      simp [hdepth, State.startElectionAt, h2]
    · simpa [hdepth] using he

theorem exec_electionSettle_of_due {s : State} (h : s.arcade.electing = true) (hdue : s.allVoted = true ∨ 3 ≤ s.arcade.electIntervals) :
    exec .electionSettle s = .next s.settle := by
  change execElectionSettle s = _
  unfold execElectionSettle
  exact if_pos (by simpa [h] using hdue)

theorem exec_electionSettle_of_early {s : State} (h : s.arcade.electing = false ∨ s.allVoted = false ∧ s.arcade.electIntervals < 3) :
    exec .electionSettle s = .next s := by
  change execElectionSettle s = _
  unfold execElectionSettle
  refine if_neg ?_
  rcases h with h | ⟨hvoted, hfew⟩
  · simp [h]
  · simp only [hvoted, Bool.false_or, Bool.and_eq_true, decide_eq_true_eq, not_and]
    omega

/-- Settles O29. -/
theorem helloAndElectionSettle : Obligations.HelloAndElectionSettle := by
  refine ⟨?_, ?_, ?_, ?_, fun s => exec_electionSettle_of_early⟩
  · intro f e g s hok hvc hlen h0 h5 hgenuine hplaced
    have hexec := execHello_of_arrived (e := e) (g := g) hok hvc hlen h0 h5
    simp only [hgenuine, hplaced, Bool.true_eq_false, if_false] at hexec
    obtain ⟨hother, hbeyond, -⟩ := s.setArch_archOnly f.arch ((s.arch f.arch).withNonce (leField f.payload 84 8))
    have hself := s.arch_setArch_self f.arch ((s.arch f.arch).withNonce (leField f.payload 84 8))
    have hmembers : (s.setArch f.arch ((s.arch f.arch).withNonce (leField f.payload 84 8))).arcade.members = s.arcade.members := rfl
    generalize s.setArch f.arch ((s.arch f.arch).withNonce (leField f.payload 84 8)) = u at hexec hother hbeyond hself hmembers
    obtain ⟨harch, hjoins, hstay, hother', hbeyond'⟩ := u.helloAccepted_greets f.arch f.payload
    rw [hself] at harch
    refine ⟨_, hexec, ?_, ?_, ?_, ?_, ?_, ?_, hjoins, fun p hp => hstay p (by rwa [hmembers]), fun k hk => (hother' k hk).trans (hother k hk),
      hbeyond.trans hbeyond'⟩
    all_goals rw [harch]
    iterate 4 rfl
    · exact ArchSt.greeted_state _ _
    · rfl
  · intro f e g s hok hvc hlen hstate hbad
    have hexec := execHello_of_arrived (e := e) (g := g) hok hvc hlen (by rw [hstate]; decide) (by rw [hstate]; decide)
    obtain ⟨hother, hbeyond, hod⟩ := s.setArch_archOnly f.arch ((s.arch f.arch).withNonce (leField f.payload 84 8))
    have hself := s.arch_setArch_self f.arch ((s.arch f.arch).withNonce (leField f.payload 84 8))
    have hmembers : (s.setArch f.arch ((s.arch f.arch).withNonce (leField f.payload 84 8))).arcade.members = s.arcade.members := rfl
    generalize s.setArch f.arch ((s.arch f.arch).withNonce (leField f.payload 84 8)) = u at hexec hother hbeyond hod hself hmembers
    have hcode : ∃ code, exec (.hello f e g) s = .next (u.helloRejected f.arch code) := by
      simp only at hexec
      cases hgenuine : s.helloGenuine f.arch f.payload e g with
      | false => exact ⟨_, hexec.trans (by rw [if_pos hgenuine])⟩
      | true => exact ⟨_, hexec.trans (by rw [if_neg (by simp [hgenuine]), if_pos (by simpa [hgenuine] using hbad)])⟩
    obtain ⟨code, hcode⟩ := hcode
    obtain ⟨hlog, hcount⟩ := State.helloRejected_of_quarantine (s := u) (n := f.arch) (by rw [hself]; exact hstate) code
    have harch : ∀ k, (u.helloRejected f.arch code).arch k = u.arch k := fun k => by unfold State.arch; rw [hlog.arcade]
    obtain ⟨-, -, -, hhalls, hmem, -, -, hserve, -⟩ := hbeyond
    refine ⟨_, hcode, ?_, ?_, by rw [hlog.arcade, hmembers], fun k hk => (harch k).trans (hother k hk), hlog.halls.trans hhalls, hlog.mem.trans hmem,
      hlog.serve.trans hserve, by rw [hcount, State.odGet, hod, State.odGet]⟩
    · rw [harch, hself]
      exact hstate
    · rw [harch, hself]
      rfl
  · intro s hquiet hmissed
    obtain ⟨hturned, -, hbeyond, hod, hfree, helecting⟩ := State.helloTurns 12 hmissed
    rw [hquiet] at helecting
    have hexec := exec_helloInterval_of_quiet helecting
    generalize (List.range 12).foldl State.helloTurn s = t at hturned hbeyond hod hfree hexec
    refine ⟨t.tick, hexec, congrArg (· + 1) hfree, hbeyond.trans ⟨rfl, rfl, rfl, rfl, rfl, rfl, rfl, rfl, rfl, rfl, rfl, rfl, rfl⟩, hod, fun n hn => ?_⟩
    obtain ⟨hstate, hqueues, hlive⟩ := hturned n (List.mem_range.mpr hn)
    exact ⟨hstate, hqueues, hlive⟩
  · intro s helecting hdue
    obtain ⟨harcade, hhalls, hmem, hcount, hdepth⟩ := s.elected_keeps
    have hkeeps := s.elected.electAbove_keeps
    have hmembers : s.elected.electAbove.arcade.members = s.arcade.members := by
      rw [hkeeps.members, harcade]
      unfold State.settleArcade
      split <;> rfl
    refine ⟨s.elected.electAbove, ?_, fun hl => ?_, fun hl => ?_, hmembers, ?_, hkeeps.halls.trans hhalls, hkeeps.mem.trans hmem⟩
    · rw [exec_electionSettle_of_due helecting hdue]
      rcases s.settle_eq with h | ⟨q, hq, hnot, h⟩
      · exact .inl (congrArg _ h)
      · exact .inr ⟨q, hq, by rwa [hmembers] at hnot, congrArg _ h⟩
    · obtain ⟨hmanager, hdeputy, hmanagers, hlevel, hended⟩ := State.settleArcade_of_tray (Nat.le_of_eq hl) (s.candidates.map (·.1))
      rw [← harcade] at hmanager hdeputy hmanagers hlevel hended
      exact ⟨hkeeps.manager.trans hmanager, hkeeps.deputy.trans hdeputy,
        by rw [State.electAbove_of_tray hmanagers (hlevel.trans hl) hended, hkeeps.isManager, hdepth]⟩
    · obtain ⟨hmanager, hdeputy, hmanagers⟩ := State.settleArcade_of_above hl (s.candidates.map (·.1))
      rw [← harcade] at hmanager hdeputy hmanagers
      exact ⟨by rw [hkeeps.managers, hmanagers], hkeeps.manager.trans hmanager, hkeeps.deputy.trans hdeputy⟩
    · rw [State.odGet, hkeeps.od, ← hcount, State.odGet]

end Sys2Proof.Machine
end

section
/-!
SUPPORT. Writes of DOMAIN entries as a whole as they reach this module (R42 to R45, R571), and the statement on firmware and attestation (R490 to R494).
-/

namespace Sys2Proof.Machine

/-! ### A whole DOMAIN write that reaches its entry -/

/-- R492: the start of a whole write: an image begins to be received. -/
def State.domainStart (s : State) (k : Nat) : State := if k = Od.fwImage then s.fwBegin else s

theorem State.accessWhole_of_passed {s : State} {a : Access} {row : OdRow} (hrow : s.entryRow (roleOf a.via) a.key = some row) (hw : row.writable = true)
    (hm : s.mayWrite (roleOf a.via) (a.key / 256) = true) (hs : s.rwsOk row = true) (hdom : row.isDomain = true) (hlen : domLenOk a.key a.body.length = true)
    (hstart : s.startOk a.key = true) (hfree : ∀ t ∈ s.od.transfers, t.key = a.key → t.isWrite = false) (hroom : s.od.transfers.length < transferMax) :
    s.accessWhole a = (((s.domainStart a.key).writeDomain a.via a.key a.body a.aux).1, [], ((s.domainStart a.key).writeDomain a.via a.key a.body a.aux).2) := by
  have hnone : ¬ (s.od.transfers.any (fun t => t.key == a.key && t.isWrite)) = true := by
    simp only [List.any_eq_true, Bool.and_eq_true, beq_iff_eq, not_exists, not_and, Bool.not_eq_true]
    exact hfree
  rw [State.accessWhole, State.writeCheck_of_passed hrow hw hm hs, if_neg (by simp [hdom, hlen]), if_neg (by simp [hstart]), if_neg hnone,
    if_neg (by omega)]
  rfl

theorem State.access_of_whole {s : State} {a : Access} (hop : a.op = 6) (hr : s.newel.recovery = false) : s.access a none = s.accessWhole a := by
  simp [State.access, hop, hr]

/-- R36, R571: a whole write that reaches its DOMAIN entry is answered as the entry's own rules say. -/
theorem State.entryAccess_of_domain {s : State} {w : OdW} {via : Via} {k : Nat} {aux : DomAux} (h : ReachesDomain s w via k) (hk : k % 256 ≠ 0) :
    s.entryAccess 6 w 0 k aux =
      ((s.domainStart k).writeDomain via k w.value aux).2.emit (.od (.via w.via) ((s.domainStart k).writeDomain via k w.value aux).1
        (((s.domainStart k).writeDomain via k w.value aux).2.odGet Od.odWriteSeq) []) := by
  obtain ⟨⟨hoff, hrestart, hrec, htarget, hmay, row, hrow, hw, hrws⟩, hty, hlen, hstart, hfree, hroom⟩ := h
  have hdom : row.isDomain = true := by
    rw [State.entryRow_of_sub hk hrow] at hty
    simpa [OdRow.isDomain] using hty
  unfold State.entryAccess
  rw [if_neg (by simp [hoff, hrestart])]
  obtain ⟨level, ⟨ht, rfl⟩ | ⟨ht, rfl, horigin⟩⟩ := htarget
  · rw [State.perform_of_here ht, State.access_of_whole rfl hrec, State.accessWhole_of_passed hrow hw hmay hrws hdom hlen hstart hfree hroom,
      answerTo_of_prompt (State.answerLate_of_op (show (6 : Nat) ≠ 1 by decide) _ _)]
    rfl
  · have ho : s.originMay ⟨w.via, 0, .via w.via, 6, w.path, k, w.value, aux, segmentMax w.via, level⟩ = true := horigin
    simp only [State.perform, ht, ho, if_true, Bool.not_true, Bool.false_eq_true, if_false]
    rw [State.access_of_whole rfl hrec, State.accessWhole_of_passed hrow hw hmay hrws hdom hlen hstart hfree hroom,
      answerTo_of_prompt (State.answerLate_of_op (show (6 : Nat) ≠ 1 by decide) _ _)]
    rfl

theorem commitWrite_of_taken {k : Nat} (hf : k ∉ foyerEntries) (r : State) : commitWrite k (0, r) = (0, r.count Od.odWriteSeq 1) := by
  simp [commitWrite, State.sendConfig, hf]

theorem commitWrite_of_refused {k code : Nat} (hc : code ≠ 0) (r : State) : commitWrite k (code, r) = (code, r) := by simp [commitWrite, hc]

section
variable {s r : State} {w : OdW} {via : Via} {k : Nat} {aux : DomAux} {c : Instr} (h : ReachesDomain s w via k)
  (hc : exec c s = .next (s.entryAccess 6 w 0 k aux)) (hk : k % 256 ≠ 0)
include h hc hk

theorem ReachesDomain.commits (hf : k ∉ foyerEntries) (hr : (s.domainStart k).writeDomain via k w.value aux = commitWrite k (0, r)) :
    Commits s c w.via r := by
  rw [Commits, hc, State.entryAccess_of_domain h hk, hr, commitWrite_of_taken hf]

theorem ReachesDomain.answered {code : Nat} (hne : code ≠ 0) (hr : (s.domainStart k).writeDomain via k w.value aux = commitWrite k (code, r)) :
    exec c s = .next (r.emit (.od (.via w.via) code (r.odGet Od.odWriteSeq) [])) := by
  rw [hc, State.entryAccess_of_domain h hk, hr, commitWrite_of_refused hne]

end

/-! ### An image (R492) -/

theorem exec_fwImage (w : OdW) (sig dig : Bool) (s : State) : exec (.fwImage w sig dig) s = .next (s.entryAccess 6 w 0 Od.fwImage (.image sig dig)) := by rfl

theorem State.writeDomain_fwImage (s : State) (via : Via) (b : Bytes) (sig dig : Bool) :
    s.writeDomain via Od.fwImage b (.image sig dig) = commitWrite Od.fwImage (s.fwReceived b sig dig) := by rfl

theorem State.domainStart_fwImage {s : State} (h : s.newel.recovery = false) : s.domainStart Od.fwImage = s.odPut Od.fwState 1 := by
  have hr : (s.odPut Od.fwState 1).newel.recovery = false := h
  unfold State.domainStart
  rw [if_pos rfl, State.fwBegin]
  exact if_neg (by rw [hr]; decide)

/-- R492: the image is staged: its programming begins. -/
def State.fwStage (s : State) (b : Bytes) : State :=
  ({ s with newel := { s.newel with staged := some (⟨leField b 24 4, leField b 28 4, leField b 40 64⟩, b.length) } } : State)

theorem State.fwReceived_of_good {s : State} {b : Bytes} (hform : fwHeaderOk b = true) (hsec : s.newel.security ≤ leField b 28 4) :
    s.fwReceived b true true = (0, (((s.odPut Od.fwState 2).fwStage b).odPut Od.fwState 3).odPut Od.fwProgress 0) := by
  have hs : (s.odPut Od.fwState 2).newel.security = s.newel.security := rfl
  unfold State.fwReceived
  simp only [hform, hs, Nat.not_lt.mpr hsec, Bool.not_true, Bool.false_eq_true, if_false]
  rfl

/-- R492: the code of the first check that an image fails. -/
def fwRefusal (s : State) (b : Bytes) (sig : Bool) : Nat :=
  if fwHeaderOk b = false then 0x7101 else if sig = false then 0x7102 else if leField b 28 4 < s.newel.security then 0x7103 else 0x7102

theorem fwRefusal_ne_zero (s : State) (b : Bytes) (sig : Bool) : fwRefusal s b sig ≠ 0 := by
  unfold fwRefusal
  split
  · decide
  · split
    · decide
    · split <;> decide

theorem State.fwReceived_of_bad {s : State} {b : Bytes} {sig dig : Bool}
    (h : (fwHeaderOk b && sig && decide (s.newel.security ≤ leField b 28 4) && dig) = false) :
    s.fwReceived b sig dig = (fwRefusal s b sig, (s.odPut Od.fwState 2).fwRefuse (fwRefusal s b sig)) := by
  have hs : (s.odPut Od.fwState 2).newel.security = s.newel.security := rfl
  unfold State.fwReceived fwRefusal
  cases hform : fwHeaderOk b with
  | false => simp
  | true =>
    cases hsig : sig with
    | false => simp
    | true =>
      by_cases hsec : leField b 28 4 < s.newel.security
      · simp [hsec]
      · have hdig : dig = false := by simpa [hform, hsig, Nat.not_lt.mp hsec] using h
        simp [hsec, hdig]

theorem NewelFrame.images {s t : State} (h : NewelFrame s t) :
    t.newel.staged = s.newel.staged ∧ t.newel.slot = s.newel.slot ∧ t.newel.running = s.newel.running := by
  obtain ⟨q, hq⟩ := h.queued
  rw [hq]
  exact ⟨rfl, rfl, rfl⟩

/-- R492: an image refused outside recovery leaves every image as it was. -/
theorem State.fwRefuse_keeps {s : State} (h : s.newel.recovery = false) (code : Nat) :
    NewelFrame s (s.fwRefuse code) ∧ (s.fwRefuse code).odGet Od.fwLastCode = code ∧ (s.fwRefuse code).odGet Od.odWriteSeq = s.odGet Od.odWriteSeq := by
  have hr : ((s.odPut Od.fwState 5).odPut Od.fwLastCode code).newel.recovery = false := h
  unfold State.fwRefuse
  simp only [hr, Bool.false_eq_true, if_false]
  have hlog := State.logEv_odFrame ((s.odPut Od.fwState 5).odPut Od.fwLastCode code) { code := code } 0
  refine ⟨NewelFrame.step (t := (s.odPut Od.fwState 5).odPut Od.fwLastCode code) (.of_eq rfl) (State.logEv_report _ { code := code }).toNewelFrame, ?_, ?_⟩
  · rw [hlog.same _ (by decide), State.odGet_odPut_self]
  · rw [hlog.same _ (by decide), State.odGet_odPut_ne _ (by decide), State.odGet_odPut_ne _ (by decide)]

/-! ### Programming (R492) -/

theorem exec_fwProgramDone (ok : Bool) (s : State) : exec (.fwProgramDone ok) s = execFwProgramDone ok s := by rfl

/-- R492: the slot holds an image, or none, and none is staged. -/
def State.slotted (s : State) (i : Option FwImage) : State := { s with newel := { s.newel with slot := i, staged := none } }

theorem execFwProgramDone_of_good {s : State} {i : FwImage} {n : Nat} (h3 : s.odGet Od.fwState = 3) (hstaged : s.newel.staged = some (i, n)) :
    exec (.fwProgramDone true) s = .next ((((s.slotted (some i)).odPut Od.fwState 4).odPut Od.fwStagedVersion i.version).odPut Od.fwProgress n) := by
  rw [exec_fwProgramDone, execFwProgramDone, if_neg (by simp [h3]), hstaged]
  rfl

theorem execFwProgramDone_of_bad {s : State} {i : FwImage} {n : Nat} (h3 : s.odGet Od.fwState = 3) (hstaged : s.newel.staged = some (i, n)) :
    exec (.fwProgramDone false) s = .next ((((s.slotted none).odPut Od.fwState 5).odPut Od.fwLastCode 0x7104).logEv { code := 0x7104 }) := by
  rw [exec_fwProgramDone, execFwProgramDone, if_neg (by simp [h3]), hstaged]
  rfl

/-! ### FW_ACTIVATE and the report (R490, R494) -/

theorem exec_fwActivate (w : OdW) (s : State) : exec (.fwActivate w) s = .next (s.entryAccess 1 w 0 Od.fwActivate .plain) := by rfl

theorem State.applyScalar_fwActivate (s : State) (via : Via) (port v : Nat) :
    s.applyScalar via port Od.fwActivate (writtenValue Od.fwActivate v) = s.fwActivate := rfl

theorem State.fwActivate_of_stopped {s : State} (hm : s.mode = .stopped) (h4 : s.odGet Od.fwState = 4) (ht : s.trans = none) :
    s.fwActivate = (0, { s.finishTest 5 with newel := { s.newel with fwActivated := true }, trans := some .standby }) := by
  unfold State.fwActivate
  exact if_neg (by simp [hm, h4, ht])

theorem exec_attestReport (via : Via) (path : Word64) (s : State) :
    exec (.attestReport via path) s = .next (s.entryAccess 2 ⟨via, path, []⟩ 0 Od.attestReport .plain) := by rfl

theorem State.attestReport_ne_nil (s : State) (r : Role) : s.attestReport r ≠ [] := by
  unfold State.attestReport signed
  simp

theorem odRow_attestReport : (odRow Od.attestReport).any (fun row => row.readable && row.isDomain) = true := by decide +kernel

theorem State.mayRead_attestReport (s : State) (a : Access) (hkey : a.key = Od.attestReport) :
    ∃ row, MayReadEntry s a row ∧ row.ty = .domain := by
  obtain ⟨row, hrow, hgood⟩ := (Option.any_eq_true _ _).mp odRow_attestReport
  obtain ⟨hread, hdom⟩ := Bool.and_eq_true_iff.mp hgood
  refine ⟨row, ⟨?_, hread, ?_⟩, by simpa [OdRow.isDomain] using hdom⟩
  · rw [hkey]
    exact hrow
  · rw [hkey]
    simp [mayRead, Od.attestReport]

/-- R494: the entry into Standby with the slot's image begins. -/
def State.activating (s : State) : State := { s.finishTest 5 with newel := { s.newel with fwActivated := true }, trans := some .standby }

/-- Settles O36. -/
theorem firmwareAndAttestation : Obligations.FirmwareAndAttestation := by
  refine ⟨?_, ?_, ?_, ?_, ?_, ?_⟩
  · intro s w via h hform hsec
    have hgood := State.fwReceived_of_good (s := s.odPut Od.fwState 1) hform hsec
    have hcommits := h.commits (exec_fwImage w true true s) (by decide) (by decide)
      (by rw [State.writeDomain_fwImage, State.domainStart_fwImage h.1.2.2.1, hgood])
    refine ⟨_, hcommits, rfl, rfl, rfl, ?_, ?_, rfl, rfl⟩
    · rw [State.odGet_odPut_ne _ (by decide), State.odGet_odPut_self]
    · rw [State.odGet_odPut_self]
  · intro s w via sig dig h hbad
    have hrec : s.newel.recovery = false := h.1.2.2.1
    obtain ⟨hnewel, hcode, hseq⟩ := State.fwRefuse_keeps (s := (s.odPut Od.fwState 1).odPut Od.fwState 2) hrec (fwRefusal (s.odPut Od.fwState 1) w.value sig)
    have hexec := h.answered (exec_fwImage w sig dig s) (by decide) (fwRefusal_ne_zero (s.odPut Od.fwState 1) w.value sig)
      (by rw [State.writeDomain_fwImage, State.domainStart_fwImage hrec, State.fwReceived_of_bad (s := s.odPut Od.fwState 1) hbad])
    obtain ⟨hstaged, hslot, hrunning⟩ := hnewel.images
    refine ⟨_, hexec, hstaged, hslot, hrunning, ?_, hcode⟩
    rw [State.emit_odGet, hseq, State.odGet_odPut_ne _ (by decide), State.odGet_odPut_ne _ (by decide)]
  · intro s i n h3 hstaged
    refine ⟨⟨_, execFwProgramDone_of_good h3 hstaged, rfl, rfl, rfl, ?_, ?_, rfl, rfl⟩, ⟨_, execFwProgramDone_of_bad h3 hstaged, ?_⟩⟩
    · rw [State.odGet_odPut_ne _ (by decide), State.odGet_odPut_ne _ (by decide), State.odGet_odPut_self]
    · rw [State.odGet_odPut_ne _ (by decide), State.odGet_odPut_self]
    · have hlog := State.logEv_frame (((s.slotted none).odPut Od.fwState 5).odPut Od.fwLastCode 0x7104) { code := 0x7104 } 0
      have hod := State.logEv_odFrame (((s.slotted none).odPut Od.fwState 5).odPut Od.fwLastCode 0x7104) { code := 0x7104 } 0
      obtain ⟨-, hslot, hrunning⟩ := (State.logEv_report (((s.slotted none).odPut Od.fwState 5).odPut Od.fwLastCode 0x7104) { code := 0x7104 }).toNewelFrame.images
      refine ⟨hslot, hrunning, ?_, ?_, hlog.mode, hlog.mem⟩
      · rw [hod.same _ (by decide), State.odGet_odPut_ne _ (by decide), State.odGet_odPut_self]
      · rw [hod.same _ (by decide), State.odGet_odPut_self]
  · intro s ok h
    rw [exec_fwProgramDone, execFwProgramDone, if_pos h]
  · intro s w via h hmode h4 htrans
    exact ⟨s.activating, h.commits (exec_fwActivate w s) (by decide) (by decide) (by decide)
      (by rw [State.applyScalar_fwActivate, State.fwActivate_of_stopped hmode h4 htrans]; rfl), rfl, rfl, rfl,
      (s.finishTest_report 5).mode.trans hmode⟩
  · intro s via path level hoff hrestart hrec htarget hnone
    obtain ⟨row, hmay, hty⟩ := s.mayRead_attestReport ⟨via, 0, .via via, 2, path, Od.attestReport, [], .plain, segmentMax via, level⟩ rfl
    have hbytes : s.odBytes (roleOf via) Od.attestReport = s.attestReport (roleOf via) := rfl
    have hopens := State.accessReadStart_opens hmay hty rfl hnone (by rw [hbytes]; exact s.attestReport_ne_nil _)
    rw [hbytes] at hopens
    have hperform := (State.perform_of_here (a := ⟨via, 0, .via via, 2, path, Od.attestReport, [], .plain, segmentMax via, 2⟩) htarget).trans
      (congrArg (answerTo _) ((State.access_of_op_readStart hrec rfl).trans hopens))
    rw [answerTo_of_prompt (State.answerLate_of_op (show (2 : Nat) ≠ 1 by decide) _ _)] at hperform
    refine ⟨_, (exec_attestReport via path s).trans (congrArg _ ((if_neg (by simp [hoff, hrestart])).trans hperform)), ?_, rfl, rfl, rfl, rfl⟩
    exact State.putTransfer_of_none (s := s.tick) hnone _

end Sys2Proof.Machine
end

section
/-!
SUPPORT. Loading and unloading a model, and the field map, as their entries take them (R387 to R391, R459, R460).
-/

namespace Sys2Proof.Machine

theorem ReachesDomain.denied {s : State} {w : OdW} {via : Via} {k code : Nat} {aux : DomAux} {c : Instr} (h : ReachesDomain s w via k)
    (hc : exec c s = .next (s.entryAccess 6 w 0 k aux)) (hk : k % 256 ≠ 0) (hfw : k ≠ Od.fwImage) (hne : code ≠ 0)
    (hr : s.writeDomain via k w.value aux = commitWrite k (code, s)) : Denied s c w.via code := by
  refine h.answered hc hk hne ?_
  rw [State.domainStart, if_neg hfw]
  exact hr

/-! ### The models (R387 to R389) -/

/-- The models as a map says. -/
def State.withModel (s : State) (m : Nat) (x : ModelSt) : State := { s with serve := { s.serve with models := kput m x s.serve.models } }

theorem State.withModel_self (s : State) (m : Nat) (x : ModelSt) : kfind m (s.withModel m x).serve.models = some x := kfind_kput_self ..

theorem State.withModel_other (s : State) {m n : Nat} (h : n ≠ m) (x : ModelSt) : kfind n (s.withModel m x).serve.models = kfind n s.serve.models :=
  kfind_kput_ne h ..

/-- R388: a load whose descriptor has come and whose package the Planner has not read. -/
def loadOpened (d : LoadD) (now : Nat) : ModelSt :=
  { state := 1, code := 0, tenant := d.tenant, flags := d.flags, permille := d.permille, hallMask := d.hallMask, share := d.share,
    members := d.members, home := d.home, parts := d.count, part := 0, offset := 0, pkgAddr := d.pkgAddr, pkgLen := d.pkgLen,
    since := now, epoch := 0, time := 0, pkg := none, work := [], packed := false, shares := [], done := [] }

theorem State.loadBegin_of_new {s : State} {d : LoadD} (hform : s.loadForm d = true) (hpart : d.part = 0) (hmodel : d.model ≠ 0)
    (hnew : kfind d.model s.serve.models = none) : s.loadBegin d = (0, s.withModel d.model (loadOpened d s.epoch)) := by
  unfold State.loadBegin
  simp only
  rw [hnew, if_neg (by simp [hpart]), if_neg (by simp [hform, hpart]), if_neg (by simp [hmodel])]
  rfl

theorem State.holds_withModel (s : State) (m : Nat) (x : ModelSt) (sl : Slice) : (s.withModel m x).holds sl = s.holds sl := rfl

theorem State.planRefusal_withModel (s : State) (m : Nat) (x y : ModelSt) (p : Package) : (s.withModel m x).planRefusal y p = s.planRefusal y p := rfl

/-- R388: the Planner has read the package: the load is planned. -/
def ModelSt.planned (x : ModelSt) (p : Package) : ModelSt := { x with state := 2, pkg := if x.part = 0 then some p else x.pkg }

theorem State.loadPlan_of_good {s : State} {m : Nat} {p : Package} {x : ModelSt} (hx : kfind m s.serve.models = some x) (h1 : x.state = 1)
    (hp : p.partOk = true) (hplan : x.part = 0 → s.planRefusal x p = 0) : s.loadPlan m p = s.withModel m (x.planned p) := by
  unfold State.loadPlan
  rw [hx]
  simp only
  rw [if_neg (by simp [h1]), if_neg (by simp [hp]), if_neg (by rintro ⟨h0, hne⟩; exact hne (hplan h0))]
  rfl

/-- R388: a load that is refused at a later step. -/
def ModelSt.refusedWith (x : ModelSt) (code : Nat) : ModelSt :=
  { x with state := 5, code := code, pkg := none, work := [], packed := false, shares := [], done := [] }

theorem State.loadPlan_of_bad {s : State} {m : Nat} {p : Package} {x : ModelSt} (hx : kfind m s.serve.models = some x) (h1 : x.state = 1)
    (hp : p.partOk = true) (h0 : x.part = 0) (hplan : s.planRefusal x p ≠ 0) :
    s.loadPlan m p = (s.withModel m (x.refusedWith (s.planRefusal x p))).count Od.modelsRefused 1 := by
  unfold State.loadPlan
  rw [hx]
  simp only
  rw [if_neg (by simp [h1]), if_neg (by simp [hp]), if_pos ⟨h0, hplan⟩, State.refuseLoad, hx]
  rfl

theorem exec_loadRequest (w : OdW) (p : Package) (s : State) :
    exec (.loadRequest w p) s = .next (if w.value.length = 64 ∧ s.awaitsPlan (loadD w.value) then s.loadPlan (loadD w.value).model p
      else s.entryAccess 6 w 0 Od.loadRequest (.package p)) := by rfl

theorem execLoadRequest_of_written {s : State} {w : OdW} {p : Package} (h : s.awaitsPlan (loadD w.value) = false) :
    exec (.loadRequest w p) s = .next (s.entryAccess 6 w 0 Od.loadRequest (.package p)) := by
  rw [exec_loadRequest, if_neg (by simp [h])]

theorem execLoadRequest_of_awaited {s : State} {w : OdW} {p : Package} (hlen : w.value.length = 64) (h : s.awaitsPlan (loadD w.value) = true) :
    exec (.loadRequest w p) s = .next (s.loadPlan (loadD w.value).model p) := by
  rw [exec_loadRequest, if_pos ⟨hlen, h⟩]

theorem State.writeDomain_loadRequest (s : State) (via : Via) (b : Bytes) (p : Package) :
    s.writeDomain via Od.loadRequest b (.package p) = commitWrite Od.loadRequest (s.loadRequest b p) := by rfl

theorem State.loadRequest_of_elsewhere {s : State} (h : s.mayLoad = false) (b : Bytes) (p : Package) : s.loadRequest b p = (0x1103, s) := by
  unfold State.loadRequest
  exact if_pos (by simp [h])

/-- A state reached from another when a load's descriptor has come. -/
theorem State.loadRequest_of_begun {s t : State} {b : Bytes} (h : s.mayLoad = true) (hbegin : s.loadBegin (loadD b) = (0, t)) (p : Package) :
    s.loadRequest b p = (0, t.loadPlan (loadD b).model p) := by
  unfold State.loadRequest
  rw [if_neg (by simp [h]), hbegin]
  rfl

theorem State.awaitsPlan_state {s : State} {d : LoadD} {x : ModelSt} (h : s.awaitsPlan d = true) (hx : kfind d.model s.serve.models = some x) :
    x.state = 1 := by
  unfold State.awaitsPlan at h
  rw [hx] at h
  simp only [Option.any_some, Bool.and_eq_true, beq_iff_eq] at h
  obtain ⟨⟨⟨⟨h1, -⟩, -⟩, -⟩, -⟩ := h
  exact h1

/-! ### UNLOAD (R391) -/

theorem exec_unload (w : OdW) (s : State) : exec (.unload w) s = .next (s.entryAccess 1 w 0 Od.unload .plain) := by rfl

theorem State.applyScalar_unload (s : State) (via : Via) (port v : Nat) :
    s.applyScalar via port Od.unload (writtenValue Od.unload v) = s.unload v := rfl

theorem State.unload_of_unknown {s : State} {m : Nat} (h : kfind m s.serve.models = none) : s.unload m = (0x1105, s) := by
  unfold State.unload
  exact if_pos (by simp [h])

theorem State.unload_of_program {s : State} {m : Nat} (h : (kfind m s.serve.models).isSome = true) (hprog : ∃ e ∈ s.progs, e.2.img.model = m) :
    s.unload m = (0x1103, s) := by
  have hany : (s.progs.any (fun e => e.2.img.model == m)) = true := by
    obtain ⟨e, he, hm⟩ := hprog
    exact List.any_eq_true.mpr ⟨e, he, by simp [hm]⟩
  unfold State.unload
  rw [if_neg (by simp [Option.isSome_iff_ne_none.mp h])]
  exact if_pos (by rw [hany, Bool.or_true])

theorem State.unload_of_unused {s : State} {m : Nat} (h : (kfind m s.serve.models).isSome = true) (hprogs : s.progs = []) (hstreams : s.streamList = []) :
    s.unload m = (0, (s.releaseModel m).closeSettled) := by
  unfold State.unload
  rw [if_neg (by simp [Option.isSome_iff_ne_none.mp h])]
  exact if_neg (by simp [hprogs, hstreams])

/-! ### The field map (R459, R460) -/

theorem exec_fieldMapWrite (w : OdW) (s : State) : exec (.fieldMapWrite w) s = .next (s.entryAccess 6 w 0 Od.fieldMap .plain) := by rfl

theorem exec_fieldCellSet (w : OdW) (s : State) : exec (.fieldCellSet w) s = .next (s.entryAccess 6 w 0 Od.fieldCellSet .plain) := by rfl

theorem State.writeDomain_fieldMap (s : State) (via : Via) (b : Bytes) :
    s.writeDomain via Od.fieldMap b .plain = commitWrite Od.fieldMap (s.writeFieldMap b) := by rfl

theorem State.writeDomain_fieldCellSet (s : State) (via : Via) (b : Bytes) :
    s.writeDomain via Od.fieldCellSet b .plain = commitWrite Od.fieldCellSet (s.editFieldMap b) := by rfl

/-- R460: an empty map where there is no cell. -/
theorem State.setMap_nil {s : State} (h : s.foyer.cells = []) : s.setMap [] = s.domPut Od.fieldMap [] := by
  unfold State.setMap
  simp [h, byEntry]

theorem State.writeFieldMap_of_bad {s : State} {b : Bytes} (h : ∃ r ∈ mapRecords b, s.cellRecOk r = false) : s.writeFieldMap b = (0x1105, s) := by
  have hall : (mapRecords b).all s.cellRecOk = false := by
    obtain ⟨r, hr, hbad⟩ := h
    exact List.all_eq_false.mpr ⟨r, hr, by simp [hbad]⟩
  unfold State.writeFieldMap
  exact if_neg (by simp [hall])

theorem State.writeFieldMap_nil {s : State} (h : s.foyer.cells = []) : s.writeFieldMap [] = (0, s.domPut Od.fieldMap []) := by
  rw [← State.setMap_nil h]
  rfl

theorem State.editFieldMap_of_action {s : State} {b : Bytes} (h : 2 ≤ leField b 18 1) : s.editFieldMap b = (0x1105, s) := by
  unfold State.editFieldMap
  match leField b 18 1, h with
  | n + 2, _ => rfl

theorem State.editFieldMap_of_bad {s : State} {b : Bytes} (h : leField b 18 1 = 0) (hbad : s.cellRecOk (cellRecOf b) = false) :
    s.editFieldMap b = (0x1105, s) := by
  unfold State.editFieldMap
  rw [h]
  exact if_neg (by simp [hbad])

theorem State.editFieldMap_of_removal {s : State} {b : Bytes} (h : leField b 18 1 = 1) (hcells : s.foyer.cells = []) (hmap : s.domGet Od.fieldMap [] = []) :
    s.editFieldMap b = (0, s.domPut Od.fieldMap []) := by
  unfold State.editFieldMap
  rw [h, hmap, ← State.setMap_nil hcells]
  rfl

/-- Settles O37. -/
theorem loadUnloadAndFieldMap : Obligations.LoadUnloadAndFieldMap := by
  refine ⟨?_, ?_, ?_, ?_, ?_, ?_⟩
  · intro s w via p h hnot hmay hform hpart hmodel hnew hp hplan
    have hbegin := State.loadBegin_of_new hform hpart hmodel hnew
    have hself := s.withModel_self (loadD w.value).model (loadOpened (loadD w.value) s.epoch)
    have hgood := State.loadPlan_of_good (p := p) hself rfl hp (fun _ => (State.planRefusal_withModel ..).trans (hplan _ rfl rfl rfl))
    have hcommits := h.commits (execLoadRequest_of_written (p := p) hnot) (by decide) (by decide)
      (by rw [State.domainStart, if_neg (by decide), State.writeDomain_loadRequest, State.loadRequest_of_begun hmay hbegin, hgood])
    refine ⟨_, (loadOpened (loadD w.value) s.epoch).planned p, hcommits, State.withModel_self .., rfl, rfl, rfl, rfl, rfl, rfl, fun m hm => ?_⟩
    · rw [State.withModel_other _ hm, State.withModel_other _ hm]
  · intro s w via p h hnot hmay
    exact h.denied (execLoadRequest_of_written hnot) (by decide) (by decide) (by decide)
      (by rw [State.writeDomain_loadRequest, State.loadRequest_of_elsewhere hmay])
  · intro s w p x hlen hawaits hx hp
    have hexec := execLoadRequest_of_awaited (p := p) hlen hawaits
    have h1 := State.awaitsPlan_state hawaits hx
    refine ⟨fun hplan => ?_, fun h0 hplan => ?_⟩
    · rw [State.loadPlan_of_good hx h1 hp hplan] at hexec
      exact ⟨_, hexec, rfl, rfl, State.withModel_self s _ (x.planned p)⟩
    · rw [State.loadPlan_of_bad hx h1 hp h0 hplan] at hexec
      exact ⟨_, x.refusedWith (s.planRefusal x p), hexec, rfl, rfl, State.withModel_self .., rfl, rfl, rfl⟩
  · intro s w via h
    refine ⟨fun hnone => ?_, fun hsome hprog => ?_, fun hsome hprogs hstreams => ?_⟩
    · exact h.denied (exec_unload w s) (by decide) (by decide) (by decide) (by rw [State.applyScalar_unload, State.unload_of_unknown hnone])
    · exact h.denied (exec_unload w s) (by decide) (by decide) (by decide) (by rw [State.applyScalar_unload, State.unload_of_program hsome hprog])
    · exact h.commits (exec_unload w s) (by decide) (by decide) (by decide)
        (by rw [State.applyScalar_unload, State.unload_of_unused hsome hprogs hstreams])
  · intro s w via h
    refine ⟨fun hbad => ?_, fun hnil hcells => ?_⟩
    · exact h.denied (exec_fieldMapWrite w s) (by decide) (by decide) (by decide)
        (by rw [State.writeDomain_fieldMap, State.writeFieldMap_of_bad hbad])
    · refine ⟨s.domPut Od.fieldMap [], h.commits (exec_fieldMapWrite w s) (by decide) (by decide) ?_, hcells, ?_, rfl, rfl⟩
      · rw [State.domainStart, if_neg (by decide), State.writeDomain_fieldMap, hnil, State.writeFieldMap_nil hcells]
      · exact congrArg (fun v => Option.getD v []) (kfind_kput_self ..)
  · intro s w via h
    refine ⟨fun haction => ?_, fun h0 hbad => ?_, fun h1 hcells hmap => ?_⟩
    · exact h.denied (exec_fieldCellSet w s) (by decide) (by decide) (by decide)
        (by rw [State.writeDomain_fieldCellSet, State.editFieldMap_of_action haction])
    · exact h.denied (exec_fieldCellSet w s) (by decide) (by decide) (by decide)
        (by rw [State.writeDomain_fieldCellSet, State.editFieldMap_of_bad h0 hbad])
    · refine ⟨s.domPut Od.fieldMap [], h.commits (exec_fieldCellSet w s) (by decide) (by decide) ?_, hcells, rfl, rfl⟩
      rw [State.domainStart, if_neg (by decide), State.writeDomain_fieldCellSet, State.editFieldMap_of_removal h1 hcells hmap]

end Sys2Proof.Machine
end

section
/-!
SUPPORT. What the writes and records of a park, of a restore and of a stream's end leave of the streams, their cache pools and the steps (R341 to R348).
-/

namespace Sys2Proof.Machine

/-! ### Work that leaves streams and pools (R341) -/

/-- The counters of the kept caches. -/
def keptEntries : List Nat := [Od.ttlExpiries, Od.parks, Od.restores]

/-- Two states agree in the streams, the cache pools, the open steps, the halls and those counters. -/
structure CacheFrame (s t : State) : Prop where
  streams : t.serve.streams = s.serve.streams
  pools : t.serve.pools = s.serve.pools
  steps : t.serve.steps = s.serve.steps
  halls : t.halls = s.halls
  entries : ∀ k ∈ keptEntries, t.odGet k = s.odGet k

namespace CacheFrame

variable {r s t : State}

theorem refl (s : State) : CacheFrame s s := ⟨rfl, rfl, rfl, rfl, fun _ _ => rfl⟩

theorem step (h : CacheFrame r s) (k : CacheFrame s t) : CacheFrame r t :=
  ⟨k.streams.trans h.streams, k.pools.trans h.pools, k.steps.trans h.steps, k.halls.trans h.halls, fun j hj => (k.entries j hj).trans (h.entries j hj)⟩

/-- An update of other parts of the state. -/
theorem same (h : CacheFrame r s) (hstreams : t.serve.streams = s.serve.streams := by rfl) (hpools : t.serve.pools = s.serve.pools := by rfl)
    (hsteps : t.serve.steps = s.serve.steps := by rfl) (hhalls : t.halls = s.halls := by rfl) (hod : t.od.vals = s.od.vals := by rfl) : CacheFrame r t :=
  h.step ⟨hstreams, hpools, hsteps, hhalls, fun k _ => by rw [State.odGet, hod, State.odGet]⟩

theorem ite {c : Prop} [Decidable c] (hs : CacheFrame r s) (ht : CacheFrame r t) : CacheFrame r (if c then s else t) := by
  split <;> assumption

theorem foldl {α : Type} {l : List α} {f : State → α → State} (h : CacheFrame r s) (hf : ∀ u x, CacheFrame r u → CacheFrame r (f u x)) :
    CacheFrame r (l.foldl f s) := foldl_keeps (CacheFrame r) f hf l h

theorem put (h : CacheFrame r s) {k v : Nat} (hk : k ∉ keptEntries := by decide) : CacheFrame r (s.odPut k v) :=
  h.step ⟨rfl, rfl, rfl, rfl, fun _ hj => s.odGet_odPut_ne (ne_of_mem_of_not_mem hj hk) v⟩

theorem tally (h : CacheFrame r s) {k n : Nat} (hk : k ∉ keptEntries := by decide) : CacheFrame r (s.count k n) := h.put hk

theorem answered (h : CacheFrame r s) (ha : AnswerFrame s t) : CacheFrame r t :=
  h.step ⟨by rw [ha.serve], by rw [ha.serve], by rw [ha.serve], ha.halls, fun k hk => ha.entries k (by
    have hnone : ∀ k ∈ keptEntries, k ∉ answerEntries := by decide
    exact hnone k hk)⟩

theorem signal (h : CacheFrame r s) {v : Nat} : CacheFrame r (s.signal v) := by
  have hs := s.signal_frame v
  exact h.same (by rw [hs.serve]) (by rw [hs.serve]) (by rw [hs.serve]) hs.halls (by rw [State.signal_od])

theorem memWrite (h : CacheFrame r s) {a data poison} : CacheFrame r (s.memWrite a data poison) := by
  unfold State.memWrite
  exact .ite h (.ite h.tally h.same)

theorem backInvalidate (h : CacheFrame r s) {l} : CacheFrame r (s.backInvalidate l) := by
  unfold State.backInvalidate
  exact .ite h (tally (s := ({ s with cxl := { s.cxl with snooped := some l } } : State).emit (.bisnp l)) h.same)

theorem drainHost {n} (h : CacheFrame r s) : CacheFrame r (drainHost n s) := by
  induction n generalizing s with
  | zero => exact h
  | succ n ih =>
    unfold Machine.drainHost
    split
    · exact h
    · exact ih (signal h.same)
    · exact .ite (ih h.same) (.ite (ih h.same) (by split; exacts [h, h.backInvalidate]))
    · exact ih h.same
    · exact ih h.same
    · split
      · exact .ite h.backInvalidate (ih (memWrite h.same))
      · exact ih (memWrite h.same)

theorem hostActs (h : CacheFrame r s) {acts} : CacheFrame r (s.hostActs acts) := by
  unfold State.hostActs
  exact drainHost h.same

theorem devWrite (h : CacheFrame r s) {a d poison} : CacheFrame r (s.devWrite a d poison) := h.hostActs

theorem moveTo (h : CacheFrame r s) {dest addr d} : CacheFrame r (s.moveTo dest addr d) := by
  unfold State.moveTo
  exact answered (s := { s with arcade := _ }) h.same (State.sendFrame_answerFrame _ _)

theorem flushWords (h : CacheFrame r s) {i k n} : CacheFrame r (s.flushWords i k n) := by
  have hlocal : CacheFrame r (s.flushLocal i k n) := h.devWrite
  unfold State.flushWords
  extract_lets
  split
  · exact hlocal.moveTo
  · exact hlocal

theorem counts (h : CacheFrame r s) {l : List (Nat × Nat)} (hl : ∀ e ∈ l, e.1 ∉ keptEntries) : CacheFrame r (s.counts l) := by
  induction l generalizing s with
  | nil => exact h
  | cons e l ih => exact ih (h.tally (hl e List.mem_cons_self)) (fun x hx => hl x (List.mem_cons_of_mem e hx))

theorem moveRegion (h : CacheFrame r s) {a b n} : CacheFrame r (s.moveRegion a b n) := by
  unfold State.moveRegion
  refine .ite h (counts (foldl h.devWrite (fun u w hu => .ite hu.same hu)) ?_)
  simp only [List.mem_cons, List.not_mem_nil, or_false, forall_eq_or_imp, forall_eq]
  decide

theorem moveSpans {hall : Nat} {toRun : Bool} (l : List (Nat × Nat)) : ∀ {s : State} {at_ : Nat}, CacheFrame r s → CacheFrame r (s.moveSpans hall toRun at_ l) := by
  induction l with
  | nil => exact fun h => h
  | cons b l ih =>
    intro s at_ h
    unfold State.moveSpans
    exact ih (.ite h.moveRegion h.moveRegion)

theorem parkSpans (h : CacheFrame r s) {hall at_ l} : CacheFrame r (s.parkSpans hall at_ l) := (moveSpans l h).devWrite

theorem abandonDescs (h : CacheFrame r s) {p} : CacheFrame r (s.abandonDescs p) := by
  unfold State.abandonDescs
  exact tally (s := { s with xlate := _ }) h.same

theorem coalesced (h : CacheFrame r s) {v} : CacheFrame r (s.coalesced v).1 := by
  unfold State.coalesced
  split
  · exact h.same
  · split
    · exact h
    · exact h.same

theorem clogWrite (h : CacheFrame r s) {tenant rec_} : CacheFrame r (s.clogWrite tenant rec_) := by
  unfold State.clogWrite
  dsimp only
  exact h.put.coalesced.hostActs

theorem notify (h : CacheFrame r s) {i commit} : CacheFrame r (s.notify i commit) := by
  have hadd : ∀ {tenant rec_}, CacheFrame r (s.clogAdd tenant rec_) := by
    intro tenant rec_
    unfold State.clogAdd
    exact .ite (tally (s := { s with serve := _ }) h.same) h.clogWrite
  unfold State.notify
  exact .ite hadd h

theorem stream (h : CacheFrame r s) (i : Nat) : s.stream i = r.stream i := by rw [State.stream, h.streams, State.stream]

theorem sState (h : CacheFrame r s) (i : Nat) : s.sState i = r.sState i := by
  unfold State.sState State.sw
  rw [h.stream]

theorem sHall (h : CacheFrame r s) (i : Nat) : s.sHall i = r.sHall i := by
  unfold State.sHall State.sw
  rw [h.stream]

theorem pool (h : CacheFrame r s) (k : Nat) : s.pool k = r.pool k := by rw [State.pool, h.pools, State.pool]

end CacheFrame

/-! ### A change of STATE (R318) -/

/-- R317: a record with its STATE changed. -/
def StreamRec.withState (r : StreamRec) (st : Nat) : StreamRec := r.put 0 (setBits (r.word 0) 7 0 st)

theorem StreamRec.withState_state (r : StreamRec) {st : Nat} (h : st < 256) : bits ((r.withState st).word 0) 7 0 = st := by
  unfold StreamRec.withState StreamRec.put StreamRec.word
  simp only [kget_kset_self, setBits, bits]
  omega

theorem State.setState_puts (s : State) (i st : Nat) : CacheFrame (s.setStream i ((s.stream i).withState st)) (s.setState i st) := by
  have hput : CacheFrame (s.setStream i ((s.stream i).withState st)) (s.putSw i 0 (setBits (s.sw i 0) 7 0 st)) := .refl _
  unfold State.setState
  exact (CacheFrame.ite hput.flushWords.flushWords.flushWords hput.flushWords.flushWords).flushWords

theorem State.setState_stream (s : State) (i st : Nat) : (s.setState i st).stream i = (s.stream i).withState st := by
  rw [(s.setState_puts i st).stream, State.stream_setStream_self]

theorem State.setState_sState (s : State) (i : Nat) {st : Nat} (h : st < 256) : (s.setState i st).sState i = st := by
  unfold State.sState State.sw
  rw [State.setState_stream, StreamRec.withState_state _ h]

/-! ### Parks that begin (R345) -/

/-- R345: a park begins at most for a stream that is paused. -/
structure ParksLow (s t : State) : Prop where
  streams : ∀ i, s.sState i ≠ stPaused → t.stream i = s.stream i
  pools : t.serve.pools = s.serve.pools
  od : t.od = s.od

theorem ParksLow.refl (s : State) : ParksLow s s := ⟨fun _ _ => rfl, rfl, rfl⟩

/-- The oldest of the pauses of a list comes from it. -/
theorem foldl_oldest_mem (l : List (Nat × Nat)) : ∀ (b : Option (Nat × Nat)) {x : Nat × Nat},
    l.foldl (fun b x => match b with | none => some x | some y => some (if x.1 < y.1 then x else y)) b = some x → x ∈ l ∨ b = some x := by
  induction l with
  | nil => exact fun b x h => .inr h
  | cons y l ih =>
    intro b x h
    rcases ih _ h with hmem | hsome
    · exact .inl (List.mem_cons_of_mem y hmem)
    · cases b with
      | none => exact .inl (by rw [Option.some.inj hsome]; exact List.mem_cons_self)
      | some z =>
        simp only [Option.some.injEq] at hsome
        split at hsome
        · exact .inl (hsome ▸ List.mem_cons_self)
        · exact .inr (congrArg some hsome)

theorem State.startPark_parks {s : State} {i : Nat} (h : s.sState i = stPaused) : ParksLow s (s.startPark i) := by
  unfold State.startPark
  split
  · refine ⟨fun j hj => ?_, rfl, rfl⟩
    exact s.stream_setStream_ne (fun hji : j = i => hj (by rw [hji]; exact h)) _
  · exact .refl s

theorem State.parkLow_parks (s : State) (h : Nat) : ParksLow s (s.parkLow h) := by
  unfold State.parkLow
  split
  · exact .refl s
  · simp only
    split
    · next t i hfold =>
      rcases foldl_oldest_mem _ _ hfold with hmem | hnone
      · obtain ⟨e, -, he⟩ := List.mem_filterMap.mp hmem
        cases hcache : e.2.cache with
        | none => simp [hcache] at he
        | some c =>
          rw [hcache] at he
          simp only at he
          split at he
          · next hgood =>
            obtain ⟨hpaused, -⟩ := hgood
            rw [Option.some.injEq, Prod.mk.injEq] at he
            exact State.startPark_parks (he.2 ▸ hpaused)
          · cases he
      · cases hnone
    · exact .refl s

/-! ### The end of a stream (R317, R343, R348) -/

/-- R320: the open steps and the batches without a stream. -/
def State.withoutStream (s : State) (i : Nat) : State :=
  let own := (s.xlate.descs.filter (fun d => d.stream == i && d.use == .output)).map (·.id)
  { s with serve := { s.serve with
      steps := s.serve.steps.map (fun x => if x.slots.contains i then { x with removed := (x.removed ++ [i]).dedup, waits := x.waits.filter (fun d => !own.contains d) } else x),
      batches := (s.serve.batches.map (fun x => { x with streams := x.streams.filter (· ≠ i) })).filter (fun x => !x.streams.isEmpty) } }

theorem State.leaveSteps_leaves (s : State) (i : Nat) : CacheFrame (s.withoutStream i) (s.leaveSteps i) := (CacheFrame.refl (s.withoutStream i)).abandonDescs

/-- R343: the blocks of a cache return to the pool of its hall. -/
theorem State.releaseCache_of_some {s : State} {i : Nat} {c : CacheSt} (h : (s.stream i).cache = some c) :
    ∃ u, CacheFrame s u ∧ s.releaseCache i =
      (u.poolFree (s.sHall i) ((s.pool (s.sHall i)).2 + (c.blocks.length + c.dblocks.length))).modStream i (fun r => { r with cache := none }) := by
  have hu : CacheFrame s (if c.moving.isSome then s.count Od.moverAbandoned 1 else s) := .ite (.tally (.refl s)) (.refl s)
  refine ⟨_, hu, ?_⟩
  unfold State.releaseCache
  rw [h]
  simp only
  rw [hu.sHall, hu.pool]

theorem State.poolFree_pool (s : State) (h n : Nat) : ((s.poolFree h n).pool h).2 = n := by
  unfold State.poolFree State.pool
  rw [kget_kset_self]

/-- What the end of a stream with a cache leaves. -/
structure Ended (i n : Nat) (s t : State) : Prop where
  cache : (t.stream i).cache = none
  pool : (t.pool (s.sHall i)).2 = (s.pool (s.sHall i)).2 + n
  halls : t.halls = s.halls
  entries : ∀ k ∈ keptEntries, t.odGet k = s.odGet k

theorem Ended.step {i n : Nat} {s t u : State} (h : Ended i n s t) (k : CacheFrame t u) : Ended i n s u :=
  ⟨by rw [k.stream]; exact h.cache, by rw [k.pool]; exact h.pool, k.halls.trans h.halls, fun j hj => (k.entries j hj).trans (h.entries j hj)⟩

theorem Ended.setStream {i n : Nat} {s t : State} (h : Ended i n s t) {r : StreamRec} (hr : r.cache = none) : Ended i n s (t.setStream i r) :=
  ⟨by rw [State.stream_setStream_self]; exact hr, h.pool, h.halls, h.entries⟩

theorem State.releaseCache_ended {s u : State} {i : Nat} {c : CacheSt} (hc : (s.stream i).cache = some c) (hu : CacheFrame (s.withoutStream i) u) :
    Ended i (c.blocks.length + c.dblocks.length) s (u.releaseCache i) := by
  have hstream : u.stream i = s.stream i := hu.stream i
  have hhall : u.sHall i = s.sHall i := hu.sHall i
  have hpool : u.pool (s.sHall i) = s.pool (s.sHall i) := hu.pool _
  obtain ⟨v, hv, heq⟩ := State.releaseCache_of_some (s := u) (i := i) (c := c) (by rw [hstream]; exact hc)
  rw [heq, hhall, hpool]
  refine ⟨?_, ?_, hv.halls.trans hu.halls, fun k hk => (hv.entries k hk).trans (hu.entries k hk)⟩
  · rw [State.stream_modStream_self]
  · exact State.poolFree_pool ..

/-- R320, R343: a stream that has left its steps, without cache, share and input. -/
def State.cleared (s : State) (i : Nat) : State :=
  ((((s.leaveSteps i).countWait i).releaseCache i).releaseShare i).modStream i (fun r => { r with was := 0, input := none, sampled := [], tree := [] })

theorem State.endStream_of_completed (s : State) (i : Nat) :
    s.endStream i stCompleted = (((s.cleared i).count Od.completions 1).setState i stCompleted).notify i false := by rfl

theorem State.cleared_ended {s : State} {i : Nat} {c : CacheSt} (hc : (s.stream i).cache = some c) :
    Ended i (c.blocks.length + c.dblocks.length) s (s.cleared i) := by
  have hleft := s.leaveSteps_leaves i
  have hwait : CacheFrame (s.withoutStream i) ((s.leaveSteps i).countWait i) := by
    unfold State.countWait
    exact .ite hleft.tally hleft
  have hreleased := State.releaseCache_ended hc hwait
  have hshare : Ended i (c.blocks.length + c.dblocks.length) s ((((s.leaveSteps i).countWait i).releaseCache i).releaseShare i) :=
    hreleased.setStream hreleased.cache
  exact hshare.setStream hshare.cache

/-- R317, R343: a stream that completes has no cache; its blocks are free. -/
theorem State.endStream_completes {s : State} {i : Nat} {c : CacheSt} (hc : (s.stream i).cache = some c) :
    Ended i (c.blocks.length + c.dblocks.length) s (s.endStream i stCompleted) ∧ (s.endStream i stCompleted).sState i = stCompleted := by
  have hcounted := (State.cleared_ended hc).step ((CacheFrame.refl _).tally (k := Od.completions) (n := 1))
  rw [State.endStream_of_completed]
  generalize (s.cleared i).count Od.completions 1 = u at hcounted ⊢
  have hset : Ended i (c.blocks.length + c.dblocks.length) s (u.setStream i ((u.stream i).withState stCompleted)) := hcounted.setStream hcounted.cache
  have hnotify : CacheFrame (u.setState i stCompleted) ((u.setState i stCompleted).notify i false) := (CacheFrame.refl _).notify
  exact ⟨(hset.step (u.setState_puts i stCompleted)).step hnotify, by rw [hnotify.sState, State.setState_sState _ _ (by decide)]⟩

/-! ### A park that ends (R346) -/

/-- R346: the bytes of a cache in its copy in the mezzanine. -/
def State.parkMoves (s : State) (i a : Nat) (c : CacheSt) : State :=
  let h := s.sHall i
  let log := a + spansLen (s.ownSpans c)
  let m := 4 * c.tokens.length
  let u := s.parkSpans h a (s.ownSpans c)
  ((u.moveRegion (tokenPlace h 0 i 0) log m).moveRegion (tokenPlace h 1 i 0) (log + m) m).parkSpans h (log + 2 * m) (s.draftSpans c)

theorem State.parkMoves_moves (s : State) (i a : Nat) (c : CacheSt) : CacheFrame s (s.parkMoves i a c) :=
  ((CacheFrame.refl s).parkSpans.moveRegion.moveRegion).parkSpans

/-- R346: a cache whose copy stands in the mezzanine. -/
def CacheSt.parkedAt (c : CacheSt) (a : Nat) : CacheSt := { c with blocks := [], dblocks := [], moving := none, parked := some a }

/-- R346: a cache that has been parked, with its blocks free. -/
def State.parkedAt (s : State) (i a : Nat) (c : CacheSt) : State :=
  (s.poolFree (s.sHall i) ((s.pool (s.sHall i)).2 + (c.blocks.length + c.dblocks.length))).modStream i (fun r => { r with cache := some (c.parkedAt a) })

theorem execParkDone_of_copied {s : State} {i a : Nat} {c : CacheSt} (hc : (s.stream i).cache = some c) (hmoving : c.moving = some 0)
    (hpaused : s.sState i = stPaused) (hlow : mezzBase ≤ a) (hfirst : mezzHallOf a = s.sHall i) (hlast : mezzHallOf (a + s.parkLen c) = s.sHall i)
    (hpresent : bit (s.odGet Od.mezzPresent) (s.sHall i) = true) (hopen : s.mezzOpen a (s.parkLen c) = true) :
    exec (.parkDone i a) s = .next ((((((s.parkMoves i a c).poolFree (s.sHall i) (((s.parkMoves i a c).pool (s.sHall i)).2 + (c.blocks.length + c.dblocks.length))).modStream i
      (fun r => { r with cache := some (c.parkedAt a) })).counts [(Od.parks, 1), (Od.parkedBytes, s.parkLen c)]).setState i stParked).parkLow (s.sHall i)) := by
  change execParkDone i a s = _
  unfold execParkDone
  rw [hc]
  simp only
  rw [if_neg (by simp [hmoving, hpaused, Nat.not_lt.mpr hlow, hfirst, hlast, hpresent, hopen])]
  rfl

theorem execParkDone_of_none {s : State} {i a : Nat} (h : ∀ c, (s.stream i).cache = some c → c.moving ≠ some 0) : exec (.parkDone i a) s = .next s := by
  change execParkDone i a s = _
  unfold execParkDone
  cases hc : (s.stream i).cache with
  | none => rfl
  | some c =>
    simp only
    exact if_pos (.inr (.inl (h c hc)))

/-- What the end of a park leaves. -/
structure Parked (i n : Nat) (c : CacheSt) (s t : State) : Prop where
  state : t.sState i = stParked
  cache : (t.stream i).cache = some c
  pool : (t.pool (s.sHall i)).2 = (s.pool (s.sHall i)).2 + n
  counted : t.odGet Od.parks = (s.odGet Od.parks + 1) % odModulus Od.parks

theorem ParksLow.parked {i n : Nat} {c : CacheSt} {s t u : State} (h : Parked i n c s t) (k : ParksLow t u) : Parked i n c s u := by
  have hstream : u.stream i = t.stream i := k.streams i (by rw [h.state]; decide)
  refine ⟨?_, by rw [hstream]; exact h.cache, ?_, ?_⟩
  · rw [State.sState, State.sw, hstream]
    exact h.state
  · rw [State.pool, k.pools]
    exact h.pool
  · rw [State.odGet, k.od]
    exact h.counted

/-! ### The blocks of a restore (R341, R347) -/

/-- The held spans that end beyond a place. -/
def beyond (held : List (Nat × Nat)) (at_ : Nat) : List (Nat × Nat) := held.filter (fun e => decide (at_ < e.1 + e.2))

theorem beyond_length_le (held : List (Nat × Nat)) {a b : Nat} (h : a ≤ b) : (beyond held b).length ≤ (beyond held a).length := by
  unfold beyond
  rw [← List.countP_eq_length_filter, ← List.countP_eq_length_filter]
  exact List.countP_mono_left (fun e _ hb => by simp only [decide_eq_true_eq] at hb ⊢; omega)

theorem beyond_length_lt {held : List (Nat × Nat)} {a : Nat} {e : Nat × Nat} (he : e ∈ held) (h : a < e.1 + e.2) :
    (beyond held (e.1 + e.2)).length < (beyond held a).length := by
  have hsub : beyond held (e.1 + e.2) = (beyond held a).filter (fun q => decide (e.1 + e.2 < q.1 + q.2)) := by
    unfold beyond
    rw [List.filter_filter]
    refine List.filter_congr (fun q _ => ?_)
    by_cases hq : e.1 + e.2 < q.1 + q.2
    · simp [hq, show a < q.1 + q.2 by omega]
    · simp [hq]
  rw [hsub]
  exact List.length_filter_lt_length_iff_exists.mpr ⟨e, List.mem_filter.mpr ⟨he, by simpa using h⟩, by simp⟩

/-- R341: with steps enough to pass every held span, as many places are found as are asked for. -/
theorem fitBlocks_length (units : Nat) (held : List (Nat × Nat)) : ∀ (fuel n at_ : Nat), n + (beyond held at_).length ≤ fuel →
    (fitBlocks units held fuel n at_).length = n
  | 0, n, at_, h => by
    have hn : n = 0 := by omega
    rw [hn]
    rfl
  | _ + 1, 0, _, _ => rfl
  | fuel + 1, n + 1, at_, h => by
    unfold fitBlocks
    split
    · next e he =>
      have hmem := List.mem_of_find?_eq_some he
      have hmeets := List.find?_some he
      simp only [Bool.and_eq_true, decide_eq_true_eq] at hmeets
      have hlt := beyond_length_lt hmem hmeets.1
      exact fitBlocks_length units held fuel (n + 1) _ (by omega)
    · have hle := beyond_length_le held (Nat.le_add_right at_ units)
      rw [List.length_cons, fitBlocks_length units held fuel n _ (by omega)]

/-- R341: no place that is found meets a held span. -/
theorem fitBlocks_free (units : Nat) (held : List (Nat × Nat)) : ∀ (fuel n at_ : Nat), ∀ b ∈ fitBlocks units held fuel n at_, ∀ e ∈ held,
    ¬ (b < e.1 + e.2 ∧ e.1 < b + units)
  | 0, _, _ => by simp [fitBlocks]
  | _ + 1, 0, _ => by simp [fitBlocks]
  | fuel + 1, n + 1, at_ => by
    intro b hb e he
    unfold fitBlocks at hb
    split at hb
    · exact fitBlocks_free units held fuel (n + 1) _ b hb e he
    · next hnone =>
      rcases List.mem_cons.mp hb with rfl | hb
      · have hfree := List.find?_eq_none.mp hnone e he
        simpa using hfree
      · exact fitBlocks_free units held fuel n _ b hb e he

theorem beyond_le_length (held : List (Nat × Nat)) (a : Nat) : (beyond held a).length ≤ held.length := List.length_filter_le ..

theorem State.modelUnits_pos (s : State) (m : Nat) : 0 < s.modelUnits m := by
  unfold State.modelUnits
  omega

/-- R341: the spans that the caches of a hall hold. -/
def State.heldSpans (s : State) (h : Nat) : List (Nat × Nat) := (s.hallCaches h).flatMap s.cacheSpans

theorem State.heldSpans_pos {s : State} {h : Nat} {e : Nat × Nat} (he : e ∈ s.heldSpans h) : 0 < e.2 := by
  obtain ⟨c, -, hc⟩ := List.mem_flatMap.mp he
  unfold State.cacheSpans State.ownSpans State.draftSpans at hc
  rcases List.mem_append.mp hc with hc | hc
  · obtain ⟨b, -, rfl⟩ := List.mem_map.mp hc
    exact s.modelUnits_pos _
  · obtain ⟨b, -, rfl⟩ := List.mem_map.mp hc
    exact s.modelUnits_pos _

/-- What a reservation gives. -/
structure Reserves (s : State) (h n m : Nat) (bs ds : List Nat) (t : State) : Prop where
  own : bs.length = n
  draft : ds.length = m
  fresh : ∀ b ∈ bs ++ ds, b ∉ s.blocksHeld h
  state : t = s.poolFree h ((s.pool h).2 - (n + m))

theorem State.reserve_of_room {s : State} {h model n m : Nat} {draft : Option Nat} (hroom : n + m ≤ (s.pool h).2) :
    ∃ bs ds t, s.reserve h model n draft m = some (bs, ds, t) ∧ Reserves s h n m bs ds t := by
  unfold State.reserve
  rw [if_pos hroom]
  refine ⟨_, _, _, rfl, ?_, ?_, ?_, rfl⟩
  · exact fitBlocks_length _ _ _ _ _ (Nat.add_le_add_left (beyond_le_length _ _) _)
  · exact fitBlocks_length _ _ _ _ _ (Nat.add_le_add_left (beyond_le_length _ _) _)
  · intro b hb hheld
    obtain ⟨e, he, rfl⟩ := List.mem_map.mp hheld
    have hpos := State.heldSpans_pos he
    rcases List.mem_append.mp hb with hb | hb
    · have hfree := fitBlocks_free _ _ _ _ _ _ hb e he
      have hunits := s.modelUnits_pos model
      omega
    · have hfree := fitBlocks_free _ _ _ _ _ _ hb e (List.mem_append_left _ he)
      have hunits := s.modelUnits_pos (draft.getD 0)
      omega

end Sys2Proof.Machine
end

section
/-!
SUPPORT. The end of a restore, the kept caches whose time is over, and the step that a ripe batch opens (R332, R335, R347, R348).
-/

namespace Sys2Proof.Machine

/-! ### A restore that ends (R347) -/

/-- R347: a cache that is back in the pool. -/
def CacheSt.restored (c : CacheSt) (draft : Option Nat) (bs ds : List Nat) : CacheSt :=
  { c with draft := draft, blocks := bs, dblocks := ds, moving := none, parked := none }

theorem execRestoreDone_of_copied {s t : State} {i a : Nat} {c : CacheSt} {p : Package} {bs ds : List Nat} (hc : (s.stream i).cache = some c)
    (hmoving : c.moving = some 1) (hparked : c.parked = some a) (hsubmitted : s.sState i = stSubmitted) (hp : s.pkgOf c.model = some p)
    (hreserve : s.reserve (s.sHall i) c.model (s.ownNeeded i) (s.draftOf i) (s.draftNeeded i) = some (bs, ds, t)) :
    ∃ u, CacheFrame t u ∧ exec (.restoreDone i) s =
      .next (((u.modStream i (fun r => { r with cache := some (c.restored (s.draftOf i) bs ds) })).count Od.restores 1).parkLow (s.sHall i)) := by
  have hexec : exec (.restoreDone i) s = execRestoreDone i s := by rfl
  rw [hexec]
  unfold execRestoreDone
  rw [hc]
  simp only
  rw [hparked]
  simp only
  rw [if_neg (by simp [hmoving, hsubmitted]), hreserve, hp]
  exact ⟨_, (((CacheFrame.moveSpans _ (.refl t)).moveRegion).moveRegion).moveSpans _, rfl⟩

theorem execRestoreDone_of_none {s : State} {i : Nat} (h : ∀ c, (s.stream i).cache = some c → c.moving ≠ some 1 ∨ c.parked = none) :
    exec (.restoreDone i) s = .next s := by
  have hexec : exec (.restoreDone i) s = execRestoreDone i s := by rfl
  rw [hexec]
  unfold execRestoreDone
  cases hc : (s.stream i).cache with
  | none => rfl
  | some c =>
    simp only
    cases hparked : c.parked with
    | none => rfl
    | some a =>
      simp only
      exact if_pos (.inl ((h c hc).resolve_right (by simp [hparked])))

/-! ### TTL_CHECK (R348) -/

theorem exec_ttlCheck (s : State) :
    exec .ttlCheck s = .next ((s.streamList.filter s.ttlOver).foldl (fun s i => (s.count Od.ttlExpiries 1).endStream i stCompleted) s) := by rfl

theorem State.ttlOver_cache {s : State} {i : Nat} (h : s.ttlOver i = true) : ∃ c, (s.stream i).cache = some c := by
  unfold State.ttlOver at h
  simp only [Bool.and_eq_true] at h
  cases hc : (s.stream i).cache with
  | none => rw [hc] at h; exact absurd h.2 (by simp)
  | some c => exact ⟨c, rfl⟩

/-! ### The step of a ripe batch (R302, R335) -/

/-- The entries that a hall's cache holds. -/
def State.cacheOf (s : State) (h : Nat) : List Nat := kget [] h s.serve.caches

/-- Two states agree in the streams and the open steps. -/
structure StepsKept (s t : State) : Prop where
  streams : t.serve.streams = s.serve.streams
  steps : t.serve.steps = s.serve.steps

/-- R302: an entry that a cache with room takes. -/
structure Cached (h i : Nat) (s t : State) : Prop where
  kept : StepsKept s t
  mem : ∀ j, j ∈ t.cacheOf h ↔ j ∈ s.cacheOf h ∨ j = i
  length : (t.cacheOf h).length ≤ (s.cacheOf h).length + 1

theorem State.cacheEntry_takes {s : State} {h i : Nat} (hroom : (s.cacheOf h).length < 1024) : Cached h i s (s.cacheEntry h i) := by
  have hput : ∀ (u : State) (l : List Nat), kget [] h (kset [] h (l ++ [i]) u.serve.caches) = l ++ [i] := fun u l => kget_kset_self ..
  have hroom' : (kget [] h s.serve.caches).length < 1024 := hroom
  unfold State.cacheEntry
  simp only
  split
  · next hin =>
    rw [List.contains_iff_mem] at hin
    refine ⟨⟨rfl, rfl⟩, fun j => ?_, ?_⟩
    · unfold State.cacheOf
      simp only [hput, List.mem_append, List.mem_filter, decide_eq_true_eq, List.mem_singleton]
      by_cases hj : j = i
      · simp [hj]
      · simp [hj]
    · unfold State.cacheOf
      simp only [hput, List.length_append, List.length_singleton]
      exact Nat.add_le_add_right (List.length_filter_le ..) 1
  · refine ⟨⟨rfl, rfl⟩, fun j => ?_, ?_⟩
    · unfold State.cacheOf
      simp only [State.count_serve, hput, List.mem_append, List.mem_singleton]
    · unfold State.cacheOf
      simp only [State.count_serve, hput, List.length_append, List.length_singleton, le_refl]

theorem StepsKept.trans {s t u : State} (h : StepsKept s t) (k : StepsKept t u) : StepsKept s u := ⟨k.streams.trans h.streams, k.steps.trans h.steps⟩

theorem StepsKept.sHall {s t : State} (h : StepsKept s t) (i : Nat) : t.sHall i = s.sHall i := by
  unfold State.sHall State.sw State.stream
  rw [h.streams]

/-- R302: the entries of a list that a cache takes one after the other. -/
structure CachedAll (h : Nat) (l : List Nat) (s t : State) : Prop where
  kept : StepsKept s t
  mem : ∀ i ∈ l, i ∈ t.cacheOf h

theorem State.cacheEntries_take {h : Nat} : ∀ {l : List Nat} {s : State}, (∀ i ∈ l, s.sHall i = h) → (s.cacheOf h).length + l.length ≤ 1024 →
    CachedAll h l s (l.foldl (fun s i => s.cacheEntry (s.sHall i) i) s) ∧
      ∀ j ∈ s.cacheOf h, j ∈ (l.foldl (fun s i => s.cacheEntry (s.sHall i) i) s).cacheOf h
  | [], s, _, _ => ⟨⟨⟨rfl, rfl⟩, fun _ hi => absurd hi List.not_mem_nil⟩, fun _ hj => hj⟩
  | i :: l, s, hhall, hroom => by
    rw [List.length_cons] at hroom
    have htakes := State.cacheEntry_takes (s := s) (h := h) (i := i) (by omega)
    rw [List.foldl_cons, hhall i List.mem_cons_self]
    obtain ⟨⟨hkept, hmem⟩, hstay⟩ := State.cacheEntries_take (l := l) (s := s.cacheEntry h i)
      (fun j hj => (htakes.kept.sHall j).trans (hhall j (List.mem_cons_of_mem i hj))) (by have := htakes.length; omega)
    refine ⟨⟨htakes.kept.trans hkept, fun j hj => ?_⟩, fun j hj => hstay j ((htakes.mem j).mpr (.inl hj))⟩
    rcases List.mem_cons.mp hj with rfl | hj
    · exact hstay j ((htakes.mem j).mpr (.inr rfl))
    · exact hmem j hj

/-- R351: growing trees opens no step. -/
theorem State.growTree_steps (s : State) (i : Nat) : (s.growTree i).serve.steps = s.serve.steps := by
  have hmasks : ∀ (u : State) w d, (u.writeMasks i w d).serve.steps = u.serve.steps := fun u w d => (CacheFrame.refl u).devWrite.steps
  unfold State.growTree
  extract_lets d width vocab bad t kept left v w x
  have hx : x.serve.steps = s.serve.steps := by
    unfold x
    split <;> rfl
  split
  · exact hx
  · exact (hmasks x width d).trans hx

theorem State.growTrees_steps (s : State) (l : List Nat) : (l.foldl (fun s i => s.growTree i) s).serve.steps = s.serve.steps :=
  foldl_keeps (fun t : State => t.serve.steps = s.serve.steps) _ (fun t i h => (t.growTree_steps i).trans h) l rfl

/-- R240: writing the maps of a job changes nothing of serving. -/
theorem State.writeMaps_serve (s : State) (job : Nat) : (s.writeMaps job).serve = s.serve := by
  have hmap : ∀ (u : State) fk p l, (u.writeMap fk p l).serve = u.serve := fun u fk p l => by
    unfold State.writeMap
    refine foldl_keeps (fun t : State => t.serve = u.serve) _ (fun t h ht => ?_) _ rfl
    split <;> exact ht
  unfold State.writeMaps
  split
  · rfl
  · exact foldl_keeps (fun t : State => t.serve = s.serve) _ (fun t e ht => (hmap t _ _ _).trans ht) _ rfl

theorem mem_flatMap_replicate {n : Nat → Nat} (hn : ∀ i, 0 < n i) (l : List Nat) (k : Nat) : k ∈ l.flatMap (fun i => List.replicate (n i) i) ↔ k ∈ l := by
  simp only [List.mem_flatMap, List.mem_replicate]
  constructor
  · rintro ⟨i, hi, -, rfl⟩
    exact hi
  · exact fun hk => ⟨k, hk, Nat.pos_iff_ne_zero.mp (hn k), rfl⟩

theorem State.slotsOf_pos (s : State) (i : Nat) : 0 < s.slotsOf i := by
  unfold State.slotsOf
  omega

/-- R240, R335: the step that opens for a batch whose streams the hall's cache takes. -/
theorem State.addStep_opens {s : State} {job m h : Nat} {l : List Nat} (hne : l ≠ []) (hnone : s.openStepOf job = none) (hhall : ∀ i ∈ l, s.sHall i = h)
    (hroom : (s.cacheOf h).length + l.length ≤ 1024) :
    ∃ x, (s.addStep job m l).openStepOf job = some x ∧ (∀ k, k ∈ x.slots ↔ k ∈ l) ∧ x.removed = [] := by
  obtain ⟨⟨hkept, hmem⟩, -⟩ := State.cacheEntries_take hhall hroom
  unfold State.addStep
  generalize l.foldl (fun s i => s.cacheEntry (s.sHall i) i) s = u at hkept hmem
  have hall : l.filter (fun i => u.cached (u.sHall i) i) = l := List.filter_eq_self.mpr (fun i hi => by
    rw [hkept.sHall, hhall i hi]
    exact List.contains_iff_mem.mpr (hmem i hi))
  simp only [hall]
  rw [if_neg hne]
  unfold State.openStepOf
  rw [State.writeMaps_serve]
  have hsteps : (l.foldl (fun s i => s.growTree i) u).serve.steps = s.serve.steps := (u.growTrees_steps l).trans hkept.steps
  simp only [List.find?_append, hsteps]
  have hfind : s.serve.steps.find? (fun x => x.job == job) = none := hnone
  rw [hfind]
  simp only [List.find?_cons, beq_self_eq_true, Option.none_or]
  exact ⟨_, rfl, fun k => mem_flatMap_replicate (State.slotsOf_pos _) l k, rfl⟩

/-- R335: a batch is of streams of the hall of the stream whose work comes first. -/
theorem fitBatch_sublist (n : Nat → Nat) : ∀ (room : Nat) (l : List Nat), (fitBatch n room l).1 ⊆ l
  | _, [] => by simp [fitBatch]
  | room, i :: l => by
    unfold fitBatch
    split
    · exact List.cons_subset_cons i (fitBatch_sublist n _ l)
    · simp

theorem State.mem_insertReady {s : State} {i j : Nat} : ∀ {l : List Nat}, j ∈ s.insertReady i l → j = i ∨ j ∈ l
  | [], h => .inl (by simpa [State.insertReady] using h)
  | k :: l, h => by
    unfold State.insertReady at h
    split at h
    · simpa using h
    · rcases List.mem_cons.mp h with rfl | h
      · exact .inr List.mem_cons_self
      · exact (State.mem_insertReady h).imp_right (List.mem_cons_of_mem k)

theorem State.batchOf_hall {s : State} {i j : Nat} {work : List Nat} (h : j ∈ (s.batchOf i work).1) : s.sHall j = s.sHall i := by
  have hready : ∀ (l a : List Nat), (∀ k ∈ a, s.sHall k = s.sHall i) → (∀ k ∈ l, s.sHall k = s.sHall i) →
      ∀ k ∈ l.foldl (fun a j => s.insertReady j a) a, s.sHall k = s.sHall i := by
    intro l
    induction l with
    | nil => exact fun a ha _ => ha
    | cons x l ih =>
      intro a ha hl
      refine ih _ (fun k hk => ?_) (fun k hk => hl k (List.mem_cons_of_mem x hk))
      rcases State.mem_insertReady hk with rfl | hk
      · exact hl k List.mem_cons_self
      · exact ha k hk
  unfold State.batchOf at h
  have hmem := fitBatch_sublist _ _ _ h
  refine hready _ [] (fun k hk => absurd hk List.not_mem_nil) (fun k hk => ?_) j hmem
  have hfilter := (List.mem_filter.mp hk).2
  simp only [Bool.and_eq_true, beq_iff_eq] at hfilter
  exact hfilter.2

theorem execBatchWaitExpiry_of_none {h m c : Nat} {s : State} (hok : hallOk h = true) (hnone : ∀ b ∈ s.serve.batches, ¬ (b.hall = h ∧ b.model = m ∧ b.cls = c)) :
    exec (.batchWaitExpiry h m c) s = .next s := by
  have hexec : exec (.batchWaitExpiry h m c) s = execBatchWaitExpiry h m c s := by rfl
  rw [hexec, execBatchWaitExpiry, if_neg (by simp [hok])]
  refine if_neg (fun hany => ?_)
  obtain ⟨b, hb, hgood⟩ := List.any_eq_true.mp hany
  simp only [Bool.and_eq_true, beq_iff_eq] at hgood
  obtain ⟨⟨hhall, hmodel⟩, hcls⟩ := hgood
  exact hnone b hb ⟨hhall, hmodel, hcls⟩

theorem execBatchWaitExpiry_of_job {h m c j : Nat} {s : State} {b : Batch} (hok : hallOk h = true) (hb : b ∈ s.serve.batches) (hhall : b.hall = h)
    (hmodel : b.model = m) (hcls : b.cls = c) (hjob : (s.modelJobList m).filter s.runsUnstepped = [j]) :
    exec (.batchWaitExpiry h m c) s = .next (s.openStep j true) := by
  have hexec : exec (.batchWaitExpiry h m c) s = execBatchWaitExpiry h m c s := by rfl
  have hany : (s.serve.batches.any (fun b => b.hall == h && b.model == m && b.cls == c)) = true :=
    List.any_eq_true.mpr ⟨b, hb, by simp [hhall, hmodel, hcls]⟩
  rw [hexec, execBatchWaitExpiry, if_neg (by simp [hok]), if_pos hany]
  exact congrArg (fun l => Host.Outcome.next (l.foldl (fun s j => s.openStep j true) s)) hjob

theorem State.openStep_of_ripe {s : State} {j i : Nat} (hrun : s.mode = .run) (hnone : s.openStepOf j = none) (hwaiting : (s.jobOf j).waiting = [])
    (hfirst : s.firstWork (s.workFor j) = some i) (hstate : s.sState i = stGenerating) :
    s.openStep j true = s.addStep j (s.sModel i) (s.batchOf i (s.workFor j)).1 := by
  unfold State.openStep
  rw [if_neg (by simp [hrun, hnone, hwaiting])]
  simp only
  rw [hfirst]
  simp only
  rw [if_pos hstate]
  exact if_pos (Bool.or_true _)

theorem State.runsUnstepped_open {s : State} {j : Nat} (h : s.runsUnstepped j = true) : s.openStepOf j = none := by
  unfold State.runsUnstepped at h
  simp only [Bool.and_eq_true, Option.isNone_iff_eq_none] at h
  exact h.1

theorem execPromptShareWindow_of_hall {h : Nat} (hok : hallOk h = true) (s : State) :
    exec (.promptShareWindow h) s = .next { s with serve := { s.serve with shareSteps := kdel h s.serve.shareSteps } } := by
  have hexec : exec (.promptShareWindow h) s = execPromptShareWindow h s := by rfl
  rw [hexec, execPromptShareWindow, if_neg (by simp [hok])]

theorem State.setState_parked {s w : State} {i n : Nat} {c : CacheSt} (hcache : (w.stream i).cache = some c)
    (hpool : (w.pool (s.sHall i)).2 = (s.pool (s.sHall i)).2 + n) (hcounted : w.odGet Od.parks = (s.odGet Od.parks + 1) % odModulus Od.parks) :
    Parked i n c s (w.setState i stParked) := by
  have hset := w.setState_puts i stParked
  refine ⟨State.setState_sState _ _ (by decide), ?_, ?_, (hset.entries Od.parks (by decide)).trans hcounted⟩
  · rw [State.setState_stream]
    exact hcache
  · rw [hset.pool]
    exact hpool

/-- R346: with its bytes copied and its blocks free, a stream is PARKED. -/
theorem State.parkDone_parks {s u : State} {i : Nat} (hu : CacheFrame s u) (c : CacheSt) (n len : Nat) :
    Parked i n c s ((((u.poolFree (s.sHall i) ((s.pool (s.sHall i)).2 + n)).modStream i (fun r => { r with cache := some c })).counts
      [(Od.parks, 1), (Od.parkedBytes, len)]).setState i stParked) := by
  have hparks : (u.poolFree (s.sHall i) ((s.pool (s.sHall i)).2 + n)).odGet Od.parks = s.odGet Od.parks := hu.entries _ (by decide)
  have hpool := u.poolFree_pool (s.sHall i) ((s.pool (s.sHall i)).2 + n)
  generalize u.poolFree (s.sHall i) ((s.pool (s.sHall i)).2 + n) = v at hparks hpool ⊢
  have hcounted : ((v.modStream i (fun r => { r with cache := some c })).counts [(Od.parks, 1), (Od.parkedBytes, len)]).odGet Od.parks =
      (s.odGet Od.parks + 1) % odModulus Od.parks := by
    rw [State.counts, List.foldl_cons, List.foldl_cons, List.foldl_nil, State.odGet_count_ne _ (show Od.parks ≠ Od.parkedBytes by decide),
      State.odGet_count_self, State.modStream_odGet, hparks]
  have hserve := ((v.modStream i (fun r => { r with cache := some c })).counts_frame [(Od.parks, 1), (Od.parkedBytes, len)]).serve
  have hcache : (((v.modStream i (fun r => { r with cache := some c })).counts [(Od.parks, 1), (Od.parkedBytes, len)]).stream i).cache = some c := by
    rw [State.stream, hserve]
    exact congrArg StreamRec.cache (v.stream_modStream_self i _)
  have hpool' : (((v.modStream i (fun r => { r with cache := some c })).counts [(Od.parks, 1), (Od.parkedBytes, len)]).pool (s.sHall i)).2 =
      (s.pool (s.sHall i)).2 + n := by
    rw [State.pool, hserve]
    exact hpool
  exact State.setState_parked hcache hpool' hcounted

/-- What the end of a restore leaves. -/
structure Restored (i n : Nat) (c : CacheSt) (s t : State) : Prop where
  state : t.sState i = stSubmitted
  cache : (t.stream i).cache = some c
  pool : (t.pool (s.sHall i)).2 = (s.pool (s.sHall i)).2 - n
  counted : t.odGet Od.restores = (s.odGet Od.restores + 1) % odModulus Od.restores

theorem Restored.low {i n : Nat} {c : CacheSt} {s t : State} (h : Restored i n c s t) (hall : Nat) : Restored i n c s (t.parkLow hall) := by
  have hlow := t.parkLow_parks hall
  have hstream : (t.parkLow hall).stream i = t.stream i := hlow.streams i (by rw [h.state]; decide)
  refine ⟨?_, by rw [hstream]; exact h.cache, ?_, ?_⟩
  · rw [State.sState, State.sw, hstream]
    exact h.state
  · rw [State.pool, hlow.pools]
    exact h.pool
  · rw [State.odGet, hlow.od]
    exact h.counted

/-- R347: with its blocks reserved and its bytes back, a cache is whole, and its stream submitted as it was. -/
theorem State.restoreDone_restores {s u : State} {i n : Nat} {c : CacheSt} (hsubmitted : s.sState i = stSubmitted)
    (hu : CacheFrame (s.poolFree (s.sHall i) ((s.pool (s.sHall i)).2 - n)) u) :
    Restored i n c s ((u.modStream i (fun r => { r with cache := some c })).count Od.restores 1) := by
  have hstream : u.stream i = s.stream i := hu.stream i
  have hstream' : ((u.modStream i (fun r => { r with cache := some c })).count Od.restores 1).stream i = { (s.stream i) with cache := some c } := by
    rw [← hstream, State.stream, State.count_serve]
    exact u.stream_modStream_self i (fun r => { r with cache := some c })
  refine ⟨?_, by rw [hstream'], ?_, ?_⟩
  · rw [State.sState, State.sw, hstream']
    exact hsubmitted
  · exact (congrArg Prod.snd (hu.pool (s.sHall i))).trans (s.poolFree_pool ..)
  · rw [State.odGet_count_self, State.modStream_odGet, hu.entries _ (by decide)]
    rfl

/-- Settles O46. -/
theorem timersAndKeptCaches : Obligations.TimersAndKeptCaches := by
  refine ⟨?_, ?_, ?_, ?_, ?_, ?_, ?_⟩
  · intro h m c s hok
    refine ⟨execBatchWaitExpiry_of_none hok, fun j i b hb hhall hmodel hcls hjob hrun hwaiting hfirst hstate hne hroom => ?_⟩
    have hunstepped : s.openStepOf j = none := State.runsUnstepped_open (List.mem_filter.mp (hjob ▸ List.mem_singleton_self j)).2
    exact ⟨_, (execBatchWaitExpiry_of_job hok hb hhall hmodel hcls hjob).trans
      (congrArg _ (State.openStep_of_ripe hrun hunstepped hwaiting hfirst hstate)),
      State.addStep_opens hne hunstepped (fun k hk => State.batchOf_hall hk) hroom⟩
  · intro h s hok
    exact ⟨_, execPromptShareWindow_of_hall hok s, kfind_kdel_self .., fun g hg => kfind_kdel_ne hg _, rfl⟩
  · intro s
    refine ⟨fun hnone => by rw [exec_ttlCheck, hnone]; rfl, fun i hone => ?_⟩
    have hover : s.ttlOver i = true := (List.mem_filter.mp (hone ▸ List.mem_singleton_self i)).2
    obtain ⟨c, hc⟩ := State.ttlOver_cache hover
    obtain ⟨⟨hcache, hpool, hhalls, hentries⟩, hstate⟩ := State.endStream_completes (s := s.count Od.ttlExpiries 1) (i := i) (c := c) hc
    refine ⟨_, by rw [exec_ttlCheck, hone]; rfl, hstate, hcache, hhalls, ?_, fun d hd => ?_⟩
    · rw [hentries _ (by decide), State.odGet_count_self]
    · rw [hc, Option.some.injEq] at hd
      rw [← hd]
      exact hpool
  · exact fun i a s => execParkDone_of_none
  · intro i a s c hc hmoving hpaused hlow hfirst hlast hpresent hopen
    have hmoves := s.parkMoves_moves i a c
    have hexec := execParkDone_of_copied hc hmoving hpaused hlow hfirst hlast hpresent hopen
    rw [hmoves.pool] at hexec
    have hparked := State.parkDone_parks (i := i) hmoves (c.parkedAt a) (c.blocks.length + c.dblocks.length) (s.parkLen c)
    obtain ⟨hstate, hcache, hpool, hcounted⟩ := (State.parkLow_parks _ (s.sHall i)).parked hparked
    exact ⟨_, hexec, hstate, hcache, hpool, hcounted⟩
  · exact fun i s => execRestoreDone_of_none
  · intro i a s c p hc hmoving hparked hsubmitted hp hroom
    obtain ⟨bs, ds, t, hreserve, hown, hdraft, hfresh, ht⟩ := State.reserve_of_room (s := s) (h := s.sHall i) (model := c.model) (n := s.ownNeeded i)
      (m := s.draftNeeded i) (draft := s.draftOf i) hroom
    obtain ⟨u, hu, hexec⟩ := execRestoreDone_of_copied hc hmoving hparked hsubmitted hp hreserve
    obtain ⟨hstate, hcache, hpool, hcounted⟩ := (State.restoreDone_restores (c := c.restored (s.draftOf i) bs ds) hsubmitted (ht ▸ hu)).low (s.sHall i)
    exact ⟨_, bs, ds, hexec, hcache, hfresh, hown, hdraft, hstate, hpool, hcounted⟩

end Sys2Proof.Machine
end

section
/-!
SUPPORT. The checks of a message across the Balustrade (R451, R470, R471) and the datagrams that cross as EOP_REQ (R55).
-/

namespace Sys2Proof.Machine

/-! ### A message that is not taken -/

theorem exec_balCommand_of_refused {typ : Nat} {m : BalMsg} {s u : State} (ht : typ ∈ balTypes) (h : s.balTake typ m = (false, u)) (sig : Bool) :
    exec (balCommand typ m sig) s = .next u := by
  simp only [balTypes, List.mem_cons, List.not_mem_nil, or_false] at ht
  rcases ht with rfl | rfl | rfl | rfl | rfl | rfl | rfl | rfl | rfl | rfl | rfl
  · change execTelemetry m s = _
    rw [execTelemetry, h]; rfl
  · change execRecommend m s = _
    rw [execRecommend, h]; rfl
  · change execEopReq m sig s = _
    rw [execEopReq, h]; rfl
  · change execEopResp m s = _
    rw [execEopResp, h]; rfl
  · change execTimeReport m s = _
    rw [execTimeReport, h]; rfl
  · change execFoyerEvent m s = _
    rw [execFoyerEvent, h]; rfl
  · change execMapUpdate m s = _
    rw [execMapUpdate, h]; rfl
  · change execConfig m s = _
    rw [execConfig, h]; rfl
  · change execTimeSet m s = _
    rw [execTimeSet, h]; rfl
  · change execFirmware m s = _
    rw [execFirmware, h]; rfl
  · change execHeartbeat m s = _
    rw [execHeartbeat, h]; rfl

/-! ### The checks in their order (R471) -/

/-- R471: the CRC of a message is that of its header and body. -/
def crcRight (m : BalMsg) : Prop := m.crc = crc32c (leBytes 1 m.typ ++ zeros 1 ++ leBytes 2 m.len ++ leBytes 4 m.seq ++ m.body)

/-- The Foyer's side of the state replaced. -/
def State.withFoyer (s : State) (f : FoyerSt) : State := { s with foyer := f }

/-- R470: the queue without a message, its SEQ followed. -/
def FoyerSt.heard (f : FoyerSt) (k : Nat) (m : BalMsg) : FoyerSt :=
  { (f.dequeue k m).follow k m.seq with rxSeq := kset 0 k (m.seq + 1) ((f.dequeue k m).follow k m.seq).rxSeq }

theorem FoyerSt.dequeue_rxSeq (f : FoyerSt) (k : Nat) (m : BalMsg) : (f.dequeue k m).rxSeq = f.rxSeq ∧ (f.dequeue k m).received = f.received := by
  unfold FoyerSt.dequeue
  extract_lets p
  split
  · exact ⟨rfl, rfl⟩
  · split <;> exact ⟨rfl, rfl⟩

theorem FoyerSt.follow_received (f : FoyerSt) (k seq : Nat) : (f.follow k seq).received = f.received := by
  unfold FoyerSt.follow
  generalize List.isEmpty _ = empty
  cases empty <;> rfl

theorem crcRight_iff (m : BalMsg) : crcRight m ↔ m.crc = crc32c (leBytes 1 m.typ ++ zeros 1 ++ leBytes 2 m.len ++ leBytes 4 m.seq ++ m.body) := Iff.rfl

theorem FoyerSt.heard_kept (f : FoyerSt) (k : Nat) (m : BalMsg) :
    FoyerKept f (f.heard k m) ∧ kget 0 k (f.heard k m).rxSeq = m.seq + 1 ∧ (f.heard k m).received = f.received := by
  have hkept := (f.dequeue_kept k m).step ((f.dequeue k m).follow_kept k m.seq)
  exact ⟨⟨hkept.view, hkept.cells, hkept.applied, hkept.fwTaken, hkept.heartbeat⟩, kget_kset_self 0 k (m.seq + 1) _,
    ((f.dequeue k m).follow_received k m.seq).trans (f.dequeue_rxSeq k m).2⟩

section
variable {s : State} {typ k : Nat} {m : BalMsg} (hk : balKey typ = some k)
include hk

theorem State.balTake_of_stopped (h : s.balRuns k = false) : s.balTake typ m = (false, s) := by
  unfold State.balTake
  rw [hk]
  exact if_pos (by rw [h]; rfl)

theorem State.balTake_of_crc (h : s.balRuns k = true) (hcrc : ¬ crcRight m) : s.balTake typ m = (false, (s.withFoyer (s.foyer.dequeue k m)).balFail) := by
  unfold State.balTake
  rw [hk]
  simp only
  rw [if_neg (by simp [h]), if_pos ((not_congr (crcRight_iff m)).mp hcrc)]
  rfl

variable (h : s.balRuns k = true) (hcrc : crcRight m)
include h hcrc

theorem State.balTake_of_seq (hprev : kget 0 k s.foyer.rxSeq ≠ 0 ∧ m.seq ≠ kget 0 k s.foyer.rxSeq % 2 ^ 32) :
    s.balTake typ m = (false, (s.withFoyer (s.foyer.heard k m)).balFail) := by
  unfold State.balTake
  rw [hk]
  simp only
  rw [if_neg (by simp [h]), if_neg (not_not.mpr ((crcRight_iff m).mp hcrc)), if_pos (by rw [(s.foyer.dequeue_rxSeq k m).1]; exact hprev)]
  rfl

variable (hprev : kget 0 k s.foyer.rxSeq = 0 ∨ m.seq = kget 0 k s.foyer.rxSeq % 2 ^ 32)
include hprev

theorem State.balTake_of_followed : s.balTake typ m =
    (if m.typ ≠ typ ∨ !balLengthOk typ m.len ∨ m.len ≠ m.body.length then (false, (s.withFoyer (s.foyer.heard k m)).balRefuse)
      else if (balLimit typ).any (fun l => decide (l ≤ s.balTaken typ)) then (false, (s.withFoyer (s.foyer.heard k m)).balRefuse)
      else (true, s.withFoyer { s.foyer.heard k m with received := kput typ (s.epoch / oneSec, s.balTaken typ + 1) (s.foyer.heard k m).received })) := by
  have htaken : (s.withFoyer (s.foyer.heard k m)).balTaken typ = s.balTaken typ := by
    unfold State.balTaken State.withFoyer
    rw [(s.foyer.heard_kept k m).2.2]
  unfold State.balTake
  rw [hk]
  simp only
  rw [if_neg (by simp [h]), if_neg (not_not.mpr ((crcRight_iff m).mp hcrc)), if_neg (by rw [(s.foyer.dequeue_rxSeq k m).1]; tauto), ← htaken]
  rfl

theorem State.balTake_of_bad (hbad : m.typ ≠ typ ∨ balLengthOk typ m.len = false ∨ m.len ≠ m.body.length ∨ ∃ l, balLimit typ = some l ∧ l ≤ s.balTaken typ) :
    s.balTake typ m = (false, (s.withFoyer (s.foyer.heard k m)).balRefuse) := by
  rw [State.balTake_of_followed hk h hcrc hprev]
  split
  · rfl
  · next hgood =>
    have hlimit : ∃ l, balLimit typ = some l ∧ l ≤ s.balTaken typ := by
      rcases hbad with hbad | hbad | hbad | hbad
      · exact absurd (.inl hbad) hgood
      · exact absurd (.inr (.inl (by rw [hbad]; rfl))) hgood
      · exact absurd (.inr (.inr hbad)) hgood
      · exact hbad
    obtain ⟨l, hl, hle⟩ := hlimit
    exact if_pos (by simp [hl, hle])

theorem State.balTake_of_good (htyp : m.typ = typ) (hlen : balLengthOk typ m.len = true) (hbody : m.len = m.body.length)
    (hlimit : ∀ l, balLimit typ = some l → s.balTaken typ < l) :
    s.balTake typ m =
      (true, s.withFoyer { s.foyer.heard k m with received := kput typ (s.epoch / oneSec, s.balTaken typ + 1) (s.foyer.heard k m).received }) := by
  rw [State.balTake_of_followed hk h hcrc hprev, if_neg (by simp [htyp, hlen, ← hbody])]
  refine if_neg (fun hany => ?_)
  obtain ⟨l, hl, hle⟩ := (Option.any_eq_true _ _).mp hany
  have hlt := hlimit l hl
  simp only [decide_eq_true_eq] at hle
  omega

end

theorem State.balTaken_of_received (s : State) (f : FoyerSt) (typ n : Nat) (l : KMap (Nat × Nat)) :
    (s.withFoyer { f with received := kput typ (s.epoch / oneSec, n) l }).balTaken typ = n := by
  unfold State.balTaken kget State.withFoyer
  simp only [kfind_kput_self, Option.getD_some, if_true]

/-! ### What a message that is not taken leaves (R471) -/

/-- A message that is not taken touches the channels and the log. -/
structure BalRejects (s t : State) : Prop where
  cells : t.foyer.cells = s.foyer.cells
  view : t.foyer.view = s.foyer.view
  applied : t.foyer.applied = s.foyer.applied
  eop : t.eop = s.eop
  streams : t.serve.streams = s.serve.streams
  halls : t.halls = s.halls

theorem LogFrame.balRejects {s t : State} {f : FoyerSt} (h : LogFrame (s.withFoyer f) t) (hf : FoyerKept s.foyer f) : BalRejects s t :=
  ⟨by rw [h.foyer]; exact hf.cells, by rw [h.foyer]; exact hf.view, by rw [h.foyer]; exact hf.applied, h.eop, by rw [h.serve]; rfl, h.halls⟩

theorem State.balFail_counts (s : State) : LogFrame s s.balFail ∧ s.balFail.odGet Od.balCheckFails = (s.odGet Od.balCheckFails + 1) % odModulus Od.balCheckFails ∧
    s.balFail.odGet Od.balRefusals = s.odGet Od.balRefusals := by
  have hlog := State.logLimited_odFrame (s.count Od.balCheckFails 1) { code := 0x6020 } 0 oneSec
  refine ⟨(s.count_frame Od.balCheckFails 1).step (State.logLimited_frame _ _ _ _), ?_, ?_⟩
  · rw [State.balFail, hlog.same _ (by decide), State.odGet_count_self]
  · rw [State.balFail, hlog.same _ (by decide), State.odGet_count_ne _ (show Od.balRefusals ≠ Od.balCheckFails by decide)]

theorem State.balRefuse_counts (s : State) : LogFrame s s.balRefuse ∧ s.balRefuse.odGet Od.balRefusals = (s.odGet Od.balRefusals + 1) % odModulus Od.balRefusals ∧
    s.balRefuse.odGet Od.balCheckFails = s.odGet Od.balCheckFails := by
  have hlog := State.logLimited_odFrame (s.count Od.balRefusals 1) { code := 0x6021 } 0 oneSec
  refine ⟨(s.count_frame Od.balRefusals 1).step (State.logLimited_frame _ _ _ _), ?_, ?_⟩
  · rw [State.balRefuse, hlog.same _ (by decide), State.odGet_count_self]
  · rw [State.balRefuse, hlog.same _ (by decide), State.odGet_count_ne _ (show Od.balCheckFails ≠ Od.balRefusals by decide)]

/-! ### EOP datagrams (R55) -/

theorem execEopDatagram_of_port {d : Datagram} (h : d.port < 3) (s : State) :
    exec (.eopDatagram d) s = if !s.eopArrives d then .next s
      else if d.payload.length < 40 ∨ 1186 < d.payload.length then .next (s.count Od.eopFormatDrops 1)
      else .next (s.balSend 0x02 (beBytes 16 d.srcAddr.toNat ++ leBytes 2 d.srcPort ++ zeros 6 ++ d.payload)) := by
  have hok : portOk d.port = true := by simpa [portOk] using h
  change execEopDatagram d s = _
  unfold execEopDatagram
  exact if_neg (by simp [hok])

/-- R470: an EOP_REQ in the management channel to the module. -/
def FoyerSt.queueEop (f : FoyerSt) (b : Bytes) : FoyerSt :=
  { f with txSeq := kset 0 2 ((kget 0 2 f.txSeq + 1) % 2 ^ 32) f.txSeq, mgmtIn := f.mgmtIn ++ [balMsg 2 (kget 0 2 f.txSeq) b] }

theorem FoyerSt.queueEop_txSeq (f : FoyerSt) (b : Bytes) : kget 0 2 (f.queueEop b).txSeq = (kget 0 2 f.txSeq + 1) % 2 ^ 32 := kget_kset_self ..

theorem FoyerSt.queueEop_mgmtIn (f : FoyerSt) (b : Bytes) : (f.queueEop b).mgmtIn.length = f.mgmtIn.length + 1 := by
  unfold FoyerSt.queueEop
  simp

theorem State.balSend_eop (s : State) (b : Bytes) :
    s.balSend 0x02 b = (s.withFoyer (s.foyer.queueEop b)).emit (.bal false 2 (kget 0 2 s.foyer.txSeq) b) := by rfl

/-- Settles O48. -/
theorem balustradeMessagesAreChecked : Obligations.BalustradeMessagesAreChecked := by
  refine ⟨?_, ?_⟩
  · intro typ k sig m s ht hk
    have rejects : ∀ {u}, s.balTake typ m = (false, u) → exec (balCommand typ m sig) s = .next u := fun h => exec_balCommand_of_refused ht h sig
    refine ⟨fun hstopped => rejects (State.balTake_of_stopped hk hstopped), fun hruns hbad => ?_, fun hruns hcrc hprev hbad => ?_,
      fun hruns hcrc hprev htyp hlen hbody hlimit => ?_⟩
    · have hfail : ∃ f, FoyerKept s.foyer f ∧ s.balTake typ m = (false, (s.withFoyer f).balFail) := by
        by_cases hcrc : crcRight m
        · exact ⟨_, (s.foyer.heard_kept k m).1, State.balTake_of_seq hk hruns hcrc (hbad.resolve_left (not_not.mpr hcrc))⟩
        · exact ⟨_, s.foyer.dequeue_kept k m, State.balTake_of_crc hk hruns hcrc⟩
      obtain ⟨f, hf, htake⟩ := hfail
      obtain ⟨hlog, hfails, hrefusals⟩ := (s.withFoyer f).balFail_counts
      obtain ⟨hcells, hview, happlied, heop, hstreams, hhalls⟩ := hlog.balRejects hf
      exact ⟨_, rejects htake, hfails, hrefusals, hcells, hview, happlied, heop, hstreams, hhalls⟩
    · obtain ⟨hlog, hrefusals, hfails⟩ := (s.withFoyer (s.foyer.heard k m)).balRefuse_counts
      obtain ⟨hcells, hview, happlied, heop, hstreams, hhalls⟩ := hlog.balRejects (s.foyer.heard_kept k m).1
      exact ⟨_, rejects (State.balTake_of_bad hk hruns hcrc hprev hbad), hrefusals, hfails, hcells, hview, happlied, heop, hstreams, hhalls⟩
    · obtain ⟨hkept, hseq, hreceived⟩ := s.foyer.heard_kept k m
      refine ⟨_, State.balTake_of_good hk hruns hcrc hprev htyp hlen hbody hlimit, hseq, ?_, rfl, hkept.cells, hkept.view, hkept.applied⟩
      exact State.balTaken_of_received ..
  · intro d s hport
    have hexec := execEopDatagram_of_port hport s
    refine ⟨fun harr => ?_, fun harr hlen => ?_, fun harr hlow hhigh => ?_⟩
    · rw [hexec, if_pos (by rw [harr]; rfl)]
    · rw [hexec, if_neg (by rw [harr]; decide), if_pos hlen]
    · rw [if_neg (by rw [harr]; decide), if_neg (by omega), State.balSend_eop] at hexec
      exact ⟨_, hexec, rfl, FoyerSt.queueEop_txSeq .., FoyerSt.queueEop_mgmtIn .., rfl⟩

end Sys2Proof.Machine
end

section
/-!
SUPPORT. The router's operations (chapter 15): what ROUTE counts and writes (R362 to R366), the dispatches where nothing refuses them (R371, R375, R378), the
returned rows that COMBINE brings to its tile (R380); and the statement on them.
-/

namespace Sys2Proof.Machine

/-! ### ROUTE (R362 to R366) -/

/-- Counting on other counters leaves one as it was. -/
theorem State.odGet_counts_of_fresh (s : State) {k : Nat} {l : List (Nat × Nat)} (h : ∀ p ∈ l, k ≠ p.1) : (s.counts l).odGet k = s.odGet k := by
  induction l generalizing s with
  | nil => rfl
  | cons p l ih =>
    rw [State.counts, List.foldl_cons]
    exact (ih _ (fun q hq => h q (List.mem_cons_of_mem _ hq))).trans (s.odGet_count_ne (h p List.mem_cons_self) p.2)

/-- The first counter of a list counts once where the others are not it. -/
theorem State.odGet_counts_cons (s : State) {k : Nat} (n : Nat) {l : List (Nat × Nat)} (h : ∀ p ∈ l, k ≠ p.1) :
    (s.counts ((k, n) :: l)).odGet k = (s.odGet k + n) % odModulus k := by
  rw [State.counts, List.foldl_cons]
  exact ((s.count k n).odGet_counts_of_fresh h).trans (s.odGet_count_self k n)

theorem State.odGet_landWrite (s : State) (l off : Nat) (data : Bytes) (poison : Bool) (tenant k : Nat) :
    (s.landWrite l off data poison tenant).odGet k = s.odGet k := rfl

/-- The landings that ROUTE writes: those of its records and of its weights. -/
def RouteLandings (idx weight : Buf) (l : Nat) : Prop := l = idx.landing ∨ l = weight.landing

/-- ROUTE has written its two buffers alone and counted n rows. -/
structure RoutesRows (idx weight : Buf) (n : Nat) (s t : State) : Prop extends WritesOnly (RouteLandings idx weight) s t where
  counted : t.odGet Od.routedRows = (s.odGet Od.routedRows + n) % odModulus Od.routedRows

theorem RoutesRows.step {idx weight : Buf} {n m : Nat} {s t u : State} (h : RoutesRows idx weight n s t) (h' : RoutesRows idx weight m t u) :
    RoutesRows idx weight (n + m) s u :=
  ⟨h.toWritesOnly.step h'.toWritesOnly, by rw [h'.counted, h.counted, Nat.mod_add_mod, Nat.add_assoc]⟩

theorem State.routeOne_routesRows (s : State) (c : OpCtx) (gates idx weight : Buf) (n k r : Nat) :
    RoutesRows idx weight 1 s (s.routeOne c gates idx weight n k r) := by
  unfold State.routeOne
  refine ⟨((State.landWrite_writesOnly _ (.inl rfl) _ _ _ _).step (State.landWrite_writesOnly _ (.inr rfl) _ _ _ _)).step
    (.of_log (State.counts_frame _ _)), ?_⟩
  rw [State.odGet_counts_cons _ _ (by
    simp only [List.forall_mem_cons]
    exact ⟨by decide, by decide, by decide, by decide, fun _ h => nomatch h⟩), State.odGet_landWrite, State.odGet_landWrite]

theorem State.routeRows_routesRows (s : State) (c : OpCtx) (gates idx weight : Buf) (n k : Nat) (rows : Nat) :
    RoutesRows idx weight (rows + 1) s ((List.range (rows + 1)).foldl (fun s r => s.routeOne c gates idx weight n k r) s) := by
  induction rows with
  | zero =>
    rw [List.range_one, List.foldl_cons, List.foldl_nil]
    exact s.routeOne_routesRows c gates idx weight n k 0
  | succ rows ih =>
    rw [List.range_succ, List.foldl_append, List.foldl_cons, List.foldl_nil]
    exact ih.step (State.routeOne_routesRows _ c gates idx weight n k (rows + 1))

/-- R362: ROUTE, where nothing refuses it, takes its rows. -/
theorem State.routeBody_open {s : State} {c : OpCtx} {gates idx weight : Buf}
    (hgates : s.need c.since (hallLanding c.hall) (bits c.word 111 104) [3] = .ok gates)
    (hidx : s.need c.since (hallLanding c.hall) (bits c.word 60 53) [0] = .ok idx)
    (hweight : s.need c.since (hallLanding c.hall) (bits c.word 52 45) [6] = .ok weight) (hk : bits c.word 63 61 ≤ bits c.word 71 64)
    (hch : bits c.word 71 64 + 1 ≤ gates.channels) (hrows : ∀ r < bits c.word 87 72 + 1, gates.rowOk (bits c.word 103 88) r = true)
    (hiw : idx.writable = true) (hww : weight.writable = true) (hilen : 32 * (bits c.word 87 72 + 1) ≤ idx.bytesLen)
    (hwlen : 16 * (bits c.word 87 72 + 1) ≤ weight.bytesLen) :
    ∃ t : State, State.routeBody c s = (t.tick, .open_) ∧ RoutesRows idx weight (bits c.word 87 72 + 1) s t := by
  have hall : (List.range (bits c.word 87 72 + 1)).all (fun r => gates.rowOk (bits c.word 103 88) r) = true := by simpa using hrows
  have hn : ¬ bits c.word 71 64 + 1 < bits c.word 63 61 + 1 := by omega
  simp only [State.routeBody, hgates, hidx, hweight, hn, Nat.not_lt.2 hch, hall, hiw, hww, Nat.not_lt.2 hilen, Nat.not_lt.2 hwlen, or_self, if_false,
    Bool.not_true, Bool.false_eq_true]
  exact ⟨_, rfl, s.routeRows_routesRows c gates idx weight _ _ _⟩

theorem execRoute_open {f : FlightId} {s t : State} {c : OpCtx} (h : Issues s f (isOp 0x43) c) (hbody : State.routeBody c s = (t, .open_)) :
    exec (.route f) s = .next (t.opOpen c) := by
  have hx : exec (.route f) s = execRoute f s := by rfl
  simp [hx, execRoute, h.flightOk, issueOp_open h hbody]

/-! ### The outbound dispatch (R371) -/

theorem State.outboundBody_open {s : State} {c : OpCtx} {src idx : Buf} {x : ExchRec}
    (hsrc : s.need c.since (hallLanding c.hall) (bits c.word 111 104) [1, 2] = .ok src)
    (hidx : s.need c.since (hallLanding c.hall) (bits c.word 103 96) [0] = .ok idx) (hx : s.readExch c.hall c.since (bits c.word 95 88) = .ok x)
    (hgroup : (c.prog.img.groups[bits c.word 87 84]?).isSome = true) (hview : src.view ≠ 2)
    (hrows : ∀ r < bits c.word 83 68 + 1, src.rowOk 0 r = true) (hw : idx.writable = true) (hlen : 32 * (bits c.word 83 68 + 1) ≤ idx.bytesLen) :
    State.outboundBody c s = ((s.runOutbound c src idx x (bits c.word 83 68 + 1)).tick, .open_) := by
  have hall : (List.range (bits c.word 83 68 + 1)).all (fun r => src.rowOk 0 r) = true := by simpa using hrows
  have hnone : (c.prog.img.groups[bits c.word 87 84]?).isNone = false := by simpa [Option.isSome_iff_ne_none] using hgroup
  simp only [State.outboundBody, hsrc, hidx, hx, hnone, hview, hall, hw, Nat.not_lt.2 hlen, or_self, if_false, Bool.not_true, Bool.false_eq_true]

theorem execOutboundDispatch_open {f : FlightId} {s t : State} {c : OpCtx} (h : Issues s f isOutbound c) (hbody : State.outboundBody c s = (t, .open_)) :
    exec (.outboundDispatch f) s = .next (t.opOpen c) := by
  have hx : exec (.outboundDispatch f) s = execOutboundDispatch f s := by rfl
  simp [hx, execOutboundDispatch, h.flightOk, issueOp_open h hbody]

/-! ### The return dispatch (R375, R378) -/

theorem all_range_iff {p : Nat → Bool} {n : Nat} : (List.range n).all p = true ↔ ∀ m < n, p m = true := by simp

theorem all_range_eq_false {p : Nat → Bool} {n : Nat} (h : ∃ m < n, p m = false) : (List.range n).all p = false := by
  obtain ⟨m, hm, hp⟩ := h
  exact List.all_eq_false.2 ⟨m, List.mem_range.2 hm, by simp [hp]⟩

section
variable {s : State} {c : OpCtx} {x : ExchRec} {i : Nat} {e : ExchSt}

/-- The return dispatch of c is that of exchange i, which is e, with the record x. -/
structure ReturnOf (s : State) (c : OpCtx) (x : ExchRec) (i : Nat) (e : ExchSt) : Prop where
  record : s.readExch c.hall c.since (bits c.word 95 88) = .ok x
  found : s.serve.exchanges.findIdx? (fun e => e.job == c.job && e.layer == x.layer && e.record == some (bits c.word 95 88) && !e.returned) = some i
  exchange : s.serve.exchanges[i]? = some e

/-- R375: with the record read and its exchange found, what is left of the return dispatch. -/
theorem ReturnOf.body (h : ReturnOf s c x i e) :
    State.returnBody c s =
      if !((List.range s.memberCount).all (fun m => (kfind m e.manifest).isSome)) then (s, .hold)
      else if !((List.range s.memberCount).all (fun m => e.fullFrom (s.exchLen e) m)) then (s.count Od.exchangeErrors 1, .stop 0x4203)
      else if !((List.range 16).all (fun k => s.slotDone e k)) then (s, .hold)
      else ((s.runReturn c i e x).tick, .open_) := by
  obtain ⟨hrecord, hfound, hexch⟩ := h
  simp only [State.returnBody, hrecord, hfound, hexch]

theorem ReturnOf.body_noManifest (h : ReturnOf s c x i e) (hmiss : ∃ m < s.memberCount, kfind m e.manifest = none) :
    State.returnBody c s = (s, .hold) := by
  have hall := all_range_eq_false (p := fun m => (kfind m e.manifest).isSome) (hmiss.imp fun m hm => ⟨hm.1, by simp [hm.2]⟩)
  rw [h.body, hall]
  rfl

theorem ReturnOf.body_noRow (h : ReturnOf s c x i e) (hman : ∀ m < s.memberCount, (kfind m e.manifest).isSome = true)
    (hmiss : ∃ m < s.memberCount, e.fullFrom (s.exchLen e) m = false) : State.returnBody c s = (s.count Od.exchangeErrors 1, .stop 0x4203) := by
  rw [h.body, all_range_iff.2 hman, all_range_eq_false hmiss]
  rfl

theorem ReturnOf.body_atWork (h : ReturnOf s c x i e)
    (hfull : ∀ m < s.memberCount, (kfind m e.manifest).isSome = true ∧ e.fullFrom (s.exchLen e) m = true) (hwork : ∃ k < 16, s.slotDone e k = false) :
    State.returnBody c s = (s, .hold) := by
  rw [h.body, all_range_iff.2 (fun m hm => (hfull m hm).1), all_range_iff.2 (fun m hm => (hfull m hm).2), all_range_eq_false hwork]
  rfl

theorem ReturnOf.body_done (h : ReturnOf s c x i e)
    (hfull : ∀ m < s.memberCount, (kfind m e.manifest).isSome = true ∧ e.fullFrom (s.exchLen e) m = true) (hdone : ∀ k < 16, s.slotDone e k = true) :
    State.returnBody c s = ((s.runReturn c i e x).tick, .open_) := by
  rw [h.body, all_range_iff.2 (fun m hm => (hfull m hm).1), all_range_iff.2 (fun m hm => (hfull m hm).2), all_range_iff.2 hdone]
  rfl

theorem execReturnDispatch_of_issues {f : FlightId} (h : Issues s f isReturn c) :
    exec (.returnDispatch f) s = .next (s.issueOp f isReturn State.returnBody) := by
  have hx : exec (.returnDispatch f) s = execReturnDispatch f s := by rfl
  simp [hx, execReturnDispatch, h.flightOk]

theorem execReturnDispatch_hold {f : FlightId} (h : Issues s f isReturn c) (hbody : State.returnBody c s = (s, .hold)) :
    exec (.returnDispatch f) s = .next s := by
  rw [execReturnDispatch_of_issues h, issueOp_of_issues h, hbody]

end

/-! ### COMBINE (R380) -/

/-- R119, R380: what a token brings agrees with its residues. -/
theorem State.combineRow_sound (s : State) (c : OpCtx) (src idx weight : Buf) (row0 r : Nat) :
    ∀ x ∈ (s.combineRow c src idx weight row0 r).rows, x.sound = true := by
  unfold State.combineRow
  refine foldl_keeps (fun acc : CombineRow => ∀ x ∈ acc.rows, x.sound = true) _ (fun acc k h x hx => ?_) _ (fun _ h => nomatch h)
  rcases List.mem_append.1 hx with hx | hx
  · exact h x hx
  · split at hx
    · exact nomatch hx
    · exact weighted_sound _ _ _ _ x hx

theorem State.combineAccs_ok {s : State} {c : OpCtx} {src idx weight : Buf} (htarget : c.badTarget (bits c.word 71 56) (bits c.word 87 72 + 1) = none)
    (hsrc : s.need c.since (hallLanding c.hall) (bits c.word 111 104) [1, 2] = .ok src)
    (hidx : s.need c.since (hallLanding c.hall) (bits c.word 103 96) [0] = .ok idx)
    (hweight : s.need c.since (hallLanding c.hall) (bits c.word 95 88) [6] = .ok weight) (hilen : 32 * (bits c.word 87 72 + 1) ≤ idx.bytesLen)
    (hwlen : 16 * (bits c.word 87 72 + 1) ≤ weight.bytesLen)
    (hrows : ∀ r < bits c.word 87 72 + 1, (s.combineRow c src idx weight (tgtRow (bits c.word 71 56)) r).ok = true) :
    ∃ t x, s.combineAccs c = .ok t [x] ∧ KeepsTiles c.fk s t ∧ x.tile = tgtTile (bits c.word 71 56) ∧ x.fmt = src.fmt ∧ ∀ r ∈ x.rows, r.sound = true := by
  have hall : ((List.range (bits c.word 87 72 + 1)).map (fun r => s.combineRow c src idx weight (tgtRow (bits c.word 71 56)) r)).all (·.ok) = true := by
    simpa using hrows
  refine ⟨_, _, by
    simp only [State.combineAccs, htarget, hsrc, hidx, hweight, Nat.not_lt.2 hilen, Nat.not_lt.2 hwlen, or_self, if_false, hall, Bool.not_true,
      Bool.false_eq_true]
    rfl, .of_log (State.count_frame _ _ _), rfl, rfl, fun y hy => ?_⟩
  obtain ⟨row, hrow, hy⟩ := List.mem_flatMap.1 hy
  obtain ⟨r, -, rfl⟩ := List.mem_map.1 hrow
  exact s.combineRow_sound c src idx weight _ r y hy

theorem execCombine_open {f : FlightId} {s t : State} {c : OpCtx} (h : Issues s f (isOp 0x45) c)
    (hbody : State.accBody (footPass ⟨[], []⟩) c s = (t, .open_)) : exec (.combine ⟨f, ⟨[], []⟩⟩) s = .next (t.opOpen c) := by
  have hx : exec (.combine ⟨f, ⟨[], []⟩⟩) s = execCombine ⟨f, ⟨[], []⟩⟩ s := by rfl
  simp [hx, execCombine, h.flightOk, issueOp_open h hbody]

/-! ### The statement -/

/-- Settles O24: each operation's body where nothing refuses it; COMBINE brings sound rows to one tile. -/
theorem routerOperationsComplete : Obligations.RouterOperationsComplete := by
  refine ⟨fun f s c gates idx weight hissue hgates hidx hweight hk hch hrows hiw hww hilen hwlen => ?_,
    fun f s c src idx x hissue hsrc hidx hx hgroup hview hrows hw hlen =>
      execOutboundDispatch_open hissue (State.outboundBody_open hsrc hidx hx hgroup hview hrows hw hlen),
    fun f s c x i e hissue hx hfound hexch => ?_,
    fun f s c src idx weight hissue htarget hsrc hidx hweight hilen hwlen hrows hsound hfmt => ?_⟩
  · obtain ⟨t, hbody, hroutes⟩ := State.routeBody_open hgates hidx hweight hk hch hrows hiw hww hilen hwlen
    exact ⟨t.tick, execRoute_open hissue hbody, hroutes.flight, hroutes.mem, fun l hi hw => hroutes.landing l (not_or.2 ⟨hi, hw⟩), hroutes.counted⟩
  · have h : ReturnOf s c x i e := ⟨hx, hfound, hexch⟩
    refine ⟨fun hmiss => execReturnDispatch_hold hissue (h.body_noManifest hmiss), fun hman hmiss => ?_,
      fun hfull hwork => execReturnDispatch_hold hissue (h.body_atWork hfull hwork), fun hfull hdone => ?_⟩
    · rw [execReturnDispatch_of_issues hissue, issueOp_stop hissue (h.body_noRow hman hmiss), hissue.fk]
    · rw [execReturnDispatch_of_issues hissue, issueOp_open hissue (h.body_done hfull hdone)]
  · obtain ⟨t, x, hacc, hkeep, htile, hxfmt, hxrows⟩ := State.combineAccs_ok htarget hsrc hidx hweight hilen hwlen hrows
    have htakes : ((t.flight c.fk).tile x.tile).takes x := by
      rw [hkeep.tile, htile]
      exact ⟨hsound, hxrows, fun h => (hfmt h).trans hxfmt.symm⟩
    obtain ⟨r, hbody, hin, -⟩ := State.accBody_one (s := s) (hw := footPass ⟨[], []⟩) rfl (by simp [State.accsOf, hissue.opOf_word, hacc]) htakes
    obtain ⟨-, hrfmt, hvalid, hrsound, htiles, hothers, hlanding, hmem⟩ := hkeep.accumulated hin
    rw [htile] at hrfmt hvalid hrsound htiles
    exact ⟨r, execCombine_open hissue hbody, hvalid, hrfmt.trans hxfmt, hrsound, htiles, hothers, hmem, hlanding⟩

end Sys2Proof.Machine
end

section
/-!
SUPPORT. Power and clocks (chapter 21): what the governor writes of a rail (R512 to R515), the power and input limits (R516, R517), the entry into Safe Stop with
its cause (R530), the sources of the timebase (R503 to R505) and PLLs (R508); and the statement on them.
-/

namespace Sys2Proof.Machine

/-! ### What the governor leaves (R512 to R515) -/

/-- Between two states sensors, the module's state, energy, holds and the average of the input power are the same. -/
structure GovernFrame (s t : State) : Prop where
  sensors : t.newel.sensors = s.newel.sensors
  mode : t.mode = s.mode
  fastHold : t.power.fastHold = s.power.fastHold
  railsHeld : t.power.railsHeld = s.power.railsHeld
  energyMj : t.power.energyMj = s.power.energyMj
  average : t.odGet Od.inputPowerAvgW = s.odGet Od.inputPowerAvgW

namespace GovernFrame

variable {s t u : State}

theorem refl (s : State) : GovernFrame s s := ⟨rfl, rfl, rfl, rfl, rfl, rfl⟩

theorem step (h : GovernFrame s t) (h' : GovernFrame t u) : GovernFrame s u :=
  ⟨h'.sensors.trans h.sensors, h'.mode.trans h.mode, h'.fastHold.trans h.fastHold, h'.railsHeld.trans h.railsHeld, h'.energyMj.trans h.energyMj,
    h'.average.trans h.average⟩

theorem ite {c : Prop} [Decidable c] (ht : GovernFrame s t) (hu : GovernFrame s u) : GovernFrame s (if c then t else u) := by
  split <;> assumption

theorem foldl {β : Type} {f : State → β → State} (hf : ∀ r x, GovernFrame r (f r x)) (l : List β) (s : State) : GovernFrame s (l.foldl f s) :=
  foldl_keeps (GovernFrame s) f (fun r x h => h.step (hf r x)) l (.refl s)

/-- R482: the temperature that the governor takes comes from the sensors. -/
theorem dieTemp (h : GovernFrame s t) (k : Nat) : t.dieTemp k = s.dieTemp k := by
  unfold State.dieTemp State.failedCount State.goodValues
  rw [h.sensors]

end GovernFrame

theorem State.odPut_governFrame (s : State) {k : Nat} (hk : Od.inputPowerAvgW ≠ k) (v : Nat) : GovernFrame s (s.odPut k v) :=
  ⟨rfl, rfl, rfl, rfl, rfl, s.odGet_odPut_ne hk v⟩

theorem State.logEv_governFrame (s : State) (ev : LogEv) : GovernFrame s (s.logEv ev) := by
  have h := s.logEv_report ev
  exact ⟨h.sensors, h.mode, by rw [h.power], by rw [h.power], by rw [h.power], (s.logEv_odFrame ev 0).same _ (by decide)⟩

/-- The rails of the module's halls are the same. -/
def SameRails (s t : State) : Prop := ∀ h < 4, t.rail h = s.rail h

theorem SameRails.refl (s : State) : SameRails s s := fun _ _ => rfl

theorem SameRails.step {s t u : State} (h : SameRails s t) (h' : SameRails t u) : SameRails s u := fun k hk => (h' k hk).trans (h k hk)

theorem SameRails.ite {s t u : State} {c : Prop} [Decidable c] (ht : SameRails s t) (hu : SameRails s u) : SameRails s (if c then t else u) := by
  split <;> assumption

/-- The entries of the four rails. -/
def railEntries : List Nat := [Od.fabricMvH0, Od.fabricMvH0 + 1, Od.fabricMvH0 + 2, Od.fabricMvH0 + 3]

theorem rail_mem_railEntries {h : Nat} (hh : h < 4) : Od.fabricMvH0 + h ∈ railEntries :=
  match h, hh with
  | 0, _ => by decide
  | 1, _ => by decide
  | 2, _ => by decide
  | 3, _ => by decide

/-- Entries that are no rail are written, and no rail. -/
theorem OdFrame.sameRails {l : List Nat} {s t : State} (h : OdFrame l s t) (hl : ∀ k ∈ railEntries, k ∉ l) : SameRails s t :=
  fun _ hh => h.same _ (hl _ (rail_mem_railEntries hh))

theorem State.odPut_sameRails (s : State) {k : Nat} (hk : k ∉ railEntries) (v : Nat) : SameRails s (s.odPut k v) :=
  fun h hh => s.odGet_odPut_ne (fun he : Od.fabricMvH0 + h = k => hk (he ▸ rail_mem_railEntries hh)) v

theorem State.logEv_sameRails (s : State) (ev : LogEv) : SameRails s (s.logEv ev) := (s.logEv_odFrame ev 0).sameRails (by decide)

/-! ### One hall's rail (R512 to R517) -/

theorem State.hotPeriod_frame (s : State) (h : Nat) (t : Int) : GovernFrame s (s.hotPeriod h t) ∧ SameRails s (s.hotPeriod h t) := by
  have hset : ∀ m, GovernFrame s { s with power := { s.power with hot := m } } ∧ SameRails s { s with power := { s.power with hot := m } } :=
    fun _ => ⟨⟨rfl, rfl, rfl, rfl, rfl, rfl⟩, fun _ _ => rfl⟩
  have hsame : GovernFrame s s ∧ SameRails s s := ⟨.refl s, .refl s⟩
  unfold State.hotPeriod
  split
  · split
    · exact ⟨(hset _).1.step (State.logEv_governFrame _ _), (hset _).2.step (State.logEv_sameRails _ _)⟩
    · exact hsame
  · split
    · exact hsame
    · exact hset _
  · split
    · exact hset _
    · split
      · exact hset _
      · exact hsame

/-- R513, R516, R517: a rule holds the rail of a hall at 0.62 V. -/
def State.railFloored (s : State) (h : Nat) : Prop :=
  s.power.fastHold.isSome = true ∨ s.power.railsHeld = true ∨ ∃ x, s.dieTemp h = some x ∧ 105000 ≤ x

theorem GovernFrame.railFloored {s t : State} (h : GovernFrame s t) (k : Nat) : t.railFloored k ↔ s.railFloored k := by
  simp only [State.railFloored, h.fastHold, h.railsHeld, h.dieTemp]

/-- The rail of a hall follows its rules. -/
def State.railRight (s : State) (h : Nat) : Prop := 620 ≤ s.rail h ∧ s.rail h ≤ 850 ∧ (s.railFloored h → s.rail h = 620)

theorem State.railRight_of_same {s t : State} (hf : GovernFrame s t) (hr : SameRails s t) {h : Nat} (hh : h < 4) : s.railRight h → t.railRight h := by
  simp only [State.railRight, hf.railFloored, hr h hh]
  exact id

theorem State.rail_odPut_self (s : State) (h v : Nat) : (s.odPut (Od.fabricMvH0 + h) v).rail h = v := s.odGet_odPut_self _ v

theorem State.rail_odPut_ne (s : State) {h k : Nat} (hk : k ≠ h) (v : Nat) : (s.odPut (Od.fabricMvH0 + h) v).rail k = s.rail k :=
  s.odGet_odPut_ne (fun he => hk (Nat.add_left_cancel he)) v

theorem clamp_rail (mv : Nat) : 620 ≤ min 850 (max 620 mv) ∧ min 850 (max 620 mv) ≤ 850 := by omega

/-- R513, R516, R517: the hall's rail goes to the floor where a rule holds it there, and is 0.62 to 0.85 V in any case. -/
theorem State.governHall_writes (s : State) (avgW : Nat) (top : Option Nat) (h : Nat) :
    ∃ v, s.governHall avgW top h = (s.hotPeriod h ((s.dieTemp h).getD 0)).odPut (Od.fabricMvH0 + h) (min 850 (max 620 v)) ∧ (s.railFloored h → v = 620) := by
  have hhot := (s.hotPeriod_frame h ((s.dieTemp h).getD 0)).1
  refine ⟨_, rfl, fun hf => if_pos ?_⟩
  rcases hf with hf | hf | ⟨x, hx, hle⟩
  · simp [hhot.fastHold, hf]
  · simp [hhot.railsHeld, hf]
  · simp [hx, hle]

theorem State.governHall_frame (s : State) (avgW : Nat) (top : Option Nat) (h : Nat) : GovernFrame s (s.governHall avgW top h) := by
  obtain ⟨v, he, -⟩ := s.governHall_writes avgW top h
  rw [he]
  exact (s.hotPeriod_frame h _).1.step (State.odPut_governFrame _ (by show (0x200003 : Nat) ≠ 0x200014 + h; omega) _)

theorem State.governHall_right (s : State) (avgW : Nat) (top : Option Nat) (h : Nat) : (s.governHall avgW top h).railRight h := by
  obtain ⟨v, he, hv⟩ := s.governHall_writes avgW top h
  have hrail : (s.governHall avgW top h).rail h = min 850 (max 620 v) := by rw [he, State.rail_odPut_self]
  have hfloor := (s.governHall_frame avgW top h).railFloored h
  rw [State.railRight, hrail, hfloor]
  exact ⟨(clamp_rail v).1, (clamp_rail v).2, fun hf => by rw [hv hf]; rfl⟩

/-- One hall's rail leaves those of the others right. -/
theorem State.governHall_keeps_right (s : State) (avgW : Nat) (top : Option Nat) (k : Nat) {h : Nat} (hh : h < 4) (hr : s.railRight h) :
    (s.governHall avgW top k).railRight h := by
  by_cases hk : h = k
  · exact hk ▸ s.governHall_right avgW top h
  · obtain ⟨v, he, -⟩ := s.governHall_writes avgW top k
    have hrail : (s.governHall avgW top k).rail h = s.rail h := by rw [he, State.rail_odPut_ne _ hk, (s.hotPeriod_frame k _).2 h hh]
    simp only [State.railRight, hrail, (s.governHall_frame avgW top k).railFloored]
    exact hr

theorem State.capHold_frame (s : State) (avgW : Nat) : GovernFrame s (s.capHold avgW) ∧ SameRails s (s.capHold avgW) := by
  have hset : ∀ (t : State) (n : Nat) (c : Option Nat), GovernFrame t { t with power := { t.power with heldBack := n, capUnmet := c } } ∧
      SameRails t { t with power := { t.power with heldBack := n, capUnmet := c } } := fun _ _ _ => ⟨⟨rfl, rfl, rfl, rfl, rfl, rfl⟩, fun _ _ => rfl⟩
  unfold State.capHold
  extract_lets cap u
  have hu : GovernFrame s u ∧ SameRails s u :=
    ⟨.ite (s.odPut_governFrame (by decide) _) (.refl s), .ite (s.odPut_sameRails (by decide) _) (.refl s)⟩
  clear_value u
  split
  · exact ⟨hu.1.step (hset u _ _).1, hu.2.step (hset u _ _).2⟩
  · split
    · split
      · exact ⟨(hu.1.step (hset u _ _).1).step (State.logEv_governFrame _ _), (hu.2.step (hset u _ _).2).step (State.logEv_sameRails _ _)⟩
      · split
        · exact ⟨hu.1.step (hset u _ _).1, hu.2.step (hset u _ _).2⟩
        · exact hu
    · exact hu

/-! ### A tick of the governor (R512) -/

/-- R512: the average and the energy of a tick. -/
def State.powerTaken (s : State) (w : Nat) : State :=
  ({ s.odPut Od.inputPowerAvgW (w % 65536) with power := { s.power with energyMj := s.power.energyMj + s.odGet Od.inputPowerW } } : State).odPut Od.energyJ
    ((s.power.energyMj + s.odGet Od.inputPowerW) / 1000 % 2 ^ 64)

/-- R512 to R515: the halls' rails in turn, and then what the cap holds back. -/
def State.governed (s : State) (w : Nat) : State := (s.power.hallPower.foldl (fun t h => t.governHall w s.highestRail h) s).capHold w

theorem execGovernorTick_eq (w : Nat) {s : State} (h : s.mode ≠ .off) :
    exec (.governorTick w) s = .next (if !s.newel.restarting && (s.mode == .ready || s.mode == .run || s.mode == .stopped) then (s.powerTaken w).governed w
      else s.powerTaken w) := by
  have hexec : exec (.governorTick w) s = execGovernorTick w s := by rfl
  rw [hexec, execGovernorTick, if_neg h]
  have hw : (s.odPut Od.inputPowerAvgW (w % 65536)).odGet Od.inputPowerW = s.odGet Od.inputPowerW := s.odGet_odPut_ne (by decide) _
  simp only [hw]
  rfl

theorem State.powerTaken_average (s : State) (w : Nat) : (s.powerTaken w).odGet Od.inputPowerAvgW = w % 65536 := by
  rw [State.powerTaken, State.odGet_odPut_ne _ (by decide)]
  exact s.odGet_odPut_self _ _

theorem State.powerTaken_rails (s : State) (w : Nat) : SameRails s (s.powerTaken w) := by
  have h : SameRails (s.odPut Od.inputPowerAvgW (w % 65536))
    { s.odPut Od.inputPowerAvgW (w % 65536) with power := { s.power with energyMj := s.power.energyMj + s.odGet Od.inputPowerW } } := fun _ _ => rfl
  exact ((s.odPut_sameRails (by decide) _).step h).step (State.odPut_sameRails _ (by decide) _)

theorem State.powerTaken_floored (s : State) (w h : Nat) : (s.powerTaken w).railFloored h ↔ s.railFloored h := by rfl

theorem State.governed_frame (s : State) (w : Nat) : GovernFrame s (s.governed w) :=
  (GovernFrame.foldl (fun r h => r.governHall_frame w s.highestRail h) _ s).step (State.capHold_frame _ w).1

theorem State.governed_right (s : State) (w : Nat) {h : Nat} (hh : h < 4) (hp : h ∈ s.power.hallPower) : (s.governed w).railRight h := by
  have hfold : (s.power.hallPower.foldl (fun t h => t.governHall w s.highestRail h) s).railRight h :=
    foldl_reaches (fun t : State => t.railRight h) _ (fun t k ht => t.governHall_keeps_right w _ k hh ht) (fun t => t.governHall_right w _ h) hp s
  obtain ⟨hf, hr⟩ := State.capHold_frame (s.power.hallPower.foldl (fun t h => t.governHall w s.highestRail h) s) w
  exact State.railRight_of_same hf hr hh hfold

/-- R512: what each millisecond does outside Off. -/
theorem exec_governorTick (w : Nat) {s : State} (h : s.mode ≠ .off) :
    ∃ t : State, exec (.governorTick w) s = .next t ∧ t.odGet Od.inputPowerAvgW = w % 65536 ∧
      t.power.energyMj = s.power.energyMj + s.odGet Od.inputPowerW ∧ t.mode = s.mode ∧
      (¬ (s.newel.restarting = false ∧ (s.mode = .ready ∨ s.mode = .run ∨ s.mode = .stopped)) → SameRails s t) ∧
      (s.newel.restarting = false ∧ (s.mode = .ready ∨ s.mode = .run ∨ s.mode = .stopped) → ∀ k < 4, k ∈ s.power.hallPower →
        620 ≤ t.rail k ∧ t.rail k ≤ 850 ∧ (s.railFloored k → t.rail k = 620)) := by
  rw [execGovernorTick_eq w h]
  by_cases hg : s.newel.restarting = false ∧ (s.mode = .ready ∨ s.mode = .run ∨ s.mode = .stopped)
  · have hc : (!s.newel.restarting && (s.mode == .ready || s.mode == .run || s.mode == .stopped)) = true := by
      simpa [or_assoc] using hg
    have hf := (s.powerTaken w).governed_frame w
    rw [if_pos hc]
    refine ⟨_, rfl, hf.average.trans (s.powerTaken_average w), hf.energyMj, hf.mode, fun hn => (hn hg).elim, fun _ k hk hp => ?_⟩
    have hr := (s.powerTaken w).governed_right w hk hp
    rwa [State.railRight, hf.railFloored, State.powerTaken_floored] at hr
  · have hc : ¬ (!s.newel.restarting && (s.mode == .ready || s.mode == .run || s.mode == .stopped)) = true := by
      simpa [or_assoc] using hg
    rw [if_neg hc]
    exact ⟨_, rfl, s.powerTaken_average w, rfl, rfl, fun _ => s.powerTaken_rails w, fun hg' => (hg hg').elim⟩

end Sys2Proof.Machine
end

section
/-!
SUPPORT. The power and input limits (R516, R517) with the entry into Safe Stop and its cause (R530), the sources of the timebase (R503 to R505) and PLLs (R508);
and the statement on power and clocks.
-/

namespace Sys2Proof.Machine

/-! ### The cause of Safe Stop (R530) -/

/-- Between two states the cause of Safe Stop is the same. -/
def CauseKept (s t : State) : Prop := t.odGet Od.safeStopCause = s.odGet Od.safeStopCause

namespace CauseKept

variable {s t u : State}

theorem step (h : CauseKept s t) (h' : CauseKept t u) : CauseKept s u := h'.trans h

theorem of_od (h : t.od.vals = s.od.vals) : CauseKept s t := by
  simp only [CauseKept, State.odGet, h]

theorem after (h : CauseKept t u) (hod : t.od.vals = s.od.vals) : CauseKept s u := (CauseKept.of_od hod).step h

end CauseKept

theorem State.odPut_causeKept (s : State) {k : Nat} (hk : Od.safeStopCause ≠ k) (v : Nat) : CauseKept s (s.odPut k v) := s.odGet_odPut_ne hk v

theorem State.count_causeKept (s : State) {k : Nat} (hk : Od.safeStopCause ≠ k) (n : Nat) : CauseKept s (s.count k n) := s.odPut_causeKept hk _

theorem State.allAbandoned_causeKept (s : State) : CauseKept s s.allAbandoned := by
  unfold State.allAbandoned
  extract_lets u
  have hdescs : CauseKept s (s.abandonDescs (fun _ => true)) := (State.count_causeKept _ (k := Od.moverAbandoned) (by decide) _).after rfl
  have hu : CauseKept s u := hdescs.step ((State.count_causeKept _ (k := Od.moverAbandoned) (by decide) _).after rfl)
  clear_value u
  exact hu.step (.of_od rfl)

theorem State.endStateWait_causeKept (s : State) : CauseKept s s.endStateWait := by
  unfold State.endStateWait
  split
  · exact rfl
  · exact CauseKept.after ((State.respond_odFrame _ _ _ _ _ _ _).same _ (by decide)) rfl

theorem State.setMode_causeKept (s : State) (m : ModState) : CauseKept s (s.setMode m) := by
  unfold State.setMode
  extract_lets u
  have hu : CauseKept s u := (State.odPut_causeKept _ (k := Od.stateSince) (by decide) _).after rfl
  split
  · split
    · exact hu.step u.endStateWait_causeKept
    · exact hu
  · exact hu

/-- R530: the entry into Safe Stop, for a cause that leaves the port its power, records its cause. -/
theorem State.enterSafeStop_cause {s : State} (h : ¬ (s.mode = .safeStop ∨ s.mode = .off)) {cause : Nat} (hc : darkCause cause = false) :
    (s.enterSafeStop cause).odGet Od.safeStopCause = cause := by
  unfold State.enterSafeStop
  rw [if_neg h]
  extract_lets logged caused ended _ tested idle _ _ cut _ viral
  rw [if_neg (by simp [hc])]
  have hcaused : caused.odGet Od.safeStopCause = cause := logged.odGet_odPut_self _ _
  clear_value caused
  have hended : CauseKept caused ended := by
    unfold ended
    split
    · split
      · exact State.odPut_causeKept _ (by decide) 5
      · split
        · exact State.odPut_causeKept _ (by decide) 5
        · exact State.odPut_causeKept _ (by decide) 5
    · exact rfl
  clear_value ended
  have htested : CauseKept caused tested := by
    unfold tested
    split
    · exact hended.step (.of_od rfl)
    · exact rfl
  clear_value tested
  have hcut : CauseKept tested cut := tested.allAbandoned_causeKept.step (.of_od rfl)
  clear_value cut
  have hviral : CauseKept cut viral := by
    unfold viral
    split
    · exact .of_od rfl
    · exact rfl
  clear_value viral
  exact (((htested.step hcut).step hviral).step ((State.setMode_causeKept viral.tick .safeStop).after rfl)).trans hcaused

/-! ### Limits of power and input (R516, R517) -/

theorem State.railsToFloor_frame (s : State) : LogFrame s s.railsToFloor ∧ s.railsToFloor.newel = s.newel := by
  unfold State.railsToFloor
  exact foldl_keeps (fun t : State => LogFrame s t ∧ t.newel = s.newel) _ (fun t h ht => ⟨ht.1.step (t.odPut_frame _ _), ht.2⟩) _ ⟨.refl s, rfl⟩

/-- R516, R517: every powered rail goes to 0.62 V. -/
theorem State.railsToFloor_rail (s : State) {h : Nat} (hp : h ∈ s.power.hallPower) : s.railsToFloor.rail h = 620 := by
  unfold State.railsToFloor
  refine foldl_reaches (fun t : State => t.rail h = 620) (fun t k => t.odPut (Od.fabricMvH0 + k) 620) (fun t k ht => ?_) (fun t => t.rail_odPut_self h 620) hp s
  by_cases hk : h = k
  · exact hk ▸ t.rail_odPut_self h 620
  · exact (t.rail_odPut_ne hk 620).trans ht

theorem execPowerFastLimit_idle {w : Nat} {s : State} (h : s.mode = .off ∨ w ≤ 1050) : exec (.powerFastLimit w) s = .next s := by
  have hexec : exec (.powerFastLimit w) s = execPowerFastLimit w s := by rfl
  rw [hexec, execPowerFastLimit, if_pos h]

/-- R516: power above the fatal limit. -/
theorem execPowerFastLimit_fatal {w : Nat} {s : State} (hoff : s.mode ≠ .off) (hw : 1450 < w) :
    ∃ t : State, exec (.powerFastLimit w) s = .next t ∧ t.mode = .safeStop ∧ t.power.hallPower = [] := by
  have hexec : exec (.powerFastLimit w) s = execPowerFastLimit w s := by rfl
  rw [hexec, execPowerFastLimit, if_neg (by rintro (h | h) <;> [exact hoff h; omega]), if_pos hw]
  exact ⟨_, rfl, State.fatal_mode (s := { s with power := { s.power with hallPower := [] } }) hoff _,
    State.fatal_power (s := { s with power := { s.power with hallPower := [] } }) hoff (fun _ => rfl) _⟩

/-- R516: power above the fast limit. -/
theorem execPowerFastLimit_hold {w : Nat} {s : State} (hoff : s.mode ≠ .off) (hlow : 1050 < w) (hw : w ≤ 1450) :
    ∃ t : State, exec (.powerFastLimit w) s = .next t ∧ t.power.fastHold = some s.epoch ∧ t.mode = s.mode ∧
      ∀ h ∈ s.power.hallPower, h < 4 → t.rail h = 620 := by
  have hexec : exec (.powerFastLimit w) s = execPowerFastLimit w s := by rfl
  rw [hexec, execPowerFastLimit, if_neg (by rintro (h | h) <;> [exact hoff h; omega]), if_neg (by omega)]
  have hrail : ∀ h ∈ s.power.hallPower, ({ s with power := { s.power with fastHold := some s.epoch } } : State).railsToFloor.rail h = 620 :=
    fun h hp => State.railsToFloor_rail _ hp
  obtain ⟨hframe, -⟩ := State.railsToFloor_frame { s with power := { s.power with fastHold := some s.epoch } }
  extract_lets _ u
  have hlog := (u.count_frame Od.fastLimits 1).step (State.logLimited_frame _ { code := 0x2002, detail := leBytes 4 w } 0 oneSec)
  refine ⟨_, rfl, by rw [hlog.power, hframe.power], by rw [hlog.mode, hframe.mode], fun h hp hh => ?_⟩
  have hkept : SameRails u ((u.count Od.fastLimits 1).logLimited { code := 0x2002, detail := leBytes 4 w } 0 oneSec) :=
    (State.odPut_sameRails _ (by decide) _).step ((State.logLimited_odFrame _ _ _ _).sameRails (by decide))
  exact (hkept h hh).trans (hrail h hp)

/-- R517: a voltage below 40 V is logged once. -/
def State.inputLogged (s : State) (mv : Nat) : State :=
  if s.power.lowInput then s.odPut Od.inputMv mv
  else ({ s.odPut Od.inputMv mv with power := { s.power with lowInput := true } } : State).logEv { code := 0x2001, detail := leBytes 4 mv }

theorem State.inputLogged_spec (s : State) (mv : Nat) : (s.inputLogged mv).mode = s.mode ∧ (s.inputLogged mv).power.hallPower = s.power.hallPower := by
  unfold State.inputLogged
  split
  · exact ⟨rfl, rfl⟩
  · have hlog := ({ s.odPut Od.inputMv mv with power := { s.power with lowInput := true } } : State).logEv_frame { code := 0x2001, detail := leBytes 4 mv } 0
    have hpower := congrArg PowerSt.hallPower hlog.power
    exact ⟨hlog.mode, hpower⟩

/-- R516, R517: the rails are held at the floor. -/
def State.holdRails (s : State) : State := ({ s with power := { s.power with railsHeld := true } } : State).railsToFloor

theorem State.holdRails_spec (s : State) : s.holdRails.mode = s.mode ∧ s.holdRails.power.railsHeld = true ∧ ∀ h ∈ s.power.hallPower, s.holdRails.rail h = 620 := by
  obtain ⟨hframe, -⟩ := State.railsToFloor_frame { s with power := { s.power with railsHeld := true } }
  exact ⟨hframe.mode, congrArg PowerSt.railsHeld hframe.power,
    fun h hp => State.railsToFloor_rail { s with power := { s.power with railsHeld := true } } hp⟩

/-- R517: an input below 40 V is logged once, and holds the rails at the floor. -/
def State.inputLow (s : State) (mv : Nat) : State := (s.inputLogged mv).holdRails

theorem State.inputLow_spec (s : State) (mv : Nat) : (s.inputLow mv).mode = s.mode ∧ (s.inputLow mv).power.railsHeld = true ∧
    ∀ h ∈ s.power.hallPower, (s.inputLow mv).rail h = 620 := by
  obtain ⟨hmode, hpower⟩ := s.inputLogged_spec mv
  obtain ⟨hm, hh, hr⟩ := (s.inputLogged mv).holdRails_spec
  exact ⟨hm.trans hmode, hh, fun h hp => hr h (hpower ▸ hp)⟩

theorem execInputVoltageEvent_of_off {mv : Nat} {s : State} (h : s.mode = .off) :
    exec (.inputVoltageEvent mv) s = .next (if mv < 40000 ∨ 60000 < mv then { s with start := { s.start with closed := false } } else s) := by
  have hexec : exec (.inputVoltageEvent mv) s = execInputVoltageEvent mv s := by rfl
  rw [hexec, execInputVoltageEvent, if_pos h]

theorem execInputVoltageEvent_of_on {mv : Nat} {s : State} (h : s.mode ≠ .off) :
    exec (.inputVoltageEvent mv) s = .next (if 60000 < mv then s.toOff true else if mv < 32000 then s.toOff false
      else if 40000 ≤ mv then { s.odPut Od.inputMv mv with power := { s.power with lowInput := false, railsHeld := false } }
      else if mv < 36000 then (s.inputLow mv).enterSafeStop 0x2001 else s.inputLow mv) := by
  have hexec : exec (.inputVoltageEvent mv) s = execInputVoltageEvent mv s := by rfl
  rw [hexec, execInputVoltageEvent, if_neg h]
  rfl

/-- R517: an input below 36 V is Safe Stop, with the rails held. -/
theorem State.inputLow_safeStop {s : State} (h : s.mode ≠ .off) (mv : Nat) :
    ((s.inputLow mv).enterSafeStop 0x2001).mode = .safeStop ∧ ((s.inputLow mv).enterSafeStop 0x2001).power.railsHeld = true ∧
      (s.mode ≠ .safeStop → ((s.inputLow mv).enterSafeStop 0x2001).odGet Od.safeStopCause = 0x2001) := by
  obtain ⟨hmode, hheld, -⟩ := s.inputLow_spec mv
  have hoff : (s.inputLow mv).mode ≠ .off := by rwa [hmode]
  refine ⟨State.enterSafeStop_mode hoff _, ?_, fun hs => State.enterSafeStop_cause (not_or.2 ⟨by rwa [hmode], hoff⟩) (by decide)⟩
  by_cases hs : (s.inputLow mv).mode = .safeStop
  · rw [State.enterSafeStop_of_there (.inl hs), hheld]
  · rw [(State.enterSafeStop_report (not_or.2 ⟨hs, hoff⟩) _).power]
    exact hheld

/-! ### The sources of the timebase (R503) -/

theorem find_modFirst_of_ne {α : Type} {p q : α → Bool} {f : α → α} (hp : ∀ x, p x = true → q x = false) (hf : ∀ x, p x = true → q (f x) = false) (l : List α) :
    (modFirst p f l).find? q = l.find? q := by
  induction l with
  | nil => rfl
  | cons x l ih =>
    simp only [modFirst]
    split
    · next hx => simp [hp x hx, hf x hx]
    · simp [List.find?_cons, ih]

/-- R503: a source's record is put in place of the one that it has, or behind the others. -/
def State.putFreq (s : State) (x : FreqSrc) : State :=
  { s with power := { s.power with freq := if s.power.freq.any (fun y => y.code == x.code) then modFirst (fun y => y.code == x.code) (fun _ => x) s.power.freq
      else s.power.freq ++ [x] } }

theorem State.freqSrc_putFreq_self (s : State) (x : FreqSrc) : (s.putFreq x).freqSrc x.code = x := by
  unfold State.putFreq State.freqSrc
  dsimp only
  split
  · next h =>
    obtain ⟨y, hy, hcode⟩ := List.any_eq_true.1 h
    obtain ⟨z, hz⟩ := Option.isSome_iff_exists.1 (List.find?_isSome (p := fun y : FreqSrc => y.code == x.code) |>.2 ⟨y, hy, hcode⟩)
    rw [find_modFirst _ _ (fun _ _ => by simp), hz]
    rfl
  · next h =>
    have hnone : s.power.freq.find? (fun y => y.code == x.code) = none := by simpa using h
    simp [List.find?_append, hnone]

theorem State.freqSrc_putFreq_ne (s : State) (x : FreqSrc) {d : Nat} (hd : d ≠ x.code) : (s.putFreq x).freqSrc d = s.freqSrc d := by
  have hx : (x.code == d) = false := by simpa using Ne.symm hd
  unfold State.putFreq State.freqSrc
  dsimp only
  split
  · rw [find_modFirst_of_ne (p := fun y : FreqSrc => y.code == x.code) (q := fun y => y.code == d) (fun y hy => by rwa [beq_iff_eq.1 hy]) (fun _ _ => hx)]
  · simp [List.find?_append, hx]

theorem State.switchFreq_freq (s : State) : s.switchFreq.power.freq = s.power.freq := by
  unfold State.switchFreq
  extract_lets c u
  split
  · rfl
  · have hu : u.power = s.power := by
      have hlog := ((s.odPut Od.freqSource c).count Od.freqSwitches 1).logEv_frame { code := 0x2111, unit := c } 0
      exact hlog.power
    have hfreq := congrArg PowerSt.freq hu
    exact hfreq

theorem State.switchFreq_of_follower {s : State} (h : s.timeRef = false) : s.switchFreq = s := by
  unfold State.switchFreq
  simp [h]

theorem State.freqSource_switchFreq {s : State} (href : s.timeRef = true) : s.switchFreq.odGet Od.freqSource = s.chooseFreq := by
  unfold State.switchFreq
  extract_lets c u
  by_cases hc : c = s.odGet Od.freqSource
  · rw [if_pos (by simp [hc])]
    exact hc.symm
  · rw [if_neg (by simp [hc, href])]
    have hcount := ((s.odPut Od.freqSource c).odGet_count_ne (show Od.freqSource ≠ Od.freqSwitches by decide) 1).trans (s.odGet_odPut_self _ c)
    exact ((State.logEv_odFrame _ { code := 0x2111, unit := c } 0).same _ (by decide)).trans hcount

/-- R503: a list of one source is that source. -/
theorem freqOrder_one {c : Nat} (hlow : 1 ≤ c) (hhigh : c ≤ 5) : freqOrder c = [c] := by
  interval_cases c <;> decide

theorem State.chooseFreq_one {s : State} {c : Nat} (hlow : 1 ≤ c) (hhigh : c ≤ 5) (hprio : s.odGet Od.freqPriority = c) (hcur : s.odGet Od.freqSource = 0)
    (hq : (s.freqSrc c).qualified = true) : s.chooseFreq = c := by
  have hne : (c == 0) = false := by simp; omega
  simp [State.chooseFreq, hprio, freqOrder_one hlow hhigh, hcur, hq, Nat.ne_of_lt (Nat.lt_of_lt_of_le Nat.zero_lt_one hlow)]

theorem execFreqQualify_idle {c : Nat} {us q : Bool} {s : State} (h : s.mode = .off ∨ c = 0 ∨ 5 < c) : exec (.freqQualify c us q) s = .next s := by
  have hexec : exec (.freqQualify c us q) s = execFreqQualify c us q s := by rfl
  rw [hexec, execFreqQualify, if_pos h]

theorem execFreqQualify_eq {c : Nat} {us q : Bool} {s : State} (h : ¬ (s.mode = .off ∨ c = 0 ∨ 5 < c)) :
    ∃ since, exec (.freqQualify c us q) s = .next (s.putFreq ⟨c, us, us && q, since⟩).switchFreq := by
  have hexec : exec (.freqQualify c us q) s = execFreqQualify c us q s := by rfl
  rw [hexec, execFreqQualify, if_neg h]
  exact ⟨_, rfl⟩

/-- R503: a source is found usable or not, and qualified or not. -/
theorem exec_freqQualify {c : Nat} {us q : Bool} {s : State} (hoff : s.mode ≠ .off) (hlow : 1 ≤ c) (hhigh : c ≤ 5) :
    ∃ t : State, exec (.freqQualify c us q) s = .next t ∧ (t.freqSrc c).usable = us ∧ (t.freqSrc c).qualified = (us && q) ∧
      (∀ d, d ≠ c → t.freqSrc d = s.freqSrc d) ∧ (s.timeRef = false → t.odGet Od.freqSource = s.odGet Od.freqSource) ∧
      (s.timeRef = true → us = true → q = true → s.odGet Od.freqSource = 0 → s.odGet Od.freqPriority = c → t.odGet Od.freqSource = c) := by
  obtain ⟨since, hexec⟩ := execFreqQualify_eq (c := c) (us := us) (q := q) (s := s) (by
    rintro (h | h | h)
    · exact hoff h
    · omega
    · omega)
  have hself : (s.putFreq ⟨c, us, us && q, since⟩).freqSrc c = ⟨c, us, us && q, since⟩ := s.freqSrc_putFreq_self _
  have hsame : ∀ d, (s.putFreq ⟨c, us, us && q, since⟩).switchFreq.freqSrc d = (s.putFreq ⟨c, us, us && q, since⟩).freqSrc d := fun d => by
    simp only [State.freqSrc, State.switchFreq_freq]
  refine ⟨_, hexec, by rw [hsame, hself], by rw [hsame, hself], fun d hd => (hsame d).trans (s.freqSrc_putFreq_ne _ hd), fun href => ?_,
    fun href hus hq hsrc hprio => ?_⟩
  · rw [State.switchFreq_of_follower (s := s.putFreq ⟨c, us, us && q, since⟩) href]
    rfl
  · rw [State.freqSource_switchFreq (s := s.putFreq ⟨c, us, us && q, since⟩) href]
    exact State.chooseFreq_one hlow hhigh hprio hsrc (by rw [hself, hus, hq]; rfl)

end Sys2Proof.Machine
end

section
/-!
SUPPORT. The comparison of the counter with its source (R504, R505) and PLLs (R508); and the statement on power and clocks.
-/

namespace Sys2Proof.Machine

/-! ### The comparison of the counter with its source (R504, R505) -/

/-- R504: in holdover the lock is lost and begins anew. -/
theorem State.holdover_spec (s : State) : s.holdover.odGet Od.tbState = 3 ∧ s.holdover.power.inLock = 0 := by
  unfold State.holdover
  extract_lets p
  have hput : (({ s with power := { p with inLock := 0 } } : State).odPut Od.tbState 3).odGet Od.tbState = 3 := State.odGet_odPut_self _ _ _
  have hcount := (State.odGet_count_ne (({ s with power := { p with inLock := 0 } } : State).odPut Od.tbState 3)
    (show Od.tbState ≠ Od.holdoverEntries by decide) 1).trans hput
  have hlog := ((({ s with power := { p with inLock := 0 } } : State).odPut Od.tbState 3).count Od.holdoverEntries 1).logEv_frame { code := 0x2110 } 0
  have hlock := congrArg PowerSt.inLock hlog.power
  exact ⟨((State.logEv_odFrame _ _ 0).same _ (by decide)).trans hcount, hlock⟩

/-- R505: the offset is noted, and one beyond a second is logged once. -/
def State.offsetTaken (s : State) (offset : Int) (big : Bool) : State :=
  let s := s.odPut Od.timeOffsetNs (ofInt 64 offset)
  if big then ({ s with power := { s.power with largeLogged := true } } : State).logEv { code := 0x2112 } else s

/-- R505: the counter steps to its source, or its offset is slewed. -/
def State.offsetActed (s : State) (step : Bool) (offset : Int) : State :=
  if step then { s with epoch := s.epoch + offset.natAbs, arcade := { s.arcade with slew := 0 } }
  else { s with arcade := { s.arcade with slew := -2 * offset } }

/-- R505: the counter steps rather than slews. -/
def State.stepsTo (s : State) (offset : Int) : Bool := decide (offset < 0) && (s.mode == .standby || s.mode == .training)

/-- R504: the offsets in lock with this one. -/
def State.locksWith (s : State) (offset : Int) : Nat := if offset.natAbs ≤ 100 then s.power.inLock + 1 else 0

/-- R504: offsets in lock are counted. -/
def State.lockCounted (s : State) (offset : Int) : State :=
  { s with power := { s.power with inLock := s.locksWith offset, everLocked := s.power.everLocked || decide (16 ≤ s.locksWith offset) } }

/-- R504: sixteen offsets in lock make the lock. -/
def State.lockJudged (s : State) (offset : Int) (st : Nat) : State :=
  if st = 2 then s.lockCounted offset
  else if 16 ≤ s.locksWith offset then (s.lockCounted offset).odPut Od.tbState 2
  else if st = 3 then s.lockCounted offset else (s.lockCounted offset).odPut Od.tbState 1

/-- Where the offset has been noted, nothing else that the comparison reads has changed. -/
structure OffsetTaken (offset : Int) (s t : State) : Prop where
  epoch : t.epoch = s.epoch
  inLock : t.power.inLock = s.power.inLock
  offset : t.odGet Od.timeOffsetNs = ofInt 64 offset

theorem State.offsetTaken_spec (s : State) (offset : Int) (big : Bool) : OffsetTaken offset s (s.offsetTaken offset big) := by
  have hput : (s.odPut Od.timeOffsetNs (ofInt 64 offset)).odGet Od.timeOffsetNs = ofInt 64 offset := s.odGet_odPut_self _ _
  unfold State.offsetTaken
  extract_lets u
  cases big with
  | false => exact ⟨rfl, rfl, hput⟩
  | true =>
    have hlog := ({ u with power := { u.power with largeLogged := true } } : State).logEv_frame { code := 0x2112 } 0
    have hlock := congrArg PowerSt.inLock hlog.power
    exact ⟨hlog.epoch, hlock, ((State.logEv_odFrame _ _ 0).same _ (by decide)).trans hput⟩

theorem execTimebaseLockCheck_lost {off : Int} {s : State} (hoff : s.mode ≠ .off) (href : s.timeRef = true) (hsrc : s.odGet Od.timeSource ≠ 0)
    (hst : s.odGet Od.tbState = 2) : exec (.timebaseLockCheck false off) s = .next s.holdover := by
  have hexec : exec (.timebaseLockCheck false off) s = execTimebaseLockCheck false off s := by rfl
  rw [hexec, execTimebaseLockCheck, if_neg hoff, if_neg (by simp [href]), if_neg hsrc]
  simp [hst]

/-- R505: an offset of a source that is there. -/
theorem execTimebaseLockCheck_present {off : Int} {s : State} (hoff : s.mode ≠ .off) (href : s.timeRef = true) (hsrc : s.odGet Od.timeSource ≠ 0) :
    ∃ big, exec (.timebaseLockCheck true off) s = .next (((s.offsetTaken off big).offsetActed (s.stepsTo off) off).lockJudged off (s.odGet Od.tbState)) := by
  have hexec : exec (.timebaseLockCheck true off) s = execTimebaseLockCheck true off s := by rfl
  rw [hexec, execTimebaseLockCheck, if_neg hoff, if_neg (by simp [href]), if_neg hsrc]
  exact ⟨_, rfl⟩

theorem State.offsetActed_power (s : State) (step : Bool) (offset : Int) : (s.offsetActed step offset).power = s.power := by
  cases step <;> rfl

theorem State.offsetActed_od (s : State) (step : Bool) (offset : Int) : (s.offsetActed step offset).od = s.od := by
  cases step <;> rfl

/-- R504: what the count of offsets writes. -/
theorem State.lockJudged_spec (s : State) (offset : Int) (st : Nat) : (s.lockJudged offset st).power.inLock = s.locksWith offset ∧
    (s.lockJudged offset st).epoch = s.epoch ∧ (s.lockJudged offset st).arcade = s.arcade ∧
    (s.lockJudged offset st).odGet Od.timeOffsetNs = s.odGet Od.timeOffsetNs := by
  have hput : ∀ v, ((s.lockCounted offset).odPut Od.tbState v).odGet Od.timeOffsetNs = s.odGet Od.timeOffsetNs := fun v =>
    (s.lockCounted offset).odGet_odPut_ne (by decide) v
  unfold State.lockJudged
  split
  · exact ⟨rfl, rfl, rfl, rfl⟩
  · split
    · exact ⟨rfl, rfl, rfl, hput 2⟩
    · split
      · exact ⟨rfl, rfl, rfl, rfl⟩
      · exact ⟨rfl, rfl, rfl, hput 1⟩

theorem State.lockJudged_locks {s : State} {offset : Int} {st : Nat} (hst : st ≠ 2) (h : 16 ≤ s.locksWith offset) :
    (s.lockJudged offset st).odGet Od.tbState = 2 := by
  rw [State.lockJudged, if_neg hst, if_pos h]
  exact State.odGet_odPut_self _ _ _

/-- R504, R505: the comparison on a module that is the reference and follows a source. -/
theorem exec_timebaseLockCheck_present {off : Int} {s : State} (hoff : s.mode ≠ .off) (href : s.timeRef = true) (hsrc : s.odGet Od.timeSource ≠ 0)
    (hst : s.odGet Od.tbState ≠ 2) :
    ∃ t : State, exec (.timebaseLockCheck true off) s = .next t ∧ t.odGet Od.timeOffsetNs = ofInt 64 off ∧
      t.power.inLock = (if off.natAbs ≤ 100 then s.power.inLock + 1 else 0) ∧ (off.natAbs ≤ 100 → 15 ≤ s.power.inLock → t.odGet Od.tbState = 2) ∧
      (off < 0 → (s.mode = .standby ∨ s.mode = .training) → t.epoch = s.epoch + off.natAbs) ∧
      (¬ (off < 0 ∧ (s.mode = .standby ∨ s.mode = .training)) → t.epoch = s.epoch ∧ t.arcade.slew = -2 * off) := by
  obtain ⟨big, hexec⟩ := execTimebaseLockCheck_present (off := off) hoff href hsrc
  obtain ⟨hepoch, hlock, hoffset⟩ := s.offsetTaken_spec off big
  have hwith : ((s.offsetTaken off big).offsetActed (s.stepsTo off) off).locksWith off = s.locksWith off := by
    simp only [State.locksWith, State.offsetActed_power, hlock]
  obtain ⟨hin, he, ha, ho⟩ := ((s.offsetTaken off big).offsetActed (s.stepsTo off) off).lockJudged_spec off (s.odGet Od.tbState)
  refine ⟨_, hexec, ?_, hin.trans hwith, fun hnear hcount => State.lockJudged_locks hst ?_, fun hneg hmode => ?_, fun hslew => ?_⟩
  · rw [ho, State.odGet, State.offsetActed_od]
    exact hoffset
  · rw [hwith, State.locksWith, if_pos hnear]
    omega
  · have hstep : s.stepsTo off = true := by simpa [State.stepsTo, hneg] using hmode
    rw [he, hstep, ← hepoch]
    rfl
  · have hstep : s.stepsTo off = false := by simpa [State.stepsTo] using hslew
    rw [he, ha, hstep, ← hepoch]
    exact ⟨rfl, rfl⟩

/-- R504: on a module that follows its parent the state of the timebase follows that of its time. -/
theorem exec_timebaseLockCheck_follower {p : Bool} {off : Int} {s : State} (hoff : s.mode ≠ .off) (href : s.timeRef = false) :
    ∃ t : State, exec (.timebaseLockCheck p off) s = .next t ∧ t = { s with od := t.od } ∧ (s.odGet Od.timeState = 2 → t.odGet Od.tbState = 2) := by
  have hexec : exec (.timebaseLockCheck p off) s = execTimebaseLockCheck p off s := by rfl
  rw [hexec, execTimebaseLockCheck, if_neg hoff, if_pos (by simp [href])]
  refine ⟨_, rfl, rfl, fun ht => ?_⟩
  rw [State.odGet_odPut_self]
  simp [State.timebase, href, ht]

theorem exec_timebaseLockCheck_off {p : Bool} {off : Int} {s : State} (hoff : s.mode = .off) : exec (.timebaseLockCheck p off) s = .next s := by
  have hexec : exec (.timebaseLockCheck p off) s = execTimebaseLockCheck p off s := by rfl
  rw [hexec, execTimebaseLockCheck, if_pos hoff]

/-! ### Oscillators (R507, R508) -/

theorem exec_tcxoStart {s : State} (hoff : s.mode ≠ .off) :
    exec (.tcxoStart true) s = .next { s with power := { s.power with tcxo := 1 } } ∧
      ∃ t : State, exec (.tcxoStart false) s = .next t ∧ t.power.tcxo = 2 ∧ t.mode = s.mode := by
  have hexec : ∀ ok, exec (.tcxoStart ok) s = execTcxoStart ok s := fun ok => by rfl
  have hlog := ({ s with power := { s.power with tcxo := 2 } } : State).logEv_frame { code := 0x2101 } 0
  have htcxo := congrArg PowerSt.tcxo hlog.power
  rw [hexec, hexec, execTcxoStart, execTcxoStart, if_neg hoff, if_neg hoff]
  exact ⟨rfl, _, rfl, htcxo, hlog.mode⟩

theorem exec_tcxoStart_off {s : State} (hoff : s.mode = .off) (ok : Bool) : exec (.tcxoStart ok) s = .next s := by
  have hexec : exec (.tcxoStart ok) s = execTcxoStart ok s := by rfl
  rw [hexec, execTcxoStart, if_pos hoff]

/-- R508: a PLL takes a value. -/
def State.putPll (s : State) (u v : Nat) : State := { s with power := { s.power with plls := kset 0 u v s.power.plls } }

theorem State.putPll_spec (s : State) (u v : Nat) : kget 0 u (s.putPll u v).power.plls = v ∧
    ∀ w, w ≠ u → kget 0 w (s.putPll u v).power.plls = kget 0 w s.power.plls :=
  ⟨kget_kset_self .., fun _ hw => kget_kset_ne hw _ _ _ _⟩

theorem exec_pllLock_idle {u : Nat} {l : Bool} {s : State} (h : s.mode = .off ∨ kget 0 u s.power.plls = 3) : exec (.pllLock u l) s = .next s := by
  have hexec : exec (.pllLock u l) s = execPllLock u l s := by rfl
  rw [hexec, execPllLock]
  rcases h with h | h
  · rw [if_pos h]
  · simp [h]

/-- R508: a PLL restarts twice, and then fails. -/
theorem exec_pllLock {u : Nat} {l : Bool} {s : State} (hoff : s.mode ≠ .off) (hn : kget 0 u s.power.plls ≠ 3) :
    ∃ t : State, exec (.pllLock u l) s = .next t ∧
      kget 0 u t.power.plls = (if l then 0 else if kget 0 u s.power.plls < 2 then kget 0 u s.power.plls + 1 else 3) ∧
      ∀ v, v ≠ u → kget 0 v t.power.plls = kget 0 v s.power.plls := by
  have hexec : exec (.pllLock u l) s = .next (if l then s.putPll u 0 else if kget 0 u s.power.plls < 2 then s.putPll u (kget 0 u s.power.plls + 1)
      else (s.putPll u 3).logEv { code := 0x2102, unit := u }) := by
    have he : exec (.pllLock u l) s = execPllLock u l s := by rfl
    rw [he, execPllLock, if_neg hoff]
    simp only [hn, if_false]
    rfl
  rw [hexec]
  refine ⟨_, rfl, ?_⟩
  cases l with
  | true => exact s.putPll_spec u 0
  | false =>
    simp only [Bool.false_eq_true, if_false]
    split
    · exact s.putPll_spec u _
    · rw [((s.putPll u 3).logEv_frame { code := 0x2102, unit := u } 0).power]
      exact s.putPll_spec u 3

/-! ### The statement -/

/-- R514: a hall below the floor of its rate is logged and counted. -/
theorem exec_rateBelowFloor {h : Nat} {s : State} (hok : hallOk h = true) (hp : s.power.hallPower.contains h = true) :
    ∃ t : State, exec (.rateBelowFloor h) s = .next t ∧ t.mode = s.mode ∧ t.power = s.power ∧
      t.odGet Od.rateFloorEvents = (s.odGet Od.rateFloorEvents + 1) % odModulus Od.rateFloorEvents := by
  have hexec : exec (.rateBelowFloor h) s = execRateBelowFloor h s := by rfl
  rw [hexec, execRateBelowFloor, if_neg (by simp [hok]), if_pos hp]
  have hlog := s.logEv_frame { code := 0x2006, hall := h } 0
  refine ⟨_, rfl, hlog.mode, hlog.power, ?_⟩
  rw [State.odGet_count_self, (s.logEv_odFrame _ 0).same _ (by decide)]

theorem exec_rateBelowFloor_idle {h : Nat} {s : State} (hok : hallOk h = true) (hp : s.power.hallPower.contains h = false) :
    exec (.rateBelowFloor h) s = .next s := by
  have hexec : exec (.rateBelowFloor h) s = execRateBelowFloor h s := by rfl
  rw [hexec, execRateBelowFloor, if_neg (by simp [hok]), if_neg (by rw [hp]; exact Bool.false_ne_true)]

/-- R517: the input's voltage outside Off. -/
theorem exec_inputVoltageEvent {mv : Nat} {s : State} (hoff : s.mode ≠ .off) :
    ((mv < 32000 ∨ 60000 < mv) → ∃ t : State, exec (.inputVoltageEvent mv) s = .next t ∧ t.mode = .off ∧ t.mem.cells = [] ∧
      t.power.highOwed = (decide (60000 < mv) || s.power.highOwed)) ∧
    (32000 ≤ mv → mv < 36000 → ∃ t : State, exec (.inputVoltageEvent mv) s = .next t ∧ t.mode = .safeStop ∧
      t.power.railsHeld = true ∧ (s.mode ≠ .safeStop → t.odGet Od.safeStopCause = 0x2001)) ∧
    (36000 ≤ mv → mv < 40000 → ∃ t : State, exec (.inputVoltageEvent mv) s = .next t ∧ t.mode = s.mode ∧ t.power.railsHeld = true ∧
      (∀ h ∈ s.power.hallPower, h < 4 → t.rail h = 620)) ∧
    (40000 ≤ mv → mv ≤ 60000 → ∃ t : State, exec (.inputVoltageEvent mv) s = .next t ∧ t.power.railsHeld = false ∧ t.power.lowInput = false ∧
      t = { s with od := t.od, power := t.power }) := by
  rw [execInputVoltageEvent_of_on hoff]
  refine ⟨fun h => ?_, fun hlow hhigh => ?_, fun hlow hhigh => ?_, fun hlow hhigh => ?_⟩
  · by_cases hh : 60000 < mv
    · rw [if_pos hh]
      exact ⟨_, rfl, rfl, rfl, by rw [decide_eq_true hh]; rfl⟩
    · rw [if_neg hh, if_pos (h.resolve_right hh)]
      exact ⟨_, rfl, rfl, rfl, by rw [decide_eq_false hh]; rfl⟩
  · rw [if_neg (by omega), if_neg (by omega), if_neg (by omega), if_pos hhigh]
    exact ⟨_, rfl, State.inputLow_safeStop hoff mv⟩
  · rw [if_neg (by omega), if_neg (by omega), if_neg (by omega), if_neg (by omega)]
    obtain ⟨hmode, hheld, hrail⟩ := s.inputLow_spec mv
    exact ⟨_, rfl, hmode, hheld, fun h hp _ => hrail h hp⟩
  · rw [if_neg (by omega), if_neg (by omega), if_pos hlow]
    exact ⟨_, rfl, rfl, rfl, rfl⟩

/-- Settles O54: each event of power or clocks by its own rule; the governor hall by hall, and the entry into Safe Stop with its cause. -/
theorem powerAndClocksFollowTheirRules : Obligations.PowerAndClocksFollowTheirRules := by
  refine ⟨fun w s => ⟨fun hoff => ?_, fun hoff => ?_⟩, fun h s hok => ⟨exec_rateBelowFloor_idle hok, exec_rateBelowFloor hok⟩,
    fun w s => ⟨execPowerFastLimit_idle, execPowerFastLimit_fatal, execPowerFastLimit_hold, by rfl⟩, fun mv s => ?_,
    fun c us q s => ⟨execFreqQualify_idle, exec_freqQualify⟩, fun p off s => ⟨exec_timebaseLockCheck_off, exec_timebaseLockCheck_follower,
      fun hoff href hsrc => ⟨fun hst => ?_, exec_timebaseLockCheck_present hoff href hsrc⟩⟩,
    fun s => ⟨fun hoff => ⟨exec_tcxoStart_off hoff true, exec_tcxoStart_off hoff false⟩, exec_tcxoStart⟩, fun u l s => ⟨exec_pllLock_idle, exec_pllLock⟩⟩
  · have hexec : exec (.governorTick w) s = execGovernorTick w s := by rfl
    rw [hexec, execGovernorTick, if_pos hoff]
  · obtain ⟨t, hexec, havg, henergy, hmode, hsame, hright⟩ := exec_governorTick w hoff
    refine ⟨t, hexec, havg, henergy, hmode, fun hm => hsame (fun hg => ?_), fun hr => hsame (fun hg => ?_),
      fun hr hm k hk hp _ => hright ⟨hr, hm⟩ k hk hp⟩
    · obtain ⟨-, hg⟩ := hg
      rcases hm with hm | hm | hm <;> simp [hm] at hg
    · simp [hr] at hg
  · by_cases hoff : s.mode = .off
    · refine ⟨fun _ hlow hhigh => ?_, fun _ hout => ?_, fun h => absurd hoff h, fun h => absurd hoff h, fun h => absurd hoff h, fun h => absurd hoff h⟩
      · rw [execInputVoltageEvent_of_off hoff, if_neg (by omega)]
      · rw [execInputVoltageEvent_of_off hoff, if_pos hout]
    · obtain ⟨hout, hsafe, hheld, hback⟩ := exec_inputVoltageEvent (mv := mv) hoff
      exact ⟨fun h => absurd h hoff, fun h => absurd h hoff, fun _ => hout, fun _ => hsafe, fun _ => hheld, fun _ => hback⟩
  · obtain ⟨htb, hlock⟩ := s.holdover_spec
    exact ⟨_, execTimebaseLockCheck_lost hoff href hsrc hst, htb, hlock⟩

end Sys2Proof.Machine
end

section
/-!
SUPPORT. The Foyer's ports (R454), quality levels (R473), PTP (R472), 1PPS and 10 MHz (R474 to R476); and the statement on them.
-/

namespace Sys2Proof.Machine

/-! ### Quality levels (R473) -/

theorem bit_setBit (v k : Nat) (b : Bool) (j : Nat) : bit (setBit v k b) j = if j = k then b else bit v j := by
  cases b with
  | true => exact bit_setBit_true v k j
  | false =>
    by_cases h : bit v k = true
    · exact bit_setBit_false h j
    · rw [setBit, if_neg h, if_neg Bool.false_ne_true]
      split
      · next hj => simpa [hj] using h
      · rfl

/-- R473: the line of a port is usable: it serves, and has no quality level or one that may be used. -/
def State.lineUsable (s : State) (p : Nat) : Bool := s.portServes p && ((kfind p s.foyer.ql).map (fun q => decide (q < 15))).getD true

/-- R473: SYNCE_USABLE. -/
def State.synceValue (s : State) : Nat :=
  (if s.lineUsable 0 then 1 else 0) + (if s.lineUsable 1 then 2 else 0) + kget 0 0 s.foyer.ql % 16 * 256 + kget 0 1 s.foyer.ql % 16 * 4096

theorem State.bit_synceValue (s : State) {p : Nat} (hp : p < 2) : bit s.synceValue p = s.lineUsable p := by
  have hlines : ∀ (a b : Bool) (m n : Nat), bit ((if a then 1 else 0) + (if b then 2 else 0) + m * 256 + n * 4096) 0 = a ∧
      bit ((if a then 1 else 0) + (if b then 2 else 0) + m * 256 + n * 4096) 1 = b := fun a b m n => by
    cases a <;> cases b <;> simp [bit] <;> omega
  obtain ⟨h0, h1⟩ := hlines (s.lineUsable 0) (s.lineUsable 1) (kget 0 0 s.foyer.ql % 16) (kget 0 1 s.foyer.ql % 16)
  match p, hp with
  | 0, _ => exact h0
  | 1, _ => exact h1

theorem ClockFrame.ite {s t u : State} {c : Prop} [Decidable c] (ht : ClockFrame s t) (hu : ClockFrame s u) : ClockFrame s (if c then t else u) := by
  split <;> assumption

/-- R473: beyond SYNCE_USABLE, the quality levels reach the clocks alone. -/
theorem State.synce_clockFrame (s : State) : ClockFrame (s.odPut Od.synceUsable s.synceValue) s.synce := by
  have hfirst : ClockFrame (s.odPut Od.synceUsable s.synceValue)
      (if s.lineUsable 0 then s.odPut Od.synceUsable s.synceValue else (s.odPut Od.synceUsable s.synceValue).freqUnusable 1) :=
    .ite (.refl _) (State.freqUnusable_clockFrame _ 1)
  exact hfirst.step (.ite (.refl _) (State.freqUnusable_clockFrame _ 2))

theorem State.bit_synceUsable (s : State) {p : Nat} (hp : p < 2) : bit (s.synce.odGet Od.synceUsable) p = s.lineUsable p := by
  rw [s.synce_clockFrame.od.same _ (by decide), State.odGet_odPut_self, s.bit_synceValue hp]

theorem State.synce_foyer (s : State) : s.synce.foyer = s.foyer := s.synce_clockFrame.foyer

theorem State.synce_portUp (s : State) (p : Nat) : s.synce.portUp p = s.portUp p := by
  have h : s.synce.odGet Od.portLinks = s.odGet Od.portLinks := by
    rw [s.synce_clockFrame.od.same _ (by decide), State.odGet_odPut_ne _ (by decide)]
  simp only [State.portUp, h]

/-- R473: a quality level of a port. -/
def State.withQl (s : State) (p q : Nat) (ats : KMap Nat) : State := { s with foyer := { s.foyer with ql := kput p q s.foyer.ql, esmcAt := ats } }

theorem State.lineUsable_withQl (s : State) (p q : Nat) (ats : KMap Nat) : (s.withQl p q ats).lineUsable p = (s.portServes p && decide (q < 15)) := by
  have hserves : (s.withQl p q ats).portServes p = s.portServes p := rfl
  have hql : kfind p (s.withQl p q ats).foyer.ql = some q := kfind_kput_self ..
  rw [State.lineUsable, hserves, hql]
  rfl

theorem exec_esmcPdu {p q : Nat} {s : State} (hp : p < 2) (hf : s.foyerRuns = true) (hs : s.portServes p = true) :
    ∃ t : State, exec (.esmcPdu p q) s = .next t ∧ kfind p t.foyer.ql = some (q % 16) ∧ kfind p t.foyer.esmcAt = some s.epoch ∧
      bit (t.odGet Od.synceUsable) p = decide (q % 16 < 15) := by
  have hexec : exec (.esmcPdu p q) s = .next (s.withQl p (q % 16) (kput p s.epoch s.foyer.esmcAt)).synce := by
    have he : exec (.esmcPdu p q) s = execEsmcPdu p q s := by rfl
    rw [he, execEsmcPdu, if_neg (by simp [opticalOk, hp]), if_neg (by simp [hf, hs])]
    rfl
  refine ⟨_, hexec, ?_, ?_, ?_⟩
  · rw [State.synce_foyer]
    exact kfind_kput_self ..
  · rw [State.synce_foyer]
    exact kfind_kput_self ..
  · rw [State.bit_synceUsable _ hp, State.lineUsable_withQl, hs, Bool.true_and]

theorem exec_esmcPdu_idle {p q : Nat} {s : State} (hp : p < 2) (h : s.foyerRuns = false ∨ s.portServes p = false) : exec (.esmcPdu p q) s = .next s := by
  have he : exec (.esmcPdu p q) s = execEsmcPdu p q s := by rfl
  rw [he, execEsmcPdu, if_neg (by simp [opticalOk, hp]), if_pos (by rcases h with h | h <;> simp [h])]

theorem exec_esmcTimeout_idle {p : Nat} {s : State} (hp : p < 2) (h : kfind p s.foyer.ql = none) : exec (.esmcTimeout p) s = .next s := by
  have he : exec (.esmcTimeout p) s = execEsmcTimeout p s := by rfl
  rw [he, execEsmcTimeout, if_neg (by simp [opticalOk, hp]), h]

theorem exec_esmcTimeout {p x : Nat} {s : State} (hp : p < 2) (h : kfind p s.foyer.ql = some x) :
    ∃ t : State, exec (.esmcTimeout p) s = .next t ∧ bit (t.odGet Od.synceUsable) p = false := by
  have hexec : exec (.esmcTimeout p) s = .next (s.withQl p (16 + x % 16) (kdel p s.foyer.esmcAt)).synce := by
    have he : exec (.esmcTimeout p) s = execEsmcTimeout p s := by rfl
    rw [he, execEsmcTimeout, if_neg (by simp [opticalOk, hp]), h]
    rfl
  refine ⟨_, hexec, ?_⟩
  rw [State.bit_synceUsable _ hp, State.lineUsable_withQl, decide_eq_false (by omega), Bool.and_false]

/-! ### Ports (R454) -/

theorem State.portUp_of_links {s t : State} {p : Nat} (hp : p < 3) {up : Bool} (h : t.odGet Od.portLinks = setBit (s.odGet Od.portLinks) p up) :
    t.portUp p = up ∧ ∀ q, q ≠ p → t.portUp q = s.portUp q := by
  refine ⟨?_, fun q hq => ?_⟩
  · rw [State.portUp, h, bit_setBit, if_pos rfl, decide_eq_true hp, Bool.true_and]
  · rw [State.portUp, h, bit_setBit, if_neg hq]
    rfl

theorem exec_portLinkChange_idle {p : Nat} {up : Bool} {s : State} (hp : p < 3)
    (h : s.mode = .off ∨ s.portTested p = true ∨ (up = true ∧ p < 2 ∧ p ∉ s.foyer.sfp)) : exec (.portLinkChange p up) s = .next s := by
  have he : exec (.portLinkChange p up) s = execPortLinkChange p up s := by rfl
  rw [he, execPortLinkChange, if_neg (by simp [portOk, hp]), if_pos (by simpa using h)]

/-- R454: a port's link comes or goes. -/
theorem exec_portLinkChange {p : Nat} {up : Bool} {s : State} (hp : p < 3) (hoff : s.mode ≠ .off) (ht : s.portTested p = false)
    (hsfp : ¬ (up = true ∧ p < 2 ∧ p ∉ s.foyer.sfp)) :
    ∃ t : State, exec (.portLinkChange p up) s = .next t ∧ t.portUp p = up ∧ (∀ q, q ≠ p → t.portUp q = s.portUp q) ∧ t.foyer = s.foyer := by
  have he : exec (.portLinkChange p up) s = execPortLinkChange p up s := by rfl
  rw [he, execPortLinkChange, if_neg (by simp [portOk, hp]), if_neg (by simpa [hoff, ht] using hsfp)]
  extract_lets was u v
  have hlinks : u.odGet Od.portLinks = setBit (s.odGet Od.portLinks) p up := s.odGet_odPut_self _ _
  have hv : v.odGet Od.portLinks = setBit (s.odGet Od.portLinks) p up ∧ v.foyer = s.foyer := by
    unfold v
    split
    · exact ⟨((u.logEv_odFrame _ 0).same _ (by decide)).trans hlinks, (u.logEv_frame _ 0).foyer⟩
    · exact ⟨hlinks, rfl⟩
  obtain ⟨hself, hne⟩ := State.portUp_of_links hp hv.1
  exact ⟨_, rfl, (v.synce_portUp p).trans hself, fun q hq => (v.synce_portUp q).trans (hne q hq), v.synce_foyer.trans hv.2⟩

theorem exec_sfpInserted_off {p mw : Nat} {sr : Bool} {s : State} (hp : p < 2) (hoff : s.mode = .off) : exec (.sfpInserted p sr mw) s = .next s := by
  have he : exec (.sfpInserted p sr mw) s = execSfpInserted p sr mw s := by rfl
  rw [he, execSfpInserted, if_neg (by simp [opticalOk, hp]), if_pos hoff]

theorem exec_sfpInserted_taken {p mw : Nat} {sr : Bool} {s : State} (hp : p < 2) (hoff : s.mode ≠ .off) (hsr : sr = true) (hmw : mw ≤ 1500) :
    ∃ t : State, exec (.sfpInserted p sr mw) s = .next t ∧ p ∈ t.foyer.sfp ∧ t = { s with foyer := t.foyer } := by
  have he : exec (.sfpInserted p sr mw) s = execSfpInserted p sr mw s := by rfl
  rw [he, execSfpInserted, if_neg (by simp [opticalOk, hp]), if_neg hoff]
  simp only [hsr, hmw, decide_true, Bool.and_true, if_true]
  refine ⟨_, rfl, ?_, rfl⟩
  split
  · next h => simp [h]
  · simp

theorem exec_sfpInserted_refused {p mw : Nat} {sr : Bool} {s : State} (hp : p < 2) (hoff : s.mode ≠ .off) (h : sr = false ∨ 1500 < mw) :
    ∃ t : State, exec (.sfpInserted p sr mw) s = .next t ∧ p ∉ t.foyer.sfp ∧ t.portUp p = false := by
  have he : exec (.sfpInserted p sr mw) s = execSfpInserted p sr mw s := by rfl
  rw [he, execSfpInserted, if_neg (by simp [opticalOk, hp]), if_neg hoff, if_neg (by rcases h with h | h <;> simp [h])]
  extract_lets _ u
  have hlinks : u.odGet Od.portLinks = setBit (s.odGet Od.portLinks) p false := State.odGet_odPut_self _ _ _
  have hlog := (u.logEv_odFrame { code := 0x6002, unit := p } 0).same _ (show Od.portLinks ∉ logEntries by decide)
  refine ⟨_, rfl, ?_, ?_⟩
  · rw [State.synce_foyer, (u.logEv_frame { code := 0x6002, unit := p } 0).foyer]
    have hrest : p ∉ s.foyer.sfp.filter (· ≠ p) := by simp
    exact hrest
  · rw [State.synce_portUp]
    exact (State.portUp_of_links (Nat.lt_succ_of_lt hp) (hlog.trans hlinks)).1

/-- R454: an echo is answered, ten in a second. -/
theorem exec_icmpEcho {p : Nat} {b : Bytes} {s : State} (hp : p < 3) (hf : s.foyerRuns = true) (hs : s.portServes p = true)
    (h : (kget (0, 0) p s.foyer.icmp).1 ≠ s.epoch / oneSec ∨ (kget (0, 0) p s.foyer.icmp).2 < 10) :
    ∃ t : State, exec (.icmpEcho p b) s = .next t ∧ t.out = s.out ++ [.icmp p b] ∧ t = { s with foyer := t.foyer, out := t.out } := by
  have he : exec (.icmpEcho p b) s = execIcmpEcho p b s := by rfl
  have hn : ¬ 10 ≤ (if (kget (0, 0) p s.foyer.icmp).1 = s.epoch / oneSec then (kget (0, 0) p s.foyer.icmp).2 else 0) := by
    split
    · next hsec => exact Nat.not_le.2 (h.resolve_left (not_not_intro hsec))
    · decide
  rw [he, execIcmpEcho, if_neg (by simp [portOk, hp]), if_neg (by simp [hf, hs])]
  simp only [if_neg hn]
  exact ⟨_, rfl, rfl, rfl⟩

theorem exec_icmpEcho_idle {p : Nat} {b : Bytes} {s : State} (hp : p < 3)
    (h : s.foyerRuns = false ∨ s.portServes p = false ∨ ((kget (0, 0) p s.foyer.icmp).1 = s.epoch / oneSec ∧ 10 ≤ (kget (0, 0) p s.foyer.icmp).2)) :
    exec (.icmpEcho p b) s = .next s := by
  have he : exec (.icmpEcho p b) s = execIcmpEcho p b s := by rfl
  rw [he, execIcmpEcho, if_neg (by simp [portOk, hp])]
  rcases h with h | h | ⟨hsec, h⟩
  · rw [if_pos (by simp [h])]
  · rw [if_pos (by simp [h])]
  · split
    · rfl
    · simp only [hsec, if_true, if_pos h]

/-! ### PTP (R472) -/

/-- R472: a message on the slave clock's port, transport and domain. -/
structure PtpServed (s : State) (p tr dom : Nat) : Prop where
  runs : s.foyerRuns = true
  serves : s.portServes p = true
  port : p = bits (s.fval Od.ptpPort) 3 0
  transport : tr = bits (s.fval Od.ptpPort) 7 4
  domain : dom = s.fval Od.ptpDomain

theorem exec_ptpMessage_idle {p tr dom ty : Nat} {off : Int} {s : State}
    (h : s.foyerRuns = false ∨ s.odGet Od.ptpState = 0 ∨ s.portServes p = false ∨ p ≠ bits (s.fval Od.ptpPort) 3 0 ∨ tr ≠ bits (s.fval Od.ptpPort) 7 4 ∨
      dom ≠ s.fval Od.ptpDomain) : exec (.ptpMessage p tr dom ty off) s = .next s := by
  have he : exec (.ptpMessage p tr dom ty off) s = execPtpMessage p tr dom ty off s := by rfl
  rw [he, execPtpMessage, if_pos (by simpa [or_assoc] using h)]

theorem PtpServed.exec {p tr dom ty : Nat} {off : Int} {s : State} (h : PtpServed s p tr dom) (hst : s.odGet Od.ptpState ≠ 0) :
    exec (.ptpMessage p tr dom ty off) s =
      if ty = 0xB then .next (if s.odGet Od.ptpState = 1 ∨ s.odGet Od.ptpState = 4 then
        ({ s with foyer := { s.foyer with announceAt := s.epoch } } : State).setPtp 2 else { s with foyer := { s.foyer with announceAt := s.epoch } })
      else if ty = 0 ∧ (s.odGet Od.ptpState = 2 ∨ s.odGet Od.ptpState = 3) then
        if s.foyer.askedAt ≠ 0 ∧ s.epoch < s.foyer.askedAt + 62500000 then .next s
        else .next (({ s with foyer := { s.foyer with askedAt := s.epoch } } : State).emit (.ptp p 1))
      else if ty = 9 ∧ (s.odGet Od.ptpState = 2 ∨ s.odGet Od.ptpState = 3) then .next ((s.odPut Od.ptpOffsetNs (ofInt 32 off)).setPtp 3)
      else .next s := by
  obtain ⟨hf, hs, hp, ht, hd⟩ := h
  have he : Machine.exec (.ptpMessage p tr dom ty off) s = execPtpMessage p tr dom ty off s := by rfl
  rw [he, execPtpMessage, if_neg (by simp [hf, hs, ← hp, ← ht, ← hd, hst])]

/-- R472: an Announce makes a clock that listens follow. -/
theorem PtpServed.announce {p tr dom : Nat} {off : Int} {s : State} (h : PtpServed s p tr dom)
    (hst : s.odGet Od.ptpState = 1 ∨ s.odGet Od.ptpState = 4) :
    ∃ t : State, Machine.exec (.ptpMessage p tr dom 0xB off) s = .next t ∧ t.odGet Od.ptpState = 2 ∧ t.foyer.announceAt = s.epoch := by
  rw [h.exec (by omega), if_pos rfl, if_pos hst]
  exact ⟨_, rfl, State.setPtp_ptpState _ 2, by rw [State.setPtp_foyer]⟩

/-- R472: an answer locks a clock that follows. -/
theorem PtpServed.answer {p tr dom : Nat} {off : Int} {s : State} (h : PtpServed s p tr dom)
    (hst : s.odGet Od.ptpState = 2 ∨ s.odGet Od.ptpState = 3) :
    ∃ t : State, Machine.exec (.ptpMessage p tr dom 9 off) s = .next t ∧ t.odGet Od.ptpState = 3 ∧ t.odGet Od.ptpOffsetNs = ofInt 32 off := by
  rw [h.exec (by omega), if_neg (by decide), if_neg (by omega), if_pos ⟨rfl, hst⟩]
  exact ⟨_, rfl, State.setPtp_ptpState _ 3, (State.setPtp_odGet _ 3 (by decide)).trans (s.odGet_odPut_self _ _)⟩

/-- R472: a Sync is asked about, at most every 62.5 ms. -/
theorem PtpServed.sync {p tr dom : Nat} {off : Int} {s : State} (h : PtpServed s p tr dom)
    (hst : s.odGet Od.ptpState = 2 ∨ s.odGet Od.ptpState = 3) (hat : s.foyer.askedAt + 62500000 ≤ s.epoch) :
    ∃ t : State, Machine.exec (.ptpMessage p tr dom 0 off) s = .next t ∧ t.out = s.out ++ [.ptp p 1] := by
  rw [h.exec (by omega), if_neg (by decide), if_pos ⟨rfl, hst⟩, if_neg (by omega)]
  exact ⟨_, rfl, rfl⟩

theorem exec_ptpLost_idle {s : State} (h : s.foyerRuns = false ∨ s.odGet Od.ptpState = 0 ∨ s.odGet Od.ptpState = 4) : exec .ptpLost s = .next s := by
  have he : exec .ptpLost s = execPtpLost s := by rfl
  rw [he, execPtpLost, if_pos (by simpa [or_assoc] using h)]

theorem exec_ptpLost {s : State} (hf : s.foyerRuns = true) (hst : s.odGet Od.ptpState ≠ 0) :
    ∃ t : State, exec .ptpLost s = .next t ∧ t.odGet Od.ptpState = 4 := by
  by_cases h4 : s.odGet Od.ptpState = 4
  · exact ⟨s, exec_ptpLost_idle (.inr (.inr h4)), h4⟩
  · have he : exec .ptpLost s = execPtpLost s := by rfl
    rw [he, execPtpLost, if_neg (by simp [hf, hst, h4])]
    exact ⟨_, rfl, State.setPtp_ptpState _ 4⟩

end Sys2Proof.Machine
end

section
/-!
SUPPORT. 1PPS and 10 MHz (R474 to R476); and the statement on the ports and the time inputs.
-/

namespace Sys2Proof.Machine

/-! ### 1PPS (R474, R476) -/

theorem exec_ppsEdge_idle {time : Nat} {s : State} (h : s.foyerRuns = false) :
    exec (.ppsEdge time) s = .next s ∧ exec (.ppsWindowEnd time) s = .next s := by
  have hedge : exec (.ppsEdge time) s = execPpsEdge time s := by rfl
  have hend : exec (.ppsWindowEnd time) s = execPpsWindowEnd time s := by rfl
  rw [hedge, hend, execPpsEdge, execPpsWindowEnd, if_pos (by simp [h]), if_pos (by simp [h])]
  exact ⟨rfl, rfl⟩

/-- R474: with no window open an edge opens one. -/
theorem exec_ppsEdge_opens {time : Nat} {s : State} (hf : s.foyerRuns = true) (hw : s.foyer.ppsWindow = none) :
    ∃ t : State, exec (.ppsEdge time) s = .next t ∧ t.foyer.ppsWindow = some (time + oneSec) ∧ t.foyer.ppsEdges = [] := by
  have he : exec (.ppsEdge time) s = execPpsEdge time s := by rfl
  rw [he, execPpsEdge, if_neg (by simp [hf]), hw]
  refine ⟨_, rfl, ?_⟩
  split <;> exact ⟨rfl, rfl⟩

theorem execPpsEdge_open {time c : Nat} {s : State} (hf : s.foyerRuns = true) (hw : s.foyer.ppsWindow = some c) :
    exec (.ppsEdge time) s = if c ≤ time + oneMs ∧ time ≤ c + oneMs then .next { s with foyer := { s.foyer with ppsEdges := s.foyer.ppsEdges ++ [time] } }
      else .next (s.count Od.ppsEdgesIgnored 1) := by
  have he : exec (.ppsEdge time) s = execPpsEdge time s := by rfl
  rw [he, execPpsEdge, if_neg (by simp [hf]), hw]

/-- R474: a window with one edge is valid. -/
theorem exec_ppsWindowEnd_valid {time c e : Nat} {s : State} (hf : s.foyerRuns = true) (hw : s.foyer.ppsWindow = some c) (he : s.foyer.ppsEdges = [e]) :
    ∃ t : State, exec (.ppsWindowEnd time) s = .next t ∧ t.odGet Od.ppsInState = 2 ∧
      t.foyer.ppsEdges = [] ∧ t.foyer.ppsWindow = some (s.nextWindow e) ∧
      t.odGet Od.ppsInOffsetNs = ofInt 32 (if 2 * (e % oneSec) < oneSec then ((e % oneSec : Nat) : Int) else ((e % oneSec : Nat) : Int) - oneSec) := by
  have hexec : exec (.ppsWindowEnd time) s = .next (s.ppsValid e) := by
    have hx : exec (.ppsWindowEnd time) s = execPpsWindowEnd time s := by rfl
    rw [hx, execPpsWindowEnd, if_neg (by simp [hf]), hw, he]
  refine ⟨_, hexec, ?_, rfl, rfl, State.odGet_odPut_self _ _ _⟩
  rw [State.ppsValid, State.odGet_odPut_ne _ (by decide), State.odGet_odPut_self]

/-- R474: without a valid edge for two seconds the input is lost. -/
theorem exec_ppsWindowEnd_lost {time : Nat} {s : State} (hf : s.foyerRuns = true) (he : s.foyer.ppsEdges = []) (hst : s.odGet Od.ppsInState = 2)
    (hat : s.foyer.ppsValidAt + 2 * oneSec ≤ time) : ∃ t : State, exec (.ppsWindowEnd time) s = .next t ∧ t.odGet Od.ppsInState = 3 := by
  have hx : exec (.ppsWindowEnd time) s = execPpsWindowEnd time s := by rfl
  have hlost : ∀ u : State, (((u.odPut Od.ppsInState 3).logEv { code := 0x6030 }).sourceLost true).odGet Od.ppsInState = 3 := fun u => by
    rw [(State.sourceLost_clockFrame _ true).od.same _ (by decide), (State.logEv_odFrame _ _ 0).same _ (by decide), State.odGet_odPut_self]
  rw [hx, execPpsWindowEnd, if_neg (by simp [hf]), he]
  split
  · next heq => cases heq
  · rw [if_pos ⟨.inr hst, hat⟩]
    exact ⟨_, rfl, hlost _⟩

theorem exec_ppsOutPulse_idle {s : State} (h : s.foyerRuns = false ∨ s.foyer.timeSet = none) : exec .ppsOutPulse s = .next s := by
  have he : exec .ppsOutPulse s = execPpsOutPulse s := by rfl
  rw [he, execPpsOutPulse]
  split
  · rfl
  · next heq => rw [if_pos (by simpa [heq] using h)]

theorem exec_ppsOutPulse {a st : Nat} {s : State} (hf : s.foyerRuns = true) (ht : s.foyer.timeSet = some (a, st)) :
    exec .ppsOutPulse s = .next (if s.fval Od.ppsOutEnable ≠ 0 ∧ (st = 2 ∨ st = 3) then
        ({ s with foyer := { s.foyer with timeSet := none } } : State).emit .pps else { s with foyer := { s.foyer with timeSet := none } }) := by
  have he : exec .ppsOutPulse s = execPpsOutPulse s := by rfl
  rw [he, execPpsOutPulse, ht]
  simp only [hf, Bool.not_true, Bool.false_eq_true, if_false]

/-! ### 10 MHz (R475) -/

/-- R475: a measurement that is good, or not, has been counted. -/
def State.ref10Counted (s : State) (n : Nat) : State := { s with foyer := { s.foyer with ref10Good := n } }

theorem exec_ref10Measure_idle {ppb : Int} {miss : Bool} {s : State} (h : s.foyerRuns = false) : exec (.ref10Measure ppb miss) s = .next s := by
  have he : exec (.ref10Measure ppb miss) s = execRef10Measure ppb miss s := by rfl
  rw [he, execRef10Measure, if_pos (by simp [h])]

/-- R475: a measurement within 10 ppm. -/
theorem exec_ref10Measure_good {ppb : Int} {miss : Bool} {s : State} (hf : s.foyerRuns = true) (hp : ppb.natAbs ≤ 10000) (hm : miss = false) :
    exec (.ref10Measure ppb miss) s = .next (if s.odGet Od.ref10State = 0 ∨ (s.odGet Od.ref10State = 2 ∧ 100 ≤ s.foyer.ref10Good + 1) then
      (s.ref10Counted (s.foyer.ref10Good + 1)).odPut Od.ref10State 1 else s.ref10Counted (s.foyer.ref10Good + 1)) := by
  have he : exec (.ref10Measure ppb miss) s = execRef10Measure ppb miss s := by rfl
  rw [he, execRef10Measure, if_neg (by simp [hf])]
  simp only [hp, hm, decide_true, Bool.not_false, Bool.and_true, if_true]
  rfl

/-- R475: a measurement that is missing, or beyond 10 ppm, loses a reference that was valid. -/
theorem exec_ref10Measure_bad {ppb : Int} {miss : Bool} {s : State} (hf : s.foyerRuns = true) (hbad : 10000 < ppb.natAbs ∨ miss = true)
    (hst : s.odGet Od.ref10State = 1) :
    exec (.ref10Measure ppb miss) s = .next ((((s.ref10Counted 0).odPut Od.ref10State 2).logEv { code := 0x6031 }).freqUnusable 3) := by
  have he : exec (.ref10Measure ppb miss) s = execRef10Measure ppb miss s := by rfl
  have hgood : (decide (ppb.natAbs ≤ 10000) && !miss) = false := by
    rcases hbad with h | h <;> simp [h]
  rw [he, execRef10Measure, if_neg (by simp [hf])]
  simp only [hgood, Bool.false_eq_true, if_false, hst, if_true]
  rfl

theorem State.odGet_ref10Counted (s : State) (n k : Nat) : (s.ref10Counted n).odGet k = s.odGet k := rfl

/-! ### The statement -/

/-- Settles O51: each event of a port or a time input by its own rule. -/
theorem portsAndTimeInputs : Obligations.PortsAndTimeInputs := by
  refine ⟨fun p up s hp => ⟨exec_portLinkChange_idle hp, exec_portLinkChange hp⟩,
    fun p mw sr s hp => ⟨exec_sfpInserted_off hp, exec_sfpInserted_taken hp, exec_sfpInserted_refused hp⟩,
    fun p b s hp => ⟨exec_icmpEcho hp, exec_icmpEcho_idle hp⟩,
    fun p q s hp => ⟨exec_esmcPdu hp, exec_esmcPdu_idle hp, exec_esmcTimeout_idle hp, fun x => exec_esmcTimeout hp⟩,
    fun p tr dom ty off s => ⟨exec_ptpMessage_idle, fun hf hs hp ht hd => ?_⟩, fun s => ⟨exec_ptpLost_idle, exec_ptpLost⟩,
    fun time s => ⟨exec_ppsEdge_idle, fun hf => ⟨exec_ppsEdge_opens hf, fun c hc hlow hhigh => ?_, fun c hc hout => ?_,
      fun c e => exec_ppsWindowEnd_valid hf, exec_ppsWindowEnd_lost hf⟩⟩,
    fun ppb miss s => ⟨exec_ref10Measure_idle, fun hf => ⟨fun hp hm hst => ?_, fun hp hm hst => ?_, fun hbad hst => ?_⟩⟩,
    fun s => ⟨exec_ppsOutPulse_idle, fun a st => exec_ppsOutPulse⟩⟩
  · have h : PtpServed s p tr dom := ⟨hf, hs, hp, ht, hd⟩
    exact ⟨h.announce, fun hst => ⟨h.answer hst, h.sync hst⟩⟩
  · rw [execPpsEdge_open hf hc, if_pos ⟨hlow, hhigh⟩]
    exact ⟨_, rfl, rfl, rfl⟩
  · rw [execPpsEdge_open hf hc, if_neg hout]
  · rw [exec_ref10Measure_good hf hp hm, if_pos (.inl hst)]
    exact ⟨_, rfl, State.odGet_odPut_self _ _ _⟩
  · rw [exec_ref10Measure_good hf hp hm]
    refine ⟨_, rfl, ?_⟩
    by_cases hn : 99 ≤ s.foyer.ref10Good
    · rw [if_pos (.inr ⟨hst, by omega⟩), if_pos hn, State.odGet_odPut_self]
    · rw [if_neg (by omega), if_neg hn, State.odGet_ref10Counted, hst]
  · have hframe := State.freqUnusable_clockFrame (((s.ref10Counted 0).odPut Od.ref10State 2).logEv { code := 0x6031 }) 3
    refine ⟨_, exec_ref10Measure_bad hf hbad hst, ?_, ?_⟩
    · rw [hframe.od.same _ (by decide), (State.logEv_odFrame _ _ 0).same _ (by decide), State.odGet_odPut_self]
    · rw [hframe.foyer, (State.logEv_frame _ _ 0).foyer]
      rfl

end Sys2Proof.Machine
end

section
/-!
SUPPORT. Tests (R543 to R552): their starts as writes, their ends, and a partner's test; and the statement on them.
-/

namespace Sys2Proof.Machine

/-! ### A write that came through a port (R36, R571) -/

/-- R36, R571: a write that reaches its scalar entry through a port is answered as the entry's own rules say. -/
theorem State.entryAccess_of_scalar_port {s : State} {w : OdW} {via : Via} {k : Nat} (h : ReachesScalar s w via k) (hk : k % 256 ≠ 0)
    (hx : k ≠ Od.xlateInvalidate) (port : Nat) :
    s.entryAccess 1 w port k .plain =
      (s.writeScalar via port k (leNat w.value)).2.emit (.od (.via w.via) (s.writeScalar via port k (leNat w.value)).1
        ((s.writeScalar via port k (leNat w.value)).2.odGet Od.odWriteSeq) []) := by
  obtain ⟨⟨hoff, hrestart, hrec, htarget, hmay, row, hrow, hw, hrws⟩, hsize, _⟩ := h
  have hsize' : row.ty.size = some w.value.length := by simpa [State.entryRow_of_sub hk hrow] using hsize
  unfold State.entryAccess
  rw [if_neg (by simp [hoff, hrestart])]
  obtain ⟨level, ⟨ht, rfl⟩ | ⟨ht, rfl, horigin⟩⟩ := htarget
  · rw [State.perform_of_here ht, State.access_of_write rfl hrec, State.accessWrite_of_passed hrow hw hmay hrws hsize',
      answerTo_of_prompt (State.answerLate_of_key hx _ _)]
    rfl
  · have ho : s.originMay ⟨w.via, port, .via w.via, 1, w.path, k, w.value, .plain, segmentMax w.via, level⟩ = true := horigin
    simp only [State.perform, ht, ho, if_true, Bool.not_true, Bool.false_eq_true, if_false]
    rw [State.access_of_write rfl hrec, State.accessWrite_of_passed hrow hw hmay hrws hsize', answerTo_of_prompt (State.answerLate_of_key hx _ _)]
    rfl

section
variable {s r : State} {w : OdW} {via : Via} {k port : Nat} {c : Instr} (h : ReachesScalar s w via k)
  (hc : exec c s = .next (s.entryAccess 1 w port k .plain)) (hk : k % 256 ≠ 0) (hx : k ≠ Od.xlateInvalidate)
include h hc hk hx

theorem ReachesScalar.commits_port (hf : k ∉ foyerEntries) (hr : s.applyScalar via port k (writtenValue k (leNat w.value)) = (0, r)) :
    Commits s c w.via r := by
  rw [Commits, hc, State.entryAccess_of_scalar_port h hk hx, State.writeScalar_of_taken h.2.2 hr hf]

theorem ReachesScalar.denied_port {code : Nat} (hne : code ≠ 0) (hr : s.applyScalar via port k (writtenValue k (leNat w.value)) = (code, s)) :
    Denied s c w.via code := by
  rw [Denied, hc, State.entryAccess_of_scalar_port h hk hx, State.writeScalar_of_refused h.2.2 hr hne]

end

/-! ### Whether a test may start (R543) -/

theorem State.mayTest_of_elsewhere {s : State} (hr : s.mode ≠ .ready) (hs : s.mode ≠ .stopped) : s.mayTest = 0x1103 := if_pos ⟨hr, hs⟩

theorem State.tests_of_mayTest {s : State} (h : s.mayTest = 0) : ¬ (s.mode ≠ .ready ∧ s.mode ≠ .stopped) := by
  intro hm
  rw [State.mayTest, if_pos hm] at h
  cases h

/-! ### TEST_START (R545 to R547) -/

theorem exec_testStart (w : OdW) (port : Nat) (s : State) : exec (.testStart w port) s = .next (s.entryAccess 1 w port Od.testStart .plain) := by rfl

theorem State.applyScalar_testStart (s : State) (via : Via) (port v : Nat) :
    s.applyScalar via port Od.testStart (writtenValue Od.testStart v) = s.testStart v via port := rfl

theorem State.testStart_of_elsewhere {s : State} (hr : s.mode ≠ .ready) (hs : s.mode ≠ .stopped) (v : Nat) (via : Via) (port : Nat) :
    s.testStart v via port = (0x1103, s) := if_pos ⟨hr, hs⟩

theorem State.testStart_of_running {s : State} (hm : s.mode = .ready ∨ s.mode = .stopped) (hrun : s.test.run.isSome = true) (via : Via) (port : Nat) :
    s.testStart 1 via port = (0x1107, s) := by
  have hnot : ¬ (s.mode ≠ .ready ∧ s.mode ≠ .stopped) := by
    rcases hm with hm | hm <;> simp [hm]
  have hmay : s.mayTest = 0x1107 := by rw [State.mayTest, if_neg hnot, if_pos hrun]
  rw [State.testStart, if_neg hnot, if_neg one_ne_zero, if_pos (by rw [hmay]; decide), hmay]

/-- R545: the loop-back test that the entries spell is at work. -/
def State.testBegun (s : State) : State :=
  ({ s with test := { s.test with run := some ⟨1, s.odGet Od.testTarget / 256, s.odGet Od.testTarget % 256, s.odGet Od.testDepth, s.epoch⟩ } } : State).odPut
    Od.testState 1

/-- R545, R546: an arch in a loop-back test carries nothing else. -/
def State.archTested (s : State) (u : Nat) (far : Bool) : State :=
  s.setArch u { s.arch u with state := 5, downAt := s.epoch, loopSent := far, ctl := if far then (s.arch u).ctl ++ [ctlFlit loopReqBody] else (s.arch u).ctl }

/-- R545: a test that nothing refuses, and that does not take the CXL port, begins. -/
theorem State.testStart_begins {s : State} {via : Via} {port : Nat} (hmay : s.mayTest = 0)
    (hok : testOk (s.odGet Od.testTarget / 256) (s.odGet Od.testTarget % 256) (s.odGet Od.testDepth) (s.odGet Od.testPattern) = true)
    (hpath : ownTestPath via port (s.odGet Od.testTarget / 256) (s.odGet Od.testTarget % 256) = false) (hport : s.odGet Od.testTarget / 256 ≠ 3) :
    s.testStart 1 via port = (0, if s.odGet Od.testTarget / 256 = 1 then
      s.testBegun.archTested (s.odGet Od.testTarget % 256) (decide (4 ≤ s.odGet Od.testDepth)) else s.testBegun) := by
  rw [State.testStart, if_neg (State.tests_of_mayTest hmay), if_neg one_ne_zero, if_neg (not_not_intro hmay), if_neg (by simp [hok]),
    if_neg (by simp [hpath])]
  simp only [if_neg hport]
  split <;> rfl

/-- What a test's begin leaves: memory and halls, with the test at work. -/
theorem State.testBegun_spec (s : State) (u : Nat) (far : Bool) :
    (s.testBegun.archTested u far).odGet Od.testState = 1 ∧ s.testBegun.odGet Od.testState = 1 ∧ ((s.testBegun.archTested u far).arch u).state = 5 := by
  have hput : s.testBegun.odGet Od.testState = 1 := State.odGet_odPut_self _ _ _
  exact ⟨hput, hput, by rw [State.archTested, State.arch_setArch_self]⟩

/-! ### MARGIN_START, BIST_START and TEST_ABORT (R544, R549, R552) -/

theorem exec_marginStart (w : OdW) (s : State) : exec (.marginStart w) s = .next (s.entryAccess 1 w 0 Od.marginStart .plain) := by rfl

theorem State.applyScalar_marginStart (s : State) (via : Via) (port v : Nat) :
    s.applyScalar via port Od.marginStart (writtenValue Od.marginStart v) = s.marginStart v := rfl

theorem State.marginStart_of_elsewhere {s : State} (hr : s.mode ≠ .ready) (hs : s.mode ≠ .stopped) (v : Nat) : s.marginStart v = (0x1103, s) := if_pos ⟨hr, hs⟩

/-- R549: a margin is at work. -/
def State.marginBegun (s : State) : State :=
  ({ s with test := { s.test with run := some ⟨2, 0, s.odGet Od.marginTarget, 0, s.epoch⟩ } } : State).odPut Od.marginState 1

theorem State.marginStart_begins {s : State} (hmay : s.mayTest = 0) (hok : s.marginTargetOk (s.odGet Od.marginTarget) = true) :
    s.marginStart 1 = (0, s.marginBegun) := by
  rw [State.marginStart, if_neg (State.tests_of_mayTest hmay), if_neg one_ne_zero, if_neg (not_not_intro hmay), if_neg (by simp [hok])]
  rfl

theorem exec_bistStart (w : OdW) (s : State) : exec (.bistStart w) s = .next (s.entryAccess 1 w 0 Od.bistStart .plain) := by rfl

theorem State.applyScalar_bistStart (s : State) (via : Via) (port v : Nat) :
    s.applyScalar via port Od.bistStart (writtenValue Od.bistStart v) = s.bistStart v := rfl

theorem State.bistStart_of_elsewhere {s : State} (hr : s.mode ≠ .ready) (hs : s.mode ≠ .stopped) (v : Nat) : s.bistStart v = (0x1103, s) := if_pos ⟨hr, hs⟩

/-- R552: a self-test of a unit is at work. -/
def State.bistBegun (s : State) (u : Nat) : State :=
  ({ s with test := { s.test with run := some ⟨3, bits (s.odGet Od.bistSelect) 31 28, u, bits (s.odGet Od.bistSelect) 19 0, s.epoch⟩ } } : State).odPut
    Od.bistState 1

theorem State.bistStart_begins {s : State} (hmay : s.mayTest = 0) (hok : s.bistCheck (s.odGet Od.bistSelect) = 0) :
    ∃ u, s.bistStart 1 = (0, s.bistBegun u) := by
  rw [State.bistStart, if_neg (State.tests_of_mayTest hmay), if_neg one_ne_zero, if_neg (not_not_intro hmay), if_neg (not_not_intro hok)]
  exact ⟨_, rfl⟩

theorem exec_testAbort (w : OdW) (s : State) : exec (.testAbort w) s = .next (s.entryAccess 1 w 0 Od.testAbort .plain) := by rfl

theorem State.applyScalar_testAbort (s : State) (via : Via) (port v : Nat) :
    s.applyScalar via port Od.testAbort (writtenValue Od.testAbort v) = s.testAbort v := rfl

/-! ### The end of a test (R544, R546, R548) -/

theorem State.restoreTested_frame (s : State) (r : TestRun) : (s.restoreTested r).mem = s.mem ∧ (s.restoreTested r).halls = s.halls ∧ (s.restoreTested r).od = s.od := by
  unfold State.restoreTested
  split
  · exact ⟨rfl, rfl, rfl⟩
  · split <;> exact ⟨rfl, rfl, rfl⟩

theorem State.restoreTested_of_other {s : State} {r : TestRun} (h : ¬ (r.kind = 1 ∧ r.iface = 1)) : s.restoreTested r = s := by
  rw [State.restoreTested, if_neg (fun hr => h ⟨hr.1, hr.2.1⟩), if_neg h]

/-- R544: what the end of a test leaves: none runs, its entry shows how it ended, and memory, halls and the other entries are as they were. -/
structure EndsTest (x : TestRun) (code : Nat) (s t : State) : Prop where
  run : t.test.run = none
  result : t.odGet (testStateKey x.kind) = code
  mem : t.mem = s.mem
  halls : t.halls = s.halls
  others : ∀ k, k ≠ testStateKey x.kind → t.odGet k = s.odGet k

theorem State.finishTest_of_run {s : State} {x : TestRun} (h : s.test.run = some x) (code : Nat) :
    s.finishTest code = ({ s.restoreTested x with test := { s.test with run := none } } : State).odPut (testStateKey x.kind) code := by
  rw [State.finishTest, h]

theorem State.finishTest_ends {s : State} {x : TestRun} (h : s.test.run = some x) (code : Nat) : EndsTest x code s (s.finishTest code) := by
  obtain ⟨hmem, hhalls, hod⟩ := s.restoreTested_frame x
  rw [State.finishTest_of_run h]
  refine ⟨rfl, State.odGet_odPut_self _ _ _, hmem, hhalls, fun k hk => (State.odGet_odPut_ne _ hk _).trans ?_⟩
  simp only [State.odGet, hod]

theorem State.finishTest_of_none {s : State} (h : s.test.run = none) (code : Nat) : s.finishTest code = s := by
  rw [State.finishTest, h]

/-- R548: the counts of a test. -/
def State.testCounted (s : State) (n e c : Nat) : State :=
  ((s.odPut Od.testBits (n % 2 ^ 64)).odPut Od.testErrors (e % 2 ^ 64)).odPut Od.testCorrected (c % 2 ^ 64)

theorem State.testCounted_spec (s : State) (n e c : Nat) : (s.testCounted n e c).odGet Od.testBits = n % 2 ^ 64 ∧
    (s.testCounted n e c).odGet Od.testErrors = e % 2 ^ 64 ∧ (s.testCounted n e c).odGet Od.testErrorLimit = s.odGet Od.testErrorLimit := by
  refine ⟨?_, ?_, ?_⟩
  · rw [State.testCounted, State.odGet_odPut_ne _ (by decide), State.odGet_odPut_ne _ (by decide), State.odGet_odPut_self]
  · rw [State.testCounted, State.odGet_odPut_ne _ (by decide), State.odGet_odPut_self]
  · rw [State.testCounted, State.odGet_odPut_ne _ (by decide), State.odGet_odPut_ne _ (by decide), State.odGet_odPut_ne _ (by decide)]

theorem execTestEnd_judged {s : State} {n e c : Nat} {x : TestRun} (hx : s.test.run = some x) (hk : x.kind = 1)
    (hnear : ¬ ((x.iface = 1 ∧ (s.arch x.unit_).loopSent = true) ∨ (x.iface = 3 ∧ x.depth = 4 ∧ n = 0))) :
    exec (.testEnd n e c) s = .next ((s.testCounted n e c).finishTest (if 0 < n ∧ e ≤ s.odGet Od.testErrorLimit then 2 else 3)) := by
  obtain ⟨-, -, hlimit⟩ := s.testCounted_spec n e c
  have he : exec (.testEnd n e c) s = execTestEnd n e c s := by rfl
  rw [he, execTestEnd, hx]
  simp only [hk, ne_eq, not_true_eq_false, if_false, if_neg hnear]
  rw [← hlimit]
  rfl

theorem execTestEnd_unanswered {s : State} {n e c : Nat} {x : TestRun} (hx : s.test.run = some x) (hk : x.kind = 1) (hi : x.iface = 1)
    (hloop : (s.arch x.unit_).loopSent = true) : exec (.testEnd n e c) s = .next (s.finishTest 4) := by
  have he : exec (.testEnd n e c) s = execTestEnd n e c s := by rfl
  rw [he, execTestEnd, hx]
  simp only [hk, ne_eq, not_true_eq_false, if_false]
  rw [if_pos (.inl ⟨hi, hloop⟩)]

/-- R543, R546: an arch that was under test trains again where it is enabled, and is off elsewhere. -/
theorem State.finishTest_arch {s : State} {x : TestRun} (hx : s.test.run = some x) (hk : x.kind = 1) (hi : x.iface = 1) (code : Nat) :
    (bit (s.odGet Od.archEnable) x.unit_ = true → ((s.finishTest code).arch x.unit_).state = 1 ∧ ((s.finishTest code).arch x.unit_).afterTest = true) ∧
    (bit (s.odGet Od.archEnable) x.unit_ = false → ((s.finishTest code).arch x.unit_).state = 0) := by
  have harch : (s.finishTest code).arch x.unit_ = (s.restoreTested x).arch x.unit_ := by
    rw [State.finishTest_of_run hx]
    rfl
  rw [harch]
  refine ⟨fun hb => ?_, fun hb => ?_⟩
  · rw [State.restoreTested, if_neg (by simp [hb]), if_pos ⟨hk, hi⟩, State.arch_setArch_self]
    exact ⟨rfl, rfl⟩
  · rw [State.restoreTested, if_pos ⟨hk, hi, by simp [hb]⟩, State.arch_setArch_self]

/-! ### The end of a margin and of a self-test (R550, R552) -/

/-- R550: a margin's reading is kept, and no byte of memory changes. -/
theorem execMarginEnd_passed {s : State} {l : List LaneMargin} {x : TestRun} (hx : s.test.run = some x) (hk : x.kind = 2) :
    ∃ u : State, exec (.marginEnd l) s = .next (u.finishTest 2) ∧ u.test.run = some x ∧ u.mem.cells = s.mem.cells ∧ u.halls = s.halls := by
  have he : exec (.marginEnd l) s = execMarginEnd l s := by rfl
  rw [he, execMarginEnd, hx]
  simp only [hk, ne_eq, not_true_eq_false, if_false]
  split <;> exact ⟨_, rfl, hx, rfl, rfl⟩

/-- R552: a self-test in which nothing failed. -/
theorem execBistEnd_passed {s : State} {rows : List Nat} {x : TestRun} (hx : s.test.run = some x) (hk : x.kind = 3) (hlow : 1 ≤ x.iface) (hhigh : x.iface ≤ 2) :
    ∃ u : State, exec (.bistEnd 0 rows) s = .next (u.finishTest 2) ∧ u.test.run = some x ∧ u.mem = s.mem ∧ u.halls = s.halls := by
  have he : exec (.bistEnd 0 rows) s = execBistEnd 0 rows s := by rfl
  have hbad : (List.range 20).filter (fun i => bit x.depth i && bit 0 i) = [] := by
    rw [List.filter_eq_nil_iff]
    simp [bit]
  rw [he, execBistEnd, hx]
  simp only [hk, ne_eq, not_true_eq_false, if_false, hbad, List.foldl_nil, if_true]
  by_cases hi : x.iface = 1
  · rw [if_pos hi]
    exact ⟨_, rfl, hx, rfl, rfl⟩
  · rw [if_neg hi, if_pos (by omega)]
    exact ⟨_, rfl, hx, rfl, rfl⟩

/-- R265: a retired row keeps its bytes. -/
theorem State.retireRow_frame (s : State) (a : Nat) : (s.retireRow a).mem.cells = s.mem.cells ∧ (s.retireRow a).test = s.test := by
  have hlog : ∀ (u : State) (ev : LogEv), (u.logEv ev).mem.cells = u.mem.cells ∧ (u.logEv ev).test = u.test := fun u ev =>
    ⟨congrArg MemSt.cells (u.logEv_frame ev 0).mem, (u.logEv_frame ev 0).test⟩
  unfold State.retireRow
  extract_lets r h b
  split
  · split
    · exact hlog _ _
    · split
      · exact ⟨rfl, rfl⟩
      · exact hlog { s with mem := { s.mem with exhausted := s.mem.exhausted ++ [b] } } _
  · split
    · exact ⟨rfl, rfl⟩
    · exact hlog { s with mem := { s.mem with repairs := s.mem.repairs ++ [r] } } _

/-- R254, R552: a stack that has been tested is zero, and no other changes. -/
theorem State.memByte_zeroStack (s : State) (n a : Nat) : (s.zeroStack n).memByte a = if stackOf a = n then memDefault else s.memByte a := by
  have hcells : (s.zeroStack n).memByte a = kget memDefault a (s.mem.cells.filter (fun e => stackOf e.1 != n)) := rfl
  rw [hcells, kget, kfind_filter (fun b => stackOf b != n)]
  by_cases h : stackOf a = n
  · simp [h]
  · simp only [bne_iff_ne, ne_eq, h, not_false_eq_true, if_true, if_false]
    rfl

theorem exec_bistEnd_stack {s : State} {b : Nat} {rows : List Nat} {x : TestRun} (hx : s.test.run = some x) (hk : x.kind = 3) (hi : x.iface = 3) :
    ∃ t : State, exec (.bistEnd b rows) s = .next t ∧ t.test.run = none ∧ (∀ a, stackOf a = x.unit_ → t.memByte a = memDefault) ∧
      (∀ a, stackOf a ≠ x.unit_ → t.memByte a = s.memByte a) := by
  have he : exec (.bistEnd b rows) s = execBistEnd b rows s := by rfl
  rw [he, execBistEnd, hx]
  simp only [hk, hi, ne_eq, not_true_eq_false, if_false, show (3 : Nat) ≠ 1 by decide, show (3 : Nat) ≠ 2 by decide]
  have hrows : ∀ l : List Nat, (l.foldl (fun s a => s.retireRow a) (s.zeroStack x.unit_)).mem.cells = (s.zeroStack x.unit_).mem.cells ∧
      (l.foldl (fun s a => s.retireRow a) (s.zeroStack x.unit_)).test = s.test := fun l =>
    foldl_keeps (fun t : State => t.mem.cells = (s.zeroStack x.unit_).mem.cells ∧ t.test = s.test) _
      (fun t a ht => ⟨(t.retireRow_frame a).1.trans ht.1, (t.retireRow_frame a).2.trans ht.2⟩) l ⟨rfl, rfl⟩
  obtain ⟨hcells, htest⟩ := hrows (rows.filter (fun a => stackOf a == x.unit_))
  have hends := State.finishTest_ends (x := x) ((congrArg TestSt.run htest).trans hx) (if rows.filter (fun a => stackOf a == x.unit_) = [] then 2 else 3)
  have hbyte : ∀ a, (State.finishTest _ _).memByte a = (s.zeroStack x.unit_).memByte a := fun a =>
    congrArg (kget memDefault a) ((congrArg MemSt.cells hends.mem).trans hcells)
  exact ⟨_, rfl, hends.run, fun a ha => (hbyte a).trans (by rw [State.memByte_zeroStack, if_pos ha]),
    fun a ha => (hbyte a).trans (by rw [State.memByte_zeroStack, if_neg ha])⟩

end Sys2Proof.Machine
end

section
/-!
SUPPORT. A partner's test (R545 to R547) and measurement (R510); and the statement on tests.
-/

namespace Sys2Proof.Machine

/-! ### Measurement (R510) -/

theorem exec_measStart (w : OdW) (s : State) : exec (.measStart w) s = .next (s.entryAccess 1 w 0 Od.measStart .plain) := by rfl

theorem State.applyScalar_measStart (s : State) (via : Via) (port v : Nat) :
    s.applyScalar via port Od.measStart (writtenValue Od.measStart v) = s.measStart v := rfl

/-- R510: sources of one side may be measured; one at a time. -/
theorem State.measStart_of_sides {s : State} (hside : measSide (s.odGet Od.measSource) = measSide (s.odGet Od.measGateSource))
    (hgate : ¬ (0x10 ≤ s.odGet Od.measSource ∧ s.odGet Od.measSource ≤ 0x4F ∧ s.odGet Od.measGateSource ≠ 0)) :
    s.measStart 1 = if s.odGet Od.measState = 1 then (0x1107, s) else (0, s.odPut Od.measState 1) := by
  rw [State.measStart, if_neg one_ne_zero, if_neg (not_or.2 ⟨not_not_intro hside, hgate⟩)]

theorem exec_measDone {s : State} {n : Nat} (h : s.odGet Od.measState = 1) :
    ∃ t : State, exec (.measDone n) s = .next t ∧ t.odGet Od.measState = 2 ∧ t.odGet Od.measCount = n % 2 ^ 64 ∧ t = { s with od := t.od } := by
  have he : exec (.measDone n) s = execMeasDone n s := by rfl
  rw [he, execMeasDone, if_pos h]
  exact ⟨_, rfl, by rw [State.odGet_odPut_ne _ (by decide), State.odGet_odPut_self], State.odGet_odPut_self _ _ _, rfl⟩

/-! ### A partner's test (R545 to R547) -/

/-- R546: a partner's test is joined where the module allows it. -/
theorem exec_loopReq {n : Nat} {path : Word64} {key : Bytes} {s : State} (hn : archOk n = true) (hst : (s.arch n).state = 5)
    (hloop : (s.arch n).loopSent = false) (hallow : s.odGet Od.partnerLoopAllow ≠ 0) (hm : s.mode = .ready ∨ s.mode = .stopped) (hrun : s.test.run = none) :
    exec (.loopReq n path key) s =
      .next (s.setArch n { s.arch n with partnerTest := true, loopSent := false, ctl := (s.arch n).ctl ++ [ctlFlit loopAckBody] }) := by
  have he : exec (.loopReq n path key) s = execLoopReq n path key s := by rfl
  have hjoins : s.joins = true := by simp [State.joins, hallow, hm, hrun]
  rw [he, execLoopReq, if_neg (by simp [hn]), if_neg (by rw [hst]; decide), if_neg (by simp [hloop]), State.joinLoop, if_neg (by simp [hjoins])]
  simp only [if_pos hst]

theorem exec_loopAck {n : Nat} {s : State} (hn : archOk n = true) :
    exec (.loopAck n) s = .next (if (s.arch n).loopSent then s.setArch n { s.arch n with loopSent := false } else s) := by
  have he : exec (.loopAck n) s = execLoopAck n s := by rfl
  rw [he, execLoopAck, if_neg (by simp [hn])]

theorem ArchSt.loopSent_of_false {a : ArchSt} (h : a.loopSent = false) : { a with loopSent := false } = a := by rw [← h]

/-- R546: an answer lets the arch's test proceed. -/
theorem State.loopAck_spec (s : State) (n : Nat) :
    (if (s.arch n).loopSent then s.setArch n { s.arch n with loopSent := false } else s).arch n = { s.arch n with loopSent := false } ∧
    ArchOnly n s (if (s.arch n).loopSent then s.setArch n { s.arch n with loopSent := false } else s) := by
  split
  · exact ⟨s.arch_setArch_self n _, s.setArch_archOnly n _⟩
  · next h => exact ⟨(ArchSt.loopSent_of_false (by simpa using h)).symm, .refl n s⟩

theorem exec_echo {n : Nat} {b : Bytes} {s : State} (hn : archOk n = true) :
    exec (.echo n b) s = .next (if (s.arch n).partnerTest then s.setArch n { s.arch n with ctl := (s.arch n).ctl ++ [ctlFlit b] } else s) := by
  have he : exec (.echo n b) s = execEcho n b s := by rfl
  rw [he, execEcho, if_neg (by simp [hn])]

/-! ### The statement -/

/-- R543, R545: the clause on TEST_START. -/
theorem testStart_begins_or_denied {s : State} {w : OdW} {via : Via} (port : Nat) (h : ReachesScalar s w via Od.testStart) (hv : leNat w.value = 1) :
    (s.mode ≠ .ready → s.mode ≠ .stopped → Denied s (.testStart w port) w.via 0x1103) ∧
    ((s.mode = .ready ∨ s.mode = .stopped) → s.test.run.isSome = true → Denied s (.testStart w port) w.via 0x1107) ∧
    (s.mayTest = 0 → testOk (s.odGet Od.testTarget / 256) (s.odGet Od.testTarget % 256) (s.odGet Od.testDepth) (s.odGet Od.testPattern) = true →
      ownTestPath via port (s.odGet Od.testTarget / 256) (s.odGet Od.testTarget % 256) = false → s.odGet Od.testTarget / 256 ≠ 3 →
      ∃ r : State, Commits s (.testStart w port) w.via r ∧ r.odGet Od.testState = 1 ∧ r.mem = s.mem ∧ r.halls = s.halls ∧
        r.test.run = some ⟨1, s.odGet Od.testTarget / 256, s.odGet Od.testTarget % 256, s.odGet Od.testDepth, s.epoch⟩ ∧
        (s.odGet Od.testTarget / 256 = 1 → (r.arch (s.odGet Od.testTarget % 256)).state = 5)) := by
  have happly := s.applyScalar_testStart via port (leNat w.value)
  refine ⟨fun hr hs => ?_, fun hm hrun => ?_, fun hmay hok hpath hport => ?_⟩
  · exact h.denied_port (exec_testStart w port s) (by decide) (by decide) (by decide) (happly.trans (State.testStart_of_elsewhere hr hs _ _ _))
  · rw [hv] at happly
    exact h.denied_port (exec_testStart w port s) (by decide) (by decide) (by decide)
      (by rw [hv]; exact happly.trans (State.testStart_of_running hm hrun via port))
  · rw [hv] at happly
    have hcommits := h.commits_port (exec_testStart w port s) (by decide) (by decide) (by decide)
      (by rw [hv]; exact happly.trans (State.testStart_begins hmay hok hpath hport))
    obtain ⟨hstate, hplain, harch⟩ := s.testBegun_spec (s.odGet Od.testTarget % 256) (decide (4 ≤ s.odGet Od.testDepth))
    by_cases hi : s.odGet Od.testTarget / 256 = 1
    · rw [if_pos hi] at hcommits
      exact ⟨_, hcommits, hstate, rfl, rfl, rfl, fun _ => harch⟩
    · rw [if_neg hi] at hcommits
      exact ⟨_, hcommits, hplain, rfl, rfl, rfl, fun h1 => absurd h1 hi⟩

/-- R544: the clause on TEST_ABORT. -/
theorem testAbort_ends {s : State} {w : OdW} {via : Via} (h : ReachesScalar s w via Od.testAbort) :
    ∃ r : State, Commits s (.testAbort w) w.via r ∧ (leNat w.value = 1 → r.test.run = none) ∧ (s.test.run = none → r = s) ∧
      (∀ x, s.test.run = some x → leNat w.value = 1 → r.odGet (testStateKey x.kind) = 5) := by
  have hcommits := h.commits (exec_testAbort w s) (by decide) (by decide) (by decide) (s.applyScalar_testAbort via 0 (leNat w.value))
  refine ⟨_, hcommits, fun hv => ?_, fun hrun => ?_, fun x hx hv => ?_⟩
  · rw [if_pos hv]
    cases hrun : s.test.run with
    | none => rw [State.finishTest_of_none hrun, hrun]
    | some x => exact (State.finishTest_ends hrun 5).run
  · rw [State.finishTest_of_none hrun, ite_self]
  · rw [if_pos hv]
    exact (State.finishTest_ends hx 5).result

/-- R548: the clause on the end of a test that is judged. -/
theorem testEnd_judges {s : State} {n e c : Nat} {x : TestRun} (hx : s.test.run = some x) (hk : x.kind = 1)
    (hloop : x.iface = 1 → (s.arch x.unit_).loopSent = false) (hdepth : x.iface = 3 → x.depth ≠ 4) :
    ∃ t : State, exec (.testEnd n e c) s = .next t ∧ t.test.run = none ∧ t.odGet Od.testBits = n % 2 ^ 64 ∧ t.odGet Od.testErrors = e % 2 ^ 64 ∧
      t.odGet Od.testState = (if 0 < n ∧ e ≤ s.odGet Od.testErrorLimit then 2 else 3) ∧ t.mem = s.mem ∧ t.halls = s.halls := by
  obtain ⟨hbits, herrors, -⟩ := s.testCounted_spec n e c
  have hexec := execTestEnd_judged (n := n) (e := e) (c := c) hx hk (by
    rintro (⟨hi, hl⟩ | ⟨hi, hd, -⟩)
    · rw [hloop hi] at hl
      cases hl
    · exact hdepth hi hd)
  have hcounted : (s.testCounted n e c).test.run = some x := hx
  obtain ⟨hrun, hresult, hmem, hhalls, hothers⟩ := State.finishTest_ends hcounted (if 0 < n ∧ e ≤ s.odGet Od.testErrorLimit then 2 else 3)
  have hkey : testStateKey x.kind = Od.testState := by rw [hk]; rfl
  rw [hkey] at hresult hothers
  exact ⟨_, hexec, hrun, (hothers _ (by decide)).trans hbits, (hothers _ (by decide)).trans herrors, hresult, hmem, hhalls⟩

/-- Settles O38: each start by the entry's own rules, each end by what the test that ends restores and shows. -/
theorem testsRunAndEnd : Obligations.TestsRunAndEnd := by
  refine ⟨fun s w via port h hv => testStart_begins_or_denied port h hv, fun s w via h hv => ⟨fun hr hs => ?_, fun hmay hok => ?_⟩,
    fun s w via h hv => ⟨fun hr hs => ?_, fun hmay hok => ?_⟩, fun s w via => testAbort_ends, fun s n e c x => testEnd_judges,
    fun s n e c x hx hk hi hloop => ?_, fun s l x hx hk => ?_, fun s b rows x hx hk hhigh hlow hb => ?_, fun s b rows x => exec_bistEnd_stack,
    fun s w via h hv hside hgate => ⟨fun hst => ?_, fun hst => ?_⟩, fun s n => exec_measDone,
    fun n path key s hn hst hloop hallow hm hrun => ?_, fun n s hn => ?_, fun n b s hn => ?_⟩
  · exact h.denied (exec_marginStart w s) (by decide) (by decide) (by decide)
      ((s.applyScalar_marginStart via 0 _).trans (State.marginStart_of_elsewhere hr hs _))
  · have happly := s.applyScalar_marginStart via 0 (leNat w.value)
    rw [hv] at happly
    have hcommits := h.commits (exec_marginStart w s) (by decide) (by decide) (by decide) (by rw [hv]; exact happly.trans (State.marginStart_begins hmay hok))
    exact ⟨_, hcommits, State.odGet_odPut_self _ _ _, rfl, rfl, rfl, rfl⟩
  · exact h.denied (exec_bistStart w s) (by decide) (by decide) (by decide)
      ((s.applyScalar_bistStart via 0 _).trans (State.bistStart_of_elsewhere hr hs _))
  · obtain ⟨u, hbegins⟩ := State.bistStart_begins hmay hok
    have happly := s.applyScalar_bistStart via 0 (leNat w.value)
    rw [hv] at happly
    have hcommits := h.commits (exec_bistStart w s) (by decide) (by decide) (by decide) (by rw [hv]; exact happly.trans hbegins)
    exact ⟨_, hcommits, State.odGet_odPut_self _ _ _, rfl, rfl, rfl⟩
  · obtain ⟨hrun, hresult, -, -, -⟩ := State.finishTest_ends hx 4
    obtain ⟨hon, hoff⟩ := State.finishTest_arch hx hk hi 4
    rw [hk] at hresult
    exact ⟨_, execTestEnd_unanswered hx hk hi hloop, hrun, hresult, hon, hoff⟩
  · obtain ⟨u, hexec, hu, hcells, hhalls⟩ := execMarginEnd_passed (l := l) hx hk
    obtain ⟨hrun, hresult, hmem, hends, -⟩ := State.finishTest_ends hu 2
    rw [hk] at hresult
    exact ⟨_, hexec, hrun, hresult, (congrArg MemSt.cells hmem).trans hcells, hends.trans hhalls⟩
  · subst hb
    obtain ⟨u, hexec, hu, humem, huhalls⟩ := execBistEnd_passed (rows := rows) hx hk hlow hhigh
    obtain ⟨hrun, hresult, hmem, hhalls, -⟩ := State.finishTest_ends hu 2
    rw [hk] at hresult
    exact ⟨_, hexec, hrun, hresult, hmem.trans humem, hhalls.trans huhalls⟩
  · have happly := s.applyScalar_measStart via 0 (leNat w.value)
    rw [hv, State.measStart_of_sides hside hgate, if_pos hst] at happly
    exact h.denied (exec_measStart w s) (by decide) (by decide) (by decide) (by rw [hv]; exact happly)
  · have happly := s.applyScalar_measStart via 0 (leNat w.value)
    rw [hv, State.measStart_of_sides hside hgate, if_neg hst] at happly
    exact h.commits (exec_measStart w s) (by decide) (by decide) (by decide) (by rw [hv]; exact happly)
  · obtain ⟨hother, hbeyond, hod⟩ := s.setArch_archOnly n
      { s.arch n with partnerTest := true, loopSent := false, ctl := (s.arch n).ctl ++ [ctlFlit loopAckBody] }
    exact ⟨_, exec_loopReq hn hst hloop hallow hm hrun, s.arch_setArch_self n _, hother, hbeyond, hod⟩
  · obtain ⟨harch, hother, hbeyond, hod⟩ := s.loopAck_spec n
    exact ⟨_, exec_loopAck hn, harch, hother, hbeyond, hod⟩
  · refine ⟨_, exec_echo hn, ?_⟩
    split
    · obtain ⟨hother, hbeyond, hod⟩ := s.setArch_archOnly n { s.arch n with ctl := (s.arch n).ctl ++ [ctlFlit b] }
      rw [State.arch_setArch_self]
      exact ⟨rfl, rfl, hother, hbeyond, hod⟩
    · obtain ⟨hother, hbeyond, hod⟩ := ArchOnly.refl n s
      exact ⟨rfl, rfl, hother, hbeyond, hod⟩

end Sys2Proof.Machine
end

section
/-!
SUPPORT. Which outcome a command has: its shape as a tree of conditions whose leaves are next states, behind the one refusal that names a missing part; and the
statement that every command of a part that exists runs.
-/

namespace Sys2Proof.Machine

/-! ### Outcomes (R571) -/

/-- A result is a next state where the parts that the command names exist, and the refusal of a missing part elsewhere. -/
def RunsIf (ok : Bool) (r : Result) : Prop := (ok = true → ∃ t, r = .next t) ∧ (ok = false → r = .refused .noSuchUnit)

namespace RunsIf

variable {ok : Bool} {r x y : Result}

theorem next {t : State} : RunsIf true (.next t) := ⟨fun _ => ⟨t, rfl⟩, fun h => Bool.noConfusion h⟩

theorem ite {c : Prop} [Decidable c] (hx : RunsIf ok x) (hy : RunsIf ok y) : RunsIf ok (if c then x else y) := by
  split <;> assumption

/-- A command that refuses exactly where its parts do not exist. -/
theorem refusedWhere {c : Prop} [Decidable c] (hc : c ↔ ok = false) (h : RunsIf true r) : RunsIf ok (if c then .refused .noSuchUnit else r) := by
  cases ok with
  | true =>
    rw [if_neg (fun h => Bool.noConfusion (hc.1 h))]
    exact h
  | false => exact ⟨fun h => Bool.noConfusion h, fun _ => if_pos (hc.2 rfl)⟩

theorem guard (h : RunsIf true r) : RunsIf ok (if !ok then .refused .noSuchUnit else r) := .refusedWhere (by simp) h

/-- A command that names a part and a part of it. -/
theorem guardFirst {a : Bool} (h : RunsIf ok r) : RunsIf (a && ok) (if !a then .refused .noSuchUnit else r) := by
  cases a with
  | true => exact h
  | false => exact ⟨fun h => Bool.noConfusion h, fun _ => rfl⟩

end RunsIf

/-! ### Commands that read what they act on -/

theorem execDomainAborted_runs (via : Via) (index sub : Nat) (s : State) : RunsIf true (execDomainAborted via index sub s) := by
  unfold execDomainAborted
  extract_lets mine
  split <;> exact .next

theorem execPackingDone_runs (model : Nat) (out : PackEnd) (s : State) : RunsIf true (execPackingDone model out s) := by
  unfold execPackingDone
  split
  · exact .next
  · split
    · exact .next
    · refine .ite .next ?_
      split
      · exact .next
      · exact .ite .next <| .ite .next <| .ite .next .next

theorem execTestEnd_runs (n e c : Nat) (s : State) : RunsIf true (execTestEnd n e c s) := by
  unfold execTestEnd
  split
  · exact .next
  · exact .ite .next <| .ite .next .next

theorem execMarginEnd_runs (l : List LaneMargin) (s : State) : RunsIf true (execMarginEnd l s) := by
  unfold execMarginEnd
  split
  · exact .next
  · exact .ite .next <| .ite .next .next

theorem execBistEnd_runs (failed : Nat) (rows : List Nat) (s : State) : RunsIf true (execBistEnd failed rows s) := by
  unfold execBistEnd
  split
  · exact .next
  · exact .ite .next <| .ite .next <| .ite .next .next

theorem execProgramLoad_runs (f : FlightId) (addr len : Nat) (s : State) : RunsIf (flightOk f) (execProgramLoad f addr len s) := by
  unfold execProgramLoad
  refine .guard <| .ite .next ?_
  split <;> exact .next

theorem execFlightOffer_runs (f : FlightId) (s : State) : RunsIf (flightOk f) (execFlightOffer f s) := by
  unfold execFlightOffer
  refine .guard ?_
  extract_lets fk
  split
  · exact .next
  · exact .ite .next <| .ite .next .next

theorem execEndOp_runs (f : FlightId) (s : State) : RunsIf (flightOk f) (execEndOp f s) := by
  unfold execEndOp
  refine .guard ?_
  extract_lets fk
  split
  · exact .next
  · exact .next
  · exact .ite .next .next

theorem execRepeatOp_runs (f : FlightId) (s : State) : RunsIf (flightOk f) (execRepeatOp f s) := by
  unfold execRepeatOp
  refine .guard ?_
  extract_lets fk
  split <;> exact .next

theorem execBarrierTimeout_runs (job bid : Nat) (use : BarrierUse) (s : State) : RunsIf true (execBarrierTimeout job bid use s) := by
  unfold execBarrierTimeout
  split <;> exact .next

theorem execOperationEnd_runs (f : FlightId) (op : Nat) (s : State) : RunsIf (flightOk f) (execOperationEnd f op s) := by
  unfold execOperationEnd
  refine .guard ?_
  extract_lets fk
  split
  · exact .next
  · split
    · exact .next
    · exact .ite .next .next

theorem execPreemptionPoint_runs (f : FlightId) (s : State) : RunsIf (flightOk f) (execPreemptionPoint f s) := by
  unfold execPreemptionPoint
  refine .guard ?_
  extract_lets fk
  split
  · exact .next
  · exact .ite .next <| .ite .next <| .ite .next .next

theorem execBlockRefetchDone_runs (f : FlightId) (block : Nat) (ok : Bool) (s : State) : RunsIf (flightOk f) (execBlockRefetchDone f block ok s) := by
  unfold execBlockRefetchDone
  refine .guard ?_
  extract_lets fk y
  split
  · exact .next
  · split
    · exact .next
    · refine .ite .next ?_
      extract_lets c ti
      split
      · exact .next
      · exact .ite .next <| .ite .next .next

theorem execMoverTake_runs (hall : Nat) (s : State) : RunsIf (hallOk hall) (execMoverTake hall s) := by
  unfold execMoverTake
  refine .guard <| .ite .next ?_
  split <;> exact .next

theorem execMoverAccessDone_runs (id : Nat) (data : Bytes) (errs : MoverErrs) (s : State) : RunsIf true (execMoverAccessDone id data errs s) := by
  unfold execMoverAccessDone
  split <;> exact .next

theorem execPageTimeout_runs (tenant page : Nat) (s : State) : RunsIf (tenantOk tenant) (execPageTimeout tenant page s) := by
  unfold execPageTimeout
  refine .guard ?_
  split <;> exact .next

theorem execCoalesceExpiry_runs (vector : Nat) (s : State) : RunsIf (vectorOk vector) (execCoalesceExpiry vector s) := by
  unfold execCoalesceExpiry
  refine .guard ?_
  split <;> exact .next

theorem execParkDone_runs (stream mezz : Nat) (s : State) : RunsIf true (execParkDone stream mezz s) := by
  unfold execParkDone
  split
  · exact .next
  · exact .ite .next .next

theorem execRestoreDone_runs (stream : Nat) (s : State) : RunsIf true (execRestoreDone stream s) := by
  unfold execRestoreDone
  split
  · exact .next
  · split
    · exact .next
    · refine .ite .next ?_
      extract_lets draft
      split <;> exact .next

theorem execExpertProgramStart_runs (f : FlightId) (slot layer lslot : Nat) (s : State) : RunsIf (flightOk f) (execExpertProgramStart f slot layer lslot s) := by
  unfold execExpertProgramStart
  refine .guard ?_
  extract_lets fk
  split
  · exact .next
  · extract_lets job
    split
    · exact .next
    · split
      · exact .next
      · exact .ite .next <| .ite .next .next

theorem execExchangeTimeout_runs (job layer : Nat) (s : State) : RunsIf true (execExchangeTimeout job layer s) := by
  unfold execExchangeTimeout
  split <;> exact .next

theorem execRebalancePeriod_runs (model : Nat) (loads : List (Nat × Nat × Nat × Nat)) (s : State) : RunsIf true (execRebalancePeriod model loads s) := by
  unfold execRebalancePeriod
  split
  · exact .next
  · exact .ite .next <| .ite .next .next

theorem execTimeExchangeTick_runs (s : State) : RunsIf true (execTimeExchangeTick s) := by
  unfold execTimeExchangeTick
  refine .ite .next <| .ite .next <| .ite .next ?_
  split <;> exact .next

theorem execTelemetry_runs (m : BalMsg) (s : State) : RunsIf true (execTelemetry m s) := by
  unfold execTelemetry
  extract_lets
  refine .ite .next ?_
  extract_lets e port arrival r
  split
  · exact .next
  · exact .ite .next .next

theorem execRecommend_runs (m : BalMsg) (s : State) : RunsIf true (execRecommend m s) := by
  unfold execRecommend
  refine .ite .next ?_
  extract_lets r p
  split
  · exact .next
  · exact .ite .next .next

theorem execEopResp_runs (m : BalMsg) (s : State) : RunsIf true (execEopResp m s) := by
  unfold execEopResp
  refine .ite .next ?_
  split <;> exact .next

theorem execEsmcTimeout_runs (port : Nat) (s : State) : RunsIf (opticalOk port) (execEsmcTimeout port s) := by
  unfold execEsmcTimeout
  refine .guard ?_
  split <;> exact .next

theorem execPpsEdge_runs (time : Nat) (s : State) : RunsIf true (execPpsEdge time s) := by
  unfold execPpsEdge
  refine .ite .next ?_
  split
  · exact .ite .next .next
  · exact .next

theorem execPpsWindowEnd_runs (time : Nat) (s : State) : RunsIf true (execPpsWindowEnd time s) := by
  unfold execPpsWindowEnd
  refine .ite .next ?_
  split
  · exact .next
  · exact .ite .next .next

theorem execPpsOutPulse_runs (s : State) : RunsIf true (execPpsOutPulse s) := by
  unfold execPpsOutPulse
  split
  · exact .next
  · exact .ite .next .next

theorem execEpisodeCloseTimer_runs (episode : Nat) (s : State) : RunsIf true (execEpisodeCloseTimer episode s) := by
  unfold execEpisodeCloseTimer
  split <;> exact .next

theorem execWeightRepairDone_runs (episode : Nat) (clean : Bool) (v : WeightCheck) (s : State) : RunsIf true (execWeightRepairDone episode clean v s) := by
  unfold execWeightRepairDone
  split
  · exact .next
  · split
    · exact .next
    · exact .ite .next <| .ite .next .next

theorem execProgramImageRepaired_runs (e : ImageRepair) (s : State) : RunsIf true (execProgramImageRepaired e s) := by
  unfold execProgramImageRepaired
  split <;> exact .next

/-! ### Commands that name a part of a part -/

theorem execArchDown_runs (arch cause : Nat) (s : State) : RunsIf (archOk arch && decide (cause < 4)) (execArchDown arch cause s) := by
  unfold execArchDown
  exact .guardFirst <| .refusedWhere (by simp; omega) .next

theorem execCorridorDown_runs (corridor : Nat) (s : State) : RunsIf (decide (corridor < 4)) (execCorridorDown corridor s) := by
  unfold execCorridorDown
  exact .refusedWhere (by simp) <| .ite .next .next

theorem execMsixVectorUnmask_runs (vector : Nat) (function : Bool) (s : State) :
    RunsIf (function || vectorOk vector) (execMsixVectorUnmask vector function s) := by
  unfold execMsixVectorUnmask
  exact .refusedWhere (by simp) <| .ite .next .next

/-! ### The statement -/

/-- Each command by the shape of its conditions. -/
theorem exec_runs (c : Instr) (s : State) : RunsIf (wellFormed c) (exec c s) := by
  cases c with
  -- no part named, one outcome
  | odRead | odWrite | odDomainReadStart | odDomainWriteStart | odDomainSegment | odDomainAbort | odStateWait | stateWaitTimeout | proxyTimeout
  | stateRequest | stateTransitionEnd | store | restore | xlateInvalidate | pageResponse | prlConsumerWrite | clogConsumerWrite | tableBaseWrite
  | hostWindowWrite | layerModeWrite | loadRequest | partTimeout | unload | fieldMapWrite | fieldCellSet | errorAck | persistentClear | attestReport
  | fwImage | fwProgramDone | fwActivate | trainRequest | testStart | testAbort | marginStart | bistStart | measStart | measDone | identify
  | backgroundOperationStatus | requestAbortBackgroundOperation | getEventRecords | clearEventRecords | getEventInterruptPolicy
  | setEventInterruptPolicy | getTimestamp | setTimestamp | getSupportedLogs | getLog | identifyMemoryDevice | h2dSnoop | cxlLinkDown | perst | flr
  | d3hotEntry | d0Entry | ttlCheck | replacement | helloInterval | ptpLost | logIntervalEnd | persistRecord | serviceReq | serviceChatterEnd
  | serviceStandbyTimer | thermtrip | powerFastLimit | fastLimitHoldEnd | inputVoltageEvent | freqQualify | tcxoStart | pllLock | rowCountClear
  | hotswapClose | mateDetOpen | extest | extestPulse | extestTrain | clamp | highz | bypass => exact .next
  -- a part named, one outcome
  | odRequest | odResponse | eopRead | eopWrite | eopDomainReadStart | eopDomainWriteStart | eopDomainSegment | eopDomainAbort | tenantRootWrite
  | nop | waitOp | barrier | stepOp | passOp | sparsePass | serialPass | outlierPass | countPass | predict | drain | retag | release | inject
  | statscale | reduce | fetch | storeOperation | copy | fillTokens | fillOutlier | fillTable | handleSet | send | recv | broadcast | allGather
  | reduceScatter | allReduce | allToAll | route | outboundDispatch | returnDispatch | combine | sample | mask | promptShareWindow | hello | election
  | barrierArrive | barrierRelease | jobStop | syncEpoch | sendData | collData | manifest | exchRows | returnManifest | returnRows | moveData
  | moveConfirm | dataFlit | loopAck | rateBelowFloor | laneCeWindow | recentre | fecLockLost | echo => exact .guard .next
  -- trees of conditions
  | birsp | birspTimeout | cxlReset | electionSettle | archRetry | rackSyncPulse | rackRefLost | timeUnaligned | mapUpdate | timeSet | heartbeat
  | heartbeatTimeout | ref10Measure | newelRestart | sensorSample | smbusReadModuleState | smbusReadAlertCauses | smbusReadHallTemp
  | smbusReadStackTemp | smbusReadCoolantInlet | smbusReadCoolantOutlet | smbusReadInputVoltage | smbusReadInputCurrent | smbusReadInputPower
  | smbusReadIdentity | smbusReadFwVersion | alertResponseAddress | governorTick | scrubRead | powerGood | memoryTrainingDone | ready | idcode
  | samplePreload | newelRestartDone => exact .ite .next .next
  | programStart | programResume | batchWaitExpiry | nak | ackTimeout | timeReq | timeResp | archTraining | laneFecWindow | portLinkChange | esmcPdu
  | flitSlot => exact .guard <| .ite .next .next
  | hdmDecoderCommit | cxlLinkUp | timeReport | config | firmware | training => exact .ite .next <| .ite .next .next
  | eopDatagram | sfpInserted | icmpEcho => exact .guard <| .ite .next <| .ite .next .next
  | hdmRead | hdmWrite | foyerEvent | timebaseLockCheck => exact .ite .next <| .ite .next <| .ite .next .next
  | telemetryDatagram => exact .guard <| .ite .next <| .ite .next <| .ite .next .next
  | eopReq => exact .ite .next <| .ite .next <| .ite .next <| .ite .next .next
  | loopReq => exact .guard <| .ite .next <| .ite (.ite .next .next) .next
  | ptpMessage => exact .ite .next <| .ite .next <| .ite (.ite .next .next) <| .ite .next .next
  -- what the command finds decides
  | domainAborted => exact execDomainAborted_runs _ _ _ s
  | packingDone => exact execPackingDone_runs _ _ s
  | testEnd => exact execTestEnd_runs _ _ _ s
  | marginEnd => exact execMarginEnd_runs _ s
  | bistEnd => exact execBistEnd_runs _ _ s
  | programLoad => exact execProgramLoad_runs _ _ _ s
  | flightOffer => exact execFlightOffer_runs _ s
  | endOp => exact execEndOp_runs _ s
  | repeatOp => exact execRepeatOp_runs _ s
  | barrierTimeout => exact execBarrierTimeout_runs _ _ _ s
  | operationEnd => exact execOperationEnd_runs _ _ s
  | preemptionPoint => exact execPreemptionPoint_runs _ s
  | blockRefetchDone => exact execBlockRefetchDone_runs _ _ _ s
  | moverTake => exact execMoverTake_runs _ s
  | moverAccessDone => exact execMoverAccessDone_runs _ _ _ s
  | pageTimeout => exact execPageTimeout_runs _ _ s
  | coalesceExpiry => exact execCoalesceExpiry_runs _ s
  | parkDone => exact execParkDone_runs _ _ s
  | restoreDone => exact execRestoreDone_runs _ s
  | expertProgramStart => exact execExpertProgramStart_runs _ _ _ _ s
  | exchangeTimeout => exact execExchangeTimeout_runs _ _ s
  | rebalancePeriod => exact execRebalancePeriod_runs _ _ s
  | timeExchangeTick => exact execTimeExchangeTick_runs s
  | archDown => exact execArchDown_runs _ _ s
  | telemetry => exact execTelemetry_runs _ s
  | recommend => exact execRecommend_runs _ s
  | eopResp => exact execEopResp_runs _ s
  | esmcTimeout => exact execEsmcTimeout_runs _ s
  | ppsEdge => exact execPpsEdge_runs _ s
  | ppsWindowEnd => exact execPpsWindowEnd_runs _ s
  | ppsOutPulse => exact execPpsOutPulse_runs s
  | episodeCloseTimer => exact execEpisodeCloseTimer_runs _ s
  | weightRepairDone => exact execWeightRepairDone_runs _ _ _ s
  | corridorDown => exact execCorridorDown_runs _ s
  | msixVectorUnmask => exact execMsixVectorUnmask_runs _ _ s
  | programImageRepaired => exact execProgramImageRepaired_runs _ s

/-- Settles O58: the outcome of each command is a tree of next states behind the refusal of a missing part. -/
theorem everyCommandRuns : Obligations.EveryCommandRuns := exec_runs

end Sys2Proof.Machine
end
